-- ==== Sys2Proof/Word.lean ====
section
/-!
DEFINITION. The word types of the part and their plainest arithmetic (R10, R95, R101, R454): a parameter word,
a byte, bit fields, saturating counters, rounding to the nearest whole number with halves up.
-/
namespace Sys2Proof

/-- A 32-bit parameter word (R454). -/
abbrev Word := BitVec 32

/-- A byte of a frame, an image or a key. -/
abbrev Byte := BitVec 8

/-- A string of bytes. -/
abbrev Bytes := List Byte

/-- Bits `hi` down to `lo` of a number: the field NAME[hi:lo] of R10. -/
def bitsOf (v hi lo : Nat) : Nat := v / 2 ^ lo % 2 ^ (hi - lo + 1)

/-- A field of a word as an unsigned number. -/
def Word.field (w : Word) (hi lo : Nat) : Nat := bitsOf w.toNat hi lo

/-- An unsigned number of `n` bits read as two's complement. -/
def toSigned (n v : Nat) : Int := if v < 2 ^ (n - 1) then (v : Int) else (v : Int) - 2 ^ n

/-- A signed number as its `n`-bit two's complement code. -/
def ofSigned (n : Nat) (v : Int) : Nat := (v % 2 ^ n).toNat

/-- A counter field that saturates at `2 ^ n - 1` (R95). -/
def satInc (n c : Nat) : Nat := min (2 ^ n - 1) (c + 1)

/-- Rounding of `a / b` to the nearest whole number, halves up (R66, R82, R99). -/
def roundDiv (a b : Int) : Int := (2 * a + b) / (2 * b)

/-- The value of `v` held between `lo` and `hi`; `lo` wins when the bounds cross (R102). -/
def clampInt (lo hi v : Int) : Int := max lo (min hi v)

/-- Unsigned big-endian value of a string of bytes (R388). -/
def beNat (bs : Bytes) : Nat := bs.foldl (fun a b => a * 256 + b.toNat) 0

/-- Unsigned little-endian value of a string of bytes (R46). -/
def leNat (bs : Bytes) : Nat := bs.foldr (fun b a => b.toNat + 256 * a) 0

/-- The `n` big-endian bytes of a number. -/
def toBe : Nat → Nat → Bytes
  | 0, _ => []
  | n + 1, v => BitVec.ofNat 8 (v / 256 ^ n) :: toBe n v

/-- The `n` little-endian bytes of a number. -/
def toLe : Nat → Nat → Bytes
  | 0, _ => []
  | n + 1, v => BitVec.ofNat 8 v :: toLe n (v / 256)

/-- Bytes `off` to `off + n - 1` of a string. -/
def slice (bs : Bytes) (off n : Nat) : Bytes := (bs.drop off).take n

/-- A flag as the number 0 or 1. -/
def flag (b : Bool) : Nat := if b then 1 else 0

/-- One entry of a fixed family replaced by its image under `f`. -/
def upd {α : Type} {n : Nat} (v : Vector α n) (i : Fin n) (f : α → α) : Vector α n :=
  v.set i (f v[i])

@[simp] theorem upd_same {α : Type} {n : Nat} (v : Vector α n) (i : Fin n) (f : α → α) :
    (upd v i f)[i] = f v[i] := by simp [upd]

theorem upd_other {α : Type} {n : Nat} (v : Vector α n) (i j : Fin n) (f : α → α) (h : i ≠ j) :
    (upd v i f)[j] = v[j] := by
  have : (i : Nat) ≠ (j : Nat) := fun e => h (Fin.ext e)
  simp [upd, this]

/-- The number with bit `k` set. -/
def setBit (m k : Nat) : Nat := m ||| 2 ^ k

/-- A CT64 time (R11): whole seconds since 2000 in bits [63:30], nanoseconds below. -/
def ct64 (ns : Nat) : Nat := (ns / 1000000000 % 2 ^ 34) * 2 ^ 30 + ns % 1000000000

/-- A CT64 value whose nanosecond field is at most 999,999,999 (R11). -/
def ct64Ok (v : Nat) : Bool := v < 2 ^ 64 && v % 2 ^ 30 ≤ 999999999

/-- The nanoseconds since 2000 that a CT64 value stands for. -/
def ct64Ns (v : Nat) : Nat := v / 2 ^ 30 * 1000000000 + v % 2 ^ 30

end Sys2Proof
end

