-- ==== Sys2Proof/Syntax.lean ====
section
/-!
DEFINITION. The commands of the block as syntax: the operand types and the ONE inductive `Instr` with a constructor
for every row of spec/opcode_table.json. The table gives its rows no bits (its "fields" are empty), so a command is
not a word: it is a constructor with what it brings from outside.
-/
namespace Sys2Proof

/-- The two rails whose dip resets the Helm and Sextant dies (R34). -/
inductive CoreRail where
  | core | io
  deriving DecidableEq, Repr

/-- One firmware image as a boot ROM sees it: its VERSION and DIGEST (Table 17-7). -/
structure ImageId where
  version : Nat
  digest : Bytes
  deriving DecidableEq, Repr

/-- What a die's boot finds at a start, in the order in which it takes the images (R491): the resident copy, the
active slot, the other slot. An entry is `none` where the image is absent or its digest or signature fails. -/
structure ImageChoice where
  resident : Option ImageId
  active : Option ImageId
  other : Option ImageId
  deriving DecidableEq, Repr

/-- The SLAC messages of ISO 15118-3 that R154 names. -/
inductive SlacMessage where
  | parm | startAttenChar | mnbcSound | attenChar | slacMatch
  deriving DecidableEq, Repr

/-- A key exchange group of a vehicle's TLS hello; `other` is any that R155 does not name. -/
inductive TlsGroup where
  | secp521r1 | x448 | other
  deriving DecidableEq, Repr

/-- A signature scheme of TLS (R155): ECDSA secp521r1 with SHA-512, Ed448, ECDSA P-256 with SHA-256, any other. -/
inductive TlsScheme where
  | ecdsaSecp521r1 | ed448 | ecdsaP256 | other
  deriving DecidableEq, Repr

/-- A TLS 1.3 handshake with a vehicle (R155): whether it offers TLS_AES_256_GCM_SHA384, its groups and signature schemes in
order, how its certificate chain is signed, the first 8 bytes of the SHA-256 of its root's subject (Table 17-2), and whether
the chain and the transcript verify and the handshake completes. -/
structure TlsHello where
  suite : Bool
  groups : List TlsGroup
  schemes : List TlsScheme
  chain : TlsScheme
  root : Bytes
  completes : Bool
  deriving DecidableEq, Repr

/-- What ends a freeze of a DC block (R204): 200 ms after the end of the event, Helm's 2 s, or 10 s. -/
inductive FreezeEnd where
  | event | helm | long
  deriving DecidableEq, Repr

/-- The service requests of Tables 06-3 and 06-4. `payment` is ServicePaymentSelection of DIN SPEC 70121. -/
inductive ServiceRequest where
  | discovery
  | detail (service : Nat)
  | selection (bpt : Bool)
  | payment (external : Bool)
  deriving DecidableEq, Repr

/-- The kinds of authorisation of R166 and Table 16-5. -/
inductive AuthKind where
  | contract | eim | card
  deriving DecidableEq, Repr

/-- PowerDelivery of Table 06-3. -/
inductive PowerMode where
  | start | stop | standby | renegotiate
  deriving DecidableEq, Repr

/-- A tag's reply as the receiver hands it over: its start, in carrier cycles after the end of the last notch of the reader's
frame (R182), the bit of the first Manchester violation, if there is one (R180), and the bits in their order: all of them, or
those before the violation. -/
structure AirReply where
  start : Nat
  violation : Option Nat
  bits : List Bool
  deriving DecidableEq, Repr

/-- One cascade level of a crew card's selection (R194): the bits, of UID bytes and BCC, at which answers collided, and the
four bytes and the BCC that the loop ended with. -/
structure CardLevel where
  collisions : List Nat
  bytes : Bytes
  bcc : Byte
  deriving DecidableEq, Repr

/-- What an antenna port's measurement gives (R178): the load in 0.1 Ω, at 10 mW, and the transmit current in µA. -/
structure AntLoad where
  ohms : Nat
  current : Nat
  deriving DecidableEq, Repr

/-- A reading of the panel thermistor (R278), in 0.1 °C, or an open or shorted thermistor. -/
inductive PanelTemp where
  | reading (t : Int)
  | fault
  deriving DecidableEq, Repr

/-- A mailbox request from Helm to Meridian (R15, R23, Table 01-3). -/
inductive MailRequest where
  | openRecord (o : Fin 2) (tokenHash : Bytes) (account : Nat)
  | closeRecord (o : Fin 2) (fault : Bool)
  | readTariffs (o : Fin 2)
  | readVehicle (o : Fin 2)
  | readTime
  deriving DecidableEq, Repr

/-- The transports of R385. -/
inductive Transport where
  | turxel (port : Fin 2)
  | tcp (port : Fin 2)
  | spi
  deriving DecidableEq, Repr

/-- A host frame as it arrives (R387 to R389): the header fields beside the command's code, the MAC, and the transport. The
payload is the command's own, laid out as Table 16-6 says from the operands beside the frame; `raw` is one that does not have its
command's layout. -/
structure Frame where
  sid : Nat
  seq : Nat
  cls : Nat
  flags : Nat := 0
  status : Nat := 0
  len : Nat
  opId : Nat := 0
  raw : Option Bytes := none
  mac : Bytes
  via : Transport
  deriving DecidableEq, Repr

/-- A chunk of a chunked command (R412). -/
structure Chunk where
  total : Nat
  offset : Nat
  data : Bytes
  deriving DecidableEq, Repr

/-- An item of SCROLL_SET (Table 16-6, R272). -/
structure ScrollItem where
  kind : Nat
  dwell : Nat
  arg : Nat
  text : Bytes
  deriving DecidableEq, Repr

/-- What a Lookout channel presents in an exchange (R297): its input lines, SIA, SIB, FBA and FBB, its function states and its
output commands. -/
structure LkImage where
  inputs : BitVec 48
  fns : BitVec 10
  outs : BitVec 8
  deriving DecidableEq, Repr

/-- What KEY_IMPORT's wrapped material yields (R422): `failed` when the decryption or its tag fails. -/
inductive Unwrapped where
  | ok (attrs material : Bytes)
  | failed
  deriving DecidableEq, Repr

/-- The selectors of R461. -/
inductive RecordSel where
  | evt | snap | srec | levt
  deriving DecidableEq, Repr

/-- Where a double-bit error lies (R448). -/
inductive MemPlace where
  | helmSram
  | sextantSram
  | lookoutMram (ch : Fin 2)
  | heldTwice (struct_ : Nat)
  | resident (target : Fin 4)
  | crcRecord (rec : Nat)
  deriving DecidableEq, Repr

/-- The memory scrubbers of Table 18-3. -/
inductive Scrubber where
  | helmSram | sextantSram | helmMram | meridianMram
  | lookoutMram (ch : Fin 2)
  deriving DecidableEq, Repr

/-- The wake sources of R471. -/
inductive WakeSource where
  | signal | alarm | logline | pin | frame
  deriving DecidableEq, Repr

/-- The classes of Table 13-2. -/
inductive TxlClass where
  | safe | ctrl | beacon | host | bulk
  deriving DecidableEq, Repr

/-- Class codes of Table 13-2. -/
def TxlClass.code : TxlClass → Nat
  | .safe => 1 | .ctrl => 2 | .beacon => 3 | .host => 4 | .bulk => 5

/-- A received Ethernet frame (R326, R327): its EtherType, whether it carries an 802.1Q tag, and the bytes between the
EtherType and the FCS. -/
structure TxlFrame where
  etype : Nat
  tagged : Bool
  body : Bytes
  deriving DecidableEq, Repr

/-- A PTP message (R339), received or, for Delay_Req and Pdelay_Req, sent. Time stamps of the module (`rx`, `tx`) are in ns;
`origin`, `received` and `sent` are the times the message carries, in ns; corrections are in 2^-16 ns, `log` is the base-2
logarithm of the message interval in s, as IEEE 1588-2019 gives them (PRESUMED, log 92). -/
inductive PtpMessage where
  | announce (log : Int)
  | sync (seq : Nat) (twoStep : Bool) (log origin corr rx : Int)
  | followUp (seq : Nat) (origin corr : Int)
  | delayReq (seq : Nat) (tx : Int)
  | delayResp (seq : Nat) (received corr : Int)
  | pdelayReq (seq : Nat) (tx : Int)
  | pdelayResp (seq : Nat) (twoStep : Bool) (received corr rx : Int)
  | pdelayFollowUp (seq : Nat) (sent corr : Int)
  deriving DecidableEq, Repr

/-- The network requests of R340: the address asked for, and the data of an echo. -/
inductive NetRequest where
  | arp (ip4 : Nat)
  | neighbour (ip6 : List Nat)
  | echo4 (ip4 : Nat) (data : Bytes)
  | echo6 (ip6 : List Nat) (data : Bytes)
  deriving DecidableEq, Repr

/-- What LL_RX brings from the start of a preamble on (R342, R349, R350): the slot in which it starts, counted over all
cycles; how many of the slots listed first are idle ones before it; the ADC codes of each slot's 768 samples, missing ones being
at the bias. -/
structure LlAir where
  slot : Nat
  idle : Nat
  samples : List (List Nat)
  deriving DecidableEq, Repr

/-- Bytes of a key slot found upset when its tag is checked (R417, R418), as index and difference over the 16 attribute bytes, the
64 of material and the 32 of the tag: of the slot's first copy, and of the second copy of a slot from 0 to 7 or of the second slot
of a pair. -/
structure TagUpsets where
  first : List (Nat × Byte) := []
  second : List (Nat × Byte) := []
  deriving DecidableEq, Repr

/-- What the tamper sensors show (R431): successive samples of TAMP[3:0], what TMESH_O drives and TMESH_I returns, VDD_CORE and
VDDIO in mV, the H-SEC clock period in ps, and the die temperature in 0.1 °C. -/
structure TamperSense where
  pins : List (BitVec 4)
  meshOut : List Bool
  meshIn : List Bool
  coreMv : Int
  ioMv : Int
  clockPs : Nat
  temp : Int
  deriving DecidableEq, Repr

/-- A command of the block: one constructor for each row of spec/opcode_table.json, in the table's order. Each
constructor's docstring begins with its mnemonic and the rule the table gives the row. The operands carry what the
command, or the event the command stands for, brings from outside. -/
inductive Instr where
  /-- PORST_RISE (R32): The rising edge of PORST_N starts a cold Landfall. -/
  | porstRise
  /-- CORE_SUPPLY_DIP (R34): VDD_CORE or VDDIO leaves its window: the Helm and Sextant dies reset and the panel pumps stop in hardware. -/
  | coreSupplyDip (rail : CoreRail) (uV : Nat)
  /-- CORE_SUPPLY_RETURN (R34): The dipped core or I/O rail returns to its window and Landfall restarts from its beginning. -/
  | coreSupplyReturn (rail : CoreRail) (uV : Nat)
  /-- LOOKOUT_RAIL_DIP (R34): A Lookout rail dip resets only that channel, and Lookout holds all outputs and gate permit lines safe. -/
  | lookoutRailDip (ch : Fin 2) (uV : Nat)
  /-- HELM_RESTART_EARLY (R487): A Helm restart before Landfall complete restarts Landfall at milestone 0x03, with holds judged afresh except the tamper hold. -/
  | helmRestartEarly
  /-- LOOKOUT_CHANNELS_RUNNING (R35): Both Lookout channels run with outputs held safe: milestone 0x01. -/
  | lookoutChannelsRunning (imgA imgB : ImageChoice)
  /-- MERIDIAN_METERING_START (R36): Meridian verifies its image from internal memory and starts metering: milestone 0x02. -/
  | meridianMeteringStart (img : ImageChoice)
  /-- HELM_FIRMWARE_STARTED (R35): The Helm boot ROM verifies and starts the Helm firmware, reads out tamper capture and checks the straps: milestone 0x03. -/
  | helmFirmwareStarted (img : ImageChoice) (role : Fin 4)
  /-- CHART_SOURCE_CHOSEN (R53): Helm verifies the active chart slot, compares it with the MRAM snapshot and chooses the chart in use: milestone 0x04. -/
  | chartSourceChosen (answers sigOk : Bool)
  /-- SEXTANT_IMAGE_LOADED (R35): The Sextant image is read from its active slot, verified and loaded: milestone 0x05. -/
  | sextantImageLoaded (img : ImageChoice)
  /-- CHART_SECTIONS_DISTRIBUTED (R35): Chart sections are distributed, and each Lookout channel matches the LOOKOUT check value: milestone 0x06. -/
  | chartSectionsDistributed
  /-- HOST_READY (R38): The host SPI and both Turxel ports accept HELLO, after Landfall or after another Helm restart, and recovery starts: milestone 0x07. -/
  | hostReady
  /-- SELF_TESTS_COMPLETE (R39): The self-test groups end, and a failed group has its stated consequence: milestone 0x08. -/
  | selfTestsComplete (failed : BitVec 8) (ant : Vector AntLoad 3) (paths : BitVec 5) (upsets : List (Fin 128 × TagUpsets))
  /-- LANDFALL_COMPLETE (R37): Landfall reaches energy-ready: milestone 0x09. -/
  | landfallComplete
  /-- HELM_BOOT_RETRY (R491): With no Helm image qualifying, the boot ROM retries image selection every 10 s. -/
  | helmBootRetry (img : ImageChoice) (role : Fin 4)
  /-- GATE_PERMIT_FALL (R21): GP_A or GP_B falls and the Sextant die removes all gate drive, latching running stages with cause PERMIT. -/
  | gatePermitFall (lineB : Bool)
  /-- FLT_N_ASSERT (R79): A driver fault input drives its channel low asynchronously and latches the owning stage with cause FLT. -/
  | fltNAssert (ch : Fin 48) (widthPs : Option Nat)
  /-- READBACK_MISMATCH (R77): A gate readback disagreement persists for 4 counts: the channel goes low and the stage latches with cause READBACK. -/
  | readbackMismatch (ch : Fin 48) (high : Bool)
  /-- CARRIER_LOAD (R74): At a carrier start or top, a pending CMP or CELL_PHS written in PERIOD or PERIOD_CENTRE mode takes effect. -/
  | carrierLoad (c : Fin 48) (top : Bool)
  /-- ROSE_TARGETS_SET (R83): At the next stage period boundary after a cell is retired, shed or returned, new Compass rose targets are set. -/
  | roseTargetsSet (stg : Fin 8)
  /-- ROSE_MOVE_STEP (R84): Each period, ROSE_EFF and STG_SYNC_PH_EFF move toward their targets by at most P_STEPS / 16. -/
  | roseMoveStep (stg : Fin 8)
  /-- SYNC_IN_EDGE (R85): A SYNC_IN rising edge sets the stage reference instant and adjusts the locked carrier period. -/
  | syncInEdge (t high : Nat)
  /-- SYNC_LOCK_SET (R86): After 16 consecutive reference edges within ±2 ns, SYNC_LOCK is set. -/
  | syncLockSet (stg : Fin 8)
  /-- SYNC_LOST (R87): No reference edge for twice the expected interval sets SYNC_LOST, and the carrier holds its last period. -/
  | syncLost (stg : Fin 8)
  /-- PPS_IN_EDGE (R89): A PPS_IN edge is time-stamped against the S-PWM counter. -/
  | ppsInEdge (count : Nat)
  /-- SD_CONTROL_OUTPUT (R91): A sinc3 control filter output is ready and can trigger a law instance. -/
  | sdControlOutput (n : Fin 64) (bits : List Bool) (t : Nat)
  /-- FAST_TRIP (R92): A fast filter output beyond FAST_HI or FAST_LO sets FAST_TRIP and signals the stage's cycle-by-cycle limit. -/
  | fastTrip (n : Fin 64) (bits : List Bool) (t : Nat)
  /-- SD_STUCK (R93): Eight identical bits on an input set STUCK and INVALID, and the filter outputs hold. -/
  | sdStuck (n : Fin 64)
  /-- SD_INVALID_CLEAR (R93): INVALID clears after 3 × CTL_OSR bits without a run of eight. -/
  | sdInvalidClear (n : Fin 64)
  /-- USC_EVENT (R94): An undershoot comparator sees its input below threshold and falling faster than the set slope. -/
  | uscEvent (k : Fin 8) (microvolt slope t : Nat)
  /-- LAW_TRIGGER (R105): A PWM point, sigma-delta output or timer triggers a law instance, which becomes ready or drops the trigger as an overrun. -/
  | lawTrigger (i : Fin 96) (t : Nat)
  /-- LAW_RUN_START (R106): The engine starts the ready instance with the earliest deadline when the lanes are 8 cycles from free. -/
  | lawRunStart (t : Nat)
  /-- LAW_OUTPUT_WRITE (R109): An instance completes its run and writes its output to a cell or cooling drive. -/
  | lawOutputWrite (i : Fin 96) (t : Nat)
  /-- OVERRUN_LATCH (R112): OVR_CONSEC reaches 3: the owning stage latches with cause OVERRUN, or an unowned law stops. -/
  | overrunLatch (i : Fin 96)
  /-- LANE_HEARTBEAT (R25): Helm sends its 1 ms lane heartbeat to the Sextant die, and a returning heartbeat makes Sextant report HELM_LOST. -/
  | laneHeartbeat
  /-- HEARTBEAT_LOSS (R25): No heartbeat for 1,000 ms: each stage ramps down, goes OFF with FAIL 6, or completes its discharge. -/
  | heartbeatLoss
  /-- LANE_SETPOINT_UPDATE (R26): Helm sends setpoints, limits and the post share, which bound each outlet's current from the next sample. -/
  | laneSetpointUpdate (stg : Fin 8) (iSet vSet : Int)
  /-- POST_SPLIT_RECOMPUTE (R27): Helm recomputes the post split at least every 10 ms and on each change of allocation, demand or capacity. -/
  | postSplitRecompute
  /-- STAGE_START (R118): Helm's START moves an OFF stage to PRECHARGE when all start conditions hold. -/
  | stageStart (stg : Fin 8)
  /-- STAGE_STOP (R116): Helm's STOP moves a running stage to OFF or RAMP_DOWN according to its state. -/
  | stageStop (stg : Fin 8)
  /-- VEHICLE_VOLTAGE_DISAGREE (R119): The two vehicle voltage readings disagree for 100 ms and the stage goes OFF with FAIL 1. -/
  | vehicleVoltageDisagree (stg : Fin 8)
  /-- VEHICLE_VOLTAGE_FORWARD (R28): Meridian's MCH0 or MCH2 reading is forwarded through Helm to the Sextant die every 1 ms. -/
  | vehicleVoltageForward (o : Fin 2) (mV : Int)
  /-- PRECHARGE_COMPLETE (R121): The completion band holds for 1 ms: the stage enters CLOSE_WAIT and Helm asks Lookout to close. -/
  | prechargeComplete (stg : Fin 8)
  /-- CLOSE_WAIT_BAND_LOST (R121): The completion condition fails for 5 ms before confirmation and the stage returns to PRECHARGE. -/
  | closeWaitBandLost (stg : Fin 8)
  /-- PRE_TIMEOUT_EXPIRY (R121): NO_SINK or AFE3 RUN is not reached within PRE_TIMEOUT and the stage goes OFF with FAIL 2. -/
  | preTimeoutExpiry (stg : Fin 8)
  /-- CLOSE_REFUSED (R121): Lookout refuses the contactor close and the stage goes OFF with FAIL 3. -/
  | closeRefused (stg : Fin 8)
  /-- CONTACTORS_CONFIRMED (R122): Both feedback contacts confirm closed and the stage enters NO_SINK with its limit rising from 0. -/
  | contactorsConfirmed (stg : Fin 8)
  /-- NO_SINK_EXIT (R123): Stage current holds at or above I_MIN for NS_HOLD: the stage enters RUN and lifts its restrictions. -/
  | noSinkExit (stg : Fin 8)
  /-- REVERSE_CURRENT_LATCH (R124): Reverse current beyond the bound for REV_T latches the stage with cause REVERSE. -/
  | reverseCurrentLatch (stg : Fin 8)
  /-- AFE3_PRECHARGE_COMPLETE (R125): An AFE3 stage meets START_VMIN, AC main confirmation and PLL settling, and enters RUN. -/
  | afe3PrechargeComplete (stg : Fin 8)
  /-- AFE3_AUTO_START (R488): Helm issues START to an AFE3 stage once an outlet it feeds needs it and the start conditions hold. -/
  | afe3AutoStart (stg : Fin 8)
  /-- AFE3_VMIN_REACHED (R488): An AFE3 stage's VOUT reaches START_VMIN and Helm requests the AC main contactor on. -/
  | afe3VminReached (stg : Fin 8)
  /-- AC_MAIN_CONFIRMED (R488): The AC main contactor is confirmed closed and Helm requests the DC link precharge off. -/
  | acMainConfirmed
  /-- AFE3_AUTO_STOP (R488): Every outlet an AFE3 stage feeds has been quiet for IDLE_T and Helm issues STOP. -/
  | afe3AutoStop (stg : Fin 8)
  /-- RAMP_DOWN_COMPLETE (R126): Stage current stays below I_MIN for 1 ms: the stage parks its channels and tells Helm. -/
  | rampDownComplete (stg : Fin 8)
  /-- DISCHARGE_REQUEST (R126): After the contactors open, Helm moves the stage to DISCHARGE, or to OFF when DISCH_EN is 0. -/
  | dischargeRequest (stg : Fin 8)
  /-- DISCHARGE_COMPLETE (R127): VOUT stays below 50 V for 1 ms and the stage enters OFF. -/
  | dischargeComplete (stg : Fin 8)
  /-- DISCH_T_EXPIRY (R127): DISCHARGE is not complete within DISCH_T and the stage enters OFF with FAIL 4. -/
  | dischTExpiry (stg : Fin 8)
  /-- SHED_START (R128): The shed condition holds for SHED_DWELL and the highest-numbered cell enters SHEDDING. -/
  | shedStart (stg : Fin 8)
  /-- ADD_START (R128): The add condition holds for ADD_DWELL and the lowest-numbered shed cell enters ADDING. -/
  | addStart (stg : Fin 8)
  /-- SHED_RAMP_END (R129): After SHED_RAMP periods the shedding cell is parked and enters SHED. -/
  | shedRampEnd (stg : Fin 8)
  /-- ADD_RAMP_END (R129): After SHED_RAMP periods the adding cell enters IN_SERVICE. -/
  | addRampEnd (stg : Fin 8)
  /-- FIRE_END (R133): Firing ends after FIRE_W, the laws resume, and the integrator is preloaded. -/
  | fireEnd (stg : Fin 8) (t : Nat)
  /-- FIRE_REARM (R132): FIRE_REARM after release, the stage is re-armed for load-step firing. -/
  | fireRearm (stg : Fin 8)
  /-- SHED_HOLD_END (R134): SHED_HOLD expires and shedding may start again. -/
  | shedHoldEnd (stg : Fin 8)
  /-- CBC_LATCH (R135): Level-1 truncation in CBC_N consecutive periods on one cell latches the stage with cause CBC. -/
  | cbcLatch (c : Fin 48)
  /-- OCL_LATCH (R135): Stage current above I_LATCH for T_LATCH latches the stage with cause OCL. -/
  | oclLatch (stg : Fin 8)
  /-- CELL_OPEN_RETIRE (R138): A cell meets the open-failure condition for OPEN_T periods and is retired with cause OPEN. -/
  | cellOpenRetire (c : Fin 48)
  /-- EST_T_EXPIRY (R140): An ESTIMATED cell still INVALID after EST_T is ramped out and retired with cause SENSE. -/
  | estTExpiry (c : Fin 48)
  /-- TELEMETRY_TICK (R143): Every 10 µs S-TEL forms cell and stage quantities, averages and peaks. -/
  | telemetryTick
  /-- PILOT_COND_CHANGE (R150): A debounced pilot level change gives a new COND and drives the outlet transitions it causes. -/
  | pilotCondChange (o : Fin 2) (high low pp : List Nat) (heldMs : Nat)
  /-- T1S_LINK_UP (R153): The 10BASE-T1S link indication holds for 20 ms and the link is reported up. -/
  | t1sLinkUp (o : Fin 2)
  /-- SLAC_MESSAGE (R154): A SLAC matching message from the vehicle advances the ISO 15118-3 matching sequence. -/
  | slacMessage (o : Fin 2) (m : SlacMessage)
  /-- SDP_REQUEST (R155): The vehicle's SECC Discovery Protocol request is answered. -/
  | sdpRequest (o : Fin 2)
  /-- TLS_HANDSHAKE (R155): A TLS 1.3 handshake with the vehicle completes or fails. -/
  | tlsHandshake (o : Fin 2) (hello : TlsHello)
  /-- SUPPORTED_APP_PROTOCOL (R156): The vehicle's SupportedAppProtocol request is answered and T_LINK stops. -/
  | supportedAppProtocol (o : Fin 2) (iso din : Bool)
  /-- SESSION_SETUP (R156): The vehicle's SessionSetup is answered with the EVSEID. -/
  | sessionSetup (o : Fin 2)
  /-- SERVICE_DISCOVERY (R156): ServiceDiscovery, ServiceDetail, ServiceSelection or ServicePaymentSelection is answered. -/
  | serviceDiscovery (o : Fin 2) (r : ServiceRequest)
  /-- AUTHORIZATION_REQUEST (R166): The vehicle's authorisation request starts the authorisation decision and the outlet enters IDENTIFIED. -/
  | authorizationRequest (o : Fin 2) (kind : AuthKind) (ident : Bytes) (chainOk : Bool)
  /-- CHARGE_PARAMETER_DISCOVERY (R156): ChargeParameterDiscovery is answered with the outlet's present limits. -/
  | chargeParameterDiscovery (o : Fin 2) (vMax : Nat)
  /-- SCHEDULE_EXCHANGE (R156): ScheduleExchange is answered with the outlet's post share capped at P_RATED. -/
  | scheduleExchange (o : Fin 2) (dynamic : Bool)
  /-- DC_CABLE_CHECK (R160): The vehicle's cable check request starts ISOLATION_TEST once lock and permit hold. -/
  | dcCableCheck (o : Fin 2)
  /-- DC_PRE_CHARGE (R158): The vehicle's precharge request is answered while PRECHARGE runs. -/
  | dcPreCharge (o : Fin 2) (target : Nat)
  /-- POWER_DELIVERY (R156): PowerDelivery Start, Stop or Standby is handled. -/
  | powerDelivery (o : Fin 2) (m : PowerMode)
  /-- DC_CHARGE_LOOP (R156): A charge loop or CurrentDemand request updates the vehicle request limit and restarts T_LOOP. -/
  | dcChargeLoop (o : Fin 2) (iReq target exportLim : Nat) (error : Bool)
  /-- DC_WELDING_DETECTION (R156): WeldingDetection is answered in WELD_CHECK and DISCHARGE. -/
  | dcWeldingDetection (o : Fin 2)
  /-- VEHICLE_SESSION_STOP (R161): The vehicle's SessionStop acts as a stop trigger. -/
  | vehicleSessionStop (o : Fin 2) (pause error : Bool)
  /-- CERTIFICATE_INSTALLATION (R156): CertificateInstallation is forwarded to the host, or refused without an OPERATOR session. -/
  | certificateInstallation (o : Fin 2) (exi : Bytes)
  /-- UNSUPPORTED_REQUEST (R156): An unsupported vehicle request draws the failure response and ends the session. -/
  | unsupportedRequest (o : Fin 2)
  /-- VEHICLE_LINK_LOST (R162): The vehicle link or its TLS session is lost and the outlet enters FAULTED with cause LINK. -/
  | vehicleLinkLost (o : Fin 2)
  /-- T_INVENTORY_EXPIRY (R157): T_INVENTORY expires and the outlet enters FAULTED with cause TAGS. -/
  | tInventoryExpiry (o : Fin 2)
  /-- T_LINK_EXPIRY (R157): T_LINK expires and the outlet enters FAULTED with cause LINK. -/
  | tLinkExpiry (o : Fin 2)
  /-- T_SEQ_EXPIRY (R157): T_SEQ expires and the outlet enters FAULTED with cause VEHICLE. -/
  | tSeqExpiry (o : Fin 2)
  /-- T_ONGOING_EXPIRY (R174): T_ONGOING expires and the outlet enters FAULTED with the cause Table 06-12 gives for its state. -/
  | tOngoingExpiry (o : Fin 2)
  /-- T_AUTH_EXPIRY (R166): T_AUTH expires without a host answer and the local table decides. -/
  | tAuthExpiry (o : Fin 2)
  /-- T_ISO_EXPIRY (R157): T_ISO expires and the outlet enters FAULTED with cause INSULATION. -/
  | tIsoExpiry (o : Fin 2)
  /-- T_LOOP_EXPIRY (R161): T_LOOP expires and the outlet ramps down with reason T_LOOP. -/
  | tLoopExpiry (o : Fin 2)
  /-- T_STANDBY_EXPIRY (R161): T_STANDBY expires and the outlet ramps down with reason T_STANDBY. -/
  | tStandbyExpiry (o : Fin 2)
  /-- T_LOCK_EXPIRY (R169): The lock feedback does not confirm within T_LOCK and the outlet enters FAULTED with cause LOCK. -/
  | tLockExpiry (o : Fin 2)
  /-- T_DISCH_EXPIRY (R157): T_DISCH expires and the outlet enters FAULTED with cause DISCHARGE. -/
  | tDischExpiry (o : Fin 2)
  /-- ISO_DWELL_END (R160): The isolation test voltage has been held for ISO_DWELL and Helm awaits the Sounding verdict. -/
  | isoDwellEnd (o : Fin 2)
  /-- LOCK_CONFIRMED (R169): LOCK_FB_x reads locked after the lock was driven. -/
  | lockConfirmed (o : Fin 2)
  /-- CONTACTORS_OPEN_CONFIRMED (R158): Both feedbacks read open within t_fb after opening and the outlet leaves WELD_CHECK. -/
  | contactorsOpenConfirmed (o : Fin 2)
  /-- VEHICLE_SIDE_DISCHARGED (R158): The stage is OFF and both vehicle-side readings are below 60 V, so the outlet enters UNLOCK. -/
  | vehicleSideDischarged (o : Fin 2)
  /-- UNLOCK_CONFIRMED (R158): LOCK_FB_x reads unlocked, the session record closes and the outlet enters FINISHED. -/
  | unlockConfirmed (o : Fin 2)
  /-- FAULTED_CONTACTOR_OPEN (R163): Lookout opens the contactors when the current falls below I_MIN, or 20 ms after entry to FAULTED. -/
  | faultedContactorOpen (o : Fin 2)
  /-- COOLING_INPUT_UPDATE (R172): A new cooling input value makes the Sextant die recompute I_DERATE and UNCOOLED. -/
  | coolingInputUpdate (o : Fin 2) (j : Fin 8) (value : Int) (time : Nat)
  /-- TAG_STALE_500MS (R172): The pin temperature input exceeds 500 ms of age and the outlet falls to its uncooled limit. -/
  | tagStale500ms (o : Fin 2)
  /-- TAG_STALE_2S (R161): Handle tag data exceed 2 s of age: a stop trigger, or a TAGS fault before ENERGY_TRANSFER. -/
  | tagStale2s (o : Fin 2)
  /-- DRIVE_FAULT (R170): A cooling drive's speed stays below TACH_MIN for 2 s of counted duty and DRIVE_FAULT is set. -/
  | driveFault (d : Fin 6) (pulses ms : Nat)
  /-- FLOW_LOW (R172): Flow stays below FLOW_MIN for 2 s and the outlet falls to its uncooled limit. -/
  | flowLow (o : Fin 2)
  /-- READER_CYCLE_START (R176): A 100 ms reader cycle begins and the port windows are assigned. -/
  | readerCycleStart
  /-- PORT_WINDOW_START (R176): A port's window opens: ANT_SEL switches and the field comes on. -/
  | portWindowStart (p : Fin 3)
  /-- FIELD_SETTLED (R175): T_SETTLE after the field comes on, the reader sends its first command of the window. -/
  | fieldSettled
  /-- SLOT_REPLY_RECEIVED (R187): A tag slot reply is received and resolved as clean, collision or unusable. -/
  | slotReplyReceived (r : AirReply)
  /-- SLOT_EMPTY (R185): A slot passes with no tag SOF and is counted empty. -/
  | slotEmpty
  /-- SELECT_REPLY_RECEIVED (R187): A reply to a collision-resolving SELECT is received and resolved. -/
  | selectReplyReceived (r : AirReply)
  /-- SENSOR_MEASURE_REPLY (R177): A sensor tag's MEASURE reply arrives and is stamped and passed on as a cooling input. -/
  | sensorMeasureReply (o : Fin 2) (k : Fin 7) (r : AirReply)
  /-- TAG_EXCHANGE_NO_REPLY (R177): An exchange draws no valid reply: it is repeated once or the reading is missed. -/
  | tagExchangeNoReply (o : Fin 2) (k : Fin 7)
  /-- TAG_WRITE_REPLY (R189): The reply to a tag WRITE arrives: OK, BAD_BLOCK or LOW_ENERGY. -/
  | tagWriteReply (o : Fin 2) (r : AirReply)
  /-- WRITE_UNCONFIRMED (R190): A WRITE draws no valid reply and is reported UNCONFIRMED pending a read-back. -/
  | writeUnconfirmed (o : Fin 2)
  /-- WRITE_READBACK (R190): The read-back after an unconfirmed write reports CONFIRMED_NEW, CONFIRMED_OLD or UNREADABLE. -/
  | writeReadback (o : Fin 2) (r : Option AirReply)
  /-- ANT_FAULT_RUNTIME (R178): The transmit current deviates more than 30 % from its Landfall value and ANT_FAULT is set. -/
  | antFaultRuntime (p : Fin 3) (load : AntLoad)
  /-- REQA_POLL (R194): Every 50 ms of port 2 time, the reader sends REQA and runs anticollision. -/
  | reqaPoll
  /-- CARD_SELECTED (R194): A crew card is selected to its full UID, halted, reported to the host and bound. -/
  | cardSelected (atqa : Nat) (levels : List CardLevel) (sak : Nat)
  /-- CARD_LEFT (R194): A card has left WUPA unanswered for 1 s and counts as presented again next time. -/
  | cardLeft (uid : Bytes)
  /-- METER_SAMPLE (R224): Each 16 ksps sample is turned into energy and added to the accumulators and the pulse and demand state. -/
  | meterSample (bits : List (List Bool)) (ovl : BitVec 20)
  /-- PULSE_START (R232): A due pulse starts, no earlier than 2w after the previous one, or is counted in the backlog. -/
  | pulseStart (o : Fin 2) (us : Nat)
  /-- PULSE_END (R232): A pulse's width w ends and the output returns to its inactive level. -/
  | pulseEnd (o : Fin 2)
  /-- P_NOW_REFRESH (R229): Every 100 ms, P_NOW is refreshed as the mean power of the last 1 s. -/
  | pNowRefresh
  /-- FIR_CRC_CHECK (R203): Every 1 s, the engine re-reads the tap CRC of each channel. -/
  | firCrcCheck (upsets : List (Nat × Nat))
  /-- FIR_RMS_WINDOW (R207): A 100 ms window ends and the FIR and fallback path RMS are compared. -/
  | firRmsWindow
  /-- FIR_RESTORED (R207): Verified taps and 10 s of passing RMS comparison return the channel to the FIR path. -/
  | firRestored (k : Fin 12)
  /-- DC_FREEZE_REQUEST (R204): A Helm mailbox request freezes or releases a channel's DC block. -/
  | dcFreezeRequest (k : Fin 12) (on : Bool)
  /-- DC_FREEZE_RELEASE (R204): A freeze ends 200 ms after its supply event, after 2 s of a Helm freeze, or after 10 s with DC_FREEZE_LONG. -/
  | dcFreezeRelease (k : Fin 12) (cause : FreezeEnd)
  /-- STREAM_FAULT (R208): A stuck or missing bitstream, or long overload, is detected on a modulator. -/
  | streamFault (m : Fin 20)
  /-- PILOT_WINDOW (R208): A 2 s pilot window ends and the pilot tone amplitude is judged. -/
  | pilotWindow (m : Fin 20)
  /-- SPARE_SETTLED (R209): The substituted spare's sinc3 has settled and the path uses it again. -/
  | spareSettled (k : Fin 12)
  /-- ROTATION_STEP_START (R212): Every 10 s, a free spare is connected in parallel to the next modulator of its ring. -/
  | rotationStepStart (voltage : Bool)
  /-- ROTATION_SWAP (R212): At 100 ms the outputs are compared and the spare feeds the path, or the step is repeated. -/
  | rotationSwap (voltage : Bool)
  /-- ROTATION_CALIBRATION_DONE (R212): At 8,000 ms the displaced modulator's new trims are judged and it is placed in parallel again. -/
  | rotationCalibrationDone (voltage : Bool) (short plus minus : Int)
  /-- ROTATION_SWAP_BACK (R212): At 8,100 ms the modulator feeds the path again after the comparison. -/
  | rotationSwapBack (voltage : Bool)
  /-- SPARE_CALIBRATION_DONE (R212): At 10,000 ms the spare's calibration is judged. -/
  | spareCalibrationDone (voltage : Bool) (short plus minus : Int)
  /-- REFERENCE_COMPARISON (R213): Every 10 minutes the two band-gap sources are compared and REF_DRIFT is judged. -/
  | referenceComparison (ppm : Int)
  /-- RTD_SAMPLE (R214): Every 100 ms an RTD input is measured, converted and judged open or short. -/
  | rtdSample (r : Fin 4) (mOhm : Nat)
  /-- METRO_COMMIT (R217): Writing 1 to METRO_COMMIT applies the staged legal parameter set and raises PARAM_COMMIT. -/
  | metroCommit (f : Frame)
  /-- REGISTER_COMMIT (R230): Every 1 s and at billing boundaries, Meridian commits its registers to MRAM. -/
  | registerCommit
  /-- HALF_CYCLE_RMS (R235): A half-cycle RMS is formed on a phase and judged for the start or end of a supply event. -/
  | halfCycleRms (ph : Fin 3)
  /-- ZERO_CROSSING_TIMEOUT (R235): No zero crossing within 1.5 half-cycles closes the window at the nominal length. -/
  | zeroCrossingTimeout (ph : Fin 3)
  /-- MERIDIAN_SUPPLY_FAIL (R238): A Meridian rail crosses its threshold: Meridian commits within 200 µs and stops metering. -/
  | meridianSupplyFail (mana mcore : Nat)
  /-- MERIDIAN_RESTART (R238): Both Meridian rails are back for 10 ms and Meridian restarts, processing the boundaries of the outage. -/
  | meridianRestart (img : ImageChoice) (mana mcore : Nat)
  /-- MAILBOX_REQUEST (R23): A Helm request in the Meridian mailbox is performed or refused within 1 ms. -/
  | mailboxRequest (r : MailRequest)
  /-- PTP_OFFSET (R243): Helm passes a PTP offset and the Chronometer slews or steps. -/
  | ptpOffset (ns : Int)
  /-- PTP_DEAD_RECKONING (R243): No PTP offset for 10 s: the source becomes DEAD_RECKONING. -/
  | ptpDeadReckoning
  /-- TIME_UNCERTAIN_SET (R245): UNCERT grows past STEP_LIMIT and TIME_UNCERTAIN is set. -/
  | timeUncertainSet
  /-- LEAP_SECOND (R12): An announced leap second is applied as a 1 s step at the end of its day. -/
  | leapSecond (insert : Bool)
  /-- SLEW_DAY_END (R247): At the end of each UTC day, the net slew is logged as CLOCK_SLEW. -/
  | slewDayEnd
  /-- DEMAND_INTERVAL_END (R252): A demand interval or sub-interval ends, demand is computed and the maximum updated. -/
  | demandIntervalEnd
  /-- CALENDAR_ACTIVATE (R250): The pending tariff calendar becomes active at its activation instant. -/
  | calendarActivate
  /-- TARIFF_SWITCH (R249): A switching point or offset change changes the tariff in force. -/
  | tariffSwitch
  /-- BILLING_SCHEDULED_CLOSE (R256): A scheduled billing close takes the snapshot, resets maximum demand and opens the next period. -/
  | billingScheduledClose
  /-- LEGAL_WINDOW_ITEM (R264): After LEGAL_DWELL, Meridian moves the legal window to its next item. -/
  | legalWindowItem
  /-- LEGAL_PAIR_SEND (R285): Every frame, Meridian sends the legal window image and its expected CRC on the legal lane. -/
  | legalPairSend
  /-- PREPAY_DEBIT (R267): Every 1 s, Helm debits the session's tariff increments from the account. -/
  | prepayDebit
  /-- FRIENDLY_HOURS_END (R270): Friendly hours end while credit is at or below 0 and the credit stop is raised. -/
  | friendlyHoursEnd (o : Fin 2)
  /-- WEATHER_HOLD_END (R269): The weather-window hold reaches its end. -/
  | weatherHoldEnd
  /-- EMERG_REQ_WRITE (R268): An OPERATOR write of EMERG_REQ activates emergency credit in mode 2. -/
  | emergReqWrite (f : Frame) (acct : Nat)
  /-- EVEN_FRAME_BOUNDARY (R282): At an even frame boundary the controller completes, starts and takes rectangles, legal pairs and refreshes. -/
  | evenFrameBoundary
  /-- LEGAL_PAIR_RECEIVED (R286): A legal window pair arrives and replaces any older waiting pair. -/
  | legalPairReceived (upsets : List (Nat × Byte))
  /-- FRAME_END_CRC (R287): At the end of each frame CRC_MEM and CRC_SHIFT are compared with the expected CRC. -/
  | frameEndCrc (upsets : List (Nat × Byte))
  /-- LANE_TIMEOUT (R288): No legal pair for 1 s raises the LANE fault. -/
  | laneTimeout
  /-- PANEL_TEMP_MEASURE (R278): Every 1 s the panel thermistor is measured and the band judged. -/
  | panelTempMeasure (reading : PanelTemp)
  /-- CRACK_MEASURE (R289): Every 1 s the crack loop resistance is measured and judged. -/
  | crackMeasure (ohm : Nat)
  /-- PUMP_FAULT (R276): A charge pump output stays out of its window for 2 ms and the PUMP fault is raised. -/
  | pumpFault (p : Fin 3)
  /-- PUMP_RETRY (R290): Every 60 s Helm retries the panel power sequence after a PUMP fault. -/
  | pumpRetry
  /-- DISPLAY_FAULT_CLEAR (R290): A CRC or LANE fault clears after 10 s of matching frames. -/
  | displayFaultClear
  /-- PANEL_POWER_ON (R292): At milestone 0x03 or on return from Moored, the panel power-on sequence starts. -/
  | panelPowerOn
  /-- PANEL_POWER_STEP (R292): A power-on step meets its condition and the next step begins, or misses its maximum and raises PUMP. -/
  | panelPowerStep (mv : Int) (us : Nat)
  /-- PANEL_POWER_OFF (R293): On entry to Moored or before a PUMP retry, the panel is powered off in order. -/
  | panelPowerOff
  /-- SAFETY_INPUT_CHANGE (R303): A safety input line change is accepted after its filter and the safety functions are evaluated. -/
  | safetyInputChange (n : Fin 16) (a b : Bool) (heldUs : Nat)
  /-- DISCREPANCY_FAULT (R302): The two lines of an input disagree for DISC_T and the input is held in demand. -/
  | discrepancyFault (n : Fin 16)
  /-- TEST_PULSE (R304): A test pulse is driven on TPA or TPB and the fed lines are checked. -/
  | testPulse (k : Fin 4) (sideB : Bool) (samples : List (BitVec 16 × BitVec 16))
  /-- CROSS_COMPARE_EXCHANGE (R297): Every 1 ms the channels exchange and compare images, and a mismatch sets XCMP_LATCH. -/
  | crossCompareExchange (a b : LkImage)
  /-- LOOKOUT_CHANNEL_RESTART (R298): One Lookout channel restarts after a dip or watchdog reset and the other keeps outputs off. -/
  | lookoutChannelRestart (ch : Fin 2)
  /-- CHANNELS_AGREED (R298): After 100 ms of both channels running and agreeing, outputs may close again. -/
  | channelsAgreed
  /-- OFF_TEST (R305): Once a second each side of an output is pulled low briefly and its pad checked. -/
  | offTest (n : Fin 8) (sideB ok : Bool)
  /-- OUTPUT_READBACK_FAULT (R306): A pad differs from its command for more than 200 µs and the fault latches. -/
  | outputReadbackFault (n : Fin 8) (sideB : Bool)
  /-- FEEDBACK_TIMEOUT (R307): T_FB after a command, the feedbacks are judged for not-closed, weld or discrepancy. -/
  | feedbackTimeout (n : Fin 8) (a b : Bool)
  /-- LATE_WELD (R307): A feedback reads closed-main later while the output has stayed off, counting as a weld. -/
  | lateWeld (n : Fin 8) (a b : Bool)
  /-- CONTACTOR_CLOSE_REQUEST (R308): Helm's request to close an outlet's contactors is granted or refused by each channel. -/
  | contactorCloseRequest (o : Fin 2)
  /-- CONTACTOR_OPEN_REQUEST (R126): Helm asks Lookout to open an outlet's contactors. -/
  | contactorOpenRequest (o : Fin 2)
  /-- CLOSE_REQUEST_EXPIRY (R323): A waiting close request is refused after the outlet's T_LOCK. -/
  | closeRequestExpiry (o : Fin 2)
  /-- LOCK_REQUEST (R169): Helm asks for the lock and Lookout drives LOCK_x high. -/
  | lockRequest (o : Fin 2)
  /-- UNLOCK_REQUEST (R310): Helm asks for unlock and Lookout releases it only when SF5 holds. -/
  | unlockRequest (o : Fin 2)
  /-- LOCK_FB_LOST (R169): LOCK_FB_x stops reading locked for 1 ms and SF6 removes permit. -/
  | lockFbLost (o : Fin 2)
  /-- OUTPUT_KIND_REQUEST (R313): Helm requests an output of kind 3 or 4 on or off, honoured only under the gate permit conditions. -/
  | outputKindRequest (kind : Fin 8) (on : Bool)
  /-- RESET_PRESS (R312): A press on RESET_SI lasting 0.1 s to 5 s resets SF1, SF9 and XCMP_LATCH at its return to run. -/
  | resetPress
  /-- HOLSTER_TEST_SEEN (R314): The holster input shows demand then run, each for 100 ms, and the holster test is seen. -/
  | holsterTestSeen (o : Fin 2)
  /-- LANDFALL_COMPLETE_MESSAGE (R489): Helm's lane message sets Lookout's copy of Landfall complete. -/
  | landfallCompleteMessage
  /-- LANDFALL_START_MESSAGE (R489): Helm reports a Landfall start at milestone 0x03 and Lookout clears its copy. -/
  | landfallStartMessage
  /-- SEXTANT_RESET_SEEN (R489): The wired summary shows the Sextant die in reset and Lookout clears its Landfall-complete copy. -/
  | sextantResetSeen
  /-- SOUNDING_HALF_PERIOD (R319): An injection half-period ends and its common-mode mean is settled or not. -/
  | soundingHalfPeriod
  /-- SOUNDING_VERDICT (R320): At the end of each injection period the insulation verdict is formed. -/
  | soundingVerdict (o : Fin 2)
  /-- POLE_VOLTAGE_SAMPLE (R321): Every 1 ms each channel forms U+, U− and V_L. -/
  | poleVoltageSample (o : Fin 2) (p n : Nat)
  /-- SOUNDING_SELFTEST_START (R322): At Landfall, each ISOLATION_TEST or every SND_ST hours, the internal test load is added. -/
  | soundingSelftestStart (o : Fin 2)
  /-- SOUNDING_SELFTEST_END (R322): After 2 injection periods the self-test passes, or sets ST_FAIL as an SF4 demand. -/
  | soundingSelftestEnd (o : Fin 2)
  /-- SOUNDING_SELFTEST_RETRY (R322): A failed Sounding self-test is retried every 60 s. -/
  | soundingSelftestRetry (o : Fin 2)
  /-- PHY_STATUS_POLL (R325): Every 10 ms or on PHY_INT_N, the PHY status is read and the link judged. -/
  | phyStatusPoll (p : Fin 2) (link : Bool) (speed : Nat) (duplex : Bool)
  /-- TURXEL_FRAME_RX (R330): A received Turxel frame is checked for SITE_ID, LINK_MAC and LSEQ and passed to its class. -/
  | turxelFrameRx (p : Fin 2) (f : TxlFrame)
  /-- SAFE_FRAME_FORWARD (R329): The forwarder hands a received SAFE frame to both Lookout channels. -/
  | safeFrameForward (p : Fin 2)
  /-- SAFE_TELEGRAM_CYCLE (R332): Every 2 ms each channel forms and hands over its safe telegram copy. -/
  | safeTelegramCycle
  /-- SAFE_COPY_RECEIVED (R333): A channel receives a telegram copy and pairs it, delivering the pair when all checks hold. -/
  | safeCopyReceived (p : Fin 2) (ch : Fin 2)
  /-- SAFE_PAIR_TIMEOUT (R333): A copy's partner does not arrive within 4 ms and the copy is discarded and counted. -/
  | safePairTimeout (k : Fin 16)
  /-- SAFE_WATCHDOG_EXPIRY (R334): A SAFE_PEER watchdog expires after 20 ms and SF9 goes into demand. -/
  | safeWatchdogExpiry (k : Fin 16)
  /-- SAFE_FALLBACK_ENGAGE (R336): No copy on one port for 10 ms engages single-copy fallback in mode 2. -/
  | safeFallbackEngage (lost : Fin 2)
  /-- SAFE_FALLBACK_END (R336): After 1 s of complete pairs, the fallback ends. -/
  | safeFallbackEnd
  /-- SINGLE_T_EXPIRY (R336): SINGLE_T runs out and single copies are no longer delivered. -/
  | singleTExpiry
  /-- BEACON_SEND (R375): Every 10 ms a module sends a BEACON on both ports. -/
  | beaconSend
  /-- PATH_LOST (R337): Link down or 50 ms without a valid beacon sets PATH_LOST on a port. -/
  | pathLost (p : Fin 2)
  /-- PATH_LOST_CLEAR (R337): After 1 s of valid beacons with the link up, PATH_LOST clears. -/
  | pathLostClear (p : Fin 2)
  /-- PTP_MESSAGE (R339): A PTP Sync, Follow_Up, Announce or delay message is time-stamped and processed. -/
  | ptpMessage (p : Fin 2) (domain : Nat) (m : PtpMessage)
  /-- PTP_ANNOUNCE_TIMEOUT (R339): Three Announce intervals without an Announce move PTP to the other port. -/
  | ptpAnnounceTimeout
  /-- PTP_SYNC_TIMEOUT (R339): Three Sync intervals without a Sync clear LOCKED. -/
  | ptpSyncTimeout
  /-- NETWORK_SERVICE_REQUEST (R340): An ARP, neighbour discovery or ICMP echo request is answered. -/
  | networkServiceRequest (p : Fin 2) (r : NetRequest)
  /-- LL_ZC_EDGE (R344): An LL_ZC rising edge sets the mains reference and slot grid. -/
  | llZcEdge (t : Nat)
  /-- LL_ZC_MISSED (R346): No LL_ZC edge within 1.5 periods continues the grid; after 5 misses ZC_LOST is set. -/
  | llZcMissed
  /-- LL_FRAME_RECEIVED (R352): A Log-line frame is decoded and accepted, lost or discarded, with map errors updated. -/
  | llFrameReceived (x : LlAir)
  /-- LL_RELAY_FORWARD (R359): A relay forwards a frame with HIDX and TXMAP rewritten. -/
  | llRelayForward
  /-- LL_REPLY_SEND (R356): A polled node sends its reply at least 2 ms after the poll ends. -/
  | llReplySend
  /-- LL_POLL_ROUND (R356): The master starts a poll round and sends a POLL, a retry or a beacon poll. -/
  | llPollRound
  /-- LL_REPLY_WAIT_END (R357): No preamble within 8 slots of the expected start ends the master's wait. -/
  | llReplyWaitEnd
  /-- LL_MAP_STEP_DOWN (R354): STEPDN_T without an error steps a segment's map entry down one level. -/
  | llMapStepDown (a : Fin 34) (seg : Fin 12)
  /-- LL_ROUTE_REBUILD (R361): Every 60 s, or when a link in use becomes unusable, the master rebuilds its routing table. -/
  | llRouteRebuild
  /-- LL_LINK_UNUSABLE (R361): No valid frame across a link for 30 s makes it unusable. -/
  | llLinkUnusable (a b : Fin 34)
  /-- LL_PATH_LOST (R362): No valid master frame for 750 ms sets Log-line PATH_LOST at a worker. -/
  | llPathLost
  /-- LL_PATH_CLEAR (R362): After 5 s of valid master frames, Log-line PATH_LOST clears. -/
  | llPathClear
  /-- WORKER_STATUS_SEND (R366): Every 100 ms a worker broadcasts its STATUS message. -/
  | workerStatusSend
  /-- WORKER_STATUS_RX (R366): A manager receives a worker STATUS and updates its inputs and quorum. -/
  | workerStatusRx
  /-- ALLOC_CYCLE (R367): Every 100 ms the active manager computes and publishes the allocation. -/
  | allocCycle
  /-- ALLOC_MESSAGE_RX (R371): A worker accepts or fences an ALLOC or CURTAIL message and applies its entry. -/
  | allocMessageRx
  /-- SHADOW_DIFF_CLEAR (R380): After 60 s of agreeing cycles, SHADOW_DIFF clears. -/
  | shadowDiffClear
  /-- PARAM_MESSAGE (R369): The active manager sends the LIVE site parameters to the standby. -/
  | paramMessage (sent : Bool)
  /-- DEAD_RECKONING_TICK (R372): Every 10 ms a worker recomputes its allocation and DR_STATE from the allocation's age. -/
  | deadReckoningTick
  /-- INTERLEAVE_RECOMPUTE (R373): On a change of WFLAGS[0], at most once a second, the manager recomputes SYNC_PH offsets. -/
  | interleaveRecompute
  /-- MANAGER_BEACON_RX (R378): A manager receives a beacon, restarting the lease or fencing on a higher pair. -/
  | managerBeaconRx
  /-- QUORUM_LOST (R376): 1,200 ms without quorum: the active manager releases and enters FENCED. -/
  | quorumLost
  /-- LISTEN_END (R377): After 1,500 ms of listening, a manager becomes standby or the preferred takes the token. -/
  | listenEnd
  /-- ALTERNATE_LISTEN_END (R377): After a further 1,500 ms with no ACTIVE beacon, the alternate takes the token. -/
  | alternateListenEnd
  /-- STANDBY_TAKEOVER (R378): After declared silence and lease expiry plus 20 ms, the standby takes the token. -/
  | standbyTakeover
  /-- TOKEN_RELEASE (R379): An active manager with red health or commanded release sends RELEASE and stops. -/
  | tokenRelease
  /-- RELEASE_RX (R379): A standby with quorum receiving RELEASE takes the token at once. -/
  | releaseRx
  /-- HEALTH_REPORT (R381): Every 1 s a manager sends its health report as BULK. -/
  | healthReport
  /-- TOKEN_REQUEST_SET (R382): A preferred standby green for 60 s sets TOKEN_REQ. -/
  | tokenRequestSet
  /-- REVERT_RELEASE (R382): At the next regular boundary the alternate publishes its cycle and releases. -/
  | revertRelease
  /-- REVERT_TIMEOUT (R382): 300 ms after the release without the higher epoch, the alternate becomes standby. -/
  | revertTimeout
  /-- HELLO (R391): HELLO returns the module's version, serial, straps, phase, hold and free sessions. -/
  | hello (f : Frame)
  /-- HELLO_CLOSE (R394): HELLO with CLOSE ends the session after the reply. -/
  | helloClose (f : Frame)
  /-- AUTH_CHALLENGE (R393): AUTH_CHALLENGE opens a pending challenge with a new SID and proof PM. -/
  | authChallenge (f : Frame) (role : Fin 4) (nh : Bytes)
  /-- AUTH_PROVE (R392): AUTH_PROVE checks PH, derives the session keys and opens the session. -/
  | authProve (f : Frame) (ph : Bytes)
  /-- RESULT_GET (R400): RESULT_GET returns PENDING, the held result, or NOT_FOUND. -/
  | resultGet (f : Frame) (opId : Nat)
  /-- RESULT_ACK (R400): RESULT_ACK releases the named held results and their slots. -/
  | resultAck (f : Frame) (opIds : List Nat)
  /-- OP_STATUS (R405): OP_STATUS returns the journal entry of an OP_ID. -/
  | opStatus (f : Frame) (opId : Nat)
  /-- BARRIER (R402): BARRIER completes when every earlier operation of its session has completed. -/
  | barrier (f : Frame)
  /-- HEALTH_GET (R381): HEALTH_GET returns the health report. -/
  | healthGet (f : Frame)
  /-- JOURNAL_READ (R405): JOURNAL_READ returns up to 44 consecutive journal entries. -/
  | journalRead (f : Frame) (opId count : Nat)
  /-- LOG_READ (R410): LOG_READ returns logbook records from a record number. -/
  | logRead (f : Frame) (recNo count : Nat)
  /-- READ_PARAM (R460): READ_PARAM reads up to 256 consecutive words of one instance. -/
  | readParam (f : Frame) (addr count : Nat)
  /-- WRITE_PARAM (R411): WRITE_PARAM checks then writes consecutive words, including registers with no row of their own. -/
  | writeParam (f : Frame) (addr : Nat) (words : List Word)
  /-- TEL_FIX (R145): TEL_FIX latches the averages and peaks of its scope at one instant and increments the generation. -/
  | telFix (f : Frame) (scope : Nat) (peakClear : Bool)
  /-- SESSION_AUTHORISE (R167): SESSION_AUTHORISE carries the host's ALLOW or REFUSE for an outlet's pending authorisation. -/
  | sessionAuthorise (f : Frame) (o : Nat) (decision : Nat) (hash : Bytes)
  /-- SESSION_AUTHORISE_CERT (R410): SESSION_AUTHORISE with decision 3 carries the certificate installation response to the vehicle. -/
  | sessionAuthoriseCert (f : Frame) (o : Nat) (hash : Bytes) (k : Chunk)
  /-- SESSION_STOP (R161): SESSION_STOP from the host raises a stop trigger for the outlet. -/
  | sessionStop (f : Frame) (o : Nat)
  /-- AUTH_TABLE_LOAD (R271): AUTH_TABLE_LOAD builds a new authorisation table by chunks and switches it in on the last. -/
  | authTableLoad (f : Frame) (k : Chunk)
  /-- ACCOUNT_ADD_CREDIT (R266): ACCOUNT_LOAD operation 1 adds to an account's CREDIT. -/
  | accountAddCredit (f : Frame) (acct : Nat) (value : Int)
  /-- ACCOUNT_SET_EMERG (R268): ACCOUNT_LOAD operation 2 sets ACC_EMERG. -/
  | accountSetEmerg (f : Frame) (acct : Nat) (value : Int)
  /-- ACCOUNT_SET_EMERG_MODE (R268): ACCOUNT_LOAD operation 3 sets EMERG_MODE. -/
  | accountSetEmergMode (f : Frame) (acct : Nat) (value : Int)
  /-- ACCOUNT_REQUEST_EMERG (R268): ACCOUNT_LOAD operation 4 requests emergency credit. -/
  | accountRequestEmerg (f : Frame) (acct : Nat) (value : Int)
  /-- SITE_LIMIT_SET (R370): SITE_LIMIT_SET changes P_SITE and CLASS values, with a CURTAIL cycle when P_SITE falls. -/
  | siteLimitSet (f : Frame) (pSite : Nat) (classes : List (Nat × Nat))
  /-- WEATHER_HOLD (R269): WEATHER_HOLD sets or ends the weather-window hold. -/
  | weatherHold (f : Frame) (minutes : Nat)
  /-- SCROLL_SET (R272): SCROLL_SET loads the non-legal scroll list. -/
  | scrollSet (f : Frame) (items : List ScrollItem)
  /-- DISPLAY_RECT (R281): DISPLAY_RECT queues a rectangle request, superseding a waiting one for the same rectangle. -/
  | displayRect (f : Frame) (x0 y0 w h : Nat) (pix : Bytes)
  /-- TARIFF_LOAD (R248): TARIFF_LOAD loads a pending calendar with its activation instant. -/
  | tariffLoad (f : Frame) (k : Chunk)
  /-- CLOCK_SET (R244): CLOCK_SET steps the Chronometer, subject to the role and source rules. -/
  | clockSet (f : Frame) (time : Nat)
  /-- BILLING_CLOSE (R255): BILLING_CLOSE closes the billing period at the next whole second. -/
  | billingClose (f : Frame)
  /-- SAFETY_CONFIRM (R316): SAFETY_CONFIRM stores the Lookout check value in both channels. -/
  | safetyConfirm (f : Frame) (value : Nat)
  /-- SAFETY_CONFIRM_REVOKE (R317): SAFETY_CONFIRM with REVOKE erases both stored confirmations and makes all outputs safe. -/
  | safetyConfirmRevoke (f : Frame) (value : Nat)
  /-- LATCH_CLEAR_STAGE (R137): LATCH_CLEAR scope STAGE moves a latched stage to OFF. -/
  | latchClearStage (f : Frame) (index : Nat)
  /-- LATCH_CLEAR_CELL (R137): LATCH_CLEAR scope CELL returns a retired cell to service. -/
  | latchClearCell (f : Frame) (index : Nat)
  /-- LATCH_CLEAR_OUTLET (R309): LATCH_CLEAR scope OUTLET clears BLOCKED, the contactor output faults and SF7. -/
  | latchClearOutlet (f : Frame) (index : Nat)
  /-- LATCH_CLEAR_SAFETY (R312): LATCH_CLEAR scope SAFETY clears faults of outputs of kinds 3 to 5, and SF1, SF9 and XCMP_LATCH with RST_REMOTE. -/
  | latchClearSafety (f : Frame) (index : Nat)
  /-- LATCH_CLEAR_DISPLAY (R290): LATCH_CLEAR scope DISPLAY clears the CRACK fault once the loop reads within limits. -/
  | latchClearDisplay (f : Frame) (index : Nat)
  /-- LATCH_CLEAR_TAMPER_HOLD (R42): LATCH_CLEAR scope TAMPER_HOLD leaves the tamper hold and resumes Landfall at milestone 0x05. -/
  | latchClearTamperHold (f : Frame) (index : Nat)
  /-- KEY_IMPORT (R422): KEY_IMPORT unwraps and writes key material and attributes into a slot. -/
  | keyImport (f : Frame) (slot wrapSlot : Nat) (attrs wrapped : Bytes) (u : Unwrapped) (up : TagUpsets)
  /-- KEY_DERIVE (R424): KEY_DERIVE derives a child key from a DERIVE parent into a slot. -/
  | keyDerive (f : Frame) (parent child : Nat) (attrs context : Bytes) (up : TagUpsets)
  /-- KEY_INVALIDATE (R427): KEY_INVALIDATE invalidates a slot and its cascading children. -/
  | keyInvalidate (f : Frame) (slot : Nat)
  /-- SLOT_OPERATION_BOUNDARY (R427): At a slot's next operation boundary a pending invalidation takes effect and the cascade set is fixed. -/
  | slotOperationBoundary (slot : Fin 128)
  /-- KEY_USE_ENCRYPT (R425): KEY_USE operation ENCRYPT encrypts data in GCM mode. -/
  | keyUseEncrypt (f : Frame) (slot : Nat) (iv aad data : Bytes) (up : TagUpsets)
  /-- KEY_USE_DECRYPT (R425): KEY_USE operation DECRYPT decrypts and checks a GCM tag. -/
  | keyUseDecrypt (f : Frame) (slot : Nat) (iv aad data : Bytes) (gcmOk : Bool) (up : TagUpsets)
  /-- KEY_USE_SIGN (R425): KEY_USE operation SIGN signs a message. -/
  | keyUseSign (f : Frame) (slot : Nat) (msg : Bytes) (up : TagUpsets)
  /-- KEY_USE_VERIFY (R425): KEY_USE operation VERIFY checks a signature. -/
  | keyUseVerify (f : Frame) (slot : Nat) (sig msg : Bytes) (valid : Bool) (up : TagUpsets)
  /-- KEY_USE_MAC (R425): KEY_USE operation MAC computes an HMAC-SM3. -/
  | keyUseMac (f : Frame) (slot : Nat) (msg : Bytes) (up : TagUpsets)
  /-- KEY_USE_PUBLIC (R425): KEY_USE operation PUBLIC returns a slot's public key. -/
  | keyUsePublic (f : Frame) (slot : Nat) (up : TagUpsets)
  /-- ATTEST (R430): ATTEST returns the signed attestation statement with the identity certificate. -/
  | attest (f : Frame) (nonce : Bytes) (up : TagUpsets)
  /-- FW_STAGE (R435): FW_STAGE writes an image or chart chunk into the target's inactive slot. -/
  | fwStage (f : Frame) (target : Nat) (k : Chunk)
  /-- FW_VERIFY (R436): FW_VERIFY checks the staged image or chart and marks it verified. -/
  | fwVerify (f : Frame) (target : Nat) (sigOk : Bool) (up : TagUpsets)
  /-- FW_ACTIVATE (R437): FW_ACTIVATE flips the target's active slot and starts its first start. -/
  | fwActivate (f : Frame) (target : Nat)
  /-- FIRST_START_SUCCESS (R438): The new image completes its first start and the anti-rollback counter is raised. -/
  | firstStartSuccess (target : Fin 5)
  /-- FIRST_START_FAILURE (R438): The first start fails, the pointer is flipped back and the previous image started. -/
  | firstStartFailure (target : Fin 5)
  /-- OP_START (R401): An accepted operation starts once its predecessor in session and class has completed. -/
  | opStart (opId : Nat)
  /-- OP_COMPLETE (R399): An operation completes and its result frame is queued and held. -/
  | opComplete (opId : Nat)
  /-- RESULT_HOLD_EXPIRY (R399): 60 s after completion an unacknowledged result is released with its slot. -/
  | resultHoldExpiry (opId : Nat)
  /-- SESSION_IDLE_TIMEOUT (R394): No valid frame for SESS_IDLE ends the session. -/
  | sessionIdleTimeout (sid : Nat)
  /-- CHALLENGE_LAPSE (R393): A pending challenge lapses 2 s after its reply. -/
  | challengeLapse (sid : Nat)
  /-- CHUNK_TIMEOUT (R412): A chunked transfer with no chunk for 60 s is discarded. -/
  | chunkTimeout (sid : Nat) (cmd : Nat)
  /-- HSPI_READ_TRANSACTION (R386): A host SPI read transaction returns the next waiting frame, or length 0. -/
  | hspiReadTransaction
  /-- RECOVERY_END (R406): The journal is resolved after a Helm restart and RECOVERING clears. -/
  | recoveryEnd
  /-- RECOVERED_HOLD_EXPIRY (R406): Recovered entries not acknowledged are released after 10 minutes. -/
  | recoveredHoldExpiry (opId : Nat)
  /-- KEY_SCRUB (R417): Every 675 s the scrubber checks one key slot's tag. -/
  | keyScrub (up : TagUpsets)
  /-- TAMPER_EVENT (R432): A tamper event is captured and answered by erasure, hold or abort as the situation requires. -/
  | tamperEvent (x : TamperSense)
  /-- HELM_CORE_PAIR_MISMATCH (R445): A Helm core pair mismatch resets the Helm cores, ending sessions and starting recovery. -/
  | helmCorePairMismatch
  /-- SEXTANT_CORE_MISMATCH (R446): A Sextant supervisory pair mismatch drives gates low and latches stages with cause INTERNAL. -/
  | sextantCoreMismatch
  /-- SEXTANT_SUPERVISOR_RESTART (R446): The Sextant supervisory core completes its restart, keeping latches and retirements. -/
  | sextantSupervisorRestart
  /-- MERIDIAN_CORE_FAULT (R445): An ECC error or the 10 ms watchdog restarts Meridian. -/
  | meridianCoreFault
  /-- ISLAND_CLOCK_LOSS (R447): An island supervisor detects a lost clock and the island reacts as Table 18-2 states. -/
  | islandClockLoss (isl : Fin 17) (sdClk : BitVec 8)
  /-- ISLAND_RESTART (R447): Every 250 ms, up to 4 times, an island with a lost clock is restarted. -/
  | islandRestart (isl : Fin 17) (ok : Bool)
  /-- DOUBLE_BIT_ERROR (R448): A double-bit error is handled according to the memory that holds it. -/
  | doubleBitError (at_ : MemPlace) (idle : Bool)
  /-- SCRUB_PASS (R449): A memory scrubber reaches the next location of its pass, or ends a full pass. -/
  | scrubPass (m : Scrubber) (passEnd : Bool) (corrected : Nat)
  /-- LOG_RECORD_WRITE (R63): A log or fault record is written into the logbook ring, erasing or retiring blocks as needed. -/
  | logRecordWrite (fail : Bool)
  /-- LOGBOOK_SCAN_END (R64): The logbook scan after host-ready ends and buffered records are written. -/
  | logbookScanEnd (device : Option Nat)
  /-- RUNG_DOWN (R472): IDLE_T on a rung with the lower rung's quiet conditions moves the module down one rung. -/
  | rungDown
  /-- QUIET_CONDITION_CEASES (R472): In Hove-to or Anchored a quiet condition ceases and the module returns to Underway. -/
  | quietConditionCeases
  /-- WAKE_EVENT (R471): A wake source enabled for the rung returns the module to Underway, through a warm Landfall from Laid-up or Dark. -/
  | wakeEvent (w : WakeSource)
  /-- WK_ALARM (R471): The Chronometer reaches 1 s before a boundary and wakes the module. -/
  | wkAlarm
  /-- VBAT_SWITCHOVER (R475): Main rails fall and M-CHR and H-AON move to VBAT. -/
  | vbatSwitchover (mcore io : Nat)
  /-- MAIN_RAILS_RETURN (R475): Both rails return to their windows and M-CHR and H-AON move back from VBAT. -/
  | mainRailsReturn (mcore io : Nat)
  /-- ENG_IMP_LO_READ (R228): Reading ENG_IMP_LO captures every RO word of the energy instance from one sample. -/
  | engImpLoRead (f : Frame) (inst : Fin 3)
  /-- TAR1_IMP_LO_READ (R461): Reading TAR1_IMP LO captures the outlet billing instance from one sample. -/
  | tar1ImpLoRead (f : Frame) (o : Fin 2)
  /-- CHR_TIME_LO_READ (R461): Reading CHR_TIME_LO captures CHR_TIME_HI. -/
  | chrTimeLoRead (f : Frame)
  /-- RECORD_SELECT_WRITE (R461): Writing EVT_SEL, SNAP_SEL, SREC_SEL or LEVT_SEL captures the selected record for the session. -/
  | recordSelectWrite (f : Frame) (sel : RecordSel) (index : Nat)
  /-- PORST_FALL (R474): PORST_N goes low on any rung and holds the module in reset until its rising edge starts a cold Landfall. -/
  | porstFall
  /-- ANALOG_SUPPLY_DIP (R445): VDDA or VDD_RF leaves its window: every COND is forced to ERROR and outlets fault with cause SIGNAL, or the H-RF island reacts. -/
  | analogSupplyDip (rf : Bool) (uV : Nat)
  /-- ANALOG_SUPPLY_RETURN (R468): VDDA or VDD_RF returns to its window and pilot evaluation and the reader resume. -/
  | analogSupplyReturn (rf : Bool) (uV : Nat)
  /-- FEEDBACK_DISCREPANCY (R307): The two feedback lines of a contactor output disagree for longer than T_FB and a feedback fault latches. -/
  | feedbackDiscrepancy (n : Fin 8) (a b : Bool)
  /-- PEER_LOST (R383): The active manager stops hearing the other manager's beacons on both paths and sets PEER. -/
  | peerLost
  /-- TAG_READ_REPLY (R193): The reply to a READ of identity tag blocks 1 to 8 arrives and the block data are checked against CONTENT_CRC. -/
  | tagReadReply (o : Fin 2) (r : AirReply)
  /-- UNKNOWN_COMMAND (R395): A host frame with an unknown command code is answered BAD_PARAM at admission. -/
  | unknownCommand (f : Frame) (code : Byte)
  /-- DRIVE_FAULT_CLEAR (R170): A cooling drive's measured speed reaches TACH_MIN, DRIVE_FAULT clears and the count restarts from 0. -/
  | driveFaultClear (d : Fin 6) (pulses ms : Nat)
  /-- TAMPER_SOURCE_CEASES (R432): A tamper source stops showing its event and its ACTIVE_NOW bit clears, so LATCH_CLEAR of the tamper hold can succeed. -/
  | tamperSourceCeases (x : TamperSense)
  /-- VBAT_LOSS (R243): VBAT is lost while the main rails are off and the Chronometer stops, to restart later as INVALID. -/
  | vbatLoss
  deriving DecidableEq, Repr

end Sys2Proof
end

