-- ==== Sys2Proof/Decode.lean ====
section
/-!
DEFINITION. The command a word spells. The opcode table gives no row any bits (its "fields" are empty), and the manual
gives the module no instruction words: no word spells a command.
-/
namespace Sys2Proof

/-- The command that a word of `nbits` bits spells by the opcode table's bits: none, for the table gives none. -/
def decodeTableWord (_nbits _w : Nat) : Option Instr := none

end Sys2Proof
end

