-- ==== Sys2Proof/Config.lean ====
section
/-!
DEFINITION. What an implementation or the factory fixes, and the FREE VALUES: constants without a body, of which Lean
can prove nothing. A statement that holds for the model holds whatever they are. Each is named in the assumption log.
-/
namespace Sys2Proof.Config

/-- A free bit, drawn at the `n`-th use (R79: a pulse between 2 ns and 5 ns may be acted on or not). FREE VALUE. -/
opaque freeBit : Nat → Bool

/-- A free byte, drawn at the `n`-th use (R391: the random NM; R154: a fresh network key). FREE VALUE. -/
opaque freeByte : Nat → Byte

/-- A free whole number, drawn at the `n`-th use. FREE VALUE. -/
opaque freeInt : Nat → Int

/-- Sine of an angle in fractions of 2^32 of a turn, as Q1.31, within 2^-24 (R103): the table's value is not given.
FREE VALUE. -/
opaque sinTable : Nat → Int

/-- Cosine, as `sinTable` (R103). FREE VALUE. -/
opaque cosTable : Nat → Int

/-- The bound that a stage puts on the output of its laws for a granted export current in mA (R100, R124), by stage: the
manual gives no scale from a current to an output. FREE VALUE. -/
opaque stageLo : Nat → Nat → Int

/-- The bound that a stage puts on the output of its laws for the current limit of R26 in mA (R100). FREE VALUE. -/
opaque stageHi : Nat → Nat → Int

/-- Whether a cell (48 and above: a stage's site offset) half a period from its target moves upwards (R84: both ways
are equally short). FREE VALUE. -/
opaque roseUp : Nat → Bool

/-- A HomePlug Green PHY management message that the module itself sends (R154), by SLAC message (Table of ISO 15118-3: 1
CM_SLAC_PARM, 4 CM_ATTEN_CHAR, 5 CM_SLAC_MATCH, 6 CM_SET_KEY) and network membership key: the manual gives its name only.
FREE VALUE. -/
opaque mme : Nat → Bytes → Bytes

/-- The interface identifier of an outlet's link-local IPv6 address, and the TCP port its SECC listens on (R155): the manual
gives neither. FREE VALUES. -/
opaque linkId : Nat → BitVec 64
opaque tcpPort : Nat → Nat

/-- How many BULK frames a port's queue holds (R329). Implementation constant. -/
opaque bulkQueue : Nat

/-- The noise power that weighs a Log-line segment in which none has been learned (R349), by segment. FREE VALUE. -/
opaque firstNoise : Nat → Nat

/-- The tone decided where two have the same energy (R349): whether the later one is taken. FREE VALUE. -/
opaque toneTie : Nat → Nat → Bool

/-- A byte of the factory serial (R391). Implementation constant. -/
opaque serialByte : Nat → Byte

/-- A byte of the key material provisioned in a slot at the factory (Table 17-1). Implementation constant. -/
opaque factoryKey : Nat → Nat → Byte

/-- A byte of the device-unique key that H-SEC forms from the die's fuses (R416). Implementation constant. -/
opaque deviceKey : Nat → Byte

/-- A byte of the DER identity certificate (R429), and its length, at most 1,000. Implementation constants. -/
opaque certByte : Nat → Byte
opaque certLen : Nat

/-- A byte of a port's factory MAC address (Table 13-6). Implementation constant. -/
opaque macByte : Nat → Nat → Byte

/-- The output of a cipher or signature engine whose arithmetic the manual names by standard only (R425, R430): by
engine code, key, input, and index of the output byte. FREE VALUE. -/
opaque engineByte : Nat → Bytes → Bytes → Nat → Byte

/-- The code of an event that is logged under rule R`n` and has no CODE in Table 18-1 (R452: "or another event code").
Implementation constant. -/
opaque eventCode : Nat → Nat

/-- The notch at PILOT_F (R206), on the trimmed samples, newest first: the manual gives no coefficients. FREE VALUE. -/
opaque notch : Nat → List Int → Int

/-- The 4-tap cubic interpolation of stage 6 for a fraction in 1/1,024 sample other than 0 (R200), on four samples, newest
first: the manual gives no coefficients. FREE VALUE. -/
opaque cubic : Nat → Int → Int → Int → Int → Int

/-- The amplitude that the pilot tone's detector is to find for a PILOT_F (R208), in the units of its own measure: the manual
gives 0.5 % of modulator full scale at the input, not what the sinc3 leaves of it. It is no less than 1: this is one less.
FREE VALUE. -/
opaque pilotExpected : Nat → Nat

/-- A result that rule R`n` leaves unstated for an argument (division by zero, a field too narrow, an identifier whose
source is not given). FREE VALUE. -/
opaque unstated : Nat → Int → Int

/-- A byte of the SM3 digest of the legal parameter set (R217): the manual does not say how the set is laid out as
bytes. FREE VALUE. -/
opaque legalDigest : List (Nat × Nat) → Nat → Byte

/-- The level of a pixel of a character of the legal window's fonts (Table 11-3), by the font's height 5, 7 or 14, ASCII code,
column and row: the manual gives the cells, not the glyphs. FREE VALUE. -/
opaque glyph : Nat → Nat → Nat → Nat → BitVec 2

/-- The drawing of a scroll item (R272), by the item's kind and values, and the byte's place in the rectangle: the manual gives
no layout. FREE VALUE. -/
opaque scrollImage : List Nat → Nat → Byte

end Sys2Proof.Config
end

