-- ==== Sys2Proof/Machine/Crypto.lean ====
section
/-!
DEFINITION. The checks and digests whose arithmetic the manual fixes by standard: CRC-16 (polynomial 0x1021), CRC-32
(IEEE 802.3), CRC-32C (Castagnoli), SM3 (GB/T 32905), HMAC-SM3, and the SM3 key derivation of GB/T 32918.4 (Table 00-4,
R181, R287, R331, R389, R392, R424). The standards' constants are PRESUMED (log 6).
-/
namespace Sys2Proof.Machine

/-- One bit step of the CRC-16 register. -/
def crc16Bit (c : Nat) : Nat := if c / 2 ^ 15 = 1 then Nat.xor (c * 2 % 2 ^ 16) 0x1021 else c * 2

/-- CRC-16 of a string of bytes, most significant bit first, initial value 0xFFFF, no inversion (R181)
(PRESUMED, log 6). -/
def crc16 (bs : Bytes) : Nat :=
  bs.foldl (fun c b => Nat.repeat crc16Bit 8 (Nat.xor c (b.toNat * 256))) 0xFFFF

/-- One bit step of a reflected 32-bit CRC with polynomial `p`. -/
def crc32Bit (p c : Nat) : Nat := if c % 2 = 1 then Nat.xor (c / 2) p else c / 2

/-- A reflected 32-bit CRC with initial value and final inversion of all ones. -/
def crcRefl (p : Nat) (bs : Bytes) : Nat :=
  Nat.xor 0xFFFFFFFF (bs.foldl (fun c b => Nat.repeat (crc32Bit p) 8 (Nat.xor c b.toNat)) 0xFFFFFFFF)

/-- CRC-32, IEEE 802.3 polynomial (R287) (PRESUMED, log 6). -/
def crc32 (bs : Bytes) : Nat := crcRefl 0xEDB88320 bs

/-- CRC-32C, Castagnoli polynomial (R315, R331) (PRESUMED, log 6). -/
def crc32c (bs : Bytes) : Nat := crcRefl 0x82F63B78 bs

/-- Addition modulo 2^32. -/
def add32 (a b : Nat) : Nat := (a + b) % 2 ^ 32

/-- Rotation of a 32-bit word to the left. -/
def rotl (x n : Nat) : Nat := let k := n % 32; x * 2 ^ k % 2 ^ 32 + x / 2 ^ (32 - k)

/-- The 32-bit complement. -/
def not32 (x : Nat) : Nat := 2 ^ 32 - 1 - x

/-- SM3 permutation P0. -/
def sm3P0 (x : Nat) : Nat := Nat.xor (Nat.xor x (rotl x 9)) (rotl x 17)

/-- SM3 permutation P1. -/
def sm3P1 (x : Nat) : Nat := Nat.xor (Nat.xor x (rotl x 15)) (rotl x 23)

/-- The eight chaining words of SM3. -/
structure Sm3 where
  a : Nat
  b : Nat
  c : Nat
  d : Nat
  e : Nat
  f : Nat
  g : Nat
  h : Nat

/-- The SM3 message expansion: from the last 16 words, newest first, `n` more words. -/
def sm3Expand : Nat → List Nat → List Nat
  | 0, w => w
  | n + 1, w =>
    let x := Nat.xor (Nat.xor (w.getD 15 0) (w.getD 8 0)) (rotl (w.getD 2 0) 15)
    sm3Expand n (Nat.xor (Nat.xor (sm3P1 x) (rotl (w.getD 12 0) 7)) (w.getD 5 0) :: w)

/-- One SM3 round with message words `w` and `w1 = W'` at round `j`. -/
def sm3Round (s : Sm3) (j w w1 : Nat) : Sm3 :=
  let t := if j < 16 then 0x79CC4519 else 0x7A879D8A
  let ss1 := rotl (add32 (add32 (rotl s.a 12) s.e) (rotl t j)) 7
  let ss2 := Nat.xor ss1 (rotl s.a 12)
  let ff := if j < 16 then Nat.xor (Nat.xor s.a s.b) s.c
    else Nat.lor (Nat.lor (Nat.land s.a s.b) (Nat.land s.a s.c)) (Nat.land s.b s.c)
  let gg := if j < 16 then Nat.xor (Nat.xor s.e s.f) s.g
    else Nat.lor (Nat.land s.e s.f) (Nat.land (not32 s.e) s.g)
  let tt1 := add32 (add32 (add32 ff s.d) ss2) w1
  let tt2 := add32 (add32 (add32 gg s.h) ss1) w
  { a := tt1, b := s.a, c := rotl s.b 9, d := s.c, e := sm3P0 tt2, f := s.e, g := rotl s.f 19, h := s.g }

/-- The 64 rounds over the expanded words, oldest first. -/
def sm3Rounds : Nat → Nat → List Nat → Sm3 → Sm3
  | 0, _, _, s => s
  | n + 1, j, ws, s => sm3Rounds n (j + 1) ws.tail (sm3Round s j (ws.getD 0 0) (Nat.xor (ws.getD 0 0) (ws.getD 4 0)))

/-- Bytes as big-endian 32-bit words. -/
def words32 : Nat → Bytes → List Nat
  | 0, _ => []
  | n + 1, bs => beNat (bs.take 4) :: words32 n (bs.drop 4)

/-- The SM3 compression of one 64-byte block. -/
def sm3Block (v : Sm3) (blk : Bytes) : Sm3 :=
  let ws := (sm3Expand 52 (words32 16 blk).reverse).reverse
  let s := sm3Rounds 64 0 ws v
  { a := Nat.xor v.a s.a, b := Nat.xor v.b s.b, c := Nat.xor v.c s.c, d := Nat.xor v.d s.d,
    e := Nat.xor v.e s.e, f := Nat.xor v.f s.f, g := Nat.xor v.g s.g, h := Nat.xor v.h s.h }

/-- The compression over `n` blocks. -/
def sm3Blocks : Nat → Bytes → Sm3 → Sm3
  | 0, _, s => s
  | n + 1, bs, s => sm3Blocks n (bs.drop 64) (sm3Block s (bs.take 64))

/-- The padded message. -/
def sm3Pad (m : Bytes) : Bytes :=
  m ++ (0x80 : Byte) :: List.replicate ((119 - m.length % 64) % 64) 0 ++ toBe 8 (8 * m.length)

/-- The SM3 digest of a string of bytes, 32 bytes (PRESUMED, log 6). -/
def sm3 (m : Bytes) : Bytes :=
  let p := sm3Pad m
  let s := sm3Blocks (p.length / 64) p
    ⟨0x7380166F, 0x4914B2B9, 0x172442D7, 0xDA8A0600, 0xA96F30BC, 0x163138AA, 0xE38DEE4D, 0xB0FB0E4E⟩
  [s.a, s.b, s.c, s.d, s.e, s.f, s.g, s.h].flatMap (toBe 4)

/-- A key padded to the block of 64 bytes and combined with a pad byte. -/
def hmacPad (key : Bytes) (p : Byte) : Bytes :=
  let k := if key.length ≤ 64 then key else sm3 key
  (k ++ List.replicate (64 - k.length) 0).map (· ^^^ p)

/-- HMAC-SM3 (PRESUMED, log 6). -/
def hmac (key msg : Bytes) : Bytes := sm3 (hmacPad key 0x5C ++ sm3 (hmacPad key 0x36 ++ msg))

/-- Bytes as they read with some of them upset, given as index and difference. -/
def upsetBytes (b : Bytes) (upsets : List (Nat × Byte)) : Bytes :=
  upsets.foldl (fun l u => l.set u.1 (l.getD u.1 0 ^^^ u.2)) b

/-- The attributes and material of a key slot as it stores them: 16 and 64 bytes (R416). -/
def slotImage (attrs material : Bytes) : Bytes :=
  (attrs ++ List.replicate 16 0).take 16 ++ (material ++ List.replicate 64 0).take 64

/-- The integrity tag of a slot's 80 bytes: HMAC-SM3 under the device-unique key over the slot number and them (R416). -/
def slotTag (k : Nat) (image : Bytes) : Bytes := hmac ((List.range 32).map Config.deviceKey) (toBe 1 k ++ image)

/-- The first `n` bytes of the SM3 key derivation, from counter `i` on. -/
def kdfFrom (z : Bytes) : Nat → Nat → Bytes
  | 0, _ => []
  | k + 1, i => sm3 (z ++ toBe 4 i) ++ kdfFrom z k (i + 1)

/-- The SM3-based key derivation of GB/T 32918.4: `n` bytes from `z` (R392, R424) (PRESUMED, log 6). -/
def kdf (z : Bytes) (n : Nat) : Bytes := (kdfFrom z ((n + 31) / 32) 1).take n

end Sys2Proof.Machine
end

