-- ==== Sys2Proof/Machine/StateDisplay.lean ====
section
/-!
DEFINITION. The state of the display controller in H-DISP (R274 to R295). Plain data. The frame memory and the settled
plane list only bytes that differ from 0, by rising address.
-/
namespace Sys2Proof.Machine

/-- A rectangle of the panel. -/
structure Rect where
  x0 : Nat
  y0 : Nat
  w : Nat
  h : Nat
  deriving DecidableEq, Repr

/-- A waiting rectangle request (R281 to R283): content as packed rows, the operation that waits for it. `full` marks
the drawing of the frame memory's own content after power-on (R292). -/
structure RectReq where
  rect : Rect
  pix : Bytes
  op : Option Nat
  full : Bool
  deriving DecidableEq, Repr

/-- A rectangle in flight (R282, R284): its slot, the band it started in (R280), the pairs of frames it has run and
those still to run. -/
structure Flight where
  slot : Nat
  rect : Rect
  band : Nat
  done : Nat
  left : Nat
  op : Option Nat
  deriving DecidableEq, Repr

/-- A legal window pair (R285): image and expected CRC, with the window's first row and height. -/
structure LegalPair where
  img : Bytes
  crc : Nat
  y0 : Nat
  h : Nat
  deriving DecidableEq, Repr

/-- DISP_STATUS.PWR_STATE (Table 11-7). -/
inductive PanelPwr where
  | off | poweringOn | on | poweringOff
  deriving DecidableEq, Repr

/-- PWR_STATE codes. -/
def PanelPwr.code : PanelPwr → Nat
  | .off => 0 | .poweringOn => 1 | .on => 2 | .poweringOff => 3

/-- The panel's power outputs (R276, R292, R293): the pumps, VCOM driven, GOA_RST, and the frontlight. -/
structure PanelOut where
  avdd : Bool := false
  vgh : Bool := false
  vgl : Bool := false
  vcom : Bool := false
  goaRst : Bool := false
  fl : Bool := false
  deriving DecidableEq, Repr

/-- The display controller. `step` is the step of Table 11-6 under way, or of R293; `pairs` counts even frame boundaries, and
`second` tells the odd frame of a pair; `bandNow` is the band of the settled codes; `lane` is a pair under way on the legal
lane, `pairAt` the uptime of the last one received; `stepAt` the uptime at which a step of R293 or the frontlight's ramp began;
`restart`: the panel powers on again once it is off; `crackCheck`: a Landfall has yet to measure the crack loop;
`matchFrom` holds the uptime of the first frame of the present run of matching frames, `pairSeen`: a legal
pair has arrived since the last lane timeout. -/
structure Display where
  frame : List Host.Cell := []
  settled : List Host.Cell := []
  pairs : Nat := 0
  second : Bool := false
  waiting : List RectReq := []
  flight : List Flight := []
  refreshDue : Bool := false
  refresh : Option Flight := none
  lane : Option LegalPair := none
  pairAt : Nat := 0
  legalWait : Option LegalPair := none
  legal : Option Flight := none
  crcExp : Nat := 0
  crcMem : Nat := 0
  crcShift : Nat := 0
  haveImage : Bool := false
  missRun : Nat := 0
  matchFrom : Option Nat := none
  pairSeen : Bool := false
  faultCrc : Bool := false
  faultLane : Bool := false
  faultPump : Bool := false
  faultCrack : Bool := false
  faultSelf : Bool := false
  pwr : PanelPwr := .off
  step : Nat := 0
  out : PanelOut := {}
  retrying : Bool := false
  restart : Bool := false
  stepAt : Nat := 0
  crackCheck : Bool := true
  band : Nat := 0
  bandNow : Nat := 0
  temp : Int := 0
  thFault : Bool := false
  crackRes : Nat := 0
  lwinY0 : Nat := 0
  lwinH : Nat := 0
  discard : Nat := 0
  supersede : Nat := 0
  miss : Nat := 0
  deriving DecidableEq, Repr

end Sys2Proof.Machine
end

