-- ==== Sys2Proof/Machine/StateMeridian.lean ====
section
/-!
DEFINITION. The state of the Meridian die: the measuring front end (R196 to R220), energy, pulses and supply events
(R221 to R241), tariffs, demand, records and the Chronometer (R242 to R265), and the commercial state on the Helm die
that is fed from them (R266 to R272). Plain data. Energies are counted in units of 2^-32 µWh (R222).
-/
namespace Sys2Proof.Machine

/-- The state of stages 4 to 6 of one path (R200): DC estimate, integrator, its last input, and the calibration
stage's delay line, newest first. -/
structure PathTail where
  m : Int := 0
  g : Int := 0
  xPrev : Int := 0
  delay : List Int := []
  deriving DecidableEq, Repr

/-- One path of a channel: the trimmed 64 ksps samples, newest first, the notched ones of the fallback path, and the
tails of the FIR path and of the fallback path (R199, R206). -/
structure MPath where
  hist : List Int := []
  notched : List Int := []
  fir : PathTail := {}
  fb : PathTail := {}
  last : Int := 0
  ovl : Nat := 0
  deriving DecidableEq, Repr

/-- A measuring channel (Table 08-6). `tapsBad` and `rmsFails` are the two causes of R207, `rmsPasses` the windows
passed since; `firSum`, `fbSum` the sums of squares of both outputs over the `winLen` samples of the running
window; `freezeEvent`, `freezeHelm` the causes of R204; `only1`: its gain-16 path is lost; `reducedSub`: a
spare stands in and has not settled (R209). -/
structure MChannel where
  p1 : MPath := {}
  p16 : MPath := {}
  gain16 : Bool := false
  run : Nat := 0
  invalid : Bool := false
  fallback : Bool := false
  only1 : Bool := false
  reducedSub : Bool := false
  tapsBad : Bool := false
  rmsFails : Nat := 0
  rmsPasses : Nat := 0
  freezeEvent : Bool := false
  freezeHelm : Bool := false
  settling : Bool := false
  value : Int := 0
  firOut : Int := 0
  fbOut : Int := 0
  firSum : Nat := 0
  fbSum : Nat := 0
  winLen : Nat := 0
  block : List Int := []
  rms : Nat := 0
  peak : Nat := 0
  env : Nat := 0
  switchCnt : Nat := 0
  freezeCnt : Nat := 0
  deriving DecidableEq, Repr

/-- MOD_STATUS.MSTATE (Table 08-7). -/
inductive ModSt where
  | inService | spareFree | standingIn | calibrating | retired
  deriving DecidableEq, Repr

/-- MSTATE codes (Table 08-7). -/
def ModSt.code : ModSt → Nat
  | .inService => 0 | .spareFree => 1 | .standingIn => 2 | .calibrating => 3 | .retired => 4

/-- A modulator (Table 08-7). `bits` is its stream, newest first, as far back as the sinc3 reaches; `re`, `im` sum the sinc3
outputs of the running pilot window, `len` of them, against the tone (R208); `oldGain`, `oldOfs`, `oldTime` are the trims
before the last calibration (R209). -/
structure Modulator where
  st : ModSt := .inService
  serves : Nat := 31
  pilotDev : Int := 0
  badWindows : Nat := 0
  gain : Int := 0x40000000
  ofs : Int := 0
  calTime : Nat := 0
  calibrated : Bool := false
  bits : List Bool := []
  re : Int := 0
  im : Int := 0
  len : Nat := 0
  oldGain : Int := 0x40000000
  oldOfs : Int := 0
  oldTime : Nat := 0
  deriving DecidableEq, Repr

/-- The rotation of one type's spare (R212). `phase`: 0 between steps, 1 spare in parallel, 2 swapped and X
calibrating, 3 X in parallel again, 4 spare calibrating. `begun`: a first step has been made. `sumX`, `sumSp` sum the trimmed
sinc3 outputs of X and the spare in parallel, `len` counts them, the 10 ms of settling included. -/
structure Rotation where
  pos : Nat
  phase : Nat := 0
  begun : Bool := false
  again : Bool := false
  stopped : Bool := false
  spareUsed : Bool := false
  sumX : Int := 0
  sumSp : Int := 0
  len : Nat := 0
  deriving DecidableEq, Repr

/-- An RTD input (Table 08-7). -/
structure Rtd where
  t : Int := 0
  rstat : Nat := 0
  deriving DecidableEq, Repr

/-- A half-cycle of a phase that has closed: the sum of the squares of its `len` samples, its start in ns since 2000 and in
uptime. -/
structure HalfWindow where
  sum : Nat := 0
  len : Nat := 0
  start : Nat := 0
  startMono : Nat := 0
  deriving DecidableEq, Repr

/-- The half-cycle timing of a phase (R235): `neg` the sign of the last sample, `cur` the running window, none until the next
zero crossing; `nom` the running window as it stood at the nominal length; `closed` a window from crossing to crossing not yet
judged. -/
structure HalfCycle where
  neg : Option Bool := none
  cur : Option HalfWindow := none
  nom : HalfWindow := {}
  closed : Option HalfWindow := none
  deriving DecidableEq, Repr

/-- The front end. `tapCrc` is the stored CRC-32 of each channel's taps (R203); at reset that of one tap of 0. -/
structure FrontEnd where
  ch : Vector MChannel 12 := Vector.replicate 12 {}
  mod : Vector Modulator 20 :=
    ((Vector.replicate 20 {}).set 6 { st := .spareFree }).set 19 { st := .spareFree }
  rotV : Rotation := { pos := 0 }
  rotI : Rotation := { pos := 7 }
  rtd : Vector Rtd 4 := Vector.replicate 4 {}
  tapCrc : Vector Nat 12 := Vector.replicate 12 0xFF41D912
  half : Vector HalfCycle 3 := Vector.replicate 3 {}
  refDiff : Int := 0
  refDrift : Bool := false
  deriving DecidableEq, Repr

/-- The energies of one direction-split register set: import, export, loss, and the tariff registers (R224, R251). -/
structure EnergySet where
  imp : Nat := 0
  exp : Nat := 0
  loss : Nat := 0
  tarImp : Vector Nat 8 := Vector.replicate 8 0
  tarExp : Vector Nat 8 := Vector.replicate 8 0
  deriving DecidableEq, Repr

/-- The flags of a demand interval (R253). -/
structure DemFlags where
  partial_ : Bool := false
  outage : Bool := false
  adjusted : Bool := false
  deriving DecidableEq, Repr

/-- A closed sub-interval of the sliding history (R252, R254). -/
structure SubInterval where
  imp : Nat
  exp : Nat
  flags : DemFlags
  deriving DecidableEq, Repr

/-- A stored maximum (R253): demand in W, end time in ns since 2000, flags. -/
structure MaxDemand where
  w : Nat := 0
  endNs : Nat := 0
  flags : DemFlags := {}
  deriving DecidableEq, Repr

/-- The demand of an outlet (R252 to R254). `since`: the running interval ends at the first boundary after it, in ns. -/
structure Demand where
  since : Nat := 0
  imp : Nat := 0
  exp : Nat := 0
  flags : DemFlags := {}
  history : List SubInterval := []
  maxImp : MaxDemand := {}
  maxExp : MaxDemand := {}
  lastImp : Nat := 0
  lastExp : Nat := 0
  lastEnd : Nat := 0
  deriving DecidableEq, Repr

/-- A pulse output (R231, R232): `accK` is the accumulated energy times PULSE_K; `recent` the contributions of the
last 1,600 samples, newest first; `width` and `lastStart` the width and start, in µs, of the
latest pulse, `lastWidth` the width of the one before it. -/
structure PulseOut where
  accK : Nat := 0
  backlog : Nat := 0
  lag : Bool := false
  drop : Nat := 0
  dropRaised : Bool := false
  active : Bool := false
  width : Nat := 0
  lastWidth : Nat := 0
  lastStart : Option Nat := none
  recent : List Nat := []
  deriving DecidableEq, Repr

/-- A supply event record (Table 09-3). `start` in ns since 2000; `startMono` the uptime of its start. -/
structure SupplyEvent where
  seq : Nat
  start : Nat
  startMono : Nat
  duration : Nat := 0
  extreme : Nat
  kind : Nat
  phase : Nat
  adjusted : Bool := false
  outage : Bool := false
  isOpen : Bool := true
  deriving DecidableEq, Repr

/-- The flags of a session record (Table 10-5, word 50). -/
structure RecFlags where
  fault : Bool := false
  gap : Bool := false
  metFault : Bool := false
  reduced : Bool := false
  lossEst : Bool := false
  dispFault : Bool := false
  timeAdjusted : Bool := false
  timeUncertain : Bool := false
  timeInvalid : Bool := false
  notLegal : Bool := false
  export_ : Bool := false
  deriving DecidableEq, Repr

/-- A session record (Table 10-5), with the session's own energies. Instants in ns since 2000. -/
structure SessionRec where
  seqOpen : Nat
  seqClose : Nat := 0
  outlet : Fin 2
  helmId : Nat
  start : Nat
  stop : Nat := 0
  startMono : Nat
  duration : Nat := 0
  peak : Nat := 0
  hash : Bytes
  energy : EnergySet := {}
  flags : RecFlags := {}
  gapStart : Nat := 0
  gapEnd : Nat := 0
  isOpen : Bool := true
  deriving DecidableEq, Repr

/-- A legal event (R262): CODE, argument and the three detail words. -/
structure LegalEvent where
  seq : Nat
  time : Nat
  code : Nat
  arg : Nat
  detail : List Nat
  deriving DecidableEq, Repr

/-- What Meridian commits to MRAM every second (R230): registers, demand, records, rings and counters. `lastClose` in ns;
`perAdjusted`: a step fell in the billing period. -/
structure LegalSet where
  energy : Vector EnergySet 2 := Vector.replicate 2 {}
  acImp : Nat := 0
  acExp : Nat := 0
  demand : Vector Demand 2 := Vector.replicate 2 {}
  pulse : Vector PulseOut 2 := Vector.replicate 2 {}
  events : List SupplyEvent := []
  evtTotal : Nat := 0
  evtOverwrite : Nat := 0
  sessions : List SessionRec := []
  legalEvents : List LegalEvent := []
  snapshots : List (List Nat) := []
  legalCnt : Nat := 0
  faultCnt : Nat := 0
  lastClose : Nat := 0
  perAdjusted : Bool := false
  deriving DecidableEq, Repr

/-- A switching point of a day profile: local minute and tariff (Table 10-2). -/
structure SwitchPoint where
  minute : Nat
  tariff : Nat
  deriving DecidableEq, Repr

/-- A season of the calendar. -/
structure Season where
  month : Nat
  day : Nat
  profiles : List Nat
  deriving DecidableEq, Repr

/-- A special day of the calendar. -/
structure SpecialDay where
  date : Nat
  profile : Nat
  annual : Bool
  deriving DecidableEq, Repr

/-- A tariff calendar (Table 10-2, Table 16-7). Offsets in units of 15 min; instants in ns since 2000. -/
structure Calendar where
  activation : Nat
  base : Int
  changes : List (Nat × Int)
  seasons : List Season
  profiles : List (List SwitchPoint)
  specials : List SpecialDay
  digest : Bytes
  deriving DecidableEq, Repr

/-- The Chronometer (R243 to R247). `ns`: nanoseconds since 2000; `uncNs`: UNCERT in ns; `slew`: the part of a slewed
correction not yet applied; `daySlew`: the net slew of the UTC day; `saved`: the last value committed to MRAM. -/
structure Chrono where
  ns : Nat := 0
  running : Bool := true
  src : Nat := 0
  valid : Bool := false
  uncNs : Nat := 16777215000000
  slew : Int := 0
  daySlew : Int := 0
  saved : Nat := 0
  deriving DecidableEq, Repr

/-- The billing state of Meridian that is not committed: calendars and the tariff in force (R249, R250). -/
structure TariffState where
  active : Option Calendar := none
  pending : Option Calendar := none
  tariff : Nat := 1
  deriving DecidableEq, Repr

/-- The Meridian die. `supplyFail`: its supply has failed (R238); `plainStop`: it stopped for its own activation or for
Dark, which is no outage. `regs` and `staged` are block 0x30's LIVE words, in use and staged (R217), by address, listing
only words that differ from their reset value; `saved` is the set the last commit selected (R230). `closeDue`: the
billing closes commanded for a coming second, each with its operation (R255); `mail`: the requests outstanding, `held`: those Helm holds back (R23). -/
structure Meridian where
  up : Bool := false
  supplyFail : Bool := false
  plainStop : Bool := false
  fe : FrontEnd := {}
  leg : LegalSet := {}
  saved : LegalSet := {}
  legalSeq : Nat := 0
  regs : List (Nat × Word) := []
  staged : List (Nat × Word) := []
  stagedCnt : Nat := 0
  digest : Bytes := []
  lossEst : Vector Bool 2 := Vector.replicate 2 false
  powers : Vector (List Int) 2 := Vector.replicate 2 []
  pNow : Vector Int 2 := Vector.replicate 2 0
  chr : Chrono := {}
  tar : TariffState := {}
  stopNs : Nat := 0
  winItem : Nat := 0
  closeDue : List (Nat × Nat) := []
  mail : List MailRequest := []
  held : List MailRequest := []
  deriving DecidableEq, Repr

/-- A prepayment account (Table 10-8): only accounts that differ from an empty one are listed. -/
structure Account where
  no : Nat
  credit : Int := 0
  emerg : Nat := 0
  mode : Nat := 0
  req : Bool := false
  act : Bool := false
  deriving DecidableEq, Repr

/-- What an outlet's session is charged on (R267): the account, the carry, and the per-tariff energies, in mWh, up to
which it has been debited; `gap` is Helm's own estimate of the energy of a metering gap, in nJ (R240). -/
structure Charge where
  account : Option Nat := none
  carry : Int := 0
  doneImp : Vector Nat 8 := Vector.replicate 8 0
  doneExp : Nat := 0
  cost : Int := 0
  gap : Int := 0
  deriving DecidableEq, Repr

/-- An entry of the authorisation table (R271). -/
structure AuthEntry where
  hash : Bytes
  account : Nat
  valid : Bool
  barred : Bool
  expiry : Nat
  deriving DecidableEq, Repr

/-- Meridian's answer to a mailbox request, as Helm holds it (R23): a record opened or refused, or closed; an outlet's tariff
registers; its vehicle voltage in mV; the time. -/
inductive MailReply where
  | opened (o : Fin 2) (ok : Bool)
  | closed (o : Fin 2)
  | tariffs (o : Fin 2) (imp exp : Vector Nat 8)
  | vehicle (o : Fin 2) (mV : Int)
  | time (ct : Nat)
  deriving DecidableEq, Repr

/-- The commercial state on the Helm die (R266 to R272). `live` holds block 0x90's words, as `Meridian.regs` does;
`reply` is Meridian's last answer; `scrollAt` is the next item of the scroll, `scrollDue` the uptime at which it is drawn. -/
structure Commercial where
  live : List (Nat × Word) := []
  accounts : List Account := []
  charge : Vector Charge 2 := Vector.replicate 2 {}
  weatherEnd : Nat := 0
  table : List AuthEntry := []
  scroll : List ScrollItem := []
  scrollAt : Nat := 0
  scrollDue : Option Nat := none
  reply : Option MailReply := none
  deriving DecidableEq, Repr

end Sys2Proof.Machine
end

