-- ==== Sys2Proof/Machine/StateHelm.lean ====
section
/-!
DEFINITION. The state of the Helm die's host side: Landfall and the chart (R31 to R65), host sessions, operations and
the journal (R385 to R415), the Chart Locker (R416 to R432), firmware (R433 to R442), faults, logbook and power
(R443 to R453, R464 to R475). Plain data.
-/
namespace Sys2Proof.Machine

/-- Landfall and holds (Tables 02-1, 02-3, 02-8). `porst` is the level of PORST_N, `coreOk` and `ioOk` the two rails
of R34, `vdda` and `vddRf` the analog rails. The four holds are kept apart; the reported one is the lowest (R42).
`recoveredAt` is the uptime, in ms, at which recovery ended. `pathFail`: the paths that failed self-test group 4 (R39):
Turxel ports A and B, the 10BASE-T1S PHYs of outlets A and B, the Log-line modem. -/
structure Landfall where
  porst : Bool := false
  coreOk : Bool := true
  ioOk : Bool := true
  vdda : Bool := true
  vddRf : Bool := true
  phase : Nat := 0
  warm : Bool := false
  snapReplaced : Bool := false
  hostReady : Bool := false
  selftest : BitVec 8 := 0
  role : Fin 4 := 0
  holdTamper : Bool := false
  holdChart : Bool := false
  holdStrap : Bool := false
  holdSelf : Bool := false
  helmUp : Bool := false
  helmRetry : Bool := false
  recovering : Bool := false
  recoveryEnd : Nat := 0
  recoveredAt : Nat := 0
  pathFail : BitVec 5 := 0
  deriving DecidableEq, Repr

/-- The chart (R45 to R57): the chart in use, the double-buffered snapshot with its selection (0 none, 1, 2), the
source and the reject word of Table 02-9, and whether commercial state is held (R51), with the RWL words of block 0x90
that it holds. -/
structure Chart where
  inUse : Option Bytes := none
  src : Nat := 0
  bufA : Bytes := []
  bufB : Bytes := []
  sel : Nat := 0
  rejectTag : Nat := 0
  rejectSrc : Nat := 0
  rejectReason : Nat := 0
  commercialHeld : Bool := false
  comHeld : List (Nat × Word) := []
  deriving DecidableEq, Repr

/-- The status codes of Table 16-8. -/
inductive Status where
  | ok | accepted | pending | notAccepted | recovering | authFail | roleDenied | badParam | badState | notFound
  | slotCorrupt | keyInvalid | tamper | versionLower | imageBad | legalLocked | latched | internal
  deriving DecidableEq, Repr

/-- STATUS codes (Table 16-8). -/
def Status.code : Status → Nat
  | .ok => 0x00 | .accepted => 0x01 | .pending => 0x02 | .notAccepted => 0x10 | .recovering => 0x11
  | .authFail => 0x20 | .roleDenied => 0x21 | .badParam => 0x30 | .badState => 0x31 | .notFound => 0x32
  | .slotCorrupt => 0x40 | .keyInvalid => 0x41 | .tamper => 0x42 | .versionLower => 0x50 | .imageBad => 0x51
  | .legalLocked => 0x60 | .latched => 0x70 | .internal => 0x7F

/-- The commands of Table 16-6 that are operations, with their payloads, as the journal and the queues hold them. -/
inductive HostCmd where
  | barrier
  | healthGet
  | journalRead (opId count : Nat)
  | logRead (recNo count : Nat)
  | readParam (addr count : Nat)
  | writeParam (addr : Nat) (words : List Word)
  | telFix (scope : Nat) (peakClear : Bool)
  | sessionAuthorise (o decision : Nat) (hash : Bytes)
  | sessionCert (o : Nat) (hash : Bytes) (k : Chunk)
  | sessionStop (o : Nat)
  | authTableLoad (k : Chunk)
  | accountLoad (acct op : Nat) (value : Int)
  | siteLimitSet (pSite : Nat) (classes : List (Nat × Nat))
  | weatherHold (minutes : Nat)
  | scrollSet (items : List ScrollItem)
  | displayRect (x0 y0 w h : Nat) (pix : Bytes)
  | tariffLoad (k : Chunk)
  | clockSet (time : Nat)
  | billingClose
  | safetyConfirm (value : Nat) (revoke : Bool)
  | latchClear (scope index : Nat)
  | keyImport (slot wrapSlot : Nat) (attrs wrapped : Bytes) (u : Unwrapped) (up : TagUpsets)
  | keyDerive (parent child : Nat) (attrs context : Bytes) (up : TagUpsets)
  | keyInvalidate (slot : Nat)
  | keyEncrypt (slot : Nat) (iv aad data : Bytes) (up : TagUpsets)
  | keyDecrypt (slot : Nat) (iv aad data : Bytes) (gcmOk : Bool) (up : TagUpsets)
  | keySign (slot : Nat) (msg : Bytes) (up : TagUpsets)
  | keyVerify (slot : Nat) (sig msg : Bytes) (valid : Bool) (up : TagUpsets)
  | keyMac (slot : Nat) (msg : Bytes) (up : TagUpsets)
  | keyPublic (slot : Nat) (up : TagUpsets)
  | attest (nonce : Bytes) (up : TagUpsets)
  | fwStage (target : Nat) (k : Chunk)
  | fwVerify (target : Nat) (sigOk : Bool) (up : TagUpsets)
  | fwActivate (target : Nat)
  | unknown (code : Nat)
  deriving DecidableEq, Repr

/-- A frame the module sends (R388, R399, R409): header fields, payload, the 8-byte MAC, and its transport. -/
structure OutFrame where
  cmd : Nat
  reply : Bool
  done : Bool
  repeated : Bool
  event : Bool
  sid : Nat
  seq : Nat
  cls : Nat
  status : Nat
  opId : Nat
  payload : Bytes
  mac : Bytes
  via : Transport
  deriving DecidableEq, Repr

/-- The admission reply given to a request, kept for retransmissions (R390). -/
structure GivenReply where
  seq : Nat
  cmd : Nat
  done : Bool
  cls : Nat
  status : Nat
  opId : Nat
  payload : Bytes
  deriving DecidableEq, Repr

/-- An open session (R390 to R394), with its own selectors' captures (R461): `shadow` lists captured words by
address. `rxHigh` is the highest accepted SEQ; `ending` a session that ends once its pending result is sent (R428). -/
structure Session where
  sid : Nat
  role : Fin 4
  keyIn : Bytes
  keyOut : Bytes
  via : Transport
  lastRx : Nat
  rxHigh : Nat := 0
  given : List GivenReply := []
  txSeq : Nat := 0
  shadow : List (Nat × Nat) := []
  ending : Bool := false
  deriving DecidableEq, Repr

/-- A pending challenge (R391, R393). -/
structure Challenge where
  sid : Nat
  role : Fin 4
  nh : Bytes
  nm : Bytes
  at_ : Nat
  deriving DecidableEq, Repr

/-- A journal entry (Table 16-4); `state` 0 NOT_STARTED, 1 STEP, 2 COMPLETE, 3 ROLLED_BACK. `held` says that the
entry is protected from overwriting (R403). -/
structure Jrn where
  opId : Nat
  cmd : Nat
  cls : Nat
  role : Fin 4
  n : Nat
  state : Nat := 0
  k : Nat := 0
  status : Nat := 0
  running : Bool := false
  recovered : Bool := false
  tamper : Bool := false
  sid : Nat
  seq : Nat
  accepted : Nat
  held : Bool := true
  deriving DecidableEq, Repr

/-- What a finished operation has to report (R399). -/
structure OpResult where
  status : Status
  payload : Bytes
  deriving DecidableEq, Repr

/-- An operation from acceptance to release (R395 to R401). `result` is set when its effect is done; `complete`
when its result frame has been queued, with its RGEN and the uptime of completion. -/
structure Op where
  opId : Nat
  sid : Nat
  role : Fin 4
  cls : Nat
  cmd : HostCmd
  started : Bool := false
  result : Option OpResult := none
  complete : Bool := false
  rgen : Nat := 0
  doneAt : Nat := 0
  deriving DecidableEq, Repr

/-- A chunked transfer in progress (R412); `at_`: when its last chunk arrived. -/
structure Transfer where
  sid : Nat
  cmd : Nat
  target : Nat
  total : Nat
  got : Nat
  data : Bytes
  at_ : Nat
  deriving DecidableEq, Repr

/-- A deadline class (R396): its bucket in thousandths of a token, and its counters (Table 16-9). -/
structure ClassState where
  milli : Nat := 0
  acc : Nat := 0
  ref : Nat := 0
  deriving DecidableEq, Repr

/-- The host interface (R385 to R415). `outcomes`: the last 64 requested steps, as OP_ID and step, that Sextant, Lookout
and Meridian each keep (R404). `out`: frames waiting to leave; `miso`: what the last read transaction of the host SPI returned
(R386); `stream`: the last frame sent on each port's TCP connection (R385). -/
structure HostIf where
  sessions : List Session := []
  challenges : List Challenge := []
  lastSid : Nat := 0
  ops : List Op := []
  journal : List Jrn := []
  nextOp : Nat := 1
  rgen : Nat := 0
  cls : Vector ClassState 6 := Vector.replicate 6 {}
  transfers : List Transfer := []
  outcomes : Vector (List (Nat × Nat)) 3 := Vector.replicate 3 []
  out : List OutFrame := []
  miso : Bytes := []
  stream : Vector Bytes 2 := Vector.replicate 2 []
  macFail : Nat := 0
  seqDrop : Nat := 0
  authFail : Nat := 0
  deriving DecidableEq, Repr

/-- SLOT_STATE.STATE (Table 17-10). -/
inductive SlotSt where
  | empty | valid | invalidated | unusable
  deriving DecidableEq, Repr

/-- SLOT_STATE.STATE codes (Table 17-10). -/
def SlotSt.code : SlotSt → Nat
  | .empty => 0 | .valid => 1 | .invalidated => 2 | .unusable => 3

/-- A key slot (R416 to R420). `tag`: the integrity tag written with the content. `users` lists the running operations using it; `root` the operations whose named slot it
is, waiting for its next operation boundary; `doom` the operations whose cascade includes it (R427). -/
structure Slot where
  st : SlotSt := .empty
  copyFault : Bool := false
  attrs : Bytes := []
  material : Bytes := []
  tag : Bytes := []
  uses : Nat := 0
  time : Nat := 0
  users : List Nat := []
  root : List Nat := []
  doom : List Nat := []
  deriving DecidableEq, Repr

/-- The Chart Locker (Table 17-10). -/
structure Locker where
  slot : Vector Slot 128
  scrubPos : Nat := 0
  scrubLast : Nat := 0
  deriving DecidableEq, Repr

/-- The firmware registers of a target (Table 17-11). `slotB` is the active-slot pointer; `stage` 0 none, 1 receiving,
2 complete, 3 verified; `stagedLen` counts the staged bytes; `flipAt` is the uptime of the pointer's last flip. -/
structure FwTarget where
  slotB : Bool := false
  stage : Nat := 0
  activating : Bool := false
  fallback : Bool := false
  runVer : Nat := 0
  arb : Nat := 0
  stagedVer : Nat := 0
  stagedLen : Nat := 0
  digest : Bytes := []
  stagedDigest : Bytes := []
  flipAt : Nat := 0
  started : Bool := false
  deriving DecidableEq, Repr

/-- Tamper capture in the always-on island (R431, Table 17-11). `pendingHold` marks an event captured on a low rung
that the next Landfall answers; `cfg` is TAMP_CFG as the island keeps it. -/
structure Tamper where
  sources : BitVec 8 := 0
  active : BitVec 8 := 0
  cnt : Nat := 0
  time : Nat := 0
  pendingHold : Bool := false
  cfg : Word := 0x80000000
  deriving DecidableEq, Repr

/-- A log record (Table 18-4); the CRC is formed when the record is written. -/
structure LogRec where
  no : Nat
  time : Nat
  code : Nat
  src : Nat
  kind : Nat
  arg : Nat
  detail : Bytes
  deriving DecidableEq, Repr

/-- What the logbook holds (Table 02-11), with its CT64 time: an event or fault record, a post telemetry summary, a health
report, or the copy of a session record. -/
inductive LogItem where
  | event (r : LogRec)
  | telemetry (time : Nat)
  | health (time : Nat) (report : Bytes)
  | session (time : Nat) (copy : SessionRec)
  deriving DecidableEq, Repr

/-- A block of the logbook's ring: the sequence number and erase count of its header, and its records, oldest first
(R63). -/
structure LogBlock where
  seq : Nat
  erases : Nat
  items : List LogItem := []
  deriving DecidableEq, Repr

/-- The logbook (R63 to R65, Table 19-6). `device`: its 64 KiB erase blocks; `ring`: the blocks written, oldest first;
`cur`: the sequence number of the block that takes the next record, known once the scan has ended; `sram`: the ring kept
without a usable logbook; `waiting`: the SRAM buffer, oldest first; `torn`: a record is torn by a supply loss; `week`:
bytes logged by UTC day, newest first; `sumAt`, `healthAt`: the uptimes of the last summary and health report. -/
structure Logbook where
  device : Nat := 256
  ring : List LogBlock := []
  cur : Option Nat := none
  sram : List LogItem := []
  waiting : List LogItem := []
  torn : Bool := false
  nextNo : Nat := 0
  scanDone : Bool := false
  fault : Bool := false
  wear : Bool := false
  retired : Nat := 0
  week : List (Nat × Nat) := []
  lifeY : Nat := 0xFFFF
  sumAt : Nat := 0
  healthAt : Nat := 0
  deriving DecidableEq, Repr

/-- SOURCE of a record. -/
inductive LogSrc where
  | helm | sextant | lookout | meridian | external
  deriving DecidableEq, Repr

/-- SOURCE codes of Table 18-4. -/
def LogSrc.code : LogSrc → Nat
  | .helm => 1 | .sextant => 2 | .lookout => 3 | .meridian => 4 | .external => 5

/-- A fault detected and not yet cleared (R444): its CODE, the SOURCE and the ARG of its record. -/
structure OpenFault where
  code : Nat
  src : Nat
  arg : Nat
  deriving DecidableEq, Repr

/-- An island of Table 01-2: its clock lost, restarts tried, the last at `at_`, left off (R447). -/
structure Island where
  lost : Bool := false
  tries : Nat := 0
  at_ : Nat := 0
  off : Bool := false
  deriving DecidableEq, Repr

/-- Fault registers and islands (Tables 18-2, 18-5). `opens`: the faults detected and not yet cleared (R444); `sdLost`: the
SD_CLK outputs whose clock S-SD has lost; `underMs`: the ms spent on the rungs on which the scrubbers count time, and its value
at the start of each scrubber's pass and of the present key slot's turn (R449). -/
structure Faults where
  island : Vector Island 17 := Vector.replicate 17 {}
  islOff : Nat := 0
  ratingsOk : Bool := true
  lastCode : Nat := 0
  corr : Nat := 0
  ded : Nat := 0
  islCnt : Nat := 0
  supCnt : Nat := 0
  scrubSram : Nat := 0
  scrubMram : Nat := 0
  opens : List OpenFault := []
  sdLost : BitVec 8 := 0
  underMs : Nat := 0
  passAt : Vector Nat 6 := Vector.replicate 6 0
  keyAt : Nat := 0
  deriving DecidableEq, Repr

/-- The power ladder's rungs (Table 19-5). -/
inductive Rung where
  | underway | hoveTo | anchored | moored | laidUp | dark
  deriving DecidableEq, Repr

/-- RUNG codes (Table 19-5). -/
def Rung.code : Rung → Nat
  | .underway => 0 | .hoveTo => 1 | .anchored => 2 | .moored => 3 | .laidUp => 4 | .dark => 5

/-- The power ladder (Table 19-5). `vbat`: VBAT present; `onVbat`: M-CHR and H-AON run from it (R475); `rail`: the last
voltage in µV at which a rail crossed its window (R468), numbered as RAIL_r; `quietMs`: the ms for which the quiet conditions of
the rung below have held on this rung (R472). -/
structure Power where
  rung : Rung := .underway
  lastWake : Nat := 0
  vbat : Bool := true
  onVbat : Bool := false
  rail : Vector (Option Nat) 9 := Vector.replicate 9 none
  quietMs : Nat := 0
  deriving DecidableEq, Repr

end Sys2Proof.Machine
end

