-- ==== Sys2Proof/Machine/StateLookout.lean ====
section
/-!
DEFINITION. The state of the Lookout die (R296 to R324, R489): channels, inputs, outputs, safety functions, lock,
contactors and Sounding. Plain data.
-/
namespace Sys2Proof.Machine

/-- SI_STATUS.ISTATE (Table 12-5). -/
inductive InSt where
  | demand | run | discrepancy | testPulse
  deriving DecidableEq, Repr

/-- ISTATE codes (Table 12-5). -/
def InSt.code : InSt → Nat
  | .demand => 0 | .run => 1 | .discrepancy => 2 | .testPulse => 3

/-- A safety input (Table 12-5): its lines after the filter. `tpBad` tells what failed in the last period: SIA and SIB in their
own pulse, SIA and SIB by following the other's (R304); `bothSeen` says that both lines have shown demand together since a fault
(R302); `since` is the uptime at which ISTATE last changed. -/
structure SafeIn where
  a : Bool := false
  b : Bool := false
  st : InSt := .demand
  bothSeen : Bool := false
  discCnt : Nat := 0
  tpCnt : Nat := 0
  tpBad : Vector Bool 4 := Vector.replicate 4 false
  since : Nat := 0
  deriving DecidableEq, Repr

/-- A safety output (Table 12-5). `fault`: 0 none, 1 readback, 2 not closed, 3 weld, 4 feedback discrepancy. `fba`,
`fbb`: mirror contact closed, main contact open. `confOn`, `confOff`: the last command is confirmed (R307). -/
structure SafeOut where
  cmd : Bool := false
  soh : Bool := false
  sol : Bool := false
  fba : Bool := true
  fbb : Bool := true
  fault : Nat := 0
  ops : Nat := 0
  since : Nat := 0
  confOn : Bool := false
  confOff : Bool := true
  deriving DecidableEq, Repr

/-- SND_STATUS.VERDICT (Table 12-6). -/
inductive Verdict where
  | none | pass | warning | trip | unsettled
  deriving DecidableEq, Repr

/-- VERDICT codes (Table 12-6). -/
def Verdict.code : Verdict → Nat
  | .none => 0 | .pass => 1 | .warning => 2 | .trip => 3 | .unsettled => 4

/-- A half-period of the injection (R319): its common-mode mean in mV, whether it settled, whether ISO_INJ was low. -/
structure HalfPeriod where
  mean : Int
  settled : Bool
  low : Bool
  deriving DecidableEq, Repr

/-- Sounding on one outlet (R319 to R322). Resistances in units of 100 Ω; `none` reads as open. `halves` holds the last
eight half-periods, newest first, and `recent` the values of the last two periods; `rPrev` is R_ISO before a self-test. `cm`: the
sums of both pins, in µV, in each ms of the running half-period, newest first; `stDue`: a self-test is to come before a
measurement counts. -/
structure Sounding where
  halves : List HalfPeriod := []
  recent : List (Option (Option Nat)) := []
  rIso : Option Nat := none
  verdict : Verdict := .none
  unsettled : Nat := 0
  trip : Bool := false
  stFail : Bool := false
  stRun : Bool := false
  stDue : Bool := true
  cm : List Nat := []
  stCnt : Nat := 0
  rPrev : Option Nat := none
  deriving DecidableEq, Repr

/-- A request to close that waits (R323): the Sextant output voltage it carries, in mV. -/
structure CloseWait where
  vOut : Nat
  deriving DecidableEq, Repr

/-- An outlet as Lookout holds it (Table 12-6). Voltages in mV. `holster`: 0 nothing seen, 1 docked seen, 2 test seen.
`lastSf` is the first function that removed the permit; `holsterAt` the uptime from which the test counts; `pins` what ISO_SNS
read in each of the last four ms, in µV, DC+ and DC−, newest first. -/
structure LkOutlet where
  closed : Bool := false
  lock : Bool := false
  lockFb : Bool := false
  unlockAsked : Bool := false
  blocked : Bool := false
  holster : Nat := 0
  holsterAt : Nat := 0
  pins : List (Nat × Nat) := []
  lastSf : Nat := 0
  hadPermit : Bool := false
  vL : Int := 0
  uP : Int := 0
  uN : Int := 0
  wait : Option CloseWait := none
  refused : Nat := 0
  snd : Sounding := {}
  deriving DecidableEq, Repr

/-- A stored safety confirmation (R316): value, CHART_SERIAL, and time in ns since 2000. -/
structure Confirmation where
  value : Nat
  serial : Nat
  time : Nat
  deriving DecidableEq, Repr

/-- The Lookout die. `sf1`, `sf9` are the latches of the MODULE functions, `sf7` those of the outlets; `inputDiff`: the
input lines read differently in the last exchange (R297); `tpAt`: the uptime at which the period timer of the test pulses began
(R304); `press`: how long the last demand of RESET_SI lasted, in ms; `inj`: ISO_INJ; `kind3`, `kind4`: Helm's standing requests (R313);
`landfallDone`: Lookout's own copy (R489). -/
structure Lookout where
  runA : Bool := false
  runB : Bool := false
  agreed : Bool := false
  restarting : Bool := false
  xcmp : Bool := false
  inputDiff : BitVec 48 := 0
  tpAt : Nat := 0
  press : Option Nat := none
  inj : Bool := false
  si : Vector SafeIn 16 := Vector.replicate 16 {}
  so : Vector SafeOut 8 := Vector.replicate 8 {}
  outlet : Vector LkOutlet 2 := Vector.replicate 2 {}
  sf1 : Bool := false
  sf9 : Bool := false
  sf7 : Vector Bool 2 := Vector.replicate 2 false
  gpA : Bool := false
  gpB : Bool := false
  kind3 : Bool := false
  kind4 : Bool := false
  checkA : Nat := 0
  checkB : Nat := 0
  confA : Option Confirmation := none
  confB : Option Confirmation := none
  landfallDone : Bool := false
  xcmpCnt : Nat := 0
  restartCnt : Nat := 0
  deriving DecidableEq, Repr

end Sys2Proof.Machine
end

