-- ==== Sys2Proof/Machine/StateOutlet.lean ====
section
/-!
DEFINITION. The state of the two outlets on the Helm die: connector signalling, vehicle link, session, authorisation
(R147 to R169) and cable cooling (R170 to R173). Plain data.
-/
namespace Sys2Proof.Machine

/-- The outlet states of Table 06-12. -/
inductive OutSt where
  | idle | plugged | cableCheck | identified | authorised | isolationTest | precharge | energyTransfer
  | rampDown | weldCheck | discharge | unlock | finished | faulted
  deriving DecidableEq, Repr

/-- OUT_STATE.STATE (Table 06-12). -/
def OutSt.code : OutSt → Nat
  | .idle => 0 | .plugged => 1 | .cableCheck => 2 | .identified => 3 | .authorised => 4 | .isolationTest => 5
  | .precharge => 6 | .energyTransfer => 7 | .rampDown => 8 | .weldCheck => 9 | .discharge => 10 | .unlock => 11
  | .finished => 12 | .faulted => 15

/-- The fault causes of Table 06-7. -/
inductive OutFault where
  | tags | cable | link | lock | insulation | start | stageLatch | safety | signal | vehicle | weld | discharge | helm
  deriving DecidableEq, Repr

/-- OUT_STATE.FAULT_CAUSE codes (Table 06-7). -/
def OutFault.code : OutFault → Nat
  | .tags => 1 | .cable => 2 | .link => 3 | .lock => 4 | .insulation => 5 | .start => 6 | .stageLatch => 7
  | .safety => 8 | .signal => 9 | .vehicle => 10 | .weld => 11 | .discharge => 12 | .helm => 13

/-- The conditions of R150. -/
inductive Cond where
  | unplugged | plugged | ready | readyVent | error
  deriving DecidableEq, Repr

/-- PLT_STATUS.COND codes (R150). -/
def Cond.code : Cond → Nat
  | .unplugged => 0 | .plugged => 1 | .ready => 2 | .readyVent => 3 | .error => 4

/-- The pilot drive of CP_OUT_x (R151, R152). -/
inductive PilotDrive where
  | low | high | pwm
  deriving DecidableEq, Repr

/-- The stop reasons of OUT_STATE.STOP_REASON (Table 06-10). -/
inductive StopReason where
  | vehicle | host | credit | tLoop | tStandby | tagAge | recordRefused
  deriving DecidableEq, Repr

/-- STOP_REASON codes (Table 06-10). -/
def StopReason.code : StopReason → Nat
  | .vehicle => 1 | .host => 2 | .credit => 3 | .tLoop => 4 | .tStandby => 5 | .tagAge => 6 | .recordRefused => 7

/-- The pilot block (Table 06-10, PLT_STATUS). `pwmOn`: CP_OUT_x runs PWM on a combined-charging outlet; `pwmBegun`: it has
begun in the present session (R152). -/
structure Pilot where
  pos : Nat := 0
  neg : Nat := 0
  level : Nat := 0
  cond : Cond := .unplugged
  sig1Ok : Bool := false
  drive : PilotDrive := .low
  pwmOn : Bool := false
  pwmBegun : Bool := false
  deriving DecidableEq, Repr

/-- Which of the timers of Table 06-5 run. -/
structure OutTimers where
  inventory : Bool := false
  link : Bool := false
  seq : Bool := false
  ongoing : Bool := false
  auth : Bool := false
  iso : Bool := false
  loop : Bool := false
  standby : Bool := false
  lock : Bool := false
  disch : Bool := false
  dwell : Bool := false
  deriving DecidableEq, Repr

/-- The vehicle link (R153 to R156): started, PHY link up, SLAC stage 0 to 5, network membership key, the transfers sent to
the HomePlug modem, oldest first, SECC discovery answered, TCP connected, TLS open with its group and signature scheme,
protocol (0 none; 1 ISO 15118-20; 2 DIN SPEC 70121), EXI session open, BPT selected, dynamic mode. -/
structure VehLink where
  started : Bool := false
  phyUp : Bool := false
  slac : Nat := 0
  nmk : Bytes := []
  spi : List Bytes := []
  sdp : Bool := false
  tcp : Bool := false
  tls : Bool := false
  group : Option TlsGroup := none
  scheme : Option TlsScheme := none
  proto : Nat := 0
  session : Bool := false
  bpt : Bool := false
  dynamic : Bool := false
  deriving DecidableEq, Repr

/-- The last answer sent to the vehicle: its kind and the values it carries. -/
inductive Answer where
  | none
  | ok (values : List Nat)
  | ongoing
  | failed
  deriving DecidableEq, Repr

/-- The authorisation of an outlet (R166, R167). -/
structure OutAuth where
  kind : AuthKind := .eim
  ident : Bytes := []
  hash : Bytes := []
  chainOk : Bool := true
  allowed : Option Bool := none
  deriving DecidableEq, Repr

/-- An outlet (Table 06-10). `isoStep` counts the steps of R160; `cablePass`: the cable check has passed; `cableReq`,
`preReq`: the vehicle has asked for the cable check or the precharge; `since` numbers the entries into CABLE_CHECK in their
order (R168); `ctxOk`: the retained context verifies (R165). -/
structure Outlet where
  st : OutSt := .idle
  faultCause : Nat := 0
  faultMask : Nat := 0
  authSrc : Nat := 0
  stopReason : Nat := 0
  pilot : Pilot := {}
  tmr : OutTimers := {}
  link : VehLink := {}
  answer : Answer := .none
  auth : OutAuth := {}
  cablePass : Bool := false
  cableReq : Bool := false
  preReq : Bool := false
  since : Nat := 0
  isoStep : Nat := 0
  soundPass : Bool := false
  standby : Bool := false
  vehI : Nat := 0
  vehV : Nat := 0
  vehVMax : Nat := 0
  share : Nat := 0
  vMer : Int := 0
  vMerAt : Option Nat := none
  ctxOk : Bool := true
  deriving DecidableEq, Repr

/-- A cooling input (R171): its value (Q16.16) and the time, in ns since 2000, of its tag reading. -/
structure CoolInput where
  value : Int := 0
  time : Nat := 0
  valid : Bool := false
  deriving DecidableEq, Repr

/-- The cable cooling of an outlet (Table 06-11). -/
structure Cooling where
  input : Vector CoolInput 8 := Vector.replicate 8 {}
  iDerate : Nat := 0
  uncooled : Bool := false
  stale : Bool := false
  stale2 : Bool := false
  flowLow : Bool := false
  deriving DecidableEq, Repr

/-- A cooling drive's tachometer (R170). `slowMs` counts the milliseconds below TACH_MIN at a duty of at least 20 %. -/
structure Drive where
  rpm : Nat := 0
  slowMs : Nat := 0
  fault : Bool := false
  deriving DecidableEq, Repr

end Sys2Proof.Machine
end

