-- ==== Sys2Proof/Machine/StateReader.lean ====
section
/-!
DEFINITION. The state of the tag reader (R175 to R195): antenna, field and windows, frames sent, inventories, tag tables,
tag writes and crew cards. Plain data.
-/
namespace Sys2Proof.Machine

/-- The command frames of the Onram tag protocol (Table 07-2). Masks are their bits in transmission order. -/
inductive TagCmd where
  | query (q session : Nat) (mask : List Bool)
  | slot
  | select (mask : List Bool)
  | read (block : Nat)
  | write (block : Nat) (data : Bytes)
  | measure
  | harvest (on : Bool)
  | halt
  | wake (session : Nat)
  deriving DecidableEq, Repr

/-- What the reader sends on a handle port: a command frame, or a freeze notch, that many carrier cycles after the end of the
frame before it (R185). -/
inductive AirOut where
  | frame (c : TagCmd)
  | freeze (cycles : Nat)
  deriving DecidableEq, Repr

/-- An entry of an outlet's tag table (Table 07-6). `time` is the CT64 instant, in ns since 2000, of the reading; `seen`: a
valid reading has been given since the plug-in (R159). -/
structure TagEntry where
  id : Nat := 0
  temp : Int := 0
  time : Nat := 0
  tstat : Nat := 0
  seen : Bool := false
  deriving DecidableEq, Repr

/-- A SELECT branch of the resolution of a collision (R187): mask length and mask bits, as a number. -/
structure Branch where
  len : Nat
  mask : Nat
  deriving DecidableEq, Repr

/-- An inventory in progress on a handle port (R186 to R188): `slot` counts the frame's slots, `sub` those since the last
QUERY or SLOT (R185); `halted` lists the tags halted. -/
structure Inventory where
  active : Bool := false
  q : Nat := 0
  slot : Nat := 0
  sub : Nat := 0
  collisions : Nat := 0
  empties : Nat := 0
  halted : List Nat := []
  confirming : Bool := false
  branches : List Branch := []
  select : Option Branch := none
  deriving DecidableEq, Repr

/-- A tag write in progress on an outlet's identity tag (R189 to R191): tag, block, data before and after, whether the one
repetition after LOW_ENERGY has been made, whether a read-back is due, and read-back attempts made. `report`: 0 none,
1 OK, 2 BAD_BLOCK, 3 LOW_ENERGY, 4 UNCONFIRMED, 5 CONFIRMED_NEW, 6 CONFIRMED_OLD, 7 UNREADABLE. -/
structure TagWrite where
  busy : Bool := false
  id : Nat := 0
  block : Nat := 0
  old : Bytes := []
  new : Bytes := []
  repeated : Bool := false
  readBack : Bool := false
  attempts : Nat := 0
  report : Nat := 0
  deriving DecidableEq, Repr

/-- What the identity tag's blocks 1 to 8 hold, once read and checked (R193). `makeTime` is a CT64 value. -/
structure TagIdent where
  ok : Bool := false
  id : Nat := 0
  cableType : Nat := 0
  vRated : Nat := 0
  iRated : Nat := 0
  length : Nat := 0
  serial : Nat := 0
  res20 : Nat := 0
  lossK : Nat := 0
  makeTime : Nat := 0
  mateCount : Nat := 0
  block8 : Bytes := []
  deriving DecidableEq, Repr

/-- A tag found at inventory, with the blocks read from it so far, from block 1 on. -/
structure Found where
  id : Nat
  blocks : List Bytes := []
  deriving DecidableEq, Repr

/-- The mating count that is to be written (R193): tag, old block 8, and new one. -/
structure Mate where
  id : Nat
  old : Bytes
  new : Bytes
  deriving DecidableEq, Repr

/-- The reader's side of one handle port. `rd` is the identifier of the tag whose blocks are being read; `cyc` the POSITION
of the sensor tag whose MEASURE is due or under way, `retried`: its one repetition has been made (R177). -/
structure HandlePort where
  tag : Vector TagEntry 7 := Vector.replicate 7 {}
  inv : Inventory := {}
  invDone : Bool := false
  tagExtra : Bool := false
  harvOn : Bool := false
  qfp : Nat := 0
  write : TagWrite := {}
  ident : TagIdent := {}
  identRead : Bool := false
  found : List Found := []
  rd : Option Nat := none
  cyc : Option (Fin 7) := none
  retried : Bool := false
  mate : Option Mate := none
  deriving DecidableEq, Repr

/-- The reader (Table 07-6). `ant` is ANT_SEL; `window` the port whose window is open; `work` says which handle ports
keep their window in this cycle; `air` what the reader has sent in the window, oldest first, `used` the carrier cycles that
it and the replies have taken, and `full`: an exchange that would not fit has been left out (R176). `antRef` is a port's
transmit current at Landfall, 0 where its load was out of limits (R178). `pad` holds the frames sent to the card pad in this
window (R194), `cards` the UIDs presented and not yet gone. -/
structure Reader where
  ant : Nat := 3
  field : Bool := false
  harvPower : Bool := false
  settled : Bool := false
  cycles : Nat := 0
  window : Option (Fin 3) := none
  work : Vector Bool 2 := Vector.replicate 2 false
  air : List AirOut := []
  used : Nat := 0
  full : Bool := false
  antFault : Vector Bool 3 := Vector.replicate 3 false
  antRef : Vector Nat 3 := Vector.replicate 3 0
  port : Vector HandlePort 2 := Vector.replicate 2 {}
  miss : Nat := 0
  crc : Nat := 0
  coll : Nat := 0
  unconf : Nat := 0
  polls : Nat := 0
  pad : List Bytes := []
  cards : List Bytes := []
  cardUid : Bytes := []
  cardBcc : Bytes := []
  cardAtqa : Nat := 0
  cardSak : Nat := 0
  deriving DecidableEq, Repr

end Sys2Proof.Machine
end

