-- ==== Sys2Proof/Machine/StateSextant.lean ====
section
/-!
DEFINITION. The state of the Sextant die: fabric channels, cells and stages (R66 to R95, R116 to R146), sigma-delta
inputs, and the control engine's law instances (R96 to R115). Plain data.
-/
namespace Sys2Proof.Machine

/-- The stage states of Table 05-1. -/
inductive StageSt where
  | off | precharge | closeWait | noSink | run | rampDown | discharge | latched
  deriving DecidableEq, Repr

/-- STG_STATE.STATE (Table 05-1). -/
def StageSt.code : StageSt → Nat
  | .off => 0 | .precharge => 1 | .closeWait => 2 | .noSink => 3
  | .run => 4 | .rampDown => 5 | .discharge => 6 | .latched => 7

/-- The cell states of Table 05-6. -/
inductive CellSt where
  | off | inService | shedding | shed | adding | estimated | retired
  deriving DecidableEq, Repr

/-- CELL_STATE.CSTATE (Table 05-6). -/
def CellSt.code : CellSt → Nat
  | .off => 0 | .inService => 1 | .shedding => 2 | .shed => 3 | .adding => 4 | .estimated => 5 | .retired => 6

/-- The latch causes of STG_STATE.LATCH_CAUSE (Table 05-5). -/
inductive LatchCause where
  | flt | readback | permit | cbc | ocl | overrun | reverse | sense | capacity | internal
  deriving DecidableEq, Repr

/-- LATCH_CAUSE codes (Table 05-5). -/
def LatchCause.code : LatchCause → Nat
  | .flt => 1 | .readback => 2 | .permit => 3 | .cbc => 4 | .ocl => 5 | .overrun => 6
  | .reverse => 7 | .sense => 8 | .capacity => 9 | .internal => 10

/-- A phase channel (Table 03-5). `cmp` is CH_CMP, `eff` the compare in effect in the present carrier period (R75).
`trunc`: the cycle-by-cycle truncation of rank 6 holds until the next period. `edgeAt`: the instant of the last edge
outside the carrier's own schedule, which the dead times follow (R76); `keepTo`: the output of the reference (`keepA`)
or its opposite stays on until then, since it has begun (R73). Instants are thousandths of a step of the S-PWM
counter. -/
structure Channel where
  cmp : Nat := 0
  eff : Nat := 0
  pendCmp : Option Nat := none
  trunc : Bool := false
  edgeAt : Nat := 0
  keepTo : Nat := 0
  keepA : Bool := false
  fltIn : Bool := false
  fltSeen : Bool := false
  rbErrH : Bool := false
  rbErrL : Bool := false
  catchCnt : Nat := 0
  minpCnt : Nat := 0
  deriving DecidableEq, Repr

/-- One telemetry quantity (R143, R144): the tick values of the window, newest first, and the held peaks. -/
structure TelQ where
  hist : List Int := []
  lo : Option Int := none
  hi : Option Int := none
  deriving DecidableEq, Repr

/-- The four quantities of a cell or a stage, as running values. -/
structure TelRun where
  v : TelQ := {}
  i : TelQ := {}
  p : TelQ := {}
  t : TelQ := {}
  deriving DecidableEq, Repr

/-- The values a Fix latches for a cell or a stage, in the units of Table 05-5 (R145). -/
structure TelLatch where
  v : Int := 0
  i : Int := 0
  p : Int := 0
  t : Int := 0
  vLo : Int := 0
  vHi : Int := 0
  iLo : Int := 0
  iHi : Int := 0
  pLo : Int := 0
  pHi : Int := 0
  tLo : Int := 0
  tHi : Int := 0
  deriving DecidableEq, Repr

/-- A cell (Tables 03-6, 05-6). `stored` is the retirement kept in Helm MRAM (R139), `retireNext` the retirement at
the next boundary of Table 05-4, `rampOut` the ramp that ends in a retirement (R140). `startAt` is the instant of its
last carrier start (R82). Of a DAB cell, `phs` is CELL_PHS, `phsX` and `phsM` are the shifts in effect of the secondary
edges about the carrier start and about mid-period (R75, R81), and `roseHalf` is the half of a move that its second
half-period makes (R84). -/
structure Cell where
  st : CellSt := .off
  retireCause : Nat := 0
  stored : Nat := 0
  share : Nat := 0
  ramp : Nat := 0
  roseEff : Nat := 0
  roseTgt : Nat := 0
  roseHalf : Int := 0
  startAt : Nat := 0
  phs : Int := 0
  phsX : Int := 0
  phsM : Int := 0
  pendPhs : Option Int := none
  cbcRun : Nat := 0
  cbcHit : Bool := false
  retireNext : Bool := false
  rampOut : Bool := false
  tel : TelRun := {}
  fix : TelLatch := {}
  deriving DecidableEq, Repr

/-- A stage (Tables 03-7, 05-5). `iSet`, `vSet` are Helm's setpoints (sources 0x200 and 0x208); `limNow` the present
R26 limit in mA, followed since `limAt`; `startRefused` the number of the first start condition of R118 that failed;
`byHelm`: the loss of Helm has ended its operation (R25); `vCmd`: the last voltage setpoint from Helm (R27); `latchChan` the
channel whose driver fault latched it (R79); `vGoal` the voltage to which the setpoint moves at PRE_RATE (R125, R160);
`lift`: the restrictions of R122 end at the next period boundary (R123). -/
structure Stage where
  st : StageSt := .off
  fail : Nat := 0
  latchCause : Nat := 0
  latchMask : Nat := 0
  startRefused : Nat := 0
  parked : Bool := true
  noSinkRestr : Bool := false
  senseAlt : Bool := false
  shedHold : Bool := false
  firing : Bool := false
  armed : Bool := true
  fireI : Int := 0
  fireSlope : Nat := 0
  iSet : Int := 0
  vSet : Int := 0
  limNow : Nat := 0
  limAt : Nat := 0
  exportLim : Nat := 0
  needTargets : Bool := false
  byHelm : Bool := false
  vCmd : Int := 0
  latchChan : Option Nat := none
  lift : Bool := false
  vGoal : Option Int := none
  deriving DecidableEq, Repr

/-- The stage's reference lock, offsets, counters and Fix (Tables 03-7, 05-5). `refAt` is the instant of the stage's
last carrier start before offsets (R82), `edgeAt` that of the last SYNC_IN edge since the reference was lost, `trim`
the carrier period's deviation from STG_PRD (R86), all in thousandths of a step; `vAt` the uptime up to which the
voltage setpoint has moved (R120, R125). -/
structure StageAux where
  syncLock : Bool := false
  syncLost : Bool := false
  syncRange : Bool := false
  syncRun : Nat := 0
  refAt : Nat := 0
  edgeAt : Option Nat := none
  trim : Int := 0
  roseChanged : Bool := false
  phEff : Nat := 0
  phTgt : Nat := 0
  fireCnt : Nat := 0
  abandonCnt : Nat := 0
  shedCnt : Nat := 0
  addCnt : Nat := 0
  vAt : Nat := 0
  failAt : Option Nat := none
  tel : TelRun := {}
  fix : TelLatch := {}
  telGen : Nat := 0
  deriving DecidableEq, Repr

/-- A sigma-delta input (Table 03-8). `bits` is its stream, newest first, as far back as a filter reaches; `run` counts
the identical bits at its head (R93), `phase` the bits since the last control output (R91). -/
structure SdInput where
  bits : List Bool := []
  run : Nat := 0
  phase : Nat := 0
  ctl : Int := 0
  fast : Int := 0
  invalid : Bool := false
  stuck : Bool := false
  fastTrip : Bool := false
  deriving DecidableEq, Repr

/-- The state of one axis of a law instance, kept from run to run (R102). -/
structure Axis where
  x1 : List Int := [0, 0, 0, 0]
  x2 : List Int := [0, 0, 0, 0]
  y1 : List Int := [0, 0, 0, 0]
  y2 : List Int := [0, 0, 0, 0]
  int : Int := 0
  d : Int := 0
  xcPrev : Int := 0
  uLast : Int := 0
  clampHi : Bool := false
  clampLo : Bool := false
  intClamp : Bool := false
  ffLast : List Int := [0, 0, 0, 0]
  deriving DecidableEq, Repr

/-- The sticky flags of Table 04-3, or the causes seen in one run. -/
structure SatFlags where
  prod : Bool := false
  acc : Bool := false
  out : Bool := false
  int : Bool := false
  deriving DecidableEq, Repr

/-- The values a run has computed and not yet written: the instance output, the three of an inverse dq transform, its
trigger instant, whether an integrator was clamped, and Y0, Y1, OMEGA and THETA as they will read. -/
structure LawOut where
  y : Int
  ms : List Int
  trig : Nat
  satInt : Bool
  y0 : Int
  y1 : Int
  omega : Int
  theta : Nat
  deriving DecidableEq, Repr

/-- A law instance (Table 04-5). `ready` holds the trigger instant of a ready instance, `out` the result of a run
that has started; `points` counts trigger points for TDIV; since the uptime `omAt` OMEGA has stayed within 1 % of
`omRef` without SAT_INT (R125). -/
structure Law where
  ax0 : Axis := {}
  ax1 : Axis := {}
  theta : Nat := 0
  iPll : Int := 0
  omega : Int := 0
  omRef : Int := 0
  omAt : Nat := 0
  y0 : Int := 0
  y1 : Int := 0
  bank1 : Bool := false
  want1 : Bool := false
  flags : SatFlags := {}
  overrun : Bool := false
  ovrMap : Bool := false
  cntProd : Nat := 0
  cntAcc : Nat := 0
  cntOut : Nat := 0
  cntInt : Nat := 0
  cntOvr : Nat := 0
  cntSwap : Nat := 0
  ovrConsec : Nat := 0
  stopped : Bool := false
  ready : Option Nat := none
  out : Option LawOut := none
  points : Nat := 0
  hist : List Nat := []
  histMax : Nat := 0
  deriving DecidableEq, Repr

/-- A pulse of an output: the instant of its rise and its width, in thousandths of a step. -/
structure OutPulse where
  rise : Nat
  width : Nat
  deriving DecidableEq, Repr

/-- The rest of the Sextant die: undershoot comparators, SYNC_IN and SYNC_OUT (R85, R88), the lanes, Fix, heartbeat
(R25, R94, R110, R145), the cooling drives' outputs (R99, R170). `count` is the S-PWM counter as last seen, at uptime
`countAt`; `ppsStamp` its value at the last PPS_IN edge and `ppsNs` the second that edge marks (R89); `shareAt` is the
uptime of the last post share from Helm (R28). -/
structure Sextant where
  channel : Vector Channel 48 := Vector.replicate 48 {}
  cell : Vector Cell 48 := Vector.replicate 48 {}
  stage : Vector Stage 8 := Vector.replicate 8 {}
  aux : Vector StageAux 8 := Vector.replicate 8 {}
  sd : Vector SdInput 64 := Vector.replicate 64 {}
  law : Vector Law 96 := Vector.replicate 96 {}
  cool : Vector Int 6 := Vector.replicate 6 0
  uscFired : Nat := 0
  uscLevel : Nat := 0
  ppsStamp : Nat := 0
  ppsNs : Option Nat := none
  count : Nat := 0
  countAt : Nat := 0
  syncPeriod : Nat := 0
  syncAt : Option Nat := none
  syncOut : Option OutPulse := none
  laneFree : Nat := 0
  laneBusy : Nat := 0
  loadChart : Nat := 0
  loadMeas : Nat := 0
  fixLast : Nat := 0
  fixTime : Nat := 0
  up : Bool := false
  beating : Bool := false
  helmLost : Bool := false
  shareAt : Option Nat := none
  deriving DecidableEq, Repr

end Sys2Proof.Machine
end

