-- ==== Sys2Proof/Machine/StateSite.lean ====
section
/-!
DEFINITION. The state of the site links and the manager: Turxel (R325 to R341), safe telegrams, Log-line (R342 to R364),
manager and worker (R365 to R384). Plain data. Instants are uptimes in ms.
-/
namespace Sys2Proof.Machine

/-- A Turxel port (Table 13-6). `mdio`: the last clause 22 frame sent to the PHY (R325). `queue`: frames waiting to be sent,
oldest first; `wire`: the last frame whose transmission began; `debt`, `bulkDebt`: bits of begun frames still to be sent, in all
and against BULK_RATE (R329). `beaconAt`, `beaconFrom`: when the last valid beacon came, and the unbroken run of them began
(R337). -/
structure TxlPort where
  link : Bool := false
  speed : Bool := false
  pathLost : Bool := false
  xconn : Bool := false
  drop : Nat := 0
  macFail : Nat := 0
  seqFail : Nat := 0
  txOvf : Nat := 0
  mdio : Nat := 0
  queue : List (TxlClass × Bytes) := []
  wire : Bytes := []
  debt : Nat := 0
  bulkDebt : Nat := 0
  beaconAt : Nat := 0
  beaconFrom : Nat := 0
  deriving DecidableEq, Repr

/-- The last LSEQ accepted from a source, in a class, on a port, when it was, and the LSEQs accepted in the 2 s before
(R330, Table 13-2). -/
structure LseqSeen where
  src : Nat
  cls : Nat
  port : Fin 2
  lseq : Nat
  at_ : Nat
  recent : List (Nat × Nat) := []
  deriving DecidableEq, Repr

/-- A Turxel frame as the module sends it (R327): header fields and payload, which ports carry it, and the LINK_MAC of
either copy (the header's PORT flag differs). -/
structure TxlSent where
  onA : Bool
  onB : Bool
  dst : Nat
  lseq : Nat
  payload : Bytes
  macA : Bytes
  macB : Bytes
  deriving DecidableEq, Repr

/-- A copy of a safe telegram (R331 to R333): its 32 bytes, the PORT flag of the frame that carried it, and when it arrived. -/
structure SafeCopy where
  bytes : Bytes
  flagB : Bool
  at_ : Nat
  deriving DecidableEq, Repr

/-- An accepted CTRL or BEACON frame that Helm has still to act on: class, SRC and payload. -/
structure SiteMsg where
  cls : TxlClass
  src : Nat
  payload : Bytes
  deriving DecidableEq, Repr

/-- PTP (R339). `good` counts consecutive Syncs within 10 µs. `annAt`, `annLog`, `syncAt`, `syncLog`: when the last Announce
and Sync came on the port in use, and their intervals. `waiting`: a two-step Sync's sequence number, correction and time stamp;
`sync`: origin and arrival of the last complete Sync. `req`: sequence number and time stamp of the last request sent; `turn`: a
two-step answer to it: sequence number, the peer's receipt, and its arrival less corrections. `delay`: the path delay. The last four
are in 2^-16 ns where they are times. -/
structure Ptp where
  locked : Bool := false
  port : Fin 2 := 0
  offset : Int := 0
  good : Nat := 0
  annAt : Nat := 0
  annLog : Int := 1
  syncAt : Nat := 0
  syncLog : Int := 0
  waiting : Option (Nat × Int × Int) := none
  sync : Option (Int × Int) := none
  req : Option (Nat × Int) := none
  turn : Option (Nat × Int × Int) := none
  delay : Int := 0
  deriving DecidableEq, Repr

/-- An answer to a network request (R340): the address asked for, with the MAC address it belongs to, or the echoed data. -/
inductive NetAnswer where
  | arp (ip4 : Nat) (mac : Bytes)
  | neighbour (ip6 : List Nat) (mac : Bytes)
  | echo4 (ip4 : Nat) (data : Bytes)
  | echo6 (ip6 : List Nat) (data : Bytes)
  deriving DecidableEq, Repr

/-- The links' state. `key` is H-NET's working copy of the link key (R330). `lseq` and `sent` are indexed by class
code − 1: the next LSEQ, and the last frame sent. `handed` is the last frame passed to its class; `fwd` holds SAFE
frames that have passed R330 and wait for the forwarder, `inbox` the CTRL and BEACON messages that wait for Helm. `answer`: the
last network answer and its port (R340); `answered` counts them. -/
structure Turxel where
  port : Vector TxlPort 2 := Vector.replicate 2 {}
  seen : List LseqSeen := []
  lseq : Vector Nat 5 := Vector.replicate 5 0
  sent : Vector (Option TxlSent) 5 := Vector.replicate 5 none
  key : Option Bytes := none
  handed : Option (Nat × Nat × Nat) := none
  fwd : List (Fin 2 × SafeCopy) := []
  inbox : List SiteMsg := []
  ptp : Ptp := {}
  answered : Nat := 0
  answer : Option (Fin 2 × NetAnswer) := none
  deriving DecidableEq, Repr

/-- A safe copy waiting in a Lookout channel for its partner (R333). -/
structure SafeWait where
  port : Fin 2
  copy : SafeCopy
  deriving DecidableEq, Repr

/-- The watch of a SAFE_PEERk entry in one channel (R334). `got`: a pair has been delivered since the channel started;
`expired`: its watchdog has run out; `stop`: the last delivered telegram was a STOP; `fed`: when the watchdog was last
restarted. -/
structure SafePeer where
  expired : Bool := false
  got : Bool := false
  stop : Bool := false
  last : Option Nat := none
  fed : Nat := 0
  deriving DecidableEq, Repr

/-- One Lookout channel's side of the safe telegrams. -/
structure SafeChan where
  inbox : List (Fin 2 × SafeCopy) := []
  waiting : List SafeWait := []
  peer : Vector SafePeer 16 := Vector.replicate 16 {}
  deriving DecidableEq, Repr

/-- Safe telegrams (Table 13-7). `singleOut`: SINGLE_T has run out; `fbAt`: when the fallback was engaged; `copyAt`: when the last
copy from a watched source came on each port; `pairFrom`: since when pairs have been complete without a break (R336). -/
structure SafeLink where
  chan : Vector SafeChan 2 := Vector.replicate 2 {}
  sseq : Nat := 0
  sentA : Bytes := []
  sentB : Bytes := []
  clash : Bool := false
  fallback : Bool := false
  fbPort : Fin 2 := 0
  fbAt : Nat := 0
  singleOut : Bool := false
  copyAt : Vector Nat 2 := Vector.replicate 2 0
  pairFrom : Option Nat := none
  missA : Nat := 0
  missB : Nat := 0
  diff : Nat := 0
  code : Nat := 0
  deriving DecidableEq, Repr

/-- A neighbour of the Log-line node (R353, R354): the map it must use towards us and the one before it, with each
segment's run of errors and the instant from which STEPDN_T runs; the map we were told to use towards it; the map it last reported
it needs; whether and when it was last heard (R361). -/
structure LlPeer where
  map : Nat := 0xAAAAAA
  oldMap : Nat := 0xAAAAAA
  errs : Vector Nat 12 := Vector.replicate 12 0
  errAt : Vector Nat 12 := Vector.replicate 12 0
  told : Nat := 0xAAAAAA
  reported : Option Nat := none
  heard : Bool := false
  heardAt : Nat := 0
  deriving DecidableEq, Repr

/-- A route (Table 14-4, LL_ROUTEk). -/
structure LlRoute where
  hops : Nat := 0
  dst : Nat := 0
  relay1 : Nat := 0
  relay2 : Nat := 0
  cost : Nat := 0
  deriving DecidableEq, Repr

/-- A frame received (Table 14-2): header fields and payload, the node heard at this hop, and the slot after its last. -/
structure LlRx where
  kind : Nat
  hops : Nat
  hidx : Nat
  step : Nat
  more : Bool
  dst : Nat
  src : Nat
  relay1 : Nat
  relay2 : Nat
  seq : Nat
  payload : Bytes
  sender : Fin 34
  stop : Nat
  deriving DecidableEq, Repr

/-- A frame the modem sends (R342, R347, R351): header fields, payload, LMAC and CRC; the map that places its symbols; the slot it
starts in and the tone of each slot from there on, none where it is silent; the attenuation on LL_TX in steps of 0.5 dB; LL_TXEN's
rise and fall in µs on the slots' own axis. -/
structure LlSent where
  header : Nat
  payload : Bytes
  mac : Bytes
  crc : Nat
  map : Nat
  slot : Nat
  tones : List (Option (Fin 4))
  level : Nat
  rise : Int
  fall : Int
  deriving DecidableEq, Repr

/-- The master's exchange in progress: the polled node, the retry step, the round of a relayed exchange, and whether it
waits for a reply (R356 to R360). -/
structure LlExchange where
  dst : Nat
  step : Nat
  round : Nat
  waiting : Bool
  deriving DecidableEq, Repr

/-- The Log-line modem (Table 14-4). `noise`: for each segment, the energies learned in the last 10 s as (instant in ms, sum,
number of bins) (R349). `power`: the squares of the last samples not blanked, newest first, at most 1 ms of them; `blanks`: for the
slots of the last 1 s, (instant in ms, samples zeroed, samples) (R350). `recent`: SRC, SEQ and instant of frames accepted; `reply`: a
poll to be answered; `toRelay`: a frame to be forwarded; `await`: the node whose reply a relay waits for; `neighAt`,
`neighLeft`: the last NEIGH report and what of it is still to be sent; `links`: costs reported by NEIGH frames as (from, to,
cost); `dead`: unusable links; `validFrom`: since when valid master frames have come without a break of 750 ms (R362). `sentTo`: the
end of this node's last transmission, in µs on the slots' own axis. As master: `cycleOpen`: the cycle's first frame is sent; `turn`:
the node whose turn it is; `pollSlot`: the slot at which the last poll started, counted over all cycles; `busyTo`: the end of
the last traffic, on the same axis. -/
structure LogLine where
  isMaster : Bool := false
  zcLost : Bool := false
  zcMiss : Nat := 0
  zcGood : Nat := 0
  zcLast : Option Nat := none
  period : Nat := 20000
  refAt : Nat := 0
  noise : Vector (List (Nat × Nat × Nat)) 12 := Vector.replicate 12 []
  power : List Nat := []
  blanks : List (Nat × Nat × Nat) := []
  pathLost : Bool := false
  master : Nat := 0
  masterEpoch : Nat := 0
  mainsF : Nat := 0
  bmap : Nat := 0
  annMap : Nat := 0xAAAAAA
  ok : Nat := 0
  lost : Nat := 0
  retry : Nat := 0
  stepCnt : Nat := 0
  beaconAt : Option Nat := none
  validFrom : Nat := 0
  beaconMax : Nat := 0
  route : Vector LlRoute 32 := Vector.replicate 32 {}
  peer : Vector LlPeer 34 := Vector.replicate 34 {}
  recent : List (Nat × Nat × Nat) := []
  links : List (Nat × Nat × Nat) := []
  dead : List (Nat × Nat) := []
  seq : Nat := 0
  cycleOpen : Bool := false
  turn : Nat := 0
  pollSlot : Nat := 0
  busyTo : Nat := 0
  sentTo : Nat := 0
  exch : Option LlExchange := none
  reply : Option LlRx := none
  toRelay : Option LlRx := none
  await : Option (Fin 34) := none
  neighAt : Nat := 0
  neighLeft : List (Nat × Nat) := []
  sent : Option LlSent := none
  relayed : Option LlSent := none
  deriving DecidableEq, Repr

/-- A worker's STATUS message (R366). -/
structure StatusMsg where
  node : Nat
  epoch : Nat
  count : Nat
  demand : Nat
  capacity : Nat
  guar : Nat
  wflags : Nat
  health : Nat
  deriving DecidableEq, Repr

/-- An entry of Table 15-1. -/
structure AllocEntry where
  node : Nat
  alloc : Nat
  syncPh : Nat
  deriving DecidableEq, Repr

/-- An ALLOC or CURTAIL message (R369, R370). `node` is the sender's NODE_ID. -/
structure AllocMsg where
  curtail : Bool
  node : Nat
  epoch : Nat
  rank : Bool
  cycle : Nat
  inputCrc : Nat
  entries : List AllocEntry
  deriving DecidableEq, Repr

/-- The PARAM message of R369: P_SITE, and CLASS by NODE_ID. -/
structure ParamMsg where
  epoch : Nat
  rank : Bool
  pSite : Nat
  classes : List (Nat × Nat)
  deriving DecidableEq, Repr

/-- A manager's BEACON, or a POLL as Log-line master (`logLine`), as the other manager hears it (R375, Table 15-2). -/
structure MgrBeacon where
  logLine : Bool
  epoch : Nat
  rank : Bool
  active : Bool
  renew : Bool
  release : Bool
  tokenReq : Bool
  green : Bool
  cycle : Nat
  health : Nat
  deriving DecidableEq, Repr


/-- MGR_STATE.MROLE (Table 15-6). -/
inductive MRole where
  | worker | listening | standby | active | releasing | fenced
  deriving DecidableEq, Repr

/-- MROLE codes. -/
def MRole.code : MRole → Nat
  | .worker => 0 | .listening => 1 | .standby => 2 | .active => 3 | .releasing => 4 | .fenced => 5

/-- A worker as the site model's entry sees it (R366, R367): the latest STATUS and when it came, the last allocation
published or shadowed, and the interleave offset (R373). -/
structure SiteWorker where
  status : Option StatusMsg := none
  at_ : Nat := 0
  alloc : Nat := 0
  syncPh : Nat := 0
  deriving DecidableEq, Repr

/-- The manager (R365 to R384). `cls` and `pSite` are the LIVE site parameters; `pSiteHost` says that SITE_LIMIT_SET has
set P_SITE, `clsHost` lists the classes it has set, by NODE_ID. `heardHigh` is the highest epoch heard, `leaseAt` the last
renewal, `roleAt` when the role last changed; `agreeFrom`: since when compared cycles have agreed (R380); `leaveAt`, `rejoin`: when
the offsets were last recomputed, and whether a WFLAGS[0] has changed since (R373); `redAt`: when health was last red (R382). -/
structure Manager where
  role : MRole := .worker
  epoch : Nat := 0
  heardHigh : Nat := 0
  cycle : Nat := 0
  tokenReq : Bool := false
  epochEnd : Bool := false
  noQuorum : Bool := false
  pSite : Nat := 0
  pSiteHost : Bool := false
  cls : Vector Nat 32 := Vector.replicate 32 0
  clsHost : List (Nat × Nat) := []
  worker : Vector SiteWorker 32 := Vector.replicate 32 {}
  peerHealth : Nat := 0
  peerLost : Bool := false
  peerTxl : Option Nat := none
  peerLl : Option Nat := none
  leaseAt : Nat := 0
  listens : Nat := 0
  heardActive : Bool := false
  renewIn : Nat := 0
  coreFaultAt : Option Nat := none
  roleAt : Nat := 0
  agreeFrom : Option Nat := none
  leaveAt : Option Nat := none
  rejoin : Bool := false
  redAt : Nat := 0
  shadowRun : Nat := 0
  shadowDiff : Bool := false
  takeover : Nat := 0
  curtail : Nat := 0
  shadowCnt : Nat := 0
  deriving DecidableEq, Repr

/-- The worker side (R371, R372). `last` is P_last, `lastAt` the uptime of the last accepted allocation since Landfall.
`epoch`, `rank` and `cycle` are the highest pair accepted, with the CYCLE of its last message; `reportDue`: a STATUS
report of a fallen capacity is due (R366). -/
structure Worker where
  epoch : Nat := 0
  rank : Bool := false
  cycle : Option Nat := none
  fenced : Nat := 0
  node : Nat := 0
  last : Option Nat := none
  lastAt : Nat := 0
  alloc : Nat := 0
  drState : Nat := 0
  count : Nat := 0
  reportDue : Bool := false
  deriving DecidableEq, Repr

end Sys2Proof.Machine
end

