-- ==== Sys2Proof/Machine/State.lean ====
section
/-!
DEFINITION. The state of the block: all the KGV-4800's manual gives the module, as plain data, with the queue of
waiting commands; why a step can stop; and the state right after reset.
-/
namespace Sys2Proof.Machine

/-- The order codes of Table 00-1 (R3). The temperature suffix changes no behaviour (R4). -/
inductive Variant where
  | ma4800 | mn4800 | ma4824
  deriving DecidableEq, Repr

/-- The state of the module. `variant`, `mono` (uptime in ms, DESIGN CHOICE, log 2), `free` (the number of free values
drawn, the MODEL's own field) and `flash` (the chart flash, first 8 MiB, bytes other than 0xFF by rising address) serve
every die; `cfg` holds the parameter words that the chart and host writes set, keyed by block, instance and offset,
listing only words that differ from their reset value; `pending` is the queue of commands, first in, first out. -/
structure State where
  variant : Variant := .ma4800
  mono : Nat := 0
  free : Nat := 0
  landfall : Landfall := {}
  chart : Chart := {}
  cfg : List (Nat × Word) := []
  flash : List Host.Cell := []
  sx : Sextant := {}
  outlet : Vector Outlet 2 := Vector.replicate 2 {}
  cooling : Vector Cooling 2 := Vector.replicate 2 {}
  drive : Vector Drive 6 := Vector.replicate 6 {}
  rdr : Reader := {}
  mer : Meridian := {}
  com : Commercial := {}
  disp : Display := {}
  lk : Lookout := {}
  txl : Turxel := {}
  safe : SafeLink := {}
  ll : LogLine := {}
  mgr : Manager := {}
  wrk : Worker := {}
  host : HostIf := {}
  locker : Locker
  fw : Vector FwTarget 5 := Vector.replicate 5 {}
  tamper : Tamper := {}
  log : Logbook := {}
  flt : Faults := {}
  pwr : Power := {}
  merStage : Bytes := []
  pending : List Instr := []
  deriving DecidableEq, Repr

/-- Why the machine can stop with a fault. No rule of the manual stops the module: every meaning of this model answers
a next state, so nothing raises this fault (safe: it admits no behaviour). -/
inductive Fault where
  /-- Raised by no meaning. Safe. -/
  | never
  deriving DecidableEq, Repr

/-- Why the machine can refuse a command. -/
inductive Refusal where
  /-- Raised by an arm of `exec` whose command has no meaning yet. Safe: a refused command proves nothing. -/
  | notModelled (mnemonic : String)
  deriving DecidableEq, Repr

/-- Attributes of a factory slot (Tables 17-1, 17-2): usage, algorithm and length as fixed there; ROLES has INTERNAL
only, PARENT 0xFF, FLAGS, byte 5 and TAG_ID 0 (DESIGN CHOICE, log 3). -/
def factoryAttrs (usage alg len : Nat) : Bytes :=
  [BitVec.ofNat 8 usage, BitVec.ofNat 8 alg, 0x10, 0xFF, 0, 0, 0, BitVec.ofNat 8 len] ++ List.replicate 8 0

/-- A slot holding factory material (Table 17-1) (DESIGN CHOICE, log 3). -/
def factorySlot (k usage alg len : Nat) : Slot :=
  let m := (List.range len).map (Config.factoryKey k)
  { st := .valid, attrs := factoryAttrs usage alg len, material := m, tag := slotTag k (slotImage (factoryAttrs usage alg len) m) }

/-- The Chart Locker as the factory leaves it: slots 0, 1, 3, 5 and 7 hold factory keys, all others are empty
(DESIGN CHOICE, log 3). -/
def factoryLocker : Locker :=
  { slot := (((((Vector.replicate 128 {}).set 0 (factorySlot 0 5 2 32)).set 1 (factorySlot 1 6 3 33)).set 3
      (factorySlot 3 3 2 32)).set 5 (factorySlot 5 7 4 32)).set 7 (factorySlot 7 7 4 32) }

/-- The machine right after reset: PORST_N low (R32, R474), every register at the reset value its table gives, the
non-volatile memories as the factory leaves them, and no command waiting. Where the manual gives no value, the value
is the log's (3, 4, 5). -/
def State.reset : State := { locker := factoryLocker }

end Sys2Proof.Machine
end

