-- ==== Sys2Proof/Machine/RegMap.lean ====
section
/-!
DEFINITION. The parameter map (R454 to R459): the field tables of the manual's chapters, which words exist, what a
field may hold and what it resets to. Each row gives an offset, how many words repeat it, their stride, and the fields;
bits that no field names are reserved and must be written 0 (R13).
-/
namespace Sys2Proof.Machine

/-- The access kinds of R10 and Table 19-2. -/
inductive Access where
  | ro | rw | rwl | wo | w1c | live
  deriving DecidableEq, Repr

/-- A field of a register: its bits, access, reset value, and the values it may be given. -/
structure RegField where
  hi : Nat
  lo : Nat
  acc : Access
  reset : Nat
  min : Nat
  max : Nat
  deriving DecidableEq, Repr

/-- A row of a field table: a word, or `count` words `stride` bytes apart. -/
structure RegRow where
  off : Nat
  count : Nat
  stride : Nat
  fields : List RegField
  deriving DecidableEq, Repr

/-- A field that may hold any value of its width. -/
def fld (hi lo : Nat) (acc : Access) (reset : Nat) : RegField := ⟨hi, lo, acc, reset, 0, 2 ^ (hi - lo + 1) - 1⟩

/-- A field that may hold the values `min` to `max`. -/
def rng (hi lo : Nat) (acc : Access) (reset min max : Nat) : RegField := ⟨hi, lo, acc, reset, min, max⟩

/-- A row of a table. -/
def rows (off count stride : Nat) (fields : List RegField) : RegRow := ⟨off, count, stride, fields⟩

/-- Block 0x13, instances 0x000 to 0x02F (R456). -/
def regsChannel : List RegRow := [
  rows 0x000 1 0x4 [fld 27 16 .rwl 0x0, rng 9 8 .rwl 0x0 0 2, fld 7 7 .rwl 0x0, fld 4 3 .rwl 0x0], -- CH_CFG
  rows 0x004 1 0x4 [fld 19 0 .ro 0x0], -- CH_CMP
  rows 0x008 1 0x4 [rng 30 16 .rwl 0x0 0 19200, rng 14 0 .rwl 0x0 0 19200], -- CH_DT
  rows 0x00C 1 0x4 [fld 15 15 .ro 0x0, fld 14 14 .w1c 0x0, fld 13 13 .w1c 0x0, fld 12 12 .w1c 0x0], -- CH_STATUS
  rows 0x010 1 0x4 [fld 31 16 .rw 0x0, fld 15 0 .rw 0x0]] -- CH_CNT

/-- Block 0x12, instances 0x000 to 0x02F (R456). -/
def regsCell : List RegRow := [
  rows 0x000 1 0x4 [rng 23 16 .rwl 0x0 0 47, fld 10 8 .rwl 0x0, fld 0 0 .rwl 0x0], -- CELL_CFG
  rows 0x004 1 0x4 [fld 31 16 .ro 0x0, fld 15 0 .rwl 0x0], -- CELL_ROSE
  rows 0x008 1 0x4 [fld 20 0 .ro 0x0], -- CELL_PHS
  rows 0x00C 1 0x4 [fld 31 29 .ro 0x0, fld 23 16 .ro 0x0, fld 15 0 .ro 0x0], -- CELL_STATE
  rows 0x010 1 0x4 [fld 31 26 .rwl 0x0, fld 25 16 .rwl 0x3FF, fld 15 0 .rwl 0x0], -- CELL_SENSE
  rows 0x020 11 0x4 [fld 31 0 .ro 0x0]] -- TEL

/-- Block 0x11, instances 0x000 to 0x007 (R456). -/
def regsStage : List RegRow := [
  rows 0x000 1 0x4 [rng 18 16 .rwl 0x0 0 5, fld 8 8 .rwl 0x0], -- STG_CFG
  rows 0x004 1 0x4 [fld 15 0 .rwl 0x0], -- STG_PRD
  rows 0x008 1 0x4 [fld 31 31 .rwl 0x0, rng 13 0 .rwl 0x1 1 10000], -- STG_SYNC
  rows 0x00C 1 0x4 [fld 31 16 .ro 0x0, fld 15 0 .rwl 0x0], -- STG_SYNC_PH
  rows 0x010 1 0x4 [fld 11 0 .rwl 0x0], -- STG_SYNC_DLY
  rows 0x014 1 0x4 [fld 19 0 .rwl 0x0], -- STG_PHS_MAX
  rows 0x018 1 0x4 [fld 3 3 .ro 0x0, fld 2 2 .w1c 0x0, fld 1 1 .w1c 0x0, fld 0 0 .w1c 0x0], -- STG_PWM_STATUS
  rows 0x020 1 0x4 [fld 31 28 .ro 0x0, fld 27 24 .ro 0x0, fld 23 16 .ro 0x0, fld 11 7 .ro 0x0, fld 6 2 .ro 0x0, fld 1 1 .ro 0x0, fld 0 0 .ro 0x0], -- STG_STATE
  rows 0x024 1 0x4 [fld 9 0 .ro 0x0], -- STG_LATCH_MASK
  rows 0x028 1 0x4 [fld 31 31 .rwl 0x0, fld 29 24 .rwl 0x0, fld 21 16 .rwl 0x0, fld 13 8 .rwl 0x0], -- STG_SENSE
  rows 0x02C 1 0x4 [fld 31 16 .rwl 0x0, fld 15 0 .rwl 0x0], -- STG_SCALE
  rows 0x030 1 0x4 [rng 31 24 .rwl 0x5 0 20, rng 23 16 .rwl 0xA 1 255, rng 15 0 .rwl 0x7D0 100 10000], -- STG_START
  rows 0x034 1 0x4 [fld 31 16 .rwl 0x1F4, fld 15 0 .rwl 0x0], -- STG_START2
  rows 0x038 1 0x4 [rng 31 16 .rwl 0x14 1 1000, rng 15 8 .rwl 0xA 1 255, rng 7 0 .rwl 0xA 1 255], -- STG_NOSINK
  rows 0x03C 1 0x4 [rng 31 16 .rwl 0x20 1 65535, fld 15 0 .rwl 0xA], -- STG_CUR
  rows 0x040 1 0x4 [fld 31 31 .rwl 0x0, rng 30 20 .rwl 0x12C 30 1200, rng 19 12 .rwl 0x14 1 255, fld 11 0 .rwl 0x0], -- STG_FIRE
  rows 0x044 1 0x4 [rng 31 24 .rwl 0x64 1 255, fld 23 23 .rwl 0x0, fld 22 16 .rwl 0x0, fld 11 11 .rwl 0x0, fld 10 8 .rwl 0x0, fld 7 0 .rwl 0x0], -- STG_LINK
  rows 0x048 1 0x4 [fld 31 31 .rwl 0x0, rng 30 24 .rwl 0x28 5 90, rng 23 17 .rwl 0x50 10 95, rng 16 12 .rwl 0x1 1 24, rng 11 4 .rwl 0x8 1 255], -- STG_SHED
  rows 0x04C 1 0x4 [fld 31 16 .rwl 0x32, fld 15 8 .rwl 0xA, fld 7 0 .rwl 0xA], -- STG_SHED_T
  rows 0x050 1 0x4 [rng 31 24 .rwl 0x8 1 255, rng 23 16 .rwl 0xA 1 255, fld 15 0 .rwl 0x0], -- STG_OC
  rows 0x054 1 0x4 [fld 31 16 .rwl 0x0, rng 15 8 .rwl 0x4 1 255, rng 7 0 .rwl 0x32 1 50], -- STG_CELL
  rows 0x058 1 0x4 [fld 31 16 .ro 0x0], -- STG_CAP
  rows 0x05C 1 0x4 [fld 1 0 .rwl 0x0], -- STG_TEL_CFG
  rows 0x060 1 0x4 [fld 31 16 .rw 0x0, fld 15 0 .rw 0x0], -- STG_CNT
  rows 0x064 1 0x4 [fld 31 16 .rw 0x0, fld 15 0 .rw 0x0], -- STG_CNT2
  rows 0x06C 1 0x4 [fld 31 0 .ro 0x0], -- TEL_GEN
  rows 0x070 1 0x4 [fld 31 0 .ro 0x0], -- TEL_V
  rows 0x074 1 0x4 [fld 31 0 .ro 0x0], -- TEL_I
  rows 0x078 1 0x4 [fld 31 0 .ro 0x0], -- TEL_P
  rows 0x07C 1 0x4 [fld 15 0 .ro 0x0], -- TEL_T
  rows 0x080 1 0x4 [fld 31 0 .ro 0x0], -- TEL_V_LO
  rows 0x084 1 0x4 [fld 31 0 .ro 0x0], -- TEL_V_HI
  rows 0x088 1 0x4 [fld 31 0 .ro 0x0], -- TEL_I_LO
  rows 0x08C 1 0x4 [fld 31 0 .ro 0x0], -- TEL_I_HI
  rows 0x090 1 0x4 [fld 31 0 .ro 0x0], -- TEL_P_LO
  rows 0x094 1 0x4 [fld 31 0 .ro 0x0], -- TEL_P_HI
  rows 0x098 1 0x4 [fld 31 16 .ro 0x0, fld 15 0 .ro 0x0]] -- TEL_T_PK

/-- Block 0x15, instances 0x000 to 0x03F (R456). -/
def regsSd : List RegRow := [
  rows 0x000 1 0x4 [fld 31 31 .rwl 0x0, fld 26 24 .rwl 0x0, fld 23 19 .rwl 0x0, rng 18 16 .rwl 0x0 0 4, rng 13 8 .rwl 0x8 8 32, fld 6 4 .rwl 0x0, fld 3 3 .rwl 0x0], -- SD_CFG
  rows 0x004 1 0x4 [fld 31 16 .rwl 0x7FFF, fld 15 0 .rwl 0x8000], -- SD_FAST_LIM
  rows 0x008 1 0x4 [fld 31 0 .ro 0x0], -- SD_CTL_OUT
  rows 0x00C 1 0x4 [fld 31 16 .ro 0x0, fld 2 2 .ro 0x0, fld 1 1 .w1c 0x0, fld 0 0 .w1c 0x0]] -- SD_STATUS

/-- Block 0x10, instances 0x000 to 0x000 (R456). -/
def regsSextant : List RegRow := [
  rows 0x000 1 0x4 [rng 15 8 .rwl 0x3C 1 255, rng 3 0 .rwl 0x0 0 9], -- SYNC_OUT_CFG
  rows 0x008 1 0x4 [rng 7 0 .rwl 0xF 6 60], -- RB_CFG
  rows 0x020 8 0x4 [fld 8 8 .rwl 0x0, rng 7 0 .rwl 0x1E 30 255], -- SD_CLKk
  rows 0x040 8 0x4 [fld 31 31 .rwl 0x0, fld 30 28 .rwl 0x0, fld 25 16 .rwl 0x0, rng 15 8 .rwl 0x1 1 255], -- USC_CFGk
  rows 0x060 1 0x4 [fld 15 8 .w1c 0x0, fld 7 0 .ro 0x0], -- USC_STATUS
  rows 0x080 1 0x4 [fld 31 16 .ro 0x0, fld 15 0 .ro 0x0], -- ENG_LOAD
  rows 0x084 3 0x4 [fld 31 0 .w1c 0x0], -- OVR_MAPk
  rows 0x0A0 1 0x4 [fld 31 0 .ro 0x0], -- FIX_LAST
  rows 0x0A4 1 0x4 [fld 31 0 .ro 0x0], -- FIX_TIME_LO
  rows 0x0A8 1 0x4 [fld 31 0 .ro 0x0]] -- FIX_TIME_HI

/-- Block 0x14, instances 0x000 to 0x05F (R456). -/
def regsLaw : List RegRow := [
  rows 0x000 1 0x4 [fld 31 31 .rwl 0x0, fld 30 30 .rwl 0x0, fld 29 27 .rwl 0x0, rng 26 25 .rwl 0x0 0 2, rng 23 16 .rwl 0x0 0 47, fld 7 7 .rwl 0x0, fld 6 6 .rwl 0x0, fld 5 5 .rwl 0x0, fld 4 4 .rwl 0x0, fld 3 3 .rwl 0x0], -- INST_CFG
  rows 0x004 1 0x4 [fld 31 30 .rwl 0x0, fld 23 0 .rwl 0x0], -- INST_TRIG
  rows 0x008 1 0x4 [fld 31 22 .rwl 0x3FF, fld 21 12 .rwl 0x3FF, rng 10 8 .rwl 0x0 0 4, rng 7 6 .rwl 0x0 0 2, rng 5 3 .rwl 0x0 0 4], -- AX0_CFG
  rows 0x00C 1 0x4 [fld 31 22 .rwl 0x3FF, fld 21 12 .rwl 0x3FF, rng 10 8 .rwl 0x0 0 4, rng 7 6 .rwl 0x0 0 2, rng 5 3 .rwl 0x0 0 4], -- AX1_CFG
  rows 0x010 1 0x4 [fld 25 16 .rwl 0x3FF, fld 9 0 .rwl 0x3FF], -- AX0_FF01
  rows 0x014 1 0x4 [fld 25 16 .rwl 0x3FF, fld 9 0 .rwl 0x3FF], -- AX0_FF23
  rows 0x018 1 0x4 [fld 25 16 .rwl 0x3FF, fld 9 0 .rwl 0x3FF], -- AX1_FF01
  rows 0x01C 1 0x4 [fld 25 16 .rwl 0x3FF, fld 9 0 .rwl 0x3FF], -- AX1_FF23
  rows 0x020 1 0x4 [fld 29 20 .rwl 0x3FF, fld 19 10 .rwl 0x3FF, fld 9 0 .rwl 0x3FF], -- DQ_IABC
  rows 0x024 1 0x4 [fld 29 20 .rwl 0x3FF, fld 19 10 .rwl 0x3FF, fld 9 0 .rwl 0x3FF], -- DQ_VABC
  rows 0x028 1 0x4 [fld 6 0 .rwl 0x0], -- DQ_THETA
  rows 0x030 1 0x4 [fld 31 31 .ro 0x0, rng 28 27 .rwl 0x0 0 2, fld 26 26 .rwl 0x1, fld 25 16 .rwl 0x3FF], -- BANK_CFG
  rows 0x034 1 0x4 [fld 31 16 .rwl 0x7FFF, fld 15 0 .rwl 0x7FFF], -- BANK_THR
  rows 0x040 1 0x4 [fld 9 8 .ro 0x0, fld 7 7 .ro 0x0, fld 6 6 .ro 0x0, fld 5 5 .ro 0x0, fld 4 4 .w1c 0x0, fld 3 3 .w1c 0x0, fld 2 2 .w1c 0x0, fld 1 1 .w1c 0x0, fld 0 0 .w1c 0x0], -- INST_FLAGS
  rows 0x044 1 0x4 [fld 31 16 .rw 0x0, fld 15 0 .rw 0x0], -- CNT_SAT_A
  rows 0x048 1 0x4 [fld 31 16 .rw 0x0, fld 15 0 .rw 0x0], -- CNT_SAT_B
  rows 0x04C 1 0x4 [fld 31 16 .rw 0x0, fld 15 0 .rw 0x0], -- CNT_OVR
  rows 0x050 1 0x4 [rng 7 0 .rwl 0x8 1 255], -- HIST_CFG
  rows 0x054 1 0x4 [fld 15 0 .rw 0x0], -- HIST_MAX
  rows 0x060 8 0x4 [fld 31 16 .rw 0x0, fld 15 0 .rw 0x0], -- HIST_k
  rows 0x080 1 0x4 [fld 31 0 .ro 0x0], -- Y0
  rows 0x084 1 0x4 [fld 31 0 .ro 0x0], -- Y1
  rows 0x088 1 0x4 [fld 31 0 .ro 0x0], -- OMEGA
  rows 0x08C 1 0x4 [fld 31 0 .ro 0x0], -- THETA
  rows 0x200 59 0x4 [fld 31 0 .rwl 0x0], -- COEFc, bank 0
  rows 0x2ec 5 0x4 [], -- COEF59 to COEF63, reserved
  rows 0x300 16 0x4 [rng 29 24 .rwl 0x0 0 47, rng 21 16 .rwl 0x0 0 47, rng 13 8 .rwl 0x0 0 47, rng 5 0 .rwl 0x0 0 47], -- KSHj
  rows 0x340 1 0x4 [fld 20 16 .rwl 0x0, fld 12 8 .rwl 0x0, fld 4 0 .rwl 0x0], -- OUT_SH
  rows 0x344 1 0x4 [fld 31 0 .rwl 0x7FFFFFFF], -- LIM_HI0
  rows 0x348 1 0x4 [fld 31 0 .rwl 0x80000000], -- LIM_LO0
  rows 0x34c 1 0x4 [fld 31 0 .rwl 0x7FFFFFFF], -- INT_HI0
  rows 0x350 1 0x4 [fld 31 0 .rwl 0x80000000], -- INT_LO0
  rows 0x354 1 0x4 [fld 31 0 .rwl 0x7FFFFFFF], -- LIM_HI1
  rows 0x358 1 0x4 [fld 31 0 .rwl 0x80000000], -- LIM_LO1
  rows 0x35c 1 0x4 [fld 31 0 .rwl 0x7FFFFFFF], -- INT_HI1
  rows 0x360 1 0x4 [fld 31 0 .rwl 0x80000000], -- INT_LO1
  rows 0x364 1 0x4 [fld 31 0 .rwl 0x7FFFFFFF], -- PLL_HI
  rows 0x368 1 0x4 [fld 31 0 .rwl 0x80000000], -- PLL_LO
  rows 0x400 59 0x4 [fld 31 0 .rwl 0x0], -- COEFc, bank 1
  rows 0x4ec 5 0x4 [], -- COEF59 to COEF63, reserved
  rows 0x500 16 0x4 [rng 29 24 .rwl 0x0 0 47, rng 21 16 .rwl 0x0 0 47, rng 13 8 .rwl 0x0 0 47, rng 5 0 .rwl 0x0 0 47], -- KSHj
  rows 0x540 1 0x4 [fld 20 16 .rwl 0x0, fld 12 8 .rwl 0x0, fld 4 0 .rwl 0x0], -- OUT_SH
  rows 0x544 1 0x4 [fld 31 0 .rwl 0x7FFFFFFF], -- LIM_HI0
  rows 0x548 1 0x4 [fld 31 0 .rwl 0x80000000], -- LIM_LO0
  rows 0x54c 1 0x4 [fld 31 0 .rwl 0x7FFFFFFF], -- INT_HI0
  rows 0x550 1 0x4 [fld 31 0 .rwl 0x80000000], -- INT_LO0
  rows 0x554 1 0x4 [fld 31 0 .rwl 0x7FFFFFFF], -- LIM_HI1
  rows 0x558 1 0x4 [fld 31 0 .rwl 0x80000000], -- LIM_LO1
  rows 0x55c 1 0x4 [fld 31 0 .rwl 0x7FFFFFFF], -- INT_HI1
  rows 0x560 1 0x4 [fld 31 0 .rwl 0x80000000], -- INT_LO1
  rows 0x564 1 0x4 [fld 31 0 .rwl 0x7FFFFFFF], -- PLL_HI
  rows 0x568 1 0x4 [fld 31 0 .rwl 0x80000000]] -- PLL_LO

/-- Block 0x20, instances 0x000 to 0x001 (R456). -/
def regsOutlet : List RegRow := [
  rows 0x000 1 0x4 [rng 31 30 .rwl 0x0 0 2, fld 28 26 .rwl 0x0, fld 25 25 .rwl 0x0, fld 24 24 .rwl 0x0, fld 23 23 .rwl 0x0, fld 22 22 .rwl 0x1, fld 21 21 .rwl 0x1, fld 15 0 .rwl 0x0], -- OUT_CFG
  rows 0x004 1 0x4 [fld 31 16 .rwl 0x0, fld 15 0 .rwl 0x0], -- OUT_LIM
  rows 0x008 1 0x4 [fld 31 16 .rwl 0x0, fld 15 0 .rwl 0x0], -- OUT_POWER
  rows 0x00C 1 0x4 [rng 31 22 .rwl 0x32 0 1000, rng 15 8 .rwl 0xA 1 255, rng 7 6 .rwl 0x0 0 2], -- PLT_CFG
  rows 0x010 1 0x4 [fld 27 16 .rwl 0x8CC, fld 11 0 .rwl 0x733], -- PLT_TH01
  rows 0x014 1 0x4 [fld 27 16 .rwl 0xBFF, fld 11 0 .rwl 0xA66], -- PLT_TH23
  rows 0x018 1 0x4 [fld 27 16 .rwl 0xF32, fld 11 0 .rwl 0xD99], -- PLT_TH45
  rows 0x01C 1 0x4 [fld 27 16 .rwl 0xFFF, fld 11 0 .rwl 0x0], -- PLT_SIG1
  rows 0x020 1 0x4 [fld 23 16 .rwl 0xE, fld 11 0 .rwl 0x266], -- PLT_NEG
  rows 0x024 1 0x4 [fld 27 0 .rwl 0x4012344], -- PLT_MAP
  rows 0x028 1 0x4 [fld 31 20 .ro 0x0, fld 19 8 .ro 0x0, fld 7 5 .ro 0x0, fld 4 2 .ro 0x0, fld 1 1 .ro 0x0], -- PLT_STATUS
  rows 0x030 1 0x4 [rng 31 24 .rwl 0x14 1 255, rng 23 16 .rwl 0x14 1 255, rng 15 8 .rwl 0x3C 1 255, rng 7 0 .rwl 0x37 1 255], -- OUT_TMR0
  rows 0x034 1 0x4 [rng 31 24 .rwl 0x32 1 255, rng 23 16 .rwl 0x1E 1 255, rng 15 8 .rwl 0x64 1 255, rng 7 0 .rwl 0x32 1 255], -- OUT_TMR1
  rows 0x038 1 0x4 [rng 31 24 .rwl 0x32 1 255, rng 23 16 .rwl 0xA 1 255, fld 15 8 .rwl 0xA], -- OUT_TMR2
  rows 0x040 1 0x4 [fld 31 24 .ro 0x0, fld 23 16 .ro 0x0, fld 15 12 .ro 0x0, fld 11 8 .ro 0x0, fld 7 7 .ro 0x0, fld 6 6 .ro 0x0, fld 5 5 .ro 0x0, fld 4 4 .ro 0x0, fld 3 0 .ro 0x0], -- OUT_STATE
  rows 0x044 1 0x4 [fld 12 0 .ro 0x0], -- OUT_FAULT_MASK
  rows 0x048 1 0x4 [fld 31 16 .ro 0x0, fld 15 0 .ro 0x0], -- OUT_LIMIT
  rows 0x060 8 0x4 [fld 31 0 .rwl 0x0]] -- OUT_EVSEID0 to OUT_EVSEID7

/-- Block 0x22, instances 0x000 to 0x001 (R456). -/
def regsCooling : List RegRow := [
  rows 0x000 1 0x4 [fld 31 16 .rwl 0x0, rng 15 8 .rwl 0x64 1 255, fld 7 0 .rwl 0x0], -- COOL_CFG
  rows 0x004 1 0x4 [fld 15 8 .rwl 0x5, rng 7 0 .rwl 0x19 1 50], -- COOL_PWM
  rows 0x010 8 0x4 [fld 31 16 .rwl 0x0, fld 15 0 .rwl 0x0], -- DER_k
  rows 0x040 1 0x4 [fld 31 16 .ro 0x0, fld 7 5 .ro 0x0, fld 4 4 .ro 0x0, fld 3 3 .ro 0x0, fld 2 2 .ro 0x0], -- COOL_STATUS
  rows 0x044 1 0x4 [fld 31 16 .ro 0x0, fld 15 0 .ro 0x0], -- COOL_TACH0
  rows 0x048 1 0x4 [fld 15 0 .ro 0x0]] -- COOL_TACH1

/-- Block 0x21, instances 0x000 to 0x000 (R456). -/
def regsReader : List RegRow := [
  rows 0x000 1 0x4 [rng 31 24 .rwl 0x78 2 200, rng 23 16 .rwl 0xC8 2 200, rng 15 12 .rwl 0x3 0 8, rng 7 0 .rwl 0xA 5 50], -- RD_CFG
  rows 0x004 3 0x4 [fld 31 31 .rwl 0x0, rng 26 24 .rwl 0x0 0 6], -- RD_PORTp
  rows 0x010 1 0x4 [fld 10 8 .ro 0x0, fld 7 6 .w1c 0x0, fld 5 4 .ro 0x0, fld 1 0 .ro 0x0], -- RD_STATUS
  rows 0x014 1 0x4 [fld 31 16 .rw 0x0, fld 15 0 .rw 0x0], -- RD_CNT0
  rows 0x018 1 0x4 [fld 31 16 .rw 0x0, fld 15 0 .rw 0x0], -- RD_CNT1
  rows 0x01C 1 0x4 [fld 15 8 .ro 0x0, fld 7 0 .ro 0x0], -- RD_QFP
  rows 0x100 14 0x4 [fld 31 0 .ro 0x0], -- TAG_ID
  rows 0x140 6 0x4 [fld 31 16 .ro 0x0, fld 15 8 .ro 0xFF, fld 7 0 .ro 0x0], -- TAG_T
  rows 0x180 14 0x4 [fld 31 0 .ro 0x0], -- TAG_ID
  rows 0x1C0 6 0x4 [fld 31 16 .ro 0x0, fld 15 8 .ro 0xFF, fld 7 0 .ro 0x0], -- TAG_T
  rows 0x200 1 0x4 [fld 31 24 .ro 0x0, fld 23 8 .ro 0x0, fld 7 0 .ro 0x0], -- CARD_INFO
  rows 0x204 3 0x4 [fld 31 0 .ro 0x0]] -- CARD_UID0 to CARD_UID2

/-- Block 0x30, instances 0x000 to 0x00B (R456). -/
def regsMch : List RegRow := [
  rows 0x000 1 0x4 [fld 31 31 .ro 0x0, fld 30 29 .live 0x0, fld 28 28 .live 0x0, rng 27 24 .live 0xD 0 13, fld 23 19 .live 0x17, fld 18 14 .live 0x0, fld 13 9 .live 0x0, rng 8 0 .live 0x0 0 383], -- MCH_CFG
  rows 0x004 1 0x4 [rng 31 20 .live 0x0 0 2303, rng 8 0 .live 0x1 1 384], -- MCH_FIR
  rows 0x008 1 0x4 [fld 31 0 .live 0x1496B], -- MCH_HP
  rows 0x00C 1 0x4 [fld 31 0 .live 0x0], -- MCH_RG
  rows 0x010 1 0x4 [rng 4 0 .live 0x10 12 24], -- MCH_RG2
  rows 0x014 1 0x4 [fld 31 0 .live 0x40000000], -- MCH_CAL_GAIN
  rows 0x018 1 0x4 [fld 31 0 .live 0x40000000], -- MCH_CAL_GAIN16
  rows 0x01C 1 0x4 [fld 31 0 .live 0x0], -- MCH_CAL_OFS
  rows 0x020 1 0x4 [fld 31 0 .live 0x0], -- MCH_CAL_OFS16
  rows 0x024 1 0x4 [fld 13 10 .live 0x0, fld 9 0 .live 0x0], -- MCH_CAL_PH
  rows 0x02C 1 0x4 [fld 31 16 .live 0x0, fld 15 0 .live 0x0], -- MCH_SHUNT
  rows 0x030 1 0x4 [fld 31 16 .live 0x7D0, fld 15 0 .live 0x9C4], -- MCH_SHUNT2
  rows 0x040 1 0x4 [fld 31 31 .ro 0x0, fld 30 30 .ro 0x0, fld 29 29 .ro 0x0, fld 28 28 .ro 0x0, fld 27 27 .ro 0x0], -- MCH_STATUS
  rows 0x044 1 0x4 [fld 31 0 .ro 0x0], -- MCH_VALUE
  rows 0x048 1 0x4 [fld 31 0 .ro 0x0], -- MCH_RMS
  rows 0x04C 1 0x4 [fld 31 0 .ro 0x0], -- MCH_PEAK
  rows 0x050 1 0x4 [fld 31 0 .ro 0x0], -- MCH_ENV
  rows 0x054 1 0x4 [fld 31 16 .rw 0x0, fld 15 0 .rw 0x0]] -- MCH_CNT

/-- Block 0x30, instances 0x100 to 0x113 (R456). -/
def regsMod : List RegRow := [
  rows 0x000 1 0x4 [fld 31 29 .ro 0x0, fld 28 24 .ro 0x1F, fld 15 0 .ro 0x0], -- MOD_STATUS
  rows 0x004 1 0x4 [fld 31 0 .ro 0x40000000], -- MOD_TRIM_GAIN
  rows 0x008 1 0x4 [fld 31 0 .ro 0x0], -- MOD_TRIM_OFS
  rows 0x00C 1 0x4 [fld 31 0 .ro 0x0], -- MOD_CAL_TIME_LO
  rows 0x010 1 0x4 [fld 31 0 .ro 0x0]] -- MOD_CAL_TIME_HI

/-- Block 0x30, instances 0x200 to 0x203 (R456). -/
def regsRtd : List RegRow := [
  rows 0x000 1 0x4 [fld 31 31 .live 0x0, fld 30 30 .live 0x0], -- RTD_CFG
  rows 0x004 1 0x4 [fld 31 16 .ro 0x0, fld 2 0 .ro 0x0]] -- RTD_VAL

/-- Block 0x30, instances 0x300 to 0x300 (R456). -/
def regsMetGlobal : List RegRow := [
  rows 0x000 1 0x4 [rng 5 0 .live 0x38 40 60], -- MET_CFG
  rows 0x004 1 0x4 [fld 8 8 .ro 0x0, fld 0 0 .ro 0x0], -- LEGAL_MODE
  rows 0x008 1 0x4 [fld 0 0 .wo 0x0], -- METRO_COMMIT
  rows 0x00C 1 0x4 [fld 31 16 .ro 0x0], -- METRO_STATE
  rows 0x020 8 0x4 [fld 31 0 .ro 0x0], -- LEGAL_DIGEST0 to LEGAL_DIGEST7
  rows 0x040 1 0x4 [fld 31 16 .ro 0x0, fld 0 0 .ro 0x0], -- REF_STATUS
  rows 0x044 1 0x4 [fld 17 17 .ro 0x0, fld 16 16 .ro 0x0, fld 15 8 .ro 0x0, fld 7 0 .ro 0x7], -- ROT_STATUS
  rows 0x048 1 0x4 [rng 15 8 .live 0x0 0 40, rng 7 0 .live 0x18 24 64]] -- LWIN_CFG

/-- Block 0x30, instances 0x500 to 0x501 (R456). -/
def regsEnergy : List RegRow := [
  rows 0x000 1 0x4 [fld 31 30 .live 0x3, fld 29 29 .live 0x0, rng 23 16 .live 0xA 2 80], -- ENG_PULSE
  rows 0x004 1 0x4 [rng 16 0 .live 0x3E8 1 100000], -- ENG_PULSE_K
  rows 0x008 1 0x4 [fld 31 0 .live 0x0], -- ENG_SCALE_V
  rows 0x00C 1 0x4 [fld 31 0 .live 0x0], -- ENG_SCALE_I
  rows 0x010 1 0x4 [fld 31 0 .live 0x0], -- CABLE_RES
  rows 0x014 1 0x4 [fld 31 16 .live 0xF5A, fld 15 0 .live 0x7D0], -- CABLE_TEMP
  rows 0x018 1 0x4 [fld 31 0 .live 0x0], -- CABLE_SERIAL_LO
  rows 0x01C 1 0x4 [fld 31 0 .live 0x0], -- CABLE_SERIAL_HI
  rows 0x020 1 0x4 [fld 31 0 .ro 0x0], -- ENG_IMP_LO
  rows 0x024 1 0x4 [fld 31 0 .ro 0x0], -- ENG_IMP_HI
  rows 0x028 1 0x4 [fld 31 0 .ro 0x0], -- ENG_EXP_LO
  rows 0x02C 1 0x4 [fld 31 0 .ro 0x0], -- ENG_EXP_HI
  rows 0x030 1 0x4 [fld 31 0 .ro 0x0], -- ENG_LOSS_LO
  rows 0x034 1 0x4 [fld 31 0 .ro 0x0], -- ENG_LOSS_HI
  rows 0x040 1 0x4 [fld 31 0 .ro 0x0], -- P_NOW
  rows 0x044 1 0x4 [fld 31 31 .ro 0x0, fld 30 30 .ro 0x0, fld 29 29 .ro 0x0, fld 28 28 .ro 0x0, fld 15 0 .ro 0x0], -- ENG_STATUS
  rows 0x048 1 0x4 [fld 31 0 .ro 0x0], -- ENG_SEQ
  rows 0x04C 1 0x4 [fld 31 16 .rw 0x0]] -- ENG_CNT

/-- Block 0x30, instances 0x600 to 0x600 (R456). -/
def regsEvents : List RegRow := [
  rows 0x000 1 0x4 [fld 31 16 .live 0x8FC, fld 0 0 .live 0x0], -- EVT_CFG
  rows 0x004 1 0x4 [fld 31 0 .ro 0x0], -- EVT_TOTAL
  rows 0x008 1 0x4 [fld 9 0 .rw 0x0], -- EVT_SEL
  rows 0x00C 1 0x4 [fld 31 16 .rw 0x0], -- EVT_CNT
  rows 0x010 8 0x4 [fld 31 0 .ro 0x0], -- EVT_REC0 to EVT_REC7
  rows 0x030 1 0x4 [fld 2 0 .ro 0x0]] -- EVT_OPEN

/-- Block 0x30, instances 0x700 to 0x700 (R456). -/
def regsBilling : List RegRow := [
  rows 0x000 1 0x4 [fld 31 0 .ro 0x0], -- CHR_TIME_LO
  rows 0x004 1 0x4 [fld 31 0 .ro 0x0], -- CHR_TIME_HI
  rows 0x008 1 0x4 [fld 31 28 .ro 0x0, fld 27 27 .ro 0x0, fld 26 26 .ro 0x0, fld 25 25 .ro 0x0, fld 23 0 .ro 0xFFFFFF], -- CHR_STATUS
  rows 0x00C 1 0x4 [rng 7 4 .live 0x1 1 8], -- BILL_LIMITS
  rows 0x010 1 0x4 [rng 5 0 .live 0xA 1 60], -- CHR_LIMIT
  rows 0x014 1 0x4 [fld 31 31 .live 0x0, fld 30 24 .live 0xF, rng 23 20 .live 0x1 1 15], -- DEM_CFG
  rows 0x018 1 0x4 [rng 31 30 .live 0x1 0 2, rng 29 24 .live 0x1 1 28, rng 10 0 .live 0x0 0 1439], -- BILL_CFG
  rows 0x01C 1 0x4 [rng 7 0 .live 0x5 2 30], -- LEGAL_DISP
  rows 0x020 1 0x4 [fld 31 28 .ro 0x1, fld 0 0 .ro 0x0], -- ACT_TARIFF
  rows 0x024 1 0x4 [fld 31 0 .ro 0x0], -- LEGAL_CNT
  rows 0x028 1 0x4 [fld 31 0 .ro 0x0], -- LEGAL_FAULT_CNT
  rows 0x02C 1 0x4 [fld 31 0 .ro 0x0], -- LEGAL_SEQ
  rows 0x040 8 0x4 [fld 31 0 .ro 0x0], -- CAL_DIGEST0 to CAL_DIGEST7
  rows 0x060 1 0x4 [fld 31 0 .ro 0x0], -- CAL_ACT_LO
  rows 0x064 1 0x4 [fld 31 0 .ro 0x0], -- CAL_ACT_HI
  rows 0x070 1 0x4 [fld 31 0 .ro 0x0], -- FW_VERSION
  rows 0x080 8 0x4 [fld 31 0 .ro 0x0], -- FW_DIGEST0 to FW_DIGEST7
  rows 0x0A0 1 0x4 [rng 8 0 .rw 0x0 0 23], -- SNAP_SEL
  rows 0x0A4 1 0x4 [rng 8 0 .rw 0x0 0 255], -- SREC_SEL
  rows 0x0A8 1 0x4 [fld 8 0 .rw 0x0], -- LEVT_SEL
  rows 0x400 128 0x4 [fld 31 0 .ro 0x0], -- SNAP_WORD
  rows 0x600 64 0x4 [fld 31 0 .ro 0x0], -- SREC_WORD
  rows 0x700 8 0x4 [fld 31 0 .ro 0x0]] -- LEVT_WORD

/-- Block 0x30, instances 0x800 to 0x801 (R456). -/
def regsOutBilling : List RegRow := [
  rows 0x000 32 0x4 [fld 31 0 .ro 0x0], -- TARn_IMP, TARn_EXP
  rows 0x080 1 0x4 [fld 31 0 .ro 0x0], -- MD_IMP
  rows 0x084 1 0x4 [fld 31 0 .ro 0x0], -- MD_IMP_END_LO
  rows 0x088 1 0x4 [fld 31 0 .ro 0x0], -- MD_IMP_END_HI
  rows 0x08C 1 0x4 [fld 31 0 .ro 0x0], -- MD_EXP
  rows 0x090 1 0x4 [fld 31 0 .ro 0x0], -- MD_EXP_END_LO
  rows 0x094 1 0x4 [fld 31 0 .ro 0x0], -- MD_EXP_END_HI
  rows 0x098 1 0x4 [fld 6 4 .ro 0x0, fld 2 0 .ro 0x0], -- MD_FLAGS
  rows 0x0A0 1 0x4 [fld 31 0 .ro 0x0], -- DEM_LAST_IMP
  rows 0x0A4 1 0x4 [fld 31 0 .ro 0x0], -- DEM_LAST_EXP
  rows 0x0A8 1 0x4 [fld 31 0 .ro 0x0], -- DEM_LAST_END_LO
  rows 0x0AC 1 0x4 [fld 31 0 .ro 0x0]] -- DEM_LAST_END_HI

/-- Block 0x90, instances 0x000 to 0x000 (R456). -/
def regsCommercial : List RegRow := [
  rows 0x000 1 0x4 [fld 31 31 .rwl 0x0], -- COM_CFG
  rows 0x010 8 0x4 [fld 31 0 .live 0x0], -- COM_PRICE
  rows 0x030 1 0x4 [fld 31 0 .live 0x0], -- COM_EXP_PRICE
  rows 0x034 1 0x4 [fld 31 0 .live 0x0], -- COM_START_FEE
  rows 0x038 1 0x4 [fld 31 0 .live 0x0], -- COM_START_MIN
  rows 0x040 16 0x4 [fld 31 31 .rwl 0x0, fld 30 24 .rwl 0x0, fld 21 11 .rwl 0x0, fld 10 0 .rwl 0x0], -- FH_k
  rows 0x080 32 0x4 [fld 31 31 .rwl 0x0, fld 30 30 .rwl 0x0, fld 15 0 .rwl 0x0], -- HOL_k
  rows 0x100 1 0x4 [fld 31 0 .ro 0x0], -- WX_END_LO
  rows 0x104 1 0x4 [fld 31 0 .ro 0x0], -- WX_END_HI
  rows 0x108 1 0x4 [fld 1 1 .ro 0x0, fld 0 0 .ro 0x0]] -- COM_STATUS

/-- Block 0x90, account words of every instance (R456). -/
def regsAccount : List RegRow := [
  rows 0x800 1 0x4 [fld 31 0 .live 0x0], -- ACC_CREDIT_LO
  rows 0x804 1 0x4 [fld 31 0 .live 0x0], -- ACC_CREDIT_HI
  rows 0x808 1 0x4 [fld 31 0 .live 0x0], -- ACC_EMERG
  rows 0x80C 1 0x4 [fld 31 30 .live 0x0, fld 29 29 .live 0x0, fld 28 28 .ro 0x0, fld 27 27 .ro 0x0]] -- ACC_CFG

/-- Block 0x80, instances 0x000 to 0x000 (R456). -/
def regsDisplay : List RegRow := [
  rows 0x000 1 0x4 [rng 31 24 .rwl 0x3C 30 120, fld 23 16 .rwl 0x1E, rng 15 8 .rwl 0x10 4 64, fld 7 6 .rwl 0x2, fld 5 0 .rwl 0x1F], -- DISP_CFG
  rows 0x004 1 0x4 [fld 21 11 .rwl 0x1E0, fld 10 0 .rwl 0x1E0], -- GOA_CFG
  rows 0x008 1 0x4 [fld 10 0 .rwl 0x60], -- SRC_CFG
  rows 0x00C 1 0x4 [rng 15 6 .rwl 0x1F4 0 1000, rng 5 0 .rwl 0x14 1 50], -- FL_CFG
  rows 0x010 1 0x4 [fld 15 0 .rwl 0xFF38], -- BAND_T_1
  rows 0x014 1 0x4 [fld 15 0 .rwl 0xFFCE], -- BAND_T_2
  rows 0x018 1 0x4 [fld 15 0 .rwl 0x32], -- BAND_T_3
  rows 0x01C 1 0x4 [fld 15 0 .rwl 0xC8], -- BAND_T_4
  rows 0x020 1 0x4 [fld 15 0 .rwl 0x190], -- BAND_T_5
  rows 0x024 1 0x4 [fld 7 0 .rwl 0x14], -- BAND_HYST
  rows 0x040 6 0x4 [fld 19 15 .rwl 0x1C, fld 14 10 .rwl 0x12, fld 9 5 .rwl 0xA, fld 4 0 .rwl 0x0], -- BAND_LVL_b
  rows 0x080 1 0x4 [fld 31 28 .ro 0x0, fld 27 25 .ro 0x0, fld 24 24 .ro 0x0, fld 23 16 .ro 0x0, fld 15 11 .ro 0x0, fld 10 10 .ro 0x0, fld 9 9 .ro 0x0, fld 5 5 .ro 0x0, fld 4 4 .ro 0x0, fld 3 3 .ro 0x0, fld 2 2 .ro 0x0, fld 1 1 .ro 0x0, fld 0 0 .ro 0x0], -- DISP_STATUS
  rows 0x084 1 0x4 [fld 15 0 .ro 0x0], -- PNL_TEMP
  rows 0x088 1 0x4 [fld 31 0 .ro 0x0], -- CRC_EXP
  rows 0x08C 1 0x4 [fld 31 0 .ro 0x0], -- CRC_MEM
  rows 0x090 1 0x4 [fld 31 0 .ro 0x0], -- CRC_SHIFT
  rows 0x094 1 0x4 [fld 15 0 .ro 0x0], -- CRACK_RES
  rows 0x098 1 0x4 [fld 31 16 .rwl 0x3E8, fld 15 0 .rwl 0xA], -- CRACK_LIM
  rows 0x09C 1 0x4 [fld 15 8 .ro 0x0, fld 7 0 .ro 0x0], -- LWIN_MIRROR
  rows 0x0A0 1 0x4 [fld 31 16 .rw 0x0, fld 15 0 .rw 0x0], -- DISP_CNT0
  rows 0x0A4 1 0x4 [fld 31 16 .rw 0x0], -- DISP_CNT1
  rows 0x400 96 0x4 [fld 21 20 .rwl 0x0, fld 19 15 .rwl 0x0, fld 14 10 .rwl 0x0, fld 9 5 .rwl 0x0, fld 4 0 .rwl 0x0]] -- OD_b_t

/-- Block 0x40, instances 0x000 to 0x000 (R456). -/
def regsLookout : List RegRow := [
  rows 0x000 1 0x4 [fld 31 28 .ro 0x0, fld 27 27 .ro 0x0, fld 26 26 .ro 0x0, fld 25 25 .ro 0x0, fld 24 24 .ro 0x0, fld 23 23 .ro 0x0, fld 22 22 .ro 0x0, fld 19 10 .ro 0x0, fld 9 0 .ro 0x0], -- LK_STATUS
  rows 0x004 1 0x4 [fld 31 0 .ro 0x0], -- LK_CHECK_A
  rows 0x008 1 0x4 [fld 31 0 .ro 0x0], -- LK_CHECK_B
  rows 0x00C 1 0x4 [fld 31 0 .ro 0x0], -- LK_CONF
  rows 0x010 1 0x4 [fld 31 0 .ro 0x0], -- LK_CONF_SERIAL
  rows 0x014 1 0x4 [fld 31 0 .ro 0x0], -- LK_CONF_TIME_LO
  rows 0x018 1 0x4 [fld 31 0 .ro 0x0], -- LK_CONF_TIME_HI
  rows 0x020 1 0x4 [fld 31 31 .rwl 0x1, fld 30 30 .rwl 0x0, fld 29 29 .rwl 0x0, fld 28 25 .rwl 0x0, rng 24 15 .rwl 0x64 10 1000, rng 14 7 .rwl 0x14 10 100], -- LK_CFG
  rows 0x024 1 0x4 [fld 31 16 .rwl 0x0, fld 15 0 .rwl 0x0], -- LK_MASK
  rows 0x028 1 0x4 [rng 31 24 .rwl 0x5 1 50, rng 23 16 .rwl 0x1 1 168, fld 15 0 .rwl 0x50], -- SND_CFG
  rows 0x02C 1 0x4 [fld 31 16 .ro 0x0, fld 15 0 .ro 0x0]] -- LK_CNT

/-- Block 0x40, instances 0x010 to 0x01F (R456). -/
def regsSi : List RegRow := [
  rows 0x000 1 0x4 [fld 31 30 .rwl 0x0, fld 29 29 .rwl 0x0, fld 28 27 .rwl 0x0, rng 24 16 .rwl 0x64 10 500, rng 15 12 .rwl 0x4 1 12, rng 11 4 .rwl 0x0 0 100], -- SI_CFG
  rows 0x004 1 0x4 [fld 31 31 .ro 0x0, fld 30 30 .ro 0x0, fld 29 28 .ro 0x0, fld 15 8 .ro 0x0, fld 7 0 .ro 0x0]] -- SI_STATUS

/-- Block 0x40, instances 0x020 to 0x027 (R456). -/
def regsSo : List RegRow := [
  rows 0x000 1 0x4 [fld 31 29 .rwl 0x0, fld 28 28 .rwl 0x0, rng 27 20 .rwl 0x32 10 200, rng 19 12 .rwl 0x14 5 40], -- SO_CFG
  rows 0x004 1 0x4 [fld 31 31 .ro 0x0, fld 30 30 .ro 0x0, fld 29 29 .ro 0x0, fld 28 28 .ro 0x0, fld 27 27 .ro 0x0, fld 26 24 .ro 0x0], -- SO_STATUS
  rows 0x008 1 0x4 [fld 31 0 .ro 0x0]] -- SO_OPS

/-- Block 0x40, instances 0x030 to 0x031 (R456). -/
def regsLkOutlet : List RegRow := [
  rows 0x000 1 0x4 [fld 31 28 .rwl 0x0, fld 27 24 .rwl 0x0, fld 23 20 .rwl 0x0, fld 19 17 .rwl 0x0, fld 16 14 .rwl 0x0, fld 13 13 .rwl 0x0, fld 12 12 .rwl 0x0, fld 11 11 .rwl 0x0], -- LKO_CFG
  rows 0x004 1 0x4 [fld 31 31 .ro 0x0, fld 30 30 .ro 0x0, fld 29 29 .ro 0x0, fld 28 28 .ro 0x0, fld 27 27 .ro 0x0, fld 23 16 .ro 0x0, fld 15 0 .ro 0x0], -- LKO_STATUS
  rows 0x008 1 0x4 [fld 31 16 .rwl 0x1F4, fld 15 0 .rwl 0x64], -- SND_LIM
  rows 0x00C 1 0x4 [fld 31 16 .rwl 0xC8, fld 15 0 .rwl 0xABE], -- SND_SCALE
  rows 0x010 1 0x4 [fld 31 16 .rwl 0x12C], -- SND_TEST
  rows 0x014 1 0x4 [fld 31 0 .ro 0xFFFFFFFF], -- SND_MEAS
  rows 0x018 1 0x4 [fld 31 29 .ro 0x0, fld 28 28 .ro 0x0, fld 27 27 .ro 0x0, fld 15 0 .ro 0x0]] -- SND_STATUS

/-- Block 0x50, instances 0x000 to 0x000 (R456). -/
def regsTurxel : List RegRow := [
  rows 0x000 1 0x4 [fld 31 16 .rwl 0x88B5, fld 15 15 .rwl 0x0, fld 11 0 .rwl 0x0], -- TXL_CFG
  rows 0x004 1 0x4 [fld 31 16 .rwl 0x0, rng 9 0 .rwl 0x0 1 1023], -- TXL_NODE
  rows 0x008 1 0x4 [fld 25 16 .rwl 0x0, fld 8 8 .rwl 0x0, fld 6 0 .rwl 0x0], -- TXL_HOST
  rows 0x00C 1 0x4 [rng 9 0 .rwl 0x64 1 900], -- TXL_BULK
  rows 0x010 1 0x4 [fld 31 16 .rwl 0x12C0, rng 7 2 .rwl 0x18 1 30, fld 1 1 .rwl 0x0, fld 0 0 .rwl 0x1], -- TXL_IP
  rows 0x014 1 0x4 [fld 31 0 .rwl 0x0], -- TXL_IP4
  rows 0x020 4 0x4 [fld 31 0 .rwl 0x0], -- TXL_IP6_0 to TXL_IP6_3
  rows 0x040 1 0x4 [fld 31 31 .rwl 0x1, fld 30 30 .rwl 0x0, fld 29 29 .rwl 0x0, fld 23 16 .rwl 0x0], -- TXL_PTP
  rows 0x044 1 0x4 [fld 31 31 .ro 0x0, fld 30 30 .ro 0x0], -- TXL_PTP_STATUS
  rows 0x048 1 0x4 [fld 31 0 .ro 0x0], -- TXL_PTP_OFS
  rows 0x04C 1 0x4 [fld 31 31 .ro 0x0]] -- TXL_STATUS

/-- Block 0x50, instances 0x001 to 0x002 (R456). -/
def regsPort : List RegRow := [
  rows 0x000 1 0x4 [fld 31 31 .rwl 0x1, fld 30 30 .rwl 0x1, fld 29 29 .rwl 0x1, fld 4 0 .rwl 0x0], -- PORT_CFG
  rows 0x004 1 0x4 [fld 31 31 .ro 0x0, fld 30 30 .ro 0x0, fld 29 29 .ro 0x0, fld 28 28 .w1c 0x0], -- PORT_STATUS
  rows 0x008 1 0x4 [fld 31 0 .ro 0x0], -- PORT_MAC_HI
  rows 0x00C 1 0x4 [fld 31 0 .ro 0x0], -- PORT_MAC_LO
  rows 0x010 1 0x4 [fld 31 16 .rw 0x0, fld 15 0 .rw 0x0], -- PORT_CNT0
  rows 0x014 1 0x4 [fld 31 16 .rw 0x0, fld 15 0 .rw 0x0]] -- PORT_CNT1

/-- Block 0x40, instances 0x040 to 0x040 (R456). -/
def regsSafe : List RegRow := [
  rows 0x000 1 0x4 [fld 31 30 .rwl 0x0, rng 23 16 .rwl 0x8 1 72, rng 15 0 .rwl 0x0 1 65534], -- SAFE_CFG
  rows 0x004 1 0x4 [fld 31 0 .rwl 0x0], -- SAFE_SITE
  rows 0x010 16 0x4 [fld 31 31 .rwl 0x0, fld 30 30 .rwl 0x0, fld 27 24 .rwl 0x0, fld 15 0 .rwl 0x0], -- SAFE_PEERk
  rows 0x050 1 0x4 [fld 31 16 .ro 0x0, fld 2 2 .ro 0x0, fld 1 1 .ro 0x0, fld 0 0 .ro 0x0], -- SAFE_STATUS
  rows 0x054 1 0x4 [fld 31 16 .ro 0x0, fld 15 0 .ro 0x0], -- SAFE_CNT0
  rows 0x058 1 0x4 [fld 31 16 .ro 0x0, fld 15 0 .ro 0x0]] -- SAFE_CNT1

/-- Block 0x51, instances 0x000 to 0x000 (R456). -/
def regsLogLine : List RegRow := [
  rows 0x000 1 0x4 [fld 31 31 .rwl 0x0, fld 30 29 .rwl 0x0, fld 28 16 .rwl 0x0, fld 15 10 .rwl 0x0, rng 9 6 .rwl 0x5 3 15, fld 5 0 .rwl 0x2], -- LL_CFG
  rows 0x004 1 0x4 [fld 31 24 .rwl 0x73, fld 23 16 .rwl 0x6E, fld 15 8 .rwl 0x69, fld 7 0 .rwl 0x64], -- LL_TONES
  rows 0x008 1 0x4 [rng 31 24 .rwl 0x3C 10 255, rng 23 20 .rwl 0x3 1 15, fld 7 0 .rwl 0x1A], -- LL_MAPCFG
  rows 0x010 1 0x4 [fld 31 30 .ro 0x0, fld 29 29 .ro 0x0, fld 28 28 .ro 0x0, fld 27 27 .ro 0x0, fld 21 16 .ro 0x0, fld 15 0 .ro 0x0], -- LL_STATUS
  rows 0x014 1 0x4 [fld 23 0 .ro 0x0], -- LL_BMAP
  rows 0x018 1 0x4 [fld 31 16 .rw 0x0, fld 15 0 .rw 0x0], -- LL_CNT0
  rows 0x01C 1 0x4 [fld 31 16 .rw 0x0, fld 15 0 .rw 0x0], -- LL_CNT1
  rows 0x020 1 0x4 [fld 15 0 .ro 0x0], -- LL_BLANK
  rows 0x024 1 0x4 [fld 31 16 .ro 0xFFFF, fld 15 0 .rw 0x0], -- LL_BEACON
  rows 0x100 32 0x4 [fld 31 30 .ro 0x0, fld 29 24 .ro 0x0, fld 23 18 .ro 0x0, fld 17 12 .ro 0x0, fld 7 0 .ro 0x0], -- LL_ROUTEk
  rows 0x200 34 0x4 [fld 31 24 .ro 0xFF, fld 23 0 .ro 0x0]] -- LL_RXMAPa

/-- Block 0x60, instances 0x000 to 0x000 (R456). -/
def regsManager : List RegRow := [
  rows 0x000 1 0x4 [fld 31 0 .rwl 0x0], -- MGR_GRID
  rows 0x004 1 0x4 [fld 31 0 .live 0x0], -- MGR_SITE
  rows 0x008 1 0x4 [fld 31 0 .rwl 0x0], -- MGR_RESERVE
  rows 0x00C 1 0x4 [fld 31 31 .rwl 0x1, rng 30 16 .rwl 0x1F4 1 32767, rng 5 0 .rwl 0x0 0 32], -- MGR_CFG
  rows 0x010 1 0x4 [fld 31 28 .ro 0x0, fld 27 27 .ro 0x0, fld 26 26 .ro 0x0, fld 25 25 .ro 0x0], -- MGR_STATE
  rows 0x014 1 0x4 [fld 31 0 .ro 0x0], -- MGR_EPOCH
  rows 0x018 1 0x4 [fld 31 0 .ro 0x0], -- MGR_CYCLE
  rows 0x01C 1 0x4 [fld 31 0 .ro 0x0], -- MGR_HEALTH
  rows 0x020 1 0x4 [fld 31 0 .ro 0x0], -- MGR_HEALTH_PEER
  rows 0x024 1 0x4 [fld 31 0 .rwl 0xA07], -- MGR_RED_MASK
  rows 0x028 1 0x4 [fld 31 16 .rw 0x0, fld 15 0 .rw 0x0], -- MGR_CNT0
  rows 0x02C 1 0x4 [fld 31 16 .rw 0x0, fld 15 0 .rw 0x0], -- MGR_CNT1
  rows 0x040 1 0x4 [fld 31 0 .rwl 0x0], -- WRK_SAFE
  rows 0x044 1 0x4 [fld 31 30 .ro 0x0, fld 9 0 .ro 0x0], -- WRK_STATE
  rows 0x048 1 0x4 [fld 31 0 .ro 0x0], -- WRK_ALLOC
  rows 0x04C 1 0x4 [fld 31 0 .ro 0x0], -- WRK_EPOCH
  rows 0x050 1 0x4 [fld 0 0 .ro 0x0], -- WRK_RANK
  rows 0x054 1 0x4 [fld 31 0 .rwl 0x0]] -- WRK_FRONT

/-- Block 0x60, instances 0x001 to 0x020 (R456). -/
def regsSiteEntry : List RegRow := [
  rows 0x000 1 0x4 [fld 31 31 .rwl 0x0, fld 30 29 .live 0x0, fld 28 24 .rwl 0x0, rng 23 19 .rwl 0x0 0 24, fld 9 0 .rwl 0x0], -- SM_NODE
  rows 0x004 1 0x4 [fld 31 0 .rwl 0x0], -- SM_CAP
  rows 0x008 1 0x4 [fld 31 0 .ro 0x0], -- SM_DEMAND
  rows 0x00C 1 0x4 [fld 31 0 .ro 0x0], -- SM_ALLOC
  rows 0x010 1 0x4 [fld 31 16 .ro 0xFFFF, fld 15 0 .ro 0x0], -- SM_STATUS
  rows 0x014 1 0x4 [fld 31 0 .rwl 0x0]] -- SM_SAFE

/-- Block 0x01, instances 0x000 to 0x000 (R456). -/
def regsSystem : List RegRow := [
  rows 0x000 1 0x4 [fld 31 0 .ro 0x0], -- SYS_SERIAL0
  rows 0x004 1 0x4 [fld 31 0 .ro 0x0], -- SYS_SERIAL1
  rows 0x008 1 0x4 [fld 31 24 .ro 0x0, fld 23 22 .ro 0x0, fld 21 21 .ro 0x0, fld 15 0 .ro 0x1], -- SYS_INFO
  rows 0x00C 1 0x4 [], -- SYS_RSVD
  rows 0x010 1 0x4 [fld 28 24 .ro 0x0, fld 23 20 .ro 0x0, fld 19 16 .ro 0x0, fld 15 9 .ro 0x0, fld 7 0 .ro 0x0], -- LANDFALL_STATUS
  rows 0x100 1 0x4 [rng 31 16 .rwl 0x12C 10 3600, fld 15 15 .rwl 0x1], -- HOST_CFG
  rows 0x104 1 0x4 [fld 31 28 .ro 0x0, fld 27 27 .ro 0x0, fld 8 0 .ro 0x0], -- HOST_STATUS
  rows 0x110 8 0x4 [fld 31 31 .ro 0x0, fld 30 29 .ro 0x0, fld 28 27 .ro 0x0, fld 22 16 .ro 0x0, fld 15 0 .ro 0x0], -- SESS_k
  rows 0x140 6 0x8 [fld 31 0 .rw 0x0], -- CLS_ACC
  rows 0x144 6 0x8 [fld 31 0 .rw 0x0], -- CLS_REF
  rows 0x170 1 0x4 [fld 31 16 .rw 0x0, fld 15 0 .rw 0x0], -- HOST_CNT0
  rows 0x174 1 0x4 [fld 31 16 .rw 0x0], -- HOST_CNT1
  rows 0x220 5 0x20 [fld 31 31 .ro 0x0, fld 30 29 .ro 0x0, fld 28 28 .ro 0x0, fld 27 27 .ro 0x0], -- FW_STATE
  rows 0x224 5 0x20 [fld 31 0 .ro 0x0], -- FW_RUN_VER
  rows 0x228 5 0x20 [fld 31 0 .ro 0x0], -- FW_ARB
  rows 0x22C 5 0x20 [fld 31 0 .ro 0x0], -- FW_STAGED_VER
  rows 0x300 1 0x4 [fld 31 31 .rwl 0x1, fld 7 4 .rwl 0x0, fld 3 0 .rwl 0x0], -- TAMP_CFG
  rows 0x304 1 0x4 [fld 23 16 .ro 0x0, fld 15 8 .ro 0x0, fld 7 0 .ro 0x0], -- TAMP_STATUS
  rows 0x308 1 0x4 [fld 31 0 .ro 0x0], -- TAMP_TIME_LO
  rows 0x30C 1 0x4 [fld 31 0 .ro 0x0], -- TAMP_TIME_HI
  rows 0x400 1 0x4 [fld 16 0 .rwl 0x0], -- FLT_CFG
  rows 0x404 1 0x4 [fld 31 31 .ro 0x0, fld 30 30 .ro 0x0, fld 29 29 .ro 0x0, fld 23 16 .ro 0x0, fld 15 0 .ro 0x0], -- FLT_STATUS
  rows 0x408 1 0x4 [fld 31 0 .ro 0x0], -- SCRUB_SRAM_LO
  rows 0x40C 1 0x4 [fld 31 0 .ro 0x0], -- SCRUB_SRAM_HI
  rows 0x410 1 0x4 [fld 31 0 .ro 0x0], -- SCRUB_MRAM_LO
  rows 0x414 1 0x4 [fld 31 0 .ro 0x0], -- SCRUB_MRAM_HI
  rows 0x418 1 0x4 [fld 31 16 .rw 0x0, fld 15 0 .rw 0x0], -- FLT_CNT0
  rows 0x41C 1 0x4 [fld 31 16 .rw 0x0, fld 15 0 .rw 0x0], -- FLT_CNT1
  rows 0x500 1 0x4 [rng 31 16 .rwl 0x3C 1 3600, rng 15 0 .rwl 0x3C 10 3600]] -- LOG_CFG

/-- Block 0xF0, instances 0x000 to 0x000 (R456). -/
def regsJournal : List RegRow := [
  rows 0x000 1 0x4 [fld 31 0 .ro 0x0], -- JRN_NEXT
  rows 0x004 1 0x4 [fld 9 0 .ro 0x0], -- JRN_HELD
  rows 0x008 1 0x4 [fld 31 0 .ro 0x0], -- JRN_RECOVERY_LO
  rows 0x00C 1 0x4 [fld 31 0 .ro 0x0]] -- JRN_RECOVERY_HI

/-- Block 0x70, instances 0x000 to 0x07F (R456). -/
def regsSlot : List RegRow := [
  rows 0x000 1 0x4 [fld 31 30 .ro 0x0, fld 29 29 .ro 0x0, fld 23 16 .ro 0x0, fld 15 8 .ro 0x0, fld 7 0 .ro 0x0], -- SLOT_STATE
  rows 0x004 1 0x4 [fld 31 24 .ro 0xFF, fld 23 16 .ro 0x0, fld 15 0 .ro 0x0], -- SLOT_LINK
  rows 0x008 1 0x4 [fld 31 0 .ro 0x0], -- SLOT_ID_HI
  rows 0x00C 1 0x4 [fld 31 0 .ro 0x0], -- SLOT_ID_LO
  rows 0x010 1 0x4 [fld 31 0 .ro 0x0], -- SLOT_USES
  rows 0x014 1 0x4 [fld 31 0 .ro 0x0], -- SLOT_TIME_LO
  rows 0x018 1 0x4 [fld 31 0 .ro 0x0]] -- SLOT_TIME_HI

/-- Block 0x70, instances 0x100 to 0x100 (R456). -/
def regsLocker : List RegRow := [
  rows 0x000 1 0x4 [fld 31 24 .ro 0x0, fld 23 16 .ro 0x0, fld 6 0 .ro 0x0], -- LOCKER_STATUS
  rows 0x004 1 0x4 [fld 31 0 .ro 0x0], -- SCRUB_LAST_LO
  rows 0x008 1 0x4 [fld 31 0 .ro 0x0]] -- SCRUB_LAST_HI

/-- Block 0xA0, instances 0x000 to 0x000 (R456). -/
def regsPower : List RegRow := [
  rows 0x000 1 0x4 [rng 31 29 .rwl 0x0 0 5, rng 15 0 .rwl 0x3C 1 65535], -- PWR_CFG
  rows 0x004 1 0x4 [fld 31 29 .ro 0x0, fld 28 24 .ro 0x0], -- PWR_STATE
  rows 0x008 1 0x4 [fld 3 3 .rwl 0x1, fld 2 2 .rwl 0x1, fld 1 1 .rwl 0x1, fld 0 0 .rwl 0x1], -- WAKE_EN
  rows 0x010 1 0x4 [fld 16 0 .ro 0x0], -- CLK_STATUS
  rows 0x020 1 0x4 [fld 31 16 .ro 0x0, fld 15 0 .ro 0x0], -- DIE_TEMP0
  rows 0x024 1 0x4 [fld 31 16 .ro 0x0, fld 15 0 .ro 0x0], -- DIE_TEMP1
  rows 0x040 9 0x4 [fld 16 16 .ro 0x0, fld 15 0 .ro 0x0]] -- RAIL_r

/-- Block 0xF0, instances 0x001 to 0x001 (R456). -/
def regsLogbook : List RegRow := [
  rows 0x000 1 0x4 [fld 31 31 .ro 0x0, fld 30 30 .ro 0x0, fld 29 29 .ro 0x0, fld 15 0 .ro 0xFFFF], -- LOG_STATUS
  rows 0x004 1 0x4 [fld 31 0 .ro 0x0], -- LOG_NEXT
  rows 0x008 1 0x4 [fld 31 0 .ro 0x0], -- LOG_OLDEST
  rows 0x00C 1 0x4 [fld 31 16 .ro 0x0, fld 15 0 .ro 0x0], -- LOG_BLOCKS
  rows 0x010 1 0x4 [fld 31 0 .ro 0x0]] -- LOG_RATE

/-- Block 0x02, instances 0x000 to 0x000 (R456). -/
def regsChartInfo : List RegRow := [
  rows 0x000 1 0x4 [fld 31 0 .ro 0x0], -- CHART_SERIAL
  rows 0x004 1 0x4 [fld 31 0 .ro 0x0], -- CHART_FORMAT
  rows 0x008 1 0x4 [fld 31 0 .ro 0x0], -- CHART_LENGTH
  rows 0x00C 1 0x4 [fld 31 0 .ro 0x0], -- CHART_BUILD_LO
  rows 0x010 1 0x4 [fld 31 0 .ro 0x0], -- CHART_BUILD_HI
  rows 0x020 8 0x4 [fld 31 0 .ro 0x0], -- CHART_DIGEST
  rows 0x040 1 0x4 [fld 31 0 .ro 0x0], -- LOOKOUT_CHECK
  rows 0x044 1 0x4 [fld 31 0 .ro 0x0]] -- CHART_REJECT

/-- Block 0x30, instances 0x400 to 0x402: FIR taps, 2,304 words in all (R203, R456). -/
def regsTaps (n : Nat) : List RegRow := [rows 0x000 n 0x4 [fld 23 0 .live 0x0]]

/-- Block 0x30, instance 0x502: the scales and accumulators of the AC side (R225, R456) (DEDUCED, log 46). -/
def regsAcEnergy : List RegRow := [
  rows 0x008 1 0x4 [fld 31 0 .live 0x0], -- ENG_SCALE_V
  rows 0x00C 1 0x4 [fld 31 0 .live 0x0], -- ENG_SCALE_I
  rows 0x020 4 0x4 [fld 31 0 .ro 0x0]] -- ENG_IMP_LO to ENG_EXP_HI

/-- The fields of a word of a table, if the table defines a word at that offset (R455). -/
def findWord : List RegRow → Nat → Option (List RegField)
  | [], _ => none
  | r :: rs, off =>
    if r.off ≤ off ∧ (off - r.off) % r.stride = 0 ∧ (off - r.off) / r.stride < r.count then some r.fields
    else findWord rs off

/-- The channel instances of a variant (R5, Table 19-1). -/
def channelCount : Variant → Nat
  | .ma4824 => 24
  | _ => 48

/-- The field table of an instance of a block (Table 19-1); the empty table where the map has none. -/
def regTable (v : Variant) (blk inst : Nat) : List RegRow :=
  match blk with
  | 0x01 => if inst = 0 then regsSystem else []
  | 0x02 => if inst = 0 then regsChartInfo else []
  | 0x10 => if inst = 0 then regsSextant else []
  | 0x11 => if inst < 8 then regsStage else []
  | 0x12 => if inst < 48 then regsCell else []
  | 0x13 => if inst < channelCount v then regsChannel else []
  | 0x14 => if inst < 96 then regsLaw else []
  | 0x15 => if inst < 64 then regsSd else []
  | 0x20 => if inst < 2 then regsOutlet else []
  | 0x21 => if inst = 0 then regsReader else []
  | 0x22 => if inst < 2 then regsCooling else []
  | 0x30 =>
    if inst < 12 then regsMch else if 0x100 ≤ inst ∧ inst < 0x114 then regsMod
    else if 0x200 ≤ inst ∧ inst < 0x204 then regsRtd else if inst = 0x300 then regsMetGlobal
    else if inst = 0x400 ∨ inst = 0x401 then regsTaps 1024 else if inst = 0x402 then regsTaps 256
    else if inst = 0x500 ∨ inst = 0x501 then regsEnergy else if inst = 0x502 then regsAcEnergy
    else if inst = 0x600 then regsEvents else if inst = 0x700 then regsBilling
    else if inst = 0x800 ∨ inst = 0x801 then regsOutBilling else []
  | 0x40 =>
    if inst = 0 then regsLookout else if 0x10 ≤ inst ∧ inst < 0x20 then regsSi
    else if 0x20 ≤ inst ∧ inst < 0x28 then regsSo else if 0x30 ≤ inst ∧ inst < 0x32 then regsLkOutlet
    else if inst = 0x40 then regsSafe else []
  | 0x50 => if inst = 0 then regsTurxel else if inst < 3 then regsPort else []
  | 0x51 => if inst = 0 then regsLogLine else []
  | 0x60 => if inst = 0 then regsManager else if inst ≤ 32 then regsSiteEntry else []
  | 0x70 => if inst < 128 then regsSlot else if inst = 0x100 then regsLocker else []
  | 0x80 => if inst = 0 then regsDisplay else []
  | 0x90 => if inst = 0 then regsCommercial ++ regsAccount else if inst < 0x1000 then regsAccount else []
  | 0xA0 => if inst = 0 then regsPower else []
  | 0xF0 => if inst = 0 then regsJournal else if inst = 1 then regsLogbook else []
  | _ => []

/-- An address of R454 from block, instance and offset. -/
def regAddr (blk inst off : Nat) : Nat := blk * 2 ^ 24 + inst * 2 ^ 12 + off

/-- The block, instance and offset of an address (R454). -/
def addrBlk (a : Nat) : Nat := a / 2 ^ 24
/-- The instance of an address (R454). -/
def addrInst (a : Nat) : Nat := a / 2 ^ 12 % 2 ^ 12
/-- The offset of an address (R454). -/
def addrOff (a : Nat) : Nat := a % 2 ^ 12

/-- The fields of the word at an address; `none` where the address names no register (R455). -/
def wordFields (v : Variant) (a : Nat) : Option (List RegField) :=
  if a < 2 ^ 32 ∧ a % 4 = 0 then findWord (regTable v (addrBlk a) (addrInst a)) (addrOff a) else none

/-- The reset value of the configuration fields of a word: those the chart or a LIVE write sets. -/
def fieldsReset (fs : List RegField) : Nat :=
  fs.foldl (fun a f => if f.acc = .rwl ∨ f.acc = .live then a + f.reset * 2 ^ f.lo else a) 0

/-- The reset value of the configuration part of the word at an address. -/
def resetWord (a : Nat) : Word :=
  BitVec.ofNat 32 (((wordFields .ma4800 a).map fieldsReset).getD 0)

/-- Bits of a word that lie in fields of an access kind that `p` picks. -/
def fieldMask (p : Access → Bool) (fs : List RegField) : Nat :=
  fs.foldl (fun a f => if p f.acc then a + (2 ^ (f.hi - f.lo + 1) - 1) * 2 ^ f.lo else a) 0

/-- The value written to every field lies in its range (R411, R459). -/
def fieldsInRange (p : Access → Bool) (fs : List RegField) (w : Nat) : Bool :=
  fs.all fun f => !p f.acc || (f.min ≤ bitsOf w f.hi f.lo && bitsOf w f.hi f.lo ≤ f.max)

end Sys2Proof.Machine
end

