-- ==== Sys2Proof/Machine/Ops.lean ====
section
/-!
DEFINITION. The named operations every family uses: sparse memories in canonical form, parameter words, free values,
time, log records, and frames to the host.
-/
namespace Sys2Proof.Machine

/-- What a meaning answers. -/
abbrev Out := Host.Outcome State Fault Refusal

/-! ### Sparse memories: the chart flash, the frame memory, the parameter words -/

/-- What a sparse memory holds at `k`; `d` where nothing is listed (DESIGN CHOICE, log 5). -/
def sparseGet {α : Type} (d : α) : List (Nat × α) → Nat → α
  | [], _ => d
  | (a, x) :: t, k => if a = k then x else sparseGet d t k

/-- A sparse memory with `v` at `k`; writing the default `d` removes the entry (DESIGN CHOICE, log 5). -/
def sparsePut {α : Type} [DecidableEq α] (d : α) : List (Nat × α) → Nat → α → List (Nat × α)
  | [], k, v => if v = d then [] else [(k, v)]
  | (a, x) :: t, k, v =>
    if a < k then (a, x) :: sparsePut d t k v
    else if a = k then (if v = d then t else (k, v) :: t)
    else if v = d then (a, x) :: t else (k, v) :: (a, x) :: t

/-- The canonical form: addresses strictly rising, no entry equal to what its address reads as unlisted. -/
def sparseWf {α : Type} [DecidableEq α] (d : Nat → α) : List (Nat × α) → Bool
  | [] => true
  | [(a, x)] => decide (x ≠ d a)
  | (a, x) :: (b, y) :: t => decide (x ≠ d a) && decide (a < b) && sparseWf d ((b, y) :: t)

/-- `n` consecutive bytes of a sparse memory of bytes. -/
def sparseRead (d : Byte) (m : List Host.Cell) (a n : Nat) : Bytes :=
  (List.range n).map fun i => sparseGet d m (a + i)

/-- A string of bytes written to a sparse memory from address `a` on. -/
def sparseWrite (d : Byte) (m : List Host.Cell) (a : Nat) (bs : Bytes) : List Host.Cell :=
  (bs.foldl (fun (p : List Host.Cell × Nat) b => (sparsePut d p.1 p.2 b, p.2 + 1)) (m, a)).1

/-- Every byte of [a, a + n) erased to `d`. -/
def sparseErase (m : List Host.Cell) (a n : Nat) : List Host.Cell :=
  m.filter fun c => c.1 < a || a + n ≤ c.1

/-! ### Parameter words -/

/-- The configuration part of the word at an address: what the chart or the host wrote, else its reset value. -/
def cfgWord (s : State) (a : Nat) : Word := sparseGet (resetWord a) s.cfg a

/-- The field [hi:lo] of a configuration word, as an unsigned number. -/
def cfgN (s : State) (blk inst off hi lo : Nat) : Nat := (cfgWord s (regAddr blk inst off)).field hi lo

/-- A one-bit configuration field. -/
def cfgB (s : State) (blk inst off b : Nat) : Bool := cfgN s blk inst off b b == 1

/-- BG_SUSPEND suspends a row of Table 18-3 (R450, Table 18-5). -/
def suspended (s : State) (row : Nat) : Bool := (cfgN s 0x01 0 0x400 16 0).testBit row

/-- A signed configuration field. -/
def cfgI (s : State) (blk inst off hi lo : Nat) : Int := toSigned (hi - lo + 1) (cfgN s blk inst off hi lo)

/-- The state with a configuration word written. -/
def cfgPut (s : State) (a : Nat) (w : Word) : State := { s with cfg := sparsePut (resetWord a) s.cfg a w }

/-- A LIVE word of block 0x30 in use (R217). -/
def merWord (s : State) (a : Nat) : Word := sparseGet (resetWord a) s.mer.regs a

/-- A field of a LIVE word of block 0x30 in use. -/
def merN (s : State) (inst off hi lo : Nat) : Nat := (merWord s (regAddr 0x30 inst off)).field hi lo

/-- A signed field of a LIVE word of block 0x30 in use. -/
def merI (s : State) (inst off hi lo : Nat) : Int := toSigned (hi - lo + 1) (merN s inst off hi lo)

/-- A LIVE word of block 0x90 in use (R458). -/
def comWord (s : State) (a : Nat) : Word := sparseGet (resetWord a) s.com.live a

/-- A field of a LIVE word of block 0x90. -/
def comN (s : State) (inst off hi lo : Nat) : Nat := (comWord s (regAddr 0x90 inst off)).field hi lo

/-! ### Free values -/

/-- `n` free bytes, and the state that has drawn them (DESIGN CHOICE, log 8). -/
def drawBytes (s : State) (n : Nat) : Bytes × State :=
  ((List.range n).map fun i => Config.freeByte (s.free + i), { s with free := s.free + n })

/-- A free bit, and the state that has drawn it (DESIGN CHOICE, log 8). -/
def drawBit (s : State) : Bool × State := (Config.freeBit s.free, { s with free := s.free + 1 })

/-- A free whole number, and the state that has drawn it (DESIGN CHOICE, log 8). -/
def drawInt (s : State) : Int × State := (Config.freeInt s.free, { s with free := s.free + 1 })

/-! ### Time -/

/-- The Chronometer's time in ns since 2000. -/
def State.nowNs (s : State) : Nat := s.mer.chr.ns

/-- The Chronometer's time as a CT64 value (R11). -/
def State.now (s : State) : Nat := ct64 s.nowNs

/-! ### Log records (R452, Table 18-4) -/

/-- The size of a record (Table 02-11) (DESIGN CHOICE, log 71). -/
def LogItem.size : LogItem → Nat
  | .event _ => 64 | .telemetry _ => 256 | .health _ _ => 128 | .session _ _ => 512

/-- A telemetry record. -/
def LogItem.isTelemetry : LogItem → Bool
  | .telemetry _ => true
  | _ => false

/-- An event record. -/
def LogItem.isEvent : LogItem → Bool
  | .event _ => true
  | _ => false

/-- Bytes of a list of records. -/
def logBytes (l : List LogItem) : Nat := (l.map LogItem.size).sum

/-- The 64 KiB buffer held to its size (R64): the oldest telemetry goes first, then the oldest of the other records, an
event never (DESIGN CHOICE, log 70). The first number bounds the records dropped. -/
def fitBuffer : Nat → List LogItem → List LogItem
  | 0, l => l
  | n + 1, l =>
    if logBytes l ≤ 65536 then l
    else match l.find? LogItem.isTelemetry with
      | some x => fitBuffer n (l.erase x)
      | none => match l.find? fun x => !x.isEvent with
        | some x => fitBuffer n (l.erase x)
        | none => l

/-- A record queued for the logbook; before the scan's end the buffer keeps to its size (R64). -/
def queueLog (s : State) (x : LogItem) : State :=
  let l := s.log.waiting ++ [x]
  { s with log := { s.log with waiting := if s.log.scanDone then l else fitBuffer l.length l } }

/-- A Lookout channel's watch of the safe sources as the channel starts: every watchdog begins then (R334). -/
def freshChan (now : Nat) : SafeChan := { peer := Vector.replicate 16 { fed := now } }

/-- An event record queued, of the given CT64 time, with the next record number (R452). -/
def logRecAt (s : State) (time code : Nat) (src : LogSrc) (kind arg : Nat) (detail : Bytes) : State :=
  let t := queueLog s (.event ⟨s.log.nextNo, time, code, src.code, kind, arg, detail⟩)
  { t with log := { t.log with nextNo := t.log.nextNo + 1 } }

/-- An event record of the present time (R452). -/
def logRec (s : State) (code : Nat) (src : LogSrc) (kind arg : Nat) (detail : Bytes) : State :=
  logRecAt s s.now code src kind arg detail

/-- The event record that an item is. -/
def LogItem.event? : LogItem → Option LogRec
  | .event r => some r
  | _ => none

/-- The event records the logbook holds, oldest first. -/
def loggedEvents (l : Logbook) : List LogRec :=
  (if l.fault then l.sram else l.ring.flatMap (·.items)).filterMap LogItem.event?

/-- The spare blocks of a device: 2 % of its blocks rounded up, at least 4 (R63). -/
def spareBlocks (device : Nat) : Nat := max 4 ((device * 2 + 99) / 100)

/-- The blocks of the ring: all but two index blocks and the spares; a block retired beyond the spares is lacking (R63). -/
def usableBlocks (l : Logbook) : Nat := l.device - 2 - spareBlocks l.device - (l.retired - spareBlocks l.device)

/-- The bytes logged on the present UTC day and the seven before it (R65). -/
def noteBytes (day n : Nat) (w : List (Nat × Nat)) : List (Nat × Nat) :=
  match w with
  | (d, k) :: t => if d = day then (d, k + n) :: t else (day, n) :: (w.take 7)
  | [] => [(day, n)]

/-- The bytes of the last 7 days. -/
def weekBytes (day : Nat) (w : List (Nat × Nat)) : Nat := ((w.filter fun p => decide (day < p.1 + 7)).map (·.2)).sum

/-- An information record. -/
def logInfo (s : State) (code : Nat) (src : LogSrc) (arg : Nat) : State := logRec s code src 0 arg []

/-- The record of a masked fault. -/
def logMasked (s : State) (code : Nat) (src : LogSrc) (arg : Nat) : State := logRec s code src 1 arg []

/-- A fault detected: it is open until it clears (R444), and FLT_STATUS.LAST_CODE takes its CODE (Table 18-5). -/
def openFault (f : Faults) (code src arg : Nat) : Faults :=
  let x : OpenFault := ⟨code, src, arg⟩
  { f with lastCode := code, opens := if f.opens.contains x then f.opens else f.opens ++ [x] }

/-- The record of a detected fault. -/
def logDetect (s : State) (code : Nat) (src : LogSrc) (arg : Nat) : State :=
  let t := logRec s code src 2 arg []
  { t with flt := openFault t.flt code src.code arg }

/-- The record of a fault that has cleared. -/
def logClear (s : State) (code : Nat) (src : LogSrc) (arg : Nat) : State :=
  let t := logRec s code src 3 arg []
  { t with flt := { t.flt with opens := t.flt.opens.erase ⟨code, src.code, arg⟩ } }

/-- The CODE of a double-bit error. -/
def memCode (c : Nat) : Bool := c == 0x0102 || c == 0x0103

/-- The open faults of a source that `p` picks by CODE and ARG have cleared: each is recorded (R452). -/
def clearFaults (s : State) (src : LogSrc) (p : Nat → Nat → Bool) : State :=
  (s.flt.opens.filter fun x => x.src == src.code && p x.code x.arg).foldl (fun t x => logClear t x.code src x.arg) s

/-- The 64 bytes of a record, with its CRC (R64, Table 18-4). -/
def LogRec.bytes (r : LogRec) : Bytes :=
  let body := toBe 4 r.no ++ toBe 8 r.time ++ toBe 2 r.code ++ toBe 1 r.src ++ toBe 1 r.kind ++ toBe 4 r.arg
    ++ (r.detail ++ List.replicate 40 0).take 40
  body ++ toBe 4 (crc32 body)

/-! ### Rails (R468) -/

/-- A rail's window in µV (Table 20-2), numbered as RAIL_r (Table 19-5). -/
def railWindow (r : Fin 9) : Nat × Nat :=
  match r.val with
  | 0 => (873000, 927000) | 1 => (873000, 927000) | 2 => (873000, 927000)
  | 3 => (855000, 945000) | 4 => (1620000, 1980000)
  | 8 => (1200000, 1800000)
  | _ => (1710000, 1890000)

/-- A voltage lies inside the rail's window. -/
def inWindow (r : Fin 9) (uV : Nat) : Bool := decide ((railWindow r).1 ≤ uV ∧ uV ≤ (railWindow r).2)

/-- A rail measured. -/
def noteRail (s : State) (r : Fin 9) (uV : Nat) : State := { s with pwr := { s.pwr with rail := s.pwr.rail.set r (some uV) } }

/-- A supply excursion counted; RATINGS_OK falls (Table 18-5). -/
def excursion (s : State) : State :=
  { s with flt := { s.flt with supCnt := satInc 16 s.flt.supCnt, ratingsOk := false } }

/-! ### Frames to the host (R388, R389, R399, R409) -/

/-- The 16 header bytes of a host frame (Table 16-1). -/
def OutFrame.header (f : OutFrame) : Bytes :=
  toBe 1 f.cmd ++ toBe 1 (flag f.reply + 2 * flag f.done + 4 * flag f.repeated + 8 * flag f.event) ++ toBe 2 f.sid
    ++ toBe 4 f.seq ++ toBe 1 f.cls ++ toBe 1 f.status ++ toBe 2 f.payload.length ++ toBe 4 f.opId

/-- A frame with its MAC under a session key (R389). -/
def OutFrame.sealed (f : OutFrame) (key : Bytes) : OutFrame :=
  { f with mac := (hmac key (f.header ++ f.payload)).take 8 }

/-- The whole frame as bytes. -/
def OutFrame.bytes (f : OutFrame) : Bytes := f.header ++ f.payload ++ f.mac

/-- The open session of a SID. -/
def findSession (s : State) (sid : Nat) : Option Session := s.host.sessions.find? (·.sid == sid)

/-- The sessions with the one of SID `sid` replaced by its image. -/
def updSession (s : State) (sid : Nat) (f : Session → Session) : State :=
  { s with host := { s.host with sessions := s.host.sessions.map fun x => if x.sid = sid then f x else x } }

/-- A frame queued in a session, numbered and sealed, over the session's transport (R385, R390). -/
def sendSession (s : State) (x : Session) (cmd : Nat) (reply done repeated event : Bool) (cls status opId : Nat)
    (payload : Bytes) : State :=
  let seq := (x.txSeq + 1) % 2 ^ 32
  let f : OutFrame := { cmd, reply, done, repeated, event, sid := x.sid, seq, cls, status, opId, payload,
                        mac := [], via := x.via }
  let t := updSession s x.sid fun y => { y with txSeq := seq }
  { t with host := { t.host with out := t.host.out ++ [f.sealed x.keyOut] } }

/-- An event sent to every open session whose role is listed (R409). -/
def emitEvent (s : State) (code : Nat) (roles : List (Fin 4)) (payload : Bytes) : State :=
  s.host.sessions.foldl
    (fun t x => if x.role ∈ roles then sendSession t ((findSession t x.sid).getD x) code false false false true 0 0 0 payload
      else t) s

/-- The four roles (Table 16-2): 0 OPERATOR, 1 SERVICE, 2 METROLOGY, 3 VENDOR. -/
def allRoles : List (Fin 4) := [0, 1, 2, 3]

/-! ### Updates of one member of a family -/

/-- One stage replaced by its image. -/
def updStage (s : State) (i : Fin 8) (f : Stage → Stage) : State :=
  { s with sx := { s.sx with stage := upd s.sx.stage i f } }

/-- One stage's auxiliary state replaced by its image. -/
def updAux (s : State) (i : Fin 8) (f : StageAux → StageAux) : State :=
  { s with sx := { s.sx with aux := upd s.sx.aux i f } }

/-- One cell replaced by its image. -/
def updCell (s : State) (i : Fin 48) (f : Cell → Cell) : State :=
  { s with sx := { s.sx with cell := upd s.sx.cell i f } }

/-- One channel replaced by its image. -/
def updChannel (s : State) (i : Fin 48) (f : Channel → Channel) : State :=
  { s with sx := { s.sx with channel := upd s.sx.channel i f } }

/-- One sigma-delta input replaced by its image. -/
def updSd (s : State) (i : Fin 64) (f : SdInput → SdInput) : State :=
  { s with sx := { s.sx with sd := upd s.sx.sd i f } }

/-- One law instance replaced by its image. -/
def updLaw (s : State) (i : Fin 96) (f : Law → Law) : State :=
  { s with sx := { s.sx with law := upd s.sx.law i f } }

/-- One outlet replaced by its image. -/
def updOutlet (s : State) (o : Fin 2) (f : Outlet → Outlet) : State :=
  { s with outlet := upd s.outlet o f }

/-- One outlet's cooling replaced by its image. -/
def updCooling (s : State) (o : Fin 2) (f : Cooling → Cooling) : State :=
  { s with cooling := upd s.cooling o f }

/-- One handle port of the reader replaced by its image. -/
def updPort (s : State) (o : Fin 2) (f : HandlePort → HandlePort) : State :=
  { s with rdr := { s.rdr with port := upd s.rdr.port o f } }

/-- One Meridian channel replaced by its image. -/
def updMch (s : State) (k : Fin 12) (f : MChannel → MChannel) : State :=
  { s with mer := { s.mer with fe := { s.mer.fe with ch := upd s.mer.fe.ch k f } } }

/-- One modulator replaced by its image. -/
def updMod (s : State) (m : Fin 20) (f : Modulator → Modulator) : State :=
  { s with mer := { s.mer with fe := { s.mer.fe with mod := upd s.mer.fe.mod m f } } }

/-- The legal set replaced by its image. -/
def updLeg (s : State) (f : LegalSet → LegalSet) : State :=
  { s with mer := { s.mer with leg := f s.mer.leg } }

/-- One of Lookout's inputs replaced by its image. -/
def updSi (s : State) (n : Fin 16) (f : SafeIn → SafeIn) : State :=
  { s with lk := { s.lk with si := upd s.lk.si n f } }

/-- One of Lookout's outputs replaced by its image. -/
def updSo (s : State) (n : Fin 8) (f : SafeOut → SafeOut) : State :=
  { s with lk := { s.lk with so := upd s.lk.so n f } }

/-- One of Lookout's outlets replaced by its image. -/
def updLko (s : State) (o : Fin 2) (f : LkOutlet → LkOutlet) : State :=
  { s with lk := { s.lk with outlet := upd s.lk.outlet o f } }

/-- One key slot replaced by its image. -/
def updSlot (s : State) (k : Fin 128) (f : Slot → Slot) : State :=
  { s with locker := { s.locker with slot := upd s.locker.slot k f } }

end Sys2Proof.Machine
end

