-- ==== Sys2Proof/Machine/Flags.lean ====
section
/-!
DEFINITION. The saturating primitives of the control engine with the flags they raise (R101, R104, Table 04-3): each
operation takes the causes seen so far in the run and gives them back.
-/
namespace Sys2Proof.Machine

/-- A run's value with the causes it has seen. -/
abbrev Sat (α : Type) := SatFlags → α × SatFlags

/-- A value without a cause. -/
def satPure {α : Type} (x : α) : Sat α := fun f => (x, f)

/-- One computation after another. -/
def satBind {α β : Type} (m : Sat α) (k : α → Sat β) : Sat β := fun f => k (m f).1 (m f).2

/-- R101: `rsh`, rounding half up. -/
def rsh (v : Int) (s : Nat) : Int := if s = 0 then v else (v + 2 ^ (s - 1)) / 2 ^ s

/-- R101: a value held in `n` bits, and whether it left them. -/
def satTo (n : Nat) (v : Int) : Int := clampInt (-2 ^ (n - 1)) (2 ^ (n - 1) - 1) v

/-- R101: `mul`, the product shifted and saturated to 48 bits. -/
def lawMul (x c : Int) (k : Nat) : Sat Int := fun f =>
  let p := rsh (x * c) k
  (satTo 48 p, { f with prod := f.prod || decide (satTo 48 p ≠ p) })

/-- R101: `add`, saturated to 64 bits. -/
def lawAdd (a b : Int) : Sat Int := fun f =>
  (satTo 64 (a + b), { f with acc := f.acc || decide (satTo 64 (a + b) ≠ a + b) })

/-- R101: `narrow`, to a 32-bit signal. -/
def lawNarrow (a : Int) (s : Nat) : Sat Int := fun f =>
  (satTo 32 (rsh a s), { f with out := f.out || decide (satTo 32 (rsh a s) ≠ rsh a s) })

/-- R102: an integrator clamped to its limits, whether it was, and SAT_INT. -/
def lawClampInt (lo hi v : Int) : Sat (Int × Bool) := fun f =>
  if hi < v then ((hi, true), { f with int := true })
  else if v < lo then ((lo, true), { f with int := true })
  else ((v, false), f)

/-- R102: a sum of products added to an accumulator. -/
def lawMac (a : Int) : List (Int × Int × Nat) → Sat Int
  | [] => satPure a
  | (x, c, k) :: t => satBind (lawMul x c k) fun p => satBind (lawAdd a p) fun b => lawMac b t

/-- A counter of runs with a cause (R104). -/
def countIf (b : Bool) (n : Nat) : Nat := if b then satInc 16 n else n

/-! ### One-bit streams -/

/-- Sums of `m` consecutive values of a series, newest first. -/
def boxSums (m : Nat) (l : List Int) : List Int := (List.range l.length).map fun k => ((l.drop k).take m).sum

/-- A bit of a modulator's stream as a value. -/
def sdValue (b : Bool) : Int := if b then 1 else -1

/-- The sinc3 output over a stream, newest first, for an oversampling ratio: at most ± its third power (R91). -/
def sinc3 (osr : Nat) (bits : List Bool) : Int := (boxSums osr (boxSums osr (boxSums osr (bits.map sdValue)))).headD 0

/-- The sinc2 output over a stream: at most ± the square of the ratio (R92). -/
def sinc2 (osr : Nat) (bits : List Bool) : Int := (boxSums osr (boxSums osr ((bits.take (2 * osr)).map sdValue))).headD 0

end Sys2Proof.Machine
end

