-- ==== Sys2Proof/Machine/StageOps.lean ====
section
/-!
DEFINITION. What the stages share: their configuration, measured quantities, limits and shares (R26, R116 to R142), and
the ways a stage leaves a state: off, latched, ramping down.
-/
namespace Sys2Proof.Machine

/-- The module is strapped as a manager (Table 00-2). -/
def isManager (s : State) : Bool := s.landfall.role == 1 || s.landfall.role == 2

/-! ### Configuration -/

/-- STG_CFG.KIND: 0 none, 1 BUCK, 2 BOOST, 3 BIDI, 4 AFE3, 5 DAB (Table 03-4). -/
def stgKind (s : State) (g : Fin 8) : Nat := cfgN s 0x11 g 0x000 18 16

/-- Channels of a cell of a kind (Table 03-4). -/
def kindChannels : Nat → Nat
  | 1 => 1 | 2 => 1 | 3 => 1 | 4 => 3 | 5 => 4 | _ => 0

/-- The cell is enabled and belongs to the stage (Table 03-6). -/
def cellOf (s : State) (g : Fin 8) (c : Fin 48) : Bool :=
  cfgB s 0x12 c 0x000 0 && cfgN s 0x12 c 0x000 10 8 == g

/-- The stage's enabled cells, in ascending number. -/
def stageCells (s : State) (g : Fin 8) : List (Fin 48) := (List.finRange 48).filter (cellOf s g)

/-- The stage that owns an enabled cell. -/
def cellStage (s : State) (c : Fin 48) : Option (Fin 8) :=
  if cfgB s 0x12 c 0x000 0 then some (Fin.ofNat 8 (cfgN s 0x12 c 0x000 10 8)) else none

/-- Channel `n` belongs to the cell (Table 03-4). -/
def chanOfCell (s : State) (g : Fin 8) (c : Fin 48) (n : Fin 48) : Bool :=
  let c0 := cfgN s 0x12 c 0x000 23 16
  decide (c0 ≤ n ∧ n < c0 + kindChannels (stgKind s g))

/-- The stage that owns a channel, through the cell that holds it. -/
def channelStage (s : State) (n : Fin 48) : Option (Fin 8) :=
  (List.finRange 8).find? fun g => (stageCells s g).any fun c => chanOfCell s g c n

/-- OUT_CFG.OUT_STG: the stage that feeds an outlet of a type other than none (R147). -/
def outletStage (s : State) (o : Fin 2) : Option (Fin 8) :=
  if cfgN s 0x20 o 0x000 31 30 = 0 then none else some (Fin.ofNat 8 (cfgN s 0x20 o 0x000 28 26))

/-- The outlets a stage feeds. -/
def stageOutlets (s : State) (g : Fin 8) : List (Fin 2) := (List.finRange 2).filter fun o => outletStage s o == some g

/-- The contactor outputs of an outlet: SO_POS and SO_NEG. -/
def soPos (s : State) (o : Fin 2) : Fin 8 := Fin.ofNat 8 (cfgN s 0x40 (0x30 + o) 0x000 19 17)
/-- SO_NEG. -/
def soNeg (s : State) (o : Fin 2) : Fin 8 := Fin.ofNat 8 (cfgN s 0x40 (0x30 + o) 0x000 16 14)

/-- Both feedbacks of an outlet's contactors read as confirmed: closed, or open (R307). -/
def setFeedback (s : State) (o : Fin 2) (isOpen : Bool) : State :=
  let f := fun (x : SafeOut) => { x with fba := isOpen, fbb := isOpen, confOn := !isOpen, confOff := isOpen }
  updSo (updSo s (soPos s o) f) (soNeg s o) f

/-- VVEH_EN: an output stage. -/
def isOutputStage (s : State) (g : Fin 8) : Bool := cfgB s 0x11 g 0x028 31

/-- The sigma-delta inputs of a stage (STG_SENSE). -/
def voutSrc (s : State) (g : Fin 8) : Fin 64 := Fin.ofNat 64 (cfgN s 0x11 g 0x028 29 24)
/-- VVEH_SRC. -/
def vvehSrc (s : State) (g : Fin 8) : Fin 64 := Fin.ofNat 64 (cfgN s 0x11 g 0x028 21 16)
/-- ISTG_SRC. -/
def istgSrc (s : State) (g : Fin 8) : Fin 64 := Fin.ofNat 64 (cfgN s 0x11 g 0x028 13 8)
/-- CELL_SENSE.I_SRC. -/
def cellSrc (s : State) (c : Fin 48) : Fin 64 := Fin.ofNat 64 (cfgN s 0x12 c 0x010 31 26)

/-- V_FS, I_FS of a stage; I_FS of a cell; I_CELL_MAX (A); MIN_CELLS. -/
def vFs (s : State) (g : Fin 8) : Nat := cfgN s 0x11 g 0x02C 31 16
/-- I_FS of a stage. -/
def iFs (s : State) (g : Fin 8) : Nat := cfgN s 0x11 g 0x02C 15 0
/-- I_FS of a cell. -/
def cellFs (s : State) (c : Fin 48) : Nat := cfgN s 0x12 c 0x010 15 0
/-- I_CELL_MAX. -/
def iCellMax (s : State) (g : Fin 8) : Nat := cfgN s 0x11 g 0x054 31 16
/-- MIN_CELLS. -/
def minCells (s : State) (g : Fin 8) : Nat := cfgN s 0x11 g 0x048 16 12

/-! ### The S-PWM counter and the log (R89) -/

/-- The S-PWM counter at present, from where it was last seen. -/
def pwmCount (s : State) : Nat := s.sx.count + (s.mono - s.sx.countAt) * 600000

/-- The S-PWM counter is seen to stand at `t`. -/
def seeCount (s : State) (t : Nat) : State := { s with sx := { s.sx with count := t, countAt := s.mono } }

/-- The CT64 time of a fabric event: placed by the last PPS_IN edge, where there has been one (R89). -/
def fabricNow (s : State) : Nat :=
  match s.sx.ppsNs with
  | some ns => ct64 (ns + (pwmCount s - s.sx.ppsStamp) * 5 / 3)
  | none => s.now

/-- The record of a fault that the fabric detects (R89). -/
def detectFab (s : State) (code arg : Nat) (detail : Bytes) : State :=
  let t := logRecAt s (fabricNow s) code .sextant 2 arg detail
  { t with flt := openFault t.flt code (LogSrc.code .sextant) arg }

/-- The stage is running (R117). -/
def StageSt.running : StageSt → Bool
  | .off => false | .latched => false
  | _ => true

/-! ### Measured quantities: currents in A × 2^31, voltages in V × 2^31 -/

/-- One unit, in the units of measured quantities. -/
def unit31 : Int := 2147483648

/-- The input is INVALID (R93). -/
def sdInvalid (s : State) (n : Fin 64) : Bool := s.sx.sd[n].invalid

/-- The output voltage of a stage. -/
def vOut (s : State) (g : Fin 8) : Int := s.sx.sd[voutSrc s g].ctl * vFs s g

/-- Vveh_S: the vehicle-side voltage (R119). -/
def vVeh (s : State) (g : Fin 8) : Int := s.sx.sd[vvehSrc s g].ctl * vFs s g

/-- A cell's own current reading. -/
def cellRaw (s : State) (c : Fin 48) : Int := s.sx.sd[cellSrc s c].ctl * cellFs s c

/-- The stage's current: ISTG_SRC, or the sum of the cell currents under SENSE_ALT (R124, R141). -/
def stageCur (s : State) (g : Fin 8) : Int :=
  if s.sx.stage[g].senseAlt then ((stageCells s g).map (cellRaw s)).sum else s.sx.sd[istgSrc s g].ctl * iFs s g

/-- A cell's current; of an ESTIMATED cell, what the other cells leave of the stage current (R140). -/
def cellCur (s : State) (g : Fin 8) (c : Fin 48) : Int :=
  if s.sx.cell[c].st = .estimated then
    stageCur s g - (((stageCells s g).filter (· ≠ c)).map (cellRaw s)).sum
  else cellRaw s c

/-- I_MIN in the units of currents. -/
def iMin (s : State) (g : Fin 8) : Int := cfgN s 0x11 g 0x038 31 16 * unit31

/-- VVEH_PRESENT (0.1 V) in the units of voltages. -/
def vPresent (s : State) (g : Fin 8) : Int := cfgN s 0x11 g 0x034 31 16 * unit31 / 10

/-- The vehicle is presented (R120). -/
def presented (s : State) (g : Fin 8) : Bool := decide (vPresent s g ≤ vVeh s g)

/-- V_TGT (R120): the vehicle voltage less PRE_OFFSET, or 0. -/
def vTarget (s : State) (g : Fin 8) : Int :=
  if presented s g then vVeh s g * (1000 - cfgN s 0x11 g 0x030 31 24) / 1000 else 0

/-- The completion condition of R121. -/
def prechargeBand (s : State) (g : Fin 8) : Bool :=
  if presented s g then
    decide (98 * vVeh s g ≤ 100 * vOut s g ∧ vOut s g ≤ vVeh s g ∧ (vOut s g - vTarget s g).natAbs ≤ 2 * unit31)
  else decide (vOut s g < 10 * unit31)

/-- Meridian's reading of an outlet's vehicle voltage, in V × 2^31, and whether it is at most 5 ms old (R28). -/
def vMer (s : State) (o : Fin 2) : Int := s.outlet[o].vMer * unit31 / 1000

/-- A Meridian reading no older than 5 ms is at hand. -/
def vMerFresh (s : State) (o : Fin 2) : Bool :=
  match s.outlet[o].vMerAt with
  | some t => decide (s.mono ≤ t + 5)
  | none => false

/-- The two readings of the vehicle voltage agree (R119). -/
def readingsAgree (s : State) (g : Fin 8) (o : Fin 2) : Bool :=
  vMerFresh s o &&
    (decide (vVeh s g < vPresent s g ∧ vMer s o < vPresent s g)
      || decide (vPresent s g ≤ vVeh s g ∧ vPresent s g ≤ vMer s o
          ∧ 100 * (vVeh s g - vMer s o).natAbs ≤ (vMer s o).natAbs))

/-! ### Cells, capacity and shares -/

/-- The cell counts as in service: N of R128 counts a cell that is shedding, adding or estimated. -/
def CellSt.counts : CellSt → Bool
  | .inService => true | .shedding => true | .adding => true | .estimated => true
  | _ => false

/-- The cells in service. -/
def liveCells (s : State) (g : Fin 8) : List (Fin 48) := (stageCells s g).filter fun c => s.sx.cell[c].st.counts

/-- The cells not retired. -/
def soundCells (s : State) (g : Fin 8) : List (Fin 48) :=
  (stageCells s g).filter fun c => s.sx.cell[c].st ≠ .retired

/-- CAPACITY, in A (R139). -/
def capacity (s : State) (g : Fin 8) : Nat := (soundCells s g).length * iCellMax s g

/-- The cell current limit total of all enabled cells, which stands for the stage rating (DEDUCED, log 12). -/
def stageRating (s : State) (g : Fin 8) : Nat := (stageCells s g).length * iCellMax s g

/-- Helm's current setpoint after the limits of R26, in A × 2^31 (DEDUCED, log 12). In RAMP_DOWN the limit falls for a
stage without outlets too (R126); in DISCHARGE every cell draws 5 % of I_CELL_MAX from the output (R127). -/
def setpoint (s : State) (g : Fin 8) : Int :=
  let x := s.sx.stage[g]
  let want := x.iSet * stageRating s g
  if x.st = .discharge then -((liveCells s g).length * iCellMax s g * unit31 / 20)
  else if (stageOutlets s g).isEmpty = true ∧ x.st ≠ .rampDown then min want (capacity s g * unit31)
  else min want (x.limNow * unit31 / 1000)

/-- SHED_RAMP in periods. -/
def shedRamp (s : State) (g : Fin 8) : Nat := cfgN s 0x11 g 0x048 11 4

/-- A share that ramps: of a cell in SHEDDING or ADDING (R129), or ramped out to its retirement (R140). -/
def Cell.ramps (x : Cell) : Bool := decide (x.st = .shedding ∨ x.st = .adding) || x.rampOut

/-- The ramped share of a cell (R129, R140), in A × 2^31. -/
def rampedShare (s : State) (g : Fin 8) (c : Fin 48) (base : Int) : Int :=
  let r := min s.sx.cell[c].ramp (shedRamp s g)
  if s.sx.cell[c].st = .adding then base * r / shedRamp s g else base * (shedRamp s g - r) / shedRamp s g

/-- The share of a cell (R139), in A × 2^31. -/
def cellShare (s : State) (g : Fin 8) (c : Fin 48) : Int :=
  let cap : Int := iCellMax s g * unit31
  let live := liveCells s g
  let i := setpoint s g
  let base := min cap (i / max 1 live.length)
  let ramping := live.filter fun d => s.sx.cell[d].ramps
  let rest := live.length - ramping.length
  if s.sx.cell[c].st.counts = false then 0
  else if s.sx.cell[c].ramps then rampedShare s g c base
  else min cap ((i - (ramping.map fun d => rampedShare s g d base).sum) / max 1 rest)

/-- SHARE of every cell of a stage recomputed, in whole A (R139) (DEDUCED, log 41). -/
def reshare (s : State) (g : Fin 8) : State :=
  (stageCells s g).foldl (fun t c => updCell t c fun x => { x with share := (max 0 (cellShare s g c) / unit31).toNat }) s

/-! ### The limits of R26 -/

/-- The largest current that a power share allows at the measured output voltage, in mA; unbounded at no voltage. -/
def shareLimit (kW : Nat) (v : Int) : Option Nat :=
  if 0 < v then some ((kW * 1000 * 1000 * unit31) / v).toNat else none

/-- The cable derating limit (R172), in A. -/
def derate (s : State) (o : Fin 2) : Nat :=
  let c := s.cooling[o]
  if c.uncooled then min c.iDerate (cfgN s 0x22 o 0x000 31 16) else c.iDerate

/-- The outlet's own limits of R26, the vehicle's request and the post share left out, in mA. -/
def ownLimit (s : State) (g : Fin 8) (o : Fin 2) : Nat :=
  min (cfgN s 0x20 o 0x000 15 0 * 1000) (min (derate s o * 1000) (capacity s g * 1000))

/-- The limit of R26 for the outlet that a stage feeds, in mA. -/
def limitTarget (s : State) (g : Fin 8) (o : Fin 2) : Nat :=
  let m := min s.outlet[o].vehI (ownLimit s g o)
  if s.outlet[o].st = .faulted then 0
  else match shareLimit s.outlet[o].share (vOut s g) with
    | some k => min m k
    | none => m

/-- I_RAMP in mA per ms. -/
def iRamp (s : State) (g : Fin 8) : Nat := cfgN s 0x11 g 0x03C 31 16 * 100

/-- The present limit moved on to the present time: a falling limit at once, a rising one at I_RAMP; in RAMP_DOWN it
falls to 0 at I_RAMP (R26, R126). A stage without outlets has its capacity as limit. -/
def followLimit (s : State) (g : Fin 8) : State :=
  let x := s.sx.stage[g]
  let step := iRamp s g * (s.mono - x.limAt)
  let lim := match stageOutlets s g with
    | [] => if x.st = .rampDown then x.limNow - step else capacity s g * 1000
    | o :: _ => min (limitTarget s g o) (if x.st = .rampDown then x.limNow - step else x.limNow + step)
  reshare (updStage s g fun y => { y with limNow := lim, limAt := s.mono }) g

/-! ### Leaving a state -/

/-- The channels of a stage's cells parked: no drive, no edge due (rank 5 of Table 03-2). -/
def parkChannels (s : State) (g : Fin 8) (p : Fin 48 → Bool) : State :=
  let chans : Vector Channel 48 := Vector.ofFn fun n =>
    if (stageCells s g).any (fun c => p c && chanOfCell s g c n) then
      { s.sx.channel[n] with trunc := false, keepTo := 0 }
    else s.sx.channel[n]
  { s with sx := { s.sx with channel := chans } }

/-- Cells of the stage replaced by their image. -/
def mapCells (s : State) (g : Fin 8) (f : Cell → Cell) : State :=
  (stageCells s g).foldl (fun t c => updCell t c f) s

/-- The stage enters OFF, with FAIL when the start or stop failed: channels parked, every cell that is not retired
OFF (R117). -/
def stageOff (s : State) (g : Fin 8) (fail : Option Nat) : State :=
  let t := parkChannels s g fun _ => true
  let t := mapCells t g fun c =>
    { c with st := if c.st = .retired then .retired else .off, share := 0, ramp := 0, cbcRun := 0, rampOut := false,
             retireNext := false }
  let t := updStage t g fun x =>
    { x with st := .off, fail := fail.getD x.fail, parked := true, noSinkRestr := false, lift := false, firing := false, armed := true,
             shedHold := false, vGoal := none, limNow := 0, limAt := s.mono }
  match fail with
  | some _ => updAux t g fun a => { a with failAt := some s.mono }
  | none => t

/-- The stage enters RAMP_DOWN: its current setpoint falls from where it stands (R116, R126). -/
def stageRamp (s : State) (g : Fin 8) : State :=
  let t := followLimit s g
  let now := (max 0 (setpoint t g) * 1000 / unit31).toNat
  reshare (updStage t g fun x => { x with st := .rampDown, limNow := min x.limNow now, vGoal := none }) g

/-- An output switched off. -/
def SafeOut.off (mono : Nat) (x : SafeOut) : SafeOut :=
  if x.cmd then { x with cmd := false, soh := false, sol := false, confOn := false, confOff := false, since := mono }
  else x

/-- An output switched on; SO_OPS counts it (R307). -/
def SafeOut.on (mono : Nat) (x : SafeOut) : SafeOut :=
  if x.cmd then x
  else { x with cmd := true, soh := true, sol := true, confOn := false, confOff := false, since := mono
                ops := min 4294967295 (x.ops + 1) }

/-- The outputs of kinds 3 and 4 follow Helm's requests, under the gate permit conditions (R488, R313). -/
def driveKinds (s : State) : State :=
  let outs : Vector SafeOut 8 := Vector.ofFn fun n =>
    let x := s.lk.so[n]
    let drive := fun (b : Bool) => if b && s.lk.gpA && s.lk.gpB && x.fault == 0 then x.on s.mono else x.off s.mono
    match cfgN s 0x40 (0x20 + n) 0x000 31 29 with
    | 3 => drive s.lk.kind3
    | 4 => drive s.lk.kind4
    | _ => x
  { s with lk := { s.lk with so := outs } }

/-- Helm requests kinds 3 and 4 off (R488, R313). -/
def dropKinds (s : State) : State := driveKinds { s with lk := { s.lk with kind3 := false, kind4 := false } }

/-- Another AFE3 stage is in RUN (R488). -/
def otherAfeRuns (s : State) (g : Fin 8) : Bool :=
  (List.finRange 8).any fun h => decide (h ≠ g) && stgKind s h == 4 && decide (s.sx.stage[h].st = .run)

/-- R488: a failed or latched AFE3 stage drops kinds 3 and 4 unless another AFE3 stage runs. -/
def afeDrop (s : State) (g : Fin 8) : State :=
  if stgKind s g = 4 ∧ !otherAfeRuns s g then dropKinds s else s

/-- The CODE under which a latch is logged (Table 18-1; other causes have no CODE there). -/
def latchLogCode : LatchCause → Nat
  | .flt => 0x0401 | .readback => 0x0402 | .overrun => 0x0205 | .internal => 0x0202
  | _ => Config.eventCode 136

/-- The cause recorded: the first in LATCH_CAUSE, every one in LATCH_MASK (R136). -/
def noteLatch (cause : LatchCause) (x : Stage) : Stage :=
  { x with
    latchCause := if x.st = .latched then x.latchCause else cause.code
    latchMask := setBit x.latchMask (cause.code - 1) }

/-- The cause is logged with its channel by the command that brings it (R77, R79). -/
def LatchCause.ofChannel : LatchCause → Bool
  | .flt => true | .readback => true
  | _ => false

/-- The stage enters LATCHED, or records one more cause (R136): channels low, instances held, event logged. -/
def stageLatched (s : State) (g : Fin 8) (cause : LatchCause) : State :=
  let was := s.sx.stage[g].st
  let t := updStage s g fun x =>
    { noteLatch cause x with st := .latched, parked := true, firing := false, limNow := 0, limAt := s.mono, vGoal := none }
  if was = .latched then t
  else
    let t := parkChannels t g fun _ => true
    afeDrop (if cause.ofChannel then t else detectFab t (latchLogCode cause) g []) g

/-- A latch under R116: any cause from any state but OFF; in OFF only FLT and READBACK. -/
def latchStage (s : State) (g : Fin 8) (cause : LatchCause) : State :=
  if s.sx.stage[g].st = .off ∧ cause ≠ .flt ∧ cause ≠ .readback then s else stageLatched s g cause

/-- STOP (R116), or the start's failure when `fail` names one: PRECHARGE and CLOSE_WAIT end in OFF, NO_SINK and RUN ramp
down, any other state stays. An AFE3 stage so stopped drops kinds 3 and 4 as one that fails (R488) (DESIGN CHOICE,
log 79). -/
def haltStage (s : State) (g : Fin 8) (fail : Option Nat) : State :=
  match s.sx.stage[g].st with
  | .precharge => afeDrop (stageOff s g fail) g
  | .closeWait => afeDrop (stageOff s g fail) g
  | .noSink => stageRamp s g
  | .run => stageRamp s g
  | _ => s

/-- Stage `h` depends on stage `g` (DEP_EN, DEP_STG). -/
def dependsOn (s : State) (h g : Fin 8) : Bool := cfgB s 0x11 h 0x044 11 && cfgN s 0x11 h 0x044 10 8 == g

/-- The reaction of dependent stages, when stages that were in RUN have left it (R116), repeated while it makes others
leave RUN. -/
def depReact : Nat → State → State → State
  | 0, _, t => t
  | n + 1, s, t =>
    let left := (List.finRange 8).filter fun g => s.sx.stage[g].st = .run ∧ t.sx.stage[g].st ≠ .run
    if left.isEmpty then t
    else
      let u := left.foldl (fun u g => (List.finRange 8).foldl
        (fun w h => if dependsOn w h g then haltStage w h (some 5) else w) u) t
      depReact n t u

/-- The stages after an action, with the dependent stages' reactions. -/
def withDeps (s : State) (f : State → State) : State := depReact 8 s (f s)

/-- The parked cells of one cell alone. -/
def parkCell (s : State) (g : Fin 8) (c : Fin 48) : State := parkChannels s g (· == c)

/-- A retirement is written to the log with the cell, and the detail of R142: cause and stage current in A. -/
def logCell (s : State) (code : Nat) (kind : Nat) (g : Fin 8) (c : Fin 48) (cause : Nat) : State :=
  logRecAt s (fabricNow s) code .sextant kind c (toBe 1 cause ++ toBe 4 (ofSigned 32 (stageCur s g / unit31)))

/-- A cell is retired (R139): parked, stored, shares and limit recomputed, new rose targets due; too few cells latch the
stage with cause CAPACITY (Table 05-4). -/
def retireCell (s : State) (g : Fin 8) (c : Fin 48) (cause : Nat) : State :=
  let t := updCell (parkCell s g c) c fun x =>
    { x with st := .retired, retireCause := cause, stored := cause, share := 0, ramp := 0,
             retireNext := false, rampOut := false, cbcRun := 0 }
  let t := updStage t g fun x => { x with needTargets := true }
  let t := followLimit (reshare t g) g
  let t := logCell t (if cause = 1 then 0x0404 else 0x0405) 1 g c cause
  if (soundCells t g).length < minCells t g then latchStage t g .capacity else t

/-- The stage has an ESTIMATED cell. -/
def hasEstimated (s : State) (g : Fin 8) : Bool := (stageCells s g).any fun c => s.sx.cell[c].st = .estimated

/-- A cell of a running stage loses its current sense (R140, Table 05-4): it is estimated; under SENSE_ALT the stage
latches; beside an estimated cell it is to be retired at the next boundary. -/
def cellLostSense (s : State) (g : Fin 8) (c : Fin 48) : State :=
  if !s.sx.stage[g].st.running || !s.sx.cell[c].st.counts || decide (s.sx.cell[c].st = .estimated)
      || s.sx.cell[c].retireNext then s
  else if s.sx.stage[g].senseAlt then latchStage s g .sense
  else if hasEstimated s g then updCell s c fun x => { x with retireNext := true }
  else if s.sx.cell[c].st = .shedding then retireCell s g c 2
  else logCell (reshare (updCell s c fun x => { x with st := .estimated, ramp := 0 }) g) 0x0405 1 g c 2

/-- The cells of a stage that leaves OFF (R117): all but the retired in service, then those without sense handled in
ascending number. -/
def startCells (s : State) (g : Fin 8) : State :=
  let t := mapCells s g fun c =>
    { c with st := if c.st = .retired then .retired else .inService, ramp := 0, retireNext := false, rampOut := false }
  let t := updStage t g fun x => { x with needTargets := true, senseAlt := sdInvalid s (istgSrc s g) }
  reshare ((stageCells t g).foldl (fun u c => if sdInvalid u (cellSrc u c) then cellLostSense u g c else u) t) g

end Sys2Proof.Machine
end

