-- ==== Sys2Proof/Machine/OutletOps.lean ====
section
/-!
DEFINITION. What the outlets share: refusal, pilot drive, the answers to the vehicle, stop triggers (R161), faults (R162,
R163), and what a change of a stage means to the outlet it feeds.
-/
namespace Sys2Proof.Machine

/-- A measuring channel is INVALID (R209, R210), or M-ADC has lost its clock (Table 18-2). -/
def chInvalid (s : State) (k : Fin 12) : Bool := s.mer.fe.ch[k].invalid || s.flt.island[(13 : Fin 17)].lost

/-- OUT_TYPE (R147). -/
def outType (s : State) (o : Fin 2) : Nat := cfgN s 0x20 o 0x000 31 30

/-- A legal display fault exists (R290). -/
def displayFault (s : State) : Bool :=
  s.disp.faultCrc || s.disp.faultLane || s.disp.faultPump || s.disp.faultCrack || s.disp.faultSelf

/-- An activation of a target is pending (R56). -/
def pendingActivation (s : State) (k : Fin 5) : Bool := s.fw[k].activating || s.fw[k].stage == 3

/-- The outlet is REFUSING (R164). -/
def refusing (s : State) (o : Fin 2) : Bool := displayFault s || pendingActivation s 4 || s.lk.outlet[o].blocked

/-- From AUTHORISED to UNLOCK. -/
def OutSt.authorisedOn : OutSt → Bool
  | .authorised => true | .isolationTest => true | .precharge => true | .energyTransfer => true
  | .rampDown => true | .weldCheck => true | .discharge => true | .unlock => true
  | _ => false

/-- From PLUGGED to UNLOCK. -/
def OutSt.pluggedOn : OutSt → Bool
  | .plugged => true | .cableCheck => true | .identified => true
  | x => x.authorisedOn

/-- From IDLE to UNLOCK: the states a fault moves to FAULTED (R162). -/
def OutSt.faultable : OutSt → Bool
  | .finished => false | .faulted => false
  | _ => true

/-- The drive of CP_OUT_x (R151, R152, CP_MODE). -/
def pilotDrive (s : State) (o : Fin 2) : PilotDrive :=
  let x := s.outlet[o]
  match outType s o with
  | 1 => match cfgN s 0x20 o 0x00C 7 6 with
    | 1 => .high
    | 2 => .pwm
    | _ => .low
  | 2 => if x.pilot.pwmOn then .pwm else if refusing s o && !x.pilot.pwmBegun then .low else .high
  | _ => .low

/-- The pilot's drive brought up to date. -/
def setPilot (s : State) (o : Fin 2) : State :=
  updOutlet s o fun x => { x with pilot := { x.pilot with drive := pilotDrive s o } }

/-- The vehicle link is started: T_LINK runs, and on a combined-charging outlet PWM begins (R152, R153). -/
def startLink (s : State) (o : Fin 2) : State :=
  setPilot (updOutlet s o fun x =>
    { x with link := { x.link with started := true }, tmr := { x.tmr with link := true },
             pilot := { x.pilot with pwmOn := outType s o == 2, pwmBegun := outType s o == 2 } }) o

/-- An outlet that waits in CABLE_CHECK with its checks passed starts its link once it is not REFUSING (R164). -/
def proceedCable (s : State) (o : Fin 2) : State :=
  if s.outlet[o].st = .cableCheck ∧ s.outlet[o].cablePass = true ∧ s.outlet[o].link.started = false
      ∧ refusing s o = false then startLink s o
  else setPilot s o

/-- Both outlets after a cause of REFUSING has come or gone (R164). -/
def setPilots (s : State) : State := proceedCable (proceedCable s 0) 1

/-- The outlet's answer to the vehicle. Outside ENERGY_TRANSFER each response of a session that goes on starts T_SEQ; the
first "ongoing" of a step starts T_ONGOING (Table 06-5) (DEDUCED, log 44). -/
def answer (s : State) (o : Fin 2) (a : Answer) : State :=
  updOutlet s o fun x =>
    { x with
      answer := a
      tmr := { x.tmr with
        seq := decide (x.st ≠ .energyTransfer) && x.st.pluggedOn
        ongoing := if a = .ongoing then true else x.tmr.ongoing } }

/-- The answer to a request that the present state does not serve: "ongoing" while the outlet winds down and waits for a
condition (R158, Table 06-12), nothing in FAULTED, else the failure response. -/
def answerOther (s : State) (o : Fin 2) : State :=
  match s.outlet[o].st with
  | .faulted => s
  | .rampDown => answer s o .ongoing
  | .weldCheck => answer s o .ongoing
  | .discharge => answer s o .ongoing
  | .unlock => answer s o .ongoing
  | _ => answer s o .failed

/-- The answer to a request that stops the session: "ongoing" while the outlet then winds down (R158). -/
def answerStop (s : State) (o : Fin 2) : State :=
  match s.outlet[o].st with
  | .rampDown => answer s o .ongoing
  | .weldCheck => answer s o .ongoing
  | .discharge => answer s o .ongoing
  | .unlock => answer s o .ongoing
  | _ => answer s o (.ok [])

/-- The outlet enters a state: T_ONGOING of the step before ends; in IDLE no session is present (R152). -/
def enter (s : State) (o : Fin 2) (st : OutSt) : State :=
  updOutlet s o fun x =>
    { x with
      st := st, tmr := { x.tmr with ongoing := false }
      pilot := { x.pilot with pwmBegun := x.pilot.pwmBegun && decide (st ≠ .idle) } }

/-- The outlet enters IDLE, and its pilot's drive follows (R152). -/
def toIdle (s : State) (o : Fin 2) : State := setPilot (enter s o .idle) o

/-- COND = UNPLUGGED takes FINISHED to IDLE, and FAULTED too once the lock is released and the outlet is not BLOCKED
(Table 06-6). -/
def rest (s : State) (o : Fin 2) : State :=
  let x := s.outlet[o]
  let l := s.lk.outlet[o]
  if x.pilot.cond = .unplugged ∧ (x.st = .finished ∨ (x.st = .faulted ∧ l.lock = false ∧ l.lockFb = false
      ∧ l.blocked = false)) then toIdle s o
  else s

/-- Timers, link and pilot PWM of a session that has ended. -/
def endLink (s : State) (o : Fin 2) : State :=
  setPilot (updOutlet s o fun x =>
    { x with tmr := {}, link := {}, pilot := { x.pilot with pwmOn := false } }) o

/-- The stage of an outlet is OFF (or the outlet has none). -/
def stageIsOff (s : State) (o : Fin 2) : Bool :=
  match outletStage s o with
  | some g => decide (s.sx.stage[g].st = .off)
  | none => true

/-- The requests held back move into the mailbox as far as it has room (R23). -/
def refillMail (s : State) : State :=
  let l := s.mer.mail ++ s.mer.held
  { s with mer := { s.mer with mail := l.take 16, held := l.drop 16 } }

/-- A request to Meridian: at most 16 are outstanding, and Helm holds back what exceeds them (R23). -/
def pushMail (s : State) (r : MailRequest) : State :=
  refillMail { s with mer := { s.mer with held := s.mer.held ++ [r] } }

/-- The reader stops an inventory and is left free (Table 06-6). -/
def abandonInventory (s : State) (o : Fin 2) : State := updPort s o fun p => { p with inv := {} }

/-- Block 8 as the end of a session leaves it: MATE_COUNT + 1 and LAST_MATE (R193). -/
def mateOf (i : TagIdent) (nowNs : Nat) : Mate :=
  ⟨i.id, i.block8, toBe 4 (i.mateCount + 1) ++ toBe 4 (nowNs / 1000000000 % 2 ^ 34 / 4)⟩

/-- The outlet enters FINISHED: link, inventory and timers end, and the mating count is due (R193). -/
def finish (s : State) (o : Fin 2) : State :=
  rest (updPort (abandonInventory (enter (endLink s o) o .finished) o) o fun p =>
    { p with mate := if p.ident.ok then some (mateOf p.ident s.nowNs) else p.mate }) o

/-- Helm's STOP to the stage of an outlet. -/
def stopStageOf (s : State) (o : Fin 2) : State :=
  match outletStage s o with
  | some g => withDeps s fun t => haltStage t g none
  | none => s

/-- A fault of Table 06-7 on one outlet (R162, R163): logged, added to FAULT_MASK, and from IDLE to UNLOCK leading to
FAULTED, where the limit is 0, Helm issues STOP and asks for unlock. -/
def outletFaultBare (s : State) (o : Fin 2) (c : OutFault) : State :=
  let x := s.outlet[o]
  if outType s o = 0 then s
  else
    let s := logDetect s (Config.eventCode 162) .helm o
    let s := updOutlet s o fun x => { x with faultMask := setBit x.faultMask (c.code - 1) }
    if x.st.faultable then
      let t := updOutlet s o fun x => { x with faultCause := if x.faultCause = 0 then c.code else x.faultCause }
      let t := abandonInventory (enter (endLink t o) o .faulted) o
      let t := match outletStage t o with
        | some g => reshare (updStage t g fun y => { y with limNow := 0, limAt := t.mono }) g
        | none => t
      let t := updLko t o fun x => { x with unlockAsked := true, wait := none }
      stopStageOf t o
    else s

/-- What an outlet asks for, in kW: its R26 limits other than the post share, at the output voltage (R27, R366). -/
def outletDemand (s : State) (o : Fin 2) : Nat :=
  match outletStage s o with
  | none => 0
  | some g =>
    let mA := min s.outlet[o].vehI (ownLimit s g o)
    if s.outlet[o].st = .energyTransfer then (mA * (max 0 (vOut s g)) / unit31 / 1000000).toNat else 0

/-- P_GUAR in kW. -/
def pGuar (s : State) (o : Fin 2) : Nat := cfgN s 0x20 o 0x008 31 16

/-- The AFE3 stages. -/
def afeStages (s : State) : List (Fin 8) := (List.finRange 8).filter fun g => stgKind s g == 4

/-- The front end's available capacity in kW (R27): capacity times Helm's DC link setpoint, summed and then rounded down
(DESIGN CHOICE, log 57). -/
def frontCapacity (s : State) : Nat :=
  match afeStages s with
  | [] => cfgN s 0x60 0 0x054 31 0
  | l => (((l.filter fun g => s.sx.stage[g].st ≠ .latched).map fun g =>
      (capacity s g : Int) * max 0 s.sx.stage[g].vCmd * 2000).sum / unit31 / 1000).toNat

/-- The post split (R27): guaranteed minimums first, scaled down alike when they exceed the post's power, then the
remainder by demand above them, in kW rounded down. -/
def splitShares (post : Nat) (dem guar : Fin 2 → Nat) (o : Fin 2) : Nat :=
  let m := fun k => min (guar k) (dem k)
  let sum := m 0 + m 1
  if post < sum then m o * post / sum
  else
    let above := (dem 0 - m 0) + (dem 1 - m 1)
    if above = 0 then m o else m o + (post - sum) * (dem o - m o) / above

/-- The post split recomputed and handed to the stages' limits (R26, R27). -/
def postSplit (s : State) : State :=
  let post := min s.wrk.alloc (frontCapacity s)
  let sh := fun o => splitShares post (outletDemand s) (pGuar s) o
  let t := updOutlet (updOutlet s 0 fun x => { x with share := sh 0 }) 1 fun x => { x with share := sh 1 }
  let t := if s.landfall.helmUp && s.sx.up then { t with sx := { t.sx with shareAt := some s.mono } } else t
  (List.finRange 2).foldl (fun u o => match outletStage u o with
    | some g => followLimit u g
    | none => u) t

/-- The split recomputed where capacity or a demand has changed from `s` to `t` (R27); a fall of the capacity is reported
at once (R139, R366). -/
def resplit (s t : State) : State :=
  let t := if frontCapacity t < frontCapacity s then { t with wrk := { t.wrk with reportDue := true } } else t
  if frontCapacity s = frontCapacity t ∧ outletDemand s 0 = outletDemand t 0 ∧ outletDemand s 1 = outletDemand t 1 then t
  else postSplit t

/-- What the stages' changes from `s` to `t` mean to the outlets (Table 06-7): a stage that has latched gives
STAGE_LATCH; one that has gone OFF with FAIL 1 to 3 or 5 gives START, with FAIL 4 DISCHARGE. -/
def stageNews (s t : State) (o : Fin 2) : Option OutFault :=
  match outletStage t o with
  | none => none
  | some g =>
    let a := s.sx.stage[g]
    let b := t.sx.stage[g]
    if a.st ≠ .latched ∧ b.st = .latched then some .stageLatch
    else if a.st ≠ .off ∧ b.st = .off then
      match b.fail with
      | 1 => some .start | 2 => some .start | 3 => some .start | 5 => some .start
      | 4 => some .discharge
      | _ => none
    else none

/-- The outlets told of the stages' changes from `s` to `t`, until no stage changes any more (DESIGN CHOICE, log 10). -/
def notify : Nat → State → State → State
  | 0, _, t => t
  | n + 1, s, t =>
    let u := (List.finRange 2).foldl (fun u o => match stageNews s t o with
      | some c => outletFaultBare u o c
      | none => u) t
    if u.sx.stage = t.sx.stage then u else notify n t u

/-- An action on the stages, with the dependent stages' reactions, the outlets' faults and the post split that follow
(DESIGN CHOICE, log 10). -/
def withStages (s : State) (f : State → State) : State := resplit s (notify 8 s (withDeps s f))

/-- A fault of Table 06-7 (R162), with what follows on the stages and the other outlet. -/
def outletFault (s : State) (o : Fin 2) (c : OutFault) : State := withStages s fun t => outletFaultBare t o c

/-- A latch of a stage (R136), with what follows. -/
def latchAndTell (s : State) (g : Fin 8) (c : LatchCause) : State := withStages s fun t => latchStage t g c

/-- STOP_REASON takes the first trigger (R161). -/
def noteStop (s : State) (o : Fin 2) (r : StopReason) : State :=
  updOutlet s o fun x => { x with stopReason := if x.stopReason = 0 then r.code else x.stopReason }

/-- The stage of an outlet is ramping down and not yet parked. -/
def stageRamps (s : State) (o : Fin 2) : Bool :=
  match outletStage s o with
  | some g => decide (s.sx.stage[g].st = .rampDown) && !s.sx.stage[g].parked
  | none => false

/-- From AUTHORISED, ISOLATION_TEST or PRECHARGE (R161): through RAMP_DOWN while the stage ramps down, else straight to
WELD_CHECK; the isolation test and its timers end (DEDUCED, log 44). -/
def cutShort (s : State) (o : Fin 2) : State :=
  let t := stopStageOf s o
  let t := updOutlet t o fun x => { x with isoStep := 0, tmr := { x.tmr with iso := false, dwell := false } }
  enter t o (if stageRamps t o then .rampDown else .weldCheck)

/-- A stop trigger (R161): the first is recorded and acts, later ones are logged. -/
def stopTrigger (s : State) (o : Fin 2) (r : StopReason) : State :=
  let x := s.outlet[o]
  if x.stopReason ≠ 0 ∧ x.st.pluggedOn then logInfo s (Config.eventCode 161) .helm o
  else match x.st with
    | .plugged => finish (noteStop s o r) o
    | .cableCheck => finish (noteStop s o r) o
    | .identified => finish (noteStop s o r) o
    | .authorised => withStages s fun t => cutShort (noteStop t o r) o
    | .isolationTest => withStages s fun t => cutShort (noteStop t o r) o
    | .precharge => withStages s fun t => cutShort (noteStop t o r) o
    | .energyTransfer => withStages s fun t => enter (stopStageOf (noteStop t o r) o) o .rampDown
    | _ => s

end Sys2Proof.Machine
end

