-- ==== Sys2Proof/Machine/ChronoOps.lean ====
section
/-!
DEFINITION. Dates and local time (R249, R269), the tariff calendar's rule (R249), and the prepayment accounts on the
Helm die (R266 to R271).
-/
namespace Sys2Proof.Machine

/-! ### Dates -/

/-- Whole seconds of an instant in ns. -/
def secOf (ns : Nat) : Nat := ns / 1000000000

/-- Year, month and day of a day count since 2000-01-01 (Gregorian calendar). -/
def civil (days : Nat) : Nat × Nat × Nat :=
  let z := days + 146097 - 60
  let doe := z % 146097
  let yoe := (doe - doe / 1460 + doe / 36524 - doe / 146096) / 365
  let doy := doe - (365 * yoe + yoe / 4 - yoe / 100)
  let mp := (5 * doy + 2) / 153
  let m := if mp < 10 then mp + 3 else mp - 9
  (1600 + z / 146097 * 400 + yoe + (if m ≤ 2 then 1 else 0), m, doy - (153 * mp + 2) / 5 + 1)

/-- The weekday of a day count, Monday 0 (2000-01-01 was a Saturday). -/
def weekday (days : Nat) : Nat := (days + 5) % 7

/-- Month and day of a day count as one ordered number. -/
def monthDay (days : Nat) : Nat := (civil days).2.1 * 32 + (civil days).2.2

/-! ### The tariff calendar (Table 10-2, R249) -/

/-- The offset from UTC in force at an instant, in quarters of an hour. -/
def Calendar.offsetAt (c : Calendar) (ns : Nat) : Int :=
  c.changes.foldl (fun o p => if p.1 ≤ ns then p.2 else o) c.base

/-- Local time in seconds since 2000-01-01, local, at an instant under an offset. -/
def localSec (ns : Nat) (off : Int) : Nat := ((secOf ns : Int) + off * 900).toNat

/-- The day profile of a day (R249). -/
def Calendar.profileOf (c : Calendar) (day : Nat) : List SwitchPoint :=
  let special := c.specials.find? fun d =>
    if d.annual then monthDay d.date == monthDay day else d.date == day
  let season := fun (l : List Season) => l.foldl (fun (b : Option Season) x => match b with
    | none => some x
    | some y => if y.month * 32 + y.day < x.month * 32 + x.day then some x else some y) none
  let past := c.seasons.filter fun x => x.month * 32 + x.day ≤ monthDay day
  let n := match special with
    | some d => d.profile
    | none => match season (if past.isEmpty then c.seasons else past) with
      | some x => x.profiles.getD (weekday day) 0
      | none => 0
  c.profiles.getD n []

/-- The tariff at a local time. -/
def Calendar.tariffLocal (c : Calendar) (ls : Nat) : Nat :=
  (c.profileOf (ls / 86400)).foldl (fun t p => if p.minute * 60 ≤ ls % 86400 then p.tariff else t) 1

/-- The tariff in force at an instant (R249). A change that lowers the offset by Δ holds the tariff of the instant
before it for Δ. -/
def Calendar.tariffAt (c : Calendar) (ns : Nat) : Nat :=
  let held := c.changes.find? fun p =>
    let before := c.offsetAt (p.1 - 1)
    decide (p.1 ≤ ns ∧ p.2 < before ∧ ns < p.1 + ((before - p.2) * 900000000000).toNat)
  match held with
  | some p => c.tariffLocal (localSec (p.1 - 1) (c.offsetAt (p.1 - 1)))
  | none => c.tariffLocal (localSec ns (c.offsetAt ns))

/-- The offset in force now; UTC with no active calendar. -/
def offsetNow (s : State) (ns : Nat) : Int :=
  match s.mer.tar.active with
  | some c => c.offsetAt ns
  | none => 0

/-- TAR_DEF (R246, R250). -/
def tarDef (s : State) : Nat := merN s 0x700 0x00C 7 4

/-- The tariff in force at an instant: TAR_DEF without an active calendar or valid time. -/
def tariffFor (s : State) (ns : Nat) : Nat :=
  match s.mer.tar.active with
  | some c => if s.mer.chr.valid then c.tariffAt ns else tarDef s
  | none => tarDef s

/-! ### Friendly hours (R269) -/

/-- A weekly window FH_k holds at a local time; END at or below START spans midnight. -/
def fhHolds (s : State) (k ls : Nat) : Bool :=
  let off := 0x040 + 4 * k
  let start := cfgN s 0x90 0 off 21 11
  let stop := cfgN s 0x90 0 off 10 0
  let m := ls % 86400 / 60
  let on := fun day => (cfgN s 0x90 0 off 30 24).testBit (weekday day)
  let d := ls / 86400
  cfgB s 0x90 0 off 31 &&
    if start < stop then on d && decide (start ≤ m ∧ m < stop)
    else (on d && decide (start ≤ m)) || (on (d - 1) && decide (m < stop))

/-- A holiday HOL_k matches a local day. -/
def holHolds (s : State) (k day : Nat) : Bool :=
  let off := 0x080 + 4 * k
  let h := cfgN s 0x90 0 off 15 0
  cfgB s 0x90 0 off 31 && (if cfgB s 0x90 0 off 30 then monthDay h == monthDay day else h == day)

/-- A weather-window hold is running. -/
def weatherHeld (s : State) : Bool := decide (s.nowNs < s.com.weatherEnd)

/-- Friendly hours (R269). -/
def friendly (s : State) : Bool :=
  let ls := localSec s.nowNs (offsetNow s s.nowNs)
  (List.range 16).any (fun k => fhHolds s k ls) || (List.range 32).any (fun k => holHolds s k (ls / 86400))
    || weatherHeld s

/-! ### Accounts -/

/-- An account; one that is not listed is empty. -/
def account (s : State) (n : Nat) : Account := (s.com.accounts.find? (·.no == n)).getD { no := n }

/-- Accounts with one replaced, in ascending number; an empty account is not listed. -/
def putAccount (l : List Account) (a : Account) : List Account :=
  let rest := l.filter (·.no ≠ a.no)
  if a = { no := a.no } then rest else rest.filter (·.no < a.no) ++ [a] ++ rest.filter (a.no < ·.no)

/-- One account replaced by its image. -/
def updAccount (s : State) (n : Nat) (f : Account → Account) : State :=
  { s with com := { s.com with accounts := putAccount s.com.accounts (f (account s n)) } }

/-- Available credit (R268). -/
def Account.available (a : Account) : Int := a.credit + if a.act then a.emerg else 0

/-- A signed 64-bit value held within its range. -/
def sat64 (v : Int) : Int := clampInt (-9223372036854775808) 9223372036854775807 v

/-- An account with its CREDIT changed (R268): emergency credit ends as CREDIT rises above 0; in mode 1 it is activated at
0 or less (DEDUCED, log 63). -/
def Account.revise (a : Account) (credit : Int) : Account :=
  let b := { a with credit := credit }
  if a.credit ≤ 0 ∧ 0 < credit then { b with act := false, req := false }
  else if a.mode = 1 ∧ credit ≤ 0 then { b with act := true }
  else b

/-- CREDIT changed by an amount, with activation logged. -/
def creditBy (s : State) (n : Nat) (d : Int) : State :=
  let a := account s n
  let b := a.revise (sat64 (a.credit + d))
  let t := updAccount s n fun _ => b
  if b.act && !a.act then logInfo t (Config.eventCode 268) .helm n else t

/-- PREPAY_EN. -/
def prepayEn (s : State) : Bool := cfgB s 0x90 0 0x000 31

/-- The entry of the authorisation table with a token hash (R271). -/
def tableEntry (s : State) (hash : Bytes) : Option AuthEntry := s.com.table.find? (·.hash == hash)

/-- The prepayment account of a token hash: 0 to 4,095 under PREPAY_EN. -/
def prepayAccount (s : State) (hash : Bytes) : Option Nat :=
  match tableEntry s hash with
  | some e => if prepayEn s && decide (e.account < 4096) then some e.account else none
  | none => none

/-- R270: an ALLOW becomes REFUSE below START_MIN, unless a weather-window hold is running. -/
def prepayRefuses (s : State) (hash : Bytes) : Bool :=
  match prepayAccount s hash with
  | some n => decide ((account s n).available < toSigned 32 (comN s 0 0x038 31 0)) && !weatherHeld s
  | none => false

/-- The outlets' charges replaced. -/
def updCharge (s : State) (o : Fin 2) (f : Charge → Charge) : State :=
  { s with com := { s.com with charge := upd s.com.charge o f } }

/-- A debit that leaves available credit at or below 0 outside friendly hours raises the credit stop (R270). -/
def creditStop (s : State) (o : Fin 2) : State :=
  match s.com.charge[o].account with
  | some n => if (account s n).available ≤ 0 ∧ !friendly s then stopTrigger s o .credit else s
  | none => s

/-- On entry to AUTHORISED the session's charge begins and START_FEE is debited (R267). -/
def beginCharge (s : State) (o : Fin 2) (hash : Bytes) : State :=
  let acct := prepayAccount s hash
  let fee := toSigned 32 (comN s 0 0x034 31 0)
  let t := updCharge s o fun _ => { account := acct, cost := fee }
  match acct with
  | some n => creditBy t n (-fee)
  | none => t

end Sys2Proof.Machine
end

