-- ==== Sys2Proof/Machine/Operands.lean ====
section
/-!
DEFINITION. Where a law's operands come from: source codes (Table 04-2), the banks' coefficients, shifts and limits
(Table 04-6), and the fields of a parameter address (R454).
-/
namespace Sys2Proof.Machine

/-- The value of a source code (Table 04-2, R98). The current setpoint is the one in force after the limits of R26
(DEDUCED, log 12). -/
def srcVal (s : State) (code : Nat) : Int :=
  if code < 0x40 then s.sx.sd[(Fin.ofNat 64 code : Fin 64)].ctl
  else if 0x080 ≤ code ∧ code < 0x0E0 then s.sx.law[(Fin.ofNat 96 (code - 0x080) : Fin 96)].y0
  else if 0x100 ≤ code ∧ code < 0x160 then s.sx.law[(Fin.ofNat 96 (code - 0x100) : Fin 96)].y1
  else if 0x180 ≤ code ∧ code < 0x1E0 then s.sx.law[(Fin.ofNat 96 (code - 0x180) : Fin 96)].omega
  else if 0x200 ≤ code ∧ code < 0x208 then
    let g : Fin 8 := Fin.ofNat 8 (code - 0x200)
    if stageRating s g = 0 then 0 else setpoint s g / (stageRating s g : Int)
  else if 0x208 ≤ code ∧ code < 0x210 then s.sx.stage[(Fin.ofNat 8 (code - 0x208) : Fin 8)].vSet
  else if 0x210 ≤ code ∧ code < 0x220 then
    (s.cooling[(Fin.ofNat 2 ((code - 0x210) / 8) : Fin 2)].input[(Fin.ofNat 8 (code - 0x210) : Fin 8)]).value
  else 0

/-- A word of a law instance. -/
def lawN (s : State) (i : Fin 96) (off hi lo : Nat) : Nat := cfgN s 0x14 i off hi lo

/-- The base offset of a bank (Table 04-6). -/
def bankOff (b : Bool) : Nat := if b then 0x400 else 0x200

/-- Coefficient `c` of a bank. -/
def coef (s : State) (i : Fin 96) (b : Bool) (c : Nat) : Int := cfgI s 0x14 i (bankOff b + 4 * c) 31 0

/-- The shift of coefficient `c` of a bank. -/
def coefSh (s : State) (i : Fin 96) (b : Bool) (c : Nat) : Nat :=
  cfgN s 0x14 i (bankOff b + 0x100 + 4 * (c / 4)) (8 * (c % 4) + 5) (8 * (c % 4))

/-- A factor with its coefficient and shift, as `lawMac` takes it. -/
def term (s : State) (i : Fin 96) (b : Bool) (x : Int) (c : Nat) : Int × Int × Nat :=
  (x, coef s i b c, coefSh s i b c)

/-- OUT_SH of axis 0, axis 1, and of the PLL (2). -/
def outSh (s : State) (i : Fin 96) (b : Bool) (ax : Nat) : Nat := cfgN s 0x14 i (bankOff b + 0x140) (8 * ax + 4) (8 * ax)

/-- A limit word of a bank: 0 LIM_HI, 1 LIM_LO, 2 INT_HI, 3 INT_LO of an axis; of "axis" 2, PLL_HI and PLL_LO. -/
def lim (s : State) (i : Fin 96) (b : Bool) (ax k : Nat) : Int :=
  cfgI s 0x14 i (bankOff b + 0x144 + 16 * ax + 4 * k) 31 0

/-- BQ_N, CTL, FF_N, SP_SRC, FB_SRC of an axis. -/
def axBqN (s : State) (i : Fin 96) (ax : Nat) : Nat := lawN s i (0x008 + 4 * ax) 10 8
/-- CTL: 0 P, 1 PI, 2 PID. -/
def axCtl (s : State) (i : Fin 96) (ax : Nat) : Nat := lawN s i (0x008 + 4 * ax) 7 6
/-- FF_N. -/
def axFfN (s : State) (i : Fin 96) (ax : Nat) : Nat := lawN s i (0x008 + 4 * ax) 5 3
/-- SP_SRC. -/
def axSp (s : State) (i : Fin 96) (ax : Nat) : Nat := lawN s i (0x008 + 4 * ax) 31 22
/-- FB_SRC. -/
def axFb (s : State) (i : Fin 96) (ax : Nat) : Nat := lawN s i (0x008 + 4 * ax) 21 12

/-- The value of feedforward source `j` of an axis. -/
def ffVal (s : State) (i : Fin 96) (ax j : Nat) : Int :=
  let w := 0x010 + 8 * ax + 4 * (j / 2)
  srcVal s (if j % 2 = 0 then lawN s i w 9 0 else lawN s i w 25 16)

/-- INST_CFG flags: PLL_EN, DQ_EN, INV_DQ, MODE, AXES. -/
def pllEn (s : State) (i : Fin 96) : Bool := cfgB s 0x14 i 0x000 7
/-- DQ_EN. -/
def dqEn (s : State) (i : Fin 96) : Bool := cfgB s 0x14 i 0x000 6
/-- INV_DQ. -/
def invDq (s : State) (i : Fin 96) : Bool := cfgB s 0x14 i 0x000 5
/-- MODE: dq. -/
def dqMode (s : State) (i : Fin 96) : Bool := cfgB s 0x14 i 0x000 4
/-- AXES: two axes. -/
def twoAxes (s : State) (i : Fin 96) : Bool := cfgB s 0x14 i 0x000 3
/-- EN of an instance. -/
def lawEn (s : State) (i : Fin 96) : Bool := cfgB s 0x14 i 0x000 31
/-- OUT_KIND. -/
def outKind (s : State) (i : Fin 96) : Nat := lawN s i 0x000 26 25
/-- OUT_IDX. -/
def outIdx (s : State) (i : Fin 96) : Nat := lawN s i 0x000 23 16
/-- STAGE of an owned instance. -/
def lawStage (s : State) (i : Fin 96) : Option (Fin 8) :=
  if cfgB s 0x14 i 0x000 30 then some (Fin.ofNat 8 (lawN s i 0x000 29 27)) else none

/-- The stage's carrier period in steps, P_STEPS (R82), and its top in steps. -/
def topSteps (s : State) (g : Fin 8) : Nat := 16 * cfgN s 0x11 g 0x004 15 0
/-- Triangle carrier. -/
def triangle (s : State) (g : Fin 8) : Bool := cfgB s 0x11 g 0x000 8
/-- P_STEPS. -/
def pSteps (s : State) (g : Fin 8) : Nat := if triangle s g then 2 * topSteps s g else topSteps s g

/-! ### Banks and cleared instances (R113, R117) -/

/-- The stage is starting in no-sink operation: an output stage from PRECHARGE on, until the restrictions of R122 are
lifted (R113, R123) (DESIGN CHOICE, log 77). -/
def startsNoSink (s : State) (g : Fin 8) : Bool :=
  let x := s.sx.stage[g]
  x.noSinkRestr || (isOutputStage s g && decide (x.st = .precharge ∨ x.st = .closeWait ∨ x.st = .noSink))

/-- The bank that BANK_RULE wants (R113). -/
def wantBank (s : State) (i : Fin 96) : Bool :=
  match lawN s i 0x030 28 27 with
  | 1 => match lawStage s i with
    | some g => !startsNoSink s g
    | none => true
  | 2 =>
    let top := srcVal s (lawN s i 0x030 25 16) / 65536
    if cfgI s 0x14 i 0x034 31 16 ≤ top then true
    else if top < cfgI s 0x14 i 0x034 15 0 then false else s.sx.law[i].want1
  | _ => false

/-- The wanted bank of every instance followed, after a source may have changed (R113). -/
def trackBanks (s : State) : State :=
  let laws : Vector Law 96 := Vector.ofFn fun i => { s.sx.law[i] with want1 := wantBank s i }
  { s with sx := { s.sx with law := laws } }

/-- An axis from cleared state (R117); the saved feed-forward samples stay. -/
def Axis.cleared (a : Axis) : Axis := { ffLast := a.ffLast }

/-- The law instance is owned by the stage (R111). -/
def lawOf (s : State) (g : Fin 8) (i : Fin 96) : Bool :=
  cfgB s 0x14 i 0x000 30 && cfgN s 0x14 i 0x000 29 27 == g

/-- The instances of a stage start from cleared state (R117). -/
def clearLaws (s : State) (g : Fin 8) (p : Fin 96 → Bool) : State :=
  let laws : Vector Law 96 := Vector.ofFn fun i =>
    let l := s.sx.law[i]
    if lawOf s g i && p i then
      { l with
        ax0 := l.ax0.cleared, ax1 := l.ax1.cleared, iPll := 0, ovrConsec := 0, ready := none, out := none
        omRef := l.omega, omAt := s.mono, want1 := wantBank s i, bank1 := wantBank s i }
    else l
  { s with sx := { s.sx with law := laws } }

end Sys2Proof.Machine
end

