-- ==== Sys2Proof/Machine/Stage.lean ====
section
/-!
DEFINITION. The stages' commands (R25 to R28, R116 to R142, R488). An event of time ("held for", "expired") asserts that
the time has passed; its meaning still asks for the state and the momentary condition the rule names (log 7).
-/
namespace Sys2Proof.Machine

/-- Both gate permit lines are high. -/
def permitHigh (s : State) : Bool := s.lk.gpA && s.lk.gpB

/-- The number, from 1, of the first condition of R118 that fails; 0 when START is accepted. -/
def startRefusal (s : State) (g : Fin 8) : Nat :=
  if s.sx.stage[g].st ≠ .off then 1
  else if !permitHigh s then 2
  else if (soundCells s g).length < minCells s g then 3
  else if cfgB s 0x11 g 0x044 11 && decide (s.sx.stage[(Fin.ofNat 8 (cfgN s 0x11 g 0x044 10 8) : Fin 8)].st ≠ .run) then 4
  else if sdInvalid s (voutSrc s g) || (isOutputStage s g && sdInvalid s (vvehSrc s g)) then 5
  else 0

/-- An AFE3 stage other than `g` has left OFF. -/
def otherAfeUp (s : State) (g : Fin 8) : Bool :=
  (afeStages s).any fun h => decide (h ≠ g ∧ s.sx.stage[h].st ≠ .off ∧ s.sx.stage[h].st ≠ .latched)

/-- The stage leaves OFF (R117): laws cleared, cells in service, PRECHARGE; with the first AFE3 start Helm requests the
DC link precharge (R488) (DEDUCED, log 41). -/
def beginStart (s : State) (g : Fin 8) : State :=
  let t := updStage s g fun x =>
    { x with st := .precharge, fail := 0, startRefused := 0, parked := stgKind s g == 4, vSet := 0, shedHold := false, byHelm := false, vGoal := none }
  let t := updAux t g fun a => { a with vAt := s.mono }
  let t := startCells (clearLaws t g fun _ => true) g
  if stgKind s g = 4 ∧ !otherAfeUp s g then driveKinds { t with lk := { t.lk with kind3 := true } } else t

/-- An outlet whose stage refuses START is FAULTED with cause START (Table 06-7). -/
def startRefusedTo (s : State) (g : Fin 8) : State :=
  (stageOutlets s g).foldl (fun t o =>
    if t.outlet[o].st = .isolationTest ∨ t.outlet[o].st = .precharge then outletFaultBare t o .start else t) s

/-- START (R118). -/
def startStage (s : State) (g : Fin 8) : State :=
  match startRefusal s g with
  | 0 => withStages s fun t => beginStart t g
  | n => withStages (updStage s g fun x => { x with startRefused := n }) fun t => startRefusedTo t g

/-- STAGE_START (R118). -/
def execStageStart (g : Fin 8) (s : State) : Out := .next (startStage s g)

/-- STAGE_STOP (R116). -/
def execStageStop (g : Fin 8) (s : State) : Out := .next (withStages s fun t => haltStage t g none)

/-- The stage is in PRECHARGE or CLOSE_WAIT. -/
def starting (s : State) (g : Fin 8) : Bool :=
  decide (s.sx.stage[g].st = .precharge ∨ s.sx.stage[g].st = .closeWait)

/-- The start ends in OFF with FAIL, and Helm withdraws a close request. -/
def failStart (s : State) (g : Fin 8) (fail : Nat) : State :=
  let t := (stageOutlets s g).foldl (fun t o => updLko t o fun x => { x with wait := none }) s
  withStages s fun _ => afeDrop (stageOff t g (some fail)) g

/-- VEHICLE_VOLTAGE_DISAGREE (R119). -/
def execVehicleVoltageDisagree (g : Fin 8) (s : State) : Out :=
  .next (if starting s g && isOutputStage s g && !(stageOutlets s g).any (readingsAgree s g) then failStart s g 1 else s)

/-- VEHICLE_VOLTAGE_FORWARD (R28): Meridian's reading in mV reaches the Sextant die. -/
def execVehicleVoltageForward (o : Fin 2) (mV : Int) (s : State) : Out :=
  .next (updOutlet s o fun x => { x with vMer := mV, vMerAt := some s.mono })

/-- PRECHARGE_COMPLETE (R121, R122); it waits while a reading of Meridian's is older than 5 ms (R28). -/
def execPrechargeComplete (g : Fin 8) (s : State) : Out :=
  .next (if s.sx.stage[g].st = .precharge ∧ stgKind s g ≠ 4 ∧ prechargeBand s g = true
      ∧ (stageOutlets s g).all (vMerFresh s) = true then
    updStage s g fun x => { x with st := .closeWait, noSinkRestr := true } else s)

/-- CLOSE_WAIT_BAND_LOST (R121): back to PRECHARGE, and Helm withdraws the close request; the restrictions of R122 stay
until RUN. -/
def execCloseWaitBandLost (g : Fin 8) (s : State) : Out :=
  .next (if s.sx.stage[g].st = .closeWait ∧ prechargeBand s g = false then
    (stageOutlets s g).foldl (fun t o => updLko t o fun x => { x with wait := none })
      (updStage s g fun x => { x with st := .precharge })
    else s)

/-- PRE_TIMEOUT_EXPIRY (R121, R125) (DEDUCED, log 7). -/
def execPreTimeoutExpiry (g : Fin 8) (s : State) : Out := .next (if starting s g then failStart s g 2 else s)

/-- CLOSE_REFUSED (R121). -/
def execCloseRefused (g : Fin 8) (s : State) : Out :=
  .next (if s.sx.stage[g].st = .closeWait then failStart s g 3 else s)

/-- What the contactors' confirmation means to an outlet: from PRECHARGE it enters ENERGY_TRANSFER (R158); in
ISOLATION_TEST Helm moves the voltage setpoint to the smaller of V_MAX and the vehicle's maximum at PRE_RATE (R160). -/
def outletConfirmed (s : State) (g : Fin 8) (o : Fin 2) : State :=
  match s.outlet[o].st with
  | .precharge => updOutlet (enter s o .energyTransfer) o fun x => { x with tmr := { x.tmr with seq := false } }
  | .isolationTest =>
    let mV := min (cfgN s 0x20 o 0x004 31 16 * 100) (s.outlet[o].vehVMax)
    updOutlet (updAux (updStage s g fun x => { x with vGoal := some (mV * unit31 / 2000000) }) g fun a =>
      { a with vAt := s.mono }) o fun x => { x with isoStep := 2 }
  | _ => s

/-- CONTACTORS_CONFIRMED (R122): NO_SINK, with the current limit rising from 0. -/
def execContactorsConfirmed (g : Fin 8) (s : State) : Out :=
  .next (if s.sx.stage[g].st = .closeWait ∧ (stageOutlets s g).all (fun o => s.lk.outlet[o].closed) = true then
    (stageOutlets s g).foldl (fun t o => outletConfirmed (setFeedback t o false) g o)
      (reshare (updStage s g fun x => { x with st := .noSink, limNow := 0, limAt := s.mono }) g)
    else s)

/-- NO_SINK_EXIT (R123): RUN; the restrictions are lifted at the next period boundary. -/
def execNoSinkExit (g : Fin 8) (s : State) : Out :=
  .next (if s.sx.stage[g].st = .noSink ∧ iMin s g ≤ stageCur s g then
    updStage s g fun x => { x with st := .run, lift := true } else s)

/-- The reverse bound of R124, in A × 2^31. -/
def reverseBound (s : State) (g : Fin 8) : Int :=
  let rev : Int := cfgN s 0x11 g 0x03C 15 0 * unit31
  if s.sx.stage[g].st = .run then rev + s.sx.stage[g].exportLim * unit31 / 1000 else rev

/-- REVERSE_CURRENT_LATCH (R124). -/
def execReverseCurrentLatch (g : Fin 8) (s : State) : Out :=
  .next (if (s.sx.stage[g].st = .noSink ∨ s.sx.stage[g].st = .run) ∧ stageCur s g < -reverseBound s g then
    latchAndTell s g .reverse else s)

/-- The safety outputs of a kind (SO_CFG). -/
def outputsOfKind (s : State) (k : Nat) : List (Fin 8) :=
  (List.finRange 8).filter fun n => cfgN s 0x40 (0x20 + n) 0x000 31 29 == k

/-- The AC main contactor output is confirmed closed (R307). -/
def acMainClosed (s : State) : Bool :=
  !(outputsOfKind s 4).isEmpty && (outputsOfKind s 4).all fun n => s.lk.so[n].cmd && s.lk.so[n].confOn

/-- The DC link precharge output is off. -/
def linkPrechargeOff (s : State) : Bool := (outputsOfKind s 3).all fun n => !s.lk.so[n].cmd

/-- VOUT is at or above START_VMIN (0.1 V). -/
def vMinReached (s : State) (g : Fin 8) : Bool := decide (cfgN s 0x11 g 0x034 15 0 * unit31 ≤ 10 * vOut s g)

/-- The PLLs of the stage have been steady for 20 ms (R125). -/
def omegaSteady (s : State) (g : Fin 8) : Bool :=
  (List.finRange 96).all fun i => !(lawEn s i && lawOf s g i && pllEn s i) || decide (s.sx.law[i].omAt + 20 ≤ s.mono)

/-- AFE3_PRECHARGE_COMPLETE (R125): RUN directly, the voltage setpoint starting at VOUT. -/
def execAfe3PrechargeComplete (g : Fin 8) (s : State) : Out :=
  .next (if s.sx.stage[g].st = .precharge ∧ stgKind s g = 4 ∧
      (vMinReached s g && acMainClosed s && linkPrechargeOff s && omegaSteady s g) = true then
    updAux (updStage s g fun x => { x with st := .run, parked := false, vSet := vOut s g / 2000, vGoal := some x.vCmd }) g fun a =>
      { a with vAt := s.mono }
    else s)

/-- Stage `h` is supplied by stage `g`, through at most `n` DEP_EN links. -/
def suppliedBy (s : State) (g : Fin 8) : Nat → Fin 8 → Bool
  | 0, h => decide (h = g)
  | n + 1, h => decide (h = g)
      || (cfgB s 0x11 h 0x044 11 && suppliedBy s g n (Fin.ofNat 8 (cfgN s 0x11 h 0x044 10 8)))

/-- An outlet fed from the AFE3 stage, through the DEP_EN links (R488). -/
def feeds (s : State) (g : Fin 8) (o : Fin 2) : Bool :=
  match outletStage s o with
  | some h => suppliedBy s g 7 h
  | none => false

/-- R488: an outlet needs the stage, and ten seconds have passed since its last failed start. -/
def afeWanted (s : State) (g : Fin 8) : Bool :=
  (List.finRange 2).any (fun o => feeds s g o && s.outlet[o].st.pluggedOn) &&
    match s.sx.aux[g].failAt with
    | some t => decide (t + 10000 ≤ s.mono)
    | none => true

/-- Both channels hold a matching safety confirmation (R316): SAFETY_CONFIRMED. One whose value a chart brings back into use
holds again (R41; DESIGN CHOICE, log 34). -/
def safetyConfirmed (s : State) : Bool :=
  match s.lk.confA, s.lk.confB with
  | some a, some b => a.value == s.lk.checkA && b.value == s.lk.checkB && s.lk.checkA == s.lk.checkB
  | _, _ => false

/-- AFE3_AUTO_START (R488). -/
def execAfe3AutoStart (g : Fin 8) (s : State) : Out :=
  .next (if stgKind s g = 4 ∧ s.landfall.phase = 9 ∧ (safetyConfirmed s && permitHigh s && afeWanted s g) = true
      ∧ s.sx.stage[g].st = .off then startStage s g else s)

/-- AFE3_VMIN_REACHED (R488): Helm requests kind 4 on. -/
def execAfe3VminReached (g : Fin 8) (s : State) : Out :=
  .next (if s.sx.stage[g].st = .precharge ∧ stgKind s g = 4 ∧ vMinReached s g = true then
    driveKinds { s with lk := { s.lk with kind4 := true } } else s)

/-- AC_MAIN_CONFIRMED (R488): Helm requests kind 3 off. -/
def execAcMainConfirmed (s : State) : Out :=
  .next (if acMainClosed s then driveKinds { s with lk := { s.lk with kind3 := false } } else s)

/-- Every outlet the stage feeds is quiet (R488). -/
def afeQuiet (s : State) (g : Fin 8) : Bool :=
  (List.finRange 2).all fun o => !feeds s g o || decide (s.outlet[o].st = .idle)
    || (decide (s.outlet[o].st = .finished ∨ s.outlet[o].st = .faulted) && stageIsOff s o)

/-- AFE3_AUTO_STOP (R488). -/
def execAfe3AutoStop (g : Fin 8) (s : State) : Out :=
  .next (if s.sx.stage[g].st = .run ∧ stgKind s g = 4 ∧ afeQuiet s g = true then
    withStages s fun t => haltStage t g none else s)

/-- With the last AFE3 stage OFF, Helm requests kind 4 off (R488, step 4). -/
def afeAllOff (s : State) : State :=
  if (afeStages s).all (fun h => s.sx.stage[h].st = .off) && !(afeStages s).isEmpty then
    driveKinds { s with lk := { s.lk with kind4 := false } } else s

/-- The ramp's end (R126, R25): channels parked; an output stage waits for Helm and its outlet goes on to WELD_CHECK; a
stage without a vehicle side, or one that the loss of Helm ramps down, goes OFF by itself (DEDUCED, log 41). -/
def endRamp (s : State) (g : Fin 8) : State :=
  if s.sx.stage[g].byHelm = true ∨ isOutputStage s g = false then afeAllOff (stageOff s g none)
  else
    let t := parkChannels (updStage s g fun x => { x with parked := true }) g fun _ => true
    (stageOutlets t g).foldl (fun u o => if u.outlet[o].st = .rampDown then enter u o .weldCheck else u) t

/-- RAMP_DOWN_COMPLETE (R126). -/
def execRampDownComplete (g : Fin 8) (s : State) : Out :=
  .next (if s.sx.stage[g].st = .rampDown ∧ stageCur s g < iMin s g then withStages s fun t => endRamp t g else s)

/-- The stage has active discharge (R127). -/
def canDischarge (s : State) (g : Fin 8) : Bool :=
  cfgB s 0x11 g 0x044 23 && (stgKind s g == 3 || stgKind s g == 5)

/-- DISCHARGE_REQUEST (R126): once the contactors are open, DISCHARGE, or OFF without active discharge. -/
def execDischargeRequest (g : Fin 8) (s : State) : Out :=
  .next (if s.sx.stage[g].st = .rampDown ∧ s.sx.stage[g].parked = true
      ∧ (stageOutlets s g).all (fun o => !s.lk.outlet[o].closed) = true then
    if canDischarge s g then reshare (updStage s g fun x => { x with st := .discharge, parked := false, noSinkRestr := false }) g
    else withStages s fun t => stageOff t g none
    else s)

/-- DISCHARGE_COMPLETE (R127). -/
def execDischargeComplete (g : Fin 8) (s : State) : Out :=
  .next (if s.sx.stage[g].st = .discharge ∧ vOut s g < 50 * unit31 then withStages s fun t => stageOff t g none else s)

/-- DISCH_T_EXPIRY (R127). -/
def execDischTExpiry (g : Fin 8) (s : State) : Out :=
  .next (if s.sx.stage[g].st = .discharge then withStages s fun t => stageOff t g (some 4) else s)

/-- A Compass rose move is due or under way (R84, R130). -/
def roseMoving (s : State) (g : Fin 8) : Bool :=
  s.sx.stage[g].needTargets || (stageCells s g).any fun c => s.sx.cell[c].roseEff ≠ s.sx.cell[c].roseTgt

/-- A shed or an add is in progress. -/
def ramping (s : State) (g : Fin 8) : Bool :=
  (stageCells s g).any fun c => s.sx.cell[c].ramps

/-- R130: nothing forbids a shed or an add. -/
def mayRamp (s : State) (g : Fin 8) : Bool := !ramping s g && !roseMoving s g && !hasEstimated s g

/-- The shed condition of R128. -/
def shedWanted (s : State) (g : Fin 8) : Bool :=
  let n := (liveCells s g).length
  cfgB s 0x11 g 0x048 31 && decide (s.sx.stage[g].st = .run ∧ minCells s g < n
    ∧ 100 * stageCur s g ≤ cfgN s 0x11 g 0x048 30 24 * ((n - 1 : Nat) : Int) * (iCellMax s g * unit31))

/-- SHED_START (R128 to R130): the highest-numbered cell in service. -/
def execShedStart (g : Fin 8) (s : State) : Out :=
  .next (if shedWanted s g && mayRamp s g && !s.sx.stage[g].shedHold then
    match ((stageCells s g).filter fun c => s.sx.cell[c].st = .inService).getLast? with
    | some c => reshare (updCell s c fun x => { x with st := .shedding, ramp := 0 }) g
    | none => s
    else s)

/-- The add condition of R128. -/
def addWanted (s : State) (g : Fin 8) : Bool :=
  let n := (liveCells s g).length
  cfgB s 0x11 g 0x048 31 && decide (s.sx.stage[g].st = .run
    ∧ cfgN s 0x11 g 0x048 23 17 * (n : Int) * (iCellMax s g * unit31) ≤ 100 * stageCur s g)

/-- The instance writes the cell (INST_CFG). -/
def lawOfCell (s : State) (c : Fin 48) (i : Fin 96) : Bool :=
  cfgN s 0x14 i 0x000 26 25 == 1 && cfgN s 0x14 i 0x000 23 16 == c

/-- ADD_START (R128 to R130): the lowest-numbered shed cell, its instance cleared. -/
def execAddStart (g : Fin 8) (s : State) : Out :=
  .next (if addWanted s g && mayRamp s g then
    match (stageCells s g).find? fun c => s.sx.cell[c].st = .shed with
    | some c =>
      let t := clearLaws (updCell s c fun x => { x with st := .adding, ramp := 0 }) g (lawOfCell s c)
      reshare (updStage t g fun x => { x with needTargets := true }) g
    | none => s
    else s)

/-- SHED_RAMP_END (R129): the shedding cell of a running stage is parked and shed. -/
def execShedRampEnd (g : Fin 8) (s : State) : Out :=
  .next (match (stageCells s g).find? fun c => s.sx.stage[g].st.running && decide (s.sx.cell[c].st = .shedding) with
    | some c =>
      let t := updCell (parkCell s g c) c fun x => { x with st := .shed, ramp := 0 }
      let t := updAux (updStage t g fun x => { x with needTargets := true }) g fun a =>
        { a with shedCnt := satInc 16 a.shedCnt }
      reshare t g
    | none => s)

/-- ADD_RAMP_END (R129), of a running stage. -/
def execAddRampEnd (g : Fin 8) (s : State) : Out :=
  .next (match (stageCells s g).find? fun c => s.sx.stage[g].st.running && decide (s.sx.cell[c].st = .adding) with
    | some c =>
      reshare (updAux (updCell s c fun x => { x with st := .inService, ramp := 0 }) g fun a =>
        { a with addCnt := satInc 16 a.addCnt }) g
    | none => s)

/-- FIRE_REARM (R132) (DEDUCED, log 15). -/
def execFireRearm (g : Fin 8) (s : State) : Out :=
  .next (if s.sx.stage[g].firing then s else updStage s g fun x => { x with armed := true })

/-- SHED_HOLD_END (R134). -/
def execShedHoldEnd (g : Fin 8) (s : State) : Out :=
  .next (updStage s g fun x => { x with shedHold := false })

/-- CBC_LATCH (R135): truncation in the CBC_N-th consecutive period. -/
def execCbcLatch (c : Fin 48) (s : State) : Out :=
  .next (match cellStage s c with
    | some g =>
      if s.sx.stage[g].st.running && decide (cfgN s 0x11 g 0x050 31 24 ≤ s.sx.cell[c].cbcRun + flag s.sx.cell[c].cbcHit)
      then latchAndTell s g .cbc else s
    | none => s)

/-- OCL_LATCH (R135): stage current above I_LATCH, which 0 disables. -/
def execOclLatch (g : Fin 8) (s : State) : Out :=
  .next (if cfgN s 0x11 g 0x050 15 0 ≠ 0 ∧ s.sx.stage[g].st.running = true
      ∧ cfgN s 0x11 g 0x050 15 0 * unit31 < stageCur s g then latchAndTell s g .ocl else s)

/-- The open-failure condition of R138. A cell in SHEDDING that fails open is retired too (Table 05-4). -/
def cellOpen (s : State) (g : Fin 8) (c : Fin 48) : Bool :=
  let x := s.sx.cell[c]
  decide ((x.st = .inService ∨ x.st = .shedding) ∧ iCellMax s g ≤ 10 * x.share
    ∧ 100 * cellCur s g c < 5 * x.share * unit31)

/-- CELL_OPEN_RETIRE (R138, R139) (DEDUCED, log 7). -/
def execCellOpenRetire (c : Fin 48) (s : State) : Out :=
  .next (match cellStage s c with
    | some g => if s.sx.stage[g].st.running && cellOpen s g c then withStages s fun t => retireCell t g c 1 else s
    | none => s)

/-- EST_T_EXPIRY (R140): the estimated cell of a running stage is ramped out over SHED_RAMP periods, after which
ROSE_MOVE_STEP retires it with cause SENSE. -/
def execEstTExpiry (c : Fin 48) (s : State) : Out :=
  .next (match cellStage s c with
    | some g =>
      if s.sx.stage[g].st.running = true ∧ s.sx.cell[c].st = .estimated ∧ sdInvalid s (cellSrc s c) = true then
        reshare (updCell s c fun x => { x with rampOut := true, ramp := 0 }) g
      else s
    | none => s)

/-- The voltage setpoint that Helm's makes: in PRECHARGE and CLOSE_WAIT of an output stage, and in the isolation test, the
stage's own stays (R120, R160); an AFE3 stage in RUN takes it as the goal of its own (R125); else it is Helm's at once. -/
def takeVSet (s : State) (g : Fin 8) (v : Int) (x : Stage) : Stage :=
  if starting s g && isOutputStage s g then x
  else if stgKind s g = 4 ∧ x.st = .run then { x with vGoal := some v }
  else if x.vGoal.isSome then x
  else { x with vSet := v }

/-- LANE_SETPOINT_UPDATE (R26, R139): Helm's setpoints reach the Sextant die. -/
def execLaneSetpointUpdate (g : Fin 8) (iSet vSet : Int) (s : State) : Out :=
  .next (if s.sx.up then
    let t := updStage s g fun x => { takeVSet s g vSet x with iSet := iSet, vCmd := vSet }
    let t := updAux t g fun a => { a with vAt := if s.sx.stage[g].vGoal.isSome ∨ starting s g = true then a.vAt else s.mono }
    trackBanks (resplit s (followLimit t g))
    else s)

/-- POST_SPLIT_RECOMPUTE (R27). -/
def execPostSplitRecompute (s : State) : Out := .next (postSplit s)

/-- LANE_HEARTBEAT (R25): a returning heartbeat makes the Sextant die report HELM_LOST. -/
def execLaneHeartbeat (s : State) : Out :=
  .next (if s.landfall.helmUp && s.sx.up then
    let t := { s with sx := { s.sx with beating := true, helmLost := false } }
    if s.sx.helmLost then logClear t 0x0406 .sextant 0 else t
    else s)

/-- A stage without Helm's heartbeat, or whose post share has become too old (R25, R28). -/
def loseHelm (s : State) (g : Fin 8) : State :=
  let t := haltStage s g (some 6)
  if t.sx.stage[g].st = s.sx.stage[g].st then t else updStage t g fun x => { x with byHelm := true }

/-- The post share is older than 1,000 ms: the stages act as on a lost heartbeat (R28) (DEDUCED, log 7). -/
def ageShare (s : State) : State :=
  match s.sx.shareAt with
  | some t =>
    if t + 1000 < s.mono then
      withStages { s with sx := { s.sx with shareAt := none } } fun u => (List.finRange 8).foldl loseHelm u
    else s
  | none => s

/-- HEARTBEAT_LOSS (R25). -/
def execHeartbeatLoss (s : State) : Out :=
  .next (if s.sx.beating then
    let t := logDetect { s with sx := { s.sx with beating := false, helmLost := true } } 0x0406 .sextant 0
    withStages t fun u => (List.finRange 8).foldl loseHelm u
    else s)

end Sys2Proof.Machine
end

