-- ==== Sys2Proof/Machine/LookoutOps.lean ====
section
/-!
DEFINITION. What Lookout's commands share: which safety functions act (Table 12-3), the gate permit and energisation
permit (R310, R313), closing and unlocking (R308, SF5), and `settle`, which brings Lookout's outputs up to date after
every command and tells the other dies.
-/
namespace Sys2Proof.Machine

/-! ### Inputs -/

/-- SI_CFG.TYPE (Table 12-2). -/
def siType (s : State) (n : Fin 16) : Nat := cfgN s 0x40 (0x10 + n) 0x000 31 30

/-- Each line shows demand (Table 12-2). -/
def lineDemand (s : State) (n : Fin 16) (a b : Bool) : Bool × Bool :=
  if siType s n = 0 then (false, false) else if siType s n = 2 then (!a, b) else (!a, !b)

/-- The input is in demand (R302, R304): a line shows it, or a fault holds it. -/
def inDemand (s : State) (n : Fin 16) : Bool :=
  decide (siType s n ≠ 0) && match s.lk.si[n].st with
    | .run => false
    | _ => true

/-- Some input of a mask is in demand. -/
def maskDemand (s : State) (hi lo : Nat) : Bool :=
  (List.finRange 16).any fun n => (cfgN s 0x40 0 0x024 hi lo).testBit n && inDemand s n

/-! ### Safety functions -/

/-- SF1 demand. -/
def sf1Demand (s : State) : Bool := maskDemand s 31 16
/-- SF3 demand. -/
def sf3Demand (s : State) : Bool := maskDemand s 15 0

/-- SAFE_PEERk is enabled. -/
def peerEn (s : State) (k : Fin 16) : Bool := cfgB s 0x40 0x40 (0x010 + 4 * k) 31

/-- An entry's part in SF9 (R334): a stop, or its watchdog run out with that of its partner, if it has one. -/
def peerTrips (s : State) (ch : Fin 2) (k : Fin 16) : Bool :=
  let c := s.safe.chan[ch]
  let partner : Fin 16 := Fin.ofNat 16 (cfgN s 0x40 0x40 (0x010 + 4 * k) 27 24)
  peerEn s k && (c.peer[k].stop || (c.peer[k].expired &&
    (!cfgB s 0x40 0x40 (0x010 + 4 * k) 30 || (c.peer[partner]).expired)))

/-- SF9 demand, in either channel (R296, R334). -/
def sf9Demand (s : State) : Bool :=
  (List.finRange 2).any fun ch => (List.finRange 16).any fun k => peerTrips s ch k

/-- SF9 latches: by an entry from which a pair has been delivered (R334). -/
def sf9Latches (s : State) : Bool :=
  (List.finRange 2).any fun ch => (List.finRange 16).any fun k => peerTrips s ch k && (s.safe.chan[ch]).peer[k].got

/-- An outlet's input of LKO_CFG is used and in demand. -/
def outletInput (s : State) (o : Fin 2) (en hi lo : Nat) : Bool :=
  cfgB s 0x40 (0x30 + o) 0x000 en && inDemand s (Fin.ofNat 16 (cfgN s 0x40 (0x30 + o) 0x000 hi lo))

/-- The outlet's holster condition (R37, R314). -/
def holsterOk (s : State) (o : Fin 2) : Bool :=
  !cfgB s 0x40 (0x30 + o) 0x000 13 || s.lk.outlet[o].holster == 2

/-- The functions of OUTLET scope that act on an outlet, in ascending number (Table 12-3). -/
def outletFns (s : State) (o : Fin 2) : List Nat :=
  let x := s.lk.outlet[o]
  (if cfgB s 0x40 (0x30 + o) 0x000 13 && (outletInput s o 13 31 28 || x.holster != 2) then [2] else [])
    ++ (if x.snd.trip || x.snd.stFail then [4] else [])
    ++ (if x.lockFb then [] else [6])
    ++ (if s.lk.sf7[o] || outletInput s o 12 27 24 then [7] else [])
    ++ (if outletInput s o 11 23 20 then [8] else [])
    ++ (if x.blocked then [10] else [])

/-- The functions of MODULE scope that act: in demand or latched. -/
def moduleFns (s : State) : List Nat :=
  (if s.lk.sf1 || sf1Demand s then [1] else []) ++ (if sf3Demand s then [3] else [])
    ++ (if s.lk.sf9 || sf9Demand s then [9] else [])

/-- SO_CFG.SO_KIND. -/
def soKind (s : State) (n : Fin 8) : Nat := cfgN s 0x40 (0x20 + n) 0x000 31 29

/-- FB_EN. -/
def fbEn (s : State) (n : Fin 8) : Bool := cfgB s 0x40 (0x20 + n) 0x000 28

/-- T_FB in ms. -/
def tFb (s : State) (n : Fin 8) : Nat := cfgN s 0x40 (0x20 + n) 0x000 27 20

/-- A readback fault of an output of kinds 3 to 5, whose scope is MODULE (R306, DEDUCED, log 16). -/
def moduleReadback (s : State) : Bool :=
  (List.finRange 8).any fun n => decide (3 ≤ soKind s n ∧ soKind s n ≤ 5 ∧ s.lk.so[n].fault = 1)

/-- The conditions of the gate permit lines (R297, R298, R313); on a manager, and from Moored down, every output is off (R8,
Table 20-4). -/
def gpOk (s : State) : Bool :=
  s.lk.runA && s.lk.runB && s.lk.agreed && !s.lk.restarting && safetyConfirmed s && s.lk.landfallDone && !s.lk.xcmp
    && (moduleFns s).isEmpty && !moduleReadback s && decide (s.pwr.rung.code < 3) && !isManager s

/-- Energisation permit of an outlet (R310). -/
def permit (s : State) (o : Fin 2) : Bool :=
  gpOk s && (outletFns s o).isEmpty && decide (s.lk.so[soPos s o].fault ≠ 1 ∧ s.lk.so[soNeg s o].fault ≠ 1)

/-! ### Outputs -/

/-- Both feedbacks of an output read open-main, or the confirmation that stands in for them (R307). -/
def readsOpen (s : State) (n : Fin 8) : Bool :=
  if fbEn s n then s.lk.so[n].fba && s.lk.so[n].fbb else s.lk.so[n].confOff

/-- Both feedbacks of both contactors of an outlet read open-main. -/
def outletOpen (s : State) (o : Fin 2) : Bool := readsOpen s (soPos s o) && readsOpen s (soNeg s o)

/-- What the permits make of an output. -/
def nextOut (s : State) (n : Fin 8) : SafeOut :=
  let x := s.lk.so[n]
  let drive := fun (b : Bool) => if b && x.fault == 0 then x.on s.mono else x.off s.mono
  match soKind s n with
  | 1 => if permit s 0 && decide (x.fault = 0) then x else x.off s.mono
  | 2 => if permit s 1 && decide (x.fault = 0) then x else x.off s.mono
  | 3 => drive (gpOk s && s.lk.kind3)
  | 4 => drive (gpOk s && s.lk.kind4)
  | 5 => drive (gpOk s)
  | _ => x.off s.mono

/-- Lookout's outputs, permit lines and latches brought up to date. -/
def lkDrive (s : State) : State :=
  let s := { s with lk := { s.lk with
    sf1 := s.lk.sf1 || sf1Demand s
    sf9 := s.lk.sf9 || sf9Latches s
    sf7 := Vector.ofFn fun o => s.lk.sf7[o] || outletInput s o 12 27 24 } }
  let g := gpOk s
  let s := { s with lk := { s.lk with kind3 := s.lk.kind3 && g, kind4 := s.lk.kind4 && g } }
  let outs : Vector SafeOut 8 := Vector.ofFn fun n => nextOut s n
  let s := { s with lk := { s.lk with so := outs, gpA := g, gpB := g } }
  let lks : Vector LkOutlet 2 := Vector.ofFn fun o =>
    let x := s.lk.outlet[o]
    let acts := moduleFns s ++ outletFns s o
    { x with
      closed := x.closed && s.lk.so[soPos s o].cmd && s.lk.so[soNeg s o].cmd
      lastSf := if x.hadPermit && !permit s o then acts.headD x.lastSf else x.lastSf
      hadPermit := permit s o }
  { s with lk := { s.lk with outlet := lks } }

/-! ### Closing and unlocking -/

/-- The first condition of R308 that fails, from 1; 6 for a latched fault of an output (log 16); 0: close. -/
def closeRefusal (s : State) (o : Fin 2) (vOut : Nat) : Nat :=
  let x := s.lk.outlet[o]
  let latched : Bool := match outletStage s o with
    | some g => decide (s.sx.stage[g].st = .latched)
    | none => false
  if !permit s o then 1
  else if !outletOpen s o then 2
  else if latched then 3
  else if 10000 ≤ ((vOut : Int) - x.vL).natAbs then 4
  else if s.outlet[o].vMer.natAbs * 2 + 500000 < (x.vL - s.outlet[o].vMer).natAbs * 100 then 5
  else if s.lk.so[soPos s o].fault ≠ 0 ∨ s.lk.so[soNeg s o].fault ≠ 0 then 6
  else 0

/-- A close request has to wait: self-test, or within T_FB of an open (Table 12-4a). -/
def closeWaits (s : State) (o : Fin 2) : Bool :=
  let within := fun n : Fin 8 => let x := s.lk.so[n]
    !x.cmd && !x.confOff && decide (s.mono < x.since + tFb s n)
  (s.lk.outlet[o]).snd.stRun || within (soPos s o) || within (soNeg s o)

/-- A close request judged (R308). -/
def judgeClose (s : State) (o : Fin 2) (vOut : Nat) : State :=
  match closeRefusal s o vOut with
  | 0 =>
    let t := updSo (updSo s (soPos s o) (SafeOut.on s.mono)) (soNeg s o) (SafeOut.on s.mono)
    updLko t o fun x => { x with closed := true, wait := none, refused := 0 }
  | k => updLko s o fun x => { x with wait := none, refused := k }

/-- Waiting close requests that need wait no longer are judged. -/
def judgeWaiting (s : State) : State :=
  (List.finRange 2).foldl (fun t o => match (t.lk.outlet[o]).wait with
    | some w => if closeWaits t o then t else judgeClose t o w.vOut
    | none => t) s

/-- CM0 of R321: the mean of the last settled half-period, of the last eight, in which ISO_INJ was low. -/
def cmLow (x : Sounding) : Option Int := (x.halves.find? fun h => h.settled && h.low).map (·.mean)

/-- U+ and U− as SF5 takes them (R321), in mV. -/
def sf5Poles (x : LkOutlet) : Int × Int :=
  match cmLow x.snd with
  | some c => (c + x.vL / 2, c - x.vL / 2)
  | none => (x.uP, x.uN)

/-- SF5's conditions for releasing the lock (R310). -/
def sf5Ok (s : State) (o : Fin 2) : Bool :=
  let x := s.lk.outlet[o]
  !s.lk.so[soPos s o].cmd && !s.lk.so[soNeg s o].cmd && outletOpen s o
    && decide (x.vL.natAbs < 60000 ∧ (sf5Poles x).1.natAbs < 60000 ∧ (sf5Poles x).2.natAbs < 60000)

/-- Both vehicle-side readings, VVEH_SRC and Meridian's, are below 60 V (R158, R163). -/
def below60 (s : State) (o : Fin 2) : Bool :=
  match outletStage s o with
  | some g => decide (vVeh s g < 60 * unit31 ∧ s.outlet[o].vMer < 60000)
  | none => true

/-- Requested unlocks that SF5 no longer withholds are performed; T_LOCK starts (Table 06-5). In FAULTED both vehicle-side
readings are to be below 60 V besides (R163). -/
def releaseLocks (s : State) : State :=
  (List.finRange 2).foldl (fun t o =>
    if (t.lk.outlet[o]).unlockAsked && (t.lk.outlet[o]).lock && sf5Ok t o
        && (decide (t.outlet[o].st ≠ .faulted) || below60 t o) then
      updOutlet (updLko t o fun x => { x with lock := false }) o fun x => { x with tmr := { x.tmr with lock := true } }
    else t) s

/-! ### What the other dies make of it -/

/-- From ISOLATION_TEST to UNLOCK (R310). -/
def OutSt.energised : OutSt → Bool
  | .isolationTest => true | .precharge => true | .energyTransfer => true | .rampDown => true
  | .weldCheck => true | .discharge => true | .unlock => true
  | _ => false

/-- From PLUGGED to AUTHORISED (R310). -/
def OutSt.early : OutSt → Bool
  | .plugged => true | .cableCheck => true | .identified => true | .authorised => true
  | _ => false

/-- SF1, SF7, SF9 or SF10 acts on an outlet. -/
def stopsEarly (s : State) (o : Fin 2) : Bool :=
  (moduleFns s).contains 1 || (moduleFns s).contains 9 || (outletFns s o).contains 7 || (outletFns s o).contains 10

/-- In UNLOCK, permit gone through the lock's own release alone is no fault (DEDUCED, log 17). -/
def releasedOnly (t : State) (o : Fin 2) : Bool :=
  decide (t.outlet[o].st = .unlock) && !(t.lk.outlet[o]).lock && gpOk t && outletFns t o == [6]

/-- The fault that a change from `s` to `t` means to an outlet (R310) (DEDUCED, log 17). -/
def safetyNews (s t : State) (o : Fin 2) : Option OutFault :=
  let st := t.outlet[o].st
  if (s.lk.outlet[o]).hadPermit && !(t.lk.outlet[o]).hadPermit && st.energised && !releasedOnly t o then
    some (if (outletFns t o).contains 4 then .insulation else .safety)
  else if st.early && stopsEarly t o && !stopsEarly s o then some .safety
  else none

/-- The functions that act, other than the one recorded in LAST_SF, are logged (R323). -/
def logOthers (s t : State) (o : Fin 2) : State :=
  if (s.lk.outlet[o]).hadPermit && !(t.lk.outlet[o]).hadPermit then
    ((moduleFns t ++ outletFns t o).filter (· ≠ (t.lk.outlet[o]).lastSf)).foldl
      (fun u f => logInfo u (Config.eventCode 323) .lookout f) t
  else t

/-- The vehicle side of an outlet's stage is presented (R120). -/
def vehiclePresented (s : State) (o : Fin 2) : Bool :=
  match outletStage s o with
  | some g => presented s g
  | none => false

/-- START of the stage that feeds an outlet. -/
def startStageOf (s : State) (o : Fin 2) : State :=
  match outletStage s o with
  | some g => startStage s g
  | none => s

/-- One transition of Table 06-6 and R160 whose conditions hold: AUTHORISED to ISOLATION_TEST (while Meridian
meters, R40, Table 17-8), the steps of the isolation test, and ISOLATION_TEST to PRECHARGE. -/
def progressOnce (s : State) (o : Fin 2) : State :=
  let x := s.outlet[o]
  match x.st with
  | .authorised =>
    if x.cableReq && (s.lk.outlet[o]).lockFb && permit s o && s.mer.up then
      updOutlet (updLko (enter s o .isolationTest) o fun y => { y with snd := { y.snd with stDue := true } }) o fun y =>
        { y with isoStep := 0, soundPass := false, tmr := { y.tmr with iso := true } }
    else s
  | .isolationTest =>
    if x.isoStep = 0 then
      if stageIsOff s o && !vehiclePresented s o then
        startStageOf (updOutlet s o fun y => { y with isoStep := 1 }) o else s
    else if x.isoStep = 3 then
      if x.soundPass then stopStageOf (updOutlet s o fun y => { y with isoStep := 4 }) o else s
    else if x.isoStep = 4 then
      if stageIsOff s o && outletOpen s o then updOutlet s o fun y => { y with isoStep := 5 } else s
    else if x.isoStep = 5 ∧ x.preReq = true then
      startStageOf (updOutlet (enter s o .precharge) o fun y => { y with tmr := { y.tmr with iso := false } }) o
    else s
  | _ => s

/-- An outlet taken as far as its conditions allow (DESIGN CHOICE, log 10). -/
def progress (s : State) (o : Fin 2) : State := progressOnce (progressOnce (progressOnce s o) o) o

/-- After a command that changed `s` to `t`: outputs, waiting requests and locks; then the gate permit's fall latches
every stage that was not off (R21), the outlets' faults follow (R310), and outlets that waited go on (Table 06-6). -/
def settle (s t : State) : State :=
  let u := releaseLocks (judgeWaiting (lkDrive t))
  let u := logOthers s (logOthers s u 0) 1
  let fell := s.lk.gpA && !u.lk.gpA
  let v := if fell then withStages u fun w => (List.finRange 8).foldl (fun x g => latchStage x g .permit) w else u
  let v := (List.finRange 2).foldl (fun w o => match safetyNews s u o with
    | some c => if w.outlet[o].st.faultable then outletFault w o c else w
    | none => w) v
  progress (progress v 0) 1

/-- Helm asks for the lock (R169): T_LOCK starts. -/
def driveLock (s : State) (o : Fin 2) : State :=
  updOutlet (updLko s o fun x => { x with lock := true, unlockAsked := false }) o fun x =>
    { x with tmr := { x.tmr with lock := true } }

/-- Helm asks Lookout to open an outlet's contactors. -/
def openContactors (s : State) (o : Fin 2) : State :=
  let t := updSo (updSo s (soPos s o) (SafeOut.off s.mono)) (soNeg s o) (SafeOut.off s.mono)
  updLko t o fun x => { x with closed := false, wait := none }

/-- Helm asks for unlock (R310, SF5). -/
def askUnlock (s : State) (o : Fin 2) : State :=
  releaseLocks (updLko s o fun x => { x with unlockAsked := true })

end Sys2Proof.Machine
end

