-- ==== Sys2Proof/Machine/SiteOps.lean ====
section
/-!
DEFINITION. What the site links, the manager and the worker share: identity, the link key (R330), sequence order,
sending on Turxel (R327), the health word (Table 15-4), quorum (R376) and the BEACON payload (Table 15-2).
-/
namespace Sys2Proof.Machine

/-- NODE_ID. -/
def nodeId (s : State) : Nat := cfgN s 0x50 0 0x004 9 0

/-- SITE_ID. -/
def siteId (s : State) : Nat := cfgN s 0x50 0 0x004 31 16

/-- LINK_SLOT. -/
def linkSlot (s : State) : Fin 128 := Fin.ofNat 128 (cfgN s 0x50 0 0x008 6 0)

/-- RANK of this module: 1 for the preferred manager (R369). -/
def myRank (s : State) : Bool := s.landfall.role == 1

/-- Helm runs: its firmware is started and no activation pauses it (R24, Table 13-5). -/
def helmRuns (s : State) : Bool := s.landfall.helmUp && !s.fw[0].activating

/-- The links run as the chart sets them: not in a chart hold (R43). -/
def linksUp (s : State) : Bool := !s.landfall.holdChart

/-- `b` is newer than `a` in the sense of R330. -/
def seqNewer (b a : Nat) : Bool := let d := (b + 2 ^ 32 - a) % 2 ^ 32; decide (1 ≤ d ∧ d ≤ 2 ^ 31 - 1)

/-! ### Key slots (R419, R421) -/

/-- USAGE of a slot. -/
def Slot.usage (x : Slot) : Nat := (x.attrs.getD 0 0).toNat
/-- ALG of a slot. -/
def Slot.alg (x : Slot) : Nat := (x.attrs.getD 1 0).toNat
/-- ROLES of a slot. -/
def Slot.roles (x : Slot) : Nat := (x.attrs.getD 2 0).toNat
/-- PARENT of a slot. -/
def Slot.parent (x : Slot) : Nat := (x.attrs.getD 3 0xFF).toNat
/-- FLAGS of a slot. -/
def Slot.flags (x : Slot) : Nat := (x.attrs.getD 4 0).toNat
/-- LEN of a slot (big-endian, as the frame fields are). -/
def Slot.len (x : Slot) : Nat := beNat (slice x.attrs 6 2)

/-- `n` operations of a slot counted in SLOT_USES (R426). -/
def useSlot (s : State) (k : Fin 128) (n : Nat) : State :=
  updSlot s k fun x => { x with uses := min 4294967295 (x.uses + n) }

/-- The link key as LINK_SLOT holds it: VALID, of MAC usage, open to Helm's internal use (R330, R421). -/
def linkKeyOf (s : State) : Option Bytes :=
  let x := s.locker.slot[linkSlot s]
  if x.st = .valid ∧ x.usage = 7 ∧ x.roles.testBit 4 then some x.material else none

/-- H-NET and the Log-line modem load their working copy of the link key (R330). -/
def loadLinkKey (s : State) : State := { s with txl := { s.txl with key := linkKeyOf s } }

/-! ### Turxel frames (R327, R330) -/

/-- One port replaced by its image. -/
def updTxlPort (s : State) (p : Fin 2) (f : TxlPort → TxlPort) : State :=
  { s with txl := { s.txl with port := upd s.txl.port p f } }

/-- PORT_CFG.EN. -/
def txlEn (s : State) (p : Fin 2) : Bool := cfgB s 0x50 (1 + p) 0x000 31

/-- The 16-byte Turxel header (Table 13-1). -/
def txlHeader (s : State) (cls : TxlClass) (portB : Bool) (len dst lseq : Nat) : Bytes :=
  toBe 1 (0x10 + cls.code) ++ toBe 1 (flag portB) ++ toBe 2 len ++ toBe 2 (siteId s) ++ toBe 2 (nodeId s) ++ toBe 2 dst
    ++ toBe 4 lseq ++ toBe 2 0

/-- LINK_MAC (R330). -/
def linkMac (key : Bytes) (header payload : Bytes) : Bytes := (hmac key (header ++ payload)).take 8

/-- The index of a class. -/
def clsIdx : TxlClass → Fin 5
  | .safe => 0 | .ctrl => 1 | .beacon => 2 | .host => 3 | .bulk => 4

/-- The class of a code (Table 13-2). -/
def classOf (code : Nat) : Option TxlClass :=
  [TxlClass.safe, .ctrl, .beacon, .host, .bulk].find? fun c => c.code == code

/-- PCP of a class (Table 13-2). -/
def clsPcp : TxlClass → Nat
  | .safe => 7 | .ctrl => 5 | .beacon => 6 | .host => 4 | .bulk => 1

/-- A class's place in the strict priority of R329, 0 first. -/
def clsPrio : TxlClass → Nat
  | .safe => 0 | .beacon => 1 | .ctrl => 2 | .host => 3 | .bulk => 4

/-- A port's MAC address as six bytes. -/
def portMac (p : Fin 2) : Bytes := (List.range 6).map (Config.macByte p)

/-- The Ethernet frame that carries a Turxel frame on a port (R327): the 802.1Q tag, the padding to 46 bytes and the FCS as IEEE
802.3 has them (PRESUMED, log 58); which MAC address a node has the manual does not say (free, log 58). -/
def etherFrame (s : State) (p : Fin 2) (cls : TxlClass) (dst : Nat) (body : Bytes) : Bytes :=
  let tag : Bytes := if cfgB s 0x50 0 0x000 15 then toBe 2 0x8100 ++ toBe 2 (clsPcp cls * 8192 + cfgN s 0x50 0 0x000 11 0) else []
  let f := toBe 6 (Config.unstated 327 dst % 2 ^ 48).toNat ++ portMac p ++ tag ++ toBe 2 (cfgN s 0x50 0 0x000 31 16)
    ++ body ++ List.replicate (46 - body.length) 0
  f ++ (toBe 4 (crc32 f)).reverse

/-! ### Egress (R329) -/

/-- A port's rate in bits a millisecond. -/
def portRate (x : TxlPort) : Nat := if x.speed then 1000000 else 100000

/-- BULK_RATE in bits a millisecond. -/
def bulkRate (s : State) : Nat := cfgN s 0x50 0 0x00C 9 0 * 1000

/-- A frame's transmission begins; once begun it is completed. -/
def beginFrame (x : TxlPort) (c : TxlClass) (f : Bytes) : TxlPort :=
  { x with wire := f, debt := x.debt + 8 * f.length
           bulkDebt := if c = .bulk then x.bulkDebt + 8 * f.length else x.bulkDebt }

/-- The waiting frame that goes next, if any may: strict priority, BULK within its rate. -/
def nextFrame (x : TxlPort) (bulkMs : Nat) : Option (TxlClass × Bytes) :=
  (List.range 5).findSome? fun k => x.queue.find? fun q =>
    clsPrio q.1 == k && (decide (q.1 ≠ .bulk) || decide (x.bulkDebt < bulkMs))

/-- Waiting frames begun within a millisecond (fuel: at most one turn for each). -/
def drainQueue (bulkMs : Nat) : Nat → TxlPort → TxlPort
  | 0, x => x
  | n + 1, x => if portRate x ≤ x.debt then x else match nextFrame x bulkMs with
    | some q => drainQueue bulkMs n (beginFrame { x with queue := x.queue.erase q } q.1 q.2)
    | none => x

/-- A frame handed to a port whose link is up: begun at once on a free wire, else queued; BULK only as far as the queue holds
it, whose size the manual does not give (free, log 58). -/
def enqueue (x : TxlPort) (c : TxlClass) (f : Bytes) : TxlPort :=
  if !x.link then x
  else if x.debt = 0 ∧ x.queue.isEmpty ∧ (c ≠ .bulk ∨ x.bulkDebt = 0) then beginFrame x c f
  else if c = .bulk ∧ Config.bulkQueue ≤ (x.queue.filter fun q => q.1 == .bulk).length then
    { x with txOvf := satInc 16 x.txOvf }
  else { x with queue := x.queue ++ [(c, f)] }

/-- A millisecond of a port's wire; a link that is down drops what waits. -/
def portTick (s : State) (x : TxlPort) : TxlPort :=
  if !x.link then { x with queue := [], debt := 0, bulkDebt := 0 }
  else
    let y := { x with debt := x.debt - portRate x, bulkDebt := x.bulkDebt - bulkRate s }
    drainQueue (bulkRate s) y.queue.length y

/-- A millisecond of both ports. -/
def wireTick (s : State) : State := { s with txl := { s.txl with port := s.txl.port.map (portTick s) } }

/-- A frame of a class other than HOST sent on the ports chosen, or not at all without a link key (R330). The class's
LSEQ advances once for both copies. -/
def sendTxl (s : State) (cls : TxlClass) (onA onB : Bool) (dst : Nat) (payload : Bytes) : State :=
  match s.txl.key with
  | none => s
  | some key =>
    let a := onA && txlEn s 0
    let b := onB && txlEn s 1
    let lseq := (s.txl.lseq[(clsIdx cls)] + 1) % 2 ^ 32
    let mac := fun q => linkMac key (txlHeader s cls q payload.length dst lseq) payload
    let f : TxlSent := { onA := a, onB := b, dst, lseq, payload
                         macA := if a then mac false else [], macB := if b then mac true else [] }
    let put := fun (p : Fin 2) (x : TxlPort) =>
      let q := decide (p = 1)
      if (if q then b else a) then
        enqueue x cls (etherFrame s p cls dst (txlHeader s cls q payload.length dst lseq ++ payload ++ mac q)) else x
    let t := { s with txl := { s.txl with
      port := upd (upd s.txl.port 0 (put 0)) 1 (put 1)
      lseq := s.txl.lseq.set (clsIdx cls) lseq, sent := s.txl.sent.set (clsIdx cls) (some f) } }
    useSlot t (linkSlot s) (flag a + flag b)

/-- A HOST frame to HOST_NODE on a port (Table 13-2), without LINK_MAC. -/
def sendHost (s : State) (p : Fin 2) (payload : Bytes) : State :=
  if txlEn s p then
    let dst := cfgN s 0x50 0 0x008 25 16
    let lseq := (s.txl.lseq[(clsIdx .host)] + 1) % 2 ^ 32
    let b := etherFrame s p .host dst (txlHeader s .host (decide (p = 1)) payload.length dst lseq ++ payload)
    { s with txl := { s.txl with
      port := upd s.txl.port p fun x => enqueue x .host b
      lseq := s.txl.lseq.set (clsIdx .host) lseq
      sent := s.txl.sent.set (clsIdx .host) (some
        { onA := decide (p = 0), onB := decide (p = 1), dst, lseq, payload, macA := [], macB := [] }) } }
  else s

/-- A frame to the host leaves over its transport (R385); on the SPI it waits for the host to read it. -/
def sendOut (s : State) (f : OutFrame) : State :=
  match f.via with
  | .turxel p => sendHost { s with host := { s.host with out := s.host.out.erase f } } p f.bytes
  | .tcp p => { s with host := { s.host with out := s.host.out.erase f, stream := upd s.host.stream p fun _ => f.bytes } }
  | .spi => s

/-- The frames to the host that can leave, while Helm runs (R385, Table 13-5). -/
def hostTick (s : State) : State := if helmRuns s then s.host.out.foldl sendOut s else s

/-- A CTRL message on both ports (Table 13-2). -/
def sendCtrl (s : State) (dst : Nat) (payload : Bytes) : State := sendTxl s .ctrl true true dst payload

/-- A BULK frame to HOST_NODE on BULK_PORT, or on the other port while BULK_PORT is PATH_LOST (Table 13-2). -/
def sendBulk (s : State) (kind : Nat) (payload : Bytes) : State :=
  let p : Bool := cfgB s 0x50 0 0x008 8
  let lost := if p then s.txl.port[1].pathLost else s.txl.port[0].pathLost
  let b := if lost then !p else p
  sendTxl s .bulk (!b) b (cfgN s 0x50 0 0x008 25 16) (BitVec.ofNat 8 kind :: payload)

/-! ### Manager's inputs -/

/-- SM_NODE.EN of entry `w` (0 to 31; instance w + 1). -/
def smEn (s : State) (w : Nat) : Bool := cfgB s 0x60 (w + 1) 0x000 31

/-- SM_NODE.NODE_ID. -/
def smNode (s : State) (w : Nat) : Nat := cfgN s 0x60 (w + 1) 0x000 9 0

/-- The enabled entries of the site model. -/
def enabled (s : State) : List (Fin 32) := (List.finRange 32).filter fun w => smEn s w

/-- An entry's STATUS has come within `ms` (R367, R376). -/
def statusWithin (s : State) (w : Fin 32) (ms : Nat) : Bool :=
  let x := s.mgr.worker[w]
  x.status.isSome && decide (s.mono ≤ x.at_ + ms)

/-- The instant at which the quorum held last ended or will end (R376): more than half of the enabled workers' STATUS were then
1,200 ms old or less. -/
def quorumEnd (s : State) : Nat :=
  let e := enabled s
  let ats := e.filterMap fun w => let x := s.mgr.worker[w]; x.status.map fun _ => x.at_
  let held := ats.filter fun a => decide (e.length < 2 * (ats.filter (a ≤ ·)).length)
  if held.isEmpty then s.mgr.roleAt else held.foldl max 0 + 1200

/-- Quorum (R376): STATUS within 1,200 ms from more than half of the enabled workers. -/
def quorum (s : State) : Bool :=
  let e := enabled s
  decide (e.length < 2 * (e.filter fun w => statusWithin s w 1200).length)

/-! ### Health (R381, Table 15-4) -/

/-- The health word. -/
def healthWord (s : State) : Nat :=
  let core := match s.mgr.coreFaultAt with
    | some t => decide (s.mono ≤ t + 60000)
    | none => false
  let bits : List Bool := [core, s.chart.src == 3, s.txl.key.isNone, s.txl.port[0].pathLost, s.txl.port[1].pathLost,
    s.ll.pathLost || s.ll.zcLost, !s.txl.ptp.locked, s.log.fault, s.mgr.shadowDiff, s.mgr.noQuorum,
    isManager s && (enabled s).any fun w => !statusWithin s w 1000,
    decide (s.landfall.selftest ≠ 0) || decide (cfgN s 0x01 0 0x400 16 0 ≠ 0), s.mgr.peerLost, s.safe.fallback]
  bits.foldr (fun b a => flag b + 2 * a) 0

/-- RED_MASK. -/
def redMask (s : State) : Nat := cfgN s 0x60 0 0x024 31 0

/-- Health is green (R381). -/
def healthGreen (s : State) : Bool := Nat.land (healthWord s) (redMask s) == 0

/-- A health bit's code, onset and argument in the report: the CODE of Table 18-1 where one names the condition. -/
def healthCode (bit : Nat) : Nat :=
  [0x0201, 0x0903, 0x0901, 0x0702, 0x0702, 0x0703, 0x0706, 0x0905, Config.eventCode 380, Config.eventCode 376,
    Config.eventCode 367, Config.eventCode 39, 0x0705, Config.eventCode 336].getD bit 0

/-- The time and argument of the last record of a CODE in the logbook; 0 without one. -/
def onsetOf (s : State) (code : Nat) : Nat × Nat :=
  match (loggedEvents s.log ++ s.log.waiting.filterMap LogItem.event?).reverse.find? fun r => r.code == code && r.kind != 3 with
  | some r => (r.time, r.arg)
  | none => (0, 0)

/-- The health report (R381): the health word, then up to 8 detail records for the bits set, in rising order. -/
def healthReport (s : State) : Bytes :=
  let h := healthWord s
  let recs := (((List.range 14).filter fun b => h.testBit b).take 8).map fun b =>
    let c := healthCode b
    toBe 2 c ++ toBe 1 b ++ toBe 1 0 ++ toBe 8 (onsetOf s c).1 ++ toBe 4 (onsetOf s c).2
  toBe 4 h ++ recs.flatten

/-! ### Beacons (R375) -/

/-- The BEACON payload (Table 15-2), with ACTIVE, RENEW and RELEASE as given. -/
def beaconPayload (s : State) (active renew release : Bool) : Bytes :=
  let mgr := isManager s
  let flags := flag (mgr && myRank s) + 2 * flag active + 4 * flag renew + 8 * flag release
    + 16 * flag (mgr && myRank s && s.mgr.tokenReq) + 32 * flag (healthGreen s)
  toBe 4 (if mgr then s.mgr.epoch else s.wrk.epoch) ++ toBe 1 flags ++ toBe 1 0
    ++ toBe 2 ((if mgr then s.mgr.cycle else s.wrk.cycle.getD 0) % 65536) ++ toBe 4 (healthWord s) ++ toBe 4 0

/-- A BEACON on both ports (Table 13-2). -/
def sendBeacon (s : State) (active renew release : Bool) : State :=
  sendTxl s .beacon true true 0xFFFF (beaconPayload s active renew release)

end Sys2Proof.Machine
end

