-- ==== Sys2Proof/Machine/Outlet.lean ====
section
/-!
DEFINITION. The outlets' commands (R147 to R174): pilot, vehicle link and messages, authorisation, timers, the end of a
session, and cable cooling.
-/
namespace Sys2Proof.Machine

/-! ### Pilot (R149 to R152) -/

/-- Threshold TH`k` of the pilot. -/
def pilotTh (s : State) (o : Fin 2) (k : Nat) : Nat :=
  let off := 0x010 + 4 * (k / 2)
  if k % 2 = 0 then cfgN s 0x20 o off 11 0 else cfgN s 0x20 o off 27 16

/-- The samples from 20 % to 80 % of a phase, given in their order over the whole phase. -/
def midPhase (l : List Nat) : List Nat :=
  ((List.range l.length).filter fun i => decide (l.length ≤ 5 * i ∧ 5 * i ≤ 4 * l.length)).map fun i => l.getD i 0

/-- The median of samples: of an even number, the mean of the middle two rounded down (DESIGN CHOICE, log 83). -/
def median (l : List Nat) : Option Nat :=
  let m := l.mergeSort
  if m.isEmpty then none else some ((m.getD ((m.length - 1) / 2) 0 + m.getD (m.length / 2) 0) / 2)

/-- The mean of samples, rounded down (DESIGN CHOICE, log 83). -/
def meanOf (l : List Nat) : Option Nat := if l.isEmpty then none else some (l.sum / l.length)

/-- The positive plateau (R150): under PWM the median of the samples of the high phase, else the mean over 1 ms. -/
def posPlateau (drive : PilotDrive) (high : List Nat) : Option Nat :=
  if drive = .pwm then median (midPhase high) else meanOf high

/-- LEVEL from a plateau: each threshold is passed by HYST codes (R150) (DEDUCED, log 47). -/
def nextLevel (s : State) (o : Fin 2) (pos old : Nat) : Nat :=
  let h := cfgN s 0x20 o 0x020 23 16
  ((List.range 6).filter fun k =>
    if k < old then decide (pilotTh s o k ≤ pos + h) else decide (pilotTh s o k + h ≤ pos)).length

/-- COND of a code of PLT_MAP. -/
def condOf : Nat → Cond
  | 0 => .unplugged | 1 => .plugged | 2 => .ready | 3 => .readyVent | _ => .error

/-- COND from level, second circuit and negative plateau (R150, R152); with VDDA out of its window ERROR (R445)
(DEDUCED, log 47). -/
def nextCond (s : State) (o : Fin 2) (lvl neg : Nat) (sig1 : Bool) (drive : PilotDrive) : Cond :=
  let m := condOf (cfgN s 0x20 o 0x024 (4 * lvl + 3) (4 * lvl))
  if !s.landfall.vdda then .error
  else if !sig1 && decide (m ≠ .unplugged) then .error
  else if drive = .pwm ∧ (m = .plugged ∨ m = .ready ∨ m = .readyVent) ∧ cfgN s 0x20 o 0x020 11 0 < neg then .error
  else m

/-- An outlet enters PLUGGED: earlier causes are cleared, the readings of another mating count no longer, and the inventory
starts (R158, R162, R186). -/
def plugIn (s : State) (o : Fin 2) : State :=
  let t := updOutlet s o fun x =>
    { x with
      st := .plugged, faultCause := 0, faultMask := 0, authSrc := 0, stopReason := 0, auth := {}, answer := .none
      cablePass := false, cableReq := false, preReq := false, isoStep := 0, soundPass := false, standby := false
      vehI := 0, vehV := 0, vehVMax := 0, tmr := { inventory := true }, link := {} }
  let t := updCooling t o fun c => { c with input := Vector.ofFn fun j : Fin 8 => { c.input[j] with valid := false } }
  updPort t o fun p =>
    { p with inv := {}, invDone := false, tag := Vector.replicate 7 {}, ident := {}, identRead := false, found := [], rd := none
             cyc := none, retried := false }

/-- What a new COND means to an outlet (Table 06-6, Table 06-7) (DEDUCED, log 47). -/
def condNews (s : State) (o : Fin 2) (c : Cond) : State :=
  match c, s.outlet[o].st with
  | .error, st => if st.faultable then outletFault s o .signal else s
  | .unplugged, .plugged => finish s o
  | .unplugged, .cableCheck => finish s o
  | .unplugged, .identified => finish s o
  | .unplugged, st => if st.authorisedOn then outletFault s o .signal else rest s o
  | _, .idle => plugIn s o
  | _, _ => s

/-- PILOT_COND_CHANGE (R150, R152): the samples of CP_SNS_x over a high and a low phase (over 1 ms while static), those of
PP_SNS_x over 1 ms, in codes, and for how long the level they give has held: LEVEL takes it after DEBOUNCE. A list without
samples leaves the quantity as it was. While CP_OUT_x is held low the plateau is not compared: only an invalid second circuit
changes COND. -/
def execPilotCondChange (o : Fin 2) (high low pp : List Nat) (heldMs : Nat) (s : State) : Out :=
  .next (
    let x := s.outlet[o]
    let pos := (posPlateau x.pilot.drive high).getD x.pilot.pos
    let neg := if x.pilot.drive = .pwm then (median (midPhase low)).getD x.pilot.neg else x.pilot.neg
    let sig1 := match meanOf pp with
      | some m => decide (cfgN s 0x20 o 0x01C 11 0 ≤ m ∧ m ≤ cfgN s 0x20 o 0x01C 27 16)
      | none => x.pilot.sig1Ok
    if outType s o = 0 then s
    else
      let blind := outType s o == 2 && x.pilot.drive == .low
      let held := decide (cfgN s 0x20 o 0x00C 15 8 ≤ heldMs)
      let lvl := if blind || !held then x.pilot.level else nextLevel s o pos x.pilot.level
      let c := if blind && s.landfall.vdda then (if sig1 then x.pilot.cond else .unplugged)
        else nextCond s o lvl neg sig1 x.pilot.drive
      let t := updOutlet s o fun y =>
        { y with
          pilot := { y.pilot with pos := pos, neg := neg, sig1Ok := sig1, level := lvl, cond := c }
          link := if c = .error ∨ c = .unplugged then
            (if y.link.slac < 5 then { y.link with slac := 0 } else y.link) else y.link }
      setPilot (condNews t o c) o)

/-! ### The vehicle link (R153 to R156) -/

/-- T1S_LINK_UP (R153). -/
def execT1sLinkUp (o : Fin 2) (s : State) : Out :=
  .next (if outType s o = 1 ∧ s.flt.island[(3 : Fin 17)].lost = false ∧ s.outlet[o].link.started = true ∧ s.landfall.pathFail.getLsbD (2 + o.val) = false then
    updOutlet s o fun x => { x with link := { x.link with phyUp := true } } else s)

/-- The stage of the SLAC sequence that a message reaches. -/
def slacStage : SlacMessage → Nat
  | .parm => 1 | .startAttenChar => 2 | .mnbcSound => 3 | .attenChar => 4 | .slacMatch => 5

/-- The level of HPG_x_SCK, HPG_x_CS_N and HPG_x_RST_N between transfers: high in SPI mode 3, low where the outlet's type does
not use the pins (R148, R154) (PRESUMED for RST_N, log 84). -/
def hpgRest (s : State) (o : Fin 2) : Bool := outType s o == 2

/-- A transfer to the HomePlug modem (R154): 0xAA, 0xAA, the 16-bit big-endian frame length and the frame. -/
def spiTransfer (frame : Bytes) : Bytes := [0xAA, 0xAA] ++ toBe 2 frame.length ++ frame

/-- The messages that the module itself sends at a stage of the sequence (R154): CM_SLAC_PARM, CM_ATTEN_CHAR and
CM_SLAC_MATCH, then CM_SET_KEY to its own modem (PRESUMED, log 84). -/
def slacSends (k : Nat) (nmk : Bytes) : List Bytes :=
  match k with
  | 1 => [Config.mme 1 []]
  | 4 => [Config.mme 4 []]
  | 5 => [Config.mme 5 nmk, Config.mme 6 nmk]
  | _ => []

/-- SLAC_MESSAGE (R154): HPG_x_INT_N has announced it. The sequence advances in its order; the match sets a fresh network
membership key. -/
def execSlacMessage (o : Fin 2) (m : SlacMessage) (s : State) : Out :=
  .next (
    let x := s.outlet[o]
    let k := slacStage m
    if outType s o = 2 ∧ x.link.started = true ∧ x.pilot.pwmBegun = true ∧ (k = x.link.slac + 1 ∨ (k = 3 ∧ x.link.slac = 3)) then
      if k = 5 then
        let d := drawBytes s 16
        updOutlet d.2 o fun y =>
          { y with link := { y.link with
              slac := 5, nmk := d.1, phyUp := true, spi := y.link.spi ++ (slacSends 5 d.1).map spiTransfer } }
      else updOutlet s o fun y => { y with link := { y.link with slac := k, spi := y.link.spi ++ (slacSends k []).map spiTransfer } }
    else s)

/-- The outlet's link-local IPv6 address (R155): prefix fe80::/64 and an interface identifier that is left free. -/
def seccAddress (o : Fin 2) : Nat := 0xFE80 * 2 ^ 112 + (Config.linkId o).toNat

/-- SDP_REQUEST (R155): answered with the SECC's address and TCP port. -/
def execSdpRequest (o : Fin 2) (s : State) : Out :=
  .next (if s.outlet[o].link.phyUp then
    updOutlet s o fun x => { x with answer := .ok [seccAddress o, Config.tcpPort o], link := { x.link with sdp := true } }
    else s)

/-- A slot that Helm's TLS may use (R421): VALID, of a usage and an algorithm, open to internal use. -/
def tlsSlot (usage : Nat) (algs : List Nat) (x : Slot) : Bool :=
  decide (x.st = .valid ∧ x.usage = usage) && algs.contains x.alg && x.roles.testBit 4 && x.root.isEmpty && x.doom.isEmpty

/-- The SECC's private key for a signature scheme: the first slot with SIGN usage that holds one (R155). -/
def seccSlot (s : State) (sch : TlsScheme) : Option (Fin 128) :=
  let alg := match sch with
    | .ecdsaSecp521r1 => [0x13]
    | .ed448 => [0x15]
    | _ => []
  (List.finRange 128).find? fun k => tlsSlot 5 alg s.locker.slot[k]

/-- The trusted root of a chain: a slot with VERIFY usage under the TAG_ID of the root's subject (R155, Table 17-2). -/
def rootSlot (s : State) (root : Bytes) : Option (Fin 128) :=
  (List.finRange 128).find? fun k =>
    tlsSlot 6 [0x12, 0x14, 0x16] s.locker.slot[k] && slice (s.locker.slot[k]).attrs 8 8 == root

/-- TLS_HANDSHAKE (R155): it completes with the cipher suite, the first group and the first signature scheme that both sides
have, the scheme's private key in a SIGN slot, and a chain to a root in a VERIFY slot; both slots count the use (R426). -/
def execTlsHandshake (o : Fin 2) (hello : TlsHello) (s : State) : Out :=
  .next (if s.outlet[o].link.sdp then
    let grp := hello.groups.find? fun g => g == .secp521r1 || g == .x448
    let sch := hello.schemes.find? fun x => (x == .ecdsaSecp521r1 || x == .ed448) && (seccSlot s x).isSome
    match grp, sch, sch.bind (seccSlot s), rootSlot s hello.root with
    | some g, some x, some k, some r =>
      if hello.suite && hello.completes && hello.chain != .other then
        updOutlet (useSlot (useSlot s k 1) r 1) o fun y =>
          { y with link := { y.link with tcp := true, tls := true, group := some g, scheme := some x } }
      else updOutlet s o fun y => { y with link := { y.link with tcp := true, tls := false } }
    | _, _, _, _ => updOutlet s o fun y => { y with link := { y.link with tcp := true, tls := false } }
    else s)

/-- The failure response, with the end of the session as for T_SEQ (R156). -/
def failVehicle (s : State) (o : Fin 2) : State :=
  outletFault (updOutlet s o fun x => { x with answer := .failed }) o .vehicle

/-- UNSUPPORTED_REQUEST (R156). -/
def execUnsupportedRequest (o : Fin 2) (s : State) : Out :=
  .next (if s.outlet[o].link.phyUp then failVehicle s o else s)

/-- SUPPORTED_APP_PROTOCOL (R156, Table 06-5): ISO 15118-20 over TLS first, then DIN SPEC 70121 where it is offered. -/
def execSupportedAppProtocol (o : Fin 2) (iso din : Bool) (s : State) : Out :=
  .next (if s.outlet[o].link.sdp then
    let t := updOutlet s o fun x => { x with tmr := { x.tmr with link := false }, link := { x.link with tcp := true } }
    if iso && s.outlet[o].link.tls then
      answer (updOutlet t o fun x => { x with link := { x.link with proto := 1 } }) o (.ok [1])
    else if din && outType s o == 2 && cfgB s 0x20 o 0x000 25 then
      answer (updOutlet t o fun x => { x with link := { x.link with proto := 2 } }) o (.ok [2])
    else failVehicle t o
    else s)

/-- SESSION_SETUP (R156): the EVSEID. -/
def execSessionSetup (o : Fin 2) (s : State) : Out :=
  .next (if s.outlet[o].link.proto = 0 then s
    else answer (updOutlet s o fun x => { x with link := { x.link with session := true } }) o
      (.ok ((List.range 8).map fun k => cfgN s 0x20 o (0x060 + 4 * k) 31 0)))

/-- A request in an open session; outside one it has no addressee (DEDUCED, log 44). -/
def inSession (s : State) (o : Fin 2) (k : State → State) : State := if s.outlet[o].link.session then k s else s

/-- BPT_EN, for ISO 15118-20 only. -/
def bptOffered (s : State) (o : Fin 2) : Bool := cfgB s 0x20 o 0x000 24 && s.outlet[o].link.proto == 1

/-- A request that only ISO 15118-20 has: in a DIN SPEC 70121 session it draws the failure response and ends the session
(R156, Table 06-4). -/
def isoOnly (s : State) (o : Fin 2) (k : State → State) : State := if s.outlet[o].link.proto = 1 then k s else failVehicle s o

/-- SERVICE_DISCOVERY (Tables 06-3, 06-4): service 1 is DC, 2 is DC_BPT; ExternalPayment only. -/
def execServiceDiscovery (o : Fin 2) (r : ServiceRequest) (s : State) : Out :=
  .next (inSession s o fun s =>
    match r with
    | .discovery => answer s o (.ok (if bptOffered s o then [1, 2] else [1]))
    | .detail n => isoOnly s o fun s =>
      if n = 1 ∨ (n = 2 ∧ bptOffered s o = true) then answer s o (.ok [n]) else failVehicle s o
    | .selection b => isoOnly s o fun s =>
      if b && !bptOffered s o then failVehicle s o
      else answer (updOutlet s o fun x => { x with link := { x.link with bpt := b } }) o (.ok [])
    | .payment external =>
      if external && s.outlet[o].link.proto == 2 then answer s o (.ok []) else failVehicle s o)

/-- The outlet's present R26 limits as its answers carry them: current in mA, V_MAX and V_MIN in 0.1 V, share in kW. -/
def presentLimits (s : State) (o : Fin 2) : List Nat :=
  match outletStage s o with
  | some g => [ownLimit s g o, cfgN s 0x20 o 0x004 31 16, cfgN s 0x20 o 0x004 15 0, s.outlet[o].share]
  | none => [0, 0, 0, 0]

/-- CHARGE_PARAMETER_DISCOVERY (Table 06-3): `vMax` in mV. -/
def execChargeParameterDiscovery (o : Fin 2) (vMax : Nat) (s : State) : Out :=
  .next (inSession s o fun s =>
    answer (updOutlet s o fun x => { x with vehVMax := vMax }) o (.ok (presentLimits s o)))

/-- The schedule's one entry: the post share capped at P_RATED (Table 06-3). -/
def scheduleAnswer (s : State) (o : Fin 2) : Answer := .ok [min s.outlet[o].share (cfgN s 0x20 o 0x008 15 0)]

/-- SCHEDULE_EXCHANGE (Table 06-3): scheduled mode has its schedule, dynamic mode none. -/
def execScheduleExchange (o : Fin 2) (dynamic : Bool) (s : State) : Out :=
  .next (inSession s o fun s => isoOnly s o fun s =>
    answer (updOutlet s o fun x => { x with link := { x.link with dynamic := dynamic } }) o
      (if dynamic then .ok [] else scheduleAnswer s o))

/-- DC_CABLE_CHECK (R158, R160): answered "ongoing" until the isolation test has passed and ended. -/
def execDcCableCheck (o : Fin 2) (s : State) : Out :=
  .next (inSession s o fun s =>
    match s.outlet[o].st with
    | .authorised => answer (progress (updOutlet s o fun x => { x with cableReq := true }) o) o .ongoing
    | .isolationTest =>
      let t := progress s o
      answer t o (if t.outlet[o].isoStep = 5 then .ok [] else .ongoing)
    | .identified => answer s o .ongoing
    | _ => answerOther s o)

/-- DC_PRE_CHARGE (R158): `target` in mV. -/
def execDcPreCharge (o : Fin 2) (target : Nat) (s : State) : Out :=
  .next (inSession s o fun s =>
    let t := updOutlet s o fun x => { x with vehV := target }
    match s.outlet[o].st with
    | .isolationTest => answer (progress (updOutlet t o fun x => { x with preReq := true }) o) o .ongoing
    | .precharge => answer t o .ongoing
    | .energyTransfer => answer t o (.ok [])
    | _ => answerOther t o)

/-- POWER_DELIVERY (Table 06-3). -/
def execPowerDelivery (o : Fin 2) (m : PowerMode) (s : State) : Out :=
  .next (inSession s o fun s =>
    match m with
    | .stop => answerStop (stopTrigger s o .vehicle) o
    | .renegotiate => isoOnly s o fun s => answer s o (scheduleAnswer s o)
    | .start =>
      match s.outlet[o].st with
      | .energyTransfer =>
        answer (updOutlet s o fun x => { x with standby := false, tmr := { x.tmr with standby := false } }) o (.ok [])
      | .precharge => answer s o .ongoing
      | _ => answerOther s o
    | .standby =>
      match s.outlet[o].st with
      | .energyTransfer =>
        answer (updOutlet s o fun x =>
          { x with standby := true, tmr := { x.tmr with standby := true, loop := false } }) o (.ok [])
      | _ => answerOther s o)

/-- DC_CHARGE_LOOP (R26, R124): the request, in mA, limits the current; export only in a bidirectional session. One that
reports an error of the vehicle is a fault with cause VEHICLE (Table 06-7). -/
def execDcChargeLoop (o : Fin 2) (iReq target exportLim : Nat) (error : Bool) (s : State) : Out :=
  .next (inSession s o fun s =>
    if error then outletFault s o .vehicle
    else match s.outlet[o].st with
    | .energyTransfer =>
      let e := if s.outlet[o].link.bpt && s.outlet[o].link.proto == 1 then exportLim else 0
      let t := updOutlet s o fun x =>
        { x with vehI := iReq, vehV := target, tmr := { x.tmr with loop := true } }
      let t := match outletStage t o with
        | some g => updStage t g fun y => { y with exportLim := e }
        | none => t
      let t := postSplit t
      answer t o (.ok (presentLimits t o))
    | _ => answerOther s o)

/-- DC_WELDING_DETECTION (Table 06-3): answered in WELD_CHECK and DISCHARGE, with "ongoing" while they wait (R158). -/
def execDcWeldingDetection (o : Fin 2) (s : State) : Out := .next (inSession s o fun s => answerOther s o)

/-- VEHICLE_SESSION_STOP (R161): Pause is treated as Terminate. One that reports an error of the vehicle is a fault with
cause VEHICLE (Table 06-7). -/
def execVehicleSessionStop (o : Fin 2) (_pause error : Bool) (s : State) : Out :=
  .next (inSession s o fun s => if error then outletFault s o .vehicle else answerStop (stopTrigger s o .vehicle) o)

/-- An OPERATOR session is open. -/
def operatorOpen (s : State) : Bool := s.host.sessions.any (·.role == 0)

/-- The parts of a CertificateInstallationReq, of up to 1,400 bytes (Table 16-5). -/
def certParts (o : Fin 2) (exi : Bytes) : List Bytes :=
  let n := max 1 ((exi.length + 1399) / 1400)
  (List.range n).map fun k => toBe 1 o ++ toBe 1 k ++ toBe 1 n ++ slice exi (1400 * k) 1400

/-- CERTIFICATE_INSTALLATION (Table 06-3, R409). -/
def execCertificateInstallation (o : Fin 2) (exi : Bytes) (s : State) : Out :=
  .next (inSession s o fun s => isoOnly s o fun s =>
    if operatorOpen s then
      let t := (certParts o exi).foldl (fun u p => emitEvent u 0x82 [0] p) s
      answer (logInfo t (Config.eventCode 409) .helm o) o .ongoing
    else answer s o .failed)

/-- VEHICLE_LINK_LOST (R162). -/
def execVehicleLinkLost (o : Fin 2) (s : State) : Out :=
  .next (if s.outlet[o].link.started then outletFault s o .link else s)

/-! ### Authorisation (R166 to R168) -/

/-- The token hash (R166). -/
def tokenHash (ident : Bytes) : Bytes := (sm3 ident).take 8

/-- Decision REFUSE (Table 06-6). -/
def refuse (s : State) (o : Fin 2) : State :=
  finish (updOutlet s o fun x => { x with answer := .failed, auth := { x.auth with allowed := some false } }) o

/-- A measuring channel of the outlet is INVALID (R211) (DEDUCED, log 45). -/
def meteringInvalid (s : State) (o : Fin 2) : Bool :=
  chInvalid s (Fin.ofNat 12 (2 * o)) || chInvalid s (Fin.ofNat 12 (2 * o + 1))

/-- Decision ALLOW (Table 06-6, R169, R211, R267, R270): the lock is driven, the record opened, the fee debited
(DEDUCED, log 45). -/
def allow (s : State) (o : Fin 2) (src : Nat) : State :=
  let s := updOutlet s o fun x => { x with authSrc := src }
  let h := s.outlet[o].auth.hash
  if prepayRefuses s h || (s.mer.up && meteringInvalid s o) || !s.outlet[o].auth.chainOk then refuse s o
  else
    let t := updOutlet (enter s o .authorised) o fun x =>
      { x with
        auth := { x.auth with allowed := some true }, tmr := { x.tmr with auth := false }
        answer := .ok [] }
    let t := beginCharge (driveLock t o) o h
    pushMail t (.openRecord o h ((tableEntry t h).elim 0xFFFFFFFF (·.account)))

/-- An entry of the authorisation table admits its token today (R166, R271). -/
def AuthEntry.admits (e : AuthEntry) (day : Nat) : Bool :=
  e.valid && !e.barred && (e.expiry == 0xFFFF || decide (day ≤ e.expiry))

/-- The local decision (R166). -/
def localDecision (s : State) (o : Fin 2) : State :=
  if cfgB s 0x20 o 0x000 21 && (tableEntry s s.outlet[o].auth.hash).any (·.admits (secOf s.nowNs / 86400)) then
    allow s o 2
  else refuse s o

/-- The AUTH_REQUEST event (Table 16-5). -/
def authEvent (s : State) (o : Fin 2) : State :=
  let a := s.outlet[o].auth
  let kind := match a.kind with
    | .contract => 1
    | .eim => 2
    | .card => 3
  let ident := a.ident.take 64
  emitEvent s 0x80 [0] (toBe 1 o ++ toBe 1 kind ++ a.hash ++ toBe 2 (cfgN s 0x20 o 0x034 31 24 * 100)
    ++ toBe 1 ident.length ++ ident)

/-- An outlet is identified (R166): a contract whose chain fails is refused; with an OPERATOR session open the host is
asked and T_AUTH starts; else the local table decides. -/
def identify (s : State) (o : Fin 2) (kind : AuthKind) (ident : Bytes) (chainOk : Bool) : State :=
  let ok := chainOk || kind != .contract
  let t := updOutlet (enter s o .identified) o fun x =>
    { x with auth := { kind := kind, ident := ident, hash := tokenHash ident, chainOk := ok } }
  let t := if kind = .card then t else answer t o .ongoing
  if !ok then refuse t o
  else if operatorOpen t then authEvent (updOutlet t o fun x => { x with tmr := { x.tmr with auth := true } }) o
  else localDecision t o

/-- AUTHORIZATION_REQUEST (R166, Table 06-3): contract only under PNC_EN, EIM only under EIM_EN. -/
def execAuthorizationRequest (o : Fin 2) (kind : AuthKind) (ident : Bytes) (chainOk : Bool) (s : State) : Out :=
  .next (inSession s o fun s =>
    let offered : Bool := match kind with
      | .contract => cfgB s 0x20 o 0x000 23 && s.outlet[o].link.proto == 1
      | _ => cfgB s 0x20 o 0x000 22
    match s.outlet[o].st with
    | .cableCheck => if offered then identify s o kind ident chainOk else failVehicle s o
    | .identified => answer s o .ongoing
    | .faulted => s
    | _ => answer s o (if s.outlet[o].st.authorisedOn then .ok [] else .failed))

/-- T_AUTH_EXPIRY (R166). -/
def execTAuthExpiry (o : Fin 2) (s : State) : Out :=
  .next (if s.outlet[o].st = .identified ∧ s.outlet[o].tmr.auth = true then
    localDecision (updOutlet s o fun x => { x with tmr := { x.tmr with auth := false } }) o
    else s)

/-! ### Timers (Tables 06-5, 06-12) -/

/-- A timer's expiry that is a fault: it acts while the timer runs. -/
def expire (s : State) (o : Fin 2) (runs : OutTimers → Bool) (c : OutFault) : State :=
  if runs s.outlet[o].tmr then outletFault s o c else s

/-- T_INVENTORY_EXPIRY (R157). -/
def execTInventoryExpiry (o : Fin 2) (s : State) : Out := .next (expire s o (·.inventory) .tags)
/-- T_LINK_EXPIRY (R157). -/
def execTLinkExpiry (o : Fin 2) (s : State) : Out := .next (expire s o (·.link) .link)
/-- T_SEQ_EXPIRY (R157) (DEDUCED, log 7). -/
def execTSeqExpiry (o : Fin 2) (s : State) : Out := .next (expire s o (·.seq) .vehicle)
/-- T_ISO_EXPIRY (R157, R160). -/
def execTIsoExpiry (o : Fin 2) (s : State) : Out := .next (expire s o (·.iso) .insulation)
/-- T_DISCH_EXPIRY (R157). -/
def execTDischExpiry (o : Fin 2) (s : State) : Out := .next (expire s o (·.disch) .discharge)

/-- T_LOCK_EXPIRY (R157, R169). -/
def execTLockExpiry (o : Fin 2) (s : State) : Out :=
  .next (if s.outlet[o].tmr.lock then
    outletFault (updOutlet s o fun x => { x with tmr := { x.tmr with lock := false } }) o .lock else s)

/-- The cause of a T_ONGOING expiry by state (Table 06-12). -/
def ongoingCause : OutSt → Option OutFault
  | .identified => some .vehicle | .authorised => some .safety | .isolationTest => some .insulation
  | .precharge => some .start | .rampDown => some .discharge | .weldCheck => some .weld
  | .discharge => some .discharge | .unlock => some .lock
  | _ => none

/-- T_ONGOING_EXPIRY (R174). -/
def execTOngoingExpiry (o : Fin 2) (s : State) : Out :=
  .next (match s.outlet[o].tmr.ongoing, ongoingCause s.outlet[o].st with
    | true, some c => outletFault s o c
    | _, _ => s)

/-- T_LOOP_EXPIRY (R161): of Table 06-5's reason VEHICLE and Table 06-10's STOP_REASON 4, T_LOOP, the model records 4
(DESIGN CHOICE, log 80). -/
def execTLoopExpiry (o : Fin 2) (s : State) : Out :=
  .next (if s.outlet[o].tmr.loop ∧ s.outlet[o].st = .energyTransfer then
    stopTrigger (updOutlet s o fun x => { x with tmr := { x.tmr with loop := false } }) o .tLoop else s)

/-- T_STANDBY_EXPIRY (R161). -/
def execTStandbyExpiry (o : Fin 2) (s : State) : Out :=
  .next (if s.outlet[o].tmr.standby ∧ s.outlet[o].st = .energyTransfer then
    stopTrigger (updOutlet s o fun x => { x with tmr := { x.tmr with standby := false } }) o .tStandby else s)

/-- ISO_DWELL_END (R160): the setpoint has been held since it was reached. -/
def execIsoDwellEnd (o : Fin 2) (s : State) : Out :=
  .next (if s.outlet[o].st = .isolationTest ∧ s.outlet[o].isoStep = 2 ∧ s.outlet[o].tmr.dwell = true then
    progress (updOutlet s o fun x => { x with isoStep := 3, tmr := { x.tmr with dwell := false } }) o else s)

/-- LOCK_CONFIRMED (R169): LOCK_FB_x reads locked. -/
def execLockConfirmed (o : Fin 2) (s : State) : Out :=
  .next (if (s.lk.outlet[o]).lock then
    settle s (updOutlet (updLko s o fun x => { x with lockFb := true }) o fun x => { x with tmr := { x.tmr with lock := false } })
    else s)

/-! ### The end of a session -/

/-- CONTACTORS_OPEN_CONFIRMED (R158): WELD_CHECK ends in DISCHARGE; in FAULTED the weld check is done (R163). -/
def execContactorsOpenConfirmed (o : Fin 2) (s : State) : Out :=
  .next (if s.lk.so[soPos s o].cmd || s.lk.so[soNeg s o].cmd then s
    else
      let t := setFeedback s o true
      let t := match t.outlet[o].st with
        | .weldCheck => updOutlet (enter t o .discharge) o fun x => { x with tmr := { x.tmr with disch := true } }
        | _ => t
      settle s t)

/-- VEHICLE_SIDE_DISCHARGED (R158, R163): Helm asks for unlock; in FAULTED it has asked already. -/
def execVehicleSideDischarged (o : Fin 2) (s : State) : Out :=
  .next (if s.outlet[o].st = .discharge ∧ stageIsOff s o = true ∧ below60 s o = true then
    settle s (askUnlock (updOutlet (enter s o .unlock) o fun x => { x with tmr := { x.tmr with disch := false } }) o)
    else settle s s)

/-- The outlet has a session record, open or asked for. -/
def recordOpen (s : State) (o : Fin 2) : Bool :=
  s.mer.leg.sessions.any (fun r => r.isOpen && r.outlet == o)
    || (s.mer.mail ++ s.mer.held).any fun m => match m with
      | .openRecord p _ _ => p == o
      | _ => false

/-- Meridian is asked to close an open session record. -/
def closeRecordOf (s : State) (o : Fin 2) (fault : Bool) : State :=
  if recordOpen s o then pushMail s (.closeRecord o fault) else s

/-- UNLOCK_CONFIRMED (R158, R163, R165): LOCK_FB_x reads unlocked. -/
def execUnlockConfirmed (o : Fin 2) (s : State) : Out :=
  .next (if (s.lk.outlet[o]).lock then s
    else
      let t := updOutlet (updLko s o fun x => { x with lockFb := false, unlockAsked := false }) o fun x =>
        { x with tmr := { x.tmr with lock := false } }
      let t := match t.outlet[o].st with
        | .unlock => finish (closeRecordOf t o false) o
        | .faulted => rest (closeRecordOf t o true) o
        | .authorised =>
          if (s.lk.outlet[o]).unlockAsked then toIdle (endLink (closeRecordOf t o true) o) o else t
        | _ => t
      settle s t)

/-- FAULTED_CONTACTOR_OPEN (R163). -/
def execFaultedContactorOpen (o : Fin 2) (s : State) : Out :=
  .next (if s.outlet[o].st = .faulted then
    settle s (openContactors s o) else s)

/-! ### Cable cooling (R170 to R172) -/

/-- A breakpoint (T_k in 0.01 °C, I_k in A). -/
def derPoint (s : State) (o : Fin 2) (k : Nat) : Int × Int :=
  (cfgI s 0x22 o (0x010 + 4 * k) 31 16, cfgN s 0x22 o (0x010 + 4 * k) 15 0)

/-- I_DERATE of a temperature in °C, Q16.16 (R172): exact interpolation, rounded down to 1 A. -/
def iDerateOf (s : State) (o : Fin 2) (v : Int) : Nat :=
  let x := v * 100
  let at_ := fun k => (derPoint s o k).1 * 65536
  if x ≤ at_ 0 then (derPoint s o 0).2.toNat
  else if at_ 7 ≤ x then (derPoint s o 7).2.toNat
  else match (List.range 7).find? fun k => at_ k < x ∧ x < at_ (k + 1) with
    | some k =>
      let i0 := (derPoint s o k).2
      let i1 := (derPoint s o (k + 1)).2
      (i0 + (i1 - i0) * (x - at_ k) / (at_ (k + 1) - at_ k)).toNat
    | none => match (List.range 8).find? fun k => at_ k = x with
      | some k => (derPoint s o k).2.toNat
      | none => 0

/-- The limits of the stage that feeds an outlet follow a change. -/
def followOutlet (s : State) (o : Fin 2) : State :=
  match outletStage s o with
  | some g => followLimit s g
  | none => s

/-- The pump of an outlet: drive 0 or 3 (Table 06-8). -/
def pumpOf (o : Fin 2) : Fin 6 := if o = 0 then 0 else 3

/-- A new value of a cooling input (R171, R172). A value of j = 0 no older than 500 ms is fresh. A law whose bank follows the
input sees it (R113). -/
def coolInput (s : State) (o : Fin 2) (j : Fin 8) (value : Int) (time : Nat) : State :=
  let t := trackBanks <| updCooling s o fun c => { c with input := upd c.input j fun _ => ⟨value, time, true⟩ }
  let fresh := decide (s.nowNs ≤ time + 500000000)
  if j = 0 then
    let t := if fresh then clearFaults t .helm fun c i => c == 0x0A02 && i == o.val else t
    resplit s (followOutlet (updCooling t o fun c =>
      { c with
        iDerate := iDerateOf s o value, stale := !fresh, stale2 := decide (time + 2000000000 < s.nowNs)
        uncooled := !fresh || c.flowLow || (s.drive[pumpOf o]).fault }) o)
  else if j = 6 then
    updCooling t o fun c => { c with flowLow := c.flowLow && decide (value * 10 < cfgN s 0x22 o 0x000 7 0 * 65536) }
  else t

/-- The value of a cooling input (Table 06-9): a temperature as it is; of j = 6, FLOW_x in pulses per second, Q16.16, makes
l/min (rounded down: DESIGN CHOICE, log 83). -/
def inputValue (s : State) (o : Fin 2) (j : Fin 8) (value : Int) : Int :=
  if j = 6 then value * 60 / cfgN s 0x22 o 0x000 15 8 else value

/-- COOLING_INPUT_UPDATE (R171, R172). -/
def execCoolingInputUpdate (o : Fin 2) (j : Fin 8) (value : Int) (time : Nat) (s : State) : Out :=
  .next (coolInput s o j (inputValue s o j value) time)

/-- The age of input j = 0 exceeds a limit in ns; one never read has no age and is stale. -/
def olderThan (s : State) (o : Fin 2) (ns : Nat) : Bool :=
  let i := (s.cooling[o]).input[(0 : Fin 8)]
  !i.valid || decide (i.time + ns < s.nowNs)

/-- UNCOOLED set, and the limit follows. -/
def setUncooled (s : State) (o : Fin 2) : State :=
  resplit s (followOutlet (updCooling s o fun c => { c with uncooled := true }) o)

/-- TAG_STALE_500MS (R28, R172). -/
def execTagStale500ms (o : Fin 2) (s : State) : Out :=
  .next (if olderThan s o 500000000 then
    logDetect (setUncooled (updCooling s o fun c => { c with stale := true }) o) 0x0A02 .helm o else s)

/-- Pin tag data older than 2 s before ENERGY_TRANSFER are a TAGS fault, in PLUGGED and before the cable check has passed
too, once a reading has been made since the plug-in (Table 06-7); from ENERGY_TRANSFER on a stop trigger (R161) (DESIGN
CHOICE, log 81). -/
def staleTags (s : State) (o : Fin 2) : State :=
  let has := ((s.cooling[o]).input[(0 : Fin 8)]).valid
  match s.outlet[o].st with
  | .plugged => if has then outletFault s o .tags else s
  | .cableCheck => if has || s.outlet[o].cablePass then outletFault s o .tags else s
  | .identified => outletFault s o .tags
  | .authorised => outletFault s o .tags
  | .isolationTest => outletFault s o .tags
  | .precharge => outletFault s o .tags
  | _ => stopTrigger s o .tagAge

/-- TAG_STALE_2S (R28, R161, Table 06-7) (DESIGN CHOICE, log 81). -/
def execTagStale2s (o : Fin 2) (s : State) : Out :=
  .next (if olderThan s o 2000000000 then
    staleTags (updCooling s o fun c => { c with stale2 := true }) o
    else s)

/-- The outlet of a cooling drive. -/
def driveOutlet (d : Fin 6) : Fin 2 := if d < 3 then 0 else 1

/-- A drive replaced by its image. -/
def updDrive (s : State) (d : Fin 6) (f : Drive → Drive) : State := { s with drive := upd s.drive d f }

/-- TACH_MIN in rpm. -/
def tachMin (s : State) (o : Fin 2) : Nat := cfgN s 0x22 o 0x004 15 8 * 100

/-- The duty of a drive's pin in steps of 1/1,024 (R170), rounded down (DESIGN CHOICE, log 83). -/
def coolDuty (s : State) (d : Fin 6) : Nat := ((max 0 s.sx.cool[d]) * 1024 / unit31).toNat

/-- The speed that TACH pulses counted over a time give, at 2 pulses a revolution (R170). -/
def tachRpm (pulses ms : Nat) : Nat := pulses * 30000 / ms

/-- A measured speed: one that reaches TACH_MIN restarts the count. A count over no time measures nothing. -/
def takeSpeed (s : State) (d : Fin 6) (pulses ms : Nat) : State :=
  if ms = 0 then s
  else
    let r := tachRpm pulses ms
    updDrive s d fun x => { x with rpm := r, slowMs := if tachMin s (driveOutlet d) ≤ r then 0 else x.slowMs }

/-- One more millisecond below TACH_MIN at a duty of at least 20 % (R170). -/
def countSlow (s : State) : State :=
  let d : Vector Drive 6 := Vector.ofFn fun k =>
    let x := s.drive[k]
    if 1024 ≤ 5 * coolDuty s k ∧ x.rpm < tachMin s (driveOutlet k) then { x with slowMs := x.slowMs + 1 } else x
  { s with drive := d }

/-- DRIVE_FAULT (R170, R172): the count has reached 2 s; a pump's fault sets UNCOOLED. -/
def execDriveFault (d : Fin 6) (pulses ms : Nat) (s : State) : Out :=
  .next (
    let o := driveOutlet d
    let t := takeSpeed s d pulses ms
    if t.drive[d].rpm < tachMin s o ∧ 2000 ≤ t.drive[d].slowMs ∧ t.drive[d].fault = false then
      let t := logDetect (updDrive t d fun x => { x with fault := true }) 0x0A03 .helm d
      if d = pumpOf o then setUncooled t o else t
    else t)

/-- DRIVE_FAULT_CLEAR (R170). -/
def execDriveFaultClear (d : Fin 6) (pulses ms : Nat) (s : State) : Out :=
  .next (
    let t := takeSpeed s d pulses ms
    if ms ≠ 0 ∧ tachMin s (driveOutlet d) ≤ t.drive[d].rpm ∧ s.drive[d].fault = true then
      logClear (updDrive t d fun x => { x with fault := false }) 0x0A03 .helm d else t)

/-- FLOW_LOW (R172): flow below FLOW_MIN for 2 s. -/
def execFlowLow (o : Fin 2) (s : State) : Out :=
  .next (if ((s.cooling[o]).input[(6 : Fin 8)]).value * 10 < cfgN s 0x22 o 0x000 7 0 * 65536 then
    setUncooled (updCooling s o fun c => { c with flowLow := true }) o else s)

end Sys2Proof.Machine
end

