-- ==== Sys2Proof/Machine/TagAir.lean ====
section
/-!
DEFINITION. The Onram air interface as the reader drives it (R179 to R185): the bits and notches of its frames, their CRC, how
long exchanges last, and what it makes of a reply; and the frames of a crew card's selection (R194).
-/
namespace Sys2Proof.Machine

/-! ### Frames of the reader (R179, R181, R183) -/

/-- The `n` bits of a number, most significant first. -/
def bitsBE (n v : Nat) : List Bool := (List.range n).map fun i => v.testBit (n - 1 - i)

/-- The number that bits make, most significant first. -/
def bitsVal (l : List Bool) : Nat := l.foldl (fun a b => 2 * a + flag b) 0

/-- The bits of bytes, each most significant first. -/
def byteBits (bs : Bytes) : List Bool := bs.flatMap fun b => bitsBE 8 b.toNat

/-- The bytes that bits make. -/
def bitsBytes (l : List Bool) : Bytes := toBe (l.length / 8) (bitsVal l)

/-- CRC-16 over bits (R181). -/
def crcBits (l : List Bool) : Nat :=
  l.foldl (fun c b => let d := c * 2 % 2 ^ 16; if (c.testBit 15) != b then Nat.xor d 0x1021 else d) 0xFFFF

/-- The bits of a command before its CRC (Table 07-2). -/
def TagCmd.fields : TagCmd → List Bool
  | .query q session mask => bitsBE 4 1 ++ bitsBE 4 q ++ bitsBE 2 session ++ bitsBE 7 mask.length ++ mask
  | .slot => bitsBE 4 2
  | .select mask => bitsBE 4 3 ++ bitsBE 7 mask.length ++ mask
  | .read block => bitsBE 4 4 ++ bitsBE 5 block
  | .write block data => bitsBE 4 5 ++ bitsBE 5 block ++ byteBits data
  | .measure => bitsBE 4 6
  | .harvest on => bitsBE 4 7 ++ [on]
  | .halt => bitsBE 4 8
  | .wake session => bitsBE 4 9 ++ bitsBE 2 session

/-- The bits of a command frame, CRC included, between SOF and EOF. -/
def TagCmd.bits (c : TagCmd) : List Bool := c.fields ++ bitsBE 16 (crcBits c.fields)

/-- The starts of a frame's notches, in carrier cycles from the start of its SOF, by bit periods of 128 cycles: SOF at 0 and
96, a data 0 at 0, a data 1 at 64, EOF at 96 (R179). -/
def TagCmd.notches (c : TagCmd) : List Nat :=
  [0, 96] ++ (c.bits.mapIdx fun i b => 128 * (i + 1) + if b then 64 else 0) ++ [128 * (c.bits.length + 1) + 96]

/-- How long a frame lasts, SOF and EOF included, in carrier cycles. -/
def TagCmd.cycles (c : TagCmd) : Nat := 128 * (c.bits.length + 2)

/-- The bits, without CRC, of the reply a command draws (Table 07-2); none for HALT and WAKE. Slot replies carry 64. -/
def TagCmd.replyBits : TagCmd → Option Nat
  | .query _ _ _ => some 64
  | .slot => some 64
  | .select mask => some (if mask.length = 64 then 4 else 64)
  | .read _ => some 68
  | .write _ _ => some 4
  | .measure => some 28
  | .harvest _ => some 4
  | .halt => none
  | .wake _ => none

/-- A command whose replies come in slots. -/
def TagCmd.opensSlots : TagCmd → Bool
  | .query _ _ _ => true
  | .slot => true
  | _ => false

/-- A slot reply in carrier cycles (R183). -/
def slotReplyCycles : Nat := 10624

/-- The longest that a command's exchange can last, its reply included (DEDUCED, log 85: the spec's worked figures count from
the end of the EOF's bit period). -/
def TagCmd.exchange (c : TagCmd) : Nat :=
  c.cycles + if c.opensSlots then 1236 + slotReplyCycles
    else match c.replyBits with
      | some n => 1236 + 256 + 128 * (n + 16)
      | none => 0

/-- What a command takes by itself of the window: the frame, its reply or the wait for slot 0, and the 128 cycles before the
next SOF (R182). -/
def TagCmd.takes (c : TagCmd) : Nat := if c.opensSlots then c.cycles + 1236 else c.exchange + 128

/-- The carrier cycles of a handle window of 20 ms (R176). -/
def windowCycles : Nat := 271200

/-! ### Replies (R180 to R182) -/

/-- What the reader makes of a reply. -/
inductive Heard where
  | late
  | crc
  | collision (bit : Nat)
  | bits (l : List Bool)
  deriving DecidableEq, Repr

/-- A reply due `due` carrier cycles after the frame, of `n` bits and their CRC: within ±8 cycles, else a timing error; a
violation is a collision; else the CRC decides (R180 to R182). -/
def hear (due n : Nat) (r : AirReply) : Heard :=
  if due + 8 < r.start ∨ r.start + 8 < due then .late
  else match r.violation with
    | some p => if p < n ∧ r.bits.length = p then .collision p else .crc
    | none => if r.bits.length = n + 16 ∧ crcBits (r.bits.take n) = bitsVal (r.bits.drop n) then .bits (r.bits.take n) else .crc

/-- A reply to a command other than QUERY and SLOT. -/
def hearReply (n : Nat) (r : AirReply) : Heard := hear 1236 n r

/-- The reader's collision counter. -/
def countColl (s : State) : State := { s with rdr := { s.rdr with coll := satInc 16 s.rdr.coll } }

/-- The reader's CRC counter. -/
def countCrc (s : State) : State := { s with rdr := { s.rdr with crc := satInc 16 s.rdr.crc } }

/-- CRC_CNT and COLL_CNT count every reply (R182, Table 07-6). -/
def countReply (s : State) : Heard → State
  | .late => countColl s
  | .crc => countCrc s
  | .collision _ => countColl s
  | .bits _ => s

/-- Status OK of a reply that begins with its status; the bits after it. -/
def okBits : Heard → Option (List Bool)
  | .bits l => if bitsVal (l.take 4) = 0 then some (l.drop 4) else none
  | _ => none

/-! ### Sending -/

/-- A command sent, unless its exchange would not fit in the window (R176). -/
def sendTag (s : State) (c : TagCmd) : State :=
  if s.rdr.full = true ∨ windowCycles < s.rdr.used + c.exchange then { s with rdr := { s.rdr with full := true } }
  else { s with rdr := { s.rdr with air := s.rdr.air ++ [.frame c], used := s.rdr.used + c.takes } }

/-- Commands sent one after the other. -/
def sendAll (s : State) (l : List TagCmd) : State := l.foldl sendTag s

/-- A SELECT of one tag, which draws its status (R183). -/
def selectOf (id : Nat) : TagCmd := .select (bitsBE 64 id)

/-- Time of the window that something other than a command takes. -/
def spendCycles (s : State) (n : Nat) : State := { s with rdr := { s.rdr with used := s.rdr.used + n } }

/-! ### Crew cards (R194; the frames of ISO/IEC 14443-3 are PRESUMED, log 86) -/

/-- One bit of CRC_A: reflected polynomial 0x8408. -/
def crcABit (c : Nat) : Nat := if c % 2 = 1 then Nat.xor (c / 2) 0x8408 else c / 2

/-- CRC_A of a frame, low byte first; initial value 0x6363. -/
def crcA (bs : Bytes) : Bytes := toLe 2 (bs.foldl (fun c b => Nat.repeat crcABit 8 (Nat.xor c b.toNat)) 0x6363)

/-- SEL of a cascade level, from 0. -/
def selCode (level : Nat) : Byte := BitVec.ofNat 8 (0x93 + 2 * level)

/-- NVB for `n` known bits of a level's 40: whole bytes, SEL and NVB among them, then bits. -/
def nvb (n : Nat) : Byte := BitVec.ofNat 8 (16 * (2 + n / 8) + n % 8)

/-- The first `n` bits of a level's five bytes, least significant bit of a byte first, the rest zero. -/
def knownBits (bs : Bytes) (n : Nat) : Bytes :=
  (bs.take ((n + 7) / 8)).mapIdx fun i b => BitVec.ofNat 8 (b.toNat % 2 ^ (min 8 (n - 8 * i)))

/-- The anticollision loop of a level: one frame with nothing known, one more for each collision, with the bits up to the
collided one (R194). -/
def loopFrames (level : Nat) (x : CardLevel) : List Bytes :=
  [selCode level, nvb 0] :: x.collisions.map fun p => [selCode level, nvb (p + 1)] ++ knownBits (x.bytes ++ [x.bcc]) (p + 1)

/-- SELECT of a level, with CRC_A. -/
def selectFrame (level : Nat) (x : CardLevel) : Bytes :=
  let b := [selCode level, 0x70] ++ x.bytes ++ [x.bcc]
  b ++ crcA b

/-- REQA, WUPA (7 bits each) and HLTA. -/
def reqa : Bytes := [0x26]
/-- WUPA. -/
def wupa : Bytes := [0x52]
/-- HLTA, with CRC_A. -/
def hlta : Bytes := [0x50, 0x00] ++ crcA [0x50, 0x00]

/-- The frames that select a card and halt it. -/
def cardFrames (levels : List CardLevel) : List Bytes :=
  (levels.mapIdx fun k x => loopFrames k x ++ [selectFrame k x]).flatten ++ [hlta]

/-- A level's answer holds: four bytes whose exclusive or is BCC, and the cascade tag 0x88 in front exactly where another
level follows. -/
def levelOk (last : Bool) (x : CardLevel) : Bool :=
  decide (x.bytes.length = 4 ∧ x.bytes.foldl (· ^^^ ·) 0 = x.bcc) && ((x.bytes.head? == some 0x88) != last)

/-- The UID of 4, 7 or 10 bytes that one to three levels give (R194). -/
def cardUidOf (levels : List CardLevel) : Option Bytes :=
  let n := levels.length
  if 1 ≤ n ∧ n ≤ 3 ∧ ((List.range n).all fun k => levelOk (k + 1 == n) (levels.getD k ⟨[], [], 0⟩)) = true then
    some ((levels.mapIdx fun k x => if k + 1 = n then x.bytes else x.bytes.drop 1).flatten)
  else none

end Sys2Proof.Machine
end

