-- ==== Sys2Proof/Machine/Reader.lean ====
section
/-!
DEFINITION. The tag reader's commands (R175 to R195): cycle and windows, inventory with collision resolution, the reading of
tag contents, sensor readings, tag writes, antenna faults and crew cards.
-/
namespace Sys2Proof.Machine

/-! ### Windows (R175, R176) -/

/-- PORT_EN of antenna port `p`. -/
def portEn (s : State) (p : Nat) : Bool := cfgB s 0x21 0 (0x004 + 4 * p) 31

/-- SENSORS of a handle port. -/
def sensors (s : State) (o : Fin 2) : Nat := cfgN s 0x21 0 (0x004 + 4 * o) 26 24

/-- The tags expected on a handle port (R188). -/
def expected (s : State) (o : Fin 2) : Nat := 1 + sensors s o

/-- The antenna port of an outlet. -/
def handlePort (o : Fin 2) : Fin 3 := if o = 0 then 0 else 1

/-- The reader runs sensor cycles for an outlet (Table 07-1). -/
def sensorCycle (s : State) (o : Fin 2) : Bool :=
  match s.outlet[o].st with
  | .idle => false | .plugged => false | .finished => false
  | .faulted => (s.lk.outlet[o]).lock || (s.lk.outlet[o]).lockFb
  | _ => true

/-- A handle window has work (Table 07-1). -/
def handleWork (s : State) (o : Fin 2) : Bool :=
  portEn s o && (decide (s.outlet[o].st = .plugged) || sensorCycle s o || s.rdr.port[o].mate.isSome || s.rdr.port[o].write.busy)

/-- A reading missed (R177). -/
def missReading (s : State) (o : Fin 2) (k : Fin 7) (tstat : Nat) : State :=
  let t := updPort s o fun p => { p with tag := upd p.tag k fun e => { e with tstat := tstat } }
  { t with rdr := { t.rdr with miss := satInc 16 t.rdr.miss } }

/-- The sensor tags found with a POSITION from `k` on, in POSITION order. -/
def sensorsFrom (p : HandlePort) (k : Nat) : List (Fin 7) :=
  (List.finRange 7).filter fun j => decide (k ≤ j ∧ j ≠ 0) && decide (p.tag[j].id ≠ 0)

/-- A sensor cycle that the window has cut off: the readings not made are missed (R177). -/
def cutCycle (s : State) (o : Fin 2) : State :=
  match s.rdr.port[o].cyc with
  | none => s
  | some k => (sensorsFrom s.rdr.port[o] k).foldl (fun t j => missReading t o j 2)
      (updPort s o fun p => { p with cyc := none, retried := false })

/-- The end of a window: the field goes off, and with it a tag's harvest output (R192). -/
def closeWindow (s : State) : State :=
  let t := cutCycle (cutCycle s 0) 1
  let ports : Vector HandlePort 2 := t.rdr.port.map fun p => { p with harvOn := false }
  { t with rdr := { t.rdr with
    window := none, field := false, settled := false, air := [], used := 0, full := false, pad := [], port := ports } }

/-- READER_CYCLE_START (R176): the windows of the next 100 ms are assigned. -/
def execReaderCycleStart (s : State) : Out :=
  .next (
    let t := closeWindow s
    { t with rdr := { t.rdr with cycles := t.rdr.cycles + 1, work := Vector.ofFn fun o => handleWork t o } })

/-- A window given to a port: ANT_SEL changes with the field off, then the field comes on (R175); below Underway
the reader is off (Table 20-4). -/
def openWindow (s : State) (p : Fin 3) : State :=
  let t := closeWindow s
  let on := portEn t p && t.landfall.vddRf && !t.flt.island[4].lost && !t.flt.island[4].off
    && t.pwr.rung == .underway
  { t with rdr := { t.rdr with
    ant := if on then p else 3, field := on, window := if on then some p else none, harvPower := false } }

/-- PORT_WINDOW_START (R176): a handle window without work goes to port 2; an inventory not complete restarts. -/
def execPortWindowStart (p : Fin 3) (s : State) : Out :=
  .next (match p with
    | 0 => if s.rdr.work[(0 : Fin 2)] then updPort (openWindow s 0) 0 fun x => { x with inv := {} } else openWindow s 2
    | 1 => if s.rdr.work[(1 : Fin 2)] then updPort (openWindow s 1) 1 fun x => { x with inv := {} } else openWindow s 2
    | 2 => openWindow s 2)

/-- The reader can exchange frames with the tags of an outlet: its window is open with time left, the field settled, no
ANT_FAULT. -/
def talking (s : State) (o : Fin 2) : Bool :=
  decide (s.rdr.window = some (handlePort o)) && s.rdr.field && s.rdr.settled && !s.rdr.full && !s.rdr.antFault[handlePort o]

/-! ### Inventory (R186 to R188) -/

/-- Q := round(Qfp), halves up; Qfp in steps of 0.125. -/
def qOf (qfp : Nat) : Nat := (qfp + 4) / 8

/-- Qfp after a frame (R186). -/
def nextQfp (qfp coll empt : Nat) : Nat := (clampInt 0 64 ((qfp : Int) + 2 * coll - empt)).toNat

/-- A new frame is opened by QUERY, in SESSION 0 for port 0 and 1 for port 1 (R188). -/
def query (s : State) (o : Fin 2) (confirming : Bool) : State :=
  let q := if confirming then 0 else qOf s.rdr.port[o].qfp
  sendTag (updPort s o fun p =>
    { p with inv := { p.inv with
      active := true, q := q, slot := 0, sub := 0, collisions := 0, empties := 0
      confirming := confirming, branches := [], select := none } }) (.query q o.val [])

/-- The end of a frame: Qfp follows its collisions and empties, but for a confirming one (R186). -/
def endFrame (s : State) (o : Fin 2) : State :=
  updPort s o fun p => if p.inv.confirming then p else { p with qfp := nextQfp p.qfp p.inv.collisions p.inv.empties }

/-- After a slot: the confirming QUERY once every expected tag is halted, the next slot, or a new frame (R188); `sent`: the
slot was resolved, so that SLOT opens the next one (R187). -/
def nextSlot (s : State) (o : Fin 2) (sent : Bool) : State :=
  let i := s.rdr.port[o].inv
  if i.confirming then query s o true
  else if expected s o ≤ i.halted.length then query (endFrame s o) o true
  else if i.slot + 1 < 2 ^ i.q then
    let t := updPort s o fun p =>
      { p with inv := { i with slot := i.slot + 1, sub := if sent then 0 else i.sub + 1, branches := [], select := none } }
    if sent then sendTag t .slot else t
  else query (endFrame s o) o false

/-- A tag singled out is halted; in a confirming frame, or beyond the expected number, it is an extra tag (R188)
(DEDUCED, log 48). -/
def haltTag (s : State) (o : Fin 2) (ident : Nat) : State :=
  let n := expected s o
  sendTag (updPort s o fun p =>
    if p.inv.halted.contains ident then p
    else if p.inv.confirming = true ∨ n ≤ p.inv.halted.length then { p with tagExtra := true }
    else { p with inv := { p.inv with halted := p.inv.halted ++ [ident] } }) .halt

/-- SELECT of a branch (R187). -/
def takeBranch (s : State) (o : Fin 2) (b : Branch) (rest : List Branch) : State :=
  sendTag (updPort s o fun p => { p with inv := { p.inv with branches := rest, select := some b } })
    (.select (bitsBE b.len b.mask))

/-- After a resolved reply: the next branch of the collision, unless every expected tag is halted, else the next slot
(R187, R188) (DEDUCED, log 48). -/
def nextBranch (s : State) (o : Fin 2) : State :=
  let i := s.rdr.port[o].inv
  match i.branches with
  | b :: rest =>
    if i.confirming = false ∧ expected s o ≤ i.halted.length then
      nextSlot (updPort s o fun p => { p with inv := { p.inv with select := none } }) o true
    else takeBranch s o b rest
  | [] => nextSlot (updPort s o fun p => { p with inv := { p.inv with select := none } }) o true

/-- A collision at bit `k`: the branch with bit `k` = 0 first, then the one with 1 (R187) (DEDUCED, log 48). -/
def splitAt (s : State) (o : Fin 2) (k bits : Nat) : State :=
  takeBranch s o ⟨k + 1, 2 * bits⟩ (⟨k + 1, 2 * bits + 1⟩ :: s.rdr.port[o].inv.branches)

/-- No usable bits: SLOT; the tags concerned are found in a later frame (R187). -/
def dropSlot (s : State) (o : Fin 2) : State :=
  nextSlot (updPort s o fun p => { p with inv := { p.inv with branches := [], select := none } }) o true

/-- The handle port whose inventory is under way. -/
def invPort (s : State) : Option (Fin 2) :=
  (List.finRange 2).find? fun o => talking s o && s.rdr.port[o].inv.active

/-- A collision of the frame. -/
def noteColl (s : State) (o : Fin 2) : State :=
  updPort s o fun p => { p with inv := { p.inv with collisions := p.inv.collisions + 1 } }

/-- SLOT_REPLY_RECEIVED (R182, R185, R187): the freeze notch goes out 288 carrier cycles after the slot's start, inside the
reply's gap. -/
def execSlotReplyReceived (r : AirReply) (s : State) : Out :=
  .next (match invPort s with
    | none => s
    | some o =>
      let i := s.rdr.port[o].inv
      if i.select.isSome then s
      else
        let due := 1236 + 2048 * i.sub
        let h := hear due 64 r
        let t := spendCycles (countReply s h) (slotReplyCycles + 128)
        let t := { t with rdr := { t.rdr with air := t.rdr.air ++ [.freeze (due + 288)] } }
        match h with
        | .bits l => nextSlot (haltTag t o (bitsVal l)) o true
        | .crc => dropSlot t o
        | .collision k => splitAt (noteColl t o) o k (bitsVal r.bits)
        | .late => dropSlot (noteColl t o) o)

/-! ### What the tags hold (R159, R193) -/

/-- Block `k` read from a tag, from 1. -/
def Found.block (x : Found) (k : Nat) : Bytes := x.blocks.getD (k - 1) []

/-- CLASS, the identifier's first byte (R193). -/
def Found.cls (x : Found) : Nat := x.id / 2 ^ 56

/-- The blocks the reader reads of a tag: 1 to 8 of an identity tag, 1 to 3 of a sensor tag (R193). -/
def Found.wants (x : Found) : Nat := if x.cls = 1 then 8 else 3

/-- POSITION of a sensor tag that R193 accepts: CRC-32 over blocks 1 and 2 in block 3, CLASS, FORMAT, POSITION 1 to 6. -/
def Found.position (x : Found) : Option Nat :=
  let b1 := x.block 1
  let pos := beNat (slice b1 2 1)
  if x.cls = 2 ∧ 3 ≤ x.blocks.length ∧ crc32 (b1 ++ x.block 2) = beNat (slice (x.block 3) 0 4)
      ∧ beNat (slice b1 0 1) = 2 ∧ beNat (slice b1 1 1) = 1 ∧ 1 ≤ pos ∧ pos ≤ 6 then some pos else none

/-- What an identity tag's eight blocks say; it is accepted if CONTENT_CRC over blocks 1 to 6 matches (R193). -/
def Found.identity (x : Found) : TagIdent :=
  let b := x.block
  { ok := decide (crc32 ((x.blocks.take 6).flatten) = beNat (slice (b 7) 0 4) ∧ beNat (slice (b 1) 0 1) = 1
      ∧ beNat (slice (b 1) 1 1) = 1)
    id := x.id, cableType := beNat (slice (b 2) 0 1), vRated := beNat (slice (b 2) 1 2), iRated := beNat (slice (b 2) 3 2)
    length := beNat (slice (b 2) 5 2), serial := beNat (b 3), res20 := beNat (slice (b 4) 0 4), lossK := beNat (slice (b 4) 4 4)
    makeTime := beNat (b 5), mateCount := beNat (slice (b 8) 0 4), block8 := b 8 }

/-- The identifiers of the tag table: the identity tag, and the sensor tag of each POSITION that is unique (R193). -/
def tagIds (found : List Found) (k : Fin 7) : Nat :=
  if k = 0 then ((found.find? fun x => x.cls == 1).map (·.id)).getD 0
  else match found.filter fun x => x.position == some k.val with
    | [x] => x.id
    | _ => 0

/-- The tag table after a block has been read. -/
def fileTags (p : HandlePort) : HandlePort :=
  let id := (p.found.find? fun x => x.cls == 1 && x.blocks.length == 8).map Found.identity
  { p with
    tag := Vector.ofFn fun k : Fin 7 => { p.tag[k] with id := tagIds p.found k }
    identRead := id.isSome, ident := id.getD p.ident }

/-- The next tag whose blocks are still to be read: sensor tags first, then the identity tag (DEDUCED, log 48). -/
def toRead (p : HandlePort) : Option Found :=
  let open_ := p.found.filter fun x => decide (x.blocks.length < x.wants)
  match open_.find? fun x => x.cls != 1 with
  | some x => some x
  | none => open_.head?

/-- Reading goes on with SELECT and READ of the next block, or ends with HALT. -/
def readNext (s : State) (o : Fin 2) : State :=
  match toRead s.rdr.port[o] with
  | none => updPort s o fun p => { p with rd := none }
  | some x =>
    let t := if s.rdr.port[o].rd = some x.id then s else sendTag (updPort s o fun p => { p with rd := some x.id }) (selectOf x.id)
    sendTag t (.read (x.blocks.length + 1))

/-- SLOT_EMPTY (R185): in a confirming frame the inventory is complete, and the halted tags are read (R188, R193). -/
def execSlotEmpty (s : State) : Out :=
  .next (match invPort s with
    | none => s
    | some o =>
      let i := s.rdr.port[o].inv
      let t := spendCycles s 2048
      if i.select.isSome then s
      else if i.confirming then
        readNext (updPort t o fun p =>
          { p with invDone := true, inv := {}, rd := none, found := i.halted.map fun id => { id := id } }) o
      else nextSlot (updPort t o fun p => { p with inv := { p.inv with empties := p.inv.empties + 1 } }) o false)

/-- SELECT_REPLY_RECEIVED (R187). With a complete mask the tag answers its status and is halted. -/
def execSelectReplyReceived (r : AirReply) (s : State) : Out :=
  .next (match invPort s with
    | none => s
    | some o =>
      match s.rdr.port[o].inv.select with
      | none => s
      | some b =>
        let h := hearReply (if b.len = 64 then 4 else 64) r
        let t := countReply s h
        match h with
        | .bits l => if b.len = 64 ∧ bitsVal l ≠ 0 then dropSlot t o else nextBranch (haltTag t o (if b.len = 64 then b.mask else bitsVal l)) o
        | .collision k => if b.len ≤ k ∧ b.len < 64 then splitAt (noteColl t o) o k (bitsVal r.bits) else dropSlot (noteColl t o) o
        | .late => dropSlot (noteColl t o) o
        | .crc => dropSlot t o)

/-! ### Cable check (R158, R159) -/

/-- The other outlet. -/
def other (o : Fin 2) : Fin 2 := if o = 0 then 1 else 0

/-- The outlet enters CABLE_CHECK once the identity tag and both pin sensor tags are read. -/
def enterCableCheck (s : State) (o : Fin 2) : State :=
  let p := s.rdr.port[o]
  if s.outlet[o].st = .plugged ∧ p.invDone = true ∧ p.identRead = true ∧ p.tag[(1 : Fin 7)].id ≠ 0
      ∧ p.tag[(2 : Fin 7)].id ≠ 0 then
    updOutlet (enter s o .cableCheck) o fun x => { x with since := s.outlet[other o].since + 1 }
  else s

/-- The cable types permitted for an outlet type (R193). -/
def typePermitted (outTy cable : Nat) : Bool :=
  if outTy = 1 then cable == 1 else if outTy = 2 then cable == 2 || cable == 3 else false

/-- The sensor tags expected are there: `SENSORS` of them, POSITION 1 to 6. -/
def sensorTags (p : HandlePort) : List (Fin 7) := (List.finRange 7).filter fun k => k ≠ 0 && p.tag[k].id ≠ 0

/-- The checks of R159 hold, every sensor tag having reported. -/
def cableGood (s : State) (o : Fin 2) : Bool :=
  let p := s.rdr.port[o]
  let serial := (merWord s (regAddr 0x30 (0x500 + o) 0x018)).toNat + 2 ^ 32 * (merWord s (regAddr 0x30 (0x500 + o) 0x01C)).toNat
  p.ident.ok && typePermitted (outType s o) p.ident.cableType
    && decide (cfgN s 0x20 o 0x000 15 0 ≤ p.ident.iRated) && p.ident.serial == serial
    && (sensorTags p).all (fun k => decide (-4000 ≤ p.tag[k].temp ∧ p.tag[k].temp ≤ 6000))
    && !s.rdr.antFault[handlePort o]

/-- The cable check judged: it waits until every sensor tag has given a valid reading (R159). -/
def judgeCable (s : State) (o : Fin 2) : State :=
  let p := s.rdr.port[o]
  if s.outlet[o].st = .cableCheck ∧ s.outlet[o].cablePass = false
      ∧ (sensorTags p).length = sensors s o ∧ ((sensorTags p).all fun k => p.tag[k].seen) = true then
    if cableGood s o then
      proceedCable (updOutlet s o fun x => { x with cablePass := true, tmr := { x.tmr with inventory := false } }) o
    else outletFault s o .cable
  else s

/-- TAG_READ_REPLY (R193): the reply to the READ under way is the tag's next block; one that is not valid is counted, and the
block read again in the next window. -/
def execTagReadReply (o : Fin 2) (r : AirReply) (s : State) : Out :=
  .next (match s.rdr.port[o].rd with
    | none => s
    | some id =>
      if talking s o then
        let h := hearReply 68 r
        let t := countReply s h
        match okBits h with
        | none => updPort t o fun p => { p with rd := none }
        | some l =>
          let t := updPort t o fun p => fileTags
            { p with found := p.found.map fun x => if x.id = id then { x with blocks := x.blocks ++ [bitsBytes l] } else x }
          let t := if (toRead t.rdr.port[o]).map (·.id) = some id then t else sendTag t .halt
          enterCableCheck (readNext t o) o
      else s)

/-! ### Sensor cycles (R177) -/

/-- The cycle goes on with the first sensor tag from POSITION `k` on: SELECT with the full identifier, then MEASURE. -/
def measureFrom (s : State) (o : Fin 2) (k : Nat) : State :=
  match (sensorsFrom s.rdr.port[o] k).head? with
  | none => updPort s o fun p => { p with cyc := none, retried := false }
  | some j =>
    sendAll (updPort s o fun p => { p with cyc := some j, retried := false }) [selectOf s.rdr.port[o].tag[j].id, .measure]

/-- A temperature in 0.01 °C as °C in Q16.16. -/
def celsiusQ16 (t : Int) : Int := roundDiv (t * 65536) 100

/-- The reading passed on as a cooling input (R171, Table 06-9); input 0 is the greater pin temperature at the greater
of the two ages. -/
def passReading (s : State) (o : Fin 2) (k : Fin 7) : State :=
  let e := s.rdr.port[o].tag[k]
  let j : Fin 8 := if k.val = 6 then 7 else Fin.ofNat 8 k.val
  let t := coolInput s o j (celsiusQ16 e.temp) e.time
  let p := (t.cooling[o]).input[(1 : Fin 8)]
  let n := (t.cooling[o]).input[(2 : Fin 8)]
  if (k.val = 1 ∨ k.val = 2) ∧ p.valid = true ∧ n.valid = true then
    coolInput t o 0 (max p.value n.value) (min p.time n.time)
  else t

/-- The exchange under way with a sensor tag is the one named. -/
def readsSensor (s : State) (o : Fin 2) (k : Fin 7) : Bool :=
  talking s o && sensorCycle s o && decide (s.rdr.port[o].cyc = some k)

/-- The tag is halted, and the cycle goes on (R177). -/
def doneSensor (s : State) (o : Fin 2) (k : Fin 7) : State := measureFrom (sendTag s .halt) o (k + 1)

/-- An exchange that drew no valid reply: repeated once in the window, then missed (R177). -/
def noReading (s : State) (o : Fin 2) (k : Fin 7) : State :=
  if s.rdr.port[o].retried then measureFrom (missReading s o k 2) o (k + 1)
  else sendAll (updPort s o fun p => { p with retried := true }) [selectOf s.rdr.port[o].tag[k].id, .measure]

/-- SENSOR_MEASURE_REPLY (R177): TEMP and VCAP of the tag addressed; a TEMP of 0x8000 is a failed sensor, treated as a missed
reading (R193). -/
def execSensorMeasureReply (o : Fin 2) (k : Fin 7) (r : AirReply) (s : State) : Out :=
  .next (if readsSensor s o k then
    let h := hearReply 28 r
    let t := countReply s h
    match okBits h with
    | none => noReading t o k
    | some l =>
      let temp := toSigned 16 (bitsVal (l.take 16))
      if temp = -32768 then doneSensor (logDetect (missReading t o k 3) 0x0A02 .helm o) o k
      else
        let t := updPort t o fun p =>
          { p with tag := upd p.tag k fun e => { e with temp := temp, time := s.nowNs, tstat := 1, seen := true } }
        judgeCable (doneSensor (passReading t o k) o k) o
    else s)

/-- TAG_EXCHANGE_NO_REPLY (R177) (DEDUCED, log 48). -/
def execTagExchangeNoReply (o : Fin 2) (k : Fin 7) (s : State) : Out :=
  .next (if readsSensor s o k then noReading s o k else s)

/-! ### Tag writes (R189 to R193) -/

/-- The field at the larger of RF_PWR and HARV_PWR (R191). -/
def strongField (s : State) : State :=
  { s with rdr := { s.rdr with harvPower := decide (cfgN s 0x21 0 0x000 31 24 ≤ cfgN s 0x21 0 0x000 23 16) } }

/-- The mating count that is due is written to block 8 of the identity tag (R193). -/
def startMate (s : State) (o : Fin 2) : State :=
  match s.rdr.port[o].mate with
  | some m =>
    sendAll (updPort s o fun p =>
      { p with mate := none, write := { busy := true, id := m.id, block := 8, old := m.old, new := m.new } })
      [selectOf m.id, .write 8 m.new]
  | none => s

/-- The READ that checks an unconfirmed write (R190). -/
def askReadback (s : State) (o : Fin 2) : State :=
  sendAll s [selectOf s.rdr.port[o].write.id, .read s.rdr.port[o].write.block]

/-- The first commands of a handle window (Table 07-1, R175): a read-back that is due, the mating count, the inventory and the
reading of a plugged outlet's tags, or a sensor cycle (DEDUCED, log 49). -/
def windowWork (s : State) (o : Fin 2) : State :=
  let p := s.rdr.port[o]
  if p.write.busy && p.write.readBack then askReadback s o
  else if p.mate.isSome && !p.write.busy then startMate s o
  else if s.outlet[o].st = .plugged ∧ p.invDone = false then query s o false
  else if (s.outlet[o].st = .plugged ∨ s.outlet[o].st = .cableCheck) ∧ (toRead p).isSome = true then
    readNext (updPort s o fun q => { q with rd := none }) o
  else if sensorCycle s o then measureFrom s o 1
  else s

/-- FIELD_SETTLED (R175): T_SETTLE has passed, and the window's work begins (DEDUCED, log 49). -/
def execFieldSettled (s : State) : Out :=
  .next (if s.rdr.field && !s.rdr.settled then
    let t := { s with rdr := { s.rdr with settled := true, used := cfgN s 0x21 0 0x000 7 0 * 1356 } }
    (List.finRange 2).foldl (fun u o => if talking u o then windowWork u o else u) t
    else s)

/-- The record of a write's outcome: tag identifier, block (R190). -/
def logWrite (s : State) (o : Fin 2) (report : Nat) : State :=
  let w := s.rdr.port[o].write
  logRec s (Config.eventCode 190) .helm 0 o (toBe 8 w.id ++ toBe 1 w.block ++ toBe 1 report)

/-- A write is over with a report; the tag is halted. -/
def endWrite (s : State) (o : Fin 2) (report : Nat) (written : Bool) : State :=
  updPort s o fun p =>
    { p with
      write := { p.write with busy := false, readBack := false, report := report }
      ident := if written && p.ident.id == p.write.id then
        { p.ident with block8 := p.write.new, mateCount := beNat (p.write.new.take 4) } else p.ident }

/-- A WRITE that draws no valid reply (R190): UNCONFIRMED, and the block is read back. -/
def unconfirm (s : State) (o : Fin 2) : State :=
  let t := updPort s o fun p => { p with write := { p.write with readBack := true, attempts := 0, report := 4 } }
  let t := logWrite { t with rdr := { t.rdr with unconf := satInc 16 t.rdr.unconf } } o 4
  if talking t o then askReadback t o else t

/-- TAG_WRITE_REPLY (R189 to R191): a reply that is not valid leaves the write unconfirmed (DEDUCED, log 49). -/
def execTagWriteReply (o : Fin 2) (r : AirReply) (s : State) : Out :=
  .next (if talking s o && s.rdr.port[o].write.busy && !s.rdr.port[o].write.readBack then
    let h := hearReply 4 r
    let t := countReply s h
    match h with
    | .bits l =>
      match bitsVal l with
      | 0 => endWrite t o 1 true
      | 2 => logWrite (endWrite t o 2 false) o 2
      | 1 =>
        if t.rdr.port[o].write.repeated then logWrite (endWrite t o 3 false) o 3
        else
          sendTag (strongField (updPort t o fun p => { p with write := { p.write with repeated := true } }))
            (.write t.rdr.port[o].write.block t.rdr.port[o].write.new)
      | _ => unconfirm t o
    | _ => unconfirm t o
    else s)

/-- WRITE_UNCONFIRMED (R190). -/
def execWriteUnconfirmed (o : Fin 2) (s : State) : Out :=
  .next (if s.rdr.port[o].write.busy && !s.rdr.port[o].write.readBack then unconfirm s o else s)

/-- A read-back attempt without a valid READ reply: the third is the last (R190). -/
def missReadback (s : State) (o : Fin 2) : State :=
  if 2 ≤ s.rdr.port[o].write.attempts then logWrite (endWrite s o 7 false) o 7
  else askReadback (updPort s o fun p => { p with write := { p.write with attempts := p.write.attempts + 1 } }) o

/-- WRITE_READBACK (R190): `none` is an attempt without a reply (DEDUCED, log 48). -/
def execWriteReadback (o : Fin 2) (r : Option AirReply) (s : State) : Out :=
  .next (
    let w := s.rdr.port[o].write
    if talking s o && w.busy && w.readBack then
      match r with
      | none => missReadback s o
      | some x =>
        let h := hearReply 68 x
        let t := countReply s h
        match okBits h with
        | none => missReadback t o
        | some l =>
          let d := bitsBytes l
          if d = w.new then logWrite (endWrite t o 5 true) o 5
          else if d = w.old then logWrite (endWrite t o 6 false) o 6
          else logWrite (endWrite t o 7 false) o 7
    else s)

/-! ### Antenna (R178) -/

/-- The load lies from 25 Ω to 100 Ω. -/
def loadGood (x : AntLoad) : Bool := decide (250 ≤ x.ohms ∧ x.ohms ≤ 1000)

/-- The transmit current is within 30 % of its Landfall value; without one, no deviation is seen. -/
def currentGood (s : State) (p : Fin 3) (x : AntLoad) : Bool :=
  let ref := s.rdr.antRef[p]
  decide (ref = 0 ∨ ((x.current : Int) - ref).natAbs * 100 ≤ 30 * ref)

/-- ANT_FAULT_RUNTIME (R178): a deviation over 30 % sets the bit, a measurement within limits clears it (DEDUCED, log 49). -/
def execAntFaultRuntime (p : Fin 3) (load : AntLoad) (s : State) : Out :=
  .next (
    let put := fun (b : Bool) => { s with rdr := { s.rdr with antFault := s.rdr.antFault.set p b } }
    if !currentGood s p load then
      let t := if s.rdr.antFault[p] then s else logDetect (put true) 0x0A01 .helm p
      let fails := fun (u : State) (o : Fin 2) =>
        if handlePort o = p ∧ u.outlet[o].st = .cableCheck ∧ u.outlet[o].cablePass = false then outletFault u o .cable else u
      fails (fails t 0) 1
    else if s.rdr.antFault[p] && loadGood load then
      let t := logClear (put false) 0x0A01 .helm p
      { t with rdr := { t.rdr with antRef := if s.rdr.antRef[p] = 0 then s.rdr.antRef.set p load.current else s.rdr.antRef } }
    else s)

/-! ### Crew cards (R194, R168) -/

/-- The card pad is read: its window is open and T_SETTLE has passed (R175). -/
def padOpen (s : State) : Bool :=
  decide (s.rdr.window = some 2) && s.rdr.field && s.rdr.settled && !s.rdr.antFault[(2 : Fin 3)]

/-- Frames sent to the card pad. -/
def sendPad (s : State) (l : List Bytes) : State := { s with rdr := { s.rdr with pad := s.rdr.pad ++ l } }

/-- REQA_POLL (R194): REQA, and WUPA to see whether the cards presented are still there. -/
def execReqaPoll (s : State) : Out :=
  .next (if padOpen s then
    sendPad { s with rdr := { s.rdr with polls := s.rdr.polls + 1 } } (reqa :: if s.rdr.cards.isEmpty then [] else [wupa])
    else s)

/-- An outlet waits for EIM in CABLE_CHECK (R168) (DEDUCED, log 45). -/
def waitsEim (s : State) (o : Fin 2) : Bool :=
  decide (s.outlet[o].st = .cableCheck) && s.outlet[o].link.started && cfgB s 0x20 o 0x000 22

/-- The outlet a card binds to: the one that entered CABLE_CHECK first (DEDUCED, log 45). -/
def cardOutlet (s : State) : Option (Fin 2) :=
  match waitsEim s 0, waitsEim s 1 with
  | true, true => if s.outlet[(1 : Fin 2)].since < s.outlet[(0 : Fin 2)].since then some 1 else some 0
  | true, false => some 0
  | false, true => some 1
  | false, false => none

/-- CARD_SELECTED (R194, R168): the anticollision loop of each cascade level, SELECT and HLTA; the card is reported once per
presentation, and bound. -/
def execCardSelected (atqa : Nat) (levels : List CardLevel) (sak : Nat) (s : State) : Out :=
  .next (match padOpen s, cardUidOf levels with
    | true, some uid =>
      let t := sendPad s (cardFrames levels)
      if s.rdr.cards.contains uid then t
      else
        let t := { t with rdr := { t.rdr with
          cards := t.rdr.cards ++ [uid], cardUid := uid, cardBcc := levels.map (·.bcc), cardAtqa := atqa, cardSak := sak } }
        let b := cardOutlet t
        let ev := toBe 1 uid.length ++ toBe 2 atqa ++ toBe 1 sak ++ (uid ++ List.replicate 10 0).take 10
          ++ toBe 1 (match b with
            | some o => o.val
            | none => 0xFF)
        let t := logRec (emitEvent t 0x81 [0, 1] ev) (Config.eventCode 409) .helm 0 0x81 ev
        match b with
        | some o => identify t o .card uid true
        | none => t
    | _, _ => s)

/-- CARD_LEFT (R194). -/
def execCardLeft (uid : Bytes) (s : State) : Out :=
  .next { s with rdr := { s.rdr with cards := s.rdr.cards.filter (· ≠ uid) } }

end Sys2Proof.Machine
end

