-- ==== Sys2Proof/Machine/MeridianOps.lean ====
section
/-!
DEFINITION. What Meridian's commands share: legal events (R262), the register forms (R226), demand intervals (R252 to
R254), billing closes and snapshots (R255, R256), boundaries (R257, R258), steps of the Chronometer (R259 to R261),
records, restart (R238, R240) and the commit of legal parameters (R217).
-/
namespace Sys2Proof.Machine

/-! ### Legal sequence number and legal events -/

/-- The next legal sequence number (R230, R262). -/
def nextSeq (s : State) : Nat := (s.mer.legalSeq + 1) % 2 ^ 32

/-- A legal sequence number issued (R230). -/
def issueSeq (s : State) : State := { s with mer := { s.mer with legalSeq := nextSeq s } }

/-- The part is not a legal meter (R6, R218). -/
def notLegal (s : State) : Bool := decide (s.variant = .mn4800)

/-- Class of a legal event code (Table 10-4): 1 class C, 2 class F, 0 neither. -/
def legalClass (code : Nat) : Nat :=
  if 1 ≤ code ∧ code ≤ 5 then 1 else if code = 0x10 ∨ (0x12 ≤ code ∧ code ≤ 0x16) then 2 else 0

/-- A legal event raised (R262): a ring of 512, newest first; its class counter saturates at 32 bits. -/
def legalEvent (s : State) (code arg : Nat) (detail : List Nat) : State :=
  let ev : LegalEvent := ⟨nextSeq s, s.now, code, arg, detail⟩
  updLeg (issueSeq s) fun l =>
    { l with
      legalEvents := (ev :: l.legalEvents).take 512
      legalCnt := if legalClass code = 1 then satInc 32 l.legalCnt else l.legalCnt
      faultCnt := if legalClass code = 2 then satInc 32 l.faultCnt else l.faultCnt }

/-- Low word of a number. -/
def lo32 (v : Nat) : Nat := v % 2 ^ 32
/-- High word of a 64-bit number. -/
def hi32 (v : Nat) : Nat := v / 2 ^ 32 % 2 ^ 32
/-- A 64-bit number as two words, low first. -/
def words64 (v : Nat) : List Nat := [lo32 v, hi32 v]

/-- A list of words closed by its CRC-32, each word taken as 4 bytes, least significant first (Table 09-3). -/
def withCrc (ws : List Nat) : List Nat := ws ++ [crc32 (ws.flatMap (toLe 4))]

/-- The eight words of a legal event (R262). -/
def LegalEvent.words (e : LegalEvent) : List Nat :=
  withCrc ([e.seq] ++ words64 e.time ++ [e.code * 2 ^ 24 + e.arg % 2 ^ 16] ++ (e.detail ++ [0, 0, 0]).take 3)

/-! ### Register forms (R226) -/

/-- The host form in mWh of an internal energy. -/
def mWh (e : Nat) : Nat := e / 2 ^ 32 / 1000

/-- The display form in Wh of an internal energy. -/
def displayWh (e : Nat) : Nat := e / 2 ^ 32 / 1000000 % 10 ^ 12

/-- An internal energy increased, modulo 2^96 (R226). -/
def addE (a b : Nat) : Nat := (a + b) % 2 ^ 96

/-! ### Demand (R252 to R254) -/

/-- DEM_LEN in minutes. -/
def demLen (s : State) : Nat := merN s 0x700 0x014 30 24
/-- DEM_MODE is sliding. -/
def demSliding (s : State) : Bool := merN s 0x700 0x014 31 31 == 1
/-- DEM_K. -/
def demK (s : State) : Nat := merN s 0x700 0x014 23 20

/-- Power in W of an internal energy over a number of minutes, to the nearest whole W (rounding: DESIGN CHOICE, log
20). -/
def meanW (e minutes : Nat) : Nat := (roundDiv (e * 60) (2 ^ 32 * 1000000 * minutes)).toNat

/-- The union of two intervals' flags. -/
def DemFlags.union (a b : DemFlags) : DemFlags :=
  ⟨a.partial_ || b.partial_, a.outage || b.outage, a.adjusted || b.adjusted⟩

/-- A maximum, replaced by a greater demand only (R253). -/
def MaxDemand.take (m : MaxDemand) (w endNs : Nat) (f : DemFlags) : MaxDemand := if m.w < w then ⟨w, endNs, f⟩ else m

/-- The running interval of an outlet closes (R252, R253) and the next begins with flags `next`. -/
def closeInterval (sliding : Bool) (len k endNs : Nat) (next : DemFlags) (d : Demand) : Demand :=
  let sub : SubInterval := ⟨d.imp, d.exp, d.flags⟩
  let hist := (sub :: d.history).take 15
  let last := if sliding then hist.take k else [sub]
  let minutes := if sliding then k * len else len
  let f := last.foldl (fun a x => a.union x.flags) {}
  let wi := meanW (last.map (·.imp)).sum minutes
  let we := meanW (last.map (·.exp)).sum minutes
  { since := endNs, imp := 0, exp := 0, flags := next, history := hist, maxImp := d.maxImp.take wi endNs f
    maxExp := d.maxExp.take we endNs f, lastImp := wi, lastExp := we, lastEnd := endNs }

/-- Both outlets' intervals close at an instant; `mark` is applied to the flags of what closes. -/
def closeIntervals (s : State) (endNs : Nat) (mark : DemFlags) (next : DemFlags) : State :=
  updLeg s fun l =>
    { l with demand := l.demand.map fun d =>
        closeInterval (demSliding s) (demLen s) (demK s) endNs next { d with flags := d.flags.union mark } }

/-- Flags added to both running intervals. -/
def markIntervals (s : State) (f : DemFlags) : State :=
  updLeg s fun l => { l with demand := l.demand.map fun d => { d with flags := d.flags.union f } }

/-! ### Billing close (R255, R256) -/

/-- MD_FLAGS (Table 10-7). -/
def mdFlags (d : Demand) : Nat :=
  let f := fun (x : DemFlags) => flag x.partial_ + 2 * flag x.outage + 4 * flag x.adjusted
  f d.maxExp.flags * 16 + f d.maxImp.flags

/-- An outlet's 44 words of a snapshot (Table 10-3). -/
def snapOutlet (l : LegalSet) (o : Fin 2) : List Nat :=
  let e := l.energy[o]
  let d := l.demand[o]
  words64 (mWh e.imp) ++ words64 (mWh e.exp) ++ e.tarImp.toList.flatMap (fun x => words64 (mWh x))
    ++ e.tarExp.toList.flatMap (fun x => words64 (mWh x)) ++ [d.maxImp.w % 2 ^ 32] ++ words64 (ct64 d.maxImp.endNs)
    ++ [d.maxExp.w % 2 ^ 32] ++ words64 (ct64 d.maxExp.endNs) ++ [mdFlags d, 0]

/-- TIME_UNCERTAIN (R245). -/
def timeUncertain (s : State) : Bool := decide (merN s 0x700 0x010 5 0 * 1000000000 < s.mer.chr.uncNs)

/-- The flags word of a snapshot (Table 10-3). -/
def snapFlags (s : State) (sched cmd outage : Bool) : Nat :=
  flag sched + 2 * flag cmd + 4 * flag outage + 8 * flag s.mer.leg.perAdjusted + 16 * flag (timeUncertain s)
    + 32 * flag (!s.mer.chr.valid) + 64 * flag (notLegal s)

/-- The 128 words of a snapshot. -/
def snapWords (s : State) (seq atNs flags : Nat) : List Nat :=
  let l := s.mer.leg
  withCrc ([seq] ++ words64 (ct64 atNs) ++ [flags] ++ snapOutlet l 0 ++ snapOutlet l 1
    ++ words64 (mWh l.acImp) ++ words64 (mWh l.acExp) ++ List.replicate 31 0)

/-- The registers committed to MRAM (R230). -/
def commitRegs (s : State) : State :=
  { s with mer := { s.mer with saved := s.mer.leg, chr := { s.mer.chr with saved := s.mer.chr.ns } } }

/-- The billing period closes at an instant (R256) (DEDUCED, log 53). -/
def closePeriod (s : State) (atNs : Nat) (sched cmd outage : Bool) : State :=
  let t := issueSeq s
  let w := snapWords t t.mer.legalSeq atNs (snapFlags s sched cmd outage)
  commitRegs (updLeg t fun l =>
    { l with
      snapshots := (w :: l.snapshots).take 24, lastClose := atNs, perAdjusted := false
      demand := l.demand.map fun d => { d with maxImp := {}, maxExp := {} } })

/-- A second close at the instant of the last one: one close with both cause bits (R255) (DEDUCED, log 53). -/
def addCause (s : State) (cause : Nat) : State :=
  updLeg s fun l =>
    { l with snapshots := match l.snapshots with
        | w :: rest => withCrc ((w.take 127).set 3 ((w.getD 3 0) ||| cause)) :: rest
        | [] => [] }

/-! ### Boundaries (R249, R255, R257, R258) -/

/-- The instant, in ns, of a local second. -/
def utcNs (s : State) (ls ref : Nat) : Nat :=
  let u := ((ls : Int) - offsetNow s ref * 900).toNat
  ((ls : Int) - offsetNow s (u * 1000000000) * 900).toNat * 1000000000

/-- The next demand boundary after an instant: a whole number of intervals after a local hour, or the next hour. -/
def nextDemand (s : State) (ns : Nat) : Nat :=
  let off := offsetNow s ns
  let ls := localSec ns off
  let h := ls / 3600 * 3600
  let len := max 1 (demLen s * 60)
  (((h + min 3600 (((ls - h) / len + 1) * len) : Nat) : Int) - off * 900).toNat * 1000000000

/-- The next offset change after an instant that is no whole number of demand intervals (R249). -/
def nextOffset (s : State) (ns : Nat) : Option Nat :=
  match s.mer.tar.active with
  | some c => (c.changes.find? fun p =>
      decide (ns < p.1 ∧ ((p.2 - c.offsetAt (p.1 - 1)) * 15) % (max 1 (demLen s) : Nat) ≠ 0)).map (·.1)
  | none => none

/-- A local day has a scheduled close (R255). -/
def billingDay (s : State) (day : Nat) : Bool :=
  let mode := merN s 0x700 0x018 31 30
  let d := merN s 0x700 0x018 29 24
  if mode = 1 then (civil day).2.2 == d else if mode = 2 then weekday day + 1 == d else false

/-- The instant of the scheduled close of a local day. -/
def billingNs (s : State) (day ref : Nat) : Nat := utcNs s (day * 86400 + merN s 0x700 0x018 10 0 * 60) ref

/-- The next scheduled close after an instant. -/
def nextBilling (s : State) (ns : Nat) : Option Nat :=
  let d0 := localSec ns (offsetNow s ns) / 86400
  ((List.range 33).find? fun k => billingDay s (d0 + k) && decide (ns < billingNs s (d0 + k) ns)).map
    fun k => billingNs s (d0 + k) ns

/-- The pending calendar becomes active (R250). -/
def activateCalendar (s : State) : State :=
  match s.mer.tar.pending with
  | some c =>
    let t := { s with mer := { s.mer with
      tar := { s.mer.tar with active := some c, pending := none } } }
    legalEvent t 0x08 0 []
  | none => s

/-- The tariff re-evaluated (R249). -/
def retariff (s : State) : State :=
  { s with mer := { s.mer with tar := { s.mer.tar with tariff := tariffFor s s.nowNs } } }

/-- The next boundary after an instant. -/
def nextBoundary (s : State) (demand : Bool) (ns : Nat) : Option Nat :=
  let l := (if demand then [nextDemand s ns] ++ (nextOffset s ns).toList else [])
    ++ (match s.mer.tar.pending with
      | some c => if ns < c.activation then [c.activation] else []
      | none => []) ++ (nextBilling s ns).toList
  l.foldl (fun (b : Option Nat) x => some (match b with
    | some y => min x y
    | none => x)) none

/-- The boundaries at one instant, in the order of R257. -/
def boundaryAt (s : State) (demand outage : Bool) (prev at_ : Nat) : State :=
  let mark : DemFlags := { outage := outage, partial_ := !outage }
  let t := if demand && (nextDemand s prev == at_ || nextOffset s prev == some at_) then
    closeIntervals s at_ { mark with adjusted := nextOffset s prev == some at_ } mark else s
  let t := match t.mer.tar.pending with
    | some c => if c.activation = at_ then activateCalendar t else t
    | none => t
  if nextBilling s prev = some at_ ∧ t.mer.leg.lastClose < at_ then closePeriod t at_ true false outage else t

/-- Every boundary after `prev` up to `until` in chronological order (R258, R261); `fuel` bounds their number. -/
def boundaries (demand outage : Bool) (until_ : Nat) : Nat → Nat → State → State
  | 0, _, s => s
  | fuel + 1, prev, s =>
    match nextBoundary s demand prev with
    | some b => if b ≤ until_ then boundaries demand outage until_ fuel b (boundaryAt s demand outage prev b) else s
    | none => s

/-- Enough steps for every boundary between two instants: no two of one kind lie within a minute. -/
def boundaryFuel (a b : Nat) : Nat := 64 + (b - a) / 15000000000

/-! ### Steps of the Chronometer (R246, R259 to R261) -/

/-- STEP_LIMIT in ns. -/
def stepLimit (s : State) : Nat := merN s 0x700 0x010 5 0 * 1000000000

/-- Open session and event records carry TIME_ADJUSTED, and the period too. -/
def markAdjusted (s : State) : State :=
  updLeg s fun l =>
    { l with
      perAdjusted := true
      events := l.events.map fun e => if e.isOpen then { e with adjusted := true } else e
      sessions := l.sessions.map fun r => if r.isOpen then { r with flags := { r.flags with timeAdjusted := true } } else r }

/-- The Chronometer set to a new time at once; a slew in progress ends. -/
def setTime (s : State) (ns : Nat) : State :=
  { s with mer := { s.mer with chr := { s.mer.chr with ns := ns, slew := 0 } } }

/-- A step of the Chronometer to a new time (R246, R259, R260, R261) (DEDUCED, log 52). -/
def stepClock (s : State) (ns : Nat) : State :=
  let old := s.nowNs
  let adj : DemFlags := { adjusted := true }
  if s.mer.chr.valid = false then
    let t := setTime s ns
    let t := { t with mer := { t.mer with chr := { t.mer.chr with valid := true, running := true } } }
    let t := updLeg t fun l => { l with demand := l.demand.map fun d => { d with since := ns } }
    retariff (legalEvent t 0x05 0 [])
  else
    let large := decide (stepLimit s < (max ns old - min ns old))
    let t := if large then closeIntervals s old adj adj else markIntervals s adj
    let t := updLeg (setTime (markAdjusted t) ns) fun l => { l with demand := l.demand.map fun d => { d with since := ns } }
    let t := if old < ns then boundaries false false ns (boundaryFuel old ns) old t else t
    legalEvent (retariff t) (if large then 0x04 else 0x06) 0 (words64 (ct64 old))

/-! ### Records -/

/-- The flags word of a session record (Table 10-5). -/
def SessionRec.flagWord (r : SessionRec) : Nat :=
  let f := r.flags
  flag r.isOpen + 2 * flag f.fault + 4 * flag f.gap + 8 * flag f.metFault + 16 * flag f.reduced + 32 * flag f.lossEst
    + 64 * flag f.dispFault + 128 * flag f.timeAdjusted + 256 * flag f.timeUncertain + 512 * flag f.timeInvalid
    + 1024 * flag f.notLegal + 2048 * flag f.export_

/-- The 64 words of a session record (Table 10-5). -/
def SessionRec.words (r : SessionRec) (mono : Nat) : List Nat :=
  let e := r.energy
  withCrc ([r.seqOpen, r.seqClose, r.outlet.val * 2 ^ 24, r.helmId] ++ words64 (ct64 r.start)
    ++ (if r.isOpen then [0, 0] else words64 (ct64 r.stop))
    ++ [lo32 (if r.isOpen then mono - r.startMono else r.duration), lo32 r.peak, beNat (r.hash.take 4), beNat (slice r.hash 4 4)]
    ++ words64 (mWh e.imp) ++ words64 (mWh e.exp) ++ e.tarImp.toList.flatMap (fun x => words64 (mWh x))
    ++ e.tarExp.toList.flatMap (fun x => words64 (mWh x)) ++ words64 (mWh e.loss) ++ [r.flagWord]
    ++ words64 r.gapStart ++ words64 r.gapEnd ++ List.replicate 8 0)

/-- The words of a supply event (Table 09-3). -/
def SupplyEvent.words (e : SupplyEvent) (mono : Nat) : List Nat :=
  withCrc ([e.seq] ++ words64 (ct64 (e.start / 1000000 * 1000000))
    ++ [lo32 (if e.isOpen then mono - e.startMono else e.duration), e.extreme * 2 ^ 16 + e.kind * 256 + e.phase,
        4 * flag e.adjusted + 2 * flag e.outage + flag e.isOpen, 0])

/-- The open record of an outlet. -/
def openSession (s : State) (o : Fin 2) : Option SessionRec := s.mer.leg.sessions.find? fun r => r.isOpen && r.outlet == o

/-- An outlet's open record replaced by its image. -/
def updSessionRec (s : State) (o : Fin 2) (f : SessionRec → SessionRec) : State :=
  updLeg s fun l => { l with sessions := l.sessions.map fun r => if r.isOpen && r.outlet == o then f r else r }

/-- A record added to the ring of 256, newest first; an open record is never overwritten (R265). -/
def addSession (l : List SessionRec) (r : SessionRec) : List SessionRec :=
  if l.length < 256 then r :: l
  else match (l.reverse.findIdx? fun x => !x.isOpen) with
    | some k => r :: l.eraseIdx (l.length - 1 - k)
    | none => r :: l.take 255

/-! ### Restart (R238, R240, R258) -/

/-- The metering path of a channel begins afresh; faults, the freeze of an event and counters stay. -/
def freshChannel (c : MChannel) : MChannel :=
  { invalid := c.invalid, only1 := c.only1, reducedSub := c.reducedSub, freezeEvent := c.freezeEvent, switchCnt := c.switchCnt
    freezeCnt := c.freezeCnt }

/-- Meridian meters again after a stop at `mer.stopNs` (R237, R240, R246, R258, R472). The registers are the committed
ones; records open at the stop carry the gap (DEDUCED, log 29). -/
def resumeMetering (s : State) : State :=
  let out := !s.mer.plainStop
  let c := s.mer.chr
  let chr := if c.running then c else
    { c with ns := c.saved, running := true, valid := false, src := 0, uncNs := 16777215000000, slew := 0 }
  let gap := fun (r : SessionRec) => if r.isOpen then
    { r with flags := { r.flags with gap := true }, gapStart := ct64 s.mer.stopNs, gapEnd := ct64 chr.ns } else r
  let t := { s with mer := { s.mer with
    chr := chr, leg := s.mer.saved, up := true, supplyFail := false, plainStop := false, powers := Vector.replicate 2 []
    pNow := Vector.replicate 2 0
    fe := { s.mer.fe with ch := s.mer.fe.ch.map freshChannel, half := Vector.replicate 3 {} } } }
  let t := updLeg t fun l =>
    { l with
      sessions := l.sessions.map gap
      events := l.events.map fun e => if e.isOpen && out then { e with outage := true } else e
      pulse := l.pulse.map fun p => { p with active := false, lastStart := none } }
  let t := markIntervals t { partial_ := true, outage := out }
  if t.mer.chr.valid then
    let u := boundaries true out t.nowNs (boundaryFuel t.mer.stopNs t.nowNs) t.mer.stopNs t
    retariff (markIntervals u { partial_ := true, outage := out })
  else retariff t

/-- The pulse outputs inactive (R234). -/
def restPulses (s : State) : State :=
  updLeg s fun l => { l with pulse := l.pulse.map fun p => { p with active := false } }

/-- Meridian stops metering, the registers committed and the pulse outputs inactive (R234, R238); in Laid-up no boundary has been processed since `stopNs`. -/
def stopMetering (s : State) : State :=
  let t := restPulses (commitRegs s)
  { t with mer := { t.mer with up := false, stopNs := if s.pwr.rung = .laidUp then s.mer.stopNs else s.nowNs } }

/-- Helm leaves Laid-up: the boundaries that fell in it are processed in order (R257, R471), and the intervals it touches
carry PARTIAL. -/
def leaveLaidUp (s : State) : State :=
  if s.pwr.rung = .laidUp ∧ s.mer.up = true then
    let t := if s.mer.chr.valid then boundaries true false s.nowNs (boundaryFuel s.mer.stopNs s.nowNs) s.mer.stopNs s else s
    retariff (markIntervals t { partial_ := true })
  else s

/-- Meridian stops for its own activation (R437) or for Dark (R471): no outage (DEDUCED, log 29). -/
def stopPlainly (s : State) : State :=
  let t := stopMetering s
  { t with mer := { t.mer with plainStop := true } }

/-! ### Images at a start (R491) -/

/-- An image qualifies: it verifies, and its VERSION is not below the die's anti-rollback counter. -/
def qualifies (arb : Nat) (i : Option ImageId) : Option ImageId := i.filter fun x => arb ≤ x.version

/-- A firmware target replaced by its image. -/
def updFw (s : State) (k : Fin 5) (f : FwTarget → FwTarget) : State := { s with fw := upd s.fw k f }

/-- A die's start (R491): the first image that qualifies, of resident copy, active slot and other slot; FW_FALLBACK when
it is the other slot's; with none the die is not started and FW_RUN_VER reads 0. -/
def bootImage (s : State) (k : Fin 5) (c : ImageChoice) : State :=
  let arb := s.fw[k].arb
  match (qualifies arb c.resident).or (qualifies arb c.active), qualifies arb c.other with
  | some i, _ => updFw s k fun x => { x with started := true, runVer := i.version, digest := i.digest }
  | none, some i => updFw s k fun x => { x with started := true, runVer := i.version, digest := i.digest, fallback := true }
  | none, none => updFw s k fun x => { x with started := false, runVer := 0, digest := [] }

/-- Meridian's start (R36, R238, R491): with no image it meters nothing and every channel reads INVALID. -/
def startMeridian (s : State) (c : ImageChoice) : State :=
  let t := bootImage s 3 c
  if t.fw[(3 : Fin 5)].started then resumeMetering t else { t with mer := { t.mer with up := false } }

/-- Meridian's die faults have cleared once it runs again (R452). -/
def meridianBack (s : State) : State :=
  if s.mer.up then clearFaults s .meridian fun c _ => c == 0x0203 || c == 0x0302 || memCode c else s

/-! ### Commit of the legal parameters (R217) -/

/-- A field of a staged word. -/
def stagedN (s : State) (inst off hi lo : Nat) : Nat :=
  (sparseGet (resetWord (regAddr 0x30 inst off)) s.mer.staged (regAddr 0x30 inst off)).field hi lo

/-- Dual channels (Table 08-1). -/
def dualChannel (k : Nat) : Bool := k == 1 || k == 3 || (decide (7 ≤ k) && decide (k ≤ 10))

/-- AC channels. -/
def acChannel (k : Nat) : Bool := decide (4 ≤ k) && decide (k ≤ 10)

/-- SENSOR is permitted on a channel (R198). -/
def sensorOk (k sensor : Nat) : Bool :=
  if sensor = 0 then true else if sensor = 1 then k == 1 || k == 3 else decide (7 ≤ k) && decide (k ≤ 10)

/-- 10^12 times the cosine of a quarter turn's steps of 1/128 turn. -/
def cosSteps : List Int := [
  1000000000000, 998795456205, 995184726672, 989176509965, 980785280403, 970031253195, 956940335732, 941544065183,
  923879532511, 903989293123, 881921264348, 857728610000, 831469612303, 803207531481, 773010453363, 740951125355,
  707106781187, 671558954847, 634393284164, 595699304492, 555570233020, 514102744193, 471396736826, 427555093430,
  382683432365, 336889853392, 290284677254, 242980179903, 195090322016, 146730474455, 98017140330, 49067674327, 0]

/-- 10^12 cos(2π n / 128). -/
def cos128 (n : Nat) : Int :=
  let m := n % 128
  if m ≤ 32 then cosSteps.getD m 0 else if m ≤ 64 then -cosSteps.getD (64 - m) 0
  else if m ≤ 96 then -cosSteps.getD (m - 64) 0 else cosSteps.getD (128 - m) 0

/-- The FIR's gain at PILOT_F is at most −100 dB (R203): PILOT_F is f / 128 of 64 ksps. -/
def pilotRejected (taps : List Int) (f sh : Nat) : Bool :=
  let sum := fun (g : Nat → Int) => ((List.range taps.length).map fun k => taps.getD k 0 * g (k * f)).sum
  let re := sum cos128
  let im := sum fun n => cos128 (n + 96)
  decide ((re * re + im * im) * 10 ^ 10 ≤ (2 ^ sh * 10 ^ 12) ^ 2)

/-- A tap of a set of words (R220). -/
def tapOf (words : List (Nat × Word)) (t : Nat) : Int :=
  let a := regAddr 0x30 (0x400 + t / 1024) (t % 1024 * 4)
  toSigned 24 ((sparseGet (resetWord a) words a).field 23 0)

/-- The taps of a channel in a set of words. -/
def channelTaps (words : List (Nat × Word)) (k : Nat) : List Int :=
  let w := sparseGet (resetWord (regAddr 0x30 k 0x004)) words (regAddr 0x30 k 0x004)
  (List.range (w.field 8 0)).map fun j => tapOf words (w.field 31 20 + j)

/-- The CRC-32 of a channel's taps, each as its three bytes, most significant first (R203) (DESIGN CHOICE, log 87). -/
def tapsCrc (taps : List Int) : Nat := crc32 (taps.flatMap fun c => toBe 3 (ofSigned 24 c))

/-- The staged demand and billing settings: DEM_LEN as DEM_MODE permits (R252), BILL_DAY a weekday in weekly mode
(DEDUCED, log 52). -/
def billingOk (s : State) : Bool :=
  let len := stagedN s 0x700 0x014 30 24
  (if stagedN s 0x700 0x014 31 31 = 1 then decide (len ≠ 0 ∧ 60 % len = 0) else ([5, 10, 15, 30, 60] : List Nat).contains len)
    && (stagedN s 0x700 0x018 31 30 != 2 || decide (stagedN s 0x700 0x018 29 24 ≤ 7))

/-- The checks of R198, R201, R202, R203, R252 and R285 on the staged set. -/
def stagedOk (s : State) : Bool :=
  let ks := List.range 12
  let hp := fun k => stagedN s k 0x008 31 0
  let len := fun k => stagedN s k 0x004 8 0
  billingOk s && decide (stagedN s 0x300 0x048 15 8 + stagedN s 0x300 0x048 7 0 ≤ 64)
    && ks.all (fun k => sensorOk k (stagedN s k 0x000 30 29))
    && ks.all (fun k => decide (84331 ≤ hp k ∧ hp k ≤ 4216574))
    && decide ((ks.map fun k => if dualChannel k then 2 * len k else len k).sum ≤ 2304)
    && ks.all (fun k => decide (stagedN s k 0x004 31 20 + len k ≤ 2304))
    && ks.all fun k => channelTaps s.mer.staged k == channelTaps s.mer.regs k
        || pilotRejected (channelTaps s.mer.staged k) (stagedN s 0x300 0x000 5 0) (stagedN s k 0x000 23 19)

/-- LEGAL_DIGEST of a set (R217). -/
def legalDigest (words : List (Nat × Word)) : Bytes :=
  (List.range 32).map (Config.legalDigest (words.map fun p => (p.1, p.2.toNat)))

/-- Meridian's firmware is being updated (R217, R248). -/
def meridianUpdating (s : State) : Bool := s.fw[(3 : Fin 5)].activating

/-- METRO_COMMIT (R217): the status, and the state with the staged set in use (DEDUCED, log 52). -/
def metroCommit (s : State) : Status × State :=
  if s.outlet[(0 : Fin 2)].st = .energyTransfer ∨ s.outlet[(1 : Fin 2)].st = .energyTransfer
      ∨ meridianUpdating s = true then (.legalLocked, s)
  else if stagedOk s then
    let d := legalDigest s.mer.staged
    let crc : Vector Nat 12 := Vector.ofFn fun k => tapsCrc (channelTaps s.mer.staged k)
    let t := { s with mer := { s.mer with
      regs := s.mer.staged, stagedCnt := 0, digest := d, fe := { s.mer.fe with tapCrc := crc } } }
    (.ok, legalEvent t 0x01 0 [beNat (d.take 4), beNat (slice d 4 4), beNat (slice d 8 4)])
  else (.badParam, s)

end Sys2Proof.Machine
end

