-- ==== Sys2Proof/Machine/Meter.lean ====
section
/-!
DEFINITION. Meridian's measuring front end and energy (R196 to R215, R221 to R234): the filter chain, METER_SAMPLE,
pulse outputs, FIR supervision, DC-block freeze, modulator supervision and rotation, reference and RTDs.
-/
namespace Sys2Proof.Machine

/-! ### Channels and modulators (Table 08-1) -/

/-- The gain-1 modulator of a channel. -/
def mod1 (k : Fin 12) : Fin 20 := Fin.ofNat 20 (([0, 7, 1, 9, 2, 3, 4, 11, 13, 15, 17, 5] : List Nat).getD k.val 0)

/-- The gain-16 modulator of a dual channel. -/
def mod16 (k : Fin 12) : Fin 20 := Fin.ofNat 20 ((mod1 k).val + 1)

/-- A channel and a flag "gain 16" of a ring modulator. -/
def channelOf (m : Fin 20) : Option (Fin 12 × Bool) :=
  match (List.finRange 12).find? fun k => mod1 k == m with
  | some k => some (k, false)
  | none => ((List.finRange 12).find? fun k => dualChannel k.val && mod16 k == m).map fun k => (k, true)

/-- The spare of a modulator's type (R196). -/
def spareOf (m : Fin 20) : Fin 20 := if m.val < 7 then 6 else 19

/-- The modulator that feeds the place of modulator `m`: itself while in service, its spare while that stands in. -/
def feedOf (fe : FrontEnd) (m : Fin 20) : Option (Fin 20) :=
  let sp := spareOf m
  if (fe.mod[m]).st = .inService then some m
  else if (fe.mod[sp]).st = .standingIn ∧ (fe.mod[sp]).serves = m.val then some sp
  else none

/-- A shunt channel's RTD (R215). -/
def shuntRtd (k : Fin 12) : Option (Fin 4) := if k.val = 1 then some 0 else if k.val = 3 then some 1 else none

/-- An RTD input reads valid (R214). -/
def rtdValid (s : State) (r : Fin 4) : Bool := merN s (0x200 + r) 0x000 31 31 == 1 && (s.mer.fe.rtd[r]).rstat == 1

/-- REDUCED (R207, R209, R210, R213, R215). -/
def reduced (s : State) (k : Fin 12) : Bool :=
  let c := s.mer.fe.ch[k]
  c.fallback || c.only1 || c.reducedSub || s.mer.fe.refDrift || match shuntRtd k with
    | some r => !rtdValid s r
    | none => false

/-! ### The filter chain (R199 to R206) -/

/-- R200: `scale`. -/
def scale (v : Int) (sh : Int) : Int := satTo 32 (if sh < 0 then rsh v (-sh).toNat else v * 2 ^ sh.toNat)

/-- Stage 2 (R199): a modulator's stream with its next 64 bits, and the sinc3 output over it, within ±2^18. -/
def sincStep (bits : List Bool) (next : List Bool) : List Bool × Int :=
  let b := (next.reverse ++ bits).take 192
  (b, sinc3 64 b)

/-- The four outputs of a modulator's sinc3 in a 16 ksps sample, oldest first, and its stream after them. A stream too short is
continued with low bits. -/
def sincFour (bits : List Bool) (next : List Bool) : List Bool × List Int :=
  let n := (next ++ List.replicate 256 false).take 256
  let a := sincStep bits (n.take 64)
  let b := sincStep a.1 ((n.drop 64).take 64)
  let c := sincStep b.1 ((n.drop 128).take 64)
  let d := sincStep c.1 (n.drop 192)
  (d.1, [a.2, b.2, c.2, d.2])

/-- The pilot's bin with the next sinc3 outputs (R208): PILOT_F is f / 128 of 64 ksps. -/
def pilotBin (f : Nat) (m : Modulator) (xs : List Int) : Modulator :=
  xs.foldl (fun m x =>
    { m with re := m.re + x * cos128 (f * m.len), im := m.im + x * cos128 (f * m.len + 96), len := m.len + 1 }) m

/-- Stages 2 and 2a of a raw sinc3 value. -/
def trimmed (s : State) (k : Fin 12) (m : Modulator) (raw : Int) : Int :=
  satTo 32 (rsh ((satTo 32 (raw * 2 ^ merN s k 0x000 27 24) - m.ofs) * m.gain) 30)

/-- Stage 3: the taps on the newest trimmed samples, with a 64-bit saturating sum. -/
def firStage (taps hist : List Int) (sh : Nat) : Int :=
  satTo 32 (rsh ((taps.zip hist).foldl (fun a p => satTo 64 (a + p.1 * p.2)) 0) sh)

/-- R206, steps 2 and 3: the mean over 4 notched samples, FB_DLY samples ago. -/
def fallbackStage (notched : List Int) (dly : Nat) : Int := satTo 32 (rsh ((notched.drop dly).take 4).sum 2)

/-- Stage 4 (R200). -/
def dcBlock (hpC : Int) (frozen : Bool) (hpSh : Int) (t : PathTail) (x : Int) : PathTail × Int :=
  let m := if frozen then t.m else satTo 48 (t.m + rsh ((x * 65536 - t.m) * hpC) 31)
  ({ t with m := m }, scale (rsh (x * 65536 - m) 16) hpSh)

/-- Stage 5 (R200). -/
def integrator (rgK : Int) (leak : Nat) (rgSh : Int) (t : PathTail) (x : Int) : PathTail × Int :=
  let g := satTo 48 (t.g + satTo 48 (rsh ((x + t.xPrev) * rgK) 31) - rsh t.g leak)
  ({ t with g := g, xPrev := x }, scale g rgSh)

/-- The shunt's temperature correction (R215): T in 0.01 °C from the RTD, or SH_TDEF. -/
def shuntCorrect (s : State) (k : Fin 12) (x : Int) : Int :=
  match shuntRtd k with
  | none => x
  | some r =>
    let d := (if rtdValid s r then (s.mer.fe.rtd[r]).t else merI s k 0x030 15 0) - merI s k 0x030 31 16
    let den := 10 ^ 13 + merI s k 0x02C 31 16 * d * 1000 + merI s k 0x02C 15 0 * d * d
    if den = 0 then satTo 32 (Config.unstated 215 x)
    else if den < 0 then satTo 32 (roundDiv (-(x * 10 ^ 13)) (-den))
    else satTo 32 (roundDiv (x * 10 ^ 13) den)

/-- Stage 6 (R200): delay, offset, gain (DESIGN CHOICE, log 36). -/
def calibrate (s : State) (k : Fin 12) (g16 : Bool) (t : PathTail) (x : Int) : PathTail × Int :=
  let line := (x :: t.delay).take 20
  let int := merN s k 0x024 13 10
  let frac := merN s k 0x024 9 0
  let at_ := fun i => line.getD (int - 1 + i) 0
  let y := if frac = 0 then line.getD int 0 else satTo 32 (Config.cubic frac (at_ 0) (at_ 1) (at_ 2) (at_ 3))
  let ofs := if g16 then merI s k 0x020 31 0 else merI s k 0x01C 31 0
  let gain := if g16 then merI s k 0x018 31 0 else merI s k 0x014 31 0
  ({ t with delay := line }, satTo 32 (rsh ((y - ofs) * gain) 30))

/-- Stages 4 to 6 of a path. -/
def tailStages (s : State) (k : Fin 12) (g16 : Bool) (t : PathTail) (x : Int) : PathTail × Int :=
  let c := s.mer.fe.ch[k]
  let a := if acChannel k && merN s k 0x000 28 28 == 1 then
    dcBlock (merN s k 0x008 31 0) (c.freezeEvent || c.freezeHelm) (merI s k 0x000 18 14) t x else (t, x)
  let b := if merN s k 0x000 30 29 = 3 then
    integrator (merI s k 0x00C 31 0) (merN s k 0x010 4 0) (merI s k 0x000 13 9) a.1 a.2 else a
  calibrate s k g16 b.1 (shuntCorrect s k b.2)

/-- What a path yields for one 16 ksps sample: its state, the FIR's output, and the calibrated values of both paths. -/
structure PathOut where
  path : MPath
  r : Int
  y : Int
  fb : Int

/-- A path's next sample: four sinc3 values, oldest first, of the modulator that feeds it; while a spare settles, or with
none to feed it, the path repeats its last good trimmed sample (R209) (DESIGN CHOICE, log 36). -/
def pathSample (s : State) (k : Fin 12) (g16 : Bool) (raw : Vector (List Int) 20) (ovl : BitVec 20) (p : MPath) : PathOut :=
  let m := if g16 then mod16 k else mod1 k
  let f := feedOf s.mer.fe m
  let xs := match f with
    | some n => if n ≠ m ∧ (s.mer.fe.ch[k]).settling = true then List.replicate 4 p.last
      else raw[n].map (trimmed s k s.mer.fe.mod[n])
    | none => List.replicate 4 p.last
  let len := merN s k 0x004 8 0
  let step := fun (h : List Int × List Int) x =>
    let hist := (x :: h.1).take 400
    (hist, (Config.notch (merN s 0x300 0x000 5 0) hist :: h.2).take 400)
  let h := xs.foldl step (p.hist, p.notched)
  let r := firStage (channelTaps s.mer.regs k) h.1 (merN s k 0x000 23 19)
  let a := tailStages s k g16 p.fir r
  let b := tailStages s k g16 p.fb (fallbackStage h.2 (merN s k 0x000 8 0))
  let ovld : Bool := match f with
    | some n => ovl.getLsbD n.val
    | none => false
  { path := { hist := h.1, notched := h.2, fir := a.1, fb := b.1, last := xs.getLastD 0
              ovl := if ovld then len else p.ovl - 4 }
    r := r, y := a.2, fb := b.2 }

/-- Automatic gain selection (R205): the selection and the run. -/
def gainSelect (gain16 : Bool) (run : Nat) (r16 : Int) (ovl16 : Bool) : Bool × Nat :=
  if gain16 then (if 4 * 2 ^ 31 < r16.natAbs * 5 ∨ ovl16 = true then (false, 0) else (true, run))
  else
    let n := if r16.natAbs * 5 < 3 * 2 ^ 31 ∧ ovl16 = false then run + 1 else 0
    if n = 64 then (true, n) else (false, n)

/-- The detectors' 1 ms block (R206), on the notched samples of the gain-1 path (DEDUCED, log 50). -/
def detect (c : MChannel) (xs : List Int) : MChannel :=
  let b := c.block ++ xs
  if b.length < 64 then { c with block := b }
  else
    { c with
      block := [], peak := (b.map Int.natAbs).foldl max 0
      rms := Nat.sqrt ((b.map fun x => x.natAbs * x.natAbs).sum / 64), env := (b.map Int.natAbs).sum / 64 }

/-- One channel's next 16 ksps sample (DEDUCED, log 50). -/
def sampleChannel (s : State) (raw : Vector (List Int) 20) (ovl : BitVec 20) (k : Fin 12) : MChannel :=
  let c := s.mer.fe.ch[k]
  let a := pathSample s k false raw ovl c.p1
  let dual := dualChannel k && !c.only1
  let b := pathSample s k true raw ovl c.p16
  let over16 := decide (0 < b.path.ovl)
  let sel := if dual then gainSelect c.gain16 c.run b.r over16 else (false, 0)
  let out := if sel.1 then b else a
  let d := detect { c with p1 := a.path } (a.path.notched.take 4).reverse
  { d with
    p16 := if dualChannel k then b.path else c.p16
    gain16 := sel.1, run := sel.2
    switchCnt := if sel.1 = c.gain16 then c.switchCnt else satInc 16 c.switchCnt
    firOut := out.y, fbOut := out.fb, winLen := c.winLen + 1
    firSum := c.firSum + out.y.natAbs * out.y.natAbs, fbSum := c.fbSum + out.fb.natAbs * out.fb.natAbs
    value := if chInvalid s k then c.value else if c.fallback then out.fb else out.y }

/-! ### Energy (R221 to R225, R231) -/

/-- Energy of this sample: at the connector, and lost in the cable, in 2^-32 µWh, rounded half up; the exact power is
the first number over 2^62 · 10^18 W (R222). -/
structure SampleEnergy where
  n : Int
  e : Int
  loss : Nat

/-- The denominator of the power's exact value. -/
def powerDen : Int := 2 ^ 62 * 10 ^ 18

/-- 62.5 µs of a power, in 2^-32 µWh. -/
def energyOf (n : Int) : Int := roundDiv (n * 2 ^ 32 * 10) (powerDen * 576)

/-- RTD2 for outlet A, RTD3 for outlet B. -/
def cableRtd (o : Fin 2) : Fin 4 := if o = 0 then 2 else 3

/-- The sample energy of an outlet (R221, R222). -/
def sampleEnergy (s : State) (o : Fin 2) : SampleEnergy :=
  let i := 0x500 + o.val
  let mv := (s.mer.fe.ch[(Fin.ofNat 12 (2 * o.val) : Fin 12)]).value
  let mi := (s.mer.fe.ch[(Fin.ofNat 12 (2 * o.val + 1) : Fin 12)]).value
  let vfs : Int := merN s i 0x008 31 0
  let ifs : Int := merN s i 0x00C 31 0
  let rc : Int := merN s i 0x010 31 0
  let t := if rtdValid s (cableRtd o) then (s.mer.fe.rtd[cableRtd o]).t else merI s i 0x014 15 0
  let loss := mi * mi * ifs * ifs * rc * (10 ^ 8 + (merN s i 0x014 31 16 : Int) * (t - 2000))
  let n := mv * mi * vfs * ifs * 10 ^ 14 - loss
  ⟨n, energyOf n, (energyOf loss).toNat⟩

/-- An energy added to a register set under a tariff, split by direction (R224, R251). -/
def EnergySet.count (r : EnergySet) (tariff : Nat) (e : Int) (loss : Nat) : EnergySet :=
  let k : Fin 8 := Fin.ofNat 8 (tariff - 1)
  let a := e.toNat
  let b := (-e).toNat
  { imp := addE r.imp a, exp := addE r.exp b, loss := addE r.loss loss
    tarImp := upd r.tarImp k (addE · a), tarExp := upd r.tarExp k (addE · b) }

/-- 1 / PULSE_K kWh times PULSE_K: a pulse falls due when PULSE_K times the counted energy reaches it (R231). -/
def pulseQuantum : Nat := 10 ^ 9 * 2 ^ 32

/-- What a pulse output counts of a sample (R231). -/
def pulseShare (src : Nat) (e : Int) : Nat :=
  match src with
  | 0 => e.toNat
  | 1 => (-e).toNat
  | 2 => e.natAbs
  | _ => 0

/-- A pulse output's next sample (R231, R232). -/
def PulseOut.count (p : PulseOut) (k c : Nat) : PulseOut :=
  let acc := p.accK + c * k
  let due := acc / pulseQuantum
  let room := 65535 - p.backlog
  { p with
    accK := acc % pulseQuantum, recent := (c :: p.recent).take 1600
    backlog := p.backlog + min due room, drop := min 65535 (p.drop + (due - room))
    dropRaised := p.dropRaised || decide (room < due) }

/-- An outlet's energies are accumulated (R211). -/
def accumulates (s : State) (o : Fin 2) : Bool := !meteringInvalid s o

/-- The outlet's running record carries the flags its channels show. -/
def markRecord (s : State) (o : Fin 2) (e : Int) : State :=
  let red := reduced s (Fin.ofNat 12 (2 * o.val)) || reduced s (Fin.ofNat 12 (2 * o.val + 1))
  updSessionRec s o fun r =>
    { r with flags := { r.flags with
      reduced := r.flags.reduced || red, lossEst := r.flags.lossEst || s.mer.lossEst[o]
      metFault := r.flags.metFault || meteringInvalid s o, export_ := r.flags.export_ || decide (e < 0) } }

/-- One outlet's share of a sample. -/
def meterOutlet (s : State) (o : Fin 2) : State :=
  let s := { s with mer := { s.mer with
    lossEst := s.mer.lossEst.set o (s.mer.lossEst[o] || !rtdValid s (cableRtd o)) } }
  if accumulates s o then
    let x := sampleEnergy s o
    let tar := s.mer.tar.tariff
    let c := pulseShare (merN s (0x500 + o.val) 0x000 31 30) x.e
    let raised := (s.mer.leg.pulse[o]).dropRaised
    let t := updLeg s fun l =>
      { l with
        energy := upd l.energy o (·.count tar x.e x.loss)
        demand := upd l.demand o fun d => { d with imp := d.imp + x.e.toNat, exp := d.exp + (-x.e).toNat }
        pulse := upd l.pulse o (·.count (merN s (0x500 + o.val) 0x004 16 0) c) }
    let t := updSessionRec t o fun r => { r with energy := r.energy.count tar x.e x.loss }
    let t := { t with mer := { t.mer with powers := upd t.mer.powers o fun l => (x.n :: l).take 16000 } }
    let t := if (t.mer.leg.pulse[o]).dropRaised && !raised then legalEvent t 0x16 o [] else t
    markRecord t o x.e
  else
    let t := updLeg s fun l => { l with pulse := upd l.pulse o (·.count (merN s (0x500 + o.val) 0x004 16 0) 0) }
    markRecord { t with mer := { t.mer with powers := upd t.mer.powers o fun l => (0 :: l).take 16000 } } o 0

/-- The AC side's share of a sample (R225) (DEDUCED, log 46). -/
def meterAc (s : State) : State :=
  if (List.range 6).any fun j => chInvalid s (Fin.ofNat 12 (4 + j)) then s
  else
    let sum := ((List.range 3).map fun j => (s.mer.fe.ch[(Fin.ofNat 12 (4 + j) : Fin 12)]).value
      * (s.mer.fe.ch[(Fin.ofNat 12 (7 + j) : Fin 12)]).value).sum
    let e := energyOf (sum * merN s 0x502 0x008 31 0 * merN s 0x502 0x00C 31 0 * 10 ^ 14)
    updLeg s fun l => { l with acImp := addE l.acImp e.toNat, acExp := addE l.acExp (-e).toNat }

/-- A channel is paused on the present rung (R471, Table 20-4): AC mode keeps MCH4 to MCH11, event mode MCH4 to MCH6. -/
def paused (s : State) (k : Fin 12) : Bool :=
  match s.pwr.rung with
  | .underway => false
  | .hoveTo => false
  | .anchored => decide (k.val < 4)
  | .moored => decide (k.val < 4)
  | .laidUp => decide (k.val < 4 ∨ 6 < k.val)
  | .dark => true

/-- A modulator takes its stream's next bits: it is paused with its channel, a spare with the place it stands in for. -/
def modPaused (s : State) (m : Fin 20) : Bool :=
  match channelOf m with
  | some (k, _) => paused s k
  | none => decide (s.pwr.rung = .dark)

/-- The comparison of X and the spare in parallel (R212), with the next sinc3 outputs. -/
def compareMore (s : State) (voltage : Bool) (raw : Vector (List Int) 20) (r : Rotation) : Rotation :=
  let x : Fin 20 := Fin.ofNat 20 r.pos
  let sp : Fin 20 := if voltage then 6 else 19
  if r.phase = 1 ∨ r.phase = 3 then
    match channelOf x with
    | some (k, _) =>
      if r.len < 640 then { r with len := r.len + 4 }
      else
        { r with
          len := r.len + 4
          sumX := r.sumX + (raw[x].map (trimmed s k s.mer.fe.mod[x])).sum
          sumSp := r.sumSp + (raw[sp].map (trimmed s k s.mer.fe.mod[sp])).sum }
    | none => r
  else r

/-- The nominal half-cycle length of NOM_F, in samples (R235). -/
def halfSamples (s : State) : Nat := if merN s 0x600 0x000 0 0 = 1 then 133 else 160

/-- A window with one more sample. -/
def HalfWindow.add (w : HalfWindow) (x : Int) : HalfWindow := { w with sum := w.sum + x.natAbs * x.natAbs, len := w.len + 1 }

/-- A phase's next calibrated sample (R235): a change of sign is its zero crossing (DEDUCED, log 88). -/
def halfSample (s : State) (x : Int) (h : HalfCycle) : HalfCycle :=
  let neg := decide (x < 0)
  if h.neg.any (· != neg) then
    let w : HalfWindow := { start := s.nowNs, startMono := s.mono }
    { h with neg := some neg, closed := h.cur, cur := some (w.add x), nom := {} }
  else
    let cur := h.cur.map (·.add x)
    { h with neg := some neg, cur := cur, nom := match cur with
        | some w => if w.len = halfSamples s then w else h.nom
        | none => h.nom }

/-- The half-cycles of L1 to L3 after a sample (R235). -/
def sampleHalves (s : State) : State :=
  { s with mer := { s.mer with fe := { s.mer.fe with
    half := Vector.ofFn fun ph => halfSample s (s.mer.fe.ch[(Fin.ofNat 12 (4 + ph.val) : Fin 12)]).value s.mer.fe.half[ph] } } }

/-- METER_SAMPLE (R199 to R206, R208, R212, R215, R221 to R226, R231, R235, R251, R471): the next 256 bits of each of the 20
modulators, oldest first, and the overloads they report. -/
def execMeterSample (bits : List (List Bool)) (ovl : BitVec 20) (s : State) : Out :=
  .next (if s.mer.up then
    let four : Vector (List Bool × List Int) 20 := Vector.ofFn fun m =>
      if modPaused s m then ((s.mer.fe.mod[m]).bits, []) else sincFour (s.mer.fe.mod[m]).bits (bits.getD m.val [])
    let raw : Vector (List Int) 20 := four.map (·.2)
    let chans : Vector MChannel 12 := Vector.ofFn fun k => if paused s k then s.mer.fe.ch[k] else sampleChannel s raw ovl k
    let mods : Vector Modulator 20 := Vector.ofFn fun m =>
      pilotBin (merN s 0x300 0x000 5 0) { s.mer.fe.mod[m] with bits := four[m].1 } raw[m]
    let t := { s with mer := { s.mer with fe := { s.mer.fe with
      ch := chans, mod := mods, rotV := compareMore s true raw s.mer.fe.rotV, rotI := compareMore s false raw s.mer.fe.rotI } } }
    let t := if paused s 4 then t else sampleHalves t
    let t := if paused s 0 then t else meterOutlet (meterOutlet t 0) 1
    if paused s 7 then t else meterAc t
    else s)

/-! ### Pulse outputs (R232) -/

/-- The width, in µs, of a pulse that starts now. -/
def pulseWidth (k wMs sum : Nat) : Nat :=
  let f := k * sum
  if 2 * wMs * f ≤ 10 ^ 11 * 2 ^ 32 then wMs * 1000
  else max 50 (roundDiv (10 ^ 14 * 2 ^ 32) (2 * f)).toNat

/-- The level of PULSE_A or PULSE_B, high or low (R231, R232, R234). -/
def pulseLevel (s : State) (o : Fin 2) : Bool :=
  let i := 0x500 + o.val
  (s.mer.up && (s.mer.leg.pulse[o]).active && merN s i 0x000 31 30 != 3) != (merN s i 0x000 29 29 == 1)

/-- PULSE_START (R232), `us` µs after the present millisecond began. -/
def execPulseStart (o : Fin 2) (us : Nat) (s : State) : Out :=
  .next (
    let at_ := s.mono * 1000 + us % 1000
    let p := s.mer.leg.pulse[o]
    let k := merN s (0x500 + o.val) 0x004 16 0
    let w := pulseWidth k (merN s (0x500 + o.val) 0x000 23 16) p.recent.sum
    let early : Bool := p.active || match p.lastStart with
      | some t => decide (at_ < t + 2 * w)
      | none => false
    if s.mer.up && decide (p.backlog ≠ 0) && decide (merN s (0x500 + o.val) 0x000 31 30 ≠ 3) then
      if early then updLeg s fun l => { l with pulse := upd l.pulse o fun x => { x with lag := true } }
      else updLeg s fun l => { l with pulse := upd l.pulse o fun x =>
        { x with
          active := true, lastWidth := x.width, width := w, lastStart := some at_, backlog := x.backlog - 1
          lag := x.lag && decide (x.backlog ≠ 1), dropRaised := false } }
    else s)

/-- PULSE_END (R232). -/
def execPulseEnd (o : Fin 2) (s : State) : Out :=
  .next (updLeg s fun l => { l with pulse := upd l.pulse o fun x => { x with active := false } })

/-- P_NOW_REFRESH (R229): the mean of p over the last 16,000 samples, to the nearest W; a record's peak follows
(DEDUCED, log 50). -/
def execPNowRefresh (s : State) : Out :=
  .next (if s.mer.up then
    let p : Vector Int 2 := Vector.ofFn fun o => roundDiv s.mer.powers[o].sum (16000 * powerDen)
    let t := { s with mer := { s.mer with pNow := p } }
    let peak := fun (u : State) (o : Fin 2) => updSessionRec u o fun r => { r with peak := max r.peak p[o].toNat }
    peak (peak t 0) 1
    else s)

/-! ### FIR supervision (R203, R207) -/

/-- A channel's FIR path has failed (R207). -/
def firFail (s : State) (k : Fin 12) : State :=
  if (s.mer.fe.ch[k]).fallback then s
  else
    let t := updMch s k fun c => { c with fallback := true, rmsPasses := 0 }
    logMasked (legalEvent t 0x10 k []) 0x0503 .meridian k

/-- The words of the tap memory as the engine reads them: the stored ones, but for upset bits of some taps. -/
def engineWords (s : State) (upsets : List (Nat × Nat)) : List (Nat × Word) :=
  upsets.foldl (fun w p =>
    let a := regAddr 0x30 (0x400 + p.1 / 1024) (p.1 % 1024 * 4)
    sparsePut (resetWord a) w a (sparseGet (resetWord a) w a ^^^ BitVec.ofNat 32 (p.2 % 2 ^ 24))) s.mer.regs

/-- FIR_CRC_CHECK (R203, R207): the CRC of each channel's taps as the engine reads them, with the given bits upset, by tap,
against the stored one; taps that fail are reloaded from MRAM, and the next check tells. -/
def execFirCrcCheck (upsets : List (Nat × Nat)) (s : State) : Out :=
  .next (if s.mer.up && !suspended s 7 then
    (List.finRange 12).foldl (fun (t : State) (k : Fin 12) =>
      let good := tapsCrc (channelTaps (engineWords s upsets) k) == s.mer.fe.tapCrc[k]
      let u := updMch t k fun c => { c with tapsBad := !good }
      if good then u else firFail u k) s
    else s)

/-- The two RMS values differ by more than 1 % of the FIR path's plus 0.1 % of FS (R207). -/
def rmsDiffer (fir fb : Nat) : Bool := decide (10 * fir + 2 ^ 31 < 1000 * (max fir fb - min fir fb))

/-- A channel's 100 ms window ends. -/
def newWindow (c : MChannel) : MChannel := { c with firSum := 0, fbSum := 0, winLen := 0 }

/-- FIR_RMS_WINDOW (R207): the RMS of both outputs over the window's samples; a channel that took none is not judged
(DEDUCED, log 50). -/
def execFirRmsWindow (s : State) : Out :=
  .next (if s.mer.up then
    (List.finRange 12).foldl (fun (t : State) (k : Fin 12) =>
      let c := t.mer.fe.ch[k]
      if c.winLen = 0 then t
      else if rmsDiffer (Nat.sqrt (c.firSum / c.winLen)) (Nat.sqrt (c.fbSum / c.winLen)) then
        let u := updMch t k fun c => newWindow { c with rmsFails := c.rmsFails + 1, rmsPasses := 0 }
        if 3 ≤ (u.mer.fe.ch[k]).rmsFails then firFail u k else u
      else updMch t k fun c => newWindow { c with rmsFails := 0, rmsPasses := c.rmsPasses + 1 }) s
    else s)

/-- FIR_RESTORED (R207): verified taps and 10 s of passing windows. -/
def execFirRestored (k : Fin 12) (s : State) : Out :=
  .next (
    let c := s.mer.fe.ch[k]
    if c.fallback ∧ c.tapsBad = false ∧ 100 ≤ c.rmsPasses then
      logClear (legalEvent (updMch s k fun x => { x with fallback := false }) 0x11 k []) 0x0503 .meridian k
    else s)

/-! ### DC-block freeze (R204) -/

/-- A channel frozen by a cause; FREEZE_CNT counts a freeze that begins. -/
def freeze (f : MChannel → MChannel) (c : MChannel) : MChannel :=
  let d := f c
  if !(c.freezeEvent || c.freezeHelm) && (d.freezeEvent || d.freezeHelm) then { d with freezeCnt := satInc 16 d.freezeCnt }
  else d

/-- The phase of a channel: 1 to 3, 0 for none. -/
def channelPhase (k : Fin 12) : Nat := if 4 ≤ k.val ∧ k.val ≤ 9 then (k.val - 4) % 3 + 1 else 0

/-- A supply event is open on a phase. -/
def eventOpen (s : State) (ph : Nat) : Bool := s.mer.leg.events.any fun e => e.isOpen && e.phase == ph

/-- DC_FREEZE_REQUEST (R204). -/
def execDcFreezeRequest (k : Fin 12) (on : Bool) (s : State) : Out :=
  .next (if acChannel k then updMch s k (freeze fun c => { c with freezeHelm := on }) else s)

/-- DC_FREEZE_RELEASE (R204): 200 ms after the end of the event, Helm's freeze after 2 s, or any after 10 s, which is logged. -/
def execDcFreezeRelease (k : Fin 12) (cause : FreezeEnd) (s : State) : Out :=
  .next (
    let c := s.mer.fe.ch[k]
    match cause with
    | .event => if c.freezeEvent && !eventOpen s (channelPhase k) then updMch s k fun x => { x with freezeEvent := false } else s
    | .helm => updMch s k fun x => { x with freezeHelm := false }
    | .long =>
      if c.freezeEvent || c.freezeHelm then
        logInfo (updMch s k fun x => { x with freezeEvent := false, freezeHelm := false }) (Config.eventCode 204) .meridian k
      else s)

/-! ### Modulator supervision and rotation (R208 to R213) -/

/-- The rotation of a type. -/
def rotation (s : State) (voltage : Bool) : Rotation := if voltage then s.mer.fe.rotV else s.mer.fe.rotI

/-- A type's rotation replaced by its image. -/
def updRot (s : State) (voltage : Bool) (f : Rotation → Rotation) : State :=
  if voltage then { s with mer := { s.mer with fe := { s.mer.fe with rotV := f s.mer.fe.rotV } } }
  else { s with mer := { s.mer with fe := { s.mer.fe with rotI := f s.mer.fe.rotI } } }

/-- A modulator is of the voltage type. -/
def isVoltage (m : Fin 20) : Bool := decide (m.val < 7)

/-- The spare of a type. -/
def spareMod (voltage : Bool) : Fin 20 := if voltage then 6 else 19

/-- A fault with no spare left (R210, Table 08-3). -/
def secondFault (s : State) (m : Fin 20) : State :=
  let t := logDetect (legalEvent s 0x13 m []) 0x0502 .meridian m
  match channelOf m with
  | some (k, true) => updMch t k fun c =>
    { c with only1 := true, gain16 := false, run := 0, switchCnt := if c.gain16 then satInc 16 c.switchCnt else c.switchCnt }
  | some (k, false) => updMch t k fun c => { c with invalid := true }
  | none => t

/-- The energy of an outlet whose channel took a substitute is marked "reduced accuracy" (R209). -/
def markSubstituted (s : State) (k : Fin 12) : State :=
  let t := updMch s k fun c => { c with settling := true, reducedSub := true }
  if k.val < 4 then updSessionRec t (Fin.ofNat 2 (k.val / 2)) fun r => { r with flags := { r.flags with reduced := true } }
  else t

/-- A modulator with the trims it had before its last calibration, where that one is not to count (R209). -/
def previousTrims (back : Bool) (x : Modulator) : Modulator :=
  if back then { x with gain := x.oldGain, ofs := x.oldOfs, calTime := x.oldTime } else x

/-- A modulator with a fault is retired for good and its type's spare takes its place (R209, R210). -/
def retireMod (s : State) (m : Fin 20) : State :=
  if (s.mer.fe.mod[m]).st = .retired then s
  else
    let v := isVoltage m
    let sp := spareMod v
    let spare := s.mer.fe.mod[sp]
    let rot := rotation s v
    let stop := fun (t : State) => updRot t v fun r => { r with phase := 0, stopped := true, spareUsed := true }
    let displaced := fun (t : State) => if rot.phase ≠ 0 ∧ rot.pos ≠ m.val ∧ (t.mer.fe.mod[(Fin.ofNat 20 rot.pos : Fin 20)]).st = .calibrating
      then updMod t (Fin.ofNat 20 rot.pos) fun x => previousTrims (rot.phase = 3) { x with st := .inService } else t
    if m = sp then
      let served := if rot.spareUsed ∧ spare.st = .standingIn then some spare.serves else none
      let t := updMod (displaced s) sp fun x => { x with st := .retired, serves := 31 }
      let t := legalEvent (stop t) 0x12 m []
      match served with
      | some n => secondFault t (Fin.ofNat 20 n)
      | none => logMasked t 0x0501 .meridian m
    else
      let t := updMod s m fun x => { x with st := .retired }
      let t := legalEvent t 0x12 m []
      if rot.spareUsed then secondFault t m
      else
        let t := updMod (displaced t) sp fun x => { x with st := .standingIn, serves := m.val }
        let t := stop t
        let t := match channelOf m with
          | some (k, _) => if spare.st = .standingIn ∧ spare.serves = m.val ∧ (s.mer.fe.mod[m]).st = .calibrating then t
            else markSubstituted t k
          | none => t
        logMasked t 0x0501 .meridian m

/-- STREAM_FAULT (R208). -/
def execStreamFault (m : Fin 20) (s : State) : Out := .next (if s.mer.up then retireMod s m else s)

/-- The tone's amplitude over a window, in sinc3 units times 10^12: twice the magnitude of the bin's mean. -/
def pilotAmplitude (x : Modulator) : Nat := 2 * Nat.sqrt (x.re.natAbs * x.re.natAbs + x.im.natAbs * x.im.natAbs) / x.len

/-- The deviation of the tone's amplitude from the expected one, in 0.001 % (DESIGN CHOICE, log 87). -/
def pilotDeviation (s : State) (x : Modulator) : Int :=
  let e := Config.pilotExpected (merN s 0x300 0x000 5 0) + 1
  ((pilotAmplitude x : Int) - e) * 100000 / e

/-- PILOT_WINDOW (R208): two consecutive windows with a deviation above 0.5 % are a gain fault. A modulator that has run no
sample since the last window is not judged. -/
def execPilotWindow (m : Fin 20) (s : State) : Out :=
  .next (
    let x := s.mer.fe.mod[m]
    if s.mer.up = true ∧ suspended s 6 = false ∧ x.len ≠ 0 then
      let d := pilotDeviation s x
      let bad := decide (500 < d.natAbs)
      let t := updMod s m fun y =>
        { y with pilotDev := satTo 16 d, badWindows := if bad then y.badWindows + 1 else 0, re := 0, im := 0, len := 0 }
      if 2 ≤ (t.mer.fe.mod[m]).badWindows then retireMod t m else t
    else s)

/-- SPARE_SETTLED (R209). -/
def execSpareSettled (k : Fin 12) (s : State) : Out :=
  .next (updMch s k fun c => { c with settling := false, reducedSub := false })

/-- The ring of a type: MOD0 to MOD5, or MOD7 to MOD18 (R212). -/
def ring (voltage : Bool) : List (Fin 20) :=
  if voltage then (List.finRange 20).filter (·.val < 6) else (List.finRange 20).filter fun m => 7 ≤ m.val ∧ m.val < 19

/-- The next in-service modulator of a ring after a position, or from it on at the first step (DEDUCED, log 51). -/
def nextInRing (s : State) (voltage : Bool) : Option (Fin 20) :=
  let r := rotation s voltage
  let ok := fun (m : Fin 20) => decide ((s.mer.fe.mod[m]).st = .inService)
  if r.again && r.begun then (ring voltage).find? fun m => ok m && m.val == r.pos
  else
    let later := (ring voltage).filter fun m => if r.begun then r.pos < m.val else r.pos ≤ m.val
    match later.find? ok with
    | some m => some m
    | none => (ring voltage).find? ok

/-- ROTATION_STEP_START (R212). -/
def execRotationStepStart (voltage : Bool) (s : State) : Out :=
  .next (
    let r := rotation s voltage
    let sp := spareMod voltage
    match nextInRing s voltage with
    | some x => if s.mer.up && !suspended s 4 && !r.stopped && !r.spareUsed && r.phase == 0 && decide ((s.mer.fe.mod[sp]).st = .spareFree) then
        updRot (updMod s sp fun m => { m with st := .standingIn, serves := x.val }) voltage fun q =>
          { q with pos := x.val, phase := 1, begun := true, again := q.again && q.pos == x.val, sumX := 0, sumSp := 0, len := 0 }
      else s
    | none => s)

/-- A comparison fails (R212): the means over the interval after settling differ by more than 0.05 % of full scale. -/
def comparisonFails (r : Rotation) : Bool :=
  decide ((r.len - 640 : Nat) * 2 ^ 31 < (r.sumX - r.sumSp).natAbs * 2000)

/-- ROTATION_SWAP (R212, Table 08-4). A first failure of the comparison calibrates the spare and repeats the step; after a
second, X's own calibration decides (DEDUCED, log 51). -/
def execRotationSwap (voltage : Bool) (s : State) : Out :=
  .next (
    let r := rotation s voltage
    let sp := spareMod voltage
    if s.mer.up && r.phase == 1 then
      if comparisonFails r = true ∧ r.again = false then
        updRot (updMod s sp fun m => { m with st := .calibrating, serves := 31 }) voltage fun q =>
          { q with phase := 4, again := true }
      else updRot (updMod s (Fin.ofNat 20 r.pos) fun m => { m with st := .calibrating }) voltage fun q =>
        { q with phase := 2, again := false }
    else s)

/-- The trims that a calibration gives (R212): MOD_OFS is the mean with the input shorted, MOD_GAIN in Q2.30 makes the
difference of the means at +80 % and −80 % of full scale 1.6 times full scale; `none` where the two means are alike
(DEDUCED, log 51). -/
def newTrims (short plus minus : Int) : Option (Int × Int) :=
  if plus ≤ minus then none else some (roundDiv (16 * 2 ^ 61) (10 * (plus - minus)), short)

/-- A calibration fails (R212) (DEDUCED, log 51). -/
def calibrationFails (m : Modulator) (gain ofs : Int) : Bool :=
  decide (2 ^ 30 < (gain - 2 ^ 30).natAbs * 100) || decide (2 ^ 31 < ofs.natAbs * 200)
    || (m.calibrated && (decide (3 * 2 ^ 30 < (gain - m.gain).natAbs * 10000) || decide (3 * 2 ^ 31 < (ofs - m.ofs).natAbs * 10000)))

/-- New trims with the time of calibration. -/
def takeTrims (s : State) (m : Fin 20) (gain ofs : Int) : State :=
  updMod s m fun x =>
    { x with
      gain := gain, ofs := ofs, calTime := s.now, calibrated := true, oldGain := x.gain, oldOfs := x.ofs, oldTime := x.calTime }

/-- ROTATION_CALIBRATION_DONE (R212): the mean outputs of stage 2 with the input shorted, and at +80 % and −80 %. -/
def execRotationCalibrationDone (voltage : Bool) (short plus minus : Int) (s : State) : Out :=
  .next (
    let r := rotation s voltage
    let x : Fin 20 := Fin.ofNat 20 r.pos
    if s.mer.up && r.phase == 2 then
      match newTrims short plus minus with
      | none => retireMod s x
      | some (gain, ofs) =>
        if calibrationFails s.mer.fe.mod[x] gain ofs then retireMod s x
        else updRot (takeTrims s x gain ofs) voltage fun q => { q with phase := 3, sumX := 0, sumSp := 0, len := 0 }
    else s)

/-- ROTATION_SWAP_BACK (R212) (DEDUCED, log 51). -/
def execRotationSwapBack (voltage : Bool) (s : State) : Out :=
  .next (
    let r := rotation s voltage
    if s.mer.up && r.phase == 3 then
      let t := updMod s (Fin.ofNat 20 r.pos) fun m => { m with st := .inService }
      updRot (updMod t (spareMod voltage) fun m => { m with st := .calibrating, serves := 31 }) voltage fun q =>
        { q with phase := 4 }
    else s)

/-- SPARE_CALIBRATION_DONE (R212), as ROTATION_CALIBRATION_DONE. -/
def execSpareCalibrationDone (voltage : Bool) (short plus minus : Int) (s : State) : Out :=
  .next (
    let r := rotation s voltage
    let sp := spareMod voltage
    if s.mer.up && r.phase == 4 then
      match newTrims short plus minus with
      | none => retireMod s sp
      | some (gain, ofs) =>
        if calibrationFails s.mer.fe.mod[sp] gain ofs then retireMod s sp
        else updRot (updMod (takeTrims s sp gain ofs) sp fun m => { m with st := .spareFree }) voltage fun q => { q with phase := 0 }
    else s)

/-- REFERENCE_COMPARISON (R213). -/
def execReferenceComparison (ppm : Int) (s : State) : Out :=
  .next (if s.mer.up && !suspended s 5 then
    let put := fun (b : Bool) => { s with mer := { s.mer with fe := { s.mer.fe with refDiff := satTo 16 ppm, refDrift := b } } }
    if 200 < ppm.natAbs then
      if s.mer.fe.refDrift then put true else logDetect (legalEvent (put true) 0x14 0 []) 0x0504 .meridian 0
    else if s.mer.fe.refDrift then logClear (put false) 0x0504 .meridian 0
    else put false
    else s)

/-! ### RTD inputs (R214, R215, R223) -/

/-- 10^23 R / R0 of a platinum element at t in 0.01 °C, by IEC 60751 (its coefficients PRESUMED, log 21). -/
def ptRatio (t : Int) : Int :=
  10 ^ 23 + 39083 * t * 10 ^ 14 - 5775 * t * t * 10 ^ 9 - if t < 0 then 4183 * (t - 10000) * t * t * t else 0

/-- The greatest temperature, from `lo` on, whose resistance does not exceed a ratio: a search by halving `2 ^ n`
(PRESUMED, log 21). -/
def ptSearch (ratio : Int) : Nat → Int → Int
  | 0, lo => lo
  | n + 1, lo => if ptRatio (lo + 2 ^ n) ≤ ratio then ptSearch ratio n (lo + 2 ^ n) else ptSearch ratio n lo

/-- RSTAT and temperature of a resistance in mΩ (PRESUMED, log 21). -/
def rtdJudge (pt1000 : Bool) (mOhm : Nat) : Nat × Int :=
  let m := if pt1000 then 10 else 1
  if 400000 * m < mOhm then (2, 0) else if mOhm < 60000 * m then (3, 0)
  else
    let ratio : Int := mOhm * 10 ^ 23 / (100000 * m)
    let t := ptSearch ratio 15 (-8000)
    if t < -5000 ∨ 20000 < t then (4, t) else (1, t)

/-- RTD_SAMPLE (R214, R215, R223). -/
def execRtdSample (r : Fin 4) (mOhm : Nat) (s : State) : Out :=
  .next (if s.mer.up && merN s (0x200 + r) 0x000 31 31 == 1 then
    let j := rtdJudge (merN s (0x200 + r) 0x000 30 30 == 1) mOhm
    let old := s.mer.fe.rtd[r]
    let t := { s with mer := { s.mer with fe := { s.mer.fe with
      rtd := s.mer.fe.rtd.set r ⟨if j.1 = 1 then j.2 else old.t, j.1⟩ } } }
    let o : Fin 2 := Fin.ofNat 2 r.val
    let t := if 2 ≤ r.val then
        { t with mer := { t.mer with lossEst := t.mer.lossEst.set o (decide (j.1 ≠ 1)) } } else t
    if j.1 ≠ 1 ∧ old.rstat < 2 then logDetect (legalEvent t 0x15 r []) 0x0505 .meridian r
    else if j.1 = 1 ∧ 2 ≤ old.rstat then logClear t 0x0505 .meridian r
    else t
    else s)

end Sys2Proof.Machine
end

