-- ==== Sys2Proof/Machine/Legal.lean ====
section
/-!
DEFINITION. Meridian's remaining commands and Helm's commercial ones: register commit and supply (R230, R238), supply
events (R235 to R237), the mailbox (R23, R211, R265), the Chronometer (R243 to R247, R12), tariffs, demand and billing
(R248 to R258), the legal window (R264), prepayment (R266 to R270).
-/
namespace Sys2Proof.Machine

/-! ### Commit and supply -/

/-- REGISTER_COMMIT (R230). -/
def execRegisterCommit (s : State) : Out := .next (if s.mer.up then commitRegs s else s)

/-- MERIDIAN_SUPPLY_FAIL (R238, R474): VDD_MANA and VDD_MCORE in µV. A Meridian that only keeps time in Dark commits too. -/
def execMeridianSupplyFail (mana mcore : Nat) (s : State) : Out :=
  .next (if s.mer.supplyFail || decide (1620000 ≤ mana ∧ 855000 ≤ mcore) then s
    else
      let s := noteRail (noteRail s 4 mana) 3 mcore
      let t := if s.mer.up then stopMetering s else if s.pwr.rung = .dark then commitRegs s else s
      excursion (logDetect { t with mer := { t.mer with supplyFail := true, plainStop := false } } 0x0302 .meridian 0))

/-- Meridian restarts: after a supply failure with both rails back in their windows. -/
def mayRestart (s : State) (mana mcore : Nat) : Bool :=
  !s.mer.up && s.pwr.rung != .dark && (!s.mer.supplyFail || (inWindow 4 mana && inWindow 3 mcore))

/-- MERIDIAN_RESTART (R238, R258, R491). -/
def execMeridianRestart (img : ImageChoice) (mana mcore : Nat) (s : State) : Out :=
  .next (if mayRestart s mana mcore then settle s (meridianBack (startMeridian (noteRail (noteRail s 4 mana) 3 mcore) img)) else s)

/-! ### Supply events (R235 to R237, Table 09-2) -/

/-- U_DECL in mV. -/
def uDecl (s : State) : Nat := merN s 0x600 0x000 31 16 * 100

/-- The RMS of a closed half-cycle against a percentage of U_DECL (R235): the sign of U − p %, exactly. -/
def rmsAgainst (s : State) (w : HalfWindow) (p : Nat) : Int :=
  let vfs := merN s 0x502 0x008 31 0 * 10
  (w.sum * vfs ^ 2 * 10000 : Nat) - ((p * uDecl s) ^ 2 * w.len * 2 ^ 62 : Nat)

/-- The RMS of a half-cycle as EXTREME, 0.01 % of U_DECL to the nearest; free where the field cannot hold it. -/
def extremeOf (s : State) (w : HalfWindow) : Nat :=
  let vfs := merN s 0x502 0x008 31 0 * 10
  let x := (Nat.sqrt (4 * (w.sum * vfs ^ 2 * 10 ^ 8) / (w.len * 2 ^ 62 * uDecl s ^ 2)) + 1) / 2
  if uDecl s = 0 ∨ 65535 < x then ((Config.unstated 236 x) % 65536).toNat else x

/-- A supply event starts on a phase with a half-cycle (R236) (DEDUCED, log 52). -/
def startEvent (s : State) (ph : Fin 3) (kind : Nat) (w : HalfWindow) : State :=
  let t := issueSeq s
  let ev : SupplyEvent :=
    { seq := t.mer.legalSeq, start := w.start, startMono := w.startMono, extreme := extremeOf s w, kind := kind
      phase := ph.val + 1 }
  let t := updLeg t fun l =>
    { l with
      events := (ev :: l.events).take 1024, evtTotal := (l.evtTotal + 1) % 2 ^ 32
      evtOverwrite := if l.events.length < 1024 then l.evtOverwrite else satInc 16 l.evtOverwrite }
  let f := freeze fun c => { c with freezeEvent := true }
  updMch (updMch t (Fin.ofNat 12 (4 + ph.val)) f) (Fin.ofNat 12 (7 + ph.val)) f

/-- The open event of a phase replaced by its image. -/
def updEvent (s : State) (ph : Fin 3) (f : SupplyEvent → SupplyEvent) : State :=
  updLeg s fun l => { l with events := l.events.map fun e => if e.isOpen && e.phase == ph.val + 1 then f e else e }

/-- A half-cycle judged for the start of an event. -/
def judgeStart (s : State) (ph : Fin 3) (w : HalfWindow) : State :=
  if rmsAgainst s w 90 < 0 then startEvent s ph (if rmsAgainst s w 5 < 0 then 3 else 1) w
  else if 0 < rmsAgainst s w 110 then startEvent s ph 2 w
  else s

/-- A half-cycle judged (R235, Table 09-2, R237): an event ends at the start of the first that meets its end condition; one
that ends an event may start another. -/
def judgeHalfCycle (s : State) (ph : Fin 3) (w : HalfWindow) : State :=
  if chInvalid s (Fin.ofNat 12 (4 + ph.val)) then s
  else match s.mer.leg.events.find? fun e => e.isOpen && e.phase == ph.val + 1 with
    | none => judgeStart s ph w
    | some e =>
      let swell := e.kind == 2
      if (if swell then decide (rmsAgainst s w 108 ≤ 0) else decide (0 ≤ rmsAgainst s w 92)) then
        judgeStart (updEvent s ph fun x => { x with isOpen := false, duration := w.startMono - x.startMono }) ph w
      else
        let x := extremeOf s w
        updEvent s ph fun y =>
          { y with
            extreme := if swell then max y.extreme x else min y.extreme x
            kind := if !swell && decide (rmsAgainst s w 5 < 0) then 3 else y.kind }

/-- A phase's half-cycle timing replaced by its image. -/
def updHalf (s : State) (ph : Fin 3) (f : HalfCycle → HalfCycle) : State :=
  { s with mer := { s.mer with fe := { s.mer.fe with half := upd s.mer.fe.half ph f } } }

/-- HALF_CYCLE_RMS (R235): the half-cycle that the last zero crossing closed, once. -/
def execHalfCycleRms (ph : Fin 3) (s : State) : Out :=
  .next (match s.mer.up, (s.mer.fe.half[ph]).closed with
    | true, some w => judgeHalfCycle (updHalf s ph fun h => { h with closed := none }) ph w
    | _, _ => s)

/-- ZERO_CROSSING_TIMEOUT (R235): after 1.5 nominal half-cycles without a crossing the window closes at the nominal length;
timing restarts at the next crossing. -/
def execZeroCrossingTimeout (ph : Fin 3) (s : State) : Out :=
  .next (match s.mer.up, (s.mer.fe.half[ph]).cur with
    | true, some w =>
      if 2 * w.len < 3 * halfSamples s then s
      else judgeHalfCycle (updHalf s ph fun h => { h with cur := none, nom := {}, closed := none }) ph (s.mer.fe.half[ph]).nom
    | _, _ => s)

/-! ### The Chronometer -/

/-- PTP_OFFSET (R243, R245, R246, R339): the correction in ns that Helm passes while its clock is locked; up to 1 s slewed,
else a step. -/
def execPtpOffset (ns : Int) (s : State) : Out :=
  .next (if s.mer.up && s.mer.chr.running && s.txl.ptp.locked then
    let s := if s.mer.chr.src = 3 then logClear s 0x0706 .meridian 0 else s
    let src := fun (t : State) => { t with mer := { t.mer with chr := { t.mer.chr with src := 1, uncNs := 1000000 } } }
    if s.mer.chr.valid ∧ ns.natAbs ≤ 1000000000 then
      src { s with mer := { s.mer with chr := { s.mer.chr with slew := ns } } }
    else src (stepClock s ((s.nowNs : Int) + ns).toNat)
    else s)

/-- PTP_DEAD_RECKONING (R243). -/
def execPtpDeadReckoning (s : State) : Out :=
  .next (if s.mer.chr.src = 1 then
    logMasked { s with mer := { s.mer with chr := { s.mer.chr with src := 3 } } } 0x0706 .meridian 0 else s)

/-- TIME_UNCERTAIN_SET (R245): open session records carry the flag. -/
def execTimeUncertainSet (s : State) : Out :=
  .next (if timeUncertain s then
    updLeg s fun l => { l with sessions := l.sessions.map fun r =>
      if r.isOpen then { r with flags := { r.flags with timeUncertain := true } } else r }
    else s)

/-- LEAP_SECOND (R12): a step of 1 s at the end of the day; an inserted second sets the Chronometer back. While Meridian does
not meter the Chronometer alone steps, and the restart processes the boundaries. -/
def execLeapSecond (insert : Bool) (s : State) : Out :=
  .next (if s.mer.chr.running && s.mer.chr.valid then
    let ns := if insert then s.nowNs - 1000000000 else s.nowNs + 1000000000
    if s.mer.up then stepClock s ns else { s with mer := { s.mer with chr := { s.mer.chr with ns := ns } } }
    else s)

/-- SLEW_DAY_END (R247): the net slew in ns, as two words (DEDUCED, log 52). -/
def execSlewDayEnd (s : State) : Out :=
  .next (if s.mer.up then
    let t := legalEvent s 0x07 0 (words64 (ofSigned 64 s.mer.chr.daySlew))
    { t with mer := { t.mer with chr := { t.mer.chr with daySlew := 0 } } }
    else s)

/-! ### Tariffs, demand and billing -/

/-- Boundaries are processed: Meridian meters on valid time (R246). -/
def onTime (s : State) : Bool := s.mer.up && s.mer.chr.valid && s.pwr.rung != .laidUp

/-- The instant after which the running interval's end, and the next boundary of any kind, is sought. -/
def intervalSince (s : State) : Nat := (s.mer.leg.demand[(0 : Fin 2)]).since

/-- DEMAND_INTERVAL_END (R252, R253): the running interval ends at its nominal boundary, once that has come. -/
def execDemandIntervalEnd (s : State) : Out :=
  .next (let b := nextDemand s (intervalSince s)
    if onTime s && decide (b ≤ s.nowNs) then closeIntervals s b {} {} else s)

/-- CALENDAR_ACTIVATE (R250): at the pending calendar's instant. -/
def execCalendarActivate (s : State) : Out :=
  .next (match s.mer.tar.pending with
    | some c => if onTime s && decide (c.activation ≤ s.nowNs) then retariff (activateCalendar s) else s
    | none => s)

/-- TARIFF_SWITCH (R249): the tariff is re-evaluated; an offset change that is no whole number of demand intervals
closes the running interval, ADJUSTED. -/
def execTariffSwitch (s : State) : Out :=
  .next (if onTime s then
    let t := match nextOffset s (intervalSince s) with
      | some p => if p ≤ s.nowNs then closeIntervals s p { adjusted := true } {} else s
      | none => s
    retariff t
    else s)

/-- The period closes at an instant for a cause, 1 SCHEDULED or 2 COMMAND; at the instant of the last close that close takes
the cause too, and before it nothing closes (R255). -/
def closeFor (s : State) (at_ cause : Nat) : State :=
  if s.mer.leg.lastClose < at_ then closePeriod s at_ (cause == 1) (cause == 2) false
  else if s.mer.leg.lastClose = at_ then addCause s cause
  else s

/-- BILLING_SCHEDULED_CLOSE (R255, R256): at the schedule's instant, once that has come. -/
def execBillingScheduledClose (s : State) : Out :=
  .next (if onTime s && decide (merN s 0x700 0x018 31 30 ≠ 0) then
    match nextBilling s (intervalSince s - 1) with
    | some b => if b ≤ s.nowNs then closeFor s b 1 else s
    | none => s
    else s)

/-- The items of the legal window's cycle (R264): kind 0 IMP and 1 EXP of outlets A and B, 2 session energy of an outlet
with an open record, 3 tariff, 4 date and time, 5 LEGAL_CNT, 6 firmware version, 7 FW_DIGEST. -/
def legalItems (s : State) : List (Nat × Nat) :=
  [(0, 0), (1, 0), (0, 1), (1, 1)] ++ ((List.finRange 2).filter fun o => (openSession s o).isSome).map (fun o => (2, o.val))
    ++ [(3, 0), (4, 0), (5, 0), (6, 0), (7, 0)]

/-- LEGAL_WINDOW_ITEM (R264). -/
def execLegalWindowItem (s : State) : Out :=
  .next (if s.mer.up then
    { s with mer := { s.mer with winItem := if s.mer.winItem + 1 < (legalItems s).length then s.mer.winItem + 1 else 0 } }
    else s)

/-! ### The mailbox (R23) -/

/-- The difference between an outlet's session energies and what has been charged is debited (R267). -/
def debit (s : State) (o : Fin 2) (e : EnergySet) : State :=
  let c := s.com.charge[o]
  let price := fun n => comN s 0 (0x010 + 4 * n) 31 0
  let imp : Int := ((List.finRange 8).map fun n => ((mWh e.tarImp[n] : Int) - (c.doneImp[n] : Nat)) * (price n.val : Int)).sum
  let cost := imp - ((mWh e.exp : Int) - c.doneExp) * comN s 0 0x030 31 0 + c.carry
  let t := updCharge s o fun x =>
    { x with
      carry := cost % 1000000, cost := x.cost + cost / 1000000, doneImp := e.tarImp.map mWh, doneExp := mWh e.exp }
  match c.account with
  | some n => creditBy t n (-(cost / 1000000))
  | none => t

/-- Meridian opens a session record (R265), or refuses it (R211). -/
def openRecord (s : State) (o : Fin 2) (hash : Bytes) : State :=
  if meteringInvalid s o then stopTrigger s o .recordRefused
  else
    let t := issueSeq s
    let r : SessionRec :=
      { seqOpen := t.mer.legalSeq, outlet := o, helmId := (Config.unstated 265 t.mer.legalSeq % 2 ^ 32).toNat
        start := s.nowNs, startMono := s.mono, hash := hash
        flags := { timeUncertain := timeUncertain s, timeInvalid := !s.mer.chr.valid, notLegal := notLegal s
                   lossEst := s.mer.lossEst[o], dispFault := displayFault s } }
    updLeg t fun l => { l with sessions := addSession l.sessions r }

/-- Meridian closes a session record (R265); Helm debits the difference (R267) and logs a copy (Table 02-11). -/
def closeRecord (s : State) (o : Fin 2) (fault : Bool) : State :=
  match openSession s o with
  | none => s
  | some r =>
    let t := debit (issueSeq s) o r.energy
    let t := updSessionRec t o fun x =>
      { x with
        isOpen := false, seqClose := t.mer.legalSeq, stop := t.nowNs, duration := t.mono - x.startMono
        flags := { x.flags with
          fault := x.flags.fault || fault, timeInvalid := x.flags.timeInvalid || !t.mer.chr.valid
          timeUncertain := x.flags.timeUncertain || timeUncertain t } }
    let t := updCharge (creditStop t o) o fun c => { c with account := none }
    match t.mer.leg.sessions.find? fun x => x.seqOpen == r.seqOpen with
    | some x => queueLog t (.session t.now x)
    | none => t

/-- The tariff registers of an outlet, import and export. -/
def tariffCopy (s : State) (o : Fin 2) : MailReply :=
  .tariffs o s.mer.leg.energy[o].tarImp s.mer.leg.energy[o].tarExp

/-- The vehicle voltage of MCH0 or MCH2, in mV. -/
def vehicleMv (s : State) (o : Fin 2) : Int :=
  (s.mer.fe.ch[(Fin.ofNat 12 (2 * o.val) : Fin 12)]).value * merN s (0x500 + o.val) 0x008 31 0 * 10 / 2 ^ 31

/-- Meridian's answer noted by Helm. -/
def noteReply (s : State) (r : MailReply) : State := { s with com := { s.com with reply := some r } }

/-- A request performed or refused, with its answer (R15, R23). -/
def answerMail (s : State) (r : MailRequest) : State :=
  match r with
  | .openRecord o h _ => noteReply (openRecord s o h) (.opened o (!meteringInvalid s o))
  | .closeRecord o f => noteReply (closeRecord s o f) (.closed o)
  | .readVehicle o =>
    noteReply (updOutlet s o fun x => { x with vMer := vehicleMv s o, vMerAt := some s.mono }) (.vehicle o (vehicleMv s o))
  | .readTariffs o => noteReply s (tariffCopy s o)
  | .readTime => noteReply s (.time s.now)

/-- A read that Helm makes now: it needs a place among the 16 outstanding. -/
def readRequest (s : State) (r : MailRequest) : Bool :=
  match r with
  | .openRecord _ _ _ => false
  | .closeRecord _ _ => false
  | _ => decide (s.mer.mail.length < 16)

/-- MAILBOX_REQUEST (R23, R36): an outstanding request, or a read made now, is performed or refused and answered, and a
request held back takes its place; while Meridian does not run it waits. -/
def execMailboxRequest (r : MailRequest) (s : State) : Out :=
  .next (if s.mer.up && s.landfall.helmUp && (s.mer.mail.contains r || readRequest s r) then
    answerMail (refillMail { s with mer := { s.mer with mail := s.mer.mail.erase r } }) r
    else s)

/-! ### Prepayment (R266 to R270) -/

/-- An outlet's running session is debited (R267), with the credit stop that may follow (R270). -/
def debitOutlet (s : State) (o : Fin 2) : State :=
  match openSession s o with
  | some r => creditStop (debit s o r.energy) o
  | none => s

/-- PREPAY_DEBIT (R267): outlet A first. -/
def execPrepayDebit (s : State) : Out := .next (if s.mer.up then debitOutlet (debitOutlet s 0) 1 else s)

/-- FRIENDLY_HOURS_END (R270). -/
def execFriendlyHoursEnd (o : Fin 2) (s : State) : Out := .next (creditStop s o)

/-- WEATHER_HOLD_END (R269, R270). -/
def execWeatherHoldEnd (s : State) : Out :=
  .next (if s.com.weatherEnd ≠ 0 ∧ s.com.weatherEnd ≤ s.nowNs then
    creditStop (creditStop { s with com := { s.com with weatherEnd := 0 } } 0) 1 else s)

end Sys2Proof.Machine
end

