-- ==== Sys2Proof/Machine/LegalWindow.lean ====
section
/-!
DEFINITION. The image of the legal window as Meridian lays it out (R264, R285, Table 11-3, Table 11-4): the texts of an item, the
markers, and the pixels of the cells; the glyphs themselves are free.
-/
namespace Sys2Proof.Machine

/-- The ASCII codes of a list of characters. -/
def ascii (l : List Char) : List Nat := l.map Char.toNat

/-- A number in decimal, with leading zeros up to `w` digits. -/
def decText (w n : Nat) : List Nat :=
  let d := ascii (Nat.toDigits 10 n)
  List.replicate (w - d.length) 48 ++ d

/-- Eight upper case hex digits of a word. -/
def hexText (n : Nat) : List Nat :=
  let d := (ascii (Nat.toDigits 16 (n % 2 ^ 32))).map fun c => if 97 ≤ c then c - 32 else c
  List.replicate (8 - d.length) 48 ++ d

/-- An energy as 999999999.999 kWh (Table 11-4), of its display form in Wh. -/
def kwhText (wh : Nat) : List Nat := decText 9 (wh / 1000) ++ [46] ++ decText 3 (wh % 1000)

/-- The local time as 2025-02-28 23:58. -/
def timeText (s : State) : List Nat :=
  let ls := localSec s.nowNs (offsetNow s s.nowNs)
  let d := civil (ls / 86400)
  decText 4 d.1 ++ [45] ++ decText 2 d.2.1 ++ [45] ++ decText 2 d.2.2 ++ [32] ++ decText 2 (ls % 86400 / 3600) ++ [58]
    ++ decText 2 (ls % 3600 / 60)

/-- The letter of an outlet and a blank. -/
def outletText (o : Nat) : List Nat := [65 + o, 32]

/-- The label and the value of an item (Table 11-4); a session shows its import (DESIGN CHOICE, log 89). -/
def itemTexts (s : State) (i : Nat × Nat) : List Nat × List Nat :=
  let o : Fin 2 := Fin.ofNat 2 i.2
  let e := s.mer.leg.energy[o]
  let digest := s.fw[(3 : Fin 5)].digest
  match i.1 with
  | 0 => (outletText o ++ ascii ['I', 'M', 'P', 'O', 'R', 'T', ' ', 'K', 'W', 'H'], kwhText (displayWh e.imp))
  | 1 => (outletText o ++ ascii ['E', 'X', 'P', 'O', 'R', 'T', ' ', 'K', 'W', 'H'], kwhText (displayWh e.exp))
  | 2 => (outletText o ++ ascii ['S', 'E', 'S', 'S', 'I', 'O', 'N', ' ', 'K', 'W', 'H'],
      match openSession s o with
      | some r => kwhText (displayWh r.energy.imp)
      | none => [])
  | 3 => (ascii ['T', 'A', 'R', 'I', 'F', 'F'], [84] ++ decText 1 s.mer.tar.tariff)
  | 4 => (ascii ['L', 'O', 'C', 'A', 'L', ' ', 'T', 'I', 'M', 'E'], timeText s)
  | 5 => (ascii ['L', 'E', 'G', 'A', 'L', ' ', 'E', 'V', 'E', 'N', 'T', 'S'], decText 1 s.mer.leg.legalCnt)
  | 6 => (ascii ['M', 'E', 'T', 'E', 'R', ' ', 'F', 'W'], hexText s.fw[(3 : Fin 5)].runVer)
  | _ => (ascii ['M', 'E', 'T', 'E', 'R', ' ', 'C', 'H', 'E', 'C', 'K'],
      hexText (beNat (digest.take 4)) ++ [32] ++ hexText (beNat (slice digest 4 4)))

/-- The markers N, R and T, each if present: any channel REDUCED gives R (DEDUCED, log 89). -/
def markers (s : State) : List (Option Nat) :=
  [if notLegal s then some 78 else none,
   if (List.finRange 12).any fun k => reduced s k then some 82 else none,
   if timeUncertain s || !s.mer.chr.valid then some 84 else none]

/-- The level of a pixel of a character in a cell; a blank and what lies outside the glyph are level 0. -/
def glyphLevel (h w : Nat) (c : Option Nat) (col row : Nat) : Nat :=
  match c with
  | some c => if c ≠ 32 ∧ col < w ∧ row < h then (Config.glyph h c col row).toNat else 0
  | none => 0

/-- The level of pixel `x` of row `r` of the window (Table 11-3); rows from 24 on are level 0 (R286). -/
def windowLevel (texts : List Nat × List Nat) (marks : List (Option Nat)) (x r : Nat) : Nat :=
  if r < 8 then
    if x < 150 then glyphLevel 7 5 texts.1[x / 6]? (x % 6) r
    else if x < 159 then glyphLevel 5 3 (marks.getD ((x - 150) / 3) none) ((x - 150) % 3) r
    else 0
  else if r < 24 then (if x < 153 then glyphLevel 14 8 texts.2[x / 9]? (x % 9) (r - 8) else 0)
  else 0

/-- The bytes of the window's image, `h` rows of 40 bytes, the lowest x in bits [7:6] (R274). -/
def windowImage (texts : List Nat × List Nat) (marks : List (Option Nat)) (h : Nat) : Bytes :=
  (List.range (40 * h)).map fun k =>
    let p := fun j => windowLevel texts marks (k % 40 * 4 + j) (k / 40)
    BitVec.ofNat 8 (p 0 * 64 + p 1 * 16 + p 2 * 4 + p 3)

/-- The image Meridian shows now (R264). -/
def legalImage (s : State) : Bytes :=
  windowImage (itemTexts s ((legalItems s).getD s.mer.winItem (0, 0))) (markers s) (merN s 0x300 0x048 7 0)

end Sys2Proof.Machine
end

