-- ==== Sys2Proof/Machine/OpOps.lean ====
section
/-!
DEFINITION. What every operation's end shares (R399, R404): the result waits for OP_COMPLETE, and the journal entry
records completion and status at once.
-/
namespace Sys2Proof.Machine

/-- A journal entry replaced by its image. -/
def updJrn (s : State) (opId : Nat) (f : Jrn → Jrn) : State :=
  { s with host := { s.host with journal := s.host.journal.map fun j => if j.opId = opId then f j else j } }

/-- An operation replaced by its image. -/
def updOp (s : State) (opId : Nat) (f : Op → Op) : State :=
  { s with host := { s.host with ops := s.host.ops.map fun x => if x.opId = opId then f x else x } }

/-- An operation's effect is done: its result and journal entry (R399, R404). -/
def resolveOp (s : State) (opId : Nat) (st : Status) (payload : Bytes) : State :=
  let t := updOp s opId fun x => { x with result := some (x.result.getD ⟨st, payload⟩) }
  updJrn t opId fun j => if j.state = 0 ∨ j.state = 1 then { j with state := 2, status := st.code, running := false } else j

end Sys2Proof.Machine
end

