-- ==== Sys2Proof/Machine/Panel.lean ====
section
/-!
DEFINITION. What the display controller drives (R275 to R280, R292 to R294): planes and rectangles of the panel, the scan of a
frame, the code, polarity and voltage of a pixel, and the power outputs. A row of the panel is 40 bytes, four pixels each, the
lowest x in bits [7:6]; the legal window spans the whole width, so rows are inside it or outside it.
-/
namespace Sys2Proof.Machine

/-! ### Pixels and rectangles -/

/-- A byte of the frame memory. -/
def frameByte (d : Display) (a : Nat) : Byte := sparseGet 0 d.frame a

/-- A byte of the settled plane. -/
def settledByte (d : Display) (a : Nat) : Byte := sparseGet 0 d.settled a

/-- Level of pixel `j` of a byte. -/
def pixelOf (b : Byte) (j : Nat) : Nat := b.toNat / 4 ^ (3 - j) % 4

/-- A row lies in the legal window as the display mirrors it (R285). -/
def inLegal (d : Display) (row : Nat) : Bool := decide (d.lwinY0 ≤ row ∧ row < d.lwinY0 + d.lwinH)

/-- The byte addresses of a rectangle's rows that lie outside (or, for `all`, inside or outside) the legal window, with the
index of each byte in the packed content. -/
def rectBytes (d : Display) (r : Rect) (all : Bool) : List (Nat × Nat) :=
  (List.range r.h).flatMap fun j =>
    if !all && inLegal d (r.y0 + j) then []
    else (List.range (r.w / 4)).map fun k => ((r.y0 + j) * 40 + r.x0 / 4 + k, j * (r.w / 4) + k)

/-- Two rectangles overlap. -/
def Rect.overlaps (a b : Rect) : Bool :=
  decide (a.x0 < b.x0 + b.w ∧ b.x0 < a.x0 + a.w ∧ a.y0 < b.y0 + b.h ∧ b.y0 < a.y0 + a.h)

/-- A rectangle holds a pixel. -/
def Rect.holds (q : Rect) (x r : Nat) : Bool := decide (q.x0 ≤ x ∧ x < q.x0 + q.w ∧ q.y0 ≤ r ∧ r < q.y0 + q.h)

/-- The whole panel. -/
def fullPanel : Rect := ⟨0, 0, 160, 64⟩

/-- The legal window as a rectangle. -/
def legalRect (d : Display) : Rect := ⟨0, d.lwinY0, 160, d.lwinH⟩

/-- Pairs of frames of transition `t` of band `b` (OD_b_t). -/
def odPairs (s : State) (b t : Nat) : Nat := cfgN s 0x80 0 (0x400 + b * 0x40 + t * 4) 21 20 + 1

/-- The code of pair `k` of transition `t` of band `b`. -/
def odCode (s : State) (b t k : Nat) : Nat := cfgN s 0x80 0 (0x400 + b * 0x40 + t * 4) (5 * k + 4) (5 * k)

/-- The settled code of a level in a band (BAND_LVL_b). -/
def settledCode (s : State) (b l : Nat) : Nat := cfgN s 0x80 0 (0x040 + 4 * b) (5 * l + 4) (5 * l)

/-! ### Drive (R276, R277, R279, R280) -/

/-- VCOM_V in mV (R276). -/
def vcomMv (s : State) : Int := 1500 + 40 * cfgN s 0x80 0 0x000 5 0

/-- The present frame: each pair begins with an even one. -/
def frameNo (d : Display) : Nat := 2 * d.pairs + if d.second then 1 else 0

/-- The transition a pixel takes part in, with its flight: the refresh, the legal window's, or its rectangle's. -/
def pixelFlight (d : Display) (x r : Nat) : Option (Flight × Nat) :=
  let i := pixelOf (settledByte d (r * 40 + x / 4)) (x % 4)
  let j := pixelOf (frameByte d (r * 40 + x / 4)) (x % 4)
  match d.refresh with
  | some f => some (f, 5 * j)
  | none =>
    if i = j then none
    else
      let moving := (d.legal.toList ++ d.flight).find? fun f => f.rect.holds x r
      moving.map fun f => (f, 4 * i + j)

/-- The code a pixel is driven with (R279, R280): its transition's for the pair under way, else the settled code. -/
def pixelCode (s : State) (x r : Nat) : Nat :=
  let d := s.disp
  let j := pixelOf (frameByte d (r * 40 + x / 4)) (x % 4)
  let i := pixelOf (settledByte d (r * 40 + x / 4)) (x % 4)
  match d.pwr with
  | .on => match pixelFlight d x r with
    | some (f, t) => if f.done < odPairs s f.band t then odCode s f.band t f.done else settledCode s d.bandNow j
    | none => settledCode s d.bandNow i
  | _ => settledCode s d.bandNow 0

/-- The polarity of a pixel is positive (R277). -/
def pixelPositive (s : State) (x r : Nat) : Bool :=
  let n := frameNo s.disp
  (match cfgN s 0x80 0 0x000 7 6 with
    | 0 => n
    | 1 => n + r
    | _ => n + r + x) % 2 == 0

/-- The source output of a pixel, in mV (R277). -/
def sourceMv (s : State) (x r : Nat) : Int :=
  let a : Int := 80 * pixelCode s x r
  if pixelPositive s x r then vcomMv s + a else vcomMv s - a

/-! ### The scan of a frame (R275, R294) -/

/-- FRAME_HZ, or FRAME_HZ_LOW in Hove-to and Anchored. -/
def frameHz (s : State) : Nat :=
  if s.pwr.rung = .hoveTo ∨ s.pwr.rung = .anchored then cfgN s 0x80 0 0x000 23 16 else cfgN s 0x80 0 0x000 31 24

/-- The slots of a frame. -/
def frameSlots (s : State) : Nat := 64 + cfgN s 0x80 0 0x000 15 8

/-- LINE_CYC. -/
def lineCyc (s : State) : Nat := (roundDiv 48000000 (frameHz s * frameSlots s : Nat)).toNat

/-- The level of GOA_CK[k], cycle `c` of a slot. -/
def goaCk (s : State) (k slot c : Nat) : Bool :=
  decide (slot < 64 ∧ slot % 4 = k ∧ cfgN s 0x80 0 0x004 21 11 ≤ c ∧ c + cfgN s 0x80 0 0x004 10 0 < lineCyc s)

/-- The level of GOA_STV in a slot. -/
def goaStv (s : State) (slot : Nat) : Bool := slot + 1 == frameSlots s

/-- The level of GOA_RST in a slot; power sequencing holds it high besides (R292, R293). -/
def goaRst (s : State) (slot : Nat) : Bool := s.disp.out.goaRst || slot == 64

/-- The row whose levels the source outputs carry, cycle `c` of a slot: they change SRC_DLY cycles after its start. -/
def sourceRow (s : State) (slot c : Nat) : Option Nat :=
  let row := if cfgN s 0x80 0 0x008 10 0 ≤ c then some slot else if slot = 0 then none else some (slot - 1)
  row.filter (· < 64)

/-- Two frames, in H-DISP cycles. -/
def twoFrames (s : State) : Nat := 2 * frameSlots s * lineCyc s

/-- The frontlight's duty in 0.1 %, ramped to FL_DUTY over 100 ms (R292). -/
def flDuty (s : State) : Nat :=
  if s.disp.out.fl then cfgN s 0x80 0 0x00C 15 6 * min 100 (s.mono - s.disp.stepAt) / 100 else 0

/-! ### Power-off (R293) -/

/-- The panel's power-off begins: FL_PWM low, two frames of level 0. -/
def beginOff (s : State) : State :=
  match s.disp.pwr with
  | .off => s
  | .poweringOff => s
  | _ => { s with disp := { s.disp with
      pwr := .poweringOff, step := 2, stepAt := s.mono, out := { s.disp.out with fl := false } } }

/-- The panel's power-on begins (R292): step 1 holds, step 2 enables AVDD_PNL. -/
def panelOn (s : State) : State :=
  if s.disp.pwr = .off ∧ s.landfall.ioOk = true then
    { s with disp := { s.disp with pwr := .poweringOn, step := 2, restart := false, stepAt := s.mono, out := { avdd := true } } }
  else s

/-- The ms a step of R293 takes at most. -/
def offStepMs (s : State) (k : Nat) : Nat := if k = 2 then twoFrames s / 48000 + 1 else if k = 4 then 1 else 5

/-- The outputs a step of R293 leaves when it ends: the frames, VCOM to VSS, VGL, VGH and AVDD_PNL off in turn. -/
def offStep (k : Nat) (o : PanelOut) : PanelOut :=
  match k with
  | 2 => { o with goaRst := true }
  | 4 => { o with vcom := false }
  | 5 => { o with vgl := false }
  | 6 => { o with vgh := false }
  | _ => { o with avdd := false }

/-- One millisecond of a power-off: each step takes its longest time (DESIGN CHOICE, log 54); a panel that is to power on again
then does (R290, R292). -/
def panelTick (s : State) : State :=
  let d := s.disp
  if d.pwr = .poweringOff ∧ d.stepAt + offStepMs s d.step ≤ s.mono then
    let out := offStep d.step d.out
    if d.step = 7 then
      let t := { s with disp := { d with pwr := .off, step := 0, out := out } }
      if d.restart then panelOn t else t
    else { s with disp := { d with step := if d.step = 2 then 4 else d.step + 1, stepAt := s.mono, out := out } }
  else s

end Sys2Proof.Machine
end

