-- ==== Sys2Proof/Machine/Display.lean ====
section
/-!
DEFINITION. The display controller's commands (R274 to R294): frames, rectangles, the legal window, bands, faults and
power sequencing.
-/
namespace Sys2Proof.Machine

/-- Pairs of frames of the longest sequence among the bytes listed; one pair if no pixel changes (R284). -/
def pairsFor (s : State) (d : Display) (band : Nat) (addrs : List (Nat × Nat)) : Nat :=
  addrs.foldl (fun n a =>
    let i := settledByte d a.1
    let j := frameByte d a.1
    if i = j then n
    else (List.range 4).foldl (fun m k =>
      if pixelOf i k = pixelOf j k then m else max m (odPairs s band (4 * pixelOf i k + pixelOf j k))) n) 1

/-- Pairs of frames of the longest refresh sequence of a band (R280). -/
def refreshPairs (s : State) (d : Display) (band : Nat) : Nat :=
  (rectBytes d fullPanel true).foldl (fun n a =>
    (List.range 4).foldl (fun m k => max m (odPairs s band (5 * pixelOf (frameByte d a.1) k))) n) 1

/-- The settled levels of a rectangle taken from the frame memory (R284). -/
def settleRect (d : Display) (r : Rect) (all : Bool) : Display :=
  { d with settled := (rectBytes d r all).foldl (fun m a => sparsePut 0 m a.1 (frameByte d a.1)) d.settled }

/-- A rectangle's content written outside the legal window (R22). -/
def writeRect (d : Display) (q : RectReq) : Display :=
  { d with frame := (rectBytes d q.rect false).foldl (fun m a => sparsePut 0 m a.1 (q.pix.getD a.2 0)) d.frame }

/-- The display replaced by its image. -/
def updDisp (s : State) (f : Display → Display) : State := { s with disp := f s.disp }

/-- Requests that wait end SUPERSEDED when one for exactly the same rectangle arrives (R283). -/
def supersede (s : State) (r : Rect) : State :=
  let old := s.disp.waiting.filter fun q => q.rect == r && !q.full
  let t := old.foldl (fun u q => match q.op with
    | some id => resolveOp u id .ok [1]
    | none => u) s
  updDisp t fun d =>
    { d with
      supersede := min 65535 (d.supersede + old.length), waiting := d.waiting.filter fun q => q.rect != r || q.full }

/-- A request of the host or of Helm's own firmware (R22, R281, R283): true if it joined the queue; one whose pixels all lie in
the legal window is discarded, and what touches it is counted. -/
def queueRect (s : State) (r : Rect) (pix : Bytes) (op : Option Nat) : Bool × State :=
  let rows := (List.range r.h).map fun j => inLegal s.disp (r.y0 + j)
  let t := if rows.any id then updDisp s fun d => { d with discard := satInc 16 d.discard } else s
  if rows.all id then (false, t)
  else (true, updDisp (supersede t r) fun d => { d with waiting := d.waiting ++ [{ rect := r, pix := pix, op := op, full := false }] })

/-! ### Frames (R280, R282 to R286) -/

/-- Flights one pair on: those that end settle their pixels and complete (R284). -/
def endFlights (s : State) : State :=
  let aged := s.disp.flight.map fun f => { f with done := f.done + 1, left := f.left - 1 }
  let ended := aged.filter (·.left == 0)
  let d := ended.foldl (fun d f => settleRect d f.rect (f.rect == fullPanel)) s.disp
  let t := { s with disp := { d with flight := aged.filter (·.left ≠ 0) } }
  ended.foldl (fun u f => match f.op with
    | some id => resolveOp u id .ok [0]
    | none => u) t

/-- The refresh and the legal transition one pair on. -/
def endSlots (d : Display) : Display :=
  let d := match d.refresh with
    | some f => if f.left ≤ 1 then { settleRect d fullPanel true with refresh := none }
        else { d with refresh := some { f with done := f.done + 1, left := f.left - 1 } }
    | none => d
  match d.legal with
  | some f => if f.left ≤ 1 then { settleRect d f.rect true with legal := none }
      else { d with legal := some { f with done := f.done + 1, left := f.left - 1 } }
  | none => d

/-- A refresh that is due starts once nothing is in flight (R280, R282). -/
def startRefresh (s : State) : State :=
  let d := s.disp
  if d.refreshDue && d.flight.isEmpty && d.legal.isNone && d.refresh.isNone then
    { s with disp := { d with
      refreshDue := false
      refresh := some { slot := 8, rect := fullPanel, band := d.band, done := 0, left := refreshPairs s d d.band, op := none } } }
  else s

/-- The lowest free slot of the eight. -/
def freeSlot (fs : List Flight) : Nat := ((List.range 8).find? fun k => fs.all (·.slot ≠ k)).getD 0

/-- A Helm activation pause: requests from Helm and the host wait (R294). -/
def helmPaused (s : State) : Bool := s.fw[(0 : Fin 5)].activating

/-- No non-legal rectangle starts (R294). -/
def noRects (s : State) : Bool :=
  decide (s.pwr.rung = .hoveTo ∨ s.pwr.rung = .anchored) || helmPaused s || s.disp.refreshDue || s.disp.refresh.isSome

/-- The waiting requests examined in arrival order (R282): `before` lists those that arrived earlier and still wait. -/
def startRects : List RectReq → List RectReq → State → State
  | [], before, s => { s with disp := { s.disp with waiting := before } }
  | q :: rest, before, s =>
    let d := s.disp
    if decide (d.flight.length < 8) && d.flight.all (fun f => !f.rect.overlaps q.rect)
        && before.all (fun b => !b.rect.overlaps q.rect) && (!q.full || d.legal.isNone) then
      let e := if q.full then d else writeRect d q
      let f : Flight :=
        { slot := freeSlot d.flight, rect := q.rect, band := d.band, done := 0
          left := pairsFor s e d.band (rectBytes e q.rect q.full), op := q.op }
      startRects rest before { s with disp := { e with flight := e.flight ++ [f] } }
    else startRects rest (before ++ [q]) s

/-- The legal image in the frame memory: rows from LWIN_Y0 + 24 on are level 0 (R286). -/
def writeLegal (d : Display) (img : Bytes) : Display :=
  let put := fun (m : List Host.Cell) (a : Nat × Nat) => sparsePut 0 m a.1 (if a.2 < 960 then img.getD a.2 0 else 0)
  { d with frame := (rectBytes d (legalRect d) true).foldl put d.frame }

/-- The latest legal pair taken (R286). -/
def startLegal (s : State) : State :=
  let d := s.disp
  match d.legalWait with
  | some p =>
    if d.legal.isNone && d.refresh.isNone && d.flight.all (fun f => f.rect ≠ fullPanel) then
      let d := { d with lwinY0 := p.y0, lwinH := p.h }
      let e := writeLegal d p.img
      let f : Flight :=
        { slot := 9, rect := legalRect d, band := d.band, done := 0
          left := pairsFor s e d.band (rectBytes e (legalRect d) true), op := none }
      { s with disp := { e with legalWait := none, crcExp := p.crc, haveImage := true, legal := some f } }
    else s
  | none => s

/-- EVEN_FRAME_BOUNDARY (R280, R282, R284, R286): completions, then a refresh, then rectangles, then the legal pair
(DEDUCED, log 54). -/
def execEvenFrameBoundary (s : State) : Out :=
  .next (if s.disp.pwr = .on then
    let t := endFlights s
    let t := updDisp t fun d => { endSlots d with pairs := d.pairs + 1, second := false, bandNow := d.band }
    let t := startRefresh t
    let t := if noRects t then t else startRects t.disp.waiting [] t
    startLegal t
    else s)

/-- LEGAL_PAIR_SEND (R285): Meridian sends its window image with its CRC on the legal lane. During a Meridian pause none is
sent (Table 17-8). -/
def execLegalPairSend (s : State) : Out :=
  .next (if s.mer.up then
    let img := legalImage s
    updDisp s fun d =>
      { d with lane := some ⟨img, crc32 img, merN s 0x300 0x048 15 8, merN s 0x300 0x048 7 0⟩ }
    else s)

/-- LEGAL_PAIR_RECEIVED (R286, R288): the pair on the lane arrives, bytes of its image upset on the way; an older waiting pair is
replaced. The mirror follows the pair in use (R285), or the first one received. -/
def execLegalPairReceived (upsets : List (Nat × Byte)) (s : State) : Out :=
  .next (match s.disp.lane with
    | some p => updDisp s fun d =>
        { d with
          lane := none, legalWait := some { p with img := upsetBytes p.img upsets }, pairAt := s.mono, pairSeen := true
          matchFrom := if d.faultLane && !d.pairSeen then none else d.matchFrom
          lwinY0 := if d.haveImage then d.lwinY0 else p.y0, lwinH := if d.haveImage then d.lwinH else p.h }
    | none => s)

/-! ### Faults (R287 to R291) -/

/-- The display's faults changed: sessions open while a fault exists carry it, and the pilots follow (R291, R164). -/
def dispNews (s : State) : State :=
  let t := if displayFault s then
    updLeg s fun l => { l with sessions := l.sessions.map fun r =>
      if r.isOpen then { r with flags := { r.flags with dispFault := true } } else r }
    else s
  setPilots t

/-- A display fault raised, logged at its onset (R290). -/
def raiseDisp (s : State) (had : Bool) (code : Nat) (f : Display → Display) : State :=
  if had then s else dispNews (logDetect (updDisp s f) code .helm 0)

/-- A display fault ended, logged (R290). -/
def endDisp (s : State) (had : Bool) (code : Nat) (f : Display → Display) : State :=
  if had then dispNews (logClear (updDisp s f) code .helm 0) else s

/-- CRC_MEM (R287): over the window's bytes in frame-memory order. -/
def crcMem (d : Display) : Nat := crc32 ((rectBytes d (legalRect d) true).map fun a => frameByte d a.1)

/-- FRAME_END_CRC (R287): CRC_SHIFT is over the levels read back from the latches, the window's bytes with those given
upset. -/
def execFrameEndCrc (upsets : List (Nat × Byte)) (s : State) : Out :=
  .next (if s.disp.pwr = .on then
    let m := crcMem s.disp
    let shift := crc32 (upsetBytes ((rectBytes s.disp (legalRect s.disp) true).map fun a => frameByte s.disp a.1) upsets)
    let t := updDisp s fun d => { d with crcMem := m, crcShift := shift, second := true }
    if s.disp.haveImage = false then t
    else if m = s.disp.crcExp ∧ shift = s.disp.crcExp then
      updDisp t fun d => { d with missRun := 0, matchFrom := some (d.matchFrom.getD s.mono) }
    else
      let t := updDisp t fun d => { d with missRun := d.missRun + 1, matchFrom := none, miss := satInc 16 d.miss }
      if 2 ≤ t.disp.missRun then raiseDisp t t.disp.faultCrc 0x0801 fun d => { d with faultCrc := true } else t
    else s)

/-- The ms without a legal pair that raise no LANE fault: 1 s, or an activation pause's bound, twice it when the new image falls
back (R288, Table 17-8). -/
def laneGrace (s : State) : Nat :=
  if meridianUpdating s then (if s.fw[(3 : Fin 5)].fallback then 4000 else 2000) else 1000

/-- LANE_TIMEOUT (R288). -/
def execLaneTimeout (s : State) : Out :=
  .next (if s.disp.pwr = .on ∧ s.disp.pairAt + laneGrace s ≤ s.mono then
    raiseDisp (updDisp s fun d => { d with pairSeen := false, matchFrom := none }) s.disp.faultLane (Config.eventCode 288)
      fun d => { d with faultLane := true }
    else s)

/-- Every frame has matched for 10 s (R290). -/
def matched10 (s : State) : Bool := s.disp.matchFrom.any fun t => decide (t + 10000 ≤ s.mono)

/-- DISPLAY_FAULT_CLEAR (R290): every frame has matched for 10 s, for LANE since a pair was received. -/
def execDisplayFaultClear (s : State) : Out :=
  .next (if matched10 s then
    let t := endDisp s (s.disp.faultCrc && !s.flt.island[(6 : Fin 17)].lost) 0x0801 fun d => { d with faultCrc := false }
    endDisp t (s.disp.faultLane && s.disp.pairSeen) (Config.eventCode 288) fun d => { d with faultLane := false }
    else s)

/-- The crack loop's last reading lies outside its limits. -/
def crackBad (s : State) (ohm : Nat) : Bool :=
  decide (cfgN s 0x80 0 0x098 31 16 < ohm ∨ ohm < cfgN s 0x80 0 0x098 15 0)

/-- CRACK_MEASURE (R289, R290): 0 to 10 kΩ; the first reading of a Landfall within the limits ends the fault. -/
def execCrackMeasure (ohm : Nat) (s : State) : Out :=
  .next (if suspended s 11 then s else
    let r := min 10000 ohm
    let t := updDisp s fun d => { d with crackRes := r, crackCheck := false }
    if crackBad s r then raiseDisp t t.disp.faultCrack 0x0802 fun d => { d with faultCrack := true }
    else if s.disp.crackCheck then endDisp t t.disp.faultCrack 0x0802 fun d => { d with faultCrack := false }
    else t)

/-! ### Temperature bands (R278, R280) -/

/-- The band of a temperature: each threshold is passed by BAND_HYST. -/
def nextBand (s : State) (t : Int) (old : Nat) : Nat :=
  let h : Int := cfgN s 0x80 0 0x024 7 0
  ((List.range 5).filter fun k =>
    let th := cfgI s 0x80 0 (0x010 + 4 * k) 15 0
    if k < old then decide (th - h ≤ t) else decide (th + h ≤ t)).length

/-- PANEL_TEMP_MEASURE (R278): a band change asks for a refresh. -/
def execPanelTempMeasure (reading : PanelTemp) (s : State) : Out :=
  .next (
    let go := fun (b : Nat) (d : Display) => { d with refreshDue := d.refreshDue || b != d.band, band := b }
    match reading with
    | .fault => updDisp s fun d => go 0 { d with thFault := true }
    | .reading t =>
      if t < -450 ∨ 1100 < t then updDisp s fun d => go 0 { d with thFault := true, temp := t }
      else updDisp s fun d => go (nextBand s t d.band) { d with thFault := false, temp := t })

/-! ### Power (R276, R290, R292, R293) -/

/-- PUMP_FAULT (R276): while the pump is enabled. -/
def execPumpFault (p : Fin 3) (s : State) : Out :=
  .next (
    let o := s.disp.out
    let on := match p with
      | 0 => o.avdd
      | 1 => o.vgh
      | 2 => o.vgl
    if on then
      raiseDisp (updDisp s fun d => { d with retrying := false }) s.disp.faultPump 0x0803 fun d => { d with faultPump := true }
    else s)

/-- The panel is to power on: at once, or when its power-off ends. -/
def powerOn (s : State) : State :=
  if s.disp.pwr = .poweringOff then updDisp s fun d => { d with restart := true } else panelOn s

/-- PANEL_POWER_ON (R292). -/
def execPanelPowerOn (s : State) : Out := .next (if 3 ≤ s.landfall.phase then powerOn s else s)

/-- PANEL_POWER_OFF (R293): the sequence begins; its steps follow as time passes. -/
def execPanelPowerOff (s : State) : Out := .next (beginOff (updDisp s fun d => { d with restart := false }))

/-- PUMP_RETRY (R290): off, then on again. -/
def execPumpRetry (s : State) : Out :=
  .next (if s.disp.faultPump then powerOn (beginOff (updDisp s fun d => { d with retrying := true })) else s)

/-- The action of a power-on step (Table 11-6). -/
def panelStep (k : Nat) (o : PanelOut) : PanelOut :=
  match k with
  | 3 => { o with vgh := true }
  | 4 => { o with vgl := true }
  | 5 => { o with vcom := true }
  | 6 => { o with goaRst := true }
  | 7 => { o with goaRst := false }
  | 8 => { o with fl := true }
  | _ => o

/-- What a power-on step waits for (Table 11-6), by the output's voltage in mV and the µs since the step began: whether it is
met, and the step's maximum. -/
def stepMet (s : State) (k : Nat) (mv : Int) (us : Nat) : Bool × Nat :=
  match k with
  | 2 => (decide ((mv - 5500).natAbs ≤ 275 ∧ 1000 ≤ us), 6000)
  | 3 => (decide ((mv - 15000).natAbs ≤ 750 ∧ 1000 ≤ us), 11000)
  | 4 => (decide ((mv + 10000).natAbs ≤ 500 ∧ 1000 ≤ us), 11000)
  | 5 => (decide ((mv - vcomMv s).natAbs ≤ 20), 2000)
  | 6 => (decide (1100 ≤ us), us)
  | _ => (decide (twoFrames s ≤ 48 * us), us)

/-- The panel is on (R292): the settled plane is level 0 and the frame memory is drawn as a full-panel request; a retry that
came so far ends the PUMP fault. -/
def panelUp (s : State) : State :=
  let t := updDisp s fun d =>
    { d with
      pwr := .on, settled := [], missRun := 0, matchFrom := none, stepAt := s.mono, pairAt := s.mono, bandNow := d.band
      waiting := { rect := fullPanel, pix := [], op := none, full := true } :: d.waiting }
  endDisp (updDisp t fun d => { d with retrying := false }) (t.disp.retrying && t.disp.faultPump) 0x0803
    fun d => { d with faultPump := false }

/-- PANEL_POWER_STEP (R292): `us` µs into the step its output stands at `mv` mV. The next step begins when the condition is met;
a step that misses its maximum raises PUMP, with all pumps off. -/
def execPanelPowerStep (mv : Int) (us : Nat) (s : State) : Out :=
  .next (if s.disp.pwr = .poweringOn then
    let m := stepMet s s.disp.step mv us
    if m.2 < us then
      raiseDisp (updDisp s fun d => { d with pwr := .off, step := 0, out := {}, retrying := false }) s.disp.faultPump 0x0803
        fun d => { d with faultPump := true }
    else if m.1 then
      let k := s.disp.step + 1
      let t := updDisp s fun d => { d with step := k, out := panelStep k d.out }
      if k = 8 then panelUp t else t
    else s
    else s)

/-! ### The scroll (R22, R272) -/

/-- The band of rows that Helm's firmware draws its scroll in: the larger of those above and below the legal window
(DESIGN CHOICE, log 90). -/
def scrollRect (d : Display) : Rect :=
  let below := 64 - (d.lwinY0 + d.lwinH)
  if d.lwinY0 ≤ below then ⟨0, d.lwinY0 + d.lwinH, 160, below⟩ else ⟨0, 0, 160, d.lwinY0⟩

/-- What an item shows (R272): kind, argument, and the values it stands for. -/
def scrollValues (s : State) (i : ScrollItem) : List Nat :=
  let o : Fin 2 := Fin.ofNat 2 i.arg
  i.kind :: i.arg :: match i.kind with
    | 1 => [comN s 0 (0x010 + 4 * (i.arg - 1)) 31 0]
    | 2 => match (s.com.charge[o]).account with
      | some n => [ofSigned 64 (account s n).credit]
      | none => []
    | 3 => [ofSigned 64 (s.com.charge[o]).cost]
    | 4 => match openSession s o with
      | some r => [mWh r.energy.imp, mWh r.energy.exp]
      | none => []
    | 5 => i.text.map (·.toNat)
    | 6 => [s.mer.tar.tariff]
    | _ => [secOf s.nowNs]

/-- The scroll's next item is drawn when the one before has had its dwell (R272); an empty list leaves the area blank. It waits
while the panel is off, Helm pauses or 16 requests wait. -/
def scrollTick (s : State) : State :=
  let due : Bool := s.com.scrollDue.any fun t => decide (t ≤ s.mono)
  if due && s.disp.pwr == .on && s.landfall.helmUp && !helmPaused s && decide (s.disp.waiting.length < 16) then
    let r := scrollRect s.disp
    match s.com.scroll[s.com.scrollAt]? with
    | some i =>
      let vals := scrollValues s i
      let pix := (List.range (r.w * r.h / 4)).map (Config.scrollImage vals)
      let t := (queueRect s r pix none).2
      { t with com := { t.com with
          scrollAt := if s.com.scrollAt + 1 < s.com.scroll.length then s.com.scrollAt + 1 else 0
          scrollDue := some (s.mono + i.dwell * 1000) } }
    | none =>
      let t := (queueRect s r (List.replicate (r.w * r.h / 4) 0) none).2
      { t with com := { t.com with scrollAt := 0, scrollDue := none } }
  else s

end Sys2Proof.Machine
end

