-- ==== Sys2Proof/Machine/Gates.lean ====
section
/-!
DEFINITION. The gate outputs of the PWM fabric as functions of the S-PWM counter (R70 to R76, R81, R82): the carrier of
a cell, the reference, dead times and minimum pulses, overrides, and what a compare or phase-shift write does at an
instant (Table 03-1). Instants are thousandths of a step; positions and lengths are steps.
-/
namespace Sys2Proof.Machine

/-! ### The carrier of a cell (R82) -/

/-- ROSE_SUM. -/
def roseSum (s : State) (g : Fin 8) (c : Fin 48) : Nat := (s.sx.aux[g].phEff + s.sx.cell[c].roseEff) % 65536

/-- STG_SYNC_DLY. -/
def syncDelay (s : State) (g : Fin 8) : Nat := cfgN s 0x11 g 0x010 11 0

/-- OFF_STEPS. -/
def offSteps (s : State) (g : Fin 8) (c : Fin 48) : Nat :=
  ((roundDiv ((roseSum s g c * pSteps s g : Nat) : Int) 65536 - syncDelay s g) % pSteps s g).toNat

/-- The stage's present carrier period, in thousandths of a step: STG_PRD's, as the lock adjusts it (R85, R86). -/
def carrierPeriod (s : State) (g : Fin 8) : Nat := (1000 * pSteps s g + s.sx.aux[g].trim).toNat

/-- The carrier start of a cell: the stage reference instant plus OFF_STEPS. -/
def carrierStart (s : State) (g : Fin 8) (c : Fin 48) : Nat := s.sx.aux[g].refAt + 1000 * offSteps s g c

/-- The position of a cell's carrier at an instant, in steps of its period. -/
def cellPos (s : State) (g : Fin 8) (c : Fin 48) (t : Nat) : Nat :=
  ((((t : Int) - s.sx.cell[c].startAt) / 1000) % pSteps s g).toNat

/-- The enabled cell that holds a channel, with its stage. -/
def channelCell (s : State) (n : Fin 48) : Option (Fin 8 × Fin 48) :=
  (List.finRange 48).findSome? fun c => match cellStage s c with
    | some g => if chanOfCell s g c n then some (g, c) else none
    | none => none

/-- The channels of a cell. -/
def chansOf (s : State) (g : Fin 8) (c : Fin 48) : List (Fin 48) :=
  (List.range (kindChannels (stgKind s g))).map fun k => Fin.ofNat 48 (cfgN s 0x12 c 0x000 23 16 + k)

/-- The role of a channel within its cell (Table 03-4). -/
def chanRole (s : State) (n c : Fin 48) : Nat := n.val - cfgN s 0x12 c 0x000 23 16

/-! ### Pulses (R71 to R73, R81) -/

/-- DT_RISE: the wait of PWM_H. -/
def dtRise (s : State) (n : Fin 48) : Nat := cfgN s 0x13 n 0x008 14 0
/-- DT_FALL: the wait of PWM_L. -/
def dtFall (s : State) (n : Fin 48) : Nat := cfgN s 0x13 n 0x008 30 16
/-- MIN_PULSE. -/
def minPulse (s : State) (n : Fin 48) : Nat := cfgN s 0x13 n 0x000 27 16
/-- OUT_MODE. -/
def outMode (s : State) (n : Fin 48) : Nat := cfgN s 0x13 n 0x000 4 3
/-- LOAD_MODE (DEDUCED, log 41). -/
def loadMode (s : State) (n : Fin 48) : Nat := cfgN s 0x13 n 0x000 9 8

/-- The on-time of an output that is due to be on from `a` to `b` (R72, R73): none where its dead time does not elapse;
dropped or lengthened where it is shorter than MIN_PULSE. -/
def gateOnTime (mp : Nat) (ext : Bool) (a b : Nat) : Nat × Nat :=
  if b ≤ a then (0, 0) else if b - a < mp then (if ext then (a, a + mp) else (0, 0)) else (a, b)

/-- MIN_PULSE drops or lengthens the pulse (R73). -/
def shortPulse (mp a b : Nat) : Bool := decide (a < b ∧ b - a < mp)

/-- The on-times of the output that follows a reference high for `len` steps of `p`, and of the one that follows its
inverse, reckoned from the reference's rise; `dtA` and `dtB` are their dead times. A lengthened pulse delays the other
output's turn-on (R72). -/
def pulsePair (p len dtA dtB mp : Nat) (ext : Bool) : (Nat × Nat) × (Nat × Nat) :=
  if p ≤ len then ((0, p), (0, 0))
  else if len = 0 then ((0, 0), (0, p))
  else
    let a := gateOnTime mp ext dtA len
    let b := gateOnTime mp ext (max len a.2 + dtB) p
    (gateOnTime mp ext (b.2 - p + dtA) len, b)

/-- An on-time covers `u`, a pulse that runs past the period included. -/
def inPulse (w : Nat × Nat) (p u : Nat) : Bool := decide (w.1 ≤ u ∧ u < w.2) || decide (w.1 ≤ u + p ∧ u + p < w.2)

/-- The reference's high interval: its start in the period and its length (R71, R81). -/
def refHigh (s : State) (g : Fin 8) (n c : Fin 48) : Nat × Nat :=
  let top := topSteps s g
  let p : Int := pSteps s g
  let e := min s.sx.channel[n].eff top
  let x := s.sx.cell[c]
  if stgKind s g = 5 then
    match chanRole s n c with
    | 0 => (0, (p / 2).toNat)
    | 1 => ((p / 2).toNat, (p / 2).toNat)
    | 2 => ((x.phsX % p).toNat, (p / 2 + x.phsM - x.phsX).toNat)
    | _ => (((p / 2 + x.phsM) % p).toNat, (p / 2 - x.phsM + x.phsX).toNat)
  else if triangle s g then (2 * top - e, 2 * e)
  else (0, e)

/-- The dead times of the output that follows the reference and of the other: the low side follows it in a BOOST cell
(R71), and alone in LOW_ONLY mode (R70). -/
def deadTimes (s : State) (g : Fin 8) (n : Fin 48) : Nat × Nat :=
  if (stgKind s g = 2 ∧ outMode s n ≠ 2) ∨ outMode s n = 3 then (dtFall s n, dtRise s n) else (dtRise s n, dtFall s n)

/-- The pulses of a channel in the period, reckoned from the reference's rise. -/
def pulses (s : State) (g : Fin 8) (n c : Fin 48) : (Nat × Nat) × (Nat × Nat) :=
  let r := refHigh s g n c
  let d := deadTimes s g n
  let mp := minPulse s n
  let ext := cfgB s 0x13 n 0x000 7
  if outMode s n = 1 then pulsePair (pSteps s g) r.2 d.1 d.2 mp ext
  else if pSteps s g ≤ r.2 then ((0, pSteps s g), (0, 0))
  else (gateOnTime mp ext d.1 r.2, (0, 0))

/-- Steps since the reference's rise. -/
def sinceRise (s : State) (g : Fin 8) (n c : Fin 48) (t : Nat) : Nat :=
  (cellPos s g c t + pSteps s g - (refHigh s g n c).1) % pSteps s g

/-! ### Overrides and levels (R76) -/

/-- A forced reference of load-step firing (R131): high for BUCK and BIDI, low for BOOST. -/
def forced (s : State) (g : Fin 8) (c : Fin 48) : Option Bool :=
  if s.sx.stage[g].firing = true ∧ stgKind s g ≠ 5 then
    match s.sx.cell[c].st with
    | .inService => some (decide (stgKind s g ≠ 2))
    | .shedding => some (decide (stgKind s g ≠ 2))
    | .adding => some (decide (stgKind s g ≠ 2))
    | _ => none
  else none

/-- Both outputs of a channel are held low: ranks 1 to 5 of Table 03-2. -/
def heldLow (s : State) (n : Fin 48) (g : Fin 8) (c : Fin 48) : Bool :=
  let x := s.sx.channel[n]
  let st := s.sx.cell[c].st
  !(s.lk.gpA && s.lk.gpB) || x.fltIn || decide (s.sx.stage[g].st = .latched ∨ s.sx.stage[g].st = .off) || x.rbErrH
    || x.rbErrL || s.sx.stage[g].parked || !s.sx.up || decide (outMode s n = 0)
    || decide (st = .retired ∨ st = .shed ∨ st = .off)

/-- The levels of the output that follows the reference and of the other, below rank 5 (ranks 6 to 9 of Table 03-2): a
turn-on waits its dead time after the last edge outside the carrier's schedule (DEDUCED, log 42). -/
def sides (s : State) (g : Fin 8) (n c : Fin 48) (t : Nat) : Bool × Bool :=
  let x := s.sx.channel[n]
  let d := deadTimes s g n
  let late := fun dt => decide (max x.edgeAt x.keepTo + 1000 * dt ≤ t)
  if x.trunc then (false, late d.2)
  else match forced s g c with
    | some true => (late d.1, false)
    | some false => (false, late d.2)
    | none =>
      if t < x.keepTo then (x.keepA, !x.keepA)
      else
        let w := pulses s g n c
        let u := sinceRise s g n c t
        (inPulse w.1 (pSteps s g) u && late d.1, inPulse w.2 (pSteps s g) u && late d.2)

/-- The levels of PWM_H and PWM_L of a channel at an instant (R70 to R73, R76, R122, R131) (DEDUCED, log 42). -/
def gates (s : State) (n : Fin 48) (t : Nat) : Bool × Bool :=
  match channelCell s n with
  | none => (false, false)
  | some (g, c) =>
    if heldLow s n g c then (false, false)
    else
      let w := sides s g n c t
      let kind := stgKind s g
      let hl := match outMode s n with
        | 1 => if kind = 2 then (w.2, w.1) else w
        | 2 => (w.1, false)
        | _ => (false, w.1)
      let ns := s.sx.stage[g].noSinkRestr
      (hl.1 && !(ns && kind == 2), hl.2 && !(ns && (kind == 1 || kind == 3)))

/-- Pulses that MIN_PULSE drops or lengthens among those an output is about to make at a carrier point (R73): at its
start those of a sawtooth period; on a triangle at the top the pulse about the start, at the start the other
(DEDUCED, log 42). -/
def minPulses (s : State) (n : Fin 48) (g : Fin 8) (c : Fin 48) (top : Bool) : Nat :=
  let p := pSteps s g
  let len := (refHigh s g n c).2
  let d := deadTimes s g n
  let a := flag (shortPulse (minPulse s n) d.1 len && decide (len < p))
  let b := flag (shortPulse (minPulse s n) (len + d.2) p && decide (0 < len ∧ outMode s n = 1))
  if outMode s n = 0 then 0
  else if triangle s g then (if top then a else b)
  else if top then 0 else a + b

/-! ### Writes (R74, R75, Table 03-1) -/

/-- An edge outside the carrier's schedule at `t`, which the dead times follow; an output that is on already is not
turned on by it. -/
def markEdge (on : Bool) (t : Nat) (x : Channel) : Channel := if on then x else { x with edgeAt := t }

/-- An IMMEDIATE compare write at an instant (Table 03-1): an edge still due moves, or is caught where the new value
places it at or behind the counter; a value for an edge that has happened waits for the next period. A pulse that has
begun keeps MIN_PULSE (R73) (DEDUCED, log 42). -/
def writeImmediate (s : State) (g : Fin 8) (n c : Fin 48) (t v : Nat) : State :=
  let pos := cellPos s g c t
  let top := topSteps s g
  let x := s.sx.channel[n]
  let up := !(triangle s g && decide (top ≤ pos))
  let q := if up then pos else 2 * top - pos
  let due := if up then decide (q < x.eff ∧ x.eff < top) else decide (0 < x.eff ∧ x.eff ≤ q)
  let caught := due && (if up then decide (v ≤ q) else decide (q ≤ v))
  let ends := if caught then t else t + 1000 * (if up then v - q else q - v)
  let w := pulses s g n c
  let u := sinceRise s g n c t
  let begun := if up then t - 1000 * (u - w.1.1) else t - 1000 * (u - w.2.1)
  let on := if up then (sides s g n c t).1 else (sides s g n c t).2
  let least := begun + 1000 * minPulse s n
  let keep := due && on && decide (ends < least)
  updChannel s n fun y =>
    { y with
      cmp := v, pendCmp := none, eff := if due then v else y.eff
      edgeAt := if caught then t else y.edgeAt
      keepTo := if keep then least else if due then 0 else y.keepTo
      keepA := if keep then up else y.keepA
      catchCnt := if caught then satInc 16 y.catchCnt else y.catchCnt }

/-- A new CMP reaches a channel under its LOAD_MODE (R74). -/
def writeCmp (s : State) (g : Fin 8) (n c : Fin 48) (t v : Nat) : State :=
  if loadMode s n = 0 then writeImmediate s g n c t v else updChannel s n fun x => { x with pendCmp := some v }

/-- A secondary edge in effect at `old`, with the carrier at `q` and a new place `v`: where it now is, and whether it is
caught (Table 03-1). -/
def moveEdge (q old v : Int) : Int × Bool :=
  if old ≤ q then (old, false) else if v ≤ q then (v, true) else (v, false)

/-- The secondary edges of a DAB cell placed at a phase shift `v` at an instant: those still due move or are caught, the
others wait for their next (R75, R81); `count`: the catches count (DEDUCED, log 42). -/
def moveEdges (s : State) (g : Fin 8) (c : Fin 48) (t : Nat) (v : Int) (count : Bool) : State :=
  let p : Int := pSteps s g
  let pos : Int := cellPos s g c t
  let x := s.sx.cell[c]
  let a := moveEdge (if p ≤ 2 * pos then pos - p else pos) x.phsX v
  let b := moveEdge (pos - p / 2) x.phsM v
  let k := if count then flag a.2 + flag b.2 else 0
  let f := fun (y : Channel) =>
    { y with edgeAt := if a.2 || b.2 then t else y.edgeAt, catchCnt := min 65535 (y.catchCnt + k) }
  let c0 := cfgN s 0x12 c 0x000 23 16
  let u := updCell s c fun x => { x with phsX := a.1, phsM := b.1 }
  updChannel (updChannel u (Fin.ofNat 48 (c0 + 2)) f) (Fin.ofNat 48 (c0 + 3)) f

/-- A new CELL_PHS takes effect at an instant (R75, R81). -/
def applyPhs (s : State) (g : Fin 8) (c : Fin 48) (t : Nat) (v : Int) : State :=
  moveEdges (updCell s c fun x => { x with phs := v, pendPhs := none }) g c t v true

/-- PHS_MAX of a stage. -/
def phsMax (s : State) (g : Fin 8) : Nat := cfgN s 0x11 g 0x014 19 0

/-- The compare value that a law's value gives (R99): of an AFE3 phase, or of another cell. -/
def cellCmp (s : State) (g : Fin 8) (y : Int) : Nat :=
  let top := topSteps s g
  if stgKind s g = 4 then (roundDiv ((y + 2147483648) * top) 4294967296).toNat
  else (roundDiv (max y 0 * top) 2147483648).toNat

/-- An instance's output `y`, or the three `ms` of an AFE3 cell, written to a cell (R99, R109). A DAB cell that fires
keeps its forced CELL_PHS (R131). -/
def writeCell (s : State) (c : Fin 48) (y : Int) (ms : List Int) (t : Nat) : State :=
  match cellStage s c with
  | none => s
  | some g =>
    if stgKind s g = 5 then
      let m : Int := phsMax s g
      let v := clampInt (-m) m (roundDiv (y * m) 2147483648)
      if s.sx.stage[g].firing then s
      else if loadMode s (Fin.ofNat 48 (cfgN s 0x12 c 0x000 23 16)) = 0 then applyPhs s g c t v
      else updCell s c fun x => { x with pendPhs := some v }
    else ((chansOf s g c).zipIdx).foldl
      (fun u p => writeCmp u g p.1 c t (cellCmp s g (if stgKind s g = 4 then ms.getD p.2 0 else y))) s

/-- Level 1 of Table 05-3 on a cell, at an instant: the active pulse ends until the next period; of a DAB cell the
secondary legs take the primary's edges until the next half-period. -/
def truncateCell (s : State) (g : Fin 8) (c : Fin 48) (t : Nat) : State :=
  let u := updCell s c fun x => { x with cbcHit := true }
  if stgKind s g = 5 then moveEdges u g c t 0 false
  else (chansOf s g c).foldl (fun v n =>
    let on := (sides v g n c t).2
    updChannel v n fun x => markEdge on t { x with trunc := true }) u

end Sys2Proof.Machine
end

