-- ==== Sys2Proof/Machine/Engine.lean ====
section
/-!
DEFINITION. The Sextant control engine (R96 to R115): triggers, the schedule, one run of a law instance, its output, the
overrun latch and the coefficient banks. Instants are counts of the 600 MHz clock.
-/
namespace Sys2Proof.Machine

/-! ### Arithmetic of a run -/

/-- The fixed constants 2/3, 1/3, 1/√3 and √3/2 of R103 in Q1.31, rounded to nearest (log 13). -/
def twoThirds : Int := 1431655765
/-- 1/3 (DEDUCED, log 13). -/
def oneThird : Int := 715827883
/-- 1/√3 (DEDUCED, log 13). -/
def invSqrt3 : Int := 1239850262
/-- √3/2 (DEDUCED, log 13). -/
def halfSqrt3 : Int := 1859775393

/-- Clarke transform (R103). -/
def clarke (a b c : Int) : Sat (Int × Int) :=
  satBind (lawMac 0 [(a, twoThirds, 31), (b, -oneThird, 31), (c, -oneThird, 31)]) fun x =>
  satBind (lawNarrow x 0) fun al =>
  satBind (lawMac 0 [(b, invSqrt3, 31), (c, -invSqrt3, 31)]) fun y =>
  satBind (lawNarrow y 0) fun be => satPure (al, be)

/-- A term of the sine series: `n`-th odd power from the one before, in fractions of 2^60. -/
def sineTerms (x2 : Int) : Nat → Nat → Int → Int
  | 0, _, _ => 0
  | k + 1, n, t => t + sineTerms x2 k (n + 2) (-(t * x2 / 2 ^ 60) / ((n + 1) * (n + 2)))

/-- Sine of an angle of the first quarter turn, `a` of 2^30, in fractions of 2^60: the series with 12 terms, whose
error is far below 2^-40. π/2 in fractions of 2^60 is 1811004864519280711. -/
def sineQuarter (a : Nat) : Int :=
  let x : Int := a * 1811004864519280711 / 2 ^ 30
  sineTerms (x * x / 2 ^ 60) 12 1 x

/-- Sine of an angle in fractions of 2^32 of a turn, in fractions of 2^60. -/
def sineRef (th : Nat) : Int :=
  let a := th % 2 ^ 30
  match th / 2 ^ 30 % 4 with
  | 0 => sineQuarter a
  | 1 => sineQuarter (2 ^ 30 - a)
  | 2 => -sineQuarter a
  | _ => -sineQuarter (2 ^ 30 - a)

/-- A table value `v` of Q1.31 held within 2^-24 of a reference in fractions of 2^60, which leaves 127 units of 2^-31
and the reference's own rounding (R103) (DEDUCED, log 75). -/
def tableValue (ref v : Int) : Int := clampInt (ref / 2 ^ 29 - 127) (min 2147483647 (ref / 2 ^ 29 + 127)) v

/-- The sine that the blocks use: free within the error that R103 allows (log 75). -/
def sinOf (th : Nat) : Int := tableValue (sineRef th) (Config.sinTable th)

/-- The cosine that the blocks use (DEDUCED, log 75). -/
def cosOf (th : Nat) : Int := tableValue (sineRef (th + 2 ^ 30)) (Config.cosTable th)

/-- Park transform at an angle (R103). -/
def park (al be : Int) (th : Nat) : Sat (Int × Int) :=
  satBind (lawMac 0 [(al, cosOf th, 31), (be, sinOf th, 31)]) fun x =>
  satBind (lawNarrow x 0) fun d =>
  satBind (lawMac 0 [(al, -sinOf th, 31), (be, cosOf th, 31)]) fun y =>
  satBind (lawNarrow y 0) fun q => satPure (d, q)

/-- Inverse transform at an angle: the three phase outputs (R103). -/
def inverseDq (d q : Int) (th : Nat) : Sat (List Int) :=
  satBind (lawMac 0 [(d, cosOf th, 31), (q, -sinOf th, 31)]) fun x =>
  satBind (lawNarrow x 0) fun al =>
  satBind (lawMac 0 [(d, sinOf th, 31), (q, cosOf th, 31)]) fun y =>
  satBind (lawNarrow y 0) fun be =>
  satBind (lawMac 0 [(al, -1073741824, 31), (be, halfSqrt3, 31)]) fun m =>
  satBind (lawNarrow m 0) fun mb =>
  satBind (lawMac 0 [(al, -1073741824, 31), (be, -halfSqrt3, 31)]) fun n =>
  satBind (lawNarrow n 0) fun mc => satPure [al, mb, mc]

/-- The PLL's new integrator, OMEGA and angle (R103). -/
def pllRun (s : State) (i : Fin 96) (b : Bool) (l : Law) : Sat (Int × Int × Nat) :=
  let src := fun hi lo => srcVal s (lawN s i 0x024 hi lo)
  let sh := outSh s i b 2
  let hi := lim s i b 2 0
  let lo := lim s i b 2 1
  satBind (clarke (src 29 20) (src 19 10) (src 9 0)) fun ab =>
  satBind (park ab.1 ab.2 l.theta) fun dq =>
  satBind (lawMac l.iPll [term s i b dq.2 56]) fun a =>
  satBind (lawMac l.iPll [term s i b dq.2 57]) fun p =>
  satBind (lawClampInt (lo * 2 ^ sh) (hi * 2 ^ sh) p) fun ip =>
  satBind (lawNarrow a sh) fun w =>
  let om := min (max w lo) hi
  satBind (lawMul om (coef s i b 58) (coefSh s i b 58)) fun d =>
  satPure (ip.1, om, (((l.theta : Int) + d) % 2 ^ 32).toNat)

/-- Biquad section `j` of an axis, direct form I (R102). -/
def biquad (s : State) (i : Fin 96) (b : Bool) (ax : Nat) (A : Axis) (x : Int) (j : Nat) : Sat (Axis × Int) :=
  let k := 28 * ax + 5 * j
  let x1 := A.x1.getD j 0
  let y1 := A.y1.getD j 0
  satBind (lawMac 0 [term s i b x k, term s i b x1 (k + 1), term s i b (A.x2.getD j 0) (k + 2),
    term s i b y1 (k + 3), term s i b (A.y2.getD j 0) (k + 4)]) fun a =>
  satBind (lawNarrow a 0) fun y =>
  satPure ({ A with x1 := A.x1.set j x, x2 := A.x2.set j x1, y1 := A.y1.set j y, y2 := A.y2.set j y1 }, y)

/-- The biquad sections `js`, one after another. -/
def biquads (s : State) (i : Fin 96) (b : Bool) (ax : Nat) : List Nat → Axis → Int → Sat (Axis × Int)
  | [], A, x => satPure (A, x)
  | j :: js, A, x => satBind (biquad s i b ax A x j) fun r => biquads s i b ax js r.1 r.2

/-- The PID's derivative term (R102). -/
def derive (s : State) (i : Fin 96) (b : Bool) (ax : Nat) (A : Axis) (xc : Int) : Sat Int :=
  satBind (lawNarrow (xc - A.xcPrev) 0) fun dx =>
  satBind (lawMac 0 [term s i b A.d (28 * ax + 23), term s i b dx (28 * ax + 22)]) fun v => lawNarrow v 0

/-- The integrator's step with anti-windup (R102). -/
def integrate (s : State) (i : Fin 96) (b : Bool) (ax : Nat) (A : Axis) (xc : Int) : Sat (Int × Bool) :=
  let sh := outSh s i b ax
  satBind (lawMul xc (coef s i b (28 * ax + 21)) (coefSh s i b (28 * ax + 21))) fun p =>
  let inc := if (A.clampHi && decide (0 < p)) || (A.clampLo && decide (p < 0)) then 0 else p
  satBind (lawAdd A.int inc) fun v => lawClampInt (lim s i b ax 3 * 2 ^ sh) (lim s i b ax 2 * 2 ^ sh) v

/-- One axis of a run (R102): its new state and its limited output; crossed bounds set both clamp states (R100). -/
def runAxis (s : State) (i : Fin 96) (b : Bool) (ax : Nat) (A : Axis) (sp fb lo hi : Int) : Sat (Axis × Int) :=
  satBind (lawNarrow (sp - fb) 0) fun e =>
  satBind (biquads s i b ax (List.range (axBqN s i ax)) A e) fun r =>
  let A := r.1
  let xc := r.2
  let ffs := (List.range (axFfN s i ax)).map fun j => (ffVal s i ax j, 28 * ax + 24 + j)
  satBind (lawMac 0 [term s i b xc (28 * ax + 20)]) fun kp =>
  satBind (if axCtl s i ax = 2 then derive s i b ax A xc else satPure A.d) fun d =>
  satBind (if axCtl s i ax = 2 then lawAdd kp d else satPure kp) fun acc =>
  satBind (lawMac acc (ffs.map fun p => term s i b p.1 p.2)) fun acc =>
  satBind (if axCtl s i ax = 0 then satPure (A.int, A.intClamp) else integrate s i b ax A xc) fun n =>
  satBind (if axCtl s i ax = 0 then satPure acc else lawAdd acc n.1) fun acc =>
  satBind (lawNarrow acc (outSh s i b ax)) fun u =>
  satPure
    ({ A with
       d := d, int := n.1, intClamp := n.2, xcPrev := xc, uLast := acc
       clampHi := decide (hi < u ∨ hi < lo), clampLo := decide (u < lo ∨ hi < lo)
       ffLast := (List.range 4).map fun j => (ffs.map (·.1)).getD j 0 },
     clampInt lo hi u)

/-- R114: the integrator of an axis at a swap, from bank `o` to bank `b`; without `bumpless` only clamped. -/
def swapInt (s : State) (i : Fin 96) (bumpless o b : Bool) (ax : Nat) (A : Axis) : Sat Axis :=
  let n := outSh s i b ax
  let k := outSh s i o ax
  let scale := fun (v : Int) => if k ≤ n then satTo 64 (v * 2 ^ (n - k)) else rsh v (k - n)
  let lo := lim s i b ax 3 * 2 ^ n
  let hi := lim s i b ax 2 * 2 ^ n
  let neg := fun (x : Int) c => satBind (lawMul x (coef s i b c) (coefSh s i b c)) fun p => satPure (-p)
  let sub := fun (a : Int) (m : Sat Int) => satBind m fun p => lawAdd a p
  if axCtl s i ax = 0 then satPure A
  else if bumpless then
    satBind (sub (scale A.uLast) (neg A.xcPrev (28 * ax + 20))) fun v =>
    satBind (lawAdd v (-scale A.d)) fun v =>
    satBind ((List.range (axFfN s i ax)).foldl
      (fun m j => satBind m fun w => sub w (neg (A.ffLast.getD j 0) (28 * ax + 24 + j))) (satPure v)) fun v =>
    satBind (lawClampInt lo hi v) fun r => satPure { A with int := r.1 }
  else satBind (lawClampInt lo hi A.int) fun r => satPure { A with int := r.1 }

/-- The bounds the owning stage imposes on the last axis (R100, R122, R124); in DISCHARGE energy goes to the DC link, at
5 % of I_CELL_MAX in each cell (R127). -/
def stageBounds (s : State) (i : Fin 96) : Option (Int × Int) :=
  if outKind s i ≠ 1 then none
  else match cellStage s (Fin.ofNat 48 (outIdx s i)) with
    | none => none
    | some g =>
      let x := s.sx.stage[g]
      let lo : Int :=
        if x.st = .discharge then Config.stageLo g ((liveCells s g).length * iCellMax s g * 50)
        else if stgKind s g = 5 ∧ x.noSinkRestr = true then 0
        else if x.st = .run ∧ x.exportLim ≠ 0 then Config.stageLo g x.exportLim
        else -2147483648
      let hi : Int :=
        if x.st = .discharge then (if stgKind s g = 5 then 0 else 2147483647)
        else if (stageOutlets s g).isEmpty = true ∧ x.st ≠ .rampDown then 2147483647
        else Config.stageHi g x.limNow
      some (lo, hi)

/-- The limits of an axis: its bank's, and on the last axis the stage's (R100). -/
def axisLimits (s : State) (i : Fin 96) (b : Bool) (ax : Nat) (last : Bool) : Int × Int :=
  match (if last then stageBounds s i else none) with
  | some (lo, hi) => (max (lim s i b ax 1) lo, min (lim s i b ax 0) hi)
  | none => (lim s i b ax 1, lim s i b ax 0)

/-- Steps 1 to 5 of R97 for an instance whose bank `b` is in use: its new state and its result. -/
def lawRun (s : State) (i : Fin 96) (b : Bool) (l : Law) (trig : Nat) : Sat Law :=
  let src := fun hi lo => srcVal s (lawN s i 0x020 hi lo)
  let two := twoAxes s i
  satBind (if pllEn s i then pllRun s i b l else satPure (l.iPll, l.omega, l.theta)) fun p =>
  let th := if pllEn s i then p.2.2 else s.sx.law[(Fin.ofNat 96 (lawN s i 0x028 6 0) : Fin 96)].theta
  satBind (if dqEn s i then satBind (clarke (src 29 20) (src 19 10) (src 9 0)) fun ab => park ab.1 ab.2 th
    else satPure (srcVal s (axFb s i 0), srcVal s (axFb s i 1))) fun fb =>
  let l0 := axisLimits s i b 0 (!two)
  satBind (runAxis s i b 0 l.ax0 (srcVal s (axSp s i 0)) fb.1 l0.1 l0.2) fun r0 =>
  let l1 := axisLimits s i b 1 true
  let sp1 := if dqMode s i then srcVal s (axSp s i 1) else r0.2
  satBind (if two then runAxis s i b 1 l.ax1 sp1 fb.2 l1.1 l1.2 else satPure (l.ax1, l.y1)) fun r1 =>
  satBind (if invDq s i then inverseDq r0.2 r1.2 th else satPure []) fun ms =>
  satPure { l with
    ax0 := r0.1, ax1 := r1.1, iPll := p.1
    out := some ⟨if two then r1.2 else r0.2, ms, trig, false, r0.2, r1.2, p.2.1, p.2.2⟩ }

/-- The run of a ready instance: the bank swap due (R113, R114), the run, and the flags with their counters (R104). -/
def lawStart (s : State) (i : Fin 96) (trig : Nat) : Law :=
  let l := s.sx.law[i]
  let want := wantBank s i
  let r := (if want ≠ l.bank1 then
      satBind (swapInt s i (cfgB s 0x14 i 0x030 26) l.bank1 want 0 l.ax0) fun a0 =>
      satBind (if twoAxes s i then swapInt s i (cfgB s 0x14 i 0x030 26) l.bank1 want 1 l.ax1 else satPure l.ax1) fun a1 =>
      lawRun s i want { l with ax0 := a0, ax1 := a1, bank1 := want, cntSwap := satInc 16 l.cntSwap } trig
    else lawRun s i want l trig) {}
  let f := r.2
  let g := l.flags
  { r.1 with
    want1 := want, ready := none
    out := r.1.out.map fun o => { o with satInt := f.int }
    flags := { prod := g.prod || f.prod, acc := g.acc || f.acc, out := g.out || f.out, int := g.int || f.int }
    cntProd := countIf f.prod l.cntProd, cntAcc := countIf f.acc l.cntAcc
    cntOut := countIf f.out l.cntOut, cntInt := countIf f.int l.cntInt }

/-! ### Triggers and the schedule -/

/-- The MAC count M of an instance (Table 04-1). -/
def macCount (s : State) (i : Fin 96) : Nat :=
  let ax := fun k => 5 * axBqN s i k + [1, 2, 4].getD (axCtl s i k) 4 + axFfN s i k
  ax 0 + (if twoAxes s i then ax 1 else 0) + (if pllEn s i then 12 else 0)
    + (if pllEn s i || dqEn s i || invDq s i then 4 else 0) + (if dqEn s i then 9 else 0)
    + (if invDq s i then 8 else 0)

/-- The PI and PID blocks N_PI of an instance (Table 04-1). -/
def piCount (s : State) (i : Fin 96) : Nat :=
  let ax := fun k => if axCtl s i k = 0 then 0 else 1
  ax 0 + (if twoAxes s i then ax 1 else 0) + (if pllEn s i then 1 else 0)

/-- The latency L (R107). -/
def lawLatency (s : State) (i : Fin 96) : Nat := 16 + (macCount s i + 7) / 8 + 6 * piCount s i

/-- The lane occupancy C (R107). -/
def lawOccupancy (s : State) (i : Fin 96) : Nat := max 8 ((macCount s i + 7) / 8 + 6 * piCount s i)

/-- The stage whose carrier triggers an instance (R105): of its cell, or STAGE. -/
def trigStage (s : State) (i : Fin 96) : Fin 8 :=
  if outKind s i = 1 then (cellStage s (Fin.ofNat 48 (outIdx s i))).getD 0 else Fin.ofNat 8 (lawN s i 0x000 29 27)

/-- The interval of a PWM point of an instance, in steps, before TDIV (R105): half a period where both points trigger. -/
def pointInterval (s : State) (i : Fin 96) : Nat :=
  let p := pSteps s (trigStage s i)
  if lawN s i 0x004 7 6 = 3 then p / 2 else p

/-- The nominal trigger interval T of an instance, in steps (R105, R108). -/
def trigInterval (s : State) (i : Fin 96) : Nat :=
  match lawN s i 0x004 31 30 with
  | 1 => pointInterval s i * (lawN s i 0x004 3 0 + 1)
  | 2 =>
    let n := lawN s i 0x004 5 0
    let div := cfgN s 0x10 0 (0x020 + 4 * cfgN s 0x15 n 0x000 26 24) 7 0
    16 * (16 * 2 ^ cfgN s 0x15 n 0x000 18 16 * div)
  | 3 => 16 * lawN s i 0x004 23 0
  | _ => 0

/-- The stage runs for the purposes of R111: neither OFF nor latched nor with parked channels; an AFE3 stage that
synchronises runs its instances with a PLL only (R125) (DEDUCED, log 41). -/
def stageRunsLaw (s : State) (g : Fin 8) (i : Fin 96) : Bool :=
  match s.sx.stage[g].st with
  | .off => false
  | .latched => false
  | .precharge => decide (stgKind s g ≠ 4) || pllEn s i
  | _ => true

/-- The instance is held (R111). -/
def lawHeld (s : State) (i : Fin 96) : Bool :=
  match lawStage s i with
  | some g => !stageRunsLaw s g i
  | none => false

/-- A trigger is dropped (R112). -/
def dropTrigger (l : Law) : Law :=
  { l with overrun := true, ovrMap := true, cntOvr := satInc 16 l.cntOvr, ovrConsec := min 3 (l.ovrConsec + 1) }

/-- LAW_TRIGGER (R105, R111, R112). -/
def execLawTrigger (i : Fin 96) (t : Nat) (s : State) : Out :=
  .next (
    let l := s.sx.law[i]
    let kind := lawN s i 0x004 31 30
    if !lawEn s i || kind == 0 || lawHeld s i || l.stopped
        || (kind == 2 && sdInvalid s (Fin.ofNat 64 (lawN s i 0x004 5 0))) then s
    else if kind = 1 ∧ l.points + 1 < lawN s i 0x004 3 0 + 1 then updLaw s i fun l => { l with points := l.points + 1 }
    else updLaw s i fun l =>
      if l.ready.isSome || l.out.isSome then { dropTrigger l with points := 0 }
      else { l with ready := some t, ovrConsec := 0, points := 0 })

/-- The ready instance with the earliest deadline, ties to the lower number (R106); none that is held (R111). -/
def nextReady (s : State) : Option (Fin 96 × Nat) :=
  (List.finRange 96).foldl (fun best i => match if lawHeld s i then none else s.sx.law[i].ready with
    | none => best
    | some t => match best with
      | none => some (i, t)
      | some (j, u) => if 16 * t + trigInterval s i < 16 * u + trigInterval s j then some (i, t) else best) none

/-- The lanes' occupancy counted in whole seconds (Table 04-7, log 14). -/
def countLanes (x : Sextant) (t cyc : Nat) : Sextant :=
  if t / 600000000 = x.laneFree / 600000000 then { x with laneBusy := x.laneBusy + cyc, laneFree := t + 8 + cyc }
  else { x with loadMeas := min 65535 (x.laneBusy * 10000 / 600000000), laneBusy := cyc, laneFree := t + 8 + cyc }

/-- V_TGT as the stage's own setpoint, rising no faster than PRE_RATE (R120): recomputed at a run of any instance that the
stage owns, since the spec does not say which is the voltage law (DESIGN CHOICE, log 78). -/
def trackVehicle (s : State) (g : Fin 8) : State :=
  let x := s.sx.stage[g]
  if isOutputStage s g && decide (x.st = .precharge ∨ x.st = .closeWait) then
    let up : Int := (s.mono - s.sx.aux[g].vAt) * cfgN s 0x11 g 0x030 23 16 * unit31 / 2000
    let v := min (vTarget s g / 2000) (x.vSet + up)
    updAux (updStage s g fun y => { y with vSet := v }) g fun a => { a with vAt := s.mono }
  else s

/-- The setpoint on its way to `vGoal` moves at PRE_RATE; in the isolation test ISO_DWELL starts where it arrives (R125,
R160). -/
def approachGoal (s : State) (g : Fin 8) : State :=
  let x := s.sx.stage[g]
  match x.vGoal with
  | none => s
  | some v =>
    let d : Int := (s.mono - s.sx.aux[g].vAt) * cfgN s 0x11 g 0x030 23 16 * unit31 / 2000
    let w := clampInt (x.vSet - d) (x.vSet + d) v
    let t := updAux (updStage s g fun y => { y with vSet := w, vGoal := if w = v then none else some v }) g fun a =>
      { a with vAt := s.mono }
    if w = v then
      (stageOutlets t g).foldl (fun u o => updOutlet u o fun y =>
        { y with tmr := { y.tmr with dwell := decide (y.st = .isolationTest ∧ y.isoStep = 2) } }) t
    else t

/-- A control sample of a stage: its own setpoint and the limit of R26 follow (R26, R120). -/
def sampleStage (s : State) (g : Fin 8) : State :=
  if s.sx.stage[g].st.running then followLimit (approachGoal (trackVehicle s g) g) g else s

/-- LAW_RUN_START (R106, R107, R113): the lanes are 8 cycles from free at `t` (DESIGN CHOICE, log 78). -/
def execLawRunStart (t : Nat) (s : State) : Out :=
  .next (match nextReady s with
    | none => s
    | some (i, trig) =>
      if t + 8 < s.sx.laneFree then s
      else
        let s := match lawStage s i with
          | some g => sampleStage (seeCount s t) g
          | none => seeCount s t
        let l := lawStart s i trig
        let u := updLaw s i fun _ => l
        { u with sx := countLanes u.sx t (lawOccupancy s i) })

/-! ### Output -/

/-- The delay of a run counted in the histogram (R110). -/
def countDelay (s : State) (i : Fin 96) (d : Nat) (l : Law) : Law :=
  let bin := min 15 (d / max 1 (cfgN s 0x14 i 0x050 7 0))
  let h := (List.range 16).map fun k => let n := l.hist.getD k 0; if k = bin then satInc 16 n else n
  { l with hist := h, histMax := max l.histMax (min 65535 d) }

/-- The window over which OMEGA has been steady (R125): it starts again when OMEGA leaves 1 % of where it was or an
integrator is clamped. -/
def watchOmega (now : Nat) (r : LawOut) (l : Law) : Law :=
  if r.satInt = true ∨ l.omRef.natAbs ≤ 100 * (r.omega - l.omRef).natAbs then { l with omRef := r.omega, omAt := now } else l

/-- LAW_OUTPUT_WRITE (R109, R110): at count `t` the output reaches its channels. -/
def execLawOutputWrite (i : Fin 96) (t : Nat) (s : State) : Out :=
  .next (match s.sx.law[i].out with
    | none => s
    | some r =>
      let u := updLaw (seeCount s t) i fun l =>
        { watchOmega s.mono r l with out := none, y0 := r.y0, y1 := r.y1, omega := r.omega, theta := r.theta }
      if lawHeld s i then trackBanks u
      else
        let u := if outKind s i = 0 then u else updLaw u i (countDelay s i (t - r.trig))
        trackBanks (match outKind s i with
        | 1 => writeCell u (Fin.ofNat 48 (outIdx s i)) r.y r.ms (16000 * t)
        | 2 =>
          let cool := upd u.sx.cool (Fin.ofNat 6 (outIdx s i)) fun _ => r.y
          { u with sx := { u.sx with cool := cool } }
        | _ => u))

/-- LIM_HI of the last axis of an instance's bank in use (R112). -/
def lastLimHi (s : State) (i : Fin 96) : Int := lim s i s.sx.law[i].bank1 (if twoAxes s i then 1 else 0) 0

/-- A cooling law's drive goes to LIM_HI (R112, R446). -/
def coolToLimit (s : State) (i : Fin 96) : State :=
  if outKind s i = 2 then
    let v := lastLimHi s i
    let cool := upd s.sx.cool (Fin.ofNat 6 (outIdx s i)) fun _ => v
    { s with sx := { s.sx with cool := cool } }
  else s

/-- OVERRUN_LATCH (R112). -/
def execOverrunLatch (i : Fin 96) (s : State) : Out :=
  .next (
    if s.sx.law[i].ovrConsec < 3 then s
    else match lawStage s i with
      | some g => latchAndTell s g .overrun
      | none =>
        if s.sx.law[i].stopped then s
        else
          let t := updLaw s i fun l => { l with stopped := true, ready := none, out := none }
          logDetect (coolToLimit t i) 0x0205 .sextant i)

/-! ### The schedulability test (R108) -/

/-- The shortest trigger interval T_j, in engine cycles. -/
def loadT (s : State) (i : Fin 96) : Rat :=
  let t : Rat := trigInterval s i / 16
  if lawN s i 0x004 31 30 = 1 ∧ cfgB s 0x11 (trigStage s i) 0x008 31 = true then t * 49 / 50 else t

/-- The enabled instances as (T, C, D) of R108; `none` when some D is below its C. An instance with no trigger makes no
demand (DESIGN CHOICE, log 76). -/
def loadItems (s : State) : Option (List (Rat × Rat × Rat)) :=
  let l := ((List.finRange 96).filter fun i => lawEn s i && decide (lawN s i 0x004 31 30 ≠ 0)).map fun i =>
    (loadT s i, (lawOccupancy s i : Rat), loadT s i - ((lawLatency s i : Rat) - lawOccupancy s i))
  if l.any (fun p => decide (p.2.2 < p.2.1)) then none else some l

/-- Σ C_j / T_j. -/
def loadU (l : List (Rat × Rat × Rat)) : Rat := (l.map fun p => p.2.1 / p.1).sum

/-- The demand test of R108 at one instant. -/
def loadAt (l : List (Rat × Rat × Rat)) (b t : Rat) : Bool :=
  decide (b + (l.map fun p => if p.2.2 ≤ t then ((((t - p.2.2) / p.1).floor + 1 : Int) : Rat) * p.2.1 else 0).sum ≤ t)

/-- R108: LOAD_CHART of a chart that passes, in whole 0.01 % rounded down (DESIGN CHOICE, log 76); `none` of one that
fails. -/
def loadTest (s : State) : Option Nat :=
  match loadItems s with
  | none => none
  | some l =>
    let u := loadU l
    if (9 / 10 : Rat) < u then none
    else
      let b := (l.map fun p => p.2.1).foldl max 1 - 1
      let q := (b + (l.map fun p => (p.1 - p.2.2) * p.2.1 / p.1).sum) / (1 - u)
      let tMax := max ((l.map fun p => p.2.2).foldl max 0) q
      let ok := l.all fun p => (List.range (((tMax - p.2.2) / p.1).floor.toNat + 1)).all fun (m : Nat) =>
        decide (tMax < p.2.2 + m * p.1) || loadAt l b (p.2.2 + m * p.1)
      if ok then some (u * 10000).floor.toNat else none

end Sys2Proof.Machine
end

