-- ==== Sys2Proof/Machine/Fabric.lean ====
section
/-!
DEFINITION. The PWM fabric and the sensing inputs (R21, R66 to R95, R131 to R135, R143): driver faults, readback,
carrier loads, the Compass rose, the reference lock, sigma-delta inputs, load-step firing, and telemetry.
-/
namespace Sys2Proof.Machine

/-! ### Gate permit, driver faults, readback -/

/-- GATE_PERMIT_FALL (R21): every stage not already off latches with cause PERMIT. -/
def execGatePermitFall (lineB : Bool) (s : State) : Out :=
  .next (
    let t := { s with lk := if lineB then { s.lk with gpB := false } else { s.lk with gpA := false } }
    withStages t fun u => (List.finRange 8).foldl (fun w g => latchStage w g .permit) u)

/-- A driver fault acted on (R79): recorded and logged with its channel, and the owning stage latches, whatever it was
doing. -/
def driverFault (s : State) (n : Fin 48) : State :=
  match channelStage s n with
  | none => s
  | some g =>
    let t := detectFab (updChannel s n fun x => { x with fltSeen := true }) 0x0401 n (toBe 1 g)
    latchAndTell (updStage t g fun x => { x with latchChan := some (x.latchChan.getD n) }) g .flt

/-- FLT_N_ASSERT (R78, R79): without a width the input stays asserted; a pulse of 5 ns or more always acts, one of 2 ns
or less never, one between freely. -/
def execFltNAssert (n : Fin 48) (widthPs : Option Nat) (s : State) : Out :=
  .next (
    let t := updChannel s n fun x => { x with fltIn := widthPs.isNone }
    match widthPs with
    | none => driverFault t n
    | some w =>
      if 5000 ≤ w then driverFault t n
      else if w ≤ 2000 then t
      else
        let r := drawBit t
        if r.1 then driverFault r.2 n else r.2)

/-- READBACK_MISMATCH (R77). -/
def execReadbackMismatch (n : Fin 48) (high : Bool) (s : State) : Out :=
  .next (
    let t := updChannel s n fun x => if high then { x with rbErrH := true } else { x with rbErrL := true }
    let t := detectFab t 0x0402 n []
    match channelStage s n with
    | some g => latchAndTell t g .readback
    | none => t)

/-! ### Carriers, rose and reference lock -/

/-- A channel at a carrier start or top of its cell at `t`: a pending compare is loaded (R74), a written one takes effect
with the new period (R75), truncation ends (R76), short pulses are counted (R73) (DEDUCED, log 42). -/
def carrierChannel (s : State) (g : Fin 8) (c : Fin 48) (t : Nat) (top : Bool) (n : Fin 48) : State :=
  let mode := loadMode s n
  let load := (mode == 1 && !top) || (mode == 2 && (!top || triangle s g))
  let u := updChannel s n fun x =>
    let v := if load then x.pendCmp.getD x.cmp else x.cmp
    { x with
      cmp := v, pendCmp := if load then none else x.pendCmp
      eff := if load || !top then v else x.eff
      edgeAt := if x.trunc && !top then t else x.edgeAt
      trunc := x.trunc && top }
  updChannel u n fun x => { x with minpCnt := min 65535 (x.minpCnt + minPulses u n g c top) }

/-- CARRIER_LOAD (R74, R82): a cell's carrier start, or its top or mid-period, which for a DAB cell makes the second half
of a rose move (R84). A DAB cell loads CELL_PHS at its carrier start only, since its carrier is a sawtooth. -/
def execCarrierLoad (c : Fin 48) (top : Bool) (s : State) : Out :=
  .next (match cellStage s c with
    | none => s
    | some g =>
      let load := decide (loadMode s (Fin.ofNat 48 (cfgN s 0x12 c 0x000 23 16)) ≠ 0) && !top
      let at_ := if top then s.sx.cell[c].startAt else carrierStart s g c
      let t := updCell s c fun x =>
        { x with
          startAt := at_
          roseEff := if top then ((x.roseEff : Int) + x.roseHalf).toNat % 65536 else x.roseEff
          roseHalf := if top then 0 else x.roseHalf
          phsX := if top then x.phs else x.phsX
          phsM := if top then x.phsM else x.phs
          cbcRun := if top then x.cbcRun else if x.cbcHit then min 255 (x.cbcRun + 1) else 0
          cbcHit := x.cbcHit && top }
      let t := match load, s.sx.cell[c].pendPhs with
        | true, some v => applyPhs t g c at_ v
        | _, _ => t
      (chansOf t g c).foldl (fun u n => carrierChannel u g c at_ top n) t)

/-- The rose target of the `j`-th of `n` cells (R83). -/
def roseTarget (j n : Nat) : Nat := (roundDiv ((j : Int) * 65536) (max 1 n)).toNat % 65536

/-- ROSE_TARGETS_SET (R83, R84). -/
def execRoseTargetsSet (g : Fin 8) (s : State) : Out :=
  .next (if s.sx.stage[g].needTargets then
    let live := liveCells s g
    let t := (live.zipIdx).foldl (fun t p => updCell t p.1 fun x => { x with roseTgt := roseTarget p.2 live.length }) s
    let t := updStage t g fun x => { x with needTargets := false }
    if live.any (fun c => decide (t.sx.cell[c].roseEff ≠ t.sx.cell[c].roseTgt)) then
      updAux t g fun a => { a with roseChanged := true } else t
    else s)

/-- One period's move of an offset towards its target: the shorter way round, at most a sixteenth (R84). -/
def roseStep (k eff tgt : Nat) : Nat :=
  let d := (tgt + 65536 - eff) % 65536
  if d < 32768 ∨ (d = 32768 ∧ Config.roseUp k = true) then (eff + min d 4096) % 65536
  else (eff + 65536 - min (65536 - d) 4096) % 65536

/-- One period's move of a cell (R84): a DAB cell moves by half now and by half at its mid-period. -/
def roseCell (kind : Nat) (k : Nat) (x : Cell) : Cell :=
  let e := ((x.roseEff : Int) + x.roseHalf).toNat % 65536
  let n := roseStep k e x.roseTgt
  let d : Int := toSigned 16 ((n + 65536 - e) % 65536)
  if kind = 5 then { x with roseEff := ((e : Int) + d / 2 + 65536).toNat % 65536, roseHalf := d - d / 2 }
  else { x with roseEff := n, roseHalf := 0 }

/-- A carrier start of a stage restarts the decimation of the inputs aligned to it (R91). -/
def alignInputs (s : State) (g : Fin 8) : State :=
  let sd : Vector SdInput 64 := Vector.ofFn fun n =>
    if cfgB s 0x15 n 0x000 3 && cfgN s 0x15 n 0x000 6 4 == g then { s.sx.sd[n] with phase := 0 } else s.sx.sd[n]
  { s with sx := { s.sx with sd := sd } }

/-- A carrier start of a stage, before offsets: the reference instant moves on by a period (R82, R85), SYNC_OUT pulses
where it follows this stage (R88), and aligned inputs restart (R91). -/
def stageCarrierStart (s : State) (g : Fin 8) : State :=
  let at_ := s.sx.aux[g].refAt + carrierPeriod s g
  let t := updAux s g fun a => { a with refAt := at_ }
  let t := if cfgN s 0x10 0 0x000 3 0 = g + 2 then
      { t with sx := { t.sx with syncOut := some ⟨at_, 16000 * cfgN s 0x10 0 0x000 15 8⟩ } }
    else t
  alignInputs t g

/-- ROSE_MOVE_STEP (R84): a period boundary of the stage. A cell to be retired at this boundary is (Table 05-4), and so is
one ramped out (R140); restrictions that were to be lifted are (R123). -/
def execRoseMoveStep (g : Fin 8) (s : State) : Out :=
  .next (
    let s := stageCarrierStart s g
    let s := updStage s g fun x => { x with noSinkRestr := x.noSinkRestr && !x.lift, lift := false }
    let due := (stageCells s g).filter fun c =>
      s.sx.cell[c].retireNext || (s.sx.cell[c].rampOut && decide (shedRamp s g ≤ s.sx.cell[c].ramp))
    let t := if due.isEmpty then s else withStages s fun t => due.foldl (fun u c => retireCell u g c 2) t
    let t := (stageCells t g).foldl
      (fun u c => updCell u c fun x => { roseCell (stgKind s g) c x with ramp := if x.ramps then x.ramp + 1 else x.ramp }) t
    let t := updAux t g fun a => { a with phEff := roseStep (48 + g) a.phEff a.phTgt }
    if (stageCells t g).any (fun c => t.sx.cell[c].ramps) then reshare t g else t)

/-- SYNC_EN of a stage. -/
def syncEn (s : State) (g : Fin 8) : Bool := cfgB s 0x11 g 0x008 31

/-- The difference of an instant from the nearest of a series of period `p` through `r`. -/
def phaseError (r p t : Nat) : Int :=
  let d : Int := ((t : Int) - r) % p
  if 2 * d ≤ p then d else d - p

/-- A stage at a reference edge at `t` (R85 to R87): a frequency more than 2 % from STG_PRD's runs free; else the period
moves, by at most 0.1 % for every period, towards the one that meets the next edge (DESIGN CHOICE, log 74), an edge
within 2 ns (19.2 steps) is counted, and in lock the reference instant is the edge. The first edge after a loss gives no
frequency. -/
def syncEdge (s : State) (g : Fin 8) (t : Nat) : State :=
  let mul := cfgN s 0x11 g 0x008 13 0
  let p := 1000 * pSteps s g
  let x := s.sx.aux[g]
  if syncEn s g && decide (0 < mul * p) then
    let err := phaseError x.refAt (carrierPeriod s g) t
    let off := match x.edgeAt with
      | some e => decide ((t - e : Nat) < 50 * ((t : Int) - e - mul * p).natAbs)
      | none => false
    let base : Int := match x.edgeAt with
      | some e => ((t : Int) - e) / mul - p
      | none => x.trim
    updAux s g fun a =>
      if off then { a with syncRange := true, syncLock := false, syncRun := 0, trim := 0, edgeAt := some t }
      else { a with
        edgeAt := some t
        trim := clampInt (a.trim - mul * p / 1000) (a.trim + mul * p / 1000) (base + err / mul)
        refAt := if a.syncLock then ((a.refAt : Int) + err).toNat else a.refAt
        syncRun := if err.natAbs ≤ 19200 then min 16 (a.syncRun + 1) else 0 }
  else s

/-- SYNC_IN_EDGE (R85, R86, R88): a rising edge at instant `t`, the input staying high for `high`, in thousandths of a
step; SYNC_OUT repeats it where SYNC_OUT_SRC is 1. -/
def execSyncInEdge (t high : Nat) (s : State) : Out :=
  .next (
    let out := if cfgN s 0x10 0 0x000 3 0 = 1 then some ⟨t, high⟩ else s.sx.syncOut
    (List.finRange 8).foldl (fun u g => syncEdge u g t)
      { s with sx := { s.sx with syncPeriod := t - s.sx.syncAt.getD t, syncAt := some t, syncOut := out } })

/-- The level of the SYNC_OUT ball at an instant (R88). -/
def syncOutHigh (s : State) (t : Nat) : Bool :=
  match s.sx.syncOut with
  | some p => s.sx.up && decide (cfgN s 0x10 0 0x000 3 0 ≠ 0 ∧ p.rise ≤ t ∧ t < p.rise + p.width)
  | none => false

/-- SYNC_LOCK_SET (R86). -/
def execSyncLockSet (g : Fin 8) (s : State) : Out :=
  .next (if syncEn s g && decide (16 ≤ s.sx.aux[g].syncRun) then updAux s g fun a => { a with syncLock := true } else s)

/-- SYNC_LOST (R87): the carrier holds its last locked period. -/
def execSyncLost (g : Fin 8) (s : State) : Out :=
  .next (if syncEn s g then
    updAux s g fun a => { a with syncLost := true, syncLock := false, syncRun := 0, edgeAt := none }
    else s)

/-- PPS_IN_EDGE (R89): the edge is stamped with the S-PWM counter, and marks the second nearest by the Chronometer, from
which fabric events are placed on the CT64 scale (DEDUCED, log 42). -/
def execPpsInEdge (count : Nat) (s : State) : Out :=
  let ns := (s.nowNs + 500000000) / 1000000000 * 1000000000
  .next (seeCount { s with sx := { s.sx with ppsStamp := count, ppsNs := some ns } } count)

/-! ### Sigma-delta inputs -/

/-- EN of an input. -/
def sdEn (s : State) (n : Fin 64) : Bool := cfgB s 0x15 n 0x000 31

/-- L of CTL_OSR = 2^L (R91). -/
def ctlLog (s : State) (n : Fin 64) : Nat := 4 + cfgN s 0x15 n 0x000 18 16

/-- FAST_OSR. -/
def fastOsr (s : State) (n : Fin 64) : Nat := cfgN s 0x15 n 0x000 13 8

/-- What an input that becomes INVALID means to a stage (R140, R141, Table 05-4). -/
def stageLostInput (s : State) (n : Fin 64) (g : Fin 8) : State :=
  let x := s.sx.stage[g]
  if !x.st.running then s
  else if voutSrc s g = n then latchStage s g .sense
  else
    let t := if isOutputStage s g && decide (vvehSrc s g = n) then
        (if x.st = .precharge ∨ x.st = .closeWait then failStart s g 1
         else logInfo s (Config.eventCode 141) .sextant g)
      else s
    let t := if istgSrc t g = n then
        (let u := updStage t g fun y => { y with senseAlt := true }
         if hasEstimated u g then latchStage u g .sense else u)
      else t
    (stageCells t g).foldl (fun u c => if cellSrc u c = n then cellLostSense u g c else u) t

/-- An input becomes INVALID (R93): its outputs hold, and the stages that use it act. -/
def inputInvalid (s : State) (n : Fin 64) : State :=
  if sdInvalid s n then s
  else
    let t := updSd s n fun x => { x with invalid := true }
    withStages (logDetect t 0x0403 .sextant n) fun u => (List.finRange 8).foldl (fun w g => stageLostInput w n g) u

/-- The fast output of an input beyond its limits: FAST_TRIP, and the cells whose current it senses are limited
(R92, R135). -/
def fastTrip (s : State) (n : Fin 64) (t : Nat) : State :=
  (List.finRange 48).foldl (fun u c => match cellStage u c with
    | some g =>
      if u.sx.stage[g].st.running && decide (cellSrc u c = n ∧ u.sx.cell[c].st ≠ .estimated) then
        truncateCell u g c (16000 * t)
      else u
    | none => u) (updSd s n fun x => { x with fastTrip := true })

/-- The fast filter evaluated (R92). -/
def fastFilter (s : State) (n : Fin 64) (t : Nat) : State :=
  let v := satTo 16 (sinc2 (fastOsr s n) s.sx.sd[n].bits)
  let u := updSd s n fun x => { x with fast := v }
  if cfgI s 0x15 n 0x004 31 16 < v ∨ v < cfgI s 0x15 n 0x004 15 0 then fastTrip u n t else u

/-- A control output, and the control sample it is to the stages whose output voltage it senses (R26, R91, R113). -/
def controlOutput (s : State) (n : Fin 64) : State :=
  let l := ctlLog s n
  let u := updSd s n fun x => { x with ctl := satTo 32 (sinc3 (2 ^ l) x.bits * 2 ^ (31 - 3 * l)) }
  trackBanks ((List.finRange 8).foldl (fun v g => if voutSrc v g = n then sampleStage v g else v) u)

/-- One bit of an input's stream, at count `t` (R91 to R93): eight identical bits make the input INVALID; the fast filter
is evaluated, and after CTL_OSR bits a control output is formed, while the input is valid. -/
def sdBit (n : Fin 64) (t : Nat) (s : State) (b : Bool) : State :=
  let u := updSd s n fun x =>
    { x with bits := (b :: x.bits).take (3 * 2 ^ ctlLog s n), phase := x.phase + 1
             run := if x.bits.head? = some b then min 8 (x.run + 1) else 1 }
  let u := if u.sx.sd[n].run = 8 then inputInvalid (updSd u n fun x => { x with stuck := true }) n else u
  let u := if sdInvalid u n then u else fastFilter u n t
  if u.sx.sd[n].phase < 2 ^ ctlLog s n then u
  else
    let u := updSd u n fun x => { x with phase := 0 }
    if sdInvalid u n then u else controlOutput u n

/-- The bits of an input's stream up to count `t`, oldest first. -/
def sdStream (s : State) (n : Fin 64) (bits : List Bool) (t : Nat) : State :=
  if sdEn s n then bits.foldl (sdBit n t) (seeCount s t) else s

/-- SD_CONTROL_OUTPUT (R91, R93): the bits since the last command, whose last completes a control output. -/
def execSdControlOutput (n : Fin 64) (bits : List Bool) (t : Nat) (s : State) : Out := .next (sdStream s n bits t)

/-- FAST_TRIP (R92, R135): the bits since the last command, on which the fast filter leaves its limits. -/
def execFastTrip (n : Fin 64) (bits : List Bool) (t : Nat) (s : State) : Out := .next (sdStream s n bits t)

/-- SD_STUCK (R93). -/
def execSdStuck (n : Fin 64) (s : State) : Out :=
  .next (if sdEn s n then inputInvalid (updSd s n fun x => { x with stuck := true }) n else s)

/-- A cell whose input is valid again returns to IN_SERVICE (R140); the stage current's own input ends SENSE_ALT
(DEDUCED, log 41). -/
def stageRegainedInput (s : State) (n : Fin 64) (g : Fin 8) : State :=
  let t := if istgSrc s g = n then updStage s g fun y => { y with senseAlt := false } else s
  (stageCells t g).foldl (fun u c =>
    if cellSrc u c = n ∧ u.sx.cell[c].st = .estimated ∧ u.sx.cell[c].rampOut = false
        ∧ u.sx.stage[g].st.running = true then
      reshare (updCell u c fun x => { x with st := .inService }) g
    else u) t

/-- SD_INVALID_CLEAR (R93, R140). -/
def execSdInvalidClear (n : Fin 64) (s : State) : Out :=
  .next (if sdInvalid s n && !s.flt.sdLost.getLsbD (cfgN s 0x15 n 0x000 26 24) then
    let t := updSd s n fun x => { x with invalid := false }
    (List.finRange 8).foldl (fun u g => stageRegainedInput u n g) (logClear t 0x0403 .sextant n)
    else s)

/-! ### Load-step firing -/

/-- A cell's channels when a forced reference comes or goes from `s` to `u` (R76): an output that this turns on waits its
dead time. -/
def forcedEdges (s u : State) (g : Fin 8) (t : Nat) (c : Fin 48) : State :=
  (chansOf u g c).foldl (fun v n =>
    let on := decide ((sides s g n c t).1 = (sides u g n c t).1)
    updChannel v n (markEdge on t)) u

/-- A load-step event at instant `at_` (R131, R134): the cells in service fire, a shed is abandoned. `slope` in 10 mV/µs
(DEDUCED, log 15). -/
def fire (s : State) (g : Fin 8) (slope at_ : Nat) : State :=
  let shed := (stageCells s g).filter fun c => s.sx.cell[c].st = .shedding
  let i := stageCur s g
  let t := shed.foldl (fun u c => logCell (updCell u c fun x => { x with st := .inService, ramp := 0 }) (Config.eventCode 134)
    0 g c 0) s
  let t := if shed.isEmpty then t
    else updAux (updStage t g fun x => { x with shedHold := true }) g fun a =>
      { a with abandonCnt := satInc 16 a.abandonCnt }
  let t := updStage t g fun x => { x with firing := true, armed := false, fireI := i, fireSlope := slope }
  let t := if stgKind t g = 5 then
      (stageCells t g).foldl (fun u c => match u.sx.cell[c].st with
        | .inService => applyPhs u g c at_ (phsMax s g)
        | .adding => applyPhs u g c at_ (phsMax s g)
        | _ => u) t
    else (stageCells t g).foldl (fun u c => forcedEdges s u g at_ c) t
  if shed.isEmpty then t else reshare t g

/-- The input is below its comparator's threshold, with 8 mV hysteresis; in µV (R94). -/
def uscBelow (s : State) (k : Fin 8) (microvolt : Nat) : Bool :=
  let thr := cfgN s 0x10 0 (0x040 + 4 * k.val) 25 16 * 1172
  if s.sx.uscLevel.testBit k then decide (microvolt < thr + 8000) else decide (microvolt < thr)

/-- USC_EVENT (R94, R131): the comparator sees its input at a voltage in µV, falling at `slope` in 10 mV/µs, at count
`t`. An event is being below the threshold and falling faster than SLOPE; a stage that does not fire only counts it, and
an AFE3 stage is not served (DEDUCED, log 15). -/
def execUscEvent (k : Fin 8) (microvolt slope t : Nat) (s : State) : Out :=
  .next (
    let off := 0x040 + 4 * k.val
    if cfgB s 0x10 0 off 31 then
      let g : Fin 8 := Fin.ofNat 8 (cfgN s 0x10 0 off 30 28)
      let below := uscBelow s k microvolt
      let event := below && decide (10 * cfgN s 0x10 0 off 15 8 < slope)
      let rest := s.sx.uscLevel - Nat.land s.sx.uscLevel (2 ^ k.val)
      let u := seeCount { s with sx := { s.sx with
        uscFired := if event then s.sx.uscFired ||| 2 ^ k.val else s.sx.uscFired
        uscLevel := if below then rest + 2 ^ k.val else rest } } t
      if !event || stgKind s g == 4 then u
      else if cfgB s 0x11 g 0x040 31 && decide (s.sx.stage[g].st = .noSink ∨ s.sx.stage[g].st = .run) && s.sx.stage[g].armed
      then fire u g slope (16000 * t)
      else updAux u g fun a => { a with fireCnt := satInc 16 a.fireCnt }
    else s)

/-- The integrator that makes the pre-limit output of axis 0 equal to `target` (R133, by R114's method)
(DEDUCED, log 43). -/
def preload (s : State) (i : Fin 96) (target : Int) : State :=
  let l := s.sx.law[i]
  let sh := outSh s i l.bank1 0
  let r := swapInt s i true l.bank1 l.bank1 0 { l.ax0 with uLast := satTo 64 (target * 2 ^ sh) } {}
  updLaw s i fun l =>
    { l with ax0 := { l.ax0 with int := r.1.int }, flags := { l.flags with int := l.flags.int || r.2.int } }

/-- The target of R133 in A × 2^31: I_pre + ΔI, capped at N × I_CELL_MAX and the limits of R26 (DEDUCED, log 43). -/
def fireTarget (s : State) (g : Fin 8) : Int :=
  let x := s.sx.stage[g]
  let gain := cfgN s 0x11 g 0x044 7 0
  let dI := (cfgN s 0x11 g 0x040 11 0 * x.fireSlope * 10 : Int) * unit31 / gain
  let cap := min (x.fireI + dI) ((liveCells s g).length * iCellMax s g * unit31)
  if (stageOutlets s g).isEmpty then min cap (capacity s g * unit31) else min cap (x.limNow * unit31 / 1000)

/-- FIRE_END (R133): the forced reference is released at count `at_` (DEDUCED, log 15). -/
def execFireEnd (g : Fin 8) (at_ : Nat) (s : State) : Out :=
  .next (if s.sx.stage[g].firing then
    let t := updStage (seeCount s at_) g fun x => { x with firing := false }
    let t := (stageCells s g).foldl (fun u c => forcedEdges s u g (16000 * at_) c) t
    let t := updAux t g fun a => { a with fireCnt := satInc 16 a.fireCnt }
    if cfgN s 0x11 g 0x044 7 0 = 0 ∨ stageRating s g = 0 then t
    else preload t (Fin.ofNat 96 (cfgN s 0x11 g 0x044 22 16)) (fireTarget t g / (stageRating s g : Int))
    else s)

/-! ### Telemetry -/

/-- The ticks of a TEL_WIN window. -/
def telWindow (s : State) (g : Fin 8) : Nat := 100 * 10 ^ cfgN s 0x11 g 0x05C 1 0

/-- One more tick value in a quantity (R143, R144). -/
def TelQ.push (win : Nat) (v : Int) (q : TelQ) : TelQ :=
  { hist := (v :: q.hist).take win
    lo := some (match q.lo with | some l => min l v | none => v)
    hi := some (match q.hi with | some h => max h v | none => v) }

/-- The four quantities of one tick pushed. -/
def TelRun.push (win : Nat) (v i p t : Int) (r : TelRun) : TelRun :=
  { v := r.v.push win v, i := r.i.push win i, p := r.p.push win p, t := r.t.push win t }

/-- The temperature of a cell (T_SRC, °C in Q16.16). -/
def cellTemp (s : State) (c : Fin 48) : Int := srcVal s (cfgN s 0x12 c 0x010 25 16)

/-- The tick of a stage and its cells (R143): V in V × 2^31, I in A × 2^31, P = V × I in W × 2^31. -/
def telStage (s : State) (g : Fin 8) : State :=
  let win := telWindow s g
  let v := vOut s g
  let t := (stageCells s g).foldl (fun u c => 
      let i := cellCur s g c
      updCell u c fun x => { x with tel := x.tel.push win v i (v * i / unit31) (cellTemp s c) }) s
  let i := stageCur s g
  let temp := ((stageCells s g).map (cellTemp s)).max?.getD 0
  updAux t g fun a => { a with tel := a.tel.push win v i (v * i / unit31) temp }

/-- TELEMETRY_TICK (R143); while S-TEL's clock is lost telemetry is frozen (Table 18-2). -/
def execTelemetryTick (s : State) : Out :=
  .next (if s.flt.island[11].lost then s else (List.finRange 8).foldl telStage s)

end Sys2Proof.Machine
end

