-- ==== Sys2Proof/Machine/ChartOps.lean ====
section
/-!
DEFINITION. The chart: header, sections and entries (R46 to R50, R459), every check of R52 with its reject reason
(Table 02-10), and the consistency rules that the chapters lay on a chart (R5, R68 to R108, R128, R138, R147, R157,
R172, R275, R277, R303, R343, R365, R450, R473).
-/
namespace Sys2Proof.Machine

/-- A little-endian field of a chart (R46). -/
def chartN (c : Bytes) (off n : Nat) : Nat := leNat (slice c off n)

/-- CHART_SERIAL. -/
def chartSerial (c : Bytes) : Nat := chartN c 12 4

/-- DIGEST as the header holds it. -/
def chartDigest (c : Bytes) : Bytes := slice c 32 32

/-- DIGEST as SM3 gives it (Table 02-5). -/
def chartSm3 (c : Bytes) : Bytes := sm3 (c.take 32 ++ (c.take (chartN c 8 4)).drop 128)

/-- A chart section (R48). -/
structure Section where
  tag : Nat
  critical : Bool
  value : Bytes
  deriving DecidableEq, Repr

/-- Rows of Table 02-6: tag, blocks, and when required: 0 always, 1 on a worker, 2 never. -/
def sectionTable : List (Nat × List Nat × Nat) := [
  (0x0001, [0x01, 0xA0], 0), (0x0010, [0x10, 0x11, 0x12, 0x13, 0x14, 0x15], 1), (0x0020, [0x20, 0x22], 1),
  (0x0021, [0x21], 1), (0x0040, [0x40], 0), (0x0050, [0x50], 0), (0x0051, [0x51], 0), (0x0060, [0x60], 0),
  (0x0080, [0x80], 1), (0x0090, [0x90], 2)]

/-- The blocks of a section; none of an unknown tag. -/
def sectionBlocks (tag : Nat) : Option (List Nat) := (sectionTable.find? (·.1 == tag)).map (·.2.1)

/-- The sections of the bytes after the header, with a bound on their number; or the tag of the first that breaks the
form of R48 (its own tag, 0 where no tag can be read). -/
def parseSections : Nat → Bytes → List Section → Except Nat (List Section)
  | 0, b, acc => if b.isEmpty then .ok acc.reverse else .error 0
  | n + 1, b, acc =>
    if b.isEmpty then .ok acc.reverse
    else
      let tag := chartN b 0 2
      let flags := chartN b 2 2
      let len := chartN b 4 4
      let pad := (4 - len % 4) % 4
      if b.length < 8 then .error 0
      else if 1 < flags ∨ b.length < 8 + len + pad ∨ (slice b (8 + len) pad).any (· ≠ 0) = true
          ∨ acc.any (·.tag == tag) = true ∨ (sectionBlocks tag = none ∧ flags = 1)
          ∨ ((sectionBlocks tag).isSome = true ∧ len % 8 ≠ if tag = 0x0040 then 4 else 0) then .error tag
      else parseSections n (b.drop (8 + len + pad)) (⟨tag, flags == 1, slice b 8 len⟩ :: acc)

/-- The sections of a chart. -/
def chartSections (c : Bytes) : Except Nat (List Section) :=
  parseSections (chartN c 26 2) ((c.take (chartN c 8 4)).drop 128) []

/-- The entries of a section's value (R48). -/
def entriesOf : Nat → Bytes → List (Nat × Nat)
  | 0, _ => []
  | n + 1, b => (chartN b 0 4, chartN b 4 4) :: entriesOf n (b.drop 8)

/-- The entries of a section. -/
def Section.entries (x : Section) : List (Nat × Nat) := entriesOf (x.value.length / 8) x.value

/-- The entries of all known sections of a chart that parses, in order. -/
def chartEntries (c : Bytes) : List (Nat × Nat) :=
  match chartSections c with
  | .ok l => (l.filter fun x => (sectionBlocks x.tag).isSome).flatMap Section.entries
  | .error _ => []

/-- The LIVE fields a section may write (R49): those of block 0x90, and those of block 0x60 on a manager. -/
def sectionLive (mgr : Bool) (tag : Nat) : Bool := tag == 0x0090 || (tag == 0x0060 && mgr)

/-- An entry's address, access and value (R49, R50, R459): a whole word whose bits outside the fields that the chart may
write are 0. -/
def entryOk (v : Variant) (mgr : Bool) (tag : Nat) (e : Nat × Nat) : Bool :=
  let p : Access → Bool := fun a => a == .rwl || (a == .live && sectionLive mgr tag)
  ((sectionBlocks tag).getD []).contains (addrBlk e.1) &&
    match wordFields v e.1 with
    | none => false
    | some fs => decide (fieldMask p fs ≠ 0) && decide (Nat.land e.2 (fieldMask p fs) = e.2) && fieldsInRange p fs e.2

/-- The parameter words that a list of entries leaves set, over words already set. -/
def applyEntries (cfg : List (Nat × Word)) (es : List (Nat × Nat)) : List (Nat × Word) :=
  es.foldl (fun c e => sparsePut (resetWord e.1) c e.1 (BitVec.ofNat 32 e.2)) cfg

/-- The LOOKOUT check value of a section (R48): its last word. -/
def Section.check (x : Section) : Nat := chartN x.value (x.value.length - 4) 4

/-- The LOOKOUT section of a chart. -/
def lookoutSection (c : Bytes) : Option Section :=
  match chartSections c with
  | .ok l => l.find? (·.tag == 0x0040)
  | .error _ => none

/-- The LOOKOUT check value of a chart. -/
def lookoutCheck (c : Bytes) : Nat := ((lookoutSection c).map Section.check).getD 0

/-! ### Consistency (reason 0x0B); each rule is stated over a state whose `cfg` is the chart's -/

/-- R68, R81: STG_PRD in its range; a DAB stage has the sawtooth carrier and a STG_PHS_MAX within a quarter period. -/
def stageCarrierOk (s : State) (g : Fin 8) : Bool :=
  let p := cfgN s 0x11 g 0x004 15 0
  let dab := stgKind s g == 5
  stgKind s g == 0 ||
    ((if triangle s g then decide (300 ≤ p ∧ p ≤ 30000) && !dab else decide (600 ≤ p ∧ p ≤ 60000))
      && (!dab || decide (4 * cfgN s 0x11 g 0x014 19 0 ≤ pSteps s g)))

/-- The channels of an enabled cell, by number. -/
def cellChannels (s : State) (c : Fin 48) : List Nat :=
  match cellStage s c with
  | some g => (List.range (kindChannels (stgKind s g))).map (· + cfgN s 0x12 c 0x000 23 16)
  | none => []

/-- R69: dead times and minimum pulses fit the carrier period. -/
def deadTimesOk (s : State) (c : Fin 48) : Bool :=
  match cellStage s c with
  | some g => (cellChannels s c).all fun n =>
      decide (cfgN s 0x13 n 0x008 30 16 + cfgN s 0x13 n 0x008 14 0 + 2 * cfgN s 0x13 n 0x000 27 16 < pSteps s g)
  | none => true

/-- R80: a channel in at most one cell, channels that exist, at most 24 cells to a stage. -/
def cellsOk (s : State) : Bool :=
  let chans := (List.finRange 48).flatMap (cellChannels s)
  decide chans.Nodup && chans.all (· < 48) && (List.finRange 8).all fun g => decide ((stageCells s g).length ≤ 24)

/-- R91: with ALIGN_EN the carrier period is a whole multiple of CTL_OSR bit periods. -/
def alignOk (s : State) (n : Fin 64) : Bool :=
  let g : Fin 8 := Fin.ofNat 8 (cfgN s 0x15 n 0x000 6 4)
  let bits := 16 * 2 ^ cfgN s 0x15 n 0x000 18 16 * cfgN s 0x10 0 (0x020 + 4 * cfgN s 0x15 n 0x000 26 24) 7 0
  !(cfgB s 0x15 n 0x000 31 && cfgB s 0x15 n 0x000 3) || decide (pSteps s g / 16 % bits = 0)

/-- R98: a source code that is not reserved and names only inputs and instances in use. -/
def sourceOk (s : State) (code : Nat) : Bool :=
  if code < 0x40 then cfgB s 0x15 code 0x000 31
  else if 0x080 ≤ code ∧ code < 0x0E0 then lawEn s (Fin.ofNat 96 (code - 0x080))
  else if 0x100 ≤ code ∧ code < 0x160 then lawEn s (Fin.ofNat 96 (code - 0x100))
  else if 0x180 ≤ code ∧ code < 0x1E0 then lawEn s (Fin.ofNat 96 (code - 0x180))
  else decide (0x200 ≤ code ∧ code < 0x220 ∨ code = 0x3FF)

/-- R105: TRIG_ARG in its range: a TPOINT of 1 to 3, an input, a TPERIOD of at least 600 counts. -/
def trigOk (s : State) (i : Fin 96) : Bool :=
  match lawN s i 0x004 31 30 with
  | 1 => decide (1 ≤ lawN s i 0x004 7 6)
  | 3 => decide (600 ≤ lawN s i 0x004 23 0)
  | _ => true

/-- R103: the instance that supplies θ to a transform without its own PLL is enabled and has one. -/
def thetaOk (s : State) (i : Fin 96) : Bool :=
  let k := lawN s i 0x028 6 0
  pllEn s i || !(dqEn s i || invDq s i)
    || (decide (k < 96) && lawEn s (Fin.ofNat 96 k) && pllEn s (Fin.ofNat 96 k))

/-- R94: a comparator in use serves no AFE3 stage. -/
def uscOk (s : State) (k : Fin 8) : Bool :=
  let off := 0x040 + 4 * k.val
  !(cfgB s 0x10 0 off 31 && stgKind s (Fin.ofNat 8 (cfgN s 0x10 0 off 30 28)) == 4)

/-- R97 to R99, R103, R105: the flags of an enabled instance agree, its sources, θ, trigger and output exist. -/
def lawOk (s : State) (i : Fin 96) : Bool :=
  let dq := pllEn s i || dqEn s i || invDq s i
  let afe := match cellStage s (Fin.ofNat 48 (outIdx s i)) with
    | some g => outKind s i == 1 && stgKind s g == 4
    | none => false
  let words : List (Nat × Nat) := [(0x008, 22), (0x008, 12), (0x00C, 22), (0x00C, 12), (0x010, 0), (0x010, 16),
    (0x014, 0), (0x014, 16), (0x018, 0), (0x018, 16), (0x01C, 0), (0x01C, 16), (0x020, 0), (0x020, 10), (0x020, 20),
    (0x024, 0), (0x024, 10), (0x024, 20), (0x030, 16)]
  !lawEn s i || ((!dq || (dqMode s i && twoAxes s i)) && (!afe || invDq s i)
    && (outKind s i ≠ 1 || (cellStage s (Fin.ofNat 48 (outIdx s i))).isSome)
    && (outKind s i ≠ 2 || decide (outIdx s i < 6)) && trigOk s i && thetaOk s i
    && words.all fun w => sourceOk s (lawN s i w.1 (w.2 + 9) w.2))

/-- R128, R138: ADD_HI exceeds SHED_LO, and open failures are judged within 800 µs, which are 480,000 counts at
600 MHz (R66). -/
def shedOk (s : State) (g : Fin 8) : Bool :=
  stgKind s g == 0 || (decide (cfgN s 0x11 g 0x048 30 24 < cfgN s 0x11 g 0x048 23 17)
    && decide ((cfgN s 0x11 g 0x054 15 8 + 1) * (pSteps s g / 16) ≤ 480000))

/-- The DER breakpoints of an outlet: T_k rises strictly, I_k does not rise (R172) (DEDUCED, log 59). -/
def derOk (s : State) (o : Fin 2) : Bool :=
  (List.range 7).all fun k =>
    decide (cfgI s 0x22 o (0x010 + 4 * k) 31 16 < cfgI s 0x22 o (0x014 + 4 * k) 31 16)
      && decide (cfgN s 0x22 o (0x014 + 4 * k) 15 0 ≤ cfgN s 0x22 o (0x010 + 4 * k) 15 0)

/-- R147, R172: the stage that feeds an outlet, DIN on combined charging only, the derating curve (DEDUCED, log 59). -/
def outletOk (s : State) (o : Fin 2) : Bool :=
  match outletStage s o with
  | some g => isOutputStage s g && decide (stgKind s g ≠ 4) && (outType s o == 2 || !cfgB s 0x20 o 0x000 25) && derOk s o
  | none => true

/-- R275 and the VCOM rule of R277, the bands of R278 rising, FRAME_HZ_LOW in its range (DEDUCED, log 59). -/
def displayOk (s : State) : Bool :=
  let line := (roundDiv 48000000 ((cfgN s 0x80 0 0x000 31 24 : Int) * (64 + cfgN s 0x80 0 0x000 15 8))).toNat
  let gOn := cfgN s 0x80 0 0x004 21 11
  let gOff := cfgN s 0x80 0 0x004 10 0
  let vcom : Int := 1500 + 40 * cfgN s 0x80 0 0x000 5 0
  decide (gOn + gOff + 48 < line) && decide (cfgN s 0x80 0 0x008 10 0 < gOn)
    && decide (100 ≤ vcom - 2480 ∧ vcom + 2480 ≤ 5400)
    && decide (30 ≤ cfgN s 0x80 0 0x000 23 16 ∧ cfgN s 0x80 0 0x000 23 16 ≤ cfgN s 0x80 0 0x000 31 24)
    && (List.range 4).all fun k => decide (cfgI s 0x80 0 (0x010 + 4 * k) 15 0 < cfgI s 0x80 0 (0x014 + 4 * k) 15 0)

/-- R303: FILT and OSSD_TPW together at most 4 ms. -/
def filterOk (s : State) (n : Fin 16) : Bool :=
  decide (cfgN s 0x40 (0x10 + n) 0x000 15 12 * 250 + cfgN s 0x40 (0x10 + n) 0x000 11 4 * 10 ≤ 4000)

/-- R343: the tones, in kHz. -/
def tonesOk (s : State) : Bool :=
  let t := fun k => cfgN s 0x51 0 0x004 (8 * k + 7) (8 * k)
  (List.range 4).all (fun k => decide (9 ≤ t k ∧ t k ≤ 148)) && (List.range 3).all fun k => decide (t k + 2 ≤ t (k + 1))

/-- R473: FLOOR at most 2 on a manager, and on a worker that takes part in safe telegrams. -/
def floorOk (s : State) : Bool :=
  decide (cfgN s 0xA0 0 0x000 31 29 ≤ 2)
    || !(isManager s || (List.finRange 16).any fun k => cfgB s 0x40 0x40 (0x010 + 4 * k) 31)

/-- The consistency rules with the section each belongs to; the first that the chart breaks. -/
def inconsistent (s : State) : Option Nat :=
  let l : List (Bool × Nat) := [
    (cfgN s 0x01 0 0x400 16 0 == 0 && floorOk s, 0x0001),
    ((List.finRange 8).all (stageCarrierOk s) && (List.finRange 48).all (deadTimesOk s) && cellsOk s
      && (List.finRange 64).all (alignOk s) && (List.finRange 96).all (lawOk s) && (List.finRange 8).all (shedOk s)
      && (List.finRange 8).all (uscOk s) && (loadTest s).isSome, 0x0010),
    ((List.finRange 2).all (outletOk s), 0x0020),
    ((List.finRange 16).all (filterOk s), 0x0040),
    (tonesOk s, 0x0051),
    (decide (cfgN s 0x60 0 0x004 31 0 ≤ cfgN s 0x60 0 0x000 31 0), 0x0060),
    (displayOk s, 0x0080)]
  (l.find? fun x => !x.1).map (·.2)

/-! ### Verification (R52) -/

/-- The variant code of TARGET_VARIANT and SYS_INFO (DESIGN CHOICE, log 11). -/
def Variant.code : Variant → Nat
  | .ma4800 => 1 | .mn4800 => 2 | .ma4824 => 3

/-- The key slot that verifies charts can be used (R47). -/
def chartKeyOk (s : State) : Bool := let x := s.locker.slot[(2 : Fin 128)]; decide (x.st = .valid) && x.usage == 6

/-- The first missing section, in the order of Table 02-6. -/
def missingSection (mgr : Bool) (l : List Section) : Option Nat :=
  (sectionTable.find? fun r => (r.2.2 == 0 || (r.2.2 == 1 && !mgr)) && !l.any (·.tag == r.1)).map (·.1)

/-- The checks after the section structure: entries, the rules over them, the LOOKOUT check value, R5. -/
def verifyEntries (s : State) (l : List Section) : Option (Nat × Nat) :=
  let known := l.filter fun x => (sectionBlocks x.tag).isSome
  match known.find? fun x => !x.entries.all (entryOk s.variant (isManager s) x.tag) with
  | some x => some (x.tag, 0x0B)
  | none =>
    let t := { s with cfg := applyEntries [] (known.flatMap Section.entries) }
    match inconsistent t with
    | some tag => some (tag, 0x0B)
    | none =>
      if (known.filter (·.tag == 0x0040)).any fun x => decide (crc32c (x.value.take (x.value.length - 4)) ≠ x.check) then
        some (0x0040, 0x0C)
      else if (List.finRange 48).any fun c => (cellChannels t c).any fun n => decide (channelCount s.variant ≤ n) then
        some (0x0010, 0x0B)
      else none

/-- Every check of R52 before the serial check, in its order: the tag and reason of the first that fails. `sigOk` is the
verdict of SM2 over the header (R47). -/
def verifyChart (s : State) (c : Bytes) (sigOk : Bool) : Option (Nat × Nat) :=
  if c.take 4 ≠ [0x4B, 0x47, 0x43, 0x48] then some (0, 0x01)
  else if chartN c 4 2 ≠ 1 then some (0, 0x02)
  else if chartN c 6 2 ≠ 128 ∨ 524288 < chartN c 8 4 ∨ c.length < chartN c 8 4 ∨ chartN c 8 4 < 128 then some (0, 0x03)
  else if chartN c 24 1 ≠ s.landfall.role.val then some (0, 0x04)
  else if chartN c 25 1 ≠ 0 ∧ chartN c 25 1 ≠ s.variant.code then some (0, 0x05)
  else if chartSm3 c ≠ chartDigest c then some (0, 0x06)
  else if chartKeyOk s = false then some (0, 0x08)
  else if sigOk = false then some (0, 0x07)
  else
    match chartSections c with
    | .error tag => some (tag, 0x0A)
    | .ok l =>
      match if l.length = chartN c 26 2 then missingSection (isManager s) l else some 0 with
      | some tag => some (tag, 0x0A)
      | none => verifyEntries s l

/-- The base of a chart slot in the flash (Table 02-4). -/
def chartBase (slotB : Bool) : Nat := if slotB then 0x080000 else 0

/-- The chart image of a slot: TOTAL_LENGTH bytes, never past the slot. -/
def chartImage (s : State) (slotB : Bool) : Bytes :=
  let base := chartBase slotB
  sparseRead 0xFF s.flash base (max 128 (min 524288 (leNat (sparseRead 0xFF s.flash (base + 8) 4))))

/-- The sections of a chart whose tag is unknown and not critical: ignored, and reported in the log (R49). -/
def reportUnknown (s : State) (c : Bytes) : State :=
  match chartSections c with
  | .ok l => (l.filter fun x => (sectionBlocks x.tag).isNone).foldl (fun t x => logInfo t (Config.eventCode 49) .helm x.tag) s
  | .error _ => s

/-- The snapshot buffer selected (R54). -/
def snapshot (s : State) : Option Bytes :=
  if s.chart.sel = 1 then some s.chart.bufA else if s.chart.sel = 2 then some s.chart.bufB else none

/-- A chart written to the snapshot buffer not in use, which is then selected (R54). -/
def writeSnapshot (s : State) (c : Bytes) : State :=
  { s with chart := if s.chart.sel = 1 then { s.chart with bufB := c, sel := 2 } else { s.chart with bufA := c, sel := 1 } }

/-- The serial check of R53 against the snapshot. -/
def serialOk (s : State) (c : Bytes) : Bool :=
  match snapshot s with
  | none => true
  | some p => chartDigest c == chartDigest p || decide (chartSerial p < chartSerial c)

end Sys2Proof.Machine
end

