-- ==== Sys2Proof/Machine/ManagerOps.lean ====
section
/-!
DEFINITION. What the manager's commands share (R365 to R383): the allocation, its publication, the token, and what a
manager makes of another's beacons.
-/
namespace Sys2Proof.Machine

/-- The manager acts: it holds the token and has not released it. -/
def acting (s : State) : Bool := isManager s && decide (s.mgr.role = .active ∨ s.mgr.role = .releasing)

/-! ### The allocation (R367, R368) -/

/-- An open worker's part in R367: its entry, class, want and guarantee. -/
structure Want where
  w : Fin 32
  cls : Nat
  want : Nat
  g : Nat

/-- P_SAFE of an entry (SM_SAFE). -/
def smSafe (s : State) (w : Fin 32) : Nat := cfgN s 0x60 (w + 1) 0x014 31 0

/-- The STATUS of an entry that R367 uses: at most 1 s old. -/
def usedStatus (s : State) (w : Fin 32) : Option StatusMsg :=
  if statusWithin s w 1000 then (s.mgr.worker[w]).status else none

/-- The allocation of a worker whose STATUS is older than 1 s. -/
def fixedAlloc (s : State) (w : Fin 32) : Nat :=
  if statusWithin s w 15000 then (s.mgr.worker[w]).alloc else smSafe s w

/-- The open workers. -/
def wants (s : State) : List Want :=
  (enabled s).filterMap fun w => (usedStatus s w).map fun m =>
    let want := min m.demand (min m.capacity (cfgN s 0x60 (w + 1) 0x004 31 0))
    ⟨w, s.mgr.cls[w], want, min m.guar want⟩

/-- Power left over, and what each open worker has. -/
abbrev Shares := Int × List (Fin 32 × Nat)

/-- What a worker has so far. -/
def shareOf (l : List (Fin 32 × Nat)) (w : Fin 32) : Nat := ((l.find? (·.1 == w)).map (·.2)).getD 0

/-- The guarantees of a class (R367). A share that comes out scaled leaves nothing; it is rounded down
(DEDUCED, log 57). -/
def guarClass (ws : List Want) (p : Shares) (c : Nat) : Shares :=
  let mine := ws.filter (·.cls == c)
  let sum := (mine.map (·.g)).sum
  let av := (max p.1 0).toNat
  if sum ≤ av then (p.1 - sum, p.2 ++ mine.map fun x => (x.w, x.g))
  else (p.1 - av, p.2 ++ mine.map fun x => (x.w, x.g * av / sum))

/-- The remainder of a class, water-filled (R367) (DEDUCED, log 57). -/
def restClass (ws : List Want) (p : Shares) (c : Nat) : Shares :=
  let mine := ws.filter (·.cls == c)
  let gap := fun (x : Want) => x.want - shareOf p.2 x.w
  let r := (mine.map gap).sum
  if p.1 ≤ 0 ∨ r = 0 then p
  else
    let av := p.1.toNat
    let add := fun (x : Want) => if r ≤ av then gap x else gap x * av / r
    (p.1 - min r av, p.2.map fun e => match mine.find? (·.w == e.1) with
      | some x => (e.1, e.2 + add x)
      | none => e)

/-- The targets of R367, by entry. -/
def targets (s : State) : Vector Nat 32 :=
  let e := enabled s
  let fixed := e.filter fun w => (usedStatus s w).isNone
  let avail : Int := (s.mgr.pSite : Int) - cfgN s 0x60 0 0x008 31 0 - (fixed.map fun w => fixedAlloc s w).sum
  let ws := wants s
  let p := (List.range 4).foldl (restClass ws) ((List.range 4).foldl (guarClass ws) (avail, []))
  Vector.ofFn fun w => if !smEn s w then 0 else if (usedStatus s w).isSome then shareOf p.2 w else fixedAlloc s w

/-- RAMP_UP and the room for increases applied to the targets (R368). -/
def ramped (s : State) (tgt : Vector Nat 32) : Vector Nat 32 :=
  let e := enabled s
  let prev := fun (w : Fin 32) => (s.mgr.worker[w]).alloc
  let inc := fun (w : Fin 32) => min (tgt[w] - prev w) (cfgN s 0x60 0 0x00C 30 16)
  let total := (e.map inc).sum
  let room := (max 0 ((s.mgr.pSite : Int) - cfgN s 0x60 0 0x008 31 0 - (e.map prev).sum)).toNat
  Vector.ofFn fun w => if tgt[w] ≤ prev w then tgt[w]
    else prev w + if total ≤ room then inc w else inc w * room / total

/-- A CURTAIL's allocation: decreases only (R370). -/
def curtailed (s : State) (tgt : Vector Nat 32) : Vector Nat 32 :=
  Vector.ofFn fun w => min tgt[w] (s.mgr.worker[w]).alloc

/-! ### CTRL messages (Table 15-1) -/

/-- The body of a STATUS message (R366). -/
def statusBody (m : StatusMsg) : Bytes :=
  toBe 4 m.demand ++ toBe 4 m.capacity ++ toBe 4 m.guar ++ toBe 1 m.wflags ++ toBe 1 0 ++ toBe 2 m.health

/-- Entries in ascending NODE_ID. -/
def byNode (s : State) (l : List (Fin 32)) : List (Fin 32) :=
  l.foldr (fun (w : Fin 32) (acc : List (Fin 32)) =>
    let below := fun (v : Fin 32) => decide (smNode s v.val < smNode s w.val)
    acc.takeWhile below ++ [w] ++ acc.dropWhile below) []

/-- INPUT_CRC (Table 15-1). -/
def inputCrc (s : State) : Nat :=
  crc32 (((byNode s (enabled s)).filterMap fun w => (usedStatus s w).map statusBody).flatten)

/-- The 16-byte CTRL head. -/
def ctrlHead (epoch : Nat) (rank : Bool) (kind n cycle crc : Nat) : Bytes :=
  toBe 4 epoch ++ toBe 1 (flag rank + 2 * kind) ++ toBe 1 n ++ toBe 2 0 ++ toBe 4 cycle ++ toBe 4 crc

/-! ### CTRL and BEACON messages received (Tables 15-1, 15-2) -/

/-- The oldest message for Helm of a kind, and the state without it. -/
def takeHeard (s : State) (p : SiteMsg → Bool) : Option (SiteMsg × State) :=
  (s.txl.inbox.find? p).map fun h => (h, { s with txl := { s.txl with inbox := s.txl.inbox.erase h } })

/-- A CTRL message of a kind. -/
def SiteMsg.isCtrl (h : SiteMsg) (kinds : List Nat) : Bool :=
  h.cls == .ctrl && kinds.contains (beNat (slice h.payload 4 1) / 2 % 8)

/-- RELEASE of a BEACON (Table 15-2). -/
def SiteMsg.releases (h : SiteMsg) : Bool := (h.payload.getD 4 0).getLsbD 3

/-- A STATUS message read (Table 15-1, R366). -/
def SiteMsg.status (h : SiteMsg) : StatusMsg :=
  let b := h.payload
  { node := h.src, epoch := beNat (slice b 0 4), count := beNat (slice b 8 4), demand := beNat (slice b 16 4)
    capacity := beNat (slice b 20 4), guar := beNat (slice b 24 4), wflags := beNat (slice b 28 1)
    health := beNat (slice b 30 2) }

/-- An ALLOC or CURTAIL message read (Table 15-1). -/
def SiteMsg.alloc (h : SiteMsg) : AllocMsg :=
  let b := h.payload
  { curtail := beNat (slice b 4 1) / 2 % 8 == 2, node := h.src, epoch := beNat (slice b 0 4), rank := (b.getD 4 0).getLsbD 0
    cycle := beNat (slice b 8 4), inputCrc := beNat (slice b 12 4)
    entries := (List.range (min 32 (beNat (slice b 5 1)))).map fun k =>
      let e := slice b (16 + 8 * k) 8
      ⟨beNat (slice e 0 2), beNat (slice e 2 4), beNat (slice e 6 2)⟩ }

/-- A PARAM message read (PRESUMED, log 23). -/
def SiteMsg.param (h : SiteMsg) : ParamMsg :=
  let b := h.payload
  { epoch := beNat (slice b 0 4), rank := (b.getD 4 0).getLsbD 0, pSite := beNat (slice b 16 4)
    classes := (List.range (min 32 (beNat (slice b 5 1)))).map fun k =>
      (beNat (slice b (20 + 4 * k) 2), beNat (slice b (22 + 4 * k) 1)) }

/-- A BEACON read (Table 15-2). -/
def SiteMsg.beacon (h : SiteMsg) : MgrBeacon :=
  let b := h.payload
  let f := b.getD 4 0
  { logLine := false, epoch := beNat (slice b 0 4), rank := f.getLsbD 0, active := f.getLsbD 1, renew := f.getLsbD 2
    release := f.getLsbD 3, tokenReq := f.getLsbD 4, green := f.getLsbD 5, cycle := beNat (slice b 6 2)
    health := beNat (slice b 8 4) }

/-- One worker's entry of the manager's table replaced by its image. -/
def updWorker (s : State) (w : Fin 32) (f : SiteWorker → SiteWorker) : State :=
  { s with mgr := { s.mgr with worker := upd s.mgr.worker w f } }

/-- The allocations stored as those last published. -/
def setAllocs (s : State) (a : Vector Nat 32) : State :=
  { s with mgr := { s.mgr with worker := Vector.ofFn fun w => { s.mgr.worker[w] with alloc := a[w] } } }

/-- One cycle published (R369): kind 1 ALLOC, 2 CURTAIL. -/
def publish (s : State) (kind : Nat) : State :=
  let a := if kind = 2 then curtailed s (targets s) else ramped s (targets s)
  let t := setAllocs s a
  let cycle := (s.mgr.cycle + 1) % 2 ^ 32
  let t := { t with mgr := { t.mgr with
    cycle := cycle, curtail := if kind = 2 then satInc 16 t.mgr.curtail else t.mgr.curtail } }
  let es := enabled s
  let entry := fun (w : Fin 32) => toBe 2 (smNode s w) ++ toBe 4 a[w] ++ toBe 2 (s.mgr.worker[w]).syncPh
  sendCtrl t 0xFFFF (ctrlHead s.mgr.epoch (myRank s) kind es.length cycle (inputCrc s) ++ (es.map entry).flatten)

/-! ### The token (R374) -/

/-- Log-line master from now on, with an empty table (R361). -/
def beMaster (s : State) : State :=
  { s with ll := { s.ll with
      isMaster := true, cycleOpen := false, turn := 0, exch := none, route := Vector.replicate 32 {}, busyTo := 0
      pollSlot := 0, links := [] } }

/-- No longer Log-line master. -/
def endMaster (s : State) : State := { s with ll := { s.ll with isMaster := false, exch := none, cycleOpen := false } }

/-- The token taken (R374): one more than the greater of the stored epoch and the highest heard; none at the last
(DEDUCED, log 56). -/
def takeToken (s : State) : State :=
  let top := max s.mgr.epoch s.mgr.heardHigh
  if 0xFFFFFFFF ≤ top then { s with mgr := { s.mgr with epochEnd := true } }
  else
    let t := { s with mgr := { s.mgr with
      epoch := top + 1, role := .active, roleAt := s.mono, renewIn := 0, tokenReq := false, listens := 0, heardActive := false
      takeover := satInc 16 s.mgr.takeover } }
    logInfo (beMaster t) (Config.eventCode 378) .helm (top + 1)

/-- The manager stops acting in a role. -/
def stopActing (s : State) (r : MRole) : State :=
  endMaster { s with mgr := { s.mgr with role := r, roleAt := s.mono, tokenReq := false } }

/-- An active manager sends a beacon with RELEASE and stops acting (R379). -/
def releaseToken (s : State) : State :=
  if isManager s && decide (s.mgr.role = .active) then stopActing (sendBeacon s true false true) .standby else s

/-- Pairs (EPOCH, RANK) in order (R371). -/
def pairLe (e1 : Nat) (r1 : Bool) (e2 : Nat) (r2 : Bool) : Bool := decide (e1 < e2 ∨ (e1 = e2 ∧ flag r1 ≤ flag r2))

/-! ### Hearing another manager -/

/-- A RELEASE heard (R379, R382): a standby with quorum takes the token at once. -/
def hearRelease (s : State) : State :=
  if isManager s && decide (s.mgr.role = .standby) && quorum s then takeToken s else s

/-- A higher pair heard from an acting manager (R382, R383). -/
def yieldTo (s : State) (epoch : Nat) (rank : Bool) : State :=
  if acting s && !pairLe epoch rank s.mgr.epoch (myRank s) then
    let t := stopActing s .standby
    if s.mgr.role = .active then logInfo t (Config.eventCode 383) .helm epoch else t
  else s

/-- A beacon or POLL heard (R375, R377, R378, R382, R383). -/
def hearManager (s : State) (b : MgrBeacon) : State :=
  let t := { s with mgr := { s.mgr with
    heardHigh := max s.mgr.heardHigh b.epoch
    peerHealth := if b.logLine then s.mgr.peerHealth else b.health
    peerTxl := if b.logLine then s.mgr.peerTxl else some s.mono
    peerLl := if b.logLine then some s.mono else s.mgr.peerLl
    heardActive := s.mgr.heardActive || b.active
    leaseAt := if b.active && (b.renew || b.logLine) then s.mono else s.mgr.leaseAt
    peerLost := false } }
  let t := if s.mgr.peerLost then logClear t 0x0705 .external 0 else t
  let t := if b.active then yieldTo t b.epoch b.rank else t
  let t := if b.tokenReq && !myRank s && decide (t.mgr.role = .active) then
    { t with mgr := { t.mgr with tokenReq := true } } else t
  if b.release then hearRelease t else t

/-! ### The worker (R371, R372) -/

/-- WRK_SAFE.P_SAFE. -/
def pSafe (s : State) : Nat := cfgN s 0x60 0 0x040 31 0

/-- The allocation and DR_STATE at an age in ms (R372), in kW rounded down (DEDUCED, log 57). -/
def drAlloc (s : State) (age : Nat) (last : Nat) : Nat × Nat :=
  let p := pSafe s
  let st := if age ≤ 200 then 0 else if age < 5000 then 1 else if age < 15000 then 2 else 3
  let v := if age < 5000 ∨ last ≤ p then last
    else if age < 15000 then last - ((last - p) * (age - 5000) + 9999) / 10000 else p
  (v, st)

/-- The allocation in force, with the post split that follows when it changes (R371). -/
def setAlloc (s : State) (kW dr : Nat) : State :=
  let t := { s with wrk := { s.wrk with alloc := kW, drState := dr } }
  if kW = s.wrk.alloc then t else postSplit t

end Sys2Proof.Machine
end

