-- ==== Sys2Proof/Machine/LogLine.lean ====
section
/-!
DEFINITION. The Log-line modem's commands (R342 to R364): the mains grid, tones and symbols, frames, maps, polling, relaying and
routing.
-/
namespace Sys2Proof.Machine

/-! ### Maps and slots (R344, R345, R348) -/

/-- The weight of a map entry (Table 14-1). -/
def mapWeight (code : Nat) : Nat := [12, 3, 2, 0].getD code 0

/-- The entry of segment `seg` of a map. -/
def mapEntry (m seg : Nat) : Nat := m / 4 ^ seg % 4

/-- A map with one entry replaced. -/
def mapSet (m seg code : Nat) : Nat := m - mapEntry m seg * 4 ^ seg + code * 4 ^ seg

/-- robust6 in every segment (R353). -/
def bmapSafe : Nat := 0xAAAAAA

/-- N_SLOT (R345). -/
def nSlot (s : State) : Nat := if cfgB s 0x51 0 0x000 31 then 16 else 20

/-- The nominal mains period in µs. -/
def nominalT (s : State) : Nat := if cfgB s 0x51 0 0x000 31 then 16667 else 20000

/-- The segment of slot `j` of a cycle (R345). -/
def slotSeg (s : State) (j : Nat) : Nat := min 11 (12 * (1000 * j + 500) / max 1 s.ll.period)

/-- The weight of a slot under a map. -/
def slotWeight (s : State) (m k : Nat) : Nat := mapWeight (mapEntry m (slotSeg s (k % nSlot s)))

/-- The cost of a map (R348). -/
def mapCost (s : State) (m : Nat) : Nat :=
  let w := ((List.range (nSlot s)).map (slotWeight s m)).sum
  if w = 0 then 0xFF else (24 * nSlot s + w) / (2 * w)

/-- The instant of slot `k`, counted over all cycles, in µs (DEDUCED, log 24). -/
def slotTime (s : State) (k : Nat) : Nat := k / nSlot s * s.ll.period + k % nSlot s * 1000

/-- The first slot at or after an instant. -/
def firstSlot (s : State) (t : Nat) : Nat :=
  let c := t / max 1 s.ll.period
  let j := (t - c * s.ll.period + 999) / 1000
  if j < nSlot s then c * nSlot s + j else (c + 1) * nSlot s

/-- The slot after the last copy of `n` symbols sent from slot `k` on under a map (R348); none if they do not end within
the fuel. -/
def placeSyms (s : State) (m : Nat) : Nat → Nat → Nat → Nat → Option Nat
  | _, k, _, 0 => some k
  | 0, _, _, _ + 1 => none
  | f + 1, k, sum, n + 1 =>
    let t := sum + slotWeight s m k
    if 12 ≤ t then placeSyms s m f (k + 1) 0 n else placeSyms s m f (k + 1) t (n + 1)

/-- The end in µs of a frame of LEN bytes whose preamble starts at slot `k` (R351). -/
def frameEnd (s : State) (m fuel k len : Nat) : Option Nat :=
  (placeSyms s m fuel (k + 32) 0 (56 + 4 * len)).map fun e => slotTime s (e - 1) + 1000

/-- A map with every entry raised by STEP levels, skip unchanged, robust6 the highest (R360). -/
def raiseMap (m step : Nat) : Nat :=
  (List.range 12).foldl (fun a seg =>
    let e := mapEntry a seg
    if e = 3 then a else mapSet a seg (min 2 (e + step))) m

/-! ### Tones and symbols (R347, R348) -/

/-- The tone of a pair of bits (R347). -/
def pairTone (p : Nat) : Fin 4 := if p % 4 = 2 then 3 else if p % 4 = 3 then 2 else if p % 4 = 1 then 1 else 0

/-- The pair of bits of a tone. -/
def tonePair (k : Nat) : Nat := if k = 2 then 3 else if k = 3 then 2 else k

/-- The tones of the symbols of some bytes, most significant pair first. -/
def byteTones (b : Bytes) : List (Fin 4) :=
  b.flatMap fun x => [pairTone (x.toNat / 64), pairTone (x.toNat / 16), pairTone (x.toNat / 4), pairTone x.toNat]

/-- What each slot from `k` on carries: copies of the symbols as their weights ask for, silence in slots of weight 0 (R348). -/
def layTones (s : State) (m : Nat) : Nat → Nat → Nat → List (Fin 4) → List (Option (Fin 4))
  | _, _, _, [] => []
  | 0, _, _, _ => []
  | f + 1, k, sum, p :: ps =>
    let w := slotWeight s m k
    if w = 0 then none :: layTones s m f (k + 1) sum (p :: ps)
    else if 12 ≤ sum + w then some p :: layTones s m f (k + 1) 0 ps
    else some p :: layTones s m f (k + 1) (sum + w) (p :: ps)

/-- The preamble: 32 slots of TONE0 to TONE3 in turn (R351). -/
def preamble : List (Option (Fin 4)) := (List.range 32).map fun k => some (Fin.ofNat 4 k)

/-- The sync word. -/
def syncWord : Bytes := [0x1A, 0xCF]

/-! ### Frames (R351) -/

/-- LL_ADDR. -/
def llAddr (s : State) : Nat := cfgN s 0x51 0 0x000 5 0

/-- The modem can send and receive: clocked, started (R43), with a key (R352), Helm running (Table 14-3). -/
def llUp (s : State) : Bool :=
  linksUp s && helmRuns s && s.landfall.hostReady && s.txl.key.isSome && !s.flt.island[5].lost && !s.flt.island[5].off

/-- The modem may send (R346). -/
def llSends (s : State) : Bool := llUp s && !s.ll.zcLost

/-- The header of a frame (Table 14-2). -/
def llHeader (kind hops hidx step : Nat) (more : Bool) (dst src r1 r2 len seq : Nat) : Nat :=
  kind * 2 ^ 44 + hops * 2 ^ 42 + hidx * 2 ^ 40 + step * 2 ^ 38 + flag more * 2 ^ 37 + dst * 2 ^ 30 + src * 2 ^ 24
    + r1 * 2 ^ 18 + r2 * 2 ^ 12 + len * 2 ^ 5 + seq % 32

/-- LMAC of a header and payload (R351). -/
def llMac (s : State) (h payload : Bytes) : Bytes := (hmac (s.txl.key.getD []) (toBe 2 (siteId s) ++ h ++ payload)).take 4

/-- The slots after the preamble of a frame that begins in slot `k`. -/
def frameTones (s : State) (m k : Nat) (h payload mac : Bytes) (crc : Nat) : List (Option (Fin 4)) :=
  layTones s m 8000 (k + 32) 0 (byteTones (syncWord ++ h ++ payload ++ mac ++ toBe 2 crc))

/-- A frame that begins in slot `k`, with its LMAC, CRC and tones under a map (R342, R351). -/
def llFrame (s : State) (header : Nat) (payload : Bytes) (m k : Nat) : LlSent :=
  let h := toBe 6 header
  let mac := llMac s h payload
  let crc := crc16 (h ++ payload ++ mac)
  let tones := preamble ++ frameTones s m k h payload mac crc
  { header, payload, mac, crc, map := m, slot := k, tones, level := cfgN s 0x51 0 0x000 15 10
    rise := (slotTime s k : Int) - 200, fall := slotTime s (k + tones.length - 1) + 1200 }

/-- The end of a frame in µs. -/
def LlSent.endsAt (f : LlSent) : Nat := (f.fall - 200).toNat

/-- One neighbour replaced by its image. -/
def updLlPeer (s : State) (a : Fin 34) (f : LlPeer → LlPeer) : State :=
  { s with ll := { s.ll with peer := upd s.ll.peer a f } }

/-- A frame of this node's own, numbered, that begins in slot `k` (R351); none under a map without any weight. -/
def sendLl (s : State) (k kind hops step : Nat) (more : Bool) (dst r1 r2 : Nat) (payload : Bytes) (m : Nat) : State :=
  if mapCost s m = 0xFF then s
  else
    let seq := (s.ll.seq + 1) % 32
    let f := llFrame s (llHeader kind hops 0 step more dst (llAddr s) r1 r2 payload.length seq) payload m k
    useSlot { s with ll := { s.ll with seq := seq, sent := some f, sentTo := f.endsAt } } (linkSlot s) 1

/-- The first slot at least 2 ms after the last traffic (R356). -/
def answerSlot (s : State) : Nat := firstSlot s (s.ll.busyTo + 2000)

/-- The nodes of a frame's hops, in order. -/
def LlHops (f : LlRx) : List Nat :=
  if f.hops = 1 then [f.dst] else if f.hops = 2 then [f.relay1, f.dst] else [f.relay1, f.relay2, f.dst]

/-- The node is the one addressed at this hop, or the frame is for all. -/
def llForUs (s : State) (f : LlRx) : Bool := f.dst == 63 || (LlHops f)[f.hidx]? == some (llAddr s)

/-- A 3-byte map field of a payload. -/
def mapField (p : Bytes) (off : Nat) : Nat := beNat (slice p off 3)

/-! ### Mains reference (R344, R346) -/

/-- LL_ZC_EDGE (R344): the reference is moved earlier by ZC_DLY and by ZC_PH thirds of a period (DEDUCED, log 24). -/
def execLlZcEdge (t : Nat) (s : State) : Out :=
  .next (
    let d := s.ll.zcLast.map fun p => t - p
    let nom := nominalT s
    let good : Bool := match d with
      | some x => decide ((x - nom + (nom - x)) * 50 ≤ nom)
      | none => false
    let t0 := match d with
      | some x => if 2 * x ≤ 3 * nom ∧ 0 < x then x else s.ll.period
      | none => s.ll.period
    let n := if good then s.ll.zcGood + 1 else 0
    let l := { s.ll with
      zcLast := some t, zcMiss := 0, zcGood := n, period := t0, mainsF := min 65535 (100000000 / max 1 t0)
      refAt := t - cfgN s 0x51 0 0x000 28 16 - cfgN s 0x51 0 0x000 30 29 * t0 / 3 }
    if s.ll.zcLost && decide (10 ≤ n) then
      logClear { s with ll := { l with zcLost := false } } (Config.eventCode 346) .helm 0
    else { s with ll := l })

/-- LL_ZC_MISSED (R346). -/
def execLlZcMissed (s : State) : Out :=
  .next (
    let n := s.ll.zcMiss + 1
    let t := { s with ll := { s.ll with zcMiss := n, zcGood := 0, zcLast := none, refAt := s.ll.refAt + s.ll.period } }
    if 5 ≤ n ∧ s.ll.zcLost = false then
      logDetect { t with ll := { t.ll with zcLost := true } } (Config.eventCode 346) .helm 0
    else t)

/-! ### Receiving (R352, R354, R362) -/

/-- STEPUP_N. -/
def stepUpN (s : State) : Nat := cfgN s 0x51 0 0x008 23 20

/-- A map step logged and counted (R354). -/
def noteStep (s : State) (a : Fin 34) : State :=
  logInfo { s with ll := { s.ll with stepCnt := satInc 16 s.ll.stepCnt } } (Config.eventCode 354) .helm a

/-- One segment of a frame judged (R354). -/
def segStep (s : State) (a : Fin 34) (seg : Fin 12) (err : Bool) : State :=
  let x := s.ll.peer[a]
  if !err then updLlPeer s a fun y => { y with errs := y.errs.set seg 0 }
  else
    let s := updLlPeer s a fun y => { y with errAt := y.errAt.set seg s.mono }
    if x.errs[seg] + 1 < stepUpN s then updLlPeer s a fun y => { y with errs := y.errs.set seg (y.errs[seg] + 1) }
    else
      let t := updLlPeer s a fun y => { y with errs := y.errs.set seg 0 }
      if mapEntry x.map seg = 3 then t
      else noteStep (updLlPeer t a fun y =>
        { y with map := mapSet y.map seg (mapEntry y.map seg + 1), oldMap := x.map }) a

/-- LOST_CNT counts a frame. -/
def llDiscard (s : State) : State := { s with ll := { s.ll with lost := satInc 16 s.ll.lost } }

/-- The master waits for a reply. -/
def llWaits (s : State) : Bool := match s.ll.exch with
  | some e => e.waiting
  | none => false

/-- An exchange of the master lost (R360): retried with the next STEP, or missed after the third. -/
def loseExchange (s : State) : State :=
  match s.ll.exch with
  | none => s
  | some e =>
    if e.step < 2 then { s with ll := { s.ll with
      exch := some { e with step := e.step + 1, round := 0, waiting := false }, retry := satInc 16 s.ll.retry } }
    else logInfo { s with ll := { s.ll with exch := none } } (Config.eventCode 360) .helm e.dst

/-- A POLL heard from a master (R355, R356, R362). -/
def takePoll (s : State) (f : LlRx) : State :=
  let gap := match s.ll.beaconAt with
    | some b => s.mono - b
    | none => 0
  let t := { s with ll := { s.ll with
    master := f.src, masterEpoch := beNat (slice f.payload 4 4), beaconAt := some s.mono
    validFrom := if s.ll.beaconAt.isNone || decide (750 ≤ gap) then s.mono else s.ll.validFrom
    beaconMax := min 65535 (max s.ll.beaconMax gap)
    annMap := if f.dst = 63 then mapField f.payload 1 else s.ll.annMap } }
  let t := if isManager s then hearManager t
      { logLine := true, epoch := beNat (slice f.payload 4 4), rank := f.src == 0, active := true, renew := true
        release := false, tokenReq := false, green := false, cycle := 0, health := 0 } else t
  if f.dst = 63 ∨ llForUs s f = false then t
  else
    let t := updLlPeer t f.sender fun y => { y with told := mapField f.payload 1 }
    if f.hidx + 1 < f.hops then { t with ll := { t.ll with toRelay := some f } }
    else if (f.payload.getD 0 0).toNat < 3 then t
    else { t with ll := { t.ll with reply := some f } }

/-- The pairs of a NEIGH report, as links from `src` (R356). -/
def neighPairs (src : Nat) : Nat → Bytes → List (Nat × Nat × Nat)
  | n + 1, a :: c :: rest => (src, a.toNat, c.toNat) :: neighPairs src n rest
  | _, _ => []

/-- A REPLY or NEIGH for this node, or to be relayed (R356, R358, R361). -/
def takeReply (s : State) (f : LlRx) : State :=
  let rx := mapField f.payload 0
  let t := if f.sender = f.src then updLlPeer s f.sender fun y => { y with told := rx, reported := some rx } else s
  if f.hidx + 1 < f.hops then { t with ll := { t.ll with toRelay := some f } }
  else
    let t := match t.ll.exch with
      | some e => if e.dst = f.src then { t with ll := { t.ll with exch := none } } else t
      | none => t
    if f.kind = 3 then
      let ps := neighPairs f.src 32 (f.payload.drop 3)
      let old := t.ll.links.filter fun l => !(ps.any fun p => p.1 == l.1 && p.2.1 == l.2.1)
      { t with ll := { t.ll with links := old ++ ps } }
    else t

/-- A frame that passes R352 (R352's duplicates, Table 14-3's two masters). -/
def acceptLl (s : State) (f : LlRx) : State :=
  let dup := s.ll.recent.any fun r => r.1 == f.src && r.2.1 == f.seq && decide (s.mono ≤ r.2.2 + 2000)
  let other := decide (f.kind = 1) && s.ll.beaconAt.isSome && s.ll.master != f.src
    && !pairLe s.ll.masterEpoch (s.ll.master == 0) (beNat (slice f.payload 4 4)) (f.src == 0)
  if dup || other then llDiscard s
  else
    let me := llAddr s
    let x := f.sender.val
    let t := { s with ll := { s.ll with
      ok := satInc 16 s.ll.ok
      await := if s.ll.await = some f.sender then none else s.ll.await
      recent := (f.src, f.seq, s.mono) :: s.ll.recent.filter fun r => decide (s.mono ≤ r.2.2 + 2000)
      dead := s.ll.dead.filter fun l => l != (me, x) && l != (x, me) } }
    let t := updLlPeer t f.sender fun y => { y with heard := true, heardAt := s.mono }
    if f.kind = 1 then takePoll t f else if llForUs s f then takeReply t f else t

/-- The master's own route to a node: hops and relays; the standby always direct; every node direct while the table is
empty (R358, R361). -/
def routeTo (s : State) (a : Nat) : Option (Nat × Nat × Nat) :=
  if a < 2 then some (1, 0, 0)
  else if s.ll.route.toList.all fun r => r.hops == 0 then some (1, 0, 0)
  else match s.ll.route.toList[a - 2]? with
    | some r => if r.hops = 0 then none else some (r.hops, r.relay1, r.relay2)
    | none => none

/-- The first node of a route. -/
def firstHop (r : Nat × Nat × Nat) (dst : Nat) : Fin 34 := Fin.ofNat 34 (if r.1 = 1 then dst else r.2.1)

/-! ### The receiver (R349, R350, R352, R353) -/

/-- A received slot: the energies of the four tones, and its samples zeroed and in all. -/
structure SlotRx where
  energy : List Nat
  zeroed : Nat
  total : Nat

/-- A decoded symbol: its pair of bits, and its copies with their segments. -/
structure SymRx where
  pair : Nat
  copies : List (Nat × SlotRx)

/-- The running mean square: squares of samples not blanked, oldest first and newest first, their sum and number, and the
samples still to be zeroed after an impulse (R350). -/
structure Rms where
  old : List Nat
  new : List Nat
  sum : Nat
  cnt : Nat
  hold : Nat

/-- A square joins the last 1 ms, 768 samples. -/
def Rms.push (r : Rms) (q : Nat) : Rms :=
  if r.cnt < 768 then { r with new := q :: r.new, sum := r.sum + q, cnt := r.cnt + 1 }
  else match r.old with
    | o :: rest => { r with old := rest, new := q :: r.new, sum := r.sum + q - o }
    | [] => match r.new.reverse with
      | o :: rest => { r with old := rest, new := [q], sum := r.sum + q - o }
      | [] => r

/-- An ADC code as a signed sample about the bias of 0.6 V, mid-scale of 0 V to 1.2 V (R342). -/
def adc (code : Nat) : Int := (code : Int) - 2048

/-- Which samples exceed BLANK_K times the running RMS. The samples zeroed after an impulse stay out of the RMS; the four before
it have entered it (DEDUCED, log 24). -/
def impulses (k : Nat) : List Int → Rms → List Bool × Rms
  | [], r => ([], r)
  | x :: xs, r =>
    let q := x.natAbs ^ 2
    let hit := decide (k ^ 2 * r.sum < q * r.cnt)
    let r1 := if hit then { r with hold := 4 } else if r.hold = 0 then r.push q else { r with hold := r.hold - 1 }
    let rest := impulses k xs r1
    (hit :: rest.1, rest.2)

/-- Each mark carried on over the 4 samples that follow. -/
def holdOn : Nat → List Bool → List Bool
  | _, [] => []
  | _, true :: r => true :: holdOn 4 r
  | 0, false :: r => false :: holdOn 0 r
  | n + 1, false :: r => true :: holdOn n r

/-- The samples zeroed: those marked with the 4 on each side (R350). -/
def zeroMarks (hits : List Bool) : List Bool :=
  (holdOn 0 hits).zipWith (· || ·) (holdOn 0 hits.reverse).reverse

/-- Real and imaginary part of a slot's Fourier transform at `f` kHz, 768 samples at 768 ksps being one turn a kHz (R349), in
fractions of 2^60; the sines come from their series (DEDUCED, log 24). -/
def dft (f : Nat) : Nat → List Int → Int × Int
  | _, [] => (0, 0)
  | n, x :: xs =>
    let r := dft f (n + 1) xs
    if x = 0 then r
    else
      let th := f * n % 768 * 2 ^ 32 / 768
      (r.1 + x * sineRef (th + 2 ^ 30), r.2 + x * sineRef th)

/-- TONE0 to TONE3 in kHz. -/
def toneKhz (s : State) : List Nat :=
  [cfgN s 0x51 0 0x004 7 0, cfgN s 0x51 0 0x004 15 8, cfgN s 0x51 0 0x004 23 16, cfgN s 0x51 0 0x004 31 24]

/-- The energy of each tone in a slot. -/
def toneEnergies (s : State) (xs : List Int) : List Nat :=
  (toneKhz s).map fun f => let r := dft f 0 xs; r.1.natAbs ^ 2 + r.2.natAbs ^ 2

/-- Samples and their marks cut into slots. -/
def cutSlots (s : State) : List (List Nat) → List (Int × Bool) → List SlotRx
  | [], _ => []
  | c :: cs, l =>
    let mine := l.take c.length
    let keep := mine.map fun p => if p.2 then 0 else p.1
    ⟨toneEnergies s keep, (mine.filter (·.2)).length, mine.length⟩ :: cutSlots s cs (l.drop c.length)

/-- The slots listed, blanked and transformed, and the mean square after them. -/
def rxSlots (s : State) (x : LlAir) : List SlotRx × Rms :=
  let all := x.samples.flatten.map adc
  let r := impulses (cfgN s 0x51 0 0x000 9 6) all ⟨s.ll.power.reverse, [], s.ll.power.sum, s.ll.power.length, 0⟩
  (cutSlots s x.samples (all.zip (zeroMarks r.1)), r.2)

/-- The learned noise of a segment, as a sum over a number of bins (R349); before any is learned it is free (log 24). -/
def noiseOf (s : State) (seg : Nat) : Nat × Nat :=
  let l := (s.ll.noise.toList.getD seg []).filter fun e => decide (s.mono < e.1 + 10000)
  let sum := (l.map (·.2.1)).sum
  if sum = 0 then (Config.firstNoise seg + 1, 1) else (sum, (l.map (·.2.2)).sum)

/-- The tone energies of a symbol: those of its copies weighted by the reciprocal of their segments' noise power, over the
common denominator (R349). -/
def symEnergies (s : State) (copies : List (Nat × SlotRx)) : List Nat :=
  let segs := (copies.map (·.1)).eraseDups
  let den := (segs.map fun g => (noiseOf s g).1).foldl (· * ·) 1
  (List.range 4).map fun k => (copies.map fun c =>
    let n := noiseOf s c.1
    c.2.energy.getD k 0 * n.2 * (den / n.1)).sum

/-- The tone of the largest energy (R349); of equal ones a free choice (log 24). -/
def largest (es : List Nat) : Nat :=
  ((List.range 4).foldl (fun (b : Nat) k =>
    if es.getD b 0 < es.getD k 0 || (decide (b < k ∧ es.getD b 0 = es.getD k 0) && Config.toneTie b k) then k else b) 0)

/-- Largest, and sum less both largest and second largest, of four energies. -/
def topTwo (es : List Nat) : Nat × Nat :=
  let b := es.foldl max 0
  (b, (es.erase b).foldl max 0)

/-- The margin of a copy in fractions of 2^32: largest less second largest, over the sum (R349). -/
def margin (es : List Nat) : Nat :=
  let p := topTwo es
  if es.sum = 0 then 0 else (p.1 - p.2) * 2 ^ 32 / es.sum

/-- A copy is blanked when more than half of its samples are zeroed (R350). -/
def SlotRx.blanked (x : SlotRx) : Bool := decide (x.total < 2 * x.zeroed)

/-- A symbol is blanked when more than half of the samples of all its copies together are zeroed (R350). -/
def SymRx.blanked (x : SymRx) : Bool :=
  decide ((x.copies.map (·.2.total)).sum < 2 * (x.copies.map (·.2.zeroed)).sum)

/-- The symbols read from the slots from `k` on under a map, at most `n` (R348, R349). -/
def readSyms (s : State) (m : Nat) : Nat → List SlotRx → Nat → List (Nat × SlotRx) → Nat → List SymRx
  | _, _, _, _, 0 => []
  | _, [], _, _, _ => []
  | k, x :: xs, sum, acc, n + 1 =>
    let w := slotWeight s m k
    if w = 0 then readSyms s m (k + 1) xs sum acc (n + 1)
    else
      let mine := (slotSeg s (k % nSlot s), x) :: acc
      if 12 ≤ sum + w then ⟨tonePair (largest (symEnergies s mine)), mine⟩ :: readSyms s m (k + 1) xs 0 [] n
      else readSyms s m (k + 1) xs (sum + w) mine (n + 1)

/-- The number that symbols spell, most significant pair first. -/
def symNat (l : List SymRx) : Nat := l.foldl (fun a x => a * 4 + x.pair) 0

/-- A frame read under a map: the symbols, header, payload and the slot after the last; `synced`, `good`: the sync word was found,
and it passes R352. -/
structure LlTry where
  syms : List SymRx
  header : Nat
  payload : Bytes
  stop : Nat
  synced : Bool
  sound : Bool
  good : Bool

/-- A frame read under a map whose sync word begins in slot `k` (R351, R352). `sound`: its CRC passes. -/
def readFrame (s : State) (m k : Nat) (slots : List SlotRx) : LlTry :=
  let syms0 := readSyms s m k slots 0 [] 32
  let synced := decide (syms0.length = 32 ∧ symNat (syms0.take 8) = 0x1ACF)
  let header := symNat (syms0.drop 8)
  let len := header / 2 ^ 5 % 128
  let d := 56 + 4 * min 64 len
  let syms := if synced then readSyms s m k slots 0 [] d else readSyms s m k slots 0 [] 56
  let bytes := toBe (min 64 len + 12) (symNat (syms.drop 8))
  let h := bytes.take 6
  let body := slice bytes 6 (min 64 len)
  let mac := slice bytes (6 + min 64 len) 4
  let sound := synced && decide (len ≤ 64 ∧ syms.length = d
    ∧ beNat (slice bytes (10 + min 64 len) 2) = crc16 (h ++ body ++ mac))
  { syms, header, payload := body, stop := (placeSyms s m 8000 k 0 d).getD k, synced, sound
    good := sound && decide (mac = llMac s h body ∧ 4 * (syms.filter (·.blanked)).length ≤ d) }

/-- A frame whose preamble begins in slot `k`, read under a map: the sync word is looked for within 4 slots of the preamble's
end (R352). -/
def tryMap (s : State) (slots : List SlotRx) (k m : Nat) : LlTry :=
  let tries := (List.range 5).map fun d => readFrame s m (k + 32 + d) (slots.drop (32 + d))
  (tries.find? (·.synced)).getD (readFrame s m (k + 32) (slots.drop 32))

/-- The maps a neighbour may send under: the one needed of it and the one before, raised by any STEP (R353, R360). -/
def mapsFrom (s : State) (a : Fin 34) : List Nat :=
  [s.ll.peer[a].map, s.ll.peer[a].oldMap].flatMap fun m => (List.range 3).map (raiseMap m)

/-- The neighbour whose frame is awaited: the first hop of the master's exchange, or the node a relay has forwarded to. -/
def llExpected (s : State) : Option (Fin 34) :=
  if s.ll.isMaster then match s.ll.exch with
    | some e => if e.waiting then (routeTo s e.dst).map fun r => firstHop r e.dst else none
    | none => none
  else s.ll.await

/-- The maps a frame is decoded under: those of the neighbour awaited, the announced BMAP and BMAP_SAFE (R355), those of the
neighbours heard. -/
def candidateMaps (s : State) : List Nat :=
  ((match llExpected s with
    | some a => mapsFrom s a
    | none => []) ++ [s.ll.annMap, bmapSafe]
    ++ ((List.finRange 34).filter fun a => s.ll.peer[a].heard).flatMap (mapsFrom s)).eraseDups

/-- The frame as decoded: under the map that passes R352, else under one that finds the sync word, else under the first. -/
def decodeLl (s : State) (slots : List SlotRx) (k : Nat) : LlTry :=
  let tries := (candidateMaps s).map (tryMap s slots k)
  ((tries.find? (·.good)).orElse fun _ => tries.find? (·.synced)).getD (tryMap s slots k bmapSafe)

/-- The fields of a header (Table 14-2). The node heard is the originator or the relay that HIDX names. -/
def LlTry.frame (h : LlTry) : LlRx :=
  let x := h.header
  let hidx := x / 2 ^ 40 % 4
  let src := x / 2 ^ 24 % 64
  let r1 := x / 2 ^ 18 % 64
  let r2 := x / 2 ^ 12 % 64
  { kind := x / 2 ^ 44, hops := x / 2 ^ 42 % 4, hidx, step := x / 2 ^ 38 % 4, more := x.testBit 37, dst := x / 2 ^ 30 % 64
    src, relay1 := r1, relay2 := r2, seq := x % 32, payload := h.payload
    sender := Fin.ofNat 34 (if hidx = 0 then src else if hidx = 1 then r1 else r2), stop := h.stop }

/-- The copies of a frame received in a segment. -/
def LlTry.inSeg (h : LlTry) (seg : Nat) : List SlotRx :=
  (h.syms.flatMap (·.copies)).filterMap fun c => if c.1 = seg then some c.2 else none

/-- At least 25 % of the copies in a segment were blanked or had a margin below MARGIN_MIN (R354). -/
def LlTry.bad (s : State) (h : LlTry) (seg : Nat) : Bool :=
  let l := h.inSeg seg
  let low := l.filter fun x => x.blanked || decide (margin x.energy < cfgN s 0x51 0 0x008 7 0 * 2 ^ 24)
  decide (0 < l.length ∧ l.length ≤ 4 * low.length)

/-- The segment of the lowest mean margin, the first of equal ones (R354). -/
def LlTry.weakest (h : LlTry) : Option Nat :=
  let mean := fun g => let l := h.inSeg g; (l.map fun x => margin x.energy).sum / l.length
  let have_ := (List.range 12).filter fun g => !(h.inSeg g).isEmpty
  have_.find? fun g => have_.all fun j => decide (mean g ≤ mean j)

/-- The segment errors of a frame (R354): a lost frame without any gives its weakest one. -/
def segErrors (s : State) (h : LlTry) (isLost : Bool) (seg : Fin 12) : Bool :=
  h.bad s seg || (isLost && h.weakest == some seg.val && !(List.range 12).any (h.bad s))

/-- All segments of a frame judged. -/
def segSteps (s : State) (a : Fin 34) (h : LlTry) (isLost : Bool) : State :=
  (List.finRange 12).foldl (fun t seg => segStep t a seg (segErrors s h isLost seg)) s

/-- A segment's noise with an entry more, those older than 10 s dropped. -/
def learn (now : Nat) (l : List (Nat × Nat × Nat)) (sum cnt : Nat) : List (Nat × Nat × Nat) :=
  let l := l.filter fun e => decide (now < e.1 + 10000)
  if cnt = 0 then l else (now, sum, cnt) :: l

/-- What the receiver learns from the slots listed: noise from the three undecided bins of the copies and the four of idle slots
(R349), the mean square, and the samples blanked (R350). -/
def learnNoise (s : State) (x : LlAir) (slots : List SlotRx) (r : Rms) (h : LlTry) : State :=
  let copies : List (Nat × Nat) := h.syms.flatMap fun y => y.copies.map fun c =>
    (c.1, c.2.energy.sum - c.2.energy.getD (pairTone y.pair) 0)
  let idle : List (Nat × Nat) := ((slots.take x.idle).zipIdx x.slot).map fun p => (slotSeg s (p.2 % nSlot s), p.1.energy.sum)
  let of := fun (l : List (Nat × Nat)) (g : Nat) => (l.filter (·.1 == g)).map (·.2)
  { s with ll := { s.ll with
    noise := Vector.ofFn fun g => learn s.mono s.ll.noise[g] ((of copies g).sum + (of idle g).sum)
      (3 * (of copies g).length + 4 * (of idle g).length)
    power := r.new ++ r.old.reverse
    blanks := (s.mono, (slots.map (·.zeroed)).sum, (slots.map (·.total)).sum)
      :: s.ll.blanks.filter fun e => decide (s.mono < e.1 + 1000) } }

/-- A frame that does not pass R352, at its intended receiver: the node that awaits one, or that a sound header names
(DEDUCED, log 24). -/
def loseFrame (s : State) (h : LlTry) : State :=
  let sender : Option (Fin 34) := match llExpected s with
    | some a => some a
    | none => if h.sound && llForUs s h.frame then some h.frame.sender else none
  match sender with
  | none => s
  | some a =>
    let t := llDiscard (segSteps s a h true)
    if t.ll.isMaster && llWaits t then loseExchange t else { t with ll := { t.ll with await := none } }

/-- A decoded frame acted on: a passing one judges the segments of its sender's map, which is then the one map (R353). -/
def judgeLl (s : State) (h : LlTry) : State :=
  if !h.good then loseFrame s h
  else
    let f := h.frame
    let s := { s with ll := { s.ll with busyTo := max s.ll.busyTo (slotTime s (f.stop - 1) + 1000) } }
    let t := updLlPeer s f.sender fun y => { y with oldMap := y.map }
    acceptLl (if llForUs s f then segSteps t f.sender h false else t) f

/-- LL_FRAME_RECEIVED (R349, R350, R352): not while this node sends (Table 14-3). -/
def execLlFrameReceived (x : LlAir) (s : State) : Out :=
  .next (if !llUp s || decide (slotTime s (x.slot + x.idle) < s.ll.sentTo) then s
    else
      let r := rxSlots s x
      let h := decodeLl s (r.1.drop x.idle) (x.slot + x.idle)
      judgeLl (learnNoise (useSlot s (linkSlot s) 1) x r.1 r.2 h) h)

/-- BLANK_FRAC: the samples zeroed over the last 1 s in 0.01 % (R350). -/
def blankFrac (s : State) : Nat :=
  let l := s.ll.blanks.filter fun e => decide (s.mono < e.1 + 1000)
  let n := (l.map (·.2.2)).sum
  if n = 0 then 0 else (l.map (·.2.1)).sum * 10000 / n

/-- LL_PATH_LOST (R362): at a node that is not the master, 750 ms without a valid master frame. -/
def execLlPathLost (s : State) : Out :=
  .next (if linksUp s && s.landfall.hostReady && !s.ll.pathLost && !s.ll.isMaster
      && decide (s.ll.beaconAt.getD 0 + 750 ≤ s.mono) then
    logDetect { s with ll := { s.ll with pathLost := true } } 0x0703 .helm 0
    else s)

/-- LL_PATH_CLEAR (R362): after 5 s of valid master frames. -/
def execLlPathClear (s : State) : Out :=
  .next (if s.ll.pathLost && (match s.ll.beaconAt with
      | some b => decide (s.mono < b + 750 ∧ s.ll.validFrom + 5000 ≤ s.mono)
      | none => false) then
    logClear { s with ll := { s.ll with pathLost := false } } 0x0703 .helm 0 else s)

/-- LL_MAP_STEP_DOWN (R354): STEPDN_T without an error in the segment, and every further STEPDN_T. -/
def execLlMapStepDown (a : Fin 34) (seg : Fin 12) (s : State) : Out :=
  .next (
    let x := s.ll.peer[a]
    if x.heard && decide (0 < mapEntry x.map seg ∧ x.errAt[seg] + cfgN s 0x51 0 0x008 31 24 * 1000 ≤ s.mono) then
      noteStep (updLlPeer s a fun y => { y with
        map := mapSet y.map seg (mapEntry y.map seg - 1), oldMap := x.map, errAt := y.errAt.set seg s.mono }) a
    else s)

/-! ### Answering and relaying (R356 to R360) -/

/-- A cost as a NEIGH report gives it. -/
def neighCost (s : State) (a : Fin 34) : Nat :=
  if s.ll.dead.contains (llAddr s, a.val) then 0xFF else mapCost s s.ll.peer[a].map

/-- The NEIGH report of this node: every neighbour heard and the cost of the map needed from it. -/
def neighList (s : State) : List (Nat × Nat) :=
  ((List.finRange 34).filter fun a => s.ll.peer[a].heard).map fun a => (a.val, neighCost s a)

/-- LL_REPLY_SEND (R356, R360): a NEIGH report once every 60 s, spread over turns by MORE; else content, whose bytes
below RXMAP the manual does not lay out (free, log 24). The route back is the poll's, reversed. -/
def execLlReplySend (s : State) : Out :=
  .next (if !llSends s then s
    else match s.ll.reply with
    | none => s
    | some f =>
      let room := (f.payload.getD 0 0).toNat - 3
      let rx := toBe 3 s.ll.peer[f.sender].map
      let m := raiseMap s.ll.peer[f.sender].told f.step
      let r := if f.hops = 3 then (f.relay2, f.relay1) else (f.relay1, f.relay2)
      let s := { s with ll := { s.ll with reply := none } }
      let due := decide (s.ll.neighAt + 60000 ≤ s.mono)
      if due || !s.ll.neighLeft.isEmpty then
        let l := if s.ll.neighLeft.isEmpty then neighList s else s.ll.neighLeft
        let now := l.take (room / 2)
        let left := l.drop (room / 2)
        let t := { s with ll := { s.ll with neighAt := if due then s.mono else s.ll.neighAt, neighLeft := left } }
        sendLl t (answerSlot s) 3 f.hops f.step (!left.isEmpty) f.src r.1 r.2
          (rx ++ (now.map fun p => [BitVec.ofNat 8 p.1, BitVec.ofNat 8 p.2]).flatten) m
      else
        let n := (Config.unstated 356 s.free).toNat % (room + 1)
        let d := drawBytes s n
        sendLl d.2 (answerSlot s) 2 f.hops f.step (Config.freeBit d.2.free) f.src r.1 r.2 (rx ++ d.1) m)

/-- LL_RELAY_FORWARD (R359): a POLL downstream with this node's TXMAP, after which its reply is awaited; a REPLY or NEIGH
upstream unchanged. -/
def execLlRelayForward (s : State) : Out :=
  .next (if !llSends s then s
    else match s.ll.toRelay with
    | none => s
    | some f =>
      let next : Fin 34 := Fin.ofNat 34 ((LlHops f).getD (f.hidx + 1) 0)
      let p := if f.kind = 1 then f.payload.take 1 ++ toBe 3 s.ll.peer[next].map ++ f.payload.drop 4 else f.payload
      let h := llHeader f.kind f.hops (f.hidx + 1) f.step f.more f.dst f.src f.relay1 f.relay2 p.length f.seq
      let g := llFrame s h p s.ll.peer[next].told (answerSlot s)
      useSlot { s with ll := { s.ll with
        toRelay := none, relayed := some g, sentTo := g.endsAt
        await := if f.kind = 1 then some next else s.ll.await } } (linkSlot s) 1)

/-! ### The master (R355 to R358, R360, R361) -/

/-- The nodes polled in a cycle, ascending: the standby, and the workers the site model enables (log 24). -/
def pollNodes (s : State) : List Nat :=
  ((if llAddr s = 0 then [1] else if llAddr s = 1 then [0] else [])
    ++ (List.range (enabled s).length).map (· + 2)).filter fun a => (routeTo s a).isSome

/-- The BMAP of a cycle (R355): the highest entries reported, skip as robust6; BMAP_SAFE without a report. -/
def cycleBmap (s : State) : Nat :=
  let rs := s.ll.peer.toList.filterMap (·.reported)
  if rs.isEmpty then bmapSafe
  else (List.range 12).foldl (fun a seg =>
    a + min 2 ((rs.map fun m => mapEntry m seg).foldl max 0) * 4 ^ seg) 0

/-- REPLY_MAX (R357): the largest LEN whose reply ends in time, first within 250 ms, then within 600 ms of the poll. -/
def replyMax (s : State) (start stop m : Nat) : Nat :=
  let k := firstSlot s (slotTime s (firstSlot s (stop + 2000)) + 1000)
  let t0 := slotTime s start
  let fits := fun (limit len : Nat) => match frameEnd s m 700 k len with
    | some e => decide (e ≤ t0 + limit)
    | none => false
  let best := fun limit => ((List.range 62).map fun d => 64 - d).find? (fits limit)
  match best 248000 with
  | some l => l
  | none => (best 598000).getD 0

/-- A POLL sent at the next slot R356 allows. Its content is the EPOCH (R375). -/
def sendPoll (s : State) (bm step dst : Nat) (r : Nat × Nat × Nat) (tx : Nat) (ask : Bool) : State :=
  let start := firstSlot s (max (slotTime s s.ll.pollSlot + 250000) (s.ll.busyTo + 2000))
  let stop := (frameEnd s bm 4000 start 8).getD (slotTime s start)
  let rm := if ask then replyMax s start stop (raiseMap tx step) else 0
  let t := { s with ll := { s.ll with pollSlot := start, busyTo := stop } }
  sendLl t start 1 r.1 step false dst r.2.1 r.2.2 (toBe 1 rm ++ toBe 3 tx ++ toBe 4 s.mgr.epoch) bm

/-- The poll of a node, first or retried (R356, R360). -/
def pollNode (s : State) (a step : Nat) : State :=
  match routeTo s a with
  | none => { s with ll := { s.ll with exch := none } }
  | some r =>
    let t := sendPoll s s.ll.bmap step a r (s.ll.peer[firstHop r a]).map true
    { t with ll := { t.ll with turn := a + 1, exch := some ⟨a, step, 1, true⟩ } }

/-- The cycle's first frame (R355). -/
def openCycle (s : State) : State :=
  let bm := cycleBmap s
  let t := { s with ll := { s.ll with bmap := bm, annMap := bm, cycleOpen := true, turn := 0, exch := none } }
  sendPoll t bmapSafe 0 63 (1, 0, 0) bm false

/-- LL_POLL_ROUND (R356, R358): a retry, a beacon poll while a relayed exchange is under way, the next node, or the
next cycle's first frame. -/
def execLlPollRound (s : State) : Out :=
  .next (if !(llSends s && s.ll.isMaster && acting s) then s
    else match s.ll.exch with
    | some e =>
      if !e.waiting then pollNode s e.dst e.step
      else match routeTo s e.dst with
        | some r => if e.round < 2 * r.1 - 1 then
            let t := sendPoll s s.ll.bmap 0 63 (1, 0, 0) s.ll.bmap false
            { t with ll := { t.ll with exch := some { e with round := e.round + 1 } } }
          else s
        | none => s
    | none =>
      if !s.ll.cycleOpen then openCycle s
      else match (pollNodes s).find? fun a => s.ll.turn ≤ a with
        | some a => pollNode s a 0
        | none => openCycle s)

/-- LL_REPLY_WAIT_END (R357, R360). -/
def execLlReplyWaitEnd (s : State) : Out :=
  .next (if s.ll.isMaster && llWaits s then
    loseExchange { s with ll := { s.ll with busyTo := slotTime s (answerSlot s) + 8000 } }
    else s)

/-- The cost of the link between two nodes (R361); none if it is unusable or unknown. -/
def linkCost (s : State) (a b : Nat) : Option Nat :=
  let me := llAddr s
  let oneWay := fun (x y : Nat) =>
    if x = me then match s.ll.peer.toList[y]? with
      | some p => if p.heard then some (mapCost s p.map) else none
      | none => none
    else match s.ll.links.find? fun l => l.1 == x && l.2.1 == y with
      | some l => some l.2.2
      | none => if y = me then (match s.ll.peer.toList[x]? with
          | some p => p.reported.map (mapCost s)
          | none => none) else none
  if s.ll.dead.contains (a, b) || s.ll.dead.contains (b, a) then none
  else match oneWay a b, oneWay b a with
    | some p, some q => if max p q = 0xFF then none else some (max p q)
    | _, _ => none

/-- The better of two routes (R361): least cost, fewer hops, lower relays in order. -/
def betterRoute (a b : LlRoute) : LlRoute :=
  let lt := decide (b.cost < a.cost) || (decide (b.cost = a.cost) && (decide (b.hops < a.hops)
    || (decide (b.hops = a.hops) && (decide (b.relay1 < a.relay1)
      || (decide (b.relay1 = a.relay1) && decide (b.relay2 < a.relay2))))))
  if a.hops = 0 || lt then b else a

/-- The candidate routes to a node: at most 3 hops over distinct relays. -/
def candidates (s : State) (d : Nat) : List LlRoute :=
  let me := llAddr s
  let rel := (List.range 34).filter fun a => a != me && a != d
  let one := match linkCost s me d with
    | some c => [(⟨1, d, 0, 0, c⟩ : LlRoute)]
    | none => []
  let two := rel.filterMap fun a => match linkCost s me a, linkCost s a d with
    | some p, some q => some (⟨2, d, a, 0, p + q⟩ : LlRoute)
    | _, _ => none
  let three := rel.flatMap fun a => match linkCost s me a with
    | none => []
    | some p => rel.filterMap fun b => if a = b then none else match linkCost s a b, linkCost s b d with
      | some q, some r => some (⟨3, d, a, b, p + q + r⟩ : LlRoute)
      | _, _ => none
  one ++ two ++ three

/-- The routing table rebuilt (R361); it stays empty until the first NEIGH report. -/
def rebuild (s : State) : State :=
  if s.ll.links.isEmpty then s
  else { s with ll := { s.ll with
    route := Vector.ofFn fun k => (candidates s (k + 2)).foldl betterRoute {} } }

/-- LL_ROUTE_REBUILD (R361). -/
def execLlRouteRebuild (s : State) : Out := .next (if s.ll.isMaster then rebuild s else s)

/-- A route uses the link between two nodes. -/
def routeUses (s : State) (r : LlRoute) (a b : Nat) : Bool :=
  let p := if r.hops = 1 then [llAddr s, r.dst] else if r.hops = 2 then [llAddr s, r.relay1, r.dst]
    else if r.hops = 3 then [llAddr s, r.relay1, r.relay2, r.dst] else []
  (p.zip p.tail).any fun l => l == (a, b) || l == (b, a)

/-- This node's own link to a neighbour is unusable: 30 s without a valid frame across it, or an infinite cost (R361). -/
def ownLinkGone (s : State) (a : Fin 34) : Bool :=
  s.ll.peer[a].heard && (decide (s.ll.peer[a].heardAt + 30000 ≤ s.mono) || mapCost s s.ll.peer[a].map == 0xFF)

/-- LL_LINK_UNUSABLE (R361): a link in use that becomes unusable rebuilds the table at once. A link between two other nodes is
known by the cost they report. -/
def execLlLinkUnusable (a b : Fin 34) (s : State) : Out :=
  .next (
    let me := llAddr s
    let own := (a.val == me && ownLinkGone s b) || (b.val == me && ownLinkGone s a)
    let told := s.ll.links.any fun l => (l == (a.val, b.val, 0xFF) || l == (b.val, a.val, 0xFF))
    let t := if own then
        { s with ll := { s.ll with dead := (a.val, b.val) :: s.ll.dead.filter (· ≠ (a.val, b.val)) } }
      else s
    if (own || told) && s.ll.isMaster && s.ll.route.toList.any fun r => routeUses s r a b then rebuild t else t)

end Sys2Proof.Machine
end

