-- ==== Sys2Proof/Machine/Lookout.lean ====
section
/-!
DEFINITION. Lookout's commands (R296 to R323, R489): inputs, cross-comparison, outputs and feedback, contactors, locks,
resets, the holster test, and Sounding.
-/
namespace Sys2Proof.Machine

/-! ### Inputs and channels -/

/-- The lines of an input accepted (R302): a fault is held until both lines have shown demand together and then run. -/
def acceptLines (s : State) (n : Fin 16) (a b : Bool) (x : SafeIn) : SafeIn :=
  let d := lineDemand s n a b
  let seen := x.bothSeen || (d.1 && d.2)
  let free : InSt := if d.1 || d.2 then .demand else .run
  match x.st with
  | .demand => { x with a := a, b := b, st := free }
  | .run => { x with a := a, b := b, st := free }
  | f => if seen && !d.1 && !d.2 then { x with a := a, b := b, st := .run, bothSeen := false, tpBad := Vector.replicate 4 false }
    else { x with a := a, b := b, st := f, bothSeen := seen }

/-- The µs for which a line must have held a level before the change is accepted: FILT, and for a low level of an OSSD input
OSSD_TPW besides (R303). -/
def filterUs (s : State) (n : Fin 16) (level : Bool) : Nat :=
  cfgN s 0x40 (0x10 + n) 0x000 15 12 * 250 + if siType s n = 3 ∧ level = false then cfgN s 0x40 (0x10 + n) 0x000 11 4 * 10 else 0

/-- A line after its filter. -/
def filtered (s : State) (n : Fin 16) (old new : Bool) (heldUs : Nat) : Bool :=
  if filterUs s n new ≤ heldUs then new else old

/-- ISTATE kept 100 ms since it began, or since the holster test began to count (R314). -/
def held100 (s : State) (n : Fin 16) (o : Fin 2) : Bool :=
  decide (max s.lk.si[n].since (s.lk.outlet[o]).holsterAt + 100 ≤ s.mono)

/-- An input that has shown demand for 100 ms without a fault counts for the holster test of the outlet that uses it (R314). -/
def noteHolster (s : State) (n : Fin 16) (o : Fin 2) : State :=
  if cfgB s 0x40 (0x30 + o) 0x000 13 && decide (cfgN s 0x40 (0x30 + o) 0x000 31 28 = n ∧ s.lk.si[n].st = .demand)
      && held100 s n o then
    updLko s o fun x => { x with holster := max 1 x.holster }
  else s

/-- A demand of RESET_SI that ends in run is a press (R312). -/
def notePress (s t : State) (n : Fin 16) : State :=
  if cfgN s 0x40 0 0x020 28 25 = n ∧ inDemand s n = true ∧ inDemand t n = false then
    { t with lk := { t.lk with press := some (s.mono - s.lk.si[n].since) } }
  else t

/-- ISTATE's last change dated. -/
def stampInput (s t : State) (n : Fin 16) : State :=
  if t.lk.si[n].st = s.lk.si[n].st then t else updSi t n fun x => { x with since := s.mono }

/-- SAFETY_INPUT_CHANGE (R302, R303): the levels of both lines, each held for `heldUs`. -/
def execSafetyInputChange (n : Fin 16) (a b : Bool) (heldUs : Nat) (s : State) : Out :=
  .next (
    let x := s.lk.si[n]
    let t := noteHolster (noteHolster s n 0) n 1
    let t := updSi t n (acceptLines s n (filtered s n x.a a heldUs) (filtered s n x.b b heldUs))
    let t := if t.lk.si[n].st = .run then clearFaults t .lookout fun c i => c == 0x0603 && i == n.val else t
    settle s (stampInput s (notePress s t n) n))

/-- DISCREPANCY_FAULT (R302). -/
def execDiscrepancyFault (n : Fin 16) (s : State) : Out :=
  .next (
    let x := s.lk.si[n]
    let d := lineDemand s n x.a x.b
    if d.1 == d.2 then s
    else
      let t := updSi s n fun x => { x with st := .discrepancy, bothSeen := false, discCnt := satInc 8 x.discCnt }
      settle s (logDetect (stampInput s t n) 0x0603 .lookout n))

/-- An input of type 1 or 2 whose lines are fed from TPA[k] and TPB[k] (R304). -/
def fedBy (s : State) (n : Fin 16) (k : Nat) : Bool :=
  (siType s n == 1 || siType s n == 2) && cfgB s 0x40 (0x10 + n) 0x000 29 && cfgN s 0x40 (0x10 + n) 0x000 28 27 == k

/-- TPA[k] or TPB[k] is low, `us` µs after the period timer began (R304). -/
def testPulseLow (s : State) (k : Fin 4) (sideB : Bool) (us : Nat) : Bool :=
  let per := cfgN s 0x40 0 0x020 24 15 * 1000
  let at_ := (k.val + if sideB then 4 else 0) * per / 8
  decide (at_ ≤ us % per ∧ us % per < at_ + cfgN s 0x40 0 0x020 14 7 * 10)

/-- One fed input judged on a pulse (R304): its own line must read low in a sample, the other, if high, in none
(DEDUCED, log 91). A failure in two consecutive periods is a test-pulse fault. -/
def judgePulse (s : State) (sideB : Bool) (samples : List (BitVec 16 × BitVec 16)) (n : Fin 16) : State :=
  let x := s.lk.si[n]
  let low := fun (b : Bool) => samples.any fun p => !(if b then p.2 else p.1).getLsbD n
  let own := !low sideB
  let cross := (if sideB then x.a else x.b) && low !sideB
  let i : Fin 4 := if sideB then 1 else 0
  let j : Fin 4 := if sideB then 2 else 3
  let bad := (own && x.tpBad[i]) || (cross && x.tpBad[j])
  let t := updSi s n fun y => { y with tpBad := upd (upd y.tpBad i fun _ => own) j fun _ => cross }
  if bad then
    let u := updSi t n fun y => { y with st := .testPulse, bothSeen := false, tpCnt := satInc 8 y.tpCnt }
    logDetect (stampInput s u n) 0x0603 .lookout n
  else t

/-- TEST_PULSE (R304): the samples of SIA[15:0] and SIB[15:0] inside a pulse of TPA[k] or TPB[k]. -/
def execTestPulse (k : Fin 4) (sideB : Bool) (samples : List (BitVec 16 × BitVec 16)) (s : State) : Out :=
  .next (settle s (((List.finRange 16).filter fun n => fedBy s n k && !suspended s 9).foldl (fun t n => judgePulse t sideB samples n) s))

/-- CROSS_COMPARE_EXCHANGE (R297): what channels A and B present. -/
def execCrossCompareExchange (a b : LkImage) (s : State) : Out :=
  .next (if s.lk.runA && s.lk.runB then
    let d := a.inputs ^^^ b.inputs
    let t := { s with lk := { s.lk with inputDiff := d } }
    if a.fns ≠ b.fns ∨ a.outs ≠ b.outs ∨ d &&& s.lk.inputDiff ≠ 0 then
      settle s (logDetect { t with lk := { t.lk with xcmp := true, xcmpCnt := satInc 16 t.lk.xcmpCnt } } 0x0204 .lookout 0)
    else t
    else s)

/-- A channel's watch of the safe sources begins anew with the channel (R334). -/
def clearChan (s : State) (ch : Fin 2) : State :=
  { s with safe := { s.safe with chan := upd s.safe.chan ch fun _ => freshChan s.mono } }

/-- LOOKOUT_CHANNEL_RESTART (R298): the other channel holds outputs off; the holster tests are required again. -/
def execLookoutChannelRestart (ch : Fin 2) (s : State) : Out :=
  .next (
    let t := if ch = 0 then { s with lk := { s.lk with runA := true } } else { s with lk := { s.lk with runB := true } }
    let t := { t with lk := { t.lk with
      restarting := true, agreed := false, inputDiff := 0, restartCnt := satInc 16 t.lk.restartCnt } }
    let t := updLko (updLko t 0 fun x => { x with holster := 0, holsterAt := s.mono }) 1 fun x =>
      { x with holster := 0, holsterAt := s.mono }
    settle s (logDetect (clearChan t ch) 0x0204 .lookout ch))

/-- CHANNELS_AGREED (R298): the period timer of the test pulses begins anew (R304). -/
def execChannelsAgreed (s : State) : Out :=
  .next (if s.lk.runA && s.lk.runB then
    settle s (clearFaults { s with lk := { s.lk with agreed := true, restarting := false, tpAt := s.mono } } .lookout
      fun c _ => c == 0x0204 || c == 0x0302 || memCode c) else s)

/-! ### Outputs and feedback -/

/-- A fault of an output latched; the first stays (SO_FAULT). -/
def faultOut (s : State) (n : Fin 8) (k : Nat) : State :=
  updSo s n fun x => { (x.off s.mono) with fault := if x.fault = 0 then k else x.fault }

/-- A readback fault (R306): an output pad that differs keeps its level while the output is switched off. -/
def readbackFault (s : State) (n : Fin 8) (sideB level : Bool) : State :=
  let t := faultOut s n 1
  logDetect (updSo t n fun x => if sideB then { x with sol := level } else { x with soh := level }) 0x0604 .lookout n

/-- OFF_TEST (R305, R306): none within T_FB after a change of the command; a side that does not read low is stuck high,
a side that does follows its command. -/
def execOffTest (n : Fin 8) (sideB ok : Bool) (s : State) : Out :=
  .next (if soKind s n = 0 ∨ s.mono < s.lk.so[n].since + tFb s n ∨ suspended s 8 = true then s
    else if ok then updSo s n fun x => if sideB then { x with sol := x.cmd } else { x with soh := x.cmd }
    else settle s (readbackFault s n sideB true))

/-- OUTPUT_READBACK_FAULT (R306). -/
def execOutputReadbackFault (n : Fin 8) (sideB : Bool) (s : State) : Out :=
  .next (if soKind s n = 0 then s else settle s (readbackFault s n sideB (!s.lk.so[n].cmd)))

/-- The outlet whose contactor an output drives. -/
def contactorOutlet (s : State) (n : Fin 8) : Option (Fin 2) :=
  match soKind s n with
  | 1 => some 0
  | 2 => some 1
  | _ => none

/-- A weld (R307, R309): SF10, BLOCKED, and the outlet's fault. -/
def weld (s : State) (n : Fin 8) : State :=
  let t := logDetect (faultOut s n 3) 0x0602 .lookout n
  match contactorOutlet s n with
  | some o => setPilots (outletFault (updLko t o fun x => { x with blocked := true }) o .weld)
  | none => t

/-- FEEDBACK_TIMEOUT (R307): T_FB after a command, with what FBA and FBB read (high: main open). -/
def execFeedbackTimeout (n : Fin 8) (a b : Bool) (s : State) : Out :=
  .next (
    if soKind s n = 0 ∨ s.mono < s.lk.so[n].since + tFb s n then s
    else if !fbEn s n || (!s.lk.so[n].cmd && suspended s 16) then
      settle s (updSo s n fun x => { x with confOn := x.cmd, confOff := !x.cmd })
    else
      let t := updSo s n fun x => { x with fba := a, fbb := b }
      if s.lk.so[n].cmd then
        if a || b then settle s (logDetect (faultOut t n 2) 0x0601 .lookout n)
        else settle s (updSo t n fun x => { x with confOn := true })
      else if a && b then settle s (updSo t n fun x => { x with confOff := true })
      else settle s (weld t n))

/-- LATE_WELD (R307): a line reads closed-main while the output has stayed off for longer than T_FB. -/
def execLateWeld (n : Fin 8) (a b : Bool) (s : State) : Out :=
  .next (if fbEn s n && !suspended s 16 && decide (soKind s n ≠ 0 ∧ s.lk.so[n].since + tFb s n < s.mono) && !s.lk.so[n].cmd && !(a && b) then
    settle s (weld (updSo s n fun x => { x with fba := a, fbb := b, confOff := false }) n) else s)

/-- FEEDBACK_DISCREPANCY (R307). -/
def execFeedbackDiscrepancy (n : Fin 8) (a b : Bool) (s : State) : Out :=
  .next (if fbEn s n && decide (soKind s n ≠ 0 ∧ a ≠ b) then
    settle s (logDetect (faultOut (updSo s n fun x => { x with fba := a, fbb := b }) n 4) (Config.eventCode 307) .lookout n)
    else s)

/-! ### Contactors, locks, requests -/

/-- Helm asks for the close only while the two readings of the vehicle voltage agree, Meridian's being fresh, and the
precharged output lies within 10 V of the vehicle's (R28, R29): `vOut` in mV. -/
def helmMayClose (s : State) (o : Fin 2) (vOut : Nat) : Bool :=
  match outletStage s o with
  | some g => readingsAgree s g o && decide (((vOut : Int) * unit31 / 1000 - vVeh s g).natAbs ≤ 10 * unit31)
  | none => false

/-- The Sextant output voltage of an outlet's stage, in mV. -/
def vOutMv (s : State) (o : Fin 2) : Nat :=
  match outletStage s o with
  | some g => (vOut s g * 1000 / unit31).toNat
  | none => 0

/-- CONTACTOR_CLOSE_REQUEST (R29, R308, Table 12-4a): the request carries the Sextant output voltage. -/
def execContactorCloseRequest (o : Fin 2) (s : State) : Out :=
  .next (
    let v := vOutMv s o
    if !helmMayClose s o v then s
    else if closeWaits s o then updLko s o fun x => { x with wait := some ⟨v⟩ }
    else settle s (judgeClose s o v))

/-- CONTACTOR_OPEN_REQUEST (R126). -/
def execContactorOpenRequest (o : Fin 2) (s : State) : Out := .next (settle s (openContactors s o))

/-- CLOSE_REQUEST_EXPIRY (R323): refused, by the number 7 (log 16). -/
def execCloseRequestExpiry (o : Fin 2) (s : State) : Out :=
  .next (if (s.lk.outlet[o]).wait.isSome then updLko s o fun x => { x with wait := none, refused := 7 } else s)

/-- LOCK_REQUEST (R169): Helm asks on entry to AUTHORISED; an outlet of type none leaves the pin unused (R148). -/
def execLockRequest (o : Fin 2) (s : State) : Out :=
  .next (if s.outlet[o].st = .authorised ∧ outType s o ≠ 0 then settle s (driveLock s o) else s)

/-- UNLOCK_REQUEST (R169, SF5): asked for in UNLOCK or FAULTED. -/
def execUnlockRequest (o : Fin 2) (s : State) : Out :=
  .next (if s.outlet[o].st = .unlock ∨ s.outlet[o].st = .faulted then settle s (askUnlock s o) else s)

/-- From ISOLATION_TEST to DISCHARGE (R169). -/
def OutSt.locked : OutSt → Bool
  | .unlock => false
  | x => x.energised

/-- LOCK_FB_LOST (R169): from ISOLATION_TEST to DISCHARGE a fault with cause LOCK; SF6 acts. -/
def execLockFbLost (o : Fin 2) (s : State) : Out :=
  .next (
    let t := updLko s o fun x => { x with lockFb := false }
    settle s (if t.outlet[o].st.locked then outletFault t o .lock else t))

/-- OUTPUT_KIND_REQUEST (R313). -/
def execOutputKindRequest (kind : Fin 8) (on : Bool) (s : State) : Out :=
  .next (match kind.val with
    | 3 => settle s { s with lk := { s.lk with kind3 := on } }
    | 4 => settle s { s with lk := { s.lk with kind4 := on } }
    | _ => s)

/-- SF1, SF9 and XCMP_LATCH reset, each only once its trigger has gone (R312). -/
def resetModule (s : State) : State :=
  { s with lk := { s.lk with sf1 := s.lk.sf1 && sf1Demand s, sf9 := s.lk.sf9 && sf9Demand s, xcmp := false } }

/-- RESET_PRESS (R312): a press that lasted from 0.1 s to 5 s, with the input back in run. -/
def execResetPress (s : State) : Out :=
  .next (
    let n : Fin 16 := Fin.ofNat 16 (cfgN s 0x40 0 0x020 28 25)
    let t := { s with lk := { s.lk with press := none } }
    if cfgB s 0x40 0 0x020 29 && s.lk.press.any (fun ms => decide (100 ≤ ms ∧ ms ≤ 5000)) && !inDemand s n then
      settle s (resetModule t)
    else t)

/-- HOLSTER_TEST_SEEN (R314): demand has been shown for 100 ms, and run after it. -/
def execHolsterTestSeen (o : Fin 2) (s : State) : Out :=
  .next (if cfgB s 0x40 (0x30 + o) 0x000 13 && !suspended s 15 && !outletInput s o 13 31 28 && decide ((s.lk.outlet[o]).holster = 1)
      && held100 s (Fin.ofNat 16 (cfgN s 0x40 (0x30 + o) 0x000 31 28)) o then
    settle s (updLko s o fun x => { x with holster := 2 }) else s)

/-- LANDFALL_COMPLETE_MESSAGE (R489). -/
def execLandfallCompleteMessage (s : State) : Out :=
  .next (if s.landfall.phase = 9 then settle s { s with lk := { s.lk with landfallDone := true } } else s)

/-- LANDFALL_START_MESSAGE (R489). -/
def execLandfallStartMessage (s : State) : Out := .next (settle s { s with lk := { s.lk with landfallDone := false } })

/-- SEXTANT_RESET_SEEN (R489). -/
def execSextantResetSeen (s : State) : Out := .next (settle s { s with lk := { s.lk with landfallDone := false } })

/-! ### Sounding -/

/-- One outlet's Sounding replaced by its image. -/
def updSnd (s : State) (o : Fin 2) (f : Sounding → Sounding) : State := updLko s o fun x => { x with snd := f x.snd }

/-- The ms in each half of the last 20 % of a half-period (R319). -/
def halfMs (s : State) : Nat := 500 / max 1 (cfgN s 0x40 0 0x028 31 24)

/-- The sum of the common-mode voltages U+ + U− over some ms, in units of SND_VK nV (R319, R321). -/
def cmSum (l : List Nat) : Int := (l.sum : Int) - 1200000 * l.length

/-- A half-period's mean of an outlet in mV, with whether it settled: the means of the two halves of its last 20 % differ by
less than 1 % of the greater (DEDUCED, log 18). -/
def halfPeriod (s : State) (o : Fin 2) (cm : List Nat) (low : Bool) : HalfPeriod :=
  let n := halfMs s
  let a := cmSum ((cm.drop n).take n)
  let b := cmSum (cm.take n)
  ⟨roundDiv ((a + b) * cfgN s 0x40 (0x30 + o) 0x00C 15 0) (4000 * n), decide (2 * n ≤ cm.length)
    && decide (a = b ∨ 100 * (a - b).natAbs < max a.natAbs b.natAbs), low⟩

/-- SOUNDING_HALF_PERIOD (R319): the half-period of both outlets ends, and ISO_INJ changes. -/
def execSoundingHalfPeriod (s : State) : Out :=
  .next (
    let next := fun (t : State) (o : Fin 2) => updSnd t o fun x =>
      { x with halves := (halfPeriod s o x.cm (!s.lk.inj) :: x.halves).take 8, cm := [] }
    let t := next (next s 0) 1
    { t with lk := { t.lk with inj := !s.lk.inj } })

/-- R_ISO from a step ΔU in mV, in units of 100 Ω; `none` is open (R319). -/
def rIsoOf (s : State) (o : Fin 2) (dU : Nat) : Option Nat :=
  let inj := cfgN s 0x40 0 0x028 15 0 * 1000
  if inj ≤ dU then none else some (cfgN s 0x40 (0x30 + o) 0x00C 31 16 * 10 * dU / (inj - dU))

/-- The value of the period that the last two half-periods make: `none` when one did not settle (DEDUCED, log 18). -/
def periodValue (s : State) (o : Fin 2) : Option (Option Nat) :=
  match (s.lk.outlet[o]).snd.halves with
  | h :: k :: _ => if h.settled && k.settled then some (rIsoOf s o (h.mean - k.mean).natAbs) else none
  | _ => none

/-- R_ISO of a period is at least a limit in Ω/V times V_MAX (R320); open is. -/
def reaches (s : State) (o : Fin 2) (limit : Nat) : Option Nat → Bool
  | none => true
  | some r => decide (limit * cfgN s 0x20 o 0x004 31 16 ≤ r * 1000)

/-- The verdict of the last two periods (R320): a fall counts once both show it (DEDUCED, log 18); until there are two the last
verdict is held. -/
def verdictOf (s : State) (o : Fin 2) (old : Verdict × Bool) (recent : List (Option (Option Nat))) (unsettled : Nat) :
    Verdict × Bool :=
  match recent with
  | some p :: some q :: _ =>
    let warn := cfgN s 0x40 (0x30 + o) 0x008 31 16
    let trip := cfgN s 0x40 (0x30 + o) 0x008 15 0
    if reaches s o warn p || reaches s o warn q then (.pass, false)
    else if reaches s o trip p || reaches s o trip q then (.warning, false)
    else (.trip, true)
  | _ :: _ :: _ => (.unsettled, decide (4 ≤ unsettled))
  | _ => old

/-- The isolation test's voltage has been reached and is held (R160). -/
def atTestVoltage (s : State) (o : Fin 2) : Bool :=
  decide (s.outlet[o].isoStep = 2 ∨ s.outlet[o].isoStep = 3) && match outletStage s o with
    | some g => s.sx.stage[g].vGoal.isNone
    | none => true

/-- What a verdict means in ISOLATION_TEST (R160), where the self-test comes first (R322), and in ENERGY_TRANSFER, where a
WARNING that begins is logged (R320). -/
def tellVerdict (s : State) (o : Fin 2) (old v : Verdict) (trip : Bool) : State :=
  match s.outlet[o].st with
  | .isolationTest =>
    if trip || v == .warning then (if s.outlet[o].isoStep < 4 then outletFault s o .insulation else s)
    else if v = .pass ∧ atTestVoltage s o = true ∧ (s.lk.outlet[o]).snd.stDue = false then updOutlet s o fun x => { x with soundPass := true }
    else s
  | .energyTransfer => if v = .warning ∧ old ≠ .warning then logInfo s (Config.eventCode 320) .lookout o else s
  | _ => s

/-- SOUNDING_VERDICT (R320): held during a self-test (R322). -/
def execSoundingVerdict (o : Fin 2) (s : State) : Out :=
  .next (
    let x := (s.lk.outlet[o]).snd
    if x.stRun then s
    else
      let p := periodValue s o
      let recent := (p :: x.recent).take 2
      let uns := if p.isNone then x.unsettled + 1 else 0
      let v := verdictOf s o (x.verdict, x.trip) recent uns
      let t := updSnd s o fun y =>
        { y with recent := recent, unsettled := uns, verdict := v.1, trip := v.2
                 rIso := p.getD y.rIso }
      settle s (tellVerdict t o x.verdict v.1 v.2))

/-- A pole voltage in mV, as the mean of what its pin read: SND_VK volts per volt about a bias of 0.6 V. -/
def poleMv (s : State) (o : Fin 2) (pins : List Nat) : Int :=
  roundDiv (((pins.sum : Int) - 600000 * pins.length) * cfgN s 0x40 (0x30 + o) 0x00C 15 0) (1000 * max 1 pins.length)

/-- POLE_VOLTAGE_SAMPLE (R319, R321): what the two ISO_SNS pins of an outlet read over the last ms, in µV, within 0 V to 1.2 V;
U+ and U− are 4 ms means. -/
def execPoleVoltageSample (o : Fin 2) (p n : Nat) (s : State) : Out :=
  .next (
    let x := s.lk.outlet[o]
    let now : Nat × Nat := (min 1200000 p, min 1200000 n)
    let pins := (now :: x.pins).take 4
    let up := poleMv s o (pins.map (·.1))
    let un := poleMv s o (pins.map (·.2))
    settle s (updLko s o fun x =>
      { x with pins := pins, uP := up, uN := un, vL := up - un
               snd := { x.snd with cm := ((now.1 + now.2) :: x.snd.cm).take 1000 } }))

/-- The self-test load is added (R322). -/
def startSelfTest (s : State) (o : Fin 2) : State :=
  updSnd s o fun x => { x with stRun := true, stCnt := satInc 16 x.stCnt, rPrev := x.rIso }

/-- SOUNDING_SELFTEST_START (R322). -/
def execSoundingSelftestStart (o : Fin 2) (s : State) : Out := .next (if suspended s 10 then s else startSelfTest s o)

/-- The pass band of R322: from 0.9 × (TEST_RES ∥ R_prev) to 1.1 × TEST_RES, compared in units of 100 Ω. -/
def selfTestPasses (s : State) (o : Fin 2) (r : Nat) : Bool :=
  let t := cfgN s 0x40 (0x30 + o) 0x010 31 16 * 10
  let lo := match (s.lk.outlet[o]).snd.rPrev with
    | some p => decide (9 * t * p ≤ 10 * r * (t + p))
    | none => decide (9 * t ≤ 10 * r)
  lo && decide (10 * r ≤ 11 * t)

/-- SOUNDING_SELFTEST_END (R322): after its two periods, on the R_ISO of the last; one that did not settle or reads open does
not pass. -/
def execSoundingSelftestEnd (o : Fin 2) (s : State) : Out :=
  .next (
    let x := (s.lk.outlet[o]).snd
    if !x.stRun then s
    else
      let ok := match periodValue s o with
        | some (some r) => selfTestPasses s o r
        | _ => false
      let t := updSnd s o fun y => { y with stRun := false, stFail := !ok, stDue := y.stDue && !ok, recent := [] }
      settle s (if ok then (if x.stFail then logClear t 0x0605 .lookout o else t) else logDetect t 0x0605 .lookout o))

/-- SOUNDING_SELFTEST_RETRY (R322). -/
def execSoundingSelftestRetry (o : Fin 2) (s : State) : Out :=
  .next (if (s.lk.outlet[o]).snd.stFail && !(s.lk.outlet[o]).snd.stRun then startSelfTest s o else s)

end Sys2Proof.Machine
end

