-- ==== Sys2Proof/Machine/Manager.lean ====
section
/-!
DEFINITION. The manager's and the worker's commands (R366 to R383).
-/
namespace Sys2Proof.Machine

/-! ### Worker -/

/-- DR_STATE's and AFE3's bits of a STATUS (R366). -/
def wflags (s : State) : Nat :=
  flag ((afeStages s).any fun g => decide (s.sx.stage[g].st = .run)) + 2 * s.wrk.drState

/-- This worker's STATUS message (R366). -/
def myStatus (s : State) : StatusMsg :=
  let dem := fun o => outletDemand s o
  { node := nodeId s, epoch := s.wrk.epoch, count := (s.wrk.count + 1) % 2 ^ 32, demand := dem 0 + dem 1
    capacity := frontCapacity s, guar := min (pGuar s 0) (dem 0) + min (pGuar s 1) (dem 1), wflags := wflags s
    health := healthWord s % 65536 }

/-- This worker's STATUS sent, where it can send (R366). -/
def sendStatus (s : State) : State :=
  if s.landfall.role == 0 && helmRuns s && s.landfall.hostReady && linksUp s then
    let m := myStatus s
    sendCtrl { s with wrk := { s.wrk with count := m.count, reportDue := false } } 0xFFFF
      (ctrlHead m.epoch false 3 0 m.count 0 ++ statusBody m)
  else s

/-- WORKER_STATUS_SEND (R366). -/
def execWorkerStatusSend (s : State) : Out := .next (sendStatus s)

/-- A report of a fallen capacity that is due (R366). -/
def reportCapacity (s : State) : State := if s.wrk.reportDue then sendStatus s else s

/-- A worker's reaction to an ALLOC or CURTAIL message (R371). -/
def workerAlloc (s : State) (m : AllocMsg) : State :=
  let same := m.epoch == s.wrk.epoch && m.rank == s.wrk.rank
  let newer := match s.wrk.cycle with
    | some c => seqNewer m.cycle c
    | none => true
  if !pairLe s.wrk.epoch s.wrk.rank m.epoch m.rank || (same && !newer) then
    { s with wrk := { s.wrk with fenced := satInc 16 s.wrk.fenced } }
  else
    let t := if same then s else { s with wrk := { s.wrk with epoch := m.epoch, rank := m.rank, cycle := none } }
    match m.entries.find? (·.node == nodeId s) with
    | none => t
    | some e =>
      let u := { t with wrk := { t.wrk with
        cycle := some m.cycle, node := m.node, last := some e.alloc, lastAt := s.mono } }
      let u := setAlloc u e.alloc 0
      (afeStages u).foldl (fun v g => updAux v g fun a =>
        { a with phTgt := e.syncPh, roseChanged := a.roseChanged || decide (a.phTgt ≠ e.syncPh ∧ a.phEff ≠ e.syncPh) }) u

/-- Two allocations of the shadow comparison differ (R380): by more than 1 % or 5 kW, whichever is larger. -/
def differs (a b : Nat) : Bool := decide (max 500 b < 100 * (a - b + (b - a)))

/-- The standby's shadow comparison (R380): `mine` is its own table, the message carries the active manager's; both are logged,
as far as the record holds them (DEDUCED, log 57). -/
def shadowCompare (s : State) (m : AllocMsg) (mine : Vector Nat 32) : State :=
  let bad := m.entries.any fun e => (enabled s).any fun w => smNode s w == e.node && differs mine[w] e.alloc
  let run := if bad then min 3 (s.mgr.shadowRun + 1) else 0
  let t := { s with mgr := { s.mgr with
    shadowRun := run, agreeFrom := if bad then none else some (s.mgr.agreeFrom.getD s.mono) } }
  if run = 3 ∧ s.mgr.shadowDiff = false then
    let detail := (m.entries.map fun e => toBe 4 e.alloc).flatten ++ (mine.toList.map (toBe 4)).flatten
    logRec { t with mgr := { t.mgr with shadowDiff := true, shadowCnt := satInc 16 t.mgr.shadowCnt } }
      (Config.eventCode 380) .helm 2 0 (detail.take 40)
  else t

/-- The standby's reaction to an ALLOC or CURTAIL message (R380): compared where INPUT_CRC agrees, then held as the
allocation published (DEDUCED, log 57). -/
def standbyAlloc (s : State) (m : AllocMsg) : State :=
  let mine := if m.curtail then curtailed s (targets s) else ramped s (targets s)
  let t := if m.inputCrc = inputCrc s then shadowCompare s m mine else s
  let a : Vector Nat 32 := Vector.ofFn fun w =>
    match m.entries.find? fun e => smEn s w && smNode s w == e.node with
    | some e => e.alloc
    | none => (s.mgr.worker[w]).alloc
  let t := setAllocs t a
  { t with mgr := { t.mgr with cycle := m.cycle, heardHigh := max t.mgr.heardHigh m.epoch } }

/-- What a module makes of an ALLOC or CURTAIL message (R371, R380, R383): an acting manager yields to a higher pair. -/
def hearAlloc (s : State) (m : AllocMsg) : State :=
  if s.landfall.role == 0 then workerAlloc s m
  else if isManager s && decide (s.mgr.role = .standby) then standbyAlloc s m
  else if isManager s then yieldTo { s with mgr := { s.mgr with heardHigh := max s.mgr.heardHigh m.epoch } } m.epoch m.rank
  else s

/-- ALLOC_MESSAGE_RX (R371, R380): the oldest such message. -/
def execAllocMessageRx (s : State) : Out :=
  .next (if !helmRuns s || !linksUp s then s
    else match takeHeard s fun h => h.isCtrl [1, 2] with
    | some (h, t) => hearAlloc t h.alloc
    | none => s)

/-- DEAD_RECKONING_TICK (R372). -/
def execDeadReckoningTick (s : State) : Out :=
  .next (if s.landfall.role == 0 && helmRuns s && s.landfall.hostReady then
    match s.wrk.last with
    | none => setAlloc s (pSafe s) 3
    | some p => let r := drAlloc s (s.mono - s.wrk.lastAt) p; setAlloc s r.1 r.2
    else s)

/-! ### Manager -/

/-- A manager without the token that waits for quorum, once it has it: it takes the token after listening (R377), or
listens again if it was FENCED (R376) (DEDUCED, log 56). -/
def onQuorum (s : State) : State :=
  if !quorum s then s
  else
    let t := { s with mgr := { s.mgr with noQuorum := false } }
    if s.mgr.role = .fenced then
      { t with mgr := { t.mgr with role := .listening, roleAt := s.mono, listens := 0, heardActive := false } }
    else if s.mgr.role = .listening ∧ s.mgr.heardActive = false ∧ s.mgr.listens = (if myRank s then 1 else 2) then
      takeToken t
    else t

/-- AFE3's bit of a STATUS (R366). -/
def afeRuns (m : Option StatusMsg) : Bool := match m with
  | some m => m.wflags % 2 == 1
  | none => false

/-- A worker's STATUS taken by a manager (R366, R373, R376). -/
def takeStatus (s : State) (m : StatusMsg) : State :=
  match (enabled s).find? fun (w : Fin 32) => smNode s w == m.node with
  | some w =>
    let t := { s with mgr := { s.mgr with
      rejoin := s.mgr.rejoin || afeRuns (s.mgr.worker[w]).status != afeRuns (some m) } }
    onQuorum (updWorker t w fun x => { x with status := some m, at_ := s.mono })
  | none => s

/-- WORKER_STATUS_RX (R366, R376): the oldest such message. -/
def execWorkerStatusRx (s : State) : Out :=
  .next (if isManager s && helmRuns s && linksUp s then
    match takeHeard s fun h => h.isCtrl [3] with
    | some (h, t) => takeStatus t h.status
    | none => s
    else s)

/-- ALLOC_CYCLE (R367 to R369); with a reversion pending, the release waits for REVERT_RELEASE (R382). -/
def execAllocCycle (s : State) : Out :=
  .next (if acting s && helmRuns s && linksUp s then publish s 1 else s)

/-- SHADOW_DIFF_CLEAR (R380): after 60 s of agreeing compared cycles. -/
def execShadowDiffClear (s : State) : Out :=
  .next (if s.mgr.shadowDiff && (match s.mgr.agreeFrom with | some t => decide (t + 60000 ≤ s.mono) | none => false) then
    logClear { s with mgr := { s.mgr with shadowDiff := false, shadowRun := 0 } } (Config.eventCode 380) .helm 0
    else s)

/-- The body of a PARAM message: P_SITE, then NODE_ID, CLASS and a zero byte per enabled worker (PRESUMED, log 23). -/
def paramBody (s : State) : Bytes :=
  toBe 4 s.mgr.pSite ++ ((enabled s).map fun (w : Fin 32) => toBe 2 (smNode s w) ++ toBe 1 s.mgr.cls[w] ++ toBe 1 0).flatten

/-- The active manager sends the LIVE site parameters (R369); the standby's node is not given (log 23). -/
def sendParam (s : State) : State :=
  sendCtrl s (Config.unstated 369 0).toNat
    (ctrlHead s.mgr.epoch (myRank s) 4 (enabled s).length s.mgr.cycle 0 ++ paramBody s)

/-- The LIVE site parameters that the standby holds (R369, Table 15-5) (PRESUMED, log 23). -/
def holdParam (s : State) (m : ParamMsg) : State :=
  let c : Vector Nat 32 := Vector.ofFn fun w =>
    match m.classes.find? fun p => smEn s w && p.1 == smNode s w with
    | some p => p.2
    | none => s.mgr.cls[w]
  { s with mgr := { s.mgr with pSite := m.pSite, cls := c, heardHigh := max s.mgr.heardHigh m.epoch } }

/-- PARAM_MESSAGE (R369): sent by the active manager, or the oldest one received taken by the standby. -/
def execParamMessage (sent : Bool) (s : State) : Out :=
  .next (if !(helmRuns s && linksUp s) then s
    else if sent then if acting s then sendParam s else s
    else match takeHeard s fun h => h.isCtrl [4] with
    | some (h, t) => if isManager s && decide (s.mgr.role = .standby) then holdParam t h.param else t
    | none => s)

/-- The workers of a transformer group whose AFE3 stage runs, in ascending NODE_ID (R373). -/
def groupOrder (s : State) (grp : Nat) : List (Fin 32) :=
  byNode s ((enabled s).filter fun w => cfgN s 0x60 (w + 1) 0x000 28 24 == grp &&
    match (s.mgr.worker[w]).status with
    | some m => m.wflags % 2 == 1
    | none => false)

/-- The offset of the k-th of n posts with c cells (R373). -/
def interleave (k n c : Nat) : Nat := (roundDiv (k * 65536) (n * c) % 65536).toNat

/-- INTERLEAVE_RECOMPUTE (R373): after a change of a WFLAGS[0], at most once a second, in the standby's shadow table too;
a worker outside the order keeps its offset. -/
def execInterleaveRecompute (s : State) : Out :=
  .next (if isManager s && decide (s.mgr.role = .standby ∨ s.mgr.role = .active ∨ s.mgr.role = .releasing) && s.mgr.rejoin
      && (match s.mgr.leaveAt with | some t => decide (t + 1000 ≤ s.mono) | none => true) then
    let s := { s with mgr := { s.mgr with rejoin := false, leaveAt := some s.mono } }
    (List.range 32).foldl (fun t grp =>
      if grp = 0 then t
      else
        let o := groupOrder s grp
        (o.zipIdx).foldl (fun u p =>
          let c := cfgN s 0x60 (p.1 + 1) 0x000 23 19
          if c = 0 then u else updWorker u p.1 fun x => { x with syncPh := interleave p.2 o.length c }) t) s
    else s)

/-- MANAGER_BEACON_RX (R375, R378, R383): the oldest beacon of the other manager without RELEASE. -/
def execManagerBeaconRx (s : State) : Out :=
  .next (if isManager s && helmRuns s && linksUp s then
    match takeHeard s fun h => h.cls == .beacon && !h.releases with
    | some (h, t) => hearManager t h.beacon
    | none => s
    else s)

/-- When a path was last heard, or the role began. -/
def lastHeard (s : State) (x : Option Nat) : Nat := x.getD s.mgr.roleAt

/-- The instant of the declaration of R378: no Turxel beacon for 50 ms on either port and no Log-line beacon for 750 ms. -/
def declaredAt (s : State) : Nat := max (lastHeard s s.mgr.peerTxl + 50) (lastHeard s s.mgr.peerLl + 750)

/-- PEER_LOST (R383): the other manager's beacons are lost on both paths. -/
def execPeerLost (s : State) : Out :=
  .next (if isManager s && helmRuns s && !s.mgr.peerLost && decide (declaredAt s ≤ s.mono) then
    logDetect { s with mgr := { s.mgr with peerLost := true } } 0x0705 .external 0
    else s)

/-- QUORUM_LOST (R376): after 1,200 ms without quorum an acting manager releases and enters FENCED. -/
def execQuorumLost (s : State) : Out :=
  .next (if isManager s && helmRuns s && !quorum s && decide (quorumEnd s + 1200 ≤ s.mono) then
    let t := { s with mgr := { s.mgr with noQuorum := true } }
    if acting s then stopActing (sendBeacon t true false true) .fenced else t
    else s)

/-- A manager that listened and heard an ACTIVE beacon becomes the standby (R377). -/
def becomeStandby (s : State) : State :=
  { s with mgr := { s.mgr with role := .standby, roleAt := s.mono, listens := 0, heardActive := false } }

/-- LISTEN_END (R377): 1,500 ms of listening (DEDUCED, log 56). -/
def execListenEnd (s : State) : Out :=
  .next (if isManager s && helmRuns s && decide (s.mgr.role = .listening ∧ s.mgr.listens = 0 ∧ s.mgr.roleAt + 1500 ≤ s.mono) then
    if s.mgr.heardActive then becomeStandby s else onQuorum { s with mgr := { s.mgr with listens := 1 } }
    else s)

/-- ALTERNATE_LISTEN_END (R377): a further 1,500 ms. -/
def execAlternateListenEnd (s : State) : Out :=
  .next (if isManager s && helmRuns s && !myRank s
      && decide (s.mgr.role = .listening ∧ s.mgr.listens = 1 ∧ s.mgr.roleAt + 3000 ≤ s.mono) then
    if s.mgr.heardActive then becomeStandby s else onQuorum { s with mgr := { s.mgr with listens := 2 } }
    else s)

/-- STANDBY_TAKEOVER (R378): 20 ms after the later of the lease's expiry and the declaration, both still holding: token, beacon
with ACTIVE and RENEW, ALLOC from the shadow inputs, Log-line master. -/
def execStandbyTakeover (s : State) : Out :=
  .next (if isManager s && helmRuns s && decide (s.mgr.role = .standby) && quorum s
      && decide (max (s.mgr.leaseAt + 1200) (declaredAt s) + 20 ≤ s.mono) then
    let t := takeToken s
    if t.mgr.role = .active then
      let u := sendBeacon { t with mgr := { t.mgr with renewIn := 29 } } true true false
      publish (logMasked u 0x0704 .external 0) 1
    else t
    else s)

/-- TOKEN_RELEASE (R379): red health; a release commanded through FW_ACTIVATE is part of that command
(DEDUCED, log 56). -/
def execTokenRelease (s : State) : Out := .next (if healthGreen s then s else releaseToken s)

/-- RELEASE_RX (R379): the oldest beacon with RELEASE, whatever the RANK of the sender (DEDUCED, log 56). -/
def execReleaseRx (s : State) : Out :=
  .next (if isManager s && helmRuns s && linksUp s then
    match takeHeard s fun h => h.cls == .beacon && h.releases with
    | some (h, t) => hearManager t h.beacon
    | none => s
    else s)

/-- HEALTH_REPORT (R381). -/
def execHealthReport (s : State) : Out :=
  .next (if isManager s && helmRuns s && linksUp s && !suspended s 14 then sendBulk s 3 (healthReport s) else s)

/-- A millisecond of a manager's health (R382): a red spell restarts the 60 s, and with them the request. -/
def healthTick (s : State) : State :=
  if !isManager s || healthGreen s then s
  else { s with mgr := { s.mgr with
    redAt := s.mono, tokenReq := s.mgr.tokenReq && !(myRank s && decide (s.mgr.role = .standby)) } }

/-- TOKEN_REQUEST_SET (R382): a preferred standby, green for 60 s, with REVERT_EN. -/
def execTokenRequestSet (s : State) : Out :=
  .next (if isManager s && myRank s && helmRuns s && decide (s.mgr.role = .standby) && cfgB s 0x60 0 0x00C 31
      && healthGreen s && decide (s.mgr.redAt + 60000 ≤ s.mono) then
    { s with mgr := { s.mgr with tokenReq := true } } else s)

/-- REVERT_RELEASE (R382): the alternate publishes its cycle, sends RELEASE, and goes on publishing. -/
def execRevertRelease (s : State) : Out :=
  .next (if isManager s && !myRank s && helmRuns s && decide (s.mgr.role = .active) && s.mgr.tokenReq then
    let t := sendBeacon (publish s 1) true false true
    { t with mgr := { t.mgr with role := .releasing, roleAt := s.mono } }
    else s)

/-- REVERT_TIMEOUT (R382): 300 ms after the release. -/
def execRevertTimeout (s : State) : Out :=
  .next (if decide (s.mgr.role = .releasing ∧ s.mgr.roleAt + 300 ≤ s.mono) then stopActing s .standby else s)

end Sys2Proof.Machine
end

