-- ==== Sys2Proof/Machine/Turxel.lean ====
section
/-!
DEFINITION. The Turxel links' commands (R325 to R341, R375): PHY polls, received frames, safe telegrams, fallback, path
health, PTP and network requests.
-/
namespace Sys2Proof.Machine

/-- H-NET has its clock (Table 18-2), and the MACs are not off (Table 20-4). -/
def netRuns (s : State) : Bool := !s.flt.island[2].lost && !s.flt.island[2].off && decide (s.pwr.rung.code < 3)

/-! ### Path health (R325, R337) -/

/-- PATH_LOST set: logged and reported. -/
def pathLost (s : State) (p : Fin 2) : State :=
  if s.txl.port[p].pathLost then s
  else logDetect (updTxlPort s p fun x => { x with pathLost := true }) 0x0702 .helm p

/-- The clause 22 read of the PHY's status register, 1: start 01, read 10, PHY_ADDR, register (R325) (PRESUMED, log 58). -/
def mdioRead (s : State) (p : Fin 2) : Nat := 6 * 2 ^ 10 + cfgN s 0x50 (1 + p) 0x000 4 0 * 2 ^ 5 + 1

/-- PHY_STATUS_POLL (R325): only 100 and 1000 Mbit/s full duplex count as link up; link down is PATH_LOST (R337), and the run
of valid beacons begins anew with the link. -/
def execPhyStatusPoll (p : Fin 2) (link : Bool) (speed : Nat) (duplex : Bool) (s : State) : Out :=
  .next (if txlEn s p && netRuns s && s.landfall.hostReady then
    let up : Bool := link && duplex && decide (speed = 100 ∨ speed = 1000)
    let t := updTxlPort s p fun x => { x with
      mdio := mdioRead s p, link := up, speed := decide (speed = 1000) && up
      beaconFrom := if x.link then x.beaconFrom else s.mono }
    if up then t else pathLost t p
    else s)

/-- PATH_LOST (R337): the link down, or 50 ms without a valid beacon. -/
def execPathLost (p : Fin 2) (s : State) : Out :=
  .next (if txlEn s p && s.landfall.hostReady && (!s.txl.port[p].link || decide (s.txl.port[p].beaconAt + 50 ≤ s.mono)) then
    pathLost s p else s)

/-- PATH_LOST_CLEAR (R337): 1 s of valid beacons with the link up. -/
def execPathLostClear (p : Fin 2) (s : State) : Out :=
  .next (
    let x := s.txl.port[p]
    if x.pathLost && x.link && decide (s.mono < x.beaconAt + 50 ∧ x.beaconFrom + 1000 ≤ s.mono) then
      logClear (updTxlPort s p fun x => { x with pathLost := false }) 0x0702 .helm p
    else s)

/-! ### Received frames (R326 to R330) -/

/-- The EtherTypes a port accepts (R326). -/
def etherOk (s : State) (e : Nat) : Bool :=
  e == cfgN s 0x50 0 0x000 31 16 || e == 0x88F7 || e == 0x86DD
    || (cfgB s 0x50 0 0x010 1 && (e == 0x0800 || e == 0x0806))

/-- The length of a frame with header, tag and FCS is within R326. -/
def sizeOk (f : TxlFrame) : Bool := decide (14 + (if f.tagged then 4 else 0) + f.body.length + 4 ≤ 1522)

/-- A Turxel frame's fields (Table 13-1): `signed` is what LINK_MAC covers. -/
structure TxlRx where
  cls : TxlClass
  portB : Bool
  site : Nat
  src : Nat
  dst : Nat
  lseq : Nat
  payload : Bytes
  signed : Bytes
  mac : Bytes

/-- The fields of a Turxel frame; none of another version or class, or one shorter than LEN says, which is dropped uncounted
(DESIGN CHOICE, log 58). -/
def parseTxl (b : Bytes) : Option TxlRx :=
  let vc := beNat (slice b 0 1)
  let len := beNat (slice b 2 2)
  match if vc / 16 = 1 then classOf (vc % 16) else none with
  | none => none
  | some c =>
    let mac := if c = .host then 0 else 8
    if 1460 < len ∨ b.length < 16 + len + mac then none
    else some { cls := c, portB := (b.getD 1 0).getLsbD 0, site := beNat (slice b 4 2), src := beNat (slice b 6 2)
                dst := beNat (slice b 8 2), lseq := beNat (slice b 10 4), payload := slice b 16 len
                signed := b.take (16 + len), mac := slice b (16 + len) mac }

/-- The last LSEQ accepted from a source, in a class, on a port. -/
def lastSeen (s : State) (src cls : Nat) (p : Fin 2) : Option LseqSeen :=
  s.txl.seen.find? fun x => x.src == src && x.cls == cls && x.port == p

/-- R330's order check: newer than the last accepted, or none accepted for 2 s. -/
def lseqOk (s : State) (f : TxlRx) (p : Fin 2) : Bool :=
  match lastSeen s f.src f.cls.code p with
  | some x => seqNewer f.lseq x.lseq || decide (x.at_ + 2000 ≤ s.mono)
  | none => true

/-- The other port has already brought this frame (Table 13-2). -/
def otherCopy (s : State) (f : TxlRx) (p : Fin 2) : Bool :=
  match lastSeen s f.src f.cls.code (1 - p) with
  | some x => x.recent.any fun r => r.1 == f.lseq && decide (s.mono < r.2 + 2000)
  | none => false

/-- A frame's LSEQ noted as the last accepted. -/
def noteSeen (s : State) (p : Fin 2) (f : TxlRx) : State :=
  let mine := fun (x : LseqSeen) => x.src == f.src && x.cls == f.cls.code && x.port == p
  let past := match lastSeen s f.src f.cls.code p with
    | some x => x.recent.filter fun r => decide (s.mono < r.2 + 2000)
    | none => []
  { s with txl := { s.txl with seen :=
      ⟨f.src, f.cls.code, p, f.lseq, s.mono, (f.lseq, s.mono) :: past⟩ :: s.txl.seen.filter fun x => !mine x } }

/-- SRC is a worker of the site model. -/
def isWorkerNode (s : State) (n : Nat) : Bool := (enabled s).any fun w => smNode s w == n

/-- KIND of a CTRL payload (Table 15-1). -/
def ctrlKind (b : Bytes) : Nat := beNat (slice b 4 1) / 2 % 8

/-- Helm acts on the message: ALLOC and CURTAIL everywhere, STATUS, PARAM and the other manager's beacons at a manager, which
tells them by a SRC outside its site model (DEDUCED, log 58). -/
def actedOn (s : State) (f : TxlRx) : Bool :=
  match f.cls with
  | .ctrl => decide (ctrlKind f.payload = 1 ∨ ctrlKind f.payload = 2) || isManager s
  | .beacon => isManager s && !isWorkerNode s f.src
  | _ => false

/-- A valid beacon on a port (R337). -/
def noteBeacon (s : State) (p : Fin 2) : State :=
  updTxlPort s p fun x => { x with
    beaconAt := s.mono, beaconFrom := if x.beaconAt + 50 ≤ s.mono then s.mono else x.beaconFrom }

/-- An accepted frame recorded and handed to its class (Table 13-2) (DEDUCED, log 58). -/
def acceptTxl (s : State) (p : Fin 2) (f : TxlRx) : State :=
  let t := noteSeen s p f
  let hand := { t with txl := { t.txl with
    handed := some (f.cls.code, f.src, f.lseq)
    inbox := t.txl.inbox ++ if actedOn s f then [⟨f.cls, f.src, f.payload⟩] else [] } }
  match f.cls with
  | .safe => { hand with txl := { hand.txl with fwd := hand.txl.fwd ++ [(p, ⟨f.payload, f.portB, s.mono⟩)] } }
  | .host => if f.src = cfgN s 0x50 0 0x008 25 16 then hand else t
  | .ctrl => if otherCopy s f p then t else hand
  | .bulk => hand
  | .beacon => noteBeacon hand p

/-- The class is received now: SAFE while H-NET runs, on port A alone in mode 1 (R336), not in a chart hold (R43); the
other classes while Helm runs (Table 13-5) (DEDUCED, log 58). -/
def classOpen (s : State) (p : Fin 2) (f : TxlRx) : Bool :=
  match f.cls with
  | .safe => linksUp s && (cfgN s 0x40 0x40 0x000 31 30 != 1 || p == 0)
  | _ => helmRuns s && s.landfall.hostReady

/-- A parsed frame checked as R330 says: SITE_ID, the key and LINK_MAC in every class but HOST, DST, LSEQ. -/
def judgeTxl (s : State) (p : Fin 2) (f : TxlRx) : State :=
  if !classOpen s p f then s
  else if f.site ≠ siteId s then updTxlPort s p fun x => { x with drop := satInc 16 x.drop }
  else match s.txl.key, f.cls with
  | none, .host => if f.dst ≠ nodeId s ∧ f.dst ≠ 0xFFFF then s
    else if !lseqOk s f p then updTxlPort s p fun x => { x with seqFail := satInc 16 x.seqFail } else acceptTxl s p f
  | none, _ => s
  | some key, c =>
    let t := if c = .host then s else useSlot s (linkSlot s) 1
    if c ≠ .host ∧ f.mac ≠ (hmac key f.signed).take 8 then updTxlPort t p fun x => { x with macFail := satInc 16 x.macFail }
    else if f.dst ≠ nodeId s ∧ f.dst ≠ 0xFFFF then t
    else if !lseqOk s f p then updTxlPort t p fun x => { x with seqFail := satInc 16 x.seqFail }
    else acceptTxl t p f

/-- TURXEL_FRAME_RX (R326, R330). -/
def execTurxelFrameRx (p : Fin 2) (f : TxlFrame) (s : State) : Out :=
  .next (
    if !txlEn s p || !netRuns s then s
    else if !etherOk s f.etype || !sizeOk f then updTxlPort s p fun x => { x with drop := satInc 16 x.drop }
    else if f.etype ≠ cfgN s 0x50 0 0x000 31 16 then s
    else match parseTxl f.body with
    | some x => judgeTxl s p x
    | none => s)

/-- SAFE_FRAME_FORWARD (R329, R333): the oldest accepted SAFE frame of a port handed to both channels with its ingress port and
arrival time, Helm running or not (R24). -/
def execSafeFrameForward (p : Fin 2) (s : State) : Out :=
  .next (match s.txl.fwd.find? fun c => c.1 == p with
    | some c =>
      if netRuns s then
        let t := { s with txl := { s.txl with fwd := s.txl.fwd.erase c } }
        let push := fun (x : SafeChan) => { x with inbox := x.inbox ++ [c] }
        { t with safe := { t.safe with chan := upd (upd t.safe.chan 0 push) 1 push } }
      else s
    | none => s)

/-! ### Safe telegrams (R331 to R336) -/

/-- SAFE_SID. -/
def safeSid (s : State) : Nat := cfgN s 0x40 0x40 0x000 15 0

/-- SAFE_MODE. -/
def safeMode (s : State) : Nat := cfgN s 0x40 0x40 0x000 31 30

/-- SCODE over the first 28 bytes of a telegram (Table 13-3). -/
def scode (s : State) (b : Bytes) : Nat := crc32c (toBe 4 (cfgN s 0x40 0x40 0x004 31 0) ++ b.take 28)

/-- SRC_SID of a telegram. -/
def copySrc (t : SafeCopy) : Nat := beNat (slice t.bytes 0 2)
/-- DST_SID of a telegram. -/
def copyDst (t : SafeCopy) : Nat := beNat (slice t.bytes 2 2)
/-- SSEQ of a telegram. -/
def copySseq (t : SafeCopy) : Nat := beNat (slice t.bytes 4 4)
/-- KIND of a telegram. -/
def copyKind (t : SafeCopy) : Nat := beNat (slice t.bytes 16 1)

/-- LK_STATE (Table 12-5) (DEDUCED, log 55). -/
def lkState (s : State) : Nat :=
  if s.lk.restarting then 4
  else if !(s.lk.runA && s.lk.runB && s.lk.agreed && s.lk.landfallDone) then 0
  else if !safetyConfirmed s then 1
  else if s.lk.sf1 || s.lk.sf9 || s.lk.xcmp then 3 else 2

/-- Safety function `f` is in demand (LK_STATUS.SF_DEMAND). -/
def sfDemand (s : State) (f : Nat) : Bool :=
  match f with
  | 1 => sf1Demand s
  | 3 => sf3Demand s
  | 5 => (List.finRange 2).any fun o => let x := s.lk.outlet[o]; x.unlockAsked && x.lock && !sf5Ok s o
  | 7 => (List.finRange 2).any fun o => outletInput s o 12 27 24
  | 9 => sf9Demand s
  | _ => (List.finRange 2).any fun o => (outletFns s o).contains f

/-- Safety function `f` is latched (LK_STATUS.SF_LATCHED). -/
def sfLatched (s : State) (f : Nat) : Bool :=
  match f with
  | 1 => s.lk.sf1
  | 7 => s.lk.sf7[0] || s.lk.sf7[1]
  | 9 => s.lk.sf9
  | 10 => s.lk.outlet[0].blocked || s.lk.outlet[1].blocked
  | _ => false

/-- Bits f − 1 for f from 1 to 10. -/
def sfBits (p : Nat → Bool) : Nat := ((List.range 10).map fun k => p (k + 1)).foldr (fun b a => flag b + 2 * a) 0

/-- The telegram of the present cycle (R331, R332). -/
def telegram (s : State) (sseq : Nat) : Bytes :=
  let stop := s.lk.sf1 && cfgB s 0x40 0 0x020 30
  let b := toBe 2 (safeSid s) ++ toBe 2 0xFFFF ++ toBe 4 sseq ++ toBe 8 s.now ++ toBe 1 (if stop then 2 else 1)
    ++ toBe 1 (lkState s) ++ toBe 2 (sfBits (sfDemand s)) ++ toBe 8 0
  b ++ toBe 4 (scode s b)

/-- SAFE_TELEGRAM_CYCLE (R332): both channels hand over the same telegram; port A alone carries it in mode 1. None is
sent in a chart hold (R43) or while Lookout restarts (R440). -/
def execSafeTelegramCycle (s : State) : Out :=
  .next (if s.lk.runA && s.lk.runB && !s.lk.restarting && !s.fw[2].activating && linksUp s && netRuns s then
    let sseq := (s.safe.sseq + 1) % 2 ^ 32
    let b := telegram s sseq
    let t := { s with safe := { s.safe with sseq := sseq, sentA := b, sentB := if safeMode s = 1 then [] else b } }
    sendTxl t .safe true (decide (safeMode s ≠ 1)) 0xFFFF b
    else s)

/-- One channel's side of the safe telegrams replaced by its image. -/
def updChan (s : State) (ch : Fin 2) (f : SafeChan → SafeChan) : State :=
  { s with safe := { s.safe with chan := upd s.safe.chan ch f } }

/-- The enabled entry that watches a SID (R333). -/
def peerOf (s : State) (sid : Nat) : Option (Fin 16) :=
  (List.finRange 16).find? fun k => peerEn s k && cfgN s 0x40 0x40 (0x010 + 4 * k) 15 0 == sid

/-- A copy or pair delivered: its entry's watchdog restarts and its KIND is judged (R333, R334). -/
def deliver (s : State) (ch : Fin 2) (k : Fin 16) (t : SafeCopy) : State :=
  let x := (s.safe.chan[ch]).peer[k]
  let newer := match x.last with
    | some l => seqNewer (copySseq t) l || x.expired
    | none => true
  if newer then updChan s ch fun c => { c with peer := upd c.peer k fun y =>
    { y with last := some (copySseq t), got := true, expired := false, stop := copyKind t == 2, fed := s.mono } }
  else s

/-- The counters of the telegram path are kept once, from channel A's view (Table 13-7: values read are channel A's)
(DEDUCED, log 55). -/
def countA (s : State) (ch : Fin 2) (f : SafeLink → SafeLink) : State :=
  if ch = 0 then { s with safe := f s.safe } else s

/-- One copy of a safe telegram was corrupted or lost (Table 18-1): masked, and recorded by channel A, which counts for both. -/
def copyBad (s : State) (ch p : Fin 2) : State := if ch = 0 then logMasked s 0x0701 .lookout p else s

/-- Single copies of a port are delivered (R336) (DEDUCED, log 55). -/
def singleFrom (s : State) (p : Fin 2) : Bool :=
  (safeMode s == 1 && p == 0) || (safeMode s == 2 && s.safe.fallback && !s.safe.singleOut && s.safe.fbPort == p)

/-- A copy from a watched source paired (R333). -/
def pairCopy (s : State) (p ch : Fin 2) (k : Fin 16) (t : SafeCopy) : State :=
  let ws := (s.safe.chan[ch]).waiting
  let same := fun (w : SafeWait) => copySrc w.copy == copySrc t && copySseq w.copy == copySseq t
  if ws.any fun w => same w && w.port == p then s
  else match ws.find? fun w => same w && w.port != p && decide (t.at_ ≤ w.copy.at_ + 4) with
    | some w =>
      let u := updChan s ch fun c => { c with waiting := c.waiting.erase w }
      if w.copy.bytes = t.bytes then
        let v := deliver u ch k t
        { v with safe := { v.safe with pairFrom := some (v.safe.pairFrom.getD s.mono) } }
      else countA { u with safe := { u.safe with pairFrom := none } } ch fun l => { l with diff := satInc 16 l.diff }
    | none => updChan s ch fun c => { c with waiting := c.waiting ++ [⟨p, t⟩] }

/-- What a channel makes of a copy (R333). In single mode nothing concerns the pair; in the fallback single copies are
delivered and pairs still form, which is how it ends (R336). -/
def takeCopy (s : State) (p ch : Fin 2) (t : SafeCopy) : State :=
  if copySrc t = safeSid s then { s with safe := { s.safe with clash := true } }
  else if t.flagB ≠ decide (p = 1) then
    if s.txl.port[p].xconn then s
    else logInfo (updTxlPort s p fun x => { x with xconn := true }) (Config.eventCode 338) .helm p
  else if t.bytes.length ≠ 32 ∨ beNat (slice t.bytes 28 4) ≠ scode s t.bytes then
    countA (copyBad s ch p) ch fun l => { l with code := satInc 16 l.code }
  else match peerOf s (copySrc t) with
    | none => s
    | some k =>
      let s := { s with safe := { s.safe with copyAt := upd s.safe.copyAt p fun _ => s.mono } }
      if copyDst t ≠ safeSid s ∧ copyDst t ≠ 0xFFFF then s
      else
        let u := if singleFrom s p then deliver s ch k t else s
        if safeMode s = 1 then u else pairCopy u p ch k t

/-- SAFE_COPY_RECEIVED (R333): a channel that runs takes the oldest copy of a port from what the forwarder handed it. -/
def execSafeCopyReceived (p ch : Fin 2) (s : State) : Out :=
  .next (match (s.safe.chan[ch]).inbox.find? fun c => c.1 == p with
    | some c =>
      if if ch = 0 then s.lk.runA else s.lk.runB then
        settle s (takeCopy (updChan s ch fun x => { x with inbox := x.inbox.erase c }) p ch c.2)
      else s
    | none => s)

/-- A copy of a source that has waited in a channel for more than 4 ms is discarded; the port that lacked a copy counts it
(R333). -/
def pairTimeout (s : State) (ch : Fin 2) (k : Fin 16) : State :=
  match (s.safe.chan[ch]).waiting.find? fun w =>
      peerOf s (copySrc w.copy) == some k && decide (w.copy.at_ + 4 < s.mono) with
  | some w =>
    let t := updChan s ch fun c => { c with waiting := c.waiting.erase w }
    let t := copyBad t ch (if w.port = 0 then 1 else 0)
    countA { t with safe := { t.safe with pairFrom := none } } ch fun l =>
      if w.port = 0 then { l with missB := satInc 16 l.missB } else { l with missA := satInc 16 l.missA }
  | none => s

/-- SAFE_PAIR_TIMEOUT (R333). -/
def execSafePairTimeout (k : Fin 16) (s : State) : Out :=
  .next (pairTimeout (pairTimeout s 0 k) 1 k)

/-- SAFE_WATCHDOG_EXPIRY (R334): in each channel in which no pair has been delivered for 20 ms. -/
def execSafeWatchdogExpiry (k : Fin 16) (s : State) : Out :=
  .next (if peerEn s k then
    let f := fun (c : SafeChan) => { c with peer := upd c.peer k fun y =>
      { y with expired := y.expired || decide (y.fed + 20 ≤ s.mono) } }
    settle s (updChan (updChan s 0 f) 1 f)
    else s)

/-- SAFE_FALLBACK_ENGAGE (R336): no copy on a port for 10 ms while copies arrive on the other; logged and reported. -/
def execSafeFallbackEngage (lost : Fin 2) (s : State) : Out :=
  .next (if safeMode s == 2 && !s.safe.fallback
      && decide (s.safe.copyAt[lost] + 10 ≤ s.mono ∧ s.mono < s.safe.copyAt[(1 - lost)] + 10) then
    logDetect { s with safe := { s.safe with
      fallback := true, fbPort := 1 - lost, fbAt := s.mono, singleOut := false, pairFrom := none } }
      (Config.eventCode 336) .lookout lost
    else s)

/-- SAFE_FALLBACK_END (R336): after 1 s of complete pairs. -/
def execSafeFallbackEnd (s : State) : Out :=
  .next (if s.safe.fallback && (match s.safe.pairFrom with | some t => decide (t + 1000 ≤ s.mono) | none => false)
      && decide (s.mono < s.safe.copyAt[(0 : Fin 2)] + 10 ∧ s.mono < s.safe.copyAt[(1 : Fin 2)] + 10) then
    logClear { s with safe := { s.safe with fallback := false, singleOut := false } } (Config.eventCode 336) .lookout (1 - s.safe.fbPort : Fin 2)
    else s)

/-- SINGLE_T_EXPIRY (R336) (DEDUCED, log 55). -/
def execSingleTExpiry (s : State) : Out :=
  .next (if s.safe.fallback && decide (s.safe.fbAt + cfgN s 0x40 0x40 0x000 23 16 * 3600000 ≤ s.mono) then
    { s with safe := { s.safe with singleOut := true } } else s)

/-! ### Beacons, time and network requests -/

/-- BEACON_SEND (R375): the active manager renews in one beacon in 30, while it has quorum (R376). -/
def execBeaconSend (s : State) : Out :=
  .next (if helmRuns s && s.landfall.hostReady && linksUp s then
    let act := isManager s && decide (s.mgr.role = .active ∨ s.mgr.role = .releasing)
    let renew := act && decide (s.mgr.renewIn = 0) && quorum s
    let t := { s with mgr := { s.mgr with
      renewIn := if act then (if renew then 29 else s.mgr.renewIn - 1) else 0 } }
    sendBeacon t act renew false
    else s)

/-- PTP_EN, with Helm running outside a chart hold (R43, R339). -/
def ptpOn (s : State) : Bool := cfgB s 0x50 0 0x040 31 && linksUp s && helmRuns s

/-- PTP_PREF. -/
def ptpPref (s : State) : Fin 2 := if cfgB s 0x50 0 0x040 29 then 1 else 0

/-- PTP's state replaced by its image. -/
def updPtp (s : State) (f : Ptp → Ptp) : State := { s with txl := { s.txl with ptp := f s.txl.ptp } }

/-- LOCKED changed. -/
def setLocked (s : State) (on : Bool) : State := updPtp s fun x => { x with locked := on }

/-- An offset in 2^-16 ns that a complete Sync gives, judged (R339). -/
def judgeOffset (s : State) (d : Int) : State :=
  let good := if d.natAbs ≤ 10000 * 65536 then min 16 (s.txl.ptp.good + 1) else 0
  let t := updPtp s fun x => { x with offset := clampInt (-2147483648) 2147483647 (d / 65536), good := good }
  if 100000 * 65536 < d.natAbs then setLocked t false
  else if good = 16 then setLocked t true
  else t

/-- A time stamp of H-NET, to 8 ns, in 2^-16 ns. -/
def stampOf (ns : Int) : Int := ns / 8 * 8 * 65536

/-- A Sync whose origin, corrections included, is known: the offset is its arrival less origin and path delay (R339)
(PRESUMED, log 92). -/
def completeSync (s : State) (origin rx : Int) : State :=
  judgeOffset (updPtp s fun x => { x with sync := some (origin, rx), waiting := none }) (rx - origin - s.txl.ptp.delay)

/-- Half of a round trip, as the path delay. -/
def setDelay (s : State) (trip : Int) : State :=
  updPtp s fun x => { x with delay := trip / 2, req := none, turn := none }

/-- What a PTP message on the port in use does (R339) (PRESUMED, log 92). -/
def takePtp (s : State) (m : PtpMessage) : State :=
  let x := s.txl.ptp
  let peer := cfgB s 0x50 0 0x040 30
  match m with
  | .announce log => updPtp s fun y => { y with annAt := s.mono, annLog := log }
  | .sync seq twoStep log origin corr rx =>
    let t := updPtp s fun y => { y with syncAt := s.mono, syncLog := log }
    if twoStep then updPtp t fun y => { y with waiting := some (seq, corr, stampOf rx) }
    else completeSync t (origin * 65536 + corr) (stampOf rx)
  | .followUp seq origin corr => match x.waiting with
    | some w => if w.1 = seq then completeSync s (origin * 65536 + corr + w.2.1) w.2.2 else s
    | none => s
  | .delayReq seq tx => if peer then s else updPtp s fun y => { y with req := some (seq, stampOf tx) }
  | .delayResp seq received corr => match x.req, x.sync with
    | some r, some y => if r.1 = seq ∧ peer = false then setDelay s ((y.2 - y.1) + (received * 65536 - corr - r.2)) else s
    | _, _ => s
  | .pdelayReq seq tx => if peer then updPtp s fun y => { y with req := some (seq, stampOf tx), turn := none } else s
  | .pdelayResp seq twoStep received corr rx => match x.req with
    | some r =>
      if r.1 ≠ seq ∨ peer = false then s
      else if twoStep then updPtp s fun y => { y with turn := some (seq, received * 65536, stampOf rx - corr) }
      else setDelay s (stampOf rx - r.2 - corr)
    | none => s
  | .pdelayFollowUp seq sent corr => match x.req, x.turn with
    | some r, some w => if r.1 = seq ∧ w.1 = seq ∧ peer then setDelay s ((w.2.2 - corr - r.2) - (sent * 65536 - w.2.1)) else s
    | _, _ => s

/-- The port that PTP uses becomes `p`: nothing measured on the other holds. -/
def usePtpPort (s : State) (p : Fin 2) : State :=
  updPtp s fun x => { x with port := p, good := 0, annAt := s.mono, waiting := none, sync := none, req := none, turn := none, delay := 0 }

/-- PTP_MESSAGE (R339): of DOMAIN; an Announce on PTP_PREF takes that port into use, and other messages count on the port in
use. -/
def execPtpMessage (p : Fin 2) (domain : Nat) (m : PtpMessage) (s : State) : Out :=
  .next (if ptpOn s && txlEn s p && netRuns s && decide (domain = cfgN s 0x50 0 0x040 23 16) then
    let back : Bool := match m with
      | .announce _ => p == ptpPref s && s.txl.ptp.port != p
      | _ => false
    let t := if back then usePtpPort s p else s
    if p = t.txl.ptp.port then takePtp t m else t
    else s)

/-- Three intervals of 2^log s have passed since an instant. -/
def threeIntervals (s : State) (at_ : Nat) (log : Int) : Bool :=
  decide (3000 * 2 ^ log.toNat ≤ (s.mono - at_) * 2 ^ (-log).toNat)

/-- PTP_ANNOUNCE_TIMEOUT (R339): 3 intervals without an Announce on the port in use. -/
def execPtpAnnounceTimeout (s : State) : Out :=
  .next (if ptpOn s && threeIntervals s s.txl.ptp.annAt s.txl.ptp.annLog then usePtpPort s (1 - s.txl.ptp.port) else s)

/-- PTP_SYNC_TIMEOUT (R339): 3 intervals without a Sync. -/
def execPtpSyncTimeout (s : State) : Out :=
  .next (if ptpOn s && threeIntervals s s.txl.ptp.syncAt s.txl.ptp.syncLog then
    setLocked (updPtp s fun x => { x with good := 0 }) false
    else s)

/-- The link-local IPv6 address formed from a port's MAC address (R43), as eight 16-bit groups (modified EUI-64,
PRESUMED, log 22). -/
def linkLocal (p : Fin 2) : List Nat :=
  let m := (portMac p).map (·.toNat)
  [0xFE80, 0, 0, 0, Nat.xor (m.getD 0 0) 2 * 256 + m.getD 1 0, m.getD 2 0 * 256 + 0xFF,
    0xFE00 + m.getD 3 0, m.getD 4 0 * 256 + m.getD 5 0]

/-- TXL_IP6 as eight groups, the first word's high half first. -/
def staticIp6 (s : State) : List Nat :=
  (List.range 4).flatMap fun k => [cfgN s 0x50 0 (0x020 + 4 * k) 31 16, cfgN s 0x50 0 (0x020 + 4 * k) 15 0]

/-- An IPv6 address of this module on a port (R340) (PRESUMED, log 22). -/
def ownIp6 (s : State) (p : Fin 2) (a : List Nat) : Bool :=
  cfgB s 0x50 0 0x010 0 && (a == linkLocal p || (a == staticIp6 s && (staticIp6 s).any (· != 0)))

/-- TXL_IP4, with IP4_EN. -/
def ownIp4 (s : State) (a : Nat) : Bool := cfgB s 0x50 0 0x010 1 && a == cfgN s 0x50 0 0x014 31 0

/-- The answer to a network request (R340), if it is addressed to this module. -/
def netAnswer (s : State) (p : Fin 2) (r : NetRequest) : Option NetAnswer :=
  match r with
  | .arp a => if ownIp4 s a then some (.arp a (portMac p)) else none
  | .echo4 a d => if ownIp4 s a then some (.echo4 a d) else none
  | .neighbour a => if ownIp6 s p a then some (.neighbour a (portMac p)) else none
  | .echo6 a d => if ownIp6 s p a then some (.echo6 a d) else none

/-- NETWORK_SERVICE_REQUEST (R340). -/
def execNetworkServiceRequest (p : Fin 2) (r : NetRequest) (s : State) : Out :=
  .next (match netAnswer s p r with
    | some a => if txlEn s p && netRuns s && helmRuns s && s.landfall.hostReady then
        { s with txl := { s.txl with answered := s.txl.answered + 1, answer := some (p, a) } }
      else s
    | none => s)

end Sys2Proof.Machine
end

