-- ==== Sys2Proof/Machine/Params.lean ====
section
/-!
DEFINITION. What each word of the parameter map reads (R454 to R466): configuration as written, and the status,
counters and captures of every block by the field tables. Bits that no field names read 0 (R13).
-/
namespace Sys2Proof.Machine

/-- A number placed in the field [hi:lo]. -/
def fv (hi lo v : Nat) : Nat := v % 2 ^ (hi - lo + 1) * 2 ^ lo

/-- A flag placed at a bit. -/
def fb (lo : Nat) (b : Bool) : Nat := flag b * 2 ^ lo

/-- Two halves of a word. -/
def pk (h l : Nat) : Nat := fv 31 16 h + fv 15 0 l

/-- A signed number as `n` bits placed from bit `lo`. -/
def sv (n lo : Nat) (v : Int) : Nat := ofSigned n v * 2 ^ lo

/-- Word `k` of a string of bytes, the first byte in bits [31:24]. -/
def beWord (b : Bytes) (k : Nat) : Nat := beNat (slice b (4 * k) 4)

/-- A word of a list, 0 past its end. -/
def nth (l : List Nat) (k : Nat) : Nat := l.getD k 0

/-! ### Sextant (Tables 03-5 to 03-9, 04-5 to 04-7, 05-5 to 05-7) -/

/-- The Fix words of a cell or stage, from the offset of TEL_V. -/
def telWord (f : TelLatch) (k : Nat) : Nat :=
  if k = 3 then sv 16 0 f.t
  else if k = 10 then sv 16 16 f.tHi + sv 16 0 f.tLo
  else sv 32 0 (([f.v, f.i, f.p, 0, f.vLo, f.vHi, f.iLo, f.iHi, f.pLo, f.pHi] : List Int).getD k 0)

/-- Block 0x10. -/
def viewSextant (s : State) (off : Nat) : Nat :=
  let x := s.sx
  match off with
  | 0x060 => fv 15 8 x.uscFired + fv 7 0 x.uscLevel
  | 0x080 => pk x.loadChart x.loadMeas
  | 0x0A0 => x.fixLast
  | 0x0A4 => lo32 x.fixTime
  | 0x0A8 => hi32 x.fixTime
  | _ => if 0x084 ≤ off ∧ off < 0x090 then
      ((List.range 32).map fun k =>
        fb k (x.law[(Fin.ofNat 96 (32 * ((off - 0x084) / 4) + k) : Fin 96)]).ovrMap).sum else 0

/-- Block 0x11 (DEDUCED, log 61). -/
def viewStage (s : State) (g : Fin 8) (off : Nat) : Nat :=
  let x := s.sx.stage[g]
  let a := s.sx.aux[g]
  let cells := fun (st : CellSt) => ((stageCells s g).filter fun c => decide (s.sx.cell[c].st = st)).length
  match off with
  | 0x00C => fv 31 16 a.phEff
  | 0x018 => fb 3 a.syncLock + fb 2 a.syncLost + fb 1 a.syncRange + fb 0 a.roseChanged
  | 0x020 => fv 31 28 x.st.code + fv 27 24 x.fail + fv 23 16 x.latchCause + fv 11 7 (liveCells s g).length
      + fv 6 2 (cells .retired) + fb 1 x.senseAlt + fb 0 x.shedHold
  | 0x024 => fv 9 0 x.latchMask
  | 0x058 => fv 31 16 (capacity s g)
  | 0x060 => pk a.fireCnt a.abandonCnt
  | 0x064 => pk a.shedCnt a.addCnt
  | 0x06C => a.telGen
  | _ => if 0x070 ≤ off ∧ off ≤ 0x098 then telWord a.fix ((off - 0x070) / 4) else 0

/-- Block 0x12. -/
def viewCell (s : State) (c : Fin 48) (off : Nat) : Nat :=
  let x := s.sx.cell[c]
  match off with
  | 0x004 => fv 31 16 x.roseEff
  | 0x008 => sv 21 0 x.phs
  | 0x00C => fv 31 29 x.st.code + fv 23 16 x.retireCause + fv 15 0 x.share
  | _ => if 0x020 ≤ off ∧ off ≤ 0x048 then telWord x.fix ((off - 0x020) / 4) else 0

/-- Block 0x13. -/
def viewChannel (s : State) (n : Fin 48) (off : Nat) : Nat :=
  let x := s.sx.channel[n]
  match off with
  | 0x004 => fv 19 0 x.cmp
  | 0x00C => fb 15 x.fltIn + fb 14 x.fltSeen + fb 13 x.rbErrH + fb 12 x.rbErrL
  | 0x010 => pk x.catchCnt x.minpCnt
  | _ => 0

/-- Block 0x14. -/
def viewLaw (s : State) (i : Fin 96) (off : Nat) : Nat :=
  let l := s.sx.law[i]
  match off with
  | 0x030 => fb 31 l.bank1
  | 0x040 => fv 9 8 l.ovrConsec + fb 7 l.ax1.intClamp + fb 6 l.ax0.intClamp + fb 5 (lawHeld s i) + fb 4 l.overrun
      + fb 3 l.flags.int + fb 2 l.flags.out + fb 1 l.flags.acc + fb 0 l.flags.prod
  | 0x044 => pk l.cntProd l.cntAcc
  | 0x048 => pk l.cntOut l.cntInt
  | 0x04C => pk l.cntOvr l.cntSwap
  | 0x054 => fv 15 0 l.histMax
  | 0x080 => sv 32 0 l.y0
  | 0x084 => sv 32 0 l.y1
  | 0x088 => sv 32 0 l.omega
  | 0x08C => l.theta
  | _ => if 0x060 ≤ off ∧ off < 0x080 then
      let k := (off - 0x060) / 4
      pk (nth l.hist (2 * k + 1)) (nth l.hist (2 * k)) else 0

/-- Block 0x15. -/
def viewSd (s : State) (n : Fin 64) (off : Nat) : Nat :=
  let x := s.sx.sd[n]
  match off with
  | 0x008 => sv 32 0 x.ctl
  | 0x00C => sv 16 16 x.fast + fb 2 x.invalid + fb 1 x.stuck + fb 0 x.fastTrip
  | _ => 0

/-! ### Outlets, cooling, tag reader (Tables 06-10, 06-11, 07-6) -/

/-- Block 0x20. -/
def viewOutlet (s : State) (o : Fin 2) (off : Nat) : Nat :=
  let x := s.outlet[o]
  match off with
  | 0x028 => fv 31 20 x.pilot.pos + fv 19 8 x.pilot.neg + fv 7 5 x.pilot.level + fv 4 2 x.pilot.cond.code
      + fb 1 x.pilot.sig1Ok
  | 0x040 => fv 31 24 x.st.code + fv 23 16 x.faultCause + fv 15 12 x.authSrc + fv 11 8 x.link.proto
      + fb 7 s.lk.outlet[o].blocked + fb 6 (refusing s o) + fb 5 s.cooling[o].uncooled + fb 4 s.lk.outlet[o].lockFb
      + fv 3 0 x.stopReason
  | 0x044 => fv 12 0 x.faultMask
  | 0x048 => pk (match outletStage s o with
      | some g => s.sx.stage[g].limNow / 1000
      | none => 0) s.cooling[o].iDerate
  | _ => 0

/-- Block 0x22. FLOW is input j = 6 (Table 06-9). DRIVE_FAULT [7:5], "Pump, fan 0, fan 1", has the pump in bit 5 and fan 1
in bit 7 (DESIGN CHOICE, log 82). -/
def viewCooling (s : State) (o : Fin 2) (off : Nat) : Nat :=
  let c := s.cooling[o]
  let d := fun (k : Nat) => s.drive[(Fin.ofNat 6 (3 * o.val + k) : Fin 6)]
  match off with
  | 0x040 => fv 31 16 (min 65535 (c.input[6].value * 100 / 65536).toNat) + fb 7 (d 2).fault + fb 6 (d 1).fault
      + fb 5 (d 0).fault + fb 4 c.flowLow + fb 3 c.stale2 + fb 2 c.stale
  | 0x044 => pk (d 0).rpm (d 1).rpm
  | 0x048 => fv 15 0 (d 2).rpm
  | _ => 0

/-- AGE of a tag reading, in 10 ms units. -/
def tagAge (s : State) (t : TagEntry) : Nat := if t.tstat = 0 then 255 else min 255 ((s.nowNs - t.time) / 10000000)

/-- Block 0x21. -/
def viewReader (s : State) (off : Nat) : Nat :=
  let r := s.rdr
  let p := fun (o : Fin 2) => r.port[o]
  let o : Fin 2 := if off < 0x180 then 0 else 1
  match off with
  | 0x010 => fb 10 r.antFault[2] + fb 9 r.antFault[1] + fb 8 r.antFault[0] + fb 7 (p 1).tagExtra + fb 6 (p 0).tagExtra
      + fb 5 (p 1).harvOn + fb 4 (p 0).harvOn + fb 1 (p 1).invDone + fb 0 (p 0).invDone
  | 0x014 => pk r.miss r.crc
  | 0x018 => pk r.coll r.unconf
  | 0x01C => fv 15 8 (p 1).qfp + fv 7 0 (p 0).qfp
  | 0x200 => fv 31 24 r.cardUid.length + fv 23 8 r.cardAtqa + fv 7 0 r.cardSak
  | _ =>
    if 0x204 ≤ off ∧ off < 0x210 then beWord (r.cardUid ++ List.replicate 12 0) ((off - 0x204) / 4)
    else if 0x100 ≤ off ∧ off < 0x200 then
      let b := (off - 0x100) % 0x80
      if b < 0x38 then
        let t := (p o).tag[(Fin.ofNat 7 (b / 8) : Fin 7)]
        if b % 8 = 0 then hi32 t.id else lo32 t.id
      else
        let t := (p o).tag[(Fin.ofNat 7 ((b - 0x3C) / 4) : Fin 7)]
        sv 16 16 t.temp + fv 15 8 (tagAge s t) + fv 7 0 t.tstat
    else 0

/-! ### Meridian (Tables 08-6, 08-7, 09-4, 09-5, 10-6, 10-7) -/

/-- A measuring channel. -/
def viewMch (s : State) (k : Fin 12) (off : Nat) : Nat :=
  let c := s.mer.fe.ch[k]
  match off with
  | 0x000 => fb 31 (dualChannel k)
  | 0x040 => fb 31 (chInvalid s k) + fb 30 (reduced s k) + fb 29 c.fallback + fb 28 (c.freezeEvent || c.freezeHelm)
      + fb 27 c.gain16
  | 0x044 => sv 32 0 c.value
  | 0x048 => fv 31 0 c.rms
  | 0x04C => fv 31 0 c.peak
  | 0x050 => fv 31 0 c.env
  | 0x054 => pk c.switchCnt c.freezeCnt
  | _ => 0

/-- A modulator. -/
def viewMod (s : State) (m : Fin 20) (off : Nat) : Nat :=
  let x := s.mer.fe.mod[m]
  match off with
  | 0x000 => fv 31 29 x.st.code + fv 28 24 x.serves + sv 16 0 x.pilotDev
  | 0x004 => sv 32 0 x.gain
  | 0x008 => sv 32 0 x.ofs
  | 0x00C => lo32 x.calTime
  | 0x010 => hi32 x.calTime
  | _ => 0

/-- The words of instance 0x300. -/
def viewMetGlobal (s : State) (off : Nat) : Nat :=
  let fe := s.mer.fe
  match off with
  | 0x004 => fb 8 (notLegal s) + fb 0 (!notLegal s)
  | 0x00C => fv 31 16 (min 65535 s.mer.stagedCnt)
  | 0x040 => sv 16 16 fe.refDiff + fb 0 fe.refDrift
  | 0x044 => fb 17 fe.rotI.spareUsed + fb 16 fe.rotV.spareUsed + fv 15 8 fe.rotV.pos + fv 7 0 fe.rotI.pos
  | _ => if 0x020 ≤ off ∧ off < 0x040 then beWord s.mer.digest ((off - 0x020) / 4) else 0

/-- The RO words of an outlet energy instance at this sample, by offset (R228). -/
def energyWords (s : State) (o : Fin 2) : List (Nat × Nat) :=
  let e := s.mer.leg.energy[o]
  let p := s.mer.leg.pulse[o]
  let pair := fun (off v : Nat) => [(off, lo32 v), (off + 4, hi32 v)]
  pair 0x020 (mWh e.imp) ++ pair 0x028 (mWh e.exp) ++ pair 0x030 (mWh e.loss)
    ++ [(0x040, sv 32 0 s.mer.pNow[o]),
        (0x044, fb 31 (notLegal s) + fb 30 (!accumulates s o) + fb 29 s.mer.lossEst[o] + fb 28 p.lag
          + fv 15 0 (min 65535 p.backlog)),
        (0x048, s.mer.legalSeq)]

/-- The RO words of the AC energy instance. -/
def acEnergyWords (s : State) : List (Nat × Nat) :=
  let l := s.mer.leg
  [(0x020, lo32 (mWh l.acImp)), (0x024, hi32 (mWh l.acImp)), (0x028, lo32 (mWh l.acExp)), (0x02C, hi32 (mWh l.acExp))]

/-- The RO words of an outlet billing instance (Table 10-7, R461). -/
def billingWords (s : State) (o : Fin 2) : List (Nat × Nat) :=
  let e := s.mer.leg.energy[o]
  let d := s.mer.leg.demand[o]
  let pair := fun (off v : Nat) => [(off, lo32 v), (off + 4, hi32 v)]
  (List.finRange 8).flatMap (fun n => pair (16 * n.val) (mWh e.tarImp[n]) ++ pair (16 * n.val + 8) (mWh e.tarExp[n]))
    ++ [(0x080, lo32 d.maxImp.w)] ++ pair 0x084 (ct64 d.maxImp.endNs)
    ++ [(0x08C, lo32 d.maxExp.w)] ++ pair 0x090 (ct64 d.maxExp.endNs)
    ++ [(0x098, mdFlags d), (0x0A0, lo32 d.lastImp), (0x0A4, lo32 d.lastExp)] ++ pair 0x0A8 (ct64 d.lastEnd)

/-- The words of the billing instance 0x700 that no capture serves. -/
def viewBilling (s : State) (off : Nat) : Nat :=
  let c := s.mer.chr
  let l := s.mer.leg
  match off with
  | 0x000 => lo32 s.now
  | 0x008 => fv 31 28 c.src + fb 27 c.valid + fb 26 (timeUncertain s) + fb 25 (decide (c.slew ≠ 0))
      + fv 23 0 (min 16777215 (c.uncNs / 1000000))
  | 0x020 => fv 31 28 s.mer.tar.tariff + fb 0 s.mer.tar.pending.isSome
  | 0x024 => lo32 l.legalCnt
  | 0x028 => lo32 l.faultCnt
  | 0x02C => s.mer.legalSeq
  | 0x060 => (s.mer.tar.pending.map fun p => lo32 (ct64 p.activation)).getD 0
  | 0x064 => (s.mer.tar.pending.map fun p => hi32 (ct64 p.activation)).getD 0
  | 0x070 => lo32 s.fw[(3 : Fin 5)].runVer
  | _ =>
    if 0x040 ≤ off ∧ off < 0x060 then ((s.mer.tar.active.map fun a => beWord a.digest ((off - 0x040) / 4)).getD 0)
    else if 0x080 ≤ off ∧ off < 0x0A0 then beWord s.fw[(3 : Fin 5)].digest ((off - 0x080) / 4)
    else 0

/-- The supply event words that no capture serves. -/
def viewEvents (s : State) (off : Nat) : Nat :=
  match off with
  | 0x004 => s.mer.leg.evtTotal
  | 0x00C => fv 31 16 s.mer.leg.evtOverwrite
  | 0x030 => fb 2 (eventOpen s 3) + fb 1 (eventOpen s 2) + fb 0 (eventOpen s 1)
  | _ => 0

/-! ### Lookout and safe telegrams (Tables 12-5, 12-6, 13-7) -/

/-- The Lookout words. -/
def viewLookout (s : State) (inst off : Nat) : Nat :=
  let l := s.lk
  if inst = 0 then
    match off with
    | 0x000 => fv 31 28 (lkState s) + fb 27 l.runA + fb 26 l.runB + fb 25 (safetyConfirmed s) + fb 24 l.gpA + fb 23 l.gpB
        + fb 22 l.xcmp + fv 19 10 (sfBits (sfDemand s)) + fv 9 0 (sfBits (sfLatched s))
    | 0x004 => l.checkA
    | 0x008 => l.checkB
    | 0x00C => (l.confA.map (·.value)).getD 0
    | 0x010 => (l.confA.map (·.serial)).getD 0
    | 0x014 => (l.confA.map fun c => lo32 (ct64 c.time)).getD 0
    | 0x018 => (l.confA.map fun c => hi32 (ct64 c.time)).getD 0
    | 0x02C => pk l.xcmpCnt l.restartCnt
    | _ => 0
  else if inst < 0x20 then
    let x := l.si[(Fin.ofNat 16 (inst - 0x10) : Fin 16)]
    if off = 0x004 then fb 31 x.a + fb 30 x.b + fv 29 28 x.st.code + fv 15 8 x.discCnt + fv 7 0 x.tpCnt else 0
  else if inst < 0x30 then
    let x := l.so[(Fin.ofNat 8 (inst - 0x20) : Fin 8)]
    match off with
    | 0x004 => fb 31 x.cmd + fb 30 x.soh + fb 29 x.sol + fb 28 x.fba + fb 27 x.fbb + fv 26 24 x.fault
    | 0x008 => x.ops
    | _ => 0
  else if inst < 0x40 then
    let o : Fin 2 := Fin.ofNat 2 (inst - 0x30)
    let x := l.outlet[o]
    match off with
    | 0x004 => fb 31 (permit s o) + fb 30 x.closed + fb 29 x.lockFb + fb 28 x.blocked + fb 27 (holsterOk s o)
        + fv 23 16 x.lastSf + sv 16 0 (x.vL / 100)
    | 0x014 => min 0xFFFFFFFF (x.snd.rIso.getD 0xFFFFFFFF)
    | 0x018 => fv 31 29 x.snd.verdict.code + fb 28 x.snd.stFail + fb 27 x.snd.stRun + fv 15 0 x.snd.stCnt
    | _ => 0
  else
    let x := s.safe
    let wd := fun (k : Fin 16) => x.chan[(0 : Fin 2)].peer[k].expired || x.chan[(1 : Fin 2)].peer[k].expired
    match off with
    | 0x050 => ((List.finRange 16).map fun k => fb (16 + k.val) (wd k)).sum + fb 2 x.clash + fb 1 x.fallback
        + fv 0 0 x.fbPort
    | 0x054 => pk x.missA x.missB
    | 0x058 => pk x.diff x.code
    | _ => 0

/-! ### Turxel, Log-line, manager (Tables 13-6, 14-4, 15-6) -/

/-- Block 0x50. -/
def viewTurxel (s : State) (inst off : Nat) : Nat :=
  let x := s.txl
  if inst = 0 then
    match off with
    | 0x044 => fb 31 x.ptp.locked + fv 30 30 x.ptp.port
    | 0x048 => sv 32 0 (satTo 32 x.ptp.offset)
    | 0x04C => fb 31 x.key.isNone
    | _ => 0
  else
    let i : Fin 2 := Fin.ofNat 2 (inst - 1)
    let p := x.port[i]
    match off with
    | 0x004 => fb 31 p.link + fb 30 p.speed + fb 29 p.pathLost + fb 28 p.xconn
    | 0x008 => beNat ((portMac i).take 2)
    | 0x00C => beNat ((portMac i).drop 2)
    | 0x010 => pk p.drop p.macFail
    | 0x014 => pk p.seqFail p.txOvf
    | _ => 0

/-- Block 0x51. LL_ROLE reads 2 while the modem does not send: without a key, without the mains reference, or while it
does not run (DEDUCED, log 24). -/
def viewLogLine (s : State) (off : Nat) : Nat :=
  let l := s.ll
  match off with
  | 0x010 => fv 31 30 (if !llSends s || s.txl.key.isNone then 2 else flag l.isMaster) + fb 29 l.zcLost + fb 28 l.pathLost
      + fb 27 s.txl.key.isNone + fv 21 16 l.master + fv 15 0 l.mainsF
  | 0x014 => fv 23 0 (if l.isMaster then l.bmap else l.annMap)
  | 0x018 => pk l.ok l.lost
  | 0x01C => pk l.retry l.stepCnt
  | 0x020 => min 65535 (blankFrac s)
  | 0x024 => pk (match l.beaconAt with
      | some t => min 65535 (s.mono - t)
      | none => 65535) l.beaconMax
  | _ =>
    if 0x100 ≤ off ∧ off < 0x180 then
      let r := l.route[(Fin.ofNat 32 ((off - 0x100) / 4) : Fin 32)]
      fv 31 30 r.hops + fv 29 24 r.dst + fv 23 18 r.relay1 + fv 17 12 r.relay2 + fv 7 0 r.cost
    else if 0x200 ≤ off ∧ off < 0x288 then
      let m := l.peer[(Fin.ofNat 34 ((off - 0x200) / 4) : Fin 34)].map
      fv 31 24 (min 255 (mapCost s m)) + fv 23 0 m
    else 0

/-- Block 0x60, the LIVE fields P_SITE and CLASS included. -/
def viewManager (s : State) (inst off : Nat) : Nat :=
  let m := s.mgr
  let w := s.wrk
  if inst = 0 then
    match off with
    | 0x004 => fv 31 0 m.pSite
    | 0x010 => fv 31 28 m.role.code + fb 27 (quorum s) + fb 26 m.tokenReq + fb 25 m.epochEnd
    | 0x014 => lo32 m.epoch
    | 0x018 => lo32 m.cycle
    | 0x01C => lo32 (healthWord s)
    | 0x020 => lo32 m.peerHealth
    | 0x028 => pk m.takeover m.curtail
    | 0x02C => pk m.shadowCnt w.fenced
    | 0x044 => fv 31 30 w.drState + fv 9 0 w.node
    | 0x048 => lo32 w.alloc
    | 0x04C => lo32 w.epoch
    | 0x050 => fb 0 w.rank
    | _ => 0
  else
    let i : Fin 32 := Fin.ofNat 32 (inst - 1)
    let x := m.worker[i]
    match off with
    | 0x000 => fv 30 29 m.cls[i]
    | 0x008 => lo32 ((x.status.map (·.demand)).getD 0)
    | 0x00C => lo32 x.alloc
    | 0x010 => pk (if x.status.isSome then min 65535 (s.mono - x.at_) else 65535) x.syncPh
    | _ => 0

/-! ### Display, commercial (Tables 10-8, 11-7) -/

/-- Block 0x80. -/
def viewDisplay (s : State) (off : Nat) : Nat :=
  let d := s.disp
  match off with
  | 0x080 => fv 31 28 d.pwr.code + fv 27 25 d.band + fb 24 d.thFault
      + (d.flight.map fun f => fb (16 + f.slot % 8) true).sum + fv 15 11 d.waiting.length + fb 10 d.legal.isSome
      + fb 9 (d.refreshDue || d.refresh.isSome) + fb 5 d.faultSelf + fb 4 d.faultCrack + fb 3 d.faultPump
      + fb 2 d.faultLane + fb 1 d.faultCrc + fb 0 (displayFault s)
  | 0x084 => sv 16 0 d.temp
  | 0x088 => d.crcExp
  | 0x08C => d.crcMem
  | 0x090 => d.crcShift
  | 0x094 => fv 15 0 (min 65535 d.crackRes)
  | 0x09C => fv 15 8 d.lwinY0 + fv 7 0 d.lwinH
  | 0x0A0 => pk d.discard d.supersede
  | 0x0A4 => fv 31 16 d.miss
  | _ => 0

/-- A session runs on the account (R266). -/
def accountInUse (s : State) (n : Nat) : Bool := s.com.charge.toList.any fun c => c.account == some n

/-- Block 0x90, the account words included. -/
def viewCommercial (s : State) (inst off : Nat) : Nat :=
  let a := account s inst
  match off with
  | 0x100 => if s.com.weatherEnd = 0 then 0 else lo32 (ct64 s.com.weatherEnd)
  | 0x104 => if s.com.weatherEnd = 0 then 0 else hi32 (ct64 s.com.weatherEnd)
  | 0x108 => fb 1 (friendly s) + fb 0 (weatherHeld s)
  | 0x800 => lo32 (ofSigned 64 a.credit)
  | 0x804 => hi32 (ofSigned 64 a.credit)
  | 0x808 => lo32 a.emerg
  | 0x80C => fv 31 30 a.mode + fb 29 a.req + fb 28 a.act + fb 27 (accountInUse s inst)
  | _ => if off < 0x100 then (comWord s (regAddr 0x90 inst off)).toNat else 0

/-! ### System, keys, power, journal, logbook (Tables 02-8, 02-9, 16-9, 17-10, 17-11, 18-5, 19-4 to 19-6) -/

/-- The hold that is reported: the lowest code among the causes (R42). -/
def holdCode (s : State) : Nat :=
  let l := s.landfall
  if l.holdTamper then 1 else if l.holdChart then 2 else if l.holdStrap then 3 else if l.holdSelf then 4 else 0

/-- LANDFALL_STATUS (Table 02-8). -/
def landfallStatus (s : State) : Nat :=
  let l := s.landfall
  fv 28 24 l.phase + fv 23 20 s.chart.src + fv 19 16 (holdCode s) + fb 15 l.warm + fb 14 l.snapReplaced
    + fb 13 (s.fw.toList.any (·.fallback)) + fb 12 (safetyConfirmed s)
    + fb 11 (s.chart.inUse.isSome && holsterOk s 1) + fb 10 (s.chart.inUse.isSome && holsterOk s 0)
    + fb 9 l.hostReady + l.selftest.toNat

/-- PROMISE (R443): the conditions the module can observe. -/
def promise (s : State) : Bool :=
  s.flt.ratingsOk && s.chart.inUse.isSome && safetyConfirmed s && cfgN s 0x01 0 0x400 16 0 == 0

/-- Operations of a session that hold a slot (R396). -/
def slotsOf (s : State) (sid : Nat) : Nat := (s.host.ops.filter (·.sid == sid)).length

/-- A transport's code (Table 16-9). -/
def transportCode : Transport → Nat
  | .turxel _ => 0 | .tcp _ => 1 | .spi => 2

/-- The journal entry is protected from overwriting (R403) (DEDUCED, log 61). -/
def jrnHeld (j : Jrn) : Bool := j.held

/-- Block 0x01. -/
def viewSystem (s : State) (off : Nat) : Nat :=
  let h := s.host
  let serial := (List.range 8).map Config.serialByte
  match off with
  | 0x000 => beWord serial 0
  | 0x004 => beWord serial 1
  | 0x008 => fv 31 24 s.variant.code + fv 23 22 s.landfall.role + fv 21 21 (Config.unstated 464 0 % 2).toNat + 1
  | 0x010 => landfallStatus s
  | 0x104 => fv 31 28 h.sessions.length + fb 27 s.landfall.recovering + fv 8 0 h.ops.length
  | 0x170 => pk h.macFail h.seqDrop
  | 0x174 => fv 31 16 h.authFail
  | 0x304 => fv 23 16 s.tamper.sources.toNat + fv 15 8 s.tamper.active.toNat + fv 7 0 s.tamper.cnt
  | 0x308 => lo32 s.tamper.time
  | 0x30C => hi32 s.tamper.time
  | 0x404 => fb 31 (promise s) + fb 30 s.chart.inUse.isSome + fb 29 s.flt.ratingsOk + fv 23 16 s.flt.islOff
      + fv 15 0 s.flt.lastCode
  | 0x408 => lo32 s.flt.scrubSram
  | 0x40C => hi32 s.flt.scrubSram
  | 0x410 => lo32 s.flt.scrubMram
  | 0x414 => hi32 s.flt.scrubMram
  | 0x418 => pk s.flt.corr s.flt.ded
  | 0x41C => pk s.flt.islCnt s.flt.supCnt
  | _ =>
    if 0x110 ≤ off ∧ off < 0x130 then
      match h.sessions[(off - 0x110) / 4]? with
      | some x => fb 31 true + fv 30 29 x.role + fv 28 27 (transportCode x.via) + fv 22 16 (slotsOf s x.sid) + fv 15 0 x.sid
      | none => 0
    else if 0x140 ≤ off ∧ off < 0x170 then
      let c := h.cls[(Fin.ofNat 6 ((off - 0x140) / 8) : Fin 6)]
      if off % 8 = 0 then c.acc else c.ref
    else if 0x220 ≤ off ∧ off < 0x2C0 then
      let f := s.fw[(Fin.ofNat 5 ((off - 0x220) / 0x20) : Fin 5)]
      match off % 0x20 with
      | 0x00 => fb 31 f.slotB + fv 30 29 f.stage + fb 28 f.activating + fb 27 f.fallback
      | 0x04 => lo32 f.runVer
      | 0x08 => lo32 f.arb
      | 0x0C => lo32 f.stagedVer
      | _ => 0
    else 0

/-- Block 0x02 (R61). -/
def viewChart (s : State) (off : Nat) : Nat :=
  let c := s.chart.inUse.getD (List.replicate 128 0)
  match off with
  | 0x000 => chartSerial c
  | 0x004 => chartN c 4 2
  | 0x008 => chartN c 8 4
  | 0x00C => chartN c 16 4
  | 0x010 => chartN c 20 4
  | 0x040 => lookoutCheck c
  | 0x044 => pk s.chart.rejectTag (s.chart.rejectSrc * 256 + s.chart.rejectReason)
  | _ => if 0x020 ≤ off ∧ off < 0x040 then beWord (chartDigest c) ((off - 0x020) / 4) else 0

/-- Block 0x70. -/
def viewLocker (s : State) (inst off : Nat) : Nat :=
  let l := s.locker
  if inst < 128 then
    let x := l.slot[(Fin.ofNat 128 inst : Fin 128)]
    match off with
    | 0x000 => fv 31 30 x.st.code + fb 29 x.copyFault + fv 23 16 x.usage + fv 15 8 x.alg + fv 7 0 x.roles
    | 0x004 => fv 31 24 x.parent + fv 23 16 x.flags + fv 15 0 x.len
    | 0x008 => beNat (slice x.attrs 8 4)
    | 0x00C => beNat (slice x.attrs 12 4)
    | 0x010 => x.uses
    | 0x014 => lo32 x.time
    | 0x018 => hi32 x.time
    | _ => 0
  else
    let n := fun (st : SlotSt) => (l.slot.toList.filter fun x => decide (x.st = st)).length
    match off with
    | 0x000 => fv 31 24 (n .valid) + fv 23 16 (n .unusable) + fv 6 0 l.scrubPos
    | 0x004 => lo32 l.scrubLast
    | 0x008 => hi32 l.scrubLast
    | _ => 0

/-- The die of an island is up (Table 01-2): H-AON and M-CHR always are. -/
def islandDieUp (s : State) (i : Fin 17) : Bool :=
  if i.val = 7 ∨ i.val = 14 then true
  else if i.val < 8 then s.landfall.helmUp
  else if i.val < 12 then s.sx.up
  else if i.val < 14 then s.mer.up
  else if i.val = 15 then s.lk.runA else s.lk.runB

/-- Block 0xA0. -/
def viewPower (s : State) (off : Nat) : Nat :=
  let l := s.landfall
  match off with
  | 0x004 => fv 31 29 s.pwr.rung.code + fv 28 24 s.pwr.lastWake
  | 0x010 => ((List.finRange 17).map fun i =>
      fb i.val (islandDieUp s i && !s.flt.island[i].lost && !s.flt.island[i].off)).sum
  | _ =>
    if off = 0x020 ∨ off = 0x024 then (Config.unstated 465 (s.mono * 2 + off / 4 % 2) % 2 ^ 32).toNat
    else if 0x040 ≤ off ∧ off < 0x064 then
      let r := (off - 0x040) / 4
      let up := ([l.coreOk, s.lk.runA, s.lk.runB, !s.mer.supplyFail, !s.mer.supplyFail, l.ioOk, l.vdda, l.vddRf, s.pwr.vbat] :
        List Bool).getD r false
      let mv := match s.pwr.rail.toList.getD r none with
        | some v => min 65535 (v / 1000)
        | none => (Config.unstated 466 (s.mono * 16 + r) % 65536).toNat
      fb 16 up + mv
    else 0

/-- Block 0xF0. -/
def viewJournal (s : State) (inst off : Nat) : Nat :=
  if inst = 0 then
    match off with
    | 0x000 => lo32 s.host.nextOp
    | 0x004 => fv 9 0 (s.host.journal.filter jrnHeld).length
    | 0x008 => lo32 s.landfall.recoveryEnd
    | 0x00C => hi32 s.landfall.recoveryEnd
    | _ => 0
  else
    let l := s.log
    match off with
    | 0x000 => fb 31 l.fault + fb 30 l.wear + fb 29 l.scanDone + fv 15 0 l.lifeY
    | 0x004 => lo32 l.nextNo
    | 0x008 => ((loggedEvents l ++ l.waiting.filterMap LogItem.event?).head?.map fun r => lo32 r.no).getD 0
    | 0x00C => pk (spareBlocks l.device - l.retired) l.retired
    | 0x010 => lo32 (weekBytes (s.nowNs / 86400000000000) l.week * 5 / 28)
    | _ => 0

/-! ### A word as a session reads it -/

/-- The words of an instance that read from a session's shadow (R228, R461). -/
def shadowed (inst off : Nat) (fs : List RegField) : Bool :=
  let ro := fs.all fun f => f.acc == .ro
  (decide (0x500 ≤ inst ∧ inst ≤ 0x502) && ro) || decide (0x800 ≤ inst ∧ inst ≤ 0x801)
    || (decide (inst = 0x600) && decide (off = 0x008 ∨ (0x010 ≤ off ∧ off < 0x030)))
    || (decide (inst = 0x700) && decide (off = 0x004 ∨ (0x0A0 ≤ off ∧ off < 0x0AC) ∨ 0x400 ≤ off))

/-- A captured word of a session; 0 before any capture (R461). -/
def shadowAt (x : Session) (a : Nat) : Nat := ((x.shadow.find? (·.1 == a)).map (·.2)).getD 0

/-- What a word's fields show, other than configuration: status, counters, W1C bits, and LIVE values. -/
def dynWord (s : State) (a : Nat) : Nat :=
  let inst := addrInst a
  let off := addrOff a
  match addrBlk a with
  | 0x01 => viewSystem s off
  | 0x02 => viewChart s off
  | 0x10 => viewSextant s off
  | 0x11 => viewStage s (Fin.ofNat 8 inst) off
  | 0x12 => viewCell s (Fin.ofNat 48 inst) off
  | 0x13 => viewChannel s (Fin.ofNat 48 inst) off
  | 0x14 => viewLaw s (Fin.ofNat 96 inst) off
  | 0x15 => viewSd s (Fin.ofNat 64 inst) off
  | 0x20 => viewOutlet s (Fin.ofNat 2 inst) off
  | 0x21 => viewReader s off
  | 0x22 => viewCooling s (Fin.ofNat 2 inst) off
  | 0x30 => (merWord s a).toNat +
      if inst < 12 then viewMch s (Fin.ofNat 12 inst) off
      else if inst < 0x200 then viewMod s (Fin.ofNat 20 (inst - 0x100)) off
      else if inst < 0x300 then
        let r := s.mer.fe.rtd[(Fin.ofNat 4 (inst - 0x200) : Fin 4)]
        if off = 0x004 then sv 16 16 r.t + fv 2 0 r.rstat else 0
      else if inst = 0x300 then viewMetGlobal s off
      else if inst = 0x500 ∨ inst = 0x501 then
        if off = 0x04C then fv 31 16 s.mer.leg.pulse[(Fin.ofNat 2 (inst - 0x500) : Fin 2)].drop else 0
      else if inst = 0x600 then viewEvents s off
      else if inst = 0x700 then viewBilling s off
      else 0
  | 0x40 => viewLookout s inst off
  | 0x50 => viewTurxel s inst off
  | 0x51 => viewLogLine s off
  | 0x60 => viewManager s inst off
  | 0x70 => viewLocker s inst off
  | 0x80 => viewDisplay s off
  | 0x90 => viewCommercial s inst off
  | 0xA0 => viewPower s off
  | 0xF0 => viewJournal s inst off
  | _ => 0

/-- The configuration that the chart or a write under R59 has set; TAMP_CFG is kept by the always-on island. -/
def rwlWord (s : State) (a : Nat) : Nat := if a = 0x01000300 then s.tamper.cfg.toNat else (cfgWord s a).toNat

/-- The word at a valid address as a session reads it (R457, R460, R461). Reserved bits and WO fields read 0. -/
def readWord (s : State) (x : Session) (a : Nat) : Word :=
  match wordFields s.variant a with
  | none => 0
  | some fs =>
    let cfg := Nat.land (rwlWord s a) (fieldMask (· == .rwl) fs)
    let dyn := Nat.land (if addrBlk a = 0x30 ∧ shadowed (addrInst a) (addrOff a) fs = true then shadowAt x a else dynWord s a)
      (fieldMask (fun c => c == .ro || c == .rw || c == .w1c || c == .live) fs)
    BitVec.ofNat 32 (cfg + dyn)

/-! ### Captures (R461) -/

/-- Words captured for a session. -/
def capture (s : State) (sid : Nat) (ws : List (Nat × Nat)) : State :=
  updSession s sid fun x => { x with shadow := ws ++ x.shadow.filter fun p => !ws.any (·.1 == p.1) }

/-- Words of an instance of block 0x30, by address. -/
def at30 (inst : Nat) (ws : List (Nat × Nat)) : List (Nat × Nat) := ws.map fun w => (regAddr 0x30 inst w.1, w.2)

/-- What reading the word at an address captures (Table 19-3). -/
def captureOn (s : State) (sid a : Nat) : State :=
  if a = regAddr 0x30 0x500 0x020 then capture s sid (at30 0x500 (energyWords s 0))
  else if a = regAddr 0x30 0x501 0x020 then capture s sid (at30 0x501 (energyWords s 1))
  else if a = regAddr 0x30 0x502 0x020 then capture s sid (at30 0x502 (acEnergyWords s))
  else if a = regAddr 0x30 0x800 0x000 then capture s sid (at30 0x800 (billingWords s 0))
  else if a = regAddr 0x30 0x801 0x000 then capture s sid (at30 0x801 (billingWords s 1))
  else if a = regAddr 0x30 0x700 0x000 then capture s sid [(regAddr 0x30 0x700 0x004, hi32 s.now)]
  else s

/-- A record's words at their addresses, zeros past its end. -/
def recordWords (inst off n : Nat) (ws : List Nat) : List (Nat × Nat) :=
  (List.range n).map fun k => (regAddr 0x30 inst (off + 4 * k), nth ws k)

/-- The capture of a selector write (Table 19-3): the selected record, 0 the newest; all 0 if empty. -/
def selectRecord (s : State) (sid : Nat) (sel : RecordSel) (i : Nat) : State :=
  let l := s.mer.leg
  capture s sid (match sel with
    | .evt => (regAddr 0x30 0x600 0x008, i) ::
        recordWords 0x600 0x010 8 ((l.events[i]?.map fun e => e.words s.mono).getD [])
    | .snap => (regAddr 0x30 0x700 0x0A0, i) :: recordWords 0x700 0x400 128 (l.snapshots[i]?.getD [])
    | .srec => (regAddr 0x30 0x700 0x0A4, i) ::
        recordWords 0x700 0x600 64 ((l.sessions[i]?.map fun r => r.words s.mono).getD [])
    | .levt => (regAddr 0x30 0x700 0x0A8, i) ::
        recordWords 0x700 0x700 8 ((l.legalEvents[i]?.map LegalEvent.words).getD []))

/-- `n` consecutive words read in ascending order, each capture made as its word is reached (R460, R461); an
operation whose session has ended reads without a capture (R394). -/
def readWords : Nat → Nat → Nat → State → List Word × State
  | 0, _, _, s => ([], s)
  | n + 1, sid, a, s =>
    let t := captureOn s sid a
    let x : Session := (findSession t sid).getD { sid := sid, role := 0, keyIn := [], keyOut := [], via := .spi, lastRx := 0 }
    let r := readWords n sid (a + 4) t
    (readWord t x a :: r.1, r.2)

end Sys2Proof.Machine
end

