-- ==== Sys2Proof/Machine/ParamWrite.lean ====
section
/-!
DEFINITION. Writing parameter words (R58, R59, R95, R411, R458, R462, R463): which words a role may write at which time,
and what a write does: configuration, LIVE values, counters cleared, W1C bits, record selectors, METRO_COMMIT.
-/
namespace Sys2Proof.Machine

/-- Landfall is complete. -/
def landfallDone (s : State) : Bool := s.landfall.phase == 9

/-- The four selectors of R461, by address. -/
def selectorAt (a : Nat) : Option RecordSel :=
  if a = regAddr 0x30 0x600 0x008 then some .evt
  else if a = regAddr 0x30 0x700 0x0A0 then some .snap
  else if a = regAddr 0x30 0x700 0x0A4 then some .srec
  else if a = regAddr 0x30 0x700 0x0A8 then some .levt
  else none

/-- The roles of Table 19-2: 0 OPERATOR, 1 SERVICE, 2 METROLOGY, 3 VENDOR. A field of this access in the word at `a` may
be written by `role`; `done`: after Landfall complete. -/
def mayWrite (done : Bool) (role : Fin 4) (a : Nat) : Access → Bool
  | .ro => false
  | .rwl => !done && (role == 1 || role == 3)
  | .wo => role == 2
  | .live =>
    if addrBlk a = 0x30 then role == 2 else if addrBlk a = 0x90 then role == 0 else false
  | .w1c => role ≠ 2 && ((0x10 ≤ addrBlk a && addrBlk a ≤ 0x15) || addrBlk a == 0x21 || addrBlk a == 0x50 || addrBlk a == 0x51)
  | .rw =>
    if (selectorAt a).isSome then true
    else if addrBlk a = 0x30 then role == 2
    else if addrBlk a = 0x40 ∨ addrBlk a = 0x70 then false
    else role == 1 || role == 3 || (role == 0 && 0x10 ≤ addrBlk a && addrBlk a ≤ 0x15)

/-- The value may go into a counter or selector (R95, R461). -/
def rwValueOk (a : Nat) (fs : List RegField) (w : Nat) : Bool :=
  if (selectorAt a).isSome then fieldsInRange (· == .rw) fs w
  else !(fs.any (·.acc == .rw)) || w == 0

/-- DEM_LEN of DEM_CFG fits its mode (R252). -/
def demLenOk (a w : Nat) : Bool :=
  a ≠ regAddr 0x30 0x700 0x014 ||
    (let n := bitsOf w 30 24
     if bitsOf w 31 31 = 1 then decide (0 < n) && 60 % n == 0 else [5, 10, 15, 30, 60].contains n)

/-- One word of a WRITE_PARAM judged without regard to the module's state beyond Landfall (R411, R455, R458)
(DEDUCED, log 60). -/
def wordVerdict (s : State) (role : Fin 4) (a w : Nat) : Status :=
  match wordFields s.variant a with
  | none => .badParam
  | some fs =>
    let may := mayWrite (landfallDone s) role a
    let mask := fieldMask may fs
    if addrBlk a = 0x02 ∨ addrBlk a = 0x70 then .badParam
    else if addrBlk a = 0x40 then .roleDenied
    else if mask = 0 then
      if (allRoles.any fun r => decide (fieldMask (mayWrite (landfallDone s) r a) fs ≠ 0))
        || (addrBlk a == 0x60 && fs.any (·.acc == .live)) then .roleDenied else .badParam
    else if Nat.land w mask = w && rwValueOk a fs w && fieldsInRange (fun c => may c && c ≠ .rw) fs w && demLenOk a w then .ok
    else .badParam

/-- The address pairs of R462: the low word of a 64-bit field that the host can write. -/
def pairLow (a : Nat) : Bool :=
  (addrBlk a == 0x30 && (addrInst a == 0x500 || addrInst a == 0x501) && addrOff a == 0x018)
    || (addrBlk a == 0x90 && addrOff a == 0x800)

/-- A run of words holds each pair of R462 whole or not at all. -/
def pairsWhole (addr n : Nat) : Bool :=
  let has := fun a => decide (addr ≤ a ∧ a < addr + 4 * n)
  (List.range (n + 2)).all fun k =>
    let a := addr + 4 * k - 4
    !pairLow a || has a == has (a + 4)

/-- The words of a command, with their addresses. -/
def addressed (addr : Nat) (words : List Word) : List (Nat × Nat) :=
  (List.range words.length).zip words |>.map fun p => (addr + 4 * p.1, p.2.toNat)

/-- The whole command judged (R411, R455, R462): ROLE_DENIED when only the role is wrong of a word and every other word
would pass. -/
def writeVerdict (s : State) (role : Fin 4) (addr : Nat) (words : List Word) : Status :=
  let vs := (addressed addr words).map fun p => wordVerdict s role p.1 p.2
  if words.length = 0 ∨ 64 < words.length ∨ 0xFFC < addrOff addr + 4 * (words.length - 1) then .badParam
  else if vs.contains .badParam then .badParam
  else if vs.contains .roleDenied then .roleDenied
  else if pairsWhole addr words.length then .ok
  else .badParam

/-! ### The effects -/

/-- Counters of the word at an address cleared (R95). -/
def clearCounter (s : State) (a : Nat) : State :=
  let inst := addrInst a
  let off := addrOff a
  match addrBlk a with
  | 0x01 =>
    if off = 0x170 then { s with host := { s.host with macFail := 0, seqDrop := 0 } }
    else if off = 0x174 then { s with host := { s.host with authFail := 0 } }
    else if off = 0x418 then { s with flt := { s.flt with corr := 0, ded := 0 } }
    else if off = 0x41C then { s with flt := { s.flt with islCnt := 0, supCnt := 0 } }
    else
      let k : Fin 6 := Fin.ofNat 6 ((off - 0x140) / 8)
      let f := fun (c : ClassState) => if off % 8 = 0 then { c with acc := 0 } else { c with ref := 0 }
      { s with host := { s.host with cls := upd s.host.cls k f } }
  | 0x11 =>
    let f := fun (x : StageAux) => if off = 0x060 then { x with fireCnt := 0, abandonCnt := 0 }
      else { x with shedCnt := 0, addCnt := 0 }
    updAux s (Fin.ofNat 8 inst) f
  | 0x13 => updChannel s (Fin.ofNat 48 inst) fun x => { x with catchCnt := 0, minpCnt := 0 }
  | 0x14 => updLaw s (Fin.ofNat 96 inst) fun l =>
      if off = 0x044 then { l with cntProd := 0, cntAcc := 0 }
      else if off = 0x048 then { l with cntOut := 0, cntInt := 0 }
      else if off = 0x04C then { l with cntOvr := 0, cntSwap := 0 }
      else { l with histMax := 0, hist := [] }
  | 0x21 =>
    if off = 0x014 then { s with rdr := { s.rdr with miss := 0, crc := 0 } }
    else { s with rdr := { s.rdr with coll := 0, unconf := 0 } }
  | 0x30 =>
    if inst < 12 then updMch s (Fin.ofNat 12 inst) fun c => { c with switchCnt := 0, freezeCnt := 0 }
    else if inst = 0x600 then updLeg s fun l => { l with evtOverwrite := 0 }
    else
      let f := fun (p : PulseOut) => { p with drop := 0 }
      updLeg s fun l => { l with pulse := upd l.pulse (Fin.ofNat 2 (inst - 0x500)) f }
  | 0x50 =>
    updTxlPort s (Fin.ofNat 2 (inst - 1)) fun p =>
      if off = 0x010 then { p with drop := 0, macFail := 0 } else { p with seqFail := 0, txOvf := 0 }
  | 0x51 =>
    if off = 0x018 then { s with ll := { s.ll with ok := 0, lost := 0 } }
    else if off = 0x01C then { s with ll := { s.ll with retry := 0, stepCnt := 0 } }
    else { s with ll := { s.ll with beaconMax := 0 } }
  | 0x60 =>
    if off = 0x028 then { s with mgr := { s.mgr with takeover := 0, curtail := 0 } }
    else { s with mgr := { s.mgr with shadowCnt := 0 }, wrk := { s.wrk with fenced := 0 } }
  | 0x80 =>
    if off = 0x0A0 then { s with disp := { s.disp with discard := 0, supersede := 0 } }
    else { s with disp := { s.disp with miss := 0 } }
  | _ => s

/-- W1C bits of the word at an address cleared; a bit whose cause is still present stays (R463) (DEDUCED, log 60). -/
def clearW1c (s : State) (a w : Nat) : State :=
  let inst := addrInst a
  let off := addrOff a
  match addrBlk a with
  | 0x10 =>
    if off = 0x060 then
      let keep := (List.range 8).filter fun k => !(w.testBit (8 + k)) || s.sx.uscLevel.testBit k
      let f := ((keep.filter fun k => s.sx.uscFired.testBit k).map fun k => 2 ^ k).sum
      { s with sx := { s.sx with uscFired := f } }
    else (List.range 32).foldl (fun t k =>
      if w.testBit k then updLaw t (Fin.ofNat 96 (32 * ((off - 0x084) / 4) + k)) fun l => { l with ovrMap := false } else t) s
  | 0x11 => updAux s (Fin.ofNat 8 inst) fun x =>
      { x with syncLost := x.syncLost && !w.testBit 2, syncRange := x.syncRange && !w.testBit 1,
               roseChanged := x.roseChanged && !w.testBit 0 }
  | 0x13 => updChannel s (Fin.ofNat 48 inst) fun x =>
      { x with fltSeen := x.fltSeen && (!w.testBit 14 || x.fltIn), rbErrH := x.rbErrH && !w.testBit 13,
               rbErrL := x.rbErrL && !w.testBit 12 }
  | 0x14 => updLaw s (Fin.ofNat 96 inst) fun l =>
      let f : SatFlags := { prod := l.flags.prod && !w.testBit 0, acc := l.flags.acc && !w.testBit 1,
                            out := l.flags.out && !w.testBit 2, int := l.flags.int && !w.testBit 3 }
      { l with overrun := l.overrun && !w.testBit 4, flags := f }
  | 0x15 => updSd s (Fin.ofNat 64 inst) fun x =>
      { x with stuck := x.stuck && !w.testBit 1, fastTrip := x.fastTrip && !w.testBit 0 }
  | 0x21 =>
    let t := updPort s 0 fun p => { p with tagExtra := p.tagExtra && !w.testBit 6 }
    updPort t 1 fun p => { p with tagExtra := p.tagExtra && !w.testBit 7 }
  | 0x50 => updTxlPort s (Fin.ofNat 2 (inst - 1)) fun p => { p with xconn := p.xconn && !w.testBit 28 }
  | _ => s

/-- An account's emergency mode and request written (R268); an activation is logged (DEDUCED, log 63). -/
def setEmerg (s : State) (n : Nat) (mode : Nat) (req : Bool) : State :=
  let a := account s n
  let b := { a with mode := mode, req := req, act := a.act || (mode == 2 && req && !a.req) || (mode == 1 && decide (a.credit ≤ 0)) }
  let t := updAccount s n fun _ => b
  if b.act && !a.act then logInfo t (Config.eventCode 268) .helm n else t

/-- The LIVE fields of one word of block 0x90 written (R266, R268); CREDIT is written as a pair. -/
def writeCommercial (s : State) (a w : Nat) : State :=
  let n := addrInst a
  match addrOff a with
  | 0x800 => updAccount s n fun x => { x with credit := toSigned 64 (hi32 (ofSigned 64 x.credit) * 2 ^ 32 + w) }
  | 0x804 => updAccount s n fun x => x.revise (toSigned 64 (w * 2 ^ 32 + lo32 (ofSigned 64 x.credit)))
  | 0x808 => updAccount s n fun x => { x with emerg := w }
  | 0x80C => setEmerg s n (bitsOf w 31 30) (w.testBit 29)
  | _ => { s with com := { s.com with live := sparsePut (resetWord a) s.com.live a (BitVec.ofNat 32 w) } }

/-- A LIVE word of block 0x30 written to the staging copy (R217). -/
def stageWord (s : State) (a w : Nat) : State :=
  { s with mer := { s.mer with
      staged := sparsePut (resetWord a) s.mer.staged a (BitVec.ofNat 32 w), stagedCnt := s.mer.stagedCnt + 1 } }

/-- One word written by a session (R411); the verdict has been given. -/
def writeWord (s : State) (sid : Nat) (role : Fin 4) (a w : Nat) : State :=
  match wordFields s.variant a with
  | none => s
  | some fs =>
    let has := fun (c : Access) => fs.any (·.acc == c) && mayWrite (landfallDone s) role a c
    match selectorAt a with
    | some sel => selectRecord s sid sel w
    | none =>
      if has .live then if addrBlk a = 0x30 then stageWord s a w else writeCommercial s a w
      else if has .w1c then clearW1c s a w
      else if has .rw then clearCounter s a
      else if has .rwl then
        let m := fieldMask (· == .rwl) fs
        let t := cfgPut s a (BitVec.ofNat 32 (w + ((cfgWord s a).toNat - Nat.land (cfgWord s a).toNat m)))
        if a = 0x01000300 then { t with tamper := { t.tamper with cfg := BitVec.ofNat 32 w } } else t
      else s

/-- The words of a WRITE_PARAM written in address order; a commit is made where METRO_COMMIT is written with 1. -/
def writeWords (s : State) (sid : Nat) (role : Fin 4) (ws : List (Nat × Nat)) : Status × State :=
  ws.foldl (fun p x =>
    if x.1 = regAddr 0x30 0x300 0x008 then if x.2 = 1 ∧ p.1 = .ok then metroCommit p.2 else p
    else (p.1, writeWord p.2 sid role x.1 x.2)) (.ok, s)

/-- WRITE_PARAM carried out (R217, R266, R411): refused whole with BAD_STATE when it writes CREDIT of an account in use,
and with the commit's status when it commits. METRO_COMMIT stands between read-only words, so it is written alone. -/
def runWrite (s : State) (sid : Nat) (role : Fin 4) (addr : Nat) (words : List Word) : Status × State :=
  let ws := addressed addr words
  if ws.any fun x => addrBlk x.1 == 0x90 && addrOff x.1 == 0x800 && accountInUse s (addrInst x.1) then (.badState, s)
  else
    match writeWords s sid role ws with
    | (.ok, t) => (.ok, t)
    | (st, _) => (st, s)

/-- The steps of a WRITE_PARAM (R404, R411): one a word for Helm, one for all words of block 0x30; Table 16-4 counts at
most 16 (DESIGN CHOICE, log 25). -/
def writeSteps (addr n : Nat) : Nat := if addrBlk addr = 0x30 then 1 else min 16 n

end Sys2Proof.Machine
end

