-- ==== Sys2Proof/Machine/Tick.lean ====
section
/-!
DEFINITION. What passes by itself in a millisecond with no command waiting (DESIGN CHOICE, log 2): uptime, the
Chronometer with its slew and uncertainty (R243, R245), and the classes' tokens (R396).
-/
namespace Sys2Proof.Machine

/-- Tokens per second and burst of class `k`, and its slots (Table 16-3). -/
def classRate (k : Nat) : Nat := [20000, 5000, 1000, 200, 20, 2].getD k 0

/-- The burst of class `k`. -/
def classBurst (k : Nat) : Nat := [8, 32, 32, 32, 16, 8].getD k 0

/-- The slots of class `k`. -/
def classSlots (k : Nat) : Nat := [8, 32, 32, 64, 64, 56].getD k 0

/-- The buckets refilled for one millisecond, in thousandths of a token (R396) (DESIGN CHOICE, log 2). -/
def refill (cl : Vector ClassState 6) : Vector ClassState 6 :=
  Vector.ofFn fun k => { cl[k] with milli := min (classBurst k * 1000) (cl[k].milli + classRate k) }

/-- The Chronometer one millisecond on: a slew moves it at 200 ppm, and while PTP is not in use UNCERT grows by 2 µs a
second, or by 50 µs a second while M-CHR's clock is lost (R243, R245, Table 18-2) (DESIGN CHOICE, log 2). -/
def chronoTick (chrLost : Bool) (c : Chrono) : Chrono :=
  if c.running then
    let d := clampInt (-200) 200 c.slew
    { c with
      ns := ((c.ns : Int) + 1000000 + d).toNat
      slew := c.slew - d
      daySlew := c.daySlew + d
      uncNs := if c.src = 1 then c.uncNs else min 16777215000000 (c.uncNs + if chrLost then 50 else 2) }
  else c

/-- One millisecond passes (log 2). -/
def tick (s : State) : State :=
  { s with
    mono := s.mono + 1
    mer := { s.mer with chr := chronoTick s.flt.island[14].lost s.mer.chr }
    host := if s.landfall.hostReady then { s.host with cls := refill s.host.cls } else s.host }

end Sys2Proof.Machine
end

