-- ==== Sys2Proof/Machine/HostOps.lean ====
section
/-!
DEFINITION. What the host commands share (R385 to R412): the table of commands, the journal entry's bytes, which
commands are open at which moment (R38), capacity (R396, R398), replies, acceptance, start and end of an operation,
sessions' ends, and chunked transfers.
-/
namespace Sys2Proof.Machine

/-! ### Table 16-6 -/

/-- Command codes. -/
def HostCmd.code : HostCmd → Nat
  | .barrier => 0x07 | .healthGet => 0x08 | .journalRead _ _ => 0x09 | .logRead _ _ => 0x0A
  | .readParam _ _ => 0x10 | .writeParam _ _ => 0x11 | .telFix _ _ => 0x12
  | .sessionAuthorise _ _ _ => 0x20 | .sessionCert _ _ _ => 0x20 | .sessionStop _ => 0x21 | .authTableLoad _ => 0x22
  | .accountLoad _ _ _ => 0x23 | .siteLimitSet _ _ => 0x24 | .weatherHold _ => 0x25 | .scrollSet _ => 0x26
  | .displayRect _ _ _ _ _ => 0x27 | .tariffLoad _ => 0x30 | .clockSet _ => 0x31 | .billingClose => 0x32
  | .safetyConfirm _ _ => 0x40 | .latchClear _ _ => 0x41 | .keyImport _ _ _ _ _ _ => 0x50 | .keyDerive _ _ _ _ _ => 0x51
  | .keyInvalidate _ => 0x52 | .keyEncrypt _ _ _ _ _ => 0x53 | .keyDecrypt _ _ _ _ _ _ => 0x53 | .keySign _ _ _ => 0x53
  | .keyVerify _ _ _ _ _ => 0x53 | .keyMac _ _ _ => 0x53 | .keyPublic _ _ => 0x53 | .attest _ _ => 0x54
  | .fwStage _ _ => 0x60 | .fwVerify _ _ _ => 0x61 | .fwActivate _ => 0x62 | .unknown c => c

/-- The payload of a chunk (R412). -/
def chunkBody (k : Chunk) : Bytes := toBe 4 k.total ++ toBe 4 k.offset ++ k.data

/-- The payload of a command as Table 16-6 and the keys chapter lay it out (R410, R412, R422 to R430). -/
def HostCmd.body : HostCmd → Bytes
  | .journalRead id n => toBe 4 id ++ toBe 1 n
  | .logRead r n => toBe 4 r ++ toBe 1 n
  | .readParam a n => toBe 4 a ++ toBe 2 n
  | .writeParam a ws => toBe 4 a ++ toBe 2 ws.length ++ (ws.map fun w => toBe 4 w.toNat).flatten
  | .telFix sc pk => toBe 1 sc ++ toBe 1 (flag pk)
  | .sessionAuthorise o d h => toBe 1 o ++ toBe 1 d ++ h
  | .sessionCert o h k => toBe 1 o ++ toBe 1 3 ++ h ++ chunkBody k
  | .sessionStop o => toBe 1 o
  | .authTableLoad k => chunkBody k
  | .accountLoad n op v => toBe 4 n ++ toBe 1 op ++ toBe 8 (v % 2 ^ 64).toNat
  | .siteLimitSet p l => toBe 4 p ++ toBe 1 l.length ++ (l.map fun x => toBe 2 x.1 ++ toBe 1 x.2 ++ toBe 1 0).flatten
  | .weatherHold m => toBe 2 m
  | .scrollSet l => toBe 1 l.length
      ++ (l.map fun i => toBe 1 i.kind ++ toBe 1 i.dwell ++ toBe 1 i.arg ++ toBe 1 i.text.length ++ i.text).flatten
  | .displayRect x y w h pix => toBe 1 x ++ toBe 1 y ++ toBe 1 w ++ toBe 1 h ++ pix
  | .tariffLoad k => chunkBody k
  | .clockSet t => toBe 8 t
  | .safetyConfirm v rv => toBe 4 v ++ toBe 1 (flag rv)
  | .latchClear sc i => toBe 1 sc ++ toBe 1 i
  | .keyImport k w a m _ _ => toBe 1 k ++ toBe 1 w ++ a ++ toBe 2 m.length ++ m
  | .keyDerive p c a x _ => toBe 1 p ++ toBe 1 c ++ a ++ toBe 1 x.length ++ x
  | .keyInvalidate k => toBe 1 k
  | .keyEncrypt k iv aad d _ => toBe 1 k ++ toBe 1 1 ++ iv ++ toBe 2 aad.length ++ aad ++ d
  | .keyDecrypt k iv aad d _ _ => toBe 1 k ++ toBe 1 2 ++ iv ++ toBe 2 aad.length ++ aad ++ d
  | .keySign k m _ => toBe 1 k ++ toBe 1 3 ++ m
  | .keyVerify k g m _ _ => toBe 1 k ++ toBe 1 4 ++ toBe 2 g.length ++ g ++ m
  | .keyMac k m _ => toBe 1 k ++ toBe 1 5 ++ m
  | .keyPublic k _ => toBe 1 k ++ toBe 1 6
  | .attest n _ => n
  | .fwStage k c => toBe 1 k ++ chunkBody c
  | .fwVerify k _ _ => toBe 1 k
  | .fwActivate k => toBe 1 k
  | _ => []

/-! ### Frames of the host (R388, R389) -/

/-- A frame's payload: its command's, or one without its layout. -/
def framePayload (f : Frame) (body : Bytes) : Bytes := f.raw.getD body

/-- The header of a frame with its command's code (Table 16-1). -/
def frameHeader (f : Frame) (code : Nat) : Bytes :=
  toBe 1 code ++ toBe 1 f.flags ++ toBe 2 f.sid ++ toBe 4 f.seq ++ toBe 1 f.cls ++ toBe 1 f.status ++ toBe 2 f.len ++ toBe 4 f.opId

/-- The MAC of a frame under a key (R389). -/
def frameMac (key : Bytes) (f : Frame) (code : Nat) (body : Bytes) : Bytes :=
  (hmac key (frameHeader f code ++ framePayload f body)).take 8

/-- The roles of the firmware commands by TARGET (Tables 16-6, 17-8, R55). -/
def fwRoles (target : Nat) : List (Fin 4) :=
  if target = 4 then [2] else if target = 5 then [1] else if 1 ≤ target ∧ target ≤ 3 then [1, 3] else [1, 2, 3]

/-- The roles a command is open to; WRITE_PARAM's are by field and KEY_USE's by slot. -/
def HostCmd.roles : HostCmd → List (Fin 4)
  | .telFix _ _ => [0, 1] | .sessionAuthorise _ _ _ => [0] | .sessionCert _ _ _ => [0] | .sessionStop _ => [0, 1]
  | .authTableLoad _ => [0, 1] | .accountLoad _ _ _ => [0] | .siteLimitSet _ _ => [0] | .weatherHold _ => [0]
  | .scrollSet _ => [0] | .displayRect _ _ _ _ _ => [0] | .tariffLoad _ => [2, 0] | .clockSet _ => [0, 2]
  | .billingClose => [2, 0] | .safetyConfirm _ _ => [1] | .latchClear scope _ => if scope = 1 then [1, 0] else [1]
  | .keyImport _ _ _ _ _ _ => [1] | .keyDerive _ _ _ _ _ => [1] | .keyInvalidate _ => [1]
  | .fwStage k _ => fwRoles k | .fwVerify k _ _ => fwRoles k | .fwActivate k => fwRoles k
  | _ => allRoles

/-- Minimum class. -/
def HostCmd.minClass : HostCmd → Nat
  | .barrier => 0 | .healthGet => 2 | .journalRead _ _ => 2 | .logRead _ _ => 4
  | .readParam a n => if addrBlk a = 0x30 ∨ addrBlk a = 0x40 then 2 else if n ≤ 16 then 0 else 1
  | .writeParam _ _ => 2 | .telFix _ _ => 1
  | .sessionAuthorise _ _ _ => 1 | .sessionCert _ _ _ => 1 | .sessionStop _ => 2 | .authTableLoad _ => 4
  | .accountLoad _ _ _ => 2 | .siteLimitSet _ _ => 2 | .weatherHold _ => 2 | .scrollSet _ => 3
  | .displayRect _ _ _ _ _ => 5 | .tariffLoad _ => 3 | .clockSet _ => 2 | .billingClose => 4
  | .safetyConfirm _ _ => 3 | .latchClear _ _ => 2 | .keyImport _ _ _ _ _ _ => 3 | .keyDerive _ _ _ _ _ => 2
  | .keyInvalidate _ => 2 | .keyEncrypt _ _ _ _ _ => 2 | .keyDecrypt _ _ _ _ _ _ => 2 | .keySign _ _ _ => 2
  | .keyVerify _ _ _ _ _ => 2 | .keyMac _ _ _ => 2 | .keyPublic _ _ => 2 | .attest _ _ => 3
  | .fwStage _ _ => 4 | .fwVerify _ _ _ => 5 | .fwActivate _ => 3 | .unknown _ => 0

/-- Steps of the journal entry (R404): DESIGN CHOICE, log 25, where an operation has more than one effect. -/
def HostCmd.steps : HostCmd → Nat
  | .writeParam a ws => writeSteps a ws.length
  | .siteLimitSet _ _ => 2 | .safetyConfirm _ _ => 2 | .keyInvalidate _ => 2 | .fwActivate _ => 2
  | _ => 1

/-- Commands with no lasting effect, by code (recovery — in Table 16-6). -/
def lasting (code : Nat) : Bool :=
  !([0x07, 0x08, 0x09, 0x0A, 0x10, 0x12, 0x53, 0x54, 0x60, 0x61] : List Nat).contains code

/-- Commands carried forward in recovery (F in Table 16-6). -/
def carriedOn (code : Nat) : Bool := ([0x24, 0x52, 0x62] : List Nat).contains code

/-- A chunk fits its command (R388, R412): `head` counts the payload bytes before its data, `unit` is the size its data
comes in, `most` the largest object. -/
def chunkOk (k : Chunk) (head unit most : Nat) : Bool :=
  decide (1 ≤ k.data.length ∧ head + k.data.length ≤ 1436 ∧ k.data.length % unit = 0 ∧ k.total % unit = 0 ∧ 1 ≤ k.total
    ∧ k.total ≤ most ∧ k.total < 2 ^ 32 ∧ k.offset < 2 ^ 32)

/-- The bytes a firmware target's slot holds (Table 02-4, R433). -/
def slotSize (target : Nat) : Nat :=
  if target = 1 then 2097152 else if target = 4 then 163840 else 524288

/-- An item of SCROLL_SET (Table 16-6, R272). -/
def ScrollItem.ok (i : ScrollItem) : Bool :=
  decide (1 ≤ i.kind ∧ i.kind ≤ 7 ∧ 2 ≤ i.dwell ∧ i.dwell ≤ 30 ∧ i.arg < 256 ∧ i.text.length ≤ 32)
    && (i.kind ≠ 1 || decide (1 ≤ i.arg ∧ i.arg ≤ 8))

/-- The payload has its command's layout and ranges (R395, check 4). For READ_PARAM every word must be valid and lie in
one instance (R455); WRITE_PARAM has its own verdict (R411). -/
def HostCmd.layoutOk (s : State) : HostCmd → Bool
  | .journalRead id n => decide (id < 2 ^ 32 ∧ 1 ≤ n ∧ n ≤ 44)
  | .logRead r n => decide (r < 2 ^ 32 ∧ 1 ≤ n ∧ n ≤ 21)
  | .readParam a n => decide (1 ≤ n ∧ n ≤ 256 ∧ addrOff a + 4 * (n - 1) ≤ 0xFFC)
      && (List.range n).all fun k => (wordFields s.variant (a + 4 * k)).isSome
  | .telFix sc _ => decide (sc < 8 ∨ sc = 0xFF)
  | .sessionAuthorise o d h => decide (o < 2 ∧ (d = 1 ∨ d = 2) ∧ h.length = 8)
  | .sessionCert o h k => decide (o < 2 ∧ h.length = 8) && chunkOk k 18 1 (2 ^ 32 - 1)
  | .sessionStop o => decide (o < 2)
  | .authTableLoad k => chunkOk k 8 16 1048576 && decide (k.data.length ≤ 1408)
  | .accountLoad n op v => decide (n < 4096 ∧ 1 ≤ op ∧ op ≤ 4 ∧ -2 ^ 63 ≤ v ∧ v < 2 ^ 63)
      && (op ≠ 2 || decide (0 ≤ v ∧ v < 2 ^ 32)) && (op ≠ 3 || decide (0 ≤ v ∧ v ≤ 2))
  | .siteLimitSet p l => decide (p < 2 ^ 32 ∧ l.length < 256) && l.all fun x => decide (x.1 < 1024 ∧ x.2 ≤ 3)
  | .weatherHold m => decide (m = 0 ∨ (10 ≤ m ∧ m ≤ 720))
  | .scrollSet l => decide (l.length ≤ 24) && l.all ScrollItem.ok
  | .displayRect x y w h pix => decide (x % 4 = 0 ∧ w % 4 = 0 ∧ 0 < w ∧ 0 < h ∧ x + w ≤ 160 ∧ y + h ≤ 64
      ∧ pix.length = w * h / 4 ∧ pix.length ≤ 1432)
  | .tariffLoad k => chunkOk k 8 1 2072
  | .clockSet t => ct64Ok t
  | .safetyConfirm v _ => decide (v < 2 ^ 32)
  | .latchClear scope i => decide (if scope = 1 then i < 8 else if scope = 2 then i < 48 else if scope = 3 then i < 2 else i = 0)
  | .keyImport k w a m _ _ => decide (k < 128 ∧ (w < 128 ∨ w = 0xFF) ∧ a.length = 16 ∧ 20 + m.length ≤ 1436)
  | .keyDerive p c a x _ => decide (p < 128 ∧ c < 128 ∧ a.length = 16 ∧ x.length ≤ 64)
  | .keyInvalidate k => decide (k < 128)
  | .keyEncrypt k iv aad d _ => decide (k < 128 ∧ iv.length = 12 ∧ 14 + aad.length + d.length ≤ 1434)
  | .keyDecrypt k iv aad d _ _ => decide (k < 128 ∧ iv.length = 12 ∧ 16 ≤ d.length ∧ 14 + aad.length + d.length ≤ 1434)
  | .keySign k m _ => decide (k < 128 ∧ m.length ≤ 1024)
  | .keyVerify k g m _ _ => decide (k < 128 ∧ 2 + g.length + m.length ≤ 1434)
  | .keyMac k m _ => decide (k < 128 ∧ m.length ≤ 1434)
  | .keyPublic k _ => decide (k < 128)
  | .attest n _ => decide (n.length = 16)
  | .fwStage k c => decide (1 ≤ k ∧ k ≤ 5) && chunkOk c 9 1 (slotSize k)
  | .fwVerify k _ _ => decide (1 ≤ k ∧ k ≤ 5)
  | .fwActivate k => decide (1 ≤ k ∧ k ≤ 5)
  | .unknown _ => false
  | _ => true

/-! ### When a command is open (R38) -/

/-- Commands answered at any time from host-ready. -/
def HostCmd.anyTime : HostCmd → Bool
  | .readParam _ _ => true | .healthGet => true | .logRead _ _ => true | .journalRead _ _ => true | .attest _ _ => true
  | _ => false

/-- A word of the block that R59 opens before Landfall complete. -/
def hasRwl (s : State) (a : Nat) : Bool := (wordFields s.variant a).any fun fs => fs.any fun f => f.acc == .rwl

/-- Commands that bring a module into service or out of a hold. -/
def HostCmd.inService (s : State) : HostCmd → Bool
  | .writeParam a ws => (List.range ws.length).all fun k => hasRwl s (a + 4 * k)
  | .keyImport _ _ _ _ _ _ => true | .keyDerive _ _ _ _ _ => true | .keyInvalidate _ => true
  | .keyEncrypt _ _ _ _ _ => true | .keyDecrypt _ _ _ _ _ _ => true | .keySign _ _ _ => true
  | .keyVerify _ _ _ _ _ => true | .keyMac _ _ _ => true | .keyPublic _ _ => true
  | .fwStage _ _ => true | .fwVerify _ _ _ => true | .fwActivate _ => true | .latchClear _ _ => true | .barrier => true
  | _ => false

/-- R38: the command is answered at this moment otherwise than with RECOVERING (DEDUCED, log 66). -/
def openNow (s : State) (role : Fin 4) (c : HostCmd) : Bool :=
  (landfallDone s && !s.landfall.recovering) || c.anyTime
    || (!s.landfall.recovering && (holdCode s == 4 || (decide (role = 1 ∨ role = 3) && c.inService s)))

/-- In holds 1 to 3 only SERVICE and VENDOR sessions open (Table 02-3) (DEDUCED, log 66). -/
def roleHeldOff (s : State) (role : Fin 4) : Bool :=
  decide (1 ≤ holdCode s ∧ holdCode s ≤ 3) && decide (role = 0 ∨ role = 2)

/-! ### The journal (R403, R404) -/

/-- The 32 bytes of an entry (Table 16-4). -/
def Jrn.bytes (j : Jrn) : Bytes :=
  let a := toBe 4 j.opId ++ toBe 1 j.cmd ++ toBe 1 j.cls ++ toBe 1 j.role ++ toBe 1 j.n
  let b := toBe 1 j.state ++ toBe 1 j.k ++ toBe 1 j.status
    ++ toBe 1 (flag j.running + 2 * flag j.recovered + 4 * flag j.tamper)
  let c := toBe 2 j.sid ++ [0, 0] ++ toBe 4 j.seq ++ toBe 8 j.accepted
  a ++ b ++ c ++ toBe 4 (crc32 (a ++ c))

/-- An entry added to the ring of 1,024: at its end an unprotected entry gives way, the oldest first. -/
def addJournal (l : List Jrn) (j : Jrn) : List Jrn :=
  if l.length < 1024 then l ++ [j]
  else match l.find? fun x => !x.held with
    | some x => l.erase x ++ [j]
    | none => l

/-- The entry of an operation is no longer protected. -/
def dropHold (s : State) (opId : Nat) : State := updJrn s opId fun j => { j with held := false }

/-- A step of an operation is done (R404) (DESIGN CHOICE, log 25). -/
def stepDone (s : State) (opId k : Nat) : State := updJrn s opId fun j => { j with state := 1, k := k }

/-! ### Replies (R388 to R390, R398) -/

/-- A frame outside an open session: SID 0 or a session still opening, SEQ 0, and a MAC of zeros (R389)
(DEDUCED, log 62). -/
def sendBare (s : State) (via : Transport) (sid code cls : Nat) (st : Status) (payload : Bytes) : State :=
  let f : OutFrame :=
    { cmd := code, reply := true, done := false, repeated := false, event := false, sid := sid, seq := 0, cls := cls
      status := st.code, opId := 0, payload := payload, mac := List.replicate 8 0, via := via }
  { s with host := { s.host with out := s.host.out ++ [f] } }

/-- An admission reply in a session, kept for retransmissions of its request. -/
def reply (s : State) (f : Frame) (code : Nat) (done : Bool) (st : Status) (opId : Nat) (payload : Bytes) : State :=
  match findSession s f.sid with
  | none => s
  | some x =>
    updSession (sendSession s x code true done false false f.cls st.code opId payload) f.sid fun y =>
      { y with given := ⟨f.seq, code, done, f.cls, st.code, opId, payload⟩ :: y.given }

/-- The completion bound of a class in µs (Table 16-3). -/
def classBound (k : Nat) : Nat := [50, 1000, 10000, 100000, 2000000, 60000000].getD k 0

/-- The payload of a NOT_ACCEPTED reply (R398). -/
def refusal (cause retry : Nat) : Bytes := toBe 1 cause ++ toBe 4 retry

/-- µs until the bucket of a class holds a token. -/
def tokenWait (s : State) (k : Fin 6) : Nat :=
  ((1000 - (s.host.cls[k]).milli) * 1000 + classRate k - 1) / classRate k

/-- µs until the earliest hold of a protected entry ends (R399, R406); the class bound if none is running. -/
def holdWait (s : State) (k : Fin 6) : Nat :=
  let results := (s.host.ops.filter (·.complete)).map fun x => x.doneAt + 60000 - s.mono
  let recovered := (s.host.journal.filter fun j => j.held && j.recovered).map fun _ => s.landfall.recoveredAt + 600000 - s.mono
  match (results ++ recovered).min? with
  | some ms => ms * 1000
  | none => classBound k

/-- A token of a class taken, its acceptance or its refusal counted (R396, R397). -/
def updClass (s : State) (k : Fin 6) (f : ClassState → ClassState) : State :=
  { s with host := { s.host with cls := upd s.host.cls k f } }

/-- What of R395's check 5 is lacking: the cause and RETRY_AFTER of R398. -/
def lacking (s : State) (sid : Nat) (k : Fin 6) (c : HostCmd) : Option (Nat × Nat) :=
  let queueFull : Bool := match c with
    | .displayRect _ _ _ _ _ => decide (16 ≤ s.disp.waiting.length)
    | _ => false
  if (s.host.cls[k]).milli < 1000 then some (1, tokenWait s k)
  else if classSlots k ≤ (s.host.ops.filter fun x => x.cls == k.val).length then some (2, classBound k)
  else if 64 ≤ slotsOf s sid then some (3, classBound k)
  else if queueFull then some (4, classBound k)
  else if 1024 ≤ s.host.journal.length ∧ s.host.journal.all (·.held) = true then some (6, holdWait s k)
  else none

/-- R395's checks 1 to 4 on an operation. -/
def admission (s : State) (role : Fin 4) (sid : Nat) (f : Frame) (c : HostCmd) : Status :=
  let roleBad : Bool := match c with
    | .writeParam a ws => writeVerdict s role a ws == .roleDenied
    | _ => !c.roles.contains role
  let rangeBad : Bool := match c with
    | .writeParam a ws => writeVerdict s role a ws != .ok
    | .barrier => s.host.ops.any fun x => x.sid == sid && !x.complete && decide (f.cls < x.cls)
    | _ => !c.layoutOk s
  let unknown : Bool := match c with
    | .unknown _ => true
    | _ => false
  if !openNow s role c then .recovering
  else if unknown then .badParam
  else if roleBad then .roleDenied
  else if 5 < f.cls ∨ f.cls < c.minClass then .badParam
  else if f.raw.isSome || rangeBad then .badParam
  else .ok

/-! ### Operations -/

/-- The operations accepted before one. -/
def opsBefore (s : State) (opId : Nat) : List Op := s.host.ops.takeWhile (·.opId ≠ opId)

/-- The operations that Meridian carries out, each a request in its mailbox: tariff calendars, legal parameters and values,
firmware chunks, the clock, a billing close (R15, R23, Table 01-3). -/
def HostCmd.toMeridian : HostCmd → Bool
  | .tariffLoad _ => true | .clockSet _ => true | .billingClose => true
  | .readParam a _ => addrBlk a == 0x30 | .writeParam a _ => addrBlk a == 0x30
  | .fwStage k _ => k == 4
  | _ => false

/-- An operation may start (R401, R402): every earlier one of its session and class has completed, and every earlier
BARRIER of its session; a BARRIER starts once every earlier one of its session has completed. One for Meridian waits while
16 requests are outstanding (R23). -/
def mayStart (s : State) (x : Op) : Bool :=
  !(x.cmd.toMeridian && decide (16 ≤ s.mer.mail.length)) && !(opsBefore s x.opId).any fun y =>
    y.sid == x.sid && !y.complete && (y.cls == x.cls || decide (y.cmd = .barrier) || decide (x.cmd = .barrier))

/-- The effect is under way and its result known, but the journal entry stays RUNNING until the operation completes. -/
def setResult (s : State) (opId : Nat) (st : Status) (payload : Bytes) : State :=
  updOp s opId fun x => { x with result := some ⟨st, payload⟩ }

/-- A session's unfinished transfer is discarded; a firmware target then holds no staged image (R412, R435). -/
def dropTransfers (s : State) (p : Transfer → Bool) : State :=
  let gone := s.host.transfers.filter p
  let t := { s with host := { s.host with transfers := s.host.transfers.filter fun x => !p x } }
  gone.foldl (fun u x => if x.cmd = 0x60 then updFw u (Fin.ofNat 5 (x.target - 1)) fun w => { w with stage := 0, stagedVer := 0, stagedLen := 0 }
    else u) t

/-- A session ends with its transfers (R394, R412). -/
def endSession (s : State) (sid : Nat) : State :=
  dropTransfers { s with host := { s.host with sessions := s.host.sessions.filter (·.sid ≠ sid) } } (·.sid == sid)

/-- A chunk taken (R412): `none` when it is refused; else whether it was the last, with the object's bytes. FW_STAGE
keeps no copy: its bytes go to their slot. -/
def takeChunk (s : State) (sid cmd target : Nat) (k : Chunk) : State × Option (Bool × Bytes) :=
  let mine := fun (x : Transfer) => x.sid == sid && x.cmd == cmd
  let old := s.host.transfers.find? mine
  let s := if k.offset = 0 then dropTransfers s mine else s
  let t : Option Transfer :=
    if k.offset = 0 then some { sid := sid, cmd := cmd, target := target, total := k.total, got := 0, data := [], at_ := s.mono }
    else old.filter fun x => x.got == k.offset && x.total == k.total && x.target == target
  match t with
  | none => (dropTransfers s mine, none)
  | some x =>
    let got := x.got + k.data.length
    let data := if cmd = 0x60 then [] else x.data ++ k.data
    let rest := s.host.transfers.filter fun y => !mine y
    if x.total < got then (dropTransfers s mine, none)
    else if got = x.total then ({ s with host := { s.host with transfers := rest } }, some (true, data))
    else ({ s with host := { s.host with transfers := rest ++ [{ x with got := got, data := data, at_ := s.mono }] } }, some (false, data))

end Sys2Proof.Machine
end

