-- ==== Sys2Proof/Machine/KeyOps.lean ====
section
/-!
DEFINITION. The Chart Locker's operations (R416 to R432): attribute rules, tag checks, import, derivation, use,
invalidation with its cascade, attestation, and erasure.
-/
namespace Sys2Proof.Machine

/-! ### Attributes (Tables 17-1 to 17-3) -/

/-- Length and usages of an algorithm (Table 17-3). -/
def algTable (alg : Nat) : Nat × List Nat :=
  match alg with
  | 0x01 => (16, [1, 2, 3]) | 0x02 => (32, [5, 3]) | 0x03 => (33, [6]) | 0x04 => (32, [7]) | 0x05 => (32, [4])
  | 0x10 => (32, [1, 2]) | 0x11 => (32, [5]) | 0x12 => (33, [6]) | 0x13 => (66, [5]) | 0x14 => (67, [6])
  | 0x15 => (57, [5]) | 0x16 => (57, [6])
  | _ => (0, [])

/-- Algorithms whose key takes two slots (R420). -/
def pairAlg (alg : Nat) : Bool := alg == 0x13 || alg == 0x14

/-- Public-key algorithms. -/
def publicAlg (alg : Nat) : Bool := ([0x03, 0x12, 0x14, 0x16] : List Nat).contains alg

/-- USAGE and ALG fixed for a slot from 0 to 7 (Table 17-1). -/
def fixedUse (k : Nat) : Nat × Nat := ([(5, 2), (6, 3), (6, 3), (3, 2), (7, 4), (7, 4), (7, 4), (7, 4)] : List (Nat × Nat)).getD k (0, 0)

/-- A byte of an attribute set. -/
def attrN (a : Bytes) (i : Nat) : Nat := (a.getD i 0).toNat

/-- The rules of Table 17-2, R420 and R423 on attributes written to a slot. -/
def attrsOk (s : State) (k : Nat) (a : Bytes) : Bool :=
  let t := algTable (attrN a 1)
  let pair := pairAlg (attrN a 1)
  t.2.contains (attrN a 0) && decide (attrN a 2 < 32) && decide (attrN a 3 < 128 ∨ attrN a 3 = 0xFF)
    && decide (attrN a 4 < 8) && (attrN a 4).testBit 2 == pair && attrN a 5 == 0 && beNat (slice a 6 2) == t.1
    && (!pair || decide (k % 2 = 0 ∧ 8 ≤ k))
    && (decide (8 ≤ k) || (fixedUse k == (attrN a 0, attrN a 1) && !(attrN a 4).testBit 1))
    && !((s.locker.slot[(Fin.ofNat 128 k : Fin 128)]).flags.testBit 3) && !([0, 1, 3] : List Nat).contains k

/-! ### Tags (R417, R418) -/

/-- A slot whose tag fails becomes UNUSABLE, logged. -/
def spoilSlot (s : State) (k : Fin 128) : State :=
  logDetect (updSlot s k fun x => { x with st := .unusable }) (if k.val < 8 then 0x0902 else 0x0901) .helm k

/-- The first slot of the pair that a slot belongs to; the slot itself otherwise (R420). -/
def pairBase (s : State) (k : Fin 128) : Fin 128 :=
  if (s.locker.slot[k]).flags.testBit 3 then Fin.ofNat 128 (k.val - 1) else k

/-- The second slot of a pair. -/
def pairSecond (s : State) (k : Fin 128) : Option (Fin 128) :=
  if (s.locker.slot[k]).flags.testBit 2 then some (Fin.ofNat 128 (k.val + 1)) else none

/-- A slot's whole key. -/
def keyOf (s : State) (k : Fin 128) : Bytes :=
  (s.locker.slot[k]).material ++ match pairSecond s k with
    | some m => (s.locker.slot[m]).material
    | none => []

/-- A stored copy's tag holds, with the bytes found upset; with none, what was written holds (R416, R417). -/
def copyHolds (s : State) (k : Fin 128) (upsets : List (Nat × Byte)) : Bool :=
  let x := s.locker.slot[k]
  let b := upsetBytes (slotImage x.attrs x.material ++ x.tag) upsets
  upsets.isEmpty || slotTag k (b.take 80) == b.drop 80

/-- A slot's tag checked (R417, R418): a slot from 0 to 7 is stored twice, and one failing copy is rewritten from the other; a key
of two slots is checked as a whole (DEDUCED, log 64). -/
def checkTag (s : State) (slot : Fin 128) (u : TagUpsets) : State :=
  let k := pairBase s slot
  if (s.locker.slot[k]).st ≠ .valid then s
  else if k.val < 8 then
    if copyHolds s k u.first && copyHolds s k u.second then s
    else if copyHolds s k u.first || copyHolds s k u.second then
      logMasked (updSlot s k fun x => { x with copyFault := true }) 0x0902 .helm k
    else spoilSlot s k
  else match pairSecond s k with
  | some m => if copyHolds s k u.first && copyHolds s m u.second then s
    else updSlot (spoilSlot s k) m fun x => { x with st := .unusable }
  | none => if copyHolds s k u.first then s else spoilSlot s k

/-- Slots are ready for a use: an invalidation that waits for the slot's boundary already refuses new uses (R427)
(DEDUCED, log 64). -/
def readyForUse (x : Slot) : Bool := decide (x.st = .valid) && x.root.isEmpty && x.doom.isEmpty

/-- The checks before a use by a role: tag, state and usage, then role (R417, R421, R424, R425). -/
def checkUse (s : State) (k : Fin 128) (up : TagUpsets) (usages : List Nat) (role : Fin 4) : Status × State :=
  let s := checkTag s k up
  let x := s.locker.slot[k]
  if x.st = .unusable then (.slotCorrupt, s)
  else if !readyForUse x || !usages.contains x.usage then (.keyInvalid, s)
  else if !x.roles.testBit role then (.roleDenied, s)
  else (.ok, s)

/-! ### Invalidation (R427, R428) -/

/-- The role whose sessions depend on a slot. -/
def slotRole (k : Fin 128) : Option (Fin 4) := if 4 ≤ k.val ∧ k.val ≤ 7 then some (Fin.ofNat 4 (k.val - 4)) else none

/-- The session that issued an operation. -/
def issuer (s : State) (opId : Nat) : Nat := ((s.host.ops.find? (·.opId == opId)).map (·.sid)).getD 0

/-- The sessions of a role end; the issuing session ends once its result is queued (R428). -/
def endRole (s : State) (role : Fin 4) (opId : Nat) : State :=
  let mine := issuer s opId
  (s.host.sessions.filter (·.role == role)).foldl (fun t x =>
    if x.sid = mine then updSession t x.sid fun y => { y with ending := true } else endSession t x.sid) s

/-- What follows from a key's end in a slot (R428): sessions of its role, and the working copies of the link key. -/
def keyGone (s : State) (k : Fin 128) (opId : Nat) : State :=
  let t := match slotRole k with
    | some r => endRole s r opId
    | none => s
  if k = linkSlot t then loadLinkKey t else t

/-- A slot becomes INVALIDATED, with its pair. -/
def invalidateSlot (s : State) (k : Fin 128) (opId : Nat) : State :=
  let gone := fun (x : Slot) => { x with st := .invalidated, root := [], doom := [] }
  let t := updSlot s k gone
  let t := match pairSecond s k with
    | some m => updSlot t m gone
    | none => t
  keyGone t k opId

/-- The VALID children of slots that carry CASCADE. -/
def cascadeChildren (s : State) (from_ : List (Fin 128)) : List (Fin 128) :=
  (List.finRange 128).filter fun c =>
    let x := s.locker.slot[c]
    decide (x.st = .valid) && x.flags.testBit 0 && !x.flags.testBit 3 && from_.any fun p => p.val == x.parent

/-- The cascade set: every VALID slot reached through children that carry CASCADE (R427, step 2). -/
def cascadeSet (s : State) : Nat → List (Fin 128) → List (Fin 128) → List (Fin 128)
  | 0, _, acc => acc
  | n + 1, from_, acc =>
    let next := (cascadeChildren s from_).filter fun c => !acc.contains c
    if next.isEmpty then acc else cascadeSet s n next (acc ++ next)

/-- The members of the cascade set: an idle one becomes INVALIDATED at once, one in use waits for its boundary. -/
def cascade (s : State) (k : Fin 128) (opId : Nat) : State :=
  ((cascadeSet s 128 [k] []).filter (· ≠ k)).foldl (fun t c =>
    if (t.locker.slot[c]).users.isEmpty then invalidateSlot t c opId
    else updSlot t c fun x => { x with doom := opId :: x.doom }) s

/-- Slots still waiting for an operation's invalidation. -/
def waitsFor (s : State) (opId : Nat) : Bool :=
  s.locker.slot.toList.any fun x => x.root.contains opId || x.doom.contains opId

/-- KEY_INVALIDATE completes once every member is INVALIDATED. -/
def endInvalidate (s : State) (opId : Nat) : State :=
  if waitsFor s opId then s
  else if s.host.ops.any fun x => x.opId == opId && x.cmd.code == 0x52 then resolveOp s opId .ok [] else s

/-- The named slot's boundary: it becomes INVALIDATED, and the cascade set is fixed (R427, steps 1 and 2). -/
def invalidateNamed (s : State) (k : Fin 128) (opId : Nat) : State :=
  endInvalidate (cascade (stepDone (invalidateSlot s k opId) opId 1) k opId) opId

/-- An operation boundary of a slot: what waits for it takes place. -/
def slotBoundary (s : State) (k : Fin 128) : State :=
  let x := s.locker.slot[k]
  if x.users.isEmpty then
    let t := if x.root.isEmpty && x.doom.isEmpty then s else invalidateSlot s k ((x.root ++ x.doom).headD 0)
    let t := x.root.foldl (fun u id => cascade (stepDone u id 1) k id) t
    (x.root ++ x.doom).foldl endInvalidate t
  else s

/-- KEY_INVALIDATE (R427). -/
def runInvalidate (s : State) (opId : Nat) (slot : Nat) : State :=
  let k := pairBase s (Fin.ofNat 128 slot)
  let x := s.locker.slot[k]
  if ([0, 1, 3, 5] : List Nat).contains slot ∨ x.st ≠ .valid then resolveOp s opId .badParam []
  else if x.users.isEmpty then invalidateNamed s k opId
  else updSlot s k fun y => { y with root := y.root ++ [opId] }

/-! ### Writing a key (R422 to R424) -/

/-- Attributes, material, tag and time written to a slot. -/
def fillSlot (s : State) (k : Fin 128) (a m : Bytes) : State :=
  clearFaults (updSlot s k fun x =>
    { x with st := .valid, copyFault := false, attrs := a, material := m, tag := slotTag k (slotImage a m), time := s.now
             root := [], doom := [] }) .helm fun c i => (c == 0x0901 || c == 0x0902) && i == k.val

/-- A VALID key that a slot held until now counts as invalidated (R423): its role's sessions end, its cascade follows
(DEDUCED, log 64). -/
def replaced (s t : State) (k : Fin 128) (opId : Nat) : State :=
  if (s.locker.slot[k]).st = .valid then cascade (keyGone t k opId) k opId else t

/-- A key written to its slot or pair; what the slots held counts as invalidated, the second half of a pair that is
gone leaves its slot EMPTY, and a new link key is loaded (R423, R428) (DEDUCED, log 64). -/
def writeKey (s : State) (k : Fin 128) (a m : Bytes) (opId : Nat) : State :=
  let second : Fin 128 := Fin.ofNat 128 (k.val + 1)
  let t := if pairAlg (attrN a 1) then
      replaced s (fillSlot (fillSlot s k a (m.take 64)) second (a.set 4 (BitVec.ofNat 8 (attrN a 4 + 4))) (m.drop 64)) second opId
    else match pairSecond s k with
      | some n => fillSlot (updSlot s n fun x => { uses := x.uses }) k a m
      | none => fillSlot s k a m
  let t := replaced s t k opId
  if k = linkSlot t ∨ second = linkSlot t then loadLinkKey t else t

/-- KEY_IMPORT (R422, R423): in clear the material is what was sent, else what the decryption yields (log 26). -/
def runImport (s : State) (opId slot wrapSlot : Nat) (a wrapped : Bytes) (u : Unwrapped) (up : TagUpsets) : State :=
  let w := pairBase s (Fin.ofNat 128 wrapSlot)
  let s := if wrapSlot = 0xFF then s else checkTag s w up
  let u := if wrapSlot = 0xFF then .ok a wrapped else u
  let x := s.locker.slot[w]
  let bad := resolveOp s opId .badParam []
  if !attrsOk s slot a then bad
  else if wrapSlot = 0xFF ∧ publicAlg (attrN a 1) = false then bad
  else if wrapSlot ≠ 0xFF ∧ x.st = .unusable then resolveOp s opId .slotCorrupt []
  else if wrapSlot ≠ 0xFF ∧ (readyForUse x = false ∨ x.usage ≠ 3) then resolveOp s opId .keyInvalid []
  else
    let t := if wrapSlot = 0xFF then s else useSlot s w 1
    match u with
    | .failed => resolveOp t opId .badParam []
    | .ok inner m =>
      if m.length ≠ (algTable (attrN a 1)).1 ∨ (wrapSlot ≠ 0xFF ∧ x.alg = 2 ∧ inner ≠ a) then resolveOp t opId .badParam []
      else resolveOp (writeKey t (Fin.ofNat 128 slot) a m opId) opId .ok []

/-- KEY_DERIVE's start (R424): the checks; the operation then runs on the parent until it completes. -/
def runDerive (s : State) (opId : Nat) (role : Fin 4) (parent child : Nat) (a : Bytes) (up : TagUpsets) : State :=
  let p := pairBase s (Fin.ofNat 128 parent)
  match checkUse s p up [4] role with
  | (.ok, t) =>
    if !attrsOk t child a || !([0x01, 0x04, 0x05, 0x10] : List Nat).contains (attrN a 1) || attrN a 3 != parent then
      resolveOp t opId .badParam []
    else setResult (useSlot (updSlot t p fun x => { x with users := opId :: x.users }) p 1) opId .ok []
  | (st, t) => resolveOp t opId st []

/-- KEY_DERIVE's end: the child is written, unless its operation was aborted (R424, R432). -/
def endDerive (s : State) (opId : Nat) (parent child : Nat) (a context : Bytes) : State :=
  let m := kdf ((s.locker.slot[(Fin.ofNat 128 parent : Fin 128)]).material ++ toBe 1 child ++ a ++ context)
    (algTable (attrN a 1)).1
  writeKey s (Fin.ofNat 128 child) a m opId

/-! ### Use (R425) -/

/-- `n` bytes of an engine's output (log 26). -/
def engineBytes (code : Nat) (key input : Bytes) (n : Nat) : Bytes := (List.range n).map (Config.engineByte code key input)

/-- A signature: its own nonce enters the engine (DESIGN CHOICE, log 26). -/
def signWith (s : State) (alg : Nat) (key msg : Bytes) : Bytes × State :=
  let n := if alg = 0x13 then 132 else if alg = 0x15 then 114 else 64
  (engineBytes (0x300 + alg) key (msg ++ toBe 8 s.free) n, { s with free := s.free + 1 })

/-- A KEY_USE operation on a slot: its output if the checks pass; the operation runs on the slot until it completes
(DEDUCED, log 64). -/
def runUse (s : State) (opId : Nat) (role : Fin 4) (slot : Nat) (up : TagUpsets) (usages : List Nat)
    (out : State → Slot → Bytes → Status × Bytes × State) : State :=
  let k := pairBase s (Fin.ofNat 128 slot)
  match checkUse s k up usages role with
  | (.ok, t) =>
    let t := useSlot (updSlot t k fun x => { x with users := opId :: x.users }) k 1
    let r := out t (t.locker.slot[k]) (keyOf t k)
    setResult r.2.2 opId r.1 r.2.1
  | (st, t) => setResult t opId st []

/-- ENCRYPT. -/
def useEncrypt (iv aad data : Bytes) (t : State) (x : Slot) (key : Bytes) : Status × Bytes × State :=
  (.ok, engineBytes (0x100 + x.alg) key (iv ++ toBe 2 aad.length ++ aad ++ data) (data.length + 16), t)

/-- DECRYPT: BAD_PARAM if the tag fails. -/
def useDecrypt (iv aad data : Bytes) (gcmOk : Bool) (t : State) (x : Slot) (key : Bytes) : Status × Bytes × State :=
  if gcmOk then (.ok, engineBytes (0x200 + x.alg) key (iv ++ toBe 2 aad.length ++ aad ++ data) (data.length - 16), t)
  else (.badParam, [], t)

/-- SIGN. -/
def useSign (msg : Bytes) (t : State) (x : Slot) (key : Bytes) : Status × Bytes × State :=
  let r := signWith t x.alg key msg
  (.ok, r.1, r.2)

/-- VERIFY. -/
def useVerify (valid : Bool) (t : State) (_x : Slot) (_key : Bytes) : Status × Bytes × State := (.ok, toBe 1 (flag valid), t)

/-- MAC. -/
def useMac (msg : Bytes) (t : State) (_x : Slot) (key : Bytes) : Status × Bytes × State := (.ok, hmac key msg, t)

/-- PUBLIC: a public key as stored, a private key's public half; a symmetric key has none (DEDUCED, log 64). -/
def usePublic (t : State) (x : Slot) (key : Bytes) : Status × Bytes × State :=
  if publicAlg x.alg then (.ok, key, t)
  else
    let n := match x.alg with
      | 0x13 => 67 | 0x15 => 57
      | _ => 33
    if x.alg = 1 then (.keyInvalid, [], t) else (.ok, engineBytes (0x600 + x.alg) key [] n, t)

/-! ### Attestation (R430) -/

/-- A little-endian word. -/
def le32 (n : Nat) : Bytes := toLe 4 n

/-- The 256 bytes of Table 17-5. -/
def attestStatement (s : State) (nonce : Bytes) : Bytes :=
  let dies : List (Fin 5) := [0, 1, 2, 3]
  let pad := fun (n : Nat) (b : Bytes) => (b ++ List.replicate n 0).take n
  [0x4B, 0x47, 0x41, 0x54] ++ toLe 2 1 ++ toLe 2 256 ++ (List.range 8).map Config.serialByte ++ pad 16 nonce
    ++ toLe 8 s.now ++ (dies.map fun d => pad 32 s.fw[d].digest).flatten
    ++ (dies.map fun d => le32 s.fw[d].runVer).flatten ++ (dies.map fun d => le32 s.fw[d].arb).flatten
    ++ pad 32 (s.chart.inUse.elim [] chartDigest) ++ le32 (s.chart.inUse.elim 0 lookoutCheck)
    ++ le32 ((s.lk.confA.map (·.value)).getD 0) ++ le32 s.mer.leg.legalCnt ++ le32 s.mer.leg.faultCnt
    ++ le32 (flag (!notLegal s) + 2 * flag (notLegal s) + 4 * flag s.landfall.holdTamper
        + 8 * flag (s.fw.toList.any (·.fallback)) + 256 * s.landfall.role)
    ++ List.replicate 4 0

/-- ATTEST: the statement, its signature from slot 0, CLEN and the certificate (DEDUCED, log 64). -/
def runAttest (s : State) (opId : Nat) (nonce : Bytes) (up : TagUpsets) : State :=
  let s := checkTag s 0 up
  let x := s.locker.slot[(0 : Fin 128)]
  if x.st = .unusable then setResult s opId .slotCorrupt []
  else
    let b := attestStatement s nonce
    let r := signWith (useSlot (updSlot s 0 fun y => { y with users := opId :: y.users }) 0 1) 2 x.material b
    let n := min 1000 Config.certLen
    setResult r.2 opId .ok (b ++ r.1 ++ toBe 2 n ++ (List.range n).map Config.certByte)

/-! ### Tamper (R432) -/

/-- Every slot with ERASE_ON_TAMPER is overwritten and left EMPTY; working copies follow. -/
def eraseKeys (s : State) : State :=
  let hit := (List.finRange 128).filter fun k => (s.locker.slot[k]).flags.testBit 1 && decide ((s.locker.slot[k]).st ≠ .empty)
  hit.foldl (fun t k =>
    let t := updSlot t k fun x => { uses := x.uses, users := x.users }
    if k = linkSlot t then loadLinkKey t else t) s

/-- The key operations running are aborted: those that use a slot, and FW_VERIFY's signature check, whose chart is then no
longer pending (R164). -/
def abortKeyOps (s : State) : State :=
  let running := s.host.ops.filter fun x =>
    x.started && !x.complete && (s.locker.slot.toList.any fun k => k.users.contains x.opId)
  setPilots (running.foldl (fun t x =>
    let t := updOp t x.opId fun y => { y with result := some ⟨.tamper, []⟩ }
    let t := updJrn t x.opId fun j => { j with tamper := true }
    match x.cmd with
    | .fwVerify d _ _ => updFw t (Fin.ofNat 5 (d - 1)) fun w => { w with stage := if w.stage = 3 then 2 else w.stage }
    | _ => t) s)

end Sys2Proof.Machine
end

