-- ==== Sys2Proof/Machine/LandfallOps.lean ====
section
/-!
DEFINITION. What Landfall's commands share (R31 to R44, R406, R487): Helm's end and its dies' reset, the holds, the images
of a start, the chart as configuration, and what a restart of Helm does to the outlets (R165).
-/
namespace Sys2Proof.Machine

/-- PORST_N is high and both rails of R34 are in their windows. -/
def supplied (s : State) : Bool := s.landfall.porst && s.landfall.coreOk && s.landfall.ioOk

/-- A hold stops Landfall (R42). -/
def inHold (s : State) : Bool := holdCode s != 0

/-- The landfall record replaced by its image. -/
def updLandfall (s : State) (f : Landfall → Landfall) : State := { s with landfall := f s.landfall }

/-! ### Helm stops (R394, R406, R407, R412) -/

/-- Requests of the host that the display controller has started are carried out; those that wait are lost (R294). -/
def dropRects (s : State) : State :=
  let t := (s.disp.flight.filterMap (·.op)).foldl (fun u id => resolveOp u id .ok [0]) s
  updDisp t fun d =>
    { d with flight := d.flight.map fun f => { f with op := none }, waiting := d.waiting.filter (·.op.isNone) }

/-- The Helm cores stop: sessions, challenges and transfers end, and the operations' results are lost; the journal, the
slots' keys and the outlets' contexts stay (DEDUCED, log 31). -/
def helmDown (s : State) : State :=
  let t := dropTransfers (dropRects s) fun _ => true
  let slots : Vector Slot 128 := t.locker.slot.map fun x => { x with users := [], root := [] }
  { t with
    host := { t.host with sessions := [], challenges := [], ops := [], out := t.host.out.filter fun f => f.via ≠ .spi }
    locker := { t.locker with slot := slots }
    log := { t.log with scanDone := false, cur := none }
    landfall := { t.landfall with helmUp := false, hostReady := false, recovering := false } }

/-- The Sextant die after a reset: its retirements come back from Helm MRAM (R139) (DEDUCED, log 31). -/
def freshSextant (x : Sextant) : Sextant :=
  let cells : Vector Cell 48 := x.cell.map fun c =>
    if c.stored = 0 then {} else { st := .retired, retireCause := c.stored, stored := c.stored }
  { cell := cells }

/-- The configuration words of block 0x90 that the commercial state in MRAM keeps (R51, R59): those it took from a chart,
not what a session has since written in their place (DEDUCED, log 31). -/
def heldCfg (s : State) : List (Nat × Word) := if s.chart.commercialHeld then s.chart.comHeld else []

/-- The non-legal display content, which every Landfall keeps (R58, Table 02-7). -/
def keptContent (d : Display) : List Host.Cell := d.frame.filter fun c => !inLegal d (c.1 / 40)

/-- The Helm and Sextant dies are reset and Landfall stands at its beginning (R34, R55, R474): what MRAM, the two flash
devices, the always-on island and the other dies hold stays; log records in SRAM are lost with the supply
(DEDUCED, log 31). -/
def diesReset (s : State) (supply : Bool) : State :=
  let t := helmDown s
  let l : Landfall :=
    { porst := t.landfall.porst, coreOk := t.landfall.coreOk, ioOk := t.landfall.ioOk, vdda := t.landfall.vdda
      vddRf := t.landfall.vddRf, role := t.landfall.role, recoveryEnd := t.landfall.recoveryEnd
      recoveredAt := t.landfall.recoveredAt }
  let d : Display :=
    { faultCrack := t.disp.faultCrack, crackRes := t.disp.crackRes, faultSelf := t.disp.faultSelf
      lwinY0 := t.disp.lwinY0, lwinH := t.disp.lwinH, pairAt := t.mono, frame := keptContent t.disp }
  let m : Manager :=
    { epoch := t.mgr.epoch, pSite := t.mgr.pSite, pSiteHost := t.mgr.pSiteHost, cls := t.mgr.cls, clsHost := t.mgr.clsHost
      coreFaultAt := t.mgr.coreFaultAt }
  let h : HostIf :=
    { lastSid := t.host.lastSid, journal := t.host.journal, nextOp := t.host.nextOp, rgen := t.host.rgen
      outcomes := t.host.outcomes, out := t.host.out }
  let fw : Vector FwTarget 5 := upd (upd t.fw 0 fun x => { x with started := false }) 1 fun x => { x with started := false }
  { t with
    landfall := l
    chart := { t.chart with inUse := none, src := 0, rejectTag := 0, rejectSrc := 0, rejectReason := 0 }
    cfg := heldCfg t
    sx := freshSextant t.sx
    cooling := Vector.replicate 2 {}
    drive := Vector.replicate 6 {}
    rdr := {}
    disp := d
    txl := {}
    ll := {}
    mgr := m
    wrk := { epoch := t.wrk.epoch, rank := t.wrk.rank, cycle := t.wrk.cycle }
    outlet := t.outlet.map fun x => { x with ctxOk := x.ctxOk && !supply }
    host := h
    fw := fw
    tamper := { t.tamper with pendingHold := t.tamper.pendingHold || s.landfall.holdTamper }
    log := { t.log with
      waiting := if supply then [] else t.log.waiting
      torn := t.log.torn || (supply && !t.log.waiting.isEmpty && Config.freeBit s.free) }
    free := t.free + flag supply
    flt := {}
    pwr := { t.pwr with rung := .underway } }

/-- The holster tests of a Landfall are to be seen anew (R41) (DEDUCED, log 34). -/
def forgetHolsters (s : State) : State :=
  updLko (updLko s 0 fun x => { x with holster := 0, holsterAt := s.mono }) 1 fun x => { x with holster := 0, holsterAt := s.mono }

/-- A cold Landfall from its beginning. -/
def coldLandfall (s : State) (supply : Bool) : State := settle s (forgetHolsters (diesReset s supply))

/-- A Helm restart before Landfall complete (R487): Landfall goes back to milestone 0x03. Every hold but the tamper hold
is judged afresh; that of a Lookout that has not started keeps its cause. -/
def landfallRestart (s : State) : State :=
  let t := helmDown s
  let k := min 2 t.landfall.phase
  let l := { t.landfall with
    phase := k, warm := false, snapReplaced := false, selftest := 0, holdChart := false, holdStrap := false
    holdSelf := t.landfall.holdSelf && decide (k = 0), helmRetry := false }
  let u := { t with
    landfall := l
    chart := { t.chart with inUse := none, src := 0, rejectTag := 0, rejectSrc := 0, rejectReason := 0 }
    cfg := heldCfg t
    sx := freshSextant t.sx
    mgr := { t.mgr with role := .worker } }
  settle s (forgetHolsters (endMaster u))

/-- A restart of Helm that no supply dip causes: before Landfall complete as R487, else the Helm cores alone (R406). -/
def helmRestart (s : State) : State := if s.landfall.phase < 9 then landfallRestart s else helmDown s

/-! ### The tamper hold (R42, R432) -/

/-- The tamper hold (R42): Sextant is not loaded, and Landfall resumes no later than at milestone 0x05, so PHASE falls back
to 0x04 from a later milestone; Lookout's copy of Landfall complete is cleared, which holds its outputs safe
(DESIGN CHOICE, log 66). -/
def enterTamperHold (s : State) : State :=
  let l := { s.landfall with holdTamper := true, phase := min 4 s.landfall.phase }
  settle s { s with landfall := l, sx := freshSextant s.sx, lk := { s.lk with landfallDone := false } }

/-- What the boot ROM makes of an event captured while Helm slept or was off (R432, Table 17-6): it is logged with the time of
its capture (Table 02-3). -/
def answerCapture (s : State) : State :=
  if s.tamper.pendingHold then
    let t := eraseKeys { s with tamper := { s.tamper with pendingHold := false } }
    let t := logRecAt t s.tamper.time (Config.eventCode 432) .helm 2 s.tamper.sources.toNat []
    let t := { t with flt := openFault t.flt (Config.eventCode 432) (LogSrc.code .helm) s.tamper.sources.toNat }
    enterTamperHold t
  else s

/-! ### Images (R35, R491) -/

/-- Milestones already reached in fact are reported once a self-test hold that stopped them is left. -/
def catchUp (s : State) : State :=
  let reached : List Bool := [s.lk.runA && s.lk.runB, true, s.landfall.helmUp, s.chart.inUse.isSome]
  let k := (reached.takeWhile id).length
  updLandfall s fun l => { l with phase := if l.phase < 4 then max l.phase k else l.phase }

/-- The straps are read (R7, R9): a change of role takes effect from here on. -/
def readStraps (s : State) (role : Fin 4) : State :=
  updLandfall s fun l => { l with role := role, holdStrap := decide (role = 3) }

/-- Helm's start (R35, R489, R491): image, straps, capture, and the report of the start to Lookout. -/
def startHelm (s : State) (img : ImageChoice) (role : Fin 4) : State :=
  let t := bootImage s 0 img
  if t.fw[(0 : Fin 5)].started then
    let t := readStraps t role
    let t := updLandfall t fun l =>
      { l with helmUp := true, helmRetry := false, phase := if l.phase = 2 then 3 else l.phase }
    let t := answerCapture { t with lk := { t.lk with landfallDone := false } }
    settle s t
  else updLandfall t fun l => { l with helmRetry := true }

/-! ### The chart as configuration (R49 to R51, R365) -/

/-- The fields of an entry that the chart sets for good: RWL ones. -/
def rwlPart (s : State) (e : Nat × Nat) : Option Word :=
  match wordFields s.variant e.1 with
  | none => none
  | some fs =>
    let m := fieldMask (· == .rwl) fs
    let r := (resetWord e.1).toNat
    if m = 0 then none else some (BitVec.ofNat 32 (Nat.land e.2 m + (r - Nat.land r m)))

/-- The entries of a chart that apply: those of block 0x90 only while MRAM holds no commercial state (R51). -/
def appliedEntries (s : State) (c : Bytes) : List (Nat × Nat) :=
  (chartEntries c).filter fun e => !s.chart.commercialHeld || addrBlk e.1 != 0x90

/-- The configuration words of a chart. -/
def chartCfg (s : State) (c : Bytes) : List (Nat × Word) :=
  (appliedEntries s c).foldl (fun w e => match rwlPart s e with
    | some v => sparsePut (resetWord e.1) w e.1 v
    | none => w) (heldCfg s)

/-- A chart taken into use from a source (R53): its settings apply from here on (DEDUCED, log 59). -/
def useChart (s : State) (c : Bytes) (src : Nat) : State :=
  let t := { s with cfg := chartCfg s c, chart := { s.chart with inUse := some c, src := src } }
  let u := updFw t 4 fun x => { x with runVer := chartSerial c }
  let v := updLandfall u fun l => { l with phase := if l.phase = 3 then 4 else l.phase }
  clearFaults v .helm fun x _ => x == 0x0903

/-- The LIVE fields of block 0x90 that a chart brings (R51). -/
def applyCommercial (s : State) (es : List (Nat × Nat)) : State :=
  es.foldl (fun t e =>
    match wordFields t.variant e.1 with
    | some fs =>
      if addrBlk e.1 = 0x90 ∧ fs.any (·.acc == .live) = true then
        writeCommercial t e.1 (Nat.land e.2 (fieldMask (· == .live) fs))
      else t
    | none => t) s

/-- The class of a site entry: what SITE_LIMIT_SET has set for its NODE_ID, else the chart's, else 0 (R365). -/
def siteClass (s : State) (es : List (Nat × Nat)) (w : Fin 32) : Nat :=
  match s.mgr.clsHost.find? fun p => p.1 == smNode s w with
  | some p => p.2
  | none => ((es.find? fun e => e.1 == regAddr 0x60 (w + 1) 0x000).map fun e => bitsOf e.2 30 29).getD 0

/-- The LIVE site parameters that a manager's chart brings (R365). -/
def applySite (s : State) (es : List (Nat × Nat)) : State :=
  let p := ((es.find? fun e => e.1 == regAddr 0x60 0 0x004).map (·.2)).getD 0
  let c : Vector Nat 32 := Vector.ofFn fun w => siteClass s es w
  { s with mgr := { s.mgr with pSite := if s.mgr.pSiteHost then s.mgr.pSite else p, cls := c } }

/-- The sections distributed to the dies (R70, R83, R108, R144, R186, R315) (DEDUCED, log 59). -/
def distribute (s : State) (c : Bytes) : State :=
  let es := appliedEntries s c
  let t := applySite (if s.chart.commercialHeld then s else applyCommercial s es) es
  let q := 8 * cfgN t 0x21 0 0x000 15 12
  let cells : Vector Cell 48 := Vector.ofFn fun k =>
    { t.sx.cell[k] with roseEff := cfgN t 0x12 k 0x004 15 0, roseTgt := cfgN t 0x12 k 0x004 15 0 }
  let aux : Vector StageAux 8 := Vector.ofFn fun g =>
    { t.sx.aux[g] with phEff := cfgN t 0x11 g 0x00C 15 0, phTgt := cfgN t 0x11 g 0x00C 15 0 }
  let laws := t.sx.law.map fun l => { l with stopped := false, ovrConsec := 0 }
  let load := (loadTest t).getD 0
  setPilots { t with
    sx := { t.sx with cell := cells, aux := aux, law := laws, loadChart := load }
    rdr := { t.rdr with port := t.rdr.port.map fun p => { p with qfp := q } }
    lk := { t.lk with checkA := lookoutCheck c, checkB := lookoutCheck c }
    tamper := { t.tamper with cfg := cfgWord t 0x01000300 }
    chart := { t.chart with
      commercialHeld := true
      comHeld := if s.chart.commercialHeld then t.chart.comHeld else (chartCfg s c).filter fun p => addrBlk p.1 == 0x90 } }

/-! ### The outlets after a Helm restart (R165) -/

/-- Where a restarted Helm takes an outlet to stand (R165). -/
inductive Judged where
  | past | at_ | before
  deriving DecidableEq, Repr

/-- A contactor of the outlet is commanded, or a feedback of one reads closed-main. -/
def contactorClosed (s : State) (o : Fin 2) : Bool :=
  let one := fun n : Fin 8 => s.lk.so[n].cmd || (fbEn s n && !(s.lk.so[n].fba && s.lk.so[n].fbb))
  one (soPos s o) || one (soNeg s o)

/-- The outlet's state as its context holds it, or, without a context that verifies, as contactors, stage, lock and session
record show it (R165). -/
def judgedState (s : State) (o : Fin 2) : Judged :=
  let l := s.lk.outlet[o]
  if s.outlet[o].ctxOk then
    if s.outlet[o].st = .authorised then .at_ else if s.outlet[o].st.authorisedOn then .past else .before
  else if (decide (outType s o ≠ 0) && contactorClosed s o) || !stageIsOff s o then .past
  else if l.lock || l.lockFb || recordOpen s o then .at_
  else .before

/-- The outlet starts again from IDLE. -/
def restartOutlet (s : State) (o : Fin 2) : State := toIdle (abandonInventory (endLink s o) o) o

/-- An outlet that does not resume (R165) (DEDUCED, log 33). One that its context shows FINISHED or FAULTED stays so. -/
def judgeOutlet (s : State) (o : Fin 2) : State :=
  let k := judgedState s o
  let s := updOutlet s o fun x => { x with ctxOk := true }
  if s.outlet[o].st = .faulted then s
  else match k with
    | .past => outletFault s o .helm
    | .at_ =>
      let t := closeRecordOf (askUnlock (enter (endLink s o) o .authorised) o) o true
      if (t.lk.outlet[o]).lock || (t.lk.outlet[o]).lockFb then t else restartOutlet t o
    | .before =>
      let t := closeRecordOf s o true
      if t.outlet[o].st = .finished then rest t o else restartOutlet t o

/-- The outlet resumes: Helm has restarted without a Landfall, the context verifies, and the loss of Helm has ended the
operation of no stage that feeds it. -/
def resumes (s : State) (plain : Bool) (o : Fin 2) : Bool :=
  plain && s.outlet[o].ctxOk && match outletStage s o with
    | some g => !s.sx.stage[g].byHelm
    | none => true

/-- Both outlets after a restart: `plain` after one without a Landfall (DEDUCED, log 33). -/
def resumeOutlets (s : State) (plain : Bool) : State :=
  let t := (List.finRange 2).foldl (fun t o => if resumes s plain o then t else judgeOutlet t o) s
  let stages := t.sx.stage.map fun x => if x.st = .off then { x with byHelm := false } else x
  { t with sx := { t.sx with stage := stages } }

end Sys2Proof.Machine
end

