-- ==== Sys2Proof/Machine/FwOps.lean ====
section
/-!
DEFINITION. Firmware and charts: staging, verification, activation and the end of a first start (R55, R56, R433 to R439).
Targets are numbered as TARGET − 1: 0 Helm, 1 Sextant, 2 Lookout, 3 Meridian, 4 chart.
-/
namespace Sys2Proof.Machine

/-- The index of a TARGET. -/
def fwIndex (target : Nat) : Fin 5 := Fin.ofNat 5 (target - 1)

/-- Where a target's inactive slot begins in the chart flash (Table 02-4). -/
def inactiveBase (s : State) (i : Fin 5) : Nat :=
  let b := !s.fw[i].slotB
  match i.val with
  | 0 => if b then 0x300000 else 0x100000
  | 1 => if b then 0x580000 else 0x500000
  | 2 => if b then 0x680000 else 0x600000
  | _ => chartBase b

/-- Meridian keeps its slots in its own MRAM (R433). -/
def inMeridian (i : Fin 5) : Bool := i == 3

/-- The staged bytes of a target. -/
def stagedBytes (s : State) (i : Fin 5) : Bytes :=
  if inMeridian i then s.merStage.take s.fw[i].stagedLen
  else sparseRead 0xFF s.flash (inactiveBase s i) s.fw[i].stagedLen

/-- The inactive slot of a target erased. -/
def eraseStaged (s : State) (i : Fin 5) : State :=
  if inMeridian i then { s with merStage := [] }
  else { s with flash := sparseErase s.flash (inactiveBase s i) (slotSize (i.val + 1)) }

/-- A chunk's bytes written to the inactive slot of a target. -/
def writeStaged (s : State) (i : Fin 5) (off : Nat) (b : Bytes) : State :=
  if inMeridian i then { s with merStage := s.merStage.take off ++ b }
  else { s with flash := sparseWrite 0xFF s.flash (inactiveBase s i + off) b }

/-- FW_STAGED_VER of a complete image or chart. -/
def stagedVersion (s : State) (i : Fin 5) : Nat := chartN (stagedBytes s i) (if i = 4 then 12 else 8) 4

/-- An activation of any target is in progress. -/
def activatingAny (s : State) : Bool := s.fw.toList.any (·.activating)

/-- Bytes 16 to 23 of a chart's or an image's header, BUILD_TIME, once they have been received, spell a valid CT64 time
(R11, Tables 02-5 and 17-7). -/
def buildTimeOk (b : Bytes) : Bool := decide (b.length < 24) || ct64Ok (chartN b 16 8)

/-- FW_STAGE (R11, R412, R435): a chunk that completes an invalid BUILD_TIME is answered BAD_PARAM and ends its transfer
(DEDUCED, log 67). -/
def runStage (s : State) (opId sid target : Nat) (k : Chunk) : State :=
  let i := fwIndex target
  if activatingAny s || s.host.transfers.any fun x => x.cmd == 0x60 && x.target == target && x.sid != sid then
    setResult s opId .badState []
  else
    match takeChunk s sid 0x60 target k with
    | (t, none) => setResult (setPilots t) opId .badParam []
    | (t, some (last, _)) =>
      let t := if k.offset = 0 then eraseStaged t i else t
      let t := updFw (writeStaged t i k.offset k.data) i fun x =>
        { x with stage := if last then 2 else 1, stagedVer := 0, stagedLen := k.offset + k.data.length }
      if buildTimeOk (stagedBytes t i) then
        let t := if last then updFw t i fun x => { x with stagedVer := stagedVersion t i } else t
        setResult (setPilots t) opId .ok []
      else
        let t := dropTransfers (updFw t i fun x => { x with stage := 0, stagedLen := 0 }) fun x =>
          x.sid == sid && x.cmd == 0x60 && x.target == target
        setResult (setPilots t) opId .badParam []

/-- R436's checks of an image, in their order; `sigOk` is the verdict of SM2 over the header. -/
def imageVerdict (target : Nat) (b : Bytes) (sigOk : Bool) (arb : Nat) : Status :=
  let len := 256 + chartN b 12 4
  if b.take 4 ≠ [0x4B, 0x47, 0x46, 0x57] ∨ chartN b 4 2 ≠ 1 ∨ chartN b 6 1 ≠ target ∨ slotSize target < len
      ∨ len ≠ b.length ∨ sm3 (b.take 32 ++ b.drop 256) ≠ slice b 32 32 ∨ sigOk = false then .imageBad
  else if chartN b 8 4 < arb then .versionLower
  else .ok

/-- A chart's reject word (Table 02-9), of the slot named. -/
def rejectChart (s : State) (slotB : Bool) (tag reason : Nat) : State :=
  { s with chart := { s.chart with rejectTag := tag, rejectSrc := if slotB then 2 else 1, rejectReason := reason } }

/-- The checks of a staged chart (R52, R53, R55). -/
def chartVerdict (s : State) (b : Bytes) (sigOk : Bool) : Status × State :=
  let slot := !s.fw[(4 : Fin 5)].slotB
  match verifyChart s b sigOk with
  | some (tag, reason) => (.imageBad, rejectChart s slot tag reason)
  | none => if serialOk s b then (.ok, reportUnknown s b) else (.versionLower, rejectChart s slot 0 0x09)

/-- FW_VERIFY (R56, R436, R441): the operation runs on its key slot until it completes (DEDUCED, log 67). -/
def runVerify (s : State) (opId target : Nat) (sigOk : Bool) (up : TagUpsets) : State :=
  let i := fwIndex target
  let k : Fin 128 := if i = 4 then 2 else 1
  if s.fw[i].stage < 2 then setResult s opId .badState []
  else
  let s := checkTag s k up
  if (s.locker.slot[k]).st = .unusable then setResult s opId .slotCorrupt []
  else
    let b := stagedBytes s i
    let r := if i = 4 then chartVerdict s b sigOk else (imageVerdict target b sigOk s.fw[i].arb, s)
    let t := useSlot (updSlot r.2 k fun x => { x with users := opId :: x.users }) k 1
    match r.1 with
    | .ok =>
      let t := updFw t i fun x => { x with stage := 3, stagedDigest := slice b 32 32 }
      setResult (setPilots t) opId .ok (toBe 4 s.fw[i].stagedVer)
    | st => setResult t opId st []

/-! ### Activation (R55, R437, Table 17-8) -/

/-- From ISOLATION_TEST to DISCHARGE inclusive. -/
def OutSt.delivering : OutSt → Bool
  | .isolationTest => true | .precharge => true | .energyTransfer => true | .rampDown => true
  | .weldCheck => true | .discharge => true
  | _ => false

/-- Some outlet is from ISOLATION_TEST to DISCHARGE. -/
def anyDelivering (s : State) : Bool := s.outlet[(0 : Fin 2)].st.delivering || s.outlet[(1 : Fin 2)].st.delivering

/-- Why FW_ACTIVATE of a target is refused; `ok`: it is accepted. -/
def activateVerdict (s : State) (i : Fin 5) : Status :=
  let verified := s.fw[i].stage == 3
  if activatingAny s then .badState
  else match i.val with
    | 0 => if verified then .ok else .badState
    | 1 => if verified && (List.finRange 8).all fun g => decide (s.sx.stage[g].st = .off ∨ s.sx.stage[g].st = .latched) then .ok
      else .badState
    | 2 => if verified && (List.finRange 8).all fun n => decide (4 < soKind s n) || soKind s n == 0 || !s.lk.so[n].cmd then .ok
      else .badState
    | 3 => if !verified then .badState else if anyDelivering s || pendingActivation s 4 then .legalLocked else .ok
    | _ => if (verified || s.landfall.holdChart) && !anyDelivering s then .ok else .badState

/-- Both Lookout channels stop: outputs safe, no telegram, the holster tests required again (R298, R440). -/
def stopLookout (s : State) : State :=
  let t := { s with lk := { s.lk with runA := false, runB := false, agreed := false, restarting := true } }
  settle s (forgetHolsters (clearChan (clearChan t 0) 1))

/-- Both Lookout channels run from their start. -/
def runLookout (s : State) (agreed : Bool) : State :=
  settle s { s with lk := { s.lk with runA := true, runB := true, agreed := agreed, restarting := !agreed } }

/-- FW_ACTIVATE (R55, R379, R437, R439): the pointer flips and the target's first start begins. -/
def runActivate (s : State) (opId target : Nat) : State :=
  let i := fwIndex target
  match activateVerdict s i with
  | .ok =>
    let t := releaseToken s
    let t := updFw t i fun x =>
      { x with slotB := if x.stage = 3 then !x.slotB else x.slotB, activating := true, fallback := false, flipAt := s.mono }
    let t := stepDone t opId 1
    match i.val with
    | 0 => helmRestart t
    | 1 => { t with sx := { t.sx with up := false } }
    | 2 => stopLookout t
    | 3 => stopPlainly (legalEvent t 0x03 0 [])
    | _ => coldLandfall t false
  | st => resolveOp s opId st []

/-- The operation of the activation in progress, by its journal entry. -/
def activationOp (s : State) : Option Nat := (s.host.journal.find? fun j => j.cmd == 0x62 && j.state == 1).map (·.opId)

/-- The activation's operation ends. -/
def endActivation (s : State) (st : Status) : State :=
  match activationOp s with
  | some id => resolveOp s id st []
  | none => s

/-- An R491 hold is left by an activation of the die that caused it. -/
def leaveImageHold (s : State) (i : Fin 5) : State :=
  let l := s.landfall
  if l.holdSelf && decide (i = 1 ∧ l.phase = 4) then
    updLandfall s fun x => { x with holdSelf := false, selftest := x.selftest &&& 0xF3, phase := 5 }
  else if l.holdSelf && decide (i = 2 ∧ l.phase = 0) then
    catchUp (updLandfall s fun x => { x with holdSelf := false })
  else s

/-- What starts again when a target's pause ends. -/
def restartDie (s : State) (i : Fin 5) (agreed : Bool) : State :=
  match i.val with
  | 1 => if s.landfall.holdTamper then s else { s with sx := { s.sx with up := true } }
  | 2 => runLookout s agreed
  | 3 => resumeMetering s
  | _ => s

/-- The target's first start has succeeded (R434, R438). -/
def startSucceeds (s : State) (i : Fin 5) : State :=
  let t := updFw (restartDie s i true) i fun x =>
    { x with activating := false, started := true, arb := max x.arb x.stagedVer, runVer := x.stagedVer
             digest := x.stagedDigest, stage := 0, stagedVer := 0, stagedLen := 0 }
  let t := leaveImageHold t i
  endActivation (logInfo t (Config.eventCode 438) .helm (i.val + 1)) .ok

/-- The target's first start has failed: the previous image starts, if there was one (R438, R439). -/
def startFails (s : State) (i : Fin 5) : State :=
  let t := updFw (if s.fw[i].started then restartDie s i false else s) i fun x =>
    { x with activating := false, fallback := true, slotB := !x.slotB, stage := 0, stagedVer := 0, stagedLen := 0 }
  let t := if i = 3 then legalEvent t 0x03 1 [] else t
  endActivation (logMasked t 0x0904 .helm (i.val + 1)) .imageBad

/-- A chart activation ends with the recovery of its Landfall (DEDUCED, log 40). -/
def endChartActivation (s : State) : State :=
  if s.fw[(4 : Fin 5)].activating then
    let taken : Bool := decide (s.chart.src = 1 ∨ s.chart.src = 2)
    let t := updFw s 4 fun x =>
      let v := x.stage = 3
      { x with activating := false, stage := if v then 0 else x.stage, stagedVer := if v then 0 else x.stagedVer
               stagedLen := if v then 0 else x.stagedLen }
    setPilots (endActivation t (if taken then .ok else .imageBad))
  else s

end Sys2Proof.Machine
end

