-- ==== Sys2Proof/Machine/Effects.lean ====
section
/-!
DEFINITION. What the host's operations do on the dies (R137, R145, R161, R166, R167, R244, R248, R255, R266 to R272, R281,
R283, R309, R312, R316, R317, R365, R490). Each effect ends with the operation's status and result.
-/
namespace Sys2Proof.Machine

/-! ### TEL_FIX (R145) -/

/-- The mean of a window's ticks in hundredths or whole units: `num / den` of the stored scale (DEDUCED, log 65). -/
def TelQ.mean (num den : Int) (q : TelQ) : Int :=
  if q.hist.isEmpty then 0 else roundDiv (q.hist.sum * num) (den * q.hist.length)

/-- A held peak; 0 before any tick. -/
def peakOf (num den : Int) (v : Option Int) : Int := roundDiv (v.getD 0 * num) den

/-- The values a Fix latches: 0.01 V, 0.01 A, W, 0.01 °C (Table 05-5) (DEDUCED, log 65). -/
def TelRun.latch (r : TelRun) : TelLatch :=
  { v := r.v.mean 100 unit31, i := r.i.mean 100 unit31, p := r.p.mean 1 unit31, t := r.t.mean 100 65536
    vLo := peakOf 100 unit31 r.v.lo, vHi := peakOf 100 unit31 r.v.hi
    iLo := peakOf 100 unit31 r.i.lo, iHi := peakOf 100 unit31 r.i.hi
    pLo := peakOf 1 unit31 r.p.lo, pHi := peakOf 1 unit31 r.p.hi
    tLo := peakOf 100 65536 r.t.lo, tHi := peakOf 100 65536 r.t.hi }

/-- A quantity with its peaks cleared (R144). -/
def TelQ.noPeaks (q : TelQ) : TelQ := { q with lo := none, hi := none }

/-- The running values after a Fix. -/
def TelRun.afterFix (clear : Bool) (r : TelRun) : TelRun :=
  if clear then { v := r.v.noPeaks, i := r.i.noPeaks, p := r.p.noPeaks, t := r.t.noPeaks } else r

/-- One stage with its cells latched (R145, steps 1, 2 and 4). -/
def fixStage (gen : Nat) (clear : Bool) (s : State) (g : Fin 8) : State :=
  let t := (stageCells s g).foldl (fun u c =>
    updCell u c fun x => { x with fix := x.tel.latch, tel := x.tel.afterFix clear }) s
  updAux t g fun a => { a with fix := a.tel.latch, tel := a.tel.afterFix clear, telGen := gen }

/-- A command that needs a power stage or an outlet in a self-test hold (R38, Table 02-3). -/
def needsStage (s : State) : Bool := s.landfall.phase ≠ 9 && holdCode s == 4

/-- TEL_FIX; it ends with INTERNAL while S-TEL is lost or the Sextant die does not run (Table 18-2, R145)
(DEDUCED, log 65). -/
def runTelFix (s : State) (opId scope : Nat) (clear : Bool) : State :=
  if needsStage s then setResult s opId .badState []
  else if s.flt.island[(11 : Fin 17)].lost || !s.sx.up then setResult s opId .internal []
  else
    let gen := (s.sx.fixLast + 1) % 2 ^ 32
    let gs : List (Fin 8) := if scope = 0xFF then List.finRange 8 else [Fin.ofNat 8 scope]
    let t := { s with sx := { s.sx with fixLast := gen, fixTime := s.now } }
    setResult (gs.foldl (fixStage gen clear) t) opId .ok (toBe 4 gen ++ toBe 8 s.now)

/-! ### Sessions and certificates (R155, R161, R166, R167) -/

/-- An outlet that has not yet reached FINISHED or FAULTED, from AUTHORISED on. -/
def OutSt.underWay : OutSt → Bool
  | .idle => false | .plugged => false | .cableCheck => false | .identified => false
  | .finished => false | .faulted => false
  | _ => true

/-- SESSION_AUTHORISE with decision ALLOW or REFUSE. -/
def runAuthorise (s : State) (opId o decision : Nat) (hash : Bytes) : State :=
  let k : Fin 2 := Fin.ofNat 2 o
  let x := s.outlet[k]
  if needsStage s then resolveOp s opId .badState []
  else if x.st = .identified then
    if x.auth.hash ≠ hash then resolveOp s opId .badParam []
    else if decision = 1 then resolveOp (allow s k 1) opId .ok []
    else resolveOp (refuse (updOutlet s k fun y => { y with authSrc := 1 }) k) opId .ok []
  else
    let t := logInfo s (Config.eventCode 167) .helm o
    if x.auth.hash = hash ∧ decision = 2 ∧ x.authSrc = 2 ∧ x.st.underWay = true then
      resolveOp (stopTrigger t k .host) opId .ok []
    else resolveOp t opId .badState []

/-- SESSION_AUTHORISE with decision 3: the last chunk answers the vehicle's pending certificate request. -/
def runCert (s : State) (opId sid o : Nat) (k : Chunk) : State :=
  match takeChunk s sid 0x20 o k with
  | (t, none) => resolveOp t opId .badParam []
  | (t, some (false, _)) => resolveOp t opId .ok []
  | (t, some (true, d)) =>
    let i : Fin 2 := Fin.ofNat 2 o
    if !needsStage t && t.outlet[i].link.session && decide (t.outlet[i].answer = .ongoing) then
      resolveOp (answer t i (.ok (d.map (·.toNat)))) opId .ok []
    else resolveOp t opId .badState []

/-- SESSION_STOP (R161). -/
def runStop (s : State) (opId o : Nat) : State :=
  let k : Fin 2 := Fin.ofNat 2 o
  if needsStage s then resolveOp s opId .badState []
  else match s.outlet[k].st with
  | .idle => resolveOp s opId .badState []
  | .finished => resolveOp s opId .badState []
  | .faulted => resolveOp s opId .badState []
  | _ =>
    let t := stopTrigger s k .host
    resolveOp t opId .ok (toBe 1 t.outlet[k].stopReason)

/-! ### The commercial state (R266 to R272) -/

/-- The entries of an AUTH_TABLE_LOAD. -/
def authEntries : Nat → Bytes → List AuthEntry
  | 0, _ => []
  | n + 1, b =>
    let f := beNat (slice b 12 2)
    { hash := slice b 0 8, account := beNat (slice b 8 4), valid := f.testBit 0, barred := f.testBit 1
      expiry := beNat (slice b 14 2) } :: authEntries n (b.drop 16)

/-- A strictly rising list of numbers. -/
def rising : List Nat → Bool
  | [] => true
  | [_] => true
  | a :: b :: t => decide (a < b) && rising (b :: t)

/-- No two of a list of numbers are equal. -/
def distinct (l : List Nat) : Bool := rising (l.mergeSort (· ≤ ·))

/-- The entries are in range and no hash stands twice (R271). -/
def authOk (l : List AuthEntry) : Bool :=
  l.all (fun e => decide (e.account < 4096 ∨ e.account = 0xFFFFFFFF)) && distinct (l.map fun e => beNat e.hash)

/-- AUTH_TABLE_LOAD: the last chunk switches the new table in. -/
def runAuthTable (s : State) (opId sid : Nat) (k : Chunk) : State :=
  match takeChunk s sid 0x22 0 k with
  | (t, none) => resolveOp t opId .badParam []
  | (t, some (false, _)) => resolveOp t opId .ok []
  | (t, some (true, d)) =>
    let l := authEntries (d.length / 16) d
    if authOk l then resolveOp { t with com := { t.com with table := l } } opId .ok (toBe 4 l.length)
    else resolveOp t opId .badParam []

/-- ACCOUNT_LOAD by OP (R266 to R268). -/
def runAccount (s : State) (opId n op : Nat) (value : Int) : State :=
  let t := match op with
    | 1 => creditBy s n value
    | 2 => updAccount s n fun a => { a with emerg := value.toNat }
    | 3 => setEmerg s n value.toNat (account s n).req
    | _ => setEmerg s n (account s n).mode true
  resolveOp t opId .ok (toBe 8 (ofSigned 64 (account t n).credit))

/-- WEATHER_HOLD (R269, R270): the end of friendly hours raises the credit stop (DEDUCED, log 63). -/
def runWeather (s : State) (opId minutes : Nat) : State :=
  let stop := if minutes = 0 then 0 else s.nowNs + minutes * 60000000000
  let t := { s with com := { s.com with weatherEnd := stop } }
  let t := if friendly s && !friendly t then creditStop (creditStop t 0) 1 else t
  resolveOp t opId .ok (toBe 8 (ct64 stop))

/-- SITE_LIMIT_SET (R365, R369, R383): a lower limit, or a lower class, is curtailed at once. -/
def runSiteLimit (s : State) (opId pSite : Nat) (classes : List (Nat × Nat)) : State :=
  let change := pSite ≠ 0xFFFFFFFF
  let known := classes.all fun c => (enabled s).any fun w => smNode s w == c.1
  if !acting s then resolveOp s opId .badState []
  else if (change && decide (cfgN s 0x60 0 0x000 31 0 < pSite)) || !known then resolveOp s opId .badParam []
  else
    let m := s.mgr
    let host := classes.foldl (fun l c => c :: l.filter (·.1 ≠ c.1)) m.clsHost
    let cls : Vector Nat 32 := Vector.ofFn fun w =>
      ((classes.reverse.find? fun c => c.1 == smNode s w).map (·.2)).getD m.cls[w]
    let m := { m with
      pSite := if change then pSite else m.pSite, pSiteHost := m.pSiteHost || change, clsHost := host, cls := cls }
    let t := { s with mgr := m }
    let t := if m.pSite < s.mgr.pSite then publish t 2 else t
    resolveOp (sendParam t) opId .ok []

/-! ### Display (R281 to R283) -/

/-- DISPLAY_RECT: the request joins the queue, or is discarded. -/
def runRect (s : State) (opId : Nat) (r : Rect) (pix : Bytes) : State :=
  match queueRect s r pix (some opId) with
  | (true, t) => t
  | (false, t) => resolveOp t opId .badParam []

/-! ### Tariffs, clock, billing (R244, R248, R255) -/

/-- A signed big-endian 16-bit field. -/
def be16 (b : Bytes) (off : Nat) : Int := toSigned 16 (beNat (slice b off 2))

/-- Consecutive pieces of a string. -/
def pieces (b : Bytes) (off size n : Nat) : List Bytes := (List.range n).map fun k => slice b (off + size * k) size

/-- An offset from UTC in quarters of an hour is in range (Table 10-2). -/
def offsetOk (o : Int) : Bool := decide (-48 ≤ o ∧ o ≤ 56)

/-- The switching points of a day profile (Table 16-7). -/
def profilePoints (p : Bytes) : List SwitchPoint :=
  (List.range (beNat (p.take 1))).map fun k => ⟨beNat (slice p (1 + 3 * k) 2), beNat (slice p (3 + 3 * k) 1)⟩

/-- A day profile keeps the limits and the order of Table 10-2; its unused points are 0. -/
def profileOk (p : Bytes) : Bool :=
  let n := beNat (p.take 1)
  let pts := profilePoints p
  decide (1 ≤ n ∧ n ≤ 16) && (p.drop (1 + 3 * n)).all (· == 0) && (pts.head?.map (·.minute)) == some 0
    && rising (pts.map (·.minute)) && pts.all fun x => decide (x.minute ≤ 1439 ∧ 1 ≤ x.tariff ∧ x.tariff ≤ 8)

/-- The date a special day counts by: the month and day of an annual one. -/
def specialKey (d : SpecialDay) : Nat := if d.annual then monthDay d.date else d.date + 1024

/-- Two special days fall on one date. -/
def specialClash (a b : SpecialDay) : Bool :=
  if a.annual = b.annual then specialKey a == specialKey b else monthDay a.date == monthDay b.date

/-- No two special days fall on one date (R248). -/
def specialsOk : List SpecialDay → Bool
  | [] => true
  | d :: t => !(t.any (specialClash d)) && specialsOk t

/-- The calendar that an image spells (Table 16-7), if it keeps every limit and ordering rule of Table 10-2. Profiles are
numbered from 0 in the image's order (DESIGN CHOICE, log 27). -/
def parseCalendar (b : Bytes) (nowNs : Nat) : Option Calendar :=
  let n := fun k => beNat (slice b k 1)
  let c := n 10; let sn := n 11; let pn := n 12; let dn := n 13
  let o1 := 16 + 12 * c
  let o2 := o1 + 10 * sn
  let o3 := o2 + 49 * pn
  let changes := pieces b 16 12 c
  let seasons := pieces b o1 10 sn
  let profiles := pieces b o2 49 pn
  let specials := (pieces b o3 4 dn).map fun x =>
    ({ date := beNat (slice x 0 2), profile := beNat (slice x 2 1), annual := (beNat (slice x 3 1)).testBit 0 } : SpecialDay)
  let act := beNat (slice b 0 8)
  let next := (nowNs / 1000000000 + 1) * 1000000000
  let actNs := if ct64Ns act ≤ nowNs then next else ct64Ns act
  let ok := decide (b.length = o3 + 4 * dn ∧ c ≤ 16 ∧ 1 ≤ sn ∧ sn ≤ 4 ∧ 1 ≤ pn ∧ pn ≤ 32 ∧ dn ≤ 64)
    && slice b 14 2 == [0, 0] && ct64Ok act && decide (actNs ≤ nowNs + 365 * 86400000000000) && offsetOk (be16 b 8)
    && changes.all (fun x => ct64Ok (beNat (x.take 8)) && offsetOk (be16 x 8) && slice x 10 2 == [0, 0])
    && rising (changes.map fun x => beNat (x.take 8))
    && seasons.all (fun x => decide (1 ≤ beNat (slice x 0 1) ∧ beNat (slice x 0 1) ≤ 12 ∧ 1 ≤ beNat (slice x 1 1)
        ∧ beNat (slice x 1 1) ≤ 31) && (slice x 2 7).all (fun p => decide (p.toNat < pn)) && slice x 9 1 == [0])
    && profiles.all profileOk && specials.all (fun d => decide (d.profile < pn))
    && (pieces b o3 4 dn).all (fun x => decide (beNat (slice x 3 1) < 2)) && specialsOk specials
  if ok then some
    { activation := actNs, base := be16 b 8
      changes := changes.map fun x => (ct64Ns (beNat (x.take 8)), be16 x 8)
      seasons := seasons.map fun x =>
        { month := beNat (slice x 0 1), day := beNat (slice x 1 1), profiles := (slice x 2 7).map (·.toNat) }
      profiles := profiles.map profilePoints, specials := specials, digest := sm3 b }
  else none

/-- Meridian cannot take a legal operation now: its update runs, or it is not started. -/
def meridianAway (s : State) : Bool := meridianUpdating s || !s.mer.up

/-- TARIFF_LOAD (R248): the last chunk makes the calendar the pending one (DEDUCED, log 52) (DEDUCED, log 67). -/
def runTariff (s : State) (opId sid : Nat) (k : Chunk) : State :=
  match takeChunk s sid 0x30 0 k with
  | (t, none) => resolveOp t opId .badParam []
  | (t, some (false, _)) => resolveOp t opId .ok []
  | (t, some (true, d)) =>
    if meridianAway t then resolveOp t opId .legalLocked []
    else match parseCalendar d t.nowNs with
      | none => resolveOp t opId .badParam []
      | some c =>
        let t := { t with mer := { t.mer with tar := { t.mer.tar with pending := some c } } }
        let t := legalEvent t 0x02 0 [beNat (c.digest.take 4), beNat (slice c.digest 4 4), beNat (slice c.digest 8 4)]
        resolveOp t opId .ok c.digest

/-- CLOCK_SET (R243 to R246). -/
def runClockSet (s : State) (opId : Nat) (role : Fin 4) (time : Nat) : State :=
  if meridianAway s then resolveOp s opId .legalLocked []
  else if role = 0 ∧ s.mer.chr.src = 1 then resolveOp s opId .badState []
  else
    let t := stepClock s (ct64Ns time)
    let t := { t with mer := { t.mer with chr := { t.mer.chr with src := 2, uncNs := 1000000000 } } }
    resolveOp t opId .ok (toBe 8 s.now)

/-- BILLING_CLOSE (R255): the period closes at the next whole second; the operation completes then. -/
def runBillingClose (s : State) (opId : Nat) : State :=
  if meridianAway s then resolveOp s opId .legalLocked []
  else
    { s with mer := { s.mer with closeDue := s.mer.closeDue ++ [(opId, (s.nowNs / 1000000000 + 1) * 1000000000)] } }

/-- The commanded billing closes whose instant has come, while Meridian meters (R255, R256). -/
def closeTick (s : State) : State :=
  if s.mer.up then
    (s.mer.closeDue.filter fun c => c.2 ≤ s.nowNs).foldl (fun t c =>
      let t := closeFor t c.2 2
      let seq := ((t.mer.leg.snapshots.head?).getD []).getD 0 0
      resolveOp { t with mer := { t.mer with closeDue := t.mer.closeDue.filter (· ≠ c) } } c.1 .ok
        (toBe 4 seq ++ toBe 8 (ct64 c.2))) s
  else s

/-! ### Safety confirmation and latches (R137, R309, R312, R316, R317, R490) -/

/-- SAFETY_CONFIRM, and with REVOKE its erasure (DEDUCED, log 67). -/
def runConfirm (s : State) (opId value : Nat) (revoke : Bool) : State :=
  if s.landfall.phase ≠ 9 then resolveOp s opId .badState []
  else if revoke then
    if anyDelivering s then resolveOp s opId .badState []
    else resolveOp (settle s { s with lk := { s.lk with confA := none, confB := none } }) opId .ok []
  else if value ≠ s.lk.checkA ∨ value ≠ s.lk.checkB then
    resolveOp (logRec s (Config.eventCode 316) .helm 0 value []) opId .badParam []
  else if !(s.lk.runA && s.lk.runB) then resolveOp s opId .internal []
  else
    let c : Confirmation := ⟨value, s.chart.inUse.elim 0 chartSerial, s.nowNs⟩
    resolveOp (settle s { s with lk := { s.lk with confA := some c, confB := some c } }) opId .ok []

/-- A LATCH_CLEAR's status from whether any latch of the scope was set, whether one remains (R490). -/
def clearStatus (was remains : Bool) : Status := if !was then .badState else if remains then .latched else .ok

/-- FLT_N of a stage's channels is asserted. -/
def stageFlt (s : State) (g : Fin 8) : Bool :=
  (List.finRange 48).any fun n => channelStage s n == some g && s.sx.channel[n].fltIn

/-- The record of a stage's latch: under FLT and READBACK it names the channel, else the stage. -/
def latchFault (s : State) (g : Fin 8) (code arg : Nat) : Bool :=
  if code = 0x0401 ∨ code = 0x0402 then channelStage s (Fin.ofNat 48 arg) == some g
  else arg == g.val && (code == 0x0205 || code == 0x0202 || code == Config.eventCode 136)

/-- Scope STAGE (R137). -/
def clearStage (s : State) (g : Fin 8) : Status × State :=
  if s.sx.stage[g].st ≠ .latched then (.badState, s)
  else if !(s.lk.gpA && s.lk.gpB) || stageFlt s g then (.latched, s)
  else
    let t := resplit s (afeAllOff (updStage (stageOff s g none) g fun x => { x with latchCause := 0, latchMask := 0, latchChan := none }))
    (.ok, clearFaults t .sextant (latchFault s g))

/-- Scope CELL (R137). -/
def clearCell (s : State) (c : Fin 48) : Status × State :=
  let off : Bool := match cellStage s c with
    | some g => decide (s.sx.stage[g].st = .off)
    | none => true
  if s.sx.cell[c].st = .retired ∧ off = true then
    let t := updCell s c fun x => { x with st := .off, retireCause := 0, stored := 0, retireNext := false }
    (.ok, logClear (resplit s t) (if s.sx.cell[c].retireCause = 1 then 0x0404 else 0x0405) .sextant c)
  else (.badState, s)

/-- The pads of an output read back its command. -/
def padsOk (x : SafeOut) : Bool := x.soh == x.cmd && x.sol == x.cmd

/-- An output's fault ends (R309, R312). -/
def endFault (s : State) (n : Fin 8) : State :=
  clearFaults (updSo s n fun y => { y with fault := 0 }) .lookout fun c i =>
    i == n.val && (c == 0x0601 || c == 0x0602 || c == 0x0604 || c == Config.eventCode 307)

/-- Scope OUTLET (R309, R312). -/
def clearOutlet (s : State) (o : Fin 2) : Status × State :=
  let outs := (List.finRange 8).filter fun n => soKind s n == o.val + 1
  let faulty := outs.any fun n => s.lk.so[n].fault ≠ 0
  let x := s.lk.outlet[o]
  let calm := decide (s.outlet[o].st = .faulted ∨ s.outlet[o].st = .idle) && outs.all fun n => readsOpen s n
  let mend := calm && outs.all fun n => padsOk s.lk.so[n]
  let sf7 := s.lk.sf7[o] && outletInput s o 12 27 24
  let t := if calm then updLko s o fun y => { y with blocked := false } else s
  let t := if mend then outs.foldl (fun u n => endFault u n) t else t
  let t := { t with lk := { t.lk with sf7 := t.lk.sf7.set o sf7 } }
  (clearStatus (x.blocked || faulty || s.lk.sf7[o]) ((x.blocked && !calm) || (faulty && !mend) || sf7),
    settle s (rest (setPilots t) o))

/-- Scope SAFETY (R312). -/
def clearSafety (s : State) : Status × State :=
  let outs := (List.finRange 8).filter fun n => decide (3 ≤ soKind s n ∧ soKind s n ≤ 5 ∧ s.lk.so[n].fault ≠ 0)
  let free := outs.filter fun n => padsOk s.lk.so[n] && readsOpen s n
  let remote := cfgB s 0x40 0 0x020 31
  let t := free.foldl (fun u n => endFault u n) s
  let t := if remote then resetModule t else t
  let held := fun (u : State) => remote && (u.lk.sf1 || u.lk.sf9 || u.lk.xcmp)
  (clearStatus (!outs.isEmpty || held s) (decide (free.length < outs.length) || held t), settle s t)

/-- Scope DISPLAY (Table 11-5): CRACK, once its resistance is in range. -/
def clearDisplay (s : State) : Status × State :=
  let r := s.disp.crackRes
  if !s.disp.faultCrack then (.badState, s)
  else if crackBad s r then (.latched, s)
  else (.ok, endDisp s true 0x0802 fun d => { d with faultCrack := false })

/-- Scope TAMPER_HOLD (Table 02-3). -/
def clearTamper (s : State) : Status × State :=
  if !s.landfall.holdTamper then (.badState, s)
  else if s.tamper.active ≠ 0 then (.latched, s)
  else (.ok, updLandfall s fun l => { l with holdTamper := false })

/-- LATCH_CLEAR by scope (R490). -/
def runLatchClear (s : State) (opId scope index : Nat) : State :=
  let r := match scope with
    | 1 => clearStage s (Fin.ofNat 8 index)
    | 2 => clearCell s (Fin.ofNat 48 index)
    | 3 => clearOutlet s (Fin.ofNat 2 index)
    | 4 => clearSafety s
    | 5 => clearDisplay s
    | _ => clearTamper s
  resolveOp r.2 opId r.1 []

end Sys2Proof.Machine
end

