-- ==== Sys2Proof/Machine/HostRun.lean ====
section
/-!
DEFINITION. The life of a host operation (R395 to R405): the frame's checks (R389, R390), acceptance with its journal
entry, start, completion with the result frame, and release.
-/
namespace Sys2Proof.Machine

/-! ### The start of an operation -/

/-- JOURNAL_READ (R405). -/
def journalFrom (s : State) (opId count : Nat) : Status × Bytes :=
  match s.host.journal.dropWhile (·.opId ≠ opId) with
  | [] => (.notFound, [])
  | l => (.ok, ((l.take count).map Jrn.bytes).flatten)

/-- LOG_READ (Table 16-6): of the records written. -/
def logFrom (s : State) (recNo count : Nat) : Status × Bytes :=
  match (loggedEvents s.log).dropWhile (·.no ≠ recNo) with
  | [] => (.notFound, [])
  | l => (.ok, ((l.take count).map LogRec.bytes).flatten)

/-- READ_PARAM (R460). -/
def runRead (s : State) (opId sid addr count : Nat) : State :=
  let r := readWords count sid addr s
  setResult r.2 opId .ok (r.1.map fun w => toBe 4 w.toNat).flatten

/-- A status and result with no lasting effect. -/
def showResult (s : State) (opId : Nat) (r : Status × Bytes) : State := setResult s opId r.1 r.2

/-- The effect of an operation at its start (R410). -/
def runOp (s : State) (x : Op) : State :=
  let id := x.opId
  match x.cmd with
  | .barrier => showResult s id (.ok, [])
  | .healthGet => showResult s id (.ok, healthReport s)
  | .journalRead a n => showResult s id (journalFrom s a n)
  | .logRead a n => showResult s id (logFrom s a n)
  | .readParam a n => runRead s id x.sid a n
  | .writeParam a ws => let r := runWrite s x.sid x.role a ws; resolveOp r.2 id r.1 []
  | .telFix sc pk => runTelFix s id sc pk
  | .sessionAuthorise o d h => runAuthorise s id o d h
  | .sessionCert o _ k => runCert s id x.sid o k
  | .sessionStop o => runStop s id o
  | .authTableLoad k => runAuthTable s id x.sid k
  | .accountLoad n op v => runAccount s id n op v
  | .siteLimitSet p l => runSiteLimit s id p l
  | .weatherHold m => runWeather s id m
  | .scrollSet l => resolveOp { s with com := { s.com with scroll := l, scrollAt := 0, scrollDue := some s.mono } } id .ok []
  | .displayRect x0 y0 w h pix => runRect s id ⟨x0, y0, w, h⟩ pix
  | .tariffLoad k => runTariff s id x.sid k
  | .clockSet t => runClockSet s id x.role t
  | .billingClose => runBillingClose s id
  | .safetyConfirm v rv => runConfirm s id v rv
  | .latchClear sc i => runLatchClear s id sc i
  | .keyImport k w a m u up => runImport s id k w a m u up
  | .keyDerive p c a _ up => runDerive s id x.role p c a up
  | .keyInvalidate k => runInvalidate s id k
  | .keyEncrypt k iv aad d up => runUse s id x.role k up [1] (useEncrypt iv aad d)
  | .keyDecrypt k iv aad d gcmOk up => runUse s id x.role k up [2] (useDecrypt iv aad d gcmOk)
  | .keySign k m up => runUse s id x.role k up [5] (useSign m)
  | .keyVerify k _ _ valid up => runUse s id x.role k up [6] (useVerify valid)
  | .keyMac k m up => runUse s id x.role k up [7] (useMac m)
  | .keyPublic k up => runUse s id x.role k up [5, 3, 6] usePublic
  | .attest n up => runAttest s id n up
  | .fwStage k c => runStage s id x.sid k c
  | .fwVerify k ok up => runVerify s id k ok up
  | .fwActivate k => runActivate s id k
  | .unknown _ => resolveOp s id .badParam []

/-- The die whose outcome list keeps the operation's step (R404): Sextant, Lookout, Meridian. -/
def HostCmd.otherDie : HostCmd → Option (Fin 3)
  | .telFix _ _ => some 0
  | .latchClear sc _ => if sc = 1 ∨ sc = 2 then some 0 else if sc = 3 ∨ sc = 4 then some 1 else none
  | .safetyConfirm _ _ => some 1
  | .writeParam a _ => if addrBlk a = 0x30 then some 2 else none
  | .tariffLoad _ => some 2 | .clockSet _ => some 2 | .billingClose => some 2
  | .fwActivate k => if k = 2 then some 0 else if k = 3 then some 1 else if k = 4 then some 2 else none
  | _ => none

/-- A step's outcome kept by the die that carried it out: the last 64. -/
def noteOutcome (s : State) (x : Op) : State :=
  match x.cmd.otherDie with
  | some d => { s with host := { s.host with outcomes := upd s.host.outcomes d fun l => ((x.opId, x.cmd.steps) :: l).take 64 } }
  | none => s

/-- RUNNING is set as an operation starts (R404). -/
def setRunning (s : State) (x : Op) : State :=
  updJrn (updOp s x.opId fun y => { y with started := true }) x.opId fun j => { j with running := true }

/-- An operation starts: RUNNING is set, then its effect takes place, and the die that did it keeps the outcome. -/
def startOp (s : State) (x : Op) : State := noteOutcome (runOp (setRunning s x) x) x

/-- OP_START: an operation that waits starts as soon as the order of R401 and R402 allows. -/
def tryStart (s : State) (opId : Nat) : State :=
  match s.host.ops.find? (·.opId == opId) with
  | some x => if !x.started && mayStart s x then startOp s x else s
  | none => s

/-! ### Completion and release (R399, R404) -/

/-- The key written by a KEY_DERIVE that has succeeded. -/
def deriveEnd (s : State) (x : Op) (st : Status) : State :=
  match x.cmd with
  | .keyDerive p c a ctx _ => if st = .ok then endDerive s x.opId p c a ctx else s
  | _ => s

/-- The operation's key slots are free of it. -/
def freeSlots (s : State) (opId : Nat) : State :=
  let slots : Vector Slot 128 := s.locker.slot.map fun k => { k with users := k.users.filter (· ≠ opId) }
  { s with locker := { s.locker with slot := slots } }

/-- The payload of a result frame (R399). -/
def resultPayload (x : Op) : Bytes := toBe 4 x.rgen ++ (x.result.map (·.payload)).getD []

/-- The status of an operation's result. -/
def resultStatus (x : Op) : Status := (x.result.map (·.status)).getD .pending

/-- OP_COMPLETE: one result frame, with the next RGEN; the journal entry reads COMPLETE (R399, R404). A session that the
operation's key change ends, ends now (R428). -/
def finishOp (s : State) (x : Op) : State :=
  match x.result with
  | none => s
  | some r =>
    let gen := (s.host.rgen + 1) % 2 ^ 32
    let s := freeSlots (deriveEnd s x r.status) x.opId
    let y := { x with complete := true, rgen := gen, doneAt := s.mono }
    let t := updOp { s with host := { s.host with rgen := gen } } x.opId fun _ => y
    let t := updJrn t x.opId fun j =>
      if j.state = 2 then { j with running := false } else { j with state := 2, status := r.status.code, running := false }
    match findSession t x.sid with
    | none => t
    | some w =>
      let t := sendSession t w x.cmd.code true true false false x.cls r.status.code x.opId (resultPayload y)
      if w.ending && ([0x50, 0x51, 0x52] : List Nat).contains x.cmd.code then endSession t x.sid else t

/-- A result is released: its slot is free, its entry no longer protected (R399, R403). -/
def releaseResult (s : State) (opId : Nat) : State :=
  dropHold { s with host := { s.host with ops := s.host.ops.filter (·.opId ≠ opId) } } opId

/-! ### Frames from the host (R385 to R390) -/

/-- The transport takes frames now (R38, R43, R386, R471): from host-ready, above Moored; the SPI with HSPI_EN, the others
with the links. -/
def transportOpen (s : State) (v : Transport) : Bool :=
  s.landfall.hostReady && decide (s.pwr.rung.code < 3) && match v with
    | .spi => cfgB s 0x01 0 0x100 15
    | .turxel _ => netRuns s
    | .tcp _ => netRuns s

/-- A frame discarded without reply (R389). -/
def dropFrame (s : State) : State := { s with host := { s.host with macFail := satInc 16 s.host.macFail } }

/-- The session of a frame; none, so that the frame is dropped, where its SID is not open, LEN does not match its size, or its MAC
fails under the session's key (R389). -/
def frameSession (s : State) (f : Frame) (code : Nat) (body : Bytes) : Option Session :=
  if f.sid = 0 ∨ f.len ≠ (framePayload f body).length then none
  else (findSession s f.sid).filter fun x => f.mac == frameMac x.keyIn f code body

/-- The SEQ of a frame is new in its session (R390): newer than the highest, or within the 64 below it and not seen. -/
def seqNew (x : Session) (seq : Nat) : Bool :=
  seqNewer seq x.rxHigh || (decide ((x.rxHigh + 2 ^ 32 - seq) % 2 ^ 32 ≤ 64) && decide (seq ≠ x.rxHigh)
    && !x.given.any fun g => g.seq == seq)

/-- An accepted frame noted: its transport takes the session's frames from here on (R385), the idle time begins anew. -/
def noteFrame (s : State) (f : Frame) : State :=
  updSession s f.sid fun x =>
    let high := if seqNewer f.seq x.rxHigh then f.seq else x.rxHigh
    { x with
      via := f.via, lastRx := s.mono, rxHigh := high
      given := x.given.filter fun g => decide ((high + 2 ^ 32 - g.seq) % 2 ^ 32 ≤ 64) }

/-- The reply already given to a frame, sent again with REPEAT (R390). -/
def repeatReply (s : State) (x : Session) (g : GivenReply) : State :=
  sendSession s x g.cmd true g.done true false g.cls g.status g.opId g.payload

/-- A frame in a session, with its command's code and payload (R389, R390): `act` is what a new one does. -/
def receive (s : State) (f : Frame) (code : Nat) (body : Bytes) (act : State → Session → State) : State :=
  if !transportOpen s f.via then s
  else match frameSession s f code body with
    | none => dropFrame s
    | some x =>
      if seqNew x f.seq then
        let t := noteFrame s f
        act t ((findSession t f.sid).getD x)
      else
        let t := updSession s f.sid fun y => { y with via := f.via, lastRx := s.mono }
        match x.given.find? fun g => g.seq == f.seq with
        | some g => repeatReply t { x with via := f.via, lastRx := s.mono } g
        | none => { s with host := { s.host with seqDrop := satInc 16 s.host.seqDrop } }

/-! ### Admission of an operation (R395, R403) -/

/-- The class of a frame; a CLASS above 5 never reaches it. -/
def clsOf (f : Frame) : Fin 6 := Fin.ofNat 6 f.cls

/-- The operation that a frame in a session asks for. -/
def opOf (s : State) (x : Session) (f : Frame) (c : HostCmd) : Op :=
  { opId := s.host.nextOp, sid := x.sid, role := x.role, cls := f.cls, cmd := c }

/-- The operation recorded: its token taken, its journal entry written, ACCEPTED sent (R396, R397, R403). -/
def recordOp (s : State) (x : Session) (f : Frame) (c : HostCmd) : State :=
  let id := s.host.nextOp
  let j : Jrn := { opId := id, cmd := c.code, cls := f.cls, role := x.role, n := c.steps, sid := x.sid, seq := f.seq
                   accepted := s.now }
  let t := updClass s (clsOf f) fun k => { k with milli := k.milli - 1000, acc := min 4294967295 (k.acc + 1) }
  let t := { t with host := { t.host with
    nextOp := (id + 1) % 2 ^ 32, ops := t.host.ops ++ [opOf s x f c], journal := addJournal t.host.journal j } }
  reply t f c.code false .accepted id []

/-- The operation accepted; it starts at once if it may (DESIGN CHOICE, log 10). -/
def acceptOp (s : State) (x : Session) (f : Frame) (c : HostCmd) : State :=
  let t := recordOp s x f c
  let y := opOf s x f c
  if mayStart t y then startOp t y else t

/-- A request that is an operation (R395). -/
def request (s : State) (f : Frame) (c : HostCmd) : State :=
  receive s f c.code c.body fun s x =>
    match admission s x.role x.sid f c with
    | .ok =>
      match lacking s x.sid (clsOf f) c with
      | some (cause, wait) =>
        let t := updClass s (clsOf f) fun k => { k with ref := min 4294967295 (k.ref + 1) }
        reply t f c.code false .notAccepted 0 (refusal cause wait)
      | none => acceptOp s x f c
    | st => reply s f c.code false st 0 []

/-- What a control command answers: as the frame it gives again when it is a result (R400). -/
structure CtlReply where
  cmd : Nat
  isResult : Bool
  cls : Nat
  st : Status
  opId : Nat
  payload : Bytes
  deriving DecidableEq, Repr

/-- A control command's reply sent and kept. -/
def replyCtl (s : State) (f : Frame) (r : CtlReply) : State :=
  match findSession s f.sid with
  | none => s
  | some x =>
    updSession (sendSession s x r.cmd true r.isResult r.isResult false r.cls r.st.code r.opId r.payload) f.sid fun y =>
      { y with given := ⟨f.seq, r.cmd, r.isResult, r.cls, r.st.code, r.opId, r.payload⟩ :: y.given }

/-- A control command (R38, R395): open at any time, with a D0 token and no slot; `act` gives the reply and
the state (DEDUCED, log 62). -/
def control (s : State) (f : Frame) (code : Nat) (body : Bytes) (act : State → Session → CtlReply × State) : State :=
  receive s f code body fun s x =>
    if 5 < f.cls ∨ f.raw.isSome then reply s f code false .badParam 0 []
    else if (s.host.cls[(0 : Fin 6)]).milli < 1000 then
      let t := updClass s 0 fun k => { k with ref := min 4294967295 (k.ref + 1) }
      reply t f code false .notAccepted 0 (refusal 1 (tokenWait s 0))
    else
      let t := updClass s 0 fun k => { k with milli := k.milli - 1000, acc := min 4294967295 (k.acc + 1) }
      let r := act t x
      replyCtl r.2 f r.1

end Sys2Proof.Machine
end

