-- ==== Sys2Proof/Machine/Host.lean ====
section
/-!
DEFINITION. The host's frames (R385 to R412): sessions, control commands and operations, one meaning per row; the life of
operations, results and sessions; recovery (R406 to R408).
-/
namespace Sys2Proof.Machine

/-! ### Sessions (R391 to R394, R408) -/

/-- SERIAL (R391). -/
def serial : Bytes := (List.range 8).map Config.serialByte

/-- The text KGV-M, or KGV-H for `host` (R391). -/
def proofTag (host : Bool) : Bytes := [0x4B, 0x47, 0x56, 0x2D, if host then 0x48 else 0x4D]

/-- PM (Table 16-2). -/
def proofModule (key : Bytes) (sid : Nat) (nh nm : Bytes) : Bytes := hmac key (proofTag false ++ serial ++ toBe 2 sid ++ nh ++ nm)

/-- PH (Table 16-2). -/
def proofHost (key : Bytes) (sid : Nat) (nh nm : Bytes) : Bytes := hmac key (proofTag true ++ serial ++ toBe 2 sid ++ nm ++ nh)

/-- KM (R392). -/
def sessionKeys (key : Bytes) (sid : Nat) (nh nm : Bytes) : Bytes := kdf (key ++ nh ++ nm ++ toBe 2 sid) 64

/-- The slot of a role's key (R391). -/
def roleSlot (role : Fin 4) : Fin 128 := Fin.ofNat 128 (4 + role.val)

/-- The payload of the reply to HELLO (Table 16-2). -/
def helloPayload (s : State) : Bytes :=
  toBe 2 1 ++ serial ++ toBe 1 s.landfall.role ++ toBe 1 s.landfall.phase ++ toBe 1 (holdCode s)
    ++ toBe 1 (8 - s.host.sessions.length) ++ toBe 4 s.fw[(0 : Fin 5)].runVer

/-- The payload of HELLO, with HFLAGS (Table 16-2). -/
def helloBody (hflags : Nat) : Bytes := toBe 2 1 ++ toBe 1 hflags

/-- A class and layout that HELLO, AUTH_CHALLENGE and AUTH_PROVE accept (R395, checks 3 and 4). -/
def frameFits (f : Frame) : Bool := decide (1 ≤ f.cls ∧ f.cls ≤ 5) && f.raw.isNone

/-- A frame outside any session that R389 lets through. -/
def bareOk (f : Frame) (body : Bytes) : Bool :=
  decide (f.len = (framePayload f body).length ∧ f.mac = List.replicate 8 0)

/-- HELLO, outside a session or within one (R391). -/
def execHello (f : Frame) (s : State) : Out :=
  .next (
    let st : Status := if frameFits f then .ok else .badParam
    let body := if frameFits f then helloPayload s else []
    if f.sid = 0 then
      if !transportOpen s f.via then s
      else if bareOk f (helloBody 0) then sendBare s f.via 0 0x01 f.cls st body
      else dropFrame s
    else receive s f 0x01 (helloBody 0) fun t _ => reply t f 0x01 false st 0 (if frameFits f then helloPayload t else []))

/-- HELLO with CLOSE (R394): the session ends after the reply; outside a session HFLAGS must be 0. -/
def execHelloClose (f : Frame) (s : State) : Out :=
  .next (
    if f.sid = 0 then
      if !transportOpen s f.via then s
      else if bareOk f (helloBody 1) then sendBare s f.via 0 0x01 f.cls .badParam []
      else dropFrame s
    else receive s f 0x01 (helloBody 1) fun t _ =>
      if frameFits f then endSession (reply t f 0x01 false .ok 0 (helloPayload t)) f.sid
      else reply t f 0x01 false .badParam 0 [])

/-- A failed authentication (R393): logged and counted. -/
def authFailed (s : State) (role : Fin 4) : State :=
  let t := logInfo s (Config.eventCode 393) .helm role
  { t with host := { t.host with authFail := satInc 16 t.host.authFail } }

/-- The next SID (R393): after the last issued, skipping 0 and the ones in use. -/
def nextSid (s : State) : Nat :=
  let used := fun (n : Nat) => n == 0 || s.host.sessions.any (·.sid == n) || s.host.challenges.any (·.sid == n)
  (((List.range 16).map fun k => (s.host.lastSid + 1 + k) % 65536).find? fun n => !used n).getD 1

/-- The challenge opened (R391, step 4). -/
def openChallenge (s : State) (f : Frame) (role : Fin 4) (nh : Bytes) : State :=
  let sid := nextSid s
  let d := drawBytes s 16
  let key := (s.locker.slot[roleSlot role]).material
  let t := useSlot d.2 (roleSlot role) 1
  let t := { t with host := { t.host with
    lastSid := sid, challenges := t.host.challenges ++ [{ sid := sid, role := role, nh := nh, nm := d.1, at_ := s.mono }] } }
  sendBare t f.via sid 0x02 f.cls .ok (toBe 2 sid ++ d.1 ++ proofModule key sid nh d.1)

/-- AUTH_CHALLENGE (R38, R391, R393) (DEDUCED, log 62). -/
def execAuthChallenge (f : Frame) (role : Fin 4) (nh : Bytes) (s : State) : Out :=
  .next (
    let x := s.locker.slot[roleSlot role]
    let body := toBe 1 role ++ nh
    if f.sid ≠ 0 then receive s f 0x02 body fun t _ => reply t f 0x02 false .badParam 0 []
    else if !transportOpen s f.via then s
    else if !bareOk f body then dropFrame s
    else if roleHeldOff s role then sendBare s f.via 0 0x02 f.cls .roleDenied []
    else if !frameFits f || nh.length != 16 then sendBare s f.via 0 0x02 f.cls .badParam []
    else if 8 ≤ s.host.sessions.length ∨ 2 ≤ s.host.challenges.length then
      sendBare s f.via 0 0x02 f.cls .notAccepted (refusal 5 (classBound f.cls))
    else if x.st = .unusable then sendBare (authFailed s role) f.via 0 0x02 f.cls .slotCorrupt []
    else if !readyForUse x || !x.roles.testBit 4 then sendBare (authFailed s role) f.via 0 0x02 f.cls .authFail []
    else openChallenge s f role nh)

/-- The entries a new session of a role is told of (R408). -/
def reportEntries (s : State) (role : Fin 4) : List Jrn :=
  s.host.journal.filter fun j => j.held && j.recovered && (j.role == role || role == 1 || role == 3)

/-- Part `k` of `n` of a RECOVERY_REPORT. -/
def reportPart (l : List Jrn) (n k : Nat) : Bytes :=
  let p := (l.drop (44 * k)).take 44
  toBe 1 k ++ toBe 1 n ++ toBe 1 p.length ++ toBe 1 0 ++ (p.map Jrn.bytes).flatten

/-- The first frames of a session: the recovery report (R408). -/
def sendReport (s : State) (sid : Nat) (role : Fin 4) : State :=
  let l := reportEntries s role
  let n := max 1 ((l.length + 43) / 44)
  let t := (List.range n).foldl (fun t k => match findSession t sid with
    | some x => sendSession t x 0x83 false false false true 0 0 0 (reportPart l n k)
    | none => t) s
  logInfo t (Config.eventCode 408) .helm sid

/-- The session opened (R391, R392). -/
def openSessionOf (s : State) (f : Frame) (c : Challenge) (key : Bytes) : State :=
  let km := sessionKeys key c.sid c.nh c.nm
  let x : Session :=
    { sid := c.sid, role := c.role, keyIn := km.take 32, keyOut := km.drop 32, via := f.via, lastRx := s.mono }
  let t := sendBare (useSlot s (roleSlot c.role) 1) f.via c.sid 0x03 f.cls .ok []
  sendReport { t with host := { t.host with sessions := t.host.sessions ++ [x] } } c.sid c.role

/-- A pending challenge removed. -/
def dropChallenge (s : State) (sid : Nat) : State :=
  { s with host := { s.host with challenges := s.host.challenges.filter (·.sid ≠ sid) } }

/-- AUTH_PROVE (R391 to R393) (DEDUCED, log 62). -/
def execAuthProve (f : Frame) (ph : Bytes) (s : State) : Out :=
  .next (
    match s.host.challenges.find? (·.sid == f.sid) with
    | none => receive s f 0x03 ph fun t _ => reply t f 0x03 false .badParam 0 []
    | some c =>
      let x := s.locker.slot[roleSlot c.role]
      if !transportOpen s f.via then s
      else if !bareOk f ph then dropFrame s
      else if !frameFits f || ph.length != 32 then sendBare s f.via f.sid 0x03 f.cls .badParam []
      else
        let t := dropChallenge s c.sid
        if readyForUse x && ph == proofHost x.material c.sid c.nh c.nm && !roleHeldOff s c.role
            && decide (s.host.sessions.length < 8) then openSessionOf t f c x.material
        else sendBare (authFailed t c.role) f.via f.sid 0x03 f.cls .authFail [])

/-- SESSION_IDLE_TIMEOUT (R394): no valid frame for SESS_IDLE. -/
def execSessionIdleTimeout (sid : Nat) (s : State) : Out :=
  .next (match findSession s sid with
    | some x => if x.lastRx + cfgN s 0x01 0 0x100 31 16 * 1000 ≤ s.mono then endSession s sid else s
    | none => s)

/-- CHALLENGE_LAPSE (R393): 2 s after step 4. -/
def execChallengeLapse (sid : Nat) (s : State) : Out :=
  .next (if s.host.challenges.any fun c => c.sid == sid && decide (c.at_ + 2000 ≤ s.mono) then dropChallenge s sid else s)

/-! ### Control commands (R400, R405, R406) -/

/-- RESULT_GET (R400). -/
def execResultGet (f : Frame) (opId : Nat) (s : State) : Out :=
  .next (control s f 0x04 (toBe 4 opId) fun t x =>
    match t.host.ops.find? fun y => y.opId == opId && (y.role == x.role || x.role == 1) with
    | none => (⟨0x04, false, f.cls, .notFound, 0, []⟩, t)
    | some y =>
      if y.complete then (⟨y.cmd.code, true, y.cls, resultStatus y, opId, resultPayload y⟩, t)
      else (⟨0x04, false, f.cls, .pending, opId, []⟩, t))

/-- What a RESULT_ACK names and may release: held results of the caller's role, and held recovered entries. -/
def ackable (s : State) (role : Fin 4) (id : Nat) : Bool :=
  s.host.ops.any (fun y => y.opId == id && y.complete && y.role == role)
    || s.host.journal.any fun j => j.opId == id && j.held && j.recovered && j.role == role

/-- RESULT_ACK (R400, R406) (DEDUCED, log 62). -/
def execResultAck (f : Frame) (opIds : List Nat) (s : State) : Out :=
  .next (control s f 0x05 (toBe 1 opIds.length ++ (opIds.map (toBe 4)).flatten) fun t x =>
    if opIds.length = 0 ∨ 64 < opIds.length then (⟨0x05, false, f.cls, .badParam, 0, []⟩, t)
    else
      let hit := opIds.eraseDups.filter (ackable t x.role)
      (⟨0x05, false, f.cls, .ok, 0, toBe 1 hit.length⟩, hit.foldl releaseResult t))

/-- OP_STATUS (R405). -/
def execOpStatus (f : Frame) (opId : Nat) (s : State) : Out :=
  .next (control s f 0x06 (toBe 4 opId) fun t _ =>
    match t.host.journal.find? (·.opId == opId) with
    | some j => (⟨0x06, false, f.cls, .ok, opId, j.bytes⟩, t)
    | none => (⟨0x06, false, f.cls, .notFound, 0, []⟩, t))

/-! ### Operations (Table 16-6) -/

/-- BARRIER (R402). -/
def execBarrier (f : Frame) (s : State) : Out := .next (request s f .barrier)

/-- HEALTH_GET (R381). -/
def execHealthGet (f : Frame) (s : State) : Out := .next (request s f .healthGet)

/-- JOURNAL_READ (R405). -/
def execJournalRead (f : Frame) (opId count : Nat) (s : State) : Out := .next (request s f (.journalRead opId count))

/-- LOG_READ. -/
def execLogRead (f : Frame) (recNo count : Nat) (s : State) : Out := .next (request s f (.logRead recNo count))

/-- READ_PARAM (R460). -/
def execReadParam (f : Frame) (addr count : Nat) (s : State) : Out := .next (request s f (.readParam addr count))

/-- WRITE_PARAM (R411). -/
def execWriteParam (f : Frame) (addr : Nat) (words : List Word) (s : State) : Out := .next (request s f (.writeParam addr words))

/-- ENG_IMP_LO read: the capture of R228. -/
def execEngImpLoRead (f : Frame) (inst : Fin 3) (s : State) : Out := .next (request s f (.readParam (regAddr 0x30 (0x500 + inst) 0x020) 1))

/-- TAR1_IMP LO read: the capture of Table 19-3. -/
def execTar1ImpLoRead (f : Frame) (o : Fin 2) (s : State) : Out := .next (request s f (.readParam (regAddr 0x30 (0x800 + o) 0x000) 1))

/-- CHR_TIME_LO read: the capture of Table 19-3. -/
def execChrTimeLoRead (f : Frame) (s : State) : Out := .next (request s f (.readParam (regAddr 0x30 0x700 0x000) 1))

/-- The address of a selector (R461). -/
def selAddr : RecordSel → Nat
  | .evt => regAddr 0x30 0x600 0x008
  | .snap => regAddr 0x30 0x700 0x0A0
  | .srec => regAddr 0x30 0x700 0x0A4
  | .levt => regAddr 0x30 0x700 0x0A8

/-- A selector written: the capture of Table 19-3. -/
def execRecordSelectWrite (f : Frame) (sel : RecordSel) (index : Nat) (s : State) : Out := .next (request s f (.writeParam (selAddr sel) [BitVec.ofNat 32 index]))

/-- METRO_COMMIT written with 1 (R217). -/
def execMetroCommit (f : Frame) (s : State) : Out := .next (request s f (.writeParam (regAddr 0x30 0x300 0x008) [1]))

/-- The ACC_CFG word that sets EMERG_REQ and keeps EMERG_MODE (R268). -/
def emergWord (s : State) (acct : Nat) : Word := BitVec.ofNat 32 ((account s acct).mode * 2 ^ 30 + 2 ^ 29)

/-- EMERG_REQ set by an OPERATOR (R268). -/
def execEmergReqWrite (f : Frame) (acct : Nat) (s : State) : Out := .next (request s f (.writeParam (regAddr 0x90 (acct % 4096) 0x80C) [emergWord s (acct % 4096)]))

/-- TEL_FIX (R145). -/
def execTelFix (f : Frame) (scope : Nat) (peakClear : Bool) (s : State) : Out := .next (request s f (.telFix scope peakClear))

/-- SESSION_AUTHORISE, ALLOW or REFUSE (R166, R167). -/
def execSessionAuthorise (f : Frame) (o decision : Nat) (hash : Bytes) (s : State) : Out := .next (request s f (.sessionAuthorise o decision hash))

/-- SESSION_AUTHORISE with a certificate response (R155). -/
def execSessionAuthoriseCert (f : Frame) (o : Nat) (hash : Bytes) (k : Chunk) (s : State) : Out := .next (request s f (.sessionCert o hash k))

/-- SESSION_STOP (R161). -/
def execSessionStop (f : Frame) (o : Nat) (s : State) : Out := .next (request s f (.sessionStop o))

/-- AUTH_TABLE_LOAD (R271). -/
def execAuthTableLoad (f : Frame) (k : Chunk) (s : State) : Out := .next (request s f (.authTableLoad k))

/-- ACCOUNT_LOAD adding to CREDIT (R266, R268). -/
def execAccountAddCredit (f : Frame) (acct : Nat) (value : Int) (s : State) : Out := .next (request s f (.accountLoad acct 1 value))

/-- ACCOUNT_LOAD setting ACC_EMERG (R266, R268). -/
def execAccountSetEmerg (f : Frame) (acct : Nat) (value : Int) (s : State) : Out := .next (request s f (.accountLoad acct 2 value))

/-- ACCOUNT_LOAD setting EMERG_MODE (R266, R268). -/
def execAccountSetEmergMode (f : Frame) (acct : Nat) (value : Int) (s : State) : Out := .next (request s f (.accountLoad acct 3 value))

/-- ACCOUNT_LOAD requesting emergency credit (R266, R268). -/
def execAccountRequestEmerg (f : Frame) (acct : Nat) (value : Int) (s : State) : Out := .next (request s f (.accountLoad acct 4 value))

/-- SITE_LIMIT_SET (R365). -/
def execSiteLimitSet (f : Frame) (pSite : Nat) (classes : List (Nat × Nat)) (s : State) : Out := .next (request s f (.siteLimitSet pSite classes))

/-- WEATHER_HOLD (R269). -/
def execWeatherHold (f : Frame) (minutes : Nat) (s : State) : Out := .next (request s f (.weatherHold minutes))

/-- SCROLL_SET (R272). -/
def execScrollSet (f : Frame) (items : List ScrollItem) (s : State) : Out := .next (request s f (.scrollSet items))

/-- DISPLAY_RECT (R281 to R284). -/
def execDisplayRect (f : Frame) (x0 y0 w h : Nat) (pix : Bytes) (s : State) : Out := .next (request s f (.displayRect x0 y0 w h pix))

/-- TARIFF_LOAD (R248). -/
def execTariffLoad (f : Frame) (k : Chunk) (s : State) : Out := .next (request s f (.tariffLoad k))

/-- CLOCK_SET (R244). -/
def execClockSet (f : Frame) (time : Nat) (s : State) : Out := .next (request s f (.clockSet time))

/-- BILLING_CLOSE (R255). -/
def execBillingClose (f : Frame) (s : State) : Out := .next (request s f .billingClose)

/-- SAFETY_CONFIRM (R316). -/
def execSafetyConfirm (f : Frame) (value : Nat) (s : State) : Out := .next (request s f (.safetyConfirm value false))

/-- SAFETY_CONFIRM with REVOKE (R317). -/
def execSafetyConfirmRevoke (f : Frame) (value : Nat) (s : State) : Out := .next (request s f (.safetyConfirm value true))

/-- LATCH_CLEAR with scope STAGE (R137). -/
def execLatchClearStage (f : Frame) (index : Nat) (s : State) : Out := .next (request s f (.latchClear 1 index))

/-- LATCH_CLEAR with scope CELL (R137). -/
def execLatchClearCell (f : Frame) (index : Nat) (s : State) : Out := .next (request s f (.latchClear 2 index))

/-- LATCH_CLEAR with scope OUTLET (R309). -/
def execLatchClearOutlet (f : Frame) (index : Nat) (s : State) : Out := .next (request s f (.latchClear 3 index))

/-- LATCH_CLEAR with scope SAFETY (R312). -/
def execLatchClearSafety (f : Frame) (index : Nat) (s : State) : Out := .next (request s f (.latchClear 4 index))

/-- LATCH_CLEAR with scope DISPLAY (R490). -/
def execLatchClearDisplay (f : Frame) (index : Nat) (s : State) : Out := .next (request s f (.latchClear 5 index))

/-- LATCH_CLEAR with scope TAMPER_HOLD (Table 02-3). -/
def execLatchClearTamperHold (f : Frame) (index : Nat) (s : State) : Out := .next (request s f (.latchClear 6 index))

/-- KEY_IMPORT (R422, R423). -/
def execKeyImport (f : Frame) (slot wrapSlot : Nat) (attrs wrapped : Bytes) (u : Unwrapped) (up : TagUpsets) (s : State) : Out :=
  .next (request s f (.keyImport slot wrapSlot attrs wrapped u up))

/-- KEY_DERIVE (R424). -/
def execKeyDerive (f : Frame) (parent child : Nat) (attrs context : Bytes) (up : TagUpsets) (s : State) : Out :=
  .next (request s f (.keyDerive parent child attrs context up))

/-- KEY_INVALIDATE (R427). -/
def execKeyInvalidate (f : Frame) (slot : Nat) (s : State) : Out := .next (request s f (.keyInvalidate slot))

/-- KEY_USE, ENCRYPT (R425). -/
def execKeyUseEncrypt (f : Frame) (slot : Nat) (iv aad data : Bytes) (up : TagUpsets) (s : State) : Out := .next (request s f (.keyEncrypt slot iv aad data up))

/-- KEY_USE, DECRYPT (R425). -/
def execKeyUseDecrypt (f : Frame) (slot : Nat) (iv aad data : Bytes) (gcmOk : Bool) (up : TagUpsets) (s : State) : Out :=
  .next (request s f (.keyDecrypt slot iv aad data gcmOk up))

/-- KEY_USE, SIGN (R425). -/
def execKeyUseSign (f : Frame) (slot : Nat) (msg : Bytes) (up : TagUpsets) (s : State) : Out := .next (request s f (.keySign slot msg up))

/-- KEY_USE, VERIFY (R425). -/
def execKeyUseVerify (f : Frame) (slot : Nat) (sig msg : Bytes) (valid : Bool) (up : TagUpsets) (s : State) : Out :=
  .next (request s f (.keyVerify slot sig msg valid up))

/-- KEY_USE, MAC (R425). -/
def execKeyUseMac (f : Frame) (slot : Nat) (msg : Bytes) (up : TagUpsets) (s : State) : Out := .next (request s f (.keyMac slot msg up))

/-- KEY_USE, PUBLIC (R425). -/
def execKeyUsePublic (f : Frame) (slot : Nat) (up : TagUpsets) (s : State) : Out := .next (request s f (.keyPublic slot up))

/-- ATTEST (R430). -/
def execAttest (f : Frame) (nonce : Bytes) (up : TagUpsets) (s : State) : Out := .next (request s f (.attest nonce up))

/-- FW_STAGE (R435). -/
def execFwStage (f : Frame) (target : Nat) (k : Chunk) (s : State) : Out := .next (request s f (.fwStage target k))

/-- FW_VERIFY (R436) (DESIGN CHOICE, log 26). -/
def execFwVerify (f : Frame) (target : Nat) (sigOk : Bool) (up : TagUpsets) (s : State) : Out :=
  .next (request s f (.fwVerify target sigOk up))

/-- FW_ACTIVATE (R437). -/
def execFwActivate (f : Frame) (target : Nat) (s : State) : Out := .next (request s f (.fwActivate target))

/-- A frame with an unknown command code (R395, check 2). -/
def execUnknownCommand (f : Frame) (code : Byte) (s : State) : Out := .next (request s f (.unknown code.toNat))

/-! ### The life of operations and results -/

/-- OP_START (R401, R402). -/
def execOpStart (opId : Nat) (s : State) : Out := .next (tryStart s opId)

/-- OP_COMPLETE (R399): an operation whose effect is done. -/
def execOpComplete (opId : Nat) (s : State) : Out :=
  .next (match s.host.ops.find? fun x => x.opId == opId && x.started && !x.complete with
    | some x => finishOp s x
    | none => s)

/-- RESULT_HOLD_EXPIRY (R399): 60 s after completion. -/
def execResultHoldExpiry (opId : Nat) (s : State) : Out :=
  .next (if s.host.ops.any fun x => x.opId == opId && x.complete && decide (x.doneAt + 60000 ≤ s.mono) then
    releaseResult s opId else s)

/-- CHUNK_TIMEOUT (R412): no chunk for 60 s. -/
def execChunkTimeout (sid cmd : Nat) (s : State) : Out :=
  .next (dropTransfers s fun x => x.sid == sid && x.cmd == cmd && decide (x.at_ + 60000 ≤ s.mono))

/-- HSPI_IRQ_N: low while a frame waits for the host on the SPI (R386). -/
def hspiIrqN (s : State) : Bool := !s.host.out.any fun f => f.via == .spi

/-- HSPI_READ_TRANSACTION (R386): the oldest frame waiting for the host on the SPI leaves after its length; with none, a length
of 0 (DEDUCED, log 62). -/
def execHspiReadTransaction (s : State) : Out :=
  .next (if cfgB s 0x01 0 0x100 15 then
    let b := ((s.host.out.find? fun f => f.via == .spi).map OutFrame.bytes).getD []
    { s with host := { s.host with out := s.host.out.eraseP fun f => f.via == .spi, miso := toBe 2 b.length ++ b } } else s)

/-! ### Recovery (R406 to R408) -/

/-- A step of the operation is confirmed by the die that carried it out (R404, R406). -/
def confirmed (s : State) (opId : Nat) : Bool := s.host.outcomes.toList.any fun l => l.any (·.1 == opId)

/-- A journal entry resolved (R406). An activation still under way stays at its step until its first start ends. -/
def recoverEntry (s : State) (j : Jrn) : Jrn :=
  let k := { j with recovered := true }
  if j.state = 2 ∨ j.state = 3 then k
  else if !lasting j.cmd then
    if j.running then { k with state := 3, status := Status.recovering.code, running := false } else k
  else if j.state = 1 then
    if j.cmd = 0x62 ∧ activatingAny s = true then k
    else if carriedOn j.cmd then { k with state := 2, status := 0, running := false }
    else { k with state := 3, status := Status.recovering.code, running := false }
  else if j.n = 1 ∧ j.running = true then
    if confirmed s j.opId then { k with state := 2, status := 0, running := false } else { k with running := false }
  else k

/-- The cascades under way are carried out: no operation uses a slot any more (R406, R427). -/
def endCascades (s : State) : State :=
  (List.finRange 128).foldl (fun t k =>
    if (t.locker.slot[k]).doom.isEmpty then t else invalidateSlot t k ((t.locker.slot[k]).doom.headD 0)) s

/-- RECOVERY_END (R406): every held entry of an operation from before the restart is resolved (DEDUCED, log 40). -/
def execRecoveryEnd (s : State) : Out :=
  .next (if s.landfall.recovering then
    let t := endChartActivation (endCascades s)
    let mine := fun (j : Jrn) => j.held && !t.host.ops.any fun x => x.opId == j.opId
    let js := t.host.journal.map fun j => if mine j then recoverEntry t j else j
    let t := { t with host := { t.host with journal := js } }
    clearFaults (updLandfall t fun l => { l with recovering := false, recoveryEnd := s.now, recoveredAt := s.mono }) .helm
      fun c _ => c == 0x0201 || memCode c
  else s)

/-- RECOVERED_HOLD_EXPIRY (R406): 10 minutes. -/
def execRecoveredHoldExpiry (opId : Nat) (s : State) : Out :=
  .next (if s.host.journal.any (fun j => j.opId == opId && j.recovered) && decide (s.landfall.recoveredAt + 600000 ≤ s.mono) then
    dropHold s opId else s)

end Sys2Proof.Machine
end

