-- ==== Sys2Proof/Machine/Keys.lean ====
section
/-!
DEFINITION. The Chart Locker's own events and the tamper events (R417, R418, R427, R431, R432), and the end of a firmware
target's first start (R434, R438).
-/
namespace Sys2Proof.Machine

/-- SLOT_OPERATION_BOUNDARY (R427): no operation uses the slot any more. -/
def execSlotOperationBoundary (slot : Fin 128) (s : State) : Out := .next (slotBoundary s slot)

/-- KEY_SCRUB (R417, R449): one slot every 675 s of the rungs from Underway to Anchored, all 128 in turn. -/
def execKeyScrub (up : TagUpsets) (s : State) : Out :=
  .next (if s.landfall.helmUp && decide (s.pwr.rung.code < 3) && !suspended s 3 && decide (s.flt.keyAt + 675000 ≤ s.flt.underMs) then
    let s := { s with flt := { s.flt with keyAt := s.flt.underMs } }
    let t := checkTag s (Fin.ofNat 128 s.locker.scrubPos) up
    let n := (s.locker.scrubPos + 1) % 128
    { t with locker := { t.locker with scrubPos := n, scrubLast := if n = 0 then s.now else t.locker.scrubLast } }
    else s)

/-! ### Tamper (R431, R432) -/

/-- The sources whose events are captured (R431): TAMP_EN, MESH_EN, and the detectors, which work at all times. -/
def tamperEnabled (s : State) : BitVec 8 :=
  BitVec.ofNat 8 (s.tamper.cfg.field 3 0 + 16 * s.tamper.cfg.field 31 31 + 0xE0)

/-- A TAMP input has stood at its active level for 3 samples (R431) (DEDUCED, log 94). -/
def heldPin (s : State) (pins : List (BitVec 4)) (k : Fin 4) : Bool :=
  let hit := pins.map fun p => p.getLsbD k == s.tamper.cfg.getLsbD (4 + k)
  (List.range pins.length).any fun i => ((hit.drop i).take 3) == [true, true, true]

/-- The sources that show an event (R431): the inputs, the mesh whose pattern does not return, and the detectors of VDD_CORE or VDDIO
beyond Table 20-1, of an H-SEC clock period outside 4.5 ns to 5.5 ns, and of a die temperature outside −50 °C to +135 °C. -/
def tamperShown (s : State) (x : TamperSense) : BitVec 8 :=
  let bits : List Bool := (List.finRange 4).map (heldPin s x.pins) ++ [decide (x.meshIn ≠ x.meshOut),
    decide (x.coreMv < -300 ∨ 1100 < x.coreMv ∨ x.ioMv < -300 ∨ 2200 < x.ioMv), decide (x.clockPs < 4500 ∨ 5500 < x.clockPs),
    decide (x.temp < -500 ∨ 1350 < x.temp)]
  BitVec.ofNat 8 (bits.foldr (fun b a => flag b + 2 * a) 0) &&& tamperEnabled s

/-- Moored, Laid-up, Dark, on VBAT alone, or before Helm's start in a Landfall: the module cannot answer yet (Table 17-6). A
Helm that restarts after Landfall complete is no such case (R44). -/
def asleep (s : State) : Bool :=
  s.pwr.onVbat || !supplied s || (!s.landfall.helmUp && decide (s.landfall.phase < 9)) || decide (s.pwr.rung = .moored ∨ s.pwr.rung = .laidUp ∨ s.pwr.rung = .dark)

/-- The event captured in TAMP_STATUS. -/
def captureTamper (s : State) (src : BitVec 8) : State :=
  let p := s.tamper
  { s with tamper := { p with
      sources := p.sources ||| src, active := p.active ||| src, cnt := satInc 8 p.cnt, time := s.now } }

/-- TAMPER_EVENT, answered as Table 17-6 says. With H-AON's clock lost, H-CORE samples, while Helm runs (Table 18-2). A
temperature beyond its limits is an excursion (Table 18-5). -/
def execTamperEvent (x : TamperSense) (s : State) : Out :=
  .next (
    let src := tamperShown s x
    if src = 0 || (s.pwr.onVbat && !s.pwr.vbat) || (s.flt.island[(7 : Fin 17)].lost && !s.landfall.helmUp) then s
    else
      let t := abortKeyOps (captureTamper s src)
      let t := if src.getLsbD 7 then { t with flt := { t.flt with ratingsOk := false } } else t
      if asleep s then { t with tamper := { t.tamper with pendingHold := true } }
      else
        let t := logDetect t (Config.eventCode 432) .helm src.toNat
        if s.landfall.holdTamper then t
        else if s.landfall.phase < 9 then enterTamperHold (eraseKeys t)
        else eraseKeys t)

/-- TAMPER_SOURCE_CEASES: a source shows its event no longer; what was captured stays. -/
def execTamperSourceCeases (x : TamperSense) (s : State) : Out :=
  .next { s with tamper := { s.tamper with active := s.tamper.active &&& tamperShown s x } }

/-! ### The end of a first start (R438) -/

/-- A target's first start can succeed (R438): its activation is under way; Helm has reached host-ready within 400 ms of the
flip; Lookout's channels have had their 100 ms of agreement since. -/
def firstStarting (s : State) (i : Fin 5) : Bool :=
  s.fw[i].activating && i != 4 && (i != 0 || (s.landfall.hostReady && decide (s.mono ≤ s.fw[i].flipAt + 400)))
    && (i != 2 || decide (s.fw[i].flipAt + 100 ≤ s.mono))

/-- FIRST_START_SUCCESS (R434, R438). -/
def execFirstStartSuccess (target : Fin 5) (s : State) : Out :=
  .next (if firstStarting s target then settle s (startSucceeds s target) else s)

/-- FIRST_START_FAILURE (R438). -/
def execFirstStartFailure (target : Fin 5) (s : State) : Out :=
  .next (if s.fw[target].activating ∧ target ≠ 4 then settle s (startFails s target) else s)

end Sys2Proof.Machine
end

