-- ==== Sys2Proof/Machine/Landfall.lean ====
section
/-!
DEFINITION. Landfall (R31 to R44, R52, R53, R487 to R491): supplies and resets, the milestones of Table 02-1 in their
order, the choice of the chart, the self-tests and the holds.
-/
namespace Sys2Proof.Machine

/-! ### Supplies and resets (R32, R34, R298) -/

/-- PORST_RISE (R32): Landfall starts. -/
def execPorstRise (s : State) : Out := .next (updLandfall s fun l => { l with porst := true })

/-- The Lookout die in reset: both channels off, their inputs at demand and the connector lock outputs released; what their
MRAM holds stays (DESIGN CHOICE, log 34). -/
def lookoutReset (s : State) : State :=
  let x := s.lk
  let quiet := fun (o : LkOutlet) => { o with 
    lock := false, unlockAsked := false, holster := 0, holsterAt := s.mono, pins := [], wait := none, snd := {} }
  let si : Vector SafeIn 16 := x.si.map fun i => 
    { i with st := .demand, bothSeen := false, tpBad := Vector.replicate 4 false, since := s.mono }
  { s with lk := { x with
      runA := false, runB := false, agreed := false, restarting := true, inputDiff := 0, press := none, inj := false, si := si
      outlet := x.outlet.map quiet, kind3 := false, kind4 := false, checkA := 0, checkB := 0, landfallDone := false }
           safe := { chan := Vector.replicate 2 (freshChan s.mono) } }

/-- Meridian in reset with no commit: the last one committed holds (R230) (DEDUCED, log 32). -/
def meridianReset (s : State) : State :=
  let at_ := if s.mer.up && s.pwr.rung != .laidUp then s.nowNs else s.mer.stopNs
  { s with mer := { s.mer with up := false, stopNs := at_, plainStop := false } }

/-- PORST_FALL (R32, R474): every die is held in reset until the next rise (DEDUCED, log 32). -/
def execPorstFall (s : State) : Out :=
  .next (if s.landfall.porst then
    let t := updLandfall (diesReset (meridianReset s) true) fun l => { l with porst := false }
    settle s (lookoutReset t)
  else s)

/-- A rail of R34. -/
def setRail (rail : CoreRail) (ok : Bool) (l : Landfall) : Landfall :=
  match rail with
  | .core => { l with coreOk := ok }
  | .io => { l with ioOk := ok }

/-- The rail is in its window. -/
def railOk (rail : CoreRail) (l : Landfall) : Bool :=
  match rail with
  | .core => l.coreOk
  | .io => l.ioOk

/-- The number of a rail in RAIL_r. -/
def coreRail (rail : CoreRail) : Fin 9 :=
  match rail with
  | .core => 0
  | .io => 5

/-- CORE_SUPPLY_DIP (R34, R293, R489): Helm and Sextant are reset; Lookout clears its copy of Landfall complete
(DESIGN CHOICE, log 72). -/
def execCoreSupplyDip (rail : CoreRail) (uV : Nat) (s : State) : Out :=
  .next (if s.landfall.porst && railOk rail s.landfall && !inWindow (coreRail rail) uV then
    let t := leaveLaidUp (noteRail s (coreRail rail) uV)
    let t := updLandfall { t with lk := { t.lk with landfallDone := false } } (setRail rail false)
    let t := settle s (forgetHolsters (diesReset t true))
    excursion (logDetect t 0x0302 .helm (coreRail rail))
  else s)

/-- CORE_SUPPLY_RETURN (R34): Landfall starts from its beginning once both rails are back. -/
def execCoreSupplyReturn (rail : CoreRail) (uV : Nat) (s : State) : Out :=
  .next (if railOk rail s.landfall || !inWindow (coreRail rail) uV then s
    else
      let t := updLandfall (noteRail s (coreRail rail) uV) (setRail rail true)
      let t := logClear t 0x0302 .helm (coreRail rail)
      if supplied t then { t with flt := { t.flt with ratingsOk := true } } else t)

/-- LOOKOUT_RAIL_DIP (R34, R298): that channel stops; the other holds the outputs off. -/
def execLookoutRailDip (ch : Fin 2) (uV : Nat) (s : State) : Out :=
  .next (if (if ch = 0 then s.lk.runA else s.lk.runB) && !inWindow (if ch = 0 then 1 else 2) uV then
    let r := noteRail s (if ch = 0 then 1 else 2) uV
    let y := if ch = 0 then { r.lk with runA := false } else { r.lk with runB := false }
    let t := logDetect { r with lk := { y with agreed := false, restarting := true } } 0x0302 .lookout ch
    settle s (clearChan (excursion t) ch)
  else s)

/-- HELM_RESTART_EARLY (R487). -/
def execHelmRestartEarly (s : State) : Out :=
  .next (if s.landfall.helmUp && decide (s.landfall.phase < 9) then landfallRestart s else s)

/-! ### Milestones 0x01 to 0x03 (R35, R491) -/

/-- LOOKOUT_CHANNELS_RUNNING (R35, R491): each channel starts its half of an image; a channel without one leaves
Lookout not started and Landfall in the self-test hold. -/
def execLookoutChannelsRunning (imgA imgB : ImageChoice) (s : State) : Out :=
  .next (
    if !supplied s || decide (s.landfall.phase ≠ 0) || s.landfall.holdSelf then s
    else if s.lk.runA && s.lk.runB then updLandfall s fun l => { l with phase := 1 }
    else
      let a := bootImage s 2 imgA
      let b := bootImage s 2 imgB
      let okA := a.fw[(2 : Fin 5)].started
      let okB := b.fw[(2 : Fin 5)].started
      let t := clearChan (clearChan (if okA then a else b) 0) 1
      let t := { t with lk := { t.lk with runA := okA, runB := okB, agreed := false, restarting := true } }
      let t := if okA && okB then
          updFw (updLandfall t fun l => { l with phase := 1 }) 2 fun x =>
            { x with fallback := a.fw[(2 : Fin 5)].fallback || b.fw[(2 : Fin 5)].fallback }
        else
          updFw (updLandfall t fun l => { l with holdSelf := true }) 2 fun x => { x with started := false, runVer := 0, digest := [] }
      settle s t)

/-- Meridian's turn in the order of Table 02-1: it waits for no other die (R36), so it also starts in a hold of Lookout's
and in a warm Landfall (R40). -/
def meridianTurn (s : State) : Bool :=
  s.landfall.porst && (decide (s.landfall.phase = 1) || (decide (s.landfall.phase = 0) && s.landfall.holdSelf)
    || (s.landfall.warm && !s.mer.up))

/-- MERIDIAN_METERING_START (R35, R36, R238, R491). -/
def execMeridianMeteringStart (img : ImageChoice) (s : State) : Out :=
  .next (if meridianTurn s && !s.mer.supplyFail then
    let t := if s.mer.up then s else meridianBack (startMeridian s img)
    settle s (updLandfall t fun l => { l with phase := if l.phase = 1 then 2 else l.phase })
  else s)

/-- Helm's turn in the order of Table 02-1, or in a hold of Lookout's (R38, R491). -/
def helmTurn (s : State) : Bool :=
  supplied s && !s.landfall.helmUp && (decide (s.landfall.phase = 2) || (decide (s.landfall.phase < 2) && s.landfall.holdSelf))

/-- HELM_FIRMWARE_STARTED (R35, R491). -/
def execHelmFirmwareStarted (img : ImageChoice) (role : Fin 4) (s : State) : Out :=
  .next (if helmTurn s then startHelm s img role else s)

/-- HELM_BOOT_RETRY (R491): 10 s after a start with no image that qualifies. -/
def execHelmBootRetry (img : ImageChoice) (role : Fin 4) (s : State) : Out :=
  .next (if helmTurn s && s.landfall.helmRetry then startHelm s img role else s)

/-! ### Milestone 0x04: the chart (R52 to R54, R57) -/

/-- The chart hold (Table 02-3). -/
def enterChartHold (s : State) : State := logDetect (updLandfall s fun l => { l with holdChart := true }) 0x0903 .helm 0

/-- No flash chart was chosen: the snapshot serves if its digest verifies (R53). -/
def useSnapshot (s : State) : State :=
  match snapshot s with
  | some p => if chartSm3 p = chartDigest p then logMasked (useChart s p 3) 0x0903 .helm 0 else enterChartHold s
  | none => enterChartHold s

/-- The flash chart that has passed every check before the serial check (R53). -/
def weighChart (s : State) (slotB : Bool) (c : Bytes) : State :=
  let src := if slotB then 2 else 1
  match snapshot s with
  | none => useChart (writeSnapshot s c) c src
  | some p =>
    if chartDigest c = chartDigest p then useChart s p src
    else if chartSerial p < chartSerial c then
      useChart (updLandfall (writeSnapshot s c) fun l => { l with snapReplaced := true }) c src
    else useSnapshot (rejectChart s slotB 0 0x09)

/-- CHART_SOURCE_CHOSEN (R52, R53): `answers`: the chart flash answers its identification read; `sigOk`: the verdict of
SM2 over the chart's header (DESIGN CHOICE, log 26). -/
def execChartSourceChosen (answers sigOk : Bool) (s : State) : Out :=
  .next (
    let l := s.landfall
    if !supplied s || !l.helmUp || s.chart.inUse.isSome || l.holdChart || l.holdStrap || l.warm then s
    else
      let slotB := s.fw[(4 : Fin 5)].slotB
      let c := chartImage s slotB
      match if answers then verifyChart s c sigOk else some (0, 0x0D) with
      | some (tag, reason) => useSnapshot (rejectChart s slotB tag reason)
      | none => weighChart (reportUnknown s c) slotB c)

/-! ### Milestones 0x05 to 0x09 -/

/-- The Sextant image has failed (R491): on a worker a self-test hold, on a manager reported. -/
def sextantMissing (s : State) : State :=
  let mgr := isManager s
  updLandfall s fun l =>
    { l with selftest := l.selftest ||| 0x0C, holdSelf := l.holdSelf || !mgr, phase := if mgr then 5 else l.phase }

/-- SEXTANT_IMAGE_LOADED (R35, R40, R491): in a warm Landfall from Laid-up the die kept its image. -/
def execSextantImageLoaded (img : ImageChoice) (s : State) : Out :=
  .next (if supplied s && decide (s.landfall.phase = 4) && !inHold s then
    let t := if s.landfall.warm && s.fw[(1 : Fin 5)].started then s else bootImage s 1 img
    if t.fw[(1 : Fin 5)].started then
      updLandfall { t with sx := { t.sx with up := true } } fun l => { l with phase := 5 }
    else sextantMissing t
  else s)

/-- CHART_SECTIONS_DISTRIBUTED (R35): host-ready may have come before, in a hold. -/
def execChartSectionsDistributed (s : State) : Out :=
  .next (match s.chart.inUse with
    | some c =>
      if supplied s && decide (s.landfall.phase = 5) && !inHold s then
        settle s (updLandfall (distribute s c) fun l => { l with phase := if l.hostReady then 7 else 6 })
      else s
    | none => s)

/-- Host-ready comes now: at its milestone, in a hold (R38), or after a restart without a Landfall (R406). -/
def hostTurn (s : State) : Bool :=
  supplied s && !s.landfall.hostReady &&
    ((s.landfall.helmUp && (decide (s.landfall.phase = 6) || inHold s)) || decide (s.landfall.phase = 9))

/-- Every bucket full (R396). -/
def fullBuckets : Vector ClassState 6 → Vector ClassState 6 := fun cl =>
  Vector.ofFn fun k => { cl[k] with milli := classBurst k * 1000 }

/-- HOST_READY (R38, R165, R372, R396, R406). -/
def execHostReady (s : State) : Out :=
  .next (if hostTurn s then
    let plain := decide (s.landfall.phase = 9)
    let t := updLandfall s fun l =>
      { l with hostReady := true, helmUp := true, recovering := true, phase := if l.phase = 6 then 7 else l.phase }
    let t := { t with host := { t.host with cls := fullBuckets t.host.cls } }
    let t := if plain then t else loadLinkKey t
    let t := if isManager t then (if plain then stopActing t .listening else t)
      else if plain then t else setAlloc t (pSafe t) 3
    settle s (resumeOutlets t plain)
  else s)

/-- The paths that failed group 4 are treated as lost (R39): Turxel ports A and B, the 10BASE-T1S PHYs of outlets A and B,
the Log-line modem. -/
def losePaths (s : State) (paths : BitVec 5) : State :=
  let t := updLandfall s fun l => { l with pathFail := paths }
  let t := if paths.getLsbD 0 then pathLost t 0 else t
  let t := if paths.getLsbD 1 then pathLost t 1 else t
  if paths.getLsbD 4 && !t.ll.pathLost then logDetect { t with ll := { t.ll with pathLost := true } } 0x0703 .helm 0 else t

/-- The scrub of all 128 slots in group 1 (R39, R417, R418), with the slots whose storage is found upset. -/
def scrubAll (s : State) (upsets : List (Fin 128 × TagUpsets)) : State :=
  upsets.foldl (fun t u => checkTag t u.1 u.2) s

/-- The consequences of the failed groups (Table 02-2): `failed` by bit, `ant` what group 5 measured at the antenna ports,
`paths` the paths that failed (DEDUCED, log 66). Group 5 fails by its measurements (R178). -/
def selfTestNews (s : State) (failed : BitVec 8) (ant : Vector AntLoad 3) (paths : BitVec 5) : State :=
  let faults : Vector Bool 3 := ant.map fun x => !loadGood x
  let failed := (failed &&& 0xDF) ||| if faults.toList.any id then 0x20 else 0
  let hold := failed.getLsbD 0 || failed.getLsbD 1 || failed.getLsbD 7
    || (!isManager s && (failed.getLsbD 2 || failed.getLsbD 3))
  let t := updLandfall s fun l => { l with selftest := l.selftest ||| failed, holdSelf := l.holdSelf || hold }
  let refs : Vector Nat 3 := ant.map fun x => if loadGood x then x.current else 0
  let t := { t with rdr := { t.rdr with antFault := faults, antRef := refs } }
  let t := losePaths t (if failed.getLsbD 4 then paths else 0)
  let t := if failed.getLsbD 6 then raiseDisp t t.disp.faultSelf (Config.eventCode 39) fun d => { d with faultSelf := true }
    else endDisp t t.disp.faultSelf (Config.eventCode 39) fun d => { d with faultSelf := false }
  ((List.range 8).filter fun b => failed.getLsbD b).foldl (fun u b => logDetect u (Config.eventCode 39) .helm b) t

/-- SELF_TESTS_COMPLETE (R35, R39): the milestone is reached even when a failed group then holds Landfall
(DEDUCED, log 66). -/
def execSelfTestsComplete (failed : BitVec 8) (ant : Vector AntLoad 3) (paths : BitVec 5)
    (upsets : List (Fin 128 × TagUpsets)) (s : State) : Out :=
  .next (if supplied s && decide (s.landfall.phase = 7) && !inHold s then
    settle s (updLandfall (selfTestNews (scrubAll s upsets) failed ant paths) fun l => { l with phase := 8 })
  else s)

/-- LANDFALL_COMPLETE (R35, R37, R377): energy-ready; a manager begins to listen. -/
def execLandfallComplete (s : State) : Out :=
  .next (if supplied s && decide (s.landfall.phase = 8) && !inHold s then
    let t := clearFaults (updLandfall s fun l => { l with phase := 9 }) .helm fun c _ => c == 0x0201 || memCode c
    let t := { t with pwr := { t.pwr with rung := .underway, quietMs := 0 } }
    settle s (if isManager t then
      { t with mgr := { t.mgr with role := .listening, roleAt := t.mono, heardActive := false, listens := 0 } } else t)
  else s)

end Sys2Proof.Machine
end

