-- ==== Sys2Proof/Machine/Faults.lean ====
section
/-!
DEFINITION. Faults of the dies (R445 to R453), the analog supplies (R468), background scrubs (R449) and the logbook (R63
to R65, R466).
-/
namespace Sys2Proof.Machine

/-! ### Core faults (R445, R446) -/

/-- A core fault for the health word (Table 15-4). -/
def markCoreFault (s : State) : State := { s with mgr := { s.mgr with coreFaultAt := some s.mono } }

/-- A fault in a die whose activation is under way counts as a failed first start (R451, R438); in any other it meets its
reaction. -/
def dieFault (s : State) (i : Fin 5) (react : State → State) : State :=
  if s.fw[i].activating then settle s (startFails s i) else react s

/-- HELM_CORE_PAIR_MISMATCH (R406, R445, R451). -/
def execHelmCorePairMismatch (s : State) : Out :=
  .next (if s.landfall.helmUp || s.fw[(0 : Fin 5)].activating then
    dieFault (logDetect (markCoreFault s) 0x0201 .helm 0) 0 helmRestart else s)

/-- R446: every gate low, stages latched with cause INTERNAL, cooling drives at LIM_HI; the supervisor is down. -/
def sextantTrip (s : State) : State :=
  let t := withStages s fun u => (List.finRange 8).foldl (fun w g => latchStage w g .internal) u
  let t := ((List.finRange 96).filter (lawEn s)).foldl coolToLimit t
  { t with sx := { t.sx with up := false } }

/-- SEXTANT_CORE_MISMATCH (R446, R451). -/
def execSextantCoreMismatch (s : State) : Out :=
  .next (if s.sx.up || s.fw[(1 : Fin 5)].activating then
    dieFault (logDetect (markCoreFault s) 0x0202 .sextant 0) 1 sextantTrip else s)

/-- The clocks of S-PWM and S-ENG run. -/
def sextantClocked (s : State) : Bool :=
  !s.flt.island[(8 : Fin 17)].lost && !s.flt.island[(9 : Fin 17)].lost

/-- The supervisory core runs again (R446). -/
def sextantBack (s : State) : State :=
  if s.fw[(1 : Fin 5)].started && !s.fw[(1 : Fin 5)].activating && !s.landfall.holdTamper && sextantClocked s then
    clearFaults { s with sx := { s.sx with up := true } } .sextant fun c i => (c == 0x0202 && i == 0) || memCode c
  else s

/-- SEXTANT_SUPERVISOR_RESTART (R446): latches and retirements stay. -/
def execSextantSupervisorRestart (s : State) : Out :=
  .next (if !s.sx.up && decide (5 ≤ s.landfall.phase) then sextantBack s else s)

/-- MERIDIAN_CORE_FAULT (R445, R451): Meridian restarts with no commit, so that energy of at most 1 s is lost (R230). -/
def execMeridianCoreFault (s : State) : Out :=
  .next (if s.mer.up || s.fw[(3 : Fin 5)].activating then dieFault (logDetect s 0x0203 .meridian 0) 3 meridianReset else s)

/-- A Lookout channel stops (R298): outputs off, its watchdogs start anew, the holster tests are required again
(DEDUCED, log 34). -/
def stopChannel (s : State) (ch : Fin 2) : State :=
  let x := s.lk
  let y := if ch = 0 then { x with runA := false } else { x with runB := false }
  settle s (forgetHolsters (clearChan { s with lk := { y with agreed := false, restarting := true } } ch))

/-! ### Island clocks (R19, R447, Table 18-2) -/

/-- One island's state replaced by its image. -/
def updIsland (s : State) (i : Fin 17) (f : Island → Island) : State :=
  { s with flt := { s.flt with island := upd s.flt.island i f } }

/-- Outlets with a megawatt connector lose their link. -/
def loseMegawatt (s : State) : State :=
  let hit := fun (t : State) (o : Fin 2) =>
    if outType t o = 1 ∧ t.outlet[o].link.started = true then outletFault t o .link else t
  hit (hit s 0) 1

/-- The reader's field off (H-RF lost, or VDD_RF out of its window). -/
def fieldOff (s : State) : State :=
  let t := closeWindow s
  { t with rdr := { t.rdr with ant := 3 } }

/-- Inputs clocked by a lost SD_CLK become INVALID (R93). -/
def loseSdClocks (s : State) (clk : BitVec 8) : State :=
  ((List.finRange 64).filter fun n => sdEn s n && clk.getLsbD (cfgN s 0x15 n 0x000 26 24)).foldl inputInvalid s

/-- The reaction of Table 18-2 to a lost clock. Islands that restart at once (the Helm cores, M-CORE, the Lookout
channels) are not left lost (DEDUCED, log 68). -/
def islandReaction (s : State) (i : Fin 17) (sdClk : BitVec 8) : State :=
  let lost := updIsland s i fun x => { x with lost := true, tries := 0, at_ := s.mono }
  match i.val with
  | 0 => helmRestart (markCoreFault s)
  | 1 => helmRestart (markCoreFault s)
  | 2 => pathLost (pathLost lost 0) 1
  | 3 => loseMegawatt lost
  | 4 => fieldOff lost
  | 5 =>
    if lost.ll.pathLost then lost else logDetect { lost with ll := { lost.ll with pathLost := true } } 0x0703 .helm 0
  | 6 => raiseDisp lost lost.disp.faultCrc 0x0801 fun d => { d with faultCrc := true }
  | 8 => sextantTrip lost
  | 9 => sextantTrip lost
  | 10 => loseSdClocks { lost with flt := { lost.flt with sdLost := sdClk } } sdClk
  | 12 => meridianReset s
  | 15 => stopChannel s 0
  | 16 => stopChannel s 1
  | _ => lost

/-- The die of an island (Table 01-2), as a firmware target. -/
def islandDie (i : Fin 17) : Fin 5 := if i.val < 8 then 0 else if i.val < 12 then 1 else if i.val < 15 then 3 else 2

/-- The source of an island's records. -/
def islandSrc (i : Fin 17) : LogSrc :=
  if i.val < 8 then .helm else if i.val < 12 then .sextant else if i.val < 15 then .meridian else .lookout

/-- ISLAND_CLOCK_LOSS (R447, R451). -/
def execIslandClockLoss (isl : Fin 17) (sdClk : BitVec 8) (s : State) : Out :=
  .next (if (islandDieUp s isl || s.fw[islandDie isl].activating) && !s.flt.island[isl].lost && !s.flt.island[isl].off then
    let t := { s with flt := { s.flt with islCnt := satInc 16 s.flt.islCnt } }
    dieFault (logDetect t 0x0301 (islandSrc isl) (isl + 1)) (islandDie isl) fun u => islandReaction u isl sdClk
  else s)

/-- An island's clock runs again: its fault has cleared. -/
def islandBack (s : State) (isl : Fin 17) : State :=
  let t := logClear (updIsland s isl fun y => { y with lost := false, tries := 0 }) 0x0301 (islandSrc isl) (isl + 1)
  let t := if isl = 10 then { t with flt := { t.flt with sdLost := 0 } } else t
  if isl = 8 ∨ isl = 9 then sextantBack t else t

/-- ISLAND_RESTART (R447): Helm's and Sextant's islands are restarted 250 ms apart; a failed fourth restart leaves one off
until the next Landfall (DEDUCED, log 68). -/
def execIslandRestart (isl : Fin 17) (ok : Bool) (s : State) : Out :=
  .next (
    let x := s.flt.island[isl]
    if !x.lost || x.off then s
    else if 12 ≤ isl.val then if ok then islandBack s isl else s
    else if s.mono < x.at_ + 250 then s
    else if ok then islandBack s isl
    else if 3 ≤ x.tries then
      let t := updIsland s isl fun y => { y with tries := 4, off := true, at_ := s.mono }
      { t with flt := { t.flt with islOff := isl + 1 } }
    else updIsland s isl fun y => { y with tries := y.tries + 1, at_ := s.mono })

/-! ### Memory errors (R448) -/

/-- A record of Meridian's MRAM reads as empty (R448): `rec` counts, newest first, 1,024 to a kind, session records, supply
events, legal events and billing snapshots (DESIGN CHOICE, log 28). -/
def dropRecord (l : LegalSet) (rec : Nat) : LegalSet :=
  let k := rec % 1024
  match rec / 1024 with
  | 0 => { l with sessions := l.sessions.eraseIdx k }
  | 1 => { l with events := l.events.eraseIdx k }
  | 2 => { l with legalEvents := l.legalEvents.eraseIdx k }
  | _ => { l with snapshots := l.snapshots.mapIdx fun i w => if i = k then [] else w }

/-- The handling of a double-bit error by its place (R448) (DESIGN CHOICE, log 28). Whether one in Helm SRAM has hit the
retained contexts is left free. -/
def doubleBit (s : State) (p : MemPlace) : State :=
  match p with
  | .helmSram =>
    let d := drawBit s
    dieFault { d.2 with outlet := d.2.outlet.map fun x => { x with ctxOk := x.ctxOk && d.1 } } 0 helmRestart
  | .sextantSram => dieFault s 1 sextantTrip
  | .lookoutMram ch => dieFault s 2 fun t => stopChannel t ch
  | .heldTwice _ => s
  | .resident k =>
    match k.val with
    | 0 => dieFault s 0 helmRestart
    | 1 => dieFault s 1 sextantTrip
    | 2 => dieFault s 2 stopLookout
    | _ => dieFault s 3 meridianReset
  | .crcRecord r => { s with mer := { s.mer with leg := dropRecord s.mer.leg r, saved := dropRecord s.mer.saved r } }

/-- The place's die and number in the fault record (DESIGN CHOICE, log 28). -/
def memWhere (p : MemPlace) : LogSrc × Nat :=
  match p with
  | .helmSram => (.helm, 0)
  | .sextantSram => (.sextant, 0)
  | .lookoutMram ch => (.lookout, ch)
  | .heldTwice n => (.helm, n)
  | .resident k => ((match k.val with | 0 => .helm | 1 => .sextant | 2 => .lookout | _ => .meridian), k)
  | .crcRecord r => (.meridian, r)

/-- A structure held twice masks the error. -/
def heldTwice (p : MemPlace) : Bool :=
  match p with
  | .heldTwice _ => true
  | _ => false

/-! ### Background scrubs (R449) -/

/-- The row of Table 18-3 of a scrubber. -/
def scrubRow (m : Scrubber) : Nat :=
  match m with
  | .helmSram => 0
  | .sextantSram => 1
  | _ => 2

/-- The source of a scrubber's records. -/
def scrubSrc (m : Scrubber) : LogSrc :=
  match m with
  | .helmSram => .helm
  | .sextantSram => .sextant
  | .helmMram => .helm
  | .meridianMram => .meridian
  | .lookoutMram _ => .lookout

/-- The number of a scrubber. -/
def scrubIdx (m : Scrubber) : Fin 6 :=
  match m with
  | .helmSram => 0
  | .sextantSram => 1
  | .helmMram => 2
  | .meridianMram => 3
  | .lookoutMram ch => if ch = 0 then 4 else 5

/-- The ms of a full pass (Table 18-3). -/
def scrubMs (m : Scrubber) : Nat :=
  match m with
  | .helmSram => 60000
  | .sextantSram => 10000
  | _ => 86400000

/-- A scrubber works (R449, R450): on the rungs from Underway to Anchored, its die up and its row not suspended
(DESIGN CHOICE, log 93). -/
def scrubs (s : State) (m : Scrubber) : Bool :=
  let up := match m with
    | .helmSram => s.landfall.helmUp
    | .sextantSram => s.sx.up
    | .helmMram => s.landfall.helmUp
    | .meridianMram => s.mer.up
    | .lookoutMram ch => if ch = 0 then s.lk.runA else s.lk.runB
  up && decide (s.pwr.rung.code < 3) && !suspended s (scrubRow m)

/-- The end of a full pass (Table 18-5), once its time has passed; the next begins. -/
def endPass (s : State) (m : Scrubber) : State :=
  let i := scrubIdx m
  if s.flt.underMs < s.flt.passAt[i] + scrubMs m then s
  else
    let f := { s.flt with passAt := s.flt.passAt.set i s.flt.underMs }
    { s with flt := match m with
      | .helmSram => { f with scrubSram := s.now }
      | .helmMram => { f with scrubMram := s.now }
      | _ => f }

/-- SCRUB_PASS (R449, R450). -/
def execScrubPass (m : Scrubber) (passEnd : Bool) (corrected : Nat) (s : State) : Out :=
  .next (if scrubs s m then
    let t := if corrected = 0 then s else
      logMasked { s with flt := { s.flt with corr := min 65535 (s.flt.corr + corrected) } } 0x0101 (scrubSrc m) (scrubRow m)
    if passEnd then endPass t m else t
  else s)

/-- The scrubber that reaches a place. -/
def scrubberOf (p : MemPlace) : Scrubber :=
  match p with
  | .helmSram => .helmSram
  | .sextantSram => .sextantSram
  | .lookoutMram ch => .lookoutMram ch
  | .heldTwice _ => .helmMram
  | .resident k => (match k.val with | 2 => .lookoutMram 0 | 3 => .meridianMram | _ => .helmMram)
  | .crcRecord _ => .meridianMram

/-- DOUBLE_BIT_ERROR (R448): on access, or in idle data, where a scrub finds it (Table 18-1). -/
def execDoubleBitError (at_ : MemPlace) (idle : Bool) (s : State) : Out :=
  .next (if idle && !scrubs s (scrubberOf at_) then s
    else
      let w := memWhere at_
      let t := { markCoreFault s with flt := { s.flt with ded := satInc 16 s.flt.ded } }
      doubleBit ((if heldTwice at_ then logMasked else logDetect) t (if idle then 0x0103 else 0x0102) w.1 w.2) at_)

/-- Every scrubber starts a full pass (R449). -/
def restartPasses (s : State) : State :=
  { s with
    flt := { s.flt with passAt := Vector.replicate 6 s.flt.underMs, keyAt := s.flt.underMs }
    locker := { s.locker with scrubPos := 0 } }

/-! ### Analog supplies (R445, R468) -/

/-- VDDA out of its window: every COND is ERROR and every outlet faults with cause SIGNAL (Table 18-1). -/
def vddaLost (s : State) : State :=
  let hit := fun (t : State) (o : Fin 2) =>
    let u := updOutlet t o fun x => { x with pilot := { x.pilot with cond := .error } }
    if u.outlet[o].st.faultable then outletFault u o .signal else u
  hit (hit (updLandfall s fun l => { l with vdda := false }) 0) 1

/-- The analog rail is in its window: `rf` names VDD_RF, else VDDA. -/
def analogOk (s : State) (rf : Bool) : Bool := if rf then s.landfall.vddRf else s.landfall.vdda

/-- The number of the analog rail in RAIL_r. -/
def analogRail (rf : Bool) : Fin 9 := if rf then 7 else 6

/-- ANALOG_SUPPLY_DIP (R445, R468, Table 18-1) (DESIGN CHOICE, log 72). -/
def execAnalogSupplyDip (rf : Bool) (uV : Nat) (s : State) : Out :=
  .next (if analogOk s rf && !inWindow (analogRail rf) uV then
    let t := excursion (logDetect (noteRail s (analogRail rf) uV) 0x0302 .helm (analogRail rf))
    if rf then fieldOff (updLandfall t fun l => { l with vddRf := false }) else settle s (vddaLost t)
  else s)

/-- ANALOG_SUPPLY_RETURN (R468). -/
def execAnalogSupplyReturn (rf : Bool) (uV : Nat) (s : State) : Out :=
  .next (if analogOk s rf || !inWindow (analogRail rf) uV then s
    else logClear (updLandfall (noteRail s (analogRail rf) uV) fun l =>
      if rf then { l with vddRf := true } else { l with vdda := true }) 0x0302 .helm (analogRail rf))

/-! ### The logbook (R63 to R65, R466) -/

/-- A block takes a record more: its records with 25 % for headers, index and framing fit its 64 KiB (R65). -/
def LogBlock.takes (b : LogBlock) (x : LogItem) : Bool := decide (5 * (logBytes b.items + x.size) ≤ 4 * 65536)

/-- The next block reached by the ring: an unused one, or the oldest, erased (R63). -/
def nextBlock (l : Logbook) (x : LogItem) : List LogBlock :=
  let seq := ((l.ring.map (·.seq)).max?).elim 0 (· + 1)
  if l.ring.length < usableBlocks l then l.ring ++ [⟨seq, 1, [x]⟩]
  else l.ring.drop 1 ++ [⟨seq, (l.ring.head?.elim 0 (·.erases)) + 1, [x]⟩]

/-- A record written at the write position (R63). -/
def addRecord (l : Logbook) (x : LogItem) : Logbook :=
  match l.ring.find? fun b => some b.seq == l.cur with
  | some b =>
    if b.takes x then
      { l with ring := l.ring.map fun c => if c.seq = b.seq then { c with items := c.items ++ [x] } else c }
    else
      let r := nextBlock l x
      { l with ring := r, cur := r.getLast?.map (·.seq) }
  | none =>
    let r := nextBlock l x
    { l with ring := r, cur := r.getLast?.map (·.seq) }

/-- A ring of SRAM records held to 256 KiB, the oldest dropped first (R65). -/
def fitSram : Nat → List LogItem → List LogItem
  | 0, l => l
  | n + 1, l => if logBytes l ≤ 262144 then l else fitSram n (l.drop 1)

/-- The block that the ring has reached fails to erase or program: it is retired and a spare takes its place, with what
it held; without a spare the ring is one block shorter (R63, R65) (DEDUCED, log 70). -/
def retireBlock (l : Logbook) : Logbook :=
  let m := { l with retired := l.retired + 1 }
  let n := usableBlocks m
  { m with ring := m.ring.drop (m.ring.length - n), fault := m.fault || n == 0 }

/-- The life that the erase counts and the write rate of the last 7 days project, in years: the erases left in the ring's
blocks over those made a year (R65, R466) (DEDUCED, log 70). -/
def projectLife (day : Nat) (l : Logbook) : Logbook :=
  let week := weekBytes day l.week
  let left := 100000 * usableBlocks l - (l.ring.map (·.erases)).sum
  let life := if week = 0 then 65535 else min 65535 (left * 65536 * 7 * 4 * 4 / (5 * week * 1461))
  { l with lifeY := life, wear := decide (life < 5) }

/-- The oldest waiting record written: into the ring, or into SRAM without a usable logbook (R63, R65). -/
def storeRecord (s : State) (x : LogItem) : State :=
  let day := s.nowNs / 86400000000000
  let l := { s.log with waiting := s.log.waiting.drop 1, week := noteBytes day x.size s.log.week }
  if l.fault then { s with log := { l with sram := fitSram l.sram.length (l.sram ++ [x]) } }
  else { s with log := projectLife day (addRecord l x) }

/-- Every fault's record is also sent as NOTICE (R452) (DEDUCED, log 70). -/
def writeRecord (s : State) (x : LogItem) : State :=
  let t := storeRecord s x
  match x with
  | .event r => if r.kind = 0 then t else emitEvent t 0x84 allRoles r.bytes
  | _ => t

/-- LOG_RECORD_WRITE (R63, R65, R452): `fail`: the block reached fails to erase or program. -/
def execLogRecordWrite (fail : Bool) (s : State) : Out :=
  .next (match s.log.waiting with
    | [] => s
    | r :: _ =>
      if !s.landfall.helmUp || suspended s 12 || !(s.log.scanDone || s.log.fault) then s
      else
        let t := if fail && !s.log.fault then logMasked { s with log := retireBlock s.log } 0x0905 .helm 0 else s
        writeRecord t r)

/-- What the scan of the block headers finds (R64): `device` is the number of erase blocks that the flash identifies, none
where it is absent. The write position is the block of the highest sequence number; a torn record is discarded. -/
def scanLogbook (l : Logbook) (device : Option Nat) : Logbook :=
  match device with
  | some n =>
    if 256 ≤ n ∧ n ≤ 16384 then
      { l with scanDone := true, torn := false, device := n, cur := (l.ring.map (·.seq)).max?, fault := usableBlocks { l with device := n } == 0 }
    else { l with scanDone := true, torn := false, fault := true }
  | none => { l with scanDone := true, torn := false, fault := true }

/-- LOGBOOK_SCAN_END (R64, R65). -/
def execLogbookScanEnd (device : Option Nat) (s : State) : Out :=
  .next (if s.landfall.hostReady && !s.log.scanDone then
    let t := { s with log := scanLogbook s.log device }
    if t.log.fault && !s.log.fault then logMasked t 0x0905 .helm 0 else t
  else s)

/-- The records made at intervals: the post telemetry summary every TEL_SUM_T, the health report every HEALTH_T (Table
02-11, LOG_CFG). -/
def logPeriodic (s : State) : State :=
  if s.landfall.hostReady then
    let t := if s.log.sumAt + cfgN s 0x01 0 0x500 31 16 * 1000 ≤ s.mono then
        queueLog { s with log := { s.log with sumAt := s.mono } } (.telemetry s.now) else s
    if t.log.healthAt + cfgN t 0x01 0 0x500 15 0 * 1000 ≤ t.mono then
      queueLog { t with log := { t.log with healthAt := t.mono } } (.health t.now (healthReport t)) else t
  else s

end Sys2Proof.Machine
end

