-- ==== Sys2Proof/Machine/Power.lean ====
section
/-!
DEFINITION. The power ladder (R40, R465, R471 to R474) and VBAT (R243, R475).
-/
namespace Sys2Proof.Machine

/-! ### Quiet conditions (R472) -/

/-- Hove-to's: stages OFF, outlets IDLE, no activation pending or running (R56), no recovery, Landfall complete. -/
def quietHove (s : State) : Bool :=
  decide (s.landfall.phase = 9) && !s.landfall.recovering
    && s.sx.stage.toList.all (fun g => decide (g.st = .off)) && s.outlet.toList.all (fun o => decide (o.st = .idle))
    && s.fw.toList.all fun x => !x.activating && x.stage != 3

/-- Anchored's: no session, challenge or operation besides. -/
def quietAnchored (s : State) : Bool :=
  quietHove s && s.host.sessions.isEmpty && s.host.challenges.isEmpty && s.host.ops.isEmpty

/-- Moored's and every lower rung's: no log record waits besides. -/
def quietMoored (s : State) : Bool := quietAnchored s && s.log.waiting.isEmpty

/-- The quiet conditions of a rung (DEDUCED, log 69). -/
def quiet (s : State) (r : Rung) : Bool :=
  match r with
  | .underway => true
  | .hoveTo => quietHove s
  | .anchored => quietAnchored s
  | _ => quietMoored s

/-- One rung down. -/
def Rung.below : Rung → Option Rung
  | .underway => some .hoveTo
  | .hoveTo => some .anchored
  | .anchored => some .moored
  | .moored => some .laidUp
  | .laidUp => some .dark
  | .dark => none

/-- The lowest rung entered on the module's own decision: FLOOR, or Moored while H-AON is lost (R465). -/
def lowestRung (s : State) : Nat :=
  let f := cfgN s 0xA0 0 0x000 31 29
  if s.flt.island[(7 : Fin 17)].lost then min 3 f else f

/-- The rung set. -/
def setRung (s : State) (r : Rung) : State := { s with pwr := { s.pwr with rung := r, quietMs := 0 } }

/-! ### Down (Table 20-4) -/

/-- Moored: Sextant and panel off; Lookout's outputs off (`gpOk`) (DEDUCED, log 69). -/
def enterMoored (s : State) : State :=
  let t := beginOff (setRung s .moored)
  settle s { t with sx := { t.sx with up := false } }

/-- Laid-up: Helm and Lookout off, Meridian in event mode from here on (DEDUCED, log 69). -/
def enterLaidUp (s : State) : State :=
  let t := markIntervals s { partial_ := true }
  let t := helmDown (commitRegs t)
  let t := setRung { t with mer := { t.mer with stopNs := t.nowNs } } .laidUp
  settle s { t with lk := { t.lk with runA := false, runB := false, agreed := false, restarting := true } }

/-- What entering a rung from the one above does. -/
def enterRung (s : State) (r : Rung) : State :=
  match r with
  | .underway => s
  | .hoveTo => fieldOff (setRung s .hoveTo)
  | .anchored => setRung s .anchored
  | .moored => enterMoored s
  | .laidUp => enterLaidUp s
  | .dark => setRung (stopPlainly s) .dark

/-- RUNG_DOWN (R465, R472): after IDLE_T on this rung with the quiet conditions of the rung below. -/
def execRungDown (s : State) : Out :=
  .next (match s.pwr.rung.below with
    | some r => if r.code ≤ lowestRung s ∧ quiet s r = true ∧ cfgN s 0xA0 0 0x000 15 0 * 1000 ≤ s.pwr.quietMs then enterRung s r else s
    | none => s)

/-- A millisecond of the ladder: the quiet time counts while the conditions of the rung below hold (R472), and the scrubbers' time
on the rungs from Underway to Anchored (R449) (DESIGN CHOICE, log 93). -/
def ladderTick (s : State) : State :=
  let q := match s.pwr.rung.below with
    | some r => if quiet s r then s.pwr.quietMs + 1 else 0
    | none => 0
  { s with pwr := { s.pwr with quietMs := q }
           flt := { s.flt with underMs := if s.pwr.rung.code < 3 then s.flt.underMs + 1 else s.flt.underMs } }

/-! ### Up (R40, R471, R473) -/

/-- QUIET_CONDITION_CEASES (R472). -/
def execQuietConditionCeases (s : State) : Out :=
  .next (if (s.pwr.rung = .hoveTo ∨ s.pwr.rung = .anchored) ∧ quiet s s.pwr.rung = false then setRung s .underway else s)

/-- The bit of WAKE_EN of a source; a host frame has none (DESIGN CHOICE, log 30). -/
def wakeBit : WakeSource → Option Nat
  | .signal => some 3
  | .alarm => some 2
  | .logline => some 1
  | .pin => some 0
  | .frame => none

/-- A rung serves a wake source at all (Table 20-4). -/
def rungServes (r : Rung) (w : WakeSource) : Bool :=
  match r, w with
  | .anchored, .frame => true
  | .moored, .frame => false
  | .moored, _ => true
  | .laidUp, .pin => true
  | .laidUp, .signal => true
  | .laidUp, .alarm => true
  | .dark, .pin => true
  | .dark, .alarm => true
  | _, _ => false

/-- The source is enabled in WAKE_EN. -/
def wakeEnabled (s : State) (w : WakeSource) : Bool :=
  match wakeBit w with
  | some b => cfgB s 0xA0 0 0x008 b
  | none => true

/-- Underway, with the wake's source in LAST_WAKE: its bit set alone (DESIGN CHOICE, log 30). -/
def wakeTo (s : State) (w : WakeSource) : State :=
  let mask := match wakeBit w with
    | some b => 2 ^ b
    | none => 0
  { s with pwr := { s.pwr with rung := .underway, quietMs := 0, lastWake := mask } }

/-- The watchdogs of both Lookout channels start as at a channel start (R473). -/
def clearWatch (s : State) : State := clearChan (clearChan s 0) 1

/-- The exit from Moored. -/
def leaveMoored (s : State) (w : WakeSource) : State :=
  settle s (answerCapture (panelOn (sextantBack (restartPasses (clearWatch (wakeTo s w))))))

/-- The chart of a warm Landfall: the snapshot, or with a digest that fails a cold Landfall from milestone 0x04 (R40). -/
def warmChart (s : State) : State :=
  let back := fun (ok : Bool) (l : Landfall) =>
    { l with phase := if ok then 4 else 3, warm := ok, helmUp := true, helmRetry := false, snapReplaced := false
             selftest := 0, holdChart := false, holdStrap := false, holdSelf := false }
  match snapshot s with
  | some p =>
    if chartSm3 p = chartDigest p then
      updLandfall { s with cfg := chartCfg s p, chart := { s.chart with inUse := some p } } (back true)
    else updLandfall { s with cfg := heldCfg s, chart := { s.chart with inUse := none, src := 0 } } (back false)
  | none => updLandfall { s with cfg := heldCfg s, chart := { s.chart with inUse := none, src := 0 } } (back false)

/-- The exit from Laid-up or Dark: a warm Landfall. From Dark the Sextant image is to be loaded again, and Meridian
restarts on its own (DEDUCED, log 69). -/
def warmLandfall (s : State) (w : WakeSource) : State :=
  let t := restartPasses (leaveLaidUp s)
  let t := if s.pwr.rung = .dark then updFw t 1 fun x => { x with started := false } else t
  let t := warmChart (wakeTo t w)
  let t := { t with lk := { t.lk with runA := true, runB := true, agreed := false, restarting := true, landfallDone := false } }
  settle s (answerCapture (forgetHolsters (clearWatch t)))

/-- A wake event (R471), ignored where the rung does not serve it or WAKE_EN does not enable it. -/
def wake (s : State) (w : WakeSource) : State :=
  if rungServes s.pwr.rung w && wakeEnabled s w then
    match s.pwr.rung with
    | .underway => s
    | .hoveTo => s
    | .anchored => wakeTo s w
    | .moored => leaveMoored s w
    | .laidUp => warmLandfall s w
    | .dark => warmLandfall s w
  else s

/-- WAKE_EVENT (R471). -/
def execWakeEvent (w : WakeSource) (s : State) : Out := .next (wake s w)

/-- WK_ALARM (R471): 1 s before a demand, tariff or billing boundary. -/
def execWkAlarm (s : State) : Out := .next (wake s .alarm)

/-! ### VBAT (R243, R475) -/

/-- The Chronometer and H-AON have no supply left: the Chronometer stops (R475). -/
def starve (s : State) : State :=
  if s.pwr.onVbat && !s.pwr.vbat then { s with mer := { s.mer with chr := { s.mer.chr with running := false } } } else s

/-- VBAT_SWITCHOVER (R475): VDD_MCORE and VDDIO in µV (DESIGN CHOICE, log 72). -/
def execVbatSwitchover (mcore io : Nat) (s : State) : Out :=
  .next (if mcore < 810000 ∨ io < 1500000 then
    starve { s with pwr := { s.pwr with onVbat := true, rail := (s.pwr.rail.set 3 (some mcore)).set 5 (some io) } } else s)

/-- MAIN_RAILS_RETURN (R475): both rails are back in their windows. -/
def execMainRailsReturn (mcore io : Nat) (s : State) : Out :=
  .next (if inWindow 3 mcore && inWindow 5 io then
    { s with pwr := { s.pwr with onVbat := false, rail := (s.pwr.rail.set 3 (some mcore)).set 5 (some io) } } else s)

/-- VBAT_LOSS (R243). -/
def execVbatLoss (s : State) : Out := .next (starve { s with pwr := { s.pwr with vbat := false } })

end Sys2Proof.Machine
end

