-- ==== Sys2Proof/Machine/Dispatch.lean ====
section
/-!
DEFINITION. One arm per command: the call of its meaning.
-/
namespace Sys2Proof.Machine

/-- The effect of a command on everything but the queue. -/
def exec (i : Instr) (s : State) : Host.Outcome State Fault Refusal :=
  match i with
  | .porstRise => Sys2Proof.Machine.execPorstRise s
  | .coreSupplyDip rail uV => Sys2Proof.Machine.execCoreSupplyDip rail uV s
  | .coreSupplyReturn rail uV => Sys2Proof.Machine.execCoreSupplyReturn rail uV s
  | .lookoutRailDip ch uV => Sys2Proof.Machine.execLookoutRailDip ch uV s
  | .helmRestartEarly => Sys2Proof.Machine.execHelmRestartEarly s
  | .lookoutChannelsRunning imgA imgB => Sys2Proof.Machine.execLookoutChannelsRunning imgA imgB s
  | .meridianMeteringStart img => Sys2Proof.Machine.execMeridianMeteringStart img s
  | .helmFirmwareStarted img role => Sys2Proof.Machine.execHelmFirmwareStarted img role s
  | .chartSourceChosen answers sigOk => Sys2Proof.Machine.execChartSourceChosen answers sigOk s
  | .sextantImageLoaded img => Sys2Proof.Machine.execSextantImageLoaded img s
  | .chartSectionsDistributed => Sys2Proof.Machine.execChartSectionsDistributed s
  | .hostReady => Sys2Proof.Machine.execHostReady s
  | .selfTestsComplete failed ant paths upsets => Sys2Proof.Machine.execSelfTestsComplete failed ant paths upsets s
  | .landfallComplete => Sys2Proof.Machine.execLandfallComplete s
  | .helmBootRetry img role => Sys2Proof.Machine.execHelmBootRetry img role s
  | .gatePermitFall lineB => Sys2Proof.Machine.execGatePermitFall lineB s
  | .fltNAssert ch widthPs => Sys2Proof.Machine.execFltNAssert ch widthPs s
  | .readbackMismatch ch high => Sys2Proof.Machine.execReadbackMismatch ch high s
  | .carrierLoad c top => Sys2Proof.Machine.execCarrierLoad c top s
  | .roseTargetsSet stg => Sys2Proof.Machine.execRoseTargetsSet stg s
  | .roseMoveStep stg => Sys2Proof.Machine.execRoseMoveStep stg s
  | .syncInEdge t high => Sys2Proof.Machine.execSyncInEdge t high s
  | .syncLockSet stg => Sys2Proof.Machine.execSyncLockSet stg s
  | .syncLost stg => Sys2Proof.Machine.execSyncLost stg s
  | .ppsInEdge count => Sys2Proof.Machine.execPpsInEdge count s
  | .sdControlOutput n bits t => Sys2Proof.Machine.execSdControlOutput n bits t s
  | .fastTrip n bits t => Sys2Proof.Machine.execFastTrip n bits t s
  | .sdStuck n => Sys2Proof.Machine.execSdStuck n s
  | .sdInvalidClear n => Sys2Proof.Machine.execSdInvalidClear n s
  | .uscEvent k microvolt slope t => Sys2Proof.Machine.execUscEvent k microvolt slope t s
  | .lawTrigger law t => Sys2Proof.Machine.execLawTrigger law t s
  | .lawRunStart t => Sys2Proof.Machine.execLawRunStart t s
  | .lawOutputWrite law t => Sys2Proof.Machine.execLawOutputWrite law t s
  | .overrunLatch law => Sys2Proof.Machine.execOverrunLatch law s
  | .laneHeartbeat => Sys2Proof.Machine.execLaneHeartbeat s
  | .heartbeatLoss => Sys2Proof.Machine.execHeartbeatLoss s
  | .laneSetpointUpdate stg iSet vSet => Sys2Proof.Machine.execLaneSetpointUpdate stg iSet vSet s
  | .postSplitRecompute => Sys2Proof.Machine.execPostSplitRecompute s
  | .stageStart stg => Sys2Proof.Machine.execStageStart stg s
  | .stageStop stg => Sys2Proof.Machine.execStageStop stg s
  | .vehicleVoltageDisagree stg => Sys2Proof.Machine.execVehicleVoltageDisagree stg s
  | .vehicleVoltageForward o mV => Sys2Proof.Machine.execVehicleVoltageForward o mV s
  | .prechargeComplete stg => Sys2Proof.Machine.execPrechargeComplete stg s
  | .closeWaitBandLost stg => Sys2Proof.Machine.execCloseWaitBandLost stg s
  | .preTimeoutExpiry stg => Sys2Proof.Machine.execPreTimeoutExpiry stg s
  | .closeRefused stg => Sys2Proof.Machine.execCloseRefused stg s
  | .contactorsConfirmed stg => Sys2Proof.Machine.execContactorsConfirmed stg s
  | .noSinkExit stg => Sys2Proof.Machine.execNoSinkExit stg s
  | .reverseCurrentLatch stg => Sys2Proof.Machine.execReverseCurrentLatch stg s
  | .afe3PrechargeComplete stg => Sys2Proof.Machine.execAfe3PrechargeComplete stg s
  | .afe3AutoStart stg => Sys2Proof.Machine.execAfe3AutoStart stg s
  | .afe3VminReached stg => Sys2Proof.Machine.execAfe3VminReached stg s
  | .acMainConfirmed => Sys2Proof.Machine.execAcMainConfirmed s
  | .afe3AutoStop stg => Sys2Proof.Machine.execAfe3AutoStop stg s
  | .rampDownComplete stg => Sys2Proof.Machine.execRampDownComplete stg s
  | .dischargeRequest stg => Sys2Proof.Machine.execDischargeRequest stg s
  | .dischargeComplete stg => Sys2Proof.Machine.execDischargeComplete stg s
  | .dischTExpiry stg => Sys2Proof.Machine.execDischTExpiry stg s
  | .shedStart stg => Sys2Proof.Machine.execShedStart stg s
  | .addStart stg => Sys2Proof.Machine.execAddStart stg s
  | .shedRampEnd stg => Sys2Proof.Machine.execShedRampEnd stg s
  | .addRampEnd stg => Sys2Proof.Machine.execAddRampEnd stg s
  | .fireEnd stg t => Sys2Proof.Machine.execFireEnd stg t s
  | .fireRearm stg => Sys2Proof.Machine.execFireRearm stg s
  | .shedHoldEnd stg => Sys2Proof.Machine.execShedHoldEnd stg s
  | .cbcLatch c => Sys2Proof.Machine.execCbcLatch c s
  | .oclLatch stg => Sys2Proof.Machine.execOclLatch stg s
  | .cellOpenRetire c => Sys2Proof.Machine.execCellOpenRetire c s
  | .estTExpiry c => Sys2Proof.Machine.execEstTExpiry c s
  | .telemetryTick => Sys2Proof.Machine.execTelemetryTick s
  | .pilotCondChange o high low pp heldMs => Sys2Proof.Machine.execPilotCondChange o high low pp heldMs s
  | .t1sLinkUp o => Sys2Proof.Machine.execT1sLinkUp o s
  | .slacMessage o m => Sys2Proof.Machine.execSlacMessage o m s
  | .sdpRequest o => Sys2Proof.Machine.execSdpRequest o s
  | .tlsHandshake o hello => Sys2Proof.Machine.execTlsHandshake o hello s
  | .supportedAppProtocol o iso din => Sys2Proof.Machine.execSupportedAppProtocol o iso din s
  | .sessionSetup o => Sys2Proof.Machine.execSessionSetup o s
  | .serviceDiscovery o r => Sys2Proof.Machine.execServiceDiscovery o r s
  | .authorizationRequest o kind ident chainOk => Sys2Proof.Machine.execAuthorizationRequest o kind ident chainOk s
  | .chargeParameterDiscovery o vMax => Sys2Proof.Machine.execChargeParameterDiscovery o vMax s
  | .scheduleExchange o dynamic => Sys2Proof.Machine.execScheduleExchange o dynamic s
  | .dcCableCheck o => Sys2Proof.Machine.execDcCableCheck o s
  | .dcPreCharge o target => Sys2Proof.Machine.execDcPreCharge o target s
  | .powerDelivery o m => Sys2Proof.Machine.execPowerDelivery o m s
  | .dcChargeLoop o iReq target exportLim error => Sys2Proof.Machine.execDcChargeLoop o iReq target exportLim error s
  | .dcWeldingDetection o => Sys2Proof.Machine.execDcWeldingDetection o s
  | .vehicleSessionStop o pause error => Sys2Proof.Machine.execVehicleSessionStop o pause error s
  | .certificateInstallation o exi => Sys2Proof.Machine.execCertificateInstallation o exi s
  | .unsupportedRequest o => Sys2Proof.Machine.execUnsupportedRequest o s
  | .vehicleLinkLost o => Sys2Proof.Machine.execVehicleLinkLost o s
  | .tInventoryExpiry o => Sys2Proof.Machine.execTInventoryExpiry o s
  | .tLinkExpiry o => Sys2Proof.Machine.execTLinkExpiry o s
  | .tSeqExpiry o => Sys2Proof.Machine.execTSeqExpiry o s
  | .tOngoingExpiry o => Sys2Proof.Machine.execTOngoingExpiry o s
  | .tAuthExpiry o => Sys2Proof.Machine.execTAuthExpiry o s
  | .tIsoExpiry o => Sys2Proof.Machine.execTIsoExpiry o s
  | .tLoopExpiry o => Sys2Proof.Machine.execTLoopExpiry o s
  | .tStandbyExpiry o => Sys2Proof.Machine.execTStandbyExpiry o s
  | .tLockExpiry o => Sys2Proof.Machine.execTLockExpiry o s
  | .tDischExpiry o => Sys2Proof.Machine.execTDischExpiry o s
  | .isoDwellEnd o => Sys2Proof.Machine.execIsoDwellEnd o s
  | .lockConfirmed o => Sys2Proof.Machine.execLockConfirmed o s
  | .contactorsOpenConfirmed o => Sys2Proof.Machine.execContactorsOpenConfirmed o s
  | .vehicleSideDischarged o => Sys2Proof.Machine.execVehicleSideDischarged o s
  | .unlockConfirmed o => Sys2Proof.Machine.execUnlockConfirmed o s
  | .faultedContactorOpen o => Sys2Proof.Machine.execFaultedContactorOpen o s
  | .coolingInputUpdate o j value time => Sys2Proof.Machine.execCoolingInputUpdate o j value time s
  | .tagStale500ms o => Sys2Proof.Machine.execTagStale500ms o s
  | .tagStale2s o => Sys2Proof.Machine.execTagStale2s o s
  | .driveFault d pulses ms => Sys2Proof.Machine.execDriveFault d pulses ms s
  | .flowLow o => Sys2Proof.Machine.execFlowLow o s
  | .readerCycleStart => Sys2Proof.Machine.execReaderCycleStart s
  | .portWindowStart p => Sys2Proof.Machine.execPortWindowStart p s
  | .fieldSettled => Sys2Proof.Machine.execFieldSettled s
  | .slotReplyReceived r => Sys2Proof.Machine.execSlotReplyReceived r s
  | .slotEmpty => Sys2Proof.Machine.execSlotEmpty s
  | .selectReplyReceived r => Sys2Proof.Machine.execSelectReplyReceived r s
  | .sensorMeasureReply o k r => Sys2Proof.Machine.execSensorMeasureReply o k r s
  | .tagExchangeNoReply o k => Sys2Proof.Machine.execTagExchangeNoReply o k s
  | .tagWriteReply o r => Sys2Proof.Machine.execTagWriteReply o r s
  | .writeUnconfirmed o => Sys2Proof.Machine.execWriteUnconfirmed o s
  | .writeReadback o r => Sys2Proof.Machine.execWriteReadback o r s
  | .antFaultRuntime p load => Sys2Proof.Machine.execAntFaultRuntime p load s
  | .reqaPoll => Sys2Proof.Machine.execReqaPoll s
  | .cardSelected atqa levels sak => Sys2Proof.Machine.execCardSelected atqa levels sak s
  | .cardLeft uid => Sys2Proof.Machine.execCardLeft uid s
  | .meterSample bits ovl => Sys2Proof.Machine.execMeterSample bits ovl s
  | .pulseStart o us => Sys2Proof.Machine.execPulseStart o us s
  | .pulseEnd o => Sys2Proof.Machine.execPulseEnd o s
  | .pNowRefresh => Sys2Proof.Machine.execPNowRefresh s
  | .firCrcCheck upsets => Sys2Proof.Machine.execFirCrcCheck upsets s
  | .firRmsWindow => Sys2Proof.Machine.execFirRmsWindow s
  | .firRestored k => Sys2Proof.Machine.execFirRestored k s
  | .dcFreezeRequest k on => Sys2Proof.Machine.execDcFreezeRequest k on s
  | .dcFreezeRelease k cause => Sys2Proof.Machine.execDcFreezeRelease k cause s
  | .streamFault m => Sys2Proof.Machine.execStreamFault m s
  | .pilotWindow m => Sys2Proof.Machine.execPilotWindow m s
  | .spareSettled k => Sys2Proof.Machine.execSpareSettled k s
  | .rotationStepStart voltage => Sys2Proof.Machine.execRotationStepStart voltage s
  | .rotationSwap voltage => Sys2Proof.Machine.execRotationSwap voltage s
  | .rotationCalibrationDone voltage short plus minus => Sys2Proof.Machine.execRotationCalibrationDone voltage short plus minus s
  | .rotationSwapBack voltage => Sys2Proof.Machine.execRotationSwapBack voltage s
  | .spareCalibrationDone voltage short plus minus => Sys2Proof.Machine.execSpareCalibrationDone voltage short plus minus s
  | .referenceComparison ppm => Sys2Proof.Machine.execReferenceComparison ppm s
  | .rtdSample r mOhm => Sys2Proof.Machine.execRtdSample r mOhm s
  | .metroCommit f => Sys2Proof.Machine.execMetroCommit f s
  | .registerCommit => Sys2Proof.Machine.execRegisterCommit s
  | .halfCycleRms ph => Sys2Proof.Machine.execHalfCycleRms ph s
  | .zeroCrossingTimeout ph => Sys2Proof.Machine.execZeroCrossingTimeout ph s
  | .meridianSupplyFail mana mcore => Sys2Proof.Machine.execMeridianSupplyFail mana mcore s
  | .meridianRestart img mana mcore => Sys2Proof.Machine.execMeridianRestart img mana mcore s
  | .mailboxRequest r => Sys2Proof.Machine.execMailboxRequest r s
  | .ptpOffset ns => Sys2Proof.Machine.execPtpOffset ns s
  | .ptpDeadReckoning => Sys2Proof.Machine.execPtpDeadReckoning s
  | .timeUncertainSet => Sys2Proof.Machine.execTimeUncertainSet s
  | .leapSecond insert => Sys2Proof.Machine.execLeapSecond insert s
  | .slewDayEnd => Sys2Proof.Machine.execSlewDayEnd s
  | .demandIntervalEnd => Sys2Proof.Machine.execDemandIntervalEnd s
  | .calendarActivate => Sys2Proof.Machine.execCalendarActivate s
  | .tariffSwitch => Sys2Proof.Machine.execTariffSwitch s
  | .billingScheduledClose => Sys2Proof.Machine.execBillingScheduledClose s
  | .legalWindowItem => Sys2Proof.Machine.execLegalWindowItem s
  | .legalPairSend => Sys2Proof.Machine.execLegalPairSend s
  | .prepayDebit => Sys2Proof.Machine.execPrepayDebit s
  | .friendlyHoursEnd o => Sys2Proof.Machine.execFriendlyHoursEnd o s
  | .weatherHoldEnd => Sys2Proof.Machine.execWeatherHoldEnd s
  | .emergReqWrite f acct => Sys2Proof.Machine.execEmergReqWrite f acct s
  | .evenFrameBoundary => Sys2Proof.Machine.execEvenFrameBoundary s
  | .legalPairReceived upsets => Sys2Proof.Machine.execLegalPairReceived upsets s
  | .frameEndCrc upsets => Sys2Proof.Machine.execFrameEndCrc upsets s
  | .laneTimeout => Sys2Proof.Machine.execLaneTimeout s
  | .panelTempMeasure reading => Sys2Proof.Machine.execPanelTempMeasure reading s
  | .crackMeasure ohm => Sys2Proof.Machine.execCrackMeasure ohm s
  | .pumpFault p => Sys2Proof.Machine.execPumpFault p s
  | .pumpRetry => Sys2Proof.Machine.execPumpRetry s
  | .displayFaultClear => Sys2Proof.Machine.execDisplayFaultClear s
  | .panelPowerOn => Sys2Proof.Machine.execPanelPowerOn s
  | .panelPowerStep mv us => Sys2Proof.Machine.execPanelPowerStep mv us s
  | .panelPowerOff => Sys2Proof.Machine.execPanelPowerOff s
  | .safetyInputChange n a b heldUs => Sys2Proof.Machine.execSafetyInputChange n a b heldUs s
  | .discrepancyFault n => Sys2Proof.Machine.execDiscrepancyFault n s
  | .testPulse k sideB samples => Sys2Proof.Machine.execTestPulse k sideB samples s
  | .crossCompareExchange a b => Sys2Proof.Machine.execCrossCompareExchange a b s
  | .lookoutChannelRestart ch => Sys2Proof.Machine.execLookoutChannelRestart ch s
  | .channelsAgreed => Sys2Proof.Machine.execChannelsAgreed s
  | .offTest n sideB ok => Sys2Proof.Machine.execOffTest n sideB ok s
  | .outputReadbackFault n sideB => Sys2Proof.Machine.execOutputReadbackFault n sideB s
  | .feedbackTimeout n a b => Sys2Proof.Machine.execFeedbackTimeout n a b s
  | .lateWeld n a b => Sys2Proof.Machine.execLateWeld n a b s
  | .contactorCloseRequest o => Sys2Proof.Machine.execContactorCloseRequest o s
  | .contactorOpenRequest o => Sys2Proof.Machine.execContactorOpenRequest o s
  | .closeRequestExpiry o => Sys2Proof.Machine.execCloseRequestExpiry o s
  | .lockRequest o => Sys2Proof.Machine.execLockRequest o s
  | .unlockRequest o => Sys2Proof.Machine.execUnlockRequest o s
  | .lockFbLost o => Sys2Proof.Machine.execLockFbLost o s
  | .outputKindRequest kind on => Sys2Proof.Machine.execOutputKindRequest kind on s
  | .resetPress => Sys2Proof.Machine.execResetPress s
  | .holsterTestSeen o => Sys2Proof.Machine.execHolsterTestSeen o s
  | .landfallCompleteMessage => Sys2Proof.Machine.execLandfallCompleteMessage s
  | .landfallStartMessage => Sys2Proof.Machine.execLandfallStartMessage s
  | .sextantResetSeen => Sys2Proof.Machine.execSextantResetSeen s
  | .soundingHalfPeriod => Sys2Proof.Machine.execSoundingHalfPeriod s
  | .soundingVerdict o => Sys2Proof.Machine.execSoundingVerdict o s
  | .poleVoltageSample o p n => Sys2Proof.Machine.execPoleVoltageSample o p n s
  | .soundingSelftestStart o => Sys2Proof.Machine.execSoundingSelftestStart o s
  | .soundingSelftestEnd o => Sys2Proof.Machine.execSoundingSelftestEnd o s
  | .soundingSelftestRetry o => Sys2Proof.Machine.execSoundingSelftestRetry o s
  | .phyStatusPoll p link speed duplex => Sys2Proof.Machine.execPhyStatusPoll p link speed duplex s
  | .turxelFrameRx p f => Sys2Proof.Machine.execTurxelFrameRx p f s
  | .safeFrameForward p => Sys2Proof.Machine.execSafeFrameForward p s
  | .safeTelegramCycle => Sys2Proof.Machine.execSafeTelegramCycle s
  | .safeCopyReceived p ch => Sys2Proof.Machine.execSafeCopyReceived p ch s
  | .safePairTimeout k => Sys2Proof.Machine.execSafePairTimeout k s
  | .safeWatchdogExpiry k => Sys2Proof.Machine.execSafeWatchdogExpiry k s
  | .safeFallbackEngage lost => Sys2Proof.Machine.execSafeFallbackEngage lost s
  | .safeFallbackEnd => Sys2Proof.Machine.execSafeFallbackEnd s
  | .singleTExpiry => Sys2Proof.Machine.execSingleTExpiry s
  | .beaconSend => Sys2Proof.Machine.execBeaconSend s
  | .pathLost p => Sys2Proof.Machine.execPathLost p s
  | .pathLostClear p => Sys2Proof.Machine.execPathLostClear p s
  | .ptpMessage p domain m => Sys2Proof.Machine.execPtpMessage p domain m s
  | .ptpAnnounceTimeout => Sys2Proof.Machine.execPtpAnnounceTimeout s
  | .ptpSyncTimeout => Sys2Proof.Machine.execPtpSyncTimeout s
  | .networkServiceRequest p r => Sys2Proof.Machine.execNetworkServiceRequest p r s
  | .llZcEdge t => Sys2Proof.Machine.execLlZcEdge t s
  | .llZcMissed => Sys2Proof.Machine.execLlZcMissed s
  | .llFrameReceived x => Sys2Proof.Machine.execLlFrameReceived x s
  | .llRelayForward => Sys2Proof.Machine.execLlRelayForward s
  | .llReplySend => Sys2Proof.Machine.execLlReplySend s
  | .llPollRound => Sys2Proof.Machine.execLlPollRound s
  | .llReplyWaitEnd => Sys2Proof.Machine.execLlReplyWaitEnd s
  | .llMapStepDown a seg => Sys2Proof.Machine.execLlMapStepDown a seg s
  | .llRouteRebuild => Sys2Proof.Machine.execLlRouteRebuild s
  | .llLinkUnusable a b => Sys2Proof.Machine.execLlLinkUnusable a b s
  | .llPathLost => Sys2Proof.Machine.execLlPathLost s
  | .llPathClear => Sys2Proof.Machine.execLlPathClear s
  | .workerStatusSend => Sys2Proof.Machine.execWorkerStatusSend s
  | .workerStatusRx => Sys2Proof.Machine.execWorkerStatusRx s
  | .allocCycle => Sys2Proof.Machine.execAllocCycle s
  | .allocMessageRx => Sys2Proof.Machine.execAllocMessageRx s
  | .shadowDiffClear => Sys2Proof.Machine.execShadowDiffClear s
  | .paramMessage sent => Sys2Proof.Machine.execParamMessage sent s
  | .deadReckoningTick => Sys2Proof.Machine.execDeadReckoningTick s
  | .interleaveRecompute => Sys2Proof.Machine.execInterleaveRecompute s
  | .managerBeaconRx => Sys2Proof.Machine.execManagerBeaconRx s
  | .quorumLost => Sys2Proof.Machine.execQuorumLost s
  | .listenEnd => Sys2Proof.Machine.execListenEnd s
  | .alternateListenEnd => Sys2Proof.Machine.execAlternateListenEnd s
  | .standbyTakeover => Sys2Proof.Machine.execStandbyTakeover s
  | .tokenRelease => Sys2Proof.Machine.execTokenRelease s
  | .releaseRx => Sys2Proof.Machine.execReleaseRx s
  | .healthReport => Sys2Proof.Machine.execHealthReport s
  | .tokenRequestSet => Sys2Proof.Machine.execTokenRequestSet s
  | .revertRelease => Sys2Proof.Machine.execRevertRelease s
  | .revertTimeout => Sys2Proof.Machine.execRevertTimeout s
  | .hello f => Sys2Proof.Machine.execHello f s
  | .helloClose f => Sys2Proof.Machine.execHelloClose f s
  | .authChallenge f role nh => Sys2Proof.Machine.execAuthChallenge f role nh s
  | .authProve f ph => Sys2Proof.Machine.execAuthProve f ph s
  | .resultGet f opId => Sys2Proof.Machine.execResultGet f opId s
  | .resultAck f opIds => Sys2Proof.Machine.execResultAck f opIds s
  | .opStatus f opId => Sys2Proof.Machine.execOpStatus f opId s
  | .barrier f => Sys2Proof.Machine.execBarrier f s
  | .healthGet f => Sys2Proof.Machine.execHealthGet f s
  | .journalRead f opId count => Sys2Proof.Machine.execJournalRead f opId count s
  | .logRead f recNo count => Sys2Proof.Machine.execLogRead f recNo count s
  | .readParam f addr count => Sys2Proof.Machine.execReadParam f addr count s
  | .writeParam f addr words => Sys2Proof.Machine.execWriteParam f addr words s
  | .telFix f scope peakClear => Sys2Proof.Machine.execTelFix f scope peakClear s
  | .sessionAuthorise f o decision hash => Sys2Proof.Machine.execSessionAuthorise f o decision hash s
  | .sessionAuthoriseCert f o hash k => Sys2Proof.Machine.execSessionAuthoriseCert f o hash k s
  | .sessionStop f o => Sys2Proof.Machine.execSessionStop f o s
  | .authTableLoad f k => Sys2Proof.Machine.execAuthTableLoad f k s
  | .accountAddCredit f acct value => Sys2Proof.Machine.execAccountAddCredit f acct value s
  | .accountSetEmerg f acct value => Sys2Proof.Machine.execAccountSetEmerg f acct value s
  | .accountSetEmergMode f acct value => Sys2Proof.Machine.execAccountSetEmergMode f acct value s
  | .accountRequestEmerg f acct value => Sys2Proof.Machine.execAccountRequestEmerg f acct value s
  | .siteLimitSet f pSite classes => Sys2Proof.Machine.execSiteLimitSet f pSite classes s
  | .weatherHold f minutes => Sys2Proof.Machine.execWeatherHold f minutes s
  | .scrollSet f items => Sys2Proof.Machine.execScrollSet f items s
  | .displayRect f x0 y0 w h pix => Sys2Proof.Machine.execDisplayRect f x0 y0 w h pix s
  | .tariffLoad f k => Sys2Proof.Machine.execTariffLoad f k s
  | .clockSet f time => Sys2Proof.Machine.execClockSet f time s
  | .billingClose f => Sys2Proof.Machine.execBillingClose f s
  | .safetyConfirm f value => Sys2Proof.Machine.execSafetyConfirm f value s
  | .safetyConfirmRevoke f value => Sys2Proof.Machine.execSafetyConfirmRevoke f value s
  | .latchClearStage f index => Sys2Proof.Machine.execLatchClearStage f index s
  | .latchClearCell f index => Sys2Proof.Machine.execLatchClearCell f index s
  | .latchClearOutlet f index => Sys2Proof.Machine.execLatchClearOutlet f index s
  | .latchClearSafety f index => Sys2Proof.Machine.execLatchClearSafety f index s
  | .latchClearDisplay f index => Sys2Proof.Machine.execLatchClearDisplay f index s
  | .latchClearTamperHold f index => Sys2Proof.Machine.execLatchClearTamperHold f index s
  | .keyImport f slot wrapSlot attrs wrapped u up => Sys2Proof.Machine.execKeyImport f slot wrapSlot attrs wrapped u up s
  | .keyDerive f parent child attrs context up => Sys2Proof.Machine.execKeyDerive f parent child attrs context up s
  | .keyInvalidate f slot => Sys2Proof.Machine.execKeyInvalidate f slot s
  | .slotOperationBoundary slot => Sys2Proof.Machine.execSlotOperationBoundary slot s
  | .keyUseEncrypt f slot iv aad data up => Sys2Proof.Machine.execKeyUseEncrypt f slot iv aad data up s
  | .keyUseDecrypt f slot iv aad data gcmOk up => Sys2Proof.Machine.execKeyUseDecrypt f slot iv aad data gcmOk up s
  | .keyUseSign f slot msg up => Sys2Proof.Machine.execKeyUseSign f slot msg up s
  | .keyUseVerify f slot sig msg valid up => Sys2Proof.Machine.execKeyUseVerify f slot sig msg valid up s
  | .keyUseMac f slot msg up => Sys2Proof.Machine.execKeyUseMac f slot msg up s
  | .keyUsePublic f slot up => Sys2Proof.Machine.execKeyUsePublic f slot up s
  | .attest f nonce up => Sys2Proof.Machine.execAttest f nonce up s
  | .fwStage f target k => Sys2Proof.Machine.execFwStage f target k s
  | .fwVerify f target sigOk up => Sys2Proof.Machine.execFwVerify f target sigOk up s
  | .fwActivate f target => Sys2Proof.Machine.execFwActivate f target s
  | .firstStartSuccess target => Sys2Proof.Machine.execFirstStartSuccess target s
  | .firstStartFailure target => Sys2Proof.Machine.execFirstStartFailure target s
  | .opStart opId => Sys2Proof.Machine.execOpStart opId s
  | .opComplete opId => Sys2Proof.Machine.execOpComplete opId s
  | .resultHoldExpiry opId => Sys2Proof.Machine.execResultHoldExpiry opId s
  | .sessionIdleTimeout sid => Sys2Proof.Machine.execSessionIdleTimeout sid s
  | .challengeLapse sid => Sys2Proof.Machine.execChallengeLapse sid s
  | .chunkTimeout sid cmd => Sys2Proof.Machine.execChunkTimeout sid cmd s
  | .hspiReadTransaction => Sys2Proof.Machine.execHspiReadTransaction s
  | .recoveryEnd => Sys2Proof.Machine.execRecoveryEnd s
  | .recoveredHoldExpiry opId => Sys2Proof.Machine.execRecoveredHoldExpiry opId s
  | .keyScrub up => Sys2Proof.Machine.execKeyScrub up s
  | .tamperEvent x => Sys2Proof.Machine.execTamperEvent x s
  | .helmCorePairMismatch => Sys2Proof.Machine.execHelmCorePairMismatch s
  | .sextantCoreMismatch => Sys2Proof.Machine.execSextantCoreMismatch s
  | .sextantSupervisorRestart => Sys2Proof.Machine.execSextantSupervisorRestart s
  | .meridianCoreFault => Sys2Proof.Machine.execMeridianCoreFault s
  | .islandClockLoss isl sdClk => Sys2Proof.Machine.execIslandClockLoss isl sdClk s
  | .islandRestart isl ok => Sys2Proof.Machine.execIslandRestart isl ok s
  | .doubleBitError at_ idle => Sys2Proof.Machine.execDoubleBitError at_ idle s
  | .scrubPass m passEnd corrected => Sys2Proof.Machine.execScrubPass m passEnd corrected s
  | .logRecordWrite fail => Sys2Proof.Machine.execLogRecordWrite fail s
  | .logbookScanEnd device => Sys2Proof.Machine.execLogbookScanEnd device s
  | .rungDown => Sys2Proof.Machine.execRungDown s
  | .quietConditionCeases => Sys2Proof.Machine.execQuietConditionCeases s
  | .wakeEvent w => Sys2Proof.Machine.execWakeEvent w s
  | .wkAlarm => Sys2Proof.Machine.execWkAlarm s
  | .vbatSwitchover mcore io => Sys2Proof.Machine.execVbatSwitchover mcore io s
  | .mainRailsReturn mcore io => Sys2Proof.Machine.execMainRailsReturn mcore io s
  | .engImpLoRead f inst => Sys2Proof.Machine.execEngImpLoRead f inst s
  | .tar1ImpLoRead f o => Sys2Proof.Machine.execTar1ImpLoRead f o s
  | .chrTimeLoRead f => Sys2Proof.Machine.execChrTimeLoRead f s
  | .recordSelectWrite f sel index => Sys2Proof.Machine.execRecordSelectWrite f sel index s
  | .porstFall => Sys2Proof.Machine.execPorstFall s
  | .analogSupplyDip rf uV => Sys2Proof.Machine.execAnalogSupplyDip rf uV s
  | .analogSupplyReturn rf uV => Sys2Proof.Machine.execAnalogSupplyReturn rf uV s
  | .feedbackDiscrepancy n a b => Sys2Proof.Machine.execFeedbackDiscrepancy n a b s
  | .peerLost => Sys2Proof.Machine.execPeerLost s
  | .tagReadReply o r => Sys2Proof.Machine.execTagReadReply o r s
  | .unknownCommand f code => Sys2Proof.Machine.execUnknownCommand f code s
  | .driveFaultClear d pulses ms => Sys2Proof.Machine.execDriveFaultClear d pulses ms s
  | .tamperSourceCeases x => Sys2Proof.Machine.execTamperSourceCeases x s
  | .vbatLoss => Sys2Proof.Machine.execVbatLoss s

end Sys2Proof.Machine
end

