-- ==== Sys2Proof/Machine/Idle.lean ====
section
/-!
DEFINITION. What a millisecond with no command waiting does (DESIGN CHOICE, log 2): time passes, slow drives are
counted (R170), the quiet time of the power ladder and the scrubbers' time run (R449, R472), an old post share takes
its effect (R28), commanded billing closes come due (R255), the panel powers off step by step (R293), the scroll is
drawn (R272), Helm estimates the energy of a metering gap (R240), a fallen capacity is reported (R366), frames to the
host leave (R385), the Turxel ports send (R329), a red spell of health is noted (R382), and the logbook's periodic
records are made (R63, Table 02-11).
-/
namespace Sys2Proof.Machine

/-- Helm's own estimate of an outlet's energy while Meridian's activation pauses metering (R240), in nJ a millisecond, from the
Sextant's voltage and current of the outlet's stage (DESIGN CHOICE, log 29). -/
def gapOutlet (s : State) (o : Fin 2) : State :=
  match meridianUpdating s && !s.mer.up, openSession s o, outletStage s o with
  | true, some _, some g => updCharge s o fun c => { c with gap := c.gap + vVeh s g * stageCur s g * 1000000 / (unit31 * unit31) }
  | _, _, _ => s

/-- One millisecond with no command waiting (log 2). -/
def idle (s : State) : State :=
  let t := gapOutlet (gapOutlet (countSlow (tick s)) 0) 1
  logPeriodic (healthTick (wireTick (hostTick (reportCapacity (ageShare (scrollTick (panelTick (closeTick (ladderTick t)))))))))

end Sys2Proof.Machine
end

