-- ==== Sys2Proof/Machine/Package.lean ====
section
/-!
DEFINITION. The package's balls (R480 to R483) and the supply currents of the rungs (R470).
-/
namespace Sys2Proof.Machine

/-- A ball by its row, 1 to 34, and column, 1 to 34 (R480). -/
abbrev Ball := Nat × Nat

/-- The letters of the rows (R480). -/
def rowLetters : List String :=
  ["A", "B", "C", "D", "E", "F", "G", "H", "J", "K", "L", "M", "N", "P", "T", "U", "V", "W", "Y", "AA", "AB", "AC", "AD", "AE",
    "AF", "AG", "AH", "AJ", "AK", "AL", "AM", "AN", "AP", "AT"]

/-- A ball's name: its row's letter and its column. -/
def ballName (b : Ball) : String := rowLetters.getD (b.1 - 1) "" ++ toString b.2

/-- The signals of Table 20-11. -/
inductive ArraySignal where
  | pwmH (n : Fin 48) | pwmL (n : Fin 48) | fltN (n : Fin 48)
  | sdClk (k : Fin 8) | sdDat (n : Fin 64) | usc (k : Fin 8) | src (n : Fin 160)
  | mchP (k : Fin 12) | mchN (k : Fin 12)
  | rtd (r : Fin 4) (wire : Fin 4)
  | sia (n : Fin 16) | sib (n : Fin 16)
  | soh (n : Fin 8) | sol (n : Fin 8) | fba (n : Fin 8) | fbb (n : Fin 8)
  | tpa (k : Fin 4) | tpb (k : Fin 4)
  | txl (port : Fin 2) (s : Fin 16)
  deriving DecidableEq, Repr

/-- The ball of a signal of a regular array (R481, Table 20-11). -/
def ArraySignal.ball : ArraySignal → Ball
  | .pwmH n => (12 + n / 3, 26 + 3 * (n % 3))
  | .pwmL n => (12 + n / 3, 27 + 3 * (n % 3))
  | .fltN n => (12 + n / 3, 28 + 3 * (n % 3))
  | .sdClk k => (12, 17 + k)
  | .sdDat n => (13 + n / 8, 17 + n % 8)
  | .usc k => (21, 17 + k)
  | .src n => (30 + n % 5, 3 + n / 5)
  | .mchP k => (1 + k / 4, 1 + 2 * (k % 4))
  | .mchN k => (1 + k / 4, 2 + 2 * (k % 4))
  | .rtd r w => (4 + r / 2, 1 + 4 * (r % 2) + w)
  | .sia n => (1 + n / 8, 26 + n % 8)
  | .sib n => (3 + n / 8, 26 + n % 8)
  | .soh n => (5, 26 + n)
  | .sol n => (6, 26 + n)
  | .fba n => (7, 26 + n)
  | .fbb n => (8, 26 + n)
  | .tpa k => (1 + k, 34)
  | .tpb k => (5 + k, 34)
  | .txl p s => (1 + p, 10 + s)

/-- Every signal of the arrays. -/
def arraySignals : List ArraySignal :=
  ((List.finRange 48).flatMap fun n => [ArraySignal.pwmH n, .pwmL n, .fltN n]) ++ (List.finRange 8).map ArraySignal.sdClk
    ++ (List.finRange 64).map ArraySignal.sdDat ++ (List.finRange 8).map ArraySignal.usc ++ (List.finRange 160).map ArraySignal.src
    ++ ((List.finRange 12).flatMap fun k => [ArraySignal.mchP k, .mchN k])
    ++ ((List.finRange 4).flatMap fun r => (List.finRange 4).map (ArraySignal.rtd r))
    ++ ((List.finRange 16).flatMap fun n => [ArraySignal.sia n, .sib n])
    ++ ((List.finRange 8).flatMap fun n => [ArraySignal.soh n, .sol n, .fba n, .fbb n])
    ++ ((List.finRange 4).flatMap fun k => [ArraySignal.tpa k, .tpb k])
    ++ ((List.finRange 2).flatMap fun p => (List.finRange 16).map (ArraySignal.txl p))

/-- The supplies. -/
inductive Supply where
  | vddCore | vddLka | vddLkb | vddMcore | vddMana | vddio | vdda | vddRf | vbat | vssM | vss
  deriving DecidableEq, Repr

/-- The columns from one to another of a row. -/
def rowBalls (row first last : Nat) : List Ball := (List.range (last + 1 - first)).map fun k => (row, first + k)

/-- The balls that carry a supply (Tables 20-11 and 20-12); VSS takes the rest. -/
def supplyBalls : List (Supply × List Ball) :=
  [(.vddCore, ((List.range 13).flatMap fun a => (rowBalls (15 + a) 1 16).filter fun b => (b.1 + b.2) % 2 == 0) ++ rowBalls 10 10 17),
    (.vddio, ((List.range 5).flatMap fun a => (rowBalls (23 + a) 17 24).filter fun b => (b.1 + b.2) % 2 == 0)
      ++ ((List.range 16).map fun a => (12 + a, 25)) ++ rowBalls 5 23 25 ++ rowBalls 9 10 17),
    (.vddMana, rowBalls 7 1 4), (.vddMcore, rowBalls 7 5 8), (.vssM, rowBalls 8 1 8),
    (.vdda, rowBalls 7 20 21 ++ rowBalls 11 7 8), (.vddRf, rowBalls 8 17 20), (.vddLka, rowBalls 10 26 29),
    (.vddLkb, rowBalls 10 31 34), (.vbat, rowBalls 13 11 12)]

/-- The irregular signals of Table 20-12: a row, its first column, and the signals from there on. -/
def irregularSignals : List (Nat × Nat × List String) :=
  [(4, 10, ["HPG_A_SCK", "HPG_A_MOSI", "HPG_A_MISO", "HPG_A_CS_N", "HPG_A_RST_N", "HPG_A_INT_N", "HPG_B_SCK", "HPG_B_MOSI",
      "HPG_B_MISO", "HPG_B_CS_N", "HPG_B_RST_N", "HPG_B_INT_N", "HSPI_SCK", "HSPI_MOSI", "HSPI_MISO", "HSPI_CS_N"]),
    (5, 10, ["HSPI_IRQ_N", "CQ_CLK", "CQ_CS_N", "CQ_IO[0]", "CQ_IO[1]", "CQ_IO[2]", "CQ_IO[3]", "LQ_CLK", "LQ_CS_N", "LQ_IO[0]",
      "LQ_IO[1]", "LQ_IO[2]", "LQ_IO[3]"]),
    (6, 1, ["MREF_P", "MREF_N", "XM_IN", "XM_OUT", "XC_IN", "XC_OUT", "PULSE_A", "PULSE_B"]),
    (7, 10, ["T1S_A_P", "T1S_A_N"]), (7, 13, ["T1S_B_P", "T1S_B_N"]), (7, 16, ["LL_TX", "LL_RX", "LL_TXEN", "LL_ZC"]),
    (8, 10, ["RF_TXP", "RF_TXN"]), (8, 13, ["RF_RXP", "RF_RXN", "ANT_SEL[0]", "ANT_SEL[1]"]),
    (9, 26, ["LOCK_A", "LOCK_B", "LOCK_FB_A", "LOCK_FB_B", "ISO_INJ", "ISO_SNS[0]", "ISO_SNS[1]", "ISO_SNS[2]", "ISO_SNS[3]"]),
    (11, 1, ["CP_OUT_A", "CP_SNS_A", "PP_SNS_A", "CP_OUT_B", "CP_SNS_B", "PP_SNS_B"]),
    (12, 1, ["PUMP_PWM_A", "FAN_PWM_A[0]", "FAN_PWM_A[1]", "FLOW_A", "PUMP_PWM_B", "FAN_PWM_B[0]", "FAN_PWM_B[1]", "FLOW_B",
      "TACH[0]", "TACH[1]", "TACH[2]", "TACH[3]", "TACH[4]", "TACH[5]"]),
    (13, 1, ["TAMP[0]", "TAMP[1]", "TAMP[2]", "TAMP[3]", "TMESH_O", "TMESH_I", "ROLE[0]", "ROLE[1]", "PORST_N", "WAKE_N"]),
    (14, 1, ["XH_IN", "XH_OUT", "XA_IN", "XA_OUT"]), (22, 17, ["SYNC_IN", "SYNC_OUT", "PPS_IN"]),
    (29, 1, ["AVDD_PNL", "VGH", "VGL", "PMP_C1P", "PMP_C1N", "PMP_C2P", "PMP_C2N", "PMP_C3P", "PMP_C3N", "FL_PWM"]),
    (30, 1, ["GOA_STV", "GOA_CK[0]"]), (31, 1, ["GOA_CK[1]", "GOA_CK[2]"]), (32, 1, ["GOA_CK[3]", "GOA_RST"]),
    (33, 1, ["VCOM", "PNL_TH"]), (34, 1, ["CRACK_P", "CRACK_N"])]

/-- Every ball that Table 20-11 or 20-12 names, with repeats if two named one ball. -/
def namedBalls : List Ball :=
  arraySignals.map ArraySignal.ball ++ (irregularSignals.flatMap fun x => (List.range x.2.2.length).map fun k => (x.1, x.2.1 + k))
    ++ supplyBalls.flatMap (·.2)

/-- The supply of a ball; VSS for one that carries neither a signal nor another supply (R483). -/
def supplyOf (b : Ball) : Option Supply :=
  match supplyBalls.find? fun x => x.2.contains b with
  | some x => some x.1
  | none => if namedBalls.contains b then none else some .vss

/-- A ball with no connection on a KGV-4824-MA: those of channels 24 to 47 (R483). -/
def unconnected (v : Variant) (b : Ball) : Bool :=
  v == .ma4824 && decide (20 ≤ b.1 ∧ b.1 ≤ 27 ∧ 26 ≤ b.2 ∧ b.2 ≤ 34)

/-- The number, in a mask of the array, of a ball. -/
def ballBit (b : Ball) : Nat := (b.1 - 1) * 34 + (b.2 - 1)

/-- The balls of a list as a mask, if each lies in the array and none comes twice. -/
def ballMask : List Ball → Option Nat
  | [] => some 0
  | b :: l =>
    match ballMask l with
    | some m => if 1 ≤ b.1 ∧ b.1 ≤ 34 ∧ 1 ≤ b.2 ∧ b.2 ≤ 34 ∧ m.testBit (ballBit b) = false then some (m + 2 ^ ballBit b) else none
    | none => none

/-- The greatest current of a rail on a rung in µA (R470, Table 20-3), VBAT's with the main rails present. -/
def railCurrent (rail : Fin 9) (r : Rung) : Nat :=
  ((match rail.val with
    | 0 => [6000000, 450000, 60000, 2500, 150, 20]
    | 1 => [8000, 8000, 8000, 800, 0, 0]
    | 2 => [8000, 8000, 8000, 800, 0, 0]
    | 3 => [20000, 20000, 1500, 1500, 200, 10]
    | 4 => [25000, 25000, 1000, 1000, 150, 10]
    | 5 => [600000, 120000, 5000, 500, 100, 20]
    | 6 => [300000, 100000, 3000, 600, 50, 0]
    | 7 => [700000, 0, 0, 0, 0, 0]
    | _ => [1, 1, 1, 1, 1, 1]) : List Nat).getD r.code 0

end Sys2Proof.Machine
end

