-- ==== Sys2Proof/Safety.lean ====
section
/-!
DEFINITION. What the statements speak of: well-formed states, what a command leaves unchanged, and a few facts about
stages named once.
-/
namespace Sys2Proof.Machine

/-- The frame memory and the settled levels are in canonical form: an unlisted byte reads 0. -/
def Display.memWf (d : Display) : Bool :=
  sparseWf (fun _ => (0 : Byte)) d.frame && sparseWf (fun _ => (0 : Byte)) d.settled

/-- The LIVE words in use and staged are in canonical form: an unlisted word reads its reset value (R217). -/
def Meridian.memWf (m : Meridian) : Bool := sparseWf resetWord m.regs && sparseWf resetWord m.staged

/-- The LIVE words of block 0x90 are in canonical form. -/
def Commercial.memWf (c : Commercial) : Bool := sparseWf resetWord c.live

/-- The chart's words of block 0x90 that the next Landfall takes back are in canonical form (R59). -/
def Chart.memWf (c : Chart) : Bool := sparseWf resetWord c.comHeld

/-- Every sparse memory is in its one canonical form: rising addresses, no entry equal to what an unlisted one reads
    as:
0xFF in the flash devices, 0 in the display's memories, the reset value for a parameter word. -/
def State.memWf (s : State) : Bool :=
  sparseWf (fun _ => (0xFF : Byte)) s.flash && sparseWf resetWord s.cfg && s.disp.memWf && s.mer.memWf && s.com.memWf
    && s.chart.memWf

/-- Stage `g` is LATCHED, with `c` among the causes recorded (R136). -/
def LatchedBy (s : State) (g : Fin 8) (c : LatchCause) : Prop :=
  s.sx.stage[g].st = .latched ∧ (s.sx.stage[g].latchMask).testBit (c.code - 1) = true

/-- The parts of the state that a frame names: the fields of `State`, with Sextant, Meridian, Lookout and the host
interface taken apart. -/
inductive Part where
  | variant | mono | free | landfall | chart | cfg | flash | sxChannel | sxCell | sxStage | sxAux | sxSd | sxLaw
  | sxFix | sxCount | sxRest | outlet | cooling | drive | rdr | merFe | merLeg | merRegs | merChr | merTar | merMail
  | merRest | com | disp | lkIn | lkOut | lkOutlet | lkLatch | lkConf | lkRest | txl | safe | ll | mgr | wrk
  | hostSessions | hostOps | hostJournal | hostRest | locker | fw | tamper | log | flt | pwr | merStage | pending
  deriving DecidableEq, Repr

/-- The part holds in `t` what it holds in `s`. -/
def Part.same (p : Part) (s t : State) : Prop :=
  match p with
  | .variant => t.variant = s.variant
  | .mono => t.mono = s.mono
  | .free => t.free = s.free
  | .landfall => t.landfall = s.landfall
  | .chart => t.chart = s.chart
  | .cfg => t.cfg = s.cfg
  | .flash => t.flash = s.flash
  | .sxChannel => t.sx.channel = s.sx.channel
  | .sxCell => t.sx.cell = s.sx.cell
  | .sxStage => t.sx.stage = s.sx.stage
  | .sxAux => t.sx.aux = s.sx.aux
  | .sxSd => t.sx.sd = s.sx.sd
  | .sxLaw => t.sx.law = s.sx.law
  | .sxFix => (t.sx.fixLast, t.sx.fixTime) = (s.sx.fixLast, s.sx.fixTime)
  | .sxCount => (t.sx.count, t.sx.countAt) = (s.sx.count, s.sx.countAt)
  | .sxRest => (t.sx.cool, t.sx.uscFired, t.sx.uscLevel, t.sx.ppsStamp, t.sx.ppsNs, t.sx.syncPeriod, t.sx.syncAt, t.sx.syncOut, t.sx.laneFree, t.sx.laneBusy, t.sx.loadChart, t.sx.loadMeas, t.sx.up, t.sx.beating, t.sx.helmLost, t.sx.shareAt) =
      (s.sx.cool, s.sx.uscFired, s.sx.uscLevel, s.sx.ppsStamp, s.sx.ppsNs, s.sx.syncPeriod, s.sx.syncAt,
          s.sx.syncOut, s.sx.laneFree, s.sx.laneBusy, s.sx.loadChart, s.sx.loadMeas, s.sx.up, s.sx.beating,
          s.sx.helmLost, s.sx.shareAt)
  | .outlet => t.outlet = s.outlet
  | .cooling => t.cooling = s.cooling
  | .drive => t.drive = s.drive
  | .rdr => t.rdr = s.rdr
  | .merFe => t.mer.fe = s.mer.fe
  | .merLeg => (t.mer.leg, t.mer.saved, t.mer.legalSeq) = (s.mer.leg, s.mer.saved, s.mer.legalSeq)
  | .merRegs => (t.mer.regs, t.mer.staged, t.mer.stagedCnt, t.mer.digest) =
      (s.mer.regs, s.mer.staged, s.mer.stagedCnt, s.mer.digest)
  | .merChr => (t.mer.chr, t.mer.stopNs) = (s.mer.chr, s.mer.stopNs)
  | .merTar => t.mer.tar = s.mer.tar
  | .merMail => (t.mer.mail, t.mer.held) = (s.mer.mail, s.mer.held)
  | .merRest => (t.mer.up, t.mer.supplyFail, t.mer.plainStop, t.mer.lossEst, t.mer.powers, t.mer.pNow, t.mer.winItem, t.mer.closeDue) =
      (s.mer.up, s.mer.supplyFail, s.mer.plainStop, s.mer.lossEst, s.mer.powers, s.mer.pNow, s.mer.winItem,
          s.mer.closeDue)
  | .com => t.com = s.com
  | .disp => t.disp = s.disp
  | .lkIn => t.lk.si = s.lk.si
  | .lkOut => t.lk.so = s.lk.so
  | .lkOutlet => t.lk.outlet = s.lk.outlet
  | .lkLatch => (t.lk.xcmp, t.lk.sf1, t.lk.sf9, t.lk.sf7) = (s.lk.xcmp, s.lk.sf1, s.lk.sf9, s.lk.sf7)
  | .lkConf => (t.lk.confA, t.lk.confB) = (s.lk.confA, s.lk.confB)
  | .lkRest => (t.lk.runA, t.lk.runB, t.lk.agreed, t.lk.restarting, t.lk.inputDiff, t.lk.tpAt, t.lk.press, t.lk.inj, t.lk.gpA, t.lk.gpB, t.lk.kind3, t.lk.kind4, t.lk.checkA, t.lk.checkB, t.lk.landfallDone, t.lk.xcmpCnt, t.lk.restartCnt) =
      (s.lk.runA, s.lk.runB, s.lk.agreed, s.lk.restarting, s.lk.inputDiff, s.lk.tpAt, s.lk.press, s.lk.inj,
          s.lk.gpA, s.lk.gpB, s.lk.kind3, s.lk.kind4, s.lk.checkA, s.lk.checkB, s.lk.landfallDone, s.lk.xcmpCnt,
          s.lk.restartCnt)
  | .txl => t.txl = s.txl
  | .safe => t.safe = s.safe
  | .ll => t.ll = s.ll
  | .mgr => t.mgr = s.mgr
  | .wrk => t.wrk = s.wrk
  | .hostSessions => (t.host.sessions, t.host.challenges, t.host.lastSid, t.host.authFail) =
      (s.host.sessions, s.host.challenges, s.host.lastSid, s.host.authFail)
  | .hostOps => (t.host.ops, t.host.rgen, t.host.nextOp) = (s.host.ops, s.host.rgen, s.host.nextOp)
  | .hostJournal => (t.host.journal, t.host.outcomes) = (s.host.journal, s.host.outcomes)
  | .hostRest => (t.host.cls, t.host.transfers, t.host.out, t.host.miso, t.host.stream, t.host.macFail, t.host.seqDrop) =
      (s.host.cls, s.host.transfers, s.host.out, s.host.miso, s.host.stream, s.host.macFail, s.host.seqDrop)
  | .locker => t.locker = s.locker
  | .fw => t.fw = s.fw
  | .tamper => t.tamper = s.tamper
  | .log => t.log = s.log
  | .flt => t.flt = s.flt
  | .pwr => t.pwr = s.pwr
  | .merStage => t.merStage = s.merStage
  | .pending => t.pending = s.pending

/-- Nothing but the parts listed differs between `s` and `t`. -/
def Changes (ps : List Part) (s t : State) : Prop := ∀ p, p ∉ ps → p.same s t

/-- A command that answers a next state changes nothing but the parts listed. -/
def Frames (ps : List Part) (c : Instr) : Prop := ∀ s t, exec c s = .next t → Changes ps s t

/-- The parts that each command may change, from what the spec says it does (R145, R260, R395 and each family's own
rules): the command itself, its log entry, and the reactions that its effect sets off. -/
def writes : Instr → List Part
  | .stageStart .. | .afe3AutoStart .. =>
     [.sxChannel, .sxCell, .sxStage, .sxAux, .sxLaw, .sxRest, .outlet, .rdr, .lkOut, .lkOutlet, .lkRest, .wrk,
      .log, .flt]
  | .stageStop .. | .vehicleVoltageDisagree .. | .preTimeoutExpiry .. | .closeRefused ..
  | .reverseCurrentLatch .. | .afe3AutoStop .. | .rampDownComplete .. | .dischargeRequest ..
  | .dischargeComplete .. | .dischTExpiry .. | .cbcLatch .. | .oclLatch .. | .cellOpenRetire ..
  | .heartbeatLoss .. =>
     [.sxChannel, .sxCell, .sxStage, .sxAux, .sxRest, .outlet, .rdr, .lkOut, .lkOutlet, .lkRest, .wrk, .log, .flt]
  | .vehicleVoltageForward .. => [.outlet]
  | .prechargeComplete .. | .noSinkExit .. | .fireRearm .. | .shedHoldEnd .. => [.sxStage]
  | .closeWaitBandLost .. => [.sxStage, .lkOutlet]
  | .contactorsConfirmed .. => [.sxCell, .sxStage, .sxAux, .outlet, .lkOut]
  | .afe3PrechargeComplete .. => [.sxStage, .sxAux]
  | .afe3VminReached .. | .acMainConfirmed .. => [.lkOut, .lkRest]
  | .shedStart .. | .estTExpiry .. => [.sxCell]
  | .addStart .. => [.sxCell, .sxStage, .sxLaw]
  | .shedRampEnd .. => [.sxChannel, .sxCell, .sxStage, .sxAux]
  | .addRampEnd .. => [.sxCell, .sxAux]
  | .laneSetpointUpdate .. => [.sxCell, .sxStage, .sxAux, .sxLaw, .sxRest, .outlet, .wrk]
  | .postSplitRecompute .. => [.sxCell, .sxStage, .sxRest, .outlet]
  | .laneHeartbeat .. => [.sxRest, .log, .flt]
  | .pilotCondChange .. | .tagStale2s .. =>
     [.sxChannel, .sxCell, .sxStage, .sxAux, .sxRest, .outlet, .cooling, .rdr, .lkOut, .lkOutlet, .lkRest, .wrk,
      .log, .flt]
  | .t1sLinkUp .. | .sdpRequest .. | .sessionSetup .. | .chargeParameterDiscovery .. | .dcWeldingDetection .. =>
     [.outlet]
  | .slacMessage .. => [.free, .outlet]
  | .tlsHandshake .. => [.outlet, .locker]
  | .unsupportedRequest .. | .supportedAppProtocol .. | .serviceDiscovery .. | .scheduleExchange ..
  | .powerDelivery .. | .dcChargeLoop .. | .vehicleSessionStop .. | .vehicleLinkLost .. | .tInventoryExpiry ..
  | .tLinkExpiry .. | .tSeqExpiry .. | .tIsoExpiry .. | .tDischExpiry .. | .tLockExpiry .. | .tOngoingExpiry ..
  | .tLoopExpiry .. | .tStandbyExpiry .. =>
     [.sxChannel, .sxCell, .sxStage, .sxAux, .sxRest, .outlet, .rdr, .lkOut, .lkOutlet, .lkRest, .wrk, .log, .flt]
  | .dcCableCheck .. | .dcPreCharge .. | .isoDwellEnd .. =>
     [.sxChannel, .sxCell, .sxStage, .sxAux, .sxLaw, .sxRest, .outlet, .rdr, .lkOut, .lkOutlet, .lkRest, .wrk,
      .log, .flt]
  | .certificateInstallation .. =>
     [.sxChannel, .sxCell, .sxStage, .sxAux, .sxRest, .outlet, .rdr, .lkOut, .lkOutlet, .lkRest, .wrk,
      .hostSessions, .hostRest, .log, .flt]
  | .authorizationRequest .. =>
     [.sxChannel, .sxCell, .sxStage, .sxAux, .sxRest, .outlet, .rdr, .merMail, .com, .lkOut, .lkOutlet, .lkRest,
      .wrk, .hostSessions, .hostRest, .log, .flt]
  | .tAuthExpiry .. => [.outlet, .rdr, .merMail, .com, .lkOutlet, .log]
  | .lockConfirmed .. | .contactorsOpenConfirmed .. | .vehicleSideDischarged .. | .faultedContactorOpen .. =>
     [.sxChannel, .sxCell, .sxStage, .sxAux, .sxLaw, .sxRest, .outlet, .rdr, .lkOut, .lkOutlet, .lkLatch, .lkRest,
      .wrk, .log, .flt]
  | .unlockConfirmed .. =>
     [.sxChannel, .sxCell, .sxStage, .sxAux, .sxLaw, .sxRest, .outlet, .rdr, .merMail, .lkOut, .lkOutlet, .lkLatch,
      .lkRest, .wrk, .log, .flt]
  | .coolingInputUpdate .. => [.sxCell, .sxStage, .sxLaw, .sxRest, .outlet, .cooling, .wrk, .log, .flt]
  | .tagStale500ms .. => [.sxCell, .sxStage, .sxRest, .outlet, .cooling, .wrk, .log, .flt]
  | .driveFault .. => [.sxCell, .sxStage, .sxRest, .outlet, .cooling, .drive, .wrk, .log, .flt]
  | .driveFaultClear .. => [.drive, .log, .flt]
  | .flowLow .. => [.sxCell, .sxStage, .sxRest, .outlet, .cooling, .wrk]
  | .readerCycleStart .. | .portWindowStart .. | .slotReplyReceived .. | .slotEmpty ..
  | .selectReplyReceived .. | .tagExchangeNoReply .. | .fieldSettled .. | .reqaPoll .. | .cardLeft .. => [.rdr]
  | .tagReadReply .. => [.outlet, .rdr]
  | .sensorMeasureReply .. =>
     [.sxChannel, .sxCell, .sxStage, .sxAux, .sxLaw, .sxRest, .outlet, .cooling, .rdr, .lkOut, .lkOutlet, .lkRest,
      .wrk, .log, .flt]
  | .tagWriteReply .. | .writeUnconfirmed .. | .writeReadback .. => [.rdr, .log]
  | .antFaultRuntime .. =>
     [.sxChannel, .sxCell, .sxStage, .sxAux, .sxRest, .outlet, .rdr, .lkOut, .lkOutlet, .lkRest, .wrk, .log, .flt]
  | .cardSelected .. => [.outlet, .rdr, .merMail, .com, .lkOutlet, .hostSessions, .hostRest, .log]
  | .meterSample .. => [.merFe, .merLeg, .merRest]
  | .pulseStart .. | .pulseEnd .. => [.merLeg]
  | .pNowRefresh .. => [.merLeg, .merRest]
  | .firCrcCheck .. | .firRmsWindow .. => [.merFe, .merLeg, .log]
  | .firRestored .. | .streamFault .. | .pilotWindow .. | .rotationCalibrationDone ..
  | .spareCalibrationDone .. | .referenceComparison .. => [.merFe, .merLeg, .log, .flt]
  | .dcFreezeRequest .. | .spareSettled .. | .rotationStepStart .. | .rotationSwap .. | .rotationSwapBack .. =>
     [.merFe]
  | .dcFreezeRelease .. => [.merFe, .log]
  | .rtdSample .. => [.merFe, .merLeg, .merRest, .log, .flt]
  | .registerCommit .. | .slewDayEnd .. | .billingScheduledClose .. => [.merLeg, .merChr]
  | .meridianSupplyFail .. => [.merLeg, .merChr, .merRest, .log, .flt, .pwr]
  | .meridianRestart .. =>
     ([Part.sxChannel, Part.sxCell, Part.sxStage, Part.sxAux, Part.sxLaw, Part.sxRest, Part.outlet, Part.rdr,
      Part.merFe, Part.merLeg, Part.merChr, Part.merTar, Part.merRest, Part.lkOut, Part.lkOutlet] ++ [Part.lkLatch,
      Part.lkRest, Part.wrk, Part.fw, Part.log, Part.flt, Part.pwr])
  | .halfCycleRms .. | .zeroCrossingTimeout .. => [.merFe, .merLeg]
  | .ptpOffset .. => [.merLeg, .merChr, .merTar, .log, .flt]
  | .ptpDeadReckoning .. => [.merChr, .log]
  | .timeUncertainSet .. | .demandIntervalEnd .. => [.merLeg]
  | .leapSecond .. => [.merLeg, .merChr, .merTar]
  | .calendarActivate .. | .tariffSwitch .. => [.merLeg, .merTar]
  | .legalWindowItem .. => [.merRest]
  | .mailboxRequest .. =>
     [.sxChannel, .sxCell, .sxStage, .sxAux, .sxRest, .outlet, .rdr, .merLeg, .merMail, .com, .lkOut, .lkOutlet,
      .lkRest, .wrk, .log, .flt]
  | .prepayDebit .. | .weatherHoldEnd .. =>
     [.sxChannel, .sxCell, .sxStage, .sxAux, .sxRest, .outlet, .rdr, .com, .lkOut, .lkOutlet, .lkRest, .wrk, .log,
      .flt]
  | .friendlyHoursEnd .. =>
     [.sxChannel, .sxCell, .sxStage, .sxAux, .sxRest, .outlet, .rdr, .lkOut, .lkOutlet, .lkRest, .wrk, .log, .flt]
  | .evenFrameBoundary .. => [.disp, .hostOps, .hostJournal]
  | .legalPairSend .. | .legalPairReceived .. | .panelTempMeasure .. | .panelPowerOn .. | .panelPowerOff ..
  | .pumpRetry .. => [.disp]
  | .frameEndCrc .. | .laneTimeout .. | .displayFaultClear .. | .crackMeasure .. | .pumpFault ..
  | .panelPowerStep .. => [.outlet, .merLeg, .disp, .log, .flt]
  | .lawTrigger .. => [.sxLaw]
  | .lawRunStart .. => [.sxCell, .sxStage, .sxAux, .sxLaw, .sxCount, .sxRest, .outlet]
  | .lawOutputWrite .. => [.sxChannel, .sxCell, .sxLaw, .sxCount, .sxRest]
  | .overrunLatch .. =>
     [.sxChannel, .sxCell, .sxStage, .sxAux, .sxLaw, .sxRest, .outlet, .rdr, .lkOut, .lkOutlet, .lkRest, .wrk,
      .log, .flt]
  | .gatePermitFall .. | .readbackMismatch .. =>
     [.sxChannel, .sxCell, .sxStage, .sxAux, .sxRest, .outlet, .rdr, .lkOut, .lkOutlet, .lkRest, .wrk, .log, .flt]
  | .fltNAssert .. =>
     [.free, .sxChannel, .sxCell, .sxStage, .sxAux, .sxRest, .outlet, .rdr, .lkOut, .lkOutlet, .lkRest, .wrk, .log,
      .flt]
  | .carrierLoad .. => [.sxChannel, .sxCell]
  | .roseTargetsSet .. => [.sxCell, .sxStage, .sxAux]
  | .roseMoveStep .. | .sdStuck .. =>
     [.sxChannel, .sxCell, .sxStage, .sxAux, .sxSd, .sxRest, .outlet, .rdr, .lkOut, .lkOutlet, .lkRest, .wrk, .log,
      .flt]
  | .syncInEdge .. => [.sxAux, .sxRest]
  | .syncLockSet .. | .syncLost .. => [.sxAux]
  | .ppsInEdge .. => [.sxCount, .sxRest]
  | .sdControlOutput .. | .fastTrip .. =>
     [.sxChannel, .sxCell, .sxStage, .sxAux, .sxSd, .sxLaw, .sxCount, .sxRest, .outlet, .rdr, .lkOut, .lkOutlet,
      .lkRest, .wrk, .log, .flt]
  | .sdInvalidClear .. => [.sxCell, .sxStage, .sxSd, .log, .flt]
  | .uscEvent .. => [.sxChannel, .sxCell, .sxStage, .sxAux, .sxCount, .sxRest, .log]
  | .fireEnd .. => [.sxChannel, .sxStage, .sxAux, .sxLaw, .sxCount]
  | .telemetryTick .. => [.sxCell, .sxAux]
  | .llZcEdge .. | .llZcMissed .. | .llPathLost .. | .llPathClear .. => [.ll, .log, .flt]
  | .llFrameReceived .. => [.ll, .mgr, .locker, .log, .flt]
  | .llMapStepDown .. | .llReplyWaitEnd .. => [.ll, .log]
  | .llReplySend .. => [.free, .ll, .locker]
  | .llRelayForward .. | .llPollRound .. => [.ll, .locker]
  | .llRouteRebuild .. | .llLinkUnusable .. => [.ll]
  | .workerStatusSend .. => [.txl, .wrk, .locker]
  | .allocMessageRx .. => [.sxCell, .sxStage, .sxAux, .sxRest, .outlet, .txl, .ll, .mgr, .wrk, .log]
  | .deadReckoningTick .. => [.sxCell, .sxStage, .sxRest, .outlet, .wrk]
  | .workerStatusRx .. => [.txl, .ll, .mgr, .log]
  | .allocCycle .. | .paramMessage .. | .revertRelease .. => [.txl, .mgr, .locker]
  | .shadowDiffClear .. | .peerLost .. => [.mgr, .log, .flt]
  | .interleaveRecompute .. | .tokenRequestSet .. => [.mgr]
  | .managerBeaconRx .. | .releaseRx .. => [.txl, .ll, .mgr, .log, .flt]
  | .quorumLost .. | .tokenRelease .. => [.txl, .ll, .mgr, .locker]
  | .listenEnd .. | .alternateListenEnd .. => [.ll, .mgr, .log]
  | .standbyTakeover .. => [.txl, .ll, .mgr, .locker, .log]
  | .healthReport .. => [.txl, .locker]
  | .revertTimeout .. => [.ll, .mgr]
  | .safetyInputChange .. | .discrepancyFault .. | .testPulse .. =>
     [.sxChannel, .sxCell, .sxStage, .sxAux, .sxLaw, .sxRest, .outlet, .rdr, .lkIn, .lkOut, .lkOutlet, .lkLatch,
      .lkRest, .wrk, .log, .flt]
  | .crossCompareExchange .. | .channelsAgreed .. | .offTest .. | .outputReadbackFault .. | .feedbackTimeout ..
  | .lateWeld .. | .feedbackDiscrepancy .. | .contactorCloseRequest .. | .contactorOpenRequest ..
  | .lockRequest .. | .unlockRequest .. | .lockFbLost .. | .outputKindRequest .. | .resetPress ..
  | .holsterTestSeen .. | .landfallCompleteMessage .. | .landfallStartMessage .. | .sextantResetSeen ..
  | .soundingVerdict .. | .poleVoltageSample .. | .soundingSelftestEnd .. =>
     [.sxChannel, .sxCell, .sxStage, .sxAux, .sxLaw, .sxRest, .outlet, .rdr, .lkOut, .lkOutlet, .lkLatch, .lkRest,
      .wrk, .log, .flt]
  | .lookoutChannelRestart .. =>
     [.sxChannel, .sxCell, .sxStage, .sxAux, .sxLaw, .sxRest, .outlet, .rdr, .lkOut, .lkOutlet, .lkLatch, .lkRest,
      .safe, .wrk, .log, .flt]
  | .closeRequestExpiry .. | .soundingSelftestStart .. | .soundingSelftestRetry .. => [.lkOutlet]
  | .soundingHalfPeriod .. => [.lkOutlet, .lkRest]
  | .phyStatusPoll .. | .pathLost .. | .pathLostClear .. => [.txl, .log, .flt]
  | .turxelFrameRx .. => [.txl, .locker]
  | .safeFrameForward .. => [.txl, .safe]
  | .safeTelegramCycle .. => [.txl, .safe, .locker]
  | .safeCopyReceived .. =>
     [.sxChannel, .sxCell, .sxStage, .sxAux, .sxLaw, .sxRest, .outlet, .rdr, .lkOut, .lkOutlet, .lkLatch, .lkRest,
      .txl, .safe, .wrk, .log, .flt]
  | .safePairTimeout .. => [.safe, .log]
  | .safeWatchdogExpiry .. =>
     [.sxChannel, .sxCell, .sxStage, .sxAux, .sxLaw, .sxRest, .outlet, .rdr, .lkOut, .lkOutlet, .lkLatch, .lkRest,
      .safe, .wrk, .log, .flt]
  | .safeFallbackEngage .. | .safeFallbackEnd .. => [.safe, .log, .flt]
  | .singleTExpiry .. => [.safe]
  | .beaconSend .. => [.txl, .mgr, .locker]
  | .ptpMessage .. | .ptpAnnounceTimeout .. | .ptpSyncTimeout .. | .networkServiceRequest .. => [.txl]
  | .hello .. | .resultGet .. | .opStatus .. => [.hostSessions, .hostRest]
  | .helloClose .. | .sessionIdleTimeout .. => [.hostSessions, .hostRest, .fw]
  | .authChallenge .. => [.free, .hostSessions, .hostRest, .locker, .log]
  | .authProve .. => [.hostSessions, .hostRest, .locker, .log]
  | .challengeLapse .. => [.hostSessions]
  | .resultAck .. | .barrier .. | .healthGet .. | .journalRead .. | .logRead .. | .readParam ..
  | .engImpLoRead .. | .tar1ImpLoRead .. | .chrTimeLoRead .. | .unknownCommand .. =>
     [.hostSessions, .hostOps, .hostJournal, .hostRest]
  | .writeParam .. | .recordSelectWrite .. | .metroCommit .. | .emergReqWrite .. =>
     ([Part.cfg, Part.sxChannel, Part.sxAux, Part.sxSd, Part.sxLaw, Part.sxRest, Part.rdr, Part.merFe, Part.merLeg,
      Part.merRegs, Part.com, Part.disp, Part.txl, Part.ll, Part.mgr] ++ [Part.wrk, Part.hostSessions,
      Part.hostOps, Part.hostJournal, Part.hostRest, Part.tamper, Part.log, Part.flt])
  | .telFix .. => [.sxCell, .sxAux, .sxFix, .hostSessions, .hostOps, .hostJournal, .hostRest]
  | .sessionAuthorise .. =>
     [.sxChannel, .sxCell, .sxStage, .sxAux, .sxRest, .outlet, .rdr, .merMail, .com, .lkOut, .lkOutlet, .lkRest,
      .wrk, .hostSessions, .hostOps, .hostJournal, .hostRest, .log, .flt]
  | .sessionAuthoriseCert .. => [.outlet, .hostSessions, .hostOps, .hostJournal, .hostRest, .fw]
  | .sessionStop .. =>
     [.sxChannel, .sxCell, .sxStage, .sxAux, .sxRest, .outlet, .rdr, .lkOut, .lkOutlet, .lkRest, .wrk,
      .hostSessions, .hostOps, .hostJournal, .hostRest, .log, .flt]
  | .authTableLoad .. => [.com, .hostSessions, .hostOps, .hostJournal, .hostRest, .fw]
  | .accountAddCredit .. | .accountSetEmerg .. | .accountSetEmergMode .. | .accountRequestEmerg .. =>
     [.com, .hostSessions, .hostOps, .hostJournal, .hostRest, .log]
  | .siteLimitSet .. => [.txl, .mgr, .hostSessions, .hostOps, .hostJournal, .hostRest, .locker]
  | .weatherHold .. =>
     [.sxChannel, .sxCell, .sxStage, .sxAux, .sxRest, .outlet, .rdr, .com, .lkOut, .lkOutlet, .lkRest, .wrk,
      .hostSessions, .hostOps, .hostJournal, .hostRest, .log, .flt]
  | .scrollSet .. => [.com, .hostSessions, .hostOps, .hostJournal, .hostRest]
  | .displayRect .. => [.disp, .hostSessions, .hostOps, .hostJournal, .hostRest]
  | .tariffLoad .. => [.merLeg, .merTar, .hostSessions, .hostOps, .hostJournal, .hostRest, .fw]
  | .clockSet .. => [.merLeg, .merChr, .merTar, .hostSessions, .hostOps, .hostJournal, .hostRest]
  | .billingClose .. => [.merRest, .hostSessions, .hostOps, .hostJournal, .hostRest]
  | .safetyConfirm .. | .safetyConfirmRevoke .. =>
     [.sxChannel, .sxCell, .sxStage, .sxAux, .sxLaw, .sxRest, .outlet, .rdr, .lkOut, .lkOutlet, .lkLatch, .lkConf,
      .lkRest, .wrk, .hostSessions, .hostOps, .hostJournal, .hostRest, .log, .flt]
  | .latchClearStage .. =>
     [.sxChannel, .sxCell, .sxStage, .sxAux, .sxRest, .outlet, .lkOut, .lkRest, .wrk, .hostSessions, .hostOps,
      .hostJournal, .hostRest, .log, .flt]
  | .latchClearCell .. =>
     [.sxCell, .sxStage, .sxRest, .outlet, .wrk, .hostSessions, .hostOps, .hostJournal, .hostRest, .log, .flt]
  | .latchClearOutlet .. | .latchClearSafety .. =>
     [.sxChannel, .sxCell, .sxStage, .sxAux, .sxLaw, .sxRest, .outlet, .rdr, .lkOut, .lkOutlet, .lkLatch, .lkRest,
      .wrk, .hostSessions, .hostOps, .hostJournal, .hostRest, .log, .flt]
  | .latchClearDisplay .. => [.outlet, .merLeg, .disp, .hostSessions, .hostOps, .hostJournal, .hostRest, .log, .flt]
  | .latchClearTamperHold .. => [.landfall, .hostSessions, .hostOps, .hostJournal, .hostRest]
  | .keyImport .. | .opComplete .. =>
     [.txl, .hostSessions, .hostOps, .hostJournal, .hostRest, .locker, .fw, .log, .flt]
  | .keyDerive .. | .keyUseEncrypt .. | .keyUseDecrypt .. | .keyUseVerify .. | .keyUseMac .. | .keyUsePublic .. =>
     [.hostSessions, .hostOps, .hostJournal, .hostRest, .locker, .log, .flt]
  | .keyInvalidate .. => [.txl, .hostSessions, .hostOps, .hostJournal, .hostRest, .locker, .fw]
  | .keyUseSign .. | .attest .. => [.free, .hostSessions, .hostOps, .hostJournal, .hostRest, .locker, .log, .flt]
  | .fwStage .. => [.flash, .outlet, .hostSessions, .hostOps, .hostJournal, .hostRest, .fw, .merStage]
  | .fwVerify .. => [.chart, .outlet, .hostSessions, .hostOps, .hostJournal, .hostRest, .locker, .fw, .log, .flt]
  | .fwActivate .. =>
     ([Part.free, Part.landfall, Part.chart, Part.cfg, Part.sxChannel, Part.sxCell, Part.sxStage, Part.sxAux,
      Part.sxSd, Part.sxLaw, Part.sxFix, Part.sxCount, Part.sxRest, Part.outlet, Part.cooling] ++ [Part.drive,
      Part.rdr, Part.merLeg, Part.merChr, Part.merRest, Part.disp, Part.lkOut, Part.lkOutlet, Part.lkLatch,
      Part.lkRest, Part.txl, Part.safe, Part.ll, Part.mgr, Part.wrk] ++ [Part.hostSessions, Part.hostOps,
      Part.hostJournal, Part.hostRest, Part.locker, Part.fw, Part.tamper, Part.log, Part.flt, Part.pwr])
  | .opStart .. =>
     ([Part.free, Part.landfall, Part.chart, Part.cfg, Part.flash, Part.sxChannel, Part.sxCell, Part.sxStage,
      Part.sxAux, Part.sxSd, Part.sxLaw, Part.sxFix, Part.sxCount, Part.sxRest, Part.outlet] ++ [Part.cooling,
      Part.drive, Part.rdr, Part.merFe, Part.merLeg, Part.merRegs, Part.merChr, Part.merTar, Part.merMail,
      Part.merRest, Part.com, Part.disp, Part.lkOut, Part.lkOutlet, Part.lkLatch] ++ [Part.lkConf, Part.lkRest,
      Part.txl, Part.safe, Part.ll, Part.mgr, Part.wrk, Part.hostSessions, Part.hostOps, Part.hostJournal,
      Part.hostRest, Part.locker, Part.fw, Part.tamper, Part.log] ++ [Part.flt, Part.pwr, Part.merStage])
  | .resultHoldExpiry .. => [.hostOps, .hostJournal]
  | .chunkTimeout .. => [.hostRest, .fw]
  | .hspiReadTransaction .. => [.hostRest]
  | .recoveryEnd .. =>
     [.landfall, .outlet, .txl, .hostSessions, .hostOps, .hostJournal, .hostRest, .locker, .fw, .log, .flt]
  | .recoveredHoldExpiry .. => [.hostJournal]
  | .slotOperationBoundary .. => [.txl, .hostSessions, .hostOps, .hostJournal, .hostRest, .locker, .fw]
  | .keyScrub .. => [.locker, .log, .flt]
  | .tamperEvent .. =>
     ([Part.landfall, Part.sxChannel, Part.sxCell, Part.sxStage, Part.sxAux, Part.sxSd, Part.sxLaw, Part.sxFix,
      Part.sxCount, Part.sxRest, Part.outlet, Part.rdr, Part.lkOut, Part.lkOutlet, Part.lkLatch] ++ [Part.lkRest,
      Part.txl, Part.wrk, Part.hostOps, Part.hostJournal, Part.locker, Part.fw, Part.tamper, Part.log, Part.flt])
  | .tamperSourceCeases .. => [.tamper]
  | .firstStartSuccess .. =>
     ([Part.landfall, Part.sxChannel, Part.sxCell, Part.sxStage, Part.sxAux, Part.sxLaw, Part.sxRest, Part.outlet,
      Part.rdr, Part.merFe, Part.merLeg, Part.merChr, Part.merTar, Part.merRest, Part.lkOut] ++ [Part.lkOutlet,
      Part.lkLatch, Part.lkRest, Part.wrk, Part.hostOps, Part.hostJournal, Part.fw, Part.log, Part.flt])
  | .firstStartFailure .. =>
     ([Part.sxChannel, Part.sxCell, Part.sxStage, Part.sxAux, Part.sxLaw, Part.sxRest, Part.outlet, Part.rdr,
      Part.merFe, Part.merLeg, Part.merChr, Part.merTar, Part.merRest, Part.lkOut, Part.lkOutlet] ++ [Part.lkLatch,
      Part.lkRest, Part.wrk, Part.hostOps, Part.hostJournal, Part.fw, Part.log, Part.flt])
  | .porstRise .. => [.landfall]
  | .porstFall .. =>
     ([Part.free, Part.landfall, Part.chart, Part.cfg, Part.sxChannel, Part.sxCell, Part.sxStage, Part.sxAux,
      Part.sxSd, Part.sxLaw, Part.sxFix, Part.sxCount, Part.sxRest, Part.outlet, Part.cooling] ++ [Part.drive,
      Part.rdr, Part.merChr, Part.merRest, Part.disp, Part.lkIn, Part.lkOut, Part.lkOutlet, Part.lkLatch,
      Part.lkRest, Part.txl, Part.safe, Part.ll, Part.mgr, Part.wrk] ++ [Part.hostSessions, Part.hostOps,
      Part.hostJournal, Part.hostRest, Part.locker, Part.fw, Part.tamper, Part.log, Part.flt, Part.pwr])
  | .coreSupplyDip .. =>
     ([Part.free, Part.landfall, Part.chart, Part.cfg, Part.sxChannel, Part.sxCell, Part.sxStage, Part.sxAux,
      Part.sxSd, Part.sxLaw, Part.sxFix, Part.sxCount, Part.sxRest, Part.outlet, Part.cooling] ++ [Part.drive,
      Part.rdr, Part.merLeg, Part.merChr, Part.merTar, Part.disp, Part.lkOut, Part.lkOutlet, Part.lkLatch,
      Part.lkRest, Part.txl, Part.ll, Part.mgr, Part.wrk, Part.hostSessions] ++ [Part.hostOps, Part.hostJournal,
      Part.hostRest, Part.locker, Part.fw, Part.tamper, Part.log, Part.flt, Part.pwr])
  | .coreSupplyReturn .. => [.landfall, .log, .flt, .pwr]
  | .lookoutRailDip .. =>
     [.sxChannel, .sxCell, .sxStage, .sxAux, .sxLaw, .sxRest, .outlet, .rdr, .lkOut, .lkOutlet, .lkLatch, .lkRest,
      .safe, .wrk, .log, .flt, .pwr]
  | .helmRestartEarly .. =>
     ([Part.landfall, Part.chart, Part.cfg, Part.sxChannel, Part.sxCell, Part.sxStage, Part.sxAux, Part.sxSd,
      Part.sxLaw, Part.sxFix, Part.sxCount, Part.sxRest, Part.outlet, Part.rdr, Part.disp] ++ [Part.lkOut,
      Part.lkOutlet, Part.lkLatch, Part.lkRest, Part.ll, Part.mgr, Part.wrk, Part.hostSessions, Part.hostOps,
      Part.hostJournal, Part.hostRest, Part.locker, Part.fw, Part.log, Part.flt])
  | .lookoutChannelsRunning .. =>
     [.landfall, .sxChannel, .sxCell, .sxStage, .sxAux, .sxLaw, .sxRest, .outlet, .rdr, .lkOut, .lkOutlet,
      .lkLatch, .lkRest, .safe, .wrk, .fw, .log, .flt]
  | .meridianMeteringStart .. =>
     ([Part.landfall, Part.sxChannel, Part.sxCell, Part.sxStage, Part.sxAux, Part.sxLaw, Part.sxRest, Part.outlet,
      Part.rdr, Part.merFe, Part.merLeg, Part.merChr, Part.merTar, Part.merRest, Part.lkOut] ++ [Part.lkOutlet,
      Part.lkLatch, Part.lkRest, Part.wrk, Part.fw, Part.log, Part.flt])
  | .helmFirmwareStarted .. | .helmBootRetry .. =>
     ([Part.landfall, Part.sxChannel, Part.sxCell, Part.sxStage, Part.sxAux, Part.sxSd, Part.sxLaw, Part.sxFix,
      Part.sxCount, Part.sxRest, Part.outlet, Part.rdr, Part.lkOut, Part.lkOutlet, Part.lkLatch] ++ [Part.lkRest,
      Part.txl, Part.wrk, Part.locker, Part.fw, Part.tamper, Part.log, Part.flt])
  | .chartSourceChosen .. => [.landfall, .chart, .cfg, .fw, .log, .flt]
  | .sextantImageLoaded .. => [.landfall, .sxRest, .fw]
  | .chartSectionsDistributed .. =>
     [.landfall, .chart, .sxChannel, .sxCell, .sxStage, .sxAux, .sxLaw, .sxRest, .outlet, .rdr, .com, .lkOut,
      .lkOutlet, .lkLatch, .lkRest, .mgr, .wrk, .tamper, .log, .flt]
  | .hostReady .. =>
     ([Part.landfall, Part.sxChannel, Part.sxCell, Part.sxStage, Part.sxAux, Part.sxLaw, Part.sxRest, Part.outlet,
      Part.rdr, Part.merMail, Part.lkOut, Part.lkOutlet, Part.lkLatch, Part.lkRest, Part.txl] ++ [Part.ll,
      Part.mgr, Part.wrk, Part.hostRest, Part.log, Part.flt])
  | .selfTestsComplete .. =>
     ([Part.landfall, Part.sxChannel, Part.sxCell, Part.sxStage, Part.sxAux, Part.sxLaw, Part.sxRest, Part.outlet,
      Part.rdr, Part.merLeg, Part.disp, Part.lkOut, Part.lkOutlet, Part.lkLatch, Part.lkRest] ++ [Part.txl,
      Part.ll, Part.wrk, Part.locker, Part.log, Part.flt])
  | .landfallComplete .. =>
     [.landfall, .sxChannel, .sxCell, .sxStage, .sxAux, .sxLaw, .sxRest, .outlet, .rdr, .lkOut, .lkOutlet,
      .lkLatch, .lkRest, .mgr, .wrk, .log, .flt, .pwr]
  | .helmCorePairMismatch .. =>
     ([Part.landfall, Part.chart, Part.cfg, Part.sxChannel, Part.sxCell, Part.sxStage, Part.sxAux, Part.sxSd,
      Part.sxLaw, Part.sxFix, Part.sxCount, Part.sxRest, Part.outlet, Part.rdr, Part.merFe] ++ [Part.merLeg,
      Part.merChr, Part.merTar, Part.merRest, Part.disp, Part.lkOut, Part.lkOutlet, Part.lkLatch, Part.lkRest,
      Part.ll, Part.mgr, Part.wrk, Part.hostSessions, Part.hostOps, Part.hostJournal] ++ [Part.hostRest,
      Part.locker, Part.fw, Part.log, Part.flt])
  | .sextantCoreMismatch .. =>
     ([Part.sxChannel, Part.sxCell, Part.sxStage, Part.sxAux, Part.sxLaw, Part.sxRest, Part.outlet, Part.rdr,
      Part.merFe, Part.merLeg, Part.merChr, Part.merTar, Part.merRest, Part.lkOut, Part.lkOutlet] ++ [Part.lkLatch,
      Part.lkRest, Part.mgr, Part.wrk, Part.hostOps, Part.hostJournal, Part.fw, Part.log, Part.flt])
  | .sextantSupervisorRestart .. | .islandRestart .. => [.sxRest, .log, .flt]
  | .meridianCoreFault .. =>
     ([Part.sxChannel, Part.sxCell, Part.sxStage, Part.sxAux, Part.sxLaw, Part.sxRest, Part.outlet, Part.rdr,
      Part.merFe, Part.merLeg, Part.merChr, Part.merTar, Part.merRest, Part.lkOut, Part.lkOutlet] ++ [Part.lkLatch,
      Part.lkRest, Part.wrk, Part.hostOps, Part.hostJournal, Part.fw, Part.log, Part.flt])
  | .islandClockLoss .. =>
     ([Part.landfall, Part.chart, Part.cfg, Part.sxChannel, Part.sxCell, Part.sxStage, Part.sxAux, Part.sxSd,
      Part.sxLaw, Part.sxFix, Part.sxCount, Part.sxRest, Part.outlet, Part.rdr, Part.merFe] ++ [Part.merLeg,
      Part.merChr, Part.merTar, Part.merRest, Part.disp, Part.lkOut, Part.lkOutlet, Part.lkLatch, Part.lkRest,
      Part.txl, Part.safe, Part.ll, Part.mgr, Part.wrk, Part.hostSessions] ++ [Part.hostOps, Part.hostJournal,
      Part.hostRest, Part.locker, Part.fw, Part.log, Part.flt])
  | .scrubPass .. => [.log, .flt]
  | .doubleBitError .. =>
     ([Part.free, Part.landfall, Part.chart, Part.cfg, Part.sxChannel, Part.sxCell, Part.sxStage, Part.sxAux,
      Part.sxSd, Part.sxLaw, Part.sxFix, Part.sxCount, Part.sxRest, Part.outlet, Part.rdr] ++ [Part.merFe,
      Part.merLeg, Part.merChr, Part.merTar, Part.merRest, Part.disp, Part.lkOut, Part.lkOutlet, Part.lkLatch,
      Part.lkRest, Part.safe, Part.ll, Part.mgr, Part.wrk, Part.hostSessions] ++ [Part.hostOps, Part.hostJournal,
      Part.hostRest, Part.locker, Part.fw, Part.log, Part.flt])
  | .analogSupplyDip .. =>
     [.landfall, .sxChannel, .sxCell, .sxStage, .sxAux, .sxLaw, .sxRest, .outlet, .rdr, .lkOut, .lkOutlet,
      .lkLatch, .lkRest, .wrk, .log, .flt, .pwr]
  | .analogSupplyReturn .. => [.landfall, .log, .flt, .pwr]
  | .logRecordWrite .. => [.hostSessions, .hostRest, .log]
  | .logbookScanEnd .. => [.log]
  | .rungDown .. =>
     ([Part.landfall, Part.sxChannel, Part.sxCell, Part.sxStage, Part.sxAux, Part.sxLaw, Part.sxRest, Part.outlet,
      Part.rdr, Part.merLeg, Part.merChr, Part.merRest, Part.disp, Part.lkOut, Part.lkOutlet] ++ [Part.lkLatch,
      Part.lkRest, Part.wrk, Part.hostSessions, Part.hostOps, Part.hostJournal, Part.hostRest, Part.locker,
      Part.fw, Part.log, Part.flt, Part.pwr])
  | .quietConditionCeases .. | .mainRailsReturn .. => [.pwr]
  | .wakeEvent .. | .wkAlarm .. =>
     ([Part.landfall, Part.chart, Part.cfg, Part.sxChannel, Part.sxCell, Part.sxStage, Part.sxAux, Part.sxSd,
      Part.sxLaw, Part.sxFix, Part.sxCount, Part.sxRest, Part.outlet, Part.rdr, Part.merLeg] ++ [Part.merChr,
      Part.merTar, Part.disp, Part.lkOut, Part.lkOutlet, Part.lkLatch, Part.lkRest, Part.txl, Part.safe, Part.wrk,
      Part.locker, Part.fw, Part.tamper, Part.log, Part.flt] ++ [Part.pwr])
  | .vbatSwitchover .. | .vbatLoss .. => [.merChr, .pwr]

/-- The operation that a command row asks for (Table 16-6), where its frame alone says it. -/
def operationOf : Instr → Option (Frame × HostCmd)
  | .barrier f => some (f, .barrier)
  | .healthGet f => some (f, .healthGet)
  | .journalRead f opId count => some (f, .journalRead opId count)
  | .logRead f recNo count => some (f, .logRead recNo count)
  | .readParam f addr count => some (f, .readParam addr count)
  | .writeParam f addr words => some (f, .writeParam addr words)
  | .engImpLoRead f inst => some (f, .readParam (regAddr 0x30 (0x500 + inst) 0x020) 1)
  | .tar1ImpLoRead f o => some (f, .readParam (regAddr 0x30 (0x800 + o) 0x000) 1)
  | .chrTimeLoRead f => some (f, .readParam (regAddr 0x30 0x700 0x000) 1)
  | .recordSelectWrite f sel index => some (f, .writeParam (selAddr sel) [BitVec.ofNat 32 index])
  | .metroCommit f => some (f, .writeParam (regAddr 0x30 0x300 0x008) [1])
  | .telFix f scope peakClear => some (f, .telFix scope peakClear)
  | .sessionAuthorise f o decision hash => some (f, .sessionAuthorise o decision hash)
  | .sessionAuthoriseCert f o hash k => some (f, .sessionCert o hash k)
  | .sessionStop f o => some (f, .sessionStop o)
  | .authTableLoad f k => some (f, .authTableLoad k)
  | .accountAddCredit f acct value => some (f, .accountLoad acct 1 value)
  | .accountSetEmerg f acct value => some (f, .accountLoad acct 2 value)
  | .accountSetEmergMode f acct value => some (f, .accountLoad acct 3 value)
  | .accountRequestEmerg f acct value => some (f, .accountLoad acct 4 value)
  | .siteLimitSet f pSite classes => some (f, .siteLimitSet pSite classes)
  | .weatherHold f minutes => some (f, .weatherHold minutes)
  | .scrollSet f items => some (f, .scrollSet items)
  | .displayRect f x0 y0 w h pix => some (f, .displayRect x0 y0 w h pix)
  | .tariffLoad f k => some (f, .tariffLoad k)
  | .clockSet f time => some (f, .clockSet time)
  | .billingClose f => some (f, .billingClose)
  | .safetyConfirm f value => some (f, .safetyConfirm value false)
  | .safetyConfirmRevoke f value => some (f, .safetyConfirm value true)
  | .latchClearStage f index => some (f, .latchClear 1 index)
  | .latchClearCell f index => some (f, .latchClear 2 index)
  | .latchClearOutlet f index => some (f, .latchClear 3 index)
  | .latchClearSafety f index => some (f, .latchClear 4 index)
  | .latchClearDisplay f index => some (f, .latchClear 5 index)
  | .latchClearTamperHold f index => some (f, .latchClear 6 index)
  | .keyImport f slot wrapSlot attrs wrapped u up => some (f, .keyImport slot wrapSlot attrs wrapped u up)
  | .keyDerive f parent child attrs context up => some (f, .keyDerive parent child attrs context up)
  | .keyInvalidate f slot => some (f, .keyInvalidate slot)
  | .keyUseEncrypt f slot iv aad data up => some (f, .keyEncrypt slot iv aad data up)
  | .keyUseDecrypt f slot iv aad data gcmOk up => some (f, .keyDecrypt slot iv aad data gcmOk up)
  | .keyUseSign f slot msg up => some (f, .keySign slot msg up)
  | .keyUseVerify f slot sig msg valid up => some (f, .keyVerify slot sig msg valid up)
  | .keyUseMac f slot msg up => some (f, .keyMac slot msg up)
  | .keyUsePublic f slot up => some (f, .keyPublic slot up)
  | .attest f nonce up => some (f, .attest nonce up)
  | .fwStage f target k => some (f, .fwStage target k)
  | .fwVerify f target sigOk up => some (f, .fwVerify target sigOk up)
  | .fwActivate f target => some (f, .fwActivate target)
  | .unknownCommand f code => some (f, .unknown code.toNat)
  | _ => none

/-- A new frame of an open session, on a transport that takes frames (R385, R389, R390): its length and its MAC are
    those of the
command's code and payload. -/
structure Received (s : State) (f : Frame) (code : Nat) (body : Bytes) (x : Session) : Prop where
  open_ : transportOpen s f.via = true
  session : frameSession s f code body = some x
  fresh : seqNew x f.seq = true

/-- The frame is accepted as operation `c` (R395, R396) and nothing holds it back (R401, R402): `u` is the state in
    which
its effect takes place, `op` the operation. No operation waiting has its OP_ID. -/
structure Accepted (s : State) (f : Frame) (c : HostCmd) (x : Session) (u : State) (op : Op) : Prop where
  received : Received s f c.code c.body x
  admitted : admission (noteFrame s f) x.role x.sid f c = .ok
  room : lacking (noteFrame s f) x.sid (clsOf f) c = none
  distinct : ∀ y ∈ s.host.ops, y.opId ≠ s.host.nextOp
  order : ∀ y ∈ s.host.ops, y.sid = x.sid → y.complete = false → y.cls ≠ f.cls ∧ y.cmd ≠ .barrier ∧ c ≠ .barrier
  deciding : c.toMeridian = true → s.mer.mail.length < 16
  state : u = setRunning (recordOp (noteFrame s f) ((findSession (noteFrame s f) f.sid).getD x) f c) (opOf s x f c)
  operation : op = opOf s x f c

/-- `s` after the operation `id` has taken the key of slot `k` into use (R425): it holds the slot, and the use is counted. -/
def usedBy (s : State) (k : Fin 128) (id : Nat) : State :=
  useSlot (updSlot s k fun y => { y with users := id :: y.users }) k 1

/-- The frame is accepted as a control command (R395, R396): `u` is the state in which it is answered. -/
structure ControlAccepted (s : State) (f : Frame) (code : Nat) (body : Bytes) (x : Session) (u : State) : Prop where
  received : Received s f code body x
  cls : f.cls ≤ 5
  layout : f.raw = none
  token : 1000 ≤ (s.host.cls[(0 : Fin 6)]).milli
  state : u = updClass (noteFrame s f) 0 fun k => { k with milli := k.milli - 1000, acc := min 4294967295 (k.acc +
      1) }

end Sys2Proof.Machine
end

