-- ==== Sys2Proof/Certificates/Slice0/Obligations.lean ====
section
/-!
DEFINITION. The statements for the provers. `open` brings the model's names; every statement stands for itself.
-/
open Sys2Proof Sys2Proof.Machine

/-- START, the precharge, the close and the exit from NO_SINK of an output stage (R116 to R123): each command answers the
state that its rule gives, whenever its condition holds. -/
def Obligations.StageStartCompletes : Prop :=
  (∀ s g, startRefusal s g = 0 → exec (.stageStart g) s = .next (withStages s fun t => beginStart t g))
  ∧ (∀ s g n, startRefusal s g = n + 1 → exec (.stageStart g) s =
      .next (withStages (updStage s g fun x => { x with startRefused := n + 1 }) fun t => startRefusedTo t g))
  ∧ (∀ s g, starting s g = true → isOutputStage s g = true → (stageOutlets s g).any (readingsAgree s g) = false →
      ∃ t, exec (.vehicleVoltageDisagree g) s = .next t ∧ t.sx.stage[g].st = .off ∧ t.sx.stage[g].fail = 1)
  ∧ (∀ s o mV, exec (.vehicleVoltageForward o mV) s =
      .next (updOutlet s o fun x => { x with vMer := mV, vMerAt := some s.mono }))
  ∧ (∀ s g, s.sx.stage[g].st = .precharge → stgKind s g ≠ 4 → prechargeBand s g = true →
      (stageOutlets s g).all (vMerFresh s) = true →
      exec (.prechargeComplete g) s = .next (updStage s g fun x => { x with st := .closeWait, noSinkRestr := true }))
  ∧ (∀ s g, s.sx.stage[g].st = .closeWait → prechargeBand s g = false →
      ∃ t, exec (.closeWaitBandLost g) s = .next t ∧ t.sx.stage[g].st = .precharge
        ∧ t.sx.stage[g].noSinkRestr = s.sx.stage[g].noSinkRestr ∧ ∀ o ∈ stageOutlets s g, t.lk.outlet[o].wait = none)
  ∧ (∀ s g, starting s g = true →
      ∃ t, exec (.preTimeoutExpiry g) s = .next t ∧ t.sx.stage[g].st = .off ∧ t.sx.stage[g].fail = 2)
  ∧ (∀ s g, s.sx.stage[g].st = .closeWait →
      ∃ t, exec (.closeRefused g) s = .next t ∧ t.sx.stage[g].st = .off ∧ t.sx.stage[g].fail = 3)
  ∧ (∀ s g, s.sx.stage[g].st = .closeWait → (stageOutlets s g).all (fun o => s.lk.outlet[o].closed) = true →
      exec (.contactorsConfirmed g) s = .next ((stageOutlets s g).foldl
        (fun t o => outletConfirmed (setFeedback t o false) g o)
        (reshare (updStage s g fun x => { x with st := .noSink, limNow := 0, limAt := s.mono }) g)))
  ∧ (∀ s g, s.sx.stage[g].st = .noSink → iMin s g ≤ stageCur s g →
      exec (.noSinkExit g) s = .next (updStage s g fun x => { x with st := .run, lift := true }))

/-- STOP, the ramp's end, discharge, and Helm's heartbeat (R25 to R27, R116, R126, R127). -/
def Obligations.StageStopCompletes : Prop :=
  (∀ s g, s.sx.stage[g].st = .precharge ∨ s.sx.stage[g].st = .closeWait →
      ∃ t, exec (.stageStop g) s = .next t ∧ t.sx.stage[g].st = .off)
  ∧ (∀ s g, s.sx.stage[g].st = .noSink ∨ s.sx.stage[g].st = .run →
      ∃ t, exec (.stageStop g) s = .next t ∧ t.sx.stage[g].st = .rampDown)
  ∧ (∀ s g, s.sx.stage[g].st = .rampDown → stageCur s g < iMin s g → s.sx.stage[g].byHelm = true →
      ∃ t, exec (.rampDownComplete g) s = .next t ∧ t.sx.stage[g].st = .off)
  ∧ (∀ s g, s.sx.stage[g].st = .rampDown → stageCur s g < iMin s g → s.sx.stage[g].byHelm = false →
      isOutputStage s g = true → ∃ t, exec (.rampDownComplete g) s = .next t ∧ t.sx.stage[g].st = .rampDown)
  ∧ (∀ s g, s.sx.stage[g].st = .rampDown → s.sx.stage[g].parked = true →
      (stageOutlets s g).all (fun o => !s.lk.outlet[o].closed) = true → canDischarge s g = true →
      exec (.dischargeRequest g) s = .next (reshare (updStage s g fun x =>
        { x with st := .discharge, parked := false, noSinkRestr := false }) g))
  ∧ (∀ s g, s.sx.stage[g].st = .rampDown → s.sx.stage[g].parked = true →
      (stageOutlets s g).all (fun o => !s.lk.outlet[o].closed) = true → canDischarge s g = false →
      ∃ t, exec (.dischargeRequest g) s = .next t ∧ t.sx.stage[g].st = .off)
  ∧ (∀ s g, s.sx.stage[g].st = .discharge → vOut s g < 50 * unit31 →
      ∃ t, exec (.dischargeComplete g) s = .next t ∧ t.sx.stage[g].st = .off)
  ∧ (∀ s g, s.sx.stage[g].st = .discharge →
      ∃ t, exec (.dischTExpiry g) s = .next t ∧ t.sx.stage[g].st = .off ∧ t.sx.stage[g].fail = 4)
  ∧ (∀ s, s.landfall.helmUp = true → s.sx.up = true → s.sx.helmLost = false →
      exec .laneHeartbeat s = .next { s with sx := { s.sx with beating := true, helmLost := false } })
  ∧ (∀ s, s.landfall.helmUp = true → s.sx.up = true → s.sx.helmLost = true →
      exec .laneHeartbeat s =
        .next (logClear { s with sx := { s.sx with beating := true, helmLost := false } } 0x0406 .sextant 0))
  ∧ (∀ s, s.sx.beating = true → exec .heartbeatLoss s = .next (withStages
      (logDetect { s with sx := { s.sx with beating := false, helmLost := true } } 0x0406 .sextant 0)
      fun u => (List.finRange 8).foldl loseHelm u))
  ∧ (∀ s g iSet vSet, s.sx.up = true → ∃ t, exec (.laneSetpointUpdate g iSet vSet) s = .next t
      ∧ t.sx.stage[g].iSet = iSet ∧ t.sx.stage[g].vCmd = vSet
      ∧ t.sx.stage[g].vSet = (takeVSet s g vSet s.sx.stage[g]).vSet
      ∧ t.sx.stage[g].vGoal = (takeVSet s g vSet s.sx.stage[g]).vGoal)
  ∧ (∀ s, exec .postSplitRecompute s = .next (postSplit s))

/-- Every cause of Table 05-5 that a command carries leaves the stage LATCHED with its cause recorded, from each state in
which R116 lets it act; and the two retirements of R139 take their cell out. -/
def Obligations.LatchesComplete : Prop :=
  (∀ s g, (s.sx.stage[g].st = .noSink ∨ s.sx.stage[g].st = .run) → stageCur s g < -reverseBound s g →
      ∃ t, exec (.reverseCurrentLatch g) s = .next t ∧ LatchedBy t g .reverse)
  ∧ (∀ s c g, cellStage s c = some g → s.sx.stage[g].st.running = true →
      cfgN s 0x11 g 0x050 31 24 ≤ s.sx.cell[c].cbcRun + flag s.sx.cell[c].cbcHit →
      ∃ t, exec (.cbcLatch c) s = .next t ∧ LatchedBy t g .cbc)
  ∧ (∀ s (g : Fin 8), cfgN s 0x11 g 0x050 15 0 ≠ 0 → s.sx.stage[g].st.running = true →
      cfgN s 0x11 g 0x050 15 0 * unit31 < stageCur s g →
      ∃ t, exec (.oclLatch g) s = .next t ∧ LatchedBy t g .ocl)
  ∧ (∀ s n g, channelStage s n = some g →
      ∃ t, exec (.fltNAssert n none) s = .next t ∧ LatchedBy t g .flt)
  ∧ (∀ s n g w, channelStage s n = some g → 5000 ≤ w →
      ∃ t, exec (.fltNAssert n (some w)) s = .next t ∧ LatchedBy t g .flt)
  ∧ (∀ s n w, w ≤ 2000 →
      exec (.fltNAssert n (some w)) s = .next (updChannel s n fun x => { x with fltIn := false }))
  ∧ (∀ s n g w, channelStage s n = some g → 2000 < w → w < 5000 →
      ∃ t, exec (.fltNAssert n (some w)) s = .next t ∧ t.free = s.free + 1
        ∧ (Config.freeBit s.free = true → LatchedBy t g .flt)
        ∧ (Config.freeBit s.free = false → t.sx.stage = s.sx.stage))
  ∧ (∀ s n g high, channelStage s n = some g →
      ∃ t, exec (.readbackMismatch n high) s = .next t ∧ LatchedBy t g .readback)
  ∧ (∀ s n high, channelStage s n = none → ∃ t, exec (.readbackMismatch n high) s = .next t
      ∧ (if high then t.sx.channel[n].rbErrH = true else t.sx.channel[n].rbErrL = true))
  ∧ (∀ s i g, 3 ≤ s.sx.law[i].ovrConsec → lawStage s i = some g → s.sx.stage[g].st ≠ .off →
      ∃ t, exec (.overrunLatch i) s = .next t ∧ LatchedBy t g .overrun)
  ∧ (∀ s i, 3 ≤ s.sx.law[i].ovrConsec → lawStage s i = none → s.sx.law[i].stopped = false →
      ∃ t, exec (.overrunLatch i) s = .next t ∧ t.sx.law[i].stopped = true ∧ t.sx.law[i].ready = none
        ∧ t.sx.law[i].out = none)
  ∧ (∀ s lineB g, s.sx.stage[g].st ≠ .off →
      ∃ t, exec (.gatePermitFall lineB) s = .next t ∧ LatchedBy t g .permit)
  ∧ (∀ s c g, cellStage s c = some g → s.sx.stage[g].st.running = true → cellOpen s g c = true →
      exec (.cellOpenRetire c) s = .next (withStages s fun t => retireCell t g c 1))
  ∧ (∀ s c g, cellStage s c = some g → s.sx.stage[g].st.running = true → s.sx.cell[c].st = .estimated →
      sdInvalid s (cellSrc s c) = true →
      exec (.estTExpiry c) s = .next (reshare (updCell s c fun x => { x with rampOut := true, ramp := 0 }) g))

/-- The front end's precharge, the requests for the outputs of kinds 3 and 4, and its automatic start and stop (R125,
R488). -/
def Obligations.FrontEndCompletes : Prop :=
  (∀ s g, s.sx.stage[g].st = .precharge → stgKind s g = 4 → vMinReached s g = true → acMainClosed s = true →
      linkPrechargeOff s = true → omegaSteady s g = true → exec (.afe3PrechargeComplete g) s =
        .next (updAux (updStage s g fun x => { x with
          st := .run, parked := false, vSet := vOut s g / 2000, vGoal := some x.vCmd }) g fun a =>
          { a with vAt := s.mono }))
  ∧ (∀ s g, stgKind s g = 4 → s.landfall.phase = 9 → safetyConfirmed s = true → permitHigh s = true →
      afeWanted s g = true → s.sx.stage[g].st = .off → exec (.afe3AutoStart g) s = .next (startStage s g))
  ∧ (∀ s g, s.sx.stage[g].st = .precharge → stgKind s g = 4 → vMinReached s g = true →
      exec (.afe3VminReached g) s = .next (driveKinds { s with lk := { s.lk with kind4 := true } }))
  ∧ (∀ s, acMainClosed s = true → exec .acMainConfirmed s =
      .next (driveKinds { s with lk := { s.lk with kind3 := false } }))
  ∧ (∀ s g, s.sx.stage[g].st = .run → stgKind s g = 4 → afeQuiet s g = true →
      ∃ t, exec (.afe3AutoStop g) s = .next t ∧ t.sx.stage[g].st = .rampDown)

/-- Shedding, adding, load-step firing and the Compass rose (R83, R84, R128 to R134). -/
def Obligations.SheddingCompletes : Prop :=
  (∀ s g c, shedWanted s g = true → mayRamp s g = true → s.sx.stage[g].shedHold = false →
      ((stageCells s g).filter fun c => s.sx.cell[c].st = .inService).getLast? = some c →
      exec (.shedStart g) s = .next (reshare (updCell s c fun x => { x with st := .shedding, ramp := 0 }) g))
  ∧ (∀ s g c, addWanted s g = true → mayRamp s g = true →
      ((stageCells s g).find? fun c => s.sx.cell[c].st = .shed) = some c →
      exec (.addStart g) s = .next (reshare (updStage (clearLaws (updCell s c fun x => { x with st := .adding, ramp := 0 })
        g (lawOfCell s c)) g fun x => { x with needTargets := true }) g))
  ∧ (∀ s g c, s.sx.stage[g].st.running = true →
      ((stageCells s g).find? fun c => s.sx.stage[g].st.running && decide (s.sx.cell[c].st = .shedding)) = some c →
      exec (.shedRampEnd g) s = .next (reshare (updAux (updStage (updCell (parkCell s g c) c fun x =>
        { x with st := .shed, ramp := 0 }) g fun x => { x with needTargets := true }) g fun a =>
        { a with shedCnt := satInc 16 a.shedCnt }) g))
  ∧ (∀ s g c, s.sx.stage[g].st.running = true →
      ((stageCells s g).find? fun c => s.sx.stage[g].st.running && decide (s.sx.cell[c].st = .adding)) = some c →
      exec (.addRampEnd g) s = .next (reshare (updAux (updCell s c fun x => { x with st := .inService, ramp := 0 }) g
        fun a => { a with addCnt := satInc 16 a.addCnt }) g))
  ∧ (∀ s g, s.sx.stage[g].firing = false → exec (.fireRearm g) s = .next (updStage s g fun x => { x with armed := true }))
  ∧ (∀ s g, exec (.shedHoldEnd g) s = .next (updStage s g fun x => { x with shedHold := false }))
  ∧ (∀ s k uV slope tm, cfgB s 0x10 0 (0x040 + 4 * k.val) 31 = true → ∃ t, exec (.uscEvent k uV slope tm) s = .next t
      ∧ t.sx.uscFired = (if uscBelow s k uV = true ∧ 10 * cfgN s 0x10 0 (0x040 + 4 * k.val) 15 8 < slope then
          s.sx.uscFired ||| 2 ^ k.val else s.sx.uscFired)
      ∧ t.sx.uscLevel = s.sx.uscLevel - Nat.land s.sx.uscLevel (2 ^ k.val) + (if uscBelow s k uV then 2 ^ k.val else 0))
  ∧ (∀ s k uV slope tm g, cfgB s 0x10 0 (0x040 + 4 * k.val) 31 = true →
      g = Fin.ofNat 8 (cfgN s 0x10 0 (0x040 + 4 * k.val) 30 28) → uscBelow s k uV = true →
      10 * cfgN s 0x10 0 (0x040 + 4 * k.val) 15 8 < slope → stgKind s g ≠ 4 → cfgB s 0x11 g 0x040 31 = true →
      (s.sx.stage[g].st = .noSink ∨ s.sx.stage[g].st = .run) → s.sx.stage[g].armed = true →
      ∃ t, exec (.uscEvent k uV slope tm) s = .next t
        ∧ t.sx.stage[g].firing = true ∧ t.sx.stage[g].armed = false ∧ t.sx.stage[g].fireI = stageCur s g)
  ∧ (∀ s k uV slope tm, stgKind s (Fin.ofNat 8 (cfgN s 0x10 0 (0x040 + 4 * k.val) 30 28)) = 4 →
      ∃ t, exec (.uscEvent k uV slope tm) s = .next t ∧ t.sx.stage = s.sx.stage ∧ t.sx.aux = s.sx.aux)
  ∧ (∀ s g tm, s.sx.stage[g].firing = true → ∃ t, exec (.fireEnd g tm) s = .next t
      ∧ t.sx.stage[g].firing = false ∧ t.sx.aux[g].fireCnt = satInc 16 s.sx.aux[g].fireCnt)
  ∧ (∀ s g, s.sx.stage[g].needTargets = true →
      ∃ t, exec (.roseTargetsSet g) s = .next t ∧ t.sx.stage[g].needTargets = false)
  ∧ (∀ s g, ((stageCells s g).all fun c => !(s.sx.cell[c].retireNext
        || (s.sx.cell[c].rampOut && decide (shedRamp s g ≤ s.sx.cell[c].ramp)))) = true →
      ∃ t, exec (.roseMoveStep g) s = .next t
        ∧ t.sx.aux[g].phEff = roseStep (48 + g) s.sx.aux[g].phEff s.sx.aux[g].phTgt
        ∧ t.sx.aux[g].refAt = s.sx.aux[g].refAt + carrierPeriod s g
        ∧ t.sx.stage = upd s.sx.stage g fun x =>
            { x with noSinkRestr := x.noSinkRestr && !x.lift, lift := false })

/-- The fabric's and the engine's events (R74, R85 to R93, R105 to R109, R143). -/
def Obligations.FabricCompletes : Prop :=
  (∀ s c g top, cellStage s c = some g → ∃ t, exec (.carrierLoad c top) s = .next t
      ∧ t.sx.cell[c].cbcHit = (s.sx.cell[c].cbcHit && top) ∧ t.sx.stage = s.sx.stage ∧ t.sx.law = s.sx.law)
  ∧ (∀ s tm high, ∃ t, exec (.syncInEdge tm high) s = .next t ∧ t.sx.syncAt = some tm
      ∧ t.sx.syncPeriod = tm - s.sx.syncAt.getD tm ∧ t.sx.stage = s.sx.stage
      ∧ ∀ g : Fin 8, s.sx.aux[g].edgeAt = none → t.sx.aux[g].syncRange = s.sx.aux[g].syncRange)
  ∧ (∀ s g, syncEn s g = true → 16 ≤ s.sx.aux[g].syncRun →
      exec (.syncLockSet g) s = .next (updAux s g fun a => { a with syncLock := true }))
  ∧ (∀ s g, syncEn s g = true → exec (.syncLost g) s =
      .next (updAux s g fun a => { a with syncLost := true, syncLock := false, syncRun := 0, edgeAt := none }))
  ∧ (∀ s count, ∃ t, exec (.ppsInEdge count) s = .next t ∧ t.sx.ppsStamp = count ∧ t.sx.count = count
      ∧ t.sx.ppsNs = some ((s.nowNs + 500000000) / 1000000000 * 1000000000))
  ∧ (∀ s n b tm, sdEn s n = true → sdInvalid s n = false → s.sx.sd[n].bits.head? = some (!b) →
      2 ^ ctlLog s n ≤ s.sx.sd[n].phase + 1 → ∃ t, exec (.sdControlOutput n [b] tm) s = .next t
        ∧ t.sx.sd[n].ctl = satTo 32 (sinc3 (2 ^ ctlLog s n) ((b :: s.sx.sd[n].bits).take (3 * 2 ^ ctlLog s n))
            * 2 ^ (31 - 3 * ctlLog s n)) ∧ t.sx.sd[n].phase = 0)
  ∧ (∀ s n b tm, sdEn s n = true → sdInvalid s n = false → s.sx.sd[n].bits.head? = some (!b) →
      ∃ t, exec (.fastTrip n [b] tm) s = .next t
        ∧ t.sx.sd[n].fast = satTo 16 (sinc2 (fastOsr s n) ((b :: s.sx.sd[n].bits).take (3 * 2 ^ ctlLog s n)))
        ∧ (cfgI s 0x15 n 0x004 31 16 < t.sx.sd[n].fast ∨ t.sx.sd[n].fast < cfgI s 0x15 n 0x004 15 0 →
            t.sx.sd[n].fastTrip = true))
  ∧ (∀ s n, sdEn s n = true → sdInvalid s n = false → ∃ t, exec (.sdStuck n) s = .next t
      ∧ t.sx.sd[n].invalid = true ∧ t.sx.sd[n].ctl = s.sx.sd[n].ctl)
  ∧ (∀ s n, sdInvalid s n = true → s.flt.sdLost.getLsbD (cfgN s 0x15 n 0x000 26 24) = false → ∃ t, exec (.sdInvalidClear n) s = .next t ∧ t.sx.sd[n].invalid = false)
  ∧ (∀ s i tm, lawEn s i = true → lawN s i 0x004 31 30 = 3 → lawHeld s i = false → s.sx.law[i].stopped = false →
      s.sx.law[i].ready = none → s.sx.law[i].out = none → exec (.lawTrigger i tm) s =
        .next (updLaw s i fun l => { l with ready := some tm, ovrConsec := 0, points := 0 }))
  ∧ (∀ s i tm trig, nextReady s = some (i, trig) → s.sx.laneFree ≤ tm + 8 →
      ∃ t, exec (.lawRunStart tm) s = .next t ∧ t.sx.law[i] = lawStart (match lawStage s i with
        | some g => sampleStage (seeCount s tm) g
        | none => seeCount s tm) i trig)
  ∧ (∀ s i tm r, s.sx.law[i].out = some r → ∃ t, exec (.lawOutputWrite i tm) s = .next t
      ∧ t.sx.law[i].out = none ∧ t.sx.law[i].y0 = r.y0 ∧ t.sx.law[i].y1 = r.y1 ∧ t.sx.law[i].omega = r.omega)
  ∧ (∀ s, s.flt.island[11].lost = false → exec .telemetryTick s = .next ((List.finRange 8).foldl telStage s))
  ∧ (∀ s, s.flt.island[11].lost = true → exec .telemetryTick s = .next s)

/-- Lookout's inputs, channels, resets and Landfall messages (R297 to R304, R312, R489): each command's own effect, and then
what `settle` makes of it. -/
def Obligations.SafetyInputCompletes : Prop :=
  (∀ s n a b us, ∃ u, exec (.safetyInputChange n a b us) s = .next (settle s u)
      ∧ (u.lk.si[n].st, u.lk.si[n].a, u.lk.si[n].b, u.lk.si[n].bothSeen) =
        (let y := acceptLines s n (filtered s n s.lk.si[n].a a us) (filtered s n s.lk.si[n].b b us) s.lk.si[n]
         (y.st, y.a, y.b, y.bothSeen))
      ∧ u.lk.so = s.lk.so ∧ u.sx = s.sx)
  ∧ (∀ s n, (lineDemand s n s.lk.si[n].a s.lk.si[n].b).1 ≠ (lineDemand s n s.lk.si[n].a s.lk.si[n].b).2 →
      ∃ u, exec (.discrepancyFault n) s = .next (settle s u) ∧ u.lk.si[n].st = .discrepancy
        ∧ u.lk.si[n].discCnt = satInc 8 s.lk.si[n].discCnt ∧ u.flt.lastCode = 0x0603)
  ∧ (∀ s (k : Fin 4) sideB samples n, fedBy s n k = true → suspended s 9 = false →
      (∀ p ∈ samples, (if sideB then p.2 else p.1).getLsbD n = true) →
      s.lk.si[n].tpBad[(if sideB then 1 else 0 : Fin 4)] = true →
      ∃ u, exec (.testPulse k sideB samples) s = .next (settle s u) ∧ u.lk.si[n].st = .testPulse
        ∧ u.lk.si[n].tpCnt = satInc 8 s.lk.si[n].tpCnt)
  ∧ (∀ s (k : Fin 4) sideB samples n, fedBy s n k = true → suspended s 9 = false →
      (∃ p ∈ samples, (if sideB then p.2 else p.1).getLsbD n = false) →
      (∀ p ∈ samples, (if sideB then p.1 else p.2).getLsbD n = true) →
      ∃ u, exec (.testPulse k sideB samples) s = .next (settle s u) ∧ u.lk.si[n].st = s.lk.si[n].st
        ∧ u.lk.si[n].tpBad[(if sideB then 1 else 0 : Fin 4)] = false)
  ∧ (∀ s (a b : LkImage), s.lk.runA = true → s.lk.runB = true → a.fns = b.fns → a.outs = b.outs →
      (a.inputs ^^^ b.inputs) &&& s.lk.inputDiff = 0 →
      exec (.crossCompareExchange a b) s = .next { s with lk := { s.lk with inputDiff := a.inputs ^^^ b.inputs } })
  ∧ (∀ s (a b : LkImage), s.lk.runA = true → s.lk.runB = true →
      (a.fns ≠ b.fns ∨ a.outs ≠ b.outs ∨ (a.inputs ^^^ b.inputs) &&& s.lk.inputDiff ≠ 0) →
      ∃ u, exec (.crossCompareExchange a b) s = .next (settle s u) ∧ u.lk.xcmp = true
        ∧ u.lk.xcmpCnt = satInc 16 s.lk.xcmpCnt ∧ u.flt.lastCode = 0x0204)
  ∧ (∀ s ch, ∃ u, exec (.lookoutChannelRestart ch) s = .next (settle s u) ∧ u.lk.restarting = true
        ∧ u.lk.agreed = false ∧ u.lk.restartCnt = satInc 16 s.lk.restartCnt ∧ u.lk.outlet[0].holster = 0
        ∧ u.lk.outlet[1].holster = 0 ∧ u.safe.chan[ch] = freshChan s.mono)
  ∧ (∀ s, s.lk.runA = true → s.lk.runB = true →
      ∃ u, exec .channelsAgreed s = .next (settle s u) ∧ u.lk = { s.lk with
        agreed := true, restarting := false, tpAt := s.mono })
  ∧ (∀ s ms, cfgB s 0x40 0 0x020 29 = true → s.lk.press = some ms → 100 ≤ ms → ms ≤ 5000 →
      inDemand s (Fin.ofNat 16 (cfgN s 0x40 0 0x020 28 25)) = false →
      exec .resetPress s = .next (settle s (resetModule { s with lk := { s.lk with press := none } })))
  ∧ (∀ s (o : Fin 2), cfgB s 0x40 (0x30 + o) 0x000 13 = true → suspended s 15 = false →
      outletInput s o 13 31 28 = false → (s.lk.outlet[o]).holster = 1 →
      held100 s (Fin.ofNat 16 (cfgN s 0x40 (0x30 + o) 0x000 31 28)) o = true →
      exec (.holsterTestSeen o) s = .next (settle s (updLko s o fun x => { x with holster := 2 })))
  ∧ (∀ s, s.landfall.phase = 9 → exec .landfallCompleteMessage s =
      .next (settle s { s with lk := { s.lk with landfallDone := true } }))
  ∧ (∀ s, exec .landfallStartMessage s = .next (settle s { s with lk := { s.lk with landfallDone := false } }))
  ∧ (∀ s, exec .sextantResetSeen s = .next (settle s { s with lk := { s.lk with landfallDone := false } }))

/-- Output tests and feedback, contactor and lock requests (R306 to R310, R313, R323, Table 12-4a). -/
def Obligations.SafetyOutputCompletes : Prop :=
  (∀ s n sideB, soKind s n ≠ 0 → s.lk.so[n].since + tFb s n ≤ s.mono → suspended s 8 = false →
      exec (.offTest n sideB true) s =
      .next (updSo s n fun x => if sideB then { x with sol := x.cmd } else { x with soh := x.cmd }))
  ∧ (∀ s n sideB, soKind s n ≠ 0 → s.lk.so[n].since + tFb s n ≤ s.mono → suspended s 8 = false →
      s.lk.so[n].fault = 0 →
      ∃ u, exec (.offTest n sideB false) s = .next (settle s u) ∧ u.lk.so[n].fault = 1 ∧ u.lk.so[n].cmd = false
        ∧ (if sideB then u.lk.so[n].sol = true else u.lk.so[n].soh = true) ∧ u.flt.lastCode = 0x0604)
  ∧ (∀ s n sideB, soKind s n ≠ 0 → s.lk.so[n].fault = 0 →
      ∃ u, exec (.outputReadbackFault n sideB) s = .next (settle s u) ∧ u.lk.so[n].fault = 1 ∧ u.lk.so[n].cmd = false
        ∧ (if sideB then u.lk.so[n].sol = !s.lk.so[n].cmd else u.lk.so[n].soh = !s.lk.so[n].cmd))
  ∧ (∀ s n a b, soKind s n ≠ 0 → s.lk.so[n].since + tFb s n ≤ s.mono →
      (fbEn s n = false ∨ (s.lk.so[n].cmd = false ∧ suspended s 16 = true)) → exec (.feedbackTimeout n a b) s =
        .next (settle s (updSo s n fun x => { x with confOn := x.cmd, confOff := !x.cmd })))
  ∧ (∀ s n, soKind s n ≠ 0 → s.lk.so[n].since + tFb s n ≤ s.mono → fbEn s n = true → s.lk.so[n].cmd = true →
      ∃ u, exec (.feedbackTimeout n false false) s = .next (settle s u) ∧ u.lk.so[n].confOn = true
        ∧ u.lk.so[n].fault = s.lk.so[n].fault)
  ∧ (∀ s n a b, soKind s n ≠ 0 → s.lk.so[n].since + tFb s n ≤ s.mono → fbEn s n = true → s.lk.so[n].cmd = true →
      s.lk.so[n].fault = 0 → (a || b) = true →
      ∃ u, exec (.feedbackTimeout n a b) s = .next (settle s u) ∧ u.lk.so[n].fault = 2 ∧ u.lk.so[n].cmd = false
        ∧ u.flt.lastCode = 0x0601)
  ∧ (∀ s n, soKind s n ≠ 0 → s.lk.so[n].since + tFb s n ≤ s.mono → fbEn s n = true → suspended s 16 = false →
      s.lk.so[n].cmd = false → ∃ u, exec (.feedbackTimeout n true true) s = .next (settle s u)
        ∧ u.lk.so[n].confOff = true ∧ u.lk.so[n].fault = s.lk.so[n].fault)
  ∧ (∀ s n a b, soKind s n ≠ 0 → s.lk.so[n].since + tFb s n ≤ s.mono → fbEn s n = true → suspended s 16 = false →
      s.lk.so[n].cmd = false → (a && b) = false → exec (.feedbackTimeout n a b) s =
        .next (settle s (weld (updSo s n fun x => { x with fba := a, fbb := b }) n)))
  ∧ (∀ s n a b, fbEn s n = true → suspended s 16 = false → soKind s n ≠ 0 → s.lk.so[n].since + tFb s n < s.mono →
      s.lk.so[n].cmd = false → (a && b) = false → exec (.lateWeld n a b) s =
        .next (settle s (weld (updSo s n fun x => { x with fba := a, fbb := b, confOff := false }) n)))
  ∧ (∀ s n a b, fbEn s n = true → soKind s n ≠ 0 → a ≠ b → s.lk.so[n].fault = 0 →
      ∃ u, exec (.feedbackDiscrepancy n a b) s = .next (settle s u) ∧ u.lk.so[n].fault = 4 ∧ u.lk.so[n].cmd = false)
  ∧ (∀ s o, helmMayClose s o (vOutMv s o) = false → exec (.contactorCloseRequest o) s = .next s)
  ∧ (∀ s o, helmMayClose s o (vOutMv s o) = true → closeWaits s o = true →
      exec (.contactorCloseRequest o) s = .next (updLko s o fun x => { x with wait := some ⟨vOutMv s o⟩ }))
  ∧ (∀ s o, helmMayClose s o (vOutMv s o) = true → closeWaits s o = false → closeRefusal s o (vOutMv s o) = 0 →
      ∃ u, exec (.contactorCloseRequest o) s = .next (settle s u) ∧ u.lk.outlet[o].closed = true
        ∧ u.lk.so[soPos s o].cmd = true ∧ u.lk.so[soNeg s o].cmd = true)
  ∧ (∀ s o k, helmMayClose s o (vOutMv s o) = true → closeWaits s o = false → closeRefusal s o (vOutMv s o) = k + 1 →
      exec (.contactorCloseRequest o) s =
        .next (settle s (updLko s o fun x => { x with wait := none, refused := k + 1 })))
  ∧ (∀ s o, ∃ u, exec (.contactorOpenRequest o) s = .next (settle s u) ∧ u.lk.outlet[o].closed = false
        ∧ u.lk.so[soPos s o].cmd = false ∧ u.lk.so[soNeg s o].cmd = false)
  ∧ (∀ s o w, (s.lk.outlet[o]).wait = some w →
      exec (.closeRequestExpiry o) s = .next (updLko s o fun x => { x with wait := none, refused := 7 }))
  ∧ (∀ s o, s.outlet[o].st = .authorised → outType s o ≠ 0 →
      ∃ u, exec (.lockRequest o) s = .next (settle s u) ∧ u.lk.outlet[o].lock = true
        ∧ u.lk.outlet[o].unlockAsked = false ∧ u.outlet[o].tmr.lock = true)
  ∧ (∀ s o, (s.lk.outlet[o]).lock = true → sf5Ok s o = true →
      (s.outlet[o].st = .unlock ∨ s.outlet[o].st = .faulted ∧ below60 s o = true) →
      ∃ u, exec (.unlockRequest o) s = .next (settle s u) ∧ u.lk.outlet[o].lock = false ∧ u.outlet[o].tmr.lock = true)
  ∧ (∀ s o, (s.lk.outlet[o]).lock = true → (s.outlet[o].st = .unlock ∨ s.outlet[o].st = .faulted) →
      (sf5Ok s o = false ∨ s.outlet[o].st = .faulted ∧ below60 s o = false) →
      ∃ u, exec (.unlockRequest o) s = .next (settle s u) ∧ u.lk.outlet[o].lock = true
        ∧ u.lk.outlet[o].unlockAsked = true)
  ∧ (∀ s o, s.outlet[o].st.locked = false →
      exec (.lockFbLost o) s = .next (settle s (updLko s o fun x => { x with lockFb := false })))
  ∧ (∀ s o, s.outlet[o].st.locked = true → exec (.lockFbLost o) s =
      .next (settle s (outletFault (updLko s o fun x => { x with lockFb := false }) o .lock)))
  ∧ (∀ s on, exec (.outputKindRequest 3 on) s = .next (settle s { s with lk := { s.lk with kind3 := on } }))
  ∧ (∀ s on, exec (.outputKindRequest 4 on) s = .next (settle s { s with lk := { s.lk with kind4 := on } }))

/-- Sounding's half-periods, verdicts, pole voltages and self-test (R319 to R322). -/
def Obligations.SoundingCompletes : Prop :=
  (∀ s, ∃ t, exec .soundingHalfPeriod s = .next t ∧ t.lk.inj = !s.lk.inj ∧ ∀ o : Fin 2,
      t.lk.outlet[o].snd.cm = [] ∧ t.lk.outlet[o].snd.halves =
        (halfPeriod s o s.lk.outlet[o].snd.cm (!s.lk.inj) :: s.lk.outlet[o].snd.halves).take 8)
  ∧ (∀ s o, (s.lk.outlet[o]).snd.stRun = false → s.outlet[o].st = .idle → ∃ u,
      exec (.soundingVerdict o) s = .next (settle s u)
      ∧ (u.lk.outlet[o].snd.verdict, u.lk.outlet[o].snd.trip) =
        verdictOf s o (s.lk.outlet[o].snd.verdict, s.lk.outlet[o].snd.trip)
          ((periodValue s o :: (s.lk.outlet[o]).snd.recent).take 2) u.lk.outlet[o].snd.unsettled)
  ∧ (∀ s o (p n : Nat), p ≤ 1200000 → n ≤ 1200000 → ∃ u, exec (.poleVoltageSample o p n) s = .next (settle s u)
      ∧ u.lk.outlet[o].uP = poleMv s o ((((p, n) :: s.lk.outlet[o].pins).take 4).map (·.1))
      ∧ u.lk.outlet[o].uN = poleMv s o ((((p, n) :: s.lk.outlet[o].pins).take 4).map (·.2))
      ∧ u.lk.outlet[o].vL = u.lk.outlet[o].uP - u.lk.outlet[o].uN)
  ∧ (∀ s o, suspended s 10 = false → ∃ t, exec (.soundingSelftestStart o) s = .next t ∧ t.lk.outlet[o].snd.stRun = true
      ∧ t.lk.outlet[o].snd.stCnt = satInc 16 s.lk.outlet[o].snd.stCnt
      ∧ t.lk.outlet[o].snd.rPrev = s.lk.outlet[o].snd.rIso)
  ∧ (∀ s o r, (s.lk.outlet[o]).snd.stRun = true → periodValue s o = some (some r) →
      ∃ u, exec (.soundingSelftestEnd o) s = .next (settle s u)
        ∧ u.lk.outlet[o].snd.stRun = false ∧ u.lk.outlet[o].snd.stFail = !selfTestPasses s o r)
  ∧ (∀ s o, (s.lk.outlet[o]).snd.stRun = true → (∀ r, periodValue s o ≠ some (some r)) →
      ∃ u, exec (.soundingSelftestEnd o) s = .next (settle s u)
        ∧ u.lk.outlet[o].snd.stRun = false ∧ u.lk.outlet[o].snd.stFail = true)
  ∧ (∀ s o, (s.lk.outlet[o]).snd.stFail = true → (s.lk.outlet[o]).snd.stRun = false →
      exec (.soundingSelftestRetry o) s = .next (startSelfTest s o))

/-- The pilot's COND, the vehicle link from the PHY to SessionSetup, and what a request outside the supported set does
(R150 to R156). -/
def Obligations.VehicleLinkCompletes : Prop :=
  (∀ s o high low pp ms pos m, outType s o = 1 → s.landfall.vdda = true → cfgN s 0x20 o 0x00C 15 8 ≤ ms →
      posPlateau s.outlet[o].pilot.drive high = some pos → meanOf pp = some m →
      cfgN s 0x20 o 0x01C 11 0 ≤ m → m ≤ cfgN s 0x20 o 0x01C 27 16 →
      nextCond s o (nextLevel s o pos s.outlet[o].pilot.level) (if s.outlet[o].pilot.drive = .pwm then
        (median (midPhase low)).getD s.outlet[o].pilot.neg else s.outlet[o].pilot.neg) true s.outlet[o].pilot.drive = .ready →
      s.outlet[o].st = .energyTransfer → ∃ t, exec (.pilotCondChange o high low pp ms) s = .next t
      ∧ t.outlet[o].pilot.cond = .ready ∧ t.outlet[o].pilot.pos = pos
      ∧ t.outlet[o].pilot.level = nextLevel s o pos s.outlet[o].pilot.level ∧ t.outlet[o].pilot.sig1Ok = true
      ∧ t.outlet[o].st = .energyTransfer)
  ∧ (∀ s o, outType s o = 1 → s.outlet[o].link.started = true → s.flt.island[(3 : Fin 17)].lost = false →
      s.landfall.pathFail.getLsbD (2 + o.val) = false → exec (.t1sLinkUp o) s =
      .next (updOutlet s o fun x => { x with link := { x.link with phyUp := true } }))
  ∧ (∀ s o m, outType s o = 2 → s.outlet[o].link.started = true → s.outlet[o].pilot.pwmBegun = true →
      slacStage m = s.outlet[o].link.slac + 1 → slacStage m < 5 → exec (.slacMessage o m) s =
      .next (updOutlet s o fun y => { y with link := { y.link with
        slac := slacStage m, spi := y.link.spi ++ (slacSends (slacStage m) []).map spiTransfer } }))
  ∧ (∀ s o, outType s o = 2 → s.outlet[o].link.started = true → s.outlet[o].pilot.pwmBegun = true →
      s.outlet[o].link.slac = 4 → ∃ t, exec (.slacMessage o .slacMatch) s = .next t ∧ t.outlet[o].link.slac = 5
      ∧ t.outlet[o].link.nmk = (List.range 16).map (fun i => Config.freeByte (s.free + i)) ∧ t.free = s.free + 16
      ∧ t.outlet[o].link.phyUp = true)
  ∧ (∀ s o, s.outlet[o].link.phyUp = true → exec (.sdpRequest o) s =
      .next (updOutlet s o fun x =>
        { x with answer := .ok [seccAddress o, Config.tcpPort o], link := { x.link with sdp := true } }))
  ∧ (∀ s o (h : TlsHello) g x k r, s.outlet[o].link.sdp = true →
      (h.groups.find? fun g => g == .secp521r1 || g == .x448) = some g →
      (h.schemes.find? fun x => (x == .ecdsaSecp521r1 || x == .ed448) && (seccSlot s x).isSome) = some x →
      seccSlot s x = some k → rootSlot s h.root = some r →
      (h.suite && h.completes && h.chain != .other) = true → ∃ t, exec (.tlsHandshake o h) s = .next t
        ∧ t.outlet[o].link.tls = true ∧ t.outlet[o].link.group = some g ∧ t.outlet[o].link.scheme = some x)
  ∧ (∀ s o (h : TlsHello), s.outlet[o].link.sdp = true → (h.suite && h.completes && h.chain != .other) = false →
      exec (.tlsHandshake o h) s =
        .next (updOutlet s o fun y => { y with link := { y.link with tcp := true, tls := false } }))
  ∧ (∀ s o, s.outlet[o].link.phyUp = true → outType s o ≠ 0 → s.outlet[o].st.faultable = true →
      ∃ t, exec (.unsupportedRequest o) s = .next t ∧ t.outlet[o].st = .faulted ∧ t.outlet[o].answer = .failed)
  ∧ (∀ s o din, s.outlet[o].link.sdp = true → s.outlet[o].link.tls = true →
      ∃ t, exec (.supportedAppProtocol o true din) s = .next t ∧ t.outlet[o].link.proto = 1
      ∧ t.outlet[o].answer = .ok [1] ∧ t.outlet[o].tmr.link = false ∧ t.outlet[o].st = s.outlet[o].st)
  ∧ (∀ s o, s.outlet[o].link.proto ≠ 0 → ∃ t, exec (.sessionSetup o) s = .next t ∧ t.outlet[o].link.session = true
      ∧ t.outlet[o].answer = .ok ((List.range 8).map fun k => cfgN s 0x20 o (0x060 + 4 * k) 31 0))
  ∧ (∀ s o, s.outlet[o].link.started = true → outType s o ≠ 0 → s.outlet[o].st.faultable = true →
      ∃ t, exec (.vehicleLinkLost o) s = .next t ∧ t.outlet[o].st = .faulted)

/-- The vehicle's requests in an open session, in the states in which Tables 06-3 and 06-4 answer them. -/
def Obligations.VehicleRequestsComplete : Prop :=
  (∀ s o, s.outlet[o].link.session = true → exec (.serviceDiscovery o .discovery) s =
      .next (answer s o (.ok (if bptOffered s o then [1, 2] else [1]))))
  ∧ (∀ s o, s.outlet[o].link.session = true →
      s.outlet[o].link.proto = 1 →
      exec (.serviceDiscovery o (.detail 1)) s = .next (answer s o (.ok [1])))
  ∧ (∀ s o b, s.outlet[o].link.session = true → s.outlet[o].link.proto = 1 → (b = true → bptOffered s o = true) →
      exec (.serviceDiscovery o (.selection b)) s =
      .next (answer (updOutlet s o fun x => { x with link := { x.link with bpt := b } }) o (.ok [])))
  ∧ (∀ s o, s.outlet[o].link.session = true → s.outlet[o].link.proto = 2 →
      exec (.serviceDiscovery o (.payment true)) s = .next (answer s o (.ok [])))
  ∧ (∀ s o v, s.outlet[o].link.session = true → exec (.chargeParameterDiscovery o v) s =
      .next (answer (updOutlet s o fun x => { x with vehVMax := v }) o (.ok (presentLimits s o))))
  ∧ (∀ s o, s.outlet[o].link.session = true → s.outlet[o].link.proto = 1 → exec (.scheduleExchange o false) s =
      .next (answer (updOutlet s o fun x => { x with link := { x.link with dynamic := false } }) o (scheduleAnswer s o)))
  ∧ (∀ s o, s.outlet[o].link.session = true → s.outlet[o].link.proto = 1 → exec (.scheduleExchange o true) s =
      .next (answer (updOutlet s o fun x => { x with link := { x.link with dynamic := true } }) o (.ok [])))
  ∧ (∀ s o c, s.outlet[o].link.session = true → s.outlet[o].link.proto = 2 →
      (c = .scheduleExchange o true ∨ c = .scheduleExchange o false ∨ c = .powerDelivery o .renegotiate
        ∨ (∃ n, c = .serviceDiscovery o (.detail n)) ∨ (∃ b, c = .serviceDiscovery o (.selection b))
        ∨ ∃ exi, c = .certificateInstallation o exi) → exec c s = .next (failVehicle s o))
  ∧ (∀ s o, s.outlet[o].link.session = true → s.outlet[o].st = .authorised → exec (.dcCableCheck o) s =
      .next (answer (progress (updOutlet s o fun x => { x with cableReq := true }) o) o .ongoing))
  ∧ (∀ s o, s.outlet[o].link.session = true → s.outlet[o].st = .isolationTest → s.outlet[o].isoStep = 5 →
      s.outlet[o].preReq = false → exec (.dcCableCheck o) s = .next (answer s o (.ok [])))
  ∧ (∀ s o v, s.outlet[o].link.session = true → s.outlet[o].st = .isolationTest → exec (.dcPreCharge o v) s =
      .next (answer (progress (updOutlet (updOutlet s o fun x => { x with vehV := v }) o fun x =>
        { x with preReq := true }) o) o .ongoing))
  ∧ (∀ s o v, s.outlet[o].link.session = true → s.outlet[o].st = .energyTransfer → exec (.dcPreCharge o v) s =
      .next (answer (updOutlet s o fun x => { x with vehV := v }) o (.ok [])))
  ∧ (∀ s o, s.outlet[o].link.session = true → s.outlet[o].st = .energyTransfer →
      exec (.powerDelivery o .start) s = .next (answer (updOutlet s o fun x =>
        { x with standby := false, tmr := { x.tmr with standby := false } }) o (.ok [])))
  ∧ (∀ s o, s.outlet[o].link.session = true → s.outlet[o].st = .energyTransfer →
      exec (.powerDelivery o .standby) s = .next (answer (updOutlet s o fun x =>
        { x with standby := true, tmr := { x.tmr with standby := true, loop := false } }) o (.ok [])))
  ∧ (∀ s o, s.outlet[o].link.session = true →
      exec (.powerDelivery o .stop) s = .next (answerStop (stopTrigger s o .vehicle) o))
  ∧ (∀ s o, s.outlet[o].link.session = true → s.outlet[o].link.proto = 1 →
      exec (.powerDelivery o .renegotiate) s = .next (answer s o (scheduleAnswer s o)))
  ∧ (∀ s o i v e, s.outlet[o].link.session = true → s.outlet[o].st = .energyTransfer →
      ∃ t, exec (.dcChargeLoop o i v e false) s = .next t ∧ t.outlet[o].vehI = i ∧ t.outlet[o].vehV = v
        ∧ t.outlet[o].tmr.loop = true)
  ∧ (∀ s o i v e, s.outlet[o].link.session = true →
      exec (.dcChargeLoop o i v e true) s = .next (outletFault s o .vehicle))
  ∧ (∀ s o, s.outlet[o].link.session = true → (s.outlet[o].st = .weldCheck ∨ s.outlet[o].st = .discharge) →
      exec (.dcWeldingDetection o) s = .next (answer s o .ongoing))
  ∧ (∀ s o pause, s.outlet[o].link.session = true → exec (.vehicleSessionStop o pause false) s =
      .next (answerStop (stopTrigger s o .vehicle) o))
  ∧ (∀ s o pause, s.outlet[o].link.session = true →
      exec (.vehicleSessionStop o pause true) s = .next (outletFault s o .vehicle))
  ∧ (∀ s o exi, s.outlet[o].link.session = true → s.outlet[o].link.proto = 1 → operatorOpen s = false →
      exec (.certificateInstallation o exi) s = .next (answer s o .failed))
  ∧ (∀ s o exi, s.outlet[o].link.session = true → s.outlet[o].link.proto = 1 → operatorOpen s = true →
      exec (.certificateInstallation o exi) s = .next (answer (logInfo ((certParts o exi).foldl
        (fun u p => emitEvent u 0x82 [0] p) s) (Config.eventCode 409) .helm o) o .ongoing))
  ∧ (∀ s (o : Fin 2) ident chainOk, s.outlet[o].link.session = true → s.outlet[o].st = .cableCheck →
      cfgB s 0x20 o 0x000 22 = true →
      exec (.authorizationRequest o .eim ident chainOk) s = .next (identify s o .eim ident chainOk))
  ∧ (∀ s o, s.outlet[o].st = .identified → s.outlet[o].tmr.auth = true → exec (.tAuthExpiry o) s =
      .next (localDecision (updOutlet s o fun x => { x with tmr := { x.tmr with auth := false } }) o))

/-- The outlets' timers, and what the confirmations of lock and contactors do (R157 to R165, R169, R174). -/
def Obligations.OutletTimersComplete : Prop :=
  (∀ s o, outType s o ≠ 0 → s.outlet[o].st.faultable = true →
      (s.outlet[o].tmr.inventory = true → ∃ t, exec (.tInventoryExpiry o) s = .next t ∧ t.outlet[o].st = .faulted)
      ∧ (s.outlet[o].tmr.link = true → ∃ t, exec (.tLinkExpiry o) s = .next t ∧ t.outlet[o].st = .faulted)
      ∧ (s.outlet[o].tmr.seq = true → ∃ t, exec (.tSeqExpiry o) s = .next t ∧ t.outlet[o].st = .faulted)
      ∧ (s.outlet[o].tmr.iso = true → ∃ t, exec (.tIsoExpiry o) s = .next t ∧ t.outlet[o].st = .faulted)
      ∧ (s.outlet[o].tmr.disch = true → ∃ t, exec (.tDischExpiry o) s = .next t ∧ t.outlet[o].st = .faulted)
      ∧ (s.outlet[o].tmr.lock = true → ∃ t, exec (.tLockExpiry o) s = .next t ∧ t.outlet[o].st = .faulted))
  ∧ (∀ s o c, s.outlet[o].tmr.ongoing = true → ongoingCause s.outlet[o].st = some c →
      exec (.tOngoingExpiry o) s = .next (outletFault s o c))
  ∧ (∀ s o, s.outlet[o].tmr.loop = true → s.outlet[o].st = .energyTransfer → exec (.tLoopExpiry o) s =
      .next (stopTrigger (updOutlet s o fun x => { x with tmr := { x.tmr with loop := false } }) o .tLoop))
  ∧ (∀ s o, s.outlet[o].tmr.standby = true → s.outlet[o].st = .energyTransfer → exec (.tStandbyExpiry o) s =
      .next (stopTrigger (updOutlet s o fun x => { x with tmr := { x.tmr with standby := false } }) o .tStandby))
  ∧ (∀ s o, s.outlet[o].st = .isolationTest → s.outlet[o].isoStep = 2 → s.outlet[o].tmr.dwell = true →
      exec (.isoDwellEnd o) s =
      .next (progress (updOutlet s o fun x => { x with isoStep := 3, tmr := { x.tmr with dwell := false } }) o))
  ∧ (∀ s o, (s.lk.outlet[o]).lock = true → ∃ u, exec (.lockConfirmed o) s = .next (settle s u)
      ∧ u.lk.outlet[o].lockFb = true ∧ u.outlet[o].tmr.lock = false)
  ∧ (∀ s o, s.lk.so[soPos s o].cmd = false → s.lk.so[soNeg s o].cmd = false → s.outlet[o].st = .weldCheck →
      ∃ u, exec (.contactorsOpenConfirmed o) s = .next (settle s u) ∧ u.outlet[o].st = .discharge
        ∧ u.outlet[o].tmr.disch = true ∧ u.lk.so[soPos s o].confOff = true ∧ u.lk.so[soNeg s o].confOff = true)
  ∧ (∀ s o, s.outlet[o].st = .discharge → stageIsOff s o = true → below60 s o = true → exec (.vehicleSideDischarged o) s =
      .next (settle s (askUnlock (updOutlet (enter s o .unlock) o fun x =>
        { x with tmr := { x.tmr with disch := false } }) o)))
  ∧ (∀ s o, (s.lk.outlet[o]).lock = false → s.outlet[o].st = .unlock → s.outlet[o].pilot.cond ≠ .unplugged →
      ∃ u, exec (.unlockConfirmed o) s = .next (settle s u) ∧ u.outlet[o].st = .finished ∧ u.lk.outlet[o].lockFb = false)
  ∧ (∀ s o, s.outlet[o].st = .faulted → exec (.faultedContactorOpen o) s = .next (settle s (openContactors s o)))

/-- Cooling inputs, tag ages, the drives' tachometers and coolant flow (R28, R170 to R172). -/
def Obligations.CoolingCompletes : Prop :=
  (∀ s o value time, ∃ t, exec (.coolingInputUpdate o 0 value time) s = .next t
      ∧ t.cooling[o].iDerate = iDerateOf s o value ∧ t.cooling[o].input[0] = ⟨value, time, true⟩
      ∧ t.cooling[o].stale = !decide (s.nowNs ≤ time + 500000000)
      ∧ t.cooling[o].uncooled = (!decide (s.nowNs ≤ time + 500000000) || s.cooling[o].flowLow || s.drive[pumpOf o].fault))
  ∧ (∀ s o j value time, j ≠ 0 → j ≠ 6 → exec (.coolingInputUpdate o j value time) s =
      .next (trackBanks (updCooling s o fun c => { c with input := upd c.input j fun _ => ⟨value, time, true⟩ })))
  ∧ (∀ s o value time, ∃ t, exec (.coolingInputUpdate o 6 value time) s = .next t
      ∧ t.cooling[o].input[6] = ⟨value * 60 / cfgN s 0x22 o 0x000 15 8, time, true⟩)
  ∧ (∀ s o, olderThan s o 500000000 = true → ∃ t, exec (.tagStale500ms o) s = .next t
      ∧ t.cooling[o].stale = true ∧ t.cooling[o].uncooled = true ∧ t.flt.lastCode = 0x0A02)
  ∧ (∀ s o, olderThan s o 2000000000 = true → s.outlet[o].st = .energyTransfer → exec (.tagStale2s o) s =
      .next (stopTrigger (updCooling s o fun c => { c with stale2 := true }) o .tagAge))
  ∧ (∀ s o, olderThan s o 2000000000 = true → outType s o ≠ 0 →
      (s.outlet[o].st = .identified ∨ s.outlet[o].st = .authorised ∨ s.outlet[o].st = .isolationTest
        ∨ s.outlet[o].st = .precharge ∨ s.outlet[o].st = .plugged ∧ s.cooling[o].input[0].valid = true
        ∨ s.outlet[o].st = .cableCheck ∧ (s.cooling[o].input[0].valid || s.outlet[o].cablePass) = true) → ∃ t, exec (.tagStale2s o) s = .next t ∧ t.outlet[o].st = .faulted)
  ∧ (∀ s d pulses ms, ms ≠ 0 → tachRpm pulses ms < tachMin s (driveOutlet d) → 2000 ≤ s.drive[d].slowMs →
      s.drive[d].fault = false → ∃ t, exec (.driveFault d pulses ms) s = .next t
      ∧ t.drive[d].fault = true ∧ t.drive[d].rpm = tachRpm pulses ms ∧ t.flt.lastCode = 0x0A03
      ∧ (d = pumpOf (driveOutlet d) → t.cooling[driveOutlet d].uncooled = true))
  ∧ (∀ s d pulses ms, ms ≠ 0 → tachMin s (driveOutlet d) ≤ tachRpm pulses ms → s.drive[d].fault = true → ∃ t,
      exec (.driveFaultClear d pulses ms) s = .next t ∧ t.drive[d].fault = false ∧ t.drive[d].rpm = tachRpm pulses ms)
  ∧ (∀ s (o : Fin 2), ((s.cooling[o]).input[(6 : Fin 8)]).value * 10 < cfgN s 0x22 o 0x000 7 0 * 65536 → ∃ t,
      exec (.flowLow o) s = .next t ∧ t.cooling[o].flowLow = true ∧ t.cooling[o].uncooled = true)

/-- The reader's cycle and windows, the inventory with its collisions, antenna faults and crew cards (R175 to R188, R194). -/
def Obligations.ReaderCompletes : Prop :=
  (∀ s, ∃ t, exec .readerCycleStart s = .next t ∧ t.rdr.cycles = s.rdr.cycles + 1 ∧ t.rdr.field = false
      ∧ t.rdr.window = none ∧ ∀ o : Fin 2, t.rdr.work[o] = handleWork (closeWindow s) o ∧ t.rdr.port[o].harvOn = false)
  ∧ (∀ s, exec (.portWindowStart 2) s = .next (openWindow s 2))
  ∧ (∀ s, s.rdr.work[(0 : Fin 2)] = true → exec (.portWindowStart 0) s = .next
      (updPort (openWindow s 0) 0 fun x => { x with inv := {} }))
  ∧ (∀ s, s.rdr.work[(1 : Fin 2)] = false → exec (.portWindowStart 1) s = .next (openWindow s 2))
  ∧ (∀ s, s.rdr.field = true → s.rdr.settled = false → s.rdr.full = false → s.rdr.window = some 0 →
      s.outlet[(0 : Fin 2)].st = .plugged → s.rdr.antFault[(0 : Fin 3)] = false →
      s.rdr.port[(0 : Fin 2)].write.busy = false → s.rdr.port[(0 : Fin 2)].mate = none →
      s.rdr.port[(0 : Fin 2)].invDone = false →
      ∃ t, exec .fieldSettled s = .next t ∧ t.rdr.settled = true ∧ t.rdr.port[(0 : Fin 2)].inv.active = true
        ∧ t.rdr.port[(0 : Fin 2)].inv.q = qOf s.rdr.port[(0 : Fin 2)].qfp)
  ∧ (∀ s o (r : AirReply) l, invPort s = some o → s.rdr.port[o].inv.select = none →
      hear (1236 + 2048 * s.rdr.port[o].inv.sub) 64 r = .bits l → ∃ t, exec (.slotReplyReceived r) s =
        .next (nextSlot (haltTag t o (bitsVal l)) o true)
      ∧ t.rdr.air = s.rdr.air ++ [.freeze (1524 + 2048 * s.rdr.port[o].inv.sub)] ∧ t.rdr.port = s.rdr.port)
  ∧ (∀ s o (r : AirReply) k, invPort s = some o → s.rdr.port[o].inv.select = none →
      hear (1236 + 2048 * s.rdr.port[o].inv.sub) 64 r = .collision k →
      ∃ t, exec (.slotReplyReceived r) s = .next t ∧ t.rdr.coll = satInc 16 s.rdr.coll
        ∧ t.rdr.port[o].inv.select = some ⟨k + 1, 2 * bitsVal r.bits⟩
        ∧ t.rdr.port[o].inv.branches = ⟨k + 1, 2 * bitsVal r.bits + 1⟩ :: s.rdr.port[o].inv.branches
        ∧ t.rdr.port[o].inv.collisions = s.rdr.port[o].inv.collisions + 1)
  ∧ (∀ s o (r : AirReply), invPort s = some o → s.rdr.port[o].inv.select = none →
      hear (1236 + 2048 * s.rdr.port[o].inv.sub) 64 r = .crc →
      ∃ t, exec (.slotReplyReceived r) s = .next t ∧ t.rdr.crc = satInc 16 s.rdr.crc ∧ t.rdr.coll = s.rdr.coll)
  ∧ (∀ s o (r : AirReply), invPort s = some o → s.rdr.port[o].inv.select = none →
      hear (1236 + 2048 * s.rdr.port[o].inv.sub) 64 r = .late →
      ∃ t, exec (.slotReplyReceived r) s = .next t ∧ t.rdr.coll = satInc 16 s.rdr.coll ∧ t.rdr.crc = s.rdr.crc)
  ∧ (∀ s o, invPort s = some o → s.rdr.port[o].inv.select = none → s.rdr.port[o].inv.confirming = true →
      ∃ t, exec .slotEmpty s = .next t ∧ t.rdr.port[o].invDone = true ∧ t.rdr.port[o].inv = {}
        ∧ t.rdr.port[o].found = s.rdr.port[o].inv.halted.map fun id => { id := id })
  ∧ (∀ s o b (r : AirReply) l, invPort s = some o → s.rdr.port[o].inv.select = some b → b.len ≠ 64 →
      hearReply 64 r = .bits l →
      exec (.selectReplyReceived r) s = .next (nextBranch (haltTag s o (bitsVal l)) o))
  ∧ (∀ s o b (r : AirReply) l, invPort s = some o → s.rdr.port[o].inv.select = some b → b.len = 64 →
      hearReply 4 r = .bits l → bitsVal l = 0 →
      exec (.selectReplyReceived r) s = .next (nextBranch (haltTag s o b.mask) o))
  ∧ (∀ s p load, currentGood s p load = false → s.rdr.antFault[p] = false →
      (∀ o : Fin 2, handlePort o = p → s.outlet[o].st ≠ .cableCheck) → ∃ t, exec (.antFaultRuntime p load) s = .next t
      ∧ t.rdr.antFault[p] = true ∧ t.flt.lastCode = 0x0A01)
  ∧ (∀ s p load, currentGood s p load = true → s.rdr.antFault[p] = true → 250 ≤ load.ohms → load.ohms ≤ 1000 →
      ∃ t, exec (.antFaultRuntime p load) s = .next t ∧ t.rdr.antFault[p] = false)
  ∧ (∀ s, padOpen s = true → s.rdr.cards = [] → exec .reqaPoll s =
      .next { s with rdr := { s.rdr with polls := s.rdr.polls + 1, pad := s.rdr.pad ++ [reqa] } })
  ∧ (∀ s, padOpen s = true → s.rdr.cards ≠ [] → exec .reqaPoll s =
      .next { s with rdr := { s.rdr with polls := s.rdr.polls + 1, pad := s.rdr.pad ++ [reqa, wupa] } })
  ∧ (∀ s atqa levels sak uid, padOpen s = true → cardUidOf levels = some uid → s.rdr.cards.contains uid = false →
      cardOutlet s = none → ∃ t, exec (.cardSelected atqa levels sak) s = .next t ∧ t.rdr.cards = s.rdr.cards ++ [uid]
        ∧ t.rdr.cardUid = uid ∧ t.rdr.cardAtqa = atqa ∧ t.rdr.cardSak = sak
        ∧ t.rdr.pad = s.rdr.pad ++ cardFrames levels)
  ∧ (∀ s atqa levels sak uid, padOpen s = true → cardUidOf levels = some uid → s.rdr.cards.contains uid = true →
      exec (.cardSelected atqa levels sak) s = .next (sendPad s (cardFrames levels)))
  ∧ (∀ s uid, exec (.cardLeft uid) s =
      .next { s with rdr := { s.rdr with cards := s.rdr.cards.filter (· ≠ uid) } })

/-- The reading of tags block by block, the sensor cycle, and tag writes with their read-back (R177, R189 to R193). -/
def Obligations.TagExchangeCompletes : Prop :=
  (∀ s o (r : AirReply) l id, talking s o = true → s.rdr.port[o].rd = some id → hearReply 68 r = .bits l →
      bitsVal (l.take 4) = 0 → ∃ t, exec (.tagReadReply o r) s = .next t
      ∧ t.rdr.port[o].found = s.rdr.port[o].found.map (fun x =>
          if x.id = id then { x with blocks := x.blocks ++ [bitsBytes (l.drop 4)] } else x)
      ∧ ∀ k : Fin 7, t.rdr.port[o].tag[k].id = tagIds t.rdr.port[o].found k)
  ∧ (∀ s o (r : AirReply) id, talking s o = true → s.rdr.port[o].rd = some id → okBits (hearReply 68 r) = none →
      exec (.tagReadReply o r) s = .next (updPort (countReply s (hearReply 68 r)) o fun p => { p with rd := none }))
  ∧ (∀ s o k (r : AirReply) l, readsSensor s o k = true → hearReply 28 r = .bits l → bitsVal (l.take 4) = 0 →
      toSigned 16 (bitsVal ((l.drop 4).take 16)) = -32768 → ∃ t, exec (.sensorMeasureReply o k r) s = .next t
      ∧ t.rdr.port[o].tag[k].tstat = 3 ∧ t.rdr.miss = satInc 16 s.rdr.miss ∧ t.flt.lastCode = 0x0A02)
  ∧ (∀ s o k (r : AirReply) l temp, readsSensor s o k = true → hearReply 28 r = .bits l → bitsVal (l.take 4) = 0 →
      temp = toSigned 16 (bitsVal ((l.drop 4).take 16)) → temp ≠ -32768 → exec (.sensorMeasureReply o k r) s =
      .next (judgeCable (doneSensor (passReading (updPort s o fun p => { p with tag := upd p.tag k fun e =>
        { e with temp := temp, time := s.nowNs, tstat := 1, seen := true } }) o k) o k) o))
  ∧ (∀ s o k, readsSensor s o k = true → s.rdr.port[o].retried = false →
      exec (.tagExchangeNoReply o k) s = .next (sendAll (updPort s o fun p => { p with retried := true })
        [selectOf s.rdr.port[o].tag[k].id, .measure]))
  ∧ (∀ s o k, readsSensor s o k = true → s.rdr.port[o].retried = true → ∃ t,
      exec (.tagExchangeNoReply o k) s = .next t ∧ t.rdr.port[o].tag[k].tstat = 2 ∧ t.rdr.miss = satInc 16 s.rdr.miss)
  ∧ (∀ s o (r : AirReply) l, talking s o = true → s.rdr.port[o].write.busy = true →
      s.rdr.port[o].write.readBack = false → hearReply 4 r = .bits l →
      (bitsVal l = 0 → ∃ t, exec (.tagWriteReply o r) s = .next t ∧ t.rdr.port[o].write.busy = false
        ∧ t.rdr.port[o].write.report = 1
        ∧ (s.rdr.port[o].ident.id = s.rdr.port[o].write.id → t.rdr.port[o].ident.block8 = s.rdr.port[o].write.new))
      ∧ (bitsVal l = 2 → ∃ t, exec (.tagWriteReply o r) s = .next t ∧ t.rdr.port[o].write.busy = false
        ∧ t.rdr.port[o].write.report = 2 ∧ t.log.nextNo = s.log.nextNo + 1)
      ∧ (bitsVal l = 1 → s.rdr.port[o].write.repeated = false → ∃ t, exec (.tagWriteReply o r) s = .next t
        ∧ t.rdr.port[o].write.busy = true ∧ t.rdr.port[o].write.repeated = true)
      ∧ (bitsVal l = 1 → s.rdr.port[o].write.repeated = true → ∃ t, exec (.tagWriteReply o r) s = .next t
        ∧ t.rdr.port[o].write.busy = false ∧ t.rdr.port[o].write.report = 3 ∧ t.log.nextNo = s.log.nextNo + 1))
  ∧ (∀ s o, s.rdr.port[o].write.busy = true → s.rdr.port[o].write.readBack = false →
      ∃ t, exec (.writeUnconfirmed o) s = .next t ∧ t.rdr.port[o].write.readBack = true
        ∧ t.rdr.port[o].write.report = 4 ∧ t.rdr.unconf = satInc 16 s.rdr.unconf ∧ t.log.nextNo = s.log.nextNo + 1)
  ∧ (∀ s o (r : AirReply) l d, talking s o = true → s.rdr.port[o].write.busy = true →
      s.rdr.port[o].write.readBack = true → hearReply 68 r = .bits l → bitsVal (l.take 4) = 0 →
      d = bitsBytes (l.drop 4) → ∃ t, exec (.writeReadback o (some r)) s = .next t
        ∧ t.rdr.port[o].write.busy = false ∧ t.rdr.port[o].write.report =
          if d = s.rdr.port[o].write.new then 5 else if d = s.rdr.port[o].write.old then 6 else 7)
  ∧ (∀ s o, talking s o = true → s.rdr.port[o].write.busy = true → s.rdr.port[o].write.readBack = true →
      2 ≤ s.rdr.port[o].write.attempts → ∃ t, exec (.writeReadback o none) s = .next t
        ∧ t.rdr.port[o].write.busy = false ∧ t.rdr.port[o].write.report = 7)
  ∧ (∀ s o, talking s o = true → s.rdr.port[o].write.busy = true → s.rdr.port[o].write.readBack = true →
      s.rdr.port[o].write.attempts < 2 → ∃ t, exec (.writeReadback o none) s = .next t
        ∧ t.rdr.port[o].write.busy = true ∧ t.rdr.port[o].write.attempts = s.rdr.port[o].write.attempts + 1)

/-- Frames, the legal pair, CRCs, faults, temperature bands and panel power (R276 to R293). -/
def Obligations.DisplayCompletes : Prop :=
  (∀ s, s.disp.pwr = .on → s.disp.flight = [] → s.disp.refresh = none → s.disp.legal = none → s.disp.refreshDue = false →
      s.disp.waiting = [] → s.disp.legalWait = none → exec .evenFrameBoundary s =
        .next (updDisp s fun d => { d with pairs := d.pairs + 1, second := false, bandNow := d.band }))
  ∧ (∀ s p, s.disp.pwr = .on → s.disp.flight = [] → s.disp.refresh = none → s.disp.legal = none →
      s.disp.refreshDue = false → s.disp.waiting = [] → s.disp.legalWait = some p →
      ∃ t, exec .evenFrameBoundary s = .next t ∧ t.disp.crcExp = p.crc ∧ t.disp.haveImage = true
        ∧ t.disp.legalWait = none ∧ t.disp.legal.isSome = true ∧ t.disp.lwinY0 = p.y0 ∧ t.disp.lwinH = p.h)
  ∧ (∀ s, s.mer.up = true → ∃ t p, exec .legalPairSend s = .next t ∧ t.disp.lane = some p
      ∧ p.crc = crc32 p.img ∧ p.img.length = 40 * merN s 0x300 0x048 7 0 ∧ p.h = merN s 0x300 0x048 7 0
      ∧ p.y0 = merN s 0x300 0x048 15 8)
  ∧ (∀ s upsets p, s.disp.lane = some p → ∃ t, exec (.legalPairReceived upsets) s = .next t
      ∧ t.disp.legalWait = some { p with img := upsetBytes p.img upsets } ∧ t.disp.lane = none
      ∧ t.disp.pairAt = s.mono ∧ t.disp.pairSeen = true)
  ∧ (∀ s upsets shift, s.disp.pwr = .on → s.disp.haveImage = true → crcMem s.disp = s.disp.crcExp →
      shift = crc32 (upsetBytes ((rectBytes s.disp (legalRect s.disp) true).map fun a => frameByte s.disp a.1) upsets) →
      shift = s.disp.crcExp → ∃ t, exec (.frameEndCrc upsets) s = .next t ∧ t.disp.missRun = 0
        ∧ t.disp.crcShift = shift ∧ t.disp.matchFrom = some (s.disp.matchFrom.getD s.mono))
  ∧ (∀ s upsets shift, s.disp.pwr = .on → s.disp.haveImage = true →
      shift = crc32 (upsetBytes ((rectBytes s.disp (legalRect s.disp) true).map fun a => frameByte s.disp a.1) upsets) →
      shift ≠ s.disp.crcExp → s.disp.missRun = 0 →
      ∃ t, exec (.frameEndCrc upsets) s = .next t ∧ t.disp.missRun = 1 ∧ t.disp.matchFrom = none
        ∧ t.disp.miss = satInc 16 s.disp.miss ∧ t.disp.faultCrc = s.disp.faultCrc)
  ∧ (∀ s upsets shift, s.disp.pwr = .on → s.disp.haveImage = true →
      shift = crc32 (upsetBytes ((rectBytes s.disp (legalRect s.disp) true).map fun a => frameByte s.disp a.1) upsets) →
      shift ≠ s.disp.crcExp → 1 ≤ s.disp.missRun →
      ∃ t, exec (.frameEndCrc upsets) s = .next t ∧ t.disp.faultCrc = true ∧ t.disp.miss = satInc 16 s.disp.miss)
  ∧ (∀ s, s.disp.pwr = .on → s.disp.pairAt + laneGrace s ≤ s.mono → ∃ t, exec .laneTimeout s = .next t
      ∧ t.disp.faultLane = true ∧ t.disp.pairSeen = false)
  ∧ (∀ s, matched10 s = true → s.flt.island[(6 : Fin 17)].lost = false → s.disp.pairSeen = true →
      ∃ t, exec .displayFaultClear s = .next t ∧ t.disp.faultCrc = false ∧ t.disp.faultLane = false)
  ∧ (∀ s ohm, suspended s 11 = false → crackBad s (min 10000 ohm) = true → ∃ t, exec (.crackMeasure ohm) s = .next t
      ∧ t.disp.faultCrack = true ∧ t.disp.crackRes = min 10000 ohm)
  ∧ (∀ s ohm, suspended s 11 = false → crackBad s (min 10000 ohm) = false → s.disp.crackCheck = true →
      ∃ t, exec (.crackMeasure ohm) s = .next t ∧ t.disp.faultCrack = false ∧ t.disp.crackCheck = false)
  ∧ (∀ s ohm, suspended s 11 = false → crackBad s (min 10000 ohm) = false → s.disp.crackCheck = false →
      exec (.crackMeasure ohm) s = .next (updDisp s fun d => { d with crackRes := min 10000 ohm }))
  ∧ (∀ s v, -450 ≤ v → v ≤ 1100 → ∃ t, exec (.panelTempMeasure (.reading v)) s = .next t ∧ t.disp.temp = v
      ∧ t.disp.thFault = false ∧ t.disp.band = nextBand s v s.disp.band
      ∧ t.disp.refreshDue = (s.disp.refreshDue || nextBand s v s.disp.band != s.disp.band))
  ∧ (∀ s, ∃ t, exec (.panelTempMeasure .fault) s = .next t ∧ t.disp.thFault = true ∧ t.disp.band = 0)
  ∧ (∀ s, s.disp.out.avdd = true → ∃ t, exec (.pumpFault 0) s = .next t ∧ t.disp.faultPump = true)
  ∧ (∀ s, 3 ≤ s.landfall.phase → s.disp.pwr = .off → s.landfall.ioOk = true → exec .panelPowerOn s =
      .next (updDisp s fun d =>
        { d with pwr := .poweringOn, step := 2, restart := false, stepAt := s.mono, out := { avdd := true } }))
  ∧ (∀ s, s.disp.pwr = .on → exec .panelPowerOff s = .next (updDisp s fun d =>
        { d with pwr := .poweringOff, step := 2, restart := false, stepAt := s.mono, out := { d.out with fl := false } }))
  ∧ (∀ s, s.disp.faultPump = true → s.disp.pwr = .off → s.landfall.ioOk = true → ∃ t, exec .pumpRetry s = .next t
      ∧ t.disp.pwr = .poweringOn ∧ t.disp.step = 2 ∧ t.disp.retrying = true)
  ∧ (∀ s, s.disp.faultPump = true → s.disp.pwr ≠ .off → ∃ t, exec .pumpRetry s = .next t
      ∧ t.disp.pwr = .poweringOff ∧ t.disp.restart = true ∧ t.disp.retrying = true)
  ∧ (∀ s mv us, s.disp.pwr = .poweringOn → us ≤ (stepMet s s.disp.step mv us).2 →
      (stepMet s s.disp.step mv us).1 = true → s.disp.step + 1 ≠ 8 → exec (.panelPowerStep mv us) s =
      .next (updDisp s fun d => { d with step := s.disp.step + 1, out := panelStep (s.disp.step + 1) d.out }))
  ∧ (∀ s mv us, s.disp.pwr = .poweringOn → s.disp.step = 7 → twoFrames s ≤ 48 * us →
      ∃ t, exec (.panelPowerStep mv us) s = .next t
      ∧ t.disp.pwr = .on ∧ t.disp.out.fl = true ∧ t.disp.settled = [])
  ∧ (∀ s mv us, s.disp.pwr = .poweringOn → (stepMet s s.disp.step mv us).2 < us → ∃ t,
      exec (.panelPowerStep mv us) s = .next t ∧ t.disp.pwr = .off ∧ t.disp.faultPump = true ∧ t.disp.out = {})

/-- A metering sample, the pulse outputs, P_NOW, FIR supervision, the DC block's freeze and the RTD inputs (R199 to R232). -/
def Obligations.MeterCompletes : Prop :=
  (∀ s bits raw ovl, s.mer.up = true → s.pwr.rung = .underway →
      raw = Vector.ofFn (fun m : Fin 20 => (sincFour (s.mer.fe.mod[m]).bits (bits.getD m.val [])).2) →
      ∃ u, exec (.meterSample bits ovl) s = .next (meterAc (meterOutlet (meterOutlet u 0) 1)) ∧ (∀ k : Fin 12, u.mer.fe.ch[k] = sampleChannel s raw ovl k)
      ∧ u.mer.leg = s.mer.leg ∧ u.mer.regs = s.mer.regs)
  ∧ (∀ s (o : Fin 2) us, s.mer.up = true → (s.mer.leg.pulse[o]).backlog ≠ 0 → (s.mer.leg.pulse[o]).active = false →
      (s.mer.leg.pulse[o]).lastStart = none → merN s (0x500 + o.val) 0x000 31 30 ≠ 3 →
      ∃ t, exec (.pulseStart o us) s = .next t
      ∧ (t.mer.leg.pulse[o]).lastStart = some (s.mono * 1000 + us % 1000)
      ∧ (t.mer.leg.pulse[o]).active = true ∧ (t.mer.leg.pulse[o]).backlog = (s.mer.leg.pulse[o]).backlog - 1
      ∧ (t.mer.leg.pulse[o]).width = pulseWidth (merN s (0x500 + o.val) 0x004 16 0) (merN s (0x500 + o.val) 0x000 23 16)
        (s.mer.leg.pulse[o]).recent.sum)
  ∧ (∀ s o, exec (.pulseEnd o) s =
      .next (updLeg s fun l => { l with pulse := upd l.pulse o fun x => { x with active := false } }))
  ∧ (∀ s, s.mer.up = true → ∃ t, exec .pNowRefresh s = .next t
      ∧ ∀ o : Fin 2, t.mer.pNow[o] = roundDiv s.mer.powers[o].sum (16000 * powerDen))
  ∧ (∀ s upsets, s.mer.up = true → suspended s 7 = false → (∀ j : Fin 12, s.mer.fe.ch[j].fallback = false) →
      ∃ t, exec (.firCrcCheck upsets) s = .next t ∧ ∀ j : Fin 12,
        t.mer.fe.ch[j].tapsBad = (tapsCrc (channelTaps (engineWords s upsets) j) != s.mer.fe.tapCrc[j])
        ∧ t.mer.fe.ch[j].fallback = t.mer.fe.ch[j].tapsBad)
  ∧ (∀ s, s.mer.up = true → ∃ t, exec .firRmsWindow s = .next t ∧ ∀ j : Fin 12,
      (s.mer.fe.ch[j].winLen = 0 → t.mer.fe.ch[j] = s.mer.fe.ch[j])
      ∧ (s.mer.fe.ch[j].winLen ≠ 0 → t.mer.fe.ch[j].winLen = 0
        ∧ (rmsDiffer (Nat.sqrt (s.mer.fe.ch[j].firSum / s.mer.fe.ch[j].winLen))
            (Nat.sqrt (s.mer.fe.ch[j].fbSum / s.mer.fe.ch[j].winLen)) = false →
          t.mer.fe.ch[j].rmsFails = 0 ∧ t.mer.fe.ch[j].rmsPasses = s.mer.fe.ch[j].rmsPasses + 1)
        ∧ (rmsDiffer (Nat.sqrt (s.mer.fe.ch[j].firSum / s.mer.fe.ch[j].winLen))
            (Nat.sqrt (s.mer.fe.ch[j].fbSum / s.mer.fe.ch[j].winLen)) = true →
          t.mer.fe.ch[j].rmsFails = s.mer.fe.ch[j].rmsFails + 1 ∧ t.mer.fe.ch[j].rmsPasses = 0
          ∧ (2 ≤ s.mer.fe.ch[j].rmsFails → t.mer.fe.ch[j].fallback = true))))
  ∧ (∀ s k, (s.mer.fe.ch[k]).fallback = true → (s.mer.fe.ch[k]).tapsBad = false → 100 ≤ (s.mer.fe.ch[k]).rmsPasses →
      ∃ t, exec (.firRestored k) s = .next t ∧ t.mer.fe.ch[k].fallback = false)
  ∧ (∀ s (k : Fin 12) on, acChannel k = true → exec (.dcFreezeRequest k on) s =
      .next (updMch s k (freeze fun c => { c with freezeHelm := on })))
  ∧ (∀ s k, (s.mer.fe.ch[k]).freezeEvent = true → eventOpen s (channelPhase k) = false →
      exec (.dcFreezeRelease k .event) s = .next (updMch s k fun x => { x with freezeEvent := false }))
  ∧ (∀ s k, exec (.dcFreezeRelease k .helm) s = .next (updMch s k fun x => { x with freezeHelm := false }))
  ∧ (∀ s k, ((s.mer.fe.ch[k]).freezeEvent || (s.mer.fe.ch[k]).freezeHelm) = true →
      ∃ t, exec (.dcFreezeRelease k .long) s = .next t ∧ t.mer.fe.ch[k].freezeEvent = false
        ∧ t.mer.fe.ch[k].freezeHelm = false ∧ t.log.nextNo = s.log.nextNo + 1)
  ∧ (∀ s r mOhm, s.mer.up = true → merN s (0x200 + r.val) 0x000 31 31 = 1 → ∃ t, exec (.rtdSample r mOhm) s = .next t
      ∧ t.mer.fe.rtd[r].rstat = (rtdJudge (merN s (0x200 + r.val) 0x000 30 30 == 1) mOhm).1)

/-- Stream and pilot faults, the spare, the rotation's steps and the reference comparison (R208 to R213). -/
def Obligations.RotationCompletes : Prop :=
  (∀ s m, s.mer.up = true → (s.mer.fe.mod[m]).st ≠ .retired → ∃ t, exec (.streamFault m) s = .next t
      ∧ (t.mer.fe.mod[m]).st = .retired)
  ∧ (∀ s m, s.mer.up = true → suspended s 6 = false → (s.mer.fe.mod[m]).len ≠ 0 →
      (pilotDeviation s s.mer.fe.mod[m]).natAbs ≤ 500 → exec (.pilotWindow m) s = .next (updMod s m fun x =>
        { x with pilotDev := satTo 16 (pilotDeviation s s.mer.fe.mod[m]), badWindows := 0, re := 0, im := 0, len := 0 }))
  ∧ (∀ s m, s.mer.up = true → suspended s 6 = false → (s.mer.fe.mod[m]).len ≠ 0 →
      500 < (pilotDeviation s s.mer.fe.mod[m]).natAbs → 1 ≤ (s.mer.fe.mod[m]).badWindows → ∃ t,
      exec (.pilotWindow m) s = .next t ∧ (t.mer.fe.mod[m]).st = .retired)
  ∧ (∀ s k, exec (.spareSettled k) s = .next (updMch s k fun c => { c with settling := false, reducedSub := false }))
  ∧ (∀ s v x, nextInRing s v = some x → s.mer.up = true → suspended s 4 = false → (rotation s v).stopped = false →
      (rotation s v).spareUsed = false → (rotation s v).phase = 0 → (s.mer.fe.mod[spareMod v]).st = .spareFree →
      ∃ t, exec (.rotationStepStart v) s = .next t ∧ (rotation t v).phase = 1 ∧ (rotation t v).pos = x.val
        ∧ (t.mer.fe.mod[spareMod v]).st = .standingIn ∧ (t.mer.fe.mod[spareMod v]).serves = x.val)
  ∧ (∀ s v, s.mer.up = true → (rotation s v).phase = 1 →
      (comparisonFails (rotation s v) = false ∨ (rotation s v).again = true) → ∃ t, exec (.rotationSwap v) s = .next t
      ∧ (rotation t v).phase = 2 ∧ (t.mer.fe.mod[(Fin.ofNat 20 (rotation s v).pos : Fin 20)]).st = .calibrating)
  ∧ (∀ s v, s.mer.up = true → (rotation s v).phase = 1 → comparisonFails (rotation s v) = true →
      (rotation s v).again = false → ∃ t, exec (.rotationSwap v) s = .next t ∧ (rotation t v).phase = 4
        ∧ (rotation t v).again = true ∧ (t.mer.fe.mod[spareMod v]).st = .calibrating)
  ∧ (∀ s v x short plus minus gain ofs, s.mer.up = true → (rotation s v).phase = 2 →
      x = Fin.ofNat 20 (rotation s v).pos → newTrims short plus minus = some (gain, ofs) →
      calibrationFails s.mer.fe.mod[x] gain ofs = false →
      ∃ t, exec (.rotationCalibrationDone v short plus minus) s = .next t
      ∧ (rotation t v).phase = 3 ∧ (t.mer.fe.mod[x]).gain = gain ∧ (t.mer.fe.mod[x]).ofs = ofs
      ∧ (t.mer.fe.mod[x]).calTime = s.now)
  ∧ (∀ s v, s.mer.up = true → (rotation s v).phase = 3 → ∃ t, exec (.rotationSwapBack v) s = .next t
      ∧ (rotation t v).phase = 4 ∧ (t.mer.fe.mod[spareMod v]).st = .calibrating)
  ∧ (∀ s v short plus minus gain ofs, s.mer.up = true → (rotation s v).phase = 4 →
      newTrims short plus minus = some (gain, ofs) → calibrationFails s.mer.fe.mod[spareMod v] gain ofs = false →
      ∃ t, exec (.spareCalibrationDone v short plus minus) s = .next t ∧ (rotation t v).phase = 0
        ∧ (t.mer.fe.mod[spareMod v]).st = .spareFree ∧ (t.mer.fe.mod[spareMod v]).gain = gain)
  ∧ (∀ s ppm, s.mer.up = true → suspended s 5 = false → ppm.natAbs ≤ 200 → ∃ t, exec (.referenceComparison ppm) s = .next t
      ∧ t.mer.fe.refDrift = false ∧ t.mer.fe.refDiff = satTo 16 ppm)
  ∧ (∀ s ppm, s.mer.up = true → suspended s 5 = false → 200 < ppm.natAbs → ∃ t, exec (.referenceComparison ppm) s = .next t
      ∧ t.mer.fe.refDrift = true ∧ t.mer.fe.refDiff = satTo 16 ppm)

/-- The register commit, Meridian's supply, supply events, and the Chronometer (R230 to R247). -/
def Obligations.ChronometerCompletes : Prop :=
  (∀ s, s.mer.up = true → exec .registerCommit s = .next (commitRegs s))
  ∧ (∀ s mana mcore, s.mer.supplyFail = false → s.mer.up = true → (mana < 1620000 ∨ mcore < 855000) →
      ∃ t, exec (.meridianSupplyFail mana mcore) s = .next t
      ∧ t.mer.supplyFail = true ∧ t.mer.up = false ∧ t.flt.lastCode = 0x0302
      ∧ t.pwr.rail[(4 : Fin 9)] = some mana ∧ t.pwr.rail[(3 : Fin 9)] = some mcore)
  ∧ (∀ s img mana mcore, s.mer.up = false → s.pwr.rung ≠ .dark →
      (s.mer.supplyFail = true → inWindow 4 mana = true ∧ inWindow 3 mcore = true) →
      exec (.meridianRestart img mana mcore) s = .next (settle s (meridianBack
        (startMeridian (noteRail (noteRail s 4 mana) 3 mcore) img))))
  ∧ (∀ s ph w, s.mer.up = true → (s.mer.fe.half[ph]).closed = some w → exec (.halfCycleRms ph) s =
      .next (judgeHalfCycle (updHalf s ph fun h => { h with closed := none }) ph w))
  ∧ (∀ s ph w, s.mer.up = true → (s.mer.fe.half[ph]).cur = some w → 3 * halfSamples s ≤ 2 * w.len →
      exec (.zeroCrossingTimeout ph) s = .next (judgeHalfCycle
        (updHalf s ph fun h => { h with cur := none, nom := {}, closed := none }) ph (s.mer.fe.half[ph]).nom))
  ∧ (∀ s (ph : Fin 3) w, s.mer.up = true → (s.mer.fe.half[ph]).closed = some w →
      (s.mer.leg.events.find? fun e => e.isOpen && e.phase == ph.val + 1) = none →
      0 ≤ rmsAgainst s w 90 → rmsAgainst s w 110 ≤ 0 →
      exec (.halfCycleRms ph) s = .next (updHalf s ph fun h => { h with closed := none }))
  ∧ (∀ s (ph : Fin 3) w, s.mer.up = true → (s.mer.fe.half[ph]).closed = some w →
      chInvalid s (Fin.ofNat 12 (4 + ph.val)) = false →
      (s.mer.leg.events.find? fun e => e.isOpen && e.phase == ph.val + 1) = none →
      rmsAgainst s w 90 < 0 → 0 ≤ rmsAgainst s w 5 → ∃ t e, exec (.halfCycleRms ph) s = .next t
      ∧ t.mer.leg.events.head? = some e ∧ e.kind = 1 ∧ e.phase = ph.val + 1 ∧ e.isOpen = true ∧ e.start = w.start)
  ∧ (∀ s ns, s.mer.up = true → s.mer.chr.running = true → s.txl.ptp.locked = true → s.mer.chr.src ≠ 3 →
      s.mer.chr.valid = true → ns.natAbs ≤ 1000000000 → exec (.ptpOffset ns) s =
      .next { s with mer := { s.mer with chr := { s.mer.chr with slew := ns, src := 1, uncNs := 1000000 } } })
  ∧ (∀ s ns, s.mer.up = true → s.mer.chr.running = true → s.txl.ptp.locked = true →
      (s.mer.chr.valid = false ∨ 1000000000 < ns.natAbs) → ∃ t, exec (.ptpOffset ns) s = .next t
      ∧ t.mer.chr.src = 1 ∧ t.mer.chr.uncNs = 1000000)
  ∧ (∀ s, s.mer.chr.src = 1 → ∃ t, exec .ptpDeadReckoning s = .next t ∧ t.mer.chr.src = 3)
  ∧ (∀ s, timeUncertain s = true → ∃ t, exec .timeUncertainSet s = .next t
      ∧ ∀ r ∈ t.mer.leg.sessions, r.isOpen = true → r.flags.timeUncertain = true)
  ∧ (∀ s b, s.mer.chr.running = true → s.mer.chr.valid = true → s.mer.up = true → exec (.leapSecond b) s =
      .next (stepClock s (if b then s.nowNs - 1000000000 else s.nowNs + 1000000000)))
  ∧ (∀ s b, s.mer.chr.running = true → s.mer.chr.valid = true → s.mer.up = false → exec (.leapSecond b) s =
      .next { s with mer := { s.mer with chr := { s.mer.chr with
        ns := if b then s.nowNs - 1000000000 else s.nowNs + 1000000000 } } })
  ∧ (∀ s, s.mer.up = true → ∃ t, exec .slewDayEnd s = .next t ∧ t.mer.chr.daySlew = 0)

/-- Tariffs, demand and billing, the legal window's cycle, the mailbox, and prepayment (R249 to R270). -/
def Obligations.BillingCompletes : Prop :=
  (∀ s b, onTime s = true → b = nextDemand s (intervalSince s) → b ≤ s.nowNs →
      exec .demandIntervalEnd s = .next (closeIntervals s b {} {}))
  ∧ (∀ s c, s.mer.tar.pending = some c → onTime s = true → c.activation ≤ s.nowNs →
      exec .calendarActivate s = .next (retariff (activateCalendar s)))
  ∧ (∀ s, onTime s = true → nextOffset s (intervalSince s) = none → exec .tariffSwitch s = .next (retariff s))
  ∧ (∀ s b, onTime s = true → nextOffset s (intervalSince s) = some b → b ≤ s.nowNs →
      exec .tariffSwitch s = .next (retariff (closeIntervals s b { adjusted := true } {})))
  ∧ (∀ s b, onTime s = true → merN s 0x700 0x018 31 30 ≠ 0 → nextBilling s (intervalSince s - 1) = some b →
      b ≤ s.nowNs → s.mer.leg.lastClose < b → exec .billingScheduledClose s = .next (closePeriod s b true false false))
  ∧ (∀ s, s.mer.up = true → ∃ t, exec .legalWindowItem s = .next t
      ∧ t.mer.winItem = if s.mer.winItem + 1 < (legalItems s).length then s.mer.winItem + 1 else 0)
  ∧ (∀ s o h n, s.mer.up = true → s.landfall.helmUp = true → s.mer.mail.contains (.openRecord o h n) = true →
      meteringInvalid s o = false → ∃ t r, exec (.mailboxRequest (.openRecord o h n)) s = .next t
      ∧ t.mer.leg.sessions = addSession s.mer.leg.sessions r ∧ r.outlet = o ∧ r.hash = h ∧ r.start = s.nowNs
      ∧ r.seqOpen = (s.mer.legalSeq + 1) % 2 ^ 32 ∧ r.isOpen = true
      ∧ t.mer.mail = (s.mer.mail.erase (.openRecord o h n) ++ s.mer.held).take 16
      ∧ t.com.reply = some (.opened o true))
  ∧ (∀ s o h n, s.mer.up = true → s.landfall.helmUp = true → s.mer.mail.contains (.openRecord o h n) = true →
      meteringInvalid s o = true → ∃ t, exec (.mailboxRequest (.openRecord o h n)) s = .next t
      ∧ t.mer.leg.sessions = s.mer.leg.sessions ∧ t.com.reply = some (.opened o false))
  ∧ (∀ s o, s.mer.up = true → s.landfall.helmUp = true → s.mer.mail.length < 16 → ∃ t,
      exec (.mailboxRequest (.readVehicle o)) s = .next t ∧ t.outlet[o].vMerAt = some s.mono
      ∧ t.outlet[o].vMer = (s.mer.fe.ch[(Fin.ofNat 12 (2 * o.val) : Fin 12)]).value
        * merN s (0x500 + o.val) 0x008 31 0 * 10 / 2 ^ 31)
  ∧ (∀ s, s.mer.up = true → exec .prepayDebit s = .next (debitOutlet (debitOutlet s 0) 1))
  ∧ (∀ s o, exec (.friendlyHoursEnd o) s = .next (creditStop s o))
  ∧ (∀ s, s.com.weatherEnd ≠ 0 → s.com.weatherEnd ≤ s.nowNs → exec .weatherHoldEnd s =
      .next (creditStop (creditStop { s with com := { s.com with weatherEnd := 0 } } 0) 1))

/-- Supplies and resets, and the milestones of Table 02-1 up to the choice of the chart (R32 to R36, R52, R53, R491). -/
def Obligations.LandfallStartCompletes : Prop :=
  (∀ s, exec .porstRise s = .next { s with landfall := { s.landfall with porst := true } })
  ∧ (∀ s, s.landfall.porst = true → ∃ u, exec .porstFall s = .next (settle s u) ∧ u.landfall.porst = false
      ∧ u.landfall.phase = 0 ∧ u.landfall.helmUp = false ∧ u.landfall.hostReady = false ∧ u.mer.up = false
      ∧ u.mer.saved = s.mer.saved ∧ u.lk.runA = false ∧ u.lk.runB = false ∧ u.lk.landfallDone = false
      ∧ u.sx.up = false ∧ u.chart.inUse = none ∧ u.host.sessions = [])
  ∧ (∀ s rail uV, s.landfall.porst = true → railOk rail s.landfall = true → inWindow (coreRail rail) uV = false →
      ∃ t, exec (.coreSupplyDip rail uV) s = .next t ∧ t.flt.lastCode = 0x0302 ∧ t.flt.ratingsOk = false)
  ∧ (∀ s rail uV, railOk rail s.landfall = false → inWindow (coreRail rail) uV = true →
      ∃ t, exec (.coreSupplyReturn rail uV) s = .next t ∧ t.pwr.rail[coreRail rail] = some uV
      ∧ railOk rail t.landfall = true)
  ∧ (∀ s (ch : Fin 2) uV, (if ch = 0 then s.lk.runA else s.lk.runB) = true →
      inWindow (if ch = 0 then 1 else 2) uV = false → ∃ u, exec (.lookoutRailDip ch uV) s = .next (settle s u)
      ∧ (if ch = 0 then u.lk.runA else u.lk.runB) = false ∧ u.lk.agreed = false ∧ u.lk.restarting = true
      ∧ u.flt.supCnt = satInc 16 s.flt.supCnt ∧ u.flt.lastCode = 0x0302)
  ∧ (∀ s, s.landfall.helmUp = true → s.landfall.phase < 9 → exec .helmRestartEarly s = .next (landfallRestart s))
  ∧ (∀ s imgA imgB, supplied s = true → s.landfall.phase = 0 → s.landfall.holdSelf = false → s.lk.runA = true →
      s.lk.runB = true → exec (.lookoutChannelsRunning imgA imgB) s =
      .next { s with landfall := { s.landfall with phase := 1 } })
  ∧ (∀ s imgA imgB, supplied s = true → s.landfall.phase = 0 → s.landfall.holdSelf = false →
      (s.lk.runA && s.lk.runB) = false → (bootImage s 2 imgA).fw[(2 : Fin 5)].started = true →
      (bootImage s 2 imgB).fw[(2 : Fin 5)].started = true → ∃ u,
      exec (.lookoutChannelsRunning imgA imgB) s = .next (settle s u) ∧ u.lk.runA = true ∧ u.lk.runB = true
        ∧ u.lk.agreed = false ∧ u.landfall.phase = 1)
  ∧ (∀ s img, meridianTurn s = true → s.mer.supplyFail = false → s.mer.up = true → exec (.meridianMeteringStart img) s = .next
      (settle s { s with landfall := { s.landfall with phase := if s.landfall.phase = 1 then 2 else s.landfall.phase } }))
  ∧ (∀ s img, meridianTurn s = true → s.mer.supplyFail = false → s.mer.up = false → ∃ u,
      exec (.meridianMeteringStart img) s = .next (settle s (updLandfall u fun l => { l with phase := if l.phase = 1 then 2 else l.phase }))
      ∧ u = meridianBack (startMeridian s img))
  ∧ (∀ s img role, helmTurn s = true → exec (.helmFirmwareStarted img role) s = .next (startHelm s img role))
  ∧ (∀ s img role, helmTurn s = true → s.landfall.helmRetry = true →
      exec (.helmBootRetry img role) s = .next (startHelm s img role))
  ∧ (∀ s sigOk, supplied s = true → s.landfall.helmUp = true → s.chart.inUse = none → s.landfall.holdChart = false →
      s.landfall.holdStrap = false → s.landfall.warm = false → exec (.chartSourceChosen false sigOk) s =
      .next (useSnapshot (rejectChart s s.fw[(4 : Fin 5)].slotB 0 0x0D)))
  ∧ (∀ s sigOk, supplied s = true → s.landfall.helmUp = true → s.chart.inUse = none → s.landfall.holdChart = false →
      s.landfall.holdStrap = false → s.landfall.warm = false →
      verifyChart s (chartImage s s.fw[(4 : Fin 5)].slotB) sigOk = none → exec (.chartSourceChosen true sigOk) s =
      .next (weighChart (reportUnknown s (chartImage s s.fw[(4 : Fin 5)].slotB)) s.fw[(4 : Fin 5)].slotB
        (chartImage s s.fw[(4 : Fin 5)].slotB)))

/-- The milestones from 0x05 on, the Chart Locker's own events, the tamper events, and the end of a first start. -/
def Obligations.LandfallEndCompletes : Prop :=
  (∀ s img, supplied s = true → s.landfall.phase = 4 → inHold s = false →
      (bootImage s 1 img).fw[(1 : Fin 5)].started = true → s.landfall.warm = false →
      ∃ t, exec (.sextantImageLoaded img) s = .next t ∧ t.sx.up = true ∧ t.landfall.phase = 5)
  ∧ (∀ s c, s.chart.inUse = some c → supplied s = true → s.landfall.phase = 5 → inHold s = false →
      exec .chartSectionsDistributed s = .next (settle s (updLandfall (distribute s c) fun l =>
        { l with phase := if l.hostReady then 7 else 6 })))
  ∧ (∀ s, hostTurn s = true → ∃ u, exec .hostReady s = .next (settle s (resumeOutlets u (decide (s.landfall.phase = 9))))
      ∧ u.landfall.hostReady = true ∧ u.landfall.recovering = true ∧ u.landfall.helmUp = true
      ∧ ∀ k : Fin 6, u.host.cls[k].milli = classBurst k * 1000)
  ∧ (∀ s failed ant paths upsets, supplied s = true → s.landfall.phase = 7 → inHold s = false →
      exec (.selfTestsComplete failed ant paths upsets) s =
      .next (settle s (updLandfall (selfTestNews (scrubAll s upsets) failed ant paths) fun l => { l with phase := 8 })))
  ∧ (∀ s, supplied s = true → s.landfall.phase = 8 → inHold s = false → ∃ u, exec .landfallComplete s =
      .next (settle s u) ∧ u.landfall.phase = 9 ∧ u.pwr.rung = .underway
      ∧ (isManager s = true → u.mgr.role = .listening) ∧ (isManager s = false → u.mgr = s.mgr))
  ∧ (∀ s slot, exec (.slotOperationBoundary slot) s = .next (slotBoundary s slot))
  ∧ (∀ s up, s.landfall.helmUp = true → s.pwr.rung.code < 3 → suspended s 3 = false →
      s.flt.keyAt + 675000 ≤ s.flt.underMs → ∃ t, exec (.keyScrub up) s = .next t ∧ t.locker.scrubPos = (s.locker.scrubPos + 1) % 128)
  ∧ (∀ s x, tamperShown s x ≠ 0 → (s.pwr.onVbat = false ∨ s.pwr.vbat = true) →
      (s.flt.island[(7 : Fin 17)].lost = false ∨ s.landfall.helmUp = true) → ∃ t,
      exec (.tamperEvent x) s = .next t ∧ t.tamper.sources = s.tamper.sources ||| tamperShown s x
        ∧ t.tamper.cnt = satInc 8 s.tamper.cnt ∧ t.tamper.time = s.now)
  ∧ (∀ s x, exec (.tamperSourceCeases x) s =
      .next { s with tamper := { s.tamper with active := s.tamper.active &&& tamperShown s x } })
  ∧ (∀ s target, firstStarting s target = true →
      exec (.firstStartSuccess target) s = .next (settle s (startSucceeds s target)))
  ∧ (∀ s target, (s.fw[target]).activating = true → target ≠ 4 →
      exec (.firstStartFailure target) s = .next (settle s (startFails s target)))

/-- The ladder down and up, and VBAT (R465 to R475, Table 20-4). -/
def Obligations.PowerCompletes : Prop :=
  (∀ s r, s.pwr.rung.below = some r → r.code ≤ lowestRung s → quiet s r = true →
      cfgN s 0xA0 0 0x000 15 0 * 1000 ≤ s.pwr.quietMs → exec .rungDown s = .next (enterRung s r))
  ∧ (∀ s, s.pwr.rung = .hoveTo → quiet s .anchored = true → 2 ≤ lowestRung s →
      cfgN s 0xA0 0 0x000 15 0 * 1000 ≤ s.pwr.quietMs →
      exec .rungDown s = .next { s with pwr := { s.pwr with rung := .anchored, quietMs := 0 } })
  ∧ (∀ s, s.pwr.quietMs < cfgN s 0xA0 0 0x000 15 0 * 1000 → exec .rungDown s = .next s)
  ∧ (∀ s, (s.pwr.rung = .hoveTo ∨ s.pwr.rung = .anchored) → quiet s s.pwr.rung = false →
      exec .quietConditionCeases s = .next { s with pwr := { s.pwr with rung := .underway, quietMs := 0 } })
  ∧ (∀ s, s.pwr.rung = .anchored → exec (.wakeEvent .frame) s =
      .next { s with pwr := { s.pwr with rung := .underway, quietMs := 0, lastWake := 0 } })
  ∧ (∀ s, s.pwr.rung = .moored → cfgB s 0xA0 0 0x008 0 = true →
      exec (.wakeEvent .pin) s = .next (leaveMoored s .pin))
  ∧ (∀ s, s.pwr.rung = .laidUp → cfgB s 0xA0 0 0x008 2 = true → exec .wkAlarm s = .next (warmLandfall s .alarm))
  ∧ (∀ s, s.pwr.rung = .dark → cfgB s 0xA0 0 0x008 2 = true → exec .wkAlarm s = .next (warmLandfall s .alarm))
  ∧ (∀ s mcore io, (mcore < 810000 ∨ io < 1500000) → ∃ t, exec (.vbatSwitchover mcore io) s = .next t
      ∧ t.pwr.onVbat = true ∧ t.pwr.rail[(3 : Fin 9)] = some mcore ∧ t.pwr.rail[(5 : Fin 9)] = some io
      ∧ t.mer.chr.running = (s.mer.chr.running && s.pwr.vbat))
  ∧ (∀ s mcore io, 855000 ≤ mcore → mcore ≤ 945000 → 1710000 ≤ io → io ≤ 1890000 →
      ∃ t, exec (.mainRailsReturn mcore io) s = .next t ∧ t.pwr.onVbat = false ∧ t.mer = s.mer
      ∧ t.pwr.rail[(3 : Fin 9)] = some mcore ∧ t.pwr.rail[(5 : Fin 9)] = some io)
  ∧ (∀ s, s.pwr.onVbat = true → ∃ t, exec .vbatLoss s = .next t ∧ t.pwr.vbat = false ∧ t.mer.chr.running = false)
  ∧ (∀ s, s.pwr.onVbat = false → exec .vbatLoss s = .next { s with pwr := { s.pwr with vbat := false } })

/-- Core faults, island clocks, memory errors, scrubs, the analog supplies and the logbook (R63 to R65, R445 to R450, R468). -/
def Obligations.FaultsComplete : Prop :=
  (∀ s, s.landfall.helmUp = true → s.fw[(0 : Fin 5)].activating = false → exec .helmCorePairMismatch s =
      .next (helmRestart (logDetect (markCoreFault s) 0x0201 .helm 0)))
  ∧ (∀ s, s.sx.up = true → s.fw[(1 : Fin 5)].activating = false → ∃ t, exec .sextantCoreMismatch s = .next t ∧ t.sx.up = false
      ∧ ∀ g : Fin 8, s.sx.stage[g].st ≠ .off → LatchedBy t g .internal)
  ∧ (∀ s, s.sx.up = false → s.fw[(1 : Fin 5)].started = true → s.fw[(1 : Fin 5)].activating = false →
      s.landfall.holdTamper = false → sextantClocked s = true → 5 ≤ s.landfall.phase →
      ∃ t, exec .sextantSupervisorRestart s = .next t ∧ t.sx.up = true ∧ t.sx.stage = s.sx.stage ∧ t.sx.cell = s.sx.cell)
  ∧ (∀ s, s.mer.up = true → s.fw[(3 : Fin 5)].activating = false → ∃ t, exec .meridianCoreFault s = .next t ∧ t.mer.up = false ∧ t.mer.saved = s.mer.saved
      ∧ t.flt.lastCode = 0x0203)
  ∧ (∀ s isl clk, islandDieUp s isl = true → s.fw[islandDie isl].activating = false → s.flt.island[isl].lost = false → s.flt.island[isl].off = false →
      ∃ u, exec (.islandClockLoss isl clk) s = .next (islandReaction u isl clk)
      ∧ u.flt.islCnt = satInc 16 s.flt.islCnt ∧ u.flt.lastCode = 0x0301)
  ∧ (∀ s isl, s.flt.island[isl].lost = true → s.flt.island[isl].off = false →
      (12 ≤ isl.val ∨ s.flt.island[isl].at_ + 250 ≤ s.mono) → ∃ t, exec (.islandRestart isl true) s = .next t ∧ t.flt.island[isl].lost = false ∧ t.flt.island[isl].tries = 0)
  ∧ (∀ s isl, s.flt.island[isl].lost = true → s.flt.island[isl].off = false → isl.val < 12 →
      3 ≤ s.flt.island[isl].tries → s.flt.island[isl].at_ + 250 ≤ s.mono → ∃ t, exec (.islandRestart isl false) s = .next t
      ∧ t.flt.island[isl].off = true ∧ t.flt.islOff = isl.val + 1)
  ∧ (∀ s n, ∃ t, exec (.doubleBitError (.heldTwice n) false) s = .next t ∧ t.flt.ded = satInc 16 s.flt.ded
      ∧ t.landfall = s.landfall ∧ t.sx = s.sx ∧ t.lk = s.lk ∧ t.mer = s.mer)
  ∧ (∀ s, s.fw[(0 : Fin 5)].activating = false → ∃ u, exec (.doubleBitError .helmSram false) s = .next (helmRestart u)
      ∧ u.flt.ded = satInc 16 s.flt.ded ∧ u.flt.lastCode = 0x0102 ∧ u.mgr.coreFaultAt = some s.mono
      ∧ u.free = s.free + 1)
  ∧ (∀ s p, scrubs s (scrubberOf p) = false → exec (.doubleBitError p true) s = .next s)
  ∧ (∀ s m passEnd n, scrubs s m = true → n ≠ 0 →
      ∃ t, exec (.scrubPass m passEnd n) s = .next t ∧ t.flt.corr = min 65535 (s.flt.corr + n))
  ∧ (∀ s uV, s.landfall.vddRf = true → inWindow 7 uV = false → ∃ t, exec (.analogSupplyDip true uV) s = .next t
      ∧ t.landfall.vddRf = false ∧ t.rdr.field = false ∧ t.rdr.window = none ∧ t.flt.lastCode = 0x0302)
  ∧ (∀ s uV, s.landfall.vdda = true → inWindow 6 uV = false → ∃ u,
      exec (.analogSupplyDip false uV) s = .next (settle s (vddaLost u))
      ∧ u.flt.supCnt = satInc 16 s.flt.supCnt ∧ u.flt.lastCode = 0x0302)
  ∧ (∀ s rf uV, analogOk s rf = false → inWindow (analogRail rf) uV = true →
      ∃ t, exec (.analogSupplyReturn rf uV) s = .next t ∧ analogOk t rf = true)
  ∧ (∀ s r rest, s.log.waiting = r :: rest → s.landfall.helmUp = true → suspended s 12 = false →
      s.log.scanDone = true → s.log.fault = false → ∃ t,
      exec (.logRecordWrite false) s = .next t ∧ t.log.waiting = rest ∧ t.log.ring = (addRecord s.log r).ring)
  ∧ (∀ s r rest, s.log.waiting = r :: rest → s.landfall.helmUp = true → suspended s 12 = false →
      s.log.fault = true → ∃ t, exec (.logRecordWrite false) s = .next t ∧ t.log.waiting = rest
        ∧ t.log.ring = s.log.ring ∧ t.log.sram = fitSram s.log.sram.length (s.log.sram ++ [r]))
  ∧ (∀ s n, s.landfall.hostReady = true → s.log.scanDone = false → 256 ≤ n → n ≤ 16384 → ∃ t,
      exec (.logbookScanEnd (some n)) s = .next t ∧ t.log.scanDone = true ∧ t.log.device = n
        ∧ t.log.cur = (s.log.ring.map (·.seq)).max?)
  ∧ (∀ s, s.landfall.hostReady = true → s.log.scanDone = false → ∃ t,
      exec (.logbookScanEnd none) s = .next t ∧ t.log.scanDone = true ∧ t.log.fault = true)

/-- Turxel: PHY polls, received frames by class and reason of refusal, path health, beacons, PTP and network requests
(R325 to R330, R337 to R340, R375). -/
def Obligations.TurxelCompletes : Prop :=
  (∀ s p link speed duplex, txlEn s p = true → netRuns s = true → s.landfall.hostReady = true →
      link = true → duplex = true → (speed = 100 ∨ speed = 1000) →
      exec (.phyStatusPoll p link speed duplex) s =
        .next (updTxlPort s p fun x => { x with mdio := mdioRead s p, link := true, speed := decide (speed = 1000),
                                                 beaconFrom := if x.link then x.beaconFrom else s.mono }))
  ∧ (∀ s p link speed duplex, txlEn s p = true → netRuns s = true → s.landfall.hostReady = true →
      (link = false ∨ duplex = false ∨ (speed ≠ 100 ∧ speed ≠ 1000)) → ∃ t,
      exec (.phyStatusPoll p link speed duplex) s = .next t
      ∧ t.txl.port[p].link = false ∧ t.txl.port[p].pathLost = true)
  ∧ (∀ s p, txlEn s p = true → s.landfall.hostReady = true → s.txl.port[p].pathLost = false →
      (s.txl.port[p].link = false ∨ s.txl.port[p].beaconAt + 50 ≤ s.mono) → ∃ t, exec (.pathLost p) s = .next t ∧ t.txl.port[p].pathLost = true ∧ t.flt.lastCode = 0x0702)
  ∧ (∀ s p, s.txl.port[p].pathLost = true → s.txl.port[p].link = true →
      s.mono < s.txl.port[p].beaconAt + 50 → s.txl.port[p].beaconFrom + 1000 ≤ s.mono → ∃ t,
      exec (.pathLostClear p) s = .next t ∧ t.txl.port[p].pathLost = false ∧ t.txl.port[p].link = true)
  ∧ (∀ s (p : Fin 2) f, txlEn s p = true → netRuns s = true → (etherOk s f.etype = false ∨ sizeOk f = false) →
      exec (.turxelFrameRx p f) s = .next (updTxlPort s p fun x => { x with drop := satInc 16 x.drop }))
  ∧ (∀ s (p : Fin 2) f x key, txlEn s p = true → netRuns s = true → etherOk s f.etype = true → sizeOk f = true →
      f.etype = cfgN s 0x50 0 0x000 31 16 → parseTxl f.body = some x → classOpen s p x = true → x.site = siteId s →
      x.cls ≠ .host → s.txl.key = some key → x.mac ≠ (hmac key x.signed).take 8 →
      exec (.turxelFrameRx p f) s = .next (updTxlPort (useSlot s (linkSlot s) 1) p
        fun y => { y with macFail := satInc 16 y.macFail }))
  ∧ (∀ s (p : Fin 2) f x key, txlEn s p = true → netRuns s = true → etherOk s f.etype = true → sizeOk f = true →
      f.etype = cfgN s 0x50 0 0x000 31 16 → parseTxl f.body = some x → classOpen s p x = true → x.site = siteId s →
      x.cls ≠ .host → s.txl.key = some key → x.mac = (hmac key x.signed).take 8 →
      (x.dst = nodeId s ∨ x.dst = 0xFFFF) → lseqOk s x p = true → ∃ t e, exec (.turxelFrameRx p f) s = .next t
      ∧ t.txl.seen.head? = some e ∧ (e.src, e.cls, e.port, e.lseq, e.at_) = (x.src, x.cls.code, p, x.lseq, s.mono)
      ∧ (x.cls = .safe → (p, ⟨x.payload, x.portB, s.mono⟩) ∈ t.txl.fwd)
      ∧ (x.cls = .beacon → t.txl.port[p].beaconAt = s.mono)
      ∧ (x.cls ≠ .ctrl → t.txl.handed = some (x.cls.code, x.src, x.lseq)))
  ∧ (∀ s, helmRuns s = true → s.landfall.hostReady = true → linksUp s = true → acting s = false → ∃ t,
      exec .beaconSend s = .next t ∧ t = sendBeacon { s with mgr := { s.mgr with renewIn := 0 } } false false false)
  ∧ (∀ s, helmRuns s = true → s.landfall.hostReady = true → linksUp s = true → acting s = true → s.mgr.renewIn = 0 →
      quorum s = true →
      exec .beaconSend s = .next (sendBeacon { s with mgr := { s.mgr with renewIn := 29 } } true true false))
  ∧ (∀ s (p : Fin 2) dom log, ptpOn s = true → txlEn s p = true → netRuns s = true →
      dom = cfgN s 0x50 0 0x040 23 16 → p = ptpPref s → s.txl.ptp.port ≠ p → exec (.ptpMessage p dom (.announce log)) s =
      .next (updPtp (usePtpPort s p) fun x => { x with annAt := s.mono, annLog := log }))
  ∧ (∀ s (p : Fin 2) dom seq log org corr rx d, ptpOn s = true → txlEn s p = true → netRuns s = true →
      dom = cfgN s 0x50 0 0x040 23 16 → p = s.txl.ptp.port →
      d = stampOf rx - (org * 65536 + corr) - s.txl.ptp.delay → ∃ t,
      exec (.ptpMessage p dom (.sync seq false log org corr rx)) s = .next t
      ∧ t.txl.ptp.offset = clampInt (-2147483648) 2147483647 (d / 65536)
      ∧ (100000 * 65536 < d.natAbs → t.txl.ptp.locked = false ∧ t.txl.ptp.good = 0)
      ∧ (d.natAbs ≤ 10000 * 65536 → 15 ≤ s.txl.ptp.good → t.txl.ptp.locked = true ∧ t.txl.ptp.good = 16))
  ∧ (∀ s, ptpOn s = true → threeIntervals s s.txl.ptp.annAt s.txl.ptp.annLog = true →
      exec .ptpAnnounceTimeout s = .next (usePtpPort s (1 - s.txl.ptp.port)))
  ∧ (∀ s, ptpOn s = true → threeIntervals s s.txl.ptp.syncAt s.txl.ptp.syncLog = true → ∃ t,
      exec .ptpSyncTimeout s = .next t ∧ t.txl.ptp.locked = false ∧ t.txl.ptp.good = 0)
  ∧ (∀ s p r a, netAnswer s p r = some a → txlEn s p = true → netRuns s = true → helmRuns s = true →
      s.landfall.hostReady = true → exec (.networkServiceRequest p r) s =
        .next { s with txl := { s.txl with answered := s.txl.answered + 1, answer := some (p, a) } })

/-- Safe telegrams: sending, forwarding, pairing and its timeout, the watchdog, single-port operation (R331 to R336). -/
def Obligations.SafeTelegramsComplete : Prop :=
  (∀ s (p : Fin 2) c, (s.txl.fwd.find? fun c => c.1 == p) = some c → netRuns s = true →
      ∃ t, exec (.safeFrameForward p) s = .next t ∧ t.txl.fwd = s.txl.fwd.erase c
      ∧ ∀ ch : Fin 2, t.safe.chan[ch].inbox = s.safe.chan[ch].inbox ++ [c])
  ∧ (∀ s, s.lk.runA = true → s.lk.runB = true → s.lk.restarting = false → s.fw[(2 : Fin 5)].activating = false →
      linksUp s = true → netRuns s = true → ∃ t, exec .safeTelegramCycle s = .next t
      ∧ t.safe.sseq = (s.safe.sseq + 1) % 2 ^ 32 ∧ t.safe.sentA = telegram s t.safe.sseq
      ∧ t.safe.sentB = (if safeMode s = 1 then [] else t.safe.sentA))
  ∧ (∀ s (p ch : Fin 2) c, (if ch = 0 then s.lk.runA else s.lk.runB) = true →
      (s.safe.chan[ch].inbox.find? fun c => c.1 == p) = some c →
      ∃ u, exec (.safeCopyReceived p ch) s = .next (settle s (takeCopy u p ch c.2))
      ∧ u.safe.chan[ch].inbox = s.safe.chan[ch].inbox.erase c ∧ u.lk = s.lk ∧ u.txl = s.txl)
  ∧ (∀ s (p ch : Fin 2) c (k : Fin 16) w, copySrc c ≠ safeSid s → c.flagB = decide (p = 1) → c.bytes.length = 32 →
      beNat (slice c.bytes 28 4) = scode s c.bytes → peerOf s (copySrc c) = some k →
      (copyDst c = safeSid s ∨ copyDst c = 0xFFFF) → safeMode s ≠ 1 → singleFrom s p = false →
      s.safe.chan[ch].waiting = [w] → copySrc w.copy = copySrc c → copySseq w.copy = copySseq c → w.port ≠ p →
      c.at_ ≤ w.copy.at_ + 4 → w.copy.bytes = c.bytes → s.safe.chan[ch].peer[k].last = none →
      (takeCopy s p ch c).safe.chan[ch].peer[k].expired = false
      ∧ (takeCopy s p ch c).safe.chan[ch].peer[k].last = some (copySseq c)
      ∧ (takeCopy s p ch c).safe.chan[ch].peer[k].fed = s.mono
      ∧ (takeCopy s p ch c).safe.chan[ch].waiting = [])
  ∧ (∀ s (k : Fin 16) w, s.safe.chan[(0 : Fin 2)].waiting = [w] → peerOf s (copySrc w.copy) = some k →
      w.copy.at_ + 4 < s.mono → ∃ t,
      exec (.safePairTimeout k) s = .next t ∧ t.safe.chan[(0 : Fin 2)].waiting = []
      ∧ t.safe.missB = (if w.port = 0 then satInc 16 s.safe.missB else s.safe.missB)
      ∧ t.safe.missA = (if w.port = 0 then s.safe.missA else satInc 16 s.safe.missA))
  ∧ (∀ s (k : Fin 16), peerEn s k = true → ∃ u, exec (.safeWatchdogExpiry k) s = .next (settle s u)
      ∧ (∀ ch : Fin 2, u.safe.chan[ch].peer[k].expired =
        (s.safe.chan[ch].peer[k].expired || decide (s.safe.chan[ch].peer[k].fed + 20 ≤ s.mono))) ∧ u.lk = s.lk)
  ∧ (∀ s (lost : Fin 2), safeMode s = 2 → s.safe.fallback = false → s.safe.copyAt[lost] + 10 ≤ s.mono →
      s.mono < s.safe.copyAt[(1 - lost)] + 10 → ∃ t, exec (.safeFallbackEngage lost) s = .next t
      ∧ t.safe = { s.safe with
        fallback := true, fbPort := 1 - lost, fbAt := s.mono, singleOut := false, pairFrom := none })
  ∧ (∀ s from_, s.safe.fallback = true → s.safe.pairFrom = some from_ → from_ + 1000 ≤ s.mono →
      s.mono < s.safe.copyAt[(0 : Fin 2)] + 10 → s.mono < s.safe.copyAt[(1 : Fin 2)] + 10 → ∃ t,
      exec .safeFallbackEnd s = .next t ∧ t.safe = { s.safe with fallback := false, singleOut := false })
  ∧ (∀ s, s.safe.fallback = true → s.safe.fbAt + cfgN s 0x40 0x40 0x000 23 16 * 3600000 ≤ s.mono →
      exec .singleTExpiry s = .next { s with safe := { s.safe with singleOut := true } })

/-- The mains grid, received frames, maps, answers, relaying, polling and routing (R344 to R362). -/
def Obligations.LogLineCompletes : Prop :=
  (∀ s t, s.ll.zcLost = false → ∃ u, exec (.llZcEdge t) s = .next u ∧ u.ll.zcLast = some t ∧ u.ll.zcMiss = 0
      ∧ u.ll.zcLost = false)
  ∧ (∀ s p t, s.ll.zcLost = true → s.ll.zcLast = some p → p + nominalT s = t → 0 < nominalT s → 9 ≤ s.ll.zcGood →
      ∃ u, exec (.llZcEdge t) s = .next u ∧ u.ll.zcLost = false ∧ u.ll.period = nominalT s)
  ∧ (∀ s, 4 ≤ s.ll.zcMiss → s.ll.zcLost = false → ∃ t, exec .llZcMissed s = .next t ∧ t.ll.zcLost = true
      ∧ t.ll.refAt = s.ll.refAt + s.ll.period ∧ t.ll.zcGood = 0)
  ∧ (∀ s, s.ll.zcMiss < 4 → exec .llZcMissed s = .next { s with ll := { s.ll with
      zcMiss := s.ll.zcMiss + 1, zcGood := 0, zcLast := none, refAt := s.ll.refAt + s.ll.period } })
  ∧ (∀ s x r h, llUp s = true → s.ll.sentTo ≤ slotTime s (x.slot + x.idle) → r = rxSlots s x →
      h = decodeLl s (r.1.drop x.idle) (x.slot + x.idle) →
      exec (.llFrameReceived x) s = .next (judgeLl (learnNoise (useSlot s (linkSlot s) 1) x r.1 r.2 h) h))
  ∧ (∀ s h, h.good = true → llForUs s h.frame = false → s.ll.recent = [] →
      (h.frame.kind ≠ 1 ∨ s.ll.beaconAt = none) → isManager s = false → (judgeLl s h).ll.ok = satInc 16 s.ll.ok
      ∧ (judgeLl s h).ll.recent = [(h.frame.src, h.frame.seq, s.mono)]
      ∧ (judgeLl s h).ll.peer[h.frame.sender].heard = true ∧ (judgeLl s h).ll.peer[h.frame.sender].heardAt = s.mono)
  ∧ (∀ s h a, h.good = false → llExpected s = some a → s.ll.isMaster = false →
      (judgeLl s h).ll.lost = satInc 16 s.ll.lost ∧ (judgeLl s h).ll.await = none)
  ∧ (∀ s h, h.good = false → llExpected s = none → (h.sound && llForUs s h.frame) = false → judgeLl s h = s)
  ∧ (∀ s, linksUp s = true → s.landfall.hostReady = true → s.ll.pathLost = false → s.ll.isMaster = false →
      s.ll.beaconAt.getD 0 + 750 ≤ s.mono → ∃ t, exec .llPathLost s = .next t ∧ t.ll = { s.ll with pathLost := true } ∧ t.flt.lastCode = 0x0703)
  ∧ (∀ s b, s.ll.pathLost = true → s.ll.beaconAt = some b → s.mono < b + 750 → s.ll.validFrom + 5000 ≤ s.mono →
      ∃ t, exec .llPathClear s = .next t ∧ t.ll = { s.ll with pathLost := false })
  ∧ (∀ s (a : Fin 34) (seg : Fin 12), s.ll.peer[a].heard = true → 0 < mapEntry s.ll.peer[a].map seg →
      s.ll.peer[a].errAt[seg] + cfgN s 0x51 0 0x008 31 24 * 1000 ≤ s.mono → ∃ t, exec (.llMapStepDown a seg) s = .next t ∧ t.ll.stepCnt = satInc 16 s.ll.stepCnt
      ∧ t.ll.peer[a].map = mapSet s.ll.peer[a].map seg (mapEntry s.ll.peer[a].map seg - 1)
      ∧ t.ll.peer[a].oldMap = s.ll.peer[a].map ∧ t.ll.peer[a].errAt[seg] = s.mono)
  ∧ (∀ s f, llSends s = true → s.ll.reply = some f → s.mono < s.ll.neighAt + 60000 → s.ll.neighLeft = [] →
      mapCost s (raiseMap s.ll.peer[f.sender].told f.step) ≠ 0xFF → ∃ t h, exec .llReplySend s = .next t ∧ t.ll.reply = none ∧ t.ll.sent = some h
      ∧ t.ll.seq = (s.ll.seq + 1) % 32 ∧ h.payload.take 3 = toBe 3 s.ll.peer[f.sender].map)
  ∧ (∀ s f, llSends s = true → s.ll.toRelay = some f → f.kind ≠ 1 → ∃ t h, exec .llRelayForward s = .next t
      ∧ t.ll.toRelay = none ∧ t.ll.relayed = some h ∧ h.payload = f.payload ∧ t.ll.seq = s.ll.seq)
  ∧ (∀ s, llSends s = true → s.ll.isMaster = true → acting s = true → s.ll.exch = none → s.ll.cycleOpen = false →
      ∃ t, exec .llPollRound s = .next t ∧ t.ll.cycleOpen = true ∧ t.ll.turn = 0 ∧ t.ll.bmap = cycleBmap s)
  ∧ (∀ s e, s.ll.isMaster = true → s.ll.exch = some e → e.waiting = true → e.step < 2 → ∃ t,
      exec .llReplyWaitEnd s = .next t ∧ t.ll.retry = satInc 16 s.ll.retry
      ∧ t.ll.exch = some { e with step := e.step + 1, round := 0, waiting := false })
  ∧ (∀ s e, s.ll.isMaster = true → s.ll.exch = some e → e.waiting = true → 2 ≤ e.step → ∃ t,
      exec .llReplyWaitEnd s = .next t ∧ t.ll.retry = s.ll.retry ∧ t.ll.exch = none)
  ∧ (∀ s, s.ll.isMaster = true → s.ll.links ≠ [] → exec .llRouteRebuild s = .next { s with ll := { s.ll with
      route := Vector.ofFn fun k => (candidates s (k + 2)).foldl betterRoute {} } })
  ∧ (∀ s (a b : Fin 34), s.ll.isMaster = false →
      (a.val = llAddr s ∧ ownLinkGone s b = true ∨ b.val = llAddr s ∧ ownLinkGone s a = true) →
      exec (.llLinkUnusable a b) s = .next { s with ll := { s.ll with
        dead := (a.val, b.val) :: s.ll.dead.filter (· ≠ (a.val, b.val)) } })

/-- The worker's commands (R366, R371, R372). -/
def Obligations.WorkerCompletes : Prop :=
  (∀ s, s.landfall.role = 0 → helmRuns s = true → s.landfall.hostReady = true → linksUp s = true →
      exec .workerStatusSend s = .next (sendCtrl { s with wrk := { s.wrk with
        count := (s.wrk.count + 1) % 2 ^ 32, reportDue := false } } 0xFFFF
        (ctrlHead s.wrk.epoch false 3 0 ((s.wrk.count + 1) % 2 ^ 32) 0 ++ statusBody (myStatus s))))
  ∧ (∀ s h u m e, helmRuns s = true → linksUp s = true → s.landfall.role = 0 →
      takeHeard s (fun h => h.isCtrl [1, 2]) = some (h, u) → m = h.alloc →
      pairLe s.wrk.epoch s.wrk.rank m.epoch m.rank = true → s.wrk.cycle = none → m.entries = [e] → e.node = nodeId s →
      ∃ t, exec .allocMessageRx s = .next t
      ∧ t.wrk.epoch = m.epoch ∧ t.wrk.rank = m.rank ∧ t.wrk.cycle = some m.cycle ∧ t.wrk.last = some e.alloc
      ∧ t.wrk.lastAt = s.mono ∧ t.wrk.alloc = e.alloc ∧ t.wrk.drState = 0 ∧ t.txl.inbox = s.txl.inbox.erase h)
  ∧ (∀ s h u, helmRuns s = true → linksUp s = true → s.landfall.role = 0 →
      takeHeard s (fun h => h.isCtrl [1, 2]) = some (h, u) →
      pairLe s.wrk.epoch s.wrk.rank h.alloc.epoch h.alloc.rank = false →
      exec .allocMessageRx s = .next { u with wrk := { u.wrk with fenced := satInc 16 u.wrk.fenced } })
  ∧ (∀ s, s.landfall.role = 0 → helmRuns s = true → s.landfall.hostReady = true → s.wrk.last = none →
      exec .deadReckoningTick s = .next (setAlloc s (pSafe s) 3))
  ∧ (∀ s p, s.landfall.role = 0 → helmRuns s = true → s.landfall.hostReady = true → s.wrk.last = some p →
      s.wrk.lastAt + 15000 ≤ s.mono → pSafe s ≤ p → exec .deadReckoningTick s = .next (setAlloc s (pSafe s) 3))
  ∧ (∀ s p, s.landfall.role = 0 → helmRuns s = true → s.landfall.hostReady = true → s.wrk.last = some p →
      s.wrk.lastAt ≤ s.mono → s.mono ≤ s.wrk.lastAt + 200 → exec .deadReckoningTick s = .next (setAlloc s p 0))

/-- The manager's commands: STATUS, allocation and PARAM, the token, quorum, listening, release and reversion (R366 to
R383). -/
def Obligations.ManagerCompletes : Prop :=
  (∀ s h u w, isManager s = true → helmRuns s = true → linksUp s = true →
      takeHeard s (fun h => h.isCtrl [3]) = some (h, u) →
      (enabled s).find? (fun (w : Fin 32) => smNode s w == h.status.node) = some w →
      ∃ t, exec .workerStatusRx s = .next t ∧ t.mgr.worker[w].status = some h.status ∧ t.mgr.worker[w].at_ = s.mono
        ∧ t.txl.inbox = s.txl.inbox.erase h)
  ∧ (∀ s, acting s = true → helmRuns s = true → linksUp s = true → ∃ t, exec .allocCycle s = .next t
      ∧ t.mgr.cycle = (s.mgr.cycle + 1) % 2 ^ 32
      ∧ ∀ w : Fin 32, t.mgr.worker[w].alloc = (ramped s (targets s))[w])
  ∧ (∀ s from_, s.mgr.shadowDiff = true → s.mgr.agreeFrom = some from_ → from_ + 60000 ≤ s.mono → ∃ t,
      exec .shadowDiffClear s = .next t ∧ t.mgr = { s.mgr with shadowDiff := false, shadowRun := 0 })
  ∧ (∀ s, acting s = true → helmRuns s = true → linksUp s = true → exec (.paramMessage true) s = .next (sendParam s))
  ∧ (∀ s h u, isManager s = true → s.mgr.role = .standby → helmRuns s = true → linksUp s = true →
      takeHeard s (fun h => h.isCtrl [4]) = some (h, u) → ∃ t,
      exec (.paramMessage false) s = .next t ∧ t.mgr.pSite = h.param.pSite
      ∧ t.mgr.heardHigh = max s.mgr.heardHigh h.param.epoch)
  ∧ (∀ s (w : Fin 32), acting s = true → s.mgr.rejoin = true → s.mgr.leaveAt = none → groupOrder s 1 = [w] →
      (∀ grp, 2 ≤ grp → groupOrder s grp = []) → 0 < cfgN s 0x60 (w + 1) 0x000 23 19 → exec .interleaveRecompute s =
        .next (updWorker { s with mgr := { s.mgr with rejoin := false, leaveAt := some s.mono } } w
          fun x => { x with syncPh := interleave 0 1 (cfgN s 0x60 (w + 1) 0x000 23 19) }))
  ∧ (∀ s h u b, isManager s = true → helmRuns s = true → linksUp s = true →
      takeHeard s (fun h => h.cls == .beacon && !h.releases) = some (h, u) → b = h.beacon →
      b.active = false → b.release = false → b.tokenReq = false → s.mgr.peerLost = false → b.logLine = false →
      exec .managerBeaconRx s = .next { u with mgr := { u.mgr with
        heardHigh := max s.mgr.heardHigh b.epoch, peerHealth := b.health, peerTxl := some s.mono } })
  ∧ (∀ s, isManager s = true → helmRuns s = true → s.mgr.peerLost = false → declaredAt s ≤ s.mono → ∃ t,
      exec .peerLost s = .next t
      ∧ t.mgr = { s.mgr with peerLost := true } ∧ t.flt.lastCode = 0x0705)
  ∧ (∀ s, isManager s = true → helmRuns s = true → quorum s = false → acting s = true →
      quorumEnd s + 1200 ≤ s.mono → ∃ t,
      exec .quorumLost s = .next t ∧ t.mgr.role = .fenced ∧ t.mgr.noQuorum = true ∧ t.ll.isMaster = false)
  ∧ (∀ s, isManager s = true → helmRuns s = true → s.mgr.role = .listening → s.mgr.listens = 0 →
      s.mgr.roleAt + 1500 ≤ s.mono → s.mgr.heardActive = true → exec .listenEnd s = .next { s with mgr := { s.mgr with
        role := .standby, roleAt := s.mono, listens := 0, heardActive := false } })
  ∧ (∀ s, isManager s = true → helmRuns s = true → myRank s = true → s.mgr.role = .listening → s.mgr.listens = 0 →
      s.mgr.roleAt + 1500 ≤ s.mono → s.mgr.heardActive = false → quorum s = true → max s.mgr.epoch s.mgr.heardHigh < 0xFFFFFFFF → ∃ t,
      exec .listenEnd s = .next t ∧ t.mgr.role = .active ∧ t.mgr.epoch = max s.mgr.epoch s.mgr.heardHigh + 1)
  ∧ (∀ s, isManager s = true → helmRuns s = true → myRank s = false → s.mgr.role = .listening → s.mgr.listens = 1 →
      s.mgr.roleAt + 3000 ≤ s.mono → s.mgr.heardActive = false → quorum s = true → max s.mgr.epoch s.mgr.heardHigh < 0xFFFFFFFF → ∃ t,
      exec .alternateListenEnd s = .next t ∧ t.mgr.role = .active
      ∧ t.mgr.epoch = max s.mgr.epoch s.mgr.heardHigh + 1)
  ∧ (∀ s, isManager s = true → helmRuns s = true → s.mgr.role = .standby → quorum s = true →
      max (s.mgr.leaseAt + 1200) (declaredAt s) + 20 ≤ s.mono → max s.mgr.epoch s.mgr.heardHigh < 0xFFFFFFFF →
      ∃ t, exec .standbyTakeover s = .next t ∧ t.mgr.role = .active
      ∧ t.mgr.epoch = max s.mgr.epoch s.mgr.heardHigh + 1 ∧ t.ll.isMaster = true
      ∧ t.mgr.takeover = satInc 16 s.mgr.takeover)
  ∧ (∀ s, healthGreen s = false → isManager s = true → s.mgr.role = .active →
      exec .tokenRelease s = .next (stopActing (sendBeacon s true false true) .standby))
  ∧ (∀ s h u b, isManager s = true → helmRuns s = true → linksUp s = true → s.mgr.role = .standby →
      quorum s = true → takeHeard s (fun h => h.cls == .beacon && h.releases) = some (h, u) → b = h.beacon →
      b.release = true → max s.mgr.epoch (max s.mgr.heardHigh b.epoch) < 0xFFFFFFFF → ∃ t,
      exec .releaseRx s = .next t ∧ t.mgr.role = .active
      ∧ t.mgr.epoch = max s.mgr.epoch (max s.mgr.heardHigh b.epoch) + 1)
  ∧ (∀ s, isManager s = true → helmRuns s = true → linksUp s = true → suspended s 14 = false →
      exec .healthReport s = .next (sendBulk s 3 (healthReport s)))
  ∧ (∀ s, isManager s = true → myRank s = true → helmRuns s = true → s.mgr.role = .standby →
      cfgB s 0x60 0 0x00C 31 = true → healthGreen s = true → s.mgr.redAt + 60000 ≤ s.mono →
      exec .tokenRequestSet s = .next { s with mgr := { s.mgr with tokenReq := true } })
  ∧ (∀ s, isManager s = true → myRank s = false → helmRuns s = true → s.mgr.role = .active → s.mgr.tokenReq = true →
      ∃ t, exec .revertRelease s = .next t ∧ t.mgr.role = .releasing
      ∧ t.mgr.cycle = (s.mgr.cycle + 1) % 2 ^ 32)
  ∧ (∀ s, s.mgr.role = .releasing → s.mgr.roleAt + 300 ≤ s.mono → ∃ t, exec .revertTimeout s = .next t ∧ t.mgr.role = .standby
      ∧ t.mgr.tokenReq = false ∧ t.ll.isMaster = false)

/-- HELLO, the authentication exchange, the ends of sessions and challenges, and the control commands (R391 to R394, R400,
R405). -/
def Obligations.SessionsComplete : Prop :=
  (∀ s f, f.sid = 0 → transportOpen s f.via = true → bareOk f (helloBody 0) = true → frameFits f = true →
      exec (.hello f) s = .next (sendBare s f.via 0 0x01 f.cls .ok (helloPayload s)))
  ∧ (∀ s f x, Received s f 0x01 (helloBody 0) x → frameFits f = true → exec (.hello f) s =
      .next (reply (noteFrame s f) f 0x01 false .ok 0 (helloPayload (noteFrame s f))))
  ∧ (∀ s f x, Received s f 0x01 (helloBody 1) x → frameFits f = true → ∃ t, exec (.helloClose f) s = .next t
      ∧ findSession t f.sid = none)
  ∧ (∀ s f (role : Fin 4) nh, f.sid = 0 → transportOpen s f.via = true → bareOk f (toBe 1 role ++ nh) = true →
      roleHeldOff s role = false → frameFits f = true → nh.length = 16 → s.host.sessions.length < 8 → s.host.challenges.length < 2 →
      readyForUse s.locker.slot[roleSlot role] = true → s.locker.slot[roleSlot role].roles.testBit 4 = true →
      exec (.authChallenge f role nh) s = .next (openChallenge s f role nh))
  ∧ (∀ s f ph c, s.host.challenges.find? (·.sid == f.sid) = some c → transportOpen s f.via = true → bareOk f ph = true →
      frameFits f = true → ph.length = 32 → readyForUse s.locker.slot[roleSlot c.role] = true →
      ph = proofHost s.locker.slot[roleSlot c.role].material c.sid c.nh c.nm → roleHeldOff s c.role = false →
      s.host.sessions.length < 8 → exec (.authProve f ph) s =
        .next (openSessionOf (dropChallenge s c.sid) f c s.locker.slot[roleSlot c.role].material))
  ∧ (∀ s sid x, findSession s sid = some x → x.lastRx + cfgN s 0x01 0 0x100 31 16 * 1000 ≤ s.mono →
      ∃ t, exec (.sessionIdleTimeout sid) s = .next t ∧ findSession t sid = none
      ∧ ∀ x ∈ t.host.transfers, x.sid ≠ sid)
  ∧ (∀ s sid c, c ∈ s.host.challenges → c.sid = sid → c.at_ + 2000 ≤ s.mono →
      ∃ t, exec (.challengeLapse sid) s = .next t ∧ ∀ c ∈ t.host.challenges, c.sid ≠ sid)
  ∧ (∀ s f x u opId y, ControlAccepted s f 0x04 (toBe 4 opId) x u →
      s.host.ops.find? (fun y => y.opId == opId && (y.role == x.role || x.role == 1)) = some y → y.complete = true →
      exec (.resultGet f opId) s =
        .next (replyCtl u f ⟨y.cmd.code, true, y.cls, resultStatus y, opId, resultPayload y⟩))
  ∧ (∀ s f x u opIds, ControlAccepted s f 0x05 (toBe 1 opIds.length ++ (opIds.map (toBe 4)).flatten) x u →
      opIds ≠ [] → opIds.length ≤ 64 → exec (.resultAck f opIds) s =
      .next (replyCtl ((opIds.eraseDups.filter (ackable s x.role)).foldl releaseResult u) f
        ⟨0x05, false, f.cls, .ok, 0, toBe 1 (opIds.eraseDups.filter (ackable s x.role)).length⟩))
  ∧ (∀ s f x u opId j, ControlAccepted s f 0x06 (toBe 4 opId) x u → s.host.journal.find? (·.opId == opId) = some j →
      exec (.opStatus f opId) s = .next (replyCtl u f ⟨0x06, false, f.cls, .ok, opId, j.bytes⟩))

/-- The life of an operation and of its result, chunk timeouts, the SPI read, and recovery (R386, R399 to R406, R412). -/
def Obligations.OperationsComplete : Prop :=
  (∀ s id x, s.host.ops.find? (·.opId == id) = some x → x.started = false → mayStart s x = true →
      exec (.opStart id) s = .next (startOp s x))
  ∧ (∀ s id x r, s.host.ops.find? (fun x => x.opId == id && x.started && !x.complete) = some x → x.result = some r →
      x.cmd.code ≠ 0x51 → ∃ t, exec (.opComplete id) s = .next t ∧ t.host.rgen = (s.host.rgen + 1) % 2 ^ 32
      ∧ ∀ y ∈ t.host.ops, y.opId = x.opId → y.complete = true ∧ y.rgen = t.host.rgen ∧ y.result = some r)
  ∧ (∀ s id x, x ∈ s.host.ops → x.opId = id → x.complete = true → x.doneAt + 60000 ≤ s.mono →
      ∃ t, exec (.resultHoldExpiry id) s = .next t
      ∧ (∀ y ∈ t.host.ops, y.opId ≠ id) ∧ ∀ j ∈ t.host.journal, j.opId = id → j.held = false)
  ∧ (∀ s sid cmd, ∃ t, exec (.chunkTimeout sid cmd) s = .next t
      ∧ t.host.transfers = s.host.transfers.filter fun x =>
        !(x.sid == sid && x.cmd == cmd && decide (x.at_ + 60000 ≤ s.mono)))
  ∧ (∀ s b, cfgB s 0x01 0 0x100 15 = true →
      b = ((s.host.out.find? fun f => f.via == .spi).map OutFrame.bytes).getD [] → exec .hspiReadTransaction s =
      .next { s with host := { s.host with
        out := s.host.out.eraseP fun f => f.via == .spi, miso := toBe 2 b.length ++ b } })
  ∧ (∀ s, s.landfall.recovering = true → ∃ t, exec .recoveryEnd s = .next t ∧ t.landfall.recovering = false
      ∧ t.landfall.recoveryEnd = s.now ∧ t.landfall.recoveredAt = s.mono)
  ∧ (∀ s id j, j ∈ s.host.journal → j.opId = id → j.recovered = true →
      s.landfall.recoveredAt + 600000 ≤ s.mono → ∃ t,
      exec (.recoveredHoldExpiry id) s = .next t ∧ ∀ j ∈ t.host.journal, j.opId = id → j.held = false)
  ∧ (∀ s f x code, Received s f code.toNat [] x → landfallDone s = true → s.landfall.recovering = false →
      exec (.unknownCommand f code) s = .next (reply (noteFrame s f) f code.toNat false .badParam 0 []))

/-- An accepted operation that reads or writes parameters, reads the journal or the logbook, or takes a Fix, has its
effect (R145, R217, R381, R402, R405, R411, R460, R461). -/
def Obligations.ParametersComplete : Prop :=
  (∀ s f x u op, Accepted s f .barrier x u op →
      exec (.barrier f) s = .next (setResult u op.opId .ok []))
  ∧ (∀ s f x u op, Accepted s f .healthGet x u op →
      exec (.healthGet f) s = .next (setResult u op.opId .ok (healthReport u)))
  ∧ (∀ s f a n x u op, Accepted s f (.journalRead a n) x u op →
      exec (.journalRead f a n) s = .next (setResult u op.opId (journalFrom u a n).1 (journalFrom u a n).2))
  ∧ (∀ s f a n x u op, Accepted s f (.logRead a n) x u op →
      exec (.logRead f a n) s = .next (setResult u op.opId (logFrom s a n).1 (logFrom s a n).2))
  ∧ (∀ s f a n x u op, Accepted s f (.readParam a n) x u op →
      exec (.readParam f a n) s = .next (runRead u op.opId x.sid a n))
  ∧ (∀ s f (i : Fin 3) x u op, Accepted s f (.readParam (regAddr 0x30 (0x500 + i) 0x020) 1) x u op →
      exec (.engImpLoRead f i) s = .next (runRead u op.opId x.sid (regAddr 0x30 (0x500 + i) 0x020) 1))
  ∧ (∀ s f (o : Fin 2) x u op, Accepted s f (.readParam (regAddr 0x30 (0x800 + o) 0x000) 1) x u op →
      exec (.tar1ImpLoRead f o) s = .next (runRead u op.opId x.sid (regAddr 0x30 (0x800 + o) 0x000) 1))
  ∧ (∀ s f x u op, Accepted s f (.readParam (regAddr 0x30 0x700 0x000) 1) x u op →
      exec (.chrTimeLoRead f) s = .next (runRead u op.opId x.sid (regAddr 0x30 0x700 0x000) 1))
  ∧ (∀ s f a ws x u op t, Accepted s f (.writeParam a ws) x u op → runWrite u x.sid x.role a ws = (.ok, t) →
      exec (.writeParam f a ws) s = .next (noteOutcome (resolveOp t op.opId .ok []) op))
  ∧ (∀ s f sel i x u op t, Accepted s f (.writeParam (selAddr sel) [BitVec.ofNat 32 i]) x u op →
      runWrite u x.sid x.role (selAddr sel) [BitVec.ofNat 32 i] = (.ok, t) →
      exec (.recordSelectWrite f sel i) s = .next (noteOutcome (resolveOp t op.opId .ok []) op))
  ∧ (∀ s f x u op t, Accepted s f (.writeParam (regAddr 0x30 0x300 0x008) [1]) x u op →
      runWrite u x.sid x.role (regAddr 0x30 0x300 0x008) [1] = (.ok, t) →
      exec (.metroCommit f) s = .next (noteOutcome (resolveOp t op.opId .ok []) op))
  ∧ (∀ s f n x u op t, n < 4096 → Accepted s f (.writeParam (regAddr 0x90 n 0x80C) [emergWord s n]) x u op →
      runWrite u x.sid x.role (regAddr 0x90 n 0x80C) [emergWord s n] = (.ok, t) →
      exec (.emergReqWrite f n) s = .next (noteOutcome (resolveOp t op.opId .ok []) op))
  ∧ (∀ s f sc pk x u op, Accepted s f (.telFix sc pk) x u op → needsStage s = false →
      s.flt.island[(11 : Fin 17)].lost = false → s.sx.up = true → exec (.telFix f sc pk) s = .next (noteOutcome (setResult
        ((if sc = 0xFF then List.finRange 8 else [Fin.ofNat 8 sc]).foldl (fixStage ((s.sx.fixLast + 1) % 2 ^ 32) pk)
          { u with sx := { u.sx with fixLast := (s.sx.fixLast + 1) % 2 ^ 32, fixTime := u.now } })
        op.opId .ok (toBe 4 ((s.sx.fixLast + 1) % 2 ^ 32) ++ toBe 8 u.now)) op))

/-- An accepted operation on a session, a certificate, the authorisation table, an account, the site limit, the weather
hold, the scroll list or the display has its effect. -/
def Obligations.CommercialOperationsComplete : Prop :=
  (∀ s f o h x u op, Accepted s f (.sessionAuthorise o 1 h) x u op → needsStage s = false → s.outlet[Fin.ofNat 2 o].st = .identified →
      s.outlet[Fin.ofNat 2 o].auth.hash = h →
      exec (.sessionAuthorise f o 1 h) s = .next (resolveOp (allow u (Fin.ofNat 2 o) 1) op.opId .ok []))
  ∧ (∀ s f o h x u op, Accepted s f (.sessionAuthorise o 2 h) x u op → needsStage s = false → s.outlet[Fin.ofNat 2 o].st = .identified →
      s.outlet[Fin.ofNat 2 o].auth.hash = h → exec (.sessionAuthorise f o 2 h) s =
        .next (resolveOp (refuse (updOutlet u (Fin.ofNat 2 o) fun y => { y with authSrc := 1 }) (Fin.ofNat 2 o)) op.opId .ok []))
  ∧ (∀ s f o h k x u op t d, Accepted s f (.sessionCert o h k) x u op → takeChunk u x.sid 0x20 o k = (t, some (false, d)) →
      exec (.sessionAuthoriseCert f o h k) s = .next (resolveOp t op.opId .ok []))
  ∧ (∀ s f o h k x u op t d, Accepted s f (.sessionCert o h k) x u op → takeChunk u x.sid 0x20 o k = (t, some (true, d)) →
      needsStage s = false → s.outlet[Fin.ofNat 2 o].link.session = true → s.outlet[Fin.ofNat 2 o].answer = .ongoing →
      exec (.sessionAuthoriseCert f o h k) s =
        .next (resolveOp (answer t (Fin.ofNat 2 o) (.ok (d.map (·.toNat)))) op.opId .ok []))
  ∧ (∀ s f o x u op, Accepted s f (.sessionStop o) x u op → needsStage s = false → s.outlet[Fin.ofNat 2 o].st ≠ .idle →
      s.outlet[Fin.ofNat 2 o].st ≠ .finished → s.outlet[Fin.ofNat 2 o].st ≠ .faulted →
      exec (.sessionStop f o) s = .next (resolveOp (stopTrigger u (Fin.ofNat 2 o) .host) op.opId .ok
        (toBe 1 (stopTrigger u (Fin.ofNat 2 o) .host).outlet[Fin.ofNat 2 o].stopReason)))
  ∧ (∀ s f k x u op t d, Accepted s f (.authTableLoad k) x u op → takeChunk u x.sid 0x22 0 k = (t, some (false, d)) →
      exec (.authTableLoad f k) s = .next (resolveOp t op.opId .ok []))
  ∧ (∀ s f k x u op t d, Accepted s f (.authTableLoad k) x u op → takeChunk u x.sid 0x22 0 k = (t, some (true, d)) →
      authOk (authEntries (d.length / 16) d) = true → ∃ v, exec (.authTableLoad f k) s = .next v
      ∧ v.com.table = authEntries (d.length / 16) d)
  ∧ (∀ s f n v x u op, Accepted s f (.accountLoad n 1 v) x u op → exec (.accountAddCredit f n v) s =
      .next (resolveOp (creditBy u n v) op.opId .ok (toBe 8 (ofSigned 64 (account (creditBy u n v) n).credit))))
  ∧ (∀ s f n v x u op, Accepted s f (.accountLoad n 2 v) x u op → ∃ w, exec (.accountSetEmerg f n v) s =
      .next (resolveOp (updAccount u n fun a => { a with emerg := v.toNat }) op.opId .ok w))
  ∧ (∀ s f n v x u op, Accepted s f (.accountLoad n 3 v) x u op → ∃ w, exec (.accountSetEmergMode f n v) s =
      .next (resolveOp (setEmerg u n v.toNat (account s n).req) op.opId .ok w))
  ∧ (∀ s f n v x u op, Accepted s f (.accountLoad n 4 v) x u op → ∃ w, exec (.accountRequestEmerg f n v) s =
      .next (resolveOp (setEmerg u n (account s n).mode true) op.opId .ok w))
  ∧ (∀ s f p l x u op, Accepted s f (.siteLimitSet p l) x u op → acting s = true → p ≠ 0xFFFFFFFF →
      p ≤ cfgN s 0x60 0 0x000 31 0 → (l.all fun c => (enabled s).any fun w => smNode s w == c.1) = true → ∃ t,
      exec (.siteLimitSet f p l) s = .next t ∧ t.mgr.pSite = p ∧ t.mgr.pSiteHost = true)
  ∧ (∀ s f m x u op, Accepted s f (.weatherHold m) x u op → ∃ t, exec (.weatherHold f m) s = .next t
      ∧ t.com.weatherEnd = (if m = 0 then 0 else s.nowNs + m * 60000000000))
  ∧ (∀ s f l x u op, Accepted s f (.scrollSet l) x u op →
      exec (.scrollSet f l) s = .next (resolveOp { u with com := { u.com with
        scroll := l, scrollAt := 0, scrollDue := some u.mono } } op.opId .ok []))
  ∧ (∀ s f x0 y0 w h pix x u op, Accepted s f (.displayRect x0 y0 w h pix) x u op →
      ((List.range h).any fun j => inLegal s.disp (y0 + j)) = false → s.disp.waiting = [] → ∃ t,
      exec (.displayRect f x0 y0 w h pix) s = .next t
      ∧ t.disp.waiting = [{ rect := ⟨x0, y0, w, h⟩, pix := pix, op := some op.opId, full := false }])

/-- An accepted operation on the calendar, the clock, the billing period, the confirmation of the safety section or a
latch has its effect. -/
def Obligations.LegalAndSafetyOperationsComplete : Prop :=
  (∀ s f k x u op t d, Accepted s f (.tariffLoad k) x u op → takeChunk u x.sid 0x30 0 k = (t, some (false, d)) →
      exec (.tariffLoad f k) s = .next (noteOutcome (resolveOp t op.opId .ok []) op))
  ∧ (∀ s f k x u op t d c, Accepted s f (.tariffLoad k) x u op → takeChunk u x.sid 0x30 0 k = (t, some (true, d)) →
      meridianAway s = false → parseCalendar d s.nowNs = some c → ∃ v, exec (.tariffLoad f k) s = .next v
      ∧ v.mer.tar.pending = some c)
  ∧ (∀ s f time x u op, Accepted s f (.clockSet time) x u op → meridianAway s = false → (x.role ≠ 0 ∨ s.mer.chr.src ≠ 1) → ∃ t,
      exec (.clockSet f time) s = .next t ∧ t.mer.chr.src = 2 ∧ t.mer.chr.uncNs = 1000000000)
  ∧ (∀ s f x u op, Accepted s f .billingClose x u op → meridianAway s = false → exec (.billingClose f) s =
      .next (noteOutcome { u with mer := { u.mer with
        closeDue := u.mer.closeDue ++ [(op.opId, (s.nowNs / 1000000000 + 1) * 1000000000)] } } op))
  ∧ (∀ s f time x u op, Accepted s f (.clockSet time) x u op → meridianAway s = true →
      exec (.clockSet f time) s = .next (noteOutcome (resolveOp u op.opId .legalLocked []) op))
  ∧ (∀ s f x u op, Accepted s f .billingClose x u op → meridianAway s = true →
      exec (.billingClose f) s = .next (noteOutcome (resolveOp u op.opId .legalLocked []) op))
  ∧ (∀ s f v x u op, Accepted s f (.safetyConfirm v false) x u op → s.landfall.phase = 9 → v = s.lk.checkA →
      v = s.lk.checkB → s.lk.runA = true → s.lk.runB = true → ∃ c : Confirmation, c.value = v
      ∧ exec (.safetyConfirm f v) s = .next (noteOutcome (resolveOp
        (settle u { u with lk := { u.lk with confA := some c, confB := some c } }) op.opId .ok []) op))
  ∧ (∀ s f v x u op, Accepted s f (.safetyConfirm v true) x u op → s.landfall.phase = 9 → anyDelivering s = false →
      exec (.safetyConfirmRevoke f v) s = .next (noteOutcome (resolveOp
        (settle u { u with lk := { u.lk with confA := none, confB := none } }) op.opId .ok []) op))
  ∧ (∀ s f i x u op, Accepted s f (.latchClear 1 i) x u op → s.sx.stage[Fin.ofNat 8 i].st = .latched →
      s.lk.gpA = true → s.lk.gpB = true → stageFlt s (Fin.ofNat 8 i) = false → ∃ t,
      exec (.latchClearStage f i) s = .next t ∧ t.sx.stage[Fin.ofNat 8 i].st = .off
      ∧ t.sx.stage[Fin.ofNat 8 i].latchMask = 0)
  ∧ (∀ s f i x u op g, Accepted s f (.latchClear 2 i) x u op → s.sx.cell[Fin.ofNat 48 i].st = .retired →
      cellStage s (Fin.ofNat 48 i) = some g → s.sx.stage[g].st = .off → ∃ t,
      exec (.latchClearCell f i) s = .next t ∧ t.sx.cell[Fin.ofNat 48 i].st = .off
      ∧ t.sx.cell[Fin.ofNat 48 i].retireCause = 0)
  ∧ (∀ s f i x u op, Accepted s f (.latchClear 3 i) x u op → (clearOutlet u (Fin.ofNat 2 i)).1 = .ok →
      exec (.latchClearOutlet f i) s = .next (noteOutcome (resolveOp (clearOutlet u (Fin.ofNat 2 i)).2 op.opId .ok []) op))
  ∧ (∀ s f i x u op, Accepted s f (.latchClear 4 i) x u op → (clearSafety u).1 = .ok →
      exec (.latchClearSafety f i) s = .next (noteOutcome (resolveOp (clearSafety u).2 op.opId .ok []) op))
  ∧ (∀ s f i x u op, Accepted s f (.latchClear 5 i) x u op → s.disp.faultCrack = true →
      crackBad s s.disp.crackRes = false → ∃ t,
      exec (.latchClearDisplay f i) s = .next t ∧ t.disp.faultCrack = false)
  ∧ (∀ s f i x u op, Accepted s f (.latchClear 6 i) x u op → s.landfall.holdTamper = true → s.tamper.active = 0 →
      ∃ t, exec (.latchClearTamperHold f i) s = .next t ∧ t.landfall.holdTamper = false)

/-- An accepted operation on a key, the attestation, or a firmware target has its effect (R421 to R437). -/
def Obligations.KeyOperationsComplete : Prop :=
  (∀ s f k a m w up x u op, Accepted s f (.keyImport k 0xFF a m w up) x u op → attrsOk s k a = true →
      publicAlg (attrN a 1) = true → m.length = (algTable (attrN a 1)).1 →
      exec (.keyImport f k 0xFF a m w up) s =
        .next (resolveOp (writeKey u (Fin.ofNat 128 k) a m op.opId) op.opId .ok []))
  ∧ (∀ s f k w a wrapped i m up x u op v, Accepted s f (.keyImport k w a wrapped (.ok i m) up) x u op → w ≠ 0xFF →
      v = checkTag u (pairBase u (Fin.ofNat 128 w)) up → attrsOk v k a = true →
      readyForUse v.locker.slot[pairBase u (Fin.ofNat 128 w)] = true →
      v.locker.slot[pairBase u (Fin.ofNat 128 w)].usage = 3 → m.length = (algTable (attrN a 1)).1 →
      (v.locker.slot[pairBase u (Fin.ofNat 128 w)].alg = 2 → i = a) →
      exec (.keyImport f k w a wrapped (.ok i m) up) s = .next (resolveOp
        (writeKey (useSlot v (pairBase u (Fin.ofNat 128 w)) 1) (Fin.ofNat 128 k) a m op.opId) op.opId .ok []))
  ∧ (∀ s f p c a ctx up x u op v, Accepted s f (.keyDerive p c a ctx up) x u op →
      checkUse u (pairBase u (Fin.ofNat 128 p)) up [4] x.role = (.ok, v) → attrsOk v c a = true →
      attrN a 1 ∈ ([0x01, 0x04, 0x05, 0x10] : List Nat) → attrN a 3 = p → exec (.keyDerive f p c a ctx up) s =
      .next (setResult (usedBy v (pairBase u (Fin.ofNat 128 p)) op.opId) op.opId .ok []))
  ∧ (∀ s f k x u op, Accepted s f (.keyInvalidate k) x u op → k ∉ ([0, 1, 3, 5] : List Nat) →
      s.locker.slot[pairBase s (Fin.ofNat 128 k)].st = .valid →
      s.locker.slot[pairBase s (Fin.ofNat 128 k)].users = [] →
      exec (.keyInvalidate f k) s = .next (invalidateNamed u (pairBase s (Fin.ofNat 128 k)) op.opId))
  ∧ (∀ s f k x u op, Accepted s f (.keyInvalidate k) x u op → k ∉ ([0, 1, 3, 5] : List Nat) →
      s.locker.slot[pairBase s (Fin.ofNat 128 k)].st = .valid →
      s.locker.slot[pairBase s (Fin.ofNat 128 k)].users ≠ [] → exec (.keyInvalidate f k) s =
        .next (updSlot u (pairBase s (Fin.ofNat 128 k)) fun y => { y with root := y.root ++ [op.opId] }))
  ∧ (∀ s f k iv aad d up x u op v, Accepted s f (.keyEncrypt k iv aad d up) x u op →
      checkUse u (pairBase u (Fin.ofNat 128 k)) up [1] x.role = (.ok, v) → ∃ b, b.length = d.length + 16
      ∧ exec (.keyUseEncrypt f k iv aad d up) s =
        .next (setResult (usedBy v (pairBase u (Fin.ofNat 128 k)) op.opId) op.opId .ok b))
  ∧ (∀ s f k iv aad d up x u op v, Accepted s f (.keyDecrypt k iv aad d true up) x u op →
      checkUse u (pairBase u (Fin.ofNat 128 k)) up [2] x.role = (.ok, v) → ∃ b, b.length = d.length - 16
      ∧ exec (.keyUseDecrypt f k iv aad d true up) s =
        .next (setResult (usedBy v (pairBase u (Fin.ofNat 128 k)) op.opId) op.opId .ok b))
  ∧ (∀ s f k m up x u op v w, Accepted s f (.keySign k m up) x u op →
      checkUse u (pairBase u (Fin.ofNat 128 k)) up [5] x.role = (.ok, v) →
      w = usedBy v (pairBase u (Fin.ofNat 128 k)) op.opId → ∃ b,
      exec (.keyUseSign f k m up) s = .next (setResult { w with free := w.free + 1 } op.opId .ok b))
  ∧ (∀ s f k sg m ok up x u op v, Accepted s f (.keyVerify k sg m ok up) x u op →
      checkUse u (pairBase u (Fin.ofNat 128 k)) up [6] x.role = (.ok, v) → exec (.keyUseVerify f k sg m ok up) s =
      .next (setResult (usedBy v (pairBase u (Fin.ofNat 128 k)) op.opId) op.opId .ok (toBe 1 (flag ok))))
  ∧ (∀ s f k m up x u op v w, Accepted s f (.keyMac k m up) x u op →
      checkUse u (pairBase u (Fin.ofNat 128 k)) up [7] x.role = (.ok, v) →
      w = usedBy v (pairBase u (Fin.ofNat 128 k)) op.opId → exec (.keyUseMac f k m up) s =
      .next (setResult w op.opId .ok (hmac (keyOf w (pairBase u (Fin.ofNat 128 k))) m)))
  ∧ (∀ s f k up x u op v w, Accepted s f (.keyPublic k up) x u op →
      checkUse u (pairBase u (Fin.ofNat 128 k)) up [5, 3, 6] x.role = (.ok, v) →
      w = usedBy v (pairBase u (Fin.ofNat 128 k)) op.opId →
      publicAlg w.locker.slot[pairBase u (Fin.ofNat 128 k)].alg = true → exec (.keyUsePublic f k up) s =
      .next (setResult w op.opId .ok (keyOf w (pairBase u (Fin.ofNat 128 k)))))
  ∧ (∀ s f n up x u op v, Accepted s f (.attest n up) x u op → v = checkTag u 0 up →
      v.locker.slot[(0 : Fin 128)].st ≠ .unusable → ∃ t b,
      exec (.attest f n up) s = .next (setResult t op.opId .ok b) ∧ b.take 256 = attestStatement v n
      ∧ t.locker.slot[(0 : Fin 128)].users = op.opId :: v.locker.slot[(0 : Fin 128)].users)
  ∧ (∀ s f n k x u op v l d w, Accepted s f (.fwStage n k) x u op → activatingAny s = false →
      (s.host.transfers.any fun y => y.cmd == 0x60 && y.target == n && y.sid != x.sid) = false →
      takeChunk u x.sid 0x60 n k = (v, some (l, d)) →
      w = updFw (writeStaged (if k.offset = 0 then eraseStaged v (fwIndex n) else v) (fwIndex n) k.offset k.data) (fwIndex n)
        (fun y => { y with stage := (if l then 2 else 1), stagedVer := 0, stagedLen := k.offset + k.data.length }) →
      buildTimeOk (stagedBytes w (fwIndex n)) = true → ∃ t, exec (.fwStage f n k) s = .next t
      ∧ t.fw[fwIndex n].stage = (if l then 2 else 1) ∧ t.fw[fwIndex n].stagedLen = k.offset + k.data.length
      ∧ t.flash = w.flash ∧ t.merStage = w.merStage)
  ∧ (∀ s f n g up x u op, Accepted s f (.fwVerify n g up) x u op → n ≠ 5 → 2 ≤ s.fw[fwIndex n].stage →
      (checkTag u 1 up).locker.slot[(1 : Fin 128)].st ≠ .unusable →
      imageVerdict n (stagedBytes s (fwIndex n)) g s.fw[fwIndex n].arb = .ok → ∃ t, exec (.fwVerify f n g up) s = .next t
      ∧ t.fw[fwIndex n].stage = 3 ∧ t.fw[fwIndex n].stagedDigest = slice (stagedBytes s (fwIndex n)) 32 32)
  ∧ (∀ s f g up x u op v, Accepted s f (.fwVerify 5 g up) x u op → 2 ≤ s.fw[(4 : Fin 5)].stage →
      (checkTag u 2 up).locker.slot[(2 : Fin 128)].st ≠ .unusable →
      chartVerdict (checkTag u 2 up) (stagedBytes s 4) g = (.ok, v) → ∃ t, exec (.fwVerify f 5 g up) s = .next t
      ∧ t.fw[(4 : Fin 5)].stage = 3 ∧ t.fw[(4 : Fin 5)].stagedDigest = slice (stagedBytes s 4) 32 32)
  ∧ (∀ s f n x u op, Accepted s f (.fwActivate n) x u op → activateVerdict s (fwIndex n) = .ok →
      exec (.fwActivate f n) s = .next (noteOutcome (runActivate u op.opId n) op))
  ∧ (∀ s f x u op, Accepted s f (.fwActivate 2) x u op → activateVerdict s 1 = .ok → ∃ t,
      exec (.fwActivate f 2) s = .next t ∧ t.sx.up = false ∧ t.fw[(1 : Fin 5)].activating = true
      ∧ t.fw[(1 : Fin 5)].slotB = !s.fw[(1 : Fin 5)].slotB)

/-- With a command waiting, a step is that command's effect on the state with the rest of the queue. The queue is the
model's own (log 2): the spec gives the commands, not the order in which they come. -/
def Obligations.StepRunsTheFrontCommand : Prop :=
  ∀ (c : Instr) (rest : List Instr) (s : State), step { s with pending := c :: rest } = exec c { s with pending := rest }

/-- With nothing waiting a step is one tick: the monotonic time moves on by 1 ms, the Chronometer runs (R247), the token
buckets refill once the host interface is ready (R396), the slow time of each cooling drive is counted (R170), a commanded
billing close whose second has come completes while Meridian meters (R255), the queue stays empty, and only the parts named
change. That the idle step is a millisecond is the model's choice (log 2). -/
def Obligations.IdleStepIsOneMillisecond : Prop :=
  ∀ s : State, s.pending = [] → ∃ t, step s = .next t ∧ t.pending = [] ∧ t.mono = s.mono + 1
    ∧ t.mer.chr.ns = (chronoTick s.flt.island[(14 : Fin 17)].lost s.mer.chr).ns
    ∧ t.host.cls = (if s.landfall.hostReady = true then refill s.host.cls else s.host.cls)
    ∧ (∀ k : Fin 6, t.drive[k] = if 1024 ≤ 5 * coolDuty s k ∧ s.drive[k].rpm < tachMin s (driveOutlet k) then
        { s.drive[k] with slowMs := s.drive[k].slowMs + 1 } else s.drive[k])
    ∧ (s.mer.up = true → ∀ c ∈ t.mer.closeDue, t.mer.chr.ns < c.2)
    ∧ Changes [.mono, .sxChannel, .sxCell, .sxStage, .sxAux, .sxRest, .outlet, .drive, .rdr, .merLeg, .merChr, .merRest,
        .com, .disp, .lkOut, .lkOutlet, .lkRest, .txl, .mgr, .wrk, .hostOps, .hostJournal, .hostRest, .locker, .log, .flt,
        .pwr] s t

/-- Every command, in every state, answers a next state with the commands still waiting as they were: a command whose
condition does not hold, and a frame that is not accepted, leave the module running. -/
def Obligations.EveryCommandCompletes : Prop :=
  ∀ (c : Instr) (s : State), ∃ t, exec c s = .next t ∧ t.pending = s.pending

/-- The frame of all 349 commands: whatever the state, the parts of it that `writes` does not list for the command hold
after it what they held before it. The parts are all of the state (State's fields, with Sextant, Meridian, Lookout and the
host interface taken apart). -/
def Obligations.EveryCommandKeepsItsFrame : Prop :=
  (∀ c : Instr, Frames (writes c) c) ∧ (∀ s t : State, (∀ p : Part, p.same s t) → t = s)

/-- The chart flash, the display's frame memory and settled levels, and the parameter words (configuration, legal
parameters in use and staged, commercial words, the chart's commercial words held back) keep rising addresses with no entry equal to what an unlisted address
reads as, in every step from every state that has the form. -/
def Obligations.StepKeepsMemoriesCanonical : Prop :=
  ∀ s t : State, s.memWf = true → step s = .next t → t.memWf = true

/-- At reset every sparse memory is in canonical form. That nothing is listed at reset is the model's choice (log 5). -/
def Obligations.ResetMemoriesCanonical : Prop :=
  State.reset.memWf = true

/-- At reset Landfall has not begun (R32, R35), every stage is OFF (R116), every safety output and both gate permit lines
are off (R33, R296), no session is open and no operation is held (R391). The empty queue is the model's own (log 2). -/
def Obligations.ResetIsSafe : Prop :=
  State.reset.landfall.porst = false ∧ State.reset.landfall.phase = 0 ∧ State.reset.landfall.hostReady = false
  ∧ (∀ g : Fin 8, State.reset.sx.stage[g].st = .off)
  ∧ (∀ n : Fin 8, (State.reset.lk.so[n]).cmd = false ∧ (State.reset.lk.so[n]).soh = false
      ∧ (State.reset.lk.so[n]).sol = false)
  ∧ State.reset.lk.gpA = false ∧ State.reset.lk.gpB = false
  ∧ State.reset.host.sessions = [] ∧ State.reset.host.ops = [] ∧ State.reset.pending = []

/-- While the stage that owns an instance is not running (OFF or LATCHED, R117), the instance is held and HELD reads 1; a
trigger changes nothing at all, so it starts no run and counts as neither a run nor an overrun; and an output that was
still to be written reaches no cell, no channel and no cooling drive; and no run of it is started. -/
def Obligations.HeldInstanceStaysStill : Prop :=
  ∀ (s : State) (i : Fin 96) (g : Fin 8), lawStage s i = some g →
    (s.sx.stage[g].st.code < 1 ∨ 6 < s.sx.stage[g].st.code) →
    lawHeld s i = true ∧ (viewLaw s i 0x040).testBit 5 = true
    ∧ (∀ t, exec (.lawTrigger i t) s = .next s)
    ∧ (∀ t, ∃ u, exec (.lawOutputWrite i t) s = .next u
        ∧ u.sx.cell = s.sx.cell ∧ u.sx.channel = s.sx.channel ∧ u.sx.cool = s.sx.cool)
    ∧ (∀ j trig, nextReady s = some (j, trig) → j ≠ i)

/-- The operations are held in the order of their acceptance. One that an earlier incomplete one of its session and class
stands before does not start; one that only operations of other classes or of other sessions stand before, with no
BARRIER among its session's, starts at once; and one that has not started does not complete, so completion is first in,
first out. -/
def Obligations.OperationsStartInOrder : Prop :=
  (∀ (s : State) (x y : Op), s.host.ops.find? (·.opId == x.opId) = some x → x.started = false →
      y ∈ opsBefore s x.opId → y.sid = x.sid → y.cls = x.cls → y.complete = false →
      exec (.opStart x.opId) s = .next s)
  ∧ (∀ (s : State) (x : Op), s.host.ops.find? (·.opId == x.opId) = some x → x.started = false →
      (∀ y ∈ opsBefore s x.opId, y.sid = x.sid → y.complete = false →
        y.cls ≠ x.cls ∧ y.cmd ≠ .barrier ∧ x.cmd ≠ .barrier) →
      exec (.opStart x.opId) s = .next (startOp s x))
  ∧ (∀ (s : State) (id : Nat), (∀ y ∈ s.host.ops, y.opId = id → y.started = false) →
      exec (.opComplete id) s = .next s)

/-- A reply of a WRITE is LOW_ENERGY when it comes in time with a good CRC and the STATUS 1 (Table 07-2). The first one
keeps the WRITE going in the same window, with the field at the larger of RF_PWR and HARV_PWR, and the WRITE is sent again
(or the window is full); the second is reported (report 3) and logged, and the write is over, with nothing taken as
written. -/
def Obligations.LowEnergyRepeatsOnce : Prop :=
  (∀ (s : State) (o : Fin 2) (r : AirReply) (l : List Bool), talking s o = true → s.rdr.port[o].write.busy = true →
      s.rdr.port[o].write.readBack = false → hearReply 4 r = .bits l → bitsVal l = 1 →
      s.rdr.port[o].write.repeated = false →
      ∃ t, exec (.tagWriteReply o r) s = .next t ∧ t.rdr.port[o].write.busy = true
        ∧ t.rdr.port[o].write.repeated = true ∧ t.rdr.window = s.rdr.window
        ∧ t.rdr.harvPower = decide (cfgN s 0x21 0 0x000 31 24 ≤ cfgN s 0x21 0 0x000 23 16)
        ∧ (t.rdr.full = true ∨ t.rdr.air = s.rdr.air ++
            [.frame (.write s.rdr.port[o].write.block s.rdr.port[o].write.new)]))
  ∧ (∀ (s : State) (o : Fin 2) (r : AirReply) (l : List Bool), talking s o = true → s.rdr.port[o].write.busy = true →
      s.rdr.port[o].write.readBack = false → hearReply 4 r = .bits l → bitsVal l = 1 →
      s.rdr.port[o].write.repeated = true →
      ∃ t, exec (.tagWriteReply o r) s = .next t ∧ t = logWrite (endWrite s o 3 false) o 3
        ∧ t.rdr.port[o].write.busy = false ∧ t.rdr.port[o].write.report = 3
        ∧ t.rdr.port[o].ident = s.rdr.port[o].ident ∧ t.log.nextNo = s.log.nextNo + 1)

/-- METRO_COMMIT and WRITE_PARAM leave the legal parameters in use as they are unless their session has the METROLOGY
role (role 2 of Table 19-2). -/
def Obligations.OnlyMetrologyChangesLegalParameters : Prop :=
  (∀ (f : Frame) (s t : State), exec (.metroCommit f) s = .next t → t.mer.regs ≠ s.mer.regs →
      ∃ x, frameSession s f 0x11 (HostCmd.writeParam (regAddr 0x30 0x300 0x008) [1]).body = some x ∧ x.role = 2)
  ∧ (∀ (f : Frame) (addr : Nat) (words : List Word) (s t : State), exec (.writeParam f addr words) s = .next t →
      t.mer.regs ≠ s.mer.regs → ∃ x, frameSession s f 0x11 (HostCmd.writeParam addr words).body = some x ∧ x.role = 2)

/-- An operation whose session's role Table 16-6 does not list only gets its reply: nothing but the session's own frames
and counters changes. WRITE_PARAM, whose roles are by field, is not among them. -/
def Obligations.DeniedRoleHasNoEffect : Prop :=
  ∀ (i : Instr) (f : Frame) (c : HostCmd) (x : Session) (s t : State), operationOf i = some (f, c) →
    (∀ a ws, c ≠ .writeParam a ws) → frameSession s f c.code c.body = some x → x.role ∉ c.roles → exec i s = .next t →
    Changes [.hostSessions, .hostRest] s t

/-- The variant never changes (R3); the chart flash changes only when an image is staged (R45, R435); the stored safety
confirmations change only by SAFETY_CONFIRM and its REVOKE (R41); the legal parameters in use change only by a parameter
write (R217). An operation that waited has its effect with OP_START, so OP_START stands beside each. -/
def Obligations.ProtectedStateHasOneDoor : Prop :=
  (∀ (c : Instr) (s t : State), exec c s = .next t → t.variant = s.variant)
  ∧ (∀ (c : Instr) (s t : State), exec c s = .next t → t.flash ≠ s.flash →
      (∃ f k x, c = .fwStage f k x) ∨ ∃ id, c = .opStart id)
  ∧ (∀ (c : Instr) (s t : State), exec c s = .next t → (t.lk.confA, t.lk.confB) ≠ (s.lk.confA, s.lk.confB) →
      (∃ f v, c = .safetyConfirm f v) ∨ (∃ f v, c = .safetyConfirmRevoke f v) ∨ ∃ id, c = .opStart id)
  ∧ (∀ (c : Instr) (s t : State), exec c s = .next t → t.mer.regs ≠ s.mer.regs →
      (∃ f a w, c = .writeParam f a w) ∨ (∃ f r n, c = .recordSelectWrite f r n) ∨ (∃ f, c = .metroCommit f)
        ∨ (∃ f a, c = .emergReqWrite f a) ∨ ∃ id, c = .opStart id)

/-- A command that names a stage, a sigma-delta input, a law instance, an outlet, a meter channel or an outlet's contactor
request changes that element and no other of its kind. -/
def Obligations.OneElementAtATime : Prop :=
  (∀ (s t : State) (g h : Fin 8), h ≠ g → (exec (.prechargeComplete g) s = .next t ∨ exec (.noSinkExit g) s = .next t
      ∨ exec (.fireRearm g) s = .next t ∨ exec (.shedHoldEnd g) s = .next t) → t.sx.stage[h] = s.sx.stage[h])
  ∧ (∀ (s t : State) (g h : Fin 8), h ≠ g → (exec (.syncLockSet g) s = .next t ∨ exec (.syncLost g) s = .next t) →
      t.sx.aux[h] = s.sx.aux[h])
  ∧ (∀ (s t : State) (n m : Fin 64) (bits : List Bool) (at_ : Nat), m ≠ n →
      exec (.sdControlOutput n bits at_) s = .next t →
      t.sx.sd[m] = s.sx.sd[m])
  ∧ (∀ (s t : State) (i j : Fin 96) (n : Nat), j ≠ i → exec (.lawTrigger i n) s = .next t → t.sx.law[j] = s.sx.law[j])
  ∧ (∀ (s t : State) (o p : Fin 2), p ≠ o → (exec (.t1sLinkUp o) s = .next t ∨ exec (.sdpRequest o) s = .next t
      ∨ (∃ b, exec (.tlsHandshake o b) s = .next t) ∨ exec (.sessionSetup o) s = .next t
      ∨ (∃ v, exec (.chargeParameterDiscovery o v) s = .next t) ∨ (s.outlet[o].link.proto = 1 ∧ ∃ d, exec (.scheduleExchange o d) s = .next t)
      ∨ exec (.dcWeldingDetection o) s = .next t) → t.outlet[p] = s.outlet[p])
  ∧ (∀ (s t : State) (k j : Fin 12) (on : Bool), j ≠ k → exec (.dcFreezeRequest k on) s = .next t →
      t.mer.fe.ch[j] = s.mer.fe.ch[j])
  ∧ (∀ (s t : State) (o p : Fin 2), p ≠ o → (exec (.closeRequestExpiry o) s = .next t
      ∨ exec (.soundingSelftestStart o) s = .next t) →
      t.lk.outlet[p] = s.lk.outlet[p])

/-- Every byte of the chart flash outside the inactive slot of the target reads after FW_STAGE what it read before. -/
def Obligations.StagingStaysInItsSlot : Prop :=
  ∀ (f : Frame) (k : Nat) (x : Chunk) (s t : State) (a : Nat), exec (.fwStage f k x) s = .next t →
    (a < inactiveBase s (fwIndex k) ∨ inactiveBase s (fwIndex k) + slotSize k ≤ a) →
    sparseGet (0xFF : Byte) t.flash a = sparseGet (0xFF : Byte) s.flash a

/-- A rectangle written to the frame memory, from Helm or from the host, leaves every byte of the legal window's rows as it
was. -/
def Obligations.RectanglesSpareTheLegalWindow : Prop :=
  ∀ (d : Display) (q : RectReq) (a : Nat), q.rect.x0 + q.rect.w ≤ 160 → inLegal d (a / 40) = true →
    frameByte (writeRect d q) a = frameByte d a

/-- The balls that Tables 20-11 and 20-12 name all lie in the 34 by 34 array and no two names share a ball; a ball with no
name carries VSS, so every ball has exactly one meaning. -/
def Obligations.EveryBallHasOneMeaning : Prop :=
  namedBalls.Nodup ∧ (∀ b ∈ namedBalls, 1 ≤ b.1 ∧ b.1 ≤ 34 ∧ 1 ≤ b.2 ∧ b.2 ≤ 34)
  ∧ (∀ b : Ball, b ∉ namedBalls → supplyOf b = some .vss)
end

