-- ==== Sys2Proof/Laws/Sparse.lean ====
section
/-!
SUPPORT. Sparse memories: reading after writing, and the canonical form that every operation on them keeps.
-/
namespace Sys2Proof.Machine

set_option linter.unusedSectionVars false

variable {α : Type} [DecidableEq α]

@[simp] theorem sparseGet_nil (d : α) (k : Nat) : sparseGet d [] k = d := rfl

/-- Every entry of a list lies above an address. -/
def Above (a : Nat) (m : List (Nat × α)) : Prop := ∀ p ∈ m, a < p.1

theorem sparseWf_cons {d : Nat → α} {a : Nat} {x : α} {t : List (Nat × α)} :
    sparseWf d ((a, x) :: t) = true ↔ x ≠ d a ∧ Above a t ∧ sparseWf d t = true := by
  induction t generalizing a x with
  | nil => simp [sparseWf, Above]
  | cons p t ih =>
    obtain ⟨b, y⟩ := p
    rw [sparseWf, Bool.and_eq_true, Bool.and_eq_true, decide_eq_true_eq, decide_eq_true_eq]
    constructor
    · rintro ⟨⟨h1, h2⟩, h3⟩
      refine ⟨h1, fun p hp => ?_, h3⟩
      rcases List.mem_cons.1 hp with rfl | hp
      · exact h2
      · exact h2.trans ((ih.1 h3).2.1 p hp)
    · rintro ⟨h1, h2, h3⟩
      exact ⟨⟨h1, h2 (b, y) List.mem_cons_self⟩, h3⟩

theorem sparseGet_of_above {d : α} {a : Nat} {m : List (Nat × α)} (h : Above a m) : sparseGet d m a = d := by
  induction m with
  | nil => rfl
  | cons p t ih =>
    obtain ⟨b, y⟩ := p
    have hb := h (b, y) List.mem_cons_self
    rw [sparseGet, if_neg (Nat.ne_of_gt hb)]
    exact ih fun q hq => h q (List.mem_cons_of_mem _ hq)

/-- Reading where something was written gives what was written. -/
theorem sparseGet_put_same {d : Nat → α} {m : List (Nat × α)} (h : sparseWf d m = true) (k : Nat) (v : α) :
    sparseGet (d k) (sparsePut (d k) m k v) k = v := by
  induction m with
  | nil =>
    rw [sparsePut]
    split
    · rename_i e; rw [sparseGet_nil, e]
    · rw [sparseGet, if_pos rfl]
  | cons p t ih =>
    obtain ⟨a, x⟩ := p
    obtain ⟨h1, h2, h3⟩ := sparseWf_cons.1 h
    rw [sparsePut]
    split
    · rename_i hk
      rw [sparseGet, if_neg (Nat.ne_of_lt hk)]
      exact ih h3
    · split
      · rename_i hk
        subst hk
        split
        · rename_i e; rw [sparseGet_of_above h2, e]
        · rw [sparseGet, if_pos rfl]
      · rename_i h4 h5
        split
        · rename_i e
          have hk : k < a := by omega
          rw [e, sparseGet_of_above]
          intro q hq
          rcases List.mem_cons.1 hq with rfl | hq
          · exact hk
          · exact hk.trans (h2 q hq)
        · rw [sparseGet, if_pos rfl]

/-- Reading elsewhere gives what was there. -/
theorem sparseGet_put_other {d e : α} {m : List (Nat × α)} {k j : Nat} (v : α) (h : j ≠ k) :
    sparseGet e (sparsePut d m k v) j = sparseGet e m j := by
  induction m with
  | nil =>
    rw [sparsePut]
    split
    · rfl
    · simp [sparseGet, Ne.symm h]
  | cons p t ih =>
    obtain ⟨a, x⟩ := p
    rw [sparsePut]
    split
    · rw [sparseGet, sparseGet]
      split
      · rfl
      · exact ih
    · split
      · rename_i hk
        subst hk
        split <;> simp [sparseGet, Ne.symm h]
      · split
        · rfl
        · rw [sparseGet, if_neg (Ne.symm h)]

theorem above_sparsePut {a : Nat} {d : α} {m : List (Nat × α)} {k : Nat} {v : α} (h : Above a m) (hk : a < k) :
    Above a (sparsePut d m k v) := by
  induction m with
  | nil =>
    rw [sparsePut]
    split
    · exact h
    · intro q hq; rcases List.mem_singleton.1 hq with rfl; exact hk
  | cons p t ih =>
    obtain ⟨b, x⟩ := p
    have ht : Above a t := fun q hq => h q (List.mem_cons_of_mem _ hq)
    have hb := h (b, x) List.mem_cons_self
    rw [sparsePut]
    intro q hq
    split at hq
    · rcases List.mem_cons.1 hq with rfl | hq
      · exact hb
      · exact ih ht q hq
    · split at hq
      · split at hq
        · exact ht q hq
        · rcases List.mem_cons.1 hq with rfl | hq
          · exact hk
          · exact ht q hq
      · split at hq
        · exact h q hq
        · rcases List.mem_cons.1 hq with rfl | hq
          · exact hk
          · exact h q hq

/-- Writing keeps the canonical form. -/
theorem sparsePut_wf {d : Nat → α} {m : List (Nat × α)} (h : sparseWf d m = true) (k : Nat) (v : α) :
    sparseWf d (sparsePut (d k) m k v) = true := by
  induction m with
  | nil =>
    rw [sparsePut]
    split
    · rfl
    · rename_i e; exact sparseWf_cons.2 ⟨e, fun _ h => absurd h List.not_mem_nil, rfl⟩
  | cons p t ih =>
    obtain ⟨a, x⟩ := p
    obtain ⟨h1, h2, h3⟩ := sparseWf_cons.1 h
    rw [sparsePut]
    split
    · rename_i hk
      exact sparseWf_cons.2 ⟨h1, above_sparsePut h2 hk, ih h3⟩
    · split
      · rename_i hk
        subst hk
        split
        · exact h3
        · rename_i e; exact sparseWf_cons.2 ⟨e, h2, h3⟩
      · rename_i h4 h5
        split
        · exact h
        · rename_i e
          refine sparseWf_cons.2 ⟨e, fun q hq => ?_, h⟩
          rcases List.mem_cons.1 hq with rfl | hq
          · show k < a; omega
          · exact Nat.lt_trans (by omega) (h2 q hq)

/-- Leaving entries out keeps the canonical form. -/
theorem sparseWf_filter {d : Nat → α} {m : List (Nat × α)} (h : sparseWf d m = true) (f : Nat × α → Bool) :
    sparseWf d (m.filter f) = true := by
  induction m with
  | nil => rfl
  | cons p t ih =>
    obtain ⟨a, x⟩ := p
    obtain ⟨h1, h2, h3⟩ := sparseWf_cons.1 h
    rw [List.filter_cons]
    split
    · exact sparseWf_cons.2 ⟨h1, fun q hq => h2 q (List.mem_of_mem_filter hq), ih h3⟩
    · exact ih h3

/-- Erasing keeps the canonical form. -/
theorem sparseErase_wf {d : Nat → Byte} {m : List Host.Cell} (h : sparseWf d m = true) (a n : Nat) :
    sparseWf d (sparseErase m a n) = true := sparseWf_filter h _

/-- Writing a string of bytes keeps the canonical form. -/
theorem sparseWrite_wf {d : Byte} {m : List Host.Cell} (h : sparseWf (fun _ => d) m = true) (a : Nat) (bs : Bytes) :
    sparseWf (fun _ => d) (sparseWrite d m a bs) = true := by
  unfold sparseWrite
  suffices hs : ∀ (l : Bytes) (p : List Host.Cell × Nat), sparseWf (fun _ => d) p.1 = true →
      sparseWf (fun _ => d) (l.foldl (fun (p : List Host.Cell × Nat) b => (sparsePut d p.1 p.2 b, p.2 + 1)) p).1 = true from
    hs bs (m, a) h
  intro l
  induction l with
  | nil => exact fun _ hp => hp
  | cons b l ih => exact fun p hp => ih _ (sparsePut_wf (d := fun _ => d) hp p.2 b)

/-- A fold of writes keeps the canonical form. -/
theorem sparseFold_wf {β : Type} {d : Nat → α} {g : List (Nat × α) → β → List (Nat × α)}
    (hg : ∀ m b, sparseWf d m = true → sparseWf d (g m b) = true) {m : List (Nat × α)} (h : sparseWf d m = true)
    (l : List β) : sparseWf d (l.foldl g m) = true := by
  induction l generalizing m with
  | nil => exact h
  | cons b l ih => exact ih (hg m b h)

/-- A byte outside a written string reads as before. -/
theorem sparseGet_write_outside {d e : Byte} {m : List Host.Cell} {a k : Nat} {bs : Bytes}
    (h : k < a ∨ a + bs.length ≤ k) : sparseGet e (sparseWrite d m a bs) k = sparseGet e m k := by
  unfold sparseWrite
  suffices hs : ∀ (l : Bytes) (p : List Host.Cell × Nat), (k < p.2 ∨ p.2 + l.length ≤ k) →
      sparseGet e (l.foldl (fun (p : List Host.Cell × Nat) b => (sparsePut d p.1 p.2 b, p.2 + 1)) p).1 k
        = sparseGet e p.1 k from hs bs (m, a) h
  intro l
  induction l with
  | nil => exact fun _ _ => rfl
  | cons b l ih =>
    intro p hp
    rw [List.length_cons] at hp
    rw [List.foldl_cons, ih _ (by show k < p.2 + 1 ∨ p.2 + 1 + l.length ≤ k; omega)]
    exact sparseGet_put_other b (by omega)

/-- A byte outside an erased range reads as before. -/
theorem sparseGet_erase_outside {d : Byte} {m : List Host.Cell} {a n k : Nat} (h : k < a ∨ a + n ≤ k) :
    sparseGet d (sparseErase m a n) k = sparseGet d m k := by
  unfold sparseErase
  induction m with
  | nil => rfl
  | cons p t ih =>
    obtain ⟨b, x⟩ := p
    rw [List.filter_cons]
    split
    · rw [sparseGet, sparseGet, ih]
    · rename_i hb
      have hbk : b ≠ k := by
        intro e; subst e; apply hb; simpa using h
      rw [sparseGet, if_neg hbk]
      exact ih

/-- A byte of an erased range reads as an unlisted one. -/
theorem sparseGet_erase_inside {d : Byte} {m : List Host.Cell} {a n k : Nat} (h : a ≤ k ∧ k < a + n) :
    sparseGet d (sparseErase m a n) k = d := by
  unfold sparseErase
  induction m with
  | nil => rfl
  | cons p t ih =>
    obtain ⟨b, x⟩ := p
    rw [List.filter_cons]
    split
    · rename_i hb
      have hbk : b ≠ k := by
        intro e
        subst e
        simp only [Bool.or_eq_true, decide_eq_true_eq] at hb
        omega
      rw [sparseGet, if_neg hbk]
      exact ih
    · exact ih

end Sys2Proof.Machine
end

