-- ==== Sys2Proof/Laws/Changes.lean ====
section
/-!
SUPPORT. How "nothing but these parts changes, and the sparse memories keep their form" composes: reflexivity,
      choices,
folds, and an update of each field.
-/
namespace Sys2Proof.Machine

variable {F : List Part} {s r e : State}

/-- Nothing but the parts listed differs, and the canonical form of the sparse memories is kept. -/
structure Keeps (F : List Part) (s t : State) : Prop where
  same : Changes F s t
  wf : s.memWf = true → t.memWf = true

/-- What a command keeps when it answers a next state. -/
def Kept (F : List Part) (c : Instr) : Prop := ∀ s t, exec c s = .next t → Keeps F s t

theorem Keeps.refl (F : List Part) (s : State) : Keeps F s s :=
  ⟨by intro p _; cases p <;> rfl, fun h => h⟩

theorem Keeps.trans (h : Keeps F s r) (k : Keeps F r e) : Keeps F s e := by
  refine ⟨?_, fun w => k.wf (h.wf w)⟩
  intro p hp
  have a := h.same p hp
  have b := k.same p hp
  cases p <;> exact Eq.trans b a

theorem Keeps.mono {G : List Part} (h : Keeps F s r) (hF : ∀ p ∈ F, p ∈ G) : Keeps G s r :=
  ⟨fun p hp => h.same p fun hq => hp (hF p hq), h.wf⟩

/-- A change followed by an operation that keeps its own frame. -/
theorem Keeps.then_ {G : List Part} (k : Keeps G r e) (hG : ∀ p ∈ G, p ∈ F) (h : Keeps F s r) : Keeps F s e :=
  h.trans (k.mono hG)

/-- An intermediate state that the rest of an operation starts from. -/
theorem Keeps.cut {x : State} (k : Keeps F s x → Keeps F s r) (h : Keeps F s x) : Keeps F s r := k h

theorem Keeps.ite {c : Prop} [Decidable c] {x y : State} (hx : Keeps F s x) (hy : Keeps F s y) :
    Keeps F s (if c then x else y) := by
  split <;> assumption

theorem Keeps.foldl {α : Type} {g : State → α → State} {l : List α} {x : State} (hx : Keeps F s x)
    (hg : ∀ t a, Keeps F s t → Keeps F s (g t a)) : Keeps F s (l.foldl g x) := by
  induction l generalizing x with
  | nil => exact hx
  | cons a l ih => exact ih (hg x a hx)

/-- The parts of `memWf`. -/
theorem memWf_iff (s : State) : s.memWf = true ↔ sparseWf (fun _ => (0xFF : Byte)) s.flash = true ∧
    sparseWf resetWord s.cfg = true ∧ s.disp.memWf = true ∧ s.mer.memWf = true ∧ s.com.memWf = true ∧
    s.chart.memWf = true := by
  unfold State.memWf
  simp only [Bool.and_eq_true, and_assoc]

theorem Keeps.upd_variant {v} (h : Keeps F s e) (hm : Part.variant ∈ F) : Keeps F s { e with variant := v } := by
  refine h.trans ⟨?_, fun w => w⟩
  intro p hp
  cases p <;> first | rfl | exact absurd hm hp

theorem Keeps.upd_mono {v} (h : Keeps F s e) (hm : Part.mono ∈ F) : Keeps F s { e with mono := v } := by
  refine h.trans ⟨?_, fun w => w⟩
  intro p hp
  cases p <;> first | rfl | exact absurd hm hp

theorem Keeps.upd_free {v} (h : Keeps F s e) (hm : Part.free ∈ F) : Keeps F s { e with free := v } := by
  refine h.trans ⟨?_, fun w => w⟩
  intro p hp
  cases p <;> first | rfl | exact absurd hm hp

theorem Keeps.upd_landfall {v} (h : Keeps F s e) (hm : Part.landfall ∈ F) : Keeps F s { e with landfall := v } := by
  refine h.trans ⟨?_, fun w => w⟩
  intro p hp
  cases p <;> first | rfl | exact absurd hm hp

theorem Keeps.upd_chart {v} (h : Keeps F s e) (hm : Part.chart ∈ F)
    (hw : e.chart.memWf = true → Chart.memWf v = true) : Keeps F s { e with chart := v } := by
  refine h.trans ⟨?_, fun w => by
    rw [memWf_iff]
    obtain ⟨a, b, c, d, g, k⟩ := (memWf_iff _).mp w
    exact ⟨a, b, c, d, g, hw k⟩⟩
  intro p hp
  cases p <;> first | rfl | exact absurd hm hp

theorem Keeps.upd_cfg {v} (h : Keeps F s e) (hm : Part.cfg ∈ F)
    (hw : e.memWf = true → sparseWf resetWord e.cfg = true → sparseWf resetWord v = true) : Keeps F s { e with cfg
      := v } := by
  refine h.trans ⟨?_, fun w => by
    rw [memWf_iff]
    obtain ⟨a, b, c, d, g, k⟩ := (memWf_iff _).mp w
    exact ⟨a, hw w b, c, d, g, k⟩⟩
  intro p hp
  cases p <;> first | rfl | exact absurd hm hp

theorem Keeps.upd_flash {v} (h : Keeps F s e) (hm : Part.flash ∈ F)
    (hw : sparseWf (fun _ => (0xFF : Byte)) e.flash = true → sparseWf (fun _ => (0xFF : Byte)) v = true) : Keeps F
      s { e with flash := v } := by
  refine h.trans ⟨?_, fun w => by
    rw [memWf_iff]
    obtain ⟨a, b, c, d, g, k⟩ := (memWf_iff _).mp w
    exact ⟨hw a, b, c, d, g, k⟩⟩
  intro p hp
  cases p <;> first | rfl | exact absurd hm hp

theorem Keeps.upd_sx {v : Sextant} (h : Keeps F s e)
    (h_sxChannel : Part.sxChannel ∈ F ∨ v.channel = e.sx.channel)
    (h_sxCell : Part.sxCell ∈ F ∨ v.cell = e.sx.cell)
    (h_sxStage : Part.sxStage ∈ F ∨ v.stage = e.sx.stage)
    (h_sxAux : Part.sxAux ∈ F ∨ v.aux = e.sx.aux)
    (h_sxSd : Part.sxSd ∈ F ∨ v.sd = e.sx.sd)
    (h_sxLaw : Part.sxLaw ∈ F ∨ v.law = e.sx.law)
    (h_sxFix : Part.sxFix ∈ F ∨ (v.fixLast, v.fixTime) = (e.sx.fixLast, e.sx.fixTime))
    (h_sxCount : Part.sxCount ∈ F ∨ (v.count, v.countAt) = (e.sx.count, e.sx.countAt))
    (h_sxRest : Part.sxRest ∈ F ∨ (v.cool, v.uscFired, v.uscLevel, v.ppsStamp, v.ppsNs, v.syncPeriod, v.syncAt,
      v.syncOut, v.laneFree, v.laneBusy, v.loadChart, v.loadMeas, v.up, v.beating, v.helmLost, v.shareAt) =
      (e.sx.cool, e.sx.uscFired, e.sx.uscLevel, e.sx.ppsStamp, e.sx.ppsNs, e.sx.syncPeriod, e.sx.syncAt,
      e.sx.syncOut, e.sx.laneFree, e.sx.laneBusy, e.sx.loadChart, e.sx.loadMeas, e.sx.up, e.sx.beating,
      e.sx.helmLost, e.sx.shareAt)) :
    Keeps F s { e with sx := v } := by
  refine h.trans ⟨?_, fun w => w⟩
  intro p hp
  cases p <;> first
    | rfl
    | exact h_sxChannel.resolve_left hp
    | exact h_sxCell.resolve_left hp
    | exact h_sxStage.resolve_left hp
    | exact h_sxAux.resolve_left hp
    | exact h_sxSd.resolve_left hp
    | exact h_sxLaw.resolve_left hp
    | exact h_sxFix.resolve_left hp
    | exact h_sxCount.resolve_left hp
    | exact h_sxRest.resolve_left hp

theorem Keeps.upd_outlet {v} (h : Keeps F s e) (hm : Part.outlet ∈ F) : Keeps F s { e with outlet := v } := by
  refine h.trans ⟨?_, fun w => w⟩
  intro p hp
  cases p <;> first | rfl | exact absurd hm hp

theorem Keeps.upd_cooling {v} (h : Keeps F s e) (hm : Part.cooling ∈ F) : Keeps F s { e with cooling := v } := by
  refine h.trans ⟨?_, fun w => w⟩
  intro p hp
  cases p <;> first | rfl | exact absurd hm hp

theorem Keeps.upd_drive {v} (h : Keeps F s e) (hm : Part.drive ∈ F) : Keeps F s { e with drive := v } := by
  refine h.trans ⟨?_, fun w => w⟩
  intro p hp
  cases p <;> first | rfl | exact absurd hm hp

theorem Keeps.upd_rdr {v} (h : Keeps F s e) (hm : Part.rdr ∈ F) : Keeps F s { e with rdr := v } := by
  refine h.trans ⟨?_, fun w => w⟩
  intro p hp
  cases p <;> first | rfl | exact absurd hm hp

theorem Keeps.upd_mer {v : Meridian} (h : Keeps F s e)
    (h_merFe : Part.merFe ∈ F ∨ v.fe = e.mer.fe)
    (h_merLeg : Part.merLeg ∈ F ∨ (v.leg, v.saved, v.legalSeq) = (e.mer.leg, e.mer.saved, e.mer.legalSeq))
    (h_merRegs : Part.merRegs ∈ F ∨ (v.regs, v.staged, v.stagedCnt, v.digest) = (e.mer.regs, e.mer.staged,
      e.mer.stagedCnt, e.mer.digest))
    (h_merChr : Part.merChr ∈ F ∨ (v.chr, v.stopNs) = (e.mer.chr, e.mer.stopNs))
    (h_merTar : Part.merTar ∈ F ∨ v.tar = e.mer.tar)
    (h_merMail : Part.merMail ∈ F ∨ (v.mail, v.held) = (e.mer.mail, e.mer.held))
    (h_merRest : Part.merRest ∈ F ∨ (v.up, v.supplyFail, v.plainStop, v.lossEst, v.powers, v.pNow, v.winItem,
      v.closeDue) = (e.mer.up, e.mer.supplyFail, e.mer.plainStop, e.mer.lossEst, e.mer.powers, e.mer.pNow,
      e.mer.winItem, e.mer.closeDue))
    (hw : e.mer.memWf = true → v.memWf = true) :
    Keeps F s { e with mer := v } := by
  refine h.trans ⟨?_, fun w => by
    rw [memWf_iff]
    obtain ⟨a, b, c, d, g, k⟩ := (memWf_iff _).mp w
    exact ⟨a, b, c, hw d, g, k⟩⟩
  intro p hp
  cases p <;> first
    | rfl
    | exact h_merFe.resolve_left hp
    | exact h_merLeg.resolve_left hp
    | exact h_merRegs.resolve_left hp
    | exact h_merChr.resolve_left hp
    | exact h_merTar.resolve_left hp
    | exact h_merMail.resolve_left hp
    | exact h_merRest.resolve_left hp

theorem Keeps.upd_com {v} (h : Keeps F s e) (hm : Part.com ∈ F)
    (hw : e.com.memWf = true → Commercial.memWf v = true) : Keeps F s { e with com := v } := by
  refine h.trans ⟨?_, fun w => by
    rw [memWf_iff]
    obtain ⟨a, b, c, d, g, k⟩ := (memWf_iff _).mp w
    exact ⟨a, b, c, d, hw g, k⟩⟩
  intro p hp
  cases p <;> first | rfl | exact absurd hm hp

theorem Keeps.upd_disp {v} (h : Keeps F s e) (hm : Part.disp ∈ F)
    (hw : e.disp.memWf = true → Display.memWf v = true) : Keeps F s { e with disp := v } := by
  refine h.trans ⟨?_, fun w => by
    rw [memWf_iff]
    obtain ⟨a, b, c, d, g, k⟩ := (memWf_iff _).mp w
    exact ⟨a, b, hw c, d, g, k⟩⟩
  intro p hp
  cases p <;> first | rfl | exact absurd hm hp

theorem Keeps.upd_lk {v : Lookout} (h : Keeps F s e)
    (h_lkIn : Part.lkIn ∈ F ∨ v.si = e.lk.si)
    (h_lkOut : Part.lkOut ∈ F ∨ v.so = e.lk.so)
    (h_lkOutlet : Part.lkOutlet ∈ F ∨ v.outlet = e.lk.outlet)
    (h_lkLatch : Part.lkLatch ∈ F ∨ (v.xcmp, v.sf1, v.sf9, v.sf7) = (e.lk.xcmp, e.lk.sf1, e.lk.sf9, e.lk.sf7))
    (h_lkConf : Part.lkConf ∈ F ∨ (v.confA, v.confB) = (e.lk.confA, e.lk.confB))
    (h_lkRest : Part.lkRest ∈ F ∨ (v.runA, v.runB, v.agreed, v.restarting, v.inputDiff, v.tpAt, v.press, v.inj,
      v.gpA, v.gpB, v.kind3, v.kind4, v.checkA, v.checkB, v.landfallDone, v.xcmpCnt, v.restartCnt) = (e.lk.runA,
      e.lk.runB, e.lk.agreed, e.lk.restarting, e.lk.inputDiff, e.lk.tpAt, e.lk.press, e.lk.inj, e.lk.gpA, e.lk.gpB,
      e.lk.kind3, e.lk.kind4, e.lk.checkA, e.lk.checkB, e.lk.landfallDone, e.lk.xcmpCnt, e.lk.restartCnt)) :
    Keeps F s { e with lk := v } := by
  refine h.trans ⟨?_, fun w => w⟩
  intro p hp
  cases p <;> first
    | rfl
    | exact h_lkIn.resolve_left hp
    | exact h_lkOut.resolve_left hp
    | exact h_lkOutlet.resolve_left hp
    | exact h_lkLatch.resolve_left hp
    | exact h_lkConf.resolve_left hp
    | exact h_lkRest.resolve_left hp

theorem Keeps.upd_txl {v} (h : Keeps F s e) (hm : Part.txl ∈ F) : Keeps F s { e with txl := v } := by
  refine h.trans ⟨?_, fun w => w⟩
  intro p hp
  cases p <;> first | rfl | exact absurd hm hp

theorem Keeps.upd_safe {v} (h : Keeps F s e) (hm : Part.safe ∈ F) : Keeps F s { e with safe := v } := by
  refine h.trans ⟨?_, fun w => w⟩
  intro p hp
  cases p <;> first | rfl | exact absurd hm hp

theorem Keeps.upd_ll {v} (h : Keeps F s e) (hm : Part.ll ∈ F) : Keeps F s { e with ll := v } := by
  refine h.trans ⟨?_, fun w => w⟩
  intro p hp
  cases p <;> first | rfl | exact absurd hm hp

theorem Keeps.upd_mgr {v} (h : Keeps F s e) (hm : Part.mgr ∈ F) : Keeps F s { e with mgr := v } := by
  refine h.trans ⟨?_, fun w => w⟩
  intro p hp
  cases p <;> first | rfl | exact absurd hm hp

theorem Keeps.upd_wrk {v} (h : Keeps F s e) (hm : Part.wrk ∈ F) : Keeps F s { e with wrk := v } := by
  refine h.trans ⟨?_, fun w => w⟩
  intro p hp
  cases p <;> first | rfl | exact absurd hm hp

theorem Keeps.upd_host {v : HostIf} (h : Keeps F s e)
    (h_hostSessions : Part.hostSessions ∈ F ∨ (v.sessions, v.challenges, v.lastSid, v.authFail) = (e.host.sessions,
      e.host.challenges, e.host.lastSid, e.host.authFail))
    (h_hostOps : Part.hostOps ∈ F ∨ (v.ops, v.rgen, v.nextOp) = (e.host.ops, e.host.rgen, e.host.nextOp))
    (h_hostJournal : Part.hostJournal ∈ F ∨ (v.journal, v.outcomes) = (e.host.journal, e.host.outcomes))
    (h_hostRest : Part.hostRest ∈ F ∨ (v.cls, v.transfers, v.out, v.miso, v.stream, v.macFail, v.seqDrop) =
      (e.host.cls, e.host.transfers, e.host.out, e.host.miso, e.host.stream, e.host.macFail, e.host.seqDrop)) :
    Keeps F s { e with host := v } := by
  refine h.trans ⟨?_, fun w => w⟩
  intro p hp
  cases p <;> first
    | rfl
    | exact h_hostSessions.resolve_left hp
    | exact h_hostOps.resolve_left hp
    | exact h_hostJournal.resolve_left hp
    | exact h_hostRest.resolve_left hp

theorem Keeps.upd_locker {v} (h : Keeps F s e) (hm : Part.locker ∈ F) : Keeps F s { e with locker := v } := by
  refine h.trans ⟨?_, fun w => w⟩
  intro p hp
  cases p <;> first | rfl | exact absurd hm hp

theorem Keeps.upd_fw {v} (h : Keeps F s e) (hm : Part.fw ∈ F) : Keeps F s { e with fw := v } := by
  refine h.trans ⟨?_, fun w => w⟩
  intro p hp
  cases p <;> first | rfl | exact absurd hm hp

theorem Keeps.upd_tamper {v} (h : Keeps F s e) (hm : Part.tamper ∈ F) : Keeps F s { e with tamper := v } := by
  refine h.trans ⟨?_, fun w => w⟩
  intro p hp
  cases p <;> first | rfl | exact absurd hm hp

theorem Keeps.upd_log {v} (h : Keeps F s e) (hm : Part.log ∈ F) : Keeps F s { e with log := v } := by
  refine h.trans ⟨?_, fun w => w⟩
  intro p hp
  cases p <;> first | rfl | exact absurd hm hp

theorem Keeps.upd_flt {v} (h : Keeps F s e) (hm : Part.flt ∈ F) : Keeps F s { e with flt := v } := by
  refine h.trans ⟨?_, fun w => w⟩
  intro p hp
  cases p <;> first | rfl | exact absurd hm hp

theorem Keeps.upd_pwr {v} (h : Keeps F s e) (hm : Part.pwr ∈ F) : Keeps F s { e with pwr := v } := by
  refine h.trans ⟨?_, fun w => w⟩
  intro p hp
  cases p <;> first | rfl | exact absurd hm hp

theorem Keeps.upd_merStage {v} (h : Keeps F s e) (hm : Part.merStage ∈ F) : Keeps F s { e with merStage := v } := by
  refine h.trans ⟨?_, fun w => w⟩
  intro p hp
  cases p <;> first | rfl | exact absurd hm hp

theorem Keeps.upd_pending {v} (h : Keeps F s e) (hm : Part.pending ∈ F) : Keeps F s { e with pending := v } := by
  refine h.trans ⟨?_, fun w => w⟩
  intro p hp
  cases p <;> first | rfl | exact absurd hm hp

theorem Keeps.upd_all {v_variant v_mono v_free v_landfall v_chart v_cfg v_flash v_sx v_outlet v_cooling v_drive
      v_rdr v_mer v_com v_disp v_lk v_txl v_safe v_ll v_mgr v_wrk v_host v_locker v_fw v_tamper v_log v_flt v_pwr
      v_merStage} (h : Keeps F s e)
    (h_variant : Part.variant ∈ F ∨ v_variant = e.variant)
    (h_mono : Part.mono ∈ F ∨ v_mono = e.mono)
    (h_free : Part.free ∈ F ∨ v_free = e.free)
    (h_landfall : Part.landfall ∈ F ∨ v_landfall = e.landfall)
    (h_chart : Part.chart ∈ F ∨ v_chart = e.chart)
    (h_cfg : Part.cfg ∈ F ∨ v_cfg = e.cfg)
    (h_flash : Part.flash ∈ F ∨ v_flash = e.flash)
    (h_sxChannel : Part.sxChannel ∈ F ∨ v_sx.channel = e.sx.channel)
    (h_sxCell : Part.sxCell ∈ F ∨ v_sx.cell = e.sx.cell)
    (h_sxStage : Part.sxStage ∈ F ∨ v_sx.stage = e.sx.stage)
    (h_sxAux : Part.sxAux ∈ F ∨ v_sx.aux = e.sx.aux)
    (h_sxSd : Part.sxSd ∈ F ∨ v_sx.sd = e.sx.sd)
    (h_sxLaw : Part.sxLaw ∈ F ∨ v_sx.law = e.sx.law)
    (h_sxFix : Part.sxFix ∈ F ∨ (v_sx.fixLast, v_sx.fixTime) = (e.sx.fixLast, e.sx.fixTime))
    (h_sxCount : Part.sxCount ∈ F ∨ (v_sx.count, v_sx.countAt) = (e.sx.count, e.sx.countAt))
    (h_sxRest : Part.sxRest ∈ F ∨ (v_sx.cool, v_sx.uscFired, v_sx.uscLevel, v_sx.ppsStamp, v_sx.ppsNs,
      v_sx.syncPeriod, v_sx.syncAt, v_sx.syncOut, v_sx.laneFree, v_sx.laneBusy, v_sx.loadChart, v_sx.loadMeas,
      v_sx.up, v_sx.beating, v_sx.helmLost, v_sx.shareAt) = (e.sx.cool, e.sx.uscFired, e.sx.uscLevel,
      e.sx.ppsStamp, e.sx.ppsNs, e.sx.syncPeriod, e.sx.syncAt, e.sx.syncOut, e.sx.laneFree, e.sx.laneBusy,
      e.sx.loadChart, e.sx.loadMeas, e.sx.up, e.sx.beating, e.sx.helmLost, e.sx.shareAt))
    (h_outlet : Part.outlet ∈ F ∨ v_outlet = e.outlet)
    (h_cooling : Part.cooling ∈ F ∨ v_cooling = e.cooling)
    (h_drive : Part.drive ∈ F ∨ v_drive = e.drive)
    (h_rdr : Part.rdr ∈ F ∨ v_rdr = e.rdr)
    (h_merFe : Part.merFe ∈ F ∨ v_mer.fe = e.mer.fe)
    (h_merLeg : Part.merLeg ∈ F ∨ (v_mer.leg, v_mer.saved, v_mer.legalSeq) = (e.mer.leg, e.mer.saved, e.mer.legalSeq))
    (h_merRegs : Part.merRegs ∈ F ∨ (v_mer.regs, v_mer.staged, v_mer.stagedCnt, v_mer.digest) = (e.mer.regs,
      e.mer.staged, e.mer.stagedCnt, e.mer.digest))
    (h_merChr : Part.merChr ∈ F ∨ (v_mer.chr, v_mer.stopNs) = (e.mer.chr, e.mer.stopNs))
    (h_merTar : Part.merTar ∈ F ∨ v_mer.tar = e.mer.tar)
    (h_merMail : Part.merMail ∈ F ∨ (v_mer.mail, v_mer.held) = (e.mer.mail, e.mer.held))
    (h_merRest : Part.merRest ∈ F ∨ (v_mer.up, v_mer.supplyFail, v_mer.plainStop, v_mer.lossEst, v_mer.powers,
      v_mer.pNow, v_mer.winItem, v_mer.closeDue) = (e.mer.up, e.mer.supplyFail, e.mer.plainStop, e.mer.lossEst,
      e.mer.powers, e.mer.pNow, e.mer.winItem, e.mer.closeDue))
    (h_com : Part.com ∈ F ∨ v_com = e.com)
    (h_disp : Part.disp ∈ F ∨ v_disp = e.disp)
    (h_lkIn : Part.lkIn ∈ F ∨ v_lk.si = e.lk.si)
    (h_lkOut : Part.lkOut ∈ F ∨ v_lk.so = e.lk.so)
    (h_lkOutlet : Part.lkOutlet ∈ F ∨ v_lk.outlet = e.lk.outlet)
    (h_lkLatch : Part.lkLatch ∈ F ∨ (v_lk.xcmp, v_lk.sf1, v_lk.sf9, v_lk.sf7) = (e.lk.xcmp, e.lk.sf1, e.lk.sf9,
      e.lk.sf7))
    (h_lkConf : Part.lkConf ∈ F ∨ (v_lk.confA, v_lk.confB) = (e.lk.confA, e.lk.confB))
    (h_lkRest : Part.lkRest ∈ F ∨ (v_lk.runA, v_lk.runB, v_lk.agreed, v_lk.restarting, v_lk.inputDiff, v_lk.tpAt,
      v_lk.press, v_lk.inj, v_lk.gpA, v_lk.gpB, v_lk.kind3, v_lk.kind4, v_lk.checkA, v_lk.checkB,
      v_lk.landfallDone, v_lk.xcmpCnt, v_lk.restartCnt) = (e.lk.runA, e.lk.runB, e.lk.agreed, e.lk.restarting,
      e.lk.inputDiff, e.lk.tpAt, e.lk.press, e.lk.inj, e.lk.gpA, e.lk.gpB, e.lk.kind3, e.lk.kind4, e.lk.checkA,
      e.lk.checkB, e.lk.landfallDone, e.lk.xcmpCnt, e.lk.restartCnt))
    (h_txl : Part.txl ∈ F ∨ v_txl = e.txl)
    (h_safe : Part.safe ∈ F ∨ v_safe = e.safe)
    (h_ll : Part.ll ∈ F ∨ v_ll = e.ll)
    (h_mgr : Part.mgr ∈ F ∨ v_mgr = e.mgr)
    (h_wrk : Part.wrk ∈ F ∨ v_wrk = e.wrk)
    (h_hostSessions : Part.hostSessions ∈ F ∨ (v_host.sessions, v_host.challenges, v_host.lastSid, v_host.authFail)
      = (e.host.sessions, e.host.challenges, e.host.lastSid, e.host.authFail))
    (h_hostOps : Part.hostOps ∈ F ∨ (v_host.ops, v_host.rgen, v_host.nextOp) = (e.host.ops, e.host.rgen,
      e.host.nextOp))
    (h_hostJournal : Part.hostJournal ∈ F ∨ (v_host.journal, v_host.outcomes) = (e.host.journal, e.host.outcomes))
    (h_hostRest : Part.hostRest ∈ F ∨ (v_host.cls, v_host.transfers, v_host.out, v_host.miso, v_host.stream,
      v_host.macFail, v_host.seqDrop) = (e.host.cls, e.host.transfers, e.host.out, e.host.miso, e.host.stream,
      e.host.macFail, e.host.seqDrop))
    (h_locker : Part.locker ∈ F ∨ v_locker = e.locker)
    (h_fw : Part.fw ∈ F ∨ v_fw = e.fw)
    (h_tamper : Part.tamper ∈ F ∨ v_tamper = e.tamper)
    (h_log : Part.log ∈ F ∨ v_log = e.log)
    (h_flt : Part.flt ∈ F ∨ v_flt = e.flt)
    (h_pwr : Part.pwr ∈ F ∨ v_pwr = e.pwr)
    (h_merStage : Part.merStage ∈ F ∨ v_merStage = e.merStage)
    (hw_flash : sparseWf (fun _ => (0xFF : Byte)) e.flash = true → sparseWf (fun _ => (0xFF : Byte)) v_flash = true)
    (hw_cfg : e.memWf = true → sparseWf resetWord e.cfg = true → sparseWf resetWord v_cfg = true)
    (hw_disp : e.disp.memWf = true → v_disp.memWf = true) (hw_mer : e.mer.memWf = true → v_mer.memWf = true)
    (hw_com : e.com.memWf = true → v_com.memWf = true)
    (hw_chart : e.chart.memWf = true → v_chart.memWf = true) :
    Keeps F s (State.mk v_variant v_mono v_free v_landfall v_chart v_cfg v_flash v_sx v_outlet v_cooling v_drive
      v_rdr v_mer v_com v_disp v_lk v_txl v_safe v_ll v_mgr v_wrk v_host v_locker v_fw v_tamper v_log v_flt v_pwr
      v_merStage e.pending) := by
  refine h.trans ⟨?_, fun w => by
    rw [memWf_iff]
    obtain ⟨a, b, c, d, g, k⟩ := (memWf_iff _).mp w
    exact ⟨hw_flash a, hw_cfg w b, hw_disp c, hw_mer d, hw_com g, hw_chart k⟩⟩
  intro p hp
  cases p
  · exact h_variant.resolve_left hp
  · exact h_mono.resolve_left hp
  · exact h_free.resolve_left hp
  · exact h_landfall.resolve_left hp
  · exact h_chart.resolve_left hp
  · exact h_cfg.resolve_left hp
  · exact h_flash.resolve_left hp
  · exact h_sxChannel.resolve_left hp
  · exact h_sxCell.resolve_left hp
  · exact h_sxStage.resolve_left hp
  · exact h_sxAux.resolve_left hp
  · exact h_sxSd.resolve_left hp
  · exact h_sxLaw.resolve_left hp
  · exact h_sxFix.resolve_left hp
  · exact h_sxCount.resolve_left hp
  · exact h_sxRest.resolve_left hp
  · exact h_outlet.resolve_left hp
  · exact h_cooling.resolve_left hp
  · exact h_drive.resolve_left hp
  · exact h_rdr.resolve_left hp
  · exact h_merFe.resolve_left hp
  · exact h_merLeg.resolve_left hp
  · exact h_merRegs.resolve_left hp
  · exact h_merChr.resolve_left hp
  · exact h_merTar.resolve_left hp
  · exact h_merMail.resolve_left hp
  · exact h_merRest.resolve_left hp
  · exact h_com.resolve_left hp
  · exact h_disp.resolve_left hp
  · exact h_lkIn.resolve_left hp
  · exact h_lkOut.resolve_left hp
  · exact h_lkOutlet.resolve_left hp
  · exact h_lkLatch.resolve_left hp
  · exact h_lkConf.resolve_left hp
  · exact h_lkRest.resolve_left hp
  · exact h_txl.resolve_left hp
  · exact h_safe.resolve_left hp
  · exact h_ll.resolve_left hp
  · exact h_mgr.resolve_left hp
  · exact h_wrk.resolve_left hp
  · exact h_hostSessions.resolve_left hp
  · exact h_hostOps.resolve_left hp
  · exact h_hostJournal.resolve_left hp
  · exact h_hostRest.resolve_left hp
  · exact h_locker.resolve_left hp
  · exact h_fw.resolve_left hp
  · exact h_tamper.resolve_left hp
  · exact h_log.resolve_left hp
  · exact h_flt.resolve_left hp
  · exact h_pwr.resolve_left hp
  · exact h_merStage.resolve_left hp
  · rfl

end Sys2Proof.Machine
end

