-- ==== Sys2Proof/Laws/Exec.lean ====
section
/-!
SUPPORT. One equation per arm of `exec`: a command's effect is its meaning's. Cite these instead of unfolding `exec`.
-/
namespace Sys2Proof.Machine

@[simp] theorem exec_porstRise (s : State) : exec (.porstRise) s = execPorstRise s := rfl
@[simp] theorem exec_coreSupplyDip rail uV (s : State) : exec (.coreSupplyDip rail uV) s = execCoreSupplyDip rail uV s := rfl
@[simp] theorem exec_coreSupplyReturn rail uV (s : State) : exec (.coreSupplyReturn rail uV) s = execCoreSupplyReturn rail uV s := rfl
@[simp] theorem exec_lookoutRailDip ch uV (s : State) : exec (.lookoutRailDip ch uV) s = execLookoutRailDip ch uV s := rfl
@[simp] theorem exec_helmRestartEarly (s : State) : exec (.helmRestartEarly) s = execHelmRestartEarly s := rfl
@[simp] theorem exec_lookoutChannelsRunning imgA imgB (s : State) : exec (.lookoutChannelsRunning imgA imgB) s = execLookoutChannelsRunning imgA imgB s := rfl
@[simp] theorem exec_meridianMeteringStart img (s : State) : exec (.meridianMeteringStart img) s = execMeridianMeteringStart img s := rfl
@[simp] theorem exec_helmFirmwareStarted img role (s : State) : exec (.helmFirmwareStarted img role) s = execHelmFirmwareStarted img role s := rfl
@[simp] theorem exec_chartSourceChosen answers sigOk (s : State) : exec (.chartSourceChosen answers sigOk) s = execChartSourceChosen answers sigOk s := rfl
@[simp] theorem exec_sextantImageLoaded img (s : State) : exec (.sextantImageLoaded img) s = execSextantImageLoaded img s := rfl
@[simp] theorem exec_chartSectionsDistributed (s : State) : exec (.chartSectionsDistributed) s = execChartSectionsDistributed s := rfl
@[simp] theorem exec_hostReady (s : State) : exec (.hostReady) s = execHostReady s := rfl
@[simp] theorem exec_selfTestsComplete failed ant paths upsets (s : State) : exec (.selfTestsComplete failed ant paths upsets) s = execSelfTestsComplete failed ant paths upsets s := rfl
@[simp] theorem exec_landfallComplete (s : State) : exec (.landfallComplete) s = execLandfallComplete s := rfl
@[simp] theorem exec_helmBootRetry img role (s : State) : exec (.helmBootRetry img role) s = execHelmBootRetry img role s := rfl
@[simp] theorem exec_gatePermitFall lineB (s : State) : exec (.gatePermitFall lineB) s = execGatePermitFall lineB s := rfl
@[simp] theorem exec_fltNAssert ch widthPs (s : State) : exec (.fltNAssert ch widthPs) s = execFltNAssert ch widthPs s := rfl
@[simp] theorem exec_readbackMismatch ch high (s : State) : exec (.readbackMismatch ch high) s = execReadbackMismatch ch high s := rfl
@[simp] theorem exec_carrierLoad c top (s : State) : exec (.carrierLoad c top) s = execCarrierLoad c top s := rfl
@[simp] theorem exec_roseTargetsSet stg (s : State) : exec (.roseTargetsSet stg) s = execRoseTargetsSet stg s := rfl
@[simp] theorem exec_roseMoveStep stg (s : State) : exec (.roseMoveStep stg) s = execRoseMoveStep stg s := rfl
@[simp] theorem exec_syncInEdge t high (s : State) : exec (.syncInEdge t high) s = execSyncInEdge t high s := rfl
@[simp] theorem exec_syncLockSet stg (s : State) : exec (.syncLockSet stg) s = execSyncLockSet stg s := rfl
@[simp] theorem exec_syncLost stg (s : State) : exec (.syncLost stg) s = execSyncLost stg s := rfl
@[simp] theorem exec_ppsInEdge count (s : State) : exec (.ppsInEdge count) s = execPpsInEdge count s := rfl
@[simp] theorem exec_sdControlOutput n bits t (s : State) : exec (.sdControlOutput n bits t) s = execSdControlOutput n bits t s := rfl
@[simp] theorem exec_fastTrip n bits t (s : State) : exec (.fastTrip n bits t) s = execFastTrip n bits t s := rfl
@[simp] theorem exec_sdStuck n (s : State) : exec (.sdStuck n) s = execSdStuck n s := rfl
@[simp] theorem exec_sdInvalidClear n (s : State) : exec (.sdInvalidClear n) s = execSdInvalidClear n s := rfl
@[simp] theorem exec_uscEvent k microvolt slope t (s : State) : exec (.uscEvent k microvolt slope t) s = execUscEvent k microvolt slope t s := rfl
@[simp] theorem exec_lawTrigger law t (s : State) : exec (.lawTrigger law t) s = execLawTrigger law t s := rfl
@[simp] theorem exec_lawRunStart t (s : State) : exec (.lawRunStart t) s = execLawRunStart t s := rfl
@[simp] theorem exec_lawOutputWrite law t (s : State) : exec (.lawOutputWrite law t) s = execLawOutputWrite law t s := rfl
@[simp] theorem exec_overrunLatch law (s : State) : exec (.overrunLatch law) s = execOverrunLatch law s := rfl
@[simp] theorem exec_laneHeartbeat (s : State) : exec (.laneHeartbeat) s = execLaneHeartbeat s := rfl
@[simp] theorem exec_heartbeatLoss (s : State) : exec (.heartbeatLoss) s = execHeartbeatLoss s := rfl
@[simp] theorem exec_laneSetpointUpdate stg iSet vSet (s : State) : exec (.laneSetpointUpdate stg iSet vSet) s = execLaneSetpointUpdate stg iSet vSet s := rfl
@[simp] theorem exec_postSplitRecompute (s : State) : exec (.postSplitRecompute) s = execPostSplitRecompute s := rfl
@[simp] theorem exec_stageStart stg (s : State) : exec (.stageStart stg) s = execStageStart stg s := rfl
@[simp] theorem exec_stageStop stg (s : State) : exec (.stageStop stg) s = execStageStop stg s := rfl
@[simp] theorem exec_vehicleVoltageDisagree stg (s : State) : exec (.vehicleVoltageDisagree stg) s = execVehicleVoltageDisagree stg s := rfl
@[simp] theorem exec_vehicleVoltageForward o mV (s : State) : exec (.vehicleVoltageForward o mV) s = execVehicleVoltageForward o mV s := rfl
@[simp] theorem exec_prechargeComplete stg (s : State) : exec (.prechargeComplete stg) s = execPrechargeComplete stg s := rfl
@[simp] theorem exec_closeWaitBandLost stg (s : State) : exec (.closeWaitBandLost stg) s = execCloseWaitBandLost stg s := rfl
@[simp] theorem exec_preTimeoutExpiry stg (s : State) : exec (.preTimeoutExpiry stg) s = execPreTimeoutExpiry stg s := rfl
@[simp] theorem exec_closeRefused stg (s : State) : exec (.closeRefused stg) s = execCloseRefused stg s := rfl
@[simp] theorem exec_contactorsConfirmed stg (s : State) : exec (.contactorsConfirmed stg) s = execContactorsConfirmed stg s := rfl
@[simp] theorem exec_noSinkExit stg (s : State) : exec (.noSinkExit stg) s = execNoSinkExit stg s := rfl
@[simp] theorem exec_reverseCurrentLatch stg (s : State) : exec (.reverseCurrentLatch stg) s = execReverseCurrentLatch stg s := rfl
@[simp] theorem exec_afe3PrechargeComplete stg (s : State) : exec (.afe3PrechargeComplete stg) s = execAfe3PrechargeComplete stg s := rfl
@[simp] theorem exec_afe3AutoStart stg (s : State) : exec (.afe3AutoStart stg) s = execAfe3AutoStart stg s := rfl
@[simp] theorem exec_afe3VminReached stg (s : State) : exec (.afe3VminReached stg) s = execAfe3VminReached stg s := rfl
@[simp] theorem exec_acMainConfirmed (s : State) : exec (.acMainConfirmed) s = execAcMainConfirmed s := rfl
@[simp] theorem exec_afe3AutoStop stg (s : State) : exec (.afe3AutoStop stg) s = execAfe3AutoStop stg s := rfl
@[simp] theorem exec_rampDownComplete stg (s : State) : exec (.rampDownComplete stg) s = execRampDownComplete stg s := rfl
@[simp] theorem exec_dischargeRequest stg (s : State) : exec (.dischargeRequest stg) s = execDischargeRequest stg s := rfl
@[simp] theorem exec_dischargeComplete stg (s : State) : exec (.dischargeComplete stg) s = execDischargeComplete stg s := rfl
@[simp] theorem exec_dischTExpiry stg (s : State) : exec (.dischTExpiry stg) s = execDischTExpiry stg s := rfl
@[simp] theorem exec_shedStart stg (s : State) : exec (.shedStart stg) s = execShedStart stg s := rfl
@[simp] theorem exec_addStart stg (s : State) : exec (.addStart stg) s = execAddStart stg s := rfl
@[simp] theorem exec_shedRampEnd stg (s : State) : exec (.shedRampEnd stg) s = execShedRampEnd stg s := rfl
@[simp] theorem exec_addRampEnd stg (s : State) : exec (.addRampEnd stg) s = execAddRampEnd stg s := rfl
@[simp] theorem exec_fireEnd stg t (s : State) : exec (.fireEnd stg t) s = execFireEnd stg t s := rfl
@[simp] theorem exec_fireRearm stg (s : State) : exec (.fireRearm stg) s = execFireRearm stg s := rfl
@[simp] theorem exec_shedHoldEnd stg (s : State) : exec (.shedHoldEnd stg) s = execShedHoldEnd stg s := rfl
@[simp] theorem exec_cbcLatch c (s : State) : exec (.cbcLatch c) s = execCbcLatch c s := rfl
@[simp] theorem exec_oclLatch stg (s : State) : exec (.oclLatch stg) s = execOclLatch stg s := rfl
@[simp] theorem exec_cellOpenRetire c (s : State) : exec (.cellOpenRetire c) s = execCellOpenRetire c s := rfl
@[simp] theorem exec_estTExpiry c (s : State) : exec (.estTExpiry c) s = execEstTExpiry c s := rfl
@[simp] theorem exec_telemetryTick (s : State) : exec (.telemetryTick) s = execTelemetryTick s := rfl
@[simp] theorem exec_pilotCondChange o high low pp heldMs (s : State) : exec (.pilotCondChange o high low pp heldMs) s = execPilotCondChange o high low pp heldMs s := rfl
@[simp] theorem exec_t1sLinkUp o (s : State) : exec (.t1sLinkUp o) s = execT1sLinkUp o s := rfl
@[simp] theorem exec_slacMessage o m (s : State) : exec (.slacMessage o m) s = execSlacMessage o m s := rfl
@[simp] theorem exec_sdpRequest o (s : State) : exec (.sdpRequest o) s = execSdpRequest o s := rfl
@[simp] theorem exec_tlsHandshake o hello (s : State) : exec (.tlsHandshake o hello) s = execTlsHandshake o hello s := rfl
@[simp] theorem exec_supportedAppProtocol o iso din (s : State) : exec (.supportedAppProtocol o iso din) s = execSupportedAppProtocol o iso din s := rfl
@[simp] theorem exec_sessionSetup o (s : State) : exec (.sessionSetup o) s = execSessionSetup o s := rfl
@[simp] theorem exec_serviceDiscovery o r (s : State) : exec (.serviceDiscovery o r) s = execServiceDiscovery o r s := rfl
@[simp] theorem exec_authorizationRequest o kind ident chainOk (s : State) : exec (.authorizationRequest o kind ident chainOk) s = execAuthorizationRequest o kind ident chainOk s := rfl
@[simp] theorem exec_chargeParameterDiscovery o vMax (s : State) : exec (.chargeParameterDiscovery o vMax) s = execChargeParameterDiscovery o vMax s := rfl
@[simp] theorem exec_scheduleExchange o dynamic (s : State) : exec (.scheduleExchange o dynamic) s = execScheduleExchange o dynamic s := rfl
@[simp] theorem exec_dcCableCheck o (s : State) : exec (.dcCableCheck o) s = execDcCableCheck o s := rfl
@[simp] theorem exec_dcPreCharge o target (s : State) : exec (.dcPreCharge o target) s = execDcPreCharge o target s := rfl
@[simp] theorem exec_powerDelivery o m (s : State) : exec (.powerDelivery o m) s = execPowerDelivery o m s := rfl
@[simp] theorem exec_dcChargeLoop o iReq target exportLim error (s : State) : exec (.dcChargeLoop o iReq target exportLim error) s = execDcChargeLoop o iReq target exportLim error s := rfl
@[simp] theorem exec_dcWeldingDetection o (s : State) : exec (.dcWeldingDetection o) s = execDcWeldingDetection o s := rfl
@[simp] theorem exec_vehicleSessionStop o pause error (s : State) : exec (.vehicleSessionStop o pause error) s = execVehicleSessionStop o pause error s := rfl
@[simp] theorem exec_certificateInstallation o exi (s : State) : exec (.certificateInstallation o exi) s = execCertificateInstallation o exi s := rfl
@[simp] theorem exec_unsupportedRequest o (s : State) : exec (.unsupportedRequest o) s = execUnsupportedRequest o s := rfl
@[simp] theorem exec_vehicleLinkLost o (s : State) : exec (.vehicleLinkLost o) s = execVehicleLinkLost o s := rfl
@[simp] theorem exec_tInventoryExpiry o (s : State) : exec (.tInventoryExpiry o) s = execTInventoryExpiry o s := rfl
@[simp] theorem exec_tLinkExpiry o (s : State) : exec (.tLinkExpiry o) s = execTLinkExpiry o s := rfl
@[simp] theorem exec_tSeqExpiry o (s : State) : exec (.tSeqExpiry o) s = execTSeqExpiry o s := rfl
@[simp] theorem exec_tOngoingExpiry o (s : State) : exec (.tOngoingExpiry o) s = execTOngoingExpiry o s := rfl
@[simp] theorem exec_tAuthExpiry o (s : State) : exec (.tAuthExpiry o) s = execTAuthExpiry o s := rfl
@[simp] theorem exec_tIsoExpiry o (s : State) : exec (.tIsoExpiry o) s = execTIsoExpiry o s := rfl
@[simp] theorem exec_tLoopExpiry o (s : State) : exec (.tLoopExpiry o) s = execTLoopExpiry o s := rfl
@[simp] theorem exec_tStandbyExpiry o (s : State) : exec (.tStandbyExpiry o) s = execTStandbyExpiry o s := rfl
@[simp] theorem exec_tLockExpiry o (s : State) : exec (.tLockExpiry o) s = execTLockExpiry o s := rfl
@[simp] theorem exec_tDischExpiry o (s : State) : exec (.tDischExpiry o) s = execTDischExpiry o s := rfl
@[simp] theorem exec_isoDwellEnd o (s : State) : exec (.isoDwellEnd o) s = execIsoDwellEnd o s := rfl
@[simp] theorem exec_lockConfirmed o (s : State) : exec (.lockConfirmed o) s = execLockConfirmed o s := rfl
@[simp] theorem exec_contactorsOpenConfirmed o (s : State) : exec (.contactorsOpenConfirmed o) s = execContactorsOpenConfirmed o s := rfl
@[simp] theorem exec_vehicleSideDischarged o (s : State) : exec (.vehicleSideDischarged o) s = execVehicleSideDischarged o s := rfl
@[simp] theorem exec_unlockConfirmed o (s : State) : exec (.unlockConfirmed o) s = execUnlockConfirmed o s := rfl
@[simp] theorem exec_faultedContactorOpen o (s : State) : exec (.faultedContactorOpen o) s = execFaultedContactorOpen o s := rfl
@[simp] theorem exec_coolingInputUpdate o j value time (s : State) : exec (.coolingInputUpdate o j value time) s = execCoolingInputUpdate o j value time s := rfl
@[simp] theorem exec_tagStale500ms o (s : State) : exec (.tagStale500ms o) s = execTagStale500ms o s := rfl
@[simp] theorem exec_tagStale2s o (s : State) : exec (.tagStale2s o) s = execTagStale2s o s := rfl
@[simp] theorem exec_driveFault d pulses ms (s : State) : exec (.driveFault d pulses ms) s = execDriveFault d pulses ms s := rfl
@[simp] theorem exec_flowLow o (s : State) : exec (.flowLow o) s = execFlowLow o s := rfl
@[simp] theorem exec_readerCycleStart (s : State) : exec (.readerCycleStart) s = execReaderCycleStart s := rfl
@[simp] theorem exec_portWindowStart p (s : State) : exec (.portWindowStart p) s = execPortWindowStart p s := rfl
@[simp] theorem exec_fieldSettled (s : State) : exec (.fieldSettled) s = execFieldSettled s := rfl
@[simp] theorem exec_slotReplyReceived r (s : State) : exec (.slotReplyReceived r) s = execSlotReplyReceived r s := rfl
@[simp] theorem exec_slotEmpty (s : State) : exec (.slotEmpty) s = execSlotEmpty s := rfl
@[simp] theorem exec_selectReplyReceived r (s : State) : exec (.selectReplyReceived r) s = execSelectReplyReceived r s := rfl
@[simp] theorem exec_sensorMeasureReply o k r (s : State) : exec (.sensorMeasureReply o k r) s = execSensorMeasureReply o k r s := rfl
@[simp] theorem exec_tagExchangeNoReply o k (s : State) : exec (.tagExchangeNoReply o k) s = execTagExchangeNoReply o k s := rfl
@[simp] theorem exec_tagWriteReply o r (s : State) : exec (.tagWriteReply o r) s = execTagWriteReply o r s := rfl
@[simp] theorem exec_writeUnconfirmed o (s : State) : exec (.writeUnconfirmed o) s = execWriteUnconfirmed o s := rfl
@[simp] theorem exec_writeReadback o r (s : State) : exec (.writeReadback o r) s = execWriteReadback o r s := rfl
@[simp] theorem exec_antFaultRuntime p load (s : State) : exec (.antFaultRuntime p load) s = execAntFaultRuntime p load s := rfl
@[simp] theorem exec_reqaPoll (s : State) : exec (.reqaPoll) s = execReqaPoll s := rfl
@[simp] theorem exec_cardSelected atqa levels sak (s : State) : exec (.cardSelected atqa levels sak) s = execCardSelected atqa levels sak s := rfl
@[simp] theorem exec_cardLeft uid (s : State) : exec (.cardLeft uid) s = execCardLeft uid s := rfl
@[simp] theorem exec_meterSample bits ovl (s : State) : exec (.meterSample bits ovl) s = execMeterSample bits ovl s := rfl
@[simp] theorem exec_pulseStart o us (s : State) : exec (.pulseStart o us) s = execPulseStart o us s := rfl
@[simp] theorem exec_pulseEnd o (s : State) : exec (.pulseEnd o) s = execPulseEnd o s := rfl
@[simp] theorem exec_pNowRefresh (s : State) : exec (.pNowRefresh) s = execPNowRefresh s := rfl
@[simp] theorem exec_firCrcCheck upsets (s : State) : exec (.firCrcCheck upsets) s = execFirCrcCheck upsets s := rfl
@[simp] theorem exec_firRmsWindow (s : State) : exec (.firRmsWindow) s = execFirRmsWindow s := rfl
@[simp] theorem exec_firRestored k (s : State) : exec (.firRestored k) s = execFirRestored k s := rfl
@[simp] theorem exec_dcFreezeRequest k on (s : State) : exec (.dcFreezeRequest k on) s = execDcFreezeRequest k on s := rfl
@[simp] theorem exec_dcFreezeRelease k cause (s : State) : exec (.dcFreezeRelease k cause) s = execDcFreezeRelease k cause s := rfl
@[simp] theorem exec_streamFault m (s : State) : exec (.streamFault m) s = execStreamFault m s := rfl
@[simp] theorem exec_pilotWindow m (s : State) : exec (.pilotWindow m) s = execPilotWindow m s := rfl
@[simp] theorem exec_spareSettled k (s : State) : exec (.spareSettled k) s = execSpareSettled k s := rfl
@[simp] theorem exec_rotationStepStart voltage (s : State) : exec (.rotationStepStart voltage) s = execRotationStepStart voltage s := rfl
@[simp] theorem exec_rotationSwap voltage (s : State) : exec (.rotationSwap voltage) s = execRotationSwap voltage s := rfl
@[simp] theorem exec_rotationCalibrationDone voltage short plus minus (s : State) : exec (.rotationCalibrationDone voltage short plus minus) s = execRotationCalibrationDone voltage short plus minus s := rfl
@[simp] theorem exec_rotationSwapBack voltage (s : State) : exec (.rotationSwapBack voltage) s = execRotationSwapBack voltage s := rfl
@[simp] theorem exec_spareCalibrationDone voltage short plus minus (s : State) : exec (.spareCalibrationDone voltage short plus minus) s = execSpareCalibrationDone voltage short plus minus s := rfl
@[simp] theorem exec_referenceComparison ppm (s : State) : exec (.referenceComparison ppm) s = execReferenceComparison ppm s := rfl
@[simp] theorem exec_rtdSample r mOhm (s : State) : exec (.rtdSample r mOhm) s = execRtdSample r mOhm s := rfl
@[simp] theorem exec_metroCommit f (s : State) : exec (.metroCommit f) s = execMetroCommit f s := rfl
@[simp] theorem exec_registerCommit (s : State) : exec (.registerCommit) s = execRegisterCommit s := rfl
@[simp] theorem exec_halfCycleRms ph (s : State) : exec (.halfCycleRms ph) s = execHalfCycleRms ph s := rfl
@[simp] theorem exec_zeroCrossingTimeout ph (s : State) : exec (.zeroCrossingTimeout ph) s = execZeroCrossingTimeout ph s := rfl
@[simp] theorem exec_meridianSupplyFail mana mcore (s : State) : exec (.meridianSupplyFail mana mcore) s = execMeridianSupplyFail mana mcore s := rfl
@[simp] theorem exec_meridianRestart img mana mcore (s : State) : exec (.meridianRestart img mana mcore) s = execMeridianRestart img mana mcore s := rfl
@[simp] theorem exec_mailboxRequest r (s : State) : exec (.mailboxRequest r) s = execMailboxRequest r s := rfl
@[simp] theorem exec_ptpOffset ns (s : State) : exec (.ptpOffset ns) s = execPtpOffset ns s := rfl
@[simp] theorem exec_ptpDeadReckoning (s : State) : exec (.ptpDeadReckoning) s = execPtpDeadReckoning s := rfl
@[simp] theorem exec_timeUncertainSet (s : State) : exec (.timeUncertainSet) s = execTimeUncertainSet s := rfl
@[simp] theorem exec_leapSecond insert (s : State) : exec (.leapSecond insert) s = execLeapSecond insert s := rfl
@[simp] theorem exec_slewDayEnd (s : State) : exec (.slewDayEnd) s = execSlewDayEnd s := rfl
@[simp] theorem exec_demandIntervalEnd (s : State) : exec (.demandIntervalEnd) s = execDemandIntervalEnd s := rfl
@[simp] theorem exec_calendarActivate (s : State) : exec (.calendarActivate) s = execCalendarActivate s := rfl
@[simp] theorem exec_tariffSwitch (s : State) : exec (.tariffSwitch) s = execTariffSwitch s := rfl
@[simp] theorem exec_billingScheduledClose (s : State) : exec (.billingScheduledClose) s = execBillingScheduledClose s := rfl
@[simp] theorem exec_legalWindowItem (s : State) : exec (.legalWindowItem) s = execLegalWindowItem s := rfl
@[simp] theorem exec_legalPairSend (s : State) : exec (.legalPairSend) s = execLegalPairSend s := rfl
@[simp] theorem exec_prepayDebit (s : State) : exec (.prepayDebit) s = execPrepayDebit s := rfl
@[simp] theorem exec_friendlyHoursEnd o (s : State) : exec (.friendlyHoursEnd o) s = execFriendlyHoursEnd o s := rfl
@[simp] theorem exec_weatherHoldEnd (s : State) : exec (.weatherHoldEnd) s = execWeatherHoldEnd s := rfl
@[simp] theorem exec_emergReqWrite f acct (s : State) : exec (.emergReqWrite f acct) s = execEmergReqWrite f acct s := rfl
@[simp] theorem exec_evenFrameBoundary (s : State) : exec (.evenFrameBoundary) s = execEvenFrameBoundary s := rfl
@[simp] theorem exec_legalPairReceived upsets (s : State) : exec (.legalPairReceived upsets) s = execLegalPairReceived upsets s := rfl
@[simp] theorem exec_frameEndCrc upsets (s : State) : exec (.frameEndCrc upsets) s = execFrameEndCrc upsets s := rfl
@[simp] theorem exec_laneTimeout (s : State) : exec (.laneTimeout) s = execLaneTimeout s := rfl
@[simp] theorem exec_panelTempMeasure reading (s : State) : exec (.panelTempMeasure reading) s = execPanelTempMeasure reading s := rfl
@[simp] theorem exec_crackMeasure ohm (s : State) : exec (.crackMeasure ohm) s = execCrackMeasure ohm s := rfl
@[simp] theorem exec_pumpFault p (s : State) : exec (.pumpFault p) s = execPumpFault p s := rfl
@[simp] theorem exec_pumpRetry (s : State) : exec (.pumpRetry) s = execPumpRetry s := rfl
@[simp] theorem exec_displayFaultClear (s : State) : exec (.displayFaultClear) s = execDisplayFaultClear s := rfl
@[simp] theorem exec_panelPowerOn (s : State) : exec (.panelPowerOn) s = execPanelPowerOn s := rfl
@[simp] theorem exec_panelPowerStep mv us (s : State) : exec (.panelPowerStep mv us) s = execPanelPowerStep mv us s := rfl
@[simp] theorem exec_panelPowerOff (s : State) : exec (.panelPowerOff) s = execPanelPowerOff s := rfl
@[simp] theorem exec_safetyInputChange n a b heldUs (s : State) : exec (.safetyInputChange n a b heldUs) s = execSafetyInputChange n a b heldUs s := rfl
@[simp] theorem exec_discrepancyFault n (s : State) : exec (.discrepancyFault n) s = execDiscrepancyFault n s := rfl
@[simp] theorem exec_testPulse k sideB samples (s : State) : exec (.testPulse k sideB samples) s = execTestPulse k sideB samples s := rfl
@[simp] theorem exec_crossCompareExchange a b (s : State) : exec (.crossCompareExchange a b) s = execCrossCompareExchange a b s := rfl
@[simp] theorem exec_lookoutChannelRestart ch (s : State) : exec (.lookoutChannelRestart ch) s = execLookoutChannelRestart ch s := rfl
@[simp] theorem exec_channelsAgreed (s : State) : exec (.channelsAgreed) s = execChannelsAgreed s := rfl
@[simp] theorem exec_offTest n sideB ok (s : State) : exec (.offTest n sideB ok) s = execOffTest n sideB ok s := rfl
@[simp] theorem exec_outputReadbackFault n sideB (s : State) : exec (.outputReadbackFault n sideB) s = execOutputReadbackFault n sideB s := rfl
@[simp] theorem exec_feedbackTimeout n a b (s : State) : exec (.feedbackTimeout n a b) s = execFeedbackTimeout n a b s := rfl
@[simp] theorem exec_lateWeld n a b (s : State) : exec (.lateWeld n a b) s = execLateWeld n a b s := rfl
@[simp] theorem exec_contactorCloseRequest o (s : State) : exec (.contactorCloseRequest o) s = execContactorCloseRequest o s := rfl
@[simp] theorem exec_contactorOpenRequest o (s : State) : exec (.contactorOpenRequest o) s = execContactorOpenRequest o s := rfl
@[simp] theorem exec_closeRequestExpiry o (s : State) : exec (.closeRequestExpiry o) s = execCloseRequestExpiry o s := rfl
@[simp] theorem exec_lockRequest o (s : State) : exec (.lockRequest o) s = execLockRequest o s := rfl
@[simp] theorem exec_unlockRequest o (s : State) : exec (.unlockRequest o) s = execUnlockRequest o s := rfl
@[simp] theorem exec_lockFbLost o (s : State) : exec (.lockFbLost o) s = execLockFbLost o s := rfl
@[simp] theorem exec_outputKindRequest kind on (s : State) : exec (.outputKindRequest kind on) s = execOutputKindRequest kind on s := rfl
@[simp] theorem exec_resetPress (s : State) : exec (.resetPress) s = execResetPress s := rfl
@[simp] theorem exec_holsterTestSeen o (s : State) : exec (.holsterTestSeen o) s = execHolsterTestSeen o s := rfl
@[simp] theorem exec_landfallCompleteMessage (s : State) : exec (.landfallCompleteMessage) s = execLandfallCompleteMessage s := rfl
@[simp] theorem exec_landfallStartMessage (s : State) : exec (.landfallStartMessage) s = execLandfallStartMessage s := rfl
@[simp] theorem exec_sextantResetSeen (s : State) : exec (.sextantResetSeen) s = execSextantResetSeen s := rfl
@[simp] theorem exec_soundingHalfPeriod (s : State) : exec (.soundingHalfPeriod) s = execSoundingHalfPeriod s := rfl
@[simp] theorem exec_soundingVerdict o (s : State) : exec (.soundingVerdict o) s = execSoundingVerdict o s := rfl
@[simp] theorem exec_poleVoltageSample o p n (s : State) : exec (.poleVoltageSample o p n) s = execPoleVoltageSample o p n s := rfl
@[simp] theorem exec_soundingSelftestStart o (s : State) : exec (.soundingSelftestStart o) s = execSoundingSelftestStart o s := rfl
@[simp] theorem exec_soundingSelftestEnd o (s : State) : exec (.soundingSelftestEnd o) s = execSoundingSelftestEnd o s := rfl
@[simp] theorem exec_soundingSelftestRetry o (s : State) : exec (.soundingSelftestRetry o) s = execSoundingSelftestRetry o s := rfl
@[simp] theorem exec_phyStatusPoll p link speed duplex (s : State) : exec (.phyStatusPoll p link speed duplex) s = execPhyStatusPoll p link speed duplex s := rfl
@[simp] theorem exec_turxelFrameRx p f (s : State) : exec (.turxelFrameRx p f) s = execTurxelFrameRx p f s := rfl
@[simp] theorem exec_safeFrameForward p (s : State) : exec (.safeFrameForward p) s = execSafeFrameForward p s := rfl
@[simp] theorem exec_safeTelegramCycle (s : State) : exec (.safeTelegramCycle) s = execSafeTelegramCycle s := rfl
@[simp] theorem exec_safeCopyReceived p ch (s : State) : exec (.safeCopyReceived p ch) s = execSafeCopyReceived p ch s := rfl
@[simp] theorem exec_safePairTimeout k (s : State) : exec (.safePairTimeout k) s = execSafePairTimeout k s := rfl
@[simp] theorem exec_safeWatchdogExpiry k (s : State) : exec (.safeWatchdogExpiry k) s = execSafeWatchdogExpiry k s := rfl
@[simp] theorem exec_safeFallbackEngage lost (s : State) : exec (.safeFallbackEngage lost) s = execSafeFallbackEngage lost s := rfl
@[simp] theorem exec_safeFallbackEnd (s : State) : exec (.safeFallbackEnd) s = execSafeFallbackEnd s := rfl
@[simp] theorem exec_singleTExpiry (s : State) : exec (.singleTExpiry) s = execSingleTExpiry s := rfl
@[simp] theorem exec_beaconSend (s : State) : exec (.beaconSend) s = execBeaconSend s := rfl
@[simp] theorem exec_pathLost p (s : State) : exec (.pathLost p) s = execPathLost p s := rfl
@[simp] theorem exec_pathLostClear p (s : State) : exec (.pathLostClear p) s = execPathLostClear p s := rfl
@[simp] theorem exec_ptpMessage p domain m (s : State) : exec (.ptpMessage p domain m) s = execPtpMessage p domain m s := rfl
@[simp] theorem exec_ptpAnnounceTimeout (s : State) : exec (.ptpAnnounceTimeout) s = execPtpAnnounceTimeout s := rfl
@[simp] theorem exec_ptpSyncTimeout (s : State) : exec (.ptpSyncTimeout) s = execPtpSyncTimeout s := rfl
@[simp] theorem exec_networkServiceRequest p r (s : State) : exec (.networkServiceRequest p r) s = execNetworkServiceRequest p r s := rfl
@[simp] theorem exec_llZcEdge t (s : State) : exec (.llZcEdge t) s = execLlZcEdge t s := rfl
@[simp] theorem exec_llZcMissed (s : State) : exec (.llZcMissed) s = execLlZcMissed s := rfl
@[simp] theorem exec_llFrameReceived x (s : State) : exec (.llFrameReceived x) s = execLlFrameReceived x s := rfl
@[simp] theorem exec_llRelayForward (s : State) : exec (.llRelayForward) s = execLlRelayForward s := rfl
@[simp] theorem exec_llReplySend (s : State) : exec (.llReplySend) s = execLlReplySend s := rfl
@[simp] theorem exec_llPollRound (s : State) : exec (.llPollRound) s = execLlPollRound s := rfl
@[simp] theorem exec_llReplyWaitEnd (s : State) : exec (.llReplyWaitEnd) s = execLlReplyWaitEnd s := rfl
@[simp] theorem exec_llMapStepDown a seg (s : State) : exec (.llMapStepDown a seg) s = execLlMapStepDown a seg s := rfl
@[simp] theorem exec_llRouteRebuild (s : State) : exec (.llRouteRebuild) s = execLlRouteRebuild s := rfl
@[simp] theorem exec_llLinkUnusable a b (s : State) : exec (.llLinkUnusable a b) s = execLlLinkUnusable a b s := rfl
@[simp] theorem exec_llPathLost (s : State) : exec (.llPathLost) s = execLlPathLost s := rfl
@[simp] theorem exec_llPathClear (s : State) : exec (.llPathClear) s = execLlPathClear s := rfl
@[simp] theorem exec_workerStatusSend (s : State) : exec (.workerStatusSend) s = execWorkerStatusSend s := rfl
@[simp] theorem exec_workerStatusRx (s : State) : exec (.workerStatusRx) s = execWorkerStatusRx s := rfl
@[simp] theorem exec_allocCycle (s : State) : exec (.allocCycle) s = execAllocCycle s := rfl
@[simp] theorem exec_allocMessageRx (s : State) : exec (.allocMessageRx) s = execAllocMessageRx s := rfl
@[simp] theorem exec_shadowDiffClear (s : State) : exec (.shadowDiffClear) s = execShadowDiffClear s := rfl
@[simp] theorem exec_paramMessage sent (s : State) : exec (.paramMessage sent) s = execParamMessage sent s := rfl
@[simp] theorem exec_deadReckoningTick (s : State) : exec (.deadReckoningTick) s = execDeadReckoningTick s := rfl
@[simp] theorem exec_interleaveRecompute (s : State) : exec (.interleaveRecompute) s = execInterleaveRecompute s := rfl
@[simp] theorem exec_managerBeaconRx (s : State) : exec (.managerBeaconRx) s = execManagerBeaconRx s := rfl
@[simp] theorem exec_quorumLost (s : State) : exec (.quorumLost) s = execQuorumLost s := rfl
@[simp] theorem exec_listenEnd (s : State) : exec (.listenEnd) s = execListenEnd s := rfl
@[simp] theorem exec_alternateListenEnd (s : State) : exec (.alternateListenEnd) s = execAlternateListenEnd s := rfl
@[simp] theorem exec_standbyTakeover (s : State) : exec (.standbyTakeover) s = execStandbyTakeover s := rfl
@[simp] theorem exec_tokenRelease (s : State) : exec (.tokenRelease) s = execTokenRelease s := rfl
@[simp] theorem exec_releaseRx (s : State) : exec (.releaseRx) s = execReleaseRx s := rfl
@[simp] theorem exec_healthReport (s : State) : exec (.healthReport) s = execHealthReport s := rfl
@[simp] theorem exec_tokenRequestSet (s : State) : exec (.tokenRequestSet) s = execTokenRequestSet s := rfl
@[simp] theorem exec_revertRelease (s : State) : exec (.revertRelease) s = execRevertRelease s := rfl
@[simp] theorem exec_revertTimeout (s : State) : exec (.revertTimeout) s = execRevertTimeout s := rfl
@[simp] theorem exec_hello f (s : State) : exec (.hello f) s = execHello f s := rfl
@[simp] theorem exec_helloClose f (s : State) : exec (.helloClose f) s = execHelloClose f s := rfl
@[simp] theorem exec_authChallenge f role nh (s : State) : exec (.authChallenge f role nh) s = execAuthChallenge f role nh s := rfl
@[simp] theorem exec_authProve f ph (s : State) : exec (.authProve f ph) s = execAuthProve f ph s := rfl
@[simp] theorem exec_resultGet f opId (s : State) : exec (.resultGet f opId) s = execResultGet f opId s := rfl
@[simp] theorem exec_resultAck f opIds (s : State) : exec (.resultAck f opIds) s = execResultAck f opIds s := rfl
@[simp] theorem exec_opStatus f opId (s : State) : exec (.opStatus f opId) s = execOpStatus f opId s := rfl
@[simp] theorem exec_barrier f (s : State) : exec (.barrier f) s = execBarrier f s := rfl
@[simp] theorem exec_healthGet f (s : State) : exec (.healthGet f) s = execHealthGet f s := rfl
@[simp] theorem exec_journalRead f opId count (s : State) : exec (.journalRead f opId count) s = execJournalRead f opId count s := rfl
@[simp] theorem exec_logRead f recNo count (s : State) : exec (.logRead f recNo count) s = execLogRead f recNo count s := rfl
@[simp] theorem exec_readParam f addr count (s : State) : exec (.readParam f addr count) s = execReadParam f addr count s := rfl
@[simp] theorem exec_writeParam f addr words (s : State) : exec (.writeParam f addr words) s = execWriteParam f addr words s := rfl
@[simp] theorem exec_telFix f scope peakClear (s : State) : exec (.telFix f scope peakClear) s = execTelFix f scope peakClear s := rfl
@[simp] theorem exec_sessionAuthorise f o decision hash (s : State) : exec (.sessionAuthorise f o decision hash) s = execSessionAuthorise f o decision hash s := rfl
@[simp] theorem exec_sessionAuthoriseCert f o hash k (s : State) : exec (.sessionAuthoriseCert f o hash k) s = execSessionAuthoriseCert f o hash k s := rfl
@[simp] theorem exec_sessionStop f o (s : State) : exec (.sessionStop f o) s = execSessionStop f o s := rfl
@[simp] theorem exec_authTableLoad f k (s : State) : exec (.authTableLoad f k) s = execAuthTableLoad f k s := rfl
@[simp] theorem exec_accountAddCredit f acct value (s : State) : exec (.accountAddCredit f acct value) s = execAccountAddCredit f acct value s := rfl
@[simp] theorem exec_accountSetEmerg f acct value (s : State) : exec (.accountSetEmerg f acct value) s = execAccountSetEmerg f acct value s := rfl
@[simp] theorem exec_accountSetEmergMode f acct value (s : State) : exec (.accountSetEmergMode f acct value) s = execAccountSetEmergMode f acct value s := rfl
@[simp] theorem exec_accountRequestEmerg f acct value (s : State) : exec (.accountRequestEmerg f acct value) s = execAccountRequestEmerg f acct value s := rfl
@[simp] theorem exec_siteLimitSet f pSite classes (s : State) : exec (.siteLimitSet f pSite classes) s = execSiteLimitSet f pSite classes s := rfl
@[simp] theorem exec_weatherHold f minutes (s : State) : exec (.weatherHold f minutes) s = execWeatherHold f minutes s := rfl
@[simp] theorem exec_scrollSet f items (s : State) : exec (.scrollSet f items) s = execScrollSet f items s := rfl
@[simp] theorem exec_displayRect f x0 y0 w h pix (s : State) : exec (.displayRect f x0 y0 w h pix) s = execDisplayRect f x0 y0 w h pix s := rfl
@[simp] theorem exec_tariffLoad f k (s : State) : exec (.tariffLoad f k) s = execTariffLoad f k s := rfl
@[simp] theorem exec_clockSet f time (s : State) : exec (.clockSet f time) s = execClockSet f time s := rfl
@[simp] theorem exec_billingClose f (s : State) : exec (.billingClose f) s = execBillingClose f s := rfl
@[simp] theorem exec_safetyConfirm f value (s : State) : exec (.safetyConfirm f value) s = execSafetyConfirm f value s := rfl
@[simp] theorem exec_safetyConfirmRevoke f value (s : State) : exec (.safetyConfirmRevoke f value) s = execSafetyConfirmRevoke f value s := rfl
@[simp] theorem exec_latchClearStage f index (s : State) : exec (.latchClearStage f index) s = execLatchClearStage f index s := rfl
@[simp] theorem exec_latchClearCell f index (s : State) : exec (.latchClearCell f index) s = execLatchClearCell f index s := rfl
@[simp] theorem exec_latchClearOutlet f index (s : State) : exec (.latchClearOutlet f index) s = execLatchClearOutlet f index s := rfl
@[simp] theorem exec_latchClearSafety f index (s : State) : exec (.latchClearSafety f index) s = execLatchClearSafety f index s := rfl
@[simp] theorem exec_latchClearDisplay f index (s : State) : exec (.latchClearDisplay f index) s = execLatchClearDisplay f index s := rfl
@[simp] theorem exec_latchClearTamperHold f index (s : State) : exec (.latchClearTamperHold f index) s = execLatchClearTamperHold f index s := rfl
@[simp] theorem exec_keyImport f slot wrapSlot attrs wrapped u up (s : State) : exec (.keyImport f slot wrapSlot attrs wrapped u up) s = execKeyImport f slot wrapSlot attrs wrapped u up s := rfl
@[simp] theorem exec_keyDerive f parent child attrs context up (s : State) : exec (.keyDerive f parent child attrs context up) s = execKeyDerive f parent child attrs context up s := rfl
@[simp] theorem exec_keyInvalidate f slot (s : State) : exec (.keyInvalidate f slot) s = execKeyInvalidate f slot s := rfl
@[simp] theorem exec_slotOperationBoundary slot (s : State) : exec (.slotOperationBoundary slot) s = execSlotOperationBoundary slot s := rfl
@[simp] theorem exec_keyUseEncrypt f slot iv aad data up (s : State) : exec (.keyUseEncrypt f slot iv aad data up) s = execKeyUseEncrypt f slot iv aad data up s := rfl
@[simp] theorem exec_keyUseDecrypt f slot iv aad data gcmOk up (s : State) : exec (.keyUseDecrypt f slot iv aad data gcmOk up) s = execKeyUseDecrypt f slot iv aad data gcmOk up s := rfl
@[simp] theorem exec_keyUseSign f slot msg up (s : State) : exec (.keyUseSign f slot msg up) s = execKeyUseSign f slot msg up s := rfl
@[simp] theorem exec_keyUseVerify f slot sig msg valid up (s : State) : exec (.keyUseVerify f slot sig msg valid up) s = execKeyUseVerify f slot sig msg valid up s := rfl
@[simp] theorem exec_keyUseMac f slot msg up (s : State) : exec (.keyUseMac f slot msg up) s = execKeyUseMac f slot msg up s := rfl
@[simp] theorem exec_keyUsePublic f slot up (s : State) : exec (.keyUsePublic f slot up) s = execKeyUsePublic f slot up s := rfl
@[simp] theorem exec_attest f nonce up (s : State) : exec (.attest f nonce up) s = execAttest f nonce up s := rfl
@[simp] theorem exec_fwStage f target k (s : State) : exec (.fwStage f target k) s = execFwStage f target k s := rfl
@[simp] theorem exec_fwVerify f target sigOk up (s : State) : exec (.fwVerify f target sigOk up) s = execFwVerify f target sigOk up s := rfl
@[simp] theorem exec_fwActivate f target (s : State) : exec (.fwActivate f target) s = execFwActivate f target s := rfl
@[simp] theorem exec_firstStartSuccess target (s : State) : exec (.firstStartSuccess target) s = execFirstStartSuccess target s := rfl
@[simp] theorem exec_firstStartFailure target (s : State) : exec (.firstStartFailure target) s = execFirstStartFailure target s := rfl
@[simp] theorem exec_opStart opId (s : State) : exec (.opStart opId) s = execOpStart opId s := rfl
@[simp] theorem exec_opComplete opId (s : State) : exec (.opComplete opId) s = execOpComplete opId s := rfl
@[simp] theorem exec_resultHoldExpiry opId (s : State) : exec (.resultHoldExpiry opId) s = execResultHoldExpiry opId s := rfl
@[simp] theorem exec_sessionIdleTimeout sid (s : State) : exec (.sessionIdleTimeout sid) s = execSessionIdleTimeout sid s := rfl
@[simp] theorem exec_challengeLapse sid (s : State) : exec (.challengeLapse sid) s = execChallengeLapse sid s := rfl
@[simp] theorem exec_chunkTimeout sid cmd (s : State) : exec (.chunkTimeout sid cmd) s = execChunkTimeout sid cmd s := rfl
@[simp] theorem exec_hspiReadTransaction (s : State) : exec (.hspiReadTransaction) s = execHspiReadTransaction s := rfl
@[simp] theorem exec_recoveryEnd (s : State) : exec (.recoveryEnd) s = execRecoveryEnd s := rfl
@[simp] theorem exec_recoveredHoldExpiry opId (s : State) : exec (.recoveredHoldExpiry opId) s = execRecoveredHoldExpiry opId s := rfl
@[simp] theorem exec_keyScrub up (s : State) : exec (.keyScrub up) s = execKeyScrub up s := rfl
@[simp] theorem exec_tamperEvent x (s : State) : exec (.tamperEvent x) s = execTamperEvent x s := rfl
@[simp] theorem exec_helmCorePairMismatch (s : State) : exec (.helmCorePairMismatch) s = execHelmCorePairMismatch s := rfl
@[simp] theorem exec_sextantCoreMismatch (s : State) : exec (.sextantCoreMismatch) s = execSextantCoreMismatch s := rfl
@[simp] theorem exec_sextantSupervisorRestart (s : State) : exec (.sextantSupervisorRestart) s = execSextantSupervisorRestart s := rfl
@[simp] theorem exec_meridianCoreFault (s : State) : exec (.meridianCoreFault) s = execMeridianCoreFault s := rfl
@[simp] theorem exec_islandClockLoss isl sdClk (s : State) : exec (.islandClockLoss isl sdClk) s = execIslandClockLoss isl sdClk s := rfl
@[simp] theorem exec_islandRestart isl ok (s : State) : exec (.islandRestart isl ok) s = execIslandRestart isl ok s := rfl
@[simp] theorem exec_doubleBitError at_ idle (s : State) : exec (.doubleBitError at_ idle) s = execDoubleBitError at_ idle s := rfl
@[simp] theorem exec_scrubPass m passEnd corrected (s : State) : exec (.scrubPass m passEnd corrected) s = execScrubPass m passEnd corrected s := rfl
@[simp] theorem exec_logRecordWrite fail (s : State) : exec (.logRecordWrite fail) s = execLogRecordWrite fail s := rfl
@[simp] theorem exec_logbookScanEnd device (s : State) : exec (.logbookScanEnd device) s = execLogbookScanEnd device s := rfl
@[simp] theorem exec_rungDown (s : State) : exec (.rungDown) s = execRungDown s := rfl
@[simp] theorem exec_quietConditionCeases (s : State) : exec (.quietConditionCeases) s = execQuietConditionCeases s := rfl
@[simp] theorem exec_wakeEvent w (s : State) : exec (.wakeEvent w) s = execWakeEvent w s := rfl
@[simp] theorem exec_wkAlarm (s : State) : exec (.wkAlarm) s = execWkAlarm s := rfl
@[simp] theorem exec_vbatSwitchover mcore io (s : State) : exec (.vbatSwitchover mcore io) s = execVbatSwitchover mcore io s := rfl
@[simp] theorem exec_mainRailsReturn mcore io (s : State) : exec (.mainRailsReturn mcore io) s = execMainRailsReturn mcore io s := rfl
@[simp] theorem exec_engImpLoRead f inst (s : State) : exec (.engImpLoRead f inst) s = execEngImpLoRead f inst s := rfl
@[simp] theorem exec_tar1ImpLoRead f o (s : State) : exec (.tar1ImpLoRead f o) s = execTar1ImpLoRead f o s := rfl
@[simp] theorem exec_chrTimeLoRead f (s : State) : exec (.chrTimeLoRead f) s = execChrTimeLoRead f s := rfl
@[simp] theorem exec_recordSelectWrite f sel index (s : State) : exec (.recordSelectWrite f sel index) s = execRecordSelectWrite f sel index s := rfl
@[simp] theorem exec_porstFall (s : State) : exec (.porstFall) s = execPorstFall s := rfl
@[simp] theorem exec_analogSupplyDip rf uV (s : State) : exec (.analogSupplyDip rf uV) s = execAnalogSupplyDip rf uV s := rfl
@[simp] theorem exec_analogSupplyReturn rf uV (s : State) : exec (.analogSupplyReturn rf uV) s = execAnalogSupplyReturn rf uV s := rfl
@[simp] theorem exec_feedbackDiscrepancy n a b (s : State) : exec (.feedbackDiscrepancy n a b) s = execFeedbackDiscrepancy n a b s := rfl
@[simp] theorem exec_peerLost (s : State) : exec (.peerLost) s = execPeerLost s := rfl
@[simp] theorem exec_tagReadReply o r (s : State) : exec (.tagReadReply o r) s = execTagReadReply o r s := rfl
@[simp] theorem exec_unknownCommand f code (s : State) : exec (.unknownCommand f code) s = execUnknownCommand f code s := rfl
@[simp] theorem exec_driveFaultClear d pulses ms (s : State) : exec (.driveFaultClear d pulses ms) s = execDriveFaultClear d pulses ms s := rfl
@[simp] theorem exec_tamperSourceCeases x (s : State) : exec (.tamperSourceCeases x) s = execTamperSourceCeases x s := rfl
@[simp] theorem exec_vbatLoss (s : State) : exec (.vbatLoss) s = execVbatLoss s := rfl

end Sys2Proof.Machine
end

