-- ==== Sys2Proof/Laws/FrameOps.lean ====
section
/-!
SUPPORT. What each operation of Machine/Ops.lean leaves unchanged.
-/
namespace Sys2Proof.Machine

set_option linter.unreachableTactic false
set_option linter.unusedTactic false
set_option linter.tactic.unusedName false

theorem keep_cfgPut (s : State) (a : Nat) (w : Word) :
    Keeps [.cfg] s (cfgPut s a w) := by
  unfold cfgPut
  repeat' first
    | with_reducible assumption
    | (extract_lets -merge +onlyGivenNames x
       first
       | (refine Keeps.cut (x := x) (fun hx => ?_) ?_; (on_goal 1 => clear_value x)
          (on_goal 2 => (unfold x; clear x)))
       | (refine Keeps.cut (x := x.2) (fun hx => ?_) ?_; (on_goal 1 => clear_value x)
          (on_goal 2 => (unfold x; clear x)))
       | clear_value x)
    | with_reducible apply Keeps.refl
    | with_reducible apply Keeps.upd_cfg
    | exact fun h => h
    | exact fun _ h => h
    | (intro _ hd; split <;> exact hd)
    | exact fun h => sparsePut_wf h _ _
    | exact fun _ h => sparsePut_wf h _ _
    | decide

theorem keep_drawBytes (s : State) (n : Nat) :
    Keeps [.free] s (drawBytes s n).2 := by
  unfold drawBytes
  repeat' first
    | with_reducible assumption
    | (extract_lets -merge +onlyGivenNames x
       first
       | (refine Keeps.cut (x := x) (fun hx => ?_) ?_; (on_goal 1 => clear_value x)
          (on_goal 2 => (unfold x; clear x)))
       | (refine Keeps.cut (x := x.2) (fun hx => ?_) ?_; (on_goal 1 => clear_value x)
          (on_goal 2 => (unfold x; clear x)))
       | clear_value x)
    | with_reducible apply Keeps.refl
    | with_reducible apply Keeps.upd_free
    | decide

theorem keep_drawBytes_eq {s : State} {n : Nat} {a t} (h : drawBytes s n = (a, t)) :
    Keeps [.free] s t := by
  have k := keep_drawBytes s n
  rw [h] at k
  exact k

theorem keep_drawBit (s : State) :
    Keeps [.free] s (drawBit s).2 := by
  unfold drawBit
  repeat' first
    | with_reducible assumption
    | (extract_lets -merge +onlyGivenNames x
       first
       | (refine Keeps.cut (x := x) (fun hx => ?_) ?_; (on_goal 1 => clear_value x)
          (on_goal 2 => (unfold x; clear x)))
       | (refine Keeps.cut (x := x.2) (fun hx => ?_) ?_; (on_goal 1 => clear_value x)
          (on_goal 2 => (unfold x; clear x)))
       | clear_value x)
    | with_reducible apply Keeps.refl
    | with_reducible apply Keeps.upd_free
    | decide

theorem keep_drawBit_eq {s : State} {a t} (h : drawBit s = (a, t)) :
    Keeps [.free] s t := by
  have k := keep_drawBit s
  rw [h] at k
  exact k

theorem keep_drawInt (s : State) :
    Keeps [.free] s (drawInt s).2 := by
  unfold drawInt
  repeat' first
    | with_reducible assumption
    | (extract_lets -merge +onlyGivenNames x
       first
       | (refine Keeps.cut (x := x) (fun hx => ?_) ?_; (on_goal 1 => clear_value x)
          (on_goal 2 => (unfold x; clear x)))
       | (refine Keeps.cut (x := x.2) (fun hx => ?_) ?_; (on_goal 1 => clear_value x)
          (on_goal 2 => (unfold x; clear x)))
       | clear_value x)
    | with_reducible apply Keeps.refl
    | with_reducible apply Keeps.upd_free
    | decide

theorem keep_drawInt_eq {s : State} {a t} (h : drawInt s = (a, t)) :
    Keeps [.free] s t := by
  have k := keep_drawInt s
  rw [h] at k
  exact k

theorem keep_queueLog (s : State) (x : LogItem) :
    Keeps [.log] s (queueLog s x) := by
  unfold queueLog
  repeat' first
    | with_reducible assumption
    | (extract_lets -merge +onlyGivenNames x
       first
       | (refine Keeps.cut (x := x) (fun hx => ?_) ?_; (on_goal 1 => clear_value x)
          (on_goal 2 => (unfold x; clear x)))
       | (refine Keeps.cut (x := x.2) (fun hx => ?_) ?_; (on_goal 1 => clear_value x)
          (on_goal 2 => (unfold x; clear x)))
       | clear_value x)
    | with_reducible apply Keeps.refl
    | with_reducible apply Keeps.ite
    | split
    | with_reducible apply Keeps.upd_log
    | decide

theorem keep_logRecAt (s : State) (time code : Nat) (src : LogSrc) (kind arg : Nat) (detail : Bytes) :
    Keeps [.log] s (logRecAt s time code src kind arg detail) := by
  unfold logRecAt
  repeat' first
    | with_reducible assumption
    | (extract_lets -merge +onlyGivenNames x
       first
       | (refine Keeps.cut (x := x) (fun hx => ?_) ?_; (on_goal 1 => clear_value x)
          (on_goal 2 => (unfold x; clear x)))
       | (refine Keeps.cut (x := x.2) (fun hx => ?_) ?_; (on_goal 1 => clear_value x)
          (on_goal 2 => (unfold x; clear x)))
       | clear_value x)
    | with_reducible apply Keeps.refl
    | with_reducible apply Keeps.then_ (keep_queueLog ..)
    | with_reducible apply Keeps.upd_log
    | decide

theorem keep_logRec (s : State) (code : Nat) (src : LogSrc) (kind arg : Nat) (detail : Bytes) :
    Keeps [.log] s (logRec s code src kind arg detail) := by
  unfold logRec
  repeat' first
    | with_reducible assumption
    | (extract_lets -merge +onlyGivenNames x
       first
       | (refine Keeps.cut (x := x) (fun hx => ?_) ?_; (on_goal 1 => clear_value x)
          (on_goal 2 => (unfold x; clear x)))
       | (refine Keeps.cut (x := x.2) (fun hx => ?_) ?_; (on_goal 1 => clear_value x)
          (on_goal 2 => (unfold x; clear x)))
       | clear_value x)
    | with_reducible apply Keeps.refl
    | with_reducible apply Keeps.then_ (keep_logRecAt ..)
    | decide

theorem keep_logInfo (s : State) (code : Nat) (src : LogSrc) (arg : Nat) :
    Keeps [.log] s (logInfo s code src arg) := by
  unfold logInfo
  repeat' first
    | with_reducible assumption
    | (extract_lets -merge +onlyGivenNames x
       first
       | (refine Keeps.cut (x := x) (fun hx => ?_) ?_; (on_goal 1 => clear_value x)
          (on_goal 2 => (unfold x; clear x)))
       | (refine Keeps.cut (x := x.2) (fun hx => ?_) ?_; (on_goal 1 => clear_value x)
          (on_goal 2 => (unfold x; clear x)))
       | clear_value x)
    | with_reducible apply Keeps.refl
    | with_reducible apply Keeps.then_ (keep_logRec ..)
    | decide

theorem keep_logMasked (s : State) (code : Nat) (src : LogSrc) (arg : Nat) :
    Keeps [.log] s (logMasked s code src arg) := by
  unfold logMasked
  repeat' first
    | with_reducible assumption
    | (extract_lets -merge +onlyGivenNames x
       first
       | (refine Keeps.cut (x := x) (fun hx => ?_) ?_; (on_goal 1 => clear_value x)
          (on_goal 2 => (unfold x; clear x)))
       | (refine Keeps.cut (x := x.2) (fun hx => ?_) ?_; (on_goal 1 => clear_value x)
          (on_goal 2 => (unfold x; clear x)))
       | clear_value x)
    | with_reducible apply Keeps.refl
    | with_reducible apply Keeps.then_ (keep_logRec ..)
    | decide

theorem keep_logDetect (s : State) (code : Nat) (src : LogSrc) (arg : Nat) :
    Keeps [.log, .flt] s (logDetect s code src arg) := by
  unfold logDetect
  repeat' first
    | with_reducible assumption
    | (extract_lets -merge +onlyGivenNames x
       first
       | (refine Keeps.cut (x := x) (fun hx => ?_) ?_; (on_goal 1 => clear_value x)
          (on_goal 2 => (unfold x; clear x)))
       | (refine Keeps.cut (x := x.2) (fun hx => ?_) ?_; (on_goal 1 => clear_value x)
          (on_goal 2 => (unfold x; clear x)))
       | clear_value x)
    | with_reducible apply Keeps.refl
    | with_reducible apply Keeps.then_ (keep_logRec ..)
    | with_reducible apply Keeps.upd_flt
    | decide

theorem keep_logClear (s : State) (code : Nat) (src : LogSrc) (arg : Nat) :
    Keeps [.log, .flt] s (logClear s code src arg) := by
  unfold logClear
  repeat' first
    | with_reducible assumption
    | (extract_lets -merge +onlyGivenNames x
       first
       | (refine Keeps.cut (x := x) (fun hx => ?_) ?_; (on_goal 1 => clear_value x)
          (on_goal 2 => (unfold x; clear x)))
       | (refine Keeps.cut (x := x.2) (fun hx => ?_) ?_; (on_goal 1 => clear_value x)
          (on_goal 2 => (unfold x; clear x)))
       | clear_value x)
    | with_reducible apply Keeps.refl
    | with_reducible apply Keeps.then_ (keep_logRec ..)
    | with_reducible apply Keeps.upd_flt
    | decide

theorem keep_clearFaults (s : State) (src : LogSrc) (p : Nat → Nat → Bool) :
    Keeps [.log, .flt] s (clearFaults s src p) := by
  unfold clearFaults
  repeat' first
    | with_reducible assumption
    | (extract_lets -merge +onlyGivenNames x
       first
       | (refine Keeps.cut (x := x) (fun hx => ?_) ?_; (on_goal 1 => clear_value x)
          (on_goal 2 => (unfold x; clear x)))
       | (refine Keeps.cut (x := x.2) (fun hx => ?_) ?_; (on_goal 1 => clear_value x)
          (on_goal 2 => (unfold x; clear x)))
       | clear_value x)
    | with_reducible apply Keeps.refl
    | with_reducible apply Keeps.then_ (keep_logClear ..)
    | (with_reducible apply Keeps.foldl; on_goal 2 => intros)
    | decide

theorem keep_noteRail (s : State) (r : Fin 9) (uV : Nat) :
    Keeps [.pwr] s (noteRail s r uV) := by
  unfold noteRail
  repeat' first
    | with_reducible assumption
    | (extract_lets -merge +onlyGivenNames x
       first
       | (refine Keeps.cut (x := x) (fun hx => ?_) ?_; (on_goal 1 => clear_value x)
          (on_goal 2 => (unfold x; clear x)))
       | (refine Keeps.cut (x := x.2) (fun hx => ?_) ?_; (on_goal 1 => clear_value x)
          (on_goal 2 => (unfold x; clear x)))
       | clear_value x)
    | with_reducible apply Keeps.refl
    | with_reducible apply Keeps.upd_pwr
    | decide

theorem keep_excursion (s : State) :
    Keeps [.flt] s (excursion s) := by
  unfold excursion
  repeat' first
    | with_reducible assumption
    | (extract_lets -merge +onlyGivenNames x
       first
       | (refine Keeps.cut (x := x) (fun hx => ?_) ?_; (on_goal 1 => clear_value x)
          (on_goal 2 => (unfold x; clear x)))
       | (refine Keeps.cut (x := x.2) (fun hx => ?_) ?_; (on_goal 1 => clear_value x)
          (on_goal 2 => (unfold x; clear x)))
       | clear_value x)
    | with_reducible apply Keeps.refl
    | with_reducible apply Keeps.upd_flt
    | decide

theorem keep_updSession (s : State) (sid : Nat) (f : Session → Session) :
    Keeps [.hostSessions] s (updSession s sid f) := by
  unfold updSession
  repeat' first
    | with_reducible assumption
    | (extract_lets -merge +onlyGivenNames x
       first
       | (refine Keeps.cut (x := x) (fun hx => ?_) ?_; (on_goal 1 => clear_value x)
          (on_goal 2 => (unfold x; clear x)))
       | (refine Keeps.cut (x := x.2) (fun hx => ?_) ?_; (on_goal 1 => clear_value x)
          (on_goal 2 => (unfold x; clear x)))
       | (have t : HostIf := x; clear t; subst x)
       | clear_value x)
    | with_reducible apply Keeps.refl
    | with_reducible apply Keeps.ite
    | (beta_reduce; split)
    | with_reducible apply Keeps.upd_host
    | (with_reducible apply Or.inl; decide)
    | (with_reducible apply Or.inr; with_reducible rfl)
    | (with_reducible apply Or.inr; rfl)
    | decide

theorem keep_sendSession (s : State) (x : Session) (cmd : Nat) (reply done repeated event : Bool) (cls status opId :
    Nat) (payload : Bytes) :
    Keeps [.hostSessions, .hostRest] s (sendSession s x cmd reply done repeated event cls status opId payload) := by
  unfold sendSession
  repeat' first
    | with_reducible assumption
    | (extract_lets -merge +onlyGivenNames x
       first
       | (refine Keeps.cut (x := x) (fun hx => ?_) ?_; (on_goal 1 => clear_value x)
          (on_goal 2 => (unfold x; clear x)))
       | (refine Keeps.cut (x := x.2) (fun hx => ?_) ?_; (on_goal 1 => clear_value x)
          (on_goal 2 => (unfold x; clear x)))
       | (have t : HostIf := x; clear t; subst x)
       | clear_value x)
    | with_reducible apply Keeps.refl
    | with_reducible apply Keeps.then_ (keep_updSession ..)
    | with_reducible apply Keeps.upd_host
    | (with_reducible apply Or.inl; decide)
    | (with_reducible apply Or.inr; with_reducible rfl)
    | (with_reducible apply Or.inr; rfl)
    | decide

theorem keep_emitEvent (s : State) (code : Nat) (roles : List (Fin 4)) (payload : Bytes) :
    Keeps [.hostSessions, .hostRest] s (emitEvent s code roles payload) := by
  unfold emitEvent
  repeat' first
    | with_reducible assumption
    | (extract_lets -merge +onlyGivenNames x
       first
       | (refine Keeps.cut (x := x) (fun hx => ?_) ?_; (on_goal 1 => clear_value x)
          (on_goal 2 => (unfold x; clear x)))
       | (refine Keeps.cut (x := x.2) (fun hx => ?_) ?_; (on_goal 1 => clear_value x)
          (on_goal 2 => (unfold x; clear x)))
       | clear_value x)
    | with_reducible apply Keeps.refl
    | with_reducible apply Keeps.ite
    | with_reducible apply Keeps.then_ (keep_sendSession ..)
    | (with_reducible apply Keeps.foldl; on_goal 2 => intros)
    | decide
    | (beta_reduce; split)

theorem keep_updStage (s : State) (i : Fin 8) (f : Stage → Stage) :
    Keeps [.sxStage] s (updStage s i f) := by
  unfold updStage
  repeat' first
    | with_reducible assumption
    | (extract_lets -merge +onlyGivenNames x
       first
       | (refine Keeps.cut (x := x) (fun hx => ?_) ?_; (on_goal 1 => clear_value x)
          (on_goal 2 => (unfold x; clear x)))
       | (refine Keeps.cut (x := x.2) (fun hx => ?_) ?_; (on_goal 1 => clear_value x)
          (on_goal 2 => (unfold x; clear x)))
       | (have t : Sextant := x; clear t; subst x)
       | clear_value x)
    | with_reducible apply Keeps.refl
    | with_reducible apply Keeps.upd_sx
    | (with_reducible apply Or.inl; decide)
    | (with_reducible apply Or.inr; with_reducible rfl)
    | (with_reducible apply Or.inr; rfl)
    | decide

theorem keep_updAux (s : State) (i : Fin 8) (f : StageAux → StageAux) :
    Keeps [.sxAux] s (updAux s i f) := by
  unfold updAux
  repeat' first
    | with_reducible assumption
    | (extract_lets -merge +onlyGivenNames x
       first
       | (refine Keeps.cut (x := x) (fun hx => ?_) ?_; (on_goal 1 => clear_value x)
          (on_goal 2 => (unfold x; clear x)))
       | (refine Keeps.cut (x := x.2) (fun hx => ?_) ?_; (on_goal 1 => clear_value x)
          (on_goal 2 => (unfold x; clear x)))
       | (have t : Sextant := x; clear t; subst x)
       | clear_value x)
    | with_reducible apply Keeps.refl
    | with_reducible apply Keeps.upd_sx
    | (with_reducible apply Or.inl; decide)
    | (with_reducible apply Or.inr; with_reducible rfl)
    | (with_reducible apply Or.inr; rfl)
    | decide

theorem keep_updCell (s : State) (i : Fin 48) (f : Cell → Cell) :
    Keeps [.sxCell] s (updCell s i f) := by
  unfold updCell
  repeat' first
    | with_reducible assumption
    | (extract_lets -merge +onlyGivenNames x
       first
       | (refine Keeps.cut (x := x) (fun hx => ?_) ?_; (on_goal 1 => clear_value x)
          (on_goal 2 => (unfold x; clear x)))
       | (refine Keeps.cut (x := x.2) (fun hx => ?_) ?_; (on_goal 1 => clear_value x)
          (on_goal 2 => (unfold x; clear x)))
       | (have t : Sextant := x; clear t; subst x)
       | clear_value x)
    | with_reducible apply Keeps.refl
    | with_reducible apply Keeps.upd_sx
    | (with_reducible apply Or.inl; decide)
    | (with_reducible apply Or.inr; with_reducible rfl)
    | (with_reducible apply Or.inr; rfl)
    | decide

theorem keep_updChannel (s : State) (i : Fin 48) (f : Channel → Channel) :
    Keeps [.sxChannel] s (updChannel s i f) := by
  unfold updChannel
  repeat' first
    | with_reducible assumption
    | (extract_lets -merge +onlyGivenNames x
       first
       | (refine Keeps.cut (x := x) (fun hx => ?_) ?_; (on_goal 1 => clear_value x)
          (on_goal 2 => (unfold x; clear x)))
       | (refine Keeps.cut (x := x.2) (fun hx => ?_) ?_; (on_goal 1 => clear_value x)
          (on_goal 2 => (unfold x; clear x)))
       | (have t : Sextant := x; clear t; subst x)
       | clear_value x)
    | with_reducible apply Keeps.refl
    | with_reducible apply Keeps.upd_sx
    | (with_reducible apply Or.inl; decide)
    | (with_reducible apply Or.inr; with_reducible rfl)
    | (with_reducible apply Or.inr; rfl)
    | decide

theorem keep_updSd (s : State) (i : Fin 64) (f : SdInput → SdInput) :
    Keeps [.sxSd] s (updSd s i f) := by
  unfold updSd
  repeat' first
    | with_reducible assumption
    | (extract_lets -merge +onlyGivenNames x
       first
       | (refine Keeps.cut (x := x) (fun hx => ?_) ?_; (on_goal 1 => clear_value x)
          (on_goal 2 => (unfold x; clear x)))
       | (refine Keeps.cut (x := x.2) (fun hx => ?_) ?_; (on_goal 1 => clear_value x)
          (on_goal 2 => (unfold x; clear x)))
       | (have t : Sextant := x; clear t; subst x)
       | clear_value x)
    | with_reducible apply Keeps.refl
    | with_reducible apply Keeps.upd_sx
    | (with_reducible apply Or.inl; decide)
    | (with_reducible apply Or.inr; with_reducible rfl)
    | (with_reducible apply Or.inr; rfl)
    | decide

theorem keep_updLaw (s : State) (i : Fin 96) (f : Law → Law) :
    Keeps [.sxLaw] s (updLaw s i f) := by
  unfold updLaw
  repeat' first
    | with_reducible assumption
    | (extract_lets -merge +onlyGivenNames x
       first
       | (refine Keeps.cut (x := x) (fun hx => ?_) ?_; (on_goal 1 => clear_value x)
          (on_goal 2 => (unfold x; clear x)))
       | (refine Keeps.cut (x := x.2) (fun hx => ?_) ?_; (on_goal 1 => clear_value x)
          (on_goal 2 => (unfold x; clear x)))
       | (have t : Sextant := x; clear t; subst x)
       | clear_value x)
    | with_reducible apply Keeps.refl
    | with_reducible apply Keeps.upd_sx
    | (with_reducible apply Or.inl; decide)
    | (with_reducible apply Or.inr; with_reducible rfl)
    | (with_reducible apply Or.inr; rfl)
    | decide

theorem keep_updOutlet (s : State) (o : Fin 2) (f : Outlet → Outlet) :
    Keeps [.outlet] s (updOutlet s o f) := by
  unfold updOutlet
  repeat' first
    | with_reducible assumption
    | (extract_lets -merge +onlyGivenNames x
       first
       | (refine Keeps.cut (x := x) (fun hx => ?_) ?_; (on_goal 1 => clear_value x)
          (on_goal 2 => (unfold x; clear x)))
       | (refine Keeps.cut (x := x.2) (fun hx => ?_) ?_; (on_goal 1 => clear_value x)
          (on_goal 2 => (unfold x; clear x)))
       | clear_value x)
    | with_reducible apply Keeps.refl
    | with_reducible apply Keeps.upd_outlet
    | decide

theorem keep_updCooling (s : State) (o : Fin 2) (f : Cooling → Cooling) :
    Keeps [.cooling] s (updCooling s o f) := by
  unfold updCooling
  repeat' first
    | with_reducible assumption
    | (extract_lets -merge +onlyGivenNames x
       first
       | (refine Keeps.cut (x := x) (fun hx => ?_) ?_; (on_goal 1 => clear_value x)
          (on_goal 2 => (unfold x; clear x)))
       | (refine Keeps.cut (x := x.2) (fun hx => ?_) ?_; (on_goal 1 => clear_value x)
          (on_goal 2 => (unfold x; clear x)))
       | clear_value x)
    | with_reducible apply Keeps.refl
    | with_reducible apply Keeps.upd_cooling
    | decide

theorem keep_updPort (s : State) (o : Fin 2) (f : HandlePort → HandlePort) :
    Keeps [.rdr] s (updPort s o f) := by
  unfold updPort
  repeat' first
    | with_reducible assumption
    | (extract_lets -merge +onlyGivenNames x
       first
       | (refine Keeps.cut (x := x) (fun hx => ?_) ?_; (on_goal 1 => clear_value x)
          (on_goal 2 => (unfold x; clear x)))
       | (refine Keeps.cut (x := x.2) (fun hx => ?_) ?_; (on_goal 1 => clear_value x)
          (on_goal 2 => (unfold x; clear x)))
       | clear_value x)
    | with_reducible apply Keeps.refl
    | with_reducible apply Keeps.upd_rdr
    | decide

theorem keep_updMch (s : State) (k : Fin 12) (f : MChannel → MChannel) :
    Keeps [.merFe] s (updMch s k f) := by
  unfold updMch
  repeat' first
    | with_reducible assumption
    | (extract_lets -merge +onlyGivenNames x
       first
       | (refine Keeps.cut (x := x) (fun hx => ?_) ?_; (on_goal 1 => clear_value x)
          (on_goal 2 => (unfold x; clear x)))
       | (refine Keeps.cut (x := x.2) (fun hx => ?_) ?_; (on_goal 1 => clear_value x)
          (on_goal 2 => (unfold x; clear x)))
       | (have t : Meridian := x; clear t; subst x)
       | clear_value x)
    | with_reducible apply Keeps.refl
    | with_reducible apply Keeps.upd_mer
    | (with_reducible apply Or.inl; decide)
    | (with_reducible apply Or.inr; with_reducible rfl)
    | (with_reducible apply Or.inr; rfl)
    | exact fun h => h
    | exact fun _ h => h
    | (intro _ hd; split <;> exact hd)
    | exact fun h => sparsePut_wf h _ _
    | exact fun _ h => sparsePut_wf h _ _
    | decide

theorem keep_updMod (s : State) (m : Fin 20) (f : Modulator → Modulator) :
    Keeps [.merFe] s (updMod s m f) := by
  unfold updMod
  repeat' first
    | with_reducible assumption
    | (extract_lets -merge +onlyGivenNames x
       first
       | (refine Keeps.cut (x := x) (fun hx => ?_) ?_; (on_goal 1 => clear_value x)
          (on_goal 2 => (unfold x; clear x)))
       | (refine Keeps.cut (x := x.2) (fun hx => ?_) ?_; (on_goal 1 => clear_value x)
          (on_goal 2 => (unfold x; clear x)))
       | (have t : Meridian := x; clear t; subst x)
       | clear_value x)
    | with_reducible apply Keeps.refl
    | with_reducible apply Keeps.upd_mer
    | (with_reducible apply Or.inl; decide)
    | (with_reducible apply Or.inr; with_reducible rfl)
    | (with_reducible apply Or.inr; rfl)
    | exact fun h => h
    | exact fun _ h => h
    | (intro _ hd; split <;> exact hd)
    | exact fun h => sparsePut_wf h _ _
    | exact fun _ h => sparsePut_wf h _ _
    | decide

theorem keep_updLeg (s : State) (f : LegalSet → LegalSet) :
    Keeps [.merLeg] s (updLeg s f) := by
  unfold updLeg
  repeat' first
    | with_reducible assumption
    | (extract_lets -merge +onlyGivenNames x
       first
       | (refine Keeps.cut (x := x) (fun hx => ?_) ?_; (on_goal 1 => clear_value x)
          (on_goal 2 => (unfold x; clear x)))
       | (refine Keeps.cut (x := x.2) (fun hx => ?_) ?_; (on_goal 1 => clear_value x)
          (on_goal 2 => (unfold x; clear x)))
       | (have t : Meridian := x; clear t; subst x)
       | clear_value x)
    | with_reducible apply Keeps.refl
    | with_reducible apply Keeps.upd_mer
    | (with_reducible apply Or.inl; decide)
    | (with_reducible apply Or.inr; with_reducible rfl)
    | (with_reducible apply Or.inr; rfl)
    | exact fun h => h
    | exact fun _ h => h
    | (intro _ hd; split <;> exact hd)
    | exact fun h => sparsePut_wf h _ _
    | exact fun _ h => sparsePut_wf h _ _
    | decide

theorem keep_updSi (s : State) (n : Fin 16) (f : SafeIn → SafeIn) :
    Keeps [.lkIn] s (updSi s n f) := by
  unfold updSi
  repeat' first
    | with_reducible assumption
    | (extract_lets -merge +onlyGivenNames x
       first
       | (refine Keeps.cut (x := x) (fun hx => ?_) ?_; (on_goal 1 => clear_value x)
          (on_goal 2 => (unfold x; clear x)))
       | (refine Keeps.cut (x := x.2) (fun hx => ?_) ?_; (on_goal 1 => clear_value x)
          (on_goal 2 => (unfold x; clear x)))
       | (have t : Lookout := x; clear t; subst x)
       | clear_value x)
    | with_reducible apply Keeps.refl
    | with_reducible apply Keeps.upd_lk
    | (with_reducible apply Or.inl; decide)
    | (with_reducible apply Or.inr; with_reducible rfl)
    | (with_reducible apply Or.inr; rfl)
    | decide

theorem keep_updSo (s : State) (n : Fin 8) (f : SafeOut → SafeOut) :
    Keeps [.lkOut] s (updSo s n f) := by
  unfold updSo
  repeat' first
    | with_reducible assumption
    | (extract_lets -merge +onlyGivenNames x
       first
       | (refine Keeps.cut (x := x) (fun hx => ?_) ?_; (on_goal 1 => clear_value x)
          (on_goal 2 => (unfold x; clear x)))
       | (refine Keeps.cut (x := x.2) (fun hx => ?_) ?_; (on_goal 1 => clear_value x)
          (on_goal 2 => (unfold x; clear x)))
       | (have t : Lookout := x; clear t; subst x)
       | clear_value x)
    | with_reducible apply Keeps.refl
    | with_reducible apply Keeps.upd_lk
    | (with_reducible apply Or.inl; decide)
    | (with_reducible apply Or.inr; with_reducible rfl)
    | (with_reducible apply Or.inr; rfl)
    | decide

theorem keep_updLko (s : State) (o : Fin 2) (f : LkOutlet → LkOutlet) :
    Keeps [.lkOutlet] s (updLko s o f) := by
  unfold updLko
  repeat' first
    | with_reducible assumption
    | (extract_lets -merge +onlyGivenNames x
       first
       | (refine Keeps.cut (x := x) (fun hx => ?_) ?_; (on_goal 1 => clear_value x)
          (on_goal 2 => (unfold x; clear x)))
       | (refine Keeps.cut (x := x.2) (fun hx => ?_) ?_; (on_goal 1 => clear_value x)
          (on_goal 2 => (unfold x; clear x)))
       | (have t : Lookout := x; clear t; subst x)
       | clear_value x)
    | with_reducible apply Keeps.refl
    | with_reducible apply Keeps.upd_lk
    | (with_reducible apply Or.inl; decide)
    | (with_reducible apply Or.inr; with_reducible rfl)
    | (with_reducible apply Or.inr; rfl)
    | decide

theorem keep_updSlot (s : State) (k : Fin 128) (f : Slot → Slot) :
    Keeps [.locker] s (updSlot s k f) := by
  unfold updSlot
  repeat' first
    | with_reducible assumption
    | (extract_lets -merge +onlyGivenNames x
       first
       | (refine Keeps.cut (x := x) (fun hx => ?_) ?_; (on_goal 1 => clear_value x)
          (on_goal 2 => (unfold x; clear x)))
       | (refine Keeps.cut (x := x.2) (fun hx => ?_) ?_; (on_goal 1 => clear_value x)
          (on_goal 2 => (unfold x; clear x)))
       | clear_value x)
    | with_reducible apply Keeps.refl
    | with_reducible apply Keeps.upd_locker
    | decide

end Sys2Proof.Machine
end

