-- ==== Sys2Proof/Laws/FrameChartOps.lean ====
section
/-!
SUPPORT. What each operation of Machine/ChartOps.lean leaves unchanged.
-/
namespace Sys2Proof.Machine

set_option linter.unreachableTactic false
set_option linter.unusedTactic false
set_option linter.tactic.unusedName false

theorem keep_reportUnknown (s : State) (c : Bytes) :
    Keeps [.log] s (reportUnknown s c) := by
  unfold reportUnknown
  repeat' first
    | with_reducible assumption
    | (extract_lets -merge +onlyGivenNames x
       first
       | (refine Keeps.cut (x := x) (fun hx => ?_) ?_; (on_goal 1 => clear_value x)
          (on_goal 2 => (unfold x; clear x)))
       | (refine Keeps.cut (x := x.2) (fun hx => ?_) ?_; (on_goal 1 => clear_value x)
          (on_goal 2 => (unfold x; clear x)))
       | clear_value x)
    | with_reducible apply Keeps.refl
    | with_reducible apply Keeps.then_ (keep_logInfo ..)
    | (with_reducible apply Keeps.foldl; on_goal 2 => intros)
    | decide
    | (beta_reduce; split)

theorem keep_writeSnapshot (s : State) (c : Bytes) :
    Keeps [.chart] s (writeSnapshot s c) := by
  unfold writeSnapshot
  repeat' first
    | with_reducible assumption
    | (extract_lets -merge +onlyGivenNames x
       first
       | (refine Keeps.cut (x := x) (fun hx => ?_) ?_; (on_goal 1 => clear_value x)
          (on_goal 2 => (unfold x; clear x)))
       | (refine Keeps.cut (x := x.2) (fun hx => ?_) ?_; (on_goal 1 => clear_value x)
          (on_goal 2 => (unfold x; clear x)))
       | (have t : Chart := x; clear t; subst x)
       | clear_value x)
    | with_reducible apply Keeps.refl
    | with_reducible apply Keeps.ite
    | split
    | with_reducible apply Keeps.upd_chart
    | exact fun h => h
    | exact fun _ h => h
    | (intro _ hd; split <;> exact hd)
    | decide

end Sys2Proof.Machine
end

