-- ==== Sys2Proof/Laws/FrameStageOps.lean ====
section
/-!
SUPPORT. What each operation of Machine/StageOps.lean leaves unchanged.
-/
namespace Sys2Proof.Machine

set_option linter.unreachableTactic false
set_option linter.unusedTactic false
set_option linter.tactic.unusedName false

theorem keep_setFeedback (s : State) (o : Fin 2) (isOpen : Bool) :
    Keeps [.lkOut] s (setFeedback s o isOpen) := by
  unfold setFeedback
  repeat' first
    | with_reducible assumption
    | (extract_lets -merge +onlyGivenNames x
       first
       | (refine Keeps.cut (x := x) (fun hx => ?_) ?_; (on_goal 1 => clear_value x)
          (on_goal 2 => (unfold x; clear x)))
       | (refine Keeps.cut (x := x.2) (fun hx => ?_) ?_; (on_goal 1 => clear_value x)
          (on_goal 2 => (unfold x; clear x)))
       | (have t : _ → State := x; clear t; subst x)
       | (have t : _ → _ → State := x; clear t; subst x)
       | (have t : _ → _ → Display := x; clear t; subst x)
       | clear_value x)
    | with_reducible apply Keeps.refl
    | with_reducible apply Keeps.then_ (keep_updSo ..)
    | decide

theorem keep_seeCount (s : State) (t : Nat) :
    Keeps [.sxCount] s (seeCount s t) := by
  unfold seeCount
  repeat' first
    | with_reducible assumption
    | (extract_lets -merge +onlyGivenNames x
       first
       | (refine Keeps.cut (x := x) (fun hx => ?_) ?_; (on_goal 1 => clear_value x)
          (on_goal 2 => (unfold x; clear x)))
       | (refine Keeps.cut (x := x.2) (fun hx => ?_) ?_; (on_goal 1 => clear_value x)
          (on_goal 2 => (unfold x; clear x)))
       | (have t : Sextant := x; clear t; subst x)
       | clear_value x)
    | with_reducible apply Keeps.refl
    | with_reducible apply Keeps.upd_sx
    | (with_reducible apply Or.inl; decide)
    | (with_reducible apply Or.inr; with_reducible rfl)
    | (with_reducible apply Or.inr; rfl)
    | decide

theorem keep_detectFab (s : State) (code arg : Nat) (detail : Bytes) :
    Keeps [.log, .flt] s (detectFab s code arg detail) := by
  unfold detectFab
  repeat' first
    | with_reducible assumption
    | (extract_lets -merge +onlyGivenNames x
       first
       | (refine Keeps.cut (x := x) (fun hx => ?_) ?_; (on_goal 1 => clear_value x)
          (on_goal 2 => (unfold x; clear x)))
       | (refine Keeps.cut (x := x.2) (fun hx => ?_) ?_; (on_goal 1 => clear_value x)
          (on_goal 2 => (unfold x; clear x)))
       | clear_value x)
    | with_reducible apply Keeps.refl
    | with_reducible apply Keeps.then_ (keep_logRecAt ..)
    | with_reducible apply Keeps.upd_flt
    | decide

theorem keep_reshare (s : State) (g : Fin 8) :
    Keeps [.sxCell] s (reshare s g) := by
  unfold reshare
  repeat' first
    | with_reducible assumption
    | (extract_lets -merge +onlyGivenNames x
       first
       | (refine Keeps.cut (x := x) (fun hx => ?_) ?_; (on_goal 1 => clear_value x)
          (on_goal 2 => (unfold x; clear x)))
       | (refine Keeps.cut (x := x.2) (fun hx => ?_) ?_; (on_goal 1 => clear_value x)
          (on_goal 2 => (unfold x; clear x)))
       | clear_value x)
    | with_reducible apply Keeps.refl
    | with_reducible apply Keeps.then_ (keep_updCell ..)
    | (with_reducible apply Keeps.foldl; on_goal 2 => intros)
    | decide

theorem keep_followLimit (s : State) (g : Fin 8) :
    Keeps [.sxCell, .sxStage] s (followLimit s g) := by
  unfold followLimit
  repeat' first
    | with_reducible assumption
    | (extract_lets -merge +onlyGivenNames x
       first
       | (refine Keeps.cut (x := x) (fun hx => ?_) ?_; (on_goal 1 => clear_value x)
          (on_goal 2 => (unfold x; clear x)))
       | (refine Keeps.cut (x := x.2) (fun hx => ?_) ?_; (on_goal 1 => clear_value x)
          (on_goal 2 => (unfold x; clear x)))
       | clear_value x)
    | with_reducible apply Keeps.refl
    | with_reducible apply Keeps.ite
    | with_reducible apply Keeps.then_ (keep_updStage ..)
    | with_reducible apply Keeps.then_ (keep_reshare ..)
    | decide
    | (beta_reduce; split)

theorem keep_parkChannels (s : State) (g : Fin 8) (p : Fin 48 → Bool) :
    Keeps [.sxChannel] s (parkChannels s g p) := by
  unfold parkChannels
  repeat' first
    | with_reducible assumption
    | (extract_lets -merge +onlyGivenNames x
       first
       | (refine Keeps.cut (x := x) (fun hx => ?_) ?_; (on_goal 1 => clear_value x)
          (on_goal 2 => (unfold x; clear x)))
       | (refine Keeps.cut (x := x.2) (fun hx => ?_) ?_; (on_goal 1 => clear_value x)
          (on_goal 2 => (unfold x; clear x)))
       | (have t : Sextant := x; clear t; subst x)
       | clear_value x)
    | with_reducible apply Keeps.refl
    | with_reducible apply Keeps.ite
    | (beta_reduce; split)
    | with_reducible apply Keeps.upd_sx
    | (with_reducible apply Or.inl; decide)
    | (with_reducible apply Or.inr; with_reducible rfl)
    | (with_reducible apply Or.inr; rfl)
    | decide

theorem keep_mapCells (s : State) (g : Fin 8) (f : Cell → Cell) :
    Keeps [.sxCell] s (mapCells s g f) := by
  unfold mapCells
  repeat' first
    | with_reducible assumption
    | (extract_lets -merge +onlyGivenNames x
       first
       | (refine Keeps.cut (x := x) (fun hx => ?_) ?_; (on_goal 1 => clear_value x)
          (on_goal 2 => (unfold x; clear x)))
       | (refine Keeps.cut (x := x.2) (fun hx => ?_) ?_; (on_goal 1 => clear_value x)
          (on_goal 2 => (unfold x; clear x)))
       | clear_value x)
    | with_reducible apply Keeps.refl
    | with_reducible apply Keeps.then_ (keep_updCell ..)
    | (with_reducible apply Keeps.foldl; on_goal 2 => intros)
    | decide

theorem keep_stageOff (s : State) (g : Fin 8) (fail : Option Nat) :
    Keeps [.sxChannel, .sxCell, .sxStage, .sxAux] s (stageOff s g fail) := by
  unfold stageOff
  repeat' first
    | with_reducible assumption
    | (extract_lets -merge +onlyGivenNames x
       first
       | (refine Keeps.cut (x := x) (fun hx => ?_) ?_; (on_goal 1 => clear_value x)
          (on_goal 2 => (unfold x; clear x)))
       | (refine Keeps.cut (x := x.2) (fun hx => ?_) ?_; (on_goal 1 => clear_value x)
          (on_goal 2 => (unfold x; clear x)))
       | clear_value x)
    | with_reducible apply Keeps.refl
    | with_reducible apply Keeps.ite
    | with_reducible apply Keeps.then_ (keep_updStage ..)
    | with_reducible apply Keeps.then_ (keep_updAux ..)
    | with_reducible apply Keeps.then_ (keep_parkChannels ..)
    | with_reducible apply Keeps.then_ (keep_mapCells ..)
    | decide
    | (beta_reduce; split)

theorem keep_stageRamp (s : State) (g : Fin 8) :
    Keeps [.sxCell, .sxStage] s (stageRamp s g) := by
  unfold stageRamp
  repeat' first
    | with_reducible assumption
    | (extract_lets -merge +onlyGivenNames x
       first
       | (refine Keeps.cut (x := x) (fun hx => ?_) ?_; (on_goal 1 => clear_value x)
          (on_goal 2 => (unfold x; clear x)))
       | (refine Keeps.cut (x := x.2) (fun hx => ?_) ?_; (on_goal 1 => clear_value x)
          (on_goal 2 => (unfold x; clear x)))
       | clear_value x)
    | with_reducible apply Keeps.refl
    | with_reducible apply Keeps.then_ (keep_updStage ..)
    | with_reducible apply Keeps.then_ (keep_reshare ..)
    | with_reducible apply Keeps.then_ (keep_followLimit ..)
    | decide

theorem keep_driveKinds (s : State) :
    Keeps [.lkOut] s (driveKinds s) := by
  unfold driveKinds
  repeat' first
    | with_reducible assumption
    | (extract_lets -merge +onlyGivenNames x
       first
       | (refine Keeps.cut (x := x) (fun hx => ?_) ?_; (on_goal 1 => clear_value x)
          (on_goal 2 => (unfold x; clear x)))
       | (refine Keeps.cut (x := x.2) (fun hx => ?_) ?_; (on_goal 1 => clear_value x)
          (on_goal 2 => (unfold x; clear x)))
       | (have t : Lookout := x; clear t; subst x)
       | (have t : _ → State := x; clear t; subst x)
       | (have t : _ → _ → State := x; clear t; subst x)
       | (have t : _ → _ → Display := x; clear t; subst x)
       | clear_value x)
    | with_reducible apply Keeps.refl
    | with_reducible apply Keeps.ite
    | (beta_reduce; split)
    | with_reducible apply Keeps.upd_lk
    | (with_reducible apply Or.inl; decide)
    | (with_reducible apply Or.inr; with_reducible rfl)
    | (with_reducible apply Or.inr; rfl)
    | decide

theorem keep_dropKinds (s : State) :
    Keeps [.lkOut, .lkRest] s (dropKinds s) := by
  unfold dropKinds
  repeat' first
    | with_reducible assumption
    | (extract_lets -merge +onlyGivenNames x
       first
       | (refine Keeps.cut (x := x) (fun hx => ?_) ?_; (on_goal 1 => clear_value x)
          (on_goal 2 => (unfold x; clear x)))
       | (refine Keeps.cut (x := x.2) (fun hx => ?_) ?_; (on_goal 1 => clear_value x)
          (on_goal 2 => (unfold x; clear x)))
       | (have t : Lookout := x; clear t; subst x)
       | clear_value x)
    | with_reducible apply Keeps.refl
    | with_reducible apply Keeps.then_ (keep_driveKinds ..)
    | with_reducible apply Keeps.upd_lk
    | (with_reducible apply Or.inl; decide)
    | (with_reducible apply Or.inr; with_reducible rfl)
    | (with_reducible apply Or.inr; rfl)
    | decide

theorem keep_afeDrop (s : State) (g : Fin 8) :
    Keeps [.lkOut, .lkRest] s (afeDrop s g) := by
  unfold afeDrop
  repeat' first
    | with_reducible assumption
    | (extract_lets -merge +onlyGivenNames x
       first
       | (refine Keeps.cut (x := x) (fun hx => ?_) ?_; (on_goal 1 => clear_value x)
          (on_goal 2 => (unfold x; clear x)))
       | (refine Keeps.cut (x := x.2) (fun hx => ?_) ?_; (on_goal 1 => clear_value x)
          (on_goal 2 => (unfold x; clear x)))
       | clear_value x)
    | with_reducible apply Keeps.refl
    | with_reducible apply Keeps.ite
    | with_reducible apply Keeps.then_ (keep_dropKinds ..)
    | decide
    | split

theorem keep_stageLatched (s : State) (g : Fin 8) (cause : LatchCause) :
    Keeps [.sxChannel, .sxStage, .lkOut, .lkRest, .log, .flt] s (stageLatched s g cause) := by
  unfold stageLatched
  repeat' first
    | with_reducible assumption
    | (extract_lets -merge +onlyGivenNames x
       first
       | (refine Keeps.cut (x := x) (fun hx => ?_) ?_; (on_goal 1 => clear_value x)
          (on_goal 2 => (unfold x; clear x)))
       | (refine Keeps.cut (x := x.2) (fun hx => ?_) ?_; (on_goal 1 => clear_value x)
          (on_goal 2 => (unfold x; clear x)))
       | clear_value x)
    | with_reducible apply Keeps.refl
    | with_reducible apply Keeps.ite
    | with_reducible apply Keeps.then_ (keep_updStage ..)
    | with_reducible apply Keeps.then_ (keep_detectFab ..)
    | with_reducible apply Keeps.then_ (keep_parkChannels ..)
    | with_reducible apply Keeps.then_ (keep_afeDrop ..)
    | decide
    | (beta_reduce; split)

theorem keep_latchStage (s : State) (g : Fin 8) (cause : LatchCause) :
    Keeps [.sxChannel, .sxStage, .lkOut, .lkRest, .log, .flt] s (latchStage s g cause) := by
  unfold latchStage
  repeat' first
    | with_reducible assumption
    | (extract_lets -merge +onlyGivenNames x
       first
       | (refine Keeps.cut (x := x) (fun hx => ?_) ?_; (on_goal 1 => clear_value x)
          (on_goal 2 => (unfold x; clear x)))
       | (refine Keeps.cut (x := x.2) (fun hx => ?_) ?_; (on_goal 1 => clear_value x)
          (on_goal 2 => (unfold x; clear x)))
       | clear_value x)
    | with_reducible apply Keeps.refl
    | with_reducible apply Keeps.ite
    | with_reducible apply Keeps.then_ (keep_stageLatched ..)
    | decide
    | split

theorem keep_haltStage (s : State) (g : Fin 8) (fail : Option Nat) :
    Keeps [.sxChannel, .sxCell, .sxStage, .sxAux, .lkOut, .lkRest] s (haltStage s g fail) := by
  unfold haltStage
  repeat' first
    | with_reducible assumption
    | (extract_lets -merge +onlyGivenNames x
       first
       | (refine Keeps.cut (x := x) (fun hx => ?_) ?_; (on_goal 1 => clear_value x)
          (on_goal 2 => (unfold x; clear x)))
       | (refine Keeps.cut (x := x.2) (fun hx => ?_) ?_; (on_goal 1 => clear_value x)
          (on_goal 2 => (unfold x; clear x)))
       | clear_value x)
    | with_reducible apply Keeps.refl
    | with_reducible apply Keeps.then_ (keep_stageOff ..)
    | with_reducible apply Keeps.then_ (keep_stageRamp ..)
    | with_reducible apply Keeps.then_ (keep_afeDrop ..)
    | decide
    | split

theorem keep_depReact (n : Nat) (s t : State) : Keeps [.sxChannel, .sxCell, .sxStage, .sxAux, .lkOut, .lkRest] t
    (depReact n s t) := by
  induction n generalizing s t with
  | zero => exact Keeps.refl _ _
  | succ n ih =>
    unfold depReact
    extract_lets left u
    refine Keeps.ite (Keeps.refl _ _) (Keeps.trans ?_ (ih t u))
    refine Keeps.foldl (Keeps.refl _ _) fun w g hw => Keeps.foldl hw fun x h hx => Keeps.ite ?_ hx
    exact hx.trans ((keep_haltStage x h (some 5)).mono (by decide))

theorem Keeps.withDeps {F : List Part} {r s : State} {f : State → State} (h : Keeps F r (f s))
    (hF : ∀ p ∈ ([.sxChannel, .sxCell, .sxStage, .sxAux, .lkOut, .lkRest] : List Part), p ∈ F) : Keeps F r
        (Machine.withDeps s f) :=
  h.trans ((keep_depReact 8 s (f s)).mono hF)

theorem keep_parkCell (s : State) (g : Fin 8) (c : Fin 48) :
    Keeps [.sxChannel] s (parkCell s g c) := by
  unfold parkCell
  repeat' first
    | with_reducible assumption
    | (extract_lets -merge +onlyGivenNames x
       first
       | (refine Keeps.cut (x := x) (fun hx => ?_) ?_; (on_goal 1 => clear_value x)
          (on_goal 2 => (unfold x; clear x)))
       | (refine Keeps.cut (x := x.2) (fun hx => ?_) ?_; (on_goal 1 => clear_value x)
          (on_goal 2 => (unfold x; clear x)))
       | clear_value x)
    | with_reducible apply Keeps.refl
    | with_reducible apply Keeps.then_ (keep_parkChannels ..)
    | decide

theorem keep_logCell (s : State) (code : Nat) (kind : Nat) (g : Fin 8) (c : Fin 48) (cause : Nat) :
    Keeps [.log] s (logCell s code kind g c cause) := by
  unfold logCell
  repeat' first
    | with_reducible assumption
    | (extract_lets -merge +onlyGivenNames x
       first
       | (refine Keeps.cut (x := x) (fun hx => ?_) ?_; (on_goal 1 => clear_value x)
          (on_goal 2 => (unfold x; clear x)))
       | (refine Keeps.cut (x := x.2) (fun hx => ?_) ?_; (on_goal 1 => clear_value x)
          (on_goal 2 => (unfold x; clear x)))
       | clear_value x)
    | with_reducible apply Keeps.refl
    | with_reducible apply Keeps.then_ (keep_logRecAt ..)
    | decide

theorem keep_retireCell (s : State) (g : Fin 8) (c : Fin 48) (cause : Nat) :
    Keeps [.sxChannel, .sxCell, .sxStage, .lkOut, .lkRest, .log, .flt] s (retireCell s g c cause) := by
  unfold retireCell
  repeat' first
    | with_reducible assumption
    | (extract_lets -merge +onlyGivenNames x
       first
       | (refine Keeps.cut (x := x) (fun hx => ?_) ?_; (on_goal 1 => clear_value x)
          (on_goal 2 => (unfold x; clear x)))
       | (refine Keeps.cut (x := x.2) (fun hx => ?_) ?_; (on_goal 1 => clear_value x)
          (on_goal 2 => (unfold x; clear x)))
       | clear_value x)
    | with_reducible apply Keeps.refl
    | with_reducible apply Keeps.ite
    | with_reducible apply Keeps.then_ (keep_updStage ..)
    | with_reducible apply Keeps.then_ (keep_updCell ..)
    | with_reducible apply Keeps.then_ (keep_reshare ..)
    | with_reducible apply Keeps.then_ (keep_followLimit ..)
    | with_reducible apply Keeps.then_ (keep_latchStage ..)
    | with_reducible apply Keeps.then_ (keep_parkCell ..)
    | with_reducible apply Keeps.then_ (keep_logCell ..)
    | decide
    | (beta_reduce; split)

theorem keep_cellLostSense (s : State) (g : Fin 8) (c : Fin 48) :
    Keeps [.sxChannel, .sxCell, .sxStage, .lkOut, .lkRest, .log, .flt] s (cellLostSense s g c) := by
  unfold cellLostSense
  repeat' first
    | with_reducible assumption
    | (extract_lets -merge +onlyGivenNames x
       first
       | (refine Keeps.cut (x := x) (fun hx => ?_) ?_; (on_goal 1 => clear_value x)
          (on_goal 2 => (unfold x; clear x)))
       | (refine Keeps.cut (x := x.2) (fun hx => ?_) ?_; (on_goal 1 => clear_value x)
          (on_goal 2 => (unfold x; clear x)))
       | clear_value x)
    | with_reducible apply Keeps.refl
    | with_reducible apply Keeps.ite
    | with_reducible apply Keeps.then_ (keep_updCell ..)
    | with_reducible apply Keeps.then_ (keep_reshare ..)
    | with_reducible apply Keeps.then_ (keep_latchStage ..)
    | with_reducible apply Keeps.then_ (keep_logCell ..)
    | with_reducible apply Keeps.then_ (keep_retireCell ..)
    | decide
    | (beta_reduce; split)

theorem keep_startCells (s : State) (g : Fin 8) :
    Keeps [.sxChannel, .sxCell, .sxStage, .lkOut, .lkRest, .log, .flt] s (startCells s g) := by
  unfold startCells
  repeat' first
    | with_reducible assumption
    | (extract_lets -merge +onlyGivenNames x
       first
       | (refine Keeps.cut (x := x) (fun hx => ?_) ?_; (on_goal 1 => clear_value x)
          (on_goal 2 => (unfold x; clear x)))
       | (refine Keeps.cut (x := x.2) (fun hx => ?_) ?_; (on_goal 1 => clear_value x)
          (on_goal 2 => (unfold x; clear x)))
       | clear_value x)
    | with_reducible apply Keeps.refl
    | with_reducible apply Keeps.ite
    | with_reducible apply Keeps.then_ (keep_updStage ..)
    | with_reducible apply Keeps.then_ (keep_reshare ..)
    | with_reducible apply Keeps.then_ (keep_mapCells ..)
    | with_reducible apply Keeps.then_ (keep_cellLostSense ..)
    | (with_reducible apply Keeps.foldl; on_goal 2 => intros)
    | decide
    | (beta_reduce; split)

end Sys2Proof.Machine
end

