-- ==== Sys2Proof/Laws/FrameOutletOps.lean ====
section
/-!
SUPPORT. What each operation of Machine/OutletOps.lean leaves unchanged.
-/
namespace Sys2Proof.Machine

set_option linter.unreachableTactic false
set_option linter.unusedTactic false
set_option linter.tactic.unusedName false

theorem keep_setPilot (s : State) (o : Fin 2) :
    Keeps [.outlet] s (setPilot s o) := by
  unfold setPilot
  repeat' first
    | with_reducible assumption
    | (extract_lets -merge +onlyGivenNames x
       first
       | (refine Keeps.cut (x := x) (fun hx => ?_) ?_; (on_goal 1 => clear_value x)
          (on_goal 2 => (unfold x; clear x)))
       | (refine Keeps.cut (x := x.2) (fun hx => ?_) ?_; (on_goal 1 => clear_value x)
          (on_goal 2 => (unfold x; clear x)))
       | clear_value x)
    | with_reducible apply Keeps.refl
    | with_reducible apply Keeps.then_ (keep_updOutlet ..)
    | decide

theorem keep_startLink (s : State) (o : Fin 2) :
    Keeps [.outlet] s (startLink s o) := by
  unfold startLink
  repeat' first
    | with_reducible assumption
    | (extract_lets -merge +onlyGivenNames x
       first
       | (refine Keeps.cut (x := x) (fun hx => ?_) ?_; (on_goal 1 => clear_value x)
          (on_goal 2 => (unfold x; clear x)))
       | (refine Keeps.cut (x := x.2) (fun hx => ?_) ?_; (on_goal 1 => clear_value x)
          (on_goal 2 => (unfold x; clear x)))
       | clear_value x)
    | with_reducible apply Keeps.refl
    | with_reducible apply Keeps.then_ (keep_updOutlet ..)
    | with_reducible apply Keeps.then_ (keep_setPilot ..)
    | decide

theorem keep_proceedCable (s : State) (o : Fin 2) :
    Keeps [.outlet] s (proceedCable s o) := by
  unfold proceedCable
  repeat' first
    | with_reducible assumption
    | (extract_lets -merge +onlyGivenNames x
       first
       | (refine Keeps.cut (x := x) (fun hx => ?_) ?_; (on_goal 1 => clear_value x)
          (on_goal 2 => (unfold x; clear x)))
       | (refine Keeps.cut (x := x.2) (fun hx => ?_) ?_; (on_goal 1 => clear_value x)
          (on_goal 2 => (unfold x; clear x)))
       | clear_value x)
    | with_reducible apply Keeps.refl
    | with_reducible apply Keeps.ite
    | with_reducible apply Keeps.then_ (keep_setPilot ..)
    | with_reducible apply Keeps.then_ (keep_startLink ..)
    | decide
    | split

theorem keep_setPilots (s : State) :
    Keeps [.outlet] s (setPilots s) := by
  unfold setPilots
  repeat' first
    | with_reducible assumption
    | (extract_lets -merge +onlyGivenNames x
       first
       | (refine Keeps.cut (x := x) (fun hx => ?_) ?_; (on_goal 1 => clear_value x)
          (on_goal 2 => (unfold x; clear x)))
       | (refine Keeps.cut (x := x.2) (fun hx => ?_) ?_; (on_goal 1 => clear_value x)
          (on_goal 2 => (unfold x; clear x)))
       | clear_value x)
    | with_reducible apply Keeps.refl
    | with_reducible apply Keeps.then_ (keep_proceedCable ..)
    | decide

theorem keep_answer (s : State) (o : Fin 2) (a : Answer) :
    Keeps [.outlet] s (answer s o a) := by
  unfold answer
  repeat' first
    | with_reducible assumption
    | (extract_lets -merge +onlyGivenNames x
       first
       | (refine Keeps.cut (x := x) (fun hx => ?_) ?_; (on_goal 1 => clear_value x)
          (on_goal 2 => (unfold x; clear x)))
       | (refine Keeps.cut (x := x.2) (fun hx => ?_) ?_; (on_goal 1 => clear_value x)
          (on_goal 2 => (unfold x; clear x)))
       | clear_value x)
    | with_reducible apply Keeps.refl
    | with_reducible apply Keeps.ite
    | with_reducible apply Keeps.then_ (keep_updOutlet ..)
    | decide
    | (beta_reduce; split)

theorem keep_answerOther (s : State) (o : Fin 2) :
    Keeps [.outlet] s (answerOther s o) := by
  unfold answerOther
  repeat' first
    | with_reducible assumption
    | (extract_lets -merge +onlyGivenNames x
       first
       | (refine Keeps.cut (x := x) (fun hx => ?_) ?_; (on_goal 1 => clear_value x)
          (on_goal 2 => (unfold x; clear x)))
       | (refine Keeps.cut (x := x.2) (fun hx => ?_) ?_; (on_goal 1 => clear_value x)
          (on_goal 2 => (unfold x; clear x)))
       | clear_value x)
    | with_reducible apply Keeps.refl
    | with_reducible apply Keeps.then_ (keep_answer ..)
    | decide
    | split

theorem keep_answerStop (s : State) (o : Fin 2) :
    Keeps [.outlet] s (answerStop s o) := by
  unfold answerStop
  repeat' first
    | with_reducible assumption
    | (extract_lets -merge +onlyGivenNames x
       first
       | (refine Keeps.cut (x := x) (fun hx => ?_) ?_; (on_goal 1 => clear_value x)
          (on_goal 2 => (unfold x; clear x)))
       | (refine Keeps.cut (x := x.2) (fun hx => ?_) ?_; (on_goal 1 => clear_value x)
          (on_goal 2 => (unfold x; clear x)))
       | clear_value x)
    | with_reducible apply Keeps.refl
    | with_reducible apply Keeps.then_ (keep_answer ..)
    | decide
    | split

theorem keep_enter (s : State) (o : Fin 2) (st : OutSt) :
    Keeps [.outlet] s (enter s o st) := by
  unfold enter
  repeat' first
    | with_reducible assumption
    | (extract_lets -merge +onlyGivenNames x
       first
       | (refine Keeps.cut (x := x) (fun hx => ?_) ?_; (on_goal 1 => clear_value x)
          (on_goal 2 => (unfold x; clear x)))
       | (refine Keeps.cut (x := x.2) (fun hx => ?_) ?_; (on_goal 1 => clear_value x)
          (on_goal 2 => (unfold x; clear x)))
       | clear_value x)
    | with_reducible apply Keeps.refl
    | with_reducible apply Keeps.then_ (keep_updOutlet ..)
    | decide

theorem keep_toIdle (s : State) (o : Fin 2) :
    Keeps [.outlet] s (toIdle s o) := by
  unfold toIdle
  repeat' first
    | with_reducible assumption
    | (extract_lets -merge +onlyGivenNames x
       first
       | (refine Keeps.cut (x := x) (fun hx => ?_) ?_; (on_goal 1 => clear_value x)
          (on_goal 2 => (unfold x; clear x)))
       | (refine Keeps.cut (x := x.2) (fun hx => ?_) ?_; (on_goal 1 => clear_value x)
          (on_goal 2 => (unfold x; clear x)))
       | clear_value x)
    | with_reducible apply Keeps.refl
    | with_reducible apply Keeps.then_ (keep_setPilot ..)
    | with_reducible apply Keeps.then_ (keep_enter ..)
    | decide

theorem keep_rest (s : State) (o : Fin 2) :
    Keeps [.outlet] s (rest s o) := by
  unfold rest
  repeat' first
    | with_reducible assumption
    | (extract_lets -merge +onlyGivenNames x
       first
       | (refine Keeps.cut (x := x) (fun hx => ?_) ?_; (on_goal 1 => clear_value x)
          (on_goal 2 => (unfold x; clear x)))
       | (refine Keeps.cut (x := x.2) (fun hx => ?_) ?_; (on_goal 1 => clear_value x)
          (on_goal 2 => (unfold x; clear x)))
       | clear_value x)
    | with_reducible apply Keeps.refl
    | with_reducible apply Keeps.ite
    | with_reducible apply Keeps.then_ (keep_toIdle ..)
    | decide
    | split

theorem keep_endLink (s : State) (o : Fin 2) :
    Keeps [.outlet] s (endLink s o) := by
  unfold endLink
  repeat' first
    | with_reducible assumption
    | (extract_lets -merge +onlyGivenNames x
       first
       | (refine Keeps.cut (x := x) (fun hx => ?_) ?_; (on_goal 1 => clear_value x)
          (on_goal 2 => (unfold x; clear x)))
       | (refine Keeps.cut (x := x.2) (fun hx => ?_) ?_; (on_goal 1 => clear_value x)
          (on_goal 2 => (unfold x; clear x)))
       | clear_value x)
    | with_reducible apply Keeps.refl
    | with_reducible apply Keeps.then_ (keep_updOutlet ..)
    | with_reducible apply Keeps.then_ (keep_setPilot ..)
    | decide

theorem keep_refillMail (s : State) :
    Keeps [.merMail] s (refillMail s) := by
  unfold refillMail
  repeat' first
    | with_reducible assumption
    | (extract_lets -merge +onlyGivenNames x
       first
       | (refine Keeps.cut (x := x) (fun hx => ?_) ?_; (on_goal 1 => clear_value x)
          (on_goal 2 => (unfold x; clear x)))
       | (refine Keeps.cut (x := x.2) (fun hx => ?_) ?_; (on_goal 1 => clear_value x)
          (on_goal 2 => (unfold x; clear x)))
       | (have t : Meridian := x; clear t; subst x)
       | clear_value x)
    | with_reducible apply Keeps.refl
    | with_reducible apply Keeps.upd_mer
    | (with_reducible apply Or.inl; decide)
    | (with_reducible apply Or.inr; with_reducible rfl)
    | (with_reducible apply Or.inr; rfl)
    | exact fun h => h
    | exact fun _ h => h
    | (intro _ hd; split <;> exact hd)
    | exact fun h => sparsePut_wf h _ _
    | exact fun _ h => sparsePut_wf h _ _
    | decide

theorem keep_pushMail (s : State) (r : MailRequest) :
    Keeps [.merMail] s (pushMail s r) := by
  unfold pushMail
  repeat' first
    | with_reducible assumption
    | (extract_lets -merge +onlyGivenNames x
       first
       | (refine Keeps.cut (x := x) (fun hx => ?_) ?_; (on_goal 1 => clear_value x)
          (on_goal 2 => (unfold x; clear x)))
       | (refine Keeps.cut (x := x.2) (fun hx => ?_) ?_; (on_goal 1 => clear_value x)
          (on_goal 2 => (unfold x; clear x)))
       | (have t : Meridian := x; clear t; subst x)
       | clear_value x)
    | with_reducible apply Keeps.refl
    | with_reducible apply Keeps.then_ (keep_refillMail ..)
    | with_reducible apply Keeps.upd_mer
    | (with_reducible apply Or.inl; decide)
    | (with_reducible apply Or.inr; with_reducible rfl)
    | (with_reducible apply Or.inr; rfl)
    | exact fun h => h
    | exact fun _ h => h
    | (intro _ hd; split <;> exact hd)
    | exact fun h => sparsePut_wf h _ _
    | exact fun _ h => sparsePut_wf h _ _
    | decide

theorem keep_abandonInventory (s : State) (o : Fin 2) :
    Keeps [.rdr] s (abandonInventory s o) := by
  unfold abandonInventory
  repeat' first
    | with_reducible assumption
    | (extract_lets -merge +onlyGivenNames x
       first
       | (refine Keeps.cut (x := x) (fun hx => ?_) ?_; (on_goal 1 => clear_value x)
          (on_goal 2 => (unfold x; clear x)))
       | (refine Keeps.cut (x := x.2) (fun hx => ?_) ?_; (on_goal 1 => clear_value x)
          (on_goal 2 => (unfold x; clear x)))
       | clear_value x)
    | with_reducible apply Keeps.refl
    | with_reducible apply Keeps.then_ (keep_updPort ..)
    | decide

theorem keep_finish (s : State) (o : Fin 2) :
    Keeps [.outlet, .rdr] s (finish s o) := by
  unfold finish
  repeat' first
    | with_reducible assumption
    | (extract_lets -merge +onlyGivenNames x
       first
       | (refine Keeps.cut (x := x) (fun hx => ?_) ?_; (on_goal 1 => clear_value x)
          (on_goal 2 => (unfold x; clear x)))
       | (refine Keeps.cut (x := x.2) (fun hx => ?_) ?_; (on_goal 1 => clear_value x)
          (on_goal 2 => (unfold x; clear x)))
       | clear_value x)
    | with_reducible apply Keeps.refl
    | with_reducible apply Keeps.ite
    | with_reducible apply Keeps.then_ (keep_updPort ..)
    | with_reducible apply Keeps.then_ (keep_enter ..)
    | with_reducible apply Keeps.then_ (keep_rest ..)
    | with_reducible apply Keeps.then_ (keep_endLink ..)
    | with_reducible apply Keeps.then_ (keep_abandonInventory ..)
    | decide
    | (beta_reduce; split)

theorem keep_stopStageOf (s : State) (o : Fin 2) :
    Keeps [.sxChannel, .sxCell, .sxStage, .sxAux, .lkOut, .lkRest] s (stopStageOf s o) := by
  unfold stopStageOf
  repeat' first
    | with_reducible assumption
    | (extract_lets -merge +onlyGivenNames x
       first
       | (refine Keeps.cut (x := x) (fun hx => ?_) ?_; (on_goal 1 => clear_value x)
          (on_goal 2 => (unfold x; clear x)))
       | (refine Keeps.cut (x := x.2) (fun hx => ?_) ?_; (on_goal 1 => clear_value x)
          (on_goal 2 => (unfold x; clear x)))
       | clear_value x)
    | with_reducible apply Keeps.refl
    | with_reducible apply Keeps.then_ (keep_haltStage ..)
    | with_reducible apply Keeps.withDeps
    | decide
    | (beta_reduce; split)

theorem keep_outletFaultBare (s : State) (o : Fin 2) (c : OutFault) :
    Keeps [.sxChannel, .sxCell, .sxStage, .sxAux, .outlet, .rdr, .lkOut, .lkOutlet, .lkRest, .log, .flt] s
        (outletFaultBare s o c) := by
  unfold outletFaultBare
  repeat' first
    | with_reducible assumption
    | (extract_lets -merge +onlyGivenNames x
       first
       | (refine Keeps.cut (x := x) (fun hx => ?_) ?_; (on_goal 1 => clear_value x)
          (on_goal 2 => (unfold x; clear x)))
       | (refine Keeps.cut (x := x.2) (fun hx => ?_) ?_; (on_goal 1 => clear_value x)
          (on_goal 2 => (unfold x; clear x)))
       | clear_value x)
    | with_reducible apply Keeps.refl
    | with_reducible apply Keeps.ite
    | with_reducible apply Keeps.then_ (keep_logDetect ..)
    | with_reducible apply Keeps.then_ (keep_updStage ..)
    | with_reducible apply Keeps.then_ (keep_updOutlet ..)
    | with_reducible apply Keeps.then_ (keep_updLko ..)
    | with_reducible apply Keeps.then_ (keep_reshare ..)
    | with_reducible apply Keeps.then_ (keep_enter ..)
    | with_reducible apply Keeps.then_ (keep_endLink ..)
    | with_reducible apply Keeps.then_ (keep_abandonInventory ..)
    | with_reducible apply Keeps.then_ (keep_stopStageOf ..)
    | decide
    | (beta_reduce; split)

theorem keep_postSplit (s : State) :
    Keeps [.sxCell, .sxStage, .sxRest, .outlet] s (postSplit s) := by
  unfold postSplit
  repeat' first
    | with_reducible assumption
    | (extract_lets -merge +onlyGivenNames x
       first
       | (refine Keeps.cut (x := x) (fun hx => ?_) ?_; (on_goal 1 => clear_value x)
          (on_goal 2 => (unfold x; clear x)))
       | (refine Keeps.cut (x := x.2) (fun hx => ?_) ?_; (on_goal 1 => clear_value x)
          (on_goal 2 => (unfold x; clear x)))
       | (have t : Sextant := x; clear t; subst x)
       | (have t : _ → State := x; clear t; subst x)
       | (have t : _ → _ → State := x; clear t; subst x)
       | (have t : _ → _ → Display := x; clear t; subst x)
       | clear_value x)
    | with_reducible apply Keeps.refl
    | with_reducible apply Keeps.ite
    | with_reducible apply Keeps.then_ (keep_updOutlet ..)
    | with_reducible apply Keeps.then_ (keep_followLimit ..)
    | (with_reducible apply Keeps.foldl; on_goal 2 => intros)
    | (beta_reduce; split)
    | with_reducible apply Keeps.upd_sx
    | (with_reducible apply Or.inl; decide)
    | (with_reducible apply Or.inr; with_reducible rfl)
    | (with_reducible apply Or.inr; rfl)
    | decide

theorem keep_resplit (s t : State) : Keeps [.sxCell, .sxStage, .sxRest, .outlet, .wrk] t (resplit s t) := by
  unfold resplit
  extract_lets wk u
  have hu : Keeps [.sxCell, .sxStage, .sxRest, .outlet, .wrk] t u := Keeps.ite (Keeps.upd_wrk (Keeps.refl _ _) (by
      decide)) (Keeps.refl _ _)
  clear_value u
  exact Keeps.ite hu (hu.trans ((keep_postSplit u).mono (by decide)))

theorem keep_notify (n : Nat) (s t : State) : Keeps [.sxChannel, .sxCell, .sxStage, .sxAux, .outlet, .rdr, .lkOut,
    .lkOutlet, .lkRest, .log, .flt] t (notify n s t) := by
  induction n generalizing s t with
  | zero => exact Keeps.refl _ _
  | succ n ih =>
    unfold notify
    extract_lets u
    have hu : Keeps [.sxChannel, .sxCell, .sxStage, .sxAux, .outlet, .rdr, .lkOut, .lkOutlet, .lkRest, .log, .flt] t
        u := by
      refine Keeps.foldl (Keeps.refl _ _) fun w o hw => ?_
      split
      · exact hw.trans ((keep_outletFaultBare w o _).mono (by decide))
      · exact hw
    exact Keeps.ite hu (hu.trans (ih t u))

theorem Keeps.withStages {F : List Part} {r s : State} {f : State → State} (h : Keeps F r (f s))
    (hF : ∀ p ∈ ([.sxChannel, .sxCell, .sxStage, .sxAux, .sxRest, .outlet, .rdr, .lkOut, .lkOutlet, .lkRest, .wrk,
        .log, .flt] : List Part), p ∈ F) : Keeps F r (Machine.withStages s f) :=
  ((Keeps.withDeps h fun p hp => hF p ((by decide : ∀ p ∈ ([.sxChannel, .sxCell, .sxStage, .sxAux, .lkOut, .lkRest]
      : List Part), p ∈ ([.sxChannel, .sxCell, .sxStage, .sxAux, .sxRest, .outlet, .rdr, .lkOut, .lkOutlet, .lkRest,
      .wrk, .log, .flt] : List Part)) p hp)).trans
    ((keep_notify 8 s _).mono fun p hp => hF p ((by decide : ∀ p ∈ ([.sxChannel, .sxCell, .sxStage, .sxAux, .outlet,
        .rdr, .lkOut, .lkOutlet, .lkRest, .log, .flt] : List Part), p ∈ ([.sxChannel, .sxCell, .sxStage, .sxAux,
        .sxRest, .outlet, .rdr, .lkOut, .lkOutlet, .lkRest, .wrk, .log, .flt] : List Part)) p hp))).trans
    ((keep_resplit s _).mono fun p hp => hF p ((by decide : ∀ p ∈ ([.sxCell, .sxStage, .sxRest, .outlet, .wrk] :
        List Part), p ∈ ([.sxChannel, .sxCell, .sxStage, .sxAux, .sxRest, .outlet, .rdr, .lkOut, .lkOutlet, .lkRest,
        .wrk, .log, .flt] : List Part)) p hp))

theorem keep_outletFault (s : State) (o : Fin 2) (c : OutFault) :
    Keeps [.sxChannel, .sxCell, .sxStage, .sxAux, .sxRest, .outlet, .rdr, .lkOut, .lkOutlet, .lkRest, .wrk, .log,
        .flt] s (outletFault s o c) := by
  unfold outletFault
  repeat' first
    | with_reducible assumption
    | (extract_lets -merge +onlyGivenNames x
       first
       | (refine Keeps.cut (x := x) (fun hx => ?_) ?_; (on_goal 1 => clear_value x)
          (on_goal 2 => (unfold x; clear x)))
       | (refine Keeps.cut (x := x.2) (fun hx => ?_) ?_; (on_goal 1 => clear_value x)
          (on_goal 2 => (unfold x; clear x)))
       | clear_value x)
    | with_reducible apply Keeps.refl
    | with_reducible apply Keeps.then_ (keep_outletFaultBare ..)
    | with_reducible apply Keeps.withStages
    | decide

theorem keep_latchAndTell (s : State) (g : Fin 8) (c : LatchCause) :
    Keeps [.sxChannel, .sxCell, .sxStage, .sxAux, .sxRest, .outlet, .rdr, .lkOut, .lkOutlet, .lkRest, .wrk, .log,
        .flt] s (latchAndTell s g c) := by
  unfold latchAndTell
  repeat' first
    | with_reducible assumption
    | (extract_lets -merge +onlyGivenNames x
       first
       | (refine Keeps.cut (x := x) (fun hx => ?_) ?_; (on_goal 1 => clear_value x)
          (on_goal 2 => (unfold x; clear x)))
       | (refine Keeps.cut (x := x.2) (fun hx => ?_) ?_; (on_goal 1 => clear_value x)
          (on_goal 2 => (unfold x; clear x)))
       | clear_value x)
    | with_reducible apply Keeps.refl
    | with_reducible apply Keeps.then_ (keep_latchStage ..)
    | with_reducible apply Keeps.withStages
    | decide

theorem keep_noteStop (s : State) (o : Fin 2) (r : StopReason) :
    Keeps [.outlet] s (noteStop s o r) := by
  unfold noteStop
  repeat' first
    | with_reducible assumption
    | (extract_lets -merge +onlyGivenNames x
       first
       | (refine Keeps.cut (x := x) (fun hx => ?_) ?_; (on_goal 1 => clear_value x)
          (on_goal 2 => (unfold x; clear x)))
       | (refine Keeps.cut (x := x.2) (fun hx => ?_) ?_; (on_goal 1 => clear_value x)
          (on_goal 2 => (unfold x; clear x)))
       | clear_value x)
    | with_reducible apply Keeps.refl
    | with_reducible apply Keeps.ite
    | with_reducible apply Keeps.then_ (keep_updOutlet ..)
    | decide
    | (beta_reduce; split)

theorem keep_cutShort (s : State) (o : Fin 2) :
    Keeps [.sxChannel, .sxCell, .sxStage, .sxAux, .outlet, .lkOut, .lkRest] s (cutShort s o) := by
  unfold cutShort
  repeat' first
    | with_reducible assumption
    | (extract_lets -merge +onlyGivenNames x
       first
       | (refine Keeps.cut (x := x) (fun hx => ?_) ?_; (on_goal 1 => clear_value x)
          (on_goal 2 => (unfold x; clear x)))
       | (refine Keeps.cut (x := x.2) (fun hx => ?_) ?_; (on_goal 1 => clear_value x)
          (on_goal 2 => (unfold x; clear x)))
       | clear_value x)
    | with_reducible apply Keeps.refl
    | with_reducible apply Keeps.ite
    | with_reducible apply Keeps.then_ (keep_updOutlet ..)
    | with_reducible apply Keeps.then_ (keep_enter ..)
    | with_reducible apply Keeps.then_ (keep_stopStageOf ..)
    | decide
    | (beta_reduce; split)

theorem keep_stopTrigger (s : State) (o : Fin 2) (r : StopReason) :
    Keeps [.sxChannel, .sxCell, .sxStage, .sxAux, .sxRest, .outlet, .rdr, .lkOut, .lkOutlet, .lkRest, .wrk, .log,
        .flt] s (stopTrigger s o r) := by
  unfold stopTrigger
  repeat' first
    | with_reducible assumption
    | (extract_lets -merge +onlyGivenNames x
       first
       | (refine Keeps.cut (x := x) (fun hx => ?_) ?_; (on_goal 1 => clear_value x)
          (on_goal 2 => (unfold x; clear x)))
       | (refine Keeps.cut (x := x.2) (fun hx => ?_) ?_; (on_goal 1 => clear_value x)
          (on_goal 2 => (unfold x; clear x)))
       | clear_value x)
    | with_reducible apply Keeps.refl
    | with_reducible apply Keeps.ite
    | with_reducible apply Keeps.then_ (keep_logInfo ..)
    | with_reducible apply Keeps.then_ (keep_enter ..)
    | with_reducible apply Keeps.then_ (keep_finish ..)
    | with_reducible apply Keeps.then_ (keep_stopStageOf ..)
    | with_reducible apply Keeps.withStages
    | with_reducible apply Keeps.then_ (keep_noteStop ..)
    | with_reducible apply Keeps.then_ (keep_cutShort ..)
    | decide
    | (beta_reduce; split)

end Sys2Proof.Machine
end

