-- ==== Sys2Proof/Laws/FrameChronoOps.lean ====
section
/-!
SUPPORT. What each operation of Machine/ChronoOps.lean leaves unchanged.
-/
namespace Sys2Proof.Machine

set_option linter.unreachableTactic false
set_option linter.unusedTactic false
set_option linter.tactic.unusedName false

theorem keep_updAccount (s : State) (n : Nat) (f : Account → Account) :
    Keeps [.com] s (updAccount s n f) := by
  unfold updAccount
  repeat' first
    | with_reducible assumption
    | (extract_lets -merge +onlyGivenNames x
       first
       | (refine Keeps.cut (x := x) (fun hx => ?_) ?_; (on_goal 1 => clear_value x)
          (on_goal 2 => (unfold x; clear x)))
       | (refine Keeps.cut (x := x.2) (fun hx => ?_) ?_; (on_goal 1 => clear_value x)
          (on_goal 2 => (unfold x; clear x)))
       | (have t : Commercial := x; clear t; subst x)
       | clear_value x)
    | with_reducible apply Keeps.refl
    | with_reducible apply Keeps.upd_com
    | exact fun h => h
    | exact fun _ h => h
    | (intro _ hd; split <;> exact hd)
    | exact fun h => sparsePut_wf h _ _
    | exact fun _ h => sparsePut_wf h _ _
    | decide

theorem keep_creditBy (s : State) (n : Nat) (d : Int) :
    Keeps [.com, .log] s (creditBy s n d) := by
  unfold creditBy
  repeat' first
    | with_reducible assumption
    | (extract_lets -merge +onlyGivenNames x
       first
       | (refine Keeps.cut (x := x) (fun hx => ?_) ?_; (on_goal 1 => clear_value x)
          (on_goal 2 => (unfold x; clear x)))
       | (refine Keeps.cut (x := x.2) (fun hx => ?_) ?_; (on_goal 1 => clear_value x)
          (on_goal 2 => (unfold x; clear x)))
       | clear_value x)
    | with_reducible apply Keeps.refl
    | with_reducible apply Keeps.ite
    | with_reducible apply Keeps.then_ (keep_logInfo ..)
    | with_reducible apply Keeps.then_ (keep_updAccount ..)
    | decide
    | (beta_reduce; split)

theorem keep_updCharge (s : State) (o : Fin 2) (f : Charge → Charge) :
    Keeps [.com] s (updCharge s o f) := by
  unfold updCharge
  repeat' first
    | with_reducible assumption
    | (extract_lets -merge +onlyGivenNames x
       first
       | (refine Keeps.cut (x := x) (fun hx => ?_) ?_; (on_goal 1 => clear_value x)
          (on_goal 2 => (unfold x; clear x)))
       | (refine Keeps.cut (x := x.2) (fun hx => ?_) ?_; (on_goal 1 => clear_value x)
          (on_goal 2 => (unfold x; clear x)))
       | (have t : Commercial := x; clear t; subst x)
       | clear_value x)
    | with_reducible apply Keeps.refl
    | with_reducible apply Keeps.upd_com
    | exact fun h => h
    | exact fun _ h => h
    | (intro _ hd; split <;> exact hd)
    | exact fun h => sparsePut_wf h _ _
    | exact fun _ h => sparsePut_wf h _ _
    | decide

theorem keep_creditStop (s : State) (o : Fin 2) :
    Keeps [.sxChannel, .sxCell, .sxStage, .sxAux, .sxRest, .outlet, .rdr, .lkOut, .lkOutlet, .lkRest, .wrk, .log,
        .flt] s (creditStop s o) := by
  unfold creditStop
  repeat' first
    | with_reducible assumption
    | (extract_lets -merge +onlyGivenNames x
       first
       | (refine Keeps.cut (x := x) (fun hx => ?_) ?_; (on_goal 1 => clear_value x)
          (on_goal 2 => (unfold x; clear x)))
       | (refine Keeps.cut (x := x.2) (fun hx => ?_) ?_; (on_goal 1 => clear_value x)
          (on_goal 2 => (unfold x; clear x)))
       | clear_value x)
    | with_reducible apply Keeps.refl
    | with_reducible apply Keeps.ite
    | with_reducible apply Keeps.then_ (keep_stopTrigger ..)
    | decide
    | split

theorem keep_beginCharge (s : State) (o : Fin 2) (hash : Bytes) :
    Keeps [.com, .log] s (beginCharge s o hash) := by
  unfold beginCharge
  repeat' first
    | with_reducible assumption
    | (extract_lets -merge +onlyGivenNames x
       first
       | (refine Keeps.cut (x := x) (fun hx => ?_) ?_; (on_goal 1 => clear_value x)
          (on_goal 2 => (unfold x; clear x)))
       | (refine Keeps.cut (x := x.2) (fun hx => ?_) ?_; (on_goal 1 => clear_value x)
          (on_goal 2 => (unfold x; clear x)))
       | clear_value x)
    | with_reducible apply Keeps.refl
    | with_reducible apply Keeps.then_ (keep_creditBy ..)
    | with_reducible apply Keeps.then_ (keep_updCharge ..)
    | decide
    | (beta_reduce; split)

end Sys2Proof.Machine
end

