-- ==== Sys2Proof/Laws/FrameOpOps.lean ====
section
/-!
SUPPORT. What each operation of Machine/OpOps.lean leaves unchanged.
-/
namespace Sys2Proof.Machine

set_option linter.unreachableTactic false
set_option linter.unusedTactic false
set_option linter.tactic.unusedName false

theorem keep_updJrn (s : State) (opId : Nat) (f : Jrn → Jrn) :
    Keeps [.hostJournal] s (updJrn s opId f) := by
  unfold updJrn
  repeat' first
    | with_reducible assumption
    | (extract_lets -merge +onlyGivenNames x
       first
       | (refine Keeps.cut (x := x) (fun hx => ?_) ?_; (on_goal 1 => clear_value x)
          (on_goal 2 => (unfold x; clear x)))
       | (refine Keeps.cut (x := x.2) (fun hx => ?_) ?_; (on_goal 1 => clear_value x)
          (on_goal 2 => (unfold x; clear x)))
       | (have t : HostIf := x; clear t; subst x)
       | clear_value x)
    | with_reducible apply Keeps.refl
    | with_reducible apply Keeps.ite
    | (beta_reduce; split)
    | with_reducible apply Keeps.upd_host
    | (with_reducible apply Or.inl; decide)
    | (with_reducible apply Or.inr; with_reducible rfl)
    | (with_reducible apply Or.inr; rfl)
    | decide

theorem keep_updOp (s : State) (opId : Nat) (f : Op → Op) :
    Keeps [.hostOps] s (updOp s opId f) := by
  unfold updOp
  repeat' first
    | with_reducible assumption
    | (extract_lets -merge +onlyGivenNames x
       first
       | (refine Keeps.cut (x := x) (fun hx => ?_) ?_; (on_goal 1 => clear_value x)
          (on_goal 2 => (unfold x; clear x)))
       | (refine Keeps.cut (x := x.2) (fun hx => ?_) ?_; (on_goal 1 => clear_value x)
          (on_goal 2 => (unfold x; clear x)))
       | (have t : HostIf := x; clear t; subst x)
       | clear_value x)
    | with_reducible apply Keeps.refl
    | with_reducible apply Keeps.ite
    | (beta_reduce; split)
    | with_reducible apply Keeps.upd_host
    | (with_reducible apply Or.inl; decide)
    | (with_reducible apply Or.inr; with_reducible rfl)
    | (with_reducible apply Or.inr; rfl)
    | decide

theorem keep_resolveOp (s : State) (opId : Nat) (st : Status) (payload : Bytes) :
    Keeps [.hostOps, .hostJournal] s (resolveOp s opId st payload) := by
  unfold resolveOp
  repeat' first
    | with_reducible assumption
    | (extract_lets -merge +onlyGivenNames x
       first
       | (refine Keeps.cut (x := x) (fun hx => ?_) ?_; (on_goal 1 => clear_value x)
          (on_goal 2 => (unfold x; clear x)))
       | (refine Keeps.cut (x := x.2) (fun hx => ?_) ?_; (on_goal 1 => clear_value x)
          (on_goal 2 => (unfold x; clear x)))
       | clear_value x)
    | with_reducible apply Keeps.refl
    | with_reducible apply Keeps.ite
    | with_reducible apply Keeps.then_ (keep_updJrn ..)
    | with_reducible apply Keeps.then_ (keep_updOp ..)
    | decide
    | (beta_reduce; split)

end Sys2Proof.Machine
end

