-- ==== Sys2Proof/Laws/FramePanel.lean ====
section
/-!
SUPPORT. What each operation of Machine/Panel.lean leaves unchanged.
-/
namespace Sys2Proof.Machine

set_option linter.unreachableTactic false
set_option linter.unusedTactic false
set_option linter.tactic.unusedName false

theorem keep_beginOff (s : State) :
    Keeps [.disp] s (beginOff s) := by
  unfold beginOff
  repeat' first
    | with_reducible assumption
    | (extract_lets -merge +onlyGivenNames x
       first
       | (refine Keeps.cut (x := x) (fun hx => ?_) ?_; (on_goal 1 => clear_value x)
          (on_goal 2 => (unfold x; clear x)))
       | (refine Keeps.cut (x := x.2) (fun hx => ?_) ?_; (on_goal 1 => clear_value x)
          (on_goal 2 => (unfold x; clear x)))
       | (have t : Display := x; clear t; subst x)
       | clear_value x)
    | with_reducible apply Keeps.refl
    | split
    | with_reducible apply Keeps.upd_disp
    | exact fun h => h
    | exact fun _ h => h
    | (intro _ hd; split <;> exact hd)
    | decide

theorem keep_panelOn (s : State) :
    Keeps [.disp] s (panelOn s) := by
  unfold panelOn
  repeat' first
    | with_reducible assumption
    | (extract_lets -merge +onlyGivenNames x
       first
       | (refine Keeps.cut (x := x) (fun hx => ?_) ?_; (on_goal 1 => clear_value x)
          (on_goal 2 => (unfold x; clear x)))
       | (refine Keeps.cut (x := x.2) (fun hx => ?_) ?_; (on_goal 1 => clear_value x)
          (on_goal 2 => (unfold x; clear x)))
       | (have t : Display := x; clear t; subst x)
       | clear_value x)
    | with_reducible apply Keeps.refl
    | with_reducible apply Keeps.ite
    | split
    | with_reducible apply Keeps.upd_disp
    | exact fun h => h
    | exact fun _ h => h
    | (intro _ hd; split <;> exact hd)
    | decide

theorem keep_panelTick (s : State) :
    Keeps [.disp] s (panelTick s) := by
  unfold panelTick
  repeat' first
    | with_reducible assumption
    | (extract_lets -merge +onlyGivenNames x
       first
       | (refine Keeps.cut (x := x) (fun hx => ?_) ?_; (on_goal 1 => clear_value x)
          (on_goal 2 => (unfold x; clear x)))
       | (refine Keeps.cut (x := x.2) (fun hx => ?_) ?_; (on_goal 1 => clear_value x)
          (on_goal 2 => (unfold x; clear x)))
       | (have t : Display := x; clear t; subst x)
       | clear_value x)
    | with_reducible apply Keeps.refl
    | with_reducible apply Keeps.ite
    | with_reducible apply Keeps.then_ (keep_panelOn ..)
    | split
    | with_reducible apply Keeps.upd_disp
    | exact fun h => h
    | exact fun _ h => h
    | (intro _ hd; split <;> exact hd)
    | decide

end Sys2Proof.Machine
end

