-- ==== Sys2Proof/Laws/FrameDisplay.lean ====
section
/-!
SUPPORT. What each operation and command of Machine/Display.lean leaves unchanged.
-/
namespace Sys2Proof.Machine

set_option linter.unreachableTactic false
set_option linter.unusedTactic false
set_option linter.tactic.unusedName false

theorem memWf_disp (d : Display) : d.memWf = true ↔ sparseWf (fun _ => (0 : Byte)) d.frame = true ∧
    sparseWf (fun _ => (0 : Byte)) d.settled = true := by
  unfold Display.memWf; rw [Bool.and_eq_true]

/-- Writing a rectangle keeps the frame memory's form. -/
theorem writeRect_wf {d : Display} (q : RectReq) (h : d.memWf = true) : (writeRect d q).memWf = true := by
  rw [memWf_disp] at h ⊢
  exact ⟨sparseFold_wf (fun m b w => sparsePut_wf (d := fun _ => 0) w _ _) h.1 _, h.2⟩

/-- Settling a rectangle keeps the settled levels' form. -/
theorem settleRect_wf {d : Display} (r : Rect) (all : Bool) (h : d.memWf = true) : (settleRect d r all).memWf = true
    := by
  rw [memWf_disp] at h ⊢
  exact ⟨h.1, sparseFold_wf (fun m b w => sparsePut_wf (d := fun _ => 0) w _ _) h.2 _⟩

/-- With the settled levels back at 0 the form is kept. -/
theorem settledNil_wf {d e : Display} (h : d.memWf = true) (hf : e.frame = d.frame) (hs : e.settled = []) :
    e.memWf = true := by
  rw [memWf_disp] at h ⊢
  rw [hf, hs]
  exact ⟨h.1, rfl⟩

/-- The form depends on the two memories only. -/
theorem dispWf_of {d e : Display} (h : d.memWf = true) (hf : e.frame = d.frame) (hs : e.settled = d.settled) :
    e.memWf = true := by
  rw [memWf_disp] at h ⊢
  rw [hf, hs]
  exact h

theorem refreshDone_wf (d : Display) (h : d.memWf = true) : ({ d with refresh := none } : Display).memWf = true := by
  rw [memWf_disp] at h ⊢
  exact h

theorem legalDone_wf (d : Display) (h : d.memWf = true) : ({ d with legal := none } : Display).memWf = true := by
  rw [memWf_disp] at h ⊢
  exact h

theorem refreshOn_wf (d : Display) (f : Option Flight) (h : d.memWf = true) :
    ({ d with refresh := f } : Display).memWf = true := by
  rw [memWf_disp] at h ⊢
  exact h

theorem legalOn_wf (d : Display) (f : Option Flight) (h : d.memWf = true) :
    ({ d with legal := f } : Display).memWf = true := by
  rw [memWf_disp] at h ⊢
  exact h

/-- One pair on, the display's memories keep their form. -/
theorem endSlots_wf {d : Display} (h : d.memWf = true) : (endSlots d).memWf = true := by
  unfold endSlots
  extract_lets y x
  have hx : x.memWf = true := by
    unfold x
    split
    · split
      · exact refreshDone_wf _ (settleRect_wf fullPanel true h)
      · exact refreshOn_wf _ _ h
    · exact h
  clear_value x
  split
  · split
    · exact legalDone_wf _ (settleRect_wf _ true hx)
    · exact legalOn_wf _ _ hx
  · exact hx

/-- Writing the legal image keeps the frame memory's form. -/
theorem writeLegal_wf {d : Display} (img : Bytes) (h : d.memWf = true) : (writeLegal d img).memWf = true := by
  rw [memWf_disp] at h ⊢
  exact ⟨sparseFold_wf (fun m b w => sparsePut_wf (d := fun _ => 0) w _ _) h.1 _, h.2⟩

theorem keep_updDisp (s : State) (f : Display → Display) (hf : ∀ d, d.memWf = true → (f d).memWf = true) :
    Keeps [.disp] s (updDisp s f) := Keeps.upd_disp (Keeps.refl _ _) (by decide) (hf _)

theorem keep_supersede (s : State) (r : Rect) :
    Keeps [.disp, .hostOps, .hostJournal] s (supersede s r) := by
  unfold supersede
  repeat' first
    | with_reducible assumption
    | (extract_lets -merge +onlyGivenNames x
       first
       | (refine Keeps.cut (x := x) (fun hx => ?_) ?_; (on_goal 1 => clear_value x)
          (on_goal 2 => (unfold x; clear x)))
       | (refine Keeps.cut (x := x.2) (fun hx => ?_) ?_; (on_goal 1 => clear_value x)
          (on_goal 2 => (unfold x; clear x)))
       | clear_value x)
    | with_reducible apply Keeps.refl
    | with_reducible apply Keeps.then_ (keep_resolveOp ..)
    | with_reducible apply Keeps.then_ (keep_updDisp ..)
    | (with_reducible apply Keeps.foldl; on_goal 2 => intros)
    | exact fun h => h
    | exact fun _ h => h
    | (intro _ hd; split <;> exact hd)
    | decide
    | (beta_reduce; split)

theorem keep_queueRect (s : State) (r : Rect) (pix : Bytes) (op : Option Nat) :
    Keeps [.disp, .hostOps, .hostJournal] s (queueRect s r pix op).2 := by
  unfold queueRect
  repeat' first
    | with_reducible assumption
    | (extract_lets -merge +onlyGivenNames x
       first
       | (refine Keeps.cut (x := x) (fun hx => ?_) ?_; (on_goal 1 => clear_value x)
          (on_goal 2 => (unfold x; clear x)))
       | (refine Keeps.cut (x := x.2) (fun hx => ?_) ?_; (on_goal 1 => clear_value x)
          (on_goal 2 => (unfold x; clear x)))
       | clear_value x)
    | with_reducible apply Keeps.refl
    | with_reducible apply Keeps.ite
    | with_reducible apply Keeps.then_ (keep_updDisp ..)
    | with_reducible apply Keeps.then_ (keep_supersede ..)
    | exact fun h => h
    | exact fun _ h => h
    | (intro _ hd; split <;> exact hd)
    | decide
    | (beta_reduce; split)

theorem keep_queueRect_eq {s : State} {r : Rect} {pix : Bytes} {op : Option Nat} {a t} (h : queueRect s r pix op =
    (a, t)) :
    Keeps [.disp, .hostOps, .hostJournal] s t := by
  have k := keep_queueRect s r pix op
  rw [h] at k
  exact k

theorem keep_endFlights (s : State) : Keeps [.disp, .hostOps, .hostJournal] s (endFlights s) := by
  unfold endFlights
  extract_lets aged ended d t
  refine Keeps.foldl (Keeps.upd_disp (Keeps.refl _ _) (by decide) fun h => ?_) fun u f h => ?_
  · have hl : ∀ (l : List Flight) (x : Display), x.memWf = true →
        (l.foldl (fun d f => settleRect d f.rect (f.rect == fullPanel)) x).memWf = true := by
      intro l
      induction l with
      | nil => exact fun _ hx => hx
      | cons a l ih => exact fun x hx => ih _ (settleRect_wf _ _ hx)
    exact hl ended _ h
  split
  · exact h.trans ((keep_resolveOp u _ _ _).mono (by decide))
  · exact h

theorem keep_startRefresh (s : State) :
    Keeps [.disp] s (startRefresh s) := by
  unfold startRefresh
  repeat' first
    | with_reducible assumption
    | (extract_lets -merge +onlyGivenNames x
       first
       | (refine Keeps.cut (x := x) (fun hx => ?_) ?_; (on_goal 1 => clear_value x)
          (on_goal 2 => (unfold x; clear x)))
       | (refine Keeps.cut (x := x.2) (fun hx => ?_) ?_; (on_goal 1 => clear_value x)
          (on_goal 2 => (unfold x; clear x)))
       | (have t : Display := x; clear t; subst x)
       | clear_value x)
    | with_reducible apply Keeps.refl
    | with_reducible apply Keeps.ite
    | split
    | with_reducible apply Keeps.upd_disp
    | exact fun h => h
    | exact fun _ h => h
    | (intro _ hd; split <;> exact hd)
    | decide

theorem keep_startRects (l before : List RectReq) (s : State) :
    Keeps [.disp] s (startRects l before s) := by
  induction l generalizing before s with
  | nil => exact Keeps.upd_disp (Keeps.refl _ _) (by decide) fun h => h
  | cons q rest ih =>
    unfold startRects
    extract_lets d e f
    refine Keeps.ite (Keeps.trans (Keeps.upd_disp (Keeps.refl _ _) (by decide) fun h => ?_) (ih _ _)) (ih _ _)
    show Display.memWf e = true
    unfold e
    split
    · exact h
    · exact writeRect_wf _ h

theorem keep_startLegal (s : State) : Keeps [.disp] s (startLegal s) := by
  unfold startLegal
  extract_lets d
  split
  · exact Keeps.ite (Keeps.upd_disp (Keeps.refl _ _) (by decide) fun h => writeLegal_wf _ h) (Keeps.refl _ _)
  · exact Keeps.refl _ _

theorem keep_dispNews (s : State) :
    Keeps [.outlet, .merLeg] s (dispNews s) := by
  unfold dispNews
  repeat' first
    | with_reducible assumption
    | (extract_lets -merge +onlyGivenNames x
       first
       | (refine Keeps.cut (x := x) (fun hx => ?_) ?_; (on_goal 1 => clear_value x)
          (on_goal 2 => (unfold x; clear x)))
       | (refine Keeps.cut (x := x.2) (fun hx => ?_) ?_; (on_goal 1 => clear_value x)
          (on_goal 2 => (unfold x; clear x)))
       | clear_value x)
    | with_reducible apply Keeps.refl
    | with_reducible apply Keeps.ite
    | with_reducible apply Keeps.then_ (keep_updLeg ..)
    | with_reducible apply Keeps.then_ (keep_setPilots ..)
    | decide
    | (beta_reduce; split)

theorem keep_raiseDisp (s : State) (had : Bool) (code : Nat) (f : Display → Display)
    (hf : ∀ d, d.memWf = true → (f d).memWf = true) : Keeps [.outlet, .merLeg, .disp, .log, .flt] s (raiseDisp s had
        code f) := by
  unfold raiseDisp
  exact Keeps.ite (Keeps.refl _ _) ((((keep_updDisp s f hf).mono (by decide)).trans
    ((keep_logDetect _ _ _ _).mono (by decide))).trans ((keep_dispNews _).mono (by decide)))

theorem keep_endDisp (s : State) (had : Bool) (code : Nat) (f : Display → Display)
    (hf : ∀ d, d.memWf = true → (f d).memWf = true) : Keeps [.outlet, .merLeg, .disp, .log, .flt] s (endDisp s had
        code f) := by
  unfold endDisp
  exact Keeps.ite ((((keep_updDisp s f hf).mono (by decide)).trans
    ((keep_logClear _ _ _ _).mono (by decide))).trans ((keep_dispNews _).mono (by decide))) (Keeps.refl _ _)

theorem keep_powerOn (s : State) :
    Keeps [.disp] s (powerOn s) := by
  unfold powerOn
  repeat' first
    | with_reducible assumption
    | (extract_lets -merge +onlyGivenNames x
       first
       | (refine Keeps.cut (x := x) (fun hx => ?_) ?_; (on_goal 1 => clear_value x)
          (on_goal 2 => (unfold x; clear x)))
       | (refine Keeps.cut (x := x.2) (fun hx => ?_) ?_; (on_goal 1 => clear_value x)
          (on_goal 2 => (unfold x; clear x)))
       | clear_value x)
    | with_reducible apply Keeps.refl
    | with_reducible apply Keeps.ite
    | with_reducible apply Keeps.then_ (keep_panelOn ..)
    | with_reducible apply Keeps.then_ (keep_updDisp ..)
    | exact fun h => h
    | exact fun _ h => h
    | (intro _ hd; split <;> exact hd)
    | decide
    | (beta_reduce; split)

theorem keep_panelUp (s : State) :
    Keeps [.outlet, .merLeg, .disp, .log, .flt] s (panelUp s) := by
  unfold panelUp
  repeat' first
    | with_reducible assumption
    | (extract_lets -merge +onlyGivenNames x
       first
       | (refine Keeps.cut (x := x) (fun hx => ?_) ?_; (on_goal 1 => clear_value x)
          (on_goal 2 => (unfold x; clear x)))
       | (refine Keeps.cut (x := x.2) (fun hx => ?_) ?_; (on_goal 1 => clear_value x)
          (on_goal 2 => (unfold x; clear x)))
       | clear_value x)
    | with_reducible apply Keeps.refl
    | with_reducible apply Keeps.then_ (keep_updDisp ..)
    | with_reducible apply Keeps.then_ (keep_endDisp ..)
    | exact fun h => h
    | exact fun _ h => h
    | (intro _ hd; split <;> exact hd)
    | exact fun _ hd => settledNil_wf hd rfl rfl
    | decide
    | (beta_reduce; split)

theorem keep_scrollTick (s : State) :
    Keeps [.com, .disp, .hostOps, .hostJournal] s (scrollTick s) := by
  unfold scrollTick
  repeat' first
    | with_reducible assumption
    | (extract_lets -merge +onlyGivenNames x
       first
       | (refine Keeps.cut (x := x) (fun hx => ?_) ?_; (on_goal 1 => clear_value x)
          (on_goal 2 => (unfold x; clear x)))
       | (refine Keeps.cut (x := x.2) (fun hx => ?_) ?_; (on_goal 1 => clear_value x)
          (on_goal 2 => (unfold x; clear x)))
       | (have t : Commercial := x; clear t; subst x)
       | clear_value x)
    | with_reducible apply Keeps.refl
    | with_reducible apply Keeps.ite
    | with_reducible apply Keeps.then_ (keep_queueRect ..)
    | (beta_reduce; split)
    | with_reducible apply Keeps.upd_com
    | exact fun h => h
    | exact fun _ h => h
    | (intro _ hd; split <;> exact hd)
    | exact fun h => sparsePut_wf h _ _
    | exact fun _ h => sparsePut_wf h _ _
    | decide

theorem frame_evenFrameBoundary  :
    Kept [.disp, .hostOps, .hostJournal] .evenFrameBoundary := by
  intro s s' e
  change execEvenFrameBoundary s = .next s' at e
  unfold execEvenFrameBoundary at e
  injection e with e
  subst e
  repeat' first
    | with_reducible assumption
    | (extract_lets -merge +onlyGivenNames x
       first
       | (refine Keeps.cut (x := x) (fun hx => ?_) ?_; (on_goal 1 => clear_value x)
          (on_goal 2 => (unfold x; clear x)))
       | (refine Keeps.cut (x := x.2) (fun hx => ?_) ?_; (on_goal 1 => clear_value x)
          (on_goal 2 => (unfold x; clear x)))
       | clear_value x)
    | with_reducible apply Keeps.refl
    | with_reducible apply Keeps.ite
    | with_reducible apply Keeps.then_ (keep_updDisp ..)
    | with_reducible apply Keeps.then_ (keep_endFlights ..)
    | with_reducible apply Keeps.then_ (keep_startRefresh ..)
    | with_reducible apply Keeps.then_ (keep_startRects ..)
    | with_reducible apply Keeps.then_ (keep_startLegal ..)
    | exact fun h => h
    | exact fun _ h => h
    | (intro _ hd; split <;> exact hd)
    | exact fun _ hd => dispWf_of (endSlots_wf hd) rfl rfl
    | decide
    | (beta_reduce; split)

theorem frame_legalPairSend  :
    Kept [.disp] .legalPairSend := by
  intro s s' e
  change execLegalPairSend s = .next s' at e
  unfold execLegalPairSend at e
  injection e with e
  subst e
  repeat' first
    | with_reducible assumption
    | (extract_lets -merge +onlyGivenNames x
       first
       | (refine Keeps.cut (x := x) (fun hx => ?_) ?_; (on_goal 1 => clear_value x)
          (on_goal 2 => (unfold x; clear x)))
       | (refine Keeps.cut (x := x.2) (fun hx => ?_) ?_; (on_goal 1 => clear_value x)
          (on_goal 2 => (unfold x; clear x)))
       | clear_value x)
    | with_reducible apply Keeps.refl
    | with_reducible apply Keeps.ite
    | with_reducible apply Keeps.then_ (keep_updDisp ..)
    | exact fun h => h
    | exact fun _ h => h
    | (intro _ hd; split <;> exact hd)
    | decide
    | (beta_reduce; split)

theorem frame_legalPairReceived (upsets : List (Nat × Byte)) :
    Kept [.disp] (.legalPairReceived upsets) := by
  intro s s' e
  change execLegalPairReceived upsets s = .next s' at e
  unfold execLegalPairReceived at e
  injection e with e
  subst e
  repeat' first
    | with_reducible assumption
    | (extract_lets -merge +onlyGivenNames x
       first
       | (refine Keeps.cut (x := x) (fun hx => ?_) ?_; (on_goal 1 => clear_value x)
          (on_goal 2 => (unfold x; clear x)))
       | (refine Keeps.cut (x := x.2) (fun hx => ?_) ?_; (on_goal 1 => clear_value x)
          (on_goal 2 => (unfold x; clear x)))
       | clear_value x)
    | with_reducible apply Keeps.refl
    | with_reducible apply Keeps.ite
    | with_reducible apply Keeps.then_ (keep_updDisp ..)
    | exact fun h => h
    | exact fun _ h => h
    | (intro _ hd; split <;> exact hd)
    | decide
    | (beta_reduce; split)

theorem frame_frameEndCrc (upsets : List (Nat × Byte)) :
    Kept [.outlet, .merLeg, .disp, .log, .flt] (.frameEndCrc upsets) := by
  intro s s' e
  change execFrameEndCrc upsets s = .next s' at e
  unfold execFrameEndCrc at e
  injection e with e
  subst e
  repeat' first
    | with_reducible assumption
    | (extract_lets -merge +onlyGivenNames x
       first
       | (refine Keeps.cut (x := x) (fun hx => ?_) ?_; (on_goal 1 => clear_value x)
          (on_goal 2 => (unfold x; clear x)))
       | (refine Keeps.cut (x := x.2) (fun hx => ?_) ?_; (on_goal 1 => clear_value x)
          (on_goal 2 => (unfold x; clear x)))
       | clear_value x)
    | with_reducible apply Keeps.refl
    | with_reducible apply Keeps.ite
    | with_reducible apply Keeps.then_ (keep_updDisp ..)
    | with_reducible apply Keeps.then_ (keep_raiseDisp ..)
    | exact fun h => h
    | exact fun _ h => h
    | (intro _ hd; split <;> exact hd)
    | decide
    | (beta_reduce; split)

theorem frame_laneTimeout  :
    Kept [.outlet, .merLeg, .disp, .log, .flt] .laneTimeout := by
  intro s s' e
  change execLaneTimeout s = .next s' at e
  unfold execLaneTimeout at e
  injection e with e
  subst e
  repeat' first
    | with_reducible assumption
    | (extract_lets -merge +onlyGivenNames x
       first
       | (refine Keeps.cut (x := x) (fun hx => ?_) ?_; (on_goal 1 => clear_value x)
          (on_goal 2 => (unfold x; clear x)))
       | (refine Keeps.cut (x := x.2) (fun hx => ?_) ?_; (on_goal 1 => clear_value x)
          (on_goal 2 => (unfold x; clear x)))
       | clear_value x)
    | with_reducible apply Keeps.refl
    | with_reducible apply Keeps.ite
    | with_reducible apply Keeps.then_ (keep_updDisp ..)
    | with_reducible apply Keeps.then_ (keep_raiseDisp ..)
    | exact fun h => h
    | exact fun _ h => h
    | (intro _ hd; split <;> exact hd)
    | decide
    | (beta_reduce; split)

theorem frame_displayFaultClear  :
    Kept [.outlet, .merLeg, .disp, .log, .flt] .displayFaultClear := by
  intro s s' e
  change execDisplayFaultClear s = .next s' at e
  unfold execDisplayFaultClear at e
  injection e with e
  subst e
  repeat' first
    | with_reducible assumption
    | (extract_lets -merge +onlyGivenNames x
       first
       | (refine Keeps.cut (x := x) (fun hx => ?_) ?_; (on_goal 1 => clear_value x)
          (on_goal 2 => (unfold x; clear x)))
       | (refine Keeps.cut (x := x.2) (fun hx => ?_) ?_; (on_goal 1 => clear_value x)
          (on_goal 2 => (unfold x; clear x)))
       | clear_value x)
    | with_reducible apply Keeps.refl
    | with_reducible apply Keeps.ite
    | with_reducible apply Keeps.then_ (keep_endDisp ..)
    | exact fun h => h
    | exact fun _ h => h
    | (intro _ hd; split <;> exact hd)
    | decide
    | (beta_reduce; split)

theorem frame_crackMeasure (ohm : Nat) :
    Kept [.outlet, .merLeg, .disp, .log, .flt] (.crackMeasure ohm) := by
  intro s s' e
  change execCrackMeasure ohm s = .next s' at e
  unfold execCrackMeasure at e
  injection e with e
  subst e
  repeat' first
    | with_reducible assumption
    | (extract_lets -merge +onlyGivenNames x
       first
       | (refine Keeps.cut (x := x) (fun hx => ?_) ?_; (on_goal 1 => clear_value x)
          (on_goal 2 => (unfold x; clear x)))
       | (refine Keeps.cut (x := x.2) (fun hx => ?_) ?_; (on_goal 1 => clear_value x)
          (on_goal 2 => (unfold x; clear x)))
       | clear_value x)
    | with_reducible apply Keeps.refl
    | with_reducible apply Keeps.ite
    | with_reducible apply Keeps.then_ (keep_updDisp ..)
    | with_reducible apply Keeps.then_ (keep_raiseDisp ..)
    | with_reducible apply Keeps.then_ (keep_endDisp ..)
    | exact fun h => h
    | exact fun _ h => h
    | (intro _ hd; split <;> exact hd)
    | decide
    | (beta_reduce; split)

theorem frame_panelTempMeasure (reading : PanelTemp) :
    Kept [.disp] (.panelTempMeasure reading) := by
  intro s s' e
  change execPanelTempMeasure reading s = .next s' at e
  unfold execPanelTempMeasure at e
  injection e with e
  subst e
  repeat' first
    | with_reducible assumption
    | (extract_lets -merge +onlyGivenNames x
       first
       | (refine Keeps.cut (x := x) (fun hx => ?_) ?_; (on_goal 1 => clear_value x)
          (on_goal 2 => (unfold x; clear x)))
       | (refine Keeps.cut (x := x.2) (fun hx => ?_) ?_; (on_goal 1 => clear_value x)
          (on_goal 2 => (unfold x; clear x)))
       | (have t : _ → State := x; clear t; subst x)
       | (have t : _ → _ → State := x; clear t; subst x)
       | (have t : _ → _ → Display := x; clear t; subst x)
       | clear_value x)
    | with_reducible apply Keeps.refl
    | with_reducible apply Keeps.ite
    | with_reducible apply Keeps.then_ (keep_updDisp ..)
    | exact fun h => h
    | exact fun _ h => h
    | (intro _ hd; split <;> exact hd)
    | decide
    | (beta_reduce; split)

theorem frame_pumpFault (p : Fin 3) :
    Kept [.outlet, .merLeg, .disp, .log, .flt] (.pumpFault p) := by
  intro s s' e
  change execPumpFault p s = .next s' at e
  unfold execPumpFault at e
  injection e with e
  subst e
  repeat' first
    | with_reducible assumption
    | (extract_lets -merge +onlyGivenNames x
       first
       | (refine Keeps.cut (x := x) (fun hx => ?_) ?_; (on_goal 1 => clear_value x)
          (on_goal 2 => (unfold x; clear x)))
       | (refine Keeps.cut (x := x.2) (fun hx => ?_) ?_; (on_goal 1 => clear_value x)
          (on_goal 2 => (unfold x; clear x)))
       | clear_value x)
    | with_reducible apply Keeps.refl
    | with_reducible apply Keeps.ite
    | with_reducible apply Keeps.then_ (keep_updDisp ..)
    | with_reducible apply Keeps.then_ (keep_raiseDisp ..)
    | exact fun h => h
    | exact fun _ h => h
    | (intro _ hd; split <;> exact hd)
    | decide
    | (beta_reduce; split)

theorem frame_panelPowerOn  :
    Kept [.disp] .panelPowerOn := by
  intro s s' e
  change execPanelPowerOn s = .next s' at e
  unfold execPanelPowerOn at e
  injection e with e
  subst e
  repeat' first
    | with_reducible assumption
    | (extract_lets -merge +onlyGivenNames x
       first
       | (refine Keeps.cut (x := x) (fun hx => ?_) ?_; (on_goal 1 => clear_value x)
          (on_goal 2 => (unfold x; clear x)))
       | (refine Keeps.cut (x := x.2) (fun hx => ?_) ?_; (on_goal 1 => clear_value x)
          (on_goal 2 => (unfold x; clear x)))
       | clear_value x)
    | with_reducible apply Keeps.refl
    | with_reducible apply Keeps.ite
    | with_reducible apply Keeps.then_ (keep_powerOn ..)
    | decide
    | split

theorem frame_panelPowerOff  :
    Kept [.disp] .panelPowerOff := by
  intro s s' e
  change execPanelPowerOff s = .next s' at e
  unfold execPanelPowerOff at e
  injection e with e
  subst e
  repeat' first
    | with_reducible assumption
    | (extract_lets -merge +onlyGivenNames x
       first
       | (refine Keeps.cut (x := x) (fun hx => ?_) ?_; (on_goal 1 => clear_value x)
          (on_goal 2 => (unfold x; clear x)))
       | (refine Keeps.cut (x := x.2) (fun hx => ?_) ?_; (on_goal 1 => clear_value x)
          (on_goal 2 => (unfold x; clear x)))
       | clear_value x)
    | with_reducible apply Keeps.refl
    | with_reducible apply Keeps.then_ (keep_beginOff ..)
    | with_reducible apply Keeps.then_ (keep_updDisp ..)
    | exact fun h => h
    | exact fun _ h => h
    | (intro _ hd; split <;> exact hd)
    | decide

theorem frame_pumpRetry  :
    Kept [.disp] .pumpRetry := by
  intro s s' e
  change execPumpRetry s = .next s' at e
  unfold execPumpRetry at e
  injection e with e
  subst e
  repeat' first
    | with_reducible assumption
    | (extract_lets -merge +onlyGivenNames x
       first
       | (refine Keeps.cut (x := x) (fun hx => ?_) ?_; (on_goal 1 => clear_value x)
          (on_goal 2 => (unfold x; clear x)))
       | (refine Keeps.cut (x := x.2) (fun hx => ?_) ?_; (on_goal 1 => clear_value x)
          (on_goal 2 => (unfold x; clear x)))
       | clear_value x)
    | with_reducible apply Keeps.refl
    | with_reducible apply Keeps.ite
    | with_reducible apply Keeps.then_ (keep_beginOff ..)
    | with_reducible apply Keeps.then_ (keep_updDisp ..)
    | with_reducible apply Keeps.then_ (keep_powerOn ..)
    | exact fun h => h
    | exact fun _ h => h
    | (intro _ hd; split <;> exact hd)
    | decide
    | (beta_reduce; split)

theorem frame_panelPowerStep (mv : Int) (us : Nat) :
    Kept [.outlet, .merLeg, .disp, .log, .flt] (.panelPowerStep mv us) := by
  intro s s' e
  change execPanelPowerStep mv us s = .next s' at e
  unfold execPanelPowerStep at e
  injection e with e
  subst e
  repeat' first
    | with_reducible assumption
    | (extract_lets -merge +onlyGivenNames x
       first
       | (refine Keeps.cut (x := x) (fun hx => ?_) ?_; (on_goal 1 => clear_value x)
          (on_goal 2 => (unfold x; clear x)))
       | (refine Keeps.cut (x := x.2) (fun hx => ?_) ?_; (on_goal 1 => clear_value x)
          (on_goal 2 => (unfold x; clear x)))
       | clear_value x)
    | with_reducible apply Keeps.refl
    | with_reducible apply Keeps.ite
    | with_reducible apply Keeps.then_ (keep_updDisp ..)
    | with_reducible apply Keeps.then_ (keep_raiseDisp ..)
    | with_reducible apply Keeps.then_ (keep_panelUp ..)
    | exact fun h => h
    | exact fun _ h => h
    | (intro _ hd; split <;> exact hd)
    | exact fun _ hd => settledNil_wf hd rfl rfl
    | decide
    | (beta_reduce; split)

end Sys2Proof.Machine
end

