-- ==== Sys2Proof/Laws/FrameMeridianOps.lean ====
section
/-!
SUPPORT. What each operation of Machine/MeridianOps.lean leaves unchanged.
-/
namespace Sys2Proof.Machine

set_option linter.unreachableTactic false
set_option linter.unusedTactic false
set_option linter.tactic.unusedName false

theorem keep_issueSeq (s : State) :
    Keeps [.merLeg] s (issueSeq s) := by
  unfold issueSeq
  repeat' first
    | with_reducible assumption
    | (extract_lets -merge +onlyGivenNames x
       first
       | (refine Keeps.cut (x := x) (fun hx => ?_) ?_; (on_goal 1 => clear_value x)
          (on_goal 2 => (unfold x; clear x)))
       | (refine Keeps.cut (x := x.2) (fun hx => ?_) ?_; (on_goal 1 => clear_value x)
          (on_goal 2 => (unfold x; clear x)))
       | (have t : Meridian := x; clear t; subst x)
       | clear_value x)
    | with_reducible apply Keeps.refl
    | with_reducible apply Keeps.upd_mer
    | (with_reducible apply Or.inl; decide)
    | (with_reducible apply Or.inr; with_reducible rfl)
    | (with_reducible apply Or.inr; rfl)
    | exact fun h => h
    | exact fun _ h => h
    | (intro _ hd; split <;> exact hd)
    | exact fun h => sparsePut_wf h _ _
    | exact fun _ h => sparsePut_wf h _ _
    | decide

theorem keep_legalEvent (s : State) (code arg : Nat) (detail : List Nat) :
    Keeps [.merLeg] s (legalEvent s code arg detail) := by
  unfold legalEvent
  repeat' first
    | with_reducible assumption
    | (extract_lets -merge +onlyGivenNames x
       first
       | (refine Keeps.cut (x := x) (fun hx => ?_) ?_; (on_goal 1 => clear_value x)
          (on_goal 2 => (unfold x; clear x)))
       | (refine Keeps.cut (x := x.2) (fun hx => ?_) ?_; (on_goal 1 => clear_value x)
          (on_goal 2 => (unfold x; clear x)))
       | clear_value x)
    | with_reducible apply Keeps.refl
    | with_reducible apply Keeps.ite
    | with_reducible apply Keeps.then_ (keep_updLeg ..)
    | with_reducible apply Keeps.then_ (keep_issueSeq ..)
    | decide
    | (beta_reduce; split)

theorem keep_closeIntervals (s : State) (endNs : Nat) (mark : DemFlags) (next : DemFlags) :
    Keeps [.merLeg] s (closeIntervals s endNs mark next) := by
  unfold closeIntervals
  repeat' first
    | with_reducible assumption
    | (extract_lets -merge +onlyGivenNames x
       first
       | (refine Keeps.cut (x := x) (fun hx => ?_) ?_; (on_goal 1 => clear_value x)
          (on_goal 2 => (unfold x; clear x)))
       | (refine Keeps.cut (x := x.2) (fun hx => ?_) ?_; (on_goal 1 => clear_value x)
          (on_goal 2 => (unfold x; clear x)))
       | clear_value x)
    | with_reducible apply Keeps.refl
    | with_reducible apply Keeps.then_ (keep_updLeg ..)
    | decide

theorem keep_markIntervals (s : State) (f : DemFlags) :
    Keeps [.merLeg] s (markIntervals s f) := by
  unfold markIntervals
  repeat' first
    | with_reducible assumption
    | (extract_lets -merge +onlyGivenNames x
       first
       | (refine Keeps.cut (x := x) (fun hx => ?_) ?_; (on_goal 1 => clear_value x)
          (on_goal 2 => (unfold x; clear x)))
       | (refine Keeps.cut (x := x.2) (fun hx => ?_) ?_; (on_goal 1 => clear_value x)
          (on_goal 2 => (unfold x; clear x)))
       | clear_value x)
    | with_reducible apply Keeps.refl
    | with_reducible apply Keeps.then_ (keep_updLeg ..)
    | decide

theorem keep_commitRegs (s : State) :
    Keeps [.merLeg, .merChr] s (commitRegs s) := by
  unfold commitRegs
  repeat' first
    | with_reducible assumption
    | (extract_lets -merge +onlyGivenNames x
       first
       | (refine Keeps.cut (x := x) (fun hx => ?_) ?_; (on_goal 1 => clear_value x)
          (on_goal 2 => (unfold x; clear x)))
       | (refine Keeps.cut (x := x.2) (fun hx => ?_) ?_; (on_goal 1 => clear_value x)
          (on_goal 2 => (unfold x; clear x)))
       | (have t : Meridian := x; clear t; subst x)
       | clear_value x)
    | with_reducible apply Keeps.refl
    | with_reducible apply Keeps.upd_mer
    | (with_reducible apply Or.inl; decide)
    | (with_reducible apply Or.inr; with_reducible rfl)
    | (with_reducible apply Or.inr; rfl)
    | exact fun h => h
    | exact fun _ h => h
    | (intro _ hd; split <;> exact hd)
    | exact fun h => sparsePut_wf h _ _
    | exact fun _ h => sparsePut_wf h _ _
    | decide

theorem keep_closePeriod (s : State) (atNs : Nat) (sched cmd outage : Bool) :
    Keeps [.merLeg, .merChr] s (closePeriod s atNs sched cmd outage) := by
  unfold closePeriod
  repeat' first
    | with_reducible assumption
    | (extract_lets -merge +onlyGivenNames x
       first
       | (refine Keeps.cut (x := x) (fun hx => ?_) ?_; (on_goal 1 => clear_value x)
          (on_goal 2 => (unfold x; clear x)))
       | (refine Keeps.cut (x := x.2) (fun hx => ?_) ?_; (on_goal 1 => clear_value x)
          (on_goal 2 => (unfold x; clear x)))
       | clear_value x)
    | with_reducible apply Keeps.refl
    | with_reducible apply Keeps.then_ (keep_updLeg ..)
    | with_reducible apply Keeps.then_ (keep_issueSeq ..)
    | with_reducible apply Keeps.then_ (keep_commitRegs ..)
    | decide

theorem keep_addCause (s : State) (cause : Nat) :
    Keeps [.merLeg] s (addCause s cause) := by
  unfold addCause
  repeat' first
    | with_reducible assumption
    | (extract_lets -merge +onlyGivenNames x
       first
       | (refine Keeps.cut (x := x) (fun hx => ?_) ?_; (on_goal 1 => clear_value x)
          (on_goal 2 => (unfold x; clear x)))
       | (refine Keeps.cut (x := x.2) (fun hx => ?_) ?_; (on_goal 1 => clear_value x)
          (on_goal 2 => (unfold x; clear x)))
       | clear_value x)
    | with_reducible apply Keeps.refl
    | with_reducible apply Keeps.then_ (keep_updLeg ..)
    | decide
    | (beta_reduce; split)

theorem keep_activateCalendar (s : State) : Keeps [.merLeg, .merTar] s (activateCalendar s) := by
  unfold activateCalendar
  split
  · refine Keeps.then_ (keep_legalEvent _ _ _ _) (by decide) ?_
    exact Keeps.upd_mer (Keeps.refl _ _) (Or.inr rfl) (Or.inr rfl) (Or.inr rfl) (Or.inr rfl) (Or.inl (by decide))
        (Or.inr rfl) (Or.inr rfl) (fun h => h)
  · exact Keeps.refl _ _

theorem keep_retariff (s : State) :
    Keeps [.merTar] s (retariff s) := by
  unfold retariff
  repeat' first
    | with_reducible assumption
    | (extract_lets -merge +onlyGivenNames x
       first
       | (refine Keeps.cut (x := x) (fun hx => ?_) ?_; (on_goal 1 => clear_value x)
          (on_goal 2 => (unfold x; clear x)))
       | (refine Keeps.cut (x := x.2) (fun hx => ?_) ?_; (on_goal 1 => clear_value x)
          (on_goal 2 => (unfold x; clear x)))
       | (have t : Meridian := x; clear t; subst x)
       | clear_value x)
    | with_reducible apply Keeps.refl
    | with_reducible apply Keeps.upd_mer
    | (with_reducible apply Or.inl; decide)
    | (with_reducible apply Or.inr; with_reducible rfl)
    | (with_reducible apply Or.inr; rfl)
    | exact fun h => h
    | exact fun _ h => h
    | (intro _ hd; split <;> exact hd)
    | exact fun h => sparsePut_wf h _ _
    | exact fun _ h => sparsePut_wf h _ _
    | decide

theorem keep_boundaryAt (s : State) (demand outage : Bool) (prev at_ : Nat) :
    Keeps [.merLeg, .merChr, .merTar] s (boundaryAt s demand outage prev at_) := by
  unfold boundaryAt
  repeat' first
    | with_reducible assumption
    | (extract_lets -merge +onlyGivenNames x
       first
       | (refine Keeps.cut (x := x) (fun hx => ?_) ?_; (on_goal 1 => clear_value x)
          (on_goal 2 => (unfold x; clear x)))
       | (refine Keeps.cut (x := x.2) (fun hx => ?_) ?_; (on_goal 1 => clear_value x)
          (on_goal 2 => (unfold x; clear x)))
       | clear_value x)
    | with_reducible apply Keeps.refl
    | with_reducible apply Keeps.ite
    | with_reducible apply Keeps.then_ (keep_closeIntervals ..)
    | with_reducible apply Keeps.then_ (keep_closePeriod ..)
    | with_reducible apply Keeps.then_ (keep_activateCalendar ..)
    | decide
    | split

theorem keep_boundaries (demand outage : Bool) (until_ fuel prev : Nat) (s : State) :
    Keeps [.merLeg, .merChr, .merTar] s (boundaries demand outage until_ fuel prev s) := by
  induction fuel generalizing prev s with
  | zero => exact Keeps.refl _ _
  | succ n ih =>
    unfold boundaries
    split
    · refine Keeps.ite (Keeps.trans ?_ (ih _ _)) (Keeps.refl _ _)
      exact (keep_boundaryAt s _ _ _ _).mono (by decide)
    · exact Keeps.refl _ _

theorem keep_markAdjusted (s : State) :
    Keeps [.merLeg] s (markAdjusted s) := by
  unfold markAdjusted
  repeat' first
    | with_reducible assumption
    | (extract_lets -merge +onlyGivenNames x
       first
       | (refine Keeps.cut (x := x) (fun hx => ?_) ?_; (on_goal 1 => clear_value x)
          (on_goal 2 => (unfold x; clear x)))
       | (refine Keeps.cut (x := x.2) (fun hx => ?_) ?_; (on_goal 1 => clear_value x)
          (on_goal 2 => (unfold x; clear x)))
       | clear_value x)
    | with_reducible apply Keeps.refl
    | with_reducible apply Keeps.ite
    | with_reducible apply Keeps.then_ (keep_updLeg ..)
    | decide
    | (beta_reduce; split)

theorem keep_setTime (s : State) (ns : Nat) :
    Keeps [.merChr] s (setTime s ns) := by
  unfold setTime
  repeat' first
    | with_reducible assumption
    | (extract_lets -merge +onlyGivenNames x
       first
       | (refine Keeps.cut (x := x) (fun hx => ?_) ?_; (on_goal 1 => clear_value x)
          (on_goal 2 => (unfold x; clear x)))
       | (refine Keeps.cut (x := x.2) (fun hx => ?_) ?_; (on_goal 1 => clear_value x)
          (on_goal 2 => (unfold x; clear x)))
       | (have t : Meridian := x; clear t; subst x)
       | clear_value x)
    | with_reducible apply Keeps.refl
    | with_reducible apply Keeps.upd_mer
    | (with_reducible apply Or.inl; decide)
    | (with_reducible apply Or.inr; with_reducible rfl)
    | (with_reducible apply Or.inr; rfl)
    | exact fun h => h
    | exact fun _ h => h
    | (intro _ hd; split <;> exact hd)
    | exact fun h => sparsePut_wf h _ _
    | exact fun _ h => sparsePut_wf h _ _
    | decide

theorem keep_stepClock (s : State) (ns : Nat) :
    Keeps [.merLeg, .merChr, .merTar] s (stepClock s ns) := by
  unfold stepClock
  repeat' first
    | with_reducible assumption
    | (extract_lets -merge +onlyGivenNames x
       first
       | (refine Keeps.cut (x := x) (fun hx => ?_) ?_; (on_goal 1 => clear_value x)
          (on_goal 2 => (unfold x; clear x)))
       | (refine Keeps.cut (x := x.2) (fun hx => ?_) ?_; (on_goal 1 => clear_value x)
          (on_goal 2 => (unfold x; clear x)))
       | (have t : Meridian := x; clear t; subst x)
       | clear_value x)
    | with_reducible apply Keeps.refl
    | with_reducible apply Keeps.ite
    | with_reducible apply Keeps.then_ (keep_updLeg ..)
    | with_reducible apply Keeps.then_ (keep_legalEvent ..)
    | with_reducible apply Keeps.then_ (keep_closeIntervals ..)
    | with_reducible apply Keeps.then_ (keep_markIntervals ..)
    | with_reducible apply Keeps.then_ (keep_retariff ..)
    | with_reducible apply Keeps.then_ (keep_boundaries ..)
    | with_reducible apply Keeps.then_ (keep_markAdjusted ..)
    | with_reducible apply Keeps.then_ (keep_setTime ..)
    | (beta_reduce; split)
    | with_reducible apply Keeps.upd_mer
    | (with_reducible apply Or.inl; decide)
    | (with_reducible apply Or.inr; with_reducible rfl)
    | (with_reducible apply Or.inr; rfl)
    | exact fun h => h
    | exact fun _ h => h
    | (intro _ hd; split <;> exact hd)
    | exact fun h => sparsePut_wf h _ _
    | exact fun _ h => sparsePut_wf h _ _
    | decide

theorem keep_updSessionRec (s : State) (o : Fin 2) (f : SessionRec → SessionRec) :
    Keeps [.merLeg] s (updSessionRec s o f) := by
  unfold updSessionRec
  repeat' first
    | with_reducible assumption
    | (extract_lets -merge +onlyGivenNames x
       first
       | (refine Keeps.cut (x := x) (fun hx => ?_) ?_; (on_goal 1 => clear_value x)
          (on_goal 2 => (unfold x; clear x)))
       | (refine Keeps.cut (x := x.2) (fun hx => ?_) ?_; (on_goal 1 => clear_value x)
          (on_goal 2 => (unfold x; clear x)))
       | clear_value x)
    | with_reducible apply Keeps.refl
    | with_reducible apply Keeps.ite
    | with_reducible apply Keeps.then_ (keep_updLeg ..)
    | decide
    | (beta_reduce; split)

theorem keep_resumeMetering (s : State) :
    Keeps [.merFe, .merLeg, .merChr, .merTar, .merRest] s (resumeMetering s) := by
  unfold resumeMetering
  repeat' first
    | with_reducible assumption
    | (extract_lets -merge +onlyGivenNames x
       first
       | (refine Keeps.cut (x := x) (fun hx => ?_) ?_; (on_goal 1 => clear_value x)
          (on_goal 2 => (unfold x; clear x)))
       | (refine Keeps.cut (x := x.2) (fun hx => ?_) ?_; (on_goal 1 => clear_value x)
          (on_goal 2 => (unfold x; clear x)))
       | (have t : Meridian := x; clear t; subst x)
       | (have t : _ → State := x; clear t; subst x)
       | (have t : _ → _ → State := x; clear t; subst x)
       | (have t : _ → _ → Display := x; clear t; subst x)
       | clear_value x)
    | with_reducible apply Keeps.refl
    | with_reducible apply Keeps.ite
    | with_reducible apply Keeps.then_ (keep_updLeg ..)
    | with_reducible apply Keeps.then_ (keep_markIntervals ..)
    | with_reducible apply Keeps.then_ (keep_retariff ..)
    | with_reducible apply Keeps.then_ (keep_boundaries ..)
    | (beta_reduce; split)
    | with_reducible apply Keeps.upd_mer
    | (with_reducible apply Or.inl; decide)
    | (with_reducible apply Or.inr; with_reducible rfl)
    | (with_reducible apply Or.inr; rfl)
    | exact fun h => h
    | exact fun _ h => h
    | (intro _ hd; split <;> exact hd)
    | exact fun h => sparsePut_wf h _ _
    | exact fun _ h => sparsePut_wf h _ _
    | decide

theorem keep_restPulses (s : State) :
    Keeps [.merLeg] s (restPulses s) := by
  unfold restPulses
  repeat' first
    | with_reducible assumption
    | (extract_lets -merge +onlyGivenNames x
       first
       | (refine Keeps.cut (x := x) (fun hx => ?_) ?_; (on_goal 1 => clear_value x)
          (on_goal 2 => (unfold x; clear x)))
       | (refine Keeps.cut (x := x.2) (fun hx => ?_) ?_; (on_goal 1 => clear_value x)
          (on_goal 2 => (unfold x; clear x)))
       | clear_value x)
    | with_reducible apply Keeps.refl
    | with_reducible apply Keeps.then_ (keep_updLeg ..)
    | decide

theorem keep_stopMetering (s : State) :
    Keeps [.merLeg, .merChr, .merRest] s (stopMetering s) := by
  unfold stopMetering
  repeat' first
    | with_reducible assumption
    | (extract_lets -merge +onlyGivenNames x
       first
       | (refine Keeps.cut (x := x) (fun hx => ?_) ?_; (on_goal 1 => clear_value x)
          (on_goal 2 => (unfold x; clear x)))
       | (refine Keeps.cut (x := x.2) (fun hx => ?_) ?_; (on_goal 1 => clear_value x)
          (on_goal 2 => (unfold x; clear x)))
       | (have t : Meridian := x; clear t; subst x)
       | clear_value x)
    | with_reducible apply Keeps.refl
    | with_reducible apply Keeps.ite
    | with_reducible apply Keeps.then_ (keep_commitRegs ..)
    | with_reducible apply Keeps.then_ (keep_restPulses ..)
    | split
    | with_reducible apply Keeps.upd_mer
    | (with_reducible apply Or.inl; decide)
    | (with_reducible apply Or.inr; with_reducible rfl)
    | (with_reducible apply Or.inr; rfl)
    | exact fun h => h
    | exact fun _ h => h
    | (intro _ hd; split <;> exact hd)
    | exact fun h => sparsePut_wf h _ _
    | exact fun _ h => sparsePut_wf h _ _
    | decide

theorem keep_leaveLaidUp (s : State) :
    Keeps [.merLeg, .merChr, .merTar] s (leaveLaidUp s) := by
  unfold leaveLaidUp
  repeat' first
    | with_reducible assumption
    | (extract_lets -merge +onlyGivenNames x
       first
       | (refine Keeps.cut (x := x) (fun hx => ?_) ?_; (on_goal 1 => clear_value x)
          (on_goal 2 => (unfold x; clear x)))
       | (refine Keeps.cut (x := x.2) (fun hx => ?_) ?_; (on_goal 1 => clear_value x)
          (on_goal 2 => (unfold x; clear x)))
       | clear_value x)
    | with_reducible apply Keeps.refl
    | with_reducible apply Keeps.ite
    | with_reducible apply Keeps.then_ (keep_markIntervals ..)
    | with_reducible apply Keeps.then_ (keep_retariff ..)
    | with_reducible apply Keeps.then_ (keep_boundaries ..)
    | decide
    | split

theorem keep_stopPlainly (s : State) :
    Keeps [.merLeg, .merChr, .merRest] s (stopPlainly s) := by
  unfold stopPlainly
  repeat' first
    | with_reducible assumption
    | (extract_lets -merge +onlyGivenNames x
       first
       | (refine Keeps.cut (x := x) (fun hx => ?_) ?_; (on_goal 1 => clear_value x)
          (on_goal 2 => (unfold x; clear x)))
       | (refine Keeps.cut (x := x.2) (fun hx => ?_) ?_; (on_goal 1 => clear_value x)
          (on_goal 2 => (unfold x; clear x)))
       | (have t : Meridian := x; clear t; subst x)
       | clear_value x)
    | with_reducible apply Keeps.refl
    | with_reducible apply Keeps.then_ (keep_stopMetering ..)
    | with_reducible apply Keeps.upd_mer
    | (with_reducible apply Or.inl; decide)
    | (with_reducible apply Or.inr; with_reducible rfl)
    | (with_reducible apply Or.inr; rfl)
    | exact fun h => h
    | exact fun _ h => h
    | (intro _ hd; split <;> exact hd)
    | exact fun h => sparsePut_wf h _ _
    | exact fun _ h => sparsePut_wf h _ _
    | decide

theorem keep_updFw (s : State) (k : Fin 5) (f : FwTarget → FwTarget) :
    Keeps [.fw] s (updFw s k f) := by
  unfold updFw
  repeat' first
    | with_reducible assumption
    | (extract_lets -merge +onlyGivenNames x
       first
       | (refine Keeps.cut (x := x) (fun hx => ?_) ?_; (on_goal 1 => clear_value x)
          (on_goal 2 => (unfold x; clear x)))
       | (refine Keeps.cut (x := x.2) (fun hx => ?_) ?_; (on_goal 1 => clear_value x)
          (on_goal 2 => (unfold x; clear x)))
       | clear_value x)
    | with_reducible apply Keeps.refl
    | with_reducible apply Keeps.upd_fw
    | decide

theorem keep_bootImage (s : State) (k : Fin 5) (c : ImageChoice) :
    Keeps [.fw] s (bootImage s k c) := by
  unfold bootImage
  repeat' first
    | with_reducible assumption
    | (extract_lets -merge +onlyGivenNames x
       first
       | (refine Keeps.cut (x := x) (fun hx => ?_) ?_; (on_goal 1 => clear_value x)
          (on_goal 2 => (unfold x; clear x)))
       | (refine Keeps.cut (x := x.2) (fun hx => ?_) ?_; (on_goal 1 => clear_value x)
          (on_goal 2 => (unfold x; clear x)))
       | clear_value x)
    | with_reducible apply Keeps.refl
    | with_reducible apply Keeps.then_ (keep_updFw ..)
    | decide
    | (beta_reduce; split)

theorem keep_startMeridian (s : State) (c : ImageChoice) :
    Keeps [.merFe, .merLeg, .merChr, .merTar, .merRest, .fw] s (startMeridian s c) := by
  unfold startMeridian
  repeat' first
    | with_reducible assumption
    | (extract_lets -merge +onlyGivenNames x
       first
       | (refine Keeps.cut (x := x) (fun hx => ?_) ?_; (on_goal 1 => clear_value x)
          (on_goal 2 => (unfold x; clear x)))
       | (refine Keeps.cut (x := x.2) (fun hx => ?_) ?_; (on_goal 1 => clear_value x)
          (on_goal 2 => (unfold x; clear x)))
       | (have t : Meridian := x; clear t; subst x)
       | clear_value x)
    | with_reducible apply Keeps.refl
    | with_reducible apply Keeps.ite
    | with_reducible apply Keeps.then_ (keep_resumeMetering ..)
    | with_reducible apply Keeps.then_ (keep_bootImage ..)
    | split
    | with_reducible apply Keeps.upd_mer
    | (with_reducible apply Or.inl; decide)
    | (with_reducible apply Or.inr; with_reducible rfl)
    | (with_reducible apply Or.inr; rfl)
    | exact fun h => h
    | exact fun _ h => h
    | (intro _ hd; split <;> exact hd)
    | exact fun h => sparsePut_wf h _ _
    | exact fun _ h => sparsePut_wf h _ _
    | decide

theorem keep_meridianBack (s : State) :
    Keeps [.log, .flt] s (meridianBack s) := by
  unfold meridianBack
  repeat' first
    | with_reducible assumption
    | (extract_lets -merge +onlyGivenNames x
       first
       | (refine Keeps.cut (x := x) (fun hx => ?_) ?_; (on_goal 1 => clear_value x)
          (on_goal 2 => (unfold x; clear x)))
       | (refine Keeps.cut (x := x.2) (fun hx => ?_) ?_; (on_goal 1 => clear_value x)
          (on_goal 2 => (unfold x; clear x)))
       | clear_value x)
    | with_reducible apply Keeps.refl
    | with_reducible apply Keeps.ite
    | with_reducible apply Keeps.then_ (keep_clearFaults ..)
    | decide
    | (beta_reduce; split)

/-- A staged word keeps the form. -/
theorem stagedPut_wf {m n : Meridian} {a : Nat} {w : Word} (h : m.memWf = true) (hr : n.regs = m.regs)
    (hs : n.staged = sparsePut (resetWord a) m.staged a w) : n.memWf = true := by
  unfold Meridian.memWf at h ⊢
  rw [Bool.and_eq_true] at h ⊢
  rw [hr, hs]
  exact ⟨h.1, sparsePut_wf h.2 a w⟩

/-- The staged set put in use is in canonical form. -/
theorem staged_wf {m : Meridian} (h : m.memWf = true) : (sparseWf resetWord m.staged && sparseWf resetWord m.staged)
    = true := by
  unfold Meridian.memWf at h
  rw [Bool.and_eq_true] at h ⊢
  exact ⟨h.2, h.2⟩

theorem keep_metroCommit (s : State) : Keeps [.merFe, .merLeg, .merRegs] s (metroCommit s).2 := by
  unfold metroCommit
  split
  · exact Keeps.refl _ _
  · split
    · refine Keeps.then_ (keep_legalEvent _ _ _ _) (by decide) ?_
      exact Keeps.upd_mer (Keeps.refl _ _) (Or.inl (by decide)) (Or.inr rfl) (Or.inl (by decide)) (Or.inr rfl)
          (Or.inr rfl) (Or.inr rfl) (Or.inr rfl) (fun h => staged_wf h)
    · exact Keeps.refl _ _

theorem keep_metroCommit_eq {s : State} {a t} (h : metroCommit s = (a, t)) :
    Keeps [.merFe, .merLeg, .merRegs] s t := by
  have k := keep_metroCommit s
  rw [h] at k
  exact k

end Sys2Proof.Machine
end

