-- ==== Sys2Proof/Laws/FrameHostOps.lean ====
section
/-!
SUPPORT. What each operation of Machine/HostOps.lean leaves unchanged.
-/
namespace Sys2Proof.Machine

set_option linter.unreachableTactic false
set_option linter.unusedTactic false
set_option linter.tactic.unusedName false

theorem keep_dropHold (s : State) (opId : Nat) :
    Keeps [.hostJournal] s (dropHold s opId) := by
  unfold dropHold
  repeat' first
    | with_reducible assumption
    | (extract_lets -merge +onlyGivenNames x
       first
       | (refine Keeps.cut (x := x) (fun hx => ?_) ?_; (on_goal 1 => clear_value x)
          (on_goal 2 => (unfold x; clear x)))
       | (refine Keeps.cut (x := x.2) (fun hx => ?_) ?_; (on_goal 1 => clear_value x)
          (on_goal 2 => (unfold x; clear x)))
       | clear_value x)
    | with_reducible apply Keeps.refl
    | with_reducible apply Keeps.then_ (keep_updJrn ..)
    | decide

theorem keep_stepDone (s : State) (opId k : Nat) :
    Keeps [.hostJournal] s (stepDone s opId k) := by
  unfold stepDone
  repeat' first
    | with_reducible assumption
    | (extract_lets -merge +onlyGivenNames x
       first
       | (refine Keeps.cut (x := x) (fun hx => ?_) ?_; (on_goal 1 => clear_value x)
          (on_goal 2 => (unfold x; clear x)))
       | (refine Keeps.cut (x := x.2) (fun hx => ?_) ?_; (on_goal 1 => clear_value x)
          (on_goal 2 => (unfold x; clear x)))
       | clear_value x)
    | with_reducible apply Keeps.refl
    | with_reducible apply Keeps.then_ (keep_updJrn ..)
    | decide

theorem keep_sendBare (s : State) (via : Transport) (sid code cls : Nat) (st : Status) (payload : Bytes) :
    Keeps [.hostRest] s (sendBare s via sid code cls st payload) := by
  unfold sendBare
  repeat' first
    | with_reducible assumption
    | (extract_lets -merge +onlyGivenNames x
       first
       | (refine Keeps.cut (x := x) (fun hx => ?_) ?_; (on_goal 1 => clear_value x)
          (on_goal 2 => (unfold x; clear x)))
       | (refine Keeps.cut (x := x.2) (fun hx => ?_) ?_; (on_goal 1 => clear_value x)
          (on_goal 2 => (unfold x; clear x)))
       | (have t : HostIf := x; clear t; subst x)
       | clear_value x)
    | with_reducible apply Keeps.refl
    | with_reducible apply Keeps.upd_host
    | (with_reducible apply Or.inl; decide)
    | (with_reducible apply Or.inr; with_reducible rfl)
    | (with_reducible apply Or.inr; rfl)
    | decide

theorem keep_reply (s : State) (f : Frame) (code : Nat) (done : Bool) (st : Status) (opId : Nat) (payload : Bytes) :
    Keeps [.hostSessions, .hostRest] s (reply s f code done st opId payload) := by
  unfold reply
  repeat' first
    | with_reducible assumption
    | (extract_lets -merge +onlyGivenNames x
       first
       | (refine Keeps.cut (x := x) (fun hx => ?_) ?_; (on_goal 1 => clear_value x)
          (on_goal 2 => (unfold x; clear x)))
       | (refine Keeps.cut (x := x.2) (fun hx => ?_) ?_; (on_goal 1 => clear_value x)
          (on_goal 2 => (unfold x; clear x)))
       | clear_value x)
    | with_reducible apply Keeps.refl
    | with_reducible apply Keeps.then_ (keep_updSession ..)
    | with_reducible apply Keeps.then_ (keep_sendSession ..)
    | decide
    | (beta_reduce; split)

theorem keep_updClass (s : State) (k : Fin 6) (f : ClassState → ClassState) :
    Keeps [.hostRest] s (updClass s k f) := by
  unfold updClass
  repeat' first
    | with_reducible assumption
    | (extract_lets -merge +onlyGivenNames x
       first
       | (refine Keeps.cut (x := x) (fun hx => ?_) ?_; (on_goal 1 => clear_value x)
          (on_goal 2 => (unfold x; clear x)))
       | (refine Keeps.cut (x := x.2) (fun hx => ?_) ?_; (on_goal 1 => clear_value x)
          (on_goal 2 => (unfold x; clear x)))
       | (have t : HostIf := x; clear t; subst x)
       | clear_value x)
    | with_reducible apply Keeps.refl
    | with_reducible apply Keeps.upd_host
    | (with_reducible apply Or.inl; decide)
    | (with_reducible apply Or.inr; with_reducible rfl)
    | (with_reducible apply Or.inr; rfl)
    | decide

theorem keep_setResult (s : State) (opId : Nat) (st : Status) (payload : Bytes) :
    Keeps [.hostOps] s (setResult s opId st payload) := by
  unfold setResult
  repeat' first
    | with_reducible assumption
    | (extract_lets -merge +onlyGivenNames x
       first
       | (refine Keeps.cut (x := x) (fun hx => ?_) ?_; (on_goal 1 => clear_value x)
          (on_goal 2 => (unfold x; clear x)))
       | (refine Keeps.cut (x := x.2) (fun hx => ?_) ?_; (on_goal 1 => clear_value x)
          (on_goal 2 => (unfold x; clear x)))
       | clear_value x)
    | with_reducible apply Keeps.refl
    | with_reducible apply Keeps.then_ (keep_updOp ..)
    | decide

theorem keep_dropTransfers (s : State) (p : Transfer → Bool) :
    Keeps [.hostRest, .fw] s (dropTransfers s p) := by
  unfold dropTransfers
  repeat' first
    | with_reducible assumption
    | (extract_lets -merge +onlyGivenNames x
       first
       | (refine Keeps.cut (x := x) (fun hx => ?_) ?_; (on_goal 1 => clear_value x)
          (on_goal 2 => (unfold x; clear x)))
       | (refine Keeps.cut (x := x.2) (fun hx => ?_) ?_; (on_goal 1 => clear_value x)
          (on_goal 2 => (unfold x; clear x)))
       | (have t : HostIf := x; clear t; subst x)
       | clear_value x)
    | with_reducible apply Keeps.refl
    | with_reducible apply Keeps.ite
    | with_reducible apply Keeps.then_ (keep_updFw ..)
    | (with_reducible apply Keeps.foldl; on_goal 2 => intros)
    | (beta_reduce; split)
    | with_reducible apply Keeps.upd_host
    | (with_reducible apply Or.inl; decide)
    | (with_reducible apply Or.inr; with_reducible rfl)
    | (with_reducible apply Or.inr; rfl)
    | decide

theorem keep_endSession (s : State) (sid : Nat) :
    Keeps [.hostSessions, .hostRest, .fw] s (endSession s sid) := by
  unfold endSession
  repeat' first
    | with_reducible assumption
    | (extract_lets -merge +onlyGivenNames x
       first
       | (refine Keeps.cut (x := x) (fun hx => ?_) ?_; (on_goal 1 => clear_value x)
          (on_goal 2 => (unfold x; clear x)))
       | (refine Keeps.cut (x := x.2) (fun hx => ?_) ?_; (on_goal 1 => clear_value x)
          (on_goal 2 => (unfold x; clear x)))
       | (have t : HostIf := x; clear t; subst x)
       | clear_value x)
    | with_reducible apply Keeps.refl
    | with_reducible apply Keeps.then_ (keep_dropTransfers ..)
    | with_reducible apply Keeps.upd_host
    | (with_reducible apply Or.inl; decide)
    | (with_reducible apply Or.inr; with_reducible rfl)
    | (with_reducible apply Or.inr; rfl)
    | decide

theorem keep_takeChunk (s : State) (sid cmd target : Nat) (k : Chunk) :
    Keeps [.hostRest, .fw] s (takeChunk s sid cmd target k).1 := by
  unfold takeChunk
  repeat' first
    | with_reducible assumption
    | (extract_lets -merge +onlyGivenNames x
       first
       | (refine Keeps.cut (x := x) (fun hx => ?_) ?_; (on_goal 1 => clear_value x)
          (on_goal 2 => (unfold x; clear x)))
       | (refine Keeps.cut (x := x.2) (fun hx => ?_) ?_; (on_goal 1 => clear_value x)
          (on_goal 2 => (unfold x; clear x)))
       | (have t : HostIf := x; clear t; subst x)
       | (have t : _ → State := x; clear t; subst x)
       | (have t : _ → _ → State := x; clear t; subst x)
       | (have t : _ → _ → Display := x; clear t; subst x)
       | clear_value x)
    | with_reducible apply Keeps.refl
    | with_reducible apply Keeps.ite
    | with_reducible apply Keeps.then_ (keep_dropTransfers ..)
    | (beta_reduce; split)
    | with_reducible apply Keeps.upd_host
    | (with_reducible apply Or.inl; decide)
    | (with_reducible apply Or.inr; with_reducible rfl)
    | (with_reducible apply Or.inr; rfl)
    | decide

theorem keep_takeChunk_eq {s : State} {sid cmd target : Nat} {k : Chunk} {a t} (h : takeChunk s sid cmd target k =
    (t, a)) :
    Keeps [.hostRest, .fw] s t := by
  have k := keep_takeChunk s sid cmd target k
  rw [h] at k
  exact k

end Sys2Proof.Machine
end

