-- ==== Sys2Proof/Laws/FrameSiteOps.lean ====
section
/-!
SUPPORT. What each operation of Machine/SiteOps.lean leaves unchanged.
-/
namespace Sys2Proof.Machine

set_option linter.unreachableTactic false
set_option linter.unusedTactic false
set_option linter.tactic.unusedName false

theorem keep_useSlot (s : State) (k : Fin 128) (n : Nat) :
    Keeps [.locker] s (useSlot s k n) := by
  unfold useSlot
  repeat' first
    | with_reducible assumption
    | (extract_lets -merge +onlyGivenNames x
       first
       | (refine Keeps.cut (x := x) (fun hx => ?_) ?_; (on_goal 1 => clear_value x)
          (on_goal 2 => (unfold x; clear x)))
       | (refine Keeps.cut (x := x.2) (fun hx => ?_) ?_; (on_goal 1 => clear_value x)
          (on_goal 2 => (unfold x; clear x)))
       | clear_value x)
    | with_reducible apply Keeps.refl
    | with_reducible apply Keeps.then_ (keep_updSlot ..)
    | decide

theorem keep_loadLinkKey (s : State) :
    Keeps [.txl] s (loadLinkKey s) := by
  unfold loadLinkKey
  repeat' first
    | with_reducible assumption
    | (extract_lets -merge +onlyGivenNames x
       first
       | (refine Keeps.cut (x := x) (fun hx => ?_) ?_; (on_goal 1 => clear_value x)
          (on_goal 2 => (unfold x; clear x)))
       | (refine Keeps.cut (x := x.2) (fun hx => ?_) ?_; (on_goal 1 => clear_value x)
          (on_goal 2 => (unfold x; clear x)))
       | clear_value x)
    | with_reducible apply Keeps.refl
    | with_reducible apply Keeps.upd_txl
    | decide

theorem keep_updTxlPort (s : State) (p : Fin 2) (f : TxlPort → TxlPort) :
    Keeps [.txl] s (updTxlPort s p f) := by
  unfold updTxlPort
  repeat' first
    | with_reducible assumption
    | (extract_lets -merge +onlyGivenNames x
       first
       | (refine Keeps.cut (x := x) (fun hx => ?_) ?_; (on_goal 1 => clear_value x)
          (on_goal 2 => (unfold x; clear x)))
       | (refine Keeps.cut (x := x.2) (fun hx => ?_) ?_; (on_goal 1 => clear_value x)
          (on_goal 2 => (unfold x; clear x)))
       | clear_value x)
    | with_reducible apply Keeps.refl
    | with_reducible apply Keeps.upd_txl
    | decide

theorem keep_wireTick (s : State) :
    Keeps [.txl] s (wireTick s) := by
  unfold wireTick
  repeat' first
    | with_reducible assumption
    | (extract_lets -merge +onlyGivenNames x
       first
       | (refine Keeps.cut (x := x) (fun hx => ?_) ?_; (on_goal 1 => clear_value x)
          (on_goal 2 => (unfold x; clear x)))
       | (refine Keeps.cut (x := x.2) (fun hx => ?_) ?_; (on_goal 1 => clear_value x)
          (on_goal 2 => (unfold x; clear x)))
       | clear_value x)
    | with_reducible apply Keeps.refl
    | with_reducible apply Keeps.upd_txl
    | decide

theorem keep_sendTxl (s : State) (cls : TxlClass) (onA onB : Bool) (dst : Nat) (payload : Bytes) :
    Keeps [.txl, .locker] s (sendTxl s cls onA onB dst payload) := by
  unfold sendTxl
  split
  · exact Keeps.refl _ _
  · extract_lets a b lseq mac f put src t
    have ht : Keeps [.txl, .locker] s t := Keeps.upd_txl (Keeps.refl _ _) (by decide)
    exact ht.trans ((keep_useSlot t _ _).mono (by decide))

theorem keep_sendHost (s : State) (p : Fin 2) (payload : Bytes) :
    Keeps [.txl] s (sendHost s p payload) := by
  unfold sendHost
  repeat' first
    | with_reducible assumption
    | (extract_lets -merge +onlyGivenNames x
       first
       | (refine Keeps.cut (x := x) (fun hx => ?_) ?_; (on_goal 1 => clear_value x)
          (on_goal 2 => (unfold x; clear x)))
       | (refine Keeps.cut (x := x.2) (fun hx => ?_) ?_; (on_goal 1 => clear_value x)
          (on_goal 2 => (unfold x; clear x)))
       | clear_value x)
    | with_reducible apply Keeps.refl
    | with_reducible apply Keeps.ite
    | (beta_reduce; split)
    | with_reducible apply Keeps.upd_txl
    | decide

theorem keep_sendOut (s : State) (f : OutFrame) :
    Keeps [.txl, .hostRest] s (sendOut s f) := by
  unfold sendOut
  repeat' first
    | with_reducible assumption
    | (extract_lets -merge +onlyGivenNames x
       first
       | (refine Keeps.cut (x := x) (fun hx => ?_) ?_; (on_goal 1 => clear_value x)
          (on_goal 2 => (unfold x; clear x)))
       | (refine Keeps.cut (x := x.2) (fun hx => ?_) ?_; (on_goal 1 => clear_value x)
          (on_goal 2 => (unfold x; clear x)))
       | (have t : HostIf := x; clear t; subst x)
       | clear_value x)
    | with_reducible apply Keeps.refl
    | with_reducible apply Keeps.then_ (keep_sendHost ..)
    | (beta_reduce; split)
    | with_reducible apply Keeps.upd_host
    | (with_reducible apply Or.inl; decide)
    | (with_reducible apply Or.inr; with_reducible rfl)
    | (with_reducible apply Or.inr; rfl)
    | decide

theorem keep_hostTick (s : State) :
    Keeps [.txl, .hostRest] s (hostTick s) := by
  unfold hostTick
  repeat' first
    | with_reducible assumption
    | (extract_lets -merge +onlyGivenNames x
       first
       | (refine Keeps.cut (x := x) (fun hx => ?_) ?_; (on_goal 1 => clear_value x)
          (on_goal 2 => (unfold x; clear x)))
       | (refine Keeps.cut (x := x.2) (fun hx => ?_) ?_; (on_goal 1 => clear_value x)
          (on_goal 2 => (unfold x; clear x)))
       | clear_value x)
    | with_reducible apply Keeps.refl
    | with_reducible apply Keeps.ite
    | with_reducible apply Keeps.then_ (keep_sendOut ..)
    | (with_reducible apply Keeps.foldl; on_goal 2 => intros)
    | decide
    | split

theorem keep_sendCtrl (s : State) (dst : Nat) (payload : Bytes) :
    Keeps [.txl, .locker] s (sendCtrl s dst payload) := by
  unfold sendCtrl
  repeat' first
    | with_reducible assumption
    | (extract_lets -merge +onlyGivenNames x
       first
       | (refine Keeps.cut (x := x) (fun hx => ?_) ?_; (on_goal 1 => clear_value x)
          (on_goal 2 => (unfold x; clear x)))
       | (refine Keeps.cut (x := x.2) (fun hx => ?_) ?_; (on_goal 1 => clear_value x)
          (on_goal 2 => (unfold x; clear x)))
       | clear_value x)
    | with_reducible apply Keeps.refl
    | with_reducible apply Keeps.then_ (keep_sendTxl ..)
    | decide

theorem keep_sendBulk (s : State) (kind : Nat) (payload : Bytes) :
    Keeps [.txl, .locker] s (sendBulk s kind payload) := by
  unfold sendBulk
  repeat' first
    | with_reducible assumption
    | (extract_lets -merge +onlyGivenNames x
       first
       | (refine Keeps.cut (x := x) (fun hx => ?_) ?_; (on_goal 1 => clear_value x)
          (on_goal 2 => (unfold x; clear x)))
       | (refine Keeps.cut (x := x.2) (fun hx => ?_) ?_; (on_goal 1 => clear_value x)
          (on_goal 2 => (unfold x; clear x)))
       | clear_value x)
    | with_reducible apply Keeps.refl
    | with_reducible apply Keeps.ite
    | with_reducible apply Keeps.then_ (keep_sendTxl ..)
    | decide
    | split

theorem keep_sendBeacon (s : State) (active renew release : Bool) :
    Keeps [.txl, .locker] s (sendBeacon s active renew release) := by
  unfold sendBeacon
  repeat' first
    | with_reducible assumption
    | (extract_lets -merge +onlyGivenNames x
       first
       | (refine Keeps.cut (x := x) (fun hx => ?_) ?_; (on_goal 1 => clear_value x)
          (on_goal 2 => (unfold x; clear x)))
       | (refine Keeps.cut (x := x.2) (fun hx => ?_) ?_; (on_goal 1 => clear_value x)
          (on_goal 2 => (unfold x; clear x)))
       | clear_value x)
    | with_reducible apply Keeps.refl
    | with_reducible apply Keeps.then_ (keep_sendTxl ..)
    | decide

end Sys2Proof.Machine
end

