-- ==== Sys2Proof/Laws/FrameKeyOps.lean ====
section
/-!
SUPPORT. What each operation of Machine/KeyOps.lean leaves unchanged.
-/
namespace Sys2Proof.Machine

set_option linter.unreachableTactic false
set_option linter.unusedTactic false
set_option linter.tactic.unusedName false

theorem keep_spoilSlot (s : State) (k : Fin 128) :
    Keeps [.locker, .log, .flt] s (spoilSlot s k) := by
  unfold spoilSlot
  repeat' first
    | with_reducible assumption
    | (extract_lets -merge +onlyGivenNames x
       first
       | (refine Keeps.cut (x := x) (fun hx => ?_) ?_; (on_goal 1 => clear_value x)
          (on_goal 2 => (unfold x; clear x)))
       | (refine Keeps.cut (x := x.2) (fun hx => ?_) ?_; (on_goal 1 => clear_value x)
          (on_goal 2 => (unfold x; clear x)))
       | clear_value x)
    | with_reducible apply Keeps.refl
    | with_reducible apply Keeps.ite
    | with_reducible apply Keeps.then_ (keep_logDetect ..)
    | with_reducible apply Keeps.then_ (keep_updSlot ..)
    | decide
    | (beta_reduce; split)

theorem keep_checkTag (s : State) (slot : Fin 128) (u : TagUpsets) :
    Keeps [.locker, .log, .flt] s (checkTag s slot u) := by
  unfold checkTag
  repeat' first
    | with_reducible assumption
    | (extract_lets -merge +onlyGivenNames x
       first
       | (refine Keeps.cut (x := x) (fun hx => ?_) ?_; (on_goal 1 => clear_value x)
          (on_goal 2 => (unfold x; clear x)))
       | (refine Keeps.cut (x := x.2) (fun hx => ?_) ?_; (on_goal 1 => clear_value x)
          (on_goal 2 => (unfold x; clear x)))
       | clear_value x)
    | with_reducible apply Keeps.refl
    | with_reducible apply Keeps.ite
    | with_reducible apply Keeps.then_ (keep_logMasked ..)
    | with_reducible apply Keeps.then_ (keep_updSlot ..)
    | with_reducible apply Keeps.then_ (keep_spoilSlot ..)
    | decide
    | (beta_reduce; split)

theorem keep_checkUse (s : State) (k : Fin 128) (up : TagUpsets) (usages : List Nat) (role : Fin 4) :
    Keeps [.locker, .log, .flt] s (checkUse s k up usages role).2 := by
  unfold checkUse
  repeat' first
    | with_reducible assumption
    | (extract_lets -merge +onlyGivenNames x
       first
       | (refine Keeps.cut (x := x) (fun hx => ?_) ?_; (on_goal 1 => clear_value x)
          (on_goal 2 => (unfold x; clear x)))
       | (refine Keeps.cut (x := x.2) (fun hx => ?_) ?_; (on_goal 1 => clear_value x)
          (on_goal 2 => (unfold x; clear x)))
       | clear_value x)
    | with_reducible apply Keeps.refl
    | with_reducible apply Keeps.ite
    | with_reducible apply Keeps.then_ (keep_checkTag ..)
    | decide
    | split

theorem keep_checkUse_eq {s : State} {k : Fin 128} {up : TagUpsets} {usages : List Nat} {role : Fin 4} {a t} (h :
    checkUse s k up usages role = (a, t)) :
    Keeps [.locker, .log, .flt] s t := by
  have k := keep_checkUse s k up usages role
  rw [h] at k
  exact k

theorem keep_endRole (s : State) (role : Fin 4) (opId : Nat) :
    Keeps [.hostSessions, .hostRest, .fw] s (endRole s role opId) := by
  unfold endRole
  repeat' first
    | with_reducible assumption
    | (extract_lets -merge +onlyGivenNames x
       first
       | (refine Keeps.cut (x := x) (fun hx => ?_) ?_; (on_goal 1 => clear_value x)
          (on_goal 2 => (unfold x; clear x)))
       | (refine Keeps.cut (x := x.2) (fun hx => ?_) ?_; (on_goal 1 => clear_value x)
          (on_goal 2 => (unfold x; clear x)))
       | clear_value x)
    | with_reducible apply Keeps.refl
    | with_reducible apply Keeps.ite
    | with_reducible apply Keeps.then_ (keep_updSession ..)
    | with_reducible apply Keeps.then_ (keep_endSession ..)
    | (with_reducible apply Keeps.foldl; on_goal 2 => intros)
    | decide
    | (beta_reduce; split)

theorem keep_keyGone (s : State) (k : Fin 128) (opId : Nat) :
    Keeps [.txl, .hostSessions, .hostRest, .fw] s (keyGone s k opId) := by
  unfold keyGone
  repeat' first
    | with_reducible assumption
    | (extract_lets -merge +onlyGivenNames x
       first
       | (refine Keeps.cut (x := x) (fun hx => ?_) ?_; (on_goal 1 => clear_value x)
          (on_goal 2 => (unfold x; clear x)))
       | (refine Keeps.cut (x := x.2) (fun hx => ?_) ?_; (on_goal 1 => clear_value x)
          (on_goal 2 => (unfold x; clear x)))
       | clear_value x)
    | with_reducible apply Keeps.refl
    | with_reducible apply Keeps.ite
    | with_reducible apply Keeps.then_ (keep_loadLinkKey ..)
    | with_reducible apply Keeps.then_ (keep_endRole ..)
    | decide
    | split

theorem keep_invalidateSlot (s : State) (k : Fin 128) (opId : Nat) :
    Keeps [.txl, .hostSessions, .hostRest, .locker, .fw] s (invalidateSlot s k opId) := by
  unfold invalidateSlot
  repeat' first
    | with_reducible assumption
    | (extract_lets -merge +onlyGivenNames x
       first
       | (refine Keeps.cut (x := x) (fun hx => ?_) ?_; (on_goal 1 => clear_value x)
          (on_goal 2 => (unfold x; clear x)))
       | (refine Keeps.cut (x := x.2) (fun hx => ?_) ?_; (on_goal 1 => clear_value x)
          (on_goal 2 => (unfold x; clear x)))
       | (have t : _ → State := x; clear t; subst x)
       | (have t : _ → _ → State := x; clear t; subst x)
       | (have t : _ → _ → Display := x; clear t; subst x)
       | clear_value x)
    | with_reducible apply Keeps.refl
    | with_reducible apply Keeps.then_ (keep_updSlot ..)
    | with_reducible apply Keeps.then_ (keep_keyGone ..)
    | decide
    | (beta_reduce; split)

theorem keep_cascade (s : State) (k : Fin 128) (opId : Nat) :
    Keeps [.txl, .hostSessions, .hostRest, .locker, .fw] s (cascade s k opId) := by
  unfold cascade
  repeat' first
    | with_reducible assumption
    | (extract_lets -merge +onlyGivenNames x
       first
       | (refine Keeps.cut (x := x) (fun hx => ?_) ?_; (on_goal 1 => clear_value x)
          (on_goal 2 => (unfold x; clear x)))
       | (refine Keeps.cut (x := x.2) (fun hx => ?_) ?_; (on_goal 1 => clear_value x)
          (on_goal 2 => (unfold x; clear x)))
       | clear_value x)
    | with_reducible apply Keeps.refl
    | with_reducible apply Keeps.ite
    | with_reducible apply Keeps.then_ (keep_updSlot ..)
    | with_reducible apply Keeps.then_ (keep_invalidateSlot ..)
    | (with_reducible apply Keeps.foldl; on_goal 2 => intros)
    | decide
    | (beta_reduce; split)

theorem keep_endInvalidate (s : State) (opId : Nat) :
    Keeps [.hostOps, .hostJournal] s (endInvalidate s opId) := by
  unfold endInvalidate
  repeat' first
    | with_reducible assumption
    | (extract_lets -merge +onlyGivenNames x
       first
       | (refine Keeps.cut (x := x) (fun hx => ?_) ?_; (on_goal 1 => clear_value x)
          (on_goal 2 => (unfold x; clear x)))
       | (refine Keeps.cut (x := x.2) (fun hx => ?_) ?_; (on_goal 1 => clear_value x)
          (on_goal 2 => (unfold x; clear x)))
       | clear_value x)
    | with_reducible apply Keeps.refl
    | with_reducible apply Keeps.ite
    | with_reducible apply Keeps.then_ (keep_resolveOp ..)
    | decide
    | (beta_reduce; split)

theorem keep_invalidateNamed (s : State) (k : Fin 128) (opId : Nat) :
    Keeps [.txl, .hostSessions, .hostOps, .hostJournal, .hostRest, .locker, .fw] s (invalidateNamed s k opId) := by
  unfold invalidateNamed
  repeat' first
    | with_reducible assumption
    | (extract_lets -merge +onlyGivenNames x
       first
       | (refine Keeps.cut (x := x) (fun hx => ?_) ?_; (on_goal 1 => clear_value x)
          (on_goal 2 => (unfold x; clear x)))
       | (refine Keeps.cut (x := x.2) (fun hx => ?_) ?_; (on_goal 1 => clear_value x)
          (on_goal 2 => (unfold x; clear x)))
       | clear_value x)
    | with_reducible apply Keeps.refl
    | with_reducible apply Keeps.then_ (keep_stepDone ..)
    | with_reducible apply Keeps.then_ (keep_invalidateSlot ..)
    | with_reducible apply Keeps.then_ (keep_cascade ..)
    | with_reducible apply Keeps.then_ (keep_endInvalidate ..)
    | decide

theorem keep_slotBoundary (s : State) (k : Fin 128) :
    Keeps [.txl, .hostSessions, .hostOps, .hostJournal, .hostRest, .locker, .fw] s (slotBoundary s k) := by
  unfold slotBoundary
  repeat' first
    | with_reducible assumption
    | (extract_lets -merge +onlyGivenNames x
       first
       | (refine Keeps.cut (x := x) (fun hx => ?_) ?_; (on_goal 1 => clear_value x)
          (on_goal 2 => (unfold x; clear x)))
       | (refine Keeps.cut (x := x.2) (fun hx => ?_) ?_; (on_goal 1 => clear_value x)
          (on_goal 2 => (unfold x; clear x)))
       | clear_value x)
    | with_reducible apply Keeps.refl
    | with_reducible apply Keeps.ite
    | with_reducible apply Keeps.then_ (keep_stepDone ..)
    | with_reducible apply Keeps.then_ (keep_invalidateSlot ..)
    | with_reducible apply Keeps.then_ (keep_cascade ..)
    | with_reducible apply Keeps.then_ (keep_endInvalidate ..)
    | (with_reducible apply Keeps.foldl; on_goal 2 => intros)
    | decide
    | (beta_reduce; split)

theorem keep_runInvalidate (s : State) (opId : Nat) (slot : Nat) :
    Keeps [.txl, .hostSessions, .hostOps, .hostJournal, .hostRest, .locker, .fw] s (runInvalidate s opId slot) := by
  unfold runInvalidate
  repeat' first
    | with_reducible assumption
    | (extract_lets -merge +onlyGivenNames x
       first
       | (refine Keeps.cut (x := x) (fun hx => ?_) ?_; (on_goal 1 => clear_value x)
          (on_goal 2 => (unfold x; clear x)))
       | (refine Keeps.cut (x := x.2) (fun hx => ?_) ?_; (on_goal 1 => clear_value x)
          (on_goal 2 => (unfold x; clear x)))
       | clear_value x)
    | with_reducible apply Keeps.refl
    | with_reducible apply Keeps.ite
    | with_reducible apply Keeps.then_ (keep_updSlot ..)
    | with_reducible apply Keeps.then_ (keep_resolveOp ..)
    | with_reducible apply Keeps.then_ (keep_invalidateNamed ..)
    | decide
    | (beta_reduce; split)

theorem keep_fillSlot (s : State) (k : Fin 128) (a m : Bytes) :
    Keeps [.locker, .log, .flt] s (fillSlot s k a m) := by
  unfold fillSlot
  repeat' first
    | with_reducible assumption
    | (extract_lets -merge +onlyGivenNames x
       first
       | (refine Keeps.cut (x := x) (fun hx => ?_) ?_; (on_goal 1 => clear_value x)
          (on_goal 2 => (unfold x; clear x)))
       | (refine Keeps.cut (x := x.2) (fun hx => ?_) ?_; (on_goal 1 => clear_value x)
          (on_goal 2 => (unfold x; clear x)))
       | clear_value x)
    | with_reducible apply Keeps.refl
    | with_reducible apply Keeps.then_ (keep_clearFaults ..)
    | with_reducible apply Keeps.then_ (keep_updSlot ..)
    | decide

theorem keep_replaced (s t : State) (k : Fin 128) (opId : Nat) :
    Keeps [.txl, .hostSessions, .hostRest, .locker, .fw] t (replaced s t k opId) := by
  unfold replaced
  repeat' first
    | with_reducible assumption
    | (extract_lets -merge +onlyGivenNames x
       first
       | (refine Keeps.cut (x := x) (fun hx => ?_) ?_; (on_goal 1 => clear_value x)
          (on_goal 2 => (unfold x; clear x)))
       | (refine Keeps.cut (x := x.2) (fun hx => ?_) ?_; (on_goal 1 => clear_value x)
          (on_goal 2 => (unfold x; clear x)))
       | clear_value x)
    | with_reducible apply Keeps.refl
    | with_reducible apply Keeps.ite
    | with_reducible apply Keeps.then_ (keep_keyGone ..)
    | with_reducible apply Keeps.then_ (keep_cascade ..)
    | decide
    | split

theorem keep_writeKey (s : State) (k : Fin 128) (a m : Bytes) (opId : Nat) :
    Keeps [.txl, .hostSessions, .hostRest, .locker, .fw, .log, .flt] s (writeKey s k a m opId) := by
  unfold writeKey
  repeat' first
    | with_reducible assumption
    | (extract_lets -merge +onlyGivenNames x
       first
       | (refine Keeps.cut (x := x) (fun hx => ?_) ?_; (on_goal 1 => clear_value x)
          (on_goal 2 => (unfold x; clear x)))
       | (refine Keeps.cut (x := x.2) (fun hx => ?_) ?_; (on_goal 1 => clear_value x)
          (on_goal 2 => (unfold x; clear x)))
       | clear_value x)
    | with_reducible apply Keeps.refl
    | with_reducible apply Keeps.ite
    | with_reducible apply Keeps.then_ (keep_updSlot ..)
    | with_reducible apply Keeps.then_ (keep_loadLinkKey ..)
    | with_reducible apply Keeps.then_ (keep_fillSlot ..)
    | with_reducible apply Keeps.then_ (keep_replaced ..)
    | decide
    | (beta_reduce; split)

theorem keep_runImport (s : State) (opId slot wrapSlot : Nat) (a wrapped : Bytes) (u : Unwrapped) (up : TagUpsets) :
    Keeps [.txl, .hostSessions, .hostOps, .hostJournal, .hostRest, .locker, .fw, .log, .flt] s (runImport s opId
        slot wrapSlot a wrapped u up) := by
  unfold runImport
  repeat' first
    | with_reducible assumption
    | (extract_lets -merge +onlyGivenNames x
       first
       | (refine Keeps.cut (x := x) (fun hx => ?_) ?_; (on_goal 1 => clear_value x)
          (on_goal 2 => (unfold x; clear x)))
       | (refine Keeps.cut (x := x.2) (fun hx => ?_) ?_; (on_goal 1 => clear_value x)
          (on_goal 2 => (unfold x; clear x)))
       | clear_value x)
    | with_reducible apply Keeps.refl
    | with_reducible apply Keeps.ite
    | with_reducible apply Keeps.then_ (keep_useSlot ..)
    | with_reducible apply Keeps.then_ (keep_resolveOp ..)
    | with_reducible apply Keeps.then_ (keep_checkTag ..)
    | with_reducible apply Keeps.then_ (keep_writeKey ..)
    | decide
    | split

theorem keep_runDerive (s : State) (opId : Nat) (role : Fin 4) (parent child : Nat) (a : Bytes) (up : TagUpsets) :
    Keeps [.hostOps, .hostJournal, .locker, .log, .flt] s (runDerive s opId role parent child a up) := by
  unfold runDerive
  repeat' first
    | with_reducible assumption
    | (extract_lets -merge +onlyGivenNames x
       first
       | (refine Keeps.cut (x := x) (fun hx => ?_) ?_; (on_goal 1 => clear_value x)
          (on_goal 2 => (unfold x; clear x)))
       | (refine Keeps.cut (x := x.2) (fun hx => ?_) ?_; (on_goal 1 => clear_value x)
          (on_goal 2 => (unfold x; clear x)))
       | clear_value x)
    | with_reducible apply Keeps.refl
    | with_reducible apply Keeps.ite
    | with_reducible apply Keeps.then_ (keep_updSlot ..)
    | with_reducible apply Keeps.then_ (keep_useSlot ..)
    | with_reducible apply Keeps.then_ (keep_resolveOp ..)
    | with_reducible apply Keeps.then_ (keep_setResult ..)
    | with_reducible apply Keeps.then_ (keep_checkUse ..)
    | with_reducible apply Keeps.then_ (keep_checkUse_eq (by assumption))
    | decide
    | (beta_reduce; split)

theorem keep_endDerive (s : State) (opId : Nat) (parent child : Nat) (a context : Bytes) :
    Keeps [.txl, .hostSessions, .hostRest, .locker, .fw, .log, .flt] s (endDerive s opId parent child a context) := by
  unfold endDerive
  repeat' first
    | with_reducible assumption
    | (extract_lets -merge +onlyGivenNames x
       first
       | (refine Keeps.cut (x := x) (fun hx => ?_) ?_; (on_goal 1 => clear_value x)
          (on_goal 2 => (unfold x; clear x)))
       | (refine Keeps.cut (x := x.2) (fun hx => ?_) ?_; (on_goal 1 => clear_value x)
          (on_goal 2 => (unfold x; clear x)))
       | clear_value x)
    | with_reducible apply Keeps.refl
    | with_reducible apply Keeps.then_ (keep_writeKey ..)
    | decide

theorem keep_signWith (s : State) (alg : Nat) (key msg : Bytes) :
    Keeps [.free] s (signWith s alg key msg).2 := by
  unfold signWith
  repeat' first
    | with_reducible assumption
    | (extract_lets -merge +onlyGivenNames x
       first
       | (refine Keeps.cut (x := x) (fun hx => ?_) ?_; (on_goal 1 => clear_value x)
          (on_goal 2 => (unfold x; clear x)))
       | (refine Keeps.cut (x := x.2) (fun hx => ?_) ?_; (on_goal 1 => clear_value x)
          (on_goal 2 => (unfold x; clear x)))
       | clear_value x)
    | with_reducible apply Keeps.refl
    | with_reducible apply Keeps.ite
    | split
    | with_reducible apply Keeps.upd_free
    | decide

theorem keep_signWith_eq {s : State} {alg : Nat} {key msg : Bytes} {a t} (h : signWith s alg key msg = (a, t)) :
    Keeps [.free] s t := by
  have k := keep_signWith s alg key msg
  rw [h] at k
  exact k

theorem keep_runUse {F : List Part} (s : State) (opId : Nat) (role : Fin 4) (slot : Nat) (up : TagUpsets)
    (usages : List Nat) (out : State → Slot → Bytes → Status × Bytes × State)
    (ho : ∀ t x k, Keeps F t (out t x k).2.2) (hF : ∀ p ∈ ([.hostOps, .locker, .log, .flt] : List Part), p ∈ F) :
    Keeps F s (runUse s opId role slot up usages out) := by
  unfold runUse
  extract_lets k
  split
  · rename_i t e
    extract_lets u r
    have ht : Keeps F s t := (keep_checkUse_eq e).mono fun p hp => hF p ((by decide : ∀ p ∈ ([.locker, .log, .flt] :
        List Part),
      p ∈ ([.hostOps, .locker, .log, .flt] : List Part)) p hp)
    have hu : Keeps F s u := (ht.trans ((keep_updSlot t k _).mono fun p hp => hF p ((by decide :
      ∀ p ∈ ([.locker] : List Part), p ∈ ([.hostOps, .locker, .log, .flt] : List Part)) p hp))).trans
      ((keep_useSlot _ k 1).mono fun p hp => hF p ((by decide :
      ∀ p ∈ ([.locker] : List Part), p ∈ ([.hostOps, .locker, .log, .flt] : List Part)) p hp))
    exact (hu.trans (ho u _ _)).trans ((keep_setResult _ opId _ _).mono fun p hp => hF p ((by decide :
      ∀ p ∈ ([.hostOps] : List Part), p ∈ ([.hostOps, .locker, .log, .flt] : List Part)) p hp))
  · rename_i st t _ e
    have ht : Keeps F s t := (keep_checkUse_eq e).mono fun p hp => hF p ((by decide : ∀ p ∈ ([.locker, .log, .flt] :
        List Part),
      p ∈ ([.hostOps, .locker, .log, .flt] : List Part)) p hp)
    exact ht.trans ((keep_setResult _ opId _ _).mono fun p hp => hF p ((by decide :
      ∀ p ∈ ([.hostOps] : List Part), p ∈ ([.hostOps, .locker, .log, .flt] : List Part)) p hp))

theorem keep_runAttest (s : State) (opId : Nat) (nonce : Bytes) (up : TagUpsets) :
    Keeps [.free, .hostOps, .locker, .log, .flt] s (runAttest s opId nonce up) := by
  unfold runAttest
  repeat' first
    | with_reducible assumption
    | (extract_lets -merge +onlyGivenNames x
       first
       | (refine Keeps.cut (x := x) (fun hx => ?_) ?_; (on_goal 1 => clear_value x)
          (on_goal 2 => (unfold x; clear x)))
       | (refine Keeps.cut (x := x.2) (fun hx => ?_) ?_; (on_goal 1 => clear_value x)
          (on_goal 2 => (unfold x; clear x)))
       | clear_value x)
    | with_reducible apply Keeps.refl
    | with_reducible apply Keeps.ite
    | with_reducible apply Keeps.then_ (keep_updSlot ..)
    | with_reducible apply Keeps.then_ (keep_useSlot ..)
    | with_reducible apply Keeps.then_ (keep_setResult ..)
    | with_reducible apply Keeps.then_ (keep_checkTag ..)
    | with_reducible apply Keeps.then_ (keep_signWith ..)
    | decide
    | (beta_reduce; split)

theorem keep_eraseKeys (s : State) :
    Keeps [.txl, .locker] s (eraseKeys s) := by
  unfold eraseKeys
  repeat' first
    | with_reducible assumption
    | (extract_lets -merge +onlyGivenNames x
       first
       | (refine Keeps.cut (x := x) (fun hx => ?_) ?_; (on_goal 1 => clear_value x)
          (on_goal 2 => (unfold x; clear x)))
       | (refine Keeps.cut (x := x.2) (fun hx => ?_) ?_; (on_goal 1 => clear_value x)
          (on_goal 2 => (unfold x; clear x)))
       | clear_value x)
    | with_reducible apply Keeps.refl
    | with_reducible apply Keeps.ite
    | with_reducible apply Keeps.then_ (keep_updSlot ..)
    | with_reducible apply Keeps.then_ (keep_loadLinkKey ..)
    | (with_reducible apply Keeps.foldl; on_goal 2 => intros)
    | decide
    | (beta_reduce; split)

theorem keep_abortKeyOps (s : State) :
    Keeps [.outlet, .hostOps, .hostJournal, .fw] s (abortKeyOps s) := by
  unfold abortKeyOps
  repeat' first
    | with_reducible assumption
    | (extract_lets -merge +onlyGivenNames x
       first
       | (refine Keeps.cut (x := x) (fun hx => ?_) ?_; (on_goal 1 => clear_value x)
          (on_goal 2 => (unfold x; clear x)))
       | (refine Keeps.cut (x := x.2) (fun hx => ?_) ?_; (on_goal 1 => clear_value x)
          (on_goal 2 => (unfold x; clear x)))
       | clear_value x)
    | with_reducible apply Keeps.refl
    | with_reducible apply Keeps.ite
    | with_reducible apply Keeps.then_ (keep_setPilots ..)
    | with_reducible apply Keeps.then_ (keep_updFw ..)
    | with_reducible apply Keeps.then_ (keep_updJrn ..)
    | with_reducible apply Keeps.then_ (keep_updOp ..)
    | (with_reducible apply Keeps.foldl; on_goal 2 => intros)
    | decide
    | (beta_reduce; split)

end Sys2Proof.Machine
end

