-- ==== Sys2Proof/Laws/FrameStage.lean ====
section
/-!
SUPPORT. What each operation and command of Machine/Stage.lean leaves unchanged.
-/
namespace Sys2Proof.Machine

set_option linter.unreachableTactic false
set_option linter.unusedTactic false
set_option linter.tactic.unusedName false

theorem keep_beginStart (s : State) (g : Fin 8) :
    Keeps [.sxChannel, .sxCell, .sxStage, .sxAux, .sxLaw, .lkOut, .lkRest, .log, .flt] s (beginStart s g) := by
  unfold beginStart
  repeat' first
    | with_reducible assumption
    | (extract_lets -merge +onlyGivenNames x
       first
       | (refine Keeps.cut (x := x) (fun hx => ?_) ?_; (on_goal 1 => clear_value x)
          (on_goal 2 => (unfold x; clear x)))
       | (refine Keeps.cut (x := x.2) (fun hx => ?_) ?_; (on_goal 1 => clear_value x)
          (on_goal 2 => (unfold x; clear x)))
       | (have t : Lookout := x; clear t; subst x)
       | clear_value x)
    | with_reducible apply Keeps.refl
    | with_reducible apply Keeps.ite
    | with_reducible apply Keeps.then_ (keep_updStage ..)
    | with_reducible apply Keeps.then_ (keep_updAux ..)
    | with_reducible apply Keeps.then_ (keep_driveKinds ..)
    | with_reducible apply Keeps.then_ (keep_startCells ..)
    | with_reducible apply Keeps.then_ (keep_clearLaws ..)
    | (beta_reduce; split)
    | with_reducible apply Keeps.upd_lk
    | (with_reducible apply Or.inl; decide)
    | (with_reducible apply Or.inr; with_reducible rfl)
    | (with_reducible apply Or.inr; rfl)
    | decide

theorem keep_startRefusedTo (s : State) (g : Fin 8) :
    Keeps [.sxChannel, .sxCell, .sxStage, .sxAux, .outlet, .rdr, .lkOut, .lkOutlet, .lkRest, .log, .flt] s
        (startRefusedTo s g) := by
  unfold startRefusedTo
  repeat' first
    | with_reducible assumption
    | (extract_lets -merge +onlyGivenNames x
       first
       | (refine Keeps.cut (x := x) (fun hx => ?_) ?_; (on_goal 1 => clear_value x)
          (on_goal 2 => (unfold x; clear x)))
       | (refine Keeps.cut (x := x.2) (fun hx => ?_) ?_; (on_goal 1 => clear_value x)
          (on_goal 2 => (unfold x; clear x)))
       | clear_value x)
    | with_reducible apply Keeps.refl
    | with_reducible apply Keeps.ite
    | with_reducible apply Keeps.then_ (keep_outletFaultBare ..)
    | (with_reducible apply Keeps.foldl; on_goal 2 => intros)
    | decide
    | (beta_reduce; split)

theorem keep_startStage (s : State) (g : Fin 8) :
    Keeps [.sxChannel, .sxCell, .sxStage, .sxAux, .sxLaw, .sxRest, .outlet, .rdr, .lkOut, .lkOutlet, .lkRest, .wrk,
        .log, .flt] s (startStage s g) := by
  unfold startStage
  repeat' first
    | with_reducible assumption
    | (extract_lets -merge +onlyGivenNames x
       first
       | (refine Keeps.cut (x := x) (fun hx => ?_) ?_; (on_goal 1 => clear_value x)
          (on_goal 2 => (unfold x; clear x)))
       | (refine Keeps.cut (x := x.2) (fun hx => ?_) ?_; (on_goal 1 => clear_value x)
          (on_goal 2 => (unfold x; clear x)))
       | clear_value x)
    | with_reducible apply Keeps.refl
    | with_reducible apply Keeps.then_ (keep_updStage ..)
    | with_reducible apply Keeps.withStages
    | with_reducible apply Keeps.then_ (keep_beginStart ..)
    | with_reducible apply Keeps.then_ (keep_startRefusedTo ..)
    | decide
    | (beta_reduce; split)

theorem keep_failStart (s : State) (g : Fin 8) (fail : Nat) :
    Keeps [.sxChannel, .sxCell, .sxStage, .sxAux, .sxRest, .outlet, .rdr, .lkOut, .lkOutlet, .lkRest, .wrk, .log,
        .flt] s (failStart s g fail) := by
  unfold failStart
  repeat' first
    | with_reducible assumption
    | (extract_lets -merge +onlyGivenNames x
       first
       | (refine Keeps.cut (x := x) (fun hx => ?_) ?_; (on_goal 1 => clear_value x)
          (on_goal 2 => (unfold x; clear x)))
       | (refine Keeps.cut (x := x.2) (fun hx => ?_) ?_; (on_goal 1 => clear_value x)
          (on_goal 2 => (unfold x; clear x)))
       | clear_value x)
    | with_reducible apply Keeps.refl
    | with_reducible apply Keeps.then_ (keep_updLko ..)
    | with_reducible apply Keeps.then_ (keep_stageOff ..)
    | with_reducible apply Keeps.then_ (keep_afeDrop ..)
    | with_reducible apply Keeps.withStages
    | (with_reducible apply Keeps.foldl; on_goal 2 => intros)
    | decide

theorem keep_outletConfirmed (s : State) (g : Fin 8) (o : Fin 2) :
    Keeps [.sxStage, .sxAux, .outlet] s (outletConfirmed s g o) := by
  unfold outletConfirmed
  repeat' first
    | with_reducible assumption
    | (extract_lets -merge +onlyGivenNames x
       first
       | (refine Keeps.cut (x := x) (fun hx => ?_) ?_; (on_goal 1 => clear_value x)
          (on_goal 2 => (unfold x; clear x)))
       | (refine Keeps.cut (x := x.2) (fun hx => ?_) ?_; (on_goal 1 => clear_value x)
          (on_goal 2 => (unfold x; clear x)))
       | clear_value x)
    | with_reducible apply Keeps.refl
    | with_reducible apply Keeps.then_ (keep_updStage ..)
    | with_reducible apply Keeps.then_ (keep_updAux ..)
    | with_reducible apply Keeps.then_ (keep_updOutlet ..)
    | with_reducible apply Keeps.then_ (keep_enter ..)
    | decide
    | (beta_reduce; split)

theorem keep_afeAllOff (s : State) :
    Keeps [.lkOut, .lkRest] s (afeAllOff s) := by
  unfold afeAllOff
  repeat' first
    | with_reducible assumption
    | (extract_lets -merge +onlyGivenNames x
       first
       | (refine Keeps.cut (x := x) (fun hx => ?_) ?_; (on_goal 1 => clear_value x)
          (on_goal 2 => (unfold x; clear x)))
       | (refine Keeps.cut (x := x.2) (fun hx => ?_) ?_; (on_goal 1 => clear_value x)
          (on_goal 2 => (unfold x; clear x)))
       | (have t : Lookout := x; clear t; subst x)
       | clear_value x)
    | with_reducible apply Keeps.refl
    | with_reducible apply Keeps.ite
    | with_reducible apply Keeps.then_ (keep_driveKinds ..)
    | (beta_reduce; split)
    | with_reducible apply Keeps.upd_lk
    | (with_reducible apply Or.inl; decide)
    | (with_reducible apply Or.inr; with_reducible rfl)
    | (with_reducible apply Or.inr; rfl)
    | decide

theorem keep_endRamp (s : State) (g : Fin 8) :
    Keeps [.sxChannel, .sxCell, .sxStage, .sxAux, .outlet, .lkOut, .lkRest] s (endRamp s g) := by
  unfold endRamp
  repeat' first
    | with_reducible assumption
    | (extract_lets -merge +onlyGivenNames x
       first
       | (refine Keeps.cut (x := x) (fun hx => ?_) ?_; (on_goal 1 => clear_value x)
          (on_goal 2 => (unfold x; clear x)))
       | (refine Keeps.cut (x := x.2) (fun hx => ?_) ?_; (on_goal 1 => clear_value x)
          (on_goal 2 => (unfold x; clear x)))
       | clear_value x)
    | with_reducible apply Keeps.refl
    | with_reducible apply Keeps.ite
    | with_reducible apply Keeps.then_ (keep_updStage ..)
    | with_reducible apply Keeps.then_ (keep_parkChannels ..)
    | with_reducible apply Keeps.then_ (keep_stageOff ..)
    | with_reducible apply Keeps.then_ (keep_enter ..)
    | with_reducible apply Keeps.then_ (keep_afeAllOff ..)
    | (with_reducible apply Keeps.foldl; on_goal 2 => intros)
    | decide
    | (beta_reduce; split)

theorem keep_loseHelm (s : State) (g : Fin 8) :
    Keeps [.sxChannel, .sxCell, .sxStage, .sxAux, .lkOut, .lkRest] s (loseHelm s g) := by
  unfold loseHelm
  repeat' first
    | with_reducible assumption
    | (extract_lets -merge +onlyGivenNames x
       first
       | (refine Keeps.cut (x := x) (fun hx => ?_) ?_; (on_goal 1 => clear_value x)
          (on_goal 2 => (unfold x; clear x)))
       | (refine Keeps.cut (x := x.2) (fun hx => ?_) ?_; (on_goal 1 => clear_value x)
          (on_goal 2 => (unfold x; clear x)))
       | clear_value x)
    | with_reducible apply Keeps.refl
    | with_reducible apply Keeps.ite
    | with_reducible apply Keeps.then_ (keep_updStage ..)
    | with_reducible apply Keeps.then_ (keep_haltStage ..)
    | decide
    | (beta_reduce; split)

theorem keep_ageShare (s : State) :
    Keeps [.sxChannel, .sxCell, .sxStage, .sxAux, .sxRest, .outlet, .rdr, .lkOut, .lkOutlet, .lkRest, .wrk, .log,
        .flt] s (ageShare s) := by
  unfold ageShare
  repeat' first
    | with_reducible assumption
    | (extract_lets -merge +onlyGivenNames x
       first
       | (refine Keeps.cut (x := x) (fun hx => ?_) ?_; (on_goal 1 => clear_value x)
          (on_goal 2 => (unfold x; clear x)))
       | (refine Keeps.cut (x := x.2) (fun hx => ?_) ?_; (on_goal 1 => clear_value x)
          (on_goal 2 => (unfold x; clear x)))
       | (have t : Sextant := x; clear t; subst x)
       | clear_value x)
    | with_reducible apply Keeps.refl
    | with_reducible apply Keeps.ite
    | with_reducible apply Keeps.withStages
    | with_reducible apply Keeps.then_ (keep_loseHelm ..)
    | (with_reducible apply Keeps.foldl; on_goal 2 => intros)
    | (beta_reduce; split)
    | with_reducible apply Keeps.upd_sx
    | (with_reducible apply Or.inl; decide)
    | (with_reducible apply Or.inr; with_reducible rfl)
    | (with_reducible apply Or.inr; rfl)
    | decide

theorem frame_stageStart (g : Fin 8) :
    Kept [.sxChannel, .sxCell, .sxStage, .sxAux, .sxLaw, .sxRest, .outlet, .rdr, .lkOut, .lkOutlet, .lkRest, .wrk,
        .log, .flt] (.stageStart g) := by
  intro s s' e
  change execStageStart g s = .next s' at e
  unfold execStageStart at e
  injection e with e
  subst e
  repeat' first
    | with_reducible assumption
    | (extract_lets -merge +onlyGivenNames x
       first
       | (refine Keeps.cut (x := x) (fun hx => ?_) ?_; (on_goal 1 => clear_value x)
          (on_goal 2 => (unfold x; clear x)))
       | (refine Keeps.cut (x := x.2) (fun hx => ?_) ?_; (on_goal 1 => clear_value x)
          (on_goal 2 => (unfold x; clear x)))
       | clear_value x)
    | with_reducible apply Keeps.refl
    | with_reducible apply Keeps.then_ (keep_startStage ..)
    | decide

theorem frame_stageStop (g : Fin 8) :
    Kept [.sxChannel, .sxCell, .sxStage, .sxAux, .sxRest, .outlet, .rdr, .lkOut, .lkOutlet, .lkRest, .wrk, .log,
        .flt] (.stageStop g) := by
  intro s s' e
  change execStageStop g s = .next s' at e
  unfold execStageStop at e
  injection e with e
  subst e
  repeat' first
    | with_reducible assumption
    | (extract_lets -merge +onlyGivenNames x
       first
       | (refine Keeps.cut (x := x) (fun hx => ?_) ?_; (on_goal 1 => clear_value x)
          (on_goal 2 => (unfold x; clear x)))
       | (refine Keeps.cut (x := x.2) (fun hx => ?_) ?_; (on_goal 1 => clear_value x)
          (on_goal 2 => (unfold x; clear x)))
       | clear_value x)
    | with_reducible apply Keeps.refl
    | with_reducible apply Keeps.then_ (keep_haltStage ..)
    | with_reducible apply Keeps.withStages
    | decide

theorem frame_vehicleVoltageDisagree (g : Fin 8) :
    Kept [.sxChannel, .sxCell, .sxStage, .sxAux, .sxRest, .outlet, .rdr, .lkOut, .lkOutlet, .lkRest, .wrk, .log,
        .flt] (.vehicleVoltageDisagree g) := by
  intro s s' e
  change execVehicleVoltageDisagree g s = .next s' at e
  unfold execVehicleVoltageDisagree at e
  injection e with e
  subst e
  repeat' first
    | with_reducible assumption
    | (extract_lets -merge +onlyGivenNames x
       first
       | (refine Keeps.cut (x := x) (fun hx => ?_) ?_; (on_goal 1 => clear_value x)
          (on_goal 2 => (unfold x; clear x)))
       | (refine Keeps.cut (x := x.2) (fun hx => ?_) ?_; (on_goal 1 => clear_value x)
          (on_goal 2 => (unfold x; clear x)))
       | clear_value x)
    | with_reducible apply Keeps.refl
    | with_reducible apply Keeps.ite
    | with_reducible apply Keeps.then_ (keep_failStart ..)
    | decide
    | split

theorem frame_vehicleVoltageForward (o : Fin 2) (mV : Int) :
    Kept [.outlet] (.vehicleVoltageForward o mV) := by
  intro s s' e
  change execVehicleVoltageForward o mV s = .next s' at e
  unfold execVehicleVoltageForward at e
  injection e with e
  subst e
  repeat' first
    | with_reducible assumption
    | (extract_lets -merge +onlyGivenNames x
       first
       | (refine Keeps.cut (x := x) (fun hx => ?_) ?_; (on_goal 1 => clear_value x)
          (on_goal 2 => (unfold x; clear x)))
       | (refine Keeps.cut (x := x.2) (fun hx => ?_) ?_; (on_goal 1 => clear_value x)
          (on_goal 2 => (unfold x; clear x)))
       | clear_value x)
    | with_reducible apply Keeps.refl
    | with_reducible apply Keeps.then_ (keep_updOutlet ..)
    | decide

theorem frame_prechargeComplete (g : Fin 8) :
    Kept [.sxStage] (.prechargeComplete g) := by
  intro s s' e
  change execPrechargeComplete g s = .next s' at e
  unfold execPrechargeComplete at e
  injection e with e
  subst e
  repeat' first
    | with_reducible assumption
    | (extract_lets -merge +onlyGivenNames x
       first
       | (refine Keeps.cut (x := x) (fun hx => ?_) ?_; (on_goal 1 => clear_value x)
          (on_goal 2 => (unfold x; clear x)))
       | (refine Keeps.cut (x := x.2) (fun hx => ?_) ?_; (on_goal 1 => clear_value x)
          (on_goal 2 => (unfold x; clear x)))
       | clear_value x)
    | with_reducible apply Keeps.refl
    | with_reducible apply Keeps.ite
    | with_reducible apply Keeps.then_ (keep_updStage ..)
    | decide
    | (beta_reduce; split)

theorem frame_closeWaitBandLost (g : Fin 8) :
    Kept [.sxStage, .lkOutlet] (.closeWaitBandLost g) := by
  intro s s' e
  change execCloseWaitBandLost g s = .next s' at e
  unfold execCloseWaitBandLost at e
  injection e with e
  subst e
  repeat' first
    | with_reducible assumption
    | (extract_lets -merge +onlyGivenNames x
       first
       | (refine Keeps.cut (x := x) (fun hx => ?_) ?_; (on_goal 1 => clear_value x)
          (on_goal 2 => (unfold x; clear x)))
       | (refine Keeps.cut (x := x.2) (fun hx => ?_) ?_; (on_goal 1 => clear_value x)
          (on_goal 2 => (unfold x; clear x)))
       | clear_value x)
    | with_reducible apply Keeps.refl
    | with_reducible apply Keeps.ite
    | with_reducible apply Keeps.then_ (keep_updStage ..)
    | with_reducible apply Keeps.then_ (keep_updLko ..)
    | (with_reducible apply Keeps.foldl; on_goal 2 => intros)
    | decide
    | (beta_reduce; split)

theorem frame_preTimeoutExpiry (g : Fin 8) :
    Kept [.sxChannel, .sxCell, .sxStage, .sxAux, .sxRest, .outlet, .rdr, .lkOut, .lkOutlet, .lkRest, .wrk, .log,
        .flt] (.preTimeoutExpiry g) := by
  intro s s' e
  change execPreTimeoutExpiry g s = .next s' at e
  unfold execPreTimeoutExpiry at e
  injection e with e
  subst e
  repeat' first
    | with_reducible assumption
    | (extract_lets -merge +onlyGivenNames x
       first
       | (refine Keeps.cut (x := x) (fun hx => ?_) ?_; (on_goal 1 => clear_value x)
          (on_goal 2 => (unfold x; clear x)))
       | (refine Keeps.cut (x := x.2) (fun hx => ?_) ?_; (on_goal 1 => clear_value x)
          (on_goal 2 => (unfold x; clear x)))
       | clear_value x)
    | with_reducible apply Keeps.refl
    | with_reducible apply Keeps.ite
    | with_reducible apply Keeps.then_ (keep_failStart ..)
    | decide
    | split

theorem frame_closeRefused (g : Fin 8) :
    Kept [.sxChannel, .sxCell, .sxStage, .sxAux, .sxRest, .outlet, .rdr, .lkOut, .lkOutlet, .lkRest, .wrk, .log,
        .flt] (.closeRefused g) := by
  intro s s' e
  change execCloseRefused g s = .next s' at e
  unfold execCloseRefused at e
  injection e with e
  subst e
  repeat' first
    | with_reducible assumption
    | (extract_lets -merge +onlyGivenNames x
       first
       | (refine Keeps.cut (x := x) (fun hx => ?_) ?_; (on_goal 1 => clear_value x)
          (on_goal 2 => (unfold x; clear x)))
       | (refine Keeps.cut (x := x.2) (fun hx => ?_) ?_; (on_goal 1 => clear_value x)
          (on_goal 2 => (unfold x; clear x)))
       | clear_value x)
    | with_reducible apply Keeps.refl
    | with_reducible apply Keeps.ite
    | with_reducible apply Keeps.then_ (keep_failStart ..)
    | decide
    | split

theorem frame_contactorsConfirmed (g : Fin 8) :
    Kept [.sxCell, .sxStage, .sxAux, .outlet, .lkOut] (.contactorsConfirmed g) := by
  intro s s' e
  change execContactorsConfirmed g s = .next s' at e
  unfold execContactorsConfirmed at e
  injection e with e
  subst e
  repeat' first
    | with_reducible assumption
    | (extract_lets -merge +onlyGivenNames x
       first
       | (refine Keeps.cut (x := x) (fun hx => ?_) ?_; (on_goal 1 => clear_value x)
          (on_goal 2 => (unfold x; clear x)))
       | (refine Keeps.cut (x := x.2) (fun hx => ?_) ?_; (on_goal 1 => clear_value x)
          (on_goal 2 => (unfold x; clear x)))
       | clear_value x)
    | with_reducible apply Keeps.refl
    | with_reducible apply Keeps.ite
    | with_reducible apply Keeps.then_ (keep_updStage ..)
    | with_reducible apply Keeps.then_ (keep_setFeedback ..)
    | with_reducible apply Keeps.then_ (keep_reshare ..)
    | with_reducible apply Keeps.then_ (keep_outletConfirmed ..)
    | (with_reducible apply Keeps.foldl; on_goal 2 => intros)
    | decide
    | (beta_reduce; split)

theorem frame_noSinkExit (g : Fin 8) :
    Kept [.sxStage] (.noSinkExit g) := by
  intro s s' e
  change execNoSinkExit g s = .next s' at e
  unfold execNoSinkExit at e
  injection e with e
  subst e
  repeat' first
    | with_reducible assumption
    | (extract_lets -merge +onlyGivenNames x
       first
       | (refine Keeps.cut (x := x) (fun hx => ?_) ?_; (on_goal 1 => clear_value x)
          (on_goal 2 => (unfold x; clear x)))
       | (refine Keeps.cut (x := x.2) (fun hx => ?_) ?_; (on_goal 1 => clear_value x)
          (on_goal 2 => (unfold x; clear x)))
       | clear_value x)
    | with_reducible apply Keeps.refl
    | with_reducible apply Keeps.ite
    | with_reducible apply Keeps.then_ (keep_updStage ..)
    | decide
    | (beta_reduce; split)

theorem frame_reverseCurrentLatch (g : Fin 8) :
    Kept [.sxChannel, .sxCell, .sxStage, .sxAux, .sxRest, .outlet, .rdr, .lkOut, .lkOutlet, .lkRest, .wrk, .log,
        .flt] (.reverseCurrentLatch g) := by
  intro s s' e
  change execReverseCurrentLatch g s = .next s' at e
  unfold execReverseCurrentLatch at e
  injection e with e
  subst e
  repeat' first
    | with_reducible assumption
    | (extract_lets -merge +onlyGivenNames x
       first
       | (refine Keeps.cut (x := x) (fun hx => ?_) ?_; (on_goal 1 => clear_value x)
          (on_goal 2 => (unfold x; clear x)))
       | (refine Keeps.cut (x := x.2) (fun hx => ?_) ?_; (on_goal 1 => clear_value x)
          (on_goal 2 => (unfold x; clear x)))
       | clear_value x)
    | with_reducible apply Keeps.refl
    | with_reducible apply Keeps.ite
    | with_reducible apply Keeps.then_ (keep_latchAndTell ..)
    | decide
    | split

theorem frame_afe3PrechargeComplete (g : Fin 8) :
    Kept [.sxStage, .sxAux] (.afe3PrechargeComplete g) := by
  intro s s' e
  change execAfe3PrechargeComplete g s = .next s' at e
  unfold execAfe3PrechargeComplete at e
  injection e with e
  subst e
  repeat' first
    | with_reducible assumption
    | (extract_lets -merge +onlyGivenNames x
       first
       | (refine Keeps.cut (x := x) (fun hx => ?_) ?_; (on_goal 1 => clear_value x)
          (on_goal 2 => (unfold x; clear x)))
       | (refine Keeps.cut (x := x.2) (fun hx => ?_) ?_; (on_goal 1 => clear_value x)
          (on_goal 2 => (unfold x; clear x)))
       | clear_value x)
    | with_reducible apply Keeps.refl
    | with_reducible apply Keeps.ite
    | with_reducible apply Keeps.then_ (keep_updStage ..)
    | with_reducible apply Keeps.then_ (keep_updAux ..)
    | decide
    | (beta_reduce; split)

theorem frame_afe3AutoStart (g : Fin 8) :
    Kept [.sxChannel, .sxCell, .sxStage, .sxAux, .sxLaw, .sxRest, .outlet, .rdr, .lkOut, .lkOutlet, .lkRest, .wrk,
        .log, .flt] (.afe3AutoStart g) := by
  intro s s' e
  change execAfe3AutoStart g s = .next s' at e
  unfold execAfe3AutoStart at e
  injection e with e
  subst e
  repeat' first
    | with_reducible assumption
    | (extract_lets -merge +onlyGivenNames x
       first
       | (refine Keeps.cut (x := x) (fun hx => ?_) ?_; (on_goal 1 => clear_value x)
          (on_goal 2 => (unfold x; clear x)))
       | (refine Keeps.cut (x := x.2) (fun hx => ?_) ?_; (on_goal 1 => clear_value x)
          (on_goal 2 => (unfold x; clear x)))
       | clear_value x)
    | with_reducible apply Keeps.refl
    | with_reducible apply Keeps.ite
    | with_reducible apply Keeps.then_ (keep_startStage ..)
    | decide
    | split

theorem frame_afe3VminReached (g : Fin 8) :
    Kept [.lkOut, .lkRest] (.afe3VminReached g) := by
  intro s s' e
  change execAfe3VminReached g s = .next s' at e
  unfold execAfe3VminReached at e
  injection e with e
  subst e
  repeat' first
    | with_reducible assumption
    | (extract_lets -merge +onlyGivenNames x
       first
       | (refine Keeps.cut (x := x) (fun hx => ?_) ?_; (on_goal 1 => clear_value x)
          (on_goal 2 => (unfold x; clear x)))
       | (refine Keeps.cut (x := x.2) (fun hx => ?_) ?_; (on_goal 1 => clear_value x)
          (on_goal 2 => (unfold x; clear x)))
       | (have t : Lookout := x; clear t; subst x)
       | clear_value x)
    | with_reducible apply Keeps.refl
    | with_reducible apply Keeps.ite
    | with_reducible apply Keeps.then_ (keep_driveKinds ..)
    | split
    | with_reducible apply Keeps.upd_lk
    | (with_reducible apply Or.inl; decide)
    | (with_reducible apply Or.inr; with_reducible rfl)
    | (with_reducible apply Or.inr; rfl)
    | decide

theorem frame_acMainConfirmed  :
    Kept [.lkOut, .lkRest] .acMainConfirmed := by
  intro s s' e
  change execAcMainConfirmed s = .next s' at e
  unfold execAcMainConfirmed at e
  injection e with e
  subst e
  repeat' first
    | with_reducible assumption
    | (extract_lets -merge +onlyGivenNames x
       first
       | (refine Keeps.cut (x := x) (fun hx => ?_) ?_; (on_goal 1 => clear_value x)
          (on_goal 2 => (unfold x; clear x)))
       | (refine Keeps.cut (x := x.2) (fun hx => ?_) ?_; (on_goal 1 => clear_value x)
          (on_goal 2 => (unfold x; clear x)))
       | (have t : Lookout := x; clear t; subst x)
       | clear_value x)
    | with_reducible apply Keeps.refl
    | with_reducible apply Keeps.ite
    | with_reducible apply Keeps.then_ (keep_driveKinds ..)
    | split
    | with_reducible apply Keeps.upd_lk
    | (with_reducible apply Or.inl; decide)
    | (with_reducible apply Or.inr; with_reducible rfl)
    | (with_reducible apply Or.inr; rfl)
    | decide

theorem frame_afe3AutoStop (g : Fin 8) :
    Kept [.sxChannel, .sxCell, .sxStage, .sxAux, .sxRest, .outlet, .rdr, .lkOut, .lkOutlet, .lkRest, .wrk, .log,
        .flt] (.afe3AutoStop g) := by
  intro s s' e
  change execAfe3AutoStop g s = .next s' at e
  unfold execAfe3AutoStop at e
  injection e with e
  subst e
  repeat' first
    | with_reducible assumption
    | (extract_lets -merge +onlyGivenNames x
       first
       | (refine Keeps.cut (x := x) (fun hx => ?_) ?_; (on_goal 1 => clear_value x)
          (on_goal 2 => (unfold x; clear x)))
       | (refine Keeps.cut (x := x.2) (fun hx => ?_) ?_; (on_goal 1 => clear_value x)
          (on_goal 2 => (unfold x; clear x)))
       | clear_value x)
    | with_reducible apply Keeps.refl
    | with_reducible apply Keeps.ite
    | with_reducible apply Keeps.then_ (keep_haltStage ..)
    | with_reducible apply Keeps.withStages
    | decide
    | (beta_reduce; split)

theorem frame_rampDownComplete (g : Fin 8) :
    Kept [.sxChannel, .sxCell, .sxStage, .sxAux, .sxRest, .outlet, .rdr, .lkOut, .lkOutlet, .lkRest, .wrk, .log,
        .flt] (.rampDownComplete g) := by
  intro s s' e
  change execRampDownComplete g s = .next s' at e
  unfold execRampDownComplete at e
  injection e with e
  subst e
  repeat' first
    | with_reducible assumption
    | (extract_lets -merge +onlyGivenNames x
       first
       | (refine Keeps.cut (x := x) (fun hx => ?_) ?_; (on_goal 1 => clear_value x)
          (on_goal 2 => (unfold x; clear x)))
       | (refine Keeps.cut (x := x.2) (fun hx => ?_) ?_; (on_goal 1 => clear_value x)
          (on_goal 2 => (unfold x; clear x)))
       | clear_value x)
    | with_reducible apply Keeps.refl
    | with_reducible apply Keeps.ite
    | with_reducible apply Keeps.withStages
    | with_reducible apply Keeps.then_ (keep_endRamp ..)
    | decide
    | (beta_reduce; split)

theorem frame_dischargeRequest (g : Fin 8) :
    Kept [.sxChannel, .sxCell, .sxStage, .sxAux, .sxRest, .outlet, .rdr, .lkOut, .lkOutlet, .lkRest, .wrk, .log,
        .flt] (.dischargeRequest g) := by
  intro s s' e
  change execDischargeRequest g s = .next s' at e
  unfold execDischargeRequest at e
  injection e with e
  subst e
  repeat' first
    | with_reducible assumption
    | (extract_lets -merge +onlyGivenNames x
       first
       | (refine Keeps.cut (x := x) (fun hx => ?_) ?_; (on_goal 1 => clear_value x)
          (on_goal 2 => (unfold x; clear x)))
       | (refine Keeps.cut (x := x.2) (fun hx => ?_) ?_; (on_goal 1 => clear_value x)
          (on_goal 2 => (unfold x; clear x)))
       | clear_value x)
    | with_reducible apply Keeps.refl
    | with_reducible apply Keeps.ite
    | with_reducible apply Keeps.then_ (keep_updStage ..)
    | with_reducible apply Keeps.then_ (keep_reshare ..)
    | with_reducible apply Keeps.then_ (keep_stageOff ..)
    | with_reducible apply Keeps.withStages
    | decide
    | (beta_reduce; split)

theorem frame_dischargeComplete (g : Fin 8) :
    Kept [.sxChannel, .sxCell, .sxStage, .sxAux, .sxRest, .outlet, .rdr, .lkOut, .lkOutlet, .lkRest, .wrk, .log,
        .flt] (.dischargeComplete g) := by
  intro s s' e
  change execDischargeComplete g s = .next s' at e
  unfold execDischargeComplete at e
  injection e with e
  subst e
  repeat' first
    | with_reducible assumption
    | (extract_lets -merge +onlyGivenNames x
       first
       | (refine Keeps.cut (x := x) (fun hx => ?_) ?_; (on_goal 1 => clear_value x)
          (on_goal 2 => (unfold x; clear x)))
       | (refine Keeps.cut (x := x.2) (fun hx => ?_) ?_; (on_goal 1 => clear_value x)
          (on_goal 2 => (unfold x; clear x)))
       | clear_value x)
    | with_reducible apply Keeps.refl
    | with_reducible apply Keeps.ite
    | with_reducible apply Keeps.then_ (keep_stageOff ..)
    | with_reducible apply Keeps.withStages
    | decide
    | (beta_reduce; split)

theorem frame_dischTExpiry (g : Fin 8) :
    Kept [.sxChannel, .sxCell, .sxStage, .sxAux, .sxRest, .outlet, .rdr, .lkOut, .lkOutlet, .lkRest, .wrk, .log,
        .flt] (.dischTExpiry g) := by
  intro s s' e
  change execDischTExpiry g s = .next s' at e
  unfold execDischTExpiry at e
  injection e with e
  subst e
  repeat' first
    | with_reducible assumption
    | (extract_lets -merge +onlyGivenNames x
       first
       | (refine Keeps.cut (x := x) (fun hx => ?_) ?_; (on_goal 1 => clear_value x)
          (on_goal 2 => (unfold x; clear x)))
       | (refine Keeps.cut (x := x.2) (fun hx => ?_) ?_; (on_goal 1 => clear_value x)
          (on_goal 2 => (unfold x; clear x)))
       | clear_value x)
    | with_reducible apply Keeps.refl
    | with_reducible apply Keeps.ite
    | with_reducible apply Keeps.then_ (keep_stageOff ..)
    | with_reducible apply Keeps.withStages
    | decide
    | (beta_reduce; split)

theorem frame_shedStart (g : Fin 8) :
    Kept [.sxCell] (.shedStart g) := by
  intro s s' e
  change execShedStart g s = .next s' at e
  unfold execShedStart at e
  injection e with e
  subst e
  repeat' first
    | with_reducible assumption
    | (extract_lets -merge +onlyGivenNames x
       first
       | (refine Keeps.cut (x := x) (fun hx => ?_) ?_; (on_goal 1 => clear_value x)
          (on_goal 2 => (unfold x; clear x)))
       | (refine Keeps.cut (x := x.2) (fun hx => ?_) ?_; (on_goal 1 => clear_value x)
          (on_goal 2 => (unfold x; clear x)))
       | clear_value x)
    | with_reducible apply Keeps.refl
    | with_reducible apply Keeps.ite
    | with_reducible apply Keeps.then_ (keep_updCell ..)
    | with_reducible apply Keeps.then_ (keep_reshare ..)
    | decide
    | (beta_reduce; split)

theorem frame_addStart (g : Fin 8) :
    Kept [.sxCell, .sxStage, .sxLaw] (.addStart g) := by
  intro s s' e
  change execAddStart g s = .next s' at e
  unfold execAddStart at e
  injection e with e
  subst e
  repeat' first
    | with_reducible assumption
    | (extract_lets -merge +onlyGivenNames x
       first
       | (refine Keeps.cut (x := x) (fun hx => ?_) ?_; (on_goal 1 => clear_value x)
          (on_goal 2 => (unfold x; clear x)))
       | (refine Keeps.cut (x := x.2) (fun hx => ?_) ?_; (on_goal 1 => clear_value x)
          (on_goal 2 => (unfold x; clear x)))
       | clear_value x)
    | with_reducible apply Keeps.refl
    | with_reducible apply Keeps.ite
    | with_reducible apply Keeps.then_ (keep_updStage ..)
    | with_reducible apply Keeps.then_ (keep_updCell ..)
    | with_reducible apply Keeps.then_ (keep_reshare ..)
    | with_reducible apply Keeps.then_ (keep_clearLaws ..)
    | decide
    | (beta_reduce; split)

theorem frame_shedRampEnd (g : Fin 8) :
    Kept [.sxChannel, .sxCell, .sxStage, .sxAux] (.shedRampEnd g) := by
  intro s s' e
  change execShedRampEnd g s = .next s' at e
  unfold execShedRampEnd at e
  injection e with e
  subst e
  repeat' first
    | with_reducible assumption
    | (extract_lets -merge +onlyGivenNames x
       first
       | (refine Keeps.cut (x := x) (fun hx => ?_) ?_; (on_goal 1 => clear_value x)
          (on_goal 2 => (unfold x; clear x)))
       | (refine Keeps.cut (x := x.2) (fun hx => ?_) ?_; (on_goal 1 => clear_value x)
          (on_goal 2 => (unfold x; clear x)))
       | clear_value x)
    | with_reducible apply Keeps.refl
    | with_reducible apply Keeps.then_ (keep_updStage ..)
    | with_reducible apply Keeps.then_ (keep_updAux ..)
    | with_reducible apply Keeps.then_ (keep_updCell ..)
    | with_reducible apply Keeps.then_ (keep_reshare ..)
    | with_reducible apply Keeps.then_ (keep_parkCell ..)
    | decide
    | (beta_reduce; split)

theorem frame_addRampEnd (g : Fin 8) :
    Kept [.sxCell, .sxAux] (.addRampEnd g) := by
  intro s s' e
  change execAddRampEnd g s = .next s' at e
  unfold execAddRampEnd at e
  injection e with e
  subst e
  repeat' first
    | with_reducible assumption
    | (extract_lets -merge +onlyGivenNames x
       first
       | (refine Keeps.cut (x := x) (fun hx => ?_) ?_; (on_goal 1 => clear_value x)
          (on_goal 2 => (unfold x; clear x)))
       | (refine Keeps.cut (x := x.2) (fun hx => ?_) ?_; (on_goal 1 => clear_value x)
          (on_goal 2 => (unfold x; clear x)))
       | clear_value x)
    | with_reducible apply Keeps.refl
    | with_reducible apply Keeps.then_ (keep_updAux ..)
    | with_reducible apply Keeps.then_ (keep_updCell ..)
    | with_reducible apply Keeps.then_ (keep_reshare ..)
    | decide
    | (beta_reduce; split)

theorem frame_fireRearm (g : Fin 8) :
    Kept [.sxStage] (.fireRearm g) := by
  intro s s' e
  change execFireRearm g s = .next s' at e
  unfold execFireRearm at e
  injection e with e
  subst e
  repeat' first
    | with_reducible assumption
    | (extract_lets -merge +onlyGivenNames x
       first
       | (refine Keeps.cut (x := x) (fun hx => ?_) ?_; (on_goal 1 => clear_value x)
          (on_goal 2 => (unfold x; clear x)))
       | (refine Keeps.cut (x := x.2) (fun hx => ?_) ?_; (on_goal 1 => clear_value x)
          (on_goal 2 => (unfold x; clear x)))
       | clear_value x)
    | with_reducible apply Keeps.refl
    | with_reducible apply Keeps.ite
    | with_reducible apply Keeps.then_ (keep_updStage ..)
    | decide
    | (beta_reduce; split)

theorem frame_shedHoldEnd (g : Fin 8) :
    Kept [.sxStage] (.shedHoldEnd g) := by
  intro s s' e
  change execShedHoldEnd g s = .next s' at e
  unfold execShedHoldEnd at e
  injection e with e
  subst e
  repeat' first
    | with_reducible assumption
    | (extract_lets -merge +onlyGivenNames x
       first
       | (refine Keeps.cut (x := x) (fun hx => ?_) ?_; (on_goal 1 => clear_value x)
          (on_goal 2 => (unfold x; clear x)))
       | (refine Keeps.cut (x := x.2) (fun hx => ?_) ?_; (on_goal 1 => clear_value x)
          (on_goal 2 => (unfold x; clear x)))
       | clear_value x)
    | with_reducible apply Keeps.refl
    | with_reducible apply Keeps.then_ (keep_updStage ..)
    | decide

theorem frame_cbcLatch (c : Fin 48) :
    Kept [.sxChannel, .sxCell, .sxStage, .sxAux, .sxRest, .outlet, .rdr, .lkOut, .lkOutlet, .lkRest, .wrk, .log,
        .flt] (.cbcLatch c) := by
  intro s s' e
  change execCbcLatch c s = .next s' at e
  unfold execCbcLatch at e
  injection e with e
  subst e
  repeat' first
    | with_reducible assumption
    | (extract_lets -merge +onlyGivenNames x
       first
       | (refine Keeps.cut (x := x) (fun hx => ?_) ?_; (on_goal 1 => clear_value x)
          (on_goal 2 => (unfold x; clear x)))
       | (refine Keeps.cut (x := x.2) (fun hx => ?_) ?_; (on_goal 1 => clear_value x)
          (on_goal 2 => (unfold x; clear x)))
       | clear_value x)
    | with_reducible apply Keeps.refl
    | with_reducible apply Keeps.ite
    | with_reducible apply Keeps.then_ (keep_latchAndTell ..)
    | decide
    | split

theorem frame_oclLatch (g : Fin 8) :
    Kept [.sxChannel, .sxCell, .sxStage, .sxAux, .sxRest, .outlet, .rdr, .lkOut, .lkOutlet, .lkRest, .wrk, .log,
        .flt] (.oclLatch g) := by
  intro s s' e
  change execOclLatch g s = .next s' at e
  unfold execOclLatch at e
  injection e with e
  subst e
  repeat' first
    | with_reducible assumption
    | (extract_lets -merge +onlyGivenNames x
       first
       | (refine Keeps.cut (x := x) (fun hx => ?_) ?_; (on_goal 1 => clear_value x)
          (on_goal 2 => (unfold x; clear x)))
       | (refine Keeps.cut (x := x.2) (fun hx => ?_) ?_; (on_goal 1 => clear_value x)
          (on_goal 2 => (unfold x; clear x)))
       | clear_value x)
    | with_reducible apply Keeps.refl
    | with_reducible apply Keeps.ite
    | with_reducible apply Keeps.then_ (keep_latchAndTell ..)
    | decide
    | split

theorem frame_cellOpenRetire (c : Fin 48) :
    Kept [.sxChannel, .sxCell, .sxStage, .sxAux, .sxRest, .outlet, .rdr, .lkOut, .lkOutlet, .lkRest, .wrk, .log,
        .flt] (.cellOpenRetire c) := by
  intro s s' e
  change execCellOpenRetire c s = .next s' at e
  unfold execCellOpenRetire at e
  injection e with e
  subst e
  repeat' first
    | with_reducible assumption
    | (extract_lets -merge +onlyGivenNames x
       first
       | (refine Keeps.cut (x := x) (fun hx => ?_) ?_; (on_goal 1 => clear_value x)
          (on_goal 2 => (unfold x; clear x)))
       | (refine Keeps.cut (x := x.2) (fun hx => ?_) ?_; (on_goal 1 => clear_value x)
          (on_goal 2 => (unfold x; clear x)))
       | clear_value x)
    | with_reducible apply Keeps.refl
    | with_reducible apply Keeps.ite
    | with_reducible apply Keeps.then_ (keep_retireCell ..)
    | with_reducible apply Keeps.withStages
    | decide
    | (beta_reduce; split)

theorem frame_estTExpiry (c : Fin 48) :
    Kept [.sxCell] (.estTExpiry c) := by
  intro s s' e
  change execEstTExpiry c s = .next s' at e
  unfold execEstTExpiry at e
  injection e with e
  subst e
  repeat' first
    | with_reducible assumption
    | (extract_lets -merge +onlyGivenNames x
       first
       | (refine Keeps.cut (x := x) (fun hx => ?_) ?_; (on_goal 1 => clear_value x)
          (on_goal 2 => (unfold x; clear x)))
       | (refine Keeps.cut (x := x.2) (fun hx => ?_) ?_; (on_goal 1 => clear_value x)
          (on_goal 2 => (unfold x; clear x)))
       | clear_value x)
    | with_reducible apply Keeps.refl
    | with_reducible apply Keeps.ite
    | with_reducible apply Keeps.then_ (keep_updCell ..)
    | with_reducible apply Keeps.then_ (keep_reshare ..)
    | decide
    | (beta_reduce; split)

theorem frame_laneSetpointUpdate (g : Fin 8) (iSet vSet : Int) :
    Kept [.sxCell, .sxStage, .sxAux, .sxLaw, .sxRest, .outlet, .wrk] (.laneSetpointUpdate g iSet vSet) := by
  intro s s' e
  change execLaneSetpointUpdate g iSet vSet s = .next s' at e
  unfold execLaneSetpointUpdate at e
  injection e with e
  subst e
  repeat' first
    | with_reducible assumption
    | (extract_lets -merge +onlyGivenNames x
       first
       | (refine Keeps.cut (x := x) (fun hx => ?_) ?_; (on_goal 1 => clear_value x)
          (on_goal 2 => (unfold x; clear x)))
       | (refine Keeps.cut (x := x.2) (fun hx => ?_) ?_; (on_goal 1 => clear_value x)
          (on_goal 2 => (unfold x; clear x)))
       | clear_value x)
    | with_reducible apply Keeps.refl
    | with_reducible apply Keeps.ite
    | with_reducible apply Keeps.then_ (keep_updStage ..)
    | with_reducible apply Keeps.then_ (keep_updAux ..)
    | with_reducible apply Keeps.then_ (keep_followLimit ..)
    | with_reducible apply Keeps.then_ (keep_resplit ..)
    | with_reducible apply Keeps.then_ (keep_trackBanks ..)
    | decide
    | (beta_reduce; split)

theorem frame_postSplitRecompute  :
    Kept [.sxCell, .sxStage, .sxRest, .outlet] .postSplitRecompute := by
  intro s s' e
  change execPostSplitRecompute s = .next s' at e
  unfold execPostSplitRecompute at e
  injection e with e
  subst e
  repeat' first
    | with_reducible assumption
    | (extract_lets -merge +onlyGivenNames x
       first
       | (refine Keeps.cut (x := x) (fun hx => ?_) ?_; (on_goal 1 => clear_value x)
          (on_goal 2 => (unfold x; clear x)))
       | (refine Keeps.cut (x := x.2) (fun hx => ?_) ?_; (on_goal 1 => clear_value x)
          (on_goal 2 => (unfold x; clear x)))
       | clear_value x)
    | with_reducible apply Keeps.refl
    | with_reducible apply Keeps.then_ (keep_postSplit ..)
    | decide

theorem frame_laneHeartbeat  :
    Kept [.sxRest, .log, .flt] .laneHeartbeat := by
  intro s s' e
  change execLaneHeartbeat s = .next s' at e
  unfold execLaneHeartbeat at e
  injection e with e
  subst e
  repeat' first
    | with_reducible assumption
    | (extract_lets -merge +onlyGivenNames x
       first
       | (refine Keeps.cut (x := x) (fun hx => ?_) ?_; (on_goal 1 => clear_value x)
          (on_goal 2 => (unfold x; clear x)))
       | (refine Keeps.cut (x := x.2) (fun hx => ?_) ?_; (on_goal 1 => clear_value x)
          (on_goal 2 => (unfold x; clear x)))
       | (have t : Sextant := x; clear t; subst x)
       | clear_value x)
    | with_reducible apply Keeps.refl
    | with_reducible apply Keeps.ite
    | with_reducible apply Keeps.then_ (keep_logClear ..)
    | split
    | with_reducible apply Keeps.upd_sx
    | (with_reducible apply Or.inl; decide)
    | (with_reducible apply Or.inr; with_reducible rfl)
    | (with_reducible apply Or.inr; rfl)
    | decide

theorem frame_heartbeatLoss  :
    Kept [.sxChannel, .sxCell, .sxStage, .sxAux, .sxRest, .outlet, .rdr, .lkOut, .lkOutlet, .lkRest, .wrk, .log,
        .flt] .heartbeatLoss := by
  intro s s' e
  change execHeartbeatLoss s = .next s' at e
  unfold execHeartbeatLoss at e
  injection e with e
  subst e
  repeat' first
    | with_reducible assumption
    | (extract_lets -merge +onlyGivenNames x
       first
       | (refine Keeps.cut (x := x) (fun hx => ?_) ?_; (on_goal 1 => clear_value x)
          (on_goal 2 => (unfold x; clear x)))
       | (refine Keeps.cut (x := x.2) (fun hx => ?_) ?_; (on_goal 1 => clear_value x)
          (on_goal 2 => (unfold x; clear x)))
       | (have t : Sextant := x; clear t; subst x)
       | clear_value x)
    | with_reducible apply Keeps.refl
    | with_reducible apply Keeps.ite
    | with_reducible apply Keeps.then_ (keep_logDetect ..)
    | with_reducible apply Keeps.withStages
    | with_reducible apply Keeps.then_ (keep_loseHelm ..)
    | (with_reducible apply Keeps.foldl; on_goal 2 => intros)
    | (beta_reduce; split)
    | with_reducible apply Keeps.upd_sx
    | (with_reducible apply Or.inl; decide)
    | (with_reducible apply Or.inr; with_reducible rfl)
    | (with_reducible apply Or.inr; rfl)
    | decide

end Sys2Proof.Machine
end

