-- ==== Sys2Proof/Laws/FrameLookoutOps.lean ====
section
/-!
SUPPORT. What each operation of Machine/LookoutOps.lean leaves unchanged.
-/
namespace Sys2Proof.Machine

set_option linter.unreachableTactic false
set_option linter.unusedTactic false
set_option linter.tactic.unusedName false

theorem keep_lkDrive (s : State) :
    Keeps [.lkOut, .lkOutlet, .lkLatch, .lkRest] s (lkDrive s) := by
  unfold lkDrive
  repeat' first
    | with_reducible assumption
    | (extract_lets -merge +onlyGivenNames x
       first
       | (refine Keeps.cut (x := x) (fun hx => ?_) ?_; (on_goal 1 => clear_value x)
          (on_goal 2 => (unfold x; clear x)))
       | (refine Keeps.cut (x := x.2) (fun hx => ?_) ?_; (on_goal 1 => clear_value x)
          (on_goal 2 => (unfold x; clear x)))
       | (have t : Lookout := x; clear t; subst x)
       | clear_value x)
    | with_reducible apply Keeps.refl
    | with_reducible apply Keeps.ite
    | (beta_reduce; split)
    | with_reducible apply Keeps.upd_lk
    | (with_reducible apply Or.inl; decide)
    | (with_reducible apply Or.inr; with_reducible rfl)
    | (with_reducible apply Or.inr; rfl)
    | decide

theorem keep_judgeClose (s : State) (o : Fin 2) (vOut : Nat) :
    Keeps [.lkOut, .lkOutlet] s (judgeClose s o vOut) := by
  unfold judgeClose
  repeat' first
    | with_reducible assumption
    | (extract_lets -merge +onlyGivenNames x
       first
       | (refine Keeps.cut (x := x) (fun hx => ?_) ?_; (on_goal 1 => clear_value x)
          (on_goal 2 => (unfold x; clear x)))
       | (refine Keeps.cut (x := x.2) (fun hx => ?_) ?_; (on_goal 1 => clear_value x)
          (on_goal 2 => (unfold x; clear x)))
       | clear_value x)
    | with_reducible apply Keeps.refl
    | with_reducible apply Keeps.then_ (keep_updSo ..)
    | with_reducible apply Keeps.then_ (keep_updLko ..)
    | decide
    | (beta_reduce; split)

theorem keep_judgeWaiting (s : State) :
    Keeps [.lkOut, .lkOutlet] s (judgeWaiting s) := by
  unfold judgeWaiting
  repeat' first
    | with_reducible assumption
    | (extract_lets -merge +onlyGivenNames x
       first
       | (refine Keeps.cut (x := x) (fun hx => ?_) ?_; (on_goal 1 => clear_value x)
          (on_goal 2 => (unfold x; clear x)))
       | (refine Keeps.cut (x := x.2) (fun hx => ?_) ?_; (on_goal 1 => clear_value x)
          (on_goal 2 => (unfold x; clear x)))
       | clear_value x)
    | with_reducible apply Keeps.refl
    | with_reducible apply Keeps.ite
    | with_reducible apply Keeps.then_ (keep_judgeClose ..)
    | (with_reducible apply Keeps.foldl; on_goal 2 => intros)
    | decide
    | (beta_reduce; split)

theorem keep_releaseLocks (s : State) :
    Keeps [.outlet, .lkOutlet] s (releaseLocks s) := by
  unfold releaseLocks
  repeat' first
    | with_reducible assumption
    | (extract_lets -merge +onlyGivenNames x
       first
       | (refine Keeps.cut (x := x) (fun hx => ?_) ?_; (on_goal 1 => clear_value x)
          (on_goal 2 => (unfold x; clear x)))
       | (refine Keeps.cut (x := x.2) (fun hx => ?_) ?_; (on_goal 1 => clear_value x)
          (on_goal 2 => (unfold x; clear x)))
       | clear_value x)
    | with_reducible apply Keeps.refl
    | with_reducible apply Keeps.ite
    | with_reducible apply Keeps.then_ (keep_updOutlet ..)
    | with_reducible apply Keeps.then_ (keep_updLko ..)
    | (with_reducible apply Keeps.foldl; on_goal 2 => intros)
    | decide
    | (beta_reduce; split)

theorem keep_logOthers (s t : State) (o : Fin 2) :
    Keeps [.log] t (logOthers s t o) := by
  unfold logOthers
  repeat' first
    | with_reducible assumption
    | (extract_lets -merge +onlyGivenNames x
       first
       | (refine Keeps.cut (x := x) (fun hx => ?_) ?_; (on_goal 1 => clear_value x)
          (on_goal 2 => (unfold x; clear x)))
       | (refine Keeps.cut (x := x.2) (fun hx => ?_) ?_; (on_goal 1 => clear_value x)
          (on_goal 2 => (unfold x; clear x)))
       | clear_value x)
    | with_reducible apply Keeps.refl
    | with_reducible apply Keeps.ite
    | with_reducible apply Keeps.then_ (keep_logInfo ..)
    | (with_reducible apply Keeps.foldl; on_goal 2 => intros)
    | decide
    | (beta_reduce; split)

theorem keep_startStageOf (s : State) (o : Fin 2) :
    Keeps [.sxChannel, .sxCell, .sxStage, .sxAux, .sxLaw, .sxRest, .outlet, .rdr, .lkOut, .lkOutlet, .lkRest, .wrk,
        .log, .flt] s (startStageOf s o) := by
  unfold startStageOf
  repeat' first
    | with_reducible assumption
    | (extract_lets -merge +onlyGivenNames x
       first
       | (refine Keeps.cut (x := x) (fun hx => ?_) ?_; (on_goal 1 => clear_value x)
          (on_goal 2 => (unfold x; clear x)))
       | (refine Keeps.cut (x := x.2) (fun hx => ?_) ?_; (on_goal 1 => clear_value x)
          (on_goal 2 => (unfold x; clear x)))
       | clear_value x)
    | with_reducible apply Keeps.refl
    | with_reducible apply Keeps.then_ (keep_startStage ..)
    | decide
    | split

theorem keep_progressOnce (s : State) (o : Fin 2) :
    Keeps [.sxChannel, .sxCell, .sxStage, .sxAux, .sxLaw, .sxRest, .outlet, .rdr, .lkOut, .lkOutlet, .lkRest, .wrk,
        .log, .flt] s (progressOnce s o) := by
  unfold progressOnce
  repeat' first
    | with_reducible assumption
    | (extract_lets -merge +onlyGivenNames x
       first
       | (refine Keeps.cut (x := x) (fun hx => ?_) ?_; (on_goal 1 => clear_value x)
          (on_goal 2 => (unfold x; clear x)))
       | (refine Keeps.cut (x := x.2) (fun hx => ?_) ?_; (on_goal 1 => clear_value x)
          (on_goal 2 => (unfold x; clear x)))
       | clear_value x)
    | with_reducible apply Keeps.refl
    | with_reducible apply Keeps.ite
    | with_reducible apply Keeps.then_ (keep_updOutlet ..)
    | with_reducible apply Keeps.then_ (keep_updLko ..)
    | with_reducible apply Keeps.then_ (keep_enter ..)
    | with_reducible apply Keeps.then_ (keep_stopStageOf ..)
    | with_reducible apply Keeps.then_ (keep_startStageOf ..)
    | decide
    | (beta_reduce; split)

theorem keep_progress (s : State) (o : Fin 2) :
    Keeps [.sxChannel, .sxCell, .sxStage, .sxAux, .sxLaw, .sxRest, .outlet, .rdr, .lkOut, .lkOutlet, .lkRest, .wrk,
        .log, .flt] s (progress s o) := by
  unfold progress
  repeat' first
    | with_reducible assumption
    | (extract_lets -merge +onlyGivenNames x
       first
       | (refine Keeps.cut (x := x) (fun hx => ?_) ?_; (on_goal 1 => clear_value x)
          (on_goal 2 => (unfold x; clear x)))
       | (refine Keeps.cut (x := x.2) (fun hx => ?_) ?_; (on_goal 1 => clear_value x)
          (on_goal 2 => (unfold x; clear x)))
       | clear_value x)
    | with_reducible apply Keeps.refl
    | with_reducible apply Keeps.then_ (keep_progressOnce ..)
    | decide

theorem keep_settle (s t : State) :
    Keeps [.sxChannel, .sxCell, .sxStage, .sxAux, .sxLaw, .sxRest, .outlet, .rdr, .lkOut, .lkOutlet, .lkLatch,
        .lkRest, .wrk, .log, .flt] t (settle s t) := by
  unfold settle
  repeat' first
    | with_reducible assumption
    | (extract_lets -merge +onlyGivenNames x
       first
       | (refine Keeps.cut (x := x) (fun hx => ?_) ?_; (on_goal 1 => clear_value x)
          (on_goal 2 => (unfold x; clear x)))
       | (refine Keeps.cut (x := x.2) (fun hx => ?_) ?_; (on_goal 1 => clear_value x)
          (on_goal 2 => (unfold x; clear x)))
       | clear_value x)
    | with_reducible apply Keeps.refl
    | with_reducible apply Keeps.ite
    | with_reducible apply Keeps.then_ (keep_latchStage ..)
    | with_reducible apply Keeps.withStages
    | with_reducible apply Keeps.then_ (keep_outletFault ..)
    | with_reducible apply Keeps.then_ (keep_lkDrive ..)
    | with_reducible apply Keeps.then_ (keep_judgeWaiting ..)
    | with_reducible apply Keeps.then_ (keep_releaseLocks ..)
    | with_reducible apply Keeps.then_ (keep_logOthers ..)
    | with_reducible apply Keeps.then_ (keep_progress ..)
    | (with_reducible apply Keeps.foldl; on_goal 2 => intros)
    | decide
    | (beta_reduce; split)

theorem keep_driveLock (s : State) (o : Fin 2) :
    Keeps [.outlet, .lkOutlet] s (driveLock s o) := by
  unfold driveLock
  repeat' first
    | with_reducible assumption
    | (extract_lets -merge +onlyGivenNames x
       first
       | (refine Keeps.cut (x := x) (fun hx => ?_) ?_; (on_goal 1 => clear_value x)
          (on_goal 2 => (unfold x; clear x)))
       | (refine Keeps.cut (x := x.2) (fun hx => ?_) ?_; (on_goal 1 => clear_value x)
          (on_goal 2 => (unfold x; clear x)))
       | clear_value x)
    | with_reducible apply Keeps.refl
    | with_reducible apply Keeps.then_ (keep_updOutlet ..)
    | with_reducible apply Keeps.then_ (keep_updLko ..)
    | decide

theorem keep_openContactors (s : State) (o : Fin 2) :
    Keeps [.lkOut, .lkOutlet] s (openContactors s o) := by
  unfold openContactors
  repeat' first
    | with_reducible assumption
    | (extract_lets -merge +onlyGivenNames x
       first
       | (refine Keeps.cut (x := x) (fun hx => ?_) ?_; (on_goal 1 => clear_value x)
          (on_goal 2 => (unfold x; clear x)))
       | (refine Keeps.cut (x := x.2) (fun hx => ?_) ?_; (on_goal 1 => clear_value x)
          (on_goal 2 => (unfold x; clear x)))
       | clear_value x)
    | with_reducible apply Keeps.refl
    | with_reducible apply Keeps.then_ (keep_updSo ..)
    | with_reducible apply Keeps.then_ (keep_updLko ..)
    | decide

theorem keep_askUnlock (s : State) (o : Fin 2) :
    Keeps [.outlet, .lkOutlet] s (askUnlock s o) := by
  unfold askUnlock
  repeat' first
    | with_reducible assumption
    | (extract_lets -merge +onlyGivenNames x
       first
       | (refine Keeps.cut (x := x) (fun hx => ?_) ?_; (on_goal 1 => clear_value x)
          (on_goal 2 => (unfold x; clear x)))
       | (refine Keeps.cut (x := x.2) (fun hx => ?_) ?_; (on_goal 1 => clear_value x)
          (on_goal 2 => (unfold x; clear x)))
       | clear_value x)
    | with_reducible apply Keeps.refl
    | with_reducible apply Keeps.then_ (keep_updLko ..)
    | with_reducible apply Keeps.then_ (keep_releaseLocks ..)
    | decide

end Sys2Proof.Machine
end

