-- ==== Sys2Proof/Laws/FrameManagerOps.lean ====
section
/-!
SUPPORT. What each operation of Machine/ManagerOps.lean leaves unchanged.
-/
namespace Sys2Proof.Machine

set_option linter.unreachableTactic false
set_option linter.unusedTactic false
set_option linter.tactic.unusedName false

theorem keep_takeHeard {s : State} {p : SiteMsg → Bool} {m : SiteMsg} {t : State} (h : takeHeard s p = some (m, t)) :
    Keeps [.txl] s t := by
  unfold takeHeard at h
  rw [Option.map_eq_some_iff] at h
  obtain ⟨a, -, e⟩ := h
  injection e with _ e
  subst e
  exact Keeps.upd_txl (Keeps.refl _ _) (by decide)

theorem keep_updWorker (s : State) (w : Fin 32) (f : SiteWorker → SiteWorker) :
    Keeps [.mgr] s (updWorker s w f) := by
  unfold updWorker
  repeat' first
    | with_reducible assumption
    | (extract_lets -merge +onlyGivenNames x
       first
       | (refine Keeps.cut (x := x) (fun hx => ?_) ?_; (on_goal 1 => clear_value x)
          (on_goal 2 => (unfold x; clear x)))
       | (refine Keeps.cut (x := x.2) (fun hx => ?_) ?_; (on_goal 1 => clear_value x)
          (on_goal 2 => (unfold x; clear x)))
       | clear_value x)
    | with_reducible apply Keeps.refl
    | with_reducible apply Keeps.upd_mgr
    | decide

theorem keep_setAllocs (s : State) (a : Vector Nat 32) :
    Keeps [.mgr] s (setAllocs s a) := by
  unfold setAllocs
  repeat' first
    | with_reducible assumption
    | (extract_lets -merge +onlyGivenNames x
       first
       | (refine Keeps.cut (x := x) (fun hx => ?_) ?_; (on_goal 1 => clear_value x)
          (on_goal 2 => (unfold x; clear x)))
       | (refine Keeps.cut (x := x.2) (fun hx => ?_) ?_; (on_goal 1 => clear_value x)
          (on_goal 2 => (unfold x; clear x)))
       | clear_value x)
    | with_reducible apply Keeps.refl
    | with_reducible apply Keeps.upd_mgr
    | decide

theorem keep_publish (s : State) (kind : Nat) :
    Keeps [.txl, .mgr, .locker] s (publish s kind) := by
  unfold publish
  repeat' first
    | with_reducible assumption
    | (extract_lets -merge +onlyGivenNames x
       first
       | (refine Keeps.cut (x := x) (fun hx => ?_) ?_; (on_goal 1 => clear_value x)
          (on_goal 2 => (unfold x; clear x)))
       | (refine Keeps.cut (x := x.2) (fun hx => ?_) ?_; (on_goal 1 => clear_value x)
          (on_goal 2 => (unfold x; clear x)))
       | (have t : _ → State := x; clear t; subst x)
       | (have t : _ → _ → State := x; clear t; subst x)
       | (have t : _ → _ → Display := x; clear t; subst x)
       | clear_value x)
    | with_reducible apply Keeps.refl
    | with_reducible apply Keeps.ite
    | with_reducible apply Keeps.then_ (keep_sendCtrl ..)
    | with_reducible apply Keeps.then_ (keep_setAllocs ..)
    | (beta_reduce; split)
    | with_reducible apply Keeps.upd_mgr
    | decide

theorem keep_beMaster (s : State) :
    Keeps [.ll] s (beMaster s) := by
  unfold beMaster
  repeat' first
    | with_reducible assumption
    | (extract_lets -merge +onlyGivenNames x
       first
       | (refine Keeps.cut (x := x) (fun hx => ?_) ?_; (on_goal 1 => clear_value x)
          (on_goal 2 => (unfold x; clear x)))
       | (refine Keeps.cut (x := x.2) (fun hx => ?_) ?_; (on_goal 1 => clear_value x)
          (on_goal 2 => (unfold x; clear x)))
       | clear_value x)
    | with_reducible apply Keeps.refl
    | with_reducible apply Keeps.upd_ll
    | decide

theorem keep_endMaster (s : State) :
    Keeps [.ll] s (endMaster s) := by
  unfold endMaster
  repeat' first
    | with_reducible assumption
    | (extract_lets -merge +onlyGivenNames x
       first
       | (refine Keeps.cut (x := x) (fun hx => ?_) ?_; (on_goal 1 => clear_value x)
          (on_goal 2 => (unfold x; clear x)))
       | (refine Keeps.cut (x := x.2) (fun hx => ?_) ?_; (on_goal 1 => clear_value x)
          (on_goal 2 => (unfold x; clear x)))
       | clear_value x)
    | with_reducible apply Keeps.refl
    | with_reducible apply Keeps.upd_ll
    | decide

theorem keep_takeToken (s : State) :
    Keeps [.ll, .mgr, .log] s (takeToken s) := by
  unfold takeToken
  repeat' first
    | with_reducible assumption
    | (extract_lets -merge +onlyGivenNames x
       first
       | (refine Keeps.cut (x := x) (fun hx => ?_) ?_; (on_goal 1 => clear_value x)
          (on_goal 2 => (unfold x; clear x)))
       | (refine Keeps.cut (x := x.2) (fun hx => ?_) ?_; (on_goal 1 => clear_value x)
          (on_goal 2 => (unfold x; clear x)))
       | clear_value x)
    | with_reducible apply Keeps.refl
    | with_reducible apply Keeps.ite
    | with_reducible apply Keeps.then_ (keep_logInfo ..)
    | with_reducible apply Keeps.then_ (keep_beMaster ..)
    | split
    | with_reducible apply Keeps.upd_mgr
    | decide

theorem keep_stopActing (s : State) (r : MRole) :
    Keeps [.ll, .mgr] s (stopActing s r) := by
  unfold stopActing
  repeat' first
    | with_reducible assumption
    | (extract_lets -merge +onlyGivenNames x
       first
       | (refine Keeps.cut (x := x) (fun hx => ?_) ?_; (on_goal 1 => clear_value x)
          (on_goal 2 => (unfold x; clear x)))
       | (refine Keeps.cut (x := x.2) (fun hx => ?_) ?_; (on_goal 1 => clear_value x)
          (on_goal 2 => (unfold x; clear x)))
       | clear_value x)
    | with_reducible apply Keeps.refl
    | with_reducible apply Keeps.then_ (keep_endMaster ..)
    | with_reducible apply Keeps.upd_mgr
    | decide

theorem keep_releaseToken (s : State) :
    Keeps [.txl, .ll, .mgr, .locker] s (releaseToken s) := by
  unfold releaseToken
  repeat' first
    | with_reducible assumption
    | (extract_lets -merge +onlyGivenNames x
       first
       | (refine Keeps.cut (x := x) (fun hx => ?_) ?_; (on_goal 1 => clear_value x)
          (on_goal 2 => (unfold x; clear x)))
       | (refine Keeps.cut (x := x.2) (fun hx => ?_) ?_; (on_goal 1 => clear_value x)
          (on_goal 2 => (unfold x; clear x)))
       | clear_value x)
    | with_reducible apply Keeps.refl
    | with_reducible apply Keeps.ite
    | with_reducible apply Keeps.then_ (keep_sendBeacon ..)
    | with_reducible apply Keeps.then_ (keep_stopActing ..)
    | decide
    | split

theorem keep_hearRelease (s : State) :
    Keeps [.ll, .mgr, .log] s (hearRelease s) := by
  unfold hearRelease
  repeat' first
    | with_reducible assumption
    | (extract_lets -merge +onlyGivenNames x
       first
       | (refine Keeps.cut (x := x) (fun hx => ?_) ?_; (on_goal 1 => clear_value x)
          (on_goal 2 => (unfold x; clear x)))
       | (refine Keeps.cut (x := x.2) (fun hx => ?_) ?_; (on_goal 1 => clear_value x)
          (on_goal 2 => (unfold x; clear x)))
       | clear_value x)
    | with_reducible apply Keeps.refl
    | with_reducible apply Keeps.ite
    | with_reducible apply Keeps.then_ (keep_takeToken ..)
    | decide
    | split

theorem keep_yieldTo (s : State) (epoch : Nat) (rank : Bool) :
    Keeps [.ll, .mgr, .log] s (yieldTo s epoch rank) := by
  unfold yieldTo
  repeat' first
    | with_reducible assumption
    | (extract_lets -merge +onlyGivenNames x
       first
       | (refine Keeps.cut (x := x) (fun hx => ?_) ?_; (on_goal 1 => clear_value x)
          (on_goal 2 => (unfold x; clear x)))
       | (refine Keeps.cut (x := x.2) (fun hx => ?_) ?_; (on_goal 1 => clear_value x)
          (on_goal 2 => (unfold x; clear x)))
       | clear_value x)
    | with_reducible apply Keeps.refl
    | with_reducible apply Keeps.ite
    | with_reducible apply Keeps.then_ (keep_logInfo ..)
    | with_reducible apply Keeps.then_ (keep_stopActing ..)
    | decide
    | split

theorem keep_hearManager (s : State) (b : MgrBeacon) :
    Keeps [.ll, .mgr, .log, .flt] s (hearManager s b) := by
  unfold hearManager
  repeat' first
    | with_reducible assumption
    | (extract_lets -merge +onlyGivenNames x
       first
       | (refine Keeps.cut (x := x) (fun hx => ?_) ?_; (on_goal 1 => clear_value x)
          (on_goal 2 => (unfold x; clear x)))
       | (refine Keeps.cut (x := x.2) (fun hx => ?_) ?_; (on_goal 1 => clear_value x)
          (on_goal 2 => (unfold x; clear x)))
       | clear_value x)
    | with_reducible apply Keeps.refl
    | with_reducible apply Keeps.ite
    | with_reducible apply Keeps.then_ (keep_logClear ..)
    | with_reducible apply Keeps.then_ (keep_hearRelease ..)
    | with_reducible apply Keeps.then_ (keep_yieldTo ..)
    | split
    | with_reducible apply Keeps.upd_mgr
    | decide

theorem keep_setAlloc (s : State) (kW dr : Nat) :
    Keeps [.sxCell, .sxStage, .sxRest, .outlet, .wrk] s (setAlloc s kW dr) := by
  unfold setAlloc
  repeat' first
    | with_reducible assumption
    | (extract_lets -merge +onlyGivenNames x
       first
       | (refine Keeps.cut (x := x) (fun hx => ?_) ?_; (on_goal 1 => clear_value x)
          (on_goal 2 => (unfold x; clear x)))
       | (refine Keeps.cut (x := x.2) (fun hx => ?_) ?_; (on_goal 1 => clear_value x)
          (on_goal 2 => (unfold x; clear x)))
       | clear_value x)
    | with_reducible apply Keeps.refl
    | with_reducible apply Keeps.ite
    | with_reducible apply Keeps.then_ (keep_postSplit ..)
    | split
    | with_reducible apply Keeps.upd_wrk
    | decide

end Sys2Proof.Machine
end

