-- ==== Sys2Proof/Laws/FrameOutlet.lean ====
section
/-!
SUPPORT. What each operation and command of Machine/Outlet.lean leaves unchanged.
-/
namespace Sys2Proof.Machine

set_option linter.unreachableTactic false
set_option linter.unusedTactic false
set_option linter.tactic.unusedName false

theorem keep_plugIn (s : State) (o : Fin 2) :
    Keeps [.outlet, .cooling, .rdr] s (plugIn s o) := by
  unfold plugIn
  repeat' first
    | with_reducible assumption
    | (extract_lets -merge +onlyGivenNames x
       first
       | (refine Keeps.cut (x := x) (fun hx => ?_) ?_; (on_goal 1 => clear_value x)
          (on_goal 2 => (unfold x; clear x)))
       | (refine Keeps.cut (x := x.2) (fun hx => ?_) ?_; (on_goal 1 => clear_value x)
          (on_goal 2 => (unfold x; clear x)))
       | clear_value x)
    | with_reducible apply Keeps.refl
    | with_reducible apply Keeps.then_ (keep_updOutlet ..)
    | with_reducible apply Keeps.then_ (keep_updCooling ..)
    | with_reducible apply Keeps.then_ (keep_updPort ..)
    | decide

theorem keep_condNews (s : State) (o : Fin 2) (c : Cond) :
    Keeps [.sxChannel, .sxCell, .sxStage, .sxAux, .sxRest, .outlet, .cooling, .rdr, .lkOut, .lkOutlet, .lkRest,
        .wrk, .log, .flt] s (condNews s o c) := by
  unfold condNews
  repeat' first
    | with_reducible assumption
    | (extract_lets -merge +onlyGivenNames x
       first
       | (refine Keeps.cut (x := x) (fun hx => ?_) ?_; (on_goal 1 => clear_value x)
          (on_goal 2 => (unfold x; clear x)))
       | (refine Keeps.cut (x := x.2) (fun hx => ?_) ?_; (on_goal 1 => clear_value x)
          (on_goal 2 => (unfold x; clear x)))
       | clear_value x)
    | with_reducible apply Keeps.refl
    | with_reducible apply Keeps.ite
    | with_reducible apply Keeps.then_ (keep_rest ..)
    | with_reducible apply Keeps.then_ (keep_finish ..)
    | with_reducible apply Keeps.then_ (keep_outletFault ..)
    | with_reducible apply Keeps.then_ (keep_plugIn ..)
    | decide
    | split

theorem keep_failVehicle (s : State) (o : Fin 2) :
    Keeps [.sxChannel, .sxCell, .sxStage, .sxAux, .sxRest, .outlet, .rdr, .lkOut, .lkOutlet, .lkRest, .wrk, .log,
        .flt] s (failVehicle s o) := by
  unfold failVehicle
  repeat' first
    | with_reducible assumption
    | (extract_lets -merge +onlyGivenNames x
       first
       | (refine Keeps.cut (x := x) (fun hx => ?_) ?_; (on_goal 1 => clear_value x)
          (on_goal 2 => (unfold x; clear x)))
       | (refine Keeps.cut (x := x.2) (fun hx => ?_) ?_; (on_goal 1 => clear_value x)
          (on_goal 2 => (unfold x; clear x)))
       | clear_value x)
    | with_reducible apply Keeps.refl
    | with_reducible apply Keeps.then_ (keep_updOutlet ..)
    | with_reducible apply Keeps.then_ (keep_outletFault ..)
    | decide

theorem Keeps.inSession {F : List Part} {r s : State} {o : Fin 2} {f : State → State} (h : Keeps F r s)
    (k : Keeps F r (f s)) : Keeps F r (Machine.inSession s o f) := by
  unfold Machine.inSession
  exact Keeps.ite k h

theorem keep_isoOnly {F : List Part} (s : State) (o : Fin 2) (k : State → State) (h : ∀ t, Keeps F t (k t))
    (hF : ∀ p ∈ ([.sxChannel, .sxCell, .sxStage, .sxAux, .sxRest, .outlet, .rdr, .lkOut, .lkOutlet, .lkRest, .wrk,
        .log, .flt] : List Part), p ∈ F) : Keeps F s (isoOnly s o k) := by
  unfold isoOnly
  exact Keeps.ite (h s) ((keep_failVehicle s o).mono hF)

theorem keep_refuse (s : State) (o : Fin 2) :
    Keeps [.outlet, .rdr] s (refuse s o) := by
  unfold refuse
  repeat' first
    | with_reducible assumption
    | (extract_lets -merge +onlyGivenNames x
       first
       | (refine Keeps.cut (x := x) (fun hx => ?_) ?_; (on_goal 1 => clear_value x)
          (on_goal 2 => (unfold x; clear x)))
       | (refine Keeps.cut (x := x.2) (fun hx => ?_) ?_; (on_goal 1 => clear_value x)
          (on_goal 2 => (unfold x; clear x)))
       | clear_value x)
    | with_reducible apply Keeps.refl
    | with_reducible apply Keeps.then_ (keep_updOutlet ..)
    | with_reducible apply Keeps.then_ (keep_finish ..)
    | decide

theorem keep_allow (s : State) (o : Fin 2) (src : Nat) :
    Keeps [.outlet, .rdr, .merMail, .com, .lkOutlet, .log] s (allow s o src) := by
  unfold allow
  repeat' first
    | with_reducible assumption
    | (extract_lets -merge +onlyGivenNames x
       first
       | (refine Keeps.cut (x := x) (fun hx => ?_) ?_; (on_goal 1 => clear_value x)
          (on_goal 2 => (unfold x; clear x)))
       | (refine Keeps.cut (x := x.2) (fun hx => ?_) ?_; (on_goal 1 => clear_value x)
          (on_goal 2 => (unfold x; clear x)))
       | clear_value x)
    | with_reducible apply Keeps.refl
    | with_reducible apply Keeps.ite
    | with_reducible apply Keeps.then_ (keep_updOutlet ..)
    | with_reducible apply Keeps.then_ (keep_enter ..)
    | with_reducible apply Keeps.then_ (keep_pushMail ..)
    | with_reducible apply Keeps.then_ (keep_beginCharge ..)
    | with_reducible apply Keeps.then_ (keep_driveLock ..)
    | with_reducible apply Keeps.then_ (keep_refuse ..)
    | decide
    | (beta_reduce; split)

theorem keep_localDecision (s : State) (o : Fin 2) :
    Keeps [.outlet, .rdr, .merMail, .com, .lkOutlet, .log] s (localDecision s o) := by
  unfold localDecision
  repeat' first
    | with_reducible assumption
    | (extract_lets -merge +onlyGivenNames x
       first
       | (refine Keeps.cut (x := x) (fun hx => ?_) ?_; (on_goal 1 => clear_value x)
          (on_goal 2 => (unfold x; clear x)))
       | (refine Keeps.cut (x := x.2) (fun hx => ?_) ?_; (on_goal 1 => clear_value x)
          (on_goal 2 => (unfold x; clear x)))
       | clear_value x)
    | with_reducible apply Keeps.refl
    | with_reducible apply Keeps.ite
    | with_reducible apply Keeps.then_ (keep_refuse ..)
    | with_reducible apply Keeps.then_ (keep_allow ..)
    | decide
    | split

theorem keep_authEvent (s : State) (o : Fin 2) :
    Keeps [.hostSessions, .hostRest] s (authEvent s o) := by
  unfold authEvent
  repeat' first
    | with_reducible assumption
    | (extract_lets -merge +onlyGivenNames x
       first
       | (refine Keeps.cut (x := x) (fun hx => ?_) ?_; (on_goal 1 => clear_value x)
          (on_goal 2 => (unfold x; clear x)))
       | (refine Keeps.cut (x := x.2) (fun hx => ?_) ?_; (on_goal 1 => clear_value x)
          (on_goal 2 => (unfold x; clear x)))
       | clear_value x)
    | with_reducible apply Keeps.refl
    | with_reducible apply Keeps.then_ (keep_emitEvent ..)
    | decide
    | split

theorem keep_identify (s : State) (o : Fin 2) (kind : AuthKind) (ident : Bytes) (chainOk : Bool) :
    Keeps [.outlet, .rdr, .merMail, .com, .lkOutlet, .hostSessions, .hostRest, .log] s (identify s o kind ident
        chainOk) := by
  unfold identify
  repeat' first
    | with_reducible assumption
    | (extract_lets -merge +onlyGivenNames x
       first
       | (refine Keeps.cut (x := x) (fun hx => ?_) ?_; (on_goal 1 => clear_value x)
          (on_goal 2 => (unfold x; clear x)))
       | (refine Keeps.cut (x := x.2) (fun hx => ?_) ?_; (on_goal 1 => clear_value x)
          (on_goal 2 => (unfold x; clear x)))
       | clear_value x)
    | with_reducible apply Keeps.refl
    | with_reducible apply Keeps.ite
    | with_reducible apply Keeps.then_ (keep_updOutlet ..)
    | with_reducible apply Keeps.then_ (keep_answer ..)
    | with_reducible apply Keeps.then_ (keep_enter ..)
    | with_reducible apply Keeps.then_ (keep_refuse ..)
    | with_reducible apply Keeps.then_ (keep_localDecision ..)
    | with_reducible apply Keeps.then_ (keep_authEvent ..)
    | decide
    | (beta_reduce; split)

theorem keep_expire (s : State) (o : Fin 2) (runs : OutTimers → Bool) (c : OutFault) :
    Keeps [.sxChannel, .sxCell, .sxStage, .sxAux, .sxRest, .outlet, .rdr, .lkOut, .lkOutlet, .lkRest, .wrk, .log,
        .flt] s (expire s o runs c) := by
  unfold expire
  repeat' first
    | with_reducible assumption
    | (extract_lets -merge +onlyGivenNames x
       first
       | (refine Keeps.cut (x := x) (fun hx => ?_) ?_; (on_goal 1 => clear_value x)
          (on_goal 2 => (unfold x; clear x)))
       | (refine Keeps.cut (x := x.2) (fun hx => ?_) ?_; (on_goal 1 => clear_value x)
          (on_goal 2 => (unfold x; clear x)))
       | clear_value x)
    | with_reducible apply Keeps.refl
    | with_reducible apply Keeps.ite
    | with_reducible apply Keeps.then_ (keep_outletFault ..)
    | decide
    | split

theorem keep_closeRecordOf (s : State) (o : Fin 2) (fault : Bool) :
    Keeps [.merMail] s (closeRecordOf s o fault) := by
  unfold closeRecordOf
  repeat' first
    | with_reducible assumption
    | (extract_lets -merge +onlyGivenNames x
       first
       | (refine Keeps.cut (x := x) (fun hx => ?_) ?_; (on_goal 1 => clear_value x)
          (on_goal 2 => (unfold x; clear x)))
       | (refine Keeps.cut (x := x.2) (fun hx => ?_) ?_; (on_goal 1 => clear_value x)
          (on_goal 2 => (unfold x; clear x)))
       | clear_value x)
    | with_reducible apply Keeps.refl
    | with_reducible apply Keeps.ite
    | with_reducible apply Keeps.then_ (keep_pushMail ..)
    | decide
    | split

theorem keep_followOutlet (s : State) (o : Fin 2) :
    Keeps [.sxCell, .sxStage] s (followOutlet s o) := by
  unfold followOutlet
  repeat' first
    | with_reducible assumption
    | (extract_lets -merge +onlyGivenNames x
       first
       | (refine Keeps.cut (x := x) (fun hx => ?_) ?_; (on_goal 1 => clear_value x)
          (on_goal 2 => (unfold x; clear x)))
       | (refine Keeps.cut (x := x.2) (fun hx => ?_) ?_; (on_goal 1 => clear_value x)
          (on_goal 2 => (unfold x; clear x)))
       | clear_value x)
    | with_reducible apply Keeps.refl
    | with_reducible apply Keeps.then_ (keep_followLimit ..)
    | decide
    | split

theorem keep_coolInput (s : State) (o : Fin 2) (j : Fin 8) (value : Int) (time : Nat) :
    Keeps [.sxCell, .sxStage, .sxLaw, .sxRest, .outlet, .cooling, .wrk, .log, .flt] s (coolInput s o j value time)
        := by
  unfold coolInput
  repeat' first
    | with_reducible assumption
    | (extract_lets -merge +onlyGivenNames x
       first
       | (refine Keeps.cut (x := x) (fun hx => ?_) ?_; (on_goal 1 => clear_value x)
          (on_goal 2 => (unfold x; clear x)))
       | (refine Keeps.cut (x := x.2) (fun hx => ?_) ?_; (on_goal 1 => clear_value x)
          (on_goal 2 => (unfold x; clear x)))
       | clear_value x)
    | with_reducible apply Keeps.refl
    | with_reducible apply Keeps.ite
    | with_reducible apply Keeps.then_ (keep_clearFaults ..)
    | with_reducible apply Keeps.then_ (keep_updCooling ..)
    | with_reducible apply Keeps.then_ (keep_resplit ..)
    | with_reducible apply Keeps.then_ (keep_trackBanks ..)
    | with_reducible apply Keeps.then_ (keep_followOutlet ..)
    | decide
    | (beta_reduce; split)

theorem keep_setUncooled (s : State) (o : Fin 2) :
    Keeps [.sxCell, .sxStage, .sxRest, .outlet, .cooling, .wrk] s (setUncooled s o) := by
  unfold setUncooled
  repeat' first
    | with_reducible assumption
    | (extract_lets -merge +onlyGivenNames x
       first
       | (refine Keeps.cut (x := x) (fun hx => ?_) ?_; (on_goal 1 => clear_value x)
          (on_goal 2 => (unfold x; clear x)))
       | (refine Keeps.cut (x := x.2) (fun hx => ?_) ?_; (on_goal 1 => clear_value x)
          (on_goal 2 => (unfold x; clear x)))
       | clear_value x)
    | with_reducible apply Keeps.refl
    | with_reducible apply Keeps.then_ (keep_updCooling ..)
    | with_reducible apply Keeps.then_ (keep_resplit ..)
    | with_reducible apply Keeps.then_ (keep_followOutlet ..)
    | decide

theorem keep_staleTags (s : State) (o : Fin 2) :
    Keeps [.sxChannel, .sxCell, .sxStage, .sxAux, .sxRest, .outlet, .rdr, .lkOut, .lkOutlet, .lkRest, .wrk, .log,
        .flt] s (staleTags s o) := by
  unfold staleTags
  repeat' first
    | with_reducible assumption
    | (extract_lets -merge +onlyGivenNames x
       first
       | (refine Keeps.cut (x := x) (fun hx => ?_) ?_; (on_goal 1 => clear_value x)
          (on_goal 2 => (unfold x; clear x)))
       | (refine Keeps.cut (x := x.2) (fun hx => ?_) ?_; (on_goal 1 => clear_value x)
          (on_goal 2 => (unfold x; clear x)))
       | clear_value x)
    | with_reducible apply Keeps.refl
    | with_reducible apply Keeps.ite
    | with_reducible apply Keeps.then_ (keep_outletFault ..)
    | with_reducible apply Keeps.then_ (keep_stopTrigger ..)
    | decide
    | split

theorem keep_updDrive (s : State) (d : Fin 6) (f : Drive → Drive) :
    Keeps [.drive] s (updDrive s d f) := by
  unfold updDrive
  repeat' first
    | with_reducible assumption
    | (extract_lets -merge +onlyGivenNames x
       first
       | (refine Keeps.cut (x := x) (fun hx => ?_) ?_; (on_goal 1 => clear_value x)
          (on_goal 2 => (unfold x; clear x)))
       | (refine Keeps.cut (x := x.2) (fun hx => ?_) ?_; (on_goal 1 => clear_value x)
          (on_goal 2 => (unfold x; clear x)))
       | clear_value x)
    | with_reducible apply Keeps.refl
    | with_reducible apply Keeps.upd_drive
    | decide

theorem keep_takeSpeed (s : State) (d : Fin 6) (pulses ms : Nat) :
    Keeps [.drive] s (takeSpeed s d pulses ms) := by
  unfold takeSpeed
  repeat' first
    | with_reducible assumption
    | (extract_lets -merge +onlyGivenNames x
       first
       | (refine Keeps.cut (x := x) (fun hx => ?_) ?_; (on_goal 1 => clear_value x)
          (on_goal 2 => (unfold x; clear x)))
       | (refine Keeps.cut (x := x.2) (fun hx => ?_) ?_; (on_goal 1 => clear_value x)
          (on_goal 2 => (unfold x; clear x)))
       | clear_value x)
    | with_reducible apply Keeps.refl
    | with_reducible apply Keeps.ite
    | with_reducible apply Keeps.then_ (keep_updDrive ..)
    | decide
    | (beta_reduce; split)

theorem keep_countSlow (s : State) :
    Keeps [.drive] s (countSlow s) := by
  unfold countSlow
  repeat' first
    | with_reducible assumption
    | (extract_lets -merge +onlyGivenNames x
       first
       | (refine Keeps.cut (x := x) (fun hx => ?_) ?_; (on_goal 1 => clear_value x)
          (on_goal 2 => (unfold x; clear x)))
       | (refine Keeps.cut (x := x.2) (fun hx => ?_) ?_; (on_goal 1 => clear_value x)
          (on_goal 2 => (unfold x; clear x)))
       | clear_value x)
    | with_reducible apply Keeps.refl
    | with_reducible apply Keeps.ite
    | (beta_reduce; split)
    | with_reducible apply Keeps.upd_drive
    | decide

theorem frame_pilotCondChange (o : Fin 2) (high low pp : List Nat) (heldMs : Nat) :
    Kept [.sxChannel, .sxCell, .sxStage, .sxAux, .sxRest, .outlet, .cooling, .rdr, .lkOut, .lkOutlet, .lkRest, .wrk,
        .log, .flt] (.pilotCondChange o high low pp heldMs) := by
  intro s s' e
  change execPilotCondChange o high low pp heldMs s = .next s' at e
  unfold execPilotCondChange at e
  injection e with e
  subst e
  repeat' first
    | with_reducible assumption
    | (extract_lets -merge +onlyGivenNames x
       first
       | (refine Keeps.cut (x := x) (fun hx => ?_) ?_; (on_goal 1 => clear_value x)
          (on_goal 2 => (unfold x; clear x)))
       | (refine Keeps.cut (x := x.2) (fun hx => ?_) ?_; (on_goal 1 => clear_value x)
          (on_goal 2 => (unfold x; clear x)))
       | clear_value x)
    | with_reducible apply Keeps.refl
    | with_reducible apply Keeps.ite
    | with_reducible apply Keeps.then_ (keep_updOutlet ..)
    | with_reducible apply Keeps.then_ (keep_setPilot ..)
    | with_reducible apply Keeps.then_ (keep_condNews ..)
    | decide
    | (beta_reduce; split)

theorem frame_t1sLinkUp (o : Fin 2) :
    Kept [.outlet] (.t1sLinkUp o) := by
  intro s s' e
  change execT1sLinkUp o s = .next s' at e
  unfold execT1sLinkUp at e
  injection e with e
  subst e
  repeat' first
    | with_reducible assumption
    | (extract_lets -merge +onlyGivenNames x
       first
       | (refine Keeps.cut (x := x) (fun hx => ?_) ?_; (on_goal 1 => clear_value x)
          (on_goal 2 => (unfold x; clear x)))
       | (refine Keeps.cut (x := x.2) (fun hx => ?_) ?_; (on_goal 1 => clear_value x)
          (on_goal 2 => (unfold x; clear x)))
       | clear_value x)
    | with_reducible apply Keeps.refl
    | with_reducible apply Keeps.ite
    | with_reducible apply Keeps.then_ (keep_updOutlet ..)
    | decide
    | (beta_reduce; split)

theorem frame_slacMessage (o : Fin 2) (m : SlacMessage) :
    Kept [.free, .outlet] (.slacMessage o m) := by
  intro s s' e
  change execSlacMessage o m s = .next s' at e
  unfold execSlacMessage at e
  injection e with e
  subst e
  repeat' first
    | with_reducible assumption
    | (extract_lets -merge +onlyGivenNames x
       first
       | (refine Keeps.cut (x := x) (fun hx => ?_) ?_; (on_goal 1 => clear_value x)
          (on_goal 2 => (unfold x; clear x)))
       | (refine Keeps.cut (x := x.2) (fun hx => ?_) ?_; (on_goal 1 => clear_value x)
          (on_goal 2 => (unfold x; clear x)))
       | clear_value x)
    | with_reducible apply Keeps.refl
    | with_reducible apply Keeps.ite
    | with_reducible apply Keeps.then_ (keep_drawBytes ..)
    | with_reducible apply Keeps.then_ (keep_updOutlet ..)
    | decide
    | (beta_reduce; split)

theorem frame_sdpRequest (o : Fin 2) :
    Kept [.outlet] (.sdpRequest o) := by
  intro s s' e
  change execSdpRequest o s = .next s' at e
  unfold execSdpRequest at e
  injection e with e
  subst e
  repeat' first
    | with_reducible assumption
    | (extract_lets -merge +onlyGivenNames x
       first
       | (refine Keeps.cut (x := x) (fun hx => ?_) ?_; (on_goal 1 => clear_value x)
          (on_goal 2 => (unfold x; clear x)))
       | (refine Keeps.cut (x := x.2) (fun hx => ?_) ?_; (on_goal 1 => clear_value x)
          (on_goal 2 => (unfold x; clear x)))
       | clear_value x)
    | with_reducible apply Keeps.refl
    | with_reducible apply Keeps.ite
    | with_reducible apply Keeps.then_ (keep_updOutlet ..)
    | decide
    | (beta_reduce; split)

theorem frame_tlsHandshake (o : Fin 2) (hello : TlsHello) :
    Kept [.outlet, .locker] (.tlsHandshake o hello) := by
  intro s s' e
  change execTlsHandshake o hello s = .next s' at e
  unfold execTlsHandshake at e
  injection e with e
  subst e
  repeat' first
    | with_reducible assumption
    | (extract_lets -merge +onlyGivenNames x
       first
       | (refine Keeps.cut (x := x) (fun hx => ?_) ?_; (on_goal 1 => clear_value x)
          (on_goal 2 => (unfold x; clear x)))
       | (refine Keeps.cut (x := x.2) (fun hx => ?_) ?_; (on_goal 1 => clear_value x)
          (on_goal 2 => (unfold x; clear x)))
       | clear_value x)
    | with_reducible apply Keeps.refl
    | with_reducible apply Keeps.ite
    | with_reducible apply Keeps.then_ (keep_updOutlet ..)
    | with_reducible apply Keeps.then_ (keep_useSlot ..)
    | decide
    | (beta_reduce; split)

theorem frame_unsupportedRequest (o : Fin 2) :
    Kept [.sxChannel, .sxCell, .sxStage, .sxAux, .sxRest, .outlet, .rdr, .lkOut, .lkOutlet, .lkRest, .wrk, .log,
        .flt] (.unsupportedRequest o) := by
  intro s s' e
  change execUnsupportedRequest o s = .next s' at e
  unfold execUnsupportedRequest at e
  injection e with e
  subst e
  repeat' first
    | with_reducible assumption
    | (extract_lets -merge +onlyGivenNames x
       first
       | (refine Keeps.cut (x := x) (fun hx => ?_) ?_; (on_goal 1 => clear_value x)
          (on_goal 2 => (unfold x; clear x)))
       | (refine Keeps.cut (x := x.2) (fun hx => ?_) ?_; (on_goal 1 => clear_value x)
          (on_goal 2 => (unfold x; clear x)))
       | clear_value x)
    | with_reducible apply Keeps.refl
    | with_reducible apply Keeps.ite
    | with_reducible apply Keeps.then_ (keep_failVehicle ..)
    | decide
    | split

theorem frame_supportedAppProtocol (o : Fin 2) (iso din : Bool) :
    Kept [.sxChannel, .sxCell, .sxStage, .sxAux, .sxRest, .outlet, .rdr, .lkOut, .lkOutlet, .lkRest, .wrk, .log,
        .flt] (.supportedAppProtocol o iso din) := by
  intro s s' e
  change execSupportedAppProtocol o iso din s = .next s' at e
  unfold execSupportedAppProtocol at e
  injection e with e
  subst e
  repeat' first
    | with_reducible assumption
    | (extract_lets -merge +onlyGivenNames x
       first
       | (refine Keeps.cut (x := x) (fun hx => ?_) ?_; (on_goal 1 => clear_value x)
          (on_goal 2 => (unfold x; clear x)))
       | (refine Keeps.cut (x := x.2) (fun hx => ?_) ?_; (on_goal 1 => clear_value x)
          (on_goal 2 => (unfold x; clear x)))
       | clear_value x)
    | with_reducible apply Keeps.refl
    | with_reducible apply Keeps.ite
    | with_reducible apply Keeps.then_ (keep_updOutlet ..)
    | with_reducible apply Keeps.then_ (keep_answer ..)
    | with_reducible apply Keeps.then_ (keep_failVehicle ..)
    | decide
    | (beta_reduce; split)

theorem frame_sessionSetup (o : Fin 2) :
    Kept [.outlet] (.sessionSetup o) := by
  intro s s' e
  change execSessionSetup o s = .next s' at e
  unfold execSessionSetup at e
  injection e with e
  subst e
  repeat' first
    | with_reducible assumption
    | (extract_lets -merge +onlyGivenNames x
       first
       | (refine Keeps.cut (x := x) (fun hx => ?_) ?_; (on_goal 1 => clear_value x)
          (on_goal 2 => (unfold x; clear x)))
       | (refine Keeps.cut (x := x.2) (fun hx => ?_) ?_; (on_goal 1 => clear_value x)
          (on_goal 2 => (unfold x; clear x)))
       | clear_value x)
    | with_reducible apply Keeps.refl
    | with_reducible apply Keeps.ite
    | with_reducible apply Keeps.then_ (keep_updOutlet ..)
    | with_reducible apply Keeps.then_ (keep_answer ..)
    | decide
    | (beta_reduce; split)

theorem frame_serviceDiscovery (o : Fin 2) (r : ServiceRequest) :
    Kept [.sxChannel, .sxCell, .sxStage, .sxAux, .sxRest, .outlet, .rdr, .lkOut, .lkOutlet, .lkRest, .wrk, .log,
        .flt] (.serviceDiscovery o r) := by
  intro s s' e
  change execServiceDiscovery o r s = .next s' at e
  unfold execServiceDiscovery at e
  injection e with e
  subst e
  repeat' first
    | with_reducible assumption
    | (extract_lets -merge +onlyGivenNames x
       first
       | (refine Keeps.cut (x := x) (fun hx => ?_) ?_; (on_goal 1 => clear_value x)
          (on_goal 2 => (unfold x; clear x)))
       | (refine Keeps.cut (x := x.2) (fun hx => ?_) ?_; (on_goal 1 => clear_value x)
          (on_goal 2 => (unfold x; clear x)))
       | clear_value x)
    | with_reducible apply Keeps.refl
    | with_reducible apply Keeps.ite
    | with_reducible apply Keeps.then_ (keep_updOutlet ..)
    | with_reducible apply Keeps.then_ (keep_answer ..)
    | with_reducible apply Keeps.then_ (keep_failVehicle ..)
    | with_reducible apply Keeps.inSession
    | (with_reducible refine keep_isoOnly _ _ _ (fun _ => ?_) ?_)
    | decide
    | (beta_reduce; split)

theorem frame_chargeParameterDiscovery (o : Fin 2) (vMax : Nat) :
    Kept [.outlet] (.chargeParameterDiscovery o vMax) := by
  intro s s' e
  change execChargeParameterDiscovery o vMax s = .next s' at e
  unfold execChargeParameterDiscovery at e
  injection e with e
  subst e
  repeat' first
    | with_reducible assumption
    | (extract_lets -merge +onlyGivenNames x
       first
       | (refine Keeps.cut (x := x) (fun hx => ?_) ?_; (on_goal 1 => clear_value x)
          (on_goal 2 => (unfold x; clear x)))
       | (refine Keeps.cut (x := x.2) (fun hx => ?_) ?_; (on_goal 1 => clear_value x)
          (on_goal 2 => (unfold x; clear x)))
       | clear_value x)
    | with_reducible apply Keeps.refl
    | with_reducible apply Keeps.then_ (keep_updOutlet ..)
    | with_reducible apply Keeps.then_ (keep_answer ..)
    | with_reducible apply Keeps.inSession
    | decide

theorem frame_scheduleExchange (o : Fin 2) (dynamic : Bool) :
    Kept [.sxChannel, .sxCell, .sxStage, .sxAux, .sxRest, .outlet, .rdr, .lkOut, .lkOutlet, .lkRest, .wrk, .log,
        .flt] (.scheduleExchange o dynamic) := by
  intro s s' e
  change execScheduleExchange o dynamic s = .next s' at e
  unfold execScheduleExchange at e
  injection e with e
  subst e
  repeat' first
    | with_reducible assumption
    | (extract_lets -merge +onlyGivenNames x
       first
       | (refine Keeps.cut (x := x) (fun hx => ?_) ?_; (on_goal 1 => clear_value x)
          (on_goal 2 => (unfold x; clear x)))
       | (refine Keeps.cut (x := x.2) (fun hx => ?_) ?_; (on_goal 1 => clear_value x)
          (on_goal 2 => (unfold x; clear x)))
       | clear_value x)
    | with_reducible apply Keeps.refl
    | with_reducible apply Keeps.ite
    | with_reducible apply Keeps.then_ (keep_updOutlet ..)
    | with_reducible apply Keeps.then_ (keep_answer ..)
    | with_reducible apply Keeps.inSession
    | (with_reducible refine keep_isoOnly _ _ _ (fun _ => ?_) ?_)
    | decide
    | (beta_reduce; split)

theorem frame_dcCableCheck (o : Fin 2) :
    Kept [.sxChannel, .sxCell, .sxStage, .sxAux, .sxLaw, .sxRest, .outlet, .rdr, .lkOut, .lkOutlet, .lkRest, .wrk,
        .log, .flt] (.dcCableCheck o) := by
  intro s s' e
  change execDcCableCheck o s = .next s' at e
  unfold execDcCableCheck at e
  injection e with e
  subst e
  repeat' first
    | with_reducible assumption
    | (extract_lets -merge +onlyGivenNames x
       first
       | (refine Keeps.cut (x := x) (fun hx => ?_) ?_; (on_goal 1 => clear_value x)
          (on_goal 2 => (unfold x; clear x)))
       | (refine Keeps.cut (x := x.2) (fun hx => ?_) ?_; (on_goal 1 => clear_value x)
          (on_goal 2 => (unfold x; clear x)))
       | clear_value x)
    | with_reducible apply Keeps.refl
    | with_reducible apply Keeps.ite
    | with_reducible apply Keeps.then_ (keep_updOutlet ..)
    | with_reducible apply Keeps.then_ (keep_answer ..)
    | with_reducible apply Keeps.then_ (keep_answerOther ..)
    | with_reducible apply Keeps.then_ (keep_progress ..)
    | with_reducible apply Keeps.inSession
    | decide
    | (beta_reduce; split)

theorem frame_dcPreCharge (o : Fin 2) (target : Nat) :
    Kept [.sxChannel, .sxCell, .sxStage, .sxAux, .sxLaw, .sxRest, .outlet, .rdr, .lkOut, .lkOutlet, .lkRest, .wrk,
        .log, .flt] (.dcPreCharge o target) := by
  intro s s' e
  change execDcPreCharge o target s = .next s' at e
  unfold execDcPreCharge at e
  injection e with e
  subst e
  repeat' first
    | with_reducible assumption
    | (extract_lets -merge +onlyGivenNames x
       first
       | (refine Keeps.cut (x := x) (fun hx => ?_) ?_; (on_goal 1 => clear_value x)
          (on_goal 2 => (unfold x; clear x)))
       | (refine Keeps.cut (x := x.2) (fun hx => ?_) ?_; (on_goal 1 => clear_value x)
          (on_goal 2 => (unfold x; clear x)))
       | clear_value x)
    | with_reducible apply Keeps.refl
    | with_reducible apply Keeps.then_ (keep_updOutlet ..)
    | with_reducible apply Keeps.then_ (keep_answer ..)
    | with_reducible apply Keeps.then_ (keep_answerOther ..)
    | with_reducible apply Keeps.then_ (keep_progress ..)
    | with_reducible apply Keeps.inSession
    | decide
    | (beta_reduce; split)

theorem frame_powerDelivery (o : Fin 2) (m : PowerMode) :
    Kept [.sxChannel, .sxCell, .sxStage, .sxAux, .sxRest, .outlet, .rdr, .lkOut, .lkOutlet, .lkRest, .wrk, .log,
        .flt] (.powerDelivery o m) := by
  intro s s' e
  change execPowerDelivery o m s = .next s' at e
  unfold execPowerDelivery at e
  injection e with e
  subst e
  repeat' first
    | with_reducible assumption
    | (extract_lets -merge +onlyGivenNames x
       first
       | (refine Keeps.cut (x := x) (fun hx => ?_) ?_; (on_goal 1 => clear_value x)
          (on_goal 2 => (unfold x; clear x)))
       | (refine Keeps.cut (x := x.2) (fun hx => ?_) ?_; (on_goal 1 => clear_value x)
          (on_goal 2 => (unfold x; clear x)))
       | clear_value x)
    | with_reducible apply Keeps.refl
    | with_reducible apply Keeps.then_ (keep_updOutlet ..)
    | with_reducible apply Keeps.then_ (keep_answer ..)
    | with_reducible apply Keeps.then_ (keep_answerOther ..)
    | with_reducible apply Keeps.then_ (keep_answerStop ..)
    | with_reducible apply Keeps.then_ (keep_stopTrigger ..)
    | with_reducible apply Keeps.inSession
    | (with_reducible refine keep_isoOnly _ _ _ (fun _ => ?_) ?_)
    | decide
    | (beta_reduce; split)

theorem frame_dcChargeLoop (o : Fin 2) (iReq target exportLim : Nat) (error : Bool) :
    Kept [.sxChannel, .sxCell, .sxStage, .sxAux, .sxRest, .outlet, .rdr, .lkOut, .lkOutlet, .lkRest, .wrk, .log,
        .flt] (.dcChargeLoop o iReq target exportLim error) := by
  intro s s' e
  change execDcChargeLoop o iReq target exportLim error s = .next s' at e
  unfold execDcChargeLoop at e
  injection e with e
  subst e
  refine Keeps.inSession (Keeps.refl _ _) (Keeps.ite ((keep_outletFault s o _).mono (by decide)) ?_)
  split
  · extract_lets e' t u v
    have hu : Keeps [.sxChannel, .sxCell, .sxStage, .sxAux, .sxRest, .outlet, .rdr, .lkOut, .lkOutlet, .lkRest,
        .wrk, .log, .flt] s u := by
      have ht := (keep_updOutlet s o fun x => { x with vehI := iReq, vehV := target, tmr := { x.tmr with loop :=
          true } })
      change Keeps [.outlet] s t at ht
      have ht' : Keeps [.sxChannel, .sxCell, .sxStage, .sxAux, .sxRest, .outlet, .rdr, .lkOut, .lkOutlet, .lkRest,
          .wrk, .log, .flt] s t := ht.mono (by decide)
      unfold u
      split
      · exact ht'.trans ((keep_updStage t _ _).mono (by decide))
      · exact ht'
    have hv : Keeps [.sxChannel, .sxCell, .sxStage, .sxAux, .sxRest, .outlet, .rdr, .lkOut, .lkOutlet, .lkRest,
        .wrk, .log, .flt] s v := hu.trans ((keep_postSplit u).mono (by decide))
    exact hv.trans ((keep_answer v o _).mono (by decide))
  · exact (keep_answerOther s o).mono (by decide)

theorem frame_dcWeldingDetection (o : Fin 2) :
    Kept [.outlet] (.dcWeldingDetection o) := by
  intro s s' e
  change execDcWeldingDetection o s = .next s' at e
  unfold execDcWeldingDetection at e
  injection e with e
  subst e
  repeat' first
    | with_reducible assumption
    | (extract_lets -merge +onlyGivenNames x
       first
       | (refine Keeps.cut (x := x) (fun hx => ?_) ?_; (on_goal 1 => clear_value x)
          (on_goal 2 => (unfold x; clear x)))
       | (refine Keeps.cut (x := x.2) (fun hx => ?_) ?_; (on_goal 1 => clear_value x)
          (on_goal 2 => (unfold x; clear x)))
       | clear_value x)
    | with_reducible apply Keeps.refl
    | with_reducible apply Keeps.then_ (keep_answerOther ..)
    | with_reducible apply Keeps.inSession
    | decide

theorem frame_vehicleSessionStop (o : Fin 2) (_pause error : Bool) :
    Kept [.sxChannel, .sxCell, .sxStage, .sxAux, .sxRest, .outlet, .rdr, .lkOut, .lkOutlet, .lkRest, .wrk, .log,
        .flt] (.vehicleSessionStop o _pause error) := by
  intro s s' e
  change execVehicleSessionStop o _pause error s = .next s' at e
  unfold execVehicleSessionStop at e
  injection e with e
  subst e
  repeat' first
    | with_reducible assumption
    | (extract_lets -merge +onlyGivenNames x
       first
       | (refine Keeps.cut (x := x) (fun hx => ?_) ?_; (on_goal 1 => clear_value x)
          (on_goal 2 => (unfold x; clear x)))
       | (refine Keeps.cut (x := x.2) (fun hx => ?_) ?_; (on_goal 1 => clear_value x)
          (on_goal 2 => (unfold x; clear x)))
       | clear_value x)
    | with_reducible apply Keeps.refl
    | with_reducible apply Keeps.ite
    | with_reducible apply Keeps.then_ (keep_answerStop ..)
    | with_reducible apply Keeps.then_ (keep_outletFault ..)
    | with_reducible apply Keeps.then_ (keep_stopTrigger ..)
    | with_reducible apply Keeps.inSession
    | decide
    | (beta_reduce; split)

theorem frame_certificateInstallation (o : Fin 2) (exi : Bytes) :
    Kept [.sxChannel, .sxCell, .sxStage, .sxAux, .sxRest, .outlet, .rdr, .lkOut, .lkOutlet, .lkRest, .wrk,
        .hostSessions, .hostRest, .log, .flt] (.certificateInstallation o exi) := by
  intro s s' e
  change execCertificateInstallation o exi s = .next s' at e
  unfold execCertificateInstallation at e
  injection e with e
  subst e
  repeat' first
    | with_reducible assumption
    | (extract_lets -merge +onlyGivenNames x
       first
       | (refine Keeps.cut (x := x) (fun hx => ?_) ?_; (on_goal 1 => clear_value x)
          (on_goal 2 => (unfold x; clear x)))
       | (refine Keeps.cut (x := x.2) (fun hx => ?_) ?_; (on_goal 1 => clear_value x)
          (on_goal 2 => (unfold x; clear x)))
       | clear_value x)
    | with_reducible apply Keeps.refl
    | with_reducible apply Keeps.ite
    | with_reducible apply Keeps.then_ (keep_logInfo ..)
    | with_reducible apply Keeps.then_ (keep_emitEvent ..)
    | with_reducible apply Keeps.then_ (keep_answer ..)
    | with_reducible apply Keeps.inSession
    | (with_reducible refine keep_isoOnly _ _ _ (fun _ => ?_) ?_)
    | (with_reducible apply Keeps.foldl; on_goal 2 => intros)
    | decide
    | (beta_reduce; split)

theorem frame_vehicleLinkLost (o : Fin 2) :
    Kept [.sxChannel, .sxCell, .sxStage, .sxAux, .sxRest, .outlet, .rdr, .lkOut, .lkOutlet, .lkRest, .wrk, .log,
        .flt] (.vehicleLinkLost o) := by
  intro s s' e
  change execVehicleLinkLost o s = .next s' at e
  unfold execVehicleLinkLost at e
  injection e with e
  subst e
  repeat' first
    | with_reducible assumption
    | (extract_lets -merge +onlyGivenNames x
       first
       | (refine Keeps.cut (x := x) (fun hx => ?_) ?_; (on_goal 1 => clear_value x)
          (on_goal 2 => (unfold x; clear x)))
       | (refine Keeps.cut (x := x.2) (fun hx => ?_) ?_; (on_goal 1 => clear_value x)
          (on_goal 2 => (unfold x; clear x)))
       | clear_value x)
    | with_reducible apply Keeps.refl
    | with_reducible apply Keeps.ite
    | with_reducible apply Keeps.then_ (keep_outletFault ..)
    | decide
    | split

theorem frame_authorizationRequest (o : Fin 2) (kind : AuthKind) (ident : Bytes) (chainOk : Bool) :
    Kept [.sxChannel, .sxCell, .sxStage, .sxAux, .sxRest, .outlet, .rdr, .merMail, .com, .lkOut, .lkOutlet, .lkRest,
        .wrk, .hostSessions, .hostRest, .log, .flt] (.authorizationRequest o kind ident chainOk) := by
  intro s s' e
  change execAuthorizationRequest o kind ident chainOk s = .next s' at e
  unfold execAuthorizationRequest at e
  injection e with e
  subst e
  repeat' first
    | with_reducible assumption
    | (extract_lets -merge +onlyGivenNames x
       first
       | (refine Keeps.cut (x := x) (fun hx => ?_) ?_; (on_goal 1 => clear_value x)
          (on_goal 2 => (unfold x; clear x)))
       | (refine Keeps.cut (x := x.2) (fun hx => ?_) ?_; (on_goal 1 => clear_value x)
          (on_goal 2 => (unfold x; clear x)))
       | (have t : List Part := x; clear t; subst x)
       | clear_value x)
    | with_reducible apply Keeps.refl
    | with_reducible apply Keeps.ite
    | with_reducible apply Keeps.then_ (keep_answer ..)
    | with_reducible apply Keeps.then_ (keep_failVehicle ..)
    | with_reducible apply Keeps.inSession
    | with_reducible apply Keeps.then_ (keep_identify ..)
    | decide
    | (beta_reduce; split)

theorem frame_tAuthExpiry (o : Fin 2) :
    Kept [.outlet, .rdr, .merMail, .com, .lkOutlet, .log] (.tAuthExpiry o) := by
  intro s s' e
  change execTAuthExpiry o s = .next s' at e
  unfold execTAuthExpiry at e
  injection e with e
  subst e
  repeat' first
    | with_reducible assumption
    | (extract_lets -merge +onlyGivenNames x
       first
       | (refine Keeps.cut (x := x) (fun hx => ?_) ?_; (on_goal 1 => clear_value x)
          (on_goal 2 => (unfold x; clear x)))
       | (refine Keeps.cut (x := x.2) (fun hx => ?_) ?_; (on_goal 1 => clear_value x)
          (on_goal 2 => (unfold x; clear x)))
       | clear_value x)
    | with_reducible apply Keeps.refl
    | with_reducible apply Keeps.ite
    | with_reducible apply Keeps.then_ (keep_updOutlet ..)
    | with_reducible apply Keeps.then_ (keep_localDecision ..)
    | decide
    | (beta_reduce; split)

theorem frame_tInventoryExpiry (o : Fin 2) :
    Kept [.sxChannel, .sxCell, .sxStage, .sxAux, .sxRest, .outlet, .rdr, .lkOut, .lkOutlet, .lkRest, .wrk, .log,
        .flt] (.tInventoryExpiry o) := by
  intro s s' e
  change execTInventoryExpiry o s = .next s' at e
  unfold execTInventoryExpiry at e
  injection e with e
  subst e
  repeat' first
    | with_reducible assumption
    | (extract_lets -merge +onlyGivenNames x
       first
       | (refine Keeps.cut (x := x) (fun hx => ?_) ?_; (on_goal 1 => clear_value x)
          (on_goal 2 => (unfold x; clear x)))
       | (refine Keeps.cut (x := x.2) (fun hx => ?_) ?_; (on_goal 1 => clear_value x)
          (on_goal 2 => (unfold x; clear x)))
       | clear_value x)
    | with_reducible apply Keeps.refl
    | with_reducible apply Keeps.then_ (keep_expire ..)
    | decide

theorem frame_tLinkExpiry (o : Fin 2) :
    Kept [.sxChannel, .sxCell, .sxStage, .sxAux, .sxRest, .outlet, .rdr, .lkOut, .lkOutlet, .lkRest, .wrk, .log,
        .flt] (.tLinkExpiry o) := by
  intro s s' e
  change execTLinkExpiry o s = .next s' at e
  unfold execTLinkExpiry at e
  injection e with e
  subst e
  repeat' first
    | with_reducible assumption
    | (extract_lets -merge +onlyGivenNames x
       first
       | (refine Keeps.cut (x := x) (fun hx => ?_) ?_; (on_goal 1 => clear_value x)
          (on_goal 2 => (unfold x; clear x)))
       | (refine Keeps.cut (x := x.2) (fun hx => ?_) ?_; (on_goal 1 => clear_value x)
          (on_goal 2 => (unfold x; clear x)))
       | clear_value x)
    | with_reducible apply Keeps.refl
    | with_reducible apply Keeps.then_ (keep_expire ..)
    | decide

theorem frame_tSeqExpiry (o : Fin 2) :
    Kept [.sxChannel, .sxCell, .sxStage, .sxAux, .sxRest, .outlet, .rdr, .lkOut, .lkOutlet, .lkRest, .wrk, .log,
        .flt] (.tSeqExpiry o) := by
  intro s s' e
  change execTSeqExpiry o s = .next s' at e
  unfold execTSeqExpiry at e
  injection e with e
  subst e
  repeat' first
    | with_reducible assumption
    | (extract_lets -merge +onlyGivenNames x
       first
       | (refine Keeps.cut (x := x) (fun hx => ?_) ?_; (on_goal 1 => clear_value x)
          (on_goal 2 => (unfold x; clear x)))
       | (refine Keeps.cut (x := x.2) (fun hx => ?_) ?_; (on_goal 1 => clear_value x)
          (on_goal 2 => (unfold x; clear x)))
       | clear_value x)
    | with_reducible apply Keeps.refl
    | with_reducible apply Keeps.then_ (keep_expire ..)
    | decide

theorem frame_tIsoExpiry (o : Fin 2) :
    Kept [.sxChannel, .sxCell, .sxStage, .sxAux, .sxRest, .outlet, .rdr, .lkOut, .lkOutlet, .lkRest, .wrk, .log,
        .flt] (.tIsoExpiry o) := by
  intro s s' e
  change execTIsoExpiry o s = .next s' at e
  unfold execTIsoExpiry at e
  injection e with e
  subst e
  repeat' first
    | with_reducible assumption
    | (extract_lets -merge +onlyGivenNames x
       first
       | (refine Keeps.cut (x := x) (fun hx => ?_) ?_; (on_goal 1 => clear_value x)
          (on_goal 2 => (unfold x; clear x)))
       | (refine Keeps.cut (x := x.2) (fun hx => ?_) ?_; (on_goal 1 => clear_value x)
          (on_goal 2 => (unfold x; clear x)))
       | clear_value x)
    | with_reducible apply Keeps.refl
    | with_reducible apply Keeps.then_ (keep_expire ..)
    | decide

theorem frame_tDischExpiry (o : Fin 2) :
    Kept [.sxChannel, .sxCell, .sxStage, .sxAux, .sxRest, .outlet, .rdr, .lkOut, .lkOutlet, .lkRest, .wrk, .log,
        .flt] (.tDischExpiry o) := by
  intro s s' e
  change execTDischExpiry o s = .next s' at e
  unfold execTDischExpiry at e
  injection e with e
  subst e
  repeat' first
    | with_reducible assumption
    | (extract_lets -merge +onlyGivenNames x
       first
       | (refine Keeps.cut (x := x) (fun hx => ?_) ?_; (on_goal 1 => clear_value x)
          (on_goal 2 => (unfold x; clear x)))
       | (refine Keeps.cut (x := x.2) (fun hx => ?_) ?_; (on_goal 1 => clear_value x)
          (on_goal 2 => (unfold x; clear x)))
       | clear_value x)
    | with_reducible apply Keeps.refl
    | with_reducible apply Keeps.then_ (keep_expire ..)
    | decide

theorem frame_tLockExpiry (o : Fin 2) :
    Kept [.sxChannel, .sxCell, .sxStage, .sxAux, .sxRest, .outlet, .rdr, .lkOut, .lkOutlet, .lkRest, .wrk, .log,
        .flt] (.tLockExpiry o) := by
  intro s s' e
  change execTLockExpiry o s = .next s' at e
  unfold execTLockExpiry at e
  injection e with e
  subst e
  repeat' first
    | with_reducible assumption
    | (extract_lets -merge +onlyGivenNames x
       first
       | (refine Keeps.cut (x := x) (fun hx => ?_) ?_; (on_goal 1 => clear_value x)
          (on_goal 2 => (unfold x; clear x)))
       | (refine Keeps.cut (x := x.2) (fun hx => ?_) ?_; (on_goal 1 => clear_value x)
          (on_goal 2 => (unfold x; clear x)))
       | clear_value x)
    | with_reducible apply Keeps.refl
    | with_reducible apply Keeps.ite
    | with_reducible apply Keeps.then_ (keep_updOutlet ..)
    | with_reducible apply Keeps.then_ (keep_outletFault ..)
    | decide
    | (beta_reduce; split)

theorem frame_tOngoingExpiry (o : Fin 2) :
    Kept [.sxChannel, .sxCell, .sxStage, .sxAux, .sxRest, .outlet, .rdr, .lkOut, .lkOutlet, .lkRest, .wrk, .log,
        .flt] (.tOngoingExpiry o) := by
  intro s s' e
  change execTOngoingExpiry o s = .next s' at e
  unfold execTOngoingExpiry at e
  injection e with e
  subst e
  repeat' first
    | with_reducible assumption
    | (extract_lets -merge +onlyGivenNames x
       first
       | (refine Keeps.cut (x := x) (fun hx => ?_) ?_; (on_goal 1 => clear_value x)
          (on_goal 2 => (unfold x; clear x)))
       | (refine Keeps.cut (x := x.2) (fun hx => ?_) ?_; (on_goal 1 => clear_value x)
          (on_goal 2 => (unfold x; clear x)))
       | clear_value x)
    | with_reducible apply Keeps.refl
    | with_reducible apply Keeps.then_ (keep_outletFault ..)
    | decide
    | split

theorem frame_tLoopExpiry (o : Fin 2) :
    Kept [.sxChannel, .sxCell, .sxStage, .sxAux, .sxRest, .outlet, .rdr, .lkOut, .lkOutlet, .lkRest, .wrk, .log,
        .flt] (.tLoopExpiry o) := by
  intro s s' e
  change execTLoopExpiry o s = .next s' at e
  unfold execTLoopExpiry at e
  injection e with e
  subst e
  repeat' first
    | with_reducible assumption
    | (extract_lets -merge +onlyGivenNames x
       first
       | (refine Keeps.cut (x := x) (fun hx => ?_) ?_; (on_goal 1 => clear_value x)
          (on_goal 2 => (unfold x; clear x)))
       | (refine Keeps.cut (x := x.2) (fun hx => ?_) ?_; (on_goal 1 => clear_value x)
          (on_goal 2 => (unfold x; clear x)))
       | clear_value x)
    | with_reducible apply Keeps.refl
    | with_reducible apply Keeps.ite
    | with_reducible apply Keeps.then_ (keep_updOutlet ..)
    | with_reducible apply Keeps.then_ (keep_stopTrigger ..)
    | decide
    | (beta_reduce; split)

theorem frame_tStandbyExpiry (o : Fin 2) :
    Kept [.sxChannel, .sxCell, .sxStage, .sxAux, .sxRest, .outlet, .rdr, .lkOut, .lkOutlet, .lkRest, .wrk, .log,
        .flt] (.tStandbyExpiry o) := by
  intro s s' e
  change execTStandbyExpiry o s = .next s' at e
  unfold execTStandbyExpiry at e
  injection e with e
  subst e
  repeat' first
    | with_reducible assumption
    | (extract_lets -merge +onlyGivenNames x
       first
       | (refine Keeps.cut (x := x) (fun hx => ?_) ?_; (on_goal 1 => clear_value x)
          (on_goal 2 => (unfold x; clear x)))
       | (refine Keeps.cut (x := x.2) (fun hx => ?_) ?_; (on_goal 1 => clear_value x)
          (on_goal 2 => (unfold x; clear x)))
       | clear_value x)
    | with_reducible apply Keeps.refl
    | with_reducible apply Keeps.ite
    | with_reducible apply Keeps.then_ (keep_updOutlet ..)
    | with_reducible apply Keeps.then_ (keep_stopTrigger ..)
    | decide
    | (beta_reduce; split)

theorem frame_isoDwellEnd (o : Fin 2) :
    Kept [.sxChannel, .sxCell, .sxStage, .sxAux, .sxLaw, .sxRest, .outlet, .rdr, .lkOut, .lkOutlet, .lkRest, .wrk,
        .log, .flt] (.isoDwellEnd o) := by
  intro s s' e
  change execIsoDwellEnd o s = .next s' at e
  unfold execIsoDwellEnd at e
  injection e with e
  subst e
  repeat' first
    | with_reducible assumption
    | (extract_lets -merge +onlyGivenNames x
       first
       | (refine Keeps.cut (x := x) (fun hx => ?_) ?_; (on_goal 1 => clear_value x)
          (on_goal 2 => (unfold x; clear x)))
       | (refine Keeps.cut (x := x.2) (fun hx => ?_) ?_; (on_goal 1 => clear_value x)
          (on_goal 2 => (unfold x; clear x)))
       | clear_value x)
    | with_reducible apply Keeps.refl
    | with_reducible apply Keeps.ite
    | with_reducible apply Keeps.then_ (keep_updOutlet ..)
    | with_reducible apply Keeps.then_ (keep_progress ..)
    | decide
    | (beta_reduce; split)

theorem frame_lockConfirmed (o : Fin 2) :
    Kept [.sxChannel, .sxCell, .sxStage, .sxAux, .sxLaw, .sxRest, .outlet, .rdr, .lkOut, .lkOutlet, .lkLatch,
        .lkRest, .wrk, .log, .flt] (.lockConfirmed o) := by
  intro s s' e
  change execLockConfirmed o s = .next s' at e
  unfold execLockConfirmed at e
  injection e with e
  subst e
  repeat' first
    | with_reducible assumption
    | (extract_lets -merge +onlyGivenNames x
       first
       | (refine Keeps.cut (x := x) (fun hx => ?_) ?_; (on_goal 1 => clear_value x)
          (on_goal 2 => (unfold x; clear x)))
       | (refine Keeps.cut (x := x.2) (fun hx => ?_) ?_; (on_goal 1 => clear_value x)
          (on_goal 2 => (unfold x; clear x)))
       | clear_value x)
    | with_reducible apply Keeps.refl
    | with_reducible apply Keeps.ite
    | with_reducible apply Keeps.then_ (keep_updOutlet ..)
    | with_reducible apply Keeps.then_ (keep_updLko ..)
    | with_reducible apply Keeps.then_ (keep_settle ..)
    | decide
    | (beta_reduce; split)

theorem frame_contactorsOpenConfirmed (o : Fin 2) :
    Kept [.sxChannel, .sxCell, .sxStage, .sxAux, .sxLaw, .sxRest, .outlet, .rdr, .lkOut, .lkOutlet, .lkLatch,
        .lkRest, .wrk, .log, .flt] (.contactorsOpenConfirmed o) := by
  intro s s' e
  change execContactorsOpenConfirmed o s = .next s' at e
  unfold execContactorsOpenConfirmed at e
  injection e with e
  subst e
  repeat' first
    | with_reducible assumption
    | (extract_lets -merge +onlyGivenNames x
       first
       | (refine Keeps.cut (x := x) (fun hx => ?_) ?_; (on_goal 1 => clear_value x)
          (on_goal 2 => (unfold x; clear x)))
       | (refine Keeps.cut (x := x.2) (fun hx => ?_) ?_; (on_goal 1 => clear_value x)
          (on_goal 2 => (unfold x; clear x)))
       | clear_value x)
    | with_reducible apply Keeps.refl
    | with_reducible apply Keeps.ite
    | with_reducible apply Keeps.then_ (keep_updOutlet ..)
    | with_reducible apply Keeps.then_ (keep_setFeedback ..)
    | with_reducible apply Keeps.then_ (keep_enter ..)
    | with_reducible apply Keeps.then_ (keep_settle ..)
    | decide
    | (beta_reduce; split)

theorem frame_vehicleSideDischarged (o : Fin 2) :
    Kept [.sxChannel, .sxCell, .sxStage, .sxAux, .sxLaw, .sxRest, .outlet, .rdr, .lkOut, .lkOutlet, .lkLatch,
        .lkRest, .wrk, .log, .flt] (.vehicleSideDischarged o) := by
  intro s s' e
  change execVehicleSideDischarged o s = .next s' at e
  unfold execVehicleSideDischarged at e
  injection e with e
  subst e
  repeat' first
    | with_reducible assumption
    | (extract_lets -merge +onlyGivenNames x
       first
       | (refine Keeps.cut (x := x) (fun hx => ?_) ?_; (on_goal 1 => clear_value x)
          (on_goal 2 => (unfold x; clear x)))
       | (refine Keeps.cut (x := x.2) (fun hx => ?_) ?_; (on_goal 1 => clear_value x)
          (on_goal 2 => (unfold x; clear x)))
       | clear_value x)
    | with_reducible apply Keeps.refl
    | with_reducible apply Keeps.ite
    | with_reducible apply Keeps.then_ (keep_updOutlet ..)
    | with_reducible apply Keeps.then_ (keep_enter ..)
    | with_reducible apply Keeps.then_ (keep_settle ..)
    | with_reducible apply Keeps.then_ (keep_askUnlock ..)
    | decide
    | (beta_reduce; split)

theorem frame_unlockConfirmed (o : Fin 2) :
    Kept [.sxChannel, .sxCell, .sxStage, .sxAux, .sxLaw, .sxRest, .outlet, .rdr, .merMail, .lkOut, .lkOutlet,
        .lkLatch, .lkRest, .wrk, .log, .flt] (.unlockConfirmed o) := by
  intro s s' e
  change execUnlockConfirmed o s = .next s' at e
  unfold execUnlockConfirmed at e
  injection e with e
  subst e
  repeat' first
    | with_reducible assumption
    | (extract_lets -merge +onlyGivenNames x
       first
       | (refine Keeps.cut (x := x) (fun hx => ?_) ?_; (on_goal 1 => clear_value x)
          (on_goal 2 => (unfold x; clear x)))
       | (refine Keeps.cut (x := x.2) (fun hx => ?_) ?_; (on_goal 1 => clear_value x)
          (on_goal 2 => (unfold x; clear x)))
       | clear_value x)
    | with_reducible apply Keeps.refl
    | with_reducible apply Keeps.ite
    | with_reducible apply Keeps.then_ (keep_updOutlet ..)
    | with_reducible apply Keeps.then_ (keep_updLko ..)
    | with_reducible apply Keeps.then_ (keep_toIdle ..)
    | with_reducible apply Keeps.then_ (keep_rest ..)
    | with_reducible apply Keeps.then_ (keep_endLink ..)
    | with_reducible apply Keeps.then_ (keep_finish ..)
    | with_reducible apply Keeps.then_ (keep_settle ..)
    | with_reducible apply Keeps.then_ (keep_closeRecordOf ..)
    | decide
    | (beta_reduce; split)

theorem frame_faultedContactorOpen (o : Fin 2) :
    Kept [.sxChannel, .sxCell, .sxStage, .sxAux, .sxLaw, .sxRest, .outlet, .rdr, .lkOut, .lkOutlet, .lkLatch,
        .lkRest, .wrk, .log, .flt] (.faultedContactorOpen o) := by
  intro s s' e
  change execFaultedContactorOpen o s = .next s' at e
  unfold execFaultedContactorOpen at e
  injection e with e
  subst e
  repeat' first
    | with_reducible assumption
    | (extract_lets -merge +onlyGivenNames x
       first
       | (refine Keeps.cut (x := x) (fun hx => ?_) ?_; (on_goal 1 => clear_value x)
          (on_goal 2 => (unfold x; clear x)))
       | (refine Keeps.cut (x := x.2) (fun hx => ?_) ?_; (on_goal 1 => clear_value x)
          (on_goal 2 => (unfold x; clear x)))
       | clear_value x)
    | with_reducible apply Keeps.refl
    | with_reducible apply Keeps.ite
    | with_reducible apply Keeps.then_ (keep_settle ..)
    | with_reducible apply Keeps.then_ (keep_openContactors ..)
    | decide
    | split

theorem frame_coolingInputUpdate (o : Fin 2) (j : Fin 8) (value : Int) (time : Nat) :
    Kept [.sxCell, .sxStage, .sxLaw, .sxRest, .outlet, .cooling, .wrk, .log, .flt] (.coolingInputUpdate o j value
        time) := by
  intro s s' e
  change execCoolingInputUpdate o j value time s = .next s' at e
  unfold execCoolingInputUpdate at e
  injection e with e
  subst e
  repeat' first
    | with_reducible assumption
    | (extract_lets -merge +onlyGivenNames x
       first
       | (refine Keeps.cut (x := x) (fun hx => ?_) ?_; (on_goal 1 => clear_value x)
          (on_goal 2 => (unfold x; clear x)))
       | (refine Keeps.cut (x := x.2) (fun hx => ?_) ?_; (on_goal 1 => clear_value x)
          (on_goal 2 => (unfold x; clear x)))
       | clear_value x)
    | with_reducible apply Keeps.refl
    | with_reducible apply Keeps.then_ (keep_coolInput ..)
    | decide

theorem frame_tagStale500ms (o : Fin 2) :
    Kept [.sxCell, .sxStage, .sxRest, .outlet, .cooling, .wrk, .log, .flt] (.tagStale500ms o) := by
  intro s s' e
  change execTagStale500ms o s = .next s' at e
  unfold execTagStale500ms at e
  injection e with e
  subst e
  repeat' first
    | with_reducible assumption
    | (extract_lets -merge +onlyGivenNames x
       first
       | (refine Keeps.cut (x := x) (fun hx => ?_) ?_; (on_goal 1 => clear_value x)
          (on_goal 2 => (unfold x; clear x)))
       | (refine Keeps.cut (x := x.2) (fun hx => ?_) ?_; (on_goal 1 => clear_value x)
          (on_goal 2 => (unfold x; clear x)))
       | clear_value x)
    | with_reducible apply Keeps.refl
    | with_reducible apply Keeps.ite
    | with_reducible apply Keeps.then_ (keep_logDetect ..)
    | with_reducible apply Keeps.then_ (keep_updCooling ..)
    | with_reducible apply Keeps.then_ (keep_setUncooled ..)
    | decide
    | (beta_reduce; split)

theorem frame_tagStale2s (o : Fin 2) :
    Kept [.sxChannel, .sxCell, .sxStage, .sxAux, .sxRest, .outlet, .cooling, .rdr, .lkOut, .lkOutlet, .lkRest, .wrk,
        .log, .flt] (.tagStale2s o) := by
  intro s s' e
  change execTagStale2s o s = .next s' at e
  unfold execTagStale2s at e
  injection e with e
  subst e
  repeat' first
    | with_reducible assumption
    | (extract_lets -merge +onlyGivenNames x
       first
       | (refine Keeps.cut (x := x) (fun hx => ?_) ?_; (on_goal 1 => clear_value x)
          (on_goal 2 => (unfold x; clear x)))
       | (refine Keeps.cut (x := x.2) (fun hx => ?_) ?_; (on_goal 1 => clear_value x)
          (on_goal 2 => (unfold x; clear x)))
       | clear_value x)
    | with_reducible apply Keeps.refl
    | with_reducible apply Keeps.ite
    | with_reducible apply Keeps.then_ (keep_updCooling ..)
    | with_reducible apply Keeps.then_ (keep_staleTags ..)
    | decide
    | (beta_reduce; split)

theorem frame_driveFault (d : Fin 6) (pulses ms : Nat) :
    Kept [.sxCell, .sxStage, .sxRest, .outlet, .cooling, .drive, .wrk, .log, .flt] (.driveFault d pulses ms) := by
  intro s s' e
  change execDriveFault d pulses ms s = .next s' at e
  unfold execDriveFault at e
  injection e with e
  subst e
  repeat' first
    | with_reducible assumption
    | (extract_lets -merge +onlyGivenNames x
       first
       | (refine Keeps.cut (x := x) (fun hx => ?_) ?_; (on_goal 1 => clear_value x)
          (on_goal 2 => (unfold x; clear x)))
       | (refine Keeps.cut (x := x.2) (fun hx => ?_) ?_; (on_goal 1 => clear_value x)
          (on_goal 2 => (unfold x; clear x)))
       | clear_value x)
    | with_reducible apply Keeps.refl
    | with_reducible apply Keeps.ite
    | with_reducible apply Keeps.then_ (keep_logDetect ..)
    | with_reducible apply Keeps.then_ (keep_setUncooled ..)
    | with_reducible apply Keeps.then_ (keep_updDrive ..)
    | with_reducible apply Keeps.then_ (keep_takeSpeed ..)
    | decide
    | (beta_reduce; split)

theorem frame_driveFaultClear (d : Fin 6) (pulses ms : Nat) :
    Kept [.drive, .log, .flt] (.driveFaultClear d pulses ms) := by
  intro s s' e
  change execDriveFaultClear d pulses ms s = .next s' at e
  unfold execDriveFaultClear at e
  injection e with e
  subst e
  repeat' first
    | with_reducible assumption
    | (extract_lets -merge +onlyGivenNames x
       first
       | (refine Keeps.cut (x := x) (fun hx => ?_) ?_; (on_goal 1 => clear_value x)
          (on_goal 2 => (unfold x; clear x)))
       | (refine Keeps.cut (x := x.2) (fun hx => ?_) ?_; (on_goal 1 => clear_value x)
          (on_goal 2 => (unfold x; clear x)))
       | clear_value x)
    | with_reducible apply Keeps.refl
    | with_reducible apply Keeps.ite
    | with_reducible apply Keeps.then_ (keep_logClear ..)
    | with_reducible apply Keeps.then_ (keep_updDrive ..)
    | with_reducible apply Keeps.then_ (keep_takeSpeed ..)
    | decide
    | (beta_reduce; split)

theorem frame_flowLow (o : Fin 2) :
    Kept [.sxCell, .sxStage, .sxRest, .outlet, .cooling, .wrk] (.flowLow o) := by
  intro s s' e
  change execFlowLow o s = .next s' at e
  unfold execFlowLow at e
  injection e with e
  subst e
  repeat' first
    | with_reducible assumption
    | (extract_lets -merge +onlyGivenNames x
       first
       | (refine Keeps.cut (x := x) (fun hx => ?_) ?_; (on_goal 1 => clear_value x)
          (on_goal 2 => (unfold x; clear x)))
       | (refine Keeps.cut (x := x.2) (fun hx => ?_) ?_; (on_goal 1 => clear_value x)
          (on_goal 2 => (unfold x; clear x)))
       | clear_value x)
    | with_reducible apply Keeps.refl
    | with_reducible apply Keeps.ite
    | with_reducible apply Keeps.then_ (keep_updCooling ..)
    | with_reducible apply Keeps.then_ (keep_setUncooled ..)
    | decide
    | (beta_reduce; split)

end Sys2Proof.Machine
end

