-- ==== Sys2Proof/Laws/FrameParams.lean ====
section
/-!
SUPPORT. What each operation of Machine/Params.lean leaves unchanged.
-/
namespace Sys2Proof.Machine

set_option linter.unreachableTactic false
set_option linter.unusedTactic false
set_option linter.tactic.unusedName false

theorem keep_capture (s : State) (sid : Nat) (ws : List (Nat × Nat)) :
    Keeps [.hostSessions] s (capture s sid ws) := by
  unfold capture
  repeat' first
    | with_reducible assumption
    | (extract_lets -merge +onlyGivenNames x
       first
       | (refine Keeps.cut (x := x) (fun hx => ?_) ?_; (on_goal 1 => clear_value x)
          (on_goal 2 => (unfold x; clear x)))
       | (refine Keeps.cut (x := x.2) (fun hx => ?_) ?_; (on_goal 1 => clear_value x)
          (on_goal 2 => (unfold x; clear x)))
       | clear_value x)
    | with_reducible apply Keeps.refl
    | with_reducible apply Keeps.then_ (keep_updSession ..)
    | decide

theorem keep_captureOn (s : State) (sid a : Nat) :
    Keeps [.hostSessions] s (captureOn s sid a) := by
  unfold captureOn
  repeat' first
    | with_reducible assumption
    | (extract_lets -merge +onlyGivenNames x
       first
       | (refine Keeps.cut (x := x) (fun hx => ?_) ?_; (on_goal 1 => clear_value x)
          (on_goal 2 => (unfold x; clear x)))
       | (refine Keeps.cut (x := x.2) (fun hx => ?_) ?_; (on_goal 1 => clear_value x)
          (on_goal 2 => (unfold x; clear x)))
       | clear_value x)
    | with_reducible apply Keeps.refl
    | with_reducible apply Keeps.ite
    | with_reducible apply Keeps.then_ (keep_capture ..)
    | decide
    | split

theorem keep_selectRecord (s : State) (sid : Nat) (sel : RecordSel) (i : Nat) :
    Keeps [.hostSessions] s (selectRecord s sid sel i) := by
  unfold selectRecord
  repeat' first
    | with_reducible assumption
    | (extract_lets -merge +onlyGivenNames x
       first
       | (refine Keeps.cut (x := x) (fun hx => ?_) ?_; (on_goal 1 => clear_value x)
          (on_goal 2 => (unfold x; clear x)))
       | (refine Keeps.cut (x := x.2) (fun hx => ?_) ?_; (on_goal 1 => clear_value x)
          (on_goal 2 => (unfold x; clear x)))
       | clear_value x)
    | with_reducible apply Keeps.refl
    | with_reducible apply Keeps.then_ (keep_capture ..)
    | decide
    | (beta_reduce; split)

theorem keep_readWords (n sid a : Nat) (s : State) : Keeps [.hostSessions] s (readWords n sid a s).2 := by
  induction n generalizing a s with
  | zero => exact Keeps.refl _ _
  | succ n ih =>
    unfold readWords
    extract_lets t x r
    exact Keeps.trans ((keep_captureOn s sid a).mono (by decide)) (ih (a + 4) t)

end Sys2Proof.Machine
end

