-- ==== Sys2Proof/Laws/FrameParamWrite.lean ====
section
/-!
SUPPORT. What each operation of Machine/ParamWrite.lean leaves unchanged.
-/
namespace Sys2Proof.Machine

set_option linter.unreachableTactic false
set_option linter.unusedTactic false
set_option linter.tactic.unusedName false

theorem keep_clearCounter (s : State) (a : Nat) :
    Keeps [.sxChannel, .sxAux, .sxLaw, .rdr, .merFe, .merLeg, .disp, .txl, .ll, .mgr, .wrk, .hostSessions,
        .hostRest, .flt] s (clearCounter s a) := by
  have rf : Keeps [.sxChannel, .sxAux, .sxLaw, .rdr, .merFe, .merLeg, .disp, .txl, .ll, .mgr, .wrk, .hostSessions,
      .hostRest, .flt] s s := Keeps.refl _ _
  unfold clearCounter
  extract_lets inst off
  split
  · refine Keeps.ite (Keeps.upd_host (rf) (Or.inl (by decide)) (Or.inr rfl) (Or.inr rfl) (Or.inl (by decide)))
      (Keeps.ite (Keeps.upd_host (rf) (Or.inl (by decide)) (Or.inr rfl) (Or.inr rfl) (Or.inl (by decide)))
      (Keeps.ite (Keeps.upd_flt rf (by decide)) (Keeps.ite (Keeps.upd_flt rf (by decide)) ?_)))
    exact Keeps.upd_host (rf) (Or.inl (by decide)) (Or.inr rfl) (Or.inr rfl) (Or.inl (by decide))
  · exact (keep_updAux s _ _).mono (by decide)
  · exact (keep_updChannel s _ _).mono (by decide)
  · exact (keep_updLaw s _ _).mono (by decide)
  · exact Keeps.ite (Keeps.upd_rdr rf (by decide)) (Keeps.upd_rdr rf (by decide))
  · refine Keeps.ite ((keep_updMch s _ _).mono (by decide)) (Keeps.ite ((keep_updLeg s _).mono (by decide)) ?_)
    exact (keep_updLeg s _).mono (by decide)
  · exact (keep_updTxlPort s _ _).mono (by decide)
  · exact Keeps.ite (Keeps.upd_ll rf (by decide)) (Keeps.ite (Keeps.upd_ll rf (by decide)) (Keeps.upd_ll rf (by
      decide)))
  · refine Keeps.ite (Keeps.upd_mgr rf (by decide)) ?_
    exact Keeps.upd_wrk (v := { s.wrk with fenced := 0 }) (Keeps.upd_mgr (v := { s.mgr with shadowCnt := 0 }) rf
      (by decide)) (by decide)
  · exact Keeps.ite (Keeps.upd_disp rf (by decide) fun h => h) (Keeps.upd_disp rf (by decide) fun h => h)
  · exact rf

theorem keep_clearW1c (s : State) (a w : Nat) :
    Keeps [.sxChannel, .sxAux, .sxSd, .sxLaw, .sxRest, .rdr, .txl] s (clearW1c s a w) := by
  unfold clearW1c
  repeat' first
    | with_reducible assumption
    | (extract_lets -merge +onlyGivenNames x
       first
       | (refine Keeps.cut (x := x) (fun hx => ?_) ?_; (on_goal 1 => clear_value x)
          (on_goal 2 => (unfold x; clear x)))
       | (refine Keeps.cut (x := x.2) (fun hx => ?_) ?_; (on_goal 1 => clear_value x)
          (on_goal 2 => (unfold x; clear x)))
       | (have t : Sextant := x; clear t; subst x)
       | clear_value x)
    | with_reducible apply Keeps.refl
    | with_reducible apply Keeps.ite
    | with_reducible apply Keeps.then_ (keep_updAux ..)
    | with_reducible apply Keeps.then_ (keep_updChannel ..)
    | with_reducible apply Keeps.then_ (keep_updSd ..)
    | with_reducible apply Keeps.then_ (keep_updLaw ..)
    | with_reducible apply Keeps.then_ (keep_updPort ..)
    | with_reducible apply Keeps.then_ (keep_updTxlPort ..)
    | (with_reducible apply Keeps.foldl; on_goal 2 => intros)
    | (beta_reduce; split)
    | with_reducible apply Keeps.upd_sx
    | (with_reducible apply Or.inl; decide)
    | (with_reducible apply Or.inr; with_reducible rfl)
    | (with_reducible apply Or.inr; rfl)
    | decide

theorem keep_setEmerg (s : State) (n : Nat) (mode : Nat) (req : Bool) :
    Keeps [.com, .log] s (setEmerg s n mode req) := by
  unfold setEmerg
  repeat' first
    | with_reducible assumption
    | (extract_lets -merge +onlyGivenNames x
       first
       | (refine Keeps.cut (x := x) (fun hx => ?_) ?_; (on_goal 1 => clear_value x)
          (on_goal 2 => (unfold x; clear x)))
       | (refine Keeps.cut (x := x.2) (fun hx => ?_) ?_; (on_goal 1 => clear_value x)
          (on_goal 2 => (unfold x; clear x)))
       | clear_value x)
    | with_reducible apply Keeps.refl
    | with_reducible apply Keeps.ite
    | with_reducible apply Keeps.then_ (keep_logInfo ..)
    | with_reducible apply Keeps.then_ (keep_updAccount ..)
    | decide
    | (beta_reduce; split)

theorem keep_writeCommercial (s : State) (a w : Nat) :
    Keeps [.com, .log] s (writeCommercial s a w) := by
  unfold writeCommercial
  repeat' first
    | with_reducible assumption
    | (extract_lets -merge +onlyGivenNames x
       first
       | (refine Keeps.cut (x := x) (fun hx => ?_) ?_; (on_goal 1 => clear_value x)
          (on_goal 2 => (unfold x; clear x)))
       | (refine Keeps.cut (x := x.2) (fun hx => ?_) ?_; (on_goal 1 => clear_value x)
          (on_goal 2 => (unfold x; clear x)))
       | (have t : Commercial := x; clear t; subst x)
       | clear_value x)
    | with_reducible apply Keeps.refl
    | with_reducible apply Keeps.then_ (keep_updAccount ..)
    | with_reducible apply Keeps.then_ (keep_setEmerg ..)
    | (beta_reduce; split)
    | with_reducible apply Keeps.upd_com
    | exact fun h => h
    | exact fun _ h => h
    | (intro _ hd; split <;> exact hd)
    | exact fun h => sparsePut_wf h _ _
    | exact fun _ h => sparsePut_wf h _ _
    | decide

theorem keep_stageWord (s : State) (a w : Nat) :
    Keeps [.merRegs] s (stageWord s a w) := by
  unfold stageWord
  repeat' first
    | with_reducible assumption
    | (extract_lets -merge +onlyGivenNames x
       first
       | (refine Keeps.cut (x := x) (fun hx => ?_) ?_; (on_goal 1 => clear_value x)
          (on_goal 2 => (unfold x; clear x)))
       | (refine Keeps.cut (x := x.2) (fun hx => ?_) ?_; (on_goal 1 => clear_value x)
          (on_goal 2 => (unfold x; clear x)))
       | (have t : Meridian := x; clear t; subst x)
       | clear_value x)
    | with_reducible apply Keeps.refl
    | with_reducible apply Keeps.upd_mer
    | (with_reducible apply Or.inl; decide)
    | (with_reducible apply Or.inr; with_reducible rfl)
    | (with_reducible apply Or.inr; rfl)
    | exact fun h => h
    | exact fun _ h => h
    | (intro _ hd; split <;> exact hd)
    | exact fun h => stagedPut_wf h rfl rfl
    | exact fun h => sparsePut_wf h _ _
    | exact fun _ h => sparsePut_wf h _ _
    | decide

theorem keep_writeWord (s : State) (sid : Nat) (role : Fin 4) (a w : Nat) :
    Keeps ([Part.cfg, Part.sxChannel, Part.sxAux, Part.sxSd, Part.sxLaw, Part.sxRest, Part.rdr, Part.merFe,
        Part.merLeg, Part.merRegs, Part.com, Part.disp, Part.txl, Part.ll, Part.mgr] ++ [Part.wrk,
        Part.hostSessions, Part.hostRest, Part.tamper, Part.log, Part.flt]) s (writeWord s sid role a w) := by
  unfold writeWord
  repeat' first
    | with_reducible assumption
    | (extract_lets -merge +onlyGivenNames x
       first
       | (refine Keeps.cut (x := x) (fun hx => ?_) ?_; (on_goal 1 => clear_value x)
          (on_goal 2 => (unfold x; clear x)))
       | (refine Keeps.cut (x := x.2) (fun hx => ?_) ?_; (on_goal 1 => clear_value x)
          (on_goal 2 => (unfold x; clear x)))
       | (have t : List Part := x; clear t; subst x)
       | (have t : _ → State := x; clear t; subst x)
       | (have t : _ → _ → State := x; clear t; subst x)
       | (have t : _ → _ → Display := x; clear t; subst x)
       | clear_value x)
    | with_reducible apply Keeps.refl
    | with_reducible apply Keeps.ite
    | with_reducible apply Keeps.then_ (keep_cfgPut ..)
    | with_reducible apply Keeps.then_ (keep_selectRecord ..)
    | with_reducible apply Keeps.then_ (keep_clearCounter ..)
    | with_reducible apply Keeps.then_ (keep_clearW1c ..)
    | with_reducible apply Keeps.then_ (keep_writeCommercial ..)
    | with_reducible apply Keeps.then_ (keep_stageWord ..)
    | (beta_reduce; split)
    | with_reducible apply Keeps.upd_tamper
    | decide

theorem keep_writeWords (s : State) (sid : Nat) (role : Fin 4) (ws : List (Nat × Nat)) :
    Keeps ([Part.cfg, Part.sxChannel, Part.sxAux, Part.sxSd, Part.sxLaw, Part.sxRest, Part.rdr, Part.merFe,
        Part.merLeg, Part.merRegs, Part.com, Part.disp, Part.txl, Part.ll, Part.mgr] ++ [Part.wrk,
        Part.hostSessions, Part.hostRest, Part.tamper, Part.log, Part.flt]) s (writeWords s sid role ws).2 := by
  suffices h : ∀ (l : List (Nat × Nat)) (p : Status × State), Keeps ([Part.cfg, Part.sxChannel, Part.sxAux,
      Part.sxSd, Part.sxLaw, Part.sxRest, Part.rdr, Part.merFe, Part.merLeg, Part.merRegs, Part.com, Part.disp,
      Part.txl, Part.ll, Part.mgr] ++ [Part.wrk, Part.hostSessions, Part.hostRest, Part.tamper, Part.log, Part.flt])
      s p.2 →
      Keeps ([Part.cfg, Part.sxChannel, Part.sxAux, Part.sxSd, Part.sxLaw, Part.sxRest, Part.rdr, Part.merFe,
          Part.merLeg, Part.merRegs, Part.com, Part.disp, Part.txl, Part.ll, Part.mgr] ++ [Part.wrk,
          Part.hostSessions, Part.hostRest, Part.tamper, Part.log, Part.flt]) s (l.foldl (fun p x =>
        if x.1 = regAddr 0x30 0x300 0x008 then if x.2 = 1 ∧ p.1 = .ok then metroCommit p.2 else p
        else (p.1, writeWord p.2 sid role x.1 x.2)) p).2 from h ws (.ok, s) (Keeps.refl _ _)
  intro l
  induction l with
  | nil => exact fun _ hp => hp
  | cons x l ih =>
    intro p hp
    refine ih _ ?_
    beta_reduce
    split
    · split
      · exact hp.trans ((keep_metroCommit p.2).mono (by decide))
      · exact hp
    · exact hp.trans ((keep_writeWord p.2 sid role x.1 x.2).mono (by decide))

theorem keep_writeWords_eq {s sid role ws a t} (h : writeWords s sid role ws = (a, t)) :
    Keeps ([Part.cfg, Part.sxChannel, Part.sxAux, Part.sxSd, Part.sxLaw, Part.sxRest, Part.rdr, Part.merFe,
        Part.merLeg, Part.merRegs, Part.com, Part.disp, Part.txl, Part.ll, Part.mgr] ++ [Part.wrk,
        Part.hostSessions, Part.hostRest, Part.tamper, Part.log, Part.flt]) s t := by
  have k := keep_writeWords s sid role ws
  rw [h] at k
  exact k

theorem keep_runWrite (s : State) (sid : Nat) (role : Fin 4) (addr : Nat) (words : List Word) :
    Keeps ([Part.cfg, Part.sxChannel, Part.sxAux, Part.sxSd, Part.sxLaw, Part.sxRest, Part.rdr, Part.merFe,
        Part.merLeg, Part.merRegs, Part.com, Part.disp, Part.txl, Part.ll, Part.mgr] ++ [Part.wrk,
        Part.hostSessions, Part.hostRest, Part.tamper, Part.log, Part.flt]) s (runWrite s sid role addr words).2 := by
  unfold runWrite
  repeat' first
    | with_reducible assumption
    | (extract_lets -merge +onlyGivenNames x
       first
       | (refine Keeps.cut (x := x) (fun hx => ?_) ?_; (on_goal 1 => clear_value x)
          (on_goal 2 => (unfold x; clear x)))
       | (refine Keeps.cut (x := x.2) (fun hx => ?_) ?_; (on_goal 1 => clear_value x)
          (on_goal 2 => (unfold x; clear x)))
       | (have t : List Part := x; clear t; subst x)
       | clear_value x)
    | with_reducible apply Keeps.refl
    | with_reducible apply Keeps.ite
    | with_reducible apply Keeps.then_ (keep_writeWords ..)
    | with_reducible apply Keeps.then_ (keep_writeWords_eq (by assumption))
    | decide
    | (beta_reduce; split)

theorem keep_runWrite_eq {s : State} {sid : Nat} {role : Fin 4} {addr : Nat} {words : List Word} {a t} (h : runWrite
    s sid role addr words = (a, t)) :
    Keeps ([Part.cfg, Part.sxChannel, Part.sxAux, Part.sxSd, Part.sxLaw, Part.sxRest, Part.rdr, Part.merFe,
        Part.merLeg, Part.merRegs, Part.com, Part.disp, Part.txl, Part.ll, Part.mgr] ++ [Part.wrk,
        Part.hostSessions, Part.hostRest, Part.tamper, Part.log, Part.flt]) s t := by
  have k := keep_runWrite s sid role addr words
  rw [h] at k
  exact k

end Sys2Proof.Machine
end

