-- ==== Sys2Proof/Laws/FrameLandfallOps.lean ====
section
/-!
SUPPORT. What each operation of Machine/LandfallOps.lean leaves unchanged.
-/
namespace Sys2Proof.Machine

set_option linter.unreachableTactic false
set_option linter.unusedTactic false
set_option linter.tactic.unusedName false

/-- What a held configuration keeps is in canonical form. -/
theorem heldCfg_wf {s : State} (w : s.memWf = true) : sparseWf resetWord (heldCfg s) = true := by
  unfold heldCfg
  split
  · exact ((memWf_iff s).mp w).2.2.2.2.2
  · rfl

/-- What a chart brings is in canonical form where the held configuration is. -/
theorem chartCfg_of {s : State} {c : Bytes} (h : sparseWf resetWord (heldCfg s) = true) :
    sparseWf resetWord (chartCfg s c) = true := by
  unfold chartCfg
  refine sparseFold_wf (fun m e w => ?_) h _
  split
  · exact sparsePut_wf w _ _
  · exact w

theorem chartCfg_wf {s : State} {c : Bytes} (w : s.memWf = true) : sparseWf resetWord (chartCfg s c) = true :=
  chartCfg_of (heldCfg_wf w)

/-- What the first chart holds of block 0x90 is in canonical form. -/
theorem heldFilter_wf {s : State} {c : Bytes} {f : Nat × Word → Bool} (h : ¬ s.chart.commercialHeld = true) :
    sparseWf resetWord ((chartCfg s c).filter f) = true := by
  refine sparseWf_filter (chartCfg_of ?_) f
  unfold heldCfg
  rw [if_neg h]
  rfl

/-- What is kept of the frame memory is in canonical form. -/
theorem keptContent_wf {d : Display} (h : d.memWf = true) :
    (sparseWf (fun _ => (0 : Byte)) (keptContent d) && sparseWf (fun _ => (0 : Byte)) []) = true := by
  unfold Display.memWf at h
  rw [Bool.and_eq_true] at h
  rw [Bool.and_eq_true]
  exact ⟨sparseWf_filter h.1 _, rfl⟩

theorem keep_updLandfall (s : State) (f : Landfall → Landfall) : Keeps [.landfall] s (updLandfall s f) :=
  Keeps.upd_landfall (Keeps.refl _ _) (by decide)

theorem keep_dropRects (s : State) :
    Keeps [.disp, .hostOps, .hostJournal] s (dropRects s) := by
  unfold dropRects
  repeat' first
    | with_reducible assumption
    | (extract_lets -merge +onlyGivenNames x
       first
       | (refine Keeps.cut (x := x) (fun hx => ?_) ?_; (on_goal 1 => clear_value x)
          (on_goal 2 => (unfold x; clear x)))
       | (refine Keeps.cut (x := x.2) (fun hx => ?_) ?_; (on_goal 1 => clear_value x)
          (on_goal 2 => (unfold x; clear x)))
       | clear_value x)
    | with_reducible apply Keeps.refl
    | with_reducible apply Keeps.then_ (keep_resolveOp ..)
    | with_reducible apply Keeps.then_ (keep_updDisp ..)
    | (with_reducible apply Keeps.foldl; on_goal 2 => intros)
    | exact fun h => h
    | exact fun _ h => h
    | (intro _ hd; split <;> exact hd)
    | decide

theorem keep_helmDown (s : State) :
    Keeps [.landfall, .disp, .hostSessions, .hostOps, .hostJournal, .hostRest, .locker, .fw, .log] s (helmDown s) :=
        by
  unfold helmDown
  repeat' first
    | with_reducible assumption
    | (extract_lets -merge +onlyGivenNames x
       first
       | (refine Keeps.cut (x := x) (fun hx => ?_) ?_; (on_goal 1 => clear_value x)
          (on_goal 2 => (unfold x; clear x)))
       | (refine Keeps.cut (x := x.2) (fun hx => ?_) ?_; (on_goal 1 => clear_value x)
          (on_goal 2 => (unfold x; clear x)))
       | (have t : HostIf := x; clear t; subst x)
       | clear_value x)
    | with_reducible apply Keeps.refl
    | with_reducible apply Keeps.then_ (keep_dropTransfers ..)
    | with_reducible apply Keeps.then_ (keep_dropRects ..)
    | with_reducible apply Keeps.upd_landfall
    | with_reducible apply Keeps.upd_host
    | with_reducible apply Keeps.upd_locker
    | with_reducible apply Keeps.upd_log
    | with_reducible apply Keeps.upd_all
    | (with_reducible apply Or.inl; decide)
    | (with_reducible apply Or.inr; with_reducible rfl)
    | (with_reducible apply Or.inr; rfl)
    | exact fun h => h
    | exact fun _ h => h
    | (intro _ hd; split <;> exact hd)
    | decide

theorem keep_diesReset (s : State) (supply : Bool) :
    Keeps ([Part.free, Part.landfall, Part.chart, Part.cfg, Part.sxChannel, Part.sxCell, Part.sxStage, Part.sxAux,
        Part.sxSd, Part.sxLaw, Part.sxFix, Part.sxCount, Part.sxRest, Part.outlet, Part.cooling] ++ [Part.drive,
        Part.rdr, Part.disp, Part.txl, Part.ll, Part.mgr, Part.wrk, Part.hostSessions, Part.hostOps,
        Part.hostJournal, Part.hostRest, Part.locker, Part.fw, Part.tamper, Part.log] ++ [Part.flt, Part.pwr]) s
        (diesReset s supply) := by
  unfold diesReset
  repeat' first
    | with_reducible assumption
    | (extract_lets -merge +onlyGivenNames x
       first
       | (refine Keeps.cut (x := x) (fun hx => ?_) ?_; (on_goal 1 => clear_value x)
          (on_goal 2 => (unfold x; clear x)))
       | (refine Keeps.cut (x := x.2) (fun hx => ?_) ?_; (on_goal 1 => clear_value x)
          (on_goal 2 => (unfold x; clear x)))
       | (have t : List Part := x; clear t; subst x)
       | (have t : Chart := x; clear t; subst x)
       | (have t : Sextant := x; clear t; subst x)
       | (have t : Display := x; clear t; subst x)
       | (have t : HostIf := x; clear t; subst x)
       | clear_value x)
    | with_reducible apply Keeps.refl
    | with_reducible apply Keeps.ite
    | with_reducible apply Keeps.then_ (keep_helmDown ..)
    | (beta_reduce; split)
    | with_reducible apply Keeps.upd_free
    | with_reducible apply Keeps.upd_landfall
    | with_reducible apply Keeps.upd_chart
    | with_reducible apply Keeps.upd_cfg
    | with_reducible apply Keeps.upd_sx
    | with_reducible apply Keeps.upd_outlet
    | with_reducible apply Keeps.upd_cooling
    | with_reducible apply Keeps.upd_drive
    | with_reducible apply Keeps.upd_rdr
    | with_reducible apply Keeps.upd_disp
    | with_reducible apply Keeps.upd_txl
    | with_reducible apply Keeps.upd_ll
    | with_reducible apply Keeps.upd_mgr
    | with_reducible apply Keeps.upd_wrk
    | with_reducible apply Keeps.upd_host
    | with_reducible apply Keeps.upd_fw
    | with_reducible apply Keeps.upd_tamper
    | with_reducible apply Keeps.upd_log
    | with_reducible apply Keeps.upd_flt
    | with_reducible apply Keeps.upd_pwr
    | with_reducible apply Keeps.upd_all
    | (with_reducible apply Or.inl; decide)
    | (with_reducible apply Or.inr; with_reducible rfl)
    | (with_reducible apply Or.inr; rfl)
    | exact fun h => h
    | exact fun _ h => h
    | (intro _ hd; split <;> exact hd)
    | exact fun h => sparsePut_wf h _ _
    | exact fun _ h => sparsePut_wf h _ _
    | exact fun _ => rfl
    | exact fun w _ => heldCfg_wf w
    | exact fun h => keptContent_wf h
    | decide

theorem keep_forgetHolsters (s : State) :
    Keeps [.lkOutlet] s (forgetHolsters s) := by
  unfold forgetHolsters
  repeat' first
    | with_reducible assumption
    | (extract_lets -merge +onlyGivenNames x
       first
       | (refine Keeps.cut (x := x) (fun hx => ?_) ?_; (on_goal 1 => clear_value x)
          (on_goal 2 => (unfold x; clear x)))
       | (refine Keeps.cut (x := x.2) (fun hx => ?_) ?_; (on_goal 1 => clear_value x)
          (on_goal 2 => (unfold x; clear x)))
       | clear_value x)
    | with_reducible apply Keeps.refl
    | with_reducible apply Keeps.then_ (keep_updLko ..)
    | decide

theorem keep_coldLandfall (s : State) (supply : Bool) :
    Keeps ([Part.free, Part.landfall, Part.chart, Part.cfg, Part.sxChannel, Part.sxCell, Part.sxStage, Part.sxAux,
        Part.sxSd, Part.sxLaw, Part.sxFix, Part.sxCount, Part.sxRest, Part.outlet, Part.cooling] ++ [Part.drive,
        Part.rdr, Part.disp, Part.lkOut, Part.lkOutlet, Part.lkLatch, Part.lkRest, Part.txl, Part.ll, Part.mgr,
        Part.wrk, Part.hostSessions, Part.hostOps, Part.hostJournal, Part.hostRest] ++ [Part.locker, Part.fw,
        Part.tamper, Part.log, Part.flt, Part.pwr]) s (coldLandfall s supply) := by
  unfold coldLandfall
  repeat' first
    | with_reducible assumption
    | (extract_lets -merge +onlyGivenNames x
       first
       | (refine Keeps.cut (x := x) (fun hx => ?_) ?_; (on_goal 1 => clear_value x)
          (on_goal 2 => (unfold x; clear x)))
       | (refine Keeps.cut (x := x.2) (fun hx => ?_) ?_; (on_goal 1 => clear_value x)
          (on_goal 2 => (unfold x; clear x)))
       | (have t : List Part := x; clear t; subst x)
       | clear_value x)
    | with_reducible apply Keeps.refl
    | with_reducible apply Keeps.then_ (keep_settle ..)
    | with_reducible apply Keeps.then_ (keep_diesReset ..)
    | with_reducible apply Keeps.then_ (keep_forgetHolsters ..)
    | decide

theorem keep_landfallRestart (s : State) :
    Keeps ([Part.landfall, Part.chart, Part.cfg, Part.sxChannel, Part.sxCell, Part.sxStage, Part.sxAux, Part.sxSd,
        Part.sxLaw, Part.sxFix, Part.sxCount, Part.sxRest, Part.outlet, Part.rdr, Part.disp] ++ [Part.lkOut,
        Part.lkOutlet, Part.lkLatch, Part.lkRest, Part.ll, Part.mgr, Part.wrk, Part.hostSessions, Part.hostOps,
        Part.hostJournal, Part.hostRest, Part.locker, Part.fw, Part.log, Part.flt]) s (landfallRestart s) := by
  unfold landfallRestart
  repeat' first
    | with_reducible assumption
    | (extract_lets -merge +onlyGivenNames x
       first
       | (refine Keeps.cut (x := x) (fun hx => ?_) ?_; (on_goal 1 => clear_value x)
          (on_goal 2 => (unfold x; clear x)))
       | (refine Keeps.cut (x := x.2) (fun hx => ?_) ?_; (on_goal 1 => clear_value x)
          (on_goal 2 => (unfold x; clear x)))
       | (have t : List Part := x; clear t; subst x)
       | (have t : Chart := x; clear t; subst x)
       | (have t : Sextant := x; clear t; subst x)
       | clear_value x)
    | with_reducible apply Keeps.refl
    | with_reducible apply Keeps.then_ (keep_settle ..)
    | with_reducible apply Keeps.then_ (keep_endMaster ..)
    | with_reducible apply Keeps.then_ (keep_helmDown ..)
    | with_reducible apply Keeps.then_ (keep_forgetHolsters ..)
    | with_reducible apply Keeps.upd_landfall
    | with_reducible apply Keeps.upd_chart
    | with_reducible apply Keeps.upd_cfg
    | with_reducible apply Keeps.upd_sx
    | with_reducible apply Keeps.upd_mgr
    | with_reducible apply Keeps.upd_all
    | (with_reducible apply Or.inl; decide)
    | (with_reducible apply Or.inr; with_reducible rfl)
    | (with_reducible apply Or.inr; rfl)
    | exact fun h => h
    | exact fun _ h => h
    | (intro _ hd; split <;> exact hd)
    | exact fun h => sparsePut_wf h _ _
    | exact fun _ h => sparsePut_wf h _ _
    | exact fun _ => rfl
    | exact fun w _ => heldCfg_wf w
    | exact fun h => keptContent_wf h
    | decide

theorem keep_helmRestart (s : State) :
    Keeps ([Part.landfall, Part.chart, Part.cfg, Part.sxChannel, Part.sxCell, Part.sxStage, Part.sxAux, Part.sxSd,
        Part.sxLaw, Part.sxFix, Part.sxCount, Part.sxRest, Part.outlet, Part.rdr, Part.disp] ++ [Part.lkOut,
        Part.lkOutlet, Part.lkLatch, Part.lkRest, Part.ll, Part.mgr, Part.wrk, Part.hostSessions, Part.hostOps,
        Part.hostJournal, Part.hostRest, Part.locker, Part.fw, Part.log, Part.flt]) s (helmRestart s) := by
  unfold helmRestart
  repeat' first
    | with_reducible assumption
    | (extract_lets -merge +onlyGivenNames x
       first
       | (refine Keeps.cut (x := x) (fun hx => ?_) ?_; (on_goal 1 => clear_value x)
          (on_goal 2 => (unfold x; clear x)))
       | (refine Keeps.cut (x := x.2) (fun hx => ?_) ?_; (on_goal 1 => clear_value x)
          (on_goal 2 => (unfold x; clear x)))
       | (have t : List Part := x; clear t; subst x)
       | clear_value x)
    | with_reducible apply Keeps.refl
    | with_reducible apply Keeps.ite
    | with_reducible apply Keeps.then_ (keep_helmDown ..)
    | with_reducible apply Keeps.then_ (keep_landfallRestart ..)
    | decide
    | split

theorem keep_enterTamperHold (s : State) :
    Keeps [.landfall, .sxChannel, .sxCell, .sxStage, .sxAux, .sxSd, .sxLaw, .sxFix, .sxCount, .sxRest, .outlet,
        .rdr, .lkOut, .lkOutlet, .lkLatch, .lkRest, .wrk, .log, .flt] s (enterTamperHold s) := by
  unfold enterTamperHold
  repeat' first
    | with_reducible assumption
    | (extract_lets -merge +onlyGivenNames x
       first
       | (refine Keeps.cut (x := x) (fun hx => ?_) ?_; (on_goal 1 => clear_value x)
          (on_goal 2 => (unfold x; clear x)))
       | (refine Keeps.cut (x := x.2) (fun hx => ?_) ?_; (on_goal 1 => clear_value x)
          (on_goal 2 => (unfold x; clear x)))
       | (have t : List Part := x; clear t; subst x)
       | (have t : Sextant := x; clear t; subst x)
       | (have t : Lookout := x; clear t; subst x)
       | clear_value x)
    | with_reducible apply Keeps.refl
    | with_reducible apply Keeps.then_ (keep_settle ..)
    | with_reducible apply Keeps.upd_landfall
    | with_reducible apply Keeps.upd_sx
    | with_reducible apply Keeps.upd_lk
    | with_reducible apply Keeps.upd_all
    | (with_reducible apply Or.inl; decide)
    | (with_reducible apply Or.inr; with_reducible rfl)
    | (with_reducible apply Or.inr; rfl)
    | exact fun h => h
    | exact fun _ h => h
    | (intro _ hd; split <;> exact hd)
    | decide

theorem keep_answerCapture (s : State) :
    Keeps ([Part.landfall, Part.sxChannel, Part.sxCell, Part.sxStage, Part.sxAux, Part.sxSd, Part.sxLaw, Part.sxFix,
        Part.sxCount, Part.sxRest, Part.outlet, Part.rdr, Part.lkOut, Part.lkOutlet, Part.lkLatch] ++ [Part.lkRest,
        Part.txl, Part.wrk, Part.locker, Part.tamper, Part.log, Part.flt]) s (answerCapture s) := by
  unfold answerCapture
  repeat' first
    | with_reducible assumption
    | (extract_lets -merge +onlyGivenNames x
       first
       | (refine Keeps.cut (x := x) (fun hx => ?_) ?_; (on_goal 1 => clear_value x)
          (on_goal 2 => (unfold x; clear x)))
       | (refine Keeps.cut (x := x.2) (fun hx => ?_) ?_; (on_goal 1 => clear_value x)
          (on_goal 2 => (unfold x; clear x)))
       | (have t : List Part := x; clear t; subst x)
       | clear_value x)
    | with_reducible apply Keeps.refl
    | with_reducible apply Keeps.ite
    | with_reducible apply Keeps.then_ (keep_logRecAt ..)
    | with_reducible apply Keeps.then_ (keep_eraseKeys ..)
    | with_reducible apply Keeps.then_ (keep_enterTamperHold ..)
    | split
    | with_reducible apply Keeps.upd_tamper
    | with_reducible apply Keeps.upd_flt
    | with_reducible apply Keeps.upd_all
    | (with_reducible apply Or.inl; decide)
    | (with_reducible apply Or.inr; with_reducible rfl)
    | (with_reducible apply Or.inr; rfl)
    | exact fun h => h
    | exact fun _ h => h
    | (intro _ hd; split <;> exact hd)
    | decide

theorem keep_catchUp (s : State) :
    Keeps [.landfall] s (catchUp s) := by
  unfold catchUp
  repeat' first
    | with_reducible assumption
    | (extract_lets -merge +onlyGivenNames x
       first
       | (refine Keeps.cut (x := x) (fun hx => ?_) ?_; (on_goal 1 => clear_value x)
          (on_goal 2 => (unfold x; clear x)))
       | (refine Keeps.cut (x := x.2) (fun hx => ?_) ?_; (on_goal 1 => clear_value x)
          (on_goal 2 => (unfold x; clear x)))
       | clear_value x)
    | with_reducible apply Keeps.refl
    | with_reducible apply Keeps.ite
    | with_reducible apply Keeps.then_ (keep_updLandfall ..)
    | decide
    | (beta_reduce; split)

theorem keep_readStraps (s : State) (role : Fin 4) :
    Keeps [.landfall] s (readStraps s role) := by
  unfold readStraps
  repeat' first
    | with_reducible assumption
    | (extract_lets -merge +onlyGivenNames x
       first
       | (refine Keeps.cut (x := x) (fun hx => ?_) ?_; (on_goal 1 => clear_value x)
          (on_goal 2 => (unfold x; clear x)))
       | (refine Keeps.cut (x := x.2) (fun hx => ?_) ?_; (on_goal 1 => clear_value x)
          (on_goal 2 => (unfold x; clear x)))
       | clear_value x)
    | with_reducible apply Keeps.refl
    | with_reducible apply Keeps.then_ (keep_updLandfall ..)
    | decide

theorem keep_startHelm (s : State) (img : ImageChoice) (role : Fin 4) :
    Keeps ([Part.landfall, Part.sxChannel, Part.sxCell, Part.sxStage, Part.sxAux, Part.sxSd, Part.sxLaw, Part.sxFix,
        Part.sxCount, Part.sxRest, Part.outlet, Part.rdr, Part.lkOut, Part.lkOutlet, Part.lkLatch] ++ [Part.lkRest,
        Part.txl, Part.wrk, Part.locker, Part.fw, Part.tamper, Part.log, Part.flt]) s (startHelm s img role) := by
  unfold startHelm
  repeat' first
    | with_reducible assumption
    | (extract_lets -merge +onlyGivenNames x
       first
       | (refine Keeps.cut (x := x) (fun hx => ?_) ?_; (on_goal 1 => clear_value x)
          (on_goal 2 => (unfold x; clear x)))
       | (refine Keeps.cut (x := x.2) (fun hx => ?_) ?_; (on_goal 1 => clear_value x)
          (on_goal 2 => (unfold x; clear x)))
       | (have t : List Part := x; clear t; subst x)
       | (have t : Lookout := x; clear t; subst x)
       | clear_value x)
    | with_reducible apply Keeps.refl
    | with_reducible apply Keeps.ite
    | with_reducible apply Keeps.then_ (keep_settle ..)
    | with_reducible apply Keeps.then_ (keep_bootImage ..)
    | with_reducible apply Keeps.then_ (keep_updLandfall ..)
    | with_reducible apply Keeps.then_ (keep_answerCapture ..)
    | with_reducible apply Keeps.then_ (keep_readStraps ..)
    | (beta_reduce; split)
    | with_reducible apply Keeps.upd_lk
    | (with_reducible apply Or.inl; decide)
    | (with_reducible apply Or.inr; with_reducible rfl)
    | (with_reducible apply Or.inr; rfl)
    | decide

theorem keep_useChart (s : State) (c : Bytes) (src : Nat) :
    Keeps [.landfall, .chart, .cfg, .fw, .log, .flt] s (useChart s c src) := by
  unfold useChart
  repeat' first
    | with_reducible assumption
    | (extract_lets -merge +onlyGivenNames x
       first
       | (refine Keeps.cut (x := x) (fun hx => ?_) ?_; (on_goal 1 => clear_value x)
          (on_goal 2 => (unfold x; clear x)))
       | (refine Keeps.cut (x := x.2) (fun hx => ?_) ?_; (on_goal 1 => clear_value x)
          (on_goal 2 => (unfold x; clear x)))
       | (have t : Chart := x; clear t; subst x)
       | clear_value x)
    | with_reducible apply Keeps.refl
    | with_reducible apply Keeps.ite
    | with_reducible apply Keeps.then_ (keep_clearFaults ..)
    | with_reducible apply Keeps.then_ (keep_updFw ..)
    | with_reducible apply Keeps.then_ (keep_updLandfall ..)
    | (beta_reduce; split)
    | with_reducible apply Keeps.upd_chart
    | with_reducible apply Keeps.upd_cfg
    | with_reducible apply Keeps.upd_all
    | (with_reducible apply Or.inl; decide)
    | (with_reducible apply Or.inr; with_reducible rfl)
    | (with_reducible apply Or.inr; rfl)
    | exact fun h => h
    | exact fun _ h => h
    | (intro _ hd; split <;> exact hd)
    | exact fun h => sparsePut_wf h _ _
    | exact fun _ h => sparsePut_wf h _ _
    | exact fun w _ => chartCfg_wf w
    | decide

theorem keep_applyCommercial (s : State) (es : List (Nat × Nat)) :
    Keeps [.com, .log] s (applyCommercial s es) := by
  unfold applyCommercial
  repeat' first
    | with_reducible assumption
    | (extract_lets -merge +onlyGivenNames x
       first
       | (refine Keeps.cut (x := x) (fun hx => ?_) ?_; (on_goal 1 => clear_value x)
          (on_goal 2 => (unfold x; clear x)))
       | (refine Keeps.cut (x := x.2) (fun hx => ?_) ?_; (on_goal 1 => clear_value x)
          (on_goal 2 => (unfold x; clear x)))
       | clear_value x)
    | with_reducible apply Keeps.refl
    | with_reducible apply Keeps.ite
    | with_reducible apply Keeps.then_ (keep_writeCommercial ..)
    | (with_reducible apply Keeps.foldl; on_goal 2 => intros)
    | decide
    | (beta_reduce; split)

theorem keep_applySite (s : State) (es : List (Nat × Nat)) :
    Keeps [.mgr] s (applySite s es) := by
  unfold applySite
  repeat' first
    | with_reducible assumption
    | (extract_lets -merge +onlyGivenNames x
       first
       | (refine Keeps.cut (x := x) (fun hx => ?_) ?_; (on_goal 1 => clear_value x)
          (on_goal 2 => (unfold x; clear x)))
       | (refine Keeps.cut (x := x.2) (fun hx => ?_) ?_; (on_goal 1 => clear_value x)
          (on_goal 2 => (unfold x; clear x)))
       | clear_value x)
    | with_reducible apply Keeps.refl
    | with_reducible apply Keeps.ite
    | (beta_reduce; split)
    | with_reducible apply Keeps.upd_mgr
    | decide

theorem keep_distribute (s : State) (c : Bytes) :
    Keeps [.chart, .sxCell, .sxAux, .sxLaw, .sxRest, .outlet, .rdr, .com, .lkRest, .mgr, .tamper, .log] s
        (distribute s c) := by
  unfold distribute
  repeat' first
    | with_reducible assumption
    | (extract_lets -merge +onlyGivenNames x
       first
       | (refine Keeps.cut (x := x) (fun hx => ?_) ?_; (on_goal 1 => clear_value x)
          (on_goal 2 => (unfold x; clear x)))
       | (refine Keeps.cut (x := x.2) (fun hx => ?_) ?_; (on_goal 1 => clear_value x)
          (on_goal 2 => (unfold x; clear x)))
       | (have t : Chart := x; clear t; subst x)
       | (have t : Sextant := x; clear t; subst x)
       | (have t : Lookout := x; clear t; subst x)
       | clear_value x)
    | with_reducible apply Keeps.refl
    | with_reducible apply Keeps.ite
    | with_reducible apply Keeps.then_ (keep_setPilots ..)
    | with_reducible apply Keeps.then_ (keep_applyCommercial ..)
    | with_reducible apply Keeps.then_ (keep_applySite ..)
    | (beta_reduce; split)
    | with_reducible apply Keeps.upd_chart
    | with_reducible apply Keeps.upd_sx
    | with_reducible apply Keeps.upd_rdr
    | with_reducible apply Keeps.upd_lk
    | with_reducible apply Keeps.upd_tamper
    | with_reducible apply Keeps.upd_all
    | (with_reducible apply Or.inl; decide)
    | (with_reducible apply Or.inr; with_reducible rfl)
    | (with_reducible apply Or.inr; rfl)
    | exact fun h => h
    | exact fun _ h => h
    | (intro _ hd; split <;> exact hd)
    | exact fun _ => heldFilter_wf (by assumption)
    | decide

theorem keep_restartOutlet (s : State) (o : Fin 2) :
    Keeps [.outlet, .rdr] s (restartOutlet s o) := by
  unfold restartOutlet
  repeat' first
    | with_reducible assumption
    | (extract_lets -merge +onlyGivenNames x
       first
       | (refine Keeps.cut (x := x) (fun hx => ?_) ?_; (on_goal 1 => clear_value x)
          (on_goal 2 => (unfold x; clear x)))
       | (refine Keeps.cut (x := x.2) (fun hx => ?_) ?_; (on_goal 1 => clear_value x)
          (on_goal 2 => (unfold x; clear x)))
       | clear_value x)
    | with_reducible apply Keeps.refl
    | with_reducible apply Keeps.then_ (keep_toIdle ..)
    | with_reducible apply Keeps.then_ (keep_endLink ..)
    | with_reducible apply Keeps.then_ (keep_abandonInventory ..)
    | decide

theorem keep_judgeOutlet (s : State) (o : Fin 2) :
    Keeps [.sxChannel, .sxCell, .sxStage, .sxAux, .sxRest, .outlet, .rdr, .merMail, .lkOut, .lkOutlet, .lkRest,
        .wrk, .log, .flt] s (judgeOutlet s o) := by
  unfold judgeOutlet
  repeat' first
    | with_reducible assumption
    | (extract_lets -merge +onlyGivenNames x
       first
       | (refine Keeps.cut (x := x) (fun hx => ?_) ?_; (on_goal 1 => clear_value x)
          (on_goal 2 => (unfold x; clear x)))
       | (refine Keeps.cut (x := x.2) (fun hx => ?_) ?_; (on_goal 1 => clear_value x)
          (on_goal 2 => (unfold x; clear x)))
       | clear_value x)
    | with_reducible apply Keeps.refl
    | with_reducible apply Keeps.ite
    | with_reducible apply Keeps.then_ (keep_updOutlet ..)
    | with_reducible apply Keeps.then_ (keep_enter ..)
    | with_reducible apply Keeps.then_ (keep_rest ..)
    | with_reducible apply Keeps.then_ (keep_endLink ..)
    | with_reducible apply Keeps.then_ (keep_outletFault ..)
    | with_reducible apply Keeps.then_ (keep_askUnlock ..)
    | with_reducible apply Keeps.then_ (keep_closeRecordOf ..)
    | with_reducible apply Keeps.then_ (keep_restartOutlet ..)
    | decide
    | (beta_reduce; split)

theorem keep_resumeOutlets (s : State) (plain : Bool) :
    Keeps [.sxChannel, .sxCell, .sxStage, .sxAux, .sxRest, .outlet, .rdr, .merMail, .lkOut, .lkOutlet, .lkRest,
        .wrk, .log, .flt] s (resumeOutlets s plain) := by
  unfold resumeOutlets
  repeat' first
    | with_reducible assumption
    | (extract_lets -merge +onlyGivenNames x
       first
       | (refine Keeps.cut (x := x) (fun hx => ?_) ?_; (on_goal 1 => clear_value x)
          (on_goal 2 => (unfold x; clear x)))
       | (refine Keeps.cut (x := x.2) (fun hx => ?_) ?_; (on_goal 1 => clear_value x)
          (on_goal 2 => (unfold x; clear x)))
       | (have t : Sextant := x; clear t; subst x)
       | clear_value x)
    | with_reducible apply Keeps.refl
    | with_reducible apply Keeps.ite
    | with_reducible apply Keeps.then_ (keep_judgeOutlet ..)
    | (with_reducible apply Keeps.foldl; on_goal 2 => intros)
    | (beta_reduce; split)
    | with_reducible apply Keeps.upd_sx
    | (with_reducible apply Or.inl; decide)
    | (with_reducible apply Or.inr; with_reducible rfl)
    | (with_reducible apply Or.inr; rfl)
    | decide

end Sys2Proof.Machine
end

