-- ==== Sys2Proof/Laws/FrameLegal.lean ====
section
/-!
SUPPORT. What each operation and command of Machine/Legal.lean leaves unchanged.
-/
namespace Sys2Proof.Machine

set_option linter.unreachableTactic false
set_option linter.unusedTactic false
set_option linter.tactic.unusedName false

theorem keep_startEvent (s : State) (ph : Fin 3) (kind : Nat) (w : HalfWindow) :
    Keeps [.merFe, .merLeg] s (startEvent s ph kind w) := by
  unfold startEvent
  repeat' first
    | with_reducible assumption
    | (extract_lets -merge +onlyGivenNames x
       first
       | (refine Keeps.cut (x := x) (fun hx => ?_) ?_; (on_goal 1 => clear_value x)
          (on_goal 2 => (unfold x; clear x)))
       | (refine Keeps.cut (x := x.2) (fun hx => ?_) ?_; (on_goal 1 => clear_value x)
          (on_goal 2 => (unfold x; clear x)))
       | clear_value x)
    | with_reducible apply Keeps.refl
    | with_reducible apply Keeps.ite
    | with_reducible apply Keeps.then_ (keep_updMch ..)
    | with_reducible apply Keeps.then_ (keep_updLeg ..)
    | with_reducible apply Keeps.then_ (keep_issueSeq ..)
    | decide
    | (beta_reduce; split)

theorem keep_updEvent (s : State) (ph : Fin 3) (f : SupplyEvent → SupplyEvent) :
    Keeps [.merLeg] s (updEvent s ph f) := by
  unfold updEvent
  repeat' first
    | with_reducible assumption
    | (extract_lets -merge +onlyGivenNames x
       first
       | (refine Keeps.cut (x := x) (fun hx => ?_) ?_; (on_goal 1 => clear_value x)
          (on_goal 2 => (unfold x; clear x)))
       | (refine Keeps.cut (x := x.2) (fun hx => ?_) ?_; (on_goal 1 => clear_value x)
          (on_goal 2 => (unfold x; clear x)))
       | clear_value x)
    | with_reducible apply Keeps.refl
    | with_reducible apply Keeps.ite
    | with_reducible apply Keeps.then_ (keep_updLeg ..)
    | decide
    | (beta_reduce; split)

theorem keep_judgeStart (s : State) (ph : Fin 3) (w : HalfWindow) :
    Keeps [.merFe, .merLeg] s (judgeStart s ph w) := by
  unfold judgeStart
  repeat' first
    | with_reducible assumption
    | (extract_lets -merge +onlyGivenNames x
       first
       | (refine Keeps.cut (x := x) (fun hx => ?_) ?_; (on_goal 1 => clear_value x)
          (on_goal 2 => (unfold x; clear x)))
       | (refine Keeps.cut (x := x.2) (fun hx => ?_) ?_; (on_goal 1 => clear_value x)
          (on_goal 2 => (unfold x; clear x)))
       | clear_value x)
    | with_reducible apply Keeps.refl
    | with_reducible apply Keeps.ite
    | with_reducible apply Keeps.then_ (keep_startEvent ..)
    | decide
    | split

theorem keep_judgeHalfCycle (s : State) (ph : Fin 3) (w : HalfWindow) :
    Keeps [.merFe, .merLeg] s (judgeHalfCycle s ph w) := by
  unfold judgeHalfCycle
  repeat' first
    | with_reducible assumption
    | (extract_lets -merge +onlyGivenNames x
       first
       | (refine Keeps.cut (x := x) (fun hx => ?_) ?_; (on_goal 1 => clear_value x)
          (on_goal 2 => (unfold x; clear x)))
       | (refine Keeps.cut (x := x.2) (fun hx => ?_) ?_; (on_goal 1 => clear_value x)
          (on_goal 2 => (unfold x; clear x)))
       | clear_value x)
    | with_reducible apply Keeps.refl
    | with_reducible apply Keeps.ite
    | with_reducible apply Keeps.then_ (keep_updEvent ..)
    | with_reducible apply Keeps.then_ (keep_judgeStart ..)
    | decide
    | (beta_reduce; split)

theorem keep_updHalf (s : State) (ph : Fin 3) (f : HalfCycle → HalfCycle) :
    Keeps [.merFe] s (updHalf s ph f) := by
  unfold updHalf
  repeat' first
    | with_reducible assumption
    | (extract_lets -merge +onlyGivenNames x
       first
       | (refine Keeps.cut (x := x) (fun hx => ?_) ?_; (on_goal 1 => clear_value x)
          (on_goal 2 => (unfold x; clear x)))
       | (refine Keeps.cut (x := x.2) (fun hx => ?_) ?_; (on_goal 1 => clear_value x)
          (on_goal 2 => (unfold x; clear x)))
       | (have t : Meridian := x; clear t; subst x)
       | clear_value x)
    | with_reducible apply Keeps.refl
    | with_reducible apply Keeps.upd_mer
    | (with_reducible apply Or.inl; decide)
    | (with_reducible apply Or.inr; with_reducible rfl)
    | (with_reducible apply Or.inr; rfl)
    | exact fun h => h
    | exact fun _ h => h
    | (intro _ hd; split <;> exact hd)
    | exact fun h => sparsePut_wf h _ _
    | exact fun _ h => sparsePut_wf h _ _
    | decide

theorem keep_closeFor (s : State) (at_ cause : Nat) :
    Keeps [.merLeg, .merChr] s (closeFor s at_ cause) := by
  unfold closeFor
  repeat' first
    | with_reducible assumption
    | (extract_lets -merge +onlyGivenNames x
       first
       | (refine Keeps.cut (x := x) (fun hx => ?_) ?_; (on_goal 1 => clear_value x)
          (on_goal 2 => (unfold x; clear x)))
       | (refine Keeps.cut (x := x.2) (fun hx => ?_) ?_; (on_goal 1 => clear_value x)
          (on_goal 2 => (unfold x; clear x)))
       | clear_value x)
    | with_reducible apply Keeps.refl
    | with_reducible apply Keeps.ite
    | with_reducible apply Keeps.then_ (keep_closePeriod ..)
    | with_reducible apply Keeps.then_ (keep_addCause ..)
    | decide
    | split

theorem keep_debit (s : State) (o : Fin 2) (e : EnergySet) :
    Keeps [.com, .log] s (debit s o e) := by
  unfold debit
  repeat' first
    | with_reducible assumption
    | (extract_lets -merge +onlyGivenNames x
       first
       | (refine Keeps.cut (x := x) (fun hx => ?_) ?_; (on_goal 1 => clear_value x)
          (on_goal 2 => (unfold x; clear x)))
       | (refine Keeps.cut (x := x.2) (fun hx => ?_) ?_; (on_goal 1 => clear_value x)
          (on_goal 2 => (unfold x; clear x)))
       | (have t : _ → State := x; clear t; subst x)
       | (have t : _ → _ → State := x; clear t; subst x)
       | (have t : _ → _ → Display := x; clear t; subst x)
       | clear_value x)
    | with_reducible apply Keeps.refl
    | with_reducible apply Keeps.then_ (keep_creditBy ..)
    | with_reducible apply Keeps.then_ (keep_updCharge ..)
    | decide
    | (beta_reduce; split)

theorem keep_openRecord (s : State) (o : Fin 2) (hash : Bytes) :
    Keeps [.sxChannel, .sxCell, .sxStage, .sxAux, .sxRest, .outlet, .rdr, .merLeg, .lkOut, .lkOutlet, .lkRest, .wrk,
        .log, .flt] s (openRecord s o hash) := by
  unfold openRecord
  repeat' first
    | with_reducible assumption
    | (extract_lets -merge +onlyGivenNames x
       first
       | (refine Keeps.cut (x := x) (fun hx => ?_) ?_; (on_goal 1 => clear_value x)
          (on_goal 2 => (unfold x; clear x)))
       | (refine Keeps.cut (x := x.2) (fun hx => ?_) ?_; (on_goal 1 => clear_value x)
          (on_goal 2 => (unfold x; clear x)))
       | clear_value x)
    | with_reducible apply Keeps.refl
    | with_reducible apply Keeps.ite
    | with_reducible apply Keeps.then_ (keep_updLeg ..)
    | with_reducible apply Keeps.then_ (keep_stopTrigger ..)
    | with_reducible apply Keeps.then_ (keep_issueSeq ..)
    | decide
    | (beta_reduce; split)

theorem keep_closeRecord (s : State) (o : Fin 2) (fault : Bool) :
    Keeps [.sxChannel, .sxCell, .sxStage, .sxAux, .sxRest, .outlet, .rdr, .merLeg, .com, .lkOut, .lkOutlet, .lkRest,
        .wrk, .log, .flt] s (closeRecord s o fault) := by
  unfold closeRecord
  repeat' first
    | with_reducible assumption
    | (extract_lets -merge +onlyGivenNames x
       first
       | (refine Keeps.cut (x := x) (fun hx => ?_) ?_; (on_goal 1 => clear_value x)
          (on_goal 2 => (unfold x; clear x)))
       | (refine Keeps.cut (x := x.2) (fun hx => ?_) ?_; (on_goal 1 => clear_value x)
          (on_goal 2 => (unfold x; clear x)))
       | clear_value x)
    | with_reducible apply Keeps.refl
    | with_reducible apply Keeps.then_ (keep_queueLog ..)
    | with_reducible apply Keeps.then_ (keep_updCharge ..)
    | with_reducible apply Keeps.then_ (keep_creditStop ..)
    | with_reducible apply Keeps.then_ (keep_issueSeq ..)
    | with_reducible apply Keeps.then_ (keep_updSessionRec ..)
    | with_reducible apply Keeps.then_ (keep_debit ..)
    | decide
    | (beta_reduce; split)

theorem keep_noteReply (s : State) (r : MailReply) :
    Keeps [.com] s (noteReply s r) := by
  unfold noteReply
  repeat' first
    | with_reducible assumption
    | (extract_lets -merge +onlyGivenNames x
       first
       | (refine Keeps.cut (x := x) (fun hx => ?_) ?_; (on_goal 1 => clear_value x)
          (on_goal 2 => (unfold x; clear x)))
       | (refine Keeps.cut (x := x.2) (fun hx => ?_) ?_; (on_goal 1 => clear_value x)
          (on_goal 2 => (unfold x; clear x)))
       | (have t : Commercial := x; clear t; subst x)
       | clear_value x)
    | with_reducible apply Keeps.refl
    | with_reducible apply Keeps.upd_com
    | exact fun h => h
    | exact fun _ h => h
    | (intro _ hd; split <;> exact hd)
    | exact fun h => sparsePut_wf h _ _
    | exact fun _ h => sparsePut_wf h _ _
    | decide

theorem keep_answerMail (s : State) (r : MailRequest) :
    Keeps [.sxChannel, .sxCell, .sxStage, .sxAux, .sxRest, .outlet, .rdr, .merLeg, .com, .lkOut, .lkOutlet, .lkRest,
        .wrk, .log, .flt] s (answerMail s r) := by
  unfold answerMail
  repeat' first
    | with_reducible assumption
    | (extract_lets -merge +onlyGivenNames x
       first
       | (refine Keeps.cut (x := x) (fun hx => ?_) ?_; (on_goal 1 => clear_value x)
          (on_goal 2 => (unfold x; clear x)))
       | (refine Keeps.cut (x := x.2) (fun hx => ?_) ?_; (on_goal 1 => clear_value x)
          (on_goal 2 => (unfold x; clear x)))
       | clear_value x)
    | with_reducible apply Keeps.refl
    | with_reducible apply Keeps.then_ (keep_updOutlet ..)
    | with_reducible apply Keeps.then_ (keep_openRecord ..)
    | with_reducible apply Keeps.then_ (keep_closeRecord ..)
    | with_reducible apply Keeps.then_ (keep_noteReply ..)
    | decide
    | (beta_reduce; split)

theorem keep_debitOutlet (s : State) (o : Fin 2) :
    Keeps [.sxChannel, .sxCell, .sxStage, .sxAux, .sxRest, .outlet, .rdr, .com, .lkOut, .lkOutlet, .lkRest, .wrk,
        .log, .flt] s (debitOutlet s o) := by
  unfold debitOutlet
  repeat' first
    | with_reducible assumption
    | (extract_lets -merge +onlyGivenNames x
       first
       | (refine Keeps.cut (x := x) (fun hx => ?_) ?_; (on_goal 1 => clear_value x)
          (on_goal 2 => (unfold x; clear x)))
       | (refine Keeps.cut (x := x.2) (fun hx => ?_) ?_; (on_goal 1 => clear_value x)
          (on_goal 2 => (unfold x; clear x)))
       | clear_value x)
    | with_reducible apply Keeps.refl
    | with_reducible apply Keeps.then_ (keep_creditStop ..)
    | with_reducible apply Keeps.then_ (keep_debit ..)
    | decide
    | split

theorem frame_registerCommit  :
    Kept [.merLeg, .merChr] .registerCommit := by
  intro s s' e
  change execRegisterCommit s = .next s' at e
  unfold execRegisterCommit at e
  injection e with e
  subst e
  repeat' first
    | with_reducible assumption
    | (extract_lets -merge +onlyGivenNames x
       first
       | (refine Keeps.cut (x := x) (fun hx => ?_) ?_; (on_goal 1 => clear_value x)
          (on_goal 2 => (unfold x; clear x)))
       | (refine Keeps.cut (x := x.2) (fun hx => ?_) ?_; (on_goal 1 => clear_value x)
          (on_goal 2 => (unfold x; clear x)))
       | clear_value x)
    | with_reducible apply Keeps.refl
    | with_reducible apply Keeps.ite
    | with_reducible apply Keeps.then_ (keep_commitRegs ..)
    | decide
    | split

theorem frame_meridianSupplyFail (mana mcore : Nat) :
    Kept [.merLeg, .merChr, .merRest, .log, .flt, .pwr] (.meridianSupplyFail mana mcore) := by
  intro s s' e
  change execMeridianSupplyFail mana mcore s = .next s' at e
  unfold execMeridianSupplyFail at e
  injection e with e
  subst e
  repeat' first
    | with_reducible assumption
    | (extract_lets -merge +onlyGivenNames x
       first
       | (refine Keeps.cut (x := x) (fun hx => ?_) ?_; (on_goal 1 => clear_value x)
          (on_goal 2 => (unfold x; clear x)))
       | (refine Keeps.cut (x := x.2) (fun hx => ?_) ?_; (on_goal 1 => clear_value x)
          (on_goal 2 => (unfold x; clear x)))
       | (have t : Meridian := x; clear t; subst x)
       | clear_value x)
    | with_reducible apply Keeps.refl
    | with_reducible apply Keeps.ite
    | with_reducible apply Keeps.then_ (keep_logDetect ..)
    | with_reducible apply Keeps.then_ (keep_noteRail ..)
    | with_reducible apply Keeps.then_ (keep_excursion ..)
    | with_reducible apply Keeps.then_ (keep_commitRegs ..)
    | with_reducible apply Keeps.then_ (keep_stopMetering ..)
    | split
    | with_reducible apply Keeps.upd_mer
    | (with_reducible apply Or.inl; decide)
    | (with_reducible apply Or.inr; with_reducible rfl)
    | (with_reducible apply Or.inr; rfl)
    | exact fun h => h
    | exact fun _ h => h
    | (intro _ hd; split <;> exact hd)
    | exact fun h => sparsePut_wf h _ _
    | exact fun _ h => sparsePut_wf h _ _
    | decide

theorem frame_meridianRestart (img : ImageChoice) (mana mcore : Nat) :
    Kept ([Part.sxChannel, Part.sxCell, Part.sxStage, Part.sxAux, Part.sxLaw, Part.sxRest, Part.outlet, Part.rdr,
        Part.merFe, Part.merLeg, Part.merChr, Part.merTar, Part.merRest, Part.lkOut, Part.lkOutlet] ++
        [Part.lkLatch, Part.lkRest, Part.wrk, Part.fw, Part.log, Part.flt, Part.pwr]) (.meridianRestart img mana
        mcore) := by
  intro s s' e
  change execMeridianRestart img mana mcore s = .next s' at e
  unfold execMeridianRestart at e
  injection e with e
  subst e
  repeat' first
    | with_reducible assumption
    | (extract_lets -merge +onlyGivenNames x
       first
       | (refine Keeps.cut (x := x) (fun hx => ?_) ?_; (on_goal 1 => clear_value x)
          (on_goal 2 => (unfold x; clear x)))
       | (refine Keeps.cut (x := x.2) (fun hx => ?_) ?_; (on_goal 1 => clear_value x)
          (on_goal 2 => (unfold x; clear x)))
       | (have t : List Part := x; clear t; subst x)
       | clear_value x)
    | with_reducible apply Keeps.refl
    | with_reducible apply Keeps.ite
    | with_reducible apply Keeps.then_ (keep_noteRail ..)
    | with_reducible apply Keeps.then_ (keep_settle ..)
    | with_reducible apply Keeps.then_ (keep_startMeridian ..)
    | with_reducible apply Keeps.then_ (keep_meridianBack ..)
    | decide
    | split

theorem frame_halfCycleRms (ph : Fin 3) :
    Kept [.merFe, .merLeg] (.halfCycleRms ph) := by
  intro s s' e
  change execHalfCycleRms ph s = .next s' at e
  unfold execHalfCycleRms at e
  injection e with e
  subst e
  repeat' first
    | with_reducible assumption
    | (extract_lets -merge +onlyGivenNames x
       first
       | (refine Keeps.cut (x := x) (fun hx => ?_) ?_; (on_goal 1 => clear_value x)
          (on_goal 2 => (unfold x; clear x)))
       | (refine Keeps.cut (x := x.2) (fun hx => ?_) ?_; (on_goal 1 => clear_value x)
          (on_goal 2 => (unfold x; clear x)))
       | clear_value x)
    | with_reducible apply Keeps.refl
    | with_reducible apply Keeps.then_ (keep_judgeHalfCycle ..)
    | with_reducible apply Keeps.then_ (keep_updHalf ..)
    | decide
    | (beta_reduce; split)

theorem frame_zeroCrossingTimeout (ph : Fin 3) :
    Kept [.merFe, .merLeg] (.zeroCrossingTimeout ph) := by
  intro s s' e
  change execZeroCrossingTimeout ph s = .next s' at e
  unfold execZeroCrossingTimeout at e
  injection e with e
  subst e
  repeat' first
    | with_reducible assumption
    | (extract_lets -merge +onlyGivenNames x
       first
       | (refine Keeps.cut (x := x) (fun hx => ?_) ?_; (on_goal 1 => clear_value x)
          (on_goal 2 => (unfold x; clear x)))
       | (refine Keeps.cut (x := x.2) (fun hx => ?_) ?_; (on_goal 1 => clear_value x)
          (on_goal 2 => (unfold x; clear x)))
       | clear_value x)
    | with_reducible apply Keeps.refl
    | with_reducible apply Keeps.ite
    | with_reducible apply Keeps.then_ (keep_judgeHalfCycle ..)
    | with_reducible apply Keeps.then_ (keep_updHalf ..)
    | decide
    | (beta_reduce; split)

theorem frame_ptpOffset (ns : Int) :
    Kept [.merLeg, .merChr, .merTar, .log, .flt] (.ptpOffset ns) := by
  intro s s' e
  change execPtpOffset ns s = .next s' at e
  unfold execPtpOffset at e
  injection e with e
  subst e
  repeat' first
    | with_reducible assumption
    | (extract_lets -merge +onlyGivenNames x
       first
       | (refine Keeps.cut (x := x) (fun hx => ?_) ?_; (on_goal 1 => clear_value x)
          (on_goal 2 => (unfold x; clear x)))
       | (refine Keeps.cut (x := x.2) (fun hx => ?_) ?_; (on_goal 1 => clear_value x)
          (on_goal 2 => (unfold x; clear x)))
       | (have t : Meridian := x; clear t; subst x)
       | (have t : _ → State := x; clear t; subst x)
       | (have t : _ → _ → State := x; clear t; subst x)
       | (have t : _ → _ → Display := x; clear t; subst x)
       | clear_value x)
    | with_reducible apply Keeps.refl
    | with_reducible apply Keeps.ite
    | with_reducible apply Keeps.then_ (keep_logClear ..)
    | with_reducible apply Keeps.then_ (keep_stepClock ..)
    | (beta_reduce; split)
    | with_reducible apply Keeps.upd_mer
    | (with_reducible apply Or.inl; decide)
    | (with_reducible apply Or.inr; with_reducible rfl)
    | (with_reducible apply Or.inr; rfl)
    | exact fun h => h
    | exact fun _ h => h
    | (intro _ hd; split <;> exact hd)
    | exact fun h => sparsePut_wf h _ _
    | exact fun _ h => sparsePut_wf h _ _
    | decide

theorem frame_ptpDeadReckoning  :
    Kept [.merChr, .log] .ptpDeadReckoning := by
  intro s s' e
  change execPtpDeadReckoning s = .next s' at e
  unfold execPtpDeadReckoning at e
  injection e with e
  subst e
  repeat' first
    | with_reducible assumption
    | (extract_lets -merge +onlyGivenNames x
       first
       | (refine Keeps.cut (x := x) (fun hx => ?_) ?_; (on_goal 1 => clear_value x)
          (on_goal 2 => (unfold x; clear x)))
       | (refine Keeps.cut (x := x.2) (fun hx => ?_) ?_; (on_goal 1 => clear_value x)
          (on_goal 2 => (unfold x; clear x)))
       | (have t : Meridian := x; clear t; subst x)
       | clear_value x)
    | with_reducible apply Keeps.refl
    | with_reducible apply Keeps.ite
    | with_reducible apply Keeps.then_ (keep_logMasked ..)
    | split
    | with_reducible apply Keeps.upd_mer
    | (with_reducible apply Or.inl; decide)
    | (with_reducible apply Or.inr; with_reducible rfl)
    | (with_reducible apply Or.inr; rfl)
    | exact fun h => h
    | exact fun _ h => h
    | (intro _ hd; split <;> exact hd)
    | exact fun h => sparsePut_wf h _ _
    | exact fun _ h => sparsePut_wf h _ _
    | decide

theorem frame_timeUncertainSet  :
    Kept [.merLeg] .timeUncertainSet := by
  intro s s' e
  change execTimeUncertainSet s = .next s' at e
  unfold execTimeUncertainSet at e
  injection e with e
  subst e
  repeat' first
    | with_reducible assumption
    | (extract_lets -merge +onlyGivenNames x
       first
       | (refine Keeps.cut (x := x) (fun hx => ?_) ?_; (on_goal 1 => clear_value x)
          (on_goal 2 => (unfold x; clear x)))
       | (refine Keeps.cut (x := x.2) (fun hx => ?_) ?_; (on_goal 1 => clear_value x)
          (on_goal 2 => (unfold x; clear x)))
       | clear_value x)
    | with_reducible apply Keeps.refl
    | with_reducible apply Keeps.ite
    | with_reducible apply Keeps.then_ (keep_updLeg ..)
    | decide
    | (beta_reduce; split)

theorem frame_leapSecond (insert : Bool) :
    Kept [.merLeg, .merChr, .merTar] (.leapSecond insert) := by
  intro s s' e
  change execLeapSecond insert s = .next s' at e
  unfold execLeapSecond at e
  injection e with e
  subst e
  repeat' first
    | with_reducible assumption
    | (extract_lets -merge +onlyGivenNames x
       first
       | (refine Keeps.cut (x := x) (fun hx => ?_) ?_; (on_goal 1 => clear_value x)
          (on_goal 2 => (unfold x; clear x)))
       | (refine Keeps.cut (x := x.2) (fun hx => ?_) ?_; (on_goal 1 => clear_value x)
          (on_goal 2 => (unfold x; clear x)))
       | (have t : Meridian := x; clear t; subst x)
       | clear_value x)
    | with_reducible apply Keeps.refl
    | with_reducible apply Keeps.ite
    | with_reducible apply Keeps.then_ (keep_stepClock ..)
    | split
    | with_reducible apply Keeps.upd_mer
    | (with_reducible apply Or.inl; decide)
    | (with_reducible apply Or.inr; with_reducible rfl)
    | (with_reducible apply Or.inr; rfl)
    | exact fun h => h
    | exact fun _ h => h
    | (intro _ hd; split <;> exact hd)
    | exact fun h => sparsePut_wf h _ _
    | exact fun _ h => sparsePut_wf h _ _
    | decide

theorem frame_slewDayEnd  :
    Kept [.merLeg, .merChr] .slewDayEnd := by
  intro s s' e
  change execSlewDayEnd s = .next s' at e
  unfold execSlewDayEnd at e
  injection e with e
  subst e
  repeat' first
    | with_reducible assumption
    | (extract_lets -merge +onlyGivenNames x
       first
       | (refine Keeps.cut (x := x) (fun hx => ?_) ?_; (on_goal 1 => clear_value x)
          (on_goal 2 => (unfold x; clear x)))
       | (refine Keeps.cut (x := x.2) (fun hx => ?_) ?_; (on_goal 1 => clear_value x)
          (on_goal 2 => (unfold x; clear x)))
       | (have t : Meridian := x; clear t; subst x)
       | clear_value x)
    | with_reducible apply Keeps.refl
    | with_reducible apply Keeps.ite
    | with_reducible apply Keeps.then_ (keep_legalEvent ..)
    | split
    | with_reducible apply Keeps.upd_mer
    | (with_reducible apply Or.inl; decide)
    | (with_reducible apply Or.inr; with_reducible rfl)
    | (with_reducible apply Or.inr; rfl)
    | exact fun h => h
    | exact fun _ h => h
    | (intro _ hd; split <;> exact hd)
    | exact fun h => sparsePut_wf h _ _
    | exact fun _ h => sparsePut_wf h _ _
    | decide

theorem frame_demandIntervalEnd  :
    Kept [.merLeg] .demandIntervalEnd := by
  intro s s' e
  change execDemandIntervalEnd s = .next s' at e
  unfold execDemandIntervalEnd at e
  injection e with e
  subst e
  repeat' first
    | with_reducible assumption
    | (extract_lets -merge +onlyGivenNames x
       first
       | (refine Keeps.cut (x := x) (fun hx => ?_) ?_; (on_goal 1 => clear_value x)
          (on_goal 2 => (unfold x; clear x)))
       | (refine Keeps.cut (x := x.2) (fun hx => ?_) ?_; (on_goal 1 => clear_value x)
          (on_goal 2 => (unfold x; clear x)))
       | clear_value x)
    | with_reducible apply Keeps.refl
    | with_reducible apply Keeps.ite
    | with_reducible apply Keeps.then_ (keep_closeIntervals ..)
    | decide
    | split

theorem frame_calendarActivate  :
    Kept [.merLeg, .merTar] .calendarActivate := by
  intro s s' e
  change execCalendarActivate s = .next s' at e
  unfold execCalendarActivate at e
  injection e with e
  subst e
  repeat' first
    | with_reducible assumption
    | (extract_lets -merge +onlyGivenNames x
       first
       | (refine Keeps.cut (x := x) (fun hx => ?_) ?_; (on_goal 1 => clear_value x)
          (on_goal 2 => (unfold x; clear x)))
       | (refine Keeps.cut (x := x.2) (fun hx => ?_) ?_; (on_goal 1 => clear_value x)
          (on_goal 2 => (unfold x; clear x)))
       | clear_value x)
    | with_reducible apply Keeps.refl
    | with_reducible apply Keeps.ite
    | with_reducible apply Keeps.then_ (keep_activateCalendar ..)
    | with_reducible apply Keeps.then_ (keep_retariff ..)
    | decide
    | split

theorem frame_tariffSwitch  :
    Kept [.merLeg, .merTar] .tariffSwitch := by
  intro s s' e
  change execTariffSwitch s = .next s' at e
  unfold execTariffSwitch at e
  injection e with e
  subst e
  repeat' first
    | with_reducible assumption
    | (extract_lets -merge +onlyGivenNames x
       first
       | (refine Keeps.cut (x := x) (fun hx => ?_) ?_; (on_goal 1 => clear_value x)
          (on_goal 2 => (unfold x; clear x)))
       | (refine Keeps.cut (x := x.2) (fun hx => ?_) ?_; (on_goal 1 => clear_value x)
          (on_goal 2 => (unfold x; clear x)))
       | clear_value x)
    | with_reducible apply Keeps.refl
    | with_reducible apply Keeps.ite
    | with_reducible apply Keeps.then_ (keep_closeIntervals ..)
    | with_reducible apply Keeps.then_ (keep_retariff ..)
    | decide
    | split

theorem frame_billingScheduledClose  :
    Kept [.merLeg, .merChr] .billingScheduledClose := by
  intro s s' e
  change execBillingScheduledClose s = .next s' at e
  unfold execBillingScheduledClose at e
  injection e with e
  subst e
  repeat' first
    | with_reducible assumption
    | (extract_lets -merge +onlyGivenNames x
       first
       | (refine Keeps.cut (x := x) (fun hx => ?_) ?_; (on_goal 1 => clear_value x)
          (on_goal 2 => (unfold x; clear x)))
       | (refine Keeps.cut (x := x.2) (fun hx => ?_) ?_; (on_goal 1 => clear_value x)
          (on_goal 2 => (unfold x; clear x)))
       | clear_value x)
    | with_reducible apply Keeps.refl
    | with_reducible apply Keeps.ite
    | with_reducible apply Keeps.then_ (keep_closeFor ..)
    | decide
    | split

theorem frame_legalWindowItem  :
    Kept [.merRest] .legalWindowItem := by
  intro s s' e
  change execLegalWindowItem s = .next s' at e
  unfold execLegalWindowItem at e
  injection e with e
  subst e
  repeat' first
    | with_reducible assumption
    | (extract_lets -merge +onlyGivenNames x
       first
       | (refine Keeps.cut (x := x) (fun hx => ?_) ?_; (on_goal 1 => clear_value x)
          (on_goal 2 => (unfold x; clear x)))
       | (refine Keeps.cut (x := x.2) (fun hx => ?_) ?_; (on_goal 1 => clear_value x)
          (on_goal 2 => (unfold x; clear x)))
       | (have t : Meridian := x; clear t; subst x)
       | clear_value x)
    | with_reducible apply Keeps.refl
    | with_reducible apply Keeps.ite
    | split
    | with_reducible apply Keeps.upd_mer
    | (with_reducible apply Or.inl; decide)
    | (with_reducible apply Or.inr; with_reducible rfl)
    | (with_reducible apply Or.inr; rfl)
    | exact fun h => h
    | exact fun _ h => h
    | (intro _ hd; split <;> exact hd)
    | exact fun h => sparsePut_wf h _ _
    | exact fun _ h => sparsePut_wf h _ _
    | decide

theorem frame_mailboxRequest (r : MailRequest) :
    Kept [.sxChannel, .sxCell, .sxStage, .sxAux, .sxRest, .outlet, .rdr, .merLeg, .merMail, .com, .lkOut, .lkOutlet,
        .lkRest, .wrk, .log, .flt] (.mailboxRequest r) := by
  intro s s' e
  change execMailboxRequest r s = .next s' at e
  unfold execMailboxRequest at e
  injection e with e
  subst e
  repeat' first
    | with_reducible assumption
    | (extract_lets -merge +onlyGivenNames x
       first
       | (refine Keeps.cut (x := x) (fun hx => ?_) ?_; (on_goal 1 => clear_value x)
          (on_goal 2 => (unfold x; clear x)))
       | (refine Keeps.cut (x := x.2) (fun hx => ?_) ?_; (on_goal 1 => clear_value x)
          (on_goal 2 => (unfold x; clear x)))
       | (have t : Meridian := x; clear t; subst x)
       | clear_value x)
    | with_reducible apply Keeps.refl
    | with_reducible apply Keeps.ite
    | with_reducible apply Keeps.then_ (keep_refillMail ..)
    | with_reducible apply Keeps.then_ (keep_answerMail ..)
    | split
    | with_reducible apply Keeps.upd_mer
    | (with_reducible apply Or.inl; decide)
    | (with_reducible apply Or.inr; with_reducible rfl)
    | (with_reducible apply Or.inr; rfl)
    | exact fun h => h
    | exact fun _ h => h
    | (intro _ hd; split <;> exact hd)
    | exact fun h => sparsePut_wf h _ _
    | exact fun _ h => sparsePut_wf h _ _
    | decide

theorem frame_prepayDebit  :
    Kept [.sxChannel, .sxCell, .sxStage, .sxAux, .sxRest, .outlet, .rdr, .com, .lkOut, .lkOutlet, .lkRest, .wrk,
        .log, .flt] .prepayDebit := by
  intro s s' e
  change execPrepayDebit s = .next s' at e
  unfold execPrepayDebit at e
  injection e with e
  subst e
  repeat' first
    | with_reducible assumption
    | (extract_lets -merge +onlyGivenNames x
       first
       | (refine Keeps.cut (x := x) (fun hx => ?_) ?_; (on_goal 1 => clear_value x)
          (on_goal 2 => (unfold x; clear x)))
       | (refine Keeps.cut (x := x.2) (fun hx => ?_) ?_; (on_goal 1 => clear_value x)
          (on_goal 2 => (unfold x; clear x)))
       | clear_value x)
    | with_reducible apply Keeps.refl
    | with_reducible apply Keeps.ite
    | with_reducible apply Keeps.then_ (keep_debitOutlet ..)
    | decide
    | split

theorem frame_friendlyHoursEnd (o : Fin 2) :
    Kept [.sxChannel, .sxCell, .sxStage, .sxAux, .sxRest, .outlet, .rdr, .lkOut, .lkOutlet, .lkRest, .wrk, .log,
        .flt] (.friendlyHoursEnd o) := by
  intro s s' e
  change execFriendlyHoursEnd o s = .next s' at e
  unfold execFriendlyHoursEnd at e
  injection e with e
  subst e
  repeat' first
    | with_reducible assumption
    | (extract_lets -merge +onlyGivenNames x
       first
       | (refine Keeps.cut (x := x) (fun hx => ?_) ?_; (on_goal 1 => clear_value x)
          (on_goal 2 => (unfold x; clear x)))
       | (refine Keeps.cut (x := x.2) (fun hx => ?_) ?_; (on_goal 1 => clear_value x)
          (on_goal 2 => (unfold x; clear x)))
       | clear_value x)
    | with_reducible apply Keeps.refl
    | with_reducible apply Keeps.then_ (keep_creditStop ..)
    | decide

theorem frame_weatherHoldEnd  :
    Kept [.sxChannel, .sxCell, .sxStage, .sxAux, .sxRest, .outlet, .rdr, .com, .lkOut, .lkOutlet, .lkRest, .wrk,
        .log, .flt] .weatherHoldEnd := by
  intro s s' e
  change execWeatherHoldEnd s = .next s' at e
  unfold execWeatherHoldEnd at e
  injection e with e
  subst e
  repeat' first
    | with_reducible assumption
    | (extract_lets -merge +onlyGivenNames x
       first
       | (refine Keeps.cut (x := x) (fun hx => ?_) ?_; (on_goal 1 => clear_value x)
          (on_goal 2 => (unfold x; clear x)))
       | (refine Keeps.cut (x := x.2) (fun hx => ?_) ?_; (on_goal 1 => clear_value x)
          (on_goal 2 => (unfold x; clear x)))
       | (have t : Commercial := x; clear t; subst x)
       | clear_value x)
    | with_reducible apply Keeps.refl
    | with_reducible apply Keeps.ite
    | with_reducible apply Keeps.then_ (keep_creditStop ..)
    | split
    | with_reducible apply Keeps.upd_com
    | exact fun h => h
    | exact fun _ h => h
    | (intro _ hd; split <;> exact hd)
    | exact fun h => sparsePut_wf h _ _
    | exact fun _ h => sparsePut_wf h _ _
    | decide

end Sys2Proof.Machine
end

