-- ==== Sys2Proof/Laws/FrameLookout.lean ====
section
/-!
SUPPORT. What each operation and command of Machine/Lookout.lean leaves unchanged.
-/
namespace Sys2Proof.Machine

set_option linter.unreachableTactic false
set_option linter.unusedTactic false
set_option linter.tactic.unusedName false

theorem keep_noteHolster (s : State) (n : Fin 16) (o : Fin 2) :
    Keeps [.lkOutlet] s (noteHolster s n o) := by
  unfold noteHolster
  repeat' first
    | with_reducible assumption
    | (extract_lets -merge +onlyGivenNames x
       first
       | (refine Keeps.cut (x := x) (fun hx => ?_) ?_; (on_goal 1 => clear_value x)
          (on_goal 2 => (unfold x; clear x)))
       | (refine Keeps.cut (x := x.2) (fun hx => ?_) ?_; (on_goal 1 => clear_value x)
          (on_goal 2 => (unfold x; clear x)))
       | clear_value x)
    | with_reducible apply Keeps.refl
    | with_reducible apply Keeps.ite
    | with_reducible apply Keeps.then_ (keep_updLko ..)
    | decide
    | (beta_reduce; split)

theorem keep_notePress (s t : State) (n : Fin 16) :
    Keeps [.lkRest] t (notePress s t n) := by
  unfold notePress
  repeat' first
    | with_reducible assumption
    | (extract_lets -merge +onlyGivenNames x
       first
       | (refine Keeps.cut (x := x) (fun hx => ?_) ?_; (on_goal 1 => clear_value x)
          (on_goal 2 => (unfold x; clear x)))
       | (refine Keeps.cut (x := x.2) (fun hx => ?_) ?_; (on_goal 1 => clear_value x)
          (on_goal 2 => (unfold x; clear x)))
       | (have t : Lookout := x; clear t; subst x)
       | clear_value x)
    | with_reducible apply Keeps.refl
    | with_reducible apply Keeps.ite
    | split
    | with_reducible apply Keeps.upd_lk
    | (with_reducible apply Or.inl; decide)
    | (with_reducible apply Or.inr; with_reducible rfl)
    | (with_reducible apply Or.inr; rfl)
    | decide

theorem keep_stampInput (s t : State) (n : Fin 16) :
    Keeps [.lkIn] t (stampInput s t n) := by
  unfold stampInput
  repeat' first
    | with_reducible assumption
    | (extract_lets -merge +onlyGivenNames x
       first
       | (refine Keeps.cut (x := x) (fun hx => ?_) ?_; (on_goal 1 => clear_value x)
          (on_goal 2 => (unfold x; clear x)))
       | (refine Keeps.cut (x := x.2) (fun hx => ?_) ?_; (on_goal 1 => clear_value x)
          (on_goal 2 => (unfold x; clear x)))
       | clear_value x)
    | with_reducible apply Keeps.refl
    | with_reducible apply Keeps.ite
    | with_reducible apply Keeps.then_ (keep_updSi ..)
    | decide
    | (beta_reduce; split)

theorem keep_judgePulse (s : State) (sideB : Bool) (samples : List (BitVec 16 × BitVec 16)) (n : Fin 16) :
    Keeps [.lkIn, .log, .flt] s (judgePulse s sideB samples n) := by
  unfold judgePulse
  repeat' first
    | with_reducible assumption
    | (extract_lets -merge +onlyGivenNames x
       first
       | (refine Keeps.cut (x := x) (fun hx => ?_) ?_; (on_goal 1 => clear_value x)
          (on_goal 2 => (unfold x; clear x)))
       | (refine Keeps.cut (x := x.2) (fun hx => ?_) ?_; (on_goal 1 => clear_value x)
          (on_goal 2 => (unfold x; clear x)))
       | (have t : _ → State := x; clear t; subst x)
       | (have t : _ → _ → State := x; clear t; subst x)
       | (have t : _ → _ → Display := x; clear t; subst x)
       | clear_value x)
    | with_reducible apply Keeps.refl
    | with_reducible apply Keeps.ite
    | with_reducible apply Keeps.then_ (keep_logDetect ..)
    | with_reducible apply Keeps.then_ (keep_updSi ..)
    | with_reducible apply Keeps.then_ (keep_stampInput ..)
    | decide
    | (beta_reduce; split)

theorem keep_clearChan (s : State) (ch : Fin 2) :
    Keeps [.safe] s (clearChan s ch) := by
  unfold clearChan
  repeat' first
    | with_reducible assumption
    | (extract_lets -merge +onlyGivenNames x
       first
       | (refine Keeps.cut (x := x) (fun hx => ?_) ?_; (on_goal 1 => clear_value x)
          (on_goal 2 => (unfold x; clear x)))
       | (refine Keeps.cut (x := x.2) (fun hx => ?_) ?_; (on_goal 1 => clear_value x)
          (on_goal 2 => (unfold x; clear x)))
       | clear_value x)
    | with_reducible apply Keeps.refl
    | with_reducible apply Keeps.upd_safe
    | decide

theorem keep_faultOut (s : State) (n : Fin 8) (k : Nat) :
    Keeps [.lkOut] s (faultOut s n k) := by
  unfold faultOut
  repeat' first
    | with_reducible assumption
    | (extract_lets -merge +onlyGivenNames x
       first
       | (refine Keeps.cut (x := x) (fun hx => ?_) ?_; (on_goal 1 => clear_value x)
          (on_goal 2 => (unfold x; clear x)))
       | (refine Keeps.cut (x := x.2) (fun hx => ?_) ?_; (on_goal 1 => clear_value x)
          (on_goal 2 => (unfold x; clear x)))
       | clear_value x)
    | with_reducible apply Keeps.refl
    | with_reducible apply Keeps.ite
    | with_reducible apply Keeps.then_ (keep_updSo ..)
    | decide
    | (beta_reduce; split)

theorem keep_readbackFault (s : State) (n : Fin 8) (sideB level : Bool) :
    Keeps [.lkOut, .log, .flt] s (readbackFault s n sideB level) := by
  unfold readbackFault
  repeat' first
    | with_reducible assumption
    | (extract_lets -merge +onlyGivenNames x
       first
       | (refine Keeps.cut (x := x) (fun hx => ?_) ?_; (on_goal 1 => clear_value x)
          (on_goal 2 => (unfold x; clear x)))
       | (refine Keeps.cut (x := x.2) (fun hx => ?_) ?_; (on_goal 1 => clear_value x)
          (on_goal 2 => (unfold x; clear x)))
       | clear_value x)
    | with_reducible apply Keeps.refl
    | with_reducible apply Keeps.ite
    | with_reducible apply Keeps.then_ (keep_logDetect ..)
    | with_reducible apply Keeps.then_ (keep_updSo ..)
    | with_reducible apply Keeps.then_ (keep_faultOut ..)
    | decide
    | (beta_reduce; split)

theorem keep_weld (s : State) (n : Fin 8) :
    Keeps [.sxChannel, .sxCell, .sxStage, .sxAux, .sxRest, .outlet, .rdr, .lkOut, .lkOutlet, .lkRest, .wrk, .log,
        .flt] s (weld s n) := by
  unfold weld
  repeat' first
    | with_reducible assumption
    | (extract_lets -merge +onlyGivenNames x
       first
       | (refine Keeps.cut (x := x) (fun hx => ?_) ?_; (on_goal 1 => clear_value x)
          (on_goal 2 => (unfold x; clear x)))
       | (refine Keeps.cut (x := x.2) (fun hx => ?_) ?_; (on_goal 1 => clear_value x)
          (on_goal 2 => (unfold x; clear x)))
       | clear_value x)
    | with_reducible apply Keeps.refl
    | with_reducible apply Keeps.then_ (keep_logDetect ..)
    | with_reducible apply Keeps.then_ (keep_updLko ..)
    | with_reducible apply Keeps.then_ (keep_setPilots ..)
    | with_reducible apply Keeps.then_ (keep_outletFault ..)
    | with_reducible apply Keeps.then_ (keep_faultOut ..)
    | decide
    | (beta_reduce; split)

theorem keep_resetModule (s : State) :
    Keeps [.lkLatch] s (resetModule s) := by
  unfold resetModule
  repeat' first
    | with_reducible assumption
    | (extract_lets -merge +onlyGivenNames x
       first
       | (refine Keeps.cut (x := x) (fun hx => ?_) ?_; (on_goal 1 => clear_value x)
          (on_goal 2 => (unfold x; clear x)))
       | (refine Keeps.cut (x := x.2) (fun hx => ?_) ?_; (on_goal 1 => clear_value x)
          (on_goal 2 => (unfold x; clear x)))
       | (have t : Lookout := x; clear t; subst x)
       | clear_value x)
    | with_reducible apply Keeps.refl
    | with_reducible apply Keeps.upd_lk
    | (with_reducible apply Or.inl; decide)
    | (with_reducible apply Or.inr; with_reducible rfl)
    | (with_reducible apply Or.inr; rfl)
    | decide

theorem keep_updSnd (s : State) (o : Fin 2) (f : Sounding → Sounding) :
    Keeps [.lkOutlet] s (updSnd s o f) := by
  unfold updSnd
  repeat' first
    | with_reducible assumption
    | (extract_lets -merge +onlyGivenNames x
       first
       | (refine Keeps.cut (x := x) (fun hx => ?_) ?_; (on_goal 1 => clear_value x)
          (on_goal 2 => (unfold x; clear x)))
       | (refine Keeps.cut (x := x.2) (fun hx => ?_) ?_; (on_goal 1 => clear_value x)
          (on_goal 2 => (unfold x; clear x)))
       | clear_value x)
    | with_reducible apply Keeps.refl
    | with_reducible apply Keeps.then_ (keep_updLko ..)
    | decide

theorem keep_tellVerdict (s : State) (o : Fin 2) (old v : Verdict) (trip : Bool) :
    Keeps [.sxChannel, .sxCell, .sxStage, .sxAux, .sxRest, .outlet, .rdr, .lkOut, .lkOutlet, .lkRest, .wrk, .log,
        .flt] s (tellVerdict s o old v trip) := by
  unfold tellVerdict
  repeat' first
    | with_reducible assumption
    | (extract_lets -merge +onlyGivenNames x
       first
       | (refine Keeps.cut (x := x) (fun hx => ?_) ?_; (on_goal 1 => clear_value x)
          (on_goal 2 => (unfold x; clear x)))
       | (refine Keeps.cut (x := x.2) (fun hx => ?_) ?_; (on_goal 1 => clear_value x)
          (on_goal 2 => (unfold x; clear x)))
       | clear_value x)
    | with_reducible apply Keeps.refl
    | with_reducible apply Keeps.ite
    | with_reducible apply Keeps.then_ (keep_logInfo ..)
    | with_reducible apply Keeps.then_ (keep_updOutlet ..)
    | with_reducible apply Keeps.then_ (keep_outletFault ..)
    | decide
    | (beta_reduce; split)

theorem keep_startSelfTest (s : State) (o : Fin 2) :
    Keeps [.lkOutlet] s (startSelfTest s o) := by
  unfold startSelfTest
  repeat' first
    | with_reducible assumption
    | (extract_lets -merge +onlyGivenNames x
       first
       | (refine Keeps.cut (x := x) (fun hx => ?_) ?_; (on_goal 1 => clear_value x)
          (on_goal 2 => (unfold x; clear x)))
       | (refine Keeps.cut (x := x.2) (fun hx => ?_) ?_; (on_goal 1 => clear_value x)
          (on_goal 2 => (unfold x; clear x)))
       | clear_value x)
    | with_reducible apply Keeps.refl
    | with_reducible apply Keeps.then_ (keep_updSnd ..)
    | decide

theorem frame_safetyInputChange (n : Fin 16) (a b : Bool) (heldUs : Nat) :
    Kept [.sxChannel, .sxCell, .sxStage, .sxAux, .sxLaw, .sxRest, .outlet, .rdr, .lkIn, .lkOut, .lkOutlet, .lkLatch,
        .lkRest, .wrk, .log, .flt] (.safetyInputChange n a b heldUs) := by
  intro s s' e
  change execSafetyInputChange n a b heldUs s = .next s' at e
  unfold execSafetyInputChange at e
  injection e with e
  subst e
  repeat' first
    | with_reducible assumption
    | (extract_lets -merge +onlyGivenNames x
       first
       | (refine Keeps.cut (x := x) (fun hx => ?_) ?_; (on_goal 1 => clear_value x)
          (on_goal 2 => (unfold x; clear x)))
       | (refine Keeps.cut (x := x.2) (fun hx => ?_) ?_; (on_goal 1 => clear_value x)
          (on_goal 2 => (unfold x; clear x)))
       | clear_value x)
    | with_reducible apply Keeps.refl
    | with_reducible apply Keeps.ite
    | with_reducible apply Keeps.then_ (keep_clearFaults ..)
    | with_reducible apply Keeps.then_ (keep_updSi ..)
    | with_reducible apply Keeps.then_ (keep_settle ..)
    | with_reducible apply Keeps.then_ (keep_noteHolster ..)
    | with_reducible apply Keeps.then_ (keep_notePress ..)
    | with_reducible apply Keeps.then_ (keep_stampInput ..)
    | decide
    | (beta_reduce; split)

theorem frame_discrepancyFault (n : Fin 16) :
    Kept [.sxChannel, .sxCell, .sxStage, .sxAux, .sxLaw, .sxRest, .outlet, .rdr, .lkIn, .lkOut, .lkOutlet, .lkLatch,
        .lkRest, .wrk, .log, .flt] (.discrepancyFault n) := by
  intro s s' e
  change execDiscrepancyFault n s = .next s' at e
  unfold execDiscrepancyFault at e
  injection e with e
  subst e
  repeat' first
    | with_reducible assumption
    | (extract_lets -merge +onlyGivenNames x
       first
       | (refine Keeps.cut (x := x) (fun hx => ?_) ?_; (on_goal 1 => clear_value x)
          (on_goal 2 => (unfold x; clear x)))
       | (refine Keeps.cut (x := x.2) (fun hx => ?_) ?_; (on_goal 1 => clear_value x)
          (on_goal 2 => (unfold x; clear x)))
       | clear_value x)
    | with_reducible apply Keeps.refl
    | with_reducible apply Keeps.ite
    | with_reducible apply Keeps.then_ (keep_logDetect ..)
    | with_reducible apply Keeps.then_ (keep_updSi ..)
    | with_reducible apply Keeps.then_ (keep_settle ..)
    | with_reducible apply Keeps.then_ (keep_stampInput ..)
    | decide
    | (beta_reduce; split)

theorem frame_testPulse (k : Fin 4) (sideB : Bool) (samples : List (BitVec 16 × BitVec 16)) :
    Kept [.sxChannel, .sxCell, .sxStage, .sxAux, .sxLaw, .sxRest, .outlet, .rdr, .lkIn, .lkOut, .lkOutlet, .lkLatch,
        .lkRest, .wrk, .log, .flt] (.testPulse k sideB samples) := by
  intro s s' e
  change execTestPulse k sideB samples s = .next s' at e
  unfold execTestPulse at e
  injection e with e
  subst e
  repeat' first
    | with_reducible assumption
    | (extract_lets -merge +onlyGivenNames x
       first
       | (refine Keeps.cut (x := x) (fun hx => ?_) ?_; (on_goal 1 => clear_value x)
          (on_goal 2 => (unfold x; clear x)))
       | (refine Keeps.cut (x := x.2) (fun hx => ?_) ?_; (on_goal 1 => clear_value x)
          (on_goal 2 => (unfold x; clear x)))
       | clear_value x)
    | with_reducible apply Keeps.refl
    | with_reducible apply Keeps.then_ (keep_settle ..)
    | with_reducible apply Keeps.then_ (keep_judgePulse ..)
    | (with_reducible apply Keeps.foldl; on_goal 2 => intros)
    | decide

theorem frame_crossCompareExchange (a b : LkImage) :
    Kept [.sxChannel, .sxCell, .sxStage, .sxAux, .sxLaw, .sxRest, .outlet, .rdr, .lkOut, .lkOutlet, .lkLatch,
        .lkRest, .wrk, .log, .flt] (.crossCompareExchange a b) := by
  intro s s' e
  change execCrossCompareExchange a b s = .next s' at e
  unfold execCrossCompareExchange at e
  injection e with e
  subst e
  repeat' first
    | with_reducible assumption
    | (extract_lets -merge +onlyGivenNames x
       first
       | (refine Keeps.cut (x := x) (fun hx => ?_) ?_; (on_goal 1 => clear_value x)
          (on_goal 2 => (unfold x; clear x)))
       | (refine Keeps.cut (x := x.2) (fun hx => ?_) ?_; (on_goal 1 => clear_value x)
          (on_goal 2 => (unfold x; clear x)))
       | (have t : Lookout := x; clear t; subst x)
       | clear_value x)
    | with_reducible apply Keeps.refl
    | with_reducible apply Keeps.ite
    | with_reducible apply Keeps.then_ (keep_logDetect ..)
    | with_reducible apply Keeps.then_ (keep_settle ..)
    | split
    | with_reducible apply Keeps.upd_lk
    | (with_reducible apply Or.inl; decide)
    | (with_reducible apply Or.inr; with_reducible rfl)
    | (with_reducible apply Or.inr; rfl)
    | decide

theorem frame_lookoutChannelRestart (ch : Fin 2) :
    Kept [.sxChannel, .sxCell, .sxStage, .sxAux, .sxLaw, .sxRest, .outlet, .rdr, .lkOut, .lkOutlet, .lkLatch,
        .lkRest, .safe, .wrk, .log, .flt] (.lookoutChannelRestart ch) := by
  intro s s' e
  change execLookoutChannelRestart ch s = .next s' at e
  unfold execLookoutChannelRestart at e
  injection e with e
  subst e
  repeat' first
    | with_reducible assumption
    | (extract_lets -merge +onlyGivenNames x
       first
       | (refine Keeps.cut (x := x) (fun hx => ?_) ?_; (on_goal 1 => clear_value x)
          (on_goal 2 => (unfold x; clear x)))
       | (refine Keeps.cut (x := x.2) (fun hx => ?_) ?_; (on_goal 1 => clear_value x)
          (on_goal 2 => (unfold x; clear x)))
       | (have t : Lookout := x; clear t; subst x)
       | clear_value x)
    | with_reducible apply Keeps.refl
    | with_reducible apply Keeps.ite
    | with_reducible apply Keeps.then_ (keep_logDetect ..)
    | with_reducible apply Keeps.then_ (keep_updLko ..)
    | with_reducible apply Keeps.then_ (keep_settle ..)
    | with_reducible apply Keeps.then_ (keep_clearChan ..)
    | (beta_reduce; split)
    | with_reducible apply Keeps.upd_lk
    | (with_reducible apply Or.inl; decide)
    | (with_reducible apply Or.inr; with_reducible rfl)
    | (with_reducible apply Or.inr; rfl)
    | decide

theorem frame_channelsAgreed  :
    Kept [.sxChannel, .sxCell, .sxStage, .sxAux, .sxLaw, .sxRest, .outlet, .rdr, .lkOut, .lkOutlet, .lkLatch,
        .lkRest, .wrk, .log, .flt] .channelsAgreed := by
  intro s s' e
  change execChannelsAgreed s = .next s' at e
  unfold execChannelsAgreed at e
  injection e with e
  subst e
  repeat' first
    | with_reducible assumption
    | (extract_lets -merge +onlyGivenNames x
       first
       | (refine Keeps.cut (x := x) (fun hx => ?_) ?_; (on_goal 1 => clear_value x)
          (on_goal 2 => (unfold x; clear x)))
       | (refine Keeps.cut (x := x.2) (fun hx => ?_) ?_; (on_goal 1 => clear_value x)
          (on_goal 2 => (unfold x; clear x)))
       | (have t : Lookout := x; clear t; subst x)
       | clear_value x)
    | with_reducible apply Keeps.refl
    | with_reducible apply Keeps.ite
    | with_reducible apply Keeps.then_ (keep_clearFaults ..)
    | with_reducible apply Keeps.then_ (keep_settle ..)
    | (beta_reduce; split)
    | with_reducible apply Keeps.upd_lk
    | (with_reducible apply Or.inl; decide)
    | (with_reducible apply Or.inr; with_reducible rfl)
    | (with_reducible apply Or.inr; rfl)
    | decide

theorem frame_offTest (n : Fin 8) (sideB ok : Bool) :
    Kept [.sxChannel, .sxCell, .sxStage, .sxAux, .sxLaw, .sxRest, .outlet, .rdr, .lkOut, .lkOutlet, .lkLatch,
        .lkRest, .wrk, .log, .flt] (.offTest n sideB ok) := by
  intro s s' e
  change execOffTest n sideB ok s = .next s' at e
  unfold execOffTest at e
  injection e with e
  subst e
  repeat' first
    | with_reducible assumption
    | (extract_lets -merge +onlyGivenNames x
       first
       | (refine Keeps.cut (x := x) (fun hx => ?_) ?_; (on_goal 1 => clear_value x)
          (on_goal 2 => (unfold x; clear x)))
       | (refine Keeps.cut (x := x.2) (fun hx => ?_) ?_; (on_goal 1 => clear_value x)
          (on_goal 2 => (unfold x; clear x)))
       | clear_value x)
    | with_reducible apply Keeps.refl
    | with_reducible apply Keeps.ite
    | with_reducible apply Keeps.then_ (keep_updSo ..)
    | with_reducible apply Keeps.then_ (keep_settle ..)
    | with_reducible apply Keeps.then_ (keep_readbackFault ..)
    | decide
    | (beta_reduce; split)

theorem frame_outputReadbackFault (n : Fin 8) (sideB : Bool) :
    Kept [.sxChannel, .sxCell, .sxStage, .sxAux, .sxLaw, .sxRest, .outlet, .rdr, .lkOut, .lkOutlet, .lkLatch,
        .lkRest, .wrk, .log, .flt] (.outputReadbackFault n sideB) := by
  intro s s' e
  change execOutputReadbackFault n sideB s = .next s' at e
  unfold execOutputReadbackFault at e
  injection e with e
  subst e
  repeat' first
    | with_reducible assumption
    | (extract_lets -merge +onlyGivenNames x
       first
       | (refine Keeps.cut (x := x) (fun hx => ?_) ?_; (on_goal 1 => clear_value x)
          (on_goal 2 => (unfold x; clear x)))
       | (refine Keeps.cut (x := x.2) (fun hx => ?_) ?_; (on_goal 1 => clear_value x)
          (on_goal 2 => (unfold x; clear x)))
       | clear_value x)
    | with_reducible apply Keeps.refl
    | with_reducible apply Keeps.ite
    | with_reducible apply Keeps.then_ (keep_settle ..)
    | with_reducible apply Keeps.then_ (keep_readbackFault ..)
    | decide
    | split

theorem frame_feedbackTimeout (n : Fin 8) (a b : Bool) :
    Kept [.sxChannel, .sxCell, .sxStage, .sxAux, .sxLaw, .sxRest, .outlet, .rdr, .lkOut, .lkOutlet, .lkLatch,
        .lkRest, .wrk, .log, .flt] (.feedbackTimeout n a b) := by
  intro s s' e
  change execFeedbackTimeout n a b s = .next s' at e
  unfold execFeedbackTimeout at e
  injection e with e
  subst e
  repeat' first
    | with_reducible assumption
    | (extract_lets -merge +onlyGivenNames x
       first
       | (refine Keeps.cut (x := x) (fun hx => ?_) ?_; (on_goal 1 => clear_value x)
          (on_goal 2 => (unfold x; clear x)))
       | (refine Keeps.cut (x := x.2) (fun hx => ?_) ?_; (on_goal 1 => clear_value x)
          (on_goal 2 => (unfold x; clear x)))
       | clear_value x)
    | with_reducible apply Keeps.refl
    | with_reducible apply Keeps.ite
    | with_reducible apply Keeps.then_ (keep_logDetect ..)
    | with_reducible apply Keeps.then_ (keep_updSo ..)
    | with_reducible apply Keeps.then_ (keep_settle ..)
    | with_reducible apply Keeps.then_ (keep_faultOut ..)
    | with_reducible apply Keeps.then_ (keep_weld ..)
    | decide
    | (beta_reduce; split)

theorem frame_lateWeld (n : Fin 8) (a b : Bool) :
    Kept [.sxChannel, .sxCell, .sxStage, .sxAux, .sxLaw, .sxRest, .outlet, .rdr, .lkOut, .lkOutlet, .lkLatch,
        .lkRest, .wrk, .log, .flt] (.lateWeld n a b) := by
  intro s s' e
  change execLateWeld n a b s = .next s' at e
  unfold execLateWeld at e
  injection e with e
  subst e
  repeat' first
    | with_reducible assumption
    | (extract_lets -merge +onlyGivenNames x
       first
       | (refine Keeps.cut (x := x) (fun hx => ?_) ?_; (on_goal 1 => clear_value x)
          (on_goal 2 => (unfold x; clear x)))
       | (refine Keeps.cut (x := x.2) (fun hx => ?_) ?_; (on_goal 1 => clear_value x)
          (on_goal 2 => (unfold x; clear x)))
       | clear_value x)
    | with_reducible apply Keeps.refl
    | with_reducible apply Keeps.ite
    | with_reducible apply Keeps.then_ (keep_updSo ..)
    | with_reducible apply Keeps.then_ (keep_settle ..)
    | with_reducible apply Keeps.then_ (keep_weld ..)
    | decide
    | (beta_reduce; split)

theorem frame_feedbackDiscrepancy (n : Fin 8) (a b : Bool) :
    Kept [.sxChannel, .sxCell, .sxStage, .sxAux, .sxLaw, .sxRest, .outlet, .rdr, .lkOut, .lkOutlet, .lkLatch,
        .lkRest, .wrk, .log, .flt] (.feedbackDiscrepancy n a b) := by
  intro s s' e
  change execFeedbackDiscrepancy n a b s = .next s' at e
  unfold execFeedbackDiscrepancy at e
  injection e with e
  subst e
  repeat' first
    | with_reducible assumption
    | (extract_lets -merge +onlyGivenNames x
       first
       | (refine Keeps.cut (x := x) (fun hx => ?_) ?_; (on_goal 1 => clear_value x)
          (on_goal 2 => (unfold x; clear x)))
       | (refine Keeps.cut (x := x.2) (fun hx => ?_) ?_; (on_goal 1 => clear_value x)
          (on_goal 2 => (unfold x; clear x)))
       | clear_value x)
    | with_reducible apply Keeps.refl
    | with_reducible apply Keeps.ite
    | with_reducible apply Keeps.then_ (keep_logDetect ..)
    | with_reducible apply Keeps.then_ (keep_updSo ..)
    | with_reducible apply Keeps.then_ (keep_settle ..)
    | with_reducible apply Keeps.then_ (keep_faultOut ..)
    | decide
    | (beta_reduce; split)

theorem frame_contactorCloseRequest (o : Fin 2) :
    Kept [.sxChannel, .sxCell, .sxStage, .sxAux, .sxLaw, .sxRest, .outlet, .rdr, .lkOut, .lkOutlet, .lkLatch,
        .lkRest, .wrk, .log, .flt] (.contactorCloseRequest o) := by
  intro s s' e
  change execContactorCloseRequest o s = .next s' at e
  unfold execContactorCloseRequest at e
  injection e with e
  subst e
  repeat' first
    | with_reducible assumption
    | (extract_lets -merge +onlyGivenNames x
       first
       | (refine Keeps.cut (x := x) (fun hx => ?_) ?_; (on_goal 1 => clear_value x)
          (on_goal 2 => (unfold x; clear x)))
       | (refine Keeps.cut (x := x.2) (fun hx => ?_) ?_; (on_goal 1 => clear_value x)
          (on_goal 2 => (unfold x; clear x)))
       | clear_value x)
    | with_reducible apply Keeps.refl
    | with_reducible apply Keeps.ite
    | with_reducible apply Keeps.then_ (keep_updLko ..)
    | with_reducible apply Keeps.then_ (keep_judgeClose ..)
    | with_reducible apply Keeps.then_ (keep_settle ..)
    | decide
    | (beta_reduce; split)

theorem frame_contactorOpenRequest (o : Fin 2) :
    Kept [.sxChannel, .sxCell, .sxStage, .sxAux, .sxLaw, .sxRest, .outlet, .rdr, .lkOut, .lkOutlet, .lkLatch,
        .lkRest, .wrk, .log, .flt] (.contactorOpenRequest o) := by
  intro s s' e
  change execContactorOpenRequest o s = .next s' at e
  unfold execContactorOpenRequest at e
  injection e with e
  subst e
  repeat' first
    | with_reducible assumption
    | (extract_lets -merge +onlyGivenNames x
       first
       | (refine Keeps.cut (x := x) (fun hx => ?_) ?_; (on_goal 1 => clear_value x)
          (on_goal 2 => (unfold x; clear x)))
       | (refine Keeps.cut (x := x.2) (fun hx => ?_) ?_; (on_goal 1 => clear_value x)
          (on_goal 2 => (unfold x; clear x)))
       | clear_value x)
    | with_reducible apply Keeps.refl
    | with_reducible apply Keeps.then_ (keep_settle ..)
    | with_reducible apply Keeps.then_ (keep_openContactors ..)
    | decide

theorem frame_closeRequestExpiry (o : Fin 2) :
    Kept [.lkOutlet] (.closeRequestExpiry o) := by
  intro s s' e
  change execCloseRequestExpiry o s = .next s' at e
  unfold execCloseRequestExpiry at e
  injection e with e
  subst e
  repeat' first
    | with_reducible assumption
    | (extract_lets -merge +onlyGivenNames x
       first
       | (refine Keeps.cut (x := x) (fun hx => ?_) ?_; (on_goal 1 => clear_value x)
          (on_goal 2 => (unfold x; clear x)))
       | (refine Keeps.cut (x := x.2) (fun hx => ?_) ?_; (on_goal 1 => clear_value x)
          (on_goal 2 => (unfold x; clear x)))
       | clear_value x)
    | with_reducible apply Keeps.refl
    | with_reducible apply Keeps.ite
    | with_reducible apply Keeps.then_ (keep_updLko ..)
    | decide
    | (beta_reduce; split)

theorem frame_lockRequest (o : Fin 2) :
    Kept [.sxChannel, .sxCell, .sxStage, .sxAux, .sxLaw, .sxRest, .outlet, .rdr, .lkOut, .lkOutlet, .lkLatch,
        .lkRest, .wrk, .log, .flt] (.lockRequest o) := by
  intro s s' e
  change execLockRequest o s = .next s' at e
  unfold execLockRequest at e
  injection e with e
  subst e
  repeat' first
    | with_reducible assumption
    | (extract_lets -merge +onlyGivenNames x
       first
       | (refine Keeps.cut (x := x) (fun hx => ?_) ?_; (on_goal 1 => clear_value x)
          (on_goal 2 => (unfold x; clear x)))
       | (refine Keeps.cut (x := x.2) (fun hx => ?_) ?_; (on_goal 1 => clear_value x)
          (on_goal 2 => (unfold x; clear x)))
       | clear_value x)
    | with_reducible apply Keeps.refl
    | with_reducible apply Keeps.ite
    | with_reducible apply Keeps.then_ (keep_settle ..)
    | with_reducible apply Keeps.then_ (keep_driveLock ..)
    | decide
    | split

theorem frame_unlockRequest (o : Fin 2) :
    Kept [.sxChannel, .sxCell, .sxStage, .sxAux, .sxLaw, .sxRest, .outlet, .rdr, .lkOut, .lkOutlet, .lkLatch,
        .lkRest, .wrk, .log, .flt] (.unlockRequest o) := by
  intro s s' e
  change execUnlockRequest o s = .next s' at e
  unfold execUnlockRequest at e
  injection e with e
  subst e
  repeat' first
    | with_reducible assumption
    | (extract_lets -merge +onlyGivenNames x
       first
       | (refine Keeps.cut (x := x) (fun hx => ?_) ?_; (on_goal 1 => clear_value x)
          (on_goal 2 => (unfold x; clear x)))
       | (refine Keeps.cut (x := x.2) (fun hx => ?_) ?_; (on_goal 1 => clear_value x)
          (on_goal 2 => (unfold x; clear x)))
       | clear_value x)
    | with_reducible apply Keeps.refl
    | with_reducible apply Keeps.ite
    | with_reducible apply Keeps.then_ (keep_settle ..)
    | with_reducible apply Keeps.then_ (keep_askUnlock ..)
    | decide
    | split

theorem frame_lockFbLost (o : Fin 2) :
    Kept [.sxChannel, .sxCell, .sxStage, .sxAux, .sxLaw, .sxRest, .outlet, .rdr, .lkOut, .lkOutlet, .lkLatch,
        .lkRest, .wrk, .log, .flt] (.lockFbLost o) := by
  intro s s' e
  change execLockFbLost o s = .next s' at e
  unfold execLockFbLost at e
  injection e with e
  subst e
  repeat' first
    | with_reducible assumption
    | (extract_lets -merge +onlyGivenNames x
       first
       | (refine Keeps.cut (x := x) (fun hx => ?_) ?_; (on_goal 1 => clear_value x)
          (on_goal 2 => (unfold x; clear x)))
       | (refine Keeps.cut (x := x.2) (fun hx => ?_) ?_; (on_goal 1 => clear_value x)
          (on_goal 2 => (unfold x; clear x)))
       | clear_value x)
    | with_reducible apply Keeps.refl
    | with_reducible apply Keeps.ite
    | with_reducible apply Keeps.then_ (keep_updLko ..)
    | with_reducible apply Keeps.then_ (keep_outletFault ..)
    | with_reducible apply Keeps.then_ (keep_settle ..)
    | decide
    | (beta_reduce; split)

theorem frame_outputKindRequest (kind : Fin 8) (on : Bool) :
    Kept [.sxChannel, .sxCell, .sxStage, .sxAux, .sxLaw, .sxRest, .outlet, .rdr, .lkOut, .lkOutlet, .lkLatch,
        .lkRest, .wrk, .log, .flt] (.outputKindRequest kind on) := by
  intro s s' e
  change execOutputKindRequest kind on s = .next s' at e
  unfold execOutputKindRequest at e
  injection e with e
  subst e
  have hl : ∀ r : State, Keeps [.sxChannel, .sxCell, .sxStage, .sxAux, .sxLaw, .sxRest, .outlet, .rdr, .lkOut,
      .lkOutlet, .lkLatch, .lkRest, .wrk, .log, .flt] s r →
      Keeps [.sxChannel, .sxCell, .sxStage, .sxAux, .sxLaw, .sxRest, .outlet, .rdr, .lkOut, .lkOutlet, .lkLatch,
          .lkRest, .wrk, .log, .flt] s (settle s r) := fun r h =>
    h.trans ((keep_settle s r).mono (by decide))
  split
  · exact hl _ (Keeps.upd_lk (Keeps.refl _ _) (Or.inr rfl) (Or.inr rfl) (Or.inr rfl) (Or.inr rfl) (Or.inr rfl)
      (Or.inl (by decide)))
  · exact hl _ (Keeps.upd_lk (Keeps.refl _ _) (Or.inr rfl) (Or.inr rfl) (Or.inr rfl) (Or.inr rfl) (Or.inr rfl)
      (Or.inl (by decide)))
  · exact Keeps.refl _ _

theorem frame_resetPress  :
    Kept [.sxChannel, .sxCell, .sxStage, .sxAux, .sxLaw, .sxRest, .outlet, .rdr, .lkOut, .lkOutlet, .lkLatch,
        .lkRest, .wrk, .log, .flt] .resetPress := by
  intro s s' e
  change execResetPress s = .next s' at e
  unfold execResetPress at e
  injection e with e
  subst e
  repeat' first
    | with_reducible assumption
    | (extract_lets -merge +onlyGivenNames x
       first
       | (refine Keeps.cut (x := x) (fun hx => ?_) ?_; (on_goal 1 => clear_value x)
          (on_goal 2 => (unfold x; clear x)))
       | (refine Keeps.cut (x := x.2) (fun hx => ?_) ?_; (on_goal 1 => clear_value x)
          (on_goal 2 => (unfold x; clear x)))
       | (have t : Lookout := x; clear t; subst x)
       | clear_value x)
    | with_reducible apply Keeps.refl
    | with_reducible apply Keeps.ite
    | with_reducible apply Keeps.then_ (keep_settle ..)
    | with_reducible apply Keeps.then_ (keep_resetModule ..)
    | (beta_reduce; split)
    | with_reducible apply Keeps.upd_lk
    | (with_reducible apply Or.inl; decide)
    | (with_reducible apply Or.inr; with_reducible rfl)
    | (with_reducible apply Or.inr; rfl)
    | decide

theorem frame_holsterTestSeen (o : Fin 2) :
    Kept [.sxChannel, .sxCell, .sxStage, .sxAux, .sxLaw, .sxRest, .outlet, .rdr, .lkOut, .lkOutlet, .lkLatch,
        .lkRest, .wrk, .log, .flt] (.holsterTestSeen o) := by
  intro s s' e
  change execHolsterTestSeen o s = .next s' at e
  unfold execHolsterTestSeen at e
  injection e with e
  subst e
  repeat' first
    | with_reducible assumption
    | (extract_lets -merge +onlyGivenNames x
       first
       | (refine Keeps.cut (x := x) (fun hx => ?_) ?_; (on_goal 1 => clear_value x)
          (on_goal 2 => (unfold x; clear x)))
       | (refine Keeps.cut (x := x.2) (fun hx => ?_) ?_; (on_goal 1 => clear_value x)
          (on_goal 2 => (unfold x; clear x)))
       | clear_value x)
    | with_reducible apply Keeps.refl
    | with_reducible apply Keeps.ite
    | with_reducible apply Keeps.then_ (keep_updLko ..)
    | with_reducible apply Keeps.then_ (keep_settle ..)
    | decide
    | (beta_reduce; split)

theorem frame_landfallCompleteMessage  :
    Kept [.sxChannel, .sxCell, .sxStage, .sxAux, .sxLaw, .sxRest, .outlet, .rdr, .lkOut, .lkOutlet, .lkLatch,
        .lkRest, .wrk, .log, .flt] .landfallCompleteMessage := by
  intro s s' e
  change execLandfallCompleteMessage s = .next s' at e
  unfold execLandfallCompleteMessage at e
  injection e with e
  subst e
  repeat' first
    | with_reducible assumption
    | (extract_lets -merge +onlyGivenNames x
       first
       | (refine Keeps.cut (x := x) (fun hx => ?_) ?_; (on_goal 1 => clear_value x)
          (on_goal 2 => (unfold x; clear x)))
       | (refine Keeps.cut (x := x.2) (fun hx => ?_) ?_; (on_goal 1 => clear_value x)
          (on_goal 2 => (unfold x; clear x)))
       | (have t : Lookout := x; clear t; subst x)
       | clear_value x)
    | with_reducible apply Keeps.refl
    | with_reducible apply Keeps.ite
    | with_reducible apply Keeps.then_ (keep_settle ..)
    | split
    | with_reducible apply Keeps.upd_lk
    | (with_reducible apply Or.inl; decide)
    | (with_reducible apply Or.inr; with_reducible rfl)
    | (with_reducible apply Or.inr; rfl)
    | decide

theorem frame_landfallStartMessage  :
    Kept [.sxChannel, .sxCell, .sxStage, .sxAux, .sxLaw, .sxRest, .outlet, .rdr, .lkOut, .lkOutlet, .lkLatch,
        .lkRest, .wrk, .log, .flt] .landfallStartMessage := by
  intro s s' e
  change execLandfallStartMessage s = .next s' at e
  unfold execLandfallStartMessage at e
  injection e with e
  subst e
  repeat' first
    | with_reducible assumption
    | (extract_lets -merge +onlyGivenNames x
       first
       | (refine Keeps.cut (x := x) (fun hx => ?_) ?_; (on_goal 1 => clear_value x)
          (on_goal 2 => (unfold x; clear x)))
       | (refine Keeps.cut (x := x.2) (fun hx => ?_) ?_; (on_goal 1 => clear_value x)
          (on_goal 2 => (unfold x; clear x)))
       | (have t : Lookout := x; clear t; subst x)
       | clear_value x)
    | with_reducible apply Keeps.refl
    | with_reducible apply Keeps.then_ (keep_settle ..)
    | with_reducible apply Keeps.upd_lk
    | (with_reducible apply Or.inl; decide)
    | (with_reducible apply Or.inr; with_reducible rfl)
    | (with_reducible apply Or.inr; rfl)
    | decide

theorem frame_sextantResetSeen  :
    Kept [.sxChannel, .sxCell, .sxStage, .sxAux, .sxLaw, .sxRest, .outlet, .rdr, .lkOut, .lkOutlet, .lkLatch,
        .lkRest, .wrk, .log, .flt] .sextantResetSeen := by
  intro s s' e
  change execSextantResetSeen s = .next s' at e
  unfold execSextantResetSeen at e
  injection e with e
  subst e
  repeat' first
    | with_reducible assumption
    | (extract_lets -merge +onlyGivenNames x
       first
       | (refine Keeps.cut (x := x) (fun hx => ?_) ?_; (on_goal 1 => clear_value x)
          (on_goal 2 => (unfold x; clear x)))
       | (refine Keeps.cut (x := x.2) (fun hx => ?_) ?_; (on_goal 1 => clear_value x)
          (on_goal 2 => (unfold x; clear x)))
       | (have t : Lookout := x; clear t; subst x)
       | clear_value x)
    | with_reducible apply Keeps.refl
    | with_reducible apply Keeps.then_ (keep_settle ..)
    | with_reducible apply Keeps.upd_lk
    | (with_reducible apply Or.inl; decide)
    | (with_reducible apply Or.inr; with_reducible rfl)
    | (with_reducible apply Or.inr; rfl)
    | decide

theorem frame_soundingHalfPeriod  :
    Kept [.lkOutlet, .lkRest] .soundingHalfPeriod := by
  intro s s' e
  change execSoundingHalfPeriod s = .next s' at e
  unfold execSoundingHalfPeriod at e
  injection e with e
  subst e
  repeat' first
    | with_reducible assumption
    | (extract_lets -merge +onlyGivenNames x
       first
       | (refine Keeps.cut (x := x) (fun hx => ?_) ?_; (on_goal 1 => clear_value x)
          (on_goal 2 => (unfold x; clear x)))
       | (refine Keeps.cut (x := x.2) (fun hx => ?_) ?_; (on_goal 1 => clear_value x)
          (on_goal 2 => (unfold x; clear x)))
       | (have t : Lookout := x; clear t; subst x)
       | (have t : _ → State := x; clear t; subst x)
       | (have t : _ → _ → State := x; clear t; subst x)
       | (have t : _ → _ → Display := x; clear t; subst x)
       | clear_value x)
    | with_reducible apply Keeps.refl
    | with_reducible apply Keeps.then_ (keep_updSnd ..)
    | with_reducible apply Keeps.upd_lk
    | (with_reducible apply Or.inl; decide)
    | (with_reducible apply Or.inr; with_reducible rfl)
    | (with_reducible apply Or.inr; rfl)
    | decide

theorem frame_soundingVerdict (o : Fin 2) :
    Kept [.sxChannel, .sxCell, .sxStage, .sxAux, .sxLaw, .sxRest, .outlet, .rdr, .lkOut, .lkOutlet, .lkLatch,
        .lkRest, .wrk, .log, .flt] (.soundingVerdict o) := by
  intro s s' e
  change execSoundingVerdict o s = .next s' at e
  unfold execSoundingVerdict at e
  injection e with e
  subst e
  repeat' first
    | with_reducible assumption
    | (extract_lets -merge +onlyGivenNames x
       first
       | (refine Keeps.cut (x := x) (fun hx => ?_) ?_; (on_goal 1 => clear_value x)
          (on_goal 2 => (unfold x; clear x)))
       | (refine Keeps.cut (x := x.2) (fun hx => ?_) ?_; (on_goal 1 => clear_value x)
          (on_goal 2 => (unfold x; clear x)))
       | clear_value x)
    | with_reducible apply Keeps.refl
    | with_reducible apply Keeps.ite
    | with_reducible apply Keeps.then_ (keep_settle ..)
    | with_reducible apply Keeps.then_ (keep_updSnd ..)
    | with_reducible apply Keeps.then_ (keep_tellVerdict ..)
    | decide
    | (beta_reduce; split)

theorem frame_poleVoltageSample (o : Fin 2) (p n : Nat) :
    Kept [.sxChannel, .sxCell, .sxStage, .sxAux, .sxLaw, .sxRest, .outlet, .rdr, .lkOut, .lkOutlet, .lkLatch,
        .lkRest, .wrk, .log, .flt] (.poleVoltageSample o p n) := by
  intro s s' e
  change execPoleVoltageSample o p n s = .next s' at e
  unfold execPoleVoltageSample at e
  injection e with e
  subst e
  repeat' first
    | with_reducible assumption
    | (extract_lets -merge +onlyGivenNames x
       first
       | (refine Keeps.cut (x := x) (fun hx => ?_) ?_; (on_goal 1 => clear_value x)
          (on_goal 2 => (unfold x; clear x)))
       | (refine Keeps.cut (x := x.2) (fun hx => ?_) ?_; (on_goal 1 => clear_value x)
          (on_goal 2 => (unfold x; clear x)))
       | clear_value x)
    | with_reducible apply Keeps.refl
    | with_reducible apply Keeps.then_ (keep_updLko ..)
    | with_reducible apply Keeps.then_ (keep_settle ..)
    | decide

theorem frame_soundingSelftestStart (o : Fin 2) :
    Kept [.lkOutlet] (.soundingSelftestStart o) := by
  intro s s' e
  change execSoundingSelftestStart o s = .next s' at e
  unfold execSoundingSelftestStart at e
  injection e with e
  subst e
  repeat' first
    | with_reducible assumption
    | (extract_lets -merge +onlyGivenNames x
       first
       | (refine Keeps.cut (x := x) (fun hx => ?_) ?_; (on_goal 1 => clear_value x)
          (on_goal 2 => (unfold x; clear x)))
       | (refine Keeps.cut (x := x.2) (fun hx => ?_) ?_; (on_goal 1 => clear_value x)
          (on_goal 2 => (unfold x; clear x)))
       | clear_value x)
    | with_reducible apply Keeps.refl
    | with_reducible apply Keeps.ite
    | with_reducible apply Keeps.then_ (keep_startSelfTest ..)
    | decide
    | split

theorem frame_soundingSelftestEnd (o : Fin 2) :
    Kept [.sxChannel, .sxCell, .sxStage, .sxAux, .sxLaw, .sxRest, .outlet, .rdr, .lkOut, .lkOutlet, .lkLatch,
        .lkRest, .wrk, .log, .flt] (.soundingSelftestEnd o) := by
  intro s s' e
  change execSoundingSelftestEnd o s = .next s' at e
  unfold execSoundingSelftestEnd at e
  injection e with e
  subst e
  repeat' first
    | with_reducible assumption
    | (extract_lets -merge +onlyGivenNames x
       first
       | (refine Keeps.cut (x := x) (fun hx => ?_) ?_; (on_goal 1 => clear_value x)
          (on_goal 2 => (unfold x; clear x)))
       | (refine Keeps.cut (x := x.2) (fun hx => ?_) ?_; (on_goal 1 => clear_value x)
          (on_goal 2 => (unfold x; clear x)))
       | clear_value x)
    | with_reducible apply Keeps.refl
    | with_reducible apply Keeps.ite
    | with_reducible apply Keeps.then_ (keep_logDetect ..)
    | with_reducible apply Keeps.then_ (keep_logClear ..)
    | with_reducible apply Keeps.then_ (keep_settle ..)
    | with_reducible apply Keeps.then_ (keep_updSnd ..)
    | decide
    | (beta_reduce; split)

theorem frame_soundingSelftestRetry (o : Fin 2) :
    Kept [.lkOutlet] (.soundingSelftestRetry o) := by
  intro s s' e
  change execSoundingSelftestRetry o s = .next s' at e
  unfold execSoundingSelftestRetry at e
  injection e with e
  subst e
  repeat' first
    | with_reducible assumption
    | (extract_lets -merge +onlyGivenNames x
       first
       | (refine Keeps.cut (x := x) (fun hx => ?_) ?_; (on_goal 1 => clear_value x)
          (on_goal 2 => (unfold x; clear x)))
       | (refine Keeps.cut (x := x.2) (fun hx => ?_) ?_; (on_goal 1 => clear_value x)
          (on_goal 2 => (unfold x; clear x)))
       | clear_value x)
    | with_reducible apply Keeps.refl
    | with_reducible apply Keeps.ite
    | with_reducible apply Keeps.then_ (keep_startSelfTest ..)
    | decide
    | split

end Sys2Proof.Machine
end

