-- ==== Sys2Proof/Laws/FrameManager.lean ====
section
/-!
SUPPORT. What each operation and command of Machine/Manager.lean leaves unchanged.
-/
namespace Sys2Proof.Machine

set_option linter.unreachableTactic false
set_option linter.unusedTactic false
set_option linter.tactic.unusedName false

theorem keep_sendStatus (s : State) :
    Keeps [.txl, .wrk, .locker] s (sendStatus s) := by
  unfold sendStatus
  repeat' first
    | with_reducible assumption
    | (extract_lets -merge +onlyGivenNames x
       first
       | (refine Keeps.cut (x := x) (fun hx => ?_) ?_; (on_goal 1 => clear_value x)
          (on_goal 2 => (unfold x; clear x)))
       | (refine Keeps.cut (x := x.2) (fun hx => ?_) ?_; (on_goal 1 => clear_value x)
          (on_goal 2 => (unfold x; clear x)))
       | clear_value x)
    | with_reducible apply Keeps.refl
    | with_reducible apply Keeps.ite
    | with_reducible apply Keeps.then_ (keep_sendCtrl ..)
    | split
    | with_reducible apply Keeps.upd_wrk
    | decide

theorem keep_reportCapacity (s : State) :
    Keeps [.txl, .wrk, .locker] s (reportCapacity s) := by
  unfold reportCapacity
  repeat' first
    | with_reducible assumption
    | (extract_lets -merge +onlyGivenNames x
       first
       | (refine Keeps.cut (x := x) (fun hx => ?_) ?_; (on_goal 1 => clear_value x)
          (on_goal 2 => (unfold x; clear x)))
       | (refine Keeps.cut (x := x.2) (fun hx => ?_) ?_; (on_goal 1 => clear_value x)
          (on_goal 2 => (unfold x; clear x)))
       | clear_value x)
    | with_reducible apply Keeps.refl
    | with_reducible apply Keeps.ite
    | with_reducible apply Keeps.then_ (keep_sendStatus ..)
    | decide
    | split

theorem keep_workerAlloc (s : State) (m : AllocMsg) :
    Keeps [.sxCell, .sxStage, .sxAux, .sxRest, .outlet, .wrk] s (workerAlloc s m) := by
  unfold workerAlloc
  repeat' first
    | with_reducible assumption
    | (extract_lets -merge +onlyGivenNames x
       first
       | (refine Keeps.cut (x := x) (fun hx => ?_) ?_; (on_goal 1 => clear_value x)
          (on_goal 2 => (unfold x; clear x)))
       | (refine Keeps.cut (x := x.2) (fun hx => ?_) ?_; (on_goal 1 => clear_value x)
          (on_goal 2 => (unfold x; clear x)))
       | clear_value x)
    | with_reducible apply Keeps.refl
    | with_reducible apply Keeps.ite
    | with_reducible apply Keeps.then_ (keep_updAux ..)
    | with_reducible apply Keeps.then_ (keep_setAlloc ..)
    | (with_reducible apply Keeps.foldl; on_goal 2 => intros)
    | (beta_reduce; split)
    | with_reducible apply Keeps.upd_wrk
    | decide

theorem keep_shadowCompare (s : State) (m : AllocMsg) (mine : Vector Nat 32) :
    Keeps [.mgr, .log] s (shadowCompare s m mine) := by
  unfold shadowCompare
  repeat' first
    | with_reducible assumption
    | (extract_lets -merge +onlyGivenNames x
       first
       | (refine Keeps.cut (x := x) (fun hx => ?_) ?_; (on_goal 1 => clear_value x)
          (on_goal 2 => (unfold x; clear x)))
       | (refine Keeps.cut (x := x.2) (fun hx => ?_) ?_; (on_goal 1 => clear_value x)
          (on_goal 2 => (unfold x; clear x)))
       | clear_value x)
    | with_reducible apply Keeps.refl
    | with_reducible apply Keeps.ite
    | with_reducible apply Keeps.then_ (keep_logRec ..)
    | (beta_reduce; split)
    | with_reducible apply Keeps.upd_mgr
    | decide

theorem keep_standbyAlloc (s : State) (m : AllocMsg) :
    Keeps [.mgr, .log] s (standbyAlloc s m) := by
  unfold standbyAlloc
  repeat' first
    | with_reducible assumption
    | (extract_lets -merge +onlyGivenNames x
       first
       | (refine Keeps.cut (x := x) (fun hx => ?_) ?_; (on_goal 1 => clear_value x)
          (on_goal 2 => (unfold x; clear x)))
       | (refine Keeps.cut (x := x.2) (fun hx => ?_) ?_; (on_goal 1 => clear_value x)
          (on_goal 2 => (unfold x; clear x)))
       | clear_value x)
    | with_reducible apply Keeps.refl
    | with_reducible apply Keeps.ite
    | with_reducible apply Keeps.then_ (keep_setAllocs ..)
    | with_reducible apply Keeps.then_ (keep_shadowCompare ..)
    | (beta_reduce; split)
    | with_reducible apply Keeps.upd_mgr
    | decide

theorem keep_hearAlloc (s : State) (m : AllocMsg) :
    Keeps [.sxCell, .sxStage, .sxAux, .sxRest, .outlet, .ll, .mgr, .wrk, .log] s (hearAlloc s m) := by
  unfold hearAlloc
  repeat' first
    | with_reducible assumption
    | (extract_lets -merge +onlyGivenNames x
       first
       | (refine Keeps.cut (x := x) (fun hx => ?_) ?_; (on_goal 1 => clear_value x)
          (on_goal 2 => (unfold x; clear x)))
       | (refine Keeps.cut (x := x.2) (fun hx => ?_) ?_; (on_goal 1 => clear_value x)
          (on_goal 2 => (unfold x; clear x)))
       | clear_value x)
    | with_reducible apply Keeps.refl
    | with_reducible apply Keeps.ite
    | with_reducible apply Keeps.then_ (keep_yieldTo ..)
    | with_reducible apply Keeps.then_ (keep_workerAlloc ..)
    | with_reducible apply Keeps.then_ (keep_standbyAlloc ..)
    | split
    | with_reducible apply Keeps.upd_mgr
    | decide

theorem keep_onQuorum (s : State) :
    Keeps [.ll, .mgr, .log] s (onQuorum s) := by
  unfold onQuorum
  repeat' first
    | with_reducible assumption
    | (extract_lets -merge +onlyGivenNames x
       first
       | (refine Keeps.cut (x := x) (fun hx => ?_) ?_; (on_goal 1 => clear_value x)
          (on_goal 2 => (unfold x; clear x)))
       | (refine Keeps.cut (x := x.2) (fun hx => ?_) ?_; (on_goal 1 => clear_value x)
          (on_goal 2 => (unfold x; clear x)))
       | clear_value x)
    | with_reducible apply Keeps.refl
    | with_reducible apply Keeps.ite
    | with_reducible apply Keeps.then_ (keep_takeToken ..)
    | split
    | with_reducible apply Keeps.upd_mgr
    | decide

theorem keep_takeStatus (s : State) (m : StatusMsg) :
    Keeps [.ll, .mgr, .log] s (takeStatus s m) := by
  unfold takeStatus
  repeat' first
    | with_reducible assumption
    | (extract_lets -merge +onlyGivenNames x
       first
       | (refine Keeps.cut (x := x) (fun hx => ?_) ?_; (on_goal 1 => clear_value x)
          (on_goal 2 => (unfold x; clear x)))
       | (refine Keeps.cut (x := x.2) (fun hx => ?_) ?_; (on_goal 1 => clear_value x)
          (on_goal 2 => (unfold x; clear x)))
       | clear_value x)
    | with_reducible apply Keeps.refl
    | with_reducible apply Keeps.then_ (keep_updWorker ..)
    | with_reducible apply Keeps.then_ (keep_onQuorum ..)
    | (beta_reduce; split)
    | with_reducible apply Keeps.upd_mgr
    | decide

theorem keep_sendParam (s : State) :
    Keeps [.txl, .locker] s (sendParam s) := by
  unfold sendParam
  repeat' first
    | with_reducible assumption
    | (extract_lets -merge +onlyGivenNames x
       first
       | (refine Keeps.cut (x := x) (fun hx => ?_) ?_; (on_goal 1 => clear_value x)
          (on_goal 2 => (unfold x; clear x)))
       | (refine Keeps.cut (x := x.2) (fun hx => ?_) ?_; (on_goal 1 => clear_value x)
          (on_goal 2 => (unfold x; clear x)))
       | clear_value x)
    | with_reducible apply Keeps.refl
    | with_reducible apply Keeps.then_ (keep_sendCtrl ..)
    | decide

theorem keep_holdParam (s : State) (m : ParamMsg) :
    Keeps [.mgr] s (holdParam s m) := by
  unfold holdParam
  repeat' first
    | with_reducible assumption
    | (extract_lets -merge +onlyGivenNames x
       first
       | (refine Keeps.cut (x := x) (fun hx => ?_) ?_; (on_goal 1 => clear_value x)
          (on_goal 2 => (unfold x; clear x)))
       | (refine Keeps.cut (x := x.2) (fun hx => ?_) ?_; (on_goal 1 => clear_value x)
          (on_goal 2 => (unfold x; clear x)))
       | clear_value x)
    | with_reducible apply Keeps.refl
    | (beta_reduce; split)
    | with_reducible apply Keeps.upd_mgr
    | decide

theorem keep_becomeStandby (s : State) :
    Keeps [.mgr] s (becomeStandby s) := by
  unfold becomeStandby
  repeat' first
    | with_reducible assumption
    | (extract_lets -merge +onlyGivenNames x
       first
       | (refine Keeps.cut (x := x) (fun hx => ?_) ?_; (on_goal 1 => clear_value x)
          (on_goal 2 => (unfold x; clear x)))
       | (refine Keeps.cut (x := x.2) (fun hx => ?_) ?_; (on_goal 1 => clear_value x)
          (on_goal 2 => (unfold x; clear x)))
       | clear_value x)
    | with_reducible apply Keeps.refl
    | with_reducible apply Keeps.upd_mgr
    | decide

theorem keep_healthTick (s : State) :
    Keeps [.mgr] s (healthTick s) := by
  unfold healthTick
  repeat' first
    | with_reducible assumption
    | (extract_lets -merge +onlyGivenNames x
       first
       | (refine Keeps.cut (x := x) (fun hx => ?_) ?_; (on_goal 1 => clear_value x)
          (on_goal 2 => (unfold x; clear x)))
       | (refine Keeps.cut (x := x.2) (fun hx => ?_) ?_; (on_goal 1 => clear_value x)
          (on_goal 2 => (unfold x; clear x)))
       | clear_value x)
    | with_reducible apply Keeps.refl
    | with_reducible apply Keeps.ite
    | split
    | with_reducible apply Keeps.upd_mgr
    | decide

theorem frame_workerStatusSend  :
    Kept [.txl, .wrk, .locker] .workerStatusSend := by
  intro s s' e
  change execWorkerStatusSend s = .next s' at e
  unfold execWorkerStatusSend at e
  injection e with e
  subst e
  repeat' first
    | with_reducible assumption
    | (extract_lets -merge +onlyGivenNames x
       first
       | (refine Keeps.cut (x := x) (fun hx => ?_) ?_; (on_goal 1 => clear_value x)
          (on_goal 2 => (unfold x; clear x)))
       | (refine Keeps.cut (x := x.2) (fun hx => ?_) ?_; (on_goal 1 => clear_value x)
          (on_goal 2 => (unfold x; clear x)))
       | clear_value x)
    | with_reducible apply Keeps.refl
    | with_reducible apply Keeps.then_ (keep_sendStatus ..)
    | decide

theorem frame_allocMessageRx  :
    Kept [.sxCell, .sxStage, .sxAux, .sxRest, .outlet, .txl, .ll, .mgr, .wrk, .log] .allocMessageRx := by
  intro s s' e
  change execAllocMessageRx s = .next s' at e
  unfold execAllocMessageRx at e
  injection e with e
  subst e
  repeat' first
    | with_reducible assumption
    | (extract_lets -merge +onlyGivenNames x
       first
       | (refine Keeps.cut (x := x) (fun hx => ?_) ?_; (on_goal 1 => clear_value x)
          (on_goal 2 => (unfold x; clear x)))
       | (refine Keeps.cut (x := x.2) (fun hx => ?_) ?_; (on_goal 1 => clear_value x)
          (on_goal 2 => (unfold x; clear x)))
       | clear_value x)
    | with_reducible apply Keeps.refl
    | with_reducible apply Keeps.ite
    | with_reducible apply Keeps.then_ (keep_takeHeard (by assumption))
    | with_reducible apply Keeps.then_ (keep_hearAlloc ..)
    | decide
    | (beta_reduce; split)

theorem frame_deadReckoningTick  :
    Kept [.sxCell, .sxStage, .sxRest, .outlet, .wrk] .deadReckoningTick := by
  intro s s' e
  change execDeadReckoningTick s = .next s' at e
  unfold execDeadReckoningTick at e
  injection e with e
  subst e
  repeat' first
    | with_reducible assumption
    | (extract_lets -merge +onlyGivenNames x
       first
       | (refine Keeps.cut (x := x) (fun hx => ?_) ?_; (on_goal 1 => clear_value x)
          (on_goal 2 => (unfold x; clear x)))
       | (refine Keeps.cut (x := x.2) (fun hx => ?_) ?_; (on_goal 1 => clear_value x)
          (on_goal 2 => (unfold x; clear x)))
       | clear_value x)
    | with_reducible apply Keeps.refl
    | with_reducible apply Keeps.ite
    | with_reducible apply Keeps.then_ (keep_setAlloc ..)
    | decide
    | split

theorem frame_workerStatusRx  :
    Kept [.txl, .ll, .mgr, .log] .workerStatusRx := by
  intro s s' e
  change execWorkerStatusRx s = .next s' at e
  unfold execWorkerStatusRx at e
  injection e with e
  subst e
  repeat' first
    | with_reducible assumption
    | (extract_lets -merge +onlyGivenNames x
       first
       | (refine Keeps.cut (x := x) (fun hx => ?_) ?_; (on_goal 1 => clear_value x)
          (on_goal 2 => (unfold x; clear x)))
       | (refine Keeps.cut (x := x.2) (fun hx => ?_) ?_; (on_goal 1 => clear_value x)
          (on_goal 2 => (unfold x; clear x)))
       | clear_value x)
    | with_reducible apply Keeps.refl
    | with_reducible apply Keeps.ite
    | with_reducible apply Keeps.then_ (keep_takeHeard (by assumption))
    | with_reducible apply Keeps.then_ (keep_takeStatus ..)
    | decide
    | (beta_reduce; split)

theorem frame_allocCycle  :
    Kept [.txl, .mgr, .locker] .allocCycle := by
  intro s s' e
  change execAllocCycle s = .next s' at e
  unfold execAllocCycle at e
  injection e with e
  subst e
  repeat' first
    | with_reducible assumption
    | (extract_lets -merge +onlyGivenNames x
       first
       | (refine Keeps.cut (x := x) (fun hx => ?_) ?_; (on_goal 1 => clear_value x)
          (on_goal 2 => (unfold x; clear x)))
       | (refine Keeps.cut (x := x.2) (fun hx => ?_) ?_; (on_goal 1 => clear_value x)
          (on_goal 2 => (unfold x; clear x)))
       | clear_value x)
    | with_reducible apply Keeps.refl
    | with_reducible apply Keeps.ite
    | with_reducible apply Keeps.then_ (keep_publish ..)
    | decide
    | split

theorem frame_shadowDiffClear  :
    Kept [.mgr, .log, .flt] .shadowDiffClear := by
  intro s s' e
  change execShadowDiffClear s = .next s' at e
  unfold execShadowDiffClear at e
  injection e with e
  subst e
  repeat' first
    | with_reducible assumption
    | (extract_lets -merge +onlyGivenNames x
       first
       | (refine Keeps.cut (x := x) (fun hx => ?_) ?_; (on_goal 1 => clear_value x)
          (on_goal 2 => (unfold x; clear x)))
       | (refine Keeps.cut (x := x.2) (fun hx => ?_) ?_; (on_goal 1 => clear_value x)
          (on_goal 2 => (unfold x; clear x)))
       | clear_value x)
    | with_reducible apply Keeps.refl
    | with_reducible apply Keeps.ite
    | with_reducible apply Keeps.then_ (keep_logClear ..)
    | split
    | with_reducible apply Keeps.upd_mgr
    | decide

theorem frame_paramMessage (sent : Bool) :
    Kept [.txl, .mgr, .locker] (.paramMessage sent) := by
  intro s s' e
  change execParamMessage sent s = .next s' at e
  unfold execParamMessage at e
  injection e with e
  subst e
  repeat' first
    | with_reducible assumption
    | (extract_lets -merge +onlyGivenNames x
       first
       | (refine Keeps.cut (x := x) (fun hx => ?_) ?_; (on_goal 1 => clear_value x)
          (on_goal 2 => (unfold x; clear x)))
       | (refine Keeps.cut (x := x.2) (fun hx => ?_) ?_; (on_goal 1 => clear_value x)
          (on_goal 2 => (unfold x; clear x)))
       | clear_value x)
    | with_reducible apply Keeps.refl
    | with_reducible apply Keeps.ite
    | with_reducible apply Keeps.then_ (keep_takeHeard (by assumption))
    | with_reducible apply Keeps.then_ (keep_sendParam ..)
    | with_reducible apply Keeps.then_ (keep_holdParam ..)
    | decide
    | (beta_reduce; split)

theorem frame_interleaveRecompute  :
    Kept [.mgr] .interleaveRecompute := by
  intro s s' e
  change execInterleaveRecompute s = .next s' at e
  unfold execInterleaveRecompute at e
  injection e with e
  subst e
  repeat' first
    | with_reducible assumption
    | (extract_lets -merge +onlyGivenNames x
       first
       | (refine Keeps.cut (x := x) (fun hx => ?_) ?_; (on_goal 1 => clear_value x)
          (on_goal 2 => (unfold x; clear x)))
       | (refine Keeps.cut (x := x.2) (fun hx => ?_) ?_; (on_goal 1 => clear_value x)
          (on_goal 2 => (unfold x; clear x)))
       | clear_value x)
    | with_reducible apply Keeps.refl
    | with_reducible apply Keeps.ite
    | with_reducible apply Keeps.then_ (keep_updWorker ..)
    | (with_reducible apply Keeps.foldl; on_goal 2 => intros)
    | (beta_reduce; split)
    | with_reducible apply Keeps.upd_mgr
    | decide

theorem frame_managerBeaconRx  :
    Kept [.txl, .ll, .mgr, .log, .flt] .managerBeaconRx := by
  intro s s' e
  change execManagerBeaconRx s = .next s' at e
  unfold execManagerBeaconRx at e
  injection e with e
  subst e
  repeat' first
    | with_reducible assumption
    | (extract_lets -merge +onlyGivenNames x
       first
       | (refine Keeps.cut (x := x) (fun hx => ?_) ?_; (on_goal 1 => clear_value x)
          (on_goal 2 => (unfold x; clear x)))
       | (refine Keeps.cut (x := x.2) (fun hx => ?_) ?_; (on_goal 1 => clear_value x)
          (on_goal 2 => (unfold x; clear x)))
       | clear_value x)
    | with_reducible apply Keeps.refl
    | with_reducible apply Keeps.ite
    | with_reducible apply Keeps.then_ (keep_takeHeard (by assumption))
    | with_reducible apply Keeps.then_ (keep_hearManager ..)
    | decide
    | (beta_reduce; split)

theorem frame_peerLost  :
    Kept [.mgr, .log, .flt] .peerLost := by
  intro s s' e
  change execPeerLost s = .next s' at e
  unfold execPeerLost at e
  injection e with e
  subst e
  repeat' first
    | with_reducible assumption
    | (extract_lets -merge +onlyGivenNames x
       first
       | (refine Keeps.cut (x := x) (fun hx => ?_) ?_; (on_goal 1 => clear_value x)
          (on_goal 2 => (unfold x; clear x)))
       | (refine Keeps.cut (x := x.2) (fun hx => ?_) ?_; (on_goal 1 => clear_value x)
          (on_goal 2 => (unfold x; clear x)))
       | clear_value x)
    | with_reducible apply Keeps.refl
    | with_reducible apply Keeps.ite
    | with_reducible apply Keeps.then_ (keep_logDetect ..)
    | split
    | with_reducible apply Keeps.upd_mgr
    | decide

theorem frame_quorumLost  :
    Kept [.txl, .ll, .mgr, .locker] .quorumLost := by
  intro s s' e
  change execQuorumLost s = .next s' at e
  unfold execQuorumLost at e
  injection e with e
  subst e
  repeat' first
    | with_reducible assumption
    | (extract_lets -merge +onlyGivenNames x
       first
       | (refine Keeps.cut (x := x) (fun hx => ?_) ?_; (on_goal 1 => clear_value x)
          (on_goal 2 => (unfold x; clear x)))
       | (refine Keeps.cut (x := x.2) (fun hx => ?_) ?_; (on_goal 1 => clear_value x)
          (on_goal 2 => (unfold x; clear x)))
       | clear_value x)
    | with_reducible apply Keeps.refl
    | with_reducible apply Keeps.ite
    | with_reducible apply Keeps.then_ (keep_sendBeacon ..)
    | with_reducible apply Keeps.then_ (keep_stopActing ..)
    | split
    | with_reducible apply Keeps.upd_mgr
    | decide

theorem frame_listenEnd  :
    Kept [.ll, .mgr, .log] .listenEnd := by
  intro s s' e
  change execListenEnd s = .next s' at e
  unfold execListenEnd at e
  injection e with e
  subst e
  repeat' first
    | with_reducible assumption
    | (extract_lets -merge +onlyGivenNames x
       first
       | (refine Keeps.cut (x := x) (fun hx => ?_) ?_; (on_goal 1 => clear_value x)
          (on_goal 2 => (unfold x; clear x)))
       | (refine Keeps.cut (x := x.2) (fun hx => ?_) ?_; (on_goal 1 => clear_value x)
          (on_goal 2 => (unfold x; clear x)))
       | clear_value x)
    | with_reducible apply Keeps.refl
    | with_reducible apply Keeps.ite
    | with_reducible apply Keeps.then_ (keep_onQuorum ..)
    | with_reducible apply Keeps.then_ (keep_becomeStandby ..)
    | split
    | with_reducible apply Keeps.upd_mgr
    | decide

theorem frame_alternateListenEnd  :
    Kept [.ll, .mgr, .log] .alternateListenEnd := by
  intro s s' e
  change execAlternateListenEnd s = .next s' at e
  unfold execAlternateListenEnd at e
  injection e with e
  subst e
  repeat' first
    | with_reducible assumption
    | (extract_lets -merge +onlyGivenNames x
       first
       | (refine Keeps.cut (x := x) (fun hx => ?_) ?_; (on_goal 1 => clear_value x)
          (on_goal 2 => (unfold x; clear x)))
       | (refine Keeps.cut (x := x.2) (fun hx => ?_) ?_; (on_goal 1 => clear_value x)
          (on_goal 2 => (unfold x; clear x)))
       | clear_value x)
    | with_reducible apply Keeps.refl
    | with_reducible apply Keeps.ite
    | with_reducible apply Keeps.then_ (keep_onQuorum ..)
    | with_reducible apply Keeps.then_ (keep_becomeStandby ..)
    | split
    | with_reducible apply Keeps.upd_mgr
    | decide

theorem frame_standbyTakeover  :
    Kept [.txl, .ll, .mgr, .locker, .log] .standbyTakeover := by
  intro s s' e
  change execStandbyTakeover s = .next s' at e
  unfold execStandbyTakeover at e
  injection e with e
  subst e
  repeat' first
    | with_reducible assumption
    | (extract_lets -merge +onlyGivenNames x
       first
       | (refine Keeps.cut (x := x) (fun hx => ?_) ?_; (on_goal 1 => clear_value x)
          (on_goal 2 => (unfold x; clear x)))
       | (refine Keeps.cut (x := x.2) (fun hx => ?_) ?_; (on_goal 1 => clear_value x)
          (on_goal 2 => (unfold x; clear x)))
       | clear_value x)
    | with_reducible apply Keeps.refl
    | with_reducible apply Keeps.ite
    | with_reducible apply Keeps.then_ (keep_logMasked ..)
    | with_reducible apply Keeps.then_ (keep_sendBeacon ..)
    | with_reducible apply Keeps.then_ (keep_publish ..)
    | with_reducible apply Keeps.then_ (keep_takeToken ..)
    | split
    | with_reducible apply Keeps.upd_mgr
    | decide

theorem frame_tokenRelease  :
    Kept [.txl, .ll, .mgr, .locker] .tokenRelease := by
  intro s s' e
  change execTokenRelease s = .next s' at e
  unfold execTokenRelease at e
  injection e with e
  subst e
  repeat' first
    | with_reducible assumption
    | (extract_lets -merge +onlyGivenNames x
       first
       | (refine Keeps.cut (x := x) (fun hx => ?_) ?_; (on_goal 1 => clear_value x)
          (on_goal 2 => (unfold x; clear x)))
       | (refine Keeps.cut (x := x.2) (fun hx => ?_) ?_; (on_goal 1 => clear_value x)
          (on_goal 2 => (unfold x; clear x)))
       | clear_value x)
    | with_reducible apply Keeps.refl
    | with_reducible apply Keeps.ite
    | with_reducible apply Keeps.then_ (keep_releaseToken ..)
    | decide
    | split

theorem frame_releaseRx  :
    Kept [.txl, .ll, .mgr, .log, .flt] .releaseRx := by
  intro s s' e
  change execReleaseRx s = .next s' at e
  unfold execReleaseRx at e
  injection e with e
  subst e
  repeat' first
    | with_reducible assumption
    | (extract_lets -merge +onlyGivenNames x
       first
       | (refine Keeps.cut (x := x) (fun hx => ?_) ?_; (on_goal 1 => clear_value x)
          (on_goal 2 => (unfold x; clear x)))
       | (refine Keeps.cut (x := x.2) (fun hx => ?_) ?_; (on_goal 1 => clear_value x)
          (on_goal 2 => (unfold x; clear x)))
       | clear_value x)
    | with_reducible apply Keeps.refl
    | with_reducible apply Keeps.ite
    | with_reducible apply Keeps.then_ (keep_takeHeard (by assumption))
    | with_reducible apply Keeps.then_ (keep_hearManager ..)
    | decide
    | (beta_reduce; split)

theorem frame_healthReport  :
    Kept [.txl, .locker] .healthReport := by
  intro s s' e
  change execHealthReport s = .next s' at e
  unfold execHealthReport at e
  injection e with e
  subst e
  repeat' first
    | with_reducible assumption
    | (extract_lets -merge +onlyGivenNames x
       first
       | (refine Keeps.cut (x := x) (fun hx => ?_) ?_; (on_goal 1 => clear_value x)
          (on_goal 2 => (unfold x; clear x)))
       | (refine Keeps.cut (x := x.2) (fun hx => ?_) ?_; (on_goal 1 => clear_value x)
          (on_goal 2 => (unfold x; clear x)))
       | clear_value x)
    | with_reducible apply Keeps.refl
    | with_reducible apply Keeps.ite
    | with_reducible apply Keeps.then_ (keep_sendBulk ..)
    | decide
    | split

theorem frame_tokenRequestSet  :
    Kept [.mgr] .tokenRequestSet := by
  intro s s' e
  change execTokenRequestSet s = .next s' at e
  unfold execTokenRequestSet at e
  injection e with e
  subst e
  repeat' first
    | with_reducible assumption
    | (extract_lets -merge +onlyGivenNames x
       first
       | (refine Keeps.cut (x := x) (fun hx => ?_) ?_; (on_goal 1 => clear_value x)
          (on_goal 2 => (unfold x; clear x)))
       | (refine Keeps.cut (x := x.2) (fun hx => ?_) ?_; (on_goal 1 => clear_value x)
          (on_goal 2 => (unfold x; clear x)))
       | clear_value x)
    | with_reducible apply Keeps.refl
    | with_reducible apply Keeps.ite
    | split
    | with_reducible apply Keeps.upd_mgr
    | decide

theorem frame_revertRelease  :
    Kept [.txl, .mgr, .locker] .revertRelease := by
  intro s s' e
  change execRevertRelease s = .next s' at e
  unfold execRevertRelease at e
  injection e with e
  subst e
  repeat' first
    | with_reducible assumption
    | (extract_lets -merge +onlyGivenNames x
       first
       | (refine Keeps.cut (x := x) (fun hx => ?_) ?_; (on_goal 1 => clear_value x)
          (on_goal 2 => (unfold x; clear x)))
       | (refine Keeps.cut (x := x.2) (fun hx => ?_) ?_; (on_goal 1 => clear_value x)
          (on_goal 2 => (unfold x; clear x)))
       | clear_value x)
    | with_reducible apply Keeps.refl
    | with_reducible apply Keeps.ite
    | with_reducible apply Keeps.then_ (keep_sendBeacon ..)
    | with_reducible apply Keeps.then_ (keep_publish ..)
    | split
    | with_reducible apply Keeps.upd_mgr
    | decide

theorem frame_revertTimeout  :
    Kept [.ll, .mgr] .revertTimeout := by
  intro s s' e
  change execRevertTimeout s = .next s' at e
  unfold execRevertTimeout at e
  injection e with e
  subst e
  repeat' first
    | with_reducible assumption
    | (extract_lets -merge +onlyGivenNames x
       first
       | (refine Keeps.cut (x := x) (fun hx => ?_) ?_; (on_goal 1 => clear_value x)
          (on_goal 2 => (unfold x; clear x)))
       | (refine Keeps.cut (x := x.2) (fun hx => ?_) ?_; (on_goal 1 => clear_value x)
          (on_goal 2 => (unfold x; clear x)))
       | clear_value x)
    | with_reducible apply Keeps.refl
    | with_reducible apply Keeps.ite
    | with_reducible apply Keeps.then_ (keep_stopActing ..)
    | decide
    | split

end Sys2Proof.Machine
end

