-- ==== Sys2Proof/Laws/FrameEffects.lean ====
section
/-!
SUPPORT. What each operation of Machine/Effects.lean leaves unchanged.
-/
namespace Sys2Proof.Machine

set_option linter.unreachableTactic false
set_option linter.unusedTactic false
set_option linter.tactic.unusedName false

theorem keep_fixStage (gen : Nat) (clear : Bool) (s : State) (g : Fin 8) :
    Keeps [.sxCell, .sxAux] s (fixStage gen clear s g) := by
  unfold fixStage
  repeat' first
    | with_reducible assumption
    | (extract_lets -merge +onlyGivenNames x
       first
       | (refine Keeps.cut (x := x) (fun hx => ?_) ?_; (on_goal 1 => clear_value x)
          (on_goal 2 => (unfold x; clear x)))
       | (refine Keeps.cut (x := x.2) (fun hx => ?_) ?_; (on_goal 1 => clear_value x)
          (on_goal 2 => (unfold x; clear x)))
       | clear_value x)
    | with_reducible apply Keeps.refl
    | with_reducible apply Keeps.then_ (keep_updAux ..)
    | with_reducible apply Keeps.then_ (keep_updCell ..)
    | (with_reducible apply Keeps.foldl; on_goal 2 => intros)
    | decide

theorem keep_runTelFix (s : State) (opId scope : Nat) (clear : Bool) :
    Keeps [.sxCell, .sxAux, .sxFix, .hostOps] s (runTelFix s opId scope clear) := by
  unfold runTelFix
  repeat' first
    | with_reducible assumption
    | (extract_lets -merge +onlyGivenNames x
       first
       | (refine Keeps.cut (x := x) (fun hx => ?_) ?_; (on_goal 1 => clear_value x)
          (on_goal 2 => (unfold x; clear x)))
       | (refine Keeps.cut (x := x.2) (fun hx => ?_) ?_; (on_goal 1 => clear_value x)
          (on_goal 2 => (unfold x; clear x)))
       | (have t : Sextant := x; clear t; subst x)
       | clear_value x)
    | with_reducible apply Keeps.refl
    | with_reducible apply Keeps.ite
    | with_reducible apply Keeps.then_ (keep_setResult ..)
    | with_reducible apply Keeps.then_ (keep_fixStage ..)
    | (with_reducible apply Keeps.foldl; on_goal 2 => intros)
    | split
    | with_reducible apply Keeps.upd_sx
    | (with_reducible apply Or.inl; decide)
    | (with_reducible apply Or.inr; with_reducible rfl)
    | (with_reducible apply Or.inr; rfl)
    | decide

theorem keep_runAuthorise (s : State) (opId o decision : Nat) (hash : Bytes) :
    Keeps [.sxChannel, .sxCell, .sxStage, .sxAux, .sxRest, .outlet, .rdr, .merMail, .com, .lkOut, .lkOutlet,
        .lkRest, .wrk, .hostOps, .hostJournal, .log, .flt] s (runAuthorise s opId o decision hash) := by
  unfold runAuthorise
  repeat' first
    | with_reducible assumption
    | (extract_lets -merge +onlyGivenNames x
       first
       | (refine Keeps.cut (x := x) (fun hx => ?_) ?_; (on_goal 1 => clear_value x)
          (on_goal 2 => (unfold x; clear x)))
       | (refine Keeps.cut (x := x.2) (fun hx => ?_) ?_; (on_goal 1 => clear_value x)
          (on_goal 2 => (unfold x; clear x)))
       | (have t : List Part := x; clear t; subst x)
       | clear_value x)
    | with_reducible apply Keeps.refl
    | with_reducible apply Keeps.ite
    | with_reducible apply Keeps.then_ (keep_logInfo ..)
    | with_reducible apply Keeps.then_ (keep_updOutlet ..)
    | with_reducible apply Keeps.then_ (keep_stopTrigger ..)
    | with_reducible apply Keeps.then_ (keep_refuse ..)
    | with_reducible apply Keeps.then_ (keep_allow ..)
    | with_reducible apply Keeps.then_ (keep_resolveOp ..)
    | decide
    | (beta_reduce; split)

theorem keep_runCert (s : State) (opId sid o : Nat) (k : Chunk) :
    Keeps [.outlet, .hostOps, .hostJournal, .hostRest, .fw] s (runCert s opId sid o k) := by
  unfold runCert
  repeat' first
    | with_reducible assumption
    | (extract_lets -merge +onlyGivenNames x
       first
       | (refine Keeps.cut (x := x) (fun hx => ?_) ?_; (on_goal 1 => clear_value x)
          (on_goal 2 => (unfold x; clear x)))
       | (refine Keeps.cut (x := x.2) (fun hx => ?_) ?_; (on_goal 1 => clear_value x)
          (on_goal 2 => (unfold x; clear x)))
       | clear_value x)
    | with_reducible apply Keeps.refl
    | with_reducible apply Keeps.ite
    | with_reducible apply Keeps.then_ (keep_answer ..)
    | with_reducible apply Keeps.then_ (keep_resolveOp ..)
    | with_reducible apply Keeps.then_ (keep_takeChunk ..)
    | with_reducible apply Keeps.then_ (keep_takeChunk_eq (by assumption))
    | decide
    | split

theorem keep_runStop (s : State) (opId o : Nat) :
    Keeps [.sxChannel, .sxCell, .sxStage, .sxAux, .sxRest, .outlet, .rdr, .lkOut, .lkOutlet, .lkRest, .wrk,
        .hostOps, .hostJournal, .log, .flt] s (runStop s opId o) := by
  unfold runStop
  repeat' first
    | with_reducible assumption
    | (extract_lets -merge +onlyGivenNames x
       first
       | (refine Keeps.cut (x := x) (fun hx => ?_) ?_; (on_goal 1 => clear_value x)
          (on_goal 2 => (unfold x; clear x)))
       | (refine Keeps.cut (x := x.2) (fun hx => ?_) ?_; (on_goal 1 => clear_value x)
          (on_goal 2 => (unfold x; clear x)))
       | clear_value x)
    | with_reducible apply Keeps.refl
    | with_reducible apply Keeps.ite
    | with_reducible apply Keeps.then_ (keep_stopTrigger ..)
    | with_reducible apply Keeps.then_ (keep_resolveOp ..)
    | decide
    | split

theorem keep_runAuthTable (s : State) (opId sid : Nat) (k : Chunk) :
    Keeps [.com, .hostOps, .hostJournal, .hostRest, .fw] s (runAuthTable s opId sid k) := by
  unfold runAuthTable
  repeat' first
    | with_reducible assumption
    | (extract_lets -merge +onlyGivenNames x
       first
       | (refine Keeps.cut (x := x) (fun hx => ?_) ?_; (on_goal 1 => clear_value x)
          (on_goal 2 => (unfold x; clear x)))
       | (refine Keeps.cut (x := x.2) (fun hx => ?_) ?_; (on_goal 1 => clear_value x)
          (on_goal 2 => (unfold x; clear x)))
       | (have t : Commercial := x; clear t; subst x)
       | clear_value x)
    | with_reducible apply Keeps.refl
    | with_reducible apply Keeps.ite
    | with_reducible apply Keeps.then_ (keep_resolveOp ..)
    | with_reducible apply Keeps.then_ (keep_takeChunk ..)
    | with_reducible apply Keeps.then_ (keep_takeChunk_eq (by assumption))
    | split
    | with_reducible apply Keeps.upd_com
    | exact fun h => h
    | exact fun _ h => h
    | (intro _ hd; split <;> exact hd)
    | exact fun h => sparsePut_wf h _ _
    | exact fun _ h => sparsePut_wf h _ _
    | decide

theorem keep_runAccount (s : State) (opId n op : Nat) (value : Int) :
    Keeps [.com, .hostOps, .hostJournal, .log] s (runAccount s opId n op value) := by
  unfold runAccount
  repeat' first
    | with_reducible assumption
    | (extract_lets -merge +onlyGivenNames x
       first
       | (refine Keeps.cut (x := x) (fun hx => ?_) ?_; (on_goal 1 => clear_value x)
          (on_goal 2 => (unfold x; clear x)))
       | (refine Keeps.cut (x := x.2) (fun hx => ?_) ?_; (on_goal 1 => clear_value x)
          (on_goal 2 => (unfold x; clear x)))
       | clear_value x)
    | with_reducible apply Keeps.refl
    | with_reducible apply Keeps.then_ (keep_updAccount ..)
    | with_reducible apply Keeps.then_ (keep_creditBy ..)
    | with_reducible apply Keeps.then_ (keep_resolveOp ..)
    | with_reducible apply Keeps.then_ (keep_setEmerg ..)
    | decide
    | (beta_reduce; split)

theorem keep_runWeather (s : State) (opId minutes : Nat) :
    Keeps [.sxChannel, .sxCell, .sxStage, .sxAux, .sxRest, .outlet, .rdr, .com, .lkOut, .lkOutlet, .lkRest, .wrk,
        .hostOps, .hostJournal, .log, .flt] s (runWeather s opId minutes) := by
  unfold runWeather
  repeat' first
    | with_reducible assumption
    | (extract_lets -merge +onlyGivenNames x
       first
       | (refine Keeps.cut (x := x) (fun hx => ?_) ?_; (on_goal 1 => clear_value x)
          (on_goal 2 => (unfold x; clear x)))
       | (refine Keeps.cut (x := x.2) (fun hx => ?_) ?_; (on_goal 1 => clear_value x)
          (on_goal 2 => (unfold x; clear x)))
       | (have t : Commercial := x; clear t; subst x)
       | clear_value x)
    | with_reducible apply Keeps.refl
    | with_reducible apply Keeps.ite
    | with_reducible apply Keeps.then_ (keep_creditStop ..)
    | with_reducible apply Keeps.then_ (keep_resolveOp ..)
    | split
    | with_reducible apply Keeps.upd_com
    | exact fun h => h
    | exact fun _ h => h
    | (intro _ hd; split <;> exact hd)
    | exact fun h => sparsePut_wf h _ _
    | exact fun _ h => sparsePut_wf h _ _
    | decide

theorem keep_runSiteLimit (s : State) (opId pSite : Nat) (classes : List (Nat × Nat)) :
    Keeps [.txl, .mgr, .hostOps, .hostJournal, .locker] s (runSiteLimit s opId pSite classes) := by
  unfold runSiteLimit
  repeat' first
    | with_reducible assumption
    | (extract_lets -merge +onlyGivenNames x
       first
       | (refine Keeps.cut (x := x) (fun hx => ?_) ?_; (on_goal 1 => clear_value x)
          (on_goal 2 => (unfold x; clear x)))
       | (refine Keeps.cut (x := x.2) (fun hx => ?_) ?_; (on_goal 1 => clear_value x)
          (on_goal 2 => (unfold x; clear x)))
       | clear_value x)
    | with_reducible apply Keeps.refl
    | with_reducible apply Keeps.ite
    | with_reducible apply Keeps.then_ (keep_resolveOp ..)
    | with_reducible apply Keeps.then_ (keep_publish ..)
    | with_reducible apply Keeps.then_ (keep_sendParam ..)
    | (with_reducible apply Keeps.foldl; on_goal 2 => intros)
    | (beta_reduce; split)
    | with_reducible apply Keeps.upd_mgr
    | decide

theorem keep_runRect (s : State) (opId : Nat) (r : Rect) (pix : Bytes) :
    Keeps [.disp, .hostOps, .hostJournal] s (runRect s opId r pix) := by
  unfold runRect
  repeat' first
    | with_reducible assumption
    | (extract_lets -merge +onlyGivenNames x
       first
       | (refine Keeps.cut (x := x) (fun hx => ?_) ?_; (on_goal 1 => clear_value x)
          (on_goal 2 => (unfold x; clear x)))
       | (refine Keeps.cut (x := x.2) (fun hx => ?_) ?_; (on_goal 1 => clear_value x)
          (on_goal 2 => (unfold x; clear x)))
       | clear_value x)
    | with_reducible apply Keeps.refl
    | with_reducible apply Keeps.then_ (keep_resolveOp ..)
    | with_reducible apply Keeps.then_ (keep_queueRect ..)
    | with_reducible apply Keeps.then_ (keep_queueRect_eq (by assumption))
    | decide
    | split

theorem keep_runTariff (s : State) (opId sid : Nat) (k : Chunk) :
    Keeps [.merLeg, .merTar, .hostOps, .hostJournal, .hostRest, .fw] s (runTariff s opId sid k) := by
  unfold runTariff
  repeat' first
    | with_reducible assumption
    | (extract_lets -merge +onlyGivenNames x
       first
       | (refine Keeps.cut (x := x) (fun hx => ?_) ?_; (on_goal 1 => clear_value x)
          (on_goal 2 => (unfold x; clear x)))
       | (refine Keeps.cut (x := x.2) (fun hx => ?_) ?_; (on_goal 1 => clear_value x)
          (on_goal 2 => (unfold x; clear x)))
       | (have t : Meridian := x; clear t; subst x)
       | clear_value x)
    | with_reducible apply Keeps.refl
    | with_reducible apply Keeps.ite
    | with_reducible apply Keeps.then_ (keep_legalEvent ..)
    | with_reducible apply Keeps.then_ (keep_resolveOp ..)
    | with_reducible apply Keeps.then_ (keep_takeChunk ..)
    | with_reducible apply Keeps.then_ (keep_takeChunk_eq (by assumption))
    | split
    | with_reducible apply Keeps.upd_mer
    | (with_reducible apply Or.inl; decide)
    | (with_reducible apply Or.inr; with_reducible rfl)
    | (with_reducible apply Or.inr; rfl)
    | exact fun h => h
    | exact fun _ h => h
    | (intro _ hd; split <;> exact hd)
    | exact fun h => sparsePut_wf h _ _
    | exact fun _ h => sparsePut_wf h _ _
    | decide

theorem keep_runClockSet (s : State) (opId : Nat) (role : Fin 4) (time : Nat) :
    Keeps [.merLeg, .merChr, .merTar, .hostOps, .hostJournal] s (runClockSet s opId role time) := by
  unfold runClockSet
  repeat' first
    | with_reducible assumption
    | (extract_lets -merge +onlyGivenNames x
       first
       | (refine Keeps.cut (x := x) (fun hx => ?_) ?_; (on_goal 1 => clear_value x)
          (on_goal 2 => (unfold x; clear x)))
       | (refine Keeps.cut (x := x.2) (fun hx => ?_) ?_; (on_goal 1 => clear_value x)
          (on_goal 2 => (unfold x; clear x)))
       | (have t : Meridian := x; clear t; subst x)
       | clear_value x)
    | with_reducible apply Keeps.refl
    | with_reducible apply Keeps.ite
    | with_reducible apply Keeps.then_ (keep_stepClock ..)
    | with_reducible apply Keeps.then_ (keep_resolveOp ..)
    | split
    | with_reducible apply Keeps.upd_mer
    | (with_reducible apply Or.inl; decide)
    | (with_reducible apply Or.inr; with_reducible rfl)
    | (with_reducible apply Or.inr; rfl)
    | exact fun h => h
    | exact fun _ h => h
    | (intro _ hd; split <;> exact hd)
    | exact fun h => sparsePut_wf h _ _
    | exact fun _ h => sparsePut_wf h _ _
    | decide

theorem keep_runBillingClose (s : State) (opId : Nat) :
    Keeps [.merRest, .hostOps, .hostJournal] s (runBillingClose s opId) := by
  unfold runBillingClose
  repeat' first
    | with_reducible assumption
    | (extract_lets -merge +onlyGivenNames x
       first
       | (refine Keeps.cut (x := x) (fun hx => ?_) ?_; (on_goal 1 => clear_value x)
          (on_goal 2 => (unfold x; clear x)))
       | (refine Keeps.cut (x := x.2) (fun hx => ?_) ?_; (on_goal 1 => clear_value x)
          (on_goal 2 => (unfold x; clear x)))
       | (have t : Meridian := x; clear t; subst x)
       | clear_value x)
    | with_reducible apply Keeps.refl
    | with_reducible apply Keeps.ite
    | with_reducible apply Keeps.then_ (keep_resolveOp ..)
    | split
    | with_reducible apply Keeps.upd_mer
    | (with_reducible apply Or.inl; decide)
    | (with_reducible apply Or.inr; with_reducible rfl)
    | (with_reducible apply Or.inr; rfl)
    | exact fun h => h
    | exact fun _ h => h
    | (intro _ hd; split <;> exact hd)
    | exact fun h => sparsePut_wf h _ _
    | exact fun _ h => sparsePut_wf h _ _
    | decide

theorem keep_closeTick (s : State) :
    Keeps [.merLeg, .merChr, .merRest, .hostOps, .hostJournal] s (closeTick s) := by
  unfold closeTick
  repeat' first
    | with_reducible assumption
    | (extract_lets -merge +onlyGivenNames x
       first
       | (refine Keeps.cut (x := x) (fun hx => ?_) ?_; (on_goal 1 => clear_value x)
          (on_goal 2 => (unfold x; clear x)))
       | (refine Keeps.cut (x := x.2) (fun hx => ?_) ?_; (on_goal 1 => clear_value x)
          (on_goal 2 => (unfold x; clear x)))
       | (have t : Meridian := x; clear t; subst x)
       | clear_value x)
    | with_reducible apply Keeps.refl
    | with_reducible apply Keeps.ite
    | with_reducible apply Keeps.then_ (keep_closeFor ..)
    | with_reducible apply Keeps.then_ (keep_resolveOp ..)
    | (with_reducible apply Keeps.foldl; on_goal 2 => intros)
    | (beta_reduce; split)
    | with_reducible apply Keeps.upd_mer
    | (with_reducible apply Or.inl; decide)
    | (with_reducible apply Or.inr; with_reducible rfl)
    | (with_reducible apply Or.inr; rfl)
    | exact fun h => h
    | exact fun _ h => h
    | (intro _ hd; split <;> exact hd)
    | exact fun h => sparsePut_wf h _ _
    | exact fun _ h => sparsePut_wf h _ _
    | decide

theorem keep_runConfirm (s : State) (opId value : Nat) (revoke : Bool) :
    Keeps [.sxChannel, .sxCell, .sxStage, .sxAux, .sxLaw, .sxRest, .outlet, .rdr, .lkOut, .lkOutlet, .lkLatch,
        .lkConf, .lkRest, .wrk, .hostOps, .hostJournal, .log, .flt] s (runConfirm s opId value revoke) := by
  unfold runConfirm
  repeat' first
    | with_reducible assumption
    | (extract_lets -merge +onlyGivenNames x
       first
       | (refine Keeps.cut (x := x) (fun hx => ?_) ?_; (on_goal 1 => clear_value x)
          (on_goal 2 => (unfold x; clear x)))
       | (refine Keeps.cut (x := x.2) (fun hx => ?_) ?_; (on_goal 1 => clear_value x)
          (on_goal 2 => (unfold x; clear x)))
       | (have t : List Part := x; clear t; subst x)
       | (have t : Lookout := x; clear t; subst x)
       | clear_value x)
    | with_reducible apply Keeps.refl
    | with_reducible apply Keeps.ite
    | with_reducible apply Keeps.then_ (keep_logRec ..)
    | with_reducible apply Keeps.then_ (keep_settle ..)
    | with_reducible apply Keeps.then_ (keep_resolveOp ..)
    | split
    | with_reducible apply Keeps.upd_lk
    | (with_reducible apply Or.inl; decide)
    | (with_reducible apply Or.inr; with_reducible rfl)
    | (with_reducible apply Or.inr; rfl)
    | decide

theorem keep_clearStage (s : State) (g : Fin 8) :
    Keeps [.sxChannel, .sxCell, .sxStage, .sxAux, .sxRest, .outlet, .lkOut, .lkRest, .wrk, .log, .flt] s (clearStage
        s g).2 := by
  unfold clearStage
  repeat' first
    | with_reducible assumption
    | (extract_lets -merge +onlyGivenNames x
       first
       | (refine Keeps.cut (x := x) (fun hx => ?_) ?_; (on_goal 1 => clear_value x)
          (on_goal 2 => (unfold x; clear x)))
       | (refine Keeps.cut (x := x.2) (fun hx => ?_) ?_; (on_goal 1 => clear_value x)
          (on_goal 2 => (unfold x; clear x)))
       | clear_value x)
    | with_reducible apply Keeps.refl
    | with_reducible apply Keeps.ite
    | with_reducible apply Keeps.then_ (keep_clearFaults ..)
    | with_reducible apply Keeps.then_ (keep_updStage ..)
    | with_reducible apply Keeps.then_ (keep_stageOff ..)
    | with_reducible apply Keeps.then_ (keep_resplit ..)
    | with_reducible apply Keeps.then_ (keep_afeAllOff ..)
    | decide
    | (beta_reduce; split)

theorem keep_clearStage_eq {s : State} {g : Fin 8} {a t} (h : clearStage s g = (a, t)) :
    Keeps [.sxChannel, .sxCell, .sxStage, .sxAux, .sxRest, .outlet, .lkOut, .lkRest, .wrk, .log, .flt] s t := by
  have k := keep_clearStage s g
  rw [h] at k
  exact k

theorem keep_clearCell (s : State) (c : Fin 48) :
    Keeps [.sxCell, .sxStage, .sxRest, .outlet, .wrk, .log, .flt] s (clearCell s c).2 := by
  unfold clearCell
  repeat' first
    | with_reducible assumption
    | (extract_lets -merge +onlyGivenNames x
       first
       | (refine Keeps.cut (x := x) (fun hx => ?_) ?_; (on_goal 1 => clear_value x)
          (on_goal 2 => (unfold x; clear x)))
       | (refine Keeps.cut (x := x.2) (fun hx => ?_) ?_; (on_goal 1 => clear_value x)
          (on_goal 2 => (unfold x; clear x)))
       | clear_value x)
    | with_reducible apply Keeps.refl
    | with_reducible apply Keeps.ite
    | with_reducible apply Keeps.then_ (keep_logClear ..)
    | with_reducible apply Keeps.then_ (keep_updCell ..)
    | with_reducible apply Keeps.then_ (keep_resplit ..)
    | decide
    | (beta_reduce; split)

theorem keep_clearCell_eq {s : State} {c : Fin 48} {a t} (h : clearCell s c = (a, t)) :
    Keeps [.sxCell, .sxStage, .sxRest, .outlet, .wrk, .log, .flt] s t := by
  have k := keep_clearCell s c
  rw [h] at k
  exact k

theorem keep_endFault (s : State) (n : Fin 8) :
    Keeps [.lkOut, .log, .flt] s (endFault s n) := by
  unfold endFault
  repeat' first
    | with_reducible assumption
    | (extract_lets -merge +onlyGivenNames x
       first
       | (refine Keeps.cut (x := x) (fun hx => ?_) ?_; (on_goal 1 => clear_value x)
          (on_goal 2 => (unfold x; clear x)))
       | (refine Keeps.cut (x := x.2) (fun hx => ?_) ?_; (on_goal 1 => clear_value x)
          (on_goal 2 => (unfold x; clear x)))
       | clear_value x)
    | with_reducible apply Keeps.refl
    | with_reducible apply Keeps.then_ (keep_clearFaults ..)
    | with_reducible apply Keeps.then_ (keep_updSo ..)
    | decide

theorem keep_clearOutlet (s : State) (o : Fin 2) :
    Keeps [.sxChannel, .sxCell, .sxStage, .sxAux, .sxLaw, .sxRest, .outlet, .rdr, .lkOut, .lkOutlet, .lkLatch,
        .lkRest, .wrk, .log, .flt] s (clearOutlet s o).2 := by
  unfold clearOutlet
  repeat' first
    | with_reducible assumption
    | (extract_lets -merge +onlyGivenNames x
       first
       | (refine Keeps.cut (x := x) (fun hx => ?_) ?_; (on_goal 1 => clear_value x)
          (on_goal 2 => (unfold x; clear x)))
       | (refine Keeps.cut (x := x.2) (fun hx => ?_) ?_; (on_goal 1 => clear_value x)
          (on_goal 2 => (unfold x; clear x)))
       | (have t : Lookout := x; clear t; subst x)
       | clear_value x)
    | with_reducible apply Keeps.refl
    | with_reducible apply Keeps.ite
    | with_reducible apply Keeps.then_ (keep_updLko ..)
    | with_reducible apply Keeps.then_ (keep_setPilots ..)
    | with_reducible apply Keeps.then_ (keep_rest ..)
    | with_reducible apply Keeps.then_ (keep_settle ..)
    | with_reducible apply Keeps.then_ (keep_endFault ..)
    | (with_reducible apply Keeps.foldl; on_goal 2 => intros)
    | (beta_reduce; split)
    | with_reducible apply Keeps.upd_lk
    | (with_reducible apply Or.inl; decide)
    | (with_reducible apply Or.inr; with_reducible rfl)
    | (with_reducible apply Or.inr; rfl)
    | decide

theorem keep_clearOutlet_eq {s : State} {o : Fin 2} {a t} (h : clearOutlet s o = (a, t)) :
    Keeps [.sxChannel, .sxCell, .sxStage, .sxAux, .sxLaw, .sxRest, .outlet, .rdr, .lkOut, .lkOutlet, .lkLatch,
        .lkRest, .wrk, .log, .flt] s t := by
  have k := keep_clearOutlet s o
  rw [h] at k
  exact k

theorem keep_clearSafety (s : State) :
    Keeps [.sxChannel, .sxCell, .sxStage, .sxAux, .sxLaw, .sxRest, .outlet, .rdr, .lkOut, .lkOutlet, .lkLatch,
        .lkRest, .wrk, .log, .flt] s (clearSafety s).2 := by
  unfold clearSafety
  repeat' first
    | with_reducible assumption
    | (extract_lets -merge +onlyGivenNames x
       first
       | (refine Keeps.cut (x := x) (fun hx => ?_) ?_; (on_goal 1 => clear_value x)
          (on_goal 2 => (unfold x; clear x)))
       | (refine Keeps.cut (x := x.2) (fun hx => ?_) ?_; (on_goal 1 => clear_value x)
          (on_goal 2 => (unfold x; clear x)))
       | (have t : _ → State := x; clear t; subst x)
       | (have t : _ → _ → State := x; clear t; subst x)
       | (have t : _ → _ → Display := x; clear t; subst x)
       | clear_value x)
    | with_reducible apply Keeps.refl
    | with_reducible apply Keeps.ite
    | with_reducible apply Keeps.then_ (keep_settle ..)
    | with_reducible apply Keeps.then_ (keep_resetModule ..)
    | with_reducible apply Keeps.then_ (keep_endFault ..)
    | (with_reducible apply Keeps.foldl; on_goal 2 => intros)
    | decide
    | (beta_reduce; split)

theorem keep_clearSafety_eq {s : State} {a t} (h : clearSafety s = (a, t)) :
    Keeps [.sxChannel, .sxCell, .sxStage, .sxAux, .sxLaw, .sxRest, .outlet, .rdr, .lkOut, .lkOutlet, .lkLatch,
        .lkRest, .wrk, .log, .flt] s t := by
  have k := keep_clearSafety s
  rw [h] at k
  exact k

theorem keep_clearDisplay (s : State) :
    Keeps [.outlet, .merLeg, .disp, .log, .flt] s (clearDisplay s).2 := by
  unfold clearDisplay
  repeat' first
    | with_reducible assumption
    | (extract_lets -merge +onlyGivenNames x
       first
       | (refine Keeps.cut (x := x) (fun hx => ?_) ?_; (on_goal 1 => clear_value x)
          (on_goal 2 => (unfold x; clear x)))
       | (refine Keeps.cut (x := x.2) (fun hx => ?_) ?_; (on_goal 1 => clear_value x)
          (on_goal 2 => (unfold x; clear x)))
       | clear_value x)
    | with_reducible apply Keeps.refl
    | with_reducible apply Keeps.ite
    | with_reducible apply Keeps.then_ (keep_endDisp ..)
    | exact fun h => h
    | exact fun _ h => h
    | (intro _ hd; split <;> exact hd)
    | decide
    | (beta_reduce; split)

theorem keep_clearDisplay_eq {s : State} {a t} (h : clearDisplay s = (a, t)) :
    Keeps [.outlet, .merLeg, .disp, .log, .flt] s t := by
  have k := keep_clearDisplay s
  rw [h] at k
  exact k

theorem keep_clearTamper (s : State) :
    Keeps [.landfall] s (clearTamper s).2 := by
  unfold clearTamper
  repeat' first
    | with_reducible assumption
    | (extract_lets -merge +onlyGivenNames x
       first
       | (refine Keeps.cut (x := x) (fun hx => ?_) ?_; (on_goal 1 => clear_value x)
          (on_goal 2 => (unfold x; clear x)))
       | (refine Keeps.cut (x := x.2) (fun hx => ?_) ?_; (on_goal 1 => clear_value x)
          (on_goal 2 => (unfold x; clear x)))
       | clear_value x)
    | with_reducible apply Keeps.refl
    | with_reducible apply Keeps.ite
    | with_reducible apply Keeps.then_ (keep_updLandfall ..)
    | decide
    | (beta_reduce; split)

theorem keep_clearTamper_eq {s : State} {a t} (h : clearTamper s = (a, t)) :
    Keeps [.landfall] s t := by
  have k := keep_clearTamper s
  rw [h] at k
  exact k

theorem keep_runLatchClear (s : State) (opId scope index : Nat) :
    Keeps [.landfall, .sxChannel, .sxCell, .sxStage, .sxAux, .sxLaw, .sxRest, .outlet, .rdr, .merLeg, .disp, .lkOut,
        .lkOutlet, .lkLatch, .lkRest, .wrk, .hostOps, .hostJournal, .log, .flt] s (runLatchClear s opId scope index)
        := by
  unfold runLatchClear
  extract_lets r
  have hr : Keeps [.landfall, .sxChannel, .sxCell, .sxStage, .sxAux, .sxLaw, .sxRest, .outlet, .rdr, .merLeg, .disp,
      .lkOut, .lkOutlet, .lkLatch, .lkRest, .wrk, .hostOps, .hostJournal, .log, .flt] s r.2 := by
    unfold r
    split
    · exact (keep_clearStage s _).mono (by decide)
    · exact (keep_clearCell s _).mono (by decide)
    · exact (keep_clearOutlet s _).mono (by decide)
    · exact (keep_clearSafety s).mono (by decide)
    · exact (keep_clearDisplay s).mono (by decide)
    · exact (keep_clearTamper s).mono (by decide)
  exact hr.trans ((keep_resolveOp r.2 _ _ _).mono (by decide))

end Sys2Proof.Machine
end

