-- ==== Sys2Proof/Laws/FrameGates.lean ====
section
/-!
SUPPORT. What each operation of Machine/Gates.lean leaves unchanged.
-/
namespace Sys2Proof.Machine

set_option linter.unreachableTactic false
set_option linter.unusedTactic false
set_option linter.tactic.unusedName false

theorem keep_writeImmediate (s : State) (g : Fin 8) (n c : Fin 48) (t v : Nat) :
    Keeps [.sxChannel] s (writeImmediate s g n c t v) := by
  unfold writeImmediate
  repeat' first
    | with_reducible assumption
    | (extract_lets -merge +onlyGivenNames x
       first
       | (refine Keeps.cut (x := x) (fun hx => ?_) ?_; (on_goal 1 => clear_value x)
          (on_goal 2 => (unfold x; clear x)))
       | (refine Keeps.cut (x := x.2) (fun hx => ?_) ?_; (on_goal 1 => clear_value x)
          (on_goal 2 => (unfold x; clear x)))
       | clear_value x)
    | with_reducible apply Keeps.refl
    | with_reducible apply Keeps.ite
    | with_reducible apply Keeps.then_ (keep_updChannel ..)
    | decide
    | (beta_reduce; split)

theorem keep_writeCmp (s : State) (g : Fin 8) (n c : Fin 48) (t v : Nat) :
    Keeps [.sxChannel] s (writeCmp s g n c t v) := by
  unfold writeCmp
  repeat' first
    | with_reducible assumption
    | (extract_lets -merge +onlyGivenNames x
       first
       | (refine Keeps.cut (x := x) (fun hx => ?_) ?_; (on_goal 1 => clear_value x)
          (on_goal 2 => (unfold x; clear x)))
       | (refine Keeps.cut (x := x.2) (fun hx => ?_) ?_; (on_goal 1 => clear_value x)
          (on_goal 2 => (unfold x; clear x)))
       | clear_value x)
    | with_reducible apply Keeps.refl
    | with_reducible apply Keeps.ite
    | with_reducible apply Keeps.then_ (keep_updChannel ..)
    | with_reducible apply Keeps.then_ (keep_writeImmediate ..)
    | decide
    | (beta_reduce; split)

theorem keep_moveEdges (s : State) (g : Fin 8) (c : Fin 48) (t : Nat) (v : Int) (count : Bool) :
    Keeps [.sxChannel, .sxCell] s (moveEdges s g c t v count) := by
  unfold moveEdges
  repeat' first
    | with_reducible assumption
    | (extract_lets -merge +onlyGivenNames x
       first
       | (refine Keeps.cut (x := x) (fun hx => ?_) ?_; (on_goal 1 => clear_value x)
          (on_goal 2 => (unfold x; clear x)))
       | (refine Keeps.cut (x := x.2) (fun hx => ?_) ?_; (on_goal 1 => clear_value x)
          (on_goal 2 => (unfold x; clear x)))
       | (have t : _ → State := x; clear t; subst x)
       | (have t : _ → _ → State := x; clear t; subst x)
       | (have t : _ → _ → Display := x; clear t; subst x)
       | clear_value x)
    | with_reducible apply Keeps.refl
    | with_reducible apply Keeps.ite
    | with_reducible apply Keeps.then_ (keep_updCell ..)
    | with_reducible apply Keeps.then_ (keep_updChannel ..)
    | decide
    | (beta_reduce; split)

theorem keep_applyPhs (s : State) (g : Fin 8) (c : Fin 48) (t : Nat) (v : Int) :
    Keeps [.sxChannel, .sxCell] s (applyPhs s g c t v) := by
  unfold applyPhs
  repeat' first
    | with_reducible assumption
    | (extract_lets -merge +onlyGivenNames x
       first
       | (refine Keeps.cut (x := x) (fun hx => ?_) ?_; (on_goal 1 => clear_value x)
          (on_goal 2 => (unfold x; clear x)))
       | (refine Keeps.cut (x := x.2) (fun hx => ?_) ?_; (on_goal 1 => clear_value x)
          (on_goal 2 => (unfold x; clear x)))
       | clear_value x)
    | with_reducible apply Keeps.refl
    | with_reducible apply Keeps.then_ (keep_updCell ..)
    | with_reducible apply Keeps.then_ (keep_moveEdges ..)
    | decide

theorem keep_writeCell (s : State) (c : Fin 48) (y : Int) (ms : List Int) (t : Nat) :
    Keeps [.sxChannel, .sxCell] s (writeCell s c y ms t) := by
  unfold writeCell
  repeat' first
    | with_reducible assumption
    | (extract_lets -merge +onlyGivenNames x
       first
       | (refine Keeps.cut (x := x) (fun hx => ?_) ?_; (on_goal 1 => clear_value x)
          (on_goal 2 => (unfold x; clear x)))
       | (refine Keeps.cut (x := x.2) (fun hx => ?_) ?_; (on_goal 1 => clear_value x)
          (on_goal 2 => (unfold x; clear x)))
       | clear_value x)
    | with_reducible apply Keeps.refl
    | with_reducible apply Keeps.ite
    | with_reducible apply Keeps.then_ (keep_updCell ..)
    | with_reducible apply Keeps.then_ (keep_writeCmp ..)
    | with_reducible apply Keeps.then_ (keep_applyPhs ..)
    | (with_reducible apply Keeps.foldl; on_goal 2 => intros)
    | decide
    | (beta_reduce; split)

theorem keep_truncateCell (s : State) (g : Fin 8) (c : Fin 48) (t : Nat) :
    Keeps [.sxChannel, .sxCell] s (truncateCell s g c t) := by
  unfold truncateCell
  repeat' first
    | with_reducible assumption
    | (extract_lets -merge +onlyGivenNames x
       first
       | (refine Keeps.cut (x := x) (fun hx => ?_) ?_; (on_goal 1 => clear_value x)
          (on_goal 2 => (unfold x; clear x)))
       | (refine Keeps.cut (x := x.2) (fun hx => ?_) ?_; (on_goal 1 => clear_value x)
          (on_goal 2 => (unfold x; clear x)))
       | clear_value x)
    | with_reducible apply Keeps.refl
    | with_reducible apply Keeps.ite
    | with_reducible apply Keeps.then_ (keep_updCell ..)
    | with_reducible apply Keeps.then_ (keep_updChannel ..)
    | with_reducible apply Keeps.then_ (keep_moveEdges ..)
    | (with_reducible apply Keeps.foldl; on_goal 2 => intros)
    | decide
    | (beta_reduce; split)

end Sys2Proof.Machine
end

