-- ==== Sys2Proof/Laws/FrameEngine.lean ====
section
/-!
SUPPORT. What each operation and command of Machine/Engine.lean leaves unchanged.
-/
namespace Sys2Proof.Machine

set_option linter.unreachableTactic false
set_option linter.unusedTactic false
set_option linter.tactic.unusedName false

theorem keep_trackVehicle (s : State) (g : Fin 8) :
    Keeps [.sxStage, .sxAux] s (trackVehicle s g) := by
  unfold trackVehicle
  repeat' first
    | with_reducible assumption
    | (extract_lets -merge +onlyGivenNames x
       first
       | (refine Keeps.cut (x := x) (fun hx => ?_) ?_; (on_goal 1 => clear_value x)
          (on_goal 2 => (unfold x; clear x)))
       | (refine Keeps.cut (x := x.2) (fun hx => ?_) ?_; (on_goal 1 => clear_value x)
          (on_goal 2 => (unfold x; clear x)))
       | clear_value x)
    | with_reducible apply Keeps.refl
    | with_reducible apply Keeps.ite
    | with_reducible apply Keeps.then_ (keep_updStage ..)
    | with_reducible apply Keeps.then_ (keep_updAux ..)
    | decide
    | (beta_reduce; split)

theorem keep_approachGoal (s : State) (g : Fin 8) :
    Keeps [.sxStage, .sxAux, .outlet] s (approachGoal s g) := by
  unfold approachGoal
  repeat' first
    | with_reducible assumption
    | (extract_lets -merge +onlyGivenNames x
       first
       | (refine Keeps.cut (x := x) (fun hx => ?_) ?_; (on_goal 1 => clear_value x)
          (on_goal 2 => (unfold x; clear x)))
       | (refine Keeps.cut (x := x.2) (fun hx => ?_) ?_; (on_goal 1 => clear_value x)
          (on_goal 2 => (unfold x; clear x)))
       | clear_value x)
    | with_reducible apply Keeps.refl
    | with_reducible apply Keeps.ite
    | with_reducible apply Keeps.then_ (keep_updStage ..)
    | with_reducible apply Keeps.then_ (keep_updAux ..)
    | with_reducible apply Keeps.then_ (keep_updOutlet ..)
    | (with_reducible apply Keeps.foldl; on_goal 2 => intros)
    | decide
    | (beta_reduce; split)

theorem keep_sampleStage (s : State) (g : Fin 8) :
    Keeps [.sxCell, .sxStage, .sxAux, .outlet] s (sampleStage s g) := by
  unfold sampleStage
  repeat' first
    | with_reducible assumption
    | (extract_lets -merge +onlyGivenNames x
       first
       | (refine Keeps.cut (x := x) (fun hx => ?_) ?_; (on_goal 1 => clear_value x)
          (on_goal 2 => (unfold x; clear x)))
       | (refine Keeps.cut (x := x.2) (fun hx => ?_) ?_; (on_goal 1 => clear_value x)
          (on_goal 2 => (unfold x; clear x)))
       | clear_value x)
    | with_reducible apply Keeps.refl
    | with_reducible apply Keeps.ite
    | with_reducible apply Keeps.then_ (keep_followLimit ..)
    | with_reducible apply Keeps.then_ (keep_trackVehicle ..)
    | with_reducible apply Keeps.then_ (keep_approachGoal ..)
    | decide
    | split

theorem keep_coolToLimit (s : State) (i : Fin 96) :
    Keeps [.sxRest] s (coolToLimit s i) := by
  unfold coolToLimit
  repeat' first
    | with_reducible assumption
    | (extract_lets -merge +onlyGivenNames x
       first
       | (refine Keeps.cut (x := x) (fun hx => ?_) ?_; (on_goal 1 => clear_value x)
          (on_goal 2 => (unfold x; clear x)))
       | (refine Keeps.cut (x := x.2) (fun hx => ?_) ?_; (on_goal 1 => clear_value x)
          (on_goal 2 => (unfold x; clear x)))
       | (have t : Sextant := x; clear t; subst x)
       | clear_value x)
    | with_reducible apply Keeps.refl
    | with_reducible apply Keeps.ite
    | (beta_reduce; split)
    | with_reducible apply Keeps.upd_sx
    | (with_reducible apply Or.inl; decide)
    | (with_reducible apply Or.inr; with_reducible rfl)
    | (with_reducible apply Or.inr; rfl)
    | decide

theorem frame_lawTrigger (i : Fin 96) (t : Nat) :
    Kept [.sxLaw] (.lawTrigger i t) := by
  intro s s' e
  change execLawTrigger i t s = .next s' at e
  unfold execLawTrigger at e
  injection e with e
  subst e
  repeat' first
    | with_reducible assumption
    | (extract_lets -merge +onlyGivenNames x
       first
       | (refine Keeps.cut (x := x) (fun hx => ?_) ?_; (on_goal 1 => clear_value x)
          (on_goal 2 => (unfold x; clear x)))
       | (refine Keeps.cut (x := x.2) (fun hx => ?_) ?_; (on_goal 1 => clear_value x)
          (on_goal 2 => (unfold x; clear x)))
       | clear_value x)
    | with_reducible apply Keeps.refl
    | with_reducible apply Keeps.ite
    | with_reducible apply Keeps.then_ (keep_updLaw ..)
    | decide
    | (beta_reduce; split)

theorem frame_lawRunStart (t : Nat) :
    Kept [.sxCell, .sxStage, .sxAux, .sxLaw, .sxCount, .sxRest, .outlet] (.lawRunStart t) := by
  intro s s' e
  change execLawRunStart t s = .next s' at e
  unfold execLawRunStart at e
  injection e with e
  subst e
  split
  · exact Keeps.refl _ _
  · refine Keeps.ite (Keeps.refl _ _) ?_
    extract_lets r l u
    have hr : Keeps [.sxCell, .sxStage, .sxAux, .sxLaw, .sxCount, .sxRest, .outlet] s r := by
      unfold r
      split
      · exact ((keep_seeCount s t).mono (by decide)).trans ((keep_sampleStage _ _).mono (by decide))
      · exact (keep_seeCount s t).mono (by decide)
    have hu : Keeps [.sxCell, .sxStage, .sxAux, .sxLaw, .sxCount, .sxRest, .outlet] s u := hr.trans ((keep_updLaw r
        _ _).mono (by decide))
    clear_value u
    unfold countLanes
    refine Keeps.upd_sx (hu) ?_ ?_ ?_ ?_ ?_ ?_ ?_ ?_ (Or.inl (by decide)) <;> refine Or.inr ?_ <;> split <;> rfl

theorem frame_lawOutputWrite (i : Fin 96) (t : Nat) :
    Kept [.sxChannel, .sxCell, .sxLaw, .sxCount, .sxRest] (.lawOutputWrite i t) := by
  intro s s' e
  change execLawOutputWrite i t s = .next s' at e
  unfold execLawOutputWrite at e
  injection e with e
  subst e
  repeat' first
    | with_reducible assumption
    | (extract_lets -merge +onlyGivenNames x
       first
       | (refine Keeps.cut (x := x) (fun hx => ?_) ?_; (on_goal 1 => clear_value x)
          (on_goal 2 => (unfold x; clear x)))
       | (refine Keeps.cut (x := x.2) (fun hx => ?_) ?_; (on_goal 1 => clear_value x)
          (on_goal 2 => (unfold x; clear x)))
       | (have t : Sextant := x; clear t; subst x)
       | clear_value x)
    | with_reducible apply Keeps.refl
    | with_reducible apply Keeps.ite
    | with_reducible apply Keeps.then_ (keep_updLaw ..)
    | with_reducible apply Keeps.then_ (keep_seeCount ..)
    | with_reducible apply Keeps.then_ (keep_trackBanks ..)
    | with_reducible apply Keeps.then_ (keep_writeCell ..)
    | (beta_reduce; split)
    | with_reducible apply Keeps.upd_sx
    | (with_reducible apply Or.inl; decide)
    | (with_reducible apply Or.inr; with_reducible rfl)
    | (with_reducible apply Or.inr; rfl)
    | decide

theorem frame_overrunLatch (i : Fin 96) :
    Kept [.sxChannel, .sxCell, .sxStage, .sxAux, .sxLaw, .sxRest, .outlet, .rdr, .lkOut, .lkOutlet, .lkRest, .wrk,
        .log, .flt] (.overrunLatch i) := by
  intro s s' e
  change execOverrunLatch i s = .next s' at e
  unfold execOverrunLatch at e
  injection e with e
  subst e
  repeat' first
    | with_reducible assumption
    | (extract_lets -merge +onlyGivenNames x
       first
       | (refine Keeps.cut (x := x) (fun hx => ?_) ?_; (on_goal 1 => clear_value x)
          (on_goal 2 => (unfold x; clear x)))
       | (refine Keeps.cut (x := x.2) (fun hx => ?_) ?_; (on_goal 1 => clear_value x)
          (on_goal 2 => (unfold x; clear x)))
       | clear_value x)
    | with_reducible apply Keeps.refl
    | with_reducible apply Keeps.ite
    | with_reducible apply Keeps.then_ (keep_logDetect ..)
    | with_reducible apply Keeps.then_ (keep_updLaw ..)
    | with_reducible apply Keeps.then_ (keep_latchAndTell ..)
    | with_reducible apply Keeps.then_ (keep_coolToLimit ..)
    | decide
    | (beta_reduce; split)

end Sys2Proof.Machine
end

