-- ==== Sys2Proof/Laws/FrameFabric.lean ====
section
/-!
SUPPORT. What each operation and command of Machine/Fabric.lean leaves unchanged.
-/
namespace Sys2Proof.Machine

set_option linter.unreachableTactic false
set_option linter.unusedTactic false
set_option linter.tactic.unusedName false

theorem keep_driverFault (s : State) (n : Fin 48) :
    Keeps [.sxChannel, .sxCell, .sxStage, .sxAux, .sxRest, .outlet, .rdr, .lkOut, .lkOutlet, .lkRest, .wrk, .log,
        .flt] s (driverFault s n) := by
  unfold driverFault
  repeat' first
    | with_reducible assumption
    | (extract_lets -merge +onlyGivenNames x
       first
       | (refine Keeps.cut (x := x) (fun hx => ?_) ?_; (on_goal 1 => clear_value x)
          (on_goal 2 => (unfold x; clear x)))
       | (refine Keeps.cut (x := x.2) (fun hx => ?_) ?_; (on_goal 1 => clear_value x)
          (on_goal 2 => (unfold x; clear x)))
       | clear_value x)
    | with_reducible apply Keeps.refl
    | with_reducible apply Keeps.then_ (keep_updStage ..)
    | with_reducible apply Keeps.then_ (keep_updChannel ..)
    | with_reducible apply Keeps.then_ (keep_detectFab ..)
    | with_reducible apply Keeps.then_ (keep_latchAndTell ..)
    | decide
    | (beta_reduce; split)

theorem keep_carrierChannel (s : State) (g : Fin 8) (c : Fin 48) (t : Nat) (top : Bool) (n : Fin 48) :
    Keeps [.sxChannel] s (carrierChannel s g c t top n) := by
  unfold carrierChannel
  repeat' first
    | with_reducible assumption
    | (extract_lets -merge +onlyGivenNames x
       first
       | (refine Keeps.cut (x := x) (fun hx => ?_) ?_; (on_goal 1 => clear_value x)
          (on_goal 2 => (unfold x; clear x)))
       | (refine Keeps.cut (x := x.2) (fun hx => ?_) ?_; (on_goal 1 => clear_value x)
          (on_goal 2 => (unfold x; clear x)))
       | clear_value x)
    | with_reducible apply Keeps.refl
    | with_reducible apply Keeps.ite
    | with_reducible apply Keeps.then_ (keep_updChannel ..)
    | decide
    | (beta_reduce; split)

theorem keep_alignInputs (s : State) (g : Fin 8) :
    Keeps [.sxSd] s (alignInputs s g) := by
  unfold alignInputs
  repeat' first
    | with_reducible assumption
    | (extract_lets -merge +onlyGivenNames x
       first
       | (refine Keeps.cut (x := x) (fun hx => ?_) ?_; (on_goal 1 => clear_value x)
          (on_goal 2 => (unfold x; clear x)))
       | (refine Keeps.cut (x := x.2) (fun hx => ?_) ?_; (on_goal 1 => clear_value x)
          (on_goal 2 => (unfold x; clear x)))
       | (have t : Sextant := x; clear t; subst x)
       | clear_value x)
    | with_reducible apply Keeps.refl
    | with_reducible apply Keeps.ite
    | (beta_reduce; split)
    | with_reducible apply Keeps.upd_sx
    | (with_reducible apply Or.inl; decide)
    | (with_reducible apply Or.inr; with_reducible rfl)
    | (with_reducible apply Or.inr; rfl)
    | decide

theorem keep_stageCarrierStart (s : State) (g : Fin 8) :
    Keeps [.sxAux, .sxSd, .sxRest] s (stageCarrierStart s g) := by
  unfold stageCarrierStart
  repeat' first
    | with_reducible assumption
    | (extract_lets -merge +onlyGivenNames x
       first
       | (refine Keeps.cut (x := x) (fun hx => ?_) ?_; (on_goal 1 => clear_value x)
          (on_goal 2 => (unfold x; clear x)))
       | (refine Keeps.cut (x := x.2) (fun hx => ?_) ?_; (on_goal 1 => clear_value x)
          (on_goal 2 => (unfold x; clear x)))
       | (have t : Sextant := x; clear t; subst x)
       | clear_value x)
    | with_reducible apply Keeps.refl
    | with_reducible apply Keeps.ite
    | with_reducible apply Keeps.then_ (keep_updAux ..)
    | with_reducible apply Keeps.then_ (keep_alignInputs ..)
    | (beta_reduce; split)
    | with_reducible apply Keeps.upd_sx
    | (with_reducible apply Or.inl; decide)
    | (with_reducible apply Or.inr; with_reducible rfl)
    | (with_reducible apply Or.inr; rfl)
    | decide

theorem keep_syncEdge (s : State) (g : Fin 8) (t : Nat) :
    Keeps [.sxAux] s (syncEdge s g t) := by
  unfold syncEdge
  repeat' first
    | with_reducible assumption
    | (extract_lets -merge +onlyGivenNames x
       first
       | (refine Keeps.cut (x := x) (fun hx => ?_) ?_; (on_goal 1 => clear_value x)
          (on_goal 2 => (unfold x; clear x)))
       | (refine Keeps.cut (x := x.2) (fun hx => ?_) ?_; (on_goal 1 => clear_value x)
          (on_goal 2 => (unfold x; clear x)))
       | clear_value x)
    | with_reducible apply Keeps.refl
    | with_reducible apply Keeps.ite
    | with_reducible apply Keeps.then_ (keep_updAux ..)
    | decide
    | (beta_reduce; split)

theorem keep_stageLostInput (s : State) (n : Fin 64) (g : Fin 8) :
    Keeps [.sxChannel, .sxCell, .sxStage, .sxAux, .sxRest, .outlet, .rdr, .lkOut, .lkOutlet, .lkRest, .wrk, .log,
        .flt] s (stageLostInput s n g) := by
  unfold stageLostInput
  repeat' first
    | with_reducible assumption
    | (extract_lets -merge +onlyGivenNames x
       first
       | (refine Keeps.cut (x := x) (fun hx => ?_) ?_; (on_goal 1 => clear_value x)
          (on_goal 2 => (unfold x; clear x)))
       | (refine Keeps.cut (x := x.2) (fun hx => ?_) ?_; (on_goal 1 => clear_value x)
          (on_goal 2 => (unfold x; clear x)))
       | clear_value x)
    | with_reducible apply Keeps.refl
    | with_reducible apply Keeps.ite
    | with_reducible apply Keeps.then_ (keep_logInfo ..)
    | with_reducible apply Keeps.then_ (keep_updStage ..)
    | with_reducible apply Keeps.then_ (keep_latchStage ..)
    | with_reducible apply Keeps.then_ (keep_cellLostSense ..)
    | with_reducible apply Keeps.then_ (keep_failStart ..)
    | (with_reducible apply Keeps.foldl; on_goal 2 => intros)
    | decide
    | (beta_reduce; split)

theorem keep_inputInvalid (s : State) (n : Fin 64) :
    Keeps [.sxChannel, .sxCell, .sxStage, .sxAux, .sxSd, .sxRest, .outlet, .rdr, .lkOut, .lkOutlet, .lkRest, .wrk,
        .log, .flt] s (inputInvalid s n) := by
  unfold inputInvalid
  repeat' first
    | with_reducible assumption
    | (extract_lets -merge +onlyGivenNames x
       first
       | (refine Keeps.cut (x := x) (fun hx => ?_) ?_; (on_goal 1 => clear_value x)
          (on_goal 2 => (unfold x; clear x)))
       | (refine Keeps.cut (x := x.2) (fun hx => ?_) ?_; (on_goal 1 => clear_value x)
          (on_goal 2 => (unfold x; clear x)))
       | clear_value x)
    | with_reducible apply Keeps.refl
    | with_reducible apply Keeps.ite
    | with_reducible apply Keeps.then_ (keep_logDetect ..)
    | with_reducible apply Keeps.then_ (keep_updSd ..)
    | with_reducible apply Keeps.withStages
    | with_reducible apply Keeps.then_ (keep_stageLostInput ..)
    | (with_reducible apply Keeps.foldl; on_goal 2 => intros)
    | decide
    | (beta_reduce; split)

theorem keep_fastTrip (s : State) (n : Fin 64) (t : Nat) :
    Keeps [.sxChannel, .sxCell, .sxSd] s (fastTrip s n t) := by
  unfold fastTrip
  repeat' first
    | with_reducible assumption
    | (extract_lets -merge +onlyGivenNames x
       first
       | (refine Keeps.cut (x := x) (fun hx => ?_) ?_; (on_goal 1 => clear_value x)
          (on_goal 2 => (unfold x; clear x)))
       | (refine Keeps.cut (x := x.2) (fun hx => ?_) ?_; (on_goal 1 => clear_value x)
          (on_goal 2 => (unfold x; clear x)))
       | clear_value x)
    | with_reducible apply Keeps.refl
    | with_reducible apply Keeps.ite
    | with_reducible apply Keeps.then_ (keep_updSd ..)
    | with_reducible apply Keeps.then_ (keep_truncateCell ..)
    | (with_reducible apply Keeps.foldl; on_goal 2 => intros)
    | decide
    | (beta_reduce; split)

theorem keep_fastFilter (s : State) (n : Fin 64) (t : Nat) :
    Keeps [.sxChannel, .sxCell, .sxSd] s (fastFilter s n t) := by
  unfold fastFilter
  repeat' first
    | with_reducible assumption
    | (extract_lets -merge +onlyGivenNames x
       first
       | (refine Keeps.cut (x := x) (fun hx => ?_) ?_; (on_goal 1 => clear_value x)
          (on_goal 2 => (unfold x; clear x)))
       | (refine Keeps.cut (x := x.2) (fun hx => ?_) ?_; (on_goal 1 => clear_value x)
          (on_goal 2 => (unfold x; clear x)))
       | clear_value x)
    | with_reducible apply Keeps.refl
    | with_reducible apply Keeps.ite
    | with_reducible apply Keeps.then_ (keep_updSd ..)
    | with_reducible apply Keeps.then_ (keep_fastTrip ..)
    | decide
    | (beta_reduce; split)

theorem keep_controlOutput (s : State) (n : Fin 64) :
    Keeps [.sxCell, .sxStage, .sxAux, .sxSd, .sxLaw, .outlet] s (controlOutput s n) := by
  unfold controlOutput
  repeat' first
    | with_reducible assumption
    | (extract_lets -merge +onlyGivenNames x
       first
       | (refine Keeps.cut (x := x) (fun hx => ?_) ?_; (on_goal 1 => clear_value x)
          (on_goal 2 => (unfold x; clear x)))
       | (refine Keeps.cut (x := x.2) (fun hx => ?_) ?_; (on_goal 1 => clear_value x)
          (on_goal 2 => (unfold x; clear x)))
       | clear_value x)
    | with_reducible apply Keeps.refl
    | with_reducible apply Keeps.ite
    | with_reducible apply Keeps.then_ (keep_updSd ..)
    | with_reducible apply Keeps.then_ (keep_trackBanks ..)
    | with_reducible apply Keeps.then_ (keep_sampleStage ..)
    | (with_reducible apply Keeps.foldl; on_goal 2 => intros)
    | decide
    | (beta_reduce; split)

theorem keep_sdBit (n : Fin 64) (t : Nat) (s : State) (b : Bool) :
    Keeps [.sxChannel, .sxCell, .sxStage, .sxAux, .sxSd, .sxLaw, .sxRest, .outlet, .rdr, .lkOut, .lkOutlet, .lkRest,
        .wrk, .log, .flt] s (sdBit n t s b) := by
  unfold sdBit
  repeat' first
    | with_reducible assumption
    | (extract_lets -merge +onlyGivenNames x
       first
       | (refine Keeps.cut (x := x) (fun hx => ?_) ?_; (on_goal 1 => clear_value x)
          (on_goal 2 => (unfold x; clear x)))
       | (refine Keeps.cut (x := x.2) (fun hx => ?_) ?_; (on_goal 1 => clear_value x)
          (on_goal 2 => (unfold x; clear x)))
       | clear_value x)
    | with_reducible apply Keeps.refl
    | with_reducible apply Keeps.ite
    | with_reducible apply Keeps.then_ (keep_updSd ..)
    | with_reducible apply Keeps.then_ (keep_inputInvalid ..)
    | with_reducible apply Keeps.then_ (keep_fastFilter ..)
    | with_reducible apply Keeps.then_ (keep_controlOutput ..)
    | decide
    | (beta_reduce; split)

theorem keep_sdStream (s : State) (n : Fin 64) (bits : List Bool) (t : Nat) :
    Keeps [.sxChannel, .sxCell, .sxStage, .sxAux, .sxSd, .sxLaw, .sxCount, .sxRest, .outlet, .rdr, .lkOut,
        .lkOutlet, .lkRest, .wrk, .log, .flt] s (sdStream s n bits t) := by
  unfold sdStream
  repeat' first
    | with_reducible assumption
    | (extract_lets -merge +onlyGivenNames x
       first
       | (refine Keeps.cut (x := x) (fun hx => ?_) ?_; (on_goal 1 => clear_value x)
          (on_goal 2 => (unfold x; clear x)))
       | (refine Keeps.cut (x := x.2) (fun hx => ?_) ?_; (on_goal 1 => clear_value x)
          (on_goal 2 => (unfold x; clear x)))
       | clear_value x)
    | with_reducible apply Keeps.refl
    | with_reducible apply Keeps.ite
    | with_reducible apply Keeps.then_ (keep_seeCount ..)
    | with_reducible apply Keeps.then_ (keep_sdBit ..)
    | (with_reducible apply Keeps.foldl; on_goal 2 => intros)
    | decide
    | split

theorem keep_stageRegainedInput (s : State) (n : Fin 64) (g : Fin 8) :
    Keeps [.sxCell, .sxStage] s (stageRegainedInput s n g) := by
  unfold stageRegainedInput
  repeat' first
    | with_reducible assumption
    | (extract_lets -merge +onlyGivenNames x
       first
       | (refine Keeps.cut (x := x) (fun hx => ?_) ?_; (on_goal 1 => clear_value x)
          (on_goal 2 => (unfold x; clear x)))
       | (refine Keeps.cut (x := x.2) (fun hx => ?_) ?_; (on_goal 1 => clear_value x)
          (on_goal 2 => (unfold x; clear x)))
       | clear_value x)
    | with_reducible apply Keeps.refl
    | with_reducible apply Keeps.ite
    | with_reducible apply Keeps.then_ (keep_updStage ..)
    | with_reducible apply Keeps.then_ (keep_updCell ..)
    | with_reducible apply Keeps.then_ (keep_reshare ..)
    | (with_reducible apply Keeps.foldl; on_goal 2 => intros)
    | decide
    | (beta_reduce; split)

theorem keep_forcedEdges (s u : State) (g : Fin 8) (t : Nat) (c : Fin 48) :
    Keeps [.sxChannel] u (forcedEdges s u g t c) := by
  unfold forcedEdges
  repeat' first
    | with_reducible assumption
    | (extract_lets -merge +onlyGivenNames x
       first
       | (refine Keeps.cut (x := x) (fun hx => ?_) ?_; (on_goal 1 => clear_value x)
          (on_goal 2 => (unfold x; clear x)))
       | (refine Keeps.cut (x := x.2) (fun hx => ?_) ?_; (on_goal 1 => clear_value x)
          (on_goal 2 => (unfold x; clear x)))
       | clear_value x)
    | with_reducible apply Keeps.refl
    | with_reducible apply Keeps.then_ (keep_updChannel ..)
    | (with_reducible apply Keeps.foldl; on_goal 2 => intros)
    | decide

theorem keep_fire (s : State) (g : Fin 8) (slope at_ : Nat) :
    Keeps [.sxChannel, .sxCell, .sxStage, .sxAux, .log] s (fire s g slope at_) := by
  unfold fire
  repeat' first
    | with_reducible assumption
    | (extract_lets -merge +onlyGivenNames x
       first
       | (refine Keeps.cut (x := x) (fun hx => ?_) ?_; (on_goal 1 => clear_value x)
          (on_goal 2 => (unfold x; clear x)))
       | (refine Keeps.cut (x := x.2) (fun hx => ?_) ?_; (on_goal 1 => clear_value x)
          (on_goal 2 => (unfold x; clear x)))
       | clear_value x)
    | with_reducible apply Keeps.refl
    | with_reducible apply Keeps.ite
    | with_reducible apply Keeps.then_ (keep_updStage ..)
    | with_reducible apply Keeps.then_ (keep_updAux ..)
    | with_reducible apply Keeps.then_ (keep_updCell ..)
    | with_reducible apply Keeps.then_ (keep_reshare ..)
    | with_reducible apply Keeps.then_ (keep_logCell ..)
    | with_reducible apply Keeps.then_ (keep_applyPhs ..)
    | with_reducible apply Keeps.then_ (keep_forcedEdges ..)
    | (with_reducible apply Keeps.foldl; on_goal 2 => intros)
    | decide
    | (beta_reduce; split)

theorem keep_preload (s : State) (i : Fin 96) (target : Int) :
    Keeps [.sxLaw] s (preload s i target) := by
  unfold preload
  repeat' first
    | with_reducible assumption
    | (extract_lets -merge +onlyGivenNames x
       first
       | (refine Keeps.cut (x := x) (fun hx => ?_) ?_; (on_goal 1 => clear_value x)
          (on_goal 2 => (unfold x; clear x)))
       | (refine Keeps.cut (x := x.2) (fun hx => ?_) ?_; (on_goal 1 => clear_value x)
          (on_goal 2 => (unfold x; clear x)))
       | clear_value x)
    | with_reducible apply Keeps.refl
    | with_reducible apply Keeps.then_ (keep_updLaw ..)
    | decide

theorem keep_telStage (s : State) (g : Fin 8) :
    Keeps [.sxCell, .sxAux] s (telStage s g) := by
  unfold telStage
  repeat' first
    | with_reducible assumption
    | (extract_lets -merge +onlyGivenNames x
       first
       | (refine Keeps.cut (x := x) (fun hx => ?_) ?_; (on_goal 1 => clear_value x)
          (on_goal 2 => (unfold x; clear x)))
       | (refine Keeps.cut (x := x.2) (fun hx => ?_) ?_; (on_goal 1 => clear_value x)
          (on_goal 2 => (unfold x; clear x)))
       | clear_value x)
    | with_reducible apply Keeps.refl
    | with_reducible apply Keeps.then_ (keep_updAux ..)
    | with_reducible apply Keeps.then_ (keep_updCell ..)
    | (with_reducible apply Keeps.foldl; on_goal 2 => intros)
    | decide

theorem frame_gatePermitFall (lineB : Bool) :
    Kept [.sxChannel, .sxCell, .sxStage, .sxAux, .sxRest, .outlet, .rdr, .lkOut, .lkOutlet, .lkRest, .wrk, .log,
        .flt] (.gatePermitFall lineB) := by
  intro s s' e
  change execGatePermitFall lineB s = .next s' at e
  unfold execGatePermitFall at e
  injection e with e
  subst e
  repeat' first
    | with_reducible assumption
    | (extract_lets -merge +onlyGivenNames x
       first
       | (refine Keeps.cut (x := x) (fun hx => ?_) ?_; (on_goal 1 => clear_value x)
          (on_goal 2 => (unfold x; clear x)))
       | (refine Keeps.cut (x := x.2) (fun hx => ?_) ?_; (on_goal 1 => clear_value x)
          (on_goal 2 => (unfold x; clear x)))
       | (have t : Lookout := x; clear t; subst x)
       | clear_value x)
    | with_reducible apply Keeps.refl
    | with_reducible apply Keeps.ite
    | with_reducible apply Keeps.then_ (keep_latchStage ..)
    | with_reducible apply Keeps.withStages
    | (with_reducible apply Keeps.foldl; on_goal 2 => intros)
    | (beta_reduce; split)
    | with_reducible apply Keeps.upd_lk
    | (with_reducible apply Or.inl; decide)
    | (with_reducible apply Or.inr; with_reducible rfl)
    | (with_reducible apply Or.inr; rfl)
    | decide

theorem frame_fltNAssert (n : Fin 48) (widthPs : Option Nat) :
    Kept [.free, .sxChannel, .sxCell, .sxStage, .sxAux, .sxRest, .outlet, .rdr, .lkOut, .lkOutlet, .lkRest, .wrk,
        .log, .flt] (.fltNAssert n widthPs) := by
  intro s s' e
  change execFltNAssert n widthPs s = .next s' at e
  unfold execFltNAssert at e
  injection e with e
  subst e
  repeat' first
    | with_reducible assumption
    | (extract_lets -merge +onlyGivenNames x
       first
       | (refine Keeps.cut (x := x) (fun hx => ?_) ?_; (on_goal 1 => clear_value x)
          (on_goal 2 => (unfold x; clear x)))
       | (refine Keeps.cut (x := x.2) (fun hx => ?_) ?_; (on_goal 1 => clear_value x)
          (on_goal 2 => (unfold x; clear x)))
       | clear_value x)
    | with_reducible apply Keeps.refl
    | with_reducible apply Keeps.ite
    | with_reducible apply Keeps.then_ (keep_drawBit ..)
    | with_reducible apply Keeps.then_ (keep_updChannel ..)
    | with_reducible apply Keeps.then_ (keep_driverFault ..)
    | decide
    | (beta_reduce; split)

theorem frame_readbackMismatch (n : Fin 48) (high : Bool) :
    Kept [.sxChannel, .sxCell, .sxStage, .sxAux, .sxRest, .outlet, .rdr, .lkOut, .lkOutlet, .lkRest, .wrk, .log,
        .flt] (.readbackMismatch n high) := by
  intro s s' e
  change execReadbackMismatch n high s = .next s' at e
  unfold execReadbackMismatch at e
  injection e with e
  subst e
  repeat' first
    | with_reducible assumption
    | (extract_lets -merge +onlyGivenNames x
       first
       | (refine Keeps.cut (x := x) (fun hx => ?_) ?_; (on_goal 1 => clear_value x)
          (on_goal 2 => (unfold x; clear x)))
       | (refine Keeps.cut (x := x.2) (fun hx => ?_) ?_; (on_goal 1 => clear_value x)
          (on_goal 2 => (unfold x; clear x)))
       | clear_value x)
    | with_reducible apply Keeps.refl
    | with_reducible apply Keeps.ite
    | with_reducible apply Keeps.then_ (keep_updChannel ..)
    | with_reducible apply Keeps.then_ (keep_detectFab ..)
    | with_reducible apply Keeps.then_ (keep_latchAndTell ..)
    | decide
    | (beta_reduce; split)

theorem frame_carrierLoad (c : Fin 48) (top : Bool) :
    Kept [.sxChannel, .sxCell] (.carrierLoad c top) := by
  intro s s' e
  change execCarrierLoad c top s = .next s' at e
  unfold execCarrierLoad at e
  injection e with e
  subst e
  repeat' first
    | with_reducible assumption
    | (extract_lets -merge +onlyGivenNames x
       first
       | (refine Keeps.cut (x := x) (fun hx => ?_) ?_; (on_goal 1 => clear_value x)
          (on_goal 2 => (unfold x; clear x)))
       | (refine Keeps.cut (x := x.2) (fun hx => ?_) ?_; (on_goal 1 => clear_value x)
          (on_goal 2 => (unfold x; clear x)))
       | clear_value x)
    | with_reducible apply Keeps.refl
    | with_reducible apply Keeps.ite
    | with_reducible apply Keeps.then_ (keep_updCell ..)
    | with_reducible apply Keeps.then_ (keep_applyPhs ..)
    | with_reducible apply Keeps.then_ (keep_carrierChannel ..)
    | (with_reducible apply Keeps.foldl; on_goal 2 => intros)
    | decide
    | (beta_reduce; split)

theorem frame_roseTargetsSet (g : Fin 8) :
    Kept [.sxCell, .sxStage, .sxAux] (.roseTargetsSet g) := by
  intro s s' e
  change execRoseTargetsSet g s = .next s' at e
  unfold execRoseTargetsSet at e
  injection e with e
  subst e
  repeat' first
    | with_reducible assumption
    | (extract_lets -merge +onlyGivenNames x
       first
       | (refine Keeps.cut (x := x) (fun hx => ?_) ?_; (on_goal 1 => clear_value x)
          (on_goal 2 => (unfold x; clear x)))
       | (refine Keeps.cut (x := x.2) (fun hx => ?_) ?_; (on_goal 1 => clear_value x)
          (on_goal 2 => (unfold x; clear x)))
       | clear_value x)
    | with_reducible apply Keeps.refl
    | with_reducible apply Keeps.ite
    | with_reducible apply Keeps.then_ (keep_updStage ..)
    | with_reducible apply Keeps.then_ (keep_updAux ..)
    | with_reducible apply Keeps.then_ (keep_updCell ..)
    | (with_reducible apply Keeps.foldl; on_goal 2 => intros)
    | decide
    | (beta_reduce; split)

theorem frame_roseMoveStep (g : Fin 8) :
    Kept [.sxChannel, .sxCell, .sxStage, .sxAux, .sxSd, .sxRest, .outlet, .rdr, .lkOut, .lkOutlet, .lkRest, .wrk,
        .log, .flt] (.roseMoveStep g) := by
  intro s s' e
  change execRoseMoveStep g s = .next s' at e
  unfold execRoseMoveStep at e
  injection e with e
  subst e
  repeat' first
    | with_reducible assumption
    | (extract_lets -merge +onlyGivenNames x
       first
       | (refine Keeps.cut (x := x) (fun hx => ?_) ?_; (on_goal 1 => clear_value x)
          (on_goal 2 => (unfold x; clear x)))
       | (refine Keeps.cut (x := x.2) (fun hx => ?_) ?_; (on_goal 1 => clear_value x)
          (on_goal 2 => (unfold x; clear x)))
       | clear_value x)
    | with_reducible apply Keeps.refl
    | with_reducible apply Keeps.ite
    | with_reducible apply Keeps.then_ (keep_updStage ..)
    | with_reducible apply Keeps.then_ (keep_updAux ..)
    | with_reducible apply Keeps.then_ (keep_updCell ..)
    | with_reducible apply Keeps.then_ (keep_reshare ..)
    | with_reducible apply Keeps.then_ (keep_retireCell ..)
    | with_reducible apply Keeps.withStages
    | with_reducible apply Keeps.then_ (keep_stageCarrierStart ..)
    | (with_reducible apply Keeps.foldl; on_goal 2 => intros)
    | decide
    | (beta_reduce; split)

theorem frame_syncInEdge (t high : Nat) :
    Kept [.sxAux, .sxRest] (.syncInEdge t high) := by
  intro s s' e
  change execSyncInEdge t high s = .next s' at e
  unfold execSyncInEdge at e
  injection e with e
  subst e
  repeat' first
    | with_reducible assumption
    | (extract_lets -merge +onlyGivenNames x
       first
       | (refine Keeps.cut (x := x) (fun hx => ?_) ?_; (on_goal 1 => clear_value x)
          (on_goal 2 => (unfold x; clear x)))
       | (refine Keeps.cut (x := x.2) (fun hx => ?_) ?_; (on_goal 1 => clear_value x)
          (on_goal 2 => (unfold x; clear x)))
       | (have t : Sextant := x; clear t; subst x)
       | clear_value x)
    | with_reducible apply Keeps.refl
    | with_reducible apply Keeps.ite
    | with_reducible apply Keeps.then_ (keep_syncEdge ..)
    | (with_reducible apply Keeps.foldl; on_goal 2 => intros)
    | (beta_reduce; split)
    | with_reducible apply Keeps.upd_sx
    | (with_reducible apply Or.inl; decide)
    | (with_reducible apply Or.inr; with_reducible rfl)
    | (with_reducible apply Or.inr; rfl)
    | decide

theorem frame_syncLockSet (g : Fin 8) :
    Kept [.sxAux] (.syncLockSet g) := by
  intro s s' e
  change execSyncLockSet g s = .next s' at e
  unfold execSyncLockSet at e
  injection e with e
  subst e
  repeat' first
    | with_reducible assumption
    | (extract_lets -merge +onlyGivenNames x
       first
       | (refine Keeps.cut (x := x) (fun hx => ?_) ?_; (on_goal 1 => clear_value x)
          (on_goal 2 => (unfold x; clear x)))
       | (refine Keeps.cut (x := x.2) (fun hx => ?_) ?_; (on_goal 1 => clear_value x)
          (on_goal 2 => (unfold x; clear x)))
       | clear_value x)
    | with_reducible apply Keeps.refl
    | with_reducible apply Keeps.ite
    | with_reducible apply Keeps.then_ (keep_updAux ..)
    | decide
    | (beta_reduce; split)

theorem frame_syncLost (g : Fin 8) :
    Kept [.sxAux] (.syncLost g) := by
  intro s s' e
  change execSyncLost g s = .next s' at e
  unfold execSyncLost at e
  injection e with e
  subst e
  repeat' first
    | with_reducible assumption
    | (extract_lets -merge +onlyGivenNames x
       first
       | (refine Keeps.cut (x := x) (fun hx => ?_) ?_; (on_goal 1 => clear_value x)
          (on_goal 2 => (unfold x; clear x)))
       | (refine Keeps.cut (x := x.2) (fun hx => ?_) ?_; (on_goal 1 => clear_value x)
          (on_goal 2 => (unfold x; clear x)))
       | clear_value x)
    | with_reducible apply Keeps.refl
    | with_reducible apply Keeps.ite
    | with_reducible apply Keeps.then_ (keep_updAux ..)
    | decide
    | (beta_reduce; split)

theorem frame_ppsInEdge (count : Nat) :
    Kept [.sxCount, .sxRest] (.ppsInEdge count) := by
  intro s s' e
  change execPpsInEdge count s = .next s' at e
  unfold execPpsInEdge at e
  injection e with e
  subst e
  repeat' first
    | with_reducible assumption
    | (extract_lets -merge +onlyGivenNames x
       first
       | (refine Keeps.cut (x := x) (fun hx => ?_) ?_; (on_goal 1 => clear_value x)
          (on_goal 2 => (unfold x; clear x)))
       | (refine Keeps.cut (x := x.2) (fun hx => ?_) ?_; (on_goal 1 => clear_value x)
          (on_goal 2 => (unfold x; clear x)))
       | (have t : Sextant := x; clear t; subst x)
       | clear_value x)
    | with_reducible apply Keeps.refl
    | with_reducible apply Keeps.then_ (keep_seeCount ..)
    | with_reducible apply Keeps.upd_sx
    | (with_reducible apply Or.inl; decide)
    | (with_reducible apply Or.inr; with_reducible rfl)
    | (with_reducible apply Or.inr; rfl)
    | decide

theorem frame_sdControlOutput (n : Fin 64) (bits : List Bool) (t : Nat) :
    Kept [.sxChannel, .sxCell, .sxStage, .sxAux, .sxSd, .sxLaw, .sxCount, .sxRest, .outlet, .rdr, .lkOut, .lkOutlet,
        .lkRest, .wrk, .log, .flt] (.sdControlOutput n bits t) := by
  intro s s' e
  change execSdControlOutput n bits t s = .next s' at e
  unfold execSdControlOutput at e
  injection e with e
  subst e
  repeat' first
    | with_reducible assumption
    | (extract_lets -merge +onlyGivenNames x
       first
       | (refine Keeps.cut (x := x) (fun hx => ?_) ?_; (on_goal 1 => clear_value x)
          (on_goal 2 => (unfold x; clear x)))
       | (refine Keeps.cut (x := x.2) (fun hx => ?_) ?_; (on_goal 1 => clear_value x)
          (on_goal 2 => (unfold x; clear x)))
       | clear_value x)
    | with_reducible apply Keeps.refl
    | with_reducible apply Keeps.then_ (keep_sdStream ..)
    | decide

theorem frame_fastTrip (n : Fin 64) (bits : List Bool) (t : Nat) :
    Kept [.sxChannel, .sxCell, .sxStage, .sxAux, .sxSd, .sxLaw, .sxCount, .sxRest, .outlet, .rdr, .lkOut, .lkOutlet,
        .lkRest, .wrk, .log, .flt] (.fastTrip n bits t) := by
  intro s s' e
  change execFastTrip n bits t s = .next s' at e
  unfold execFastTrip at e
  injection e with e
  subst e
  repeat' first
    | with_reducible assumption
    | (extract_lets -merge +onlyGivenNames x
       first
       | (refine Keeps.cut (x := x) (fun hx => ?_) ?_; (on_goal 1 => clear_value x)
          (on_goal 2 => (unfold x; clear x)))
       | (refine Keeps.cut (x := x.2) (fun hx => ?_) ?_; (on_goal 1 => clear_value x)
          (on_goal 2 => (unfold x; clear x)))
       | clear_value x)
    | with_reducible apply Keeps.refl
    | with_reducible apply Keeps.then_ (keep_sdStream ..)
    | decide

theorem frame_sdStuck (n : Fin 64) :
    Kept [.sxChannel, .sxCell, .sxStage, .sxAux, .sxSd, .sxRest, .outlet, .rdr, .lkOut, .lkOutlet, .lkRest, .wrk,
        .log, .flt] (.sdStuck n) := by
  intro s s' e
  change execSdStuck n s = .next s' at e
  unfold execSdStuck at e
  injection e with e
  subst e
  repeat' first
    | with_reducible assumption
    | (extract_lets -merge +onlyGivenNames x
       first
       | (refine Keeps.cut (x := x) (fun hx => ?_) ?_; (on_goal 1 => clear_value x)
          (on_goal 2 => (unfold x; clear x)))
       | (refine Keeps.cut (x := x.2) (fun hx => ?_) ?_; (on_goal 1 => clear_value x)
          (on_goal 2 => (unfold x; clear x)))
       | clear_value x)
    | with_reducible apply Keeps.refl
    | with_reducible apply Keeps.ite
    | with_reducible apply Keeps.then_ (keep_updSd ..)
    | with_reducible apply Keeps.then_ (keep_inputInvalid ..)
    | decide
    | (beta_reduce; split)

theorem frame_sdInvalidClear (n : Fin 64) :
    Kept [.sxCell, .sxStage, .sxSd, .log, .flt] (.sdInvalidClear n) := by
  intro s s' e
  change execSdInvalidClear n s = .next s' at e
  unfold execSdInvalidClear at e
  injection e with e
  subst e
  repeat' first
    | with_reducible assumption
    | (extract_lets -merge +onlyGivenNames x
       first
       | (refine Keeps.cut (x := x) (fun hx => ?_) ?_; (on_goal 1 => clear_value x)
          (on_goal 2 => (unfold x; clear x)))
       | (refine Keeps.cut (x := x.2) (fun hx => ?_) ?_; (on_goal 1 => clear_value x)
          (on_goal 2 => (unfold x; clear x)))
       | clear_value x)
    | with_reducible apply Keeps.refl
    | with_reducible apply Keeps.ite
    | with_reducible apply Keeps.then_ (keep_logClear ..)
    | with_reducible apply Keeps.then_ (keep_updSd ..)
    | with_reducible apply Keeps.then_ (keep_stageRegainedInput ..)
    | (with_reducible apply Keeps.foldl; on_goal 2 => intros)
    | decide
    | (beta_reduce; split)

theorem frame_uscEvent (k : Fin 8) (microvolt slope t : Nat) :
    Kept [.sxChannel, .sxCell, .sxStage, .sxAux, .sxCount, .sxRest, .log] (.uscEvent k microvolt slope t) := by
  intro s s' e
  change execUscEvent k microvolt slope t s = .next s' at e
  unfold execUscEvent at e
  injection e with e
  subst e
  repeat' first
    | with_reducible assumption
    | (extract_lets -merge +onlyGivenNames x
       first
       | (refine Keeps.cut (x := x) (fun hx => ?_) ?_; (on_goal 1 => clear_value x)
          (on_goal 2 => (unfold x; clear x)))
       | (refine Keeps.cut (x := x.2) (fun hx => ?_) ?_; (on_goal 1 => clear_value x)
          (on_goal 2 => (unfold x; clear x)))
       | (have t : Sextant := x; clear t; subst x)
       | clear_value x)
    | with_reducible apply Keeps.refl
    | with_reducible apply Keeps.ite
    | with_reducible apply Keeps.then_ (keep_updAux ..)
    | with_reducible apply Keeps.then_ (keep_seeCount ..)
    | with_reducible apply Keeps.then_ (keep_fire ..)
    | (beta_reduce; split)
    | with_reducible apply Keeps.upd_sx
    | (with_reducible apply Or.inl; decide)
    | (with_reducible apply Or.inr; with_reducible rfl)
    | (with_reducible apply Or.inr; rfl)
    | decide

theorem frame_fireEnd (g : Fin 8) (at_ : Nat) :
    Kept [.sxChannel, .sxStage, .sxAux, .sxLaw, .sxCount] (.fireEnd g at_) := by
  intro s s' e
  change execFireEnd g at_ s = .next s' at e
  unfold execFireEnd at e
  injection e with e
  subst e
  repeat' first
    | with_reducible assumption
    | (extract_lets -merge +onlyGivenNames x
       first
       | (refine Keeps.cut (x := x) (fun hx => ?_) ?_; (on_goal 1 => clear_value x)
          (on_goal 2 => (unfold x; clear x)))
       | (refine Keeps.cut (x := x.2) (fun hx => ?_) ?_; (on_goal 1 => clear_value x)
          (on_goal 2 => (unfold x; clear x)))
       | clear_value x)
    | with_reducible apply Keeps.refl
    | with_reducible apply Keeps.ite
    | with_reducible apply Keeps.then_ (keep_updStage ..)
    | with_reducible apply Keeps.then_ (keep_updAux ..)
    | with_reducible apply Keeps.then_ (keep_seeCount ..)
    | with_reducible apply Keeps.then_ (keep_forcedEdges ..)
    | with_reducible apply Keeps.then_ (keep_preload ..)
    | (with_reducible apply Keeps.foldl; on_goal 2 => intros)
    | decide
    | (beta_reduce; split)

theorem frame_telemetryTick  :
    Kept [.sxCell, .sxAux] .telemetryTick := by
  intro s s' e
  change execTelemetryTick s = .next s' at e
  unfold execTelemetryTick at e
  injection e with e
  subst e
  repeat' first
    | with_reducible assumption
    | (extract_lets -merge +onlyGivenNames x
       first
       | (refine Keeps.cut (x := x) (fun hx => ?_) ?_; (on_goal 1 => clear_value x)
          (on_goal 2 => (unfold x; clear x)))
       | (refine Keeps.cut (x := x.2) (fun hx => ?_) ?_; (on_goal 1 => clear_value x)
          (on_goal 2 => (unfold x; clear x)))
       | clear_value x)
    | with_reducible apply Keeps.refl
    | with_reducible apply Keeps.ite
    | with_reducible apply Keeps.then_ (keep_telStage ..)
    | (with_reducible apply Keeps.foldl; on_goal 2 => intros)
    | decide
    | split

end Sys2Proof.Machine
end

