-- ==== Sys2Proof/Laws/FrameFwOps.lean ====
section
/-!
SUPPORT. What each operation of Machine/FwOps.lean leaves unchanged.
-/
namespace Sys2Proof.Machine

set_option linter.unreachableTactic false
set_option linter.unusedTactic false
set_option linter.tactic.unusedName false

theorem keep_eraseStaged (s : State) (i : Fin 5) :
    Keeps [.flash, .merStage] s (eraseStaged s i) := by
  unfold eraseStaged
  repeat' first
    | with_reducible assumption
    | (extract_lets -merge +onlyGivenNames x
       first
       | (refine Keeps.cut (x := x) (fun hx => ?_) ?_; (on_goal 1 => clear_value x)
          (on_goal 2 => (unfold x; clear x)))
       | (refine Keeps.cut (x := x.2) (fun hx => ?_) ?_; (on_goal 1 => clear_value x)
          (on_goal 2 => (unfold x; clear x)))
       | clear_value x)
    | with_reducible apply Keeps.refl
    | with_reducible apply Keeps.ite
    | split
    | with_reducible apply Keeps.upd_flash
    | with_reducible apply Keeps.upd_merStage
    | with_reducible apply Keeps.upd_all
    | (with_reducible apply Or.inl; decide)
    | (with_reducible apply Or.inr; with_reducible rfl)
    | (with_reducible apply Or.inr; rfl)
    | exact fun h => h
    | exact fun _ h => h
    | (intro _ hd; split <;> exact hd)
    | exact fun h => sparseErase_wf h _ _
    | exact fun h => sparseWrite_wf h _ _
    | decide

theorem keep_writeStaged (s : State) (i : Fin 5) (off : Nat) (b : Bytes) :
    Keeps [.flash, .merStage] s (writeStaged s i off b) := by
  unfold writeStaged
  repeat' first
    | with_reducible assumption
    | (extract_lets -merge +onlyGivenNames x
       first
       | (refine Keeps.cut (x := x) (fun hx => ?_) ?_; (on_goal 1 => clear_value x)
          (on_goal 2 => (unfold x; clear x)))
       | (refine Keeps.cut (x := x.2) (fun hx => ?_) ?_; (on_goal 1 => clear_value x)
          (on_goal 2 => (unfold x; clear x)))
       | clear_value x)
    | with_reducible apply Keeps.refl
    | with_reducible apply Keeps.ite
    | split
    | with_reducible apply Keeps.upd_flash
    | with_reducible apply Keeps.upd_merStage
    | with_reducible apply Keeps.upd_all
    | (with_reducible apply Or.inl; decide)
    | (with_reducible apply Or.inr; with_reducible rfl)
    | (with_reducible apply Or.inr; rfl)
    | exact fun h => h
    | exact fun _ h => h
    | (intro _ hd; split <;> exact hd)
    | exact fun h => sparseErase_wf h _ _
    | exact fun h => sparseWrite_wf h _ _
    | decide

theorem keep_runStage (s : State) (opId sid target : Nat) (k : Chunk) :
    Keeps [.flash, .outlet, .hostOps, .hostRest, .fw, .merStage] s (runStage s opId sid target k) := by
  unfold runStage
  repeat' first
    | with_reducible assumption
    | (extract_lets -merge +onlyGivenNames x
       first
       | (refine Keeps.cut (x := x) (fun hx => ?_) ?_; (on_goal 1 => clear_value x)
          (on_goal 2 => (unfold x; clear x)))
       | (refine Keeps.cut (x := x.2) (fun hx => ?_) ?_; (on_goal 1 => clear_value x)
          (on_goal 2 => (unfold x; clear x)))
       | clear_value x)
    | with_reducible apply Keeps.refl
    | with_reducible apply Keeps.ite
    | with_reducible apply Keeps.then_ (keep_setPilots ..)
    | with_reducible apply Keeps.then_ (keep_updFw ..)
    | with_reducible apply Keeps.then_ (keep_setResult ..)
    | with_reducible apply Keeps.then_ (keep_dropTransfers ..)
    | with_reducible apply Keeps.then_ (keep_takeChunk ..)
    | with_reducible apply Keeps.then_ (keep_takeChunk_eq (by assumption))
    | with_reducible apply Keeps.then_ (keep_eraseStaged ..)
    | with_reducible apply Keeps.then_ (keep_writeStaged ..)
    | decide
    | (beta_reduce; split)

theorem keep_rejectChart (s : State) (slotB : Bool) (tag reason : Nat) :
    Keeps [.chart] s (rejectChart s slotB tag reason) := by
  unfold rejectChart
  repeat' first
    | with_reducible assumption
    | (extract_lets -merge +onlyGivenNames x
       first
       | (refine Keeps.cut (x := x) (fun hx => ?_) ?_; (on_goal 1 => clear_value x)
          (on_goal 2 => (unfold x; clear x)))
       | (refine Keeps.cut (x := x.2) (fun hx => ?_) ?_; (on_goal 1 => clear_value x)
          (on_goal 2 => (unfold x; clear x)))
       | (have t : Chart := x; clear t; subst x)
       | clear_value x)
    | with_reducible apply Keeps.refl
    | with_reducible apply Keeps.ite
    | split
    | with_reducible apply Keeps.upd_chart
    | exact fun h => h
    | exact fun _ h => h
    | (intro _ hd; split <;> exact hd)
    | decide

theorem keep_chartVerdict (s : State) (b : Bytes) (sigOk : Bool) :
    Keeps [.chart, .log] s (chartVerdict s b sigOk).2 := by
  unfold chartVerdict
  repeat' first
    | with_reducible assumption
    | (extract_lets -merge +onlyGivenNames x
       first
       | (refine Keeps.cut (x := x) (fun hx => ?_) ?_; (on_goal 1 => clear_value x)
          (on_goal 2 => (unfold x; clear x)))
       | (refine Keeps.cut (x := x.2) (fun hx => ?_) ?_; (on_goal 1 => clear_value x)
          (on_goal 2 => (unfold x; clear x)))
       | clear_value x)
    | with_reducible apply Keeps.refl
    | with_reducible apply Keeps.ite
    | with_reducible apply Keeps.then_ (keep_reportUnknown ..)
    | with_reducible apply Keeps.then_ (keep_rejectChart ..)
    | decide
    | split

theorem keep_chartVerdict_eq {s : State} {b : Bytes} {sigOk : Bool} {a t} (h : chartVerdict s b sigOk = (a, t)) :
    Keeps [.chart, .log] s t := by
  have k := keep_chartVerdict s b sigOk
  rw [h] at k
  exact k

theorem keep_runVerify (s : State) (opId target : Nat) (sigOk : Bool) (up : TagUpsets) :
    Keeps [.chart, .outlet, .hostOps, .locker, .fw, .log, .flt] s (runVerify s opId target sigOk up) := by
  unfold runVerify
  extract_lets i k c b r t u
  have hc : Keeps [.chart, .outlet, .hostOps, .locker, .fw, .log, .flt] s c := (keep_checkTag s _ _).mono (by decide)
  clear_value c
  refine Keeps.ite ((keep_setResult s _ _ _).mono (by decide)) (Keeps.ite (hc.trans ((keep_setResult c _ _ _).mono
      (by decide))) ?_)
  have hr : Keeps [.chart, .outlet, .hostOps, .locker, .fw, .log, .flt] s r.2 := by
    unfold r
    split
    · exact hc.trans ((keep_chartVerdict c _ _).mono (by decide))
    · exact hc
  clear_value r
  have ht : Keeps [.chart, .outlet, .hostOps, .locker, .fw, .log, .flt] s t :=
    (hr.trans ((keep_updSlot r.2 _ _).mono (by decide))).trans ((keep_useSlot _ _ _).mono (by decide))
  clear_value t
  split
  · exact ((ht.trans ((keep_updFw t _ _).mono (by decide))).trans ((keep_setPilots _).mono (by decide))).trans
      ((keep_setResult _ _ _ _).mono (by decide))
  · exact ht.trans ((keep_setResult t _ _ _).mono (by decide))

theorem keep_stopLookout (s : State) :
    Keeps [.sxChannel, .sxCell, .sxStage, .sxAux, .sxLaw, .sxRest, .outlet, .rdr, .lkOut, .lkOutlet, .lkLatch,
        .lkRest, .safe, .wrk, .log, .flt] s (stopLookout s) := by
  unfold stopLookout
  repeat' first
    | with_reducible assumption
    | (extract_lets -merge +onlyGivenNames x
       first
       | (refine Keeps.cut (x := x) (fun hx => ?_) ?_; (on_goal 1 => clear_value x)
          (on_goal 2 => (unfold x; clear x)))
       | (refine Keeps.cut (x := x.2) (fun hx => ?_) ?_; (on_goal 1 => clear_value x)
          (on_goal 2 => (unfold x; clear x)))
       | (have t : Lookout := x; clear t; subst x)
       | clear_value x)
    | with_reducible apply Keeps.refl
    | with_reducible apply Keeps.then_ (keep_settle ..)
    | with_reducible apply Keeps.then_ (keep_clearChan ..)
    | with_reducible apply Keeps.then_ (keep_forgetHolsters ..)
    | with_reducible apply Keeps.upd_lk
    | (with_reducible apply Or.inl; decide)
    | (with_reducible apply Or.inr; with_reducible rfl)
    | (with_reducible apply Or.inr; rfl)
    | decide

theorem keep_runLookout (s : State) (agreed : Bool) :
    Keeps [.sxChannel, .sxCell, .sxStage, .sxAux, .sxLaw, .sxRest, .outlet, .rdr, .lkOut, .lkOutlet, .lkLatch,
        .lkRest, .wrk, .log, .flt] s (runLookout s agreed) := by
  unfold runLookout
  repeat' first
    | with_reducible assumption
    | (extract_lets -merge +onlyGivenNames x
       first
       | (refine Keeps.cut (x := x) (fun hx => ?_) ?_; (on_goal 1 => clear_value x)
          (on_goal 2 => (unfold x; clear x)))
       | (refine Keeps.cut (x := x.2) (fun hx => ?_) ?_; (on_goal 1 => clear_value x)
          (on_goal 2 => (unfold x; clear x)))
       | (have t : Lookout := x; clear t; subst x)
       | clear_value x)
    | with_reducible apply Keeps.refl
    | with_reducible apply Keeps.then_ (keep_settle ..)
    | with_reducible apply Keeps.upd_lk
    | (with_reducible apply Or.inl; decide)
    | (with_reducible apply Or.inr; with_reducible rfl)
    | (with_reducible apply Or.inr; rfl)
    | decide

theorem keep_runActivate (s : State) (opId target : Nat) :
    Keeps ([Part.free, Part.landfall, Part.chart, Part.cfg, Part.sxChannel, Part.sxCell, Part.sxStage, Part.sxAux,
        Part.sxSd, Part.sxLaw, Part.sxFix, Part.sxCount, Part.sxRest, Part.outlet, Part.cooling] ++ [Part.drive,
        Part.rdr, Part.merLeg, Part.merChr, Part.merRest, Part.disp, Part.lkOut, Part.lkOutlet, Part.lkLatch,
        Part.lkRest, Part.txl, Part.safe, Part.ll, Part.mgr, Part.wrk] ++ [Part.hostSessions, Part.hostOps,
        Part.hostJournal, Part.hostRest, Part.locker, Part.fw, Part.tamper, Part.log, Part.flt, Part.pwr]) s
        (runActivate s opId target) := by
  unfold runActivate
  repeat' first
    | with_reducible assumption
    | (extract_lets -merge +onlyGivenNames x
       first
       | (refine Keeps.cut (x := x) (fun hx => ?_) ?_; (on_goal 1 => clear_value x)
          (on_goal 2 => (unfold x; clear x)))
       | (refine Keeps.cut (x := x.2) (fun hx => ?_) ?_; (on_goal 1 => clear_value x)
          (on_goal 2 => (unfold x; clear x)))
       | (have t : List Part := x; clear t; subst x)
       | (have t : Sextant := x; clear t; subst x)
       | clear_value x)
    | with_reducible apply Keeps.refl
    | with_reducible apply Keeps.ite
    | with_reducible apply Keeps.then_ (keep_legalEvent ..)
    | with_reducible apply Keeps.then_ (keep_stopPlainly ..)
    | with_reducible apply Keeps.then_ (keep_updFw ..)
    | with_reducible apply Keeps.then_ (keep_resolveOp ..)
    | with_reducible apply Keeps.then_ (keep_releaseToken ..)
    | with_reducible apply Keeps.then_ (keep_stepDone ..)
    | with_reducible apply Keeps.then_ (keep_coldLandfall ..)
    | with_reducible apply Keeps.then_ (keep_helmRestart ..)
    | with_reducible apply Keeps.then_ (keep_stopLookout ..)
    | (beta_reduce; split)
    | with_reducible apply Keeps.upd_sx
    | (with_reducible apply Or.inl; decide)
    | (with_reducible apply Or.inr; with_reducible rfl)
    | (with_reducible apply Or.inr; rfl)
    | decide

theorem keep_endActivation (s : State) (st : Status) :
    Keeps [.hostOps, .hostJournal] s (endActivation s st) := by
  unfold endActivation
  repeat' first
    | with_reducible assumption
    | (extract_lets -merge +onlyGivenNames x
       first
       | (refine Keeps.cut (x := x) (fun hx => ?_) ?_; (on_goal 1 => clear_value x)
          (on_goal 2 => (unfold x; clear x)))
       | (refine Keeps.cut (x := x.2) (fun hx => ?_) ?_; (on_goal 1 => clear_value x)
          (on_goal 2 => (unfold x; clear x)))
       | clear_value x)
    | with_reducible apply Keeps.refl
    | with_reducible apply Keeps.then_ (keep_resolveOp ..)
    | decide
    | split

theorem keep_leaveImageHold (s : State) (i : Fin 5) :
    Keeps [.landfall] s (leaveImageHold s i) := by
  unfold leaveImageHold
  repeat' first
    | with_reducible assumption
    | (extract_lets -merge +onlyGivenNames x
       first
       | (refine Keeps.cut (x := x) (fun hx => ?_) ?_; (on_goal 1 => clear_value x)
          (on_goal 2 => (unfold x; clear x)))
       | (refine Keeps.cut (x := x.2) (fun hx => ?_) ?_; (on_goal 1 => clear_value x)
          (on_goal 2 => (unfold x; clear x)))
       | clear_value x)
    | with_reducible apply Keeps.refl
    | with_reducible apply Keeps.ite
    | with_reducible apply Keeps.then_ (keep_updLandfall ..)
    | with_reducible apply Keeps.then_ (keep_catchUp ..)
    | decide
    | (beta_reduce; split)

theorem keep_restartDie (s : State) (i : Fin 5) (agreed : Bool) :
    Keeps [.sxChannel, .sxCell, .sxStage, .sxAux, .sxLaw, .sxRest, .outlet, .rdr, .merFe, .merLeg, .merChr, .merTar,
        .merRest, .lkOut, .lkOutlet, .lkLatch, .lkRest, .wrk, .log, .flt] s (restartDie s i agreed) := by
  unfold restartDie
  repeat' first
    | with_reducible assumption
    | (extract_lets -merge +onlyGivenNames x
       first
       | (refine Keeps.cut (x := x) (fun hx => ?_) ?_; (on_goal 1 => clear_value x)
          (on_goal 2 => (unfold x; clear x)))
       | (refine Keeps.cut (x := x.2) (fun hx => ?_) ?_; (on_goal 1 => clear_value x)
          (on_goal 2 => (unfold x; clear x)))
       | (have t : List Part := x; clear t; subst x)
       | (have t : Sextant := x; clear t; subst x)
       | clear_value x)
    | with_reducible apply Keeps.refl
    | with_reducible apply Keeps.ite
    | with_reducible apply Keeps.then_ (keep_resumeMetering ..)
    | with_reducible apply Keeps.then_ (keep_runLookout ..)
    | split
    | with_reducible apply Keeps.upd_sx
    | (with_reducible apply Or.inl; decide)
    | (with_reducible apply Or.inr; with_reducible rfl)
    | (with_reducible apply Or.inr; rfl)
    | decide

theorem keep_startSucceeds (s : State) (i : Fin 5) :
    Keeps ([Part.landfall, Part.sxChannel, Part.sxCell, Part.sxStage, Part.sxAux, Part.sxLaw, Part.sxRest,
        Part.outlet, Part.rdr, Part.merFe, Part.merLeg, Part.merChr, Part.merTar, Part.merRest, Part.lkOut] ++
        [Part.lkOutlet, Part.lkLatch, Part.lkRest, Part.wrk, Part.hostOps, Part.hostJournal, Part.fw, Part.log,
        Part.flt]) s (startSucceeds s i) := by
  unfold startSucceeds
  repeat' first
    | with_reducible assumption
    | (extract_lets -merge +onlyGivenNames x
       first
       | (refine Keeps.cut (x := x) (fun hx => ?_) ?_; (on_goal 1 => clear_value x)
          (on_goal 2 => (unfold x; clear x)))
       | (refine Keeps.cut (x := x.2) (fun hx => ?_) ?_; (on_goal 1 => clear_value x)
          (on_goal 2 => (unfold x; clear x)))
       | (have t : List Part := x; clear t; subst x)
       | clear_value x)
    | with_reducible apply Keeps.refl
    | with_reducible apply Keeps.then_ (keep_logInfo ..)
    | with_reducible apply Keeps.then_ (keep_updFw ..)
    | with_reducible apply Keeps.then_ (keep_endActivation ..)
    | with_reducible apply Keeps.then_ (keep_leaveImageHold ..)
    | with_reducible apply Keeps.then_ (keep_restartDie ..)
    | decide

theorem keep_startFails (s : State) (i : Fin 5) :
    Keeps ([Part.sxChannel, Part.sxCell, Part.sxStage, Part.sxAux, Part.sxLaw, Part.sxRest, Part.outlet, Part.rdr,
        Part.merFe, Part.merLeg, Part.merChr, Part.merTar, Part.merRest, Part.lkOut, Part.lkOutlet] ++
        [Part.lkLatch, Part.lkRest, Part.wrk, Part.hostOps, Part.hostJournal, Part.fw, Part.log, Part.flt]) s
        (startFails s i) := by
  unfold startFails
  repeat' first
    | with_reducible assumption
    | (extract_lets -merge +onlyGivenNames x
       first
       | (refine Keeps.cut (x := x) (fun hx => ?_) ?_; (on_goal 1 => clear_value x)
          (on_goal 2 => (unfold x; clear x)))
       | (refine Keeps.cut (x := x.2) (fun hx => ?_) ?_; (on_goal 1 => clear_value x)
          (on_goal 2 => (unfold x; clear x)))
       | (have t : List Part := x; clear t; subst x)
       | clear_value x)
    | with_reducible apply Keeps.refl
    | with_reducible apply Keeps.ite
    | with_reducible apply Keeps.then_ (keep_logMasked ..)
    | with_reducible apply Keeps.then_ (keep_legalEvent ..)
    | with_reducible apply Keeps.then_ (keep_updFw ..)
    | with_reducible apply Keeps.then_ (keep_endActivation ..)
    | with_reducible apply Keeps.then_ (keep_restartDie ..)
    | decide
    | (beta_reduce; split)

theorem keep_endChartActivation (s : State) :
    Keeps [.outlet, .hostOps, .hostJournal, .fw] s (endChartActivation s) := by
  unfold endChartActivation
  repeat' first
    | with_reducible assumption
    | (extract_lets -merge +onlyGivenNames x
       first
       | (refine Keeps.cut (x := x) (fun hx => ?_) ?_; (on_goal 1 => clear_value x)
          (on_goal 2 => (unfold x; clear x)))
       | (refine Keeps.cut (x := x.2) (fun hx => ?_) ?_; (on_goal 1 => clear_value x)
          (on_goal 2 => (unfold x; clear x)))
       | clear_value x)
    | with_reducible apply Keeps.refl
    | with_reducible apply Keeps.ite
    | with_reducible apply Keeps.then_ (keep_setPilots ..)
    | with_reducible apply Keeps.then_ (keep_updFw ..)
    | with_reducible apply Keeps.then_ (keep_endActivation ..)
    | decide
    | (beta_reduce; split)

end Sys2Proof.Machine
end

