-- ==== Sys2Proof/Laws/FrameTurxel.lean ====
section
/-!
SUPPORT. What each operation and command of Machine/Turxel.lean leaves unchanged.
-/
namespace Sys2Proof.Machine

set_option linter.unreachableTactic false
set_option linter.unusedTactic false
set_option linter.tactic.unusedName false

theorem keep_pathLost (s : State) (p : Fin 2) :
    Keeps [.txl, .log, .flt] s (pathLost s p) := by
  unfold pathLost
  repeat' first
    | with_reducible assumption
    | (extract_lets -merge +onlyGivenNames x
       first
       | (refine Keeps.cut (x := x) (fun hx => ?_) ?_; (on_goal 1 => clear_value x)
          (on_goal 2 => (unfold x; clear x)))
       | (refine Keeps.cut (x := x.2) (fun hx => ?_) ?_; (on_goal 1 => clear_value x)
          (on_goal 2 => (unfold x; clear x)))
       | clear_value x)
    | with_reducible apply Keeps.refl
    | with_reducible apply Keeps.ite
    | with_reducible apply Keeps.then_ (keep_logDetect ..)
    | with_reducible apply Keeps.then_ (keep_updTxlPort ..)
    | decide
    | (beta_reduce; split)

theorem keep_noteSeen (s : State) (p : Fin 2) (f : TxlRx) :
    Keeps [.txl] s (noteSeen s p f) := by
  unfold noteSeen
  repeat' first
    | with_reducible assumption
    | (extract_lets -merge +onlyGivenNames x
       first
       | (refine Keeps.cut (x := x) (fun hx => ?_) ?_; (on_goal 1 => clear_value x)
          (on_goal 2 => (unfold x; clear x)))
       | (refine Keeps.cut (x := x.2) (fun hx => ?_) ?_; (on_goal 1 => clear_value x)
          (on_goal 2 => (unfold x; clear x)))
       | (have t : _ → State := x; clear t; subst x)
       | (have t : _ → _ → State := x; clear t; subst x)
       | (have t : _ → _ → Display := x; clear t; subst x)
       | clear_value x)
    | with_reducible apply Keeps.refl
    | (beta_reduce; split)
    | with_reducible apply Keeps.upd_txl
    | decide

theorem keep_noteBeacon (s : State) (p : Fin 2) :
    Keeps [.txl] s (noteBeacon s p) := by
  unfold noteBeacon
  repeat' first
    | with_reducible assumption
    | (extract_lets -merge +onlyGivenNames x
       first
       | (refine Keeps.cut (x := x) (fun hx => ?_) ?_; (on_goal 1 => clear_value x)
          (on_goal 2 => (unfold x; clear x)))
       | (refine Keeps.cut (x := x.2) (fun hx => ?_) ?_; (on_goal 1 => clear_value x)
          (on_goal 2 => (unfold x; clear x)))
       | clear_value x)
    | with_reducible apply Keeps.refl
    | with_reducible apply Keeps.ite
    | with_reducible apply Keeps.then_ (keep_updTxlPort ..)
    | decide
    | (beta_reduce; split)

theorem keep_acceptTxl (s : State) (p : Fin 2) (f : TxlRx) :
    Keeps [.txl] s (acceptTxl s p f) := by
  unfold acceptTxl
  repeat' first
    | with_reducible assumption
    | (extract_lets -merge +onlyGivenNames x
       first
       | (refine Keeps.cut (x := x) (fun hx => ?_) ?_; (on_goal 1 => clear_value x)
          (on_goal 2 => (unfold x; clear x)))
       | (refine Keeps.cut (x := x.2) (fun hx => ?_) ?_; (on_goal 1 => clear_value x)
          (on_goal 2 => (unfold x; clear x)))
       | clear_value x)
    | with_reducible apply Keeps.refl
    | with_reducible apply Keeps.ite
    | with_reducible apply Keeps.then_ (keep_noteSeen ..)
    | with_reducible apply Keeps.then_ (keep_noteBeacon ..)
    | split
    | with_reducible apply Keeps.upd_txl
    | decide

theorem keep_judgeTxl (s : State) (p : Fin 2) (f : TxlRx) :
    Keeps [.txl, .locker] s (judgeTxl s p f) := by
  unfold judgeTxl
  repeat' first
    | with_reducible assumption
    | (extract_lets -merge +onlyGivenNames x
       first
       | (refine Keeps.cut (x := x) (fun hx => ?_) ?_; (on_goal 1 => clear_value x)
          (on_goal 2 => (unfold x; clear x)))
       | (refine Keeps.cut (x := x.2) (fun hx => ?_) ?_; (on_goal 1 => clear_value x)
          (on_goal 2 => (unfold x; clear x)))
       | clear_value x)
    | with_reducible apply Keeps.refl
    | with_reducible apply Keeps.ite
    | with_reducible apply Keeps.then_ (keep_useSlot ..)
    | with_reducible apply Keeps.then_ (keep_updTxlPort ..)
    | with_reducible apply Keeps.then_ (keep_acceptTxl ..)
    | decide
    | (beta_reduce; split)

theorem keep_updChan (s : State) (ch : Fin 2) (f : SafeChan → SafeChan) :
    Keeps [.safe] s (updChan s ch f) := by
  unfold updChan
  repeat' first
    | with_reducible assumption
    | (extract_lets -merge +onlyGivenNames x
       first
       | (refine Keeps.cut (x := x) (fun hx => ?_) ?_; (on_goal 1 => clear_value x)
          (on_goal 2 => (unfold x; clear x)))
       | (refine Keeps.cut (x := x.2) (fun hx => ?_) ?_; (on_goal 1 => clear_value x)
          (on_goal 2 => (unfold x; clear x)))
       | clear_value x)
    | with_reducible apply Keeps.refl
    | with_reducible apply Keeps.upd_safe
    | decide

theorem keep_deliver (s : State) (ch : Fin 2) (k : Fin 16) (t : SafeCopy) :
    Keeps [.safe] s (deliver s ch k t) := by
  unfold deliver
  repeat' first
    | with_reducible assumption
    | (extract_lets -merge +onlyGivenNames x
       first
       | (refine Keeps.cut (x := x) (fun hx => ?_) ?_; (on_goal 1 => clear_value x)
          (on_goal 2 => (unfold x; clear x)))
       | (refine Keeps.cut (x := x.2) (fun hx => ?_) ?_; (on_goal 1 => clear_value x)
          (on_goal 2 => (unfold x; clear x)))
       | clear_value x)
    | with_reducible apply Keeps.refl
    | with_reducible apply Keeps.ite
    | with_reducible apply Keeps.then_ (keep_updChan ..)
    | decide
    | (beta_reduce; split)

theorem keep_countA (s : State) (ch : Fin 2) (f : SafeLink → SafeLink) :
    Keeps [.safe] s (countA s ch f) := by
  unfold countA
  repeat' first
    | with_reducible assumption
    | (extract_lets -merge +onlyGivenNames x
       first
       | (refine Keeps.cut (x := x) (fun hx => ?_) ?_; (on_goal 1 => clear_value x)
          (on_goal 2 => (unfold x; clear x)))
       | (refine Keeps.cut (x := x.2) (fun hx => ?_) ?_; (on_goal 1 => clear_value x)
          (on_goal 2 => (unfold x; clear x)))
       | clear_value x)
    | with_reducible apply Keeps.refl
    | with_reducible apply Keeps.ite
    | split
    | with_reducible apply Keeps.upd_safe
    | decide

theorem keep_copyBad (s : State) (ch p : Fin 2) :
    Keeps [.log] s (copyBad s ch p) := by
  unfold copyBad
  repeat' first
    | with_reducible assumption
    | (extract_lets -merge +onlyGivenNames x
       first
       | (refine Keeps.cut (x := x) (fun hx => ?_) ?_; (on_goal 1 => clear_value x)
          (on_goal 2 => (unfold x; clear x)))
       | (refine Keeps.cut (x := x.2) (fun hx => ?_) ?_; (on_goal 1 => clear_value x)
          (on_goal 2 => (unfold x; clear x)))
       | clear_value x)
    | with_reducible apply Keeps.refl
    | with_reducible apply Keeps.ite
    | with_reducible apply Keeps.then_ (keep_logMasked ..)
    | decide
    | split

theorem keep_pairCopy (s : State) (p ch : Fin 2) (k : Fin 16) (t : SafeCopy) :
    Keeps [.safe] s (pairCopy s p ch k t) := by
  unfold pairCopy
  repeat' first
    | with_reducible assumption
    | (extract_lets -merge +onlyGivenNames x
       first
       | (refine Keeps.cut (x := x) (fun hx => ?_) ?_; (on_goal 1 => clear_value x)
          (on_goal 2 => (unfold x; clear x)))
       | (refine Keeps.cut (x := x.2) (fun hx => ?_) ?_; (on_goal 1 => clear_value x)
          (on_goal 2 => (unfold x; clear x)))
       | (have t : _ → State := x; clear t; subst x)
       | (have t : _ → _ → State := x; clear t; subst x)
       | (have t : _ → _ → Display := x; clear t; subst x)
       | clear_value x)
    | with_reducible apply Keeps.refl
    | with_reducible apply Keeps.ite
    | with_reducible apply Keeps.then_ (keep_updChan ..)
    | with_reducible apply Keeps.then_ (keep_deliver ..)
    | with_reducible apply Keeps.then_ (keep_countA ..)
    | (beta_reduce; split)
    | with_reducible apply Keeps.upd_safe
    | decide

theorem keep_takeCopy (s : State) (p ch : Fin 2) (t : SafeCopy) :
    Keeps [.txl, .safe, .log] s (takeCopy s p ch t) := by
  unfold takeCopy
  repeat' first
    | with_reducible assumption
    | (extract_lets -merge +onlyGivenNames x
       first
       | (refine Keeps.cut (x := x) (fun hx => ?_) ?_; (on_goal 1 => clear_value x)
          (on_goal 2 => (unfold x; clear x)))
       | (refine Keeps.cut (x := x.2) (fun hx => ?_) ?_; (on_goal 1 => clear_value x)
          (on_goal 2 => (unfold x; clear x)))
       | clear_value x)
    | with_reducible apply Keeps.refl
    | with_reducible apply Keeps.ite
    | with_reducible apply Keeps.then_ (keep_logInfo ..)
    | with_reducible apply Keeps.then_ (keep_updTxlPort ..)
    | with_reducible apply Keeps.then_ (keep_deliver ..)
    | with_reducible apply Keeps.then_ (keep_countA ..)
    | with_reducible apply Keeps.then_ (keep_copyBad ..)
    | with_reducible apply Keeps.then_ (keep_pairCopy ..)
    | (beta_reduce; split)
    | with_reducible apply Keeps.upd_safe
    | decide

theorem keep_pairTimeout (s : State) (ch : Fin 2) (k : Fin 16) :
    Keeps [.safe, .log] s (pairTimeout s ch k) := by
  unfold pairTimeout
  repeat' first
    | with_reducible assumption
    | (extract_lets -merge +onlyGivenNames x
       first
       | (refine Keeps.cut (x := x) (fun hx => ?_) ?_; (on_goal 1 => clear_value x)
          (on_goal 2 => (unfold x; clear x)))
       | (refine Keeps.cut (x := x.2) (fun hx => ?_) ?_; (on_goal 1 => clear_value x)
          (on_goal 2 => (unfold x; clear x)))
       | clear_value x)
    | with_reducible apply Keeps.refl
    | with_reducible apply Keeps.ite
    | with_reducible apply Keeps.then_ (keep_updChan ..)
    | with_reducible apply Keeps.then_ (keep_countA ..)
    | with_reducible apply Keeps.then_ (keep_copyBad ..)
    | (beta_reduce; split)
    | with_reducible apply Keeps.upd_safe
    | decide

theorem keep_updPtp (s : State) (f : Ptp → Ptp) :
    Keeps [.txl] s (updPtp s f) := by
  unfold updPtp
  repeat' first
    | with_reducible assumption
    | (extract_lets -merge +onlyGivenNames x
       first
       | (refine Keeps.cut (x := x) (fun hx => ?_) ?_; (on_goal 1 => clear_value x)
          (on_goal 2 => (unfold x; clear x)))
       | (refine Keeps.cut (x := x.2) (fun hx => ?_) ?_; (on_goal 1 => clear_value x)
          (on_goal 2 => (unfold x; clear x)))
       | clear_value x)
    | with_reducible apply Keeps.refl
    | with_reducible apply Keeps.upd_txl
    | decide

theorem keep_setLocked (s : State) (on : Bool) :
    Keeps [.txl] s (setLocked s on) := by
  unfold setLocked
  repeat' first
    | with_reducible assumption
    | (extract_lets -merge +onlyGivenNames x
       first
       | (refine Keeps.cut (x := x) (fun hx => ?_) ?_; (on_goal 1 => clear_value x)
          (on_goal 2 => (unfold x; clear x)))
       | (refine Keeps.cut (x := x.2) (fun hx => ?_) ?_; (on_goal 1 => clear_value x)
          (on_goal 2 => (unfold x; clear x)))
       | clear_value x)
    | with_reducible apply Keeps.refl
    | with_reducible apply Keeps.then_ (keep_updPtp ..)
    | decide

theorem keep_judgeOffset (s : State) (d : Int) :
    Keeps [.txl] s (judgeOffset s d) := by
  unfold judgeOffset
  repeat' first
    | with_reducible assumption
    | (extract_lets -merge +onlyGivenNames x
       first
       | (refine Keeps.cut (x := x) (fun hx => ?_) ?_; (on_goal 1 => clear_value x)
          (on_goal 2 => (unfold x; clear x)))
       | (refine Keeps.cut (x := x.2) (fun hx => ?_) ?_; (on_goal 1 => clear_value x)
          (on_goal 2 => (unfold x; clear x)))
       | clear_value x)
    | with_reducible apply Keeps.refl
    | with_reducible apply Keeps.ite
    | with_reducible apply Keeps.then_ (keep_updPtp ..)
    | with_reducible apply Keeps.then_ (keep_setLocked ..)
    | decide
    | (beta_reduce; split)

theorem keep_completeSync (s : State) (origin rx : Int) :
    Keeps [.txl] s (completeSync s origin rx) := by
  unfold completeSync
  repeat' first
    | with_reducible assumption
    | (extract_lets -merge +onlyGivenNames x
       first
       | (refine Keeps.cut (x := x) (fun hx => ?_) ?_; (on_goal 1 => clear_value x)
          (on_goal 2 => (unfold x; clear x)))
       | (refine Keeps.cut (x := x.2) (fun hx => ?_) ?_; (on_goal 1 => clear_value x)
          (on_goal 2 => (unfold x; clear x)))
       | clear_value x)
    | with_reducible apply Keeps.refl
    | with_reducible apply Keeps.then_ (keep_updPtp ..)
    | with_reducible apply Keeps.then_ (keep_judgeOffset ..)
    | decide

theorem keep_setDelay (s : State) (trip : Int) :
    Keeps [.txl] s (setDelay s trip) := by
  unfold setDelay
  repeat' first
    | with_reducible assumption
    | (extract_lets -merge +onlyGivenNames x
       first
       | (refine Keeps.cut (x := x) (fun hx => ?_) ?_; (on_goal 1 => clear_value x)
          (on_goal 2 => (unfold x; clear x)))
       | (refine Keeps.cut (x := x.2) (fun hx => ?_) ?_; (on_goal 1 => clear_value x)
          (on_goal 2 => (unfold x; clear x)))
       | clear_value x)
    | with_reducible apply Keeps.refl
    | with_reducible apply Keeps.then_ (keep_updPtp ..)
    | decide

theorem keep_takePtp (s : State) (m : PtpMessage) :
    Keeps [.txl] s (takePtp s m) := by
  unfold takePtp
  repeat' first
    | with_reducible assumption
    | (extract_lets -merge +onlyGivenNames x
       first
       | (refine Keeps.cut (x := x) (fun hx => ?_) ?_; (on_goal 1 => clear_value x)
          (on_goal 2 => (unfold x; clear x)))
       | (refine Keeps.cut (x := x.2) (fun hx => ?_) ?_; (on_goal 1 => clear_value x)
          (on_goal 2 => (unfold x; clear x)))
       | clear_value x)
    | with_reducible apply Keeps.refl
    | with_reducible apply Keeps.ite
    | with_reducible apply Keeps.then_ (keep_updPtp ..)
    | with_reducible apply Keeps.then_ (keep_completeSync ..)
    | with_reducible apply Keeps.then_ (keep_setDelay ..)
    | decide
    | (beta_reduce; split)

theorem keep_usePtpPort (s : State) (p : Fin 2) :
    Keeps [.txl] s (usePtpPort s p) := by
  unfold usePtpPort
  repeat' first
    | with_reducible assumption
    | (extract_lets -merge +onlyGivenNames x
       first
       | (refine Keeps.cut (x := x) (fun hx => ?_) ?_; (on_goal 1 => clear_value x)
          (on_goal 2 => (unfold x; clear x)))
       | (refine Keeps.cut (x := x.2) (fun hx => ?_) ?_; (on_goal 1 => clear_value x)
          (on_goal 2 => (unfold x; clear x)))
       | clear_value x)
    | with_reducible apply Keeps.refl
    | with_reducible apply Keeps.then_ (keep_updPtp ..)
    | decide

theorem frame_phyStatusPoll (p : Fin 2) (link : Bool) (speed : Nat) (duplex : Bool) :
    Kept [.txl, .log, .flt] (.phyStatusPoll p link speed duplex) := by
  intro s s' e
  change execPhyStatusPoll p link speed duplex s = .next s' at e
  unfold execPhyStatusPoll at e
  injection e with e
  subst e
  repeat' first
    | with_reducible assumption
    | (extract_lets -merge +onlyGivenNames x
       first
       | (refine Keeps.cut (x := x) (fun hx => ?_) ?_; (on_goal 1 => clear_value x)
          (on_goal 2 => (unfold x; clear x)))
       | (refine Keeps.cut (x := x.2) (fun hx => ?_) ?_; (on_goal 1 => clear_value x)
          (on_goal 2 => (unfold x; clear x)))
       | clear_value x)
    | with_reducible apply Keeps.refl
    | with_reducible apply Keeps.ite
    | with_reducible apply Keeps.then_ (keep_updTxlPort ..)
    | with_reducible apply Keeps.then_ (keep_pathLost ..)
    | decide
    | (beta_reduce; split)

theorem frame_pathLost (p : Fin 2) :
    Kept [.txl, .log, .flt] (.pathLost p) := by
  intro s s' e
  change execPathLost p s = .next s' at e
  unfold execPathLost at e
  injection e with e
  subst e
  repeat' first
    | with_reducible assumption
    | (extract_lets -merge +onlyGivenNames x
       first
       | (refine Keeps.cut (x := x) (fun hx => ?_) ?_; (on_goal 1 => clear_value x)
          (on_goal 2 => (unfold x; clear x)))
       | (refine Keeps.cut (x := x.2) (fun hx => ?_) ?_; (on_goal 1 => clear_value x)
          (on_goal 2 => (unfold x; clear x)))
       | clear_value x)
    | with_reducible apply Keeps.refl
    | with_reducible apply Keeps.ite
    | with_reducible apply Keeps.then_ (keep_pathLost ..)
    | decide
    | split

theorem frame_pathLostClear (p : Fin 2) :
    Kept [.txl, .log, .flt] (.pathLostClear p) := by
  intro s s' e
  change execPathLostClear p s = .next s' at e
  unfold execPathLostClear at e
  injection e with e
  subst e
  repeat' first
    | with_reducible assumption
    | (extract_lets -merge +onlyGivenNames x
       first
       | (refine Keeps.cut (x := x) (fun hx => ?_) ?_; (on_goal 1 => clear_value x)
          (on_goal 2 => (unfold x; clear x)))
       | (refine Keeps.cut (x := x.2) (fun hx => ?_) ?_; (on_goal 1 => clear_value x)
          (on_goal 2 => (unfold x; clear x)))
       | clear_value x)
    | with_reducible apply Keeps.refl
    | with_reducible apply Keeps.ite
    | with_reducible apply Keeps.then_ (keep_logClear ..)
    | with_reducible apply Keeps.then_ (keep_updTxlPort ..)
    | decide
    | (beta_reduce; split)

theorem frame_turxelFrameRx (p : Fin 2) (f : TxlFrame) :
    Kept [.txl, .locker] (.turxelFrameRx p f) := by
  intro s s' e
  change execTurxelFrameRx p f s = .next s' at e
  unfold execTurxelFrameRx at e
  injection e with e
  subst e
  repeat' first
    | with_reducible assumption
    | (extract_lets -merge +onlyGivenNames x
       first
       | (refine Keeps.cut (x := x) (fun hx => ?_) ?_; (on_goal 1 => clear_value x)
          (on_goal 2 => (unfold x; clear x)))
       | (refine Keeps.cut (x := x.2) (fun hx => ?_) ?_; (on_goal 1 => clear_value x)
          (on_goal 2 => (unfold x; clear x)))
       | clear_value x)
    | with_reducible apply Keeps.refl
    | with_reducible apply Keeps.ite
    | with_reducible apply Keeps.then_ (keep_updTxlPort ..)
    | with_reducible apply Keeps.then_ (keep_judgeTxl ..)
    | decide
    | (beta_reduce; split)

theorem frame_safeFrameForward (p : Fin 2) :
    Kept [.txl, .safe] (.safeFrameForward p) := by
  intro s s' e
  change execSafeFrameForward p s = .next s' at e
  unfold execSafeFrameForward at e
  injection e with e
  subst e
  repeat' first
    | with_reducible assumption
    | (extract_lets -merge +onlyGivenNames x
       first
       | (refine Keeps.cut (x := x) (fun hx => ?_) ?_; (on_goal 1 => clear_value x)
          (on_goal 2 => (unfold x; clear x)))
       | (refine Keeps.cut (x := x.2) (fun hx => ?_) ?_; (on_goal 1 => clear_value x)
          (on_goal 2 => (unfold x; clear x)))
       | (have t : _ → State := x; clear t; subst x)
       | (have t : _ → _ → State := x; clear t; subst x)
       | (have t : _ → _ → Display := x; clear t; subst x)
       | clear_value x)
    | with_reducible apply Keeps.refl
    | with_reducible apply Keeps.ite
    | (beta_reduce; split)
    | with_reducible apply Keeps.upd_txl
    | with_reducible apply Keeps.upd_safe
    | with_reducible apply Keeps.upd_all
    | (with_reducible apply Or.inl; decide)
    | (with_reducible apply Or.inr; with_reducible rfl)
    | (with_reducible apply Or.inr; rfl)
    | exact fun h => h
    | exact fun _ h => h
    | (intro _ hd; split <;> exact hd)
    | decide

theorem frame_safeTelegramCycle  :
    Kept [.txl, .safe, .locker] .safeTelegramCycle := by
  intro s s' e
  change execSafeTelegramCycle s = .next s' at e
  unfold execSafeTelegramCycle at e
  injection e with e
  subst e
  repeat' first
    | with_reducible assumption
    | (extract_lets -merge +onlyGivenNames x
       first
       | (refine Keeps.cut (x := x) (fun hx => ?_) ?_; (on_goal 1 => clear_value x)
          (on_goal 2 => (unfold x; clear x)))
       | (refine Keeps.cut (x := x.2) (fun hx => ?_) ?_; (on_goal 1 => clear_value x)
          (on_goal 2 => (unfold x; clear x)))
       | clear_value x)
    | with_reducible apply Keeps.refl
    | with_reducible apply Keeps.ite
    | with_reducible apply Keeps.then_ (keep_sendTxl ..)
    | split
    | with_reducible apply Keeps.upd_safe
    | decide

theorem frame_safeCopyReceived (p ch : Fin 2) :
    Kept [.sxChannel, .sxCell, .sxStage, .sxAux, .sxLaw, .sxRest, .outlet, .rdr, .lkOut, .lkOutlet, .lkLatch,
        .lkRest, .txl, .safe, .wrk, .log, .flt] (.safeCopyReceived p ch) := by
  intro s s' e
  change execSafeCopyReceived p ch s = .next s' at e
  unfold execSafeCopyReceived at e
  injection e with e
  subst e
  repeat' first
    | with_reducible assumption
    | (extract_lets -merge +onlyGivenNames x
       first
       | (refine Keeps.cut (x := x) (fun hx => ?_) ?_; (on_goal 1 => clear_value x)
          (on_goal 2 => (unfold x; clear x)))
       | (refine Keeps.cut (x := x.2) (fun hx => ?_) ?_; (on_goal 1 => clear_value x)
          (on_goal 2 => (unfold x; clear x)))
       | (have t : List Part := x; clear t; subst x)
       | clear_value x)
    | with_reducible apply Keeps.refl
    | with_reducible apply Keeps.ite
    | with_reducible apply Keeps.then_ (keep_settle ..)
    | with_reducible apply Keeps.then_ (keep_updChan ..)
    | with_reducible apply Keeps.then_ (keep_takeCopy ..)
    | decide
    | (beta_reduce; split)

theorem frame_safePairTimeout (k : Fin 16) :
    Kept [.safe, .log] (.safePairTimeout k) := by
  intro s s' e
  change execSafePairTimeout k s = .next s' at e
  unfold execSafePairTimeout at e
  injection e with e
  subst e
  repeat' first
    | with_reducible assumption
    | (extract_lets -merge +onlyGivenNames x
       first
       | (refine Keeps.cut (x := x) (fun hx => ?_) ?_; (on_goal 1 => clear_value x)
          (on_goal 2 => (unfold x; clear x)))
       | (refine Keeps.cut (x := x.2) (fun hx => ?_) ?_; (on_goal 1 => clear_value x)
          (on_goal 2 => (unfold x; clear x)))
       | clear_value x)
    | with_reducible apply Keeps.refl
    | with_reducible apply Keeps.then_ (keep_pairTimeout ..)
    | decide

theorem frame_safeWatchdogExpiry (k : Fin 16) :
    Kept [.sxChannel, .sxCell, .sxStage, .sxAux, .sxLaw, .sxRest, .outlet, .rdr, .lkOut, .lkOutlet, .lkLatch,
        .lkRest, .safe, .wrk, .log, .flt] (.safeWatchdogExpiry k) := by
  intro s s' e
  change execSafeWatchdogExpiry k s = .next s' at e
  unfold execSafeWatchdogExpiry at e
  injection e with e
  subst e
  repeat' first
    | with_reducible assumption
    | (extract_lets -merge +onlyGivenNames x
       first
       | (refine Keeps.cut (x := x) (fun hx => ?_) ?_; (on_goal 1 => clear_value x)
          (on_goal 2 => (unfold x; clear x)))
       | (refine Keeps.cut (x := x.2) (fun hx => ?_) ?_; (on_goal 1 => clear_value x)
          (on_goal 2 => (unfold x; clear x)))
       | (have t : _ → State := x; clear t; subst x)
       | (have t : _ → _ → State := x; clear t; subst x)
       | (have t : _ → _ → Display := x; clear t; subst x)
       | clear_value x)
    | with_reducible apply Keeps.refl
    | with_reducible apply Keeps.ite
    | with_reducible apply Keeps.then_ (keep_settle ..)
    | with_reducible apply Keeps.then_ (keep_updChan ..)
    | decide
    | (beta_reduce; split)

theorem frame_safeFallbackEngage (lost : Fin 2) :
    Kept [.safe, .log, .flt] (.safeFallbackEngage lost) := by
  intro s s' e
  change execSafeFallbackEngage lost s = .next s' at e
  unfold execSafeFallbackEngage at e
  injection e with e
  subst e
  repeat' first
    | with_reducible assumption
    | (extract_lets -merge +onlyGivenNames x
       first
       | (refine Keeps.cut (x := x) (fun hx => ?_) ?_; (on_goal 1 => clear_value x)
          (on_goal 2 => (unfold x; clear x)))
       | (refine Keeps.cut (x := x.2) (fun hx => ?_) ?_; (on_goal 1 => clear_value x)
          (on_goal 2 => (unfold x; clear x)))
       | clear_value x)
    | with_reducible apply Keeps.refl
    | with_reducible apply Keeps.ite
    | with_reducible apply Keeps.then_ (keep_logDetect ..)
    | split
    | with_reducible apply Keeps.upd_safe
    | decide

theorem frame_safeFallbackEnd  :
    Kept [.safe, .log, .flt] .safeFallbackEnd := by
  intro s s' e
  change execSafeFallbackEnd s = .next s' at e
  unfold execSafeFallbackEnd at e
  injection e with e
  subst e
  repeat' first
    | with_reducible assumption
    | (extract_lets -merge +onlyGivenNames x
       first
       | (refine Keeps.cut (x := x) (fun hx => ?_) ?_; (on_goal 1 => clear_value x)
          (on_goal 2 => (unfold x; clear x)))
       | (refine Keeps.cut (x := x.2) (fun hx => ?_) ?_; (on_goal 1 => clear_value x)
          (on_goal 2 => (unfold x; clear x)))
       | clear_value x)
    | with_reducible apply Keeps.refl
    | with_reducible apply Keeps.ite
    | with_reducible apply Keeps.then_ (keep_logClear ..)
    | split
    | with_reducible apply Keeps.upd_safe
    | decide

theorem frame_singleTExpiry  :
    Kept [.safe] .singleTExpiry := by
  intro s s' e
  change execSingleTExpiry s = .next s' at e
  unfold execSingleTExpiry at e
  injection e with e
  subst e
  repeat' first
    | with_reducible assumption
    | (extract_lets -merge +onlyGivenNames x
       first
       | (refine Keeps.cut (x := x) (fun hx => ?_) ?_; (on_goal 1 => clear_value x)
          (on_goal 2 => (unfold x; clear x)))
       | (refine Keeps.cut (x := x.2) (fun hx => ?_) ?_; (on_goal 1 => clear_value x)
          (on_goal 2 => (unfold x; clear x)))
       | clear_value x)
    | with_reducible apply Keeps.refl
    | with_reducible apply Keeps.ite
    | split
    | with_reducible apply Keeps.upd_safe
    | decide

theorem frame_beaconSend  :
    Kept [.txl, .mgr, .locker] .beaconSend := by
  intro s s' e
  change execBeaconSend s = .next s' at e
  unfold execBeaconSend at e
  injection e with e
  subst e
  repeat' first
    | with_reducible assumption
    | (extract_lets -merge +onlyGivenNames x
       first
       | (refine Keeps.cut (x := x) (fun hx => ?_) ?_; (on_goal 1 => clear_value x)
          (on_goal 2 => (unfold x; clear x)))
       | (refine Keeps.cut (x := x.2) (fun hx => ?_) ?_; (on_goal 1 => clear_value x)
          (on_goal 2 => (unfold x; clear x)))
       | clear_value x)
    | with_reducible apply Keeps.refl
    | with_reducible apply Keeps.ite
    | with_reducible apply Keeps.then_ (keep_sendBeacon ..)
    | split
    | with_reducible apply Keeps.upd_mgr
    | decide

theorem frame_ptpMessage (p : Fin 2) (domain : Nat) (m : PtpMessage) :
    Kept [.txl] (.ptpMessage p domain m) := by
  intro s s' e
  change execPtpMessage p domain m s = .next s' at e
  unfold execPtpMessage at e
  injection e with e
  subst e
  repeat' first
    | with_reducible assumption
    | (extract_lets -merge +onlyGivenNames x
       first
       | (refine Keeps.cut (x := x) (fun hx => ?_) ?_; (on_goal 1 => clear_value x)
          (on_goal 2 => (unfold x; clear x)))
       | (refine Keeps.cut (x := x.2) (fun hx => ?_) ?_; (on_goal 1 => clear_value x)
          (on_goal 2 => (unfold x; clear x)))
       | clear_value x)
    | with_reducible apply Keeps.refl
    | with_reducible apply Keeps.ite
    | with_reducible apply Keeps.then_ (keep_takePtp ..)
    | with_reducible apply Keeps.then_ (keep_usePtpPort ..)
    | decide
    | split

theorem frame_ptpAnnounceTimeout  :
    Kept [.txl] .ptpAnnounceTimeout := by
  intro s s' e
  change execPtpAnnounceTimeout s = .next s' at e
  unfold execPtpAnnounceTimeout at e
  injection e with e
  subst e
  repeat' first
    | with_reducible assumption
    | (extract_lets -merge +onlyGivenNames x
       first
       | (refine Keeps.cut (x := x) (fun hx => ?_) ?_; (on_goal 1 => clear_value x)
          (on_goal 2 => (unfold x; clear x)))
       | (refine Keeps.cut (x := x.2) (fun hx => ?_) ?_; (on_goal 1 => clear_value x)
          (on_goal 2 => (unfold x; clear x)))
       | clear_value x)
    | with_reducible apply Keeps.refl
    | with_reducible apply Keeps.ite
    | with_reducible apply Keeps.then_ (keep_usePtpPort ..)
    | decide
    | split

theorem frame_ptpSyncTimeout  :
    Kept [.txl] .ptpSyncTimeout := by
  intro s s' e
  change execPtpSyncTimeout s = .next s' at e
  unfold execPtpSyncTimeout at e
  injection e with e
  subst e
  repeat' first
    | with_reducible assumption
    | (extract_lets -merge +onlyGivenNames x
       first
       | (refine Keeps.cut (x := x) (fun hx => ?_) ?_; (on_goal 1 => clear_value x)
          (on_goal 2 => (unfold x; clear x)))
       | (refine Keeps.cut (x := x.2) (fun hx => ?_) ?_; (on_goal 1 => clear_value x)
          (on_goal 2 => (unfold x; clear x)))
       | clear_value x)
    | with_reducible apply Keeps.refl
    | with_reducible apply Keeps.ite
    | with_reducible apply Keeps.then_ (keep_updPtp ..)
    | with_reducible apply Keeps.then_ (keep_setLocked ..)
    | decide
    | (beta_reduce; split)

theorem frame_networkServiceRequest (p : Fin 2) (r : NetRequest) :
    Kept [.txl] (.networkServiceRequest p r) := by
  intro s s' e
  change execNetworkServiceRequest p r s = .next s' at e
  unfold execNetworkServiceRequest at e
  injection e with e
  subst e
  repeat' first
    | with_reducible assumption
    | (extract_lets -merge +onlyGivenNames x
       first
       | (refine Keeps.cut (x := x) (fun hx => ?_) ?_; (on_goal 1 => clear_value x)
          (on_goal 2 => (unfold x; clear x)))
       | (refine Keeps.cut (x := x.2) (fun hx => ?_) ?_; (on_goal 1 => clear_value x)
          (on_goal 2 => (unfold x; clear x)))
       | clear_value x)
    | with_reducible apply Keeps.refl
    | with_reducible apply Keeps.ite
    | split
    | with_reducible apply Keeps.upd_txl
    | decide

end Sys2Proof.Machine
end

