-- ==== Sys2Proof/Laws/FrameLandfall.lean ====
section
/-!
SUPPORT. What each operation and command of Machine/Landfall.lean leaves unchanged.
-/
namespace Sys2Proof.Machine

set_option linter.unreachableTactic false
set_option linter.unusedTactic false
set_option linter.tactic.unusedName false

theorem keep_lookoutReset (s : State) :
    Keeps [.lkIn, .lkOutlet, .lkRest, .safe] s (lookoutReset s) := by
  unfold lookoutReset
  repeat' first
    | with_reducible assumption
    | (extract_lets -merge +onlyGivenNames x
       first
       | (refine Keeps.cut (x := x) (fun hx => ?_) ?_; (on_goal 1 => clear_value x)
          (on_goal 2 => (unfold x; clear x)))
       | (refine Keeps.cut (x := x.2) (fun hx => ?_) ?_; (on_goal 1 => clear_value x)
          (on_goal 2 => (unfold x; clear x)))
       | (have t : Lookout := x; clear t; subst x)
       | (have t : _ → State := x; clear t; subst x)
       | (have t : _ → _ → State := x; clear t; subst x)
       | (have t : _ → _ → Display := x; clear t; subst x)
       | clear_value x)
    | with_reducible apply Keeps.refl
    | with_reducible apply Keeps.upd_lk
    | with_reducible apply Keeps.upd_safe
    | with_reducible apply Keeps.upd_all
    | (with_reducible apply Or.inl; decide)
    | (with_reducible apply Or.inr; with_reducible rfl)
    | (with_reducible apply Or.inr; rfl)
    | exact fun h => h
    | exact fun _ h => h
    | (intro _ hd; split <;> exact hd)
    | decide

theorem keep_meridianReset (s : State) :
    Keeps [.merChr, .merRest] s (meridianReset s) := by
  unfold meridianReset
  repeat' first
    | with_reducible assumption
    | (extract_lets -merge +onlyGivenNames x
       first
       | (refine Keeps.cut (x := x) (fun hx => ?_) ?_; (on_goal 1 => clear_value x)
          (on_goal 2 => (unfold x; clear x)))
       | (refine Keeps.cut (x := x.2) (fun hx => ?_) ?_; (on_goal 1 => clear_value x)
          (on_goal 2 => (unfold x; clear x)))
       | (have t : Meridian := x; clear t; subst x)
       | clear_value x)
    | with_reducible apply Keeps.refl
    | with_reducible apply Keeps.ite
    | split
    | with_reducible apply Keeps.upd_mer
    | (with_reducible apply Or.inl; decide)
    | (with_reducible apply Or.inr; with_reducible rfl)
    | (with_reducible apply Or.inr; rfl)
    | exact fun h => h
    | exact fun _ h => h
    | (intro _ hd; split <;> exact hd)
    | exact fun h => sparsePut_wf h _ _
    | exact fun _ h => sparsePut_wf h _ _
    | decide

theorem keep_enterChartHold (s : State) :
    Keeps [.landfall, .log, .flt] s (enterChartHold s) := by
  unfold enterChartHold
  repeat' first
    | with_reducible assumption
    | (extract_lets -merge +onlyGivenNames x
       first
       | (refine Keeps.cut (x := x) (fun hx => ?_) ?_; (on_goal 1 => clear_value x)
          (on_goal 2 => (unfold x; clear x)))
       | (refine Keeps.cut (x := x.2) (fun hx => ?_) ?_; (on_goal 1 => clear_value x)
          (on_goal 2 => (unfold x; clear x)))
       | clear_value x)
    | with_reducible apply Keeps.refl
    | with_reducible apply Keeps.then_ (keep_logDetect ..)
    | with_reducible apply Keeps.then_ (keep_updLandfall ..)
    | decide

theorem keep_useSnapshot (s : State) :
    Keeps [.landfall, .chart, .cfg, .fw, .log, .flt] s (useSnapshot s) := by
  unfold useSnapshot
  repeat' first
    | with_reducible assumption
    | (extract_lets -merge +onlyGivenNames x
       first
       | (refine Keeps.cut (x := x) (fun hx => ?_) ?_; (on_goal 1 => clear_value x)
          (on_goal 2 => (unfold x; clear x)))
       | (refine Keeps.cut (x := x.2) (fun hx => ?_) ?_; (on_goal 1 => clear_value x)
          (on_goal 2 => (unfold x; clear x)))
       | clear_value x)
    | with_reducible apply Keeps.refl
    | with_reducible apply Keeps.ite
    | with_reducible apply Keeps.then_ (keep_logMasked ..)
    | with_reducible apply Keeps.then_ (keep_useChart ..)
    | with_reducible apply Keeps.then_ (keep_enterChartHold ..)
    | decide
    | split

theorem keep_weighChart (s : State) (slotB : Bool) (c : Bytes) :
    Keeps [.landfall, .chart, .cfg, .fw, .log, .flt] s (weighChart s slotB c) := by
  unfold weighChart
  repeat' first
    | with_reducible assumption
    | (extract_lets -merge +onlyGivenNames x
       first
       | (refine Keeps.cut (x := x) (fun hx => ?_) ?_; (on_goal 1 => clear_value x)
          (on_goal 2 => (unfold x; clear x)))
       | (refine Keeps.cut (x := x.2) (fun hx => ?_) ?_; (on_goal 1 => clear_value x)
          (on_goal 2 => (unfold x; clear x)))
       | clear_value x)
    | with_reducible apply Keeps.refl
    | with_reducible apply Keeps.ite
    | with_reducible apply Keeps.then_ (keep_writeSnapshot ..)
    | with_reducible apply Keeps.then_ (keep_updLandfall ..)
    | with_reducible apply Keeps.then_ (keep_useChart ..)
    | with_reducible apply Keeps.then_ (keep_rejectChart ..)
    | with_reducible apply Keeps.then_ (keep_useSnapshot ..)
    | decide
    | (beta_reduce; split)

theorem keep_sextantMissing (s : State) :
    Keeps [.landfall] s (sextantMissing s) := by
  unfold sextantMissing
  repeat' first
    | with_reducible assumption
    | (extract_lets -merge +onlyGivenNames x
       first
       | (refine Keeps.cut (x := x) (fun hx => ?_) ?_; (on_goal 1 => clear_value x)
          (on_goal 2 => (unfold x; clear x)))
       | (refine Keeps.cut (x := x.2) (fun hx => ?_) ?_; (on_goal 1 => clear_value x)
          (on_goal 2 => (unfold x; clear x)))
       | clear_value x)
    | with_reducible apply Keeps.refl
    | with_reducible apply Keeps.ite
    | with_reducible apply Keeps.then_ (keep_updLandfall ..)
    | decide
    | (beta_reduce; split)

theorem keep_losePaths (s : State) (paths : BitVec 5) :
    Keeps [.landfall, .txl, .ll, .log, .flt] s (losePaths s paths) := by
  unfold losePaths
  repeat' first
    | with_reducible assumption
    | (extract_lets -merge +onlyGivenNames x
       first
       | (refine Keeps.cut (x := x) (fun hx => ?_) ?_; (on_goal 1 => clear_value x)
          (on_goal 2 => (unfold x; clear x)))
       | (refine Keeps.cut (x := x.2) (fun hx => ?_) ?_; (on_goal 1 => clear_value x)
          (on_goal 2 => (unfold x; clear x)))
       | clear_value x)
    | with_reducible apply Keeps.refl
    | with_reducible apply Keeps.ite
    | with_reducible apply Keeps.then_ (keep_logDetect ..)
    | with_reducible apply Keeps.then_ (keep_pathLost ..)
    | with_reducible apply Keeps.then_ (keep_updLandfall ..)
    | (beta_reduce; split)
    | with_reducible apply Keeps.upd_ll
    | decide

theorem keep_scrubAll (s : State) (upsets : List (Fin 128 × TagUpsets)) :
    Keeps [.locker, .log, .flt] s (scrubAll s upsets) := by
  unfold scrubAll
  repeat' first
    | with_reducible assumption
    | (extract_lets -merge +onlyGivenNames x
       first
       | (refine Keeps.cut (x := x) (fun hx => ?_) ?_; (on_goal 1 => clear_value x)
          (on_goal 2 => (unfold x; clear x)))
       | (refine Keeps.cut (x := x.2) (fun hx => ?_) ?_; (on_goal 1 => clear_value x)
          (on_goal 2 => (unfold x; clear x)))
       | clear_value x)
    | with_reducible apply Keeps.refl
    | with_reducible apply Keeps.then_ (keep_checkTag ..)
    | (with_reducible apply Keeps.foldl; on_goal 2 => intros)
    | decide

theorem keep_selfTestNews (s : State) (failed : BitVec 8) (ant : Vector AntLoad 3) (paths : BitVec 5) :
    Keeps [.landfall, .outlet, .rdr, .merLeg, .disp, .txl, .ll, .log, .flt] s (selfTestNews s failed ant paths) := by
  unfold selfTestNews
  repeat' first
    | with_reducible assumption
    | (extract_lets -merge +onlyGivenNames x
       first
       | (refine Keeps.cut (x := x) (fun hx => ?_) ?_; (on_goal 1 => clear_value x)
          (on_goal 2 => (unfold x; clear x)))
       | (refine Keeps.cut (x := x.2) (fun hx => ?_) ?_; (on_goal 1 => clear_value x)
          (on_goal 2 => (unfold x; clear x)))
       | clear_value x)
    | with_reducible apply Keeps.refl
    | with_reducible apply Keeps.ite
    | with_reducible apply Keeps.then_ (keep_logDetect ..)
    | with_reducible apply Keeps.then_ (keep_raiseDisp ..)
    | with_reducible apply Keeps.then_ (keep_endDisp ..)
    | with_reducible apply Keeps.then_ (keep_updLandfall ..)
    | with_reducible apply Keeps.then_ (keep_losePaths ..)
    | (with_reducible apply Keeps.foldl; on_goal 2 => intros)
    | (beta_reduce; split)
    | with_reducible apply Keeps.upd_rdr
    | exact fun h => h
    | exact fun _ h => h
    | (intro _ hd; split <;> exact hd)
    | decide

theorem frame_porstRise  :
    Kept [.landfall] .porstRise := by
  intro s s' e
  change execPorstRise s = .next s' at e
  unfold execPorstRise at e
  injection e with e
  subst e
  repeat' first
    | with_reducible assumption
    | (extract_lets -merge +onlyGivenNames x
       first
       | (refine Keeps.cut (x := x) (fun hx => ?_) ?_; (on_goal 1 => clear_value x)
          (on_goal 2 => (unfold x; clear x)))
       | (refine Keeps.cut (x := x.2) (fun hx => ?_) ?_; (on_goal 1 => clear_value x)
          (on_goal 2 => (unfold x; clear x)))
       | clear_value x)
    | with_reducible apply Keeps.refl
    | with_reducible apply Keeps.then_ (keep_updLandfall ..)
    | decide

theorem frame_porstFall  :
    Kept ([Part.free, Part.landfall, Part.chart, Part.cfg, Part.sxChannel, Part.sxCell, Part.sxStage, Part.sxAux,
        Part.sxSd, Part.sxLaw, Part.sxFix, Part.sxCount, Part.sxRest, Part.outlet, Part.cooling] ++ [Part.drive,
        Part.rdr, Part.merChr, Part.merRest, Part.disp, Part.lkIn, Part.lkOut, Part.lkOutlet, Part.lkLatch,
        Part.lkRest, Part.txl, Part.safe, Part.ll, Part.mgr, Part.wrk] ++ [Part.hostSessions, Part.hostOps,
        Part.hostJournal, Part.hostRest, Part.locker, Part.fw, Part.tamper, Part.log, Part.flt, Part.pwr])
        .porstFall := by
  intro s s' e
  change execPorstFall s = .next s' at e
  unfold execPorstFall at e
  injection e with e
  subst e
  repeat' first
    | with_reducible assumption
    | (extract_lets -merge +onlyGivenNames x
       first
       | (refine Keeps.cut (x := x) (fun hx => ?_) ?_; (on_goal 1 => clear_value x)
          (on_goal 2 => (unfold x; clear x)))
       | (refine Keeps.cut (x := x.2) (fun hx => ?_) ?_; (on_goal 1 => clear_value x)
          (on_goal 2 => (unfold x; clear x)))
       | (have t : List Part := x; clear t; subst x)
       | clear_value x)
    | with_reducible apply Keeps.refl
    | with_reducible apply Keeps.ite
    | with_reducible apply Keeps.then_ (keep_settle ..)
    | with_reducible apply Keeps.then_ (keep_updLandfall ..)
    | with_reducible apply Keeps.then_ (keep_diesReset ..)
    | with_reducible apply Keeps.then_ (keep_lookoutReset ..)
    | with_reducible apply Keeps.then_ (keep_meridianReset ..)
    | decide
    | (beta_reduce; split)

theorem frame_coreSupplyDip (rail : CoreRail) (uV : Nat) :
    Kept ([Part.free, Part.landfall, Part.chart, Part.cfg, Part.sxChannel, Part.sxCell, Part.sxStage, Part.sxAux,
        Part.sxSd, Part.sxLaw, Part.sxFix, Part.sxCount, Part.sxRest, Part.outlet, Part.cooling] ++ [Part.drive,
        Part.rdr, Part.merLeg, Part.merChr, Part.merTar, Part.disp, Part.lkOut, Part.lkOutlet, Part.lkLatch,
        Part.lkRest, Part.txl, Part.ll, Part.mgr, Part.wrk, Part.hostSessions] ++ [Part.hostOps, Part.hostJournal,
        Part.hostRest, Part.locker, Part.fw, Part.tamper, Part.log, Part.flt, Part.pwr]) (.coreSupplyDip rail uV) :=
        by
  intro s s' e
  change execCoreSupplyDip rail uV s = .next s' at e
  unfold execCoreSupplyDip at e
  injection e with e
  subst e
  repeat' first
    | with_reducible assumption
    | (extract_lets -merge +onlyGivenNames x
       first
       | (refine Keeps.cut (x := x) (fun hx => ?_) ?_; (on_goal 1 => clear_value x)
          (on_goal 2 => (unfold x; clear x)))
       | (refine Keeps.cut (x := x.2) (fun hx => ?_) ?_; (on_goal 1 => clear_value x)
          (on_goal 2 => (unfold x; clear x)))
       | (have t : List Part := x; clear t; subst x)
       | (have t : Lookout := x; clear t; subst x)
       | clear_value x)
    | with_reducible apply Keeps.refl
    | with_reducible apply Keeps.ite
    | with_reducible apply Keeps.then_ (keep_logDetect ..)
    | with_reducible apply Keeps.then_ (keep_noteRail ..)
    | with_reducible apply Keeps.then_ (keep_excursion ..)
    | with_reducible apply Keeps.then_ (keep_settle ..)
    | with_reducible apply Keeps.then_ (keep_leaveLaidUp ..)
    | with_reducible apply Keeps.then_ (keep_updLandfall ..)
    | with_reducible apply Keeps.then_ (keep_diesReset ..)
    | with_reducible apply Keeps.then_ (keep_forgetHolsters ..)
    | split
    | with_reducible apply Keeps.upd_lk
    | (with_reducible apply Or.inl; decide)
    | (with_reducible apply Or.inr; with_reducible rfl)
    | (with_reducible apply Or.inr; rfl)
    | decide

theorem frame_coreSupplyReturn (rail : CoreRail) (uV : Nat) :
    Kept [.landfall, .log, .flt, .pwr] (.coreSupplyReturn rail uV) := by
  intro s s' e
  change execCoreSupplyReturn rail uV s = .next s' at e
  unfold execCoreSupplyReturn at e
  injection e with e
  subst e
  repeat' first
    | with_reducible assumption
    | (extract_lets -merge +onlyGivenNames x
       first
       | (refine Keeps.cut (x := x) (fun hx => ?_) ?_; (on_goal 1 => clear_value x)
          (on_goal 2 => (unfold x; clear x)))
       | (refine Keeps.cut (x := x.2) (fun hx => ?_) ?_; (on_goal 1 => clear_value x)
          (on_goal 2 => (unfold x; clear x)))
       | clear_value x)
    | with_reducible apply Keeps.refl
    | with_reducible apply Keeps.ite
    | with_reducible apply Keeps.then_ (keep_logClear ..)
    | with_reducible apply Keeps.then_ (keep_noteRail ..)
    | with_reducible apply Keeps.then_ (keep_updLandfall ..)
    | split
    | with_reducible apply Keeps.upd_flt
    | decide

theorem frame_lookoutRailDip (ch : Fin 2) (uV : Nat) :
    Kept [.sxChannel, .sxCell, .sxStage, .sxAux, .sxLaw, .sxRest, .outlet, .rdr, .lkOut, .lkOutlet, .lkLatch,
        .lkRest, .safe, .wrk, .log, .flt, .pwr] (.lookoutRailDip ch uV) := by
  intro s s' e
  change execLookoutRailDip ch uV s = .next s' at e
  unfold execLookoutRailDip at e
  injection e with e
  subst e
  repeat' first
    | with_reducible assumption
    | (extract_lets -merge +onlyGivenNames x
       first
       | (refine Keeps.cut (x := x) (fun hx => ?_) ?_; (on_goal 1 => clear_value x)
          (on_goal 2 => (unfold x; clear x)))
       | (refine Keeps.cut (x := x.2) (fun hx => ?_) ?_; (on_goal 1 => clear_value x)
          (on_goal 2 => (unfold x; clear x)))
       | (have t : List Part := x; clear t; subst x)
       | (have t : Lookout := x; clear t; subst x)
       | clear_value x)
    | with_reducible apply Keeps.refl
    | with_reducible apply Keeps.ite
    | with_reducible apply Keeps.then_ (keep_logDetect ..)
    | with_reducible apply Keeps.then_ (keep_noteRail ..)
    | with_reducible apply Keeps.then_ (keep_excursion ..)
    | with_reducible apply Keeps.then_ (keep_settle ..)
    | with_reducible apply Keeps.then_ (keep_clearChan ..)
    | split
    | with_reducible apply Keeps.upd_lk
    | (with_reducible apply Or.inl; decide)
    | (with_reducible apply Or.inr; with_reducible rfl)
    | (with_reducible apply Or.inr; rfl)
    | decide

theorem frame_helmRestartEarly  :
    Kept ([Part.landfall, Part.chart, Part.cfg, Part.sxChannel, Part.sxCell, Part.sxStage, Part.sxAux, Part.sxSd,
        Part.sxLaw, Part.sxFix, Part.sxCount, Part.sxRest, Part.outlet, Part.rdr, Part.disp] ++ [Part.lkOut,
        Part.lkOutlet, Part.lkLatch, Part.lkRest, Part.ll, Part.mgr, Part.wrk, Part.hostSessions, Part.hostOps,
        Part.hostJournal, Part.hostRest, Part.locker, Part.fw, Part.log, Part.flt]) .helmRestartEarly := by
  intro s s' e
  change execHelmRestartEarly s = .next s' at e
  unfold execHelmRestartEarly at e
  injection e with e
  subst e
  repeat' first
    | with_reducible assumption
    | (extract_lets -merge +onlyGivenNames x
       first
       | (refine Keeps.cut (x := x) (fun hx => ?_) ?_; (on_goal 1 => clear_value x)
          (on_goal 2 => (unfold x; clear x)))
       | (refine Keeps.cut (x := x.2) (fun hx => ?_) ?_; (on_goal 1 => clear_value x)
          (on_goal 2 => (unfold x; clear x)))
       | (have t : List Part := x; clear t; subst x)
       | clear_value x)
    | with_reducible apply Keeps.refl
    | with_reducible apply Keeps.ite
    | with_reducible apply Keeps.then_ (keep_landfallRestart ..)
    | decide
    | split

theorem frame_lookoutChannelsRunning (imgA imgB : ImageChoice) :
    Kept [.landfall, .sxChannel, .sxCell, .sxStage, .sxAux, .sxLaw, .sxRest, .outlet, .rdr, .lkOut, .lkOutlet,
        .lkLatch, .lkRest, .safe, .wrk, .fw, .log, .flt] (.lookoutChannelsRunning imgA imgB) := by
  intro s s' e
  change execLookoutChannelsRunning imgA imgB s = .next s' at e
  unfold execLookoutChannelsRunning at e
  injection e with e
  subst e
  repeat' first
    | with_reducible assumption
    | (extract_lets -merge +onlyGivenNames x
       first
       | (refine Keeps.cut (x := x) (fun hx => ?_) ?_; (on_goal 1 => clear_value x)
          (on_goal 2 => (unfold x; clear x)))
       | (refine Keeps.cut (x := x.2) (fun hx => ?_) ?_; (on_goal 1 => clear_value x)
          (on_goal 2 => (unfold x; clear x)))
       | (have t : List Part := x; clear t; subst x)
       | (have t : Lookout := x; clear t; subst x)
       | clear_value x)
    | with_reducible apply Keeps.refl
    | with_reducible apply Keeps.ite
    | with_reducible apply Keeps.then_ (keep_settle ..)
    | with_reducible apply Keeps.then_ (keep_updFw ..)
    | with_reducible apply Keeps.then_ (keep_bootImage ..)
    | with_reducible apply Keeps.then_ (keep_clearChan ..)
    | with_reducible apply Keeps.then_ (keep_updLandfall ..)
    | (beta_reduce; split)
    | with_reducible apply Keeps.upd_lk
    | (with_reducible apply Or.inl; decide)
    | (with_reducible apply Or.inr; with_reducible rfl)
    | (with_reducible apply Or.inr; rfl)
    | decide

theorem frame_meridianMeteringStart (img : ImageChoice) :
    Kept ([Part.landfall, Part.sxChannel, Part.sxCell, Part.sxStage, Part.sxAux, Part.sxLaw, Part.sxRest,
        Part.outlet, Part.rdr, Part.merFe, Part.merLeg, Part.merChr, Part.merTar, Part.merRest, Part.lkOut] ++
        [Part.lkOutlet, Part.lkLatch, Part.lkRest, Part.wrk, Part.fw, Part.log, Part.flt]) (.meridianMeteringStart
        img) := by
  intro s s' e
  change execMeridianMeteringStart img s = .next s' at e
  unfold execMeridianMeteringStart at e
  injection e with e
  subst e
  repeat' first
    | with_reducible assumption
    | (extract_lets -merge +onlyGivenNames x
       first
       | (refine Keeps.cut (x := x) (fun hx => ?_) ?_; (on_goal 1 => clear_value x)
          (on_goal 2 => (unfold x; clear x)))
       | (refine Keeps.cut (x := x.2) (fun hx => ?_) ?_; (on_goal 1 => clear_value x)
          (on_goal 2 => (unfold x; clear x)))
       | (have t : List Part := x; clear t; subst x)
       | clear_value x)
    | with_reducible apply Keeps.refl
    | with_reducible apply Keeps.ite
    | with_reducible apply Keeps.then_ (keep_settle ..)
    | with_reducible apply Keeps.then_ (keep_startMeridian ..)
    | with_reducible apply Keeps.then_ (keep_meridianBack ..)
    | with_reducible apply Keeps.then_ (keep_updLandfall ..)
    | decide
    | (beta_reduce; split)

theorem frame_helmFirmwareStarted (img : ImageChoice) (role : Fin 4) :
    Kept ([Part.landfall, Part.sxChannel, Part.sxCell, Part.sxStage, Part.sxAux, Part.sxSd, Part.sxLaw, Part.sxFix,
        Part.sxCount, Part.sxRest, Part.outlet, Part.rdr, Part.lkOut, Part.lkOutlet, Part.lkLatch] ++ [Part.lkRest,
        Part.txl, Part.wrk, Part.locker, Part.fw, Part.tamper, Part.log, Part.flt]) (.helmFirmwareStarted img role)
        := by
  intro s s' e
  change execHelmFirmwareStarted img role s = .next s' at e
  unfold execHelmFirmwareStarted at e
  injection e with e
  subst e
  repeat' first
    | with_reducible assumption
    | (extract_lets -merge +onlyGivenNames x
       first
       | (refine Keeps.cut (x := x) (fun hx => ?_) ?_; (on_goal 1 => clear_value x)
          (on_goal 2 => (unfold x; clear x)))
       | (refine Keeps.cut (x := x.2) (fun hx => ?_) ?_; (on_goal 1 => clear_value x)
          (on_goal 2 => (unfold x; clear x)))
       | (have t : List Part := x; clear t; subst x)
       | clear_value x)
    | with_reducible apply Keeps.refl
    | with_reducible apply Keeps.ite
    | with_reducible apply Keeps.then_ (keep_startHelm ..)
    | decide
    | split

theorem frame_helmBootRetry (img : ImageChoice) (role : Fin 4) :
    Kept ([Part.landfall, Part.sxChannel, Part.sxCell, Part.sxStage, Part.sxAux, Part.sxSd, Part.sxLaw, Part.sxFix,
        Part.sxCount, Part.sxRest, Part.outlet, Part.rdr, Part.lkOut, Part.lkOutlet, Part.lkLatch] ++ [Part.lkRest,
        Part.txl, Part.wrk, Part.locker, Part.fw, Part.tamper, Part.log, Part.flt]) (.helmBootRetry img role) := by
  intro s s' e
  change execHelmBootRetry img role s = .next s' at e
  unfold execHelmBootRetry at e
  injection e with e
  subst e
  repeat' first
    | with_reducible assumption
    | (extract_lets -merge +onlyGivenNames x
       first
       | (refine Keeps.cut (x := x) (fun hx => ?_) ?_; (on_goal 1 => clear_value x)
          (on_goal 2 => (unfold x; clear x)))
       | (refine Keeps.cut (x := x.2) (fun hx => ?_) ?_; (on_goal 1 => clear_value x)
          (on_goal 2 => (unfold x; clear x)))
       | (have t : List Part := x; clear t; subst x)
       | clear_value x)
    | with_reducible apply Keeps.refl
    | with_reducible apply Keeps.ite
    | with_reducible apply Keeps.then_ (keep_startHelm ..)
    | decide
    | split

theorem frame_chartSourceChosen (answers sigOk : Bool) :
    Kept [.landfall, .chart, .cfg, .fw, .log, .flt] (.chartSourceChosen answers sigOk) := by
  intro s s' e
  change execChartSourceChosen answers sigOk s = .next s' at e
  unfold execChartSourceChosen at e
  injection e with e
  subst e
  repeat' first
    | with_reducible assumption
    | (extract_lets -merge +onlyGivenNames x
       first
       | (refine Keeps.cut (x := x) (fun hx => ?_) ?_; (on_goal 1 => clear_value x)
          (on_goal 2 => (unfold x; clear x)))
       | (refine Keeps.cut (x := x.2) (fun hx => ?_) ?_; (on_goal 1 => clear_value x)
          (on_goal 2 => (unfold x; clear x)))
       | clear_value x)
    | with_reducible apply Keeps.refl
    | with_reducible apply Keeps.ite
    | with_reducible apply Keeps.then_ (keep_reportUnknown ..)
    | with_reducible apply Keeps.then_ (keep_rejectChart ..)
    | with_reducible apply Keeps.then_ (keep_useSnapshot ..)
    | with_reducible apply Keeps.then_ (keep_weighChart ..)
    | decide
    | split

theorem frame_sextantImageLoaded (img : ImageChoice) :
    Kept [.landfall, .sxRest, .fw] (.sextantImageLoaded img) := by
  intro s s' e
  change execSextantImageLoaded img s = .next s' at e
  unfold execSextantImageLoaded at e
  injection e with e
  subst e
  repeat' first
    | with_reducible assumption
    | (extract_lets -merge +onlyGivenNames x
       first
       | (refine Keeps.cut (x := x) (fun hx => ?_) ?_; (on_goal 1 => clear_value x)
          (on_goal 2 => (unfold x; clear x)))
       | (refine Keeps.cut (x := x.2) (fun hx => ?_) ?_; (on_goal 1 => clear_value x)
          (on_goal 2 => (unfold x; clear x)))
       | (have t : Sextant := x; clear t; subst x)
       | clear_value x)
    | with_reducible apply Keeps.refl
    | with_reducible apply Keeps.ite
    | with_reducible apply Keeps.then_ (keep_bootImage ..)
    | with_reducible apply Keeps.then_ (keep_updLandfall ..)
    | with_reducible apply Keeps.then_ (keep_sextantMissing ..)
    | (beta_reduce; split)
    | with_reducible apply Keeps.upd_sx
    | (with_reducible apply Or.inl; decide)
    | (with_reducible apply Or.inr; with_reducible rfl)
    | (with_reducible apply Or.inr; rfl)
    | decide

theorem frame_chartSectionsDistributed  :
    Kept [.landfall, .chart, .sxChannel, .sxCell, .sxStage, .sxAux, .sxLaw, .sxRest, .outlet, .rdr, .com, .lkOut,
        .lkOutlet, .lkLatch, .lkRest, .mgr, .wrk, .tamper, .log, .flt] .chartSectionsDistributed := by
  intro s s' e
  change execChartSectionsDistributed s = .next s' at e
  unfold execChartSectionsDistributed at e
  injection e with e
  subst e
  repeat' first
    | with_reducible assumption
    | (extract_lets -merge +onlyGivenNames x
       first
       | (refine Keeps.cut (x := x) (fun hx => ?_) ?_; (on_goal 1 => clear_value x)
          (on_goal 2 => (unfold x; clear x)))
       | (refine Keeps.cut (x := x.2) (fun hx => ?_) ?_; (on_goal 1 => clear_value x)
          (on_goal 2 => (unfold x; clear x)))
       | (have t : List Part := x; clear t; subst x)
       | clear_value x)
    | with_reducible apply Keeps.refl
    | with_reducible apply Keeps.ite
    | with_reducible apply Keeps.then_ (keep_settle ..)
    | with_reducible apply Keeps.then_ (keep_updLandfall ..)
    | with_reducible apply Keeps.then_ (keep_distribute ..)
    | decide
    | (beta_reduce; split)

theorem frame_hostReady  :
    Kept ([Part.landfall, Part.sxChannel, Part.sxCell, Part.sxStage, Part.sxAux, Part.sxLaw, Part.sxRest,
        Part.outlet, Part.rdr, Part.merMail, Part.lkOut, Part.lkOutlet, Part.lkLatch, Part.lkRest, Part.txl] ++
        [Part.ll, Part.mgr, Part.wrk, Part.hostRest, Part.log, Part.flt]) .hostReady := by
  intro s s' e
  change execHostReady s = .next s' at e
  unfold execHostReady at e
  injection e with e
  subst e
  repeat' first
    | with_reducible assumption
    | (extract_lets -merge +onlyGivenNames x
       first
       | (refine Keeps.cut (x := x) (fun hx => ?_) ?_; (on_goal 1 => clear_value x)
          (on_goal 2 => (unfold x; clear x)))
       | (refine Keeps.cut (x := x.2) (fun hx => ?_) ?_; (on_goal 1 => clear_value x)
          (on_goal 2 => (unfold x; clear x)))
       | (have t : List Part := x; clear t; subst x)
       | (have t : HostIf := x; clear t; subst x)
       | clear_value x)
    | with_reducible apply Keeps.refl
    | with_reducible apply Keeps.ite
    | with_reducible apply Keeps.then_ (keep_settle ..)
    | with_reducible apply Keeps.then_ (keep_loadLinkKey ..)
    | with_reducible apply Keeps.then_ (keep_stopActing ..)
    | with_reducible apply Keeps.then_ (keep_setAlloc ..)
    | with_reducible apply Keeps.then_ (keep_updLandfall ..)
    | with_reducible apply Keeps.then_ (keep_resumeOutlets ..)
    | (beta_reduce; split)
    | with_reducible apply Keeps.upd_host
    | (with_reducible apply Or.inl; decide)
    | (with_reducible apply Or.inr; with_reducible rfl)
    | (with_reducible apply Or.inr; rfl)
    | decide

theorem frame_selfTestsComplete (failed : BitVec 8) (ant : Vector AntLoad 3) (paths : BitVec 5) (upsets : List (Fin
    128 × TagUpsets)) :
    Kept ([Part.landfall, Part.sxChannel, Part.sxCell, Part.sxStage, Part.sxAux, Part.sxLaw, Part.sxRest,
        Part.outlet, Part.rdr, Part.merLeg, Part.disp, Part.lkOut, Part.lkOutlet, Part.lkLatch, Part.lkRest] ++
        [Part.txl, Part.ll, Part.wrk, Part.locker, Part.log, Part.flt]) (.selfTestsComplete failed ant paths upsets)
        := by
  intro s s' e
  change execSelfTestsComplete failed ant paths upsets s = .next s' at e
  unfold execSelfTestsComplete at e
  injection e with e
  subst e
  repeat' first
    | with_reducible assumption
    | (extract_lets -merge +onlyGivenNames x
       first
       | (refine Keeps.cut (x := x) (fun hx => ?_) ?_; (on_goal 1 => clear_value x)
          (on_goal 2 => (unfold x; clear x)))
       | (refine Keeps.cut (x := x.2) (fun hx => ?_) ?_; (on_goal 1 => clear_value x)
          (on_goal 2 => (unfold x; clear x)))
       | (have t : List Part := x; clear t; subst x)
       | clear_value x)
    | with_reducible apply Keeps.refl
    | with_reducible apply Keeps.ite
    | with_reducible apply Keeps.then_ (keep_settle ..)
    | with_reducible apply Keeps.then_ (keep_updLandfall ..)
    | with_reducible apply Keeps.then_ (keep_scrubAll ..)
    | with_reducible apply Keeps.then_ (keep_selfTestNews ..)
    | decide
    | (beta_reduce; split)

theorem frame_landfallComplete  :
    Kept [.landfall, .sxChannel, .sxCell, .sxStage, .sxAux, .sxLaw, .sxRest, .outlet, .rdr, .lkOut, .lkOutlet,
        .lkLatch, .lkRest, .mgr, .wrk, .log, .flt, .pwr] .landfallComplete := by
  intro s s' e
  change execLandfallComplete s = .next s' at e
  unfold execLandfallComplete at e
  injection e with e
  subst e
  repeat' first
    | with_reducible assumption
    | (extract_lets -merge +onlyGivenNames x
       first
       | (refine Keeps.cut (x := x) (fun hx => ?_) ?_; (on_goal 1 => clear_value x)
          (on_goal 2 => (unfold x; clear x)))
       | (refine Keeps.cut (x := x.2) (fun hx => ?_) ?_; (on_goal 1 => clear_value x)
          (on_goal 2 => (unfold x; clear x)))
       | (have t : List Part := x; clear t; subst x)
       | clear_value x)
    | with_reducible apply Keeps.refl
    | with_reducible apply Keeps.ite
    | with_reducible apply Keeps.then_ (keep_clearFaults ..)
    | with_reducible apply Keeps.then_ (keep_settle ..)
    | with_reducible apply Keeps.then_ (keep_updLandfall ..)
    | (beta_reduce; split)
    | with_reducible apply Keeps.upd_mgr
    | with_reducible apply Keeps.upd_pwr
    | with_reducible apply Keeps.upd_all
    | (with_reducible apply Or.inl; decide)
    | (with_reducible apply Or.inr; with_reducible rfl)
    | (with_reducible apply Or.inr; rfl)
    | exact fun h => h
    | exact fun _ h => h
    | (intro _ hd; split <;> exact hd)
    | decide

end Sys2Proof.Machine
end

