-- ==== Sys2Proof/Laws/FrameReader.lean ====
section
/-!
SUPPORT. What each operation and command of Machine/Reader.lean leaves unchanged.
-/
namespace Sys2Proof.Machine

set_option linter.unreachableTactic false
set_option linter.unusedTactic false
set_option linter.tactic.unusedName false

theorem keep_missReading (s : State) (o : Fin 2) (k : Fin 7) (tstat : Nat) :
    Keeps [.rdr] s (missReading s o k tstat) := by
  unfold missReading
  repeat' first
    | with_reducible assumption
    | (extract_lets -merge +onlyGivenNames x
       first
       | (refine Keeps.cut (x := x) (fun hx => ?_) ?_; (on_goal 1 => clear_value x)
          (on_goal 2 => (unfold x; clear x)))
       | (refine Keeps.cut (x := x.2) (fun hx => ?_) ?_; (on_goal 1 => clear_value x)
          (on_goal 2 => (unfold x; clear x)))
       | clear_value x)
    | with_reducible apply Keeps.refl
    | with_reducible apply Keeps.then_ (keep_updPort ..)
    | with_reducible apply Keeps.upd_rdr
    | decide

theorem keep_cutCycle (s : State) (o : Fin 2) :
    Keeps [.rdr] s (cutCycle s o) := by
  unfold cutCycle
  repeat' first
    | with_reducible assumption
    | (extract_lets -merge +onlyGivenNames x
       first
       | (refine Keeps.cut (x := x) (fun hx => ?_) ?_; (on_goal 1 => clear_value x)
          (on_goal 2 => (unfold x; clear x)))
       | (refine Keeps.cut (x := x.2) (fun hx => ?_) ?_; (on_goal 1 => clear_value x)
          (on_goal 2 => (unfold x; clear x)))
       | clear_value x)
    | with_reducible apply Keeps.refl
    | with_reducible apply Keeps.then_ (keep_updPort ..)
    | with_reducible apply Keeps.then_ (keep_missReading ..)
    | (with_reducible apply Keeps.foldl; on_goal 2 => intros)
    | decide
    | (beta_reduce; split)

theorem keep_closeWindow (s : State) :
    Keeps [.rdr] s (closeWindow s) := by
  unfold closeWindow
  repeat' first
    | with_reducible assumption
    | (extract_lets -merge +onlyGivenNames x
       first
       | (refine Keeps.cut (x := x) (fun hx => ?_) ?_; (on_goal 1 => clear_value x)
          (on_goal 2 => (unfold x; clear x)))
       | (refine Keeps.cut (x := x.2) (fun hx => ?_) ?_; (on_goal 1 => clear_value x)
          (on_goal 2 => (unfold x; clear x)))
       | clear_value x)
    | with_reducible apply Keeps.refl
    | with_reducible apply Keeps.then_ (keep_cutCycle ..)
    | with_reducible apply Keeps.upd_rdr
    | decide

theorem keep_openWindow (s : State) (p : Fin 3) :
    Keeps [.rdr] s (openWindow s p) := by
  unfold openWindow
  repeat' first
    | with_reducible assumption
    | (extract_lets -merge +onlyGivenNames x
       first
       | (refine Keeps.cut (x := x) (fun hx => ?_) ?_; (on_goal 1 => clear_value x)
          (on_goal 2 => (unfold x; clear x)))
       | (refine Keeps.cut (x := x.2) (fun hx => ?_) ?_; (on_goal 1 => clear_value x)
          (on_goal 2 => (unfold x; clear x)))
       | clear_value x)
    | with_reducible apply Keeps.refl
    | with_reducible apply Keeps.ite
    | with_reducible apply Keeps.then_ (keep_closeWindow ..)
    | split
    | with_reducible apply Keeps.upd_rdr
    | decide

theorem keep_query (s : State) (o : Fin 2) (confirming : Bool) :
    Keeps [.rdr] s (query s o confirming) := by
  unfold query
  repeat' first
    | with_reducible assumption
    | (extract_lets -merge +onlyGivenNames x
       first
       | (refine Keeps.cut (x := x) (fun hx => ?_) ?_; (on_goal 1 => clear_value x)
          (on_goal 2 => (unfold x; clear x)))
       | (refine Keeps.cut (x := x.2) (fun hx => ?_) ?_; (on_goal 1 => clear_value x)
          (on_goal 2 => (unfold x; clear x)))
       | clear_value x)
    | with_reducible apply Keeps.refl
    | with_reducible apply Keeps.ite
    | with_reducible apply Keeps.then_ (keep_updPort ..)
    | with_reducible apply Keeps.then_ (keep_sendTag ..)
    | decide
    | (beta_reduce; split)

theorem keep_endFrame (s : State) (o : Fin 2) :
    Keeps [.rdr] s (endFrame s o) := by
  unfold endFrame
  repeat' first
    | with_reducible assumption
    | (extract_lets -merge +onlyGivenNames x
       first
       | (refine Keeps.cut (x := x) (fun hx => ?_) ?_; (on_goal 1 => clear_value x)
          (on_goal 2 => (unfold x; clear x)))
       | (refine Keeps.cut (x := x.2) (fun hx => ?_) ?_; (on_goal 1 => clear_value x)
          (on_goal 2 => (unfold x; clear x)))
       | clear_value x)
    | with_reducible apply Keeps.refl
    | with_reducible apply Keeps.ite
    | with_reducible apply Keeps.then_ (keep_updPort ..)
    | decide
    | (beta_reduce; split)

theorem keep_nextSlot (s : State) (o : Fin 2) (sent : Bool) :
    Keeps [.rdr] s (nextSlot s o sent) := by
  unfold nextSlot
  repeat' first
    | with_reducible assumption
    | (extract_lets -merge +onlyGivenNames x
       first
       | (refine Keeps.cut (x := x) (fun hx => ?_) ?_; (on_goal 1 => clear_value x)
          (on_goal 2 => (unfold x; clear x)))
       | (refine Keeps.cut (x := x.2) (fun hx => ?_) ?_; (on_goal 1 => clear_value x)
          (on_goal 2 => (unfold x; clear x)))
       | clear_value x)
    | with_reducible apply Keeps.refl
    | with_reducible apply Keeps.ite
    | with_reducible apply Keeps.then_ (keep_updPort ..)
    | with_reducible apply Keeps.then_ (keep_sendTag ..)
    | with_reducible apply Keeps.then_ (keep_query ..)
    | with_reducible apply Keeps.then_ (keep_endFrame ..)
    | decide
    | (beta_reduce; split)

theorem keep_haltTag (s : State) (o : Fin 2) (ident : Nat) :
    Keeps [.rdr] s (haltTag s o ident) := by
  unfold haltTag
  repeat' first
    | with_reducible assumption
    | (extract_lets -merge +onlyGivenNames x
       first
       | (refine Keeps.cut (x := x) (fun hx => ?_) ?_; (on_goal 1 => clear_value x)
          (on_goal 2 => (unfold x; clear x)))
       | (refine Keeps.cut (x := x.2) (fun hx => ?_) ?_; (on_goal 1 => clear_value x)
          (on_goal 2 => (unfold x; clear x)))
       | clear_value x)
    | with_reducible apply Keeps.refl
    | with_reducible apply Keeps.ite
    | with_reducible apply Keeps.then_ (keep_updPort ..)
    | with_reducible apply Keeps.then_ (keep_sendTag ..)
    | decide
    | (beta_reduce; split)

theorem keep_takeBranch (s : State) (o : Fin 2) (b : Branch) (rest : List Branch) :
    Keeps [.rdr] s (takeBranch s o b rest) := by
  unfold takeBranch
  repeat' first
    | with_reducible assumption
    | (extract_lets -merge +onlyGivenNames x
       first
       | (refine Keeps.cut (x := x) (fun hx => ?_) ?_; (on_goal 1 => clear_value x)
          (on_goal 2 => (unfold x; clear x)))
       | (refine Keeps.cut (x := x.2) (fun hx => ?_) ?_; (on_goal 1 => clear_value x)
          (on_goal 2 => (unfold x; clear x)))
       | clear_value x)
    | with_reducible apply Keeps.refl
    | with_reducible apply Keeps.then_ (keep_updPort ..)
    | with_reducible apply Keeps.then_ (keep_sendTag ..)
    | decide

theorem keep_nextBranch (s : State) (o : Fin 2) :
    Keeps [.rdr] s (nextBranch s o) := by
  unfold nextBranch
  repeat' first
    | with_reducible assumption
    | (extract_lets -merge +onlyGivenNames x
       first
       | (refine Keeps.cut (x := x) (fun hx => ?_) ?_; (on_goal 1 => clear_value x)
          (on_goal 2 => (unfold x; clear x)))
       | (refine Keeps.cut (x := x.2) (fun hx => ?_) ?_; (on_goal 1 => clear_value x)
          (on_goal 2 => (unfold x; clear x)))
       | clear_value x)
    | with_reducible apply Keeps.refl
    | with_reducible apply Keeps.ite
    | with_reducible apply Keeps.then_ (keep_updPort ..)
    | with_reducible apply Keeps.then_ (keep_nextSlot ..)
    | with_reducible apply Keeps.then_ (keep_takeBranch ..)
    | decide
    | (beta_reduce; split)

theorem keep_splitAt (s : State) (o : Fin 2) (k bits : Nat) :
    Keeps [.rdr] s (splitAt s o k bits) := by
  unfold splitAt
  repeat' first
    | with_reducible assumption
    | (extract_lets -merge +onlyGivenNames x
       first
       | (refine Keeps.cut (x := x) (fun hx => ?_) ?_; (on_goal 1 => clear_value x)
          (on_goal 2 => (unfold x; clear x)))
       | (refine Keeps.cut (x := x.2) (fun hx => ?_) ?_; (on_goal 1 => clear_value x)
          (on_goal 2 => (unfold x; clear x)))
       | clear_value x)
    | with_reducible apply Keeps.refl
    | with_reducible apply Keeps.then_ (keep_takeBranch ..)
    | decide

theorem keep_dropSlot (s : State) (o : Fin 2) :
    Keeps [.rdr] s (dropSlot s o) := by
  unfold dropSlot
  repeat' first
    | with_reducible assumption
    | (extract_lets -merge +onlyGivenNames x
       first
       | (refine Keeps.cut (x := x) (fun hx => ?_) ?_; (on_goal 1 => clear_value x)
          (on_goal 2 => (unfold x; clear x)))
       | (refine Keeps.cut (x := x.2) (fun hx => ?_) ?_; (on_goal 1 => clear_value x)
          (on_goal 2 => (unfold x; clear x)))
       | clear_value x)
    | with_reducible apply Keeps.refl
    | with_reducible apply Keeps.then_ (keep_updPort ..)
    | with_reducible apply Keeps.then_ (keep_nextSlot ..)
    | decide

theorem keep_noteColl (s : State) (o : Fin 2) :
    Keeps [.rdr] s (noteColl s o) := by
  unfold noteColl
  repeat' first
    | with_reducible assumption
    | (extract_lets -merge +onlyGivenNames x
       first
       | (refine Keeps.cut (x := x) (fun hx => ?_) ?_; (on_goal 1 => clear_value x)
          (on_goal 2 => (unfold x; clear x)))
       | (refine Keeps.cut (x := x.2) (fun hx => ?_) ?_; (on_goal 1 => clear_value x)
          (on_goal 2 => (unfold x; clear x)))
       | clear_value x)
    | with_reducible apply Keeps.refl
    | with_reducible apply Keeps.then_ (keep_updPort ..)
    | decide

theorem keep_readNext (s : State) (o : Fin 2) :
    Keeps [.rdr] s (readNext s o) := by
  unfold readNext
  repeat' first
    | with_reducible assumption
    | (extract_lets -merge +onlyGivenNames x
       first
       | (refine Keeps.cut (x := x) (fun hx => ?_) ?_; (on_goal 1 => clear_value x)
          (on_goal 2 => (unfold x; clear x)))
       | (refine Keeps.cut (x := x.2) (fun hx => ?_) ?_; (on_goal 1 => clear_value x)
          (on_goal 2 => (unfold x; clear x)))
       | clear_value x)
    | with_reducible apply Keeps.refl
    | with_reducible apply Keeps.ite
    | with_reducible apply Keeps.then_ (keep_updPort ..)
    | with_reducible apply Keeps.then_ (keep_sendTag ..)
    | decide
    | (beta_reduce; split)

theorem keep_enterCableCheck (s : State) (o : Fin 2) :
    Keeps [.outlet] s (enterCableCheck s o) := by
  unfold enterCableCheck
  repeat' first
    | with_reducible assumption
    | (extract_lets -merge +onlyGivenNames x
       first
       | (refine Keeps.cut (x := x) (fun hx => ?_) ?_; (on_goal 1 => clear_value x)
          (on_goal 2 => (unfold x; clear x)))
       | (refine Keeps.cut (x := x.2) (fun hx => ?_) ?_; (on_goal 1 => clear_value x)
          (on_goal 2 => (unfold x; clear x)))
       | clear_value x)
    | with_reducible apply Keeps.refl
    | with_reducible apply Keeps.ite
    | with_reducible apply Keeps.then_ (keep_updOutlet ..)
    | with_reducible apply Keeps.then_ (keep_enter ..)
    | decide
    | (beta_reduce; split)

theorem keep_judgeCable (s : State) (o : Fin 2) :
    Keeps [.sxChannel, .sxCell, .sxStage, .sxAux, .sxRest, .outlet, .rdr, .lkOut, .lkOutlet, .lkRest, .wrk, .log,
        .flt] s (judgeCable s o) := by
  unfold judgeCable
  repeat' first
    | with_reducible assumption
    | (extract_lets -merge +onlyGivenNames x
       first
       | (refine Keeps.cut (x := x) (fun hx => ?_) ?_; (on_goal 1 => clear_value x)
          (on_goal 2 => (unfold x; clear x)))
       | (refine Keeps.cut (x := x.2) (fun hx => ?_) ?_; (on_goal 1 => clear_value x)
          (on_goal 2 => (unfold x; clear x)))
       | clear_value x)
    | with_reducible apply Keeps.refl
    | with_reducible apply Keeps.ite
    | with_reducible apply Keeps.then_ (keep_updOutlet ..)
    | with_reducible apply Keeps.then_ (keep_proceedCable ..)
    | with_reducible apply Keeps.then_ (keep_outletFault ..)
    | decide
    | (beta_reduce; split)

theorem keep_measureFrom (s : State) (o : Fin 2) (k : Nat) :
    Keeps [.rdr] s (measureFrom s o k) := by
  unfold measureFrom
  repeat' first
    | with_reducible assumption
    | (extract_lets -merge +onlyGivenNames x
       first
       | (refine Keeps.cut (x := x) (fun hx => ?_) ?_; (on_goal 1 => clear_value x)
          (on_goal 2 => (unfold x; clear x)))
       | (refine Keeps.cut (x := x.2) (fun hx => ?_) ?_; (on_goal 1 => clear_value x)
          (on_goal 2 => (unfold x; clear x)))
       | clear_value x)
    | with_reducible apply Keeps.refl
    | with_reducible apply Keeps.then_ (keep_updPort ..)
    | with_reducible apply Keeps.then_ (keep_sendAll ..)
    | decide
    | (beta_reduce; split)

theorem keep_passReading (s : State) (o : Fin 2) (k : Fin 7) :
    Keeps [.sxCell, .sxStage, .sxLaw, .sxRest, .outlet, .cooling, .wrk, .log, .flt] s (passReading s o k) := by
  unfold passReading
  repeat' first
    | with_reducible assumption
    | (extract_lets -merge +onlyGivenNames x
       first
       | (refine Keeps.cut (x := x) (fun hx => ?_) ?_; (on_goal 1 => clear_value x)
          (on_goal 2 => (unfold x; clear x)))
       | (refine Keeps.cut (x := x.2) (fun hx => ?_) ?_; (on_goal 1 => clear_value x)
          (on_goal 2 => (unfold x; clear x)))
       | clear_value x)
    | with_reducible apply Keeps.refl
    | with_reducible apply Keeps.ite
    | with_reducible apply Keeps.then_ (keep_coolInput ..)
    | decide
    | split

theorem keep_doneSensor (s : State) (o : Fin 2) (k : Fin 7) :
    Keeps [.rdr] s (doneSensor s o k) := by
  unfold doneSensor
  repeat' first
    | with_reducible assumption
    | (extract_lets -merge +onlyGivenNames x
       first
       | (refine Keeps.cut (x := x) (fun hx => ?_) ?_; (on_goal 1 => clear_value x)
          (on_goal 2 => (unfold x; clear x)))
       | (refine Keeps.cut (x := x.2) (fun hx => ?_) ?_; (on_goal 1 => clear_value x)
          (on_goal 2 => (unfold x; clear x)))
       | clear_value x)
    | with_reducible apply Keeps.refl
    | with_reducible apply Keeps.then_ (keep_sendTag ..)
    | with_reducible apply Keeps.then_ (keep_measureFrom ..)
    | decide

theorem keep_noReading (s : State) (o : Fin 2) (k : Fin 7) :
    Keeps [.rdr] s (noReading s o k) := by
  unfold noReading
  repeat' first
    | with_reducible assumption
    | (extract_lets -merge +onlyGivenNames x
       first
       | (refine Keeps.cut (x := x) (fun hx => ?_) ?_; (on_goal 1 => clear_value x)
          (on_goal 2 => (unfold x; clear x)))
       | (refine Keeps.cut (x := x.2) (fun hx => ?_) ?_; (on_goal 1 => clear_value x)
          (on_goal 2 => (unfold x; clear x)))
       | clear_value x)
    | with_reducible apply Keeps.refl
    | with_reducible apply Keeps.ite
    | with_reducible apply Keeps.then_ (keep_updPort ..)
    | with_reducible apply Keeps.then_ (keep_sendAll ..)
    | with_reducible apply Keeps.then_ (keep_missReading ..)
    | with_reducible apply Keeps.then_ (keep_measureFrom ..)
    | decide
    | (beta_reduce; split)

theorem keep_strongField (s : State) :
    Keeps [.rdr] s (strongField s) := by
  unfold strongField
  repeat' first
    | with_reducible assumption
    | (extract_lets -merge +onlyGivenNames x
       first
       | (refine Keeps.cut (x := x) (fun hx => ?_) ?_; (on_goal 1 => clear_value x)
          (on_goal 2 => (unfold x; clear x)))
       | (refine Keeps.cut (x := x.2) (fun hx => ?_) ?_; (on_goal 1 => clear_value x)
          (on_goal 2 => (unfold x; clear x)))
       | clear_value x)
    | with_reducible apply Keeps.refl
    | with_reducible apply Keeps.upd_rdr
    | decide

theorem keep_startMate (s : State) (o : Fin 2) :
    Keeps [.rdr] s (startMate s o) := by
  unfold startMate
  repeat' first
    | with_reducible assumption
    | (extract_lets -merge +onlyGivenNames x
       first
       | (refine Keeps.cut (x := x) (fun hx => ?_) ?_; (on_goal 1 => clear_value x)
          (on_goal 2 => (unfold x; clear x)))
       | (refine Keeps.cut (x := x.2) (fun hx => ?_) ?_; (on_goal 1 => clear_value x)
          (on_goal 2 => (unfold x; clear x)))
       | clear_value x)
    | with_reducible apply Keeps.refl
    | with_reducible apply Keeps.then_ (keep_updPort ..)
    | with_reducible apply Keeps.then_ (keep_sendAll ..)
    | decide
    | (beta_reduce; split)

theorem keep_askReadback (s : State) (o : Fin 2) :
    Keeps [.rdr] s (askReadback s o) := by
  unfold askReadback
  repeat' first
    | with_reducible assumption
    | (extract_lets -merge +onlyGivenNames x
       first
       | (refine Keeps.cut (x := x) (fun hx => ?_) ?_; (on_goal 1 => clear_value x)
          (on_goal 2 => (unfold x; clear x)))
       | (refine Keeps.cut (x := x.2) (fun hx => ?_) ?_; (on_goal 1 => clear_value x)
          (on_goal 2 => (unfold x; clear x)))
       | clear_value x)
    | with_reducible apply Keeps.refl
    | with_reducible apply Keeps.then_ (keep_sendAll ..)
    | decide

theorem keep_windowWork (s : State) (o : Fin 2) :
    Keeps [.rdr] s (windowWork s o) := by
  unfold windowWork
  repeat' first
    | with_reducible assumption
    | (extract_lets -merge +onlyGivenNames x
       first
       | (refine Keeps.cut (x := x) (fun hx => ?_) ?_; (on_goal 1 => clear_value x)
          (on_goal 2 => (unfold x; clear x)))
       | (refine Keeps.cut (x := x.2) (fun hx => ?_) ?_; (on_goal 1 => clear_value x)
          (on_goal 2 => (unfold x; clear x)))
       | clear_value x)
    | with_reducible apply Keeps.refl
    | with_reducible apply Keeps.ite
    | with_reducible apply Keeps.then_ (keep_updPort ..)
    | with_reducible apply Keeps.then_ (keep_query ..)
    | with_reducible apply Keeps.then_ (keep_readNext ..)
    | with_reducible apply Keeps.then_ (keep_measureFrom ..)
    | with_reducible apply Keeps.then_ (keep_startMate ..)
    | with_reducible apply Keeps.then_ (keep_askReadback ..)
    | decide
    | (beta_reduce; split)

theorem keep_logWrite (s : State) (o : Fin 2) (report : Nat) :
    Keeps [.log] s (logWrite s o report) := by
  unfold logWrite
  repeat' first
    | with_reducible assumption
    | (extract_lets -merge +onlyGivenNames x
       first
       | (refine Keeps.cut (x := x) (fun hx => ?_) ?_; (on_goal 1 => clear_value x)
          (on_goal 2 => (unfold x; clear x)))
       | (refine Keeps.cut (x := x.2) (fun hx => ?_) ?_; (on_goal 1 => clear_value x)
          (on_goal 2 => (unfold x; clear x)))
       | clear_value x)
    | with_reducible apply Keeps.refl
    | with_reducible apply Keeps.then_ (keep_logRec ..)
    | decide

theorem keep_endWrite (s : State) (o : Fin 2) (report : Nat) (written : Bool) :
    Keeps [.rdr] s (endWrite s o report written) := by
  unfold endWrite
  repeat' first
    | with_reducible assumption
    | (extract_lets -merge +onlyGivenNames x
       first
       | (refine Keeps.cut (x := x) (fun hx => ?_) ?_; (on_goal 1 => clear_value x)
          (on_goal 2 => (unfold x; clear x)))
       | (refine Keeps.cut (x := x.2) (fun hx => ?_) ?_; (on_goal 1 => clear_value x)
          (on_goal 2 => (unfold x; clear x)))
       | clear_value x)
    | with_reducible apply Keeps.refl
    | with_reducible apply Keeps.ite
    | with_reducible apply Keeps.then_ (keep_updPort ..)
    | decide
    | (beta_reduce; split)

theorem keep_unconfirm (s : State) (o : Fin 2) :
    Keeps [.rdr, .log] s (unconfirm s o) := by
  unfold unconfirm
  repeat' first
    | with_reducible assumption
    | (extract_lets -merge +onlyGivenNames x
       first
       | (refine Keeps.cut (x := x) (fun hx => ?_) ?_; (on_goal 1 => clear_value x)
          (on_goal 2 => (unfold x; clear x)))
       | (refine Keeps.cut (x := x.2) (fun hx => ?_) ?_; (on_goal 1 => clear_value x)
          (on_goal 2 => (unfold x; clear x)))
       | clear_value x)
    | with_reducible apply Keeps.refl
    | with_reducible apply Keeps.ite
    | with_reducible apply Keeps.then_ (keep_updPort ..)
    | with_reducible apply Keeps.then_ (keep_askReadback ..)
    | with_reducible apply Keeps.then_ (keep_logWrite ..)
    | (beta_reduce; split)
    | with_reducible apply Keeps.upd_rdr
    | decide

theorem keep_missReadback (s : State) (o : Fin 2) :
    Keeps [.rdr, .log] s (missReadback s o) := by
  unfold missReadback
  repeat' first
    | with_reducible assumption
    | (extract_lets -merge +onlyGivenNames x
       first
       | (refine Keeps.cut (x := x) (fun hx => ?_) ?_; (on_goal 1 => clear_value x)
          (on_goal 2 => (unfold x; clear x)))
       | (refine Keeps.cut (x := x.2) (fun hx => ?_) ?_; (on_goal 1 => clear_value x)
          (on_goal 2 => (unfold x; clear x)))
       | clear_value x)
    | with_reducible apply Keeps.refl
    | with_reducible apply Keeps.ite
    | with_reducible apply Keeps.then_ (keep_updPort ..)
    | with_reducible apply Keeps.then_ (keep_askReadback ..)
    | with_reducible apply Keeps.then_ (keep_logWrite ..)
    | with_reducible apply Keeps.then_ (keep_endWrite ..)
    | decide
    | (beta_reduce; split)

theorem keep_sendPad (s : State) (l : List Bytes) :
    Keeps [.rdr] s (sendPad s l) := by
  unfold sendPad
  repeat' first
    | with_reducible assumption
    | (extract_lets -merge +onlyGivenNames x
       first
       | (refine Keeps.cut (x := x) (fun hx => ?_) ?_; (on_goal 1 => clear_value x)
          (on_goal 2 => (unfold x; clear x)))
       | (refine Keeps.cut (x := x.2) (fun hx => ?_) ?_; (on_goal 1 => clear_value x)
          (on_goal 2 => (unfold x; clear x)))
       | clear_value x)
    | with_reducible apply Keeps.refl
    | with_reducible apply Keeps.upd_rdr
    | decide

theorem frame_readerCycleStart  :
    Kept [.rdr] .readerCycleStart := by
  intro s s' e
  change execReaderCycleStart s = .next s' at e
  unfold execReaderCycleStart at e
  injection e with e
  subst e
  repeat' first
    | with_reducible assumption
    | (extract_lets -merge +onlyGivenNames x
       first
       | (refine Keeps.cut (x := x) (fun hx => ?_) ?_; (on_goal 1 => clear_value x)
          (on_goal 2 => (unfold x; clear x)))
       | (refine Keeps.cut (x := x.2) (fun hx => ?_) ?_; (on_goal 1 => clear_value x)
          (on_goal 2 => (unfold x; clear x)))
       | clear_value x)
    | with_reducible apply Keeps.refl
    | with_reducible apply Keeps.then_ (keep_closeWindow ..)
    | with_reducible apply Keeps.upd_rdr
    | decide

theorem frame_portWindowStart (p : Fin 3) :
    Kept [.rdr] (.portWindowStart p) := by
  intro s s' e
  change execPortWindowStart p s = .next s' at e
  unfold execPortWindowStart at e
  injection e with e
  subst e
  repeat' first
    | with_reducible assumption
    | (extract_lets -merge +onlyGivenNames x
       first
       | (refine Keeps.cut (x := x) (fun hx => ?_) ?_; (on_goal 1 => clear_value x)
          (on_goal 2 => (unfold x; clear x)))
       | (refine Keeps.cut (x := x.2) (fun hx => ?_) ?_; (on_goal 1 => clear_value x)
          (on_goal 2 => (unfold x; clear x)))
       | clear_value x)
    | with_reducible apply Keeps.refl
    | with_reducible apply Keeps.ite
    | with_reducible apply Keeps.then_ (keep_updPort ..)
    | with_reducible apply Keeps.then_ (keep_openWindow ..)
    | decide
    | (beta_reduce; split)

theorem frame_slotReplyReceived (r : AirReply) :
    Kept [.rdr] (.slotReplyReceived r) := by
  intro s s' e
  change execSlotReplyReceived r s = .next s' at e
  unfold execSlotReplyReceived at e
  injection e with e
  subst e
  repeat' first
    | with_reducible assumption
    | (extract_lets -merge +onlyGivenNames x
       first
       | (refine Keeps.cut (x := x) (fun hx => ?_) ?_; (on_goal 1 => clear_value x)
          (on_goal 2 => (unfold x; clear x)))
       | (refine Keeps.cut (x := x.2) (fun hx => ?_) ?_; (on_goal 1 => clear_value x)
          (on_goal 2 => (unfold x; clear x)))
       | clear_value x)
    | with_reducible apply Keeps.refl
    | with_reducible apply Keeps.ite
    | with_reducible apply Keeps.then_ (keep_countReply ..)
    | with_reducible apply Keeps.then_ (keep_spendCycles ..)
    | with_reducible apply Keeps.then_ (keep_nextSlot ..)
    | with_reducible apply Keeps.then_ (keep_haltTag ..)
    | with_reducible apply Keeps.then_ (keep_splitAt ..)
    | with_reducible apply Keeps.then_ (keep_dropSlot ..)
    | with_reducible apply Keeps.then_ (keep_noteColl ..)
    | split
    | with_reducible apply Keeps.upd_rdr
    | decide

theorem frame_slotEmpty  :
    Kept [.rdr] .slotEmpty := by
  intro s s' e
  change execSlotEmpty s = .next s' at e
  unfold execSlotEmpty at e
  injection e with e
  subst e
  repeat' first
    | with_reducible assumption
    | (extract_lets -merge +onlyGivenNames x
       first
       | (refine Keeps.cut (x := x) (fun hx => ?_) ?_; (on_goal 1 => clear_value x)
          (on_goal 2 => (unfold x; clear x)))
       | (refine Keeps.cut (x := x.2) (fun hx => ?_) ?_; (on_goal 1 => clear_value x)
          (on_goal 2 => (unfold x; clear x)))
       | clear_value x)
    | with_reducible apply Keeps.refl
    | with_reducible apply Keeps.ite
    | with_reducible apply Keeps.then_ (keep_updPort ..)
    | with_reducible apply Keeps.then_ (keep_spendCycles ..)
    | with_reducible apply Keeps.then_ (keep_nextSlot ..)
    | with_reducible apply Keeps.then_ (keep_readNext ..)
    | decide
    | (beta_reduce; split)

theorem frame_selectReplyReceived (r : AirReply) :
    Kept [.rdr] (.selectReplyReceived r) := by
  intro s s' e
  change execSelectReplyReceived r s = .next s' at e
  unfold execSelectReplyReceived at e
  injection e with e
  subst e
  repeat' first
    | with_reducible assumption
    | (extract_lets -merge +onlyGivenNames x
       first
       | (refine Keeps.cut (x := x) (fun hx => ?_) ?_; (on_goal 1 => clear_value x)
          (on_goal 2 => (unfold x; clear x)))
       | (refine Keeps.cut (x := x.2) (fun hx => ?_) ?_; (on_goal 1 => clear_value x)
          (on_goal 2 => (unfold x; clear x)))
       | clear_value x)
    | with_reducible apply Keeps.refl
    | with_reducible apply Keeps.ite
    | with_reducible apply Keeps.then_ (keep_countReply ..)
    | with_reducible apply Keeps.then_ (keep_haltTag ..)
    | with_reducible apply Keeps.then_ (keep_nextBranch ..)
    | with_reducible apply Keeps.then_ (keep_splitAt ..)
    | with_reducible apply Keeps.then_ (keep_dropSlot ..)
    | with_reducible apply Keeps.then_ (keep_noteColl ..)
    | decide
    | split

theorem frame_tagReadReply (o : Fin 2) (r : AirReply) :
    Kept [.outlet, .rdr] (.tagReadReply o r) := by
  intro s s' e
  change execTagReadReply o r s = .next s' at e
  unfold execTagReadReply at e
  injection e with e
  subst e
  repeat' first
    | with_reducible assumption
    | (extract_lets -merge +onlyGivenNames x
       first
       | (refine Keeps.cut (x := x) (fun hx => ?_) ?_; (on_goal 1 => clear_value x)
          (on_goal 2 => (unfold x; clear x)))
       | (refine Keeps.cut (x := x.2) (fun hx => ?_) ?_; (on_goal 1 => clear_value x)
          (on_goal 2 => (unfold x; clear x)))
       | clear_value x)
    | with_reducible apply Keeps.refl
    | with_reducible apply Keeps.ite
    | with_reducible apply Keeps.then_ (keep_updPort ..)
    | with_reducible apply Keeps.then_ (keep_countReply ..)
    | with_reducible apply Keeps.then_ (keep_sendTag ..)
    | with_reducible apply Keeps.then_ (keep_readNext ..)
    | with_reducible apply Keeps.then_ (keep_enterCableCheck ..)
    | decide
    | (beta_reduce; split)

theorem frame_sensorMeasureReply (o : Fin 2) (k : Fin 7) (r : AirReply) :
    Kept [.sxChannel, .sxCell, .sxStage, .sxAux, .sxLaw, .sxRest, .outlet, .cooling, .rdr, .lkOut, .lkOutlet,
        .lkRest, .wrk, .log, .flt] (.sensorMeasureReply o k r) := by
  intro s s' e
  change execSensorMeasureReply o k r s = .next s' at e
  unfold execSensorMeasureReply at e
  injection e with e
  subst e
  repeat' first
    | with_reducible assumption
    | (extract_lets -merge +onlyGivenNames x
       first
       | (refine Keeps.cut (x := x) (fun hx => ?_) ?_; (on_goal 1 => clear_value x)
          (on_goal 2 => (unfold x; clear x)))
       | (refine Keeps.cut (x := x.2) (fun hx => ?_) ?_; (on_goal 1 => clear_value x)
          (on_goal 2 => (unfold x; clear x)))
       | clear_value x)
    | with_reducible apply Keeps.refl
    | with_reducible apply Keeps.ite
    | with_reducible apply Keeps.then_ (keep_logDetect ..)
    | with_reducible apply Keeps.then_ (keep_updPort ..)
    | with_reducible apply Keeps.then_ (keep_countReply ..)
    | with_reducible apply Keeps.then_ (keep_missReading ..)
    | with_reducible apply Keeps.then_ (keep_judgeCable ..)
    | with_reducible apply Keeps.then_ (keep_passReading ..)
    | with_reducible apply Keeps.then_ (keep_doneSensor ..)
    | with_reducible apply Keeps.then_ (keep_noReading ..)
    | decide
    | (beta_reduce; split)

theorem frame_tagExchangeNoReply (o : Fin 2) (k : Fin 7) :
    Kept [.rdr] (.tagExchangeNoReply o k) := by
  intro s s' e
  change execTagExchangeNoReply o k s = .next s' at e
  unfold execTagExchangeNoReply at e
  injection e with e
  subst e
  repeat' first
    | with_reducible assumption
    | (extract_lets -merge +onlyGivenNames x
       first
       | (refine Keeps.cut (x := x) (fun hx => ?_) ?_; (on_goal 1 => clear_value x)
          (on_goal 2 => (unfold x; clear x)))
       | (refine Keeps.cut (x := x.2) (fun hx => ?_) ?_; (on_goal 1 => clear_value x)
          (on_goal 2 => (unfold x; clear x)))
       | clear_value x)
    | with_reducible apply Keeps.refl
    | with_reducible apply Keeps.ite
    | with_reducible apply Keeps.then_ (keep_noReading ..)
    | decide
    | split

theorem frame_fieldSettled  :
    Kept [.rdr] .fieldSettled := by
  intro s s' e
  change execFieldSettled s = .next s' at e
  unfold execFieldSettled at e
  injection e with e
  subst e
  repeat' first
    | with_reducible assumption
    | (extract_lets -merge +onlyGivenNames x
       first
       | (refine Keeps.cut (x := x) (fun hx => ?_) ?_; (on_goal 1 => clear_value x)
          (on_goal 2 => (unfold x; clear x)))
       | (refine Keeps.cut (x := x.2) (fun hx => ?_) ?_; (on_goal 1 => clear_value x)
          (on_goal 2 => (unfold x; clear x)))
       | clear_value x)
    | with_reducible apply Keeps.refl
    | with_reducible apply Keeps.ite
    | with_reducible apply Keeps.then_ (keep_windowWork ..)
    | (with_reducible apply Keeps.foldl; on_goal 2 => intros)
    | (beta_reduce; split)
    | with_reducible apply Keeps.upd_rdr
    | decide

theorem frame_tagWriteReply (o : Fin 2) (r : AirReply) :
    Kept [.rdr, .log] (.tagWriteReply o r) := by
  intro s s' e
  change execTagWriteReply o r s = .next s' at e
  unfold execTagWriteReply at e
  injection e with e
  subst e
  refine Keeps.ite ?_ (Keeps.refl _ _)
  extract_lets h t
  have ht : Keeps [.rdr, .log] s t := (keep_countReply s h).mono (by decide)
  clear_value t h
  have he : ∀ n b, Keeps [.rdr, .log] s (logWrite (endWrite t o n b) o n) := fun n b =>
    (ht.trans ((keep_endWrite t o n b).mono (by decide))).trans ((keep_logWrite _ o n).mono (by decide))
  have hn : Keeps [.rdr, .log] s (unconfirm t o) := ht.trans ((keep_unconfirm t o).mono (by decide))
  split
  · split
    · exact ht.trans ((keep_endWrite t o 1 true).mono (by decide))
    · exact he 2 false
    · refine Keeps.ite (he 3 false) ?_
      exact ((ht.trans ((keep_updPort t o _).mono (by decide))).trans ((keep_strongField _).mono (by decide))).trans
        ((keep_sendTag _ _).mono (by decide))
    · exact hn
  · exact hn

theorem frame_writeUnconfirmed (o : Fin 2) :
    Kept [.rdr, .log] (.writeUnconfirmed o) := by
  intro s s' e
  change execWriteUnconfirmed o s = .next s' at e
  unfold execWriteUnconfirmed at e
  injection e with e
  subst e
  repeat' first
    | with_reducible assumption
    | (extract_lets -merge +onlyGivenNames x
       first
       | (refine Keeps.cut (x := x) (fun hx => ?_) ?_; (on_goal 1 => clear_value x)
          (on_goal 2 => (unfold x; clear x)))
       | (refine Keeps.cut (x := x.2) (fun hx => ?_) ?_; (on_goal 1 => clear_value x)
          (on_goal 2 => (unfold x; clear x)))
       | clear_value x)
    | with_reducible apply Keeps.refl
    | with_reducible apply Keeps.ite
    | with_reducible apply Keeps.then_ (keep_unconfirm ..)
    | decide
    | split

theorem frame_writeReadback (o : Fin 2) (r : Option AirReply) :
    Kept [.rdr, .log] (.writeReadback o r) := by
  intro s s' e
  change execWriteReadback o r s = .next s' at e
  unfold execWriteReadback at e
  injection e with e
  subst e
  repeat' first
    | with_reducible assumption
    | (extract_lets -merge +onlyGivenNames x
       first
       | (refine Keeps.cut (x := x) (fun hx => ?_) ?_; (on_goal 1 => clear_value x)
          (on_goal 2 => (unfold x; clear x)))
       | (refine Keeps.cut (x := x.2) (fun hx => ?_) ?_; (on_goal 1 => clear_value x)
          (on_goal 2 => (unfold x; clear x)))
       | clear_value x)
    | with_reducible apply Keeps.refl
    | with_reducible apply Keeps.ite
    | with_reducible apply Keeps.then_ (keep_countReply ..)
    | with_reducible apply Keeps.then_ (keep_logWrite ..)
    | with_reducible apply Keeps.then_ (keep_endWrite ..)
    | with_reducible apply Keeps.then_ (keep_missReadback ..)
    | decide
    | split

theorem frame_antFaultRuntime (p : Fin 3) (load : AntLoad) :
    Kept [.sxChannel, .sxCell, .sxStage, .sxAux, .sxRest, .outlet, .rdr, .lkOut, .lkOutlet, .lkRest, .wrk, .log,
        .flt] (.antFaultRuntime p load) := by
  intro s s' e
  change execAntFaultRuntime p load s = .next s' at e
  unfold execAntFaultRuntime at e
  injection e with e
  subst e
  repeat' first
    | with_reducible assumption
    | (extract_lets -merge +onlyGivenNames x
       first
       | (refine Keeps.cut (x := x) (fun hx => ?_) ?_; (on_goal 1 => clear_value x)
          (on_goal 2 => (unfold x; clear x)))
       | (refine Keeps.cut (x := x.2) (fun hx => ?_) ?_; (on_goal 1 => clear_value x)
          (on_goal 2 => (unfold x; clear x)))
       | (have t : _ → State := x; clear t; subst x)
       | (have t : _ → _ → State := x; clear t; subst x)
       | (have t : _ → _ → Display := x; clear t; subst x)
       | clear_value x)
    | with_reducible apply Keeps.refl
    | with_reducible apply Keeps.ite
    | with_reducible apply Keeps.then_ (keep_logDetect ..)
    | with_reducible apply Keeps.then_ (keep_logClear ..)
    | with_reducible apply Keeps.then_ (keep_outletFault ..)
    | (beta_reduce; split)
    | with_reducible apply Keeps.upd_rdr
    | decide

theorem frame_reqaPoll  :
    Kept [.rdr] .reqaPoll := by
  intro s s' e
  change execReqaPoll s = .next s' at e
  unfold execReqaPoll at e
  injection e with e
  subst e
  repeat' first
    | with_reducible assumption
    | (extract_lets -merge +onlyGivenNames x
       first
       | (refine Keeps.cut (x := x) (fun hx => ?_) ?_; (on_goal 1 => clear_value x)
          (on_goal 2 => (unfold x; clear x)))
       | (refine Keeps.cut (x := x.2) (fun hx => ?_) ?_; (on_goal 1 => clear_value x)
          (on_goal 2 => (unfold x; clear x)))
       | clear_value x)
    | with_reducible apply Keeps.refl
    | with_reducible apply Keeps.ite
    | with_reducible apply Keeps.then_ (keep_sendPad ..)
    | split
    | with_reducible apply Keeps.upd_rdr
    | decide

theorem frame_cardSelected (atqa : Nat) (levels : List CardLevel) (sak : Nat) :
    Kept [.outlet, .rdr, .merMail, .com, .lkOutlet, .hostSessions, .hostRest, .log] (.cardSelected atqa levels sak)
        := by
  intro s s' e
  change execCardSelected atqa levels sak s = .next s' at e
  unfold execCardSelected at e
  injection e with e
  subst e
  split
  · extract_lets t src u b ev v
    have ht : Keeps [.outlet, .rdr, .merMail, .com, .lkOutlet, .hostSessions, .hostRest, .log] s t := (keep_sendPad
        s _).mono (by decide)
    refine Keeps.ite ht ?_
    have hu : Keeps [.outlet, .rdr, .merMail, .com, .lkOutlet, .hostSessions, .hostRest, .log] s u := Keeps.upd_rdr
        ht (by decide)
    have hv : Keeps [.outlet, .rdr, .merMail, .com, .lkOutlet, .hostSessions, .hostRest, .log] s v :=
      (hu.trans ((keep_emitEvent u _ _ _).mono (by decide))).trans ((keep_logRec _ _ _ _ _ _).mono (by decide))
    clear_value v b
    split
    · exact hv.trans ((keep_identify v _ _ _ _).mono (by decide))
    · exact hv
  · exact Keeps.refl _ _

theorem frame_cardLeft (uid : Bytes) :
    Kept [.rdr] (.cardLeft uid) := by
  intro s s' e
  change execCardLeft uid s = .next s' at e
  unfold execCardLeft at e
  injection e with e
  subst e
  repeat' first
    | with_reducible assumption
    | (extract_lets -merge +onlyGivenNames x
       first
       | (refine Keeps.cut (x := x) (fun hx => ?_) ?_; (on_goal 1 => clear_value x)
          (on_goal 2 => (unfold x; clear x)))
       | (refine Keeps.cut (x := x.2) (fun hx => ?_) ?_; (on_goal 1 => clear_value x)
          (on_goal 2 => (unfold x; clear x)))
       | clear_value x)
    | with_reducible apply Keeps.refl
    | with_reducible apply Keeps.upd_rdr
    | decide

end Sys2Proof.Machine
end

