-- ==== Sys2Proof/Laws/FrameFaults.lean ====
section
/-!
SUPPORT. What each operation and command of Machine/Faults.lean leaves unchanged.
-/
namespace Sys2Proof.Machine

set_option linter.unreachableTactic false
set_option linter.unusedTactic false
set_option linter.tactic.unusedName false

theorem keep_markCoreFault (s : State) :
    Keeps [.mgr] s (markCoreFault s) := by
  unfold markCoreFault
  repeat' first
    | with_reducible assumption
    | (extract_lets -merge +onlyGivenNames x
       first
       | (refine Keeps.cut (x := x) (fun hx => ?_) ?_; (on_goal 1 => clear_value x)
          (on_goal 2 => (unfold x; clear x)))
       | (refine Keeps.cut (x := x.2) (fun hx => ?_) ?_; (on_goal 1 => clear_value x)
          (on_goal 2 => (unfold x; clear x)))
       | clear_value x)
    | with_reducible apply Keeps.refl
    | with_reducible apply Keeps.upd_mgr
    | decide

theorem Keeps.dieFault {F : List Part} {r s : State} {i : Fin 5} {react : State → State} (h : Keeps F r s)
    (k : Keeps F r (react s)) (hF : ∀ p ∈ (([Part.sxChannel, Part.sxCell, Part.sxStage, Part.sxAux, Part.sxLaw,
        Part.sxRest, Part.outlet, Part.rdr, Part.merFe, Part.merLeg, Part.merChr, Part.merTar, Part.merRest,
        Part.lkOut, Part.lkOutlet] ++ [Part.lkLatch, Part.lkRest, Part.wrk, Part.hostOps, Part.hostJournal, Part.fw,
        Part.log, Part.flt]) : List Part), p ∈ F) :
    Keeps F r (Machine.dieFault s i react) := by
  unfold Machine.dieFault
  refine Keeps.ite (h.trans ?_) k
  have m : ∀ {a b : State}, Keeps (([Part.sxChannel, Part.sxCell, Part.sxStage, Part.sxAux, Part.sxLaw, Part.sxRest,
      Part.outlet, Part.rdr, Part.merFe, Part.merLeg, Part.merChr, Part.merTar, Part.merRest, Part.lkOut,
      Part.lkOutlet] ++ [Part.lkLatch, Part.lkRest, Part.wrk, Part.hostOps, Part.hostJournal, Part.fw, Part.log,
      Part.flt]) : List Part) a b → Keeps F a b := fun h => h.mono hF
  exact (m ((keep_startFails s i).mono (by decide))).trans (m ((keep_settle s _).mono (by decide)))

theorem keep_sextantTrip (s : State) :
    Keeps [.sxChannel, .sxCell, .sxStage, .sxAux, .sxRest, .outlet, .rdr, .lkOut, .lkOutlet, .lkRest, .wrk, .log,
        .flt] s (sextantTrip s) := by
  unfold sextantTrip
  repeat' first
    | with_reducible assumption
    | (extract_lets -merge +onlyGivenNames x
       first
       | (refine Keeps.cut (x := x) (fun hx => ?_) ?_; (on_goal 1 => clear_value x)
          (on_goal 2 => (unfold x; clear x)))
       | (refine Keeps.cut (x := x.2) (fun hx => ?_) ?_; (on_goal 1 => clear_value x)
          (on_goal 2 => (unfold x; clear x)))
       | (have t : Sextant := x; clear t; subst x)
       | clear_value x)
    | with_reducible apply Keeps.refl
    | with_reducible apply Keeps.then_ (keep_latchStage ..)
    | with_reducible apply Keeps.withStages
    | with_reducible apply Keeps.then_ (keep_coolToLimit ..)
    | (with_reducible apply Keeps.foldl; on_goal 2 => intros)
    | with_reducible apply Keeps.upd_sx
    | (with_reducible apply Or.inl; decide)
    | (with_reducible apply Or.inr; with_reducible rfl)
    | (with_reducible apply Or.inr; rfl)
    | decide

theorem keep_sextantBack (s : State) :
    Keeps [.sxRest, .log, .flt] s (sextantBack s) := by
  unfold sextantBack
  repeat' first
    | with_reducible assumption
    | (extract_lets -merge +onlyGivenNames x
       first
       | (refine Keeps.cut (x := x) (fun hx => ?_) ?_; (on_goal 1 => clear_value x)
          (on_goal 2 => (unfold x; clear x)))
       | (refine Keeps.cut (x := x.2) (fun hx => ?_) ?_; (on_goal 1 => clear_value x)
          (on_goal 2 => (unfold x; clear x)))
       | (have t : Sextant := x; clear t; subst x)
       | clear_value x)
    | with_reducible apply Keeps.refl
    | with_reducible apply Keeps.ite
    | with_reducible apply Keeps.then_ (keep_clearFaults ..)
    | (beta_reduce; split)
    | with_reducible apply Keeps.upd_sx
    | (with_reducible apply Or.inl; decide)
    | (with_reducible apply Or.inr; with_reducible rfl)
    | (with_reducible apply Or.inr; rfl)
    | decide

theorem keep_stopChannel (s : State) (ch : Fin 2) :
    Keeps [.sxChannel, .sxCell, .sxStage, .sxAux, .sxLaw, .sxRest, .outlet, .rdr, .lkOut, .lkOutlet, .lkLatch,
        .lkRest, .safe, .wrk, .log, .flt] s (stopChannel s ch) := by
  unfold stopChannel
  repeat' first
    | with_reducible assumption
    | (extract_lets -merge +onlyGivenNames x
       first
       | (refine Keeps.cut (x := x) (fun hx => ?_) ?_; (on_goal 1 => clear_value x)
          (on_goal 2 => (unfold x; clear x)))
       | (refine Keeps.cut (x := x.2) (fun hx => ?_) ?_; (on_goal 1 => clear_value x)
          (on_goal 2 => (unfold x; clear x)))
       | (have t : Lookout := x; clear t; subst x)
       | clear_value x)
    | with_reducible apply Keeps.refl
    | with_reducible apply Keeps.ite
    | with_reducible apply Keeps.then_ (keep_settle ..)
    | with_reducible apply Keeps.then_ (keep_clearChan ..)
    | with_reducible apply Keeps.then_ (keep_forgetHolsters ..)
    | split
    | with_reducible apply Keeps.upd_lk
    | (with_reducible apply Or.inl; decide)
    | (with_reducible apply Or.inr; with_reducible rfl)
    | (with_reducible apply Or.inr; rfl)
    | decide

theorem keep_updIsland (s : State) (i : Fin 17) (f : Island → Island) :
    Keeps [.flt] s (updIsland s i f) := by
  unfold updIsland
  repeat' first
    | with_reducible assumption
    | (extract_lets -merge +onlyGivenNames x
       first
       | (refine Keeps.cut (x := x) (fun hx => ?_) ?_; (on_goal 1 => clear_value x)
          (on_goal 2 => (unfold x; clear x)))
       | (refine Keeps.cut (x := x.2) (fun hx => ?_) ?_; (on_goal 1 => clear_value x)
          (on_goal 2 => (unfold x; clear x)))
       | clear_value x)
    | with_reducible apply Keeps.refl
    | with_reducible apply Keeps.upd_flt
    | decide

theorem keep_loseMegawatt (s : State) :
    Keeps [.sxChannel, .sxCell, .sxStage, .sxAux, .sxRest, .outlet, .rdr, .lkOut, .lkOutlet, .lkRest, .wrk, .log,
        .flt] s (loseMegawatt s) := by
  unfold loseMegawatt
  repeat' first
    | with_reducible assumption
    | (extract_lets -merge +onlyGivenNames x
       first
       | (refine Keeps.cut (x := x) (fun hx => ?_) ?_; (on_goal 1 => clear_value x)
          (on_goal 2 => (unfold x; clear x)))
       | (refine Keeps.cut (x := x.2) (fun hx => ?_) ?_; (on_goal 1 => clear_value x)
          (on_goal 2 => (unfold x; clear x)))
       | (have t : _ → State := x; clear t; subst x)
       | (have t : _ → _ → State := x; clear t; subst x)
       | (have t : _ → _ → Display := x; clear t; subst x)
       | clear_value x)
    | with_reducible apply Keeps.refl
    | with_reducible apply Keeps.ite
    | with_reducible apply Keeps.then_ (keep_outletFault ..)
    | decide
    | (beta_reduce; split)

theorem keep_fieldOff (s : State) :
    Keeps [.rdr] s (fieldOff s) := by
  unfold fieldOff
  repeat' first
    | with_reducible assumption
    | (extract_lets -merge +onlyGivenNames x
       first
       | (refine Keeps.cut (x := x) (fun hx => ?_) ?_; (on_goal 1 => clear_value x)
          (on_goal 2 => (unfold x; clear x)))
       | (refine Keeps.cut (x := x.2) (fun hx => ?_) ?_; (on_goal 1 => clear_value x)
          (on_goal 2 => (unfold x; clear x)))
       | clear_value x)
    | with_reducible apply Keeps.refl
    | with_reducible apply Keeps.then_ (keep_closeWindow ..)
    | with_reducible apply Keeps.upd_rdr
    | decide

theorem keep_loseSdClocks (s : State) (clk : BitVec 8) :
    Keeps [.sxChannel, .sxCell, .sxStage, .sxAux, .sxSd, .sxRest, .outlet, .rdr, .lkOut, .lkOutlet, .lkRest, .wrk,
        .log, .flt] s (loseSdClocks s clk) := by
  unfold loseSdClocks
  repeat' first
    | with_reducible assumption
    | (extract_lets -merge +onlyGivenNames x
       first
       | (refine Keeps.cut (x := x) (fun hx => ?_) ?_; (on_goal 1 => clear_value x)
          (on_goal 2 => (unfold x; clear x)))
       | (refine Keeps.cut (x := x.2) (fun hx => ?_) ?_; (on_goal 1 => clear_value x)
          (on_goal 2 => (unfold x; clear x)))
       | clear_value x)
    | with_reducible apply Keeps.refl
    | with_reducible apply Keeps.then_ (keep_inputInvalid ..)
    | (with_reducible apply Keeps.foldl; on_goal 2 => intros)
    | decide

theorem keep_islandReaction (s : State) (i : Fin 17) (sdClk : BitVec 8) :
    Keeps ([Part.landfall, Part.chart, Part.cfg, Part.sxChannel, Part.sxCell, Part.sxStage, Part.sxAux, Part.sxSd,
        Part.sxLaw, Part.sxFix, Part.sxCount, Part.sxRest, Part.outlet, Part.rdr, Part.merLeg] ++ [Part.merChr,
        Part.merRest, Part.disp, Part.lkOut, Part.lkOutlet, Part.lkLatch, Part.lkRest, Part.txl, Part.safe, Part.ll,
        Part.mgr, Part.wrk, Part.hostSessions, Part.hostOps, Part.hostJournal] ++ [Part.hostRest, Part.locker,
        Part.fw, Part.log, Part.flt]) s (islandReaction s i sdClk) := by
  unfold islandReaction
  repeat' first
    | with_reducible assumption
    | (extract_lets -merge +onlyGivenNames x
       first
       | (refine Keeps.cut (x := x) (fun hx => ?_) ?_; (on_goal 1 => clear_value x)
          (on_goal 2 => (unfold x; clear x)))
       | (refine Keeps.cut (x := x.2) (fun hx => ?_) ?_; (on_goal 1 => clear_value x)
          (on_goal 2 => (unfold x; clear x)))
       | (have t : List Part := x; clear t; subst x)
       | clear_value x)
    | with_reducible apply Keeps.refl
    | with_reducible apply Keeps.ite
    | with_reducible apply Keeps.then_ (keep_logDetect ..)
    | with_reducible apply Keeps.then_ (keep_raiseDisp ..)
    | with_reducible apply Keeps.then_ (keep_pathLost ..)
    | with_reducible apply Keeps.then_ (keep_helmRestart ..)
    | with_reducible apply Keeps.then_ (keep_meridianReset ..)
    | with_reducible apply Keeps.then_ (keep_markCoreFault ..)
    | with_reducible apply Keeps.then_ (keep_sextantTrip ..)
    | with_reducible apply Keeps.then_ (keep_stopChannel ..)
    | with_reducible apply Keeps.then_ (keep_updIsland ..)
    | with_reducible apply Keeps.then_ (keep_loseMegawatt ..)
    | with_reducible apply Keeps.then_ (keep_fieldOff ..)
    | with_reducible apply Keeps.then_ (keep_loseSdClocks ..)
    | (beta_reduce; split)
    | with_reducible apply Keeps.upd_ll
    | with_reducible apply Keeps.upd_flt
    | with_reducible apply Keeps.upd_all
    | (with_reducible apply Or.inl; decide)
    | (with_reducible apply Or.inr; with_reducible rfl)
    | (with_reducible apply Or.inr; rfl)
    | exact fun h => h
    | exact fun _ h => h
    | (intro _ hd; split <;> exact hd)
    | decide

theorem keep_islandBack (s : State) (isl : Fin 17) :
    Keeps [.sxRest, .log, .flt] s (islandBack s isl) := by
  unfold islandBack
  repeat' first
    | with_reducible assumption
    | (extract_lets -merge +onlyGivenNames x
       first
       | (refine Keeps.cut (x := x) (fun hx => ?_) ?_; (on_goal 1 => clear_value x)
          (on_goal 2 => (unfold x; clear x)))
       | (refine Keeps.cut (x := x.2) (fun hx => ?_) ?_; (on_goal 1 => clear_value x)
          (on_goal 2 => (unfold x; clear x)))
       | clear_value x)
    | with_reducible apply Keeps.refl
    | with_reducible apply Keeps.ite
    | with_reducible apply Keeps.then_ (keep_logClear ..)
    | with_reducible apply Keeps.then_ (keep_sextantBack ..)
    | with_reducible apply Keeps.then_ (keep_updIsland ..)
    | (beta_reduce; split)
    | with_reducible apply Keeps.upd_flt
    | decide

theorem keep_doubleBit (s : State) (p : MemPlace) :
    Keeps ([Part.free, Part.landfall, Part.chart, Part.cfg, Part.sxChannel, Part.sxCell, Part.sxStage, Part.sxAux,
        Part.sxSd, Part.sxLaw, Part.sxFix, Part.sxCount, Part.sxRest, Part.outlet, Part.rdr] ++ [Part.merFe,
        Part.merLeg, Part.merChr, Part.merTar, Part.merRest, Part.disp, Part.lkOut, Part.lkOutlet, Part.lkLatch,
        Part.lkRest, Part.safe, Part.ll, Part.mgr, Part.wrk, Part.hostSessions] ++ [Part.hostOps, Part.hostJournal,
        Part.hostRest, Part.locker, Part.fw, Part.log, Part.flt]) s (doubleBit s p) := by
  unfold doubleBit
  repeat' first
    | with_reducible assumption
    | (extract_lets -merge +onlyGivenNames x
       first
       | (refine Keeps.cut (x := x) (fun hx => ?_) ?_; (on_goal 1 => clear_value x)
          (on_goal 2 => (unfold x; clear x)))
       | (refine Keeps.cut (x := x.2) (fun hx => ?_) ?_; (on_goal 1 => clear_value x)
          (on_goal 2 => (unfold x; clear x)))
       | (have t : List Part := x; clear t; subst x)
       | (have t : Meridian := x; clear t; subst x)
       | clear_value x)
    | with_reducible apply Keeps.refl
    | with_reducible apply Keeps.then_ (keep_drawBit ..)
    | with_reducible apply Keeps.then_ (keep_helmRestart ..)
    | with_reducible apply Keeps.then_ (keep_stopLookout ..)
    | with_reducible apply Keeps.then_ (keep_meridianReset ..)
    | with_reducible apply Keeps.dieFault
    | with_reducible apply Keeps.then_ (keep_sextantTrip ..)
    | with_reducible apply Keeps.then_ (keep_stopChannel ..)
    | (beta_reduce; split)
    | with_reducible apply Keeps.upd_outlet
    | with_reducible apply Keeps.upd_mer
    | with_reducible apply Keeps.upd_all
    | (with_reducible apply Or.inl; decide)
    | (with_reducible apply Or.inr; with_reducible rfl)
    | (with_reducible apply Or.inr; rfl)
    | exact fun h => h
    | exact fun _ h => h
    | (intro _ hd; split <;> exact hd)
    | exact fun h => sparsePut_wf h _ _
    | exact fun _ h => sparsePut_wf h _ _
    | decide

theorem keep_endPass (s : State) (m : Scrubber) :
    Keeps [.flt] s (endPass s m) := by
  unfold endPass
  repeat' first
    | with_reducible assumption
    | (extract_lets -merge +onlyGivenNames x
       first
       | (refine Keeps.cut (x := x) (fun hx => ?_) ?_; (on_goal 1 => clear_value x)
          (on_goal 2 => (unfold x; clear x)))
       | (refine Keeps.cut (x := x.2) (fun hx => ?_) ?_; (on_goal 1 => clear_value x)
          (on_goal 2 => (unfold x; clear x)))
       | clear_value x)
    | with_reducible apply Keeps.refl
    | with_reducible apply Keeps.ite
    | split
    | with_reducible apply Keeps.upd_flt
    | decide

theorem keep_restartPasses (s : State) :
    Keeps [.locker, .flt] s (restartPasses s) := by
  unfold restartPasses
  repeat' first
    | with_reducible assumption
    | (extract_lets -merge +onlyGivenNames x
       first
       | (refine Keeps.cut (x := x) (fun hx => ?_) ?_; (on_goal 1 => clear_value x)
          (on_goal 2 => (unfold x; clear x)))
       | (refine Keeps.cut (x := x.2) (fun hx => ?_) ?_; (on_goal 1 => clear_value x)
          (on_goal 2 => (unfold x; clear x)))
       | clear_value x)
    | with_reducible apply Keeps.refl
    | with_reducible apply Keeps.upd_locker
    | with_reducible apply Keeps.upd_flt
    | with_reducible apply Keeps.upd_all
    | (with_reducible apply Or.inl; decide)
    | (with_reducible apply Or.inr; with_reducible rfl)
    | (with_reducible apply Or.inr; rfl)
    | exact fun h => h
    | exact fun _ h => h
    | (intro _ hd; split <;> exact hd)
    | decide

theorem keep_vddaLost (s : State) :
    Keeps [.landfall, .sxChannel, .sxCell, .sxStage, .sxAux, .sxRest, .outlet, .rdr, .lkOut, .lkOutlet, .lkRest,
        .wrk, .log, .flt] s (vddaLost s) := by
  unfold vddaLost
  repeat' first
    | with_reducible assumption
    | (extract_lets -merge +onlyGivenNames x
       first
       | (refine Keeps.cut (x := x) (fun hx => ?_) ?_; (on_goal 1 => clear_value x)
          (on_goal 2 => (unfold x; clear x)))
       | (refine Keeps.cut (x := x.2) (fun hx => ?_) ?_; (on_goal 1 => clear_value x)
          (on_goal 2 => (unfold x; clear x)))
       | (have t : _ → State := x; clear t; subst x)
       | (have t : _ → _ → State := x; clear t; subst x)
       | (have t : _ → _ → Display := x; clear t; subst x)
       | clear_value x)
    | with_reducible apply Keeps.refl
    | with_reducible apply Keeps.ite
    | with_reducible apply Keeps.then_ (keep_updOutlet ..)
    | with_reducible apply Keeps.then_ (keep_outletFault ..)
    | with_reducible apply Keeps.then_ (keep_updLandfall ..)
    | decide
    | (beta_reduce; split)

theorem keep_storeRecord (s : State) (x : LogItem) :
    Keeps [.log] s (storeRecord s x) := by
  unfold storeRecord
  repeat' first
    | with_reducible assumption
    | (extract_lets -merge +onlyGivenNames x
       first
       | (refine Keeps.cut (x := x) (fun hx => ?_) ?_; (on_goal 1 => clear_value x)
          (on_goal 2 => (unfold x; clear x)))
       | (refine Keeps.cut (x := x.2) (fun hx => ?_) ?_; (on_goal 1 => clear_value x)
          (on_goal 2 => (unfold x; clear x)))
       | clear_value x)
    | with_reducible apply Keeps.refl
    | with_reducible apply Keeps.ite
    | split
    | with_reducible apply Keeps.upd_log
    | decide

theorem keep_writeRecord (s : State) (x : LogItem) :
    Keeps [.hostSessions, .hostRest, .log] s (writeRecord s x) := by
  unfold writeRecord
  repeat' first
    | with_reducible assumption
    | (extract_lets -merge +onlyGivenNames x
       first
       | (refine Keeps.cut (x := x) (fun hx => ?_) ?_; (on_goal 1 => clear_value x)
          (on_goal 2 => (unfold x; clear x)))
       | (refine Keeps.cut (x := x.2) (fun hx => ?_) ?_; (on_goal 1 => clear_value x)
          (on_goal 2 => (unfold x; clear x)))
       | clear_value x)
    | with_reducible apply Keeps.refl
    | with_reducible apply Keeps.ite
    | with_reducible apply Keeps.then_ (keep_emitEvent ..)
    | with_reducible apply Keeps.then_ (keep_storeRecord ..)
    | decide
    | split

theorem keep_logPeriodic (s : State) :
    Keeps [.log] s (logPeriodic s) := by
  unfold logPeriodic
  repeat' first
    | with_reducible assumption
    | (extract_lets -merge +onlyGivenNames x
       first
       | (refine Keeps.cut (x := x) (fun hx => ?_) ?_; (on_goal 1 => clear_value x)
          (on_goal 2 => (unfold x; clear x)))
       | (refine Keeps.cut (x := x.2) (fun hx => ?_) ?_; (on_goal 1 => clear_value x)
          (on_goal 2 => (unfold x; clear x)))
       | clear_value x)
    | with_reducible apply Keeps.refl
    | with_reducible apply Keeps.ite
    | with_reducible apply Keeps.then_ (keep_queueLog ..)
    | split
    | with_reducible apply Keeps.upd_log
    | decide

theorem frame_helmCorePairMismatch  :
    Kept ([Part.landfall, Part.chart, Part.cfg, Part.sxChannel, Part.sxCell, Part.sxStage, Part.sxAux, Part.sxSd,
        Part.sxLaw, Part.sxFix, Part.sxCount, Part.sxRest, Part.outlet, Part.rdr, Part.merFe] ++ [Part.merLeg,
        Part.merChr, Part.merTar, Part.merRest, Part.disp, Part.lkOut, Part.lkOutlet, Part.lkLatch, Part.lkRest,
        Part.ll, Part.mgr, Part.wrk, Part.hostSessions, Part.hostOps, Part.hostJournal] ++ [Part.hostRest,
        Part.locker, Part.fw, Part.log, Part.flt]) .helmCorePairMismatch := by
  intro s s' e
  change execHelmCorePairMismatch s = .next s' at e
  unfold execHelmCorePairMismatch at e
  injection e with e
  subst e
  repeat' first
    | with_reducible assumption
    | (extract_lets -merge +onlyGivenNames x
       first
       | (refine Keeps.cut (x := x) (fun hx => ?_) ?_; (on_goal 1 => clear_value x)
          (on_goal 2 => (unfold x; clear x)))
       | (refine Keeps.cut (x := x.2) (fun hx => ?_) ?_; (on_goal 1 => clear_value x)
          (on_goal 2 => (unfold x; clear x)))
       | (have t : List Part := x; clear t; subst x)
       | clear_value x)
    | with_reducible apply Keeps.refl
    | with_reducible apply Keeps.ite
    | with_reducible apply Keeps.then_ (keep_logDetect ..)
    | with_reducible apply Keeps.then_ (keep_helmRestart ..)
    | with_reducible apply Keeps.then_ (keep_markCoreFault ..)
    | with_reducible apply Keeps.dieFault
    | decide
    | split

theorem frame_sextantCoreMismatch  :
    Kept ([Part.sxChannel, Part.sxCell, Part.sxStage, Part.sxAux, Part.sxLaw, Part.sxRest, Part.outlet, Part.rdr,
        Part.merFe, Part.merLeg, Part.merChr, Part.merTar, Part.merRest, Part.lkOut, Part.lkOutlet] ++
        [Part.lkLatch, Part.lkRest, Part.mgr, Part.wrk, Part.hostOps, Part.hostJournal, Part.fw, Part.log,
        Part.flt]) .sextantCoreMismatch := by
  intro s s' e
  change execSextantCoreMismatch s = .next s' at e
  unfold execSextantCoreMismatch at e
  injection e with e
  subst e
  repeat' first
    | with_reducible assumption
    | (extract_lets -merge +onlyGivenNames x
       first
       | (refine Keeps.cut (x := x) (fun hx => ?_) ?_; (on_goal 1 => clear_value x)
          (on_goal 2 => (unfold x; clear x)))
       | (refine Keeps.cut (x := x.2) (fun hx => ?_) ?_; (on_goal 1 => clear_value x)
          (on_goal 2 => (unfold x; clear x)))
       | (have t : List Part := x; clear t; subst x)
       | clear_value x)
    | with_reducible apply Keeps.refl
    | with_reducible apply Keeps.ite
    | with_reducible apply Keeps.then_ (keep_logDetect ..)
    | with_reducible apply Keeps.then_ (keep_markCoreFault ..)
    | with_reducible apply Keeps.dieFault
    | with_reducible apply Keeps.then_ (keep_sextantTrip ..)
    | decide
    | split

theorem frame_sextantSupervisorRestart  :
    Kept [.sxRest, .log, .flt] .sextantSupervisorRestart := by
  intro s s' e
  change execSextantSupervisorRestart s = .next s' at e
  unfold execSextantSupervisorRestart at e
  injection e with e
  subst e
  repeat' first
    | with_reducible assumption
    | (extract_lets -merge +onlyGivenNames x
       first
       | (refine Keeps.cut (x := x) (fun hx => ?_) ?_; (on_goal 1 => clear_value x)
          (on_goal 2 => (unfold x; clear x)))
       | (refine Keeps.cut (x := x.2) (fun hx => ?_) ?_; (on_goal 1 => clear_value x)
          (on_goal 2 => (unfold x; clear x)))
       | clear_value x)
    | with_reducible apply Keeps.refl
    | with_reducible apply Keeps.ite
    | with_reducible apply Keeps.then_ (keep_sextantBack ..)
    | decide
    | split

theorem frame_meridianCoreFault  :
    Kept ([Part.sxChannel, Part.sxCell, Part.sxStage, Part.sxAux, Part.sxLaw, Part.sxRest, Part.outlet, Part.rdr,
        Part.merFe, Part.merLeg, Part.merChr, Part.merTar, Part.merRest, Part.lkOut, Part.lkOutlet] ++
        [Part.lkLatch, Part.lkRest, Part.wrk, Part.hostOps, Part.hostJournal, Part.fw, Part.log, Part.flt])
        .meridianCoreFault := by
  intro s s' e
  change execMeridianCoreFault s = .next s' at e
  unfold execMeridianCoreFault at e
  injection e with e
  subst e
  repeat' first
    | with_reducible assumption
    | (extract_lets -merge +onlyGivenNames x
       first
       | (refine Keeps.cut (x := x) (fun hx => ?_) ?_; (on_goal 1 => clear_value x)
          (on_goal 2 => (unfold x; clear x)))
       | (refine Keeps.cut (x := x.2) (fun hx => ?_) ?_; (on_goal 1 => clear_value x)
          (on_goal 2 => (unfold x; clear x)))
       | (have t : List Part := x; clear t; subst x)
       | clear_value x)
    | with_reducible apply Keeps.refl
    | with_reducible apply Keeps.ite
    | with_reducible apply Keeps.then_ (keep_logDetect ..)
    | with_reducible apply Keeps.then_ (keep_meridianReset ..)
    | with_reducible apply Keeps.dieFault
    | decide
    | split

theorem frame_islandClockLoss (isl : Fin 17) (sdClk : BitVec 8) :
    Kept ([Part.landfall, Part.chart, Part.cfg, Part.sxChannel, Part.sxCell, Part.sxStage, Part.sxAux, Part.sxSd,
        Part.sxLaw, Part.sxFix, Part.sxCount, Part.sxRest, Part.outlet, Part.rdr, Part.merFe] ++ [Part.merLeg,
        Part.merChr, Part.merTar, Part.merRest, Part.disp, Part.lkOut, Part.lkOutlet, Part.lkLatch, Part.lkRest,
        Part.txl, Part.safe, Part.ll, Part.mgr, Part.wrk, Part.hostSessions] ++ [Part.hostOps, Part.hostJournal,
        Part.hostRest, Part.locker, Part.fw, Part.log, Part.flt]) (.islandClockLoss isl sdClk) := by
  intro s s' e
  change execIslandClockLoss isl sdClk s = .next s' at e
  unfold execIslandClockLoss at e
  injection e with e
  subst e
  repeat' first
    | with_reducible assumption
    | (extract_lets -merge +onlyGivenNames x
       first
       | (refine Keeps.cut (x := x) (fun hx => ?_) ?_; (on_goal 1 => clear_value x)
          (on_goal 2 => (unfold x; clear x)))
       | (refine Keeps.cut (x := x.2) (fun hx => ?_) ?_; (on_goal 1 => clear_value x)
          (on_goal 2 => (unfold x; clear x)))
       | (have t : List Part := x; clear t; subst x)
       | clear_value x)
    | with_reducible apply Keeps.refl
    | with_reducible apply Keeps.ite
    | with_reducible apply Keeps.then_ (keep_logDetect ..)
    | with_reducible apply Keeps.dieFault
    | with_reducible apply Keeps.then_ (keep_islandReaction ..)
    | (beta_reduce; split)
    | with_reducible apply Keeps.upd_flt
    | decide

theorem frame_islandRestart (isl : Fin 17) (ok : Bool) :
    Kept [.sxRest, .log, .flt] (.islandRestart isl ok) := by
  intro s s' e
  change execIslandRestart isl ok s = .next s' at e
  unfold execIslandRestart at e
  injection e with e
  subst e
  repeat' first
    | with_reducible assumption
    | (extract_lets -merge +onlyGivenNames x
       first
       | (refine Keeps.cut (x := x) (fun hx => ?_) ?_; (on_goal 1 => clear_value x)
          (on_goal 2 => (unfold x; clear x)))
       | (refine Keeps.cut (x := x.2) (fun hx => ?_) ?_; (on_goal 1 => clear_value x)
          (on_goal 2 => (unfold x; clear x)))
       | clear_value x)
    | with_reducible apply Keeps.refl
    | with_reducible apply Keeps.ite
    | with_reducible apply Keeps.then_ (keep_updIsland ..)
    | with_reducible apply Keeps.then_ (keep_islandBack ..)
    | (beta_reduce; split)
    | with_reducible apply Keeps.upd_flt
    | decide

theorem frame_scrubPass (m : Scrubber) (passEnd : Bool) (corrected : Nat) :
    Kept [.log, .flt] (.scrubPass m passEnd corrected) := by
  intro s s' e
  change execScrubPass m passEnd corrected s = .next s' at e
  unfold execScrubPass at e
  injection e with e
  subst e
  repeat' first
    | with_reducible assumption
    | (extract_lets -merge +onlyGivenNames x
       first
       | (refine Keeps.cut (x := x) (fun hx => ?_) ?_; (on_goal 1 => clear_value x)
          (on_goal 2 => (unfold x; clear x)))
       | (refine Keeps.cut (x := x.2) (fun hx => ?_) ?_; (on_goal 1 => clear_value x)
          (on_goal 2 => (unfold x; clear x)))
       | clear_value x)
    | with_reducible apply Keeps.refl
    | with_reducible apply Keeps.ite
    | with_reducible apply Keeps.then_ (keep_logMasked ..)
    | with_reducible apply Keeps.then_ (keep_endPass ..)
    | split
    | with_reducible apply Keeps.upd_flt
    | decide

theorem frame_doubleBitError (at_ : MemPlace) (idle : Bool) :
    Kept ([Part.free, Part.landfall, Part.chart, Part.cfg, Part.sxChannel, Part.sxCell, Part.sxStage, Part.sxAux,
        Part.sxSd, Part.sxLaw, Part.sxFix, Part.sxCount, Part.sxRest, Part.outlet, Part.rdr] ++ [Part.merFe,
        Part.merLeg, Part.merChr, Part.merTar, Part.merRest, Part.disp, Part.lkOut, Part.lkOutlet, Part.lkLatch,
        Part.lkRest, Part.safe, Part.ll, Part.mgr, Part.wrk, Part.hostSessions] ++ [Part.hostOps, Part.hostJournal,
        Part.hostRest, Part.locker, Part.fw, Part.log, Part.flt]) (.doubleBitError at_ idle) := by
  intro s s' e
  change execDoubleBitError at_ idle s = .next s' at e
  unfold execDoubleBitError at e
  injection e with e
  subst e
  repeat' first
    | with_reducible assumption
    | (extract_lets -merge +onlyGivenNames x
       first
       | (refine Keeps.cut (x := x) (fun hx => ?_) ?_; (on_goal 1 => clear_value x)
          (on_goal 2 => (unfold x; clear x)))
       | (refine Keeps.cut (x := x.2) (fun hx => ?_) ?_; (on_goal 1 => clear_value x)
          (on_goal 2 => (unfold x; clear x)))
       | (have t : List Part := x; clear t; subst x)
       | clear_value x)
    | with_reducible apply Keeps.refl
    | with_reducible apply Keeps.ite
    | with_reducible apply Keeps.then_ (keep_logMasked ..)
    | with_reducible apply Keeps.then_ (keep_logDetect ..)
    | with_reducible apply Keeps.then_ (keep_markCoreFault ..)
    | with_reducible apply Keeps.then_ (keep_doubleBit ..)
    | split
    | with_reducible apply Keeps.upd_flt
    | decide

theorem frame_analogSupplyDip (rf : Bool) (uV : Nat) :
    Kept [.landfall, .sxChannel, .sxCell, .sxStage, .sxAux, .sxLaw, .sxRest, .outlet, .rdr, .lkOut, .lkOutlet,
        .lkLatch, .lkRest, .wrk, .log, .flt, .pwr] (.analogSupplyDip rf uV) := by
  intro s s' e
  change execAnalogSupplyDip rf uV s = .next s' at e
  unfold execAnalogSupplyDip at e
  injection e with e
  subst e
  repeat' first
    | with_reducible assumption
    | (extract_lets -merge +onlyGivenNames x
       first
       | (refine Keeps.cut (x := x) (fun hx => ?_) ?_; (on_goal 1 => clear_value x)
          (on_goal 2 => (unfold x; clear x)))
       | (refine Keeps.cut (x := x.2) (fun hx => ?_) ?_; (on_goal 1 => clear_value x)
          (on_goal 2 => (unfold x; clear x)))
       | (have t : List Part := x; clear t; subst x)
       | clear_value x)
    | with_reducible apply Keeps.refl
    | with_reducible apply Keeps.ite
    | with_reducible apply Keeps.then_ (keep_logDetect ..)
    | with_reducible apply Keeps.then_ (keep_noteRail ..)
    | with_reducible apply Keeps.then_ (keep_excursion ..)
    | with_reducible apply Keeps.then_ (keep_settle ..)
    | with_reducible apply Keeps.then_ (keep_updLandfall ..)
    | with_reducible apply Keeps.then_ (keep_fieldOff ..)
    | with_reducible apply Keeps.then_ (keep_vddaLost ..)
    | decide
    | (beta_reduce; split)

theorem frame_analogSupplyReturn (rf : Bool) (uV : Nat) :
    Kept [.landfall, .log, .flt, .pwr] (.analogSupplyReturn rf uV) := by
  intro s s' e
  change execAnalogSupplyReturn rf uV s = .next s' at e
  unfold execAnalogSupplyReturn at e
  injection e with e
  subst e
  repeat' first
    | with_reducible assumption
    | (extract_lets -merge +onlyGivenNames x
       first
       | (refine Keeps.cut (x := x) (fun hx => ?_) ?_; (on_goal 1 => clear_value x)
          (on_goal 2 => (unfold x; clear x)))
       | (refine Keeps.cut (x := x.2) (fun hx => ?_) ?_; (on_goal 1 => clear_value x)
          (on_goal 2 => (unfold x; clear x)))
       | clear_value x)
    | with_reducible apply Keeps.refl
    | with_reducible apply Keeps.ite
    | with_reducible apply Keeps.then_ (keep_logClear ..)
    | with_reducible apply Keeps.then_ (keep_noteRail ..)
    | with_reducible apply Keeps.then_ (keep_updLandfall ..)
    | decide
    | (beta_reduce; split)

theorem frame_logRecordWrite (fail : Bool) :
    Kept [.hostSessions, .hostRest, .log] (.logRecordWrite fail) := by
  intro s s' e
  change execLogRecordWrite fail s = .next s' at e
  unfold execLogRecordWrite at e
  injection e with e
  subst e
  repeat' first
    | with_reducible assumption
    | (extract_lets -merge +onlyGivenNames x
       first
       | (refine Keeps.cut (x := x) (fun hx => ?_) ?_; (on_goal 1 => clear_value x)
          (on_goal 2 => (unfold x; clear x)))
       | (refine Keeps.cut (x := x.2) (fun hx => ?_) ?_; (on_goal 1 => clear_value x)
          (on_goal 2 => (unfold x; clear x)))
       | clear_value x)
    | with_reducible apply Keeps.refl
    | with_reducible apply Keeps.ite
    | with_reducible apply Keeps.then_ (keep_logMasked ..)
    | with_reducible apply Keeps.then_ (keep_writeRecord ..)
    | split
    | with_reducible apply Keeps.upd_log
    | decide

theorem frame_logbookScanEnd (device : Option Nat) :
    Kept [.log] (.logbookScanEnd device) := by
  intro s s' e
  change execLogbookScanEnd device s = .next s' at e
  unfold execLogbookScanEnd at e
  injection e with e
  subst e
  repeat' first
    | with_reducible assumption
    | (extract_lets -merge +onlyGivenNames x
       first
       | (refine Keeps.cut (x := x) (fun hx => ?_) ?_; (on_goal 1 => clear_value x)
          (on_goal 2 => (unfold x; clear x)))
       | (refine Keeps.cut (x := x.2) (fun hx => ?_) ?_; (on_goal 1 => clear_value x)
          (on_goal 2 => (unfold x; clear x)))
       | clear_value x)
    | with_reducible apply Keeps.refl
    | with_reducible apply Keeps.ite
    | with_reducible apply Keeps.then_ (keep_logMasked ..)
    | split
    | with_reducible apply Keeps.upd_log
    | decide

end Sys2Proof.Machine
end

