-- ==== Sys2Proof/Laws/FrameHostRun.lean ====
section
/-!
SUPPORT. What each operation of Machine/HostRun.lean leaves unchanged.
-/
namespace Sys2Proof.Machine

set_option linter.unreachableTactic false
set_option linter.unusedTactic false
set_option linter.tactic.unusedName false

theorem keep_runRead (s : State) (opId sid addr count : Nat) :
    Keeps [.hostSessions, .hostOps] s (runRead s opId sid addr count) := by
  unfold runRead
  repeat' first
    | with_reducible assumption
    | (extract_lets -merge +onlyGivenNames x
       first
       | (refine Keeps.cut (x := x) (fun hx => ?_) ?_; (on_goal 1 => clear_value x)
          (on_goal 2 => (unfold x; clear x)))
       | (refine Keeps.cut (x := x.2) (fun hx => ?_) ?_; (on_goal 1 => clear_value x)
          (on_goal 2 => (unfold x; clear x)))
       | clear_value x)
    | with_reducible apply Keeps.refl
    | with_reducible apply Keeps.then_ (keep_readWords ..)
    | with_reducible apply Keeps.then_ (keep_setResult ..)
    | decide

theorem keep_showResult (s : State) (opId : Nat) (r : Status × Bytes) :
    Keeps [.hostOps] s (showResult s opId r) := by
  unfold showResult
  repeat' first
    | with_reducible assumption
    | (extract_lets -merge +onlyGivenNames x
       first
       | (refine Keeps.cut (x := x) (fun hx => ?_) ?_; (on_goal 1 => clear_value x)
          (on_goal 2 => (unfold x; clear x)))
       | (refine Keeps.cut (x := x.2) (fun hx => ?_) ?_; (on_goal 1 => clear_value x)
          (on_goal 2 => (unfold x; clear x)))
       | clear_value x)
    | with_reducible apply Keeps.refl
    | with_reducible apply Keeps.then_ (keep_setResult ..)
    | decide

theorem runOp_barrier (s : State) (x : Op) (h : x.cmd = .barrier) :
    Keeps [.hostOps] s (runOp s x) := by
  unfold runOp
  simp only [h]
  exact keep_showResult s _ _

theorem runOp_healthGet (s : State) (x : Op) (h : x.cmd = .healthGet) :
    Keeps [.hostOps] s (runOp s x) := by
  unfold runOp
  simp only [h]
  exact keep_showResult s _ _

theorem runOp_journalRead (s : State) (x : Op) {a0 : Nat} {a1 : Nat} (h : x.cmd = .journalRead a0 a1) :
    Keeps [.hostOps] s (runOp s x) := by
  unfold runOp
  simp only [h]
  exact keep_showResult s _ _

theorem runOp_logRead (s : State) (x : Op) {a0 : Nat} {a1 : Nat} (h : x.cmd = .logRead a0 a1) :
    Keeps [.hostOps] s (runOp s x) := by
  unfold runOp
  simp only [h]
  exact keep_showResult s _ _

theorem runOp_readParam (s : State) (x : Op) {a0 : Nat} {a1 : Nat} (h : x.cmd = .readParam a0 a1) :
    Keeps [.hostSessions, .hostOps] s (runOp s x) := by
  unfold runOp
  simp only [h]
  exact keep_runRead s _ _ _ _

theorem runOp_writeParam (s : State) (x : Op) {a0 : Nat} {a1 : List Word} (h : x.cmd = .writeParam a0 a1) :
    Keeps ([Part.cfg, Part.sxChannel, Part.sxAux, Part.sxSd, Part.sxLaw, Part.sxRest, Part.rdr, Part.merFe,
        Part.merLeg, Part.merRegs, Part.com, Part.disp, Part.txl, Part.ll, Part.mgr] ++ [Part.wrk,
        Part.hostSessions, Part.hostOps, Part.hostJournal, Part.hostRest, Part.tamper, Part.log, Part.flt]) s (runOp
        s x) := by
  unfold runOp
  simp only [h]
  exact ((keep_runWrite s _ _ _ _).mono (by decide)).trans ((keep_resolveOp _ _ _ _).mono (by decide))

theorem runOp_telFix (s : State) (x : Op) {a0 : Nat} {a1 : Bool} (h : x.cmd = .telFix a0 a1) :
    Keeps [.sxCell, .sxAux, .sxFix, .hostOps] s (runOp s x) := by
  unfold runOp
  simp only [h]
  exact keep_runTelFix s _ _ _

theorem runOp_sessionAuthorise (s : State) (x : Op) {a0 : Nat} {a1 : Nat} {a2 : Bytes} (h : x.cmd =
    .sessionAuthorise a0 a1 a2) :
    Keeps [.sxChannel, .sxCell, .sxStage, .sxAux, .sxRest, .outlet, .rdr, .merMail, .com, .lkOut, .lkOutlet,
        .lkRest, .wrk, .hostOps, .hostJournal, .log, .flt] s (runOp s x) := by
  unfold runOp
  simp only [h]
  exact keep_runAuthorise s _ _ _ _

theorem runOp_sessionCert (s : State) (x : Op) {a0 : Nat} {a1 : Bytes} {a2 : Chunk} (h : x.cmd = .sessionCert a0 a1
    a2) :
    Keeps [.outlet, .hostOps, .hostJournal, .hostRest, .fw] s (runOp s x) := by
  unfold runOp
  simp only [h]
  exact keep_runCert s _ _ _ _

theorem runOp_sessionStop (s : State) (x : Op) {a0 : Nat} (h : x.cmd = .sessionStop a0) :
    Keeps [.sxChannel, .sxCell, .sxStage, .sxAux, .sxRest, .outlet, .rdr, .lkOut, .lkOutlet, .lkRest, .wrk,
        .hostOps, .hostJournal, .log, .flt] s (runOp s x) := by
  unfold runOp
  simp only [h]
  exact keep_runStop s _ _

theorem runOp_authTableLoad (s : State) (x : Op) {a0 : Chunk} (h : x.cmd = .authTableLoad a0) :
    Keeps [.com, .hostOps, .hostJournal, .hostRest, .fw] s (runOp s x) := by
  unfold runOp
  simp only [h]
  exact keep_runAuthTable s _ _ _

theorem runOp_accountLoad (s : State) (x : Op) {a0 : Nat} {a1 : Nat} {a2 : Int} (h : x.cmd = .accountLoad a0 a1 a2) :
    Keeps [.com, .hostOps, .hostJournal, .log] s (runOp s x) := by
  unfold runOp
  simp only [h]
  exact keep_runAccount s _ _ _ _

theorem runOp_siteLimitSet (s : State) (x : Op) {a0 : Nat} {a1 : List (Nat × Nat)} (h : x.cmd = .siteLimitSet a0 a1) :
    Keeps [.txl, .mgr, .hostOps, .hostJournal, .locker] s (runOp s x) := by
  unfold runOp
  simp only [h]
  exact keep_runSiteLimit s _ _ _

theorem runOp_weatherHold (s : State) (x : Op) {a0 : Nat} (h : x.cmd = .weatherHold a0) :
    Keeps [.sxChannel, .sxCell, .sxStage, .sxAux, .sxRest, .outlet, .rdr, .com, .lkOut, .lkOutlet, .lkRest, .wrk,
        .hostOps, .hostJournal, .log, .flt] s (runOp s x) := by
  unfold runOp
  simp only [h]
  exact keep_runWeather s _ _

theorem runOp_scrollSet (s : State) (x : Op) {a0 : List ScrollItem} (h : x.cmd = .scrollSet a0) :
    Keeps [.com, .hostOps, .hostJournal] s (runOp s x) := by
  unfold runOp
  simp only [h]
  exact Keeps.then_ (keep_resolveOp _ _ _ _) (by decide) (Keeps.upd_com (Keeps.refl _ _) (by decide) fun h => h)

theorem runOp_displayRect (s : State) (x : Op) {a0 : Nat} {a1 : Nat} {a2 : Nat} {a3 : Nat} {a4 : Bytes} (h : x.cmd =
    .displayRect a0 a1 a2 a3 a4) :
    Keeps [.disp, .hostOps, .hostJournal] s (runOp s x) := by
  unfold runOp
  simp only [h]
  exact keep_runRect s _ _ _

theorem runOp_tariffLoad (s : State) (x : Op) {a0 : Chunk} (h : x.cmd = .tariffLoad a0) :
    Keeps [.merLeg, .merTar, .hostOps, .hostJournal, .hostRest, .fw] s (runOp s x) := by
  unfold runOp
  simp only [h]
  exact keep_runTariff s _ _ _

theorem runOp_clockSet (s : State) (x : Op) {a0 : Nat} (h : x.cmd = .clockSet a0) :
    Keeps [.merLeg, .merChr, .merTar, .hostOps, .hostJournal] s (runOp s x) := by
  unfold runOp
  simp only [h]
  exact keep_runClockSet s _ _ _

theorem runOp_billingClose (s : State) (x : Op) (h : x.cmd = .billingClose) :
    Keeps [.merRest, .hostOps, .hostJournal] s (runOp s x) := by
  unfold runOp
  simp only [h]
  exact keep_runBillingClose s _

theorem runOp_safetyConfirm (s : State) (x : Op) {a0 : Nat} {a1 : Bool} (h : x.cmd = .safetyConfirm a0 a1) :
    Keeps [.sxChannel, .sxCell, .sxStage, .sxAux, .sxLaw, .sxRest, .outlet, .rdr, .lkOut, .lkOutlet, .lkLatch,
        .lkConf, .lkRest, .wrk, .hostOps, .hostJournal, .log, .flt] s (runOp s x) := by
  unfold runOp
  simp only [h]
  exact keep_runConfirm s _ _ _

theorem runOp_latchClear (s : State) (x : Op) {a0 : Nat} {a1 : Nat} (h : x.cmd = .latchClear a0 a1) :
    Keeps [.landfall, .sxChannel, .sxCell, .sxStage, .sxAux, .sxLaw, .sxRest, .outlet, .rdr, .merLeg, .disp, .lkOut,
        .lkOutlet, .lkLatch, .lkRest, .wrk, .hostOps, .hostJournal, .log, .flt] s (runOp s x) := by
  unfold runOp
  simp only [h]
  exact keep_runLatchClear s _ _ _

theorem runOp_keyImport (s : State) (x : Op) {a0 : Nat} {a1 : Nat} {a2 : Bytes} {a3 : Bytes} {a4 : Unwrapped} {a5 :
    TagUpsets} (h : x.cmd = .keyImport a0 a1 a2 a3 a4 a5) :
    Keeps [.txl, .hostSessions, .hostOps, .hostJournal, .hostRest, .locker, .fw, .log, .flt] s (runOp s x) := by
  unfold runOp
  simp only [h]
  exact keep_runImport s _ _ _ _ _ _ _

theorem runOp_keyDerive (s : State) (x : Op) {a0 : Nat} {a1 : Nat} {a2 : Bytes} {a3 : Bytes} {a4 : TagUpsets} (h :
    x.cmd = .keyDerive a0 a1 a2 a3 a4) :
    Keeps [.hostOps, .hostJournal, .locker, .log, .flt] s (runOp s x) := by
  unfold runOp
  simp only [h]
  exact keep_runDerive s _ _ _ _ _ _

theorem runOp_keyInvalidate (s : State) (x : Op) {a0 : Nat} (h : x.cmd = .keyInvalidate a0) :
    Keeps [.txl, .hostSessions, .hostOps, .hostJournal, .hostRest, .locker, .fw] s (runOp s x) := by
  unfold runOp
  simp only [h]
  exact keep_runInvalidate s _ _

theorem runOp_keyEncrypt (s : State) (x : Op) {a0 : Nat} {a1 : Bytes} {a2 : Bytes} {a3 : Bytes} {a4 : TagUpsets} (h
    : x.cmd = .keyEncrypt a0 a1 a2 a3 a4) :
    Keeps [.hostOps, .locker, .log, .flt] s (runOp s x) := by
  unfold runOp
  simp only [h]
  exact keep_runUse s _ _ _ _ _ _ (fun _ _ _ => Keeps.refl _ _) (by decide)

theorem runOp_keyDecrypt (s : State) (x : Op) {a0 : Nat} {a1 : Bytes} {a2 : Bytes} {a3 : Bytes} {a4 : Bool} {a5 :
    TagUpsets} (h : x.cmd = .keyDecrypt a0 a1 a2 a3 a4 a5) :
    Keeps [.hostOps, .locker, .log, .flt] s (runOp s x) := by
  unfold runOp
  simp only [h]
  refine keep_runUse s _ _ _ _ _ _ (fun t y k => ?_) (by decide)
  unfold useDecrypt
  split <;> exact Keeps.refl _ _

theorem runOp_keySign (s : State) (x : Op) {a0 : Nat} {a1 : Bytes} {a2 : TagUpsets} (h : x.cmd = .keySign a0 a1 a2) :
    Keeps [.free, .hostOps, .locker, .log, .flt] s (runOp s x) := by
  unfold runOp
  simp only [h]
  exact keep_runUse s _ _ _ _ _ _ (fun t y k => (keep_signWith t _ _ _).mono (by decide)) (by decide)

theorem runOp_keyVerify (s : State) (x : Op) {a0 : Nat} {a1 : Bytes} {a2 : Bytes} {a3 : Bool} {a4 : TagUpsets} (h :
    x.cmd = .keyVerify a0 a1 a2 a3 a4) :
    Keeps [.hostOps, .locker, .log, .flt] s (runOp s x) := by
  unfold runOp
  simp only [h]
  exact keep_runUse s _ _ _ _ _ _ (fun _ _ _ => Keeps.refl _ _) (by decide)

theorem runOp_keyMac (s : State) (x : Op) {a0 : Nat} {a1 : Bytes} {a2 : TagUpsets} (h : x.cmd = .keyMac a0 a1 a2) :
    Keeps [.hostOps, .locker, .log, .flt] s (runOp s x) := by
  unfold runOp
  simp only [h]
  exact keep_runUse s _ _ _ _ _ _ (fun _ _ _ => Keeps.refl _ _) (by decide)

theorem runOp_keyPublic (s : State) (x : Op) {a0 : Nat} {a1 : TagUpsets} (h : x.cmd = .keyPublic a0 a1) :
    Keeps [.hostOps, .locker, .log, .flt] s (runOp s x) := by
  unfold runOp
  simp only [h]
  refine keep_runUse s _ _ _ _ _ _ (fun t y k => ?_) (by decide)
  unfold usePublic
  split
  · exact Keeps.refl _ _
  · extract_lets n
    split <;> exact Keeps.refl _ _

theorem runOp_attest (s : State) (x : Op) {a0 : Bytes} {a1 : TagUpsets} (h : x.cmd = .attest a0 a1) :
    Keeps [.free, .hostOps, .locker, .log, .flt] s (runOp s x) := by
  unfold runOp
  simp only [h]
  exact keep_runAttest s _ _ _

theorem runOp_fwStage (s : State) (x : Op) {a0 : Nat} {a1 : Chunk} (h : x.cmd = .fwStage a0 a1) :
    Keeps [.flash, .outlet, .hostOps, .hostRest, .fw, .merStage] s (runOp s x) := by
  unfold runOp
  simp only [h]
  exact keep_runStage s _ _ _ _

theorem runOp_fwVerify (s : State) (x : Op) {a0 : Nat} {a1 : Bool} {a2 : TagUpsets} (h : x.cmd = .fwVerify a0 a1 a2) :
    Keeps [.chart, .outlet, .hostOps, .locker, .fw, .log, .flt] s (runOp s x) := by
  unfold runOp
  simp only [h]
  exact keep_runVerify s _ _ _ _

theorem runOp_fwActivate (s : State) (x : Op) {a0 : Nat} (h : x.cmd = .fwActivate a0) :
    Keeps ([Part.free, Part.landfall, Part.chart, Part.cfg, Part.sxChannel, Part.sxCell, Part.sxStage, Part.sxAux,
        Part.sxSd, Part.sxLaw, Part.sxFix, Part.sxCount, Part.sxRest, Part.outlet, Part.cooling] ++ [Part.drive,
        Part.rdr, Part.merLeg, Part.merChr, Part.merRest, Part.disp, Part.lkOut, Part.lkOutlet, Part.lkLatch,
        Part.lkRest, Part.txl, Part.safe, Part.ll, Part.mgr, Part.wrk] ++ [Part.hostSessions, Part.hostOps,
        Part.hostJournal, Part.hostRest, Part.locker, Part.fw, Part.tamper, Part.log, Part.flt, Part.pwr]) s (runOp
        s x) := by
  unfold runOp
  simp only [h]
  exact keep_runActivate s _ _

theorem runOp_unknown (s : State) (x : Op) {a0 : Nat} (h : x.cmd = .unknown a0) :
    Keeps [.hostOps, .hostJournal] s (runOp s x) := by
  unfold runOp
  simp only [h]
  exact keep_resolveOp s _ _ _

theorem runOp_latchClear_1 (s : State) (x : Op) {i : Nat} (h : x.cmd = .latchClear 1 i) :
    Keeps [.sxChannel, .sxCell, .sxStage, .sxAux, .sxRest, .outlet, .lkOut, .lkRest, .wrk, .hostOps, .hostJournal,
        .log, .flt] s (runOp s x) := by
  unfold runOp
  simp only [h]
  unfold runLatchClear
  exact ((keep_clearStage s _).mono (by decide)).trans ((keep_resolveOp _ _ _ _).mono (by decide))

theorem runOp_latchClear_2 (s : State) (x : Op) {i : Nat} (h : x.cmd = .latchClear 2 i) :
    Keeps [.sxCell, .sxStage, .sxRest, .outlet, .wrk, .hostOps, .hostJournal, .log, .flt] s (runOp s x) := by
  unfold runOp
  simp only [h]
  unfold runLatchClear
  exact ((keep_clearCell s _).mono (by decide)).trans ((keep_resolveOp _ _ _ _).mono (by decide))

theorem runOp_latchClear_3 (s : State) (x : Op) {i : Nat} (h : x.cmd = .latchClear 3 i) :
    Keeps [.sxChannel, .sxCell, .sxStage, .sxAux, .sxLaw, .sxRest, .outlet, .rdr, .lkOut, .lkOutlet, .lkLatch,
        .lkRest, .wrk, .hostOps, .hostJournal, .log, .flt] s (runOp s x) := by
  unfold runOp
  simp only [h]
  unfold runLatchClear
  exact ((keep_clearOutlet s _).mono (by decide)).trans ((keep_resolveOp _ _ _ _).mono (by decide))

theorem runOp_latchClear_4 (s : State) (x : Op) {i : Nat} (h : x.cmd = .latchClear 4 i) :
    Keeps [.sxChannel, .sxCell, .sxStage, .sxAux, .sxLaw, .sxRest, .outlet, .rdr, .lkOut, .lkOutlet, .lkLatch,
        .lkRest, .wrk, .hostOps, .hostJournal, .log, .flt] s (runOp s x) := by
  unfold runOp
  simp only [h]
  unfold runLatchClear
  exact ((keep_clearSafety s).mono (by decide)).trans ((keep_resolveOp _ _ _ _).mono (by decide))

theorem runOp_latchClear_5 (s : State) (x : Op) {i : Nat} (h : x.cmd = .latchClear 5 i) :
    Keeps [.outlet, .merLeg, .disp, .hostOps, .hostJournal, .log, .flt] s (runOp s x) := by
  unfold runOp
  simp only [h]
  unfold runLatchClear
  exact ((keep_clearDisplay s).mono (by decide)).trans ((keep_resolveOp _ _ _ _).mono (by decide))

theorem runOp_latchClear_6 (s : State) (x : Op) {i : Nat} (h : x.cmd = .latchClear 6 i) :
    Keeps [.landfall, .hostOps, .hostJournal] s (runOp s x) := by
  unfold runOp
  simp only [h]
  unfold runLatchClear
  exact ((keep_clearTamper s).mono (by decide)).trans ((keep_resolveOp _ _ _ _).mono (by decide))

theorem keep_runOp (s : State) (x : Op) : Keeps ([Part.free, Part.landfall, Part.chart, Part.cfg, Part.flash,
    Part.sxChannel, Part.sxCell, Part.sxStage, Part.sxAux, Part.sxSd, Part.sxLaw, Part.sxFix, Part.sxCount,
    Part.sxRest, Part.outlet] ++ [Part.cooling, Part.drive, Part.rdr, Part.merFe, Part.merLeg, Part.merRegs,
    Part.merChr, Part.merTar, Part.merMail, Part.merRest, Part.com, Part.disp, Part.lkOut, Part.lkOutlet,
    Part.lkLatch] ++ [Part.lkConf, Part.lkRest, Part.txl, Part.safe, Part.ll, Part.mgr, Part.wrk, Part.hostSessions,
    Part.hostOps, Part.hostJournal, Part.hostRest, Part.locker, Part.fw, Part.tamper, Part.log] ++ [Part.flt,
    Part.pwr, Part.merStage]) s (runOp s x) := by
  cases h : x.cmd with
  | barrier => exact (runOp_barrier s x h).mono (by decide)
  | healthGet => exact (runOp_healthGet s x h).mono (by decide)
  | journalRead _ _ => exact (runOp_journalRead s x h).mono (by decide)
  | logRead _ _ => exact (runOp_logRead s x h).mono (by decide)
  | readParam _ _ => exact (runOp_readParam s x h).mono (by decide)
  | writeParam _ _ => exact (runOp_writeParam s x h).mono (by decide)
  | telFix _ _ => exact (runOp_telFix s x h).mono (by decide)
  | sessionAuthorise _ _ _ => exact (runOp_sessionAuthorise s x h).mono (by decide)
  | sessionCert _ _ _ => exact (runOp_sessionCert s x h).mono (by decide)
  | sessionStop _ => exact (runOp_sessionStop s x h).mono (by decide)
  | authTableLoad _ => exact (runOp_authTableLoad s x h).mono (by decide)
  | accountLoad _ _ _ => exact (runOp_accountLoad s x h).mono (by decide)
  | siteLimitSet _ _ => exact (runOp_siteLimitSet s x h).mono (by decide)
  | weatherHold _ => exact (runOp_weatherHold s x h).mono (by decide)
  | scrollSet _ => exact (runOp_scrollSet s x h).mono (by decide)
  | displayRect _ _ _ _ _ => exact (runOp_displayRect s x h).mono (by decide)
  | tariffLoad _ => exact (runOp_tariffLoad s x h).mono (by decide)
  | clockSet _ => exact (runOp_clockSet s x h).mono (by decide)
  | billingClose => exact (runOp_billingClose s x h).mono (by decide)
  | safetyConfirm _ _ => exact (runOp_safetyConfirm s x h).mono (by decide)
  | latchClear _ _ => exact (runOp_latchClear s x h).mono (by decide)
  | keyImport _ _ _ _ _ _ => exact (runOp_keyImport s x h).mono (by decide)
  | keyDerive _ _ _ _ _ => exact (runOp_keyDerive s x h).mono (by decide)
  | keyInvalidate _ => exact (runOp_keyInvalidate s x h).mono (by decide)
  | keyEncrypt _ _ _ _ _ => exact (runOp_keyEncrypt s x h).mono (by decide)
  | keyDecrypt _ _ _ _ _ _ => exact (runOp_keyDecrypt s x h).mono (by decide)
  | keySign _ _ _ => exact (runOp_keySign s x h).mono (by decide)
  | keyVerify _ _ _ _ _ => exact (runOp_keyVerify s x h).mono (by decide)
  | keyMac _ _ _ => exact (runOp_keyMac s x h).mono (by decide)
  | keyPublic _ _ => exact (runOp_keyPublic s x h).mono (by decide)
  | attest _ _ => exact (runOp_attest s x h).mono (by decide)
  | fwStage _ _ => exact (runOp_fwStage s x h).mono (by decide)
  | fwVerify _ _ _ => exact (runOp_fwVerify s x h).mono (by decide)
  | fwActivate _ => exact (runOp_fwActivate s x h).mono (by decide)
  | unknown _ => exact (runOp_unknown s x h).mono (by decide)

theorem keep_noteOutcome (s : State) (x : Op) :
    Keeps [.hostJournal] s (noteOutcome s x) := by
  unfold noteOutcome
  repeat' first
    | with_reducible assumption
    | (extract_lets -merge +onlyGivenNames x
       first
       | (refine Keeps.cut (x := x) (fun hx => ?_) ?_; (on_goal 1 => clear_value x)
          (on_goal 2 => (unfold x; clear x)))
       | (refine Keeps.cut (x := x.2) (fun hx => ?_) ?_; (on_goal 1 => clear_value x)
          (on_goal 2 => (unfold x; clear x)))
       | (have t : HostIf := x; clear t; subst x)
       | clear_value x)
    | with_reducible apply Keeps.refl
    | (beta_reduce; split)
    | with_reducible apply Keeps.upd_host
    | (with_reducible apply Or.inl; decide)
    | (with_reducible apply Or.inr; with_reducible rfl)
    | (with_reducible apply Or.inr; rfl)
    | decide

theorem keep_setRunning (s : State) (x : Op) :
    Keeps [.hostOps, .hostJournal] s (setRunning s x) := by
  unfold setRunning
  repeat' first
    | with_reducible assumption
    | (extract_lets -merge +onlyGivenNames x
       first
       | (refine Keeps.cut (x := x) (fun hx => ?_) ?_; (on_goal 1 => clear_value x)
          (on_goal 2 => (unfold x; clear x)))
       | (refine Keeps.cut (x := x.2) (fun hx => ?_) ?_; (on_goal 1 => clear_value x)
          (on_goal 2 => (unfold x; clear x)))
       | clear_value x)
    | with_reducible apply Keeps.refl
    | with_reducible apply Keeps.then_ (keep_updJrn ..)
    | with_reducible apply Keeps.then_ (keep_updOp ..)
    | decide

theorem keep_startOp {F : List Part} (s : State) (x : Op) (h : ∀ t, Keeps F t (runOp t x))
    (hF : ∀ p ∈ ([.hostSessions, .hostOps, .hostJournal, .hostRest] : List Part), p ∈ F) : Keeps F s (startOp s x)
        := by
  have m : ∀ {r e : State}, Keeps [.hostSessions, .hostOps, .hostJournal, .hostRest] r e → Keeps F r e := fun h =>
      h.mono hF
  unfold startOp
  exact ((m ((keep_setRunning s x).mono (by decide))).trans (h _)).trans (m ((keep_noteOutcome _ x).mono (by decide)))

theorem keep_tryStart (s : State) (opId : Nat) : Keeps ([Part.free, Part.landfall, Part.chart, Part.cfg, Part.flash,
    Part.sxChannel, Part.sxCell, Part.sxStage, Part.sxAux, Part.sxSd, Part.sxLaw, Part.sxFix, Part.sxCount,
    Part.sxRest, Part.outlet] ++ [Part.cooling, Part.drive, Part.rdr, Part.merFe, Part.merLeg, Part.merRegs,
    Part.merChr, Part.merTar, Part.merMail, Part.merRest, Part.com, Part.disp, Part.lkOut, Part.lkOutlet,
    Part.lkLatch] ++ [Part.lkConf, Part.lkRest, Part.txl, Part.safe, Part.ll, Part.mgr, Part.wrk, Part.hostSessions,
    Part.hostOps, Part.hostJournal, Part.hostRest, Part.locker, Part.fw, Part.tamper, Part.log] ++ [Part.flt,
    Part.pwr, Part.merStage]) s (tryStart s opId) := by
  unfold tryStart
  split
  · exact Keeps.ite (keep_startOp s _ (fun t => (keep_runOp t _).mono (by decide)) (by decide)) (Keeps.refl _ _)
  · exact Keeps.refl _ _

theorem keep_deriveEnd (s : State) (x : Op) (st : Status) :
    Keeps [.txl, .hostSessions, .hostRest, .locker, .fw, .log, .flt] s (deriveEnd s x st) := by
  unfold deriveEnd
  repeat' first
    | with_reducible assumption
    | (extract_lets -merge +onlyGivenNames x
       first
       | (refine Keeps.cut (x := x) (fun hx => ?_) ?_; (on_goal 1 => clear_value x)
          (on_goal 2 => (unfold x; clear x)))
       | (refine Keeps.cut (x := x.2) (fun hx => ?_) ?_; (on_goal 1 => clear_value x)
          (on_goal 2 => (unfold x; clear x)))
       | clear_value x)
    | with_reducible apply Keeps.refl
    | with_reducible apply Keeps.ite
    | with_reducible apply Keeps.then_ (keep_endDerive ..)
    | decide
    | split

theorem keep_freeSlots (s : State) (opId : Nat) :
    Keeps [.locker] s (freeSlots s opId) := by
  unfold freeSlots
  repeat' first
    | with_reducible assumption
    | (extract_lets -merge +onlyGivenNames x
       first
       | (refine Keeps.cut (x := x) (fun hx => ?_) ?_; (on_goal 1 => clear_value x)
          (on_goal 2 => (unfold x; clear x)))
       | (refine Keeps.cut (x := x.2) (fun hx => ?_) ?_; (on_goal 1 => clear_value x)
          (on_goal 2 => (unfold x; clear x)))
       | clear_value x)
    | with_reducible apply Keeps.refl
    | with_reducible apply Keeps.upd_locker
    | decide

theorem keep_finishOp (s : State) (x : Op) :
    Keeps [.txl, .hostSessions, .hostOps, .hostJournal, .hostRest, .locker, .fw, .log, .flt] s (finishOp s x) := by
  unfold finishOp
  repeat' first
    | with_reducible assumption
    | (extract_lets -merge +onlyGivenNames x
       first
       | (refine Keeps.cut (x := x) (fun hx => ?_) ?_; (on_goal 1 => clear_value x)
          (on_goal 2 => (unfold x; clear x)))
       | (refine Keeps.cut (x := x.2) (fun hx => ?_) ?_; (on_goal 1 => clear_value x)
          (on_goal 2 => (unfold x; clear x)))
       | (have t : HostIf := x; clear t; subst x)
       | clear_value x)
    | with_reducible apply Keeps.refl
    | with_reducible apply Keeps.ite
    | with_reducible apply Keeps.then_ (keep_sendSession ..)
    | with_reducible apply Keeps.then_ (keep_updJrn ..)
    | with_reducible apply Keeps.then_ (keep_updOp ..)
    | with_reducible apply Keeps.then_ (keep_endSession ..)
    | with_reducible apply Keeps.then_ (keep_deriveEnd ..)
    | with_reducible apply Keeps.then_ (keep_freeSlots ..)
    | (beta_reduce; split)
    | with_reducible apply Keeps.upd_host
    | (with_reducible apply Or.inl; decide)
    | (with_reducible apply Or.inr; with_reducible rfl)
    | (with_reducible apply Or.inr; rfl)
    | decide

theorem keep_releaseResult (s : State) (opId : Nat) :
    Keeps [.hostOps, .hostJournal] s (releaseResult s opId) := by
  unfold releaseResult
  repeat' first
    | with_reducible assumption
    | (extract_lets -merge +onlyGivenNames x
       first
       | (refine Keeps.cut (x := x) (fun hx => ?_) ?_; (on_goal 1 => clear_value x)
          (on_goal 2 => (unfold x; clear x)))
       | (refine Keeps.cut (x := x.2) (fun hx => ?_) ?_; (on_goal 1 => clear_value x)
          (on_goal 2 => (unfold x; clear x)))
       | (have t : HostIf := x; clear t; subst x)
       | clear_value x)
    | with_reducible apply Keeps.refl
    | with_reducible apply Keeps.then_ (keep_dropHold ..)
    | with_reducible apply Keeps.upd_host
    | (with_reducible apply Or.inl; decide)
    | (with_reducible apply Or.inr; with_reducible rfl)
    | (with_reducible apply Or.inr; rfl)
    | decide

theorem keep_dropFrame (s : State) :
    Keeps [.hostRest] s (dropFrame s) := by
  unfold dropFrame
  repeat' first
    | with_reducible assumption
    | (extract_lets -merge +onlyGivenNames x
       first
       | (refine Keeps.cut (x := x) (fun hx => ?_) ?_; (on_goal 1 => clear_value x)
          (on_goal 2 => (unfold x; clear x)))
       | (refine Keeps.cut (x := x.2) (fun hx => ?_) ?_; (on_goal 1 => clear_value x)
          (on_goal 2 => (unfold x; clear x)))
       | (have t : HostIf := x; clear t; subst x)
       | clear_value x)
    | with_reducible apply Keeps.refl
    | with_reducible apply Keeps.upd_host
    | (with_reducible apply Or.inl; decide)
    | (with_reducible apply Or.inr; with_reducible rfl)
    | (with_reducible apply Or.inr; rfl)
    | decide

theorem keep_noteFrame (s : State) (f : Frame) :
    Keeps [.hostSessions] s (noteFrame s f) := by
  unfold noteFrame
  repeat' first
    | with_reducible assumption
    | (extract_lets -merge +onlyGivenNames x
       first
       | (refine Keeps.cut (x := x) (fun hx => ?_) ?_; (on_goal 1 => clear_value x)
          (on_goal 2 => (unfold x; clear x)))
       | (refine Keeps.cut (x := x.2) (fun hx => ?_) ?_; (on_goal 1 => clear_value x)
          (on_goal 2 => (unfold x; clear x)))
       | clear_value x)
    | with_reducible apply Keeps.refl
    | with_reducible apply Keeps.ite
    | with_reducible apply Keeps.then_ (keep_updSession ..)
    | decide
    | (beta_reduce; split)

theorem keep_repeatReply (s : State) (x : Session) (g : GivenReply) :
    Keeps [.hostSessions, .hostRest] s (repeatReply s x g) := by
  unfold repeatReply
  repeat' first
    | with_reducible assumption
    | (extract_lets -merge +onlyGivenNames x
       first
       | (refine Keeps.cut (x := x) (fun hx => ?_) ?_; (on_goal 1 => clear_value x)
          (on_goal 2 => (unfold x; clear x)))
       | (refine Keeps.cut (x := x.2) (fun hx => ?_) ?_; (on_goal 1 => clear_value x)
          (on_goal 2 => (unfold x; clear x)))
       | clear_value x)
    | with_reducible apply Keeps.refl
    | with_reducible apply Keeps.then_ (keep_sendSession ..)
    | decide

theorem keep_receive {F : List Part} (s : State) (f : Frame) (code : Nat) (body : Bytes) (act : State → Session →
    State)
    (ha : ∀ t x, Keeps F t (act t x)) (hF : ∀ p ∈ ([.hostSessions, .hostRest] : List Part), p ∈ F) :
    Keeps F s (receive s f code body act) := by
  have hs : Part.hostSessions ∈ F := hF _ (by decide)
  have hr : Part.hostRest ∈ F := hF _ (by decide)
  have m : ∀ {r e : State}, Keeps [.hostSessions, .hostRest] r e → Keeps F r e := fun h => h.mono hF
  unfold receive
  refine Keeps.ite (Keeps.refl _ _) ?_
  split
  · exact (keep_dropFrame s).mono fun p hp => hF p ((by decide : ∀ p ∈ ([.hostRest] : List Part), p ∈
      ([.hostSessions, .hostRest] : List Part)) p hp)
  · rename_i x _
    refine Keeps.ite ?_ ?_
    · exact ((keep_noteFrame s f).mono fun p hp => hF p ((by decide :
        ∀ p ∈ ([.hostSessions] : List Part), p ∈ ([.hostSessions, .hostRest] : List Part)) p hp)).trans (ha _ _)
    · extract_lets t
      have ht : Keeps F s t := (keep_updSession s _ _).mono fun p hp => hF p ((by decide :
        ∀ p ∈ ([.hostSessions] : List Part), p ∈ ([.hostSessions, .hostRest] : List Part)) p hp)
      clear_value t
      split
      · exact ht.trans ((keep_repeatReply t _ _).mono fun p hp => hF p ((by decide :
          ∀ p ∈ ([.hostSessions, .hostRest] : List Part), p ∈ ([.hostSessions, .hostRest] : List Part)) p hp))
      · refine m (Keeps.upd_host (Keeps.refl _ _) ?_ ?_ ?_ ?_)
        all_goals first | exact Or.inl (by decide) | exact Or.inr rfl

theorem keep_recordOp (s : State) (x : Session) (f : Frame) (c : HostCmd) :
    Keeps [.hostSessions, .hostOps, .hostJournal, .hostRest] s (recordOp s x f c) := by
  unfold recordOp
  repeat' first
    | with_reducible assumption
    | (extract_lets -merge +onlyGivenNames x
       first
       | (refine Keeps.cut (x := x) (fun hx => ?_) ?_; (on_goal 1 => clear_value x)
          (on_goal 2 => (unfold x; clear x)))
       | (refine Keeps.cut (x := x.2) (fun hx => ?_) ?_; (on_goal 1 => clear_value x)
          (on_goal 2 => (unfold x; clear x)))
       | (have t : HostIf := x; clear t; subst x)
       | clear_value x)
    | with_reducible apply Keeps.refl
    | with_reducible apply Keeps.then_ (keep_reply ..)
    | with_reducible apply Keeps.then_ (keep_updClass ..)
    | with_reducible apply Keeps.upd_host
    | (with_reducible apply Or.inl; decide)
    | (with_reducible apply Or.inr; with_reducible rfl)
    | (with_reducible apply Or.inr; rfl)
    | decide

theorem keep_acceptOp {F : List Part} (s : State) (x : Session) (f : Frame) (c : HostCmd)
    (h : ∀ t x, x.cmd = c → Keeps F t (runOp t x)) (hF : ∀ p ∈ ([.hostSessions, .hostOps, .hostJournal, .hostRest] :
        List Part), p ∈ F) :
    Keeps F s (acceptOp s x f c) := by
  unfold acceptOp
  extract_lets t y
  have ht : Keeps F s t := (keep_recordOp s x f c).mono fun p hp => hF p ((by decide :
    ∀ p ∈ ([.hostSessions, .hostOps, .hostJournal, .hostRest] : List Part), p ∈ ([.hostSessions, .hostOps,
        .hostJournal, .hostRest] : List Part)) p hp)
  exact Keeps.ite (ht.trans (keep_startOp t y (fun r => h r y rfl) hF)) ht

theorem keep_request {F : List Part} (s : State) (f : Frame) (c : HostCmd)
    (h : ∀ t x, x.cmd = c → Keeps F t (runOp t x)) (hF : ∀ p ∈ ([.hostSessions, .hostOps, .hostJournal, .hostRest] :
        List Part), p ∈ F) :
    Keeps F s (request s f c) := by
  have m : ∀ {r e : State}, Keeps [.hostSessions, .hostOps, .hostJournal, .hostRest] r e → Keeps F r e := fun h =>
      h.mono hF
  unfold request
  refine keep_receive s f _ _ _ (fun t x => ?_) fun p hp => hF p ((by decide :
    ∀ p ∈ ([.hostSessions, .hostRest] : List Part), p ∈ ([.hostSessions, .hostOps, .hostJournal, .hostRest] : List
        Part)) p hp)
  split
  · split
    · exact m (((keep_updClass t _ _).mono (by decide)).trans ((keep_reply _ _ _ _ _ _ _).mono (by decide)))
    · exact keep_acceptOp t x f c h hF
  · exact m ((keep_reply t _ _ _ _ _ _).mono (by decide))

theorem keep_replyCtl (s : State) (f : Frame) (r : CtlReply) :
    Keeps [.hostSessions, .hostRest] s (replyCtl s f r) := by
  unfold replyCtl
  repeat' first
    | with_reducible assumption
    | (extract_lets -merge +onlyGivenNames x
       first
       | (refine Keeps.cut (x := x) (fun hx => ?_) ?_; (on_goal 1 => clear_value x)
          (on_goal 2 => (unfold x; clear x)))
       | (refine Keeps.cut (x := x.2) (fun hx => ?_) ?_; (on_goal 1 => clear_value x)
          (on_goal 2 => (unfold x; clear x)))
       | clear_value x)
    | with_reducible apply Keeps.refl
    | with_reducible apply Keeps.then_ (keep_updSession ..)
    | with_reducible apply Keeps.then_ (keep_sendSession ..)
    | decide
    | (beta_reduce; split)

theorem keep_control {F : List Part} (s : State) (f : Frame) (code : Nat) (body : Bytes)
    (act : State → Session → CtlReply × State)
    (ha : ∀ t x, Keeps F t (act t x).2) (hF : ∀ p ∈ ([.hostSessions, .hostRest] : List Part), p ∈ F) :
    Keeps F s (control s f code body act) := by
  have m : ∀ {r e : State}, Keeps [.hostSessions, .hostRest] r e → Keeps F r e := fun h => h.mono hF
  unfold control
  refine keep_receive s f _ _ _ (fun t x => ?_) hF
  beta_reduce
  refine Keeps.ite (m ((keep_reply t _ _ _ _ _ _).mono (by decide))) (Keeps.ite ?_ ?_)
  · exact m (((keep_updClass t 0 _).mono (by decide)).trans ((keep_reply _ _ _ _ _ _ _).mono (by decide)))
  · exact ((m ((keep_updClass t 0 _).mono (by decide))).trans (ha _ x)).trans (m ((keep_replyCtl _ _ _).mono (by
      decide)))

end Sys2Proof.Machine
end

