-- ==== Sys2Proof/Laws/FrameHost.lean ====
section
/-!
SUPPORT. What each operation and command of Machine/Host.lean leaves unchanged.
-/
namespace Sys2Proof.Machine

set_option linter.unreachableTactic false
set_option linter.unusedTactic false
set_option linter.tactic.unusedName false

theorem keep_authFailed (s : State) (role : Fin 4) :
    Keeps [.hostSessions, .log] s (authFailed s role) := by
  unfold authFailed
  repeat' first
    | with_reducible assumption
    | (extract_lets -merge +onlyGivenNames x
       first
       | (refine Keeps.cut (x := x) (fun hx => ?_) ?_; (on_goal 1 => clear_value x)
          (on_goal 2 => (unfold x; clear x)))
       | (refine Keeps.cut (x := x.2) (fun hx => ?_) ?_; (on_goal 1 => clear_value x)
          (on_goal 2 => (unfold x; clear x)))
       | (have t : HostIf := x; clear t; subst x)
       | clear_value x)
    | with_reducible apply Keeps.refl
    | with_reducible apply Keeps.then_ (keep_logInfo ..)
    | with_reducible apply Keeps.upd_host
    | (with_reducible apply Or.inl; decide)
    | (with_reducible apply Or.inr; with_reducible rfl)
    | (with_reducible apply Or.inr; rfl)
    | decide

theorem keep_openChallenge (s : State) (f : Frame) (role : Fin 4) (nh : Bytes) :
    Keeps [.free, .hostSessions, .hostRest, .locker] s (openChallenge s f role nh) := by
  unfold openChallenge
  repeat' first
    | with_reducible assumption
    | (extract_lets -merge +onlyGivenNames x
       first
       | (refine Keeps.cut (x := x) (fun hx => ?_) ?_; (on_goal 1 => clear_value x)
          (on_goal 2 => (unfold x; clear x)))
       | (refine Keeps.cut (x := x.2) (fun hx => ?_) ?_; (on_goal 1 => clear_value x)
          (on_goal 2 => (unfold x; clear x)))
       | (have t : HostIf := x; clear t; subst x)
       | clear_value x)
    | with_reducible apply Keeps.refl
    | with_reducible apply Keeps.then_ (keep_drawBytes ..)
    | with_reducible apply Keeps.then_ (keep_useSlot ..)
    | with_reducible apply Keeps.then_ (keep_sendBare ..)
    | with_reducible apply Keeps.upd_host
    | (with_reducible apply Or.inl; decide)
    | (with_reducible apply Or.inr; with_reducible rfl)
    | (with_reducible apply Or.inr; rfl)
    | decide

theorem keep_sendReport (s : State) (sid : Nat) (role : Fin 4) :
    Keeps [.hostSessions, .hostRest, .log] s (sendReport s sid role) := by
  unfold sendReport
  repeat' first
    | with_reducible assumption
    | (extract_lets -merge +onlyGivenNames x
       first
       | (refine Keeps.cut (x := x) (fun hx => ?_) ?_; (on_goal 1 => clear_value x)
          (on_goal 2 => (unfold x; clear x)))
       | (refine Keeps.cut (x := x.2) (fun hx => ?_) ?_; (on_goal 1 => clear_value x)
          (on_goal 2 => (unfold x; clear x)))
       | clear_value x)
    | with_reducible apply Keeps.refl
    | with_reducible apply Keeps.then_ (keep_logInfo ..)
    | with_reducible apply Keeps.then_ (keep_sendSession ..)
    | (with_reducible apply Keeps.foldl; on_goal 2 => intros)
    | decide
    | (beta_reduce; split)

theorem keep_openSessionOf (s : State) (f : Frame) (c : Challenge) (key : Bytes) :
    Keeps [.hostSessions, .hostRest, .locker, .log] s (openSessionOf s f c key) := by
  unfold openSessionOf
  repeat' first
    | with_reducible assumption
    | (extract_lets -merge +onlyGivenNames x
       first
       | (refine Keeps.cut (x := x) (fun hx => ?_) ?_; (on_goal 1 => clear_value x)
          (on_goal 2 => (unfold x; clear x)))
       | (refine Keeps.cut (x := x.2) (fun hx => ?_) ?_; (on_goal 1 => clear_value x)
          (on_goal 2 => (unfold x; clear x)))
       | (have t : HostIf := x; clear t; subst x)
       | clear_value x)
    | with_reducible apply Keeps.refl
    | with_reducible apply Keeps.then_ (keep_useSlot ..)
    | with_reducible apply Keeps.then_ (keep_sendBare ..)
    | with_reducible apply Keeps.then_ (keep_sendReport ..)
    | with_reducible apply Keeps.upd_host
    | (with_reducible apply Or.inl; decide)
    | (with_reducible apply Or.inr; with_reducible rfl)
    | (with_reducible apply Or.inr; rfl)
    | decide

theorem keep_dropChallenge (s : State) (sid : Nat) :
    Keeps [.hostSessions] s (dropChallenge s sid) := by
  unfold dropChallenge
  repeat' first
    | with_reducible assumption
    | (extract_lets -merge +onlyGivenNames x
       first
       | (refine Keeps.cut (x := x) (fun hx => ?_) ?_; (on_goal 1 => clear_value x)
          (on_goal 2 => (unfold x; clear x)))
       | (refine Keeps.cut (x := x.2) (fun hx => ?_) ?_; (on_goal 1 => clear_value x)
          (on_goal 2 => (unfold x; clear x)))
       | (have t : HostIf := x; clear t; subst x)
       | clear_value x)
    | with_reducible apply Keeps.refl
    | with_reducible apply Keeps.upd_host
    | (with_reducible apply Or.inl; decide)
    | (with_reducible apply Or.inr; with_reducible rfl)
    | (with_reducible apply Or.inr; rfl)
    | decide

theorem keep_endCascades (s : State) :
    Keeps [.txl, .hostSessions, .hostRest, .locker, .fw] s (endCascades s) := by
  unfold endCascades
  repeat' first
    | with_reducible assumption
    | (extract_lets -merge +onlyGivenNames x
       first
       | (refine Keeps.cut (x := x) (fun hx => ?_) ?_; (on_goal 1 => clear_value x)
          (on_goal 2 => (unfold x; clear x)))
       | (refine Keeps.cut (x := x.2) (fun hx => ?_) ?_; (on_goal 1 => clear_value x)
          (on_goal 2 => (unfold x; clear x)))
       | clear_value x)
    | with_reducible apply Keeps.refl
    | with_reducible apply Keeps.ite
    | with_reducible apply Keeps.then_ (keep_invalidateSlot ..)
    | (with_reducible apply Keeps.foldl; on_goal 2 => intros)
    | decide
    | (beta_reduce; split)

theorem frame_hello (f : Frame) :
    Kept [.hostSessions, .hostRest] (.hello f) := by
  intro s s' e
  change execHello f s = .next s' at e
  unfold execHello at e
  injection e with e
  subst e
  repeat' first
    | with_reducible assumption
    | (extract_lets -merge +onlyGivenNames x
       first
       | (refine Keeps.cut (x := x) (fun hx => ?_) ?_; (on_goal 1 => clear_value x)
          (on_goal 2 => (unfold x; clear x)))
       | (refine Keeps.cut (x := x.2) (fun hx => ?_) ?_; (on_goal 1 => clear_value x)
          (on_goal 2 => (unfold x; clear x)))
       | clear_value x)
    | with_reducible apply Keeps.refl
    | with_reducible apply Keeps.ite
    | with_reducible apply Keeps.then_ (keep_sendBare ..)
    | with_reducible apply Keeps.then_ (keep_reply ..)
    | with_reducible apply Keeps.then_ (keep_dropFrame ..)
    | (with_reducible apply keep_receive; on_goal 1 => intro _ _)
    | decide
    | (beta_reduce; split)

theorem frame_helloClose (f : Frame) :
    Kept [.hostSessions, .hostRest, .fw] (.helloClose f) := by
  intro s s' e
  change execHelloClose f s = .next s' at e
  unfold execHelloClose at e
  injection e with e
  subst e
  repeat' first
    | with_reducible assumption
    | (extract_lets -merge +onlyGivenNames x
       first
       | (refine Keeps.cut (x := x) (fun hx => ?_) ?_; (on_goal 1 => clear_value x)
          (on_goal 2 => (unfold x; clear x)))
       | (refine Keeps.cut (x := x.2) (fun hx => ?_) ?_; (on_goal 1 => clear_value x)
          (on_goal 2 => (unfold x; clear x)))
       | clear_value x)
    | with_reducible apply Keeps.refl
    | with_reducible apply Keeps.ite
    | with_reducible apply Keeps.then_ (keep_sendBare ..)
    | with_reducible apply Keeps.then_ (keep_reply ..)
    | with_reducible apply Keeps.then_ (keep_endSession ..)
    | with_reducible apply Keeps.then_ (keep_dropFrame ..)
    | (with_reducible apply keep_receive; on_goal 1 => intro _ _)
    | decide
    | (beta_reduce; split)

theorem frame_authChallenge (f : Frame) (role : Fin 4) (nh : Bytes) :
    Kept [.free, .hostSessions, .hostRest, .locker, .log] (.authChallenge f role nh) := by
  intro s s' e
  change execAuthChallenge f role nh s = .next s' at e
  unfold execAuthChallenge at e
  injection e with e
  subst e
  repeat' first
    | with_reducible assumption
    | (extract_lets -merge +onlyGivenNames x
       first
       | (refine Keeps.cut (x := x) (fun hx => ?_) ?_; (on_goal 1 => clear_value x)
          (on_goal 2 => (unfold x; clear x)))
       | (refine Keeps.cut (x := x.2) (fun hx => ?_) ?_; (on_goal 1 => clear_value x)
          (on_goal 2 => (unfold x; clear x)))
       | clear_value x)
    | with_reducible apply Keeps.refl
    | with_reducible apply Keeps.ite
    | with_reducible apply Keeps.then_ (keep_sendBare ..)
    | with_reducible apply Keeps.then_ (keep_reply ..)
    | with_reducible apply Keeps.then_ (keep_dropFrame ..)
    | (with_reducible apply keep_receive; on_goal 1 => intro _ _)
    | with_reducible apply Keeps.then_ (keep_authFailed ..)
    | with_reducible apply Keeps.then_ (keep_openChallenge ..)
    | decide
    | (beta_reduce; split)

theorem frame_authProve (f : Frame) (ph : Bytes) :
    Kept [.hostSessions, .hostRest, .locker, .log] (.authProve f ph) := by
  intro s s' e
  change execAuthProve f ph s = .next s' at e
  unfold execAuthProve at e
  injection e with e
  subst e
  repeat' first
    | with_reducible assumption
    | (extract_lets -merge +onlyGivenNames x
       first
       | (refine Keeps.cut (x := x) (fun hx => ?_) ?_; (on_goal 1 => clear_value x)
          (on_goal 2 => (unfold x; clear x)))
       | (refine Keeps.cut (x := x.2) (fun hx => ?_) ?_; (on_goal 1 => clear_value x)
          (on_goal 2 => (unfold x; clear x)))
       | clear_value x)
    | with_reducible apply Keeps.refl
    | with_reducible apply Keeps.ite
    | with_reducible apply Keeps.then_ (keep_sendBare ..)
    | with_reducible apply Keeps.then_ (keep_reply ..)
    | with_reducible apply Keeps.then_ (keep_dropFrame ..)
    | (with_reducible apply keep_receive; on_goal 1 => intro _ _)
    | with_reducible apply Keeps.then_ (keep_authFailed ..)
    | with_reducible apply Keeps.then_ (keep_openSessionOf ..)
    | with_reducible apply Keeps.then_ (keep_dropChallenge ..)
    | decide
    | (beta_reduce; split)

theorem frame_sessionIdleTimeout (sid : Nat) :
    Kept [.hostSessions, .hostRest, .fw] (.sessionIdleTimeout sid) := by
  intro s s' e
  change execSessionIdleTimeout sid s = .next s' at e
  unfold execSessionIdleTimeout at e
  injection e with e
  subst e
  repeat' first
    | with_reducible assumption
    | (extract_lets -merge +onlyGivenNames x
       first
       | (refine Keeps.cut (x := x) (fun hx => ?_) ?_; (on_goal 1 => clear_value x)
          (on_goal 2 => (unfold x; clear x)))
       | (refine Keeps.cut (x := x.2) (fun hx => ?_) ?_; (on_goal 1 => clear_value x)
          (on_goal 2 => (unfold x; clear x)))
       | clear_value x)
    | with_reducible apply Keeps.refl
    | with_reducible apply Keeps.ite
    | with_reducible apply Keeps.then_ (keep_endSession ..)
    | decide
    | split

theorem frame_challengeLapse (sid : Nat) :
    Kept [.hostSessions] (.challengeLapse sid) := by
  intro s s' e
  change execChallengeLapse sid s = .next s' at e
  unfold execChallengeLapse at e
  injection e with e
  subst e
  repeat' first
    | with_reducible assumption
    | (extract_lets -merge +onlyGivenNames x
       first
       | (refine Keeps.cut (x := x) (fun hx => ?_) ?_; (on_goal 1 => clear_value x)
          (on_goal 2 => (unfold x; clear x)))
       | (refine Keeps.cut (x := x.2) (fun hx => ?_) ?_; (on_goal 1 => clear_value x)
          (on_goal 2 => (unfold x; clear x)))
       | clear_value x)
    | with_reducible apply Keeps.refl
    | with_reducible apply Keeps.ite
    | with_reducible apply Keeps.then_ (keep_dropChallenge ..)
    | decide
    | (beta_reduce; split)

theorem frame_resultGet (f : Frame) (opId : Nat) :
    Kept [.hostSessions, .hostRest] (.resultGet f opId) := by
  intro s s' e
  change execResultGet f opId s = .next s' at e
  unfold execResultGet at e
  injection e with e
  subst e
  refine keep_control s f _ _ _ (fun t x => ?_) (by decide)
  beta_reduce
  split
  · exact Keeps.refl _ _
  · split <;> exact Keeps.refl _ _

theorem frame_resultAck (f : Frame) (opIds : List Nat) :
    Kept [.hostSessions, .hostOps, .hostJournal, .hostRest] (.resultAck f opIds) := by
  intro s s' e
  change execResultAck f opIds s = .next s' at e
  unfold execResultAck at e
  injection e with e
  subst e
  refine keep_control s f _ _ _ (fun t x => ?_) (by decide)
  beta_reduce
  split
  · exact Keeps.refl _ _
  · extract_lets hit
    exact Keeps.foldl (Keeps.refl _ _) fun u a h => h.trans ((keep_releaseResult u a).mono (by decide))

theorem frame_opStatus (f : Frame) (opId : Nat) :
    Kept [.hostSessions, .hostRest] (.opStatus f opId) := by
  intro s s' e
  change execOpStatus f opId s = .next s' at e
  unfold execOpStatus at e
  injection e with e
  subst e
  refine keep_control s f _ _ _ (fun t x => ?_) (by decide)
  beta_reduce
  split <;> exact Keeps.refl _ _

theorem frame_barrier (f : Frame) :
    Kept [.hostSessions, .hostOps, .hostJournal, .hostRest] (.barrier f) := by
  intro s s' e
  change execBarrier f s = .next s' at e
  unfold execBarrier at e
  injection e with e
  subst e
  exact keep_request s f _ (fun t x h => (runOp_barrier t x h).mono (by decide)) (by decide)

theorem frame_healthGet (f : Frame) :
    Kept [.hostSessions, .hostOps, .hostJournal, .hostRest] (.healthGet f) := by
  intro s s' e
  change execHealthGet f s = .next s' at e
  unfold execHealthGet at e
  injection e with e
  subst e
  exact keep_request s f _ (fun t x h => (runOp_healthGet t x h).mono (by decide)) (by decide)

theorem frame_journalRead (f : Frame) (opId count : Nat) :
    Kept [.hostSessions, .hostOps, .hostJournal, .hostRest] (.journalRead f opId count) := by
  intro s s' e
  change execJournalRead f opId count s = .next s' at e
  unfold execJournalRead at e
  injection e with e
  subst e
  exact keep_request s f _ (fun t x h => (runOp_journalRead t x h).mono (by decide)) (by decide)

theorem frame_logRead (f : Frame) (recNo count : Nat) :
    Kept [.hostSessions, .hostOps, .hostJournal, .hostRest] (.logRead f recNo count) := by
  intro s s' e
  change execLogRead f recNo count s = .next s' at e
  unfold execLogRead at e
  injection e with e
  subst e
  exact keep_request s f _ (fun t x h => (runOp_logRead t x h).mono (by decide)) (by decide)

theorem frame_readParam (f : Frame) (addr count : Nat) :
    Kept [.hostSessions, .hostOps, .hostJournal, .hostRest] (.readParam f addr count) := by
  intro s s' e
  change execReadParam f addr count s = .next s' at e
  unfold execReadParam at e
  injection e with e
  subst e
  exact keep_request s f _ (fun t x h => (runOp_readParam t x h).mono (by decide)) (by decide)

theorem frame_writeParam (f : Frame) (addr : Nat) (words : List Word) :
    Kept ([Part.cfg, Part.sxChannel, Part.sxAux, Part.sxSd, Part.sxLaw, Part.sxRest, Part.rdr, Part.merFe,
        Part.merLeg, Part.merRegs, Part.com, Part.disp, Part.txl, Part.ll, Part.mgr] ++ [Part.wrk,
        Part.hostSessions, Part.hostOps, Part.hostJournal, Part.hostRest, Part.tamper, Part.log, Part.flt])
        (.writeParam f addr words) := by
  intro s s' e
  change execWriteParam f addr words s = .next s' at e
  unfold execWriteParam at e
  injection e with e
  subst e
  exact keep_request s f _ (fun t x h => (runOp_writeParam t x h).mono (by decide)) (by decide)

theorem frame_engImpLoRead (f : Frame) (inst : Fin 3) :
    Kept [.hostSessions, .hostOps, .hostJournal, .hostRest] (.engImpLoRead f inst) := by
  intro s s' e
  change execEngImpLoRead f inst s = .next s' at e
  unfold execEngImpLoRead at e
  injection e with e
  subst e
  exact keep_request s f _ (fun t x h => (runOp_readParam t x h).mono (by decide)) (by decide)

theorem frame_tar1ImpLoRead (f : Frame) (o : Fin 2) :
    Kept [.hostSessions, .hostOps, .hostJournal, .hostRest] (.tar1ImpLoRead f o) := by
  intro s s' e
  change execTar1ImpLoRead f o s = .next s' at e
  unfold execTar1ImpLoRead at e
  injection e with e
  subst e
  exact keep_request s f _ (fun t x h => (runOp_readParam t x h).mono (by decide)) (by decide)

theorem frame_chrTimeLoRead (f : Frame) :
    Kept [.hostSessions, .hostOps, .hostJournal, .hostRest] (.chrTimeLoRead f) := by
  intro s s' e
  change execChrTimeLoRead f s = .next s' at e
  unfold execChrTimeLoRead at e
  injection e with e
  subst e
  exact keep_request s f _ (fun t x h => (runOp_readParam t x h).mono (by decide)) (by decide)

theorem frame_recordSelectWrite (f : Frame) (sel : RecordSel) (index : Nat) :
    Kept ([Part.cfg, Part.sxChannel, Part.sxAux, Part.sxSd, Part.sxLaw, Part.sxRest, Part.rdr, Part.merFe,
        Part.merLeg, Part.merRegs, Part.com, Part.disp, Part.txl, Part.ll, Part.mgr] ++ [Part.wrk,
        Part.hostSessions, Part.hostOps, Part.hostJournal, Part.hostRest, Part.tamper, Part.log, Part.flt])
        (.recordSelectWrite f sel index) := by
  intro s s' e
  change execRecordSelectWrite f sel index s = .next s' at e
  unfold execRecordSelectWrite at e
  injection e with e
  subst e
  exact keep_request s f _ (fun t x h => (runOp_writeParam t x h).mono (by decide)) (by decide)

theorem frame_metroCommit (f : Frame) :
    Kept ([Part.cfg, Part.sxChannel, Part.sxAux, Part.sxSd, Part.sxLaw, Part.sxRest, Part.rdr, Part.merFe,
        Part.merLeg, Part.merRegs, Part.com, Part.disp, Part.txl, Part.ll, Part.mgr] ++ [Part.wrk,
        Part.hostSessions, Part.hostOps, Part.hostJournal, Part.hostRest, Part.tamper, Part.log, Part.flt])
        (.metroCommit f) := by
  intro s s' e
  change execMetroCommit f s = .next s' at e
  unfold execMetroCommit at e
  injection e with e
  subst e
  exact keep_request s f _ (fun t x h => (runOp_writeParam t x h).mono (by decide)) (by decide)

theorem frame_emergReqWrite (f : Frame) (acct : Nat) :
    Kept ([Part.cfg, Part.sxChannel, Part.sxAux, Part.sxSd, Part.sxLaw, Part.sxRest, Part.rdr, Part.merFe,
        Part.merLeg, Part.merRegs, Part.com, Part.disp, Part.txl, Part.ll, Part.mgr] ++ [Part.wrk,
        Part.hostSessions, Part.hostOps, Part.hostJournal, Part.hostRest, Part.tamper, Part.log, Part.flt])
        (.emergReqWrite f acct) := by
  intro s s' e
  change execEmergReqWrite f acct s = .next s' at e
  unfold execEmergReqWrite at e
  injection e with e
  subst e
  exact keep_request s f _ (fun t x h => (runOp_writeParam t x h).mono (by decide)) (by decide)

theorem frame_telFix (f : Frame) (scope : Nat) (peakClear : Bool) :
    Kept [.sxCell, .sxAux, .sxFix, .hostSessions, .hostOps, .hostJournal, .hostRest] (.telFix f scope peakClear) := by
  intro s s' e
  change execTelFix f scope peakClear s = .next s' at e
  unfold execTelFix at e
  injection e with e
  subst e
  exact keep_request s f _ (fun t x h => (runOp_telFix t x h).mono (by decide)) (by decide)

theorem frame_sessionAuthorise (f : Frame) (o decision : Nat) (hash : Bytes) :
    Kept [.sxChannel, .sxCell, .sxStage, .sxAux, .sxRest, .outlet, .rdr, .merMail, .com, .lkOut, .lkOutlet, .lkRest,
        .wrk, .hostSessions, .hostOps, .hostJournal, .hostRest, .log, .flt] (.sessionAuthorise f o decision hash) :=
        by
  intro s s' e
  change execSessionAuthorise f o decision hash s = .next s' at e
  unfold execSessionAuthorise at e
  injection e with e
  subst e
  exact keep_request s f _ (fun t x h => (runOp_sessionAuthorise t x h).mono (by decide)) (by decide)

theorem frame_sessionAuthoriseCert (f : Frame) (o : Nat) (hash : Bytes) (k : Chunk) :
    Kept [.outlet, .hostSessions, .hostOps, .hostJournal, .hostRest, .fw] (.sessionAuthoriseCert f o hash k) := by
  intro s s' e
  change execSessionAuthoriseCert f o hash k s = .next s' at e
  unfold execSessionAuthoriseCert at e
  injection e with e
  subst e
  exact keep_request s f _ (fun t x h => (runOp_sessionCert t x h).mono (by decide)) (by decide)

theorem frame_sessionStop (f : Frame) (o : Nat) :
    Kept [.sxChannel, .sxCell, .sxStage, .sxAux, .sxRest, .outlet, .rdr, .lkOut, .lkOutlet, .lkRest, .wrk,
        .hostSessions, .hostOps, .hostJournal, .hostRest, .log, .flt] (.sessionStop f o) := by
  intro s s' e
  change execSessionStop f o s = .next s' at e
  unfold execSessionStop at e
  injection e with e
  subst e
  exact keep_request s f _ (fun t x h => (runOp_sessionStop t x h).mono (by decide)) (by decide)

theorem frame_authTableLoad (f : Frame) (k : Chunk) :
    Kept [.com, .hostSessions, .hostOps, .hostJournal, .hostRest, .fw] (.authTableLoad f k) := by
  intro s s' e
  change execAuthTableLoad f k s = .next s' at e
  unfold execAuthTableLoad at e
  injection e with e
  subst e
  exact keep_request s f _ (fun t x h => (runOp_authTableLoad t x h).mono (by decide)) (by decide)

theorem frame_accountAddCredit (f : Frame) (acct : Nat) (value : Int) :
    Kept [.com, .hostSessions, .hostOps, .hostJournal, .hostRest, .log] (.accountAddCredit f acct value) := by
  intro s s' e
  change execAccountAddCredit f acct value s = .next s' at e
  unfold execAccountAddCredit at e
  injection e with e
  subst e
  exact keep_request s f _ (fun t x h => (runOp_accountLoad t x h).mono (by decide)) (by decide)

theorem frame_accountSetEmerg (f : Frame) (acct : Nat) (value : Int) :
    Kept [.com, .hostSessions, .hostOps, .hostJournal, .hostRest, .log] (.accountSetEmerg f acct value) := by
  intro s s' e
  change execAccountSetEmerg f acct value s = .next s' at e
  unfold execAccountSetEmerg at e
  injection e with e
  subst e
  exact keep_request s f _ (fun t x h => (runOp_accountLoad t x h).mono (by decide)) (by decide)

theorem frame_accountSetEmergMode (f : Frame) (acct : Nat) (value : Int) :
    Kept [.com, .hostSessions, .hostOps, .hostJournal, .hostRest, .log] (.accountSetEmergMode f acct value) := by
  intro s s' e
  change execAccountSetEmergMode f acct value s = .next s' at e
  unfold execAccountSetEmergMode at e
  injection e with e
  subst e
  exact keep_request s f _ (fun t x h => (runOp_accountLoad t x h).mono (by decide)) (by decide)

theorem frame_accountRequestEmerg (f : Frame) (acct : Nat) (value : Int) :
    Kept [.com, .hostSessions, .hostOps, .hostJournal, .hostRest, .log] (.accountRequestEmerg f acct value) := by
  intro s s' e
  change execAccountRequestEmerg f acct value s = .next s' at e
  unfold execAccountRequestEmerg at e
  injection e with e
  subst e
  exact keep_request s f _ (fun t x h => (runOp_accountLoad t x h).mono (by decide)) (by decide)

theorem frame_siteLimitSet (f : Frame) (pSite : Nat) (classes : List (Nat × Nat)) :
    Kept [.txl, .mgr, .hostSessions, .hostOps, .hostJournal, .hostRest, .locker] (.siteLimitSet f pSite classes) := by
  intro s s' e
  change execSiteLimitSet f pSite classes s = .next s' at e
  unfold execSiteLimitSet at e
  injection e with e
  subst e
  exact keep_request s f _ (fun t x h => (runOp_siteLimitSet t x h).mono (by decide)) (by decide)

theorem frame_weatherHold (f : Frame) (minutes : Nat) :
    Kept [.sxChannel, .sxCell, .sxStage, .sxAux, .sxRest, .outlet, .rdr, .com, .lkOut, .lkOutlet, .lkRest, .wrk,
        .hostSessions, .hostOps, .hostJournal, .hostRest, .log, .flt] (.weatherHold f minutes) := by
  intro s s' e
  change execWeatherHold f minutes s = .next s' at e
  unfold execWeatherHold at e
  injection e with e
  subst e
  exact keep_request s f _ (fun t x h => (runOp_weatherHold t x h).mono (by decide)) (by decide)

theorem frame_scrollSet (f : Frame) (items : List ScrollItem) :
    Kept [.com, .hostSessions, .hostOps, .hostJournal, .hostRest] (.scrollSet f items) := by
  intro s s' e
  change execScrollSet f items s = .next s' at e
  unfold execScrollSet at e
  injection e with e
  subst e
  exact keep_request s f _ (fun t x h => (runOp_scrollSet t x h).mono (by decide)) (by decide)

theorem frame_displayRect (f : Frame) (x0 y0 w h : Nat) (pix : Bytes) :
    Kept [.disp, .hostSessions, .hostOps, .hostJournal, .hostRest] (.displayRect f x0 y0 w h pix) := by
  intro s s' e
  change execDisplayRect f x0 y0 w h pix s = .next s' at e
  unfold execDisplayRect at e
  injection e with e
  subst e
  exact keep_request s f _ (fun t x h => (runOp_displayRect t x h).mono (by decide)) (by decide)

theorem frame_tariffLoad (f : Frame) (k : Chunk) :
    Kept [.merLeg, .merTar, .hostSessions, .hostOps, .hostJournal, .hostRest, .fw] (.tariffLoad f k) := by
  intro s s' e
  change execTariffLoad f k s = .next s' at e
  unfold execTariffLoad at e
  injection e with e
  subst e
  exact keep_request s f _ (fun t x h => (runOp_tariffLoad t x h).mono (by decide)) (by decide)

theorem frame_clockSet (f : Frame) (time : Nat) :
    Kept [.merLeg, .merChr, .merTar, .hostSessions, .hostOps, .hostJournal, .hostRest] (.clockSet f time) := by
  intro s s' e
  change execClockSet f time s = .next s' at e
  unfold execClockSet at e
  injection e with e
  subst e
  exact keep_request s f _ (fun t x h => (runOp_clockSet t x h).mono (by decide)) (by decide)

theorem frame_billingClose (f : Frame) :
    Kept [.merRest, .hostSessions, .hostOps, .hostJournal, .hostRest] (.billingClose f) := by
  intro s s' e
  change execBillingClose f s = .next s' at e
  unfold execBillingClose at e
  injection e with e
  subst e
  exact keep_request s f _ (fun t x h => (runOp_billingClose t x h).mono (by decide)) (by decide)

theorem frame_safetyConfirm (f : Frame) (value : Nat) :
    Kept [.sxChannel, .sxCell, .sxStage, .sxAux, .sxLaw, .sxRest, .outlet, .rdr, .lkOut, .lkOutlet, .lkLatch,
        .lkConf, .lkRest, .wrk, .hostSessions, .hostOps, .hostJournal, .hostRest, .log, .flt] (.safetyConfirm f
        value) := by
  intro s s' e
  change execSafetyConfirm f value s = .next s' at e
  unfold execSafetyConfirm at e
  injection e with e
  subst e
  exact keep_request s f _ (fun t x h => (runOp_safetyConfirm t x h).mono (by decide)) (by decide)

theorem frame_safetyConfirmRevoke (f : Frame) (value : Nat) :
    Kept [.sxChannel, .sxCell, .sxStage, .sxAux, .sxLaw, .sxRest, .outlet, .rdr, .lkOut, .lkOutlet, .lkLatch,
        .lkConf, .lkRest, .wrk, .hostSessions, .hostOps, .hostJournal, .hostRest, .log, .flt] (.safetyConfirmRevoke
        f value) := by
  intro s s' e
  change execSafetyConfirmRevoke f value s = .next s' at e
  unfold execSafetyConfirmRevoke at e
  injection e with e
  subst e
  exact keep_request s f _ (fun t x h => (runOp_safetyConfirm t x h).mono (by decide)) (by decide)

theorem frame_latchClearStage (f : Frame) (index : Nat) :
    Kept [.sxChannel, .sxCell, .sxStage, .sxAux, .sxRest, .outlet, .lkOut, .lkRest, .wrk, .hostSessions, .hostOps,
        .hostJournal, .hostRest, .log, .flt] (.latchClearStage f index) := by
  intro s s' e
  change execLatchClearStage f index s = .next s' at e
  unfold execLatchClearStage at e
  injection e with e
  subst e
  exact keep_request s f _ (fun t x h => (runOp_latchClear_1 t x h).mono (by decide)) (by decide)

theorem frame_latchClearCell (f : Frame) (index : Nat) :
    Kept [.sxCell, .sxStage, .sxRest, .outlet, .wrk, .hostSessions, .hostOps, .hostJournal, .hostRest, .log, .flt]
        (.latchClearCell f index) := by
  intro s s' e
  change execLatchClearCell f index s = .next s' at e
  unfold execLatchClearCell at e
  injection e with e
  subst e
  exact keep_request s f _ (fun t x h => (runOp_latchClear_2 t x h).mono (by decide)) (by decide)

theorem frame_latchClearOutlet (f : Frame) (index : Nat) :
    Kept [.sxChannel, .sxCell, .sxStage, .sxAux, .sxLaw, .sxRest, .outlet, .rdr, .lkOut, .lkOutlet, .lkLatch,
        .lkRest, .wrk, .hostSessions, .hostOps, .hostJournal, .hostRest, .log, .flt] (.latchClearOutlet f index) := by
  intro s s' e
  change execLatchClearOutlet f index s = .next s' at e
  unfold execLatchClearOutlet at e
  injection e with e
  subst e
  exact keep_request s f _ (fun t x h => (runOp_latchClear_3 t x h).mono (by decide)) (by decide)

theorem frame_latchClearSafety (f : Frame) (index : Nat) :
    Kept [.sxChannel, .sxCell, .sxStage, .sxAux, .sxLaw, .sxRest, .outlet, .rdr, .lkOut, .lkOutlet, .lkLatch,
        .lkRest, .wrk, .hostSessions, .hostOps, .hostJournal, .hostRest, .log, .flt] (.latchClearSafety f index) := by
  intro s s' e
  change execLatchClearSafety f index s = .next s' at e
  unfold execLatchClearSafety at e
  injection e with e
  subst e
  exact keep_request s f _ (fun t x h => (runOp_latchClear_4 t x h).mono (by decide)) (by decide)

theorem frame_latchClearDisplay (f : Frame) (index : Nat) :
    Kept [.outlet, .merLeg, .disp, .hostSessions, .hostOps, .hostJournal, .hostRest, .log, .flt] (.latchClearDisplay
        f index) := by
  intro s s' e
  change execLatchClearDisplay f index s = .next s' at e
  unfold execLatchClearDisplay at e
  injection e with e
  subst e
  exact keep_request s f _ (fun t x h => (runOp_latchClear_5 t x h).mono (by decide)) (by decide)

theorem frame_latchClearTamperHold (f : Frame) (index : Nat) :
    Kept [.landfall, .hostSessions, .hostOps, .hostJournal, .hostRest] (.latchClearTamperHold f index) := by
  intro s s' e
  change execLatchClearTamperHold f index s = .next s' at e
  unfold execLatchClearTamperHold at e
  injection e with e
  subst e
  exact keep_request s f _ (fun t x h => (runOp_latchClear_6 t x h).mono (by decide)) (by decide)

theorem frame_keyImport (f : Frame) (slot wrapSlot : Nat) (attrs wrapped : Bytes) (u : Unwrapped) (up : TagUpsets) :
    Kept [.txl, .hostSessions, .hostOps, .hostJournal, .hostRest, .locker, .fw, .log, .flt] (.keyImport f slot
        wrapSlot attrs wrapped u up) := by
  intro s s' e
  change execKeyImport f slot wrapSlot attrs wrapped u up s = .next s' at e
  unfold execKeyImport at e
  injection e with e
  subst e
  exact keep_request s f _ (fun t x h => (runOp_keyImport t x h).mono (by decide)) (by decide)

theorem frame_keyDerive (f : Frame) (parent child : Nat) (attrs context : Bytes) (up : TagUpsets) :
    Kept [.hostSessions, .hostOps, .hostJournal, .hostRest, .locker, .log, .flt] (.keyDerive f parent child attrs
        context up) := by
  intro s s' e
  change execKeyDerive f parent child attrs context up s = .next s' at e
  unfold execKeyDerive at e
  injection e with e
  subst e
  exact keep_request s f _ (fun t x h => (runOp_keyDerive t x h).mono (by decide)) (by decide)

theorem frame_keyInvalidate (f : Frame) (slot : Nat) :
    Kept [.txl, .hostSessions, .hostOps, .hostJournal, .hostRest, .locker, .fw] (.keyInvalidate f slot) := by
  intro s s' e
  change execKeyInvalidate f slot s = .next s' at e
  unfold execKeyInvalidate at e
  injection e with e
  subst e
  exact keep_request s f _ (fun t x h => (runOp_keyInvalidate t x h).mono (by decide)) (by decide)

theorem frame_keyUseEncrypt (f : Frame) (slot : Nat) (iv aad data : Bytes) (up : TagUpsets) :
    Kept [.hostSessions, .hostOps, .hostJournal, .hostRest, .locker, .log, .flt] (.keyUseEncrypt f slot iv aad data
        up) := by
  intro s s' e
  change execKeyUseEncrypt f slot iv aad data up s = .next s' at e
  unfold execKeyUseEncrypt at e
  injection e with e
  subst e
  exact keep_request s f _ (fun t x h => (runOp_keyEncrypt t x h).mono (by decide)) (by decide)

theorem frame_keyUseDecrypt (f : Frame) (slot : Nat) (iv aad data : Bytes) (gcmOk : Bool) (up : TagUpsets) :
    Kept [.hostSessions, .hostOps, .hostJournal, .hostRest, .locker, .log, .flt] (.keyUseDecrypt f slot iv aad data
        gcmOk up) := by
  intro s s' e
  change execKeyUseDecrypt f slot iv aad data gcmOk up s = .next s' at e
  unfold execKeyUseDecrypt at e
  injection e with e
  subst e
  exact keep_request s f _ (fun t x h => (runOp_keyDecrypt t x h).mono (by decide)) (by decide)

theorem frame_keyUseSign (f : Frame) (slot : Nat) (msg : Bytes) (up : TagUpsets) :
    Kept [.free, .hostSessions, .hostOps, .hostJournal, .hostRest, .locker, .log, .flt] (.keyUseSign f slot msg up)
        := by
  intro s s' e
  change execKeyUseSign f slot msg up s = .next s' at e
  unfold execKeyUseSign at e
  injection e with e
  subst e
  exact keep_request s f _ (fun t x h => (runOp_keySign t x h).mono (by decide)) (by decide)

theorem frame_keyUseVerify (f : Frame) (slot : Nat) (sig msg : Bytes) (valid : Bool) (up : TagUpsets) :
    Kept [.hostSessions, .hostOps, .hostJournal, .hostRest, .locker, .log, .flt] (.keyUseVerify f slot sig msg valid
        up) := by
  intro s s' e
  change execKeyUseVerify f slot sig msg valid up s = .next s' at e
  unfold execKeyUseVerify at e
  injection e with e
  subst e
  exact keep_request s f _ (fun t x h => (runOp_keyVerify t x h).mono (by decide)) (by decide)

theorem frame_keyUseMac (f : Frame) (slot : Nat) (msg : Bytes) (up : TagUpsets) :
    Kept [.hostSessions, .hostOps, .hostJournal, .hostRest, .locker, .log, .flt] (.keyUseMac f slot msg up) := by
  intro s s' e
  change execKeyUseMac f slot msg up s = .next s' at e
  unfold execKeyUseMac at e
  injection e with e
  subst e
  exact keep_request s f _ (fun t x h => (runOp_keyMac t x h).mono (by decide)) (by decide)

theorem frame_keyUsePublic (f : Frame) (slot : Nat) (up : TagUpsets) :
    Kept [.hostSessions, .hostOps, .hostJournal, .hostRest, .locker, .log, .flt] (.keyUsePublic f slot up) := by
  intro s s' e
  change execKeyUsePublic f slot up s = .next s' at e
  unfold execKeyUsePublic at e
  injection e with e
  subst e
  exact keep_request s f _ (fun t x h => (runOp_keyPublic t x h).mono (by decide)) (by decide)

theorem frame_attest (f : Frame) (nonce : Bytes) (up : TagUpsets) :
    Kept [.free, .hostSessions, .hostOps, .hostJournal, .hostRest, .locker, .log, .flt] (.attest f nonce up) := by
  intro s s' e
  change execAttest f nonce up s = .next s' at e
  unfold execAttest at e
  injection e with e
  subst e
  exact keep_request s f _ (fun t x h => (runOp_attest t x h).mono (by decide)) (by decide)

theorem frame_fwStage (f : Frame) (target : Nat) (k : Chunk) :
    Kept [.flash, .outlet, .hostSessions, .hostOps, .hostJournal, .hostRest, .fw, .merStage] (.fwStage f target k)
        := by
  intro s s' e
  change execFwStage f target k s = .next s' at e
  unfold execFwStage at e
  injection e with e
  subst e
  exact keep_request s f _ (fun t x h => (runOp_fwStage t x h).mono (by decide)) (by decide)

theorem frame_fwVerify (f : Frame) (target : Nat) (sigOk : Bool) (up : TagUpsets) :
    Kept [.chart, .outlet, .hostSessions, .hostOps, .hostJournal, .hostRest, .locker, .fw, .log, .flt] (.fwVerify f
        target sigOk up) := by
  intro s s' e
  change execFwVerify f target sigOk up s = .next s' at e
  unfold execFwVerify at e
  injection e with e
  subst e
  exact keep_request s f _ (fun t x h => (runOp_fwVerify t x h).mono (by decide)) (by decide)

theorem frame_fwActivate (f : Frame) (target : Nat) :
    Kept ([Part.free, Part.landfall, Part.chart, Part.cfg, Part.sxChannel, Part.sxCell, Part.sxStage, Part.sxAux,
        Part.sxSd, Part.sxLaw, Part.sxFix, Part.sxCount, Part.sxRest, Part.outlet, Part.cooling] ++ [Part.drive,
        Part.rdr, Part.merLeg, Part.merChr, Part.merRest, Part.disp, Part.lkOut, Part.lkOutlet, Part.lkLatch,
        Part.lkRest, Part.txl, Part.safe, Part.ll, Part.mgr, Part.wrk] ++ [Part.hostSessions, Part.hostOps,
        Part.hostJournal, Part.hostRest, Part.locker, Part.fw, Part.tamper, Part.log, Part.flt, Part.pwr])
        (.fwActivate f target) := by
  intro s s' e
  change execFwActivate f target s = .next s' at e
  unfold execFwActivate at e
  injection e with e
  subst e
  exact keep_request s f _ (fun t x h => (runOp_fwActivate t x h).mono (by decide)) (by decide)

theorem frame_unknownCommand (f : Frame) (code : Byte) :
    Kept [.hostSessions, .hostOps, .hostJournal, .hostRest] (.unknownCommand f code) := by
  intro s s' e
  change execUnknownCommand f code s = .next s' at e
  unfold execUnknownCommand at e
  injection e with e
  subst e
  exact keep_request s f _ (fun t x h => (runOp_unknown t x h).mono (by decide)) (by decide)

theorem frame_opStart (opId : Nat) :
    Kept ([Part.free, Part.landfall, Part.chart, Part.cfg, Part.flash, Part.sxChannel, Part.sxCell, Part.sxStage,
        Part.sxAux, Part.sxSd, Part.sxLaw, Part.sxFix, Part.sxCount, Part.sxRest, Part.outlet] ++ [Part.cooling,
        Part.drive, Part.rdr, Part.merFe, Part.merLeg, Part.merRegs, Part.merChr, Part.merTar, Part.merMail,
        Part.merRest, Part.com, Part.disp, Part.lkOut, Part.lkOutlet, Part.lkLatch] ++ [Part.lkConf, Part.lkRest,
        Part.txl, Part.safe, Part.ll, Part.mgr, Part.wrk, Part.hostSessions, Part.hostOps, Part.hostJournal,
        Part.hostRest, Part.locker, Part.fw, Part.tamper, Part.log] ++ [Part.flt, Part.pwr, Part.merStage])
        (.opStart opId) := by
  intro s s' e
  change execOpStart opId s = .next s' at e
  unfold execOpStart at e
  injection e with e
  subst e
  repeat' first
    | with_reducible assumption
    | (extract_lets -merge +onlyGivenNames x
       first
       | (refine Keeps.cut (x := x) (fun hx => ?_) ?_; (on_goal 1 => clear_value x)
          (on_goal 2 => (unfold x; clear x)))
       | (refine Keeps.cut (x := x.2) (fun hx => ?_) ?_; (on_goal 1 => clear_value x)
          (on_goal 2 => (unfold x; clear x)))
       | (have t : List Part := x; clear t; subst x)
       | clear_value x)
    | with_reducible apply Keeps.refl
    | with_reducible apply Keeps.then_ (keep_tryStart ..)
    | decide

theorem frame_opComplete (opId : Nat) :
    Kept [.txl, .hostSessions, .hostOps, .hostJournal, .hostRest, .locker, .fw, .log, .flt] (.opComplete opId) := by
  intro s s' e
  change execOpComplete opId s = .next s' at e
  unfold execOpComplete at e
  injection e with e
  subst e
  repeat' first
    | with_reducible assumption
    | (extract_lets -merge +onlyGivenNames x
       first
       | (refine Keeps.cut (x := x) (fun hx => ?_) ?_; (on_goal 1 => clear_value x)
          (on_goal 2 => (unfold x; clear x)))
       | (refine Keeps.cut (x := x.2) (fun hx => ?_) ?_; (on_goal 1 => clear_value x)
          (on_goal 2 => (unfold x; clear x)))
       | clear_value x)
    | with_reducible apply Keeps.refl
    | with_reducible apply Keeps.then_ (keep_finishOp ..)
    | decide
    | (beta_reduce; split)

theorem frame_resultHoldExpiry (opId : Nat) :
    Kept [.hostOps, .hostJournal] (.resultHoldExpiry opId) := by
  intro s s' e
  change execResultHoldExpiry opId s = .next s' at e
  unfold execResultHoldExpiry at e
  injection e with e
  subst e
  repeat' first
    | with_reducible assumption
    | (extract_lets -merge +onlyGivenNames x
       first
       | (refine Keeps.cut (x := x) (fun hx => ?_) ?_; (on_goal 1 => clear_value x)
          (on_goal 2 => (unfold x; clear x)))
       | (refine Keeps.cut (x := x.2) (fun hx => ?_) ?_; (on_goal 1 => clear_value x)
          (on_goal 2 => (unfold x; clear x)))
       | clear_value x)
    | with_reducible apply Keeps.refl
    | with_reducible apply Keeps.ite
    | with_reducible apply Keeps.then_ (keep_releaseResult ..)
    | decide
    | (beta_reduce; split)

theorem frame_chunkTimeout (sid cmd : Nat) :
    Kept [.hostRest, .fw] (.chunkTimeout sid cmd) := by
  intro s s' e
  change execChunkTimeout sid cmd s = .next s' at e
  unfold execChunkTimeout at e
  injection e with e
  subst e
  repeat' first
    | with_reducible assumption
    | (extract_lets -merge +onlyGivenNames x
       first
       | (refine Keeps.cut (x := x) (fun hx => ?_) ?_; (on_goal 1 => clear_value x)
          (on_goal 2 => (unfold x; clear x)))
       | (refine Keeps.cut (x := x.2) (fun hx => ?_) ?_; (on_goal 1 => clear_value x)
          (on_goal 2 => (unfold x; clear x)))
       | clear_value x)
    | with_reducible apply Keeps.refl
    | with_reducible apply Keeps.then_ (keep_dropTransfers ..)
    | decide

theorem frame_hspiReadTransaction  :
    Kept [.hostRest] .hspiReadTransaction := by
  intro s s' e
  change execHspiReadTransaction s = .next s' at e
  unfold execHspiReadTransaction at e
  injection e with e
  subst e
  repeat' first
    | with_reducible assumption
    | (extract_lets -merge +onlyGivenNames x
       first
       | (refine Keeps.cut (x := x) (fun hx => ?_) ?_; (on_goal 1 => clear_value x)
          (on_goal 2 => (unfold x; clear x)))
       | (refine Keeps.cut (x := x.2) (fun hx => ?_) ?_; (on_goal 1 => clear_value x)
          (on_goal 2 => (unfold x; clear x)))
       | (have t : HostIf := x; clear t; subst x)
       | clear_value x)
    | with_reducible apply Keeps.refl
    | with_reducible apply Keeps.ite
    | (beta_reduce; split)
    | with_reducible apply Keeps.upd_host
    | (with_reducible apply Or.inl; decide)
    | (with_reducible apply Or.inr; with_reducible rfl)
    | (with_reducible apply Or.inr; rfl)
    | decide

theorem frame_recoveryEnd  :
    Kept [.landfall, .outlet, .txl, .hostSessions, .hostOps, .hostJournal, .hostRest, .locker, .fw, .log, .flt]
        .recoveryEnd := by
  intro s s' e
  change execRecoveryEnd s = .next s' at e
  unfold execRecoveryEnd at e
  injection e with e
  subst e
  repeat' first
    | with_reducible assumption
    | (extract_lets -merge +onlyGivenNames x
       first
       | (refine Keeps.cut (x := x) (fun hx => ?_) ?_; (on_goal 1 => clear_value x)
          (on_goal 2 => (unfold x; clear x)))
       | (refine Keeps.cut (x := x.2) (fun hx => ?_) ?_; (on_goal 1 => clear_value x)
          (on_goal 2 => (unfold x; clear x)))
       | (have t : HostIf := x; clear t; subst x)
       | (have t : _ → State := x; clear t; subst x)
       | (have t : _ → _ → State := x; clear t; subst x)
       | (have t : _ → _ → Display := x; clear t; subst x)
       | clear_value x)
    | with_reducible apply Keeps.refl
    | with_reducible apply Keeps.ite
    | with_reducible apply Keeps.then_ (keep_clearFaults ..)
    | with_reducible apply Keeps.then_ (keep_updLandfall ..)
    | with_reducible apply Keeps.then_ (keep_endChartActivation ..)
    | with_reducible apply Keeps.then_ (keep_endCascades ..)
    | (beta_reduce; split)
    | with_reducible apply Keeps.upd_host
    | (with_reducible apply Or.inl; decide)
    | (with_reducible apply Or.inr; with_reducible rfl)
    | (with_reducible apply Or.inr; rfl)
    | decide

theorem frame_recoveredHoldExpiry (opId : Nat) :
    Kept [.hostJournal] (.recoveredHoldExpiry opId) := by
  intro s s' e
  change execRecoveredHoldExpiry opId s = .next s' at e
  unfold execRecoveredHoldExpiry at e
  injection e with e
  subst e
  repeat' first
    | with_reducible assumption
    | (extract_lets -merge +onlyGivenNames x
       first
       | (refine Keeps.cut (x := x) (fun hx => ?_) ?_; (on_goal 1 => clear_value x)
          (on_goal 2 => (unfold x; clear x)))
       | (refine Keeps.cut (x := x.2) (fun hx => ?_) ?_; (on_goal 1 => clear_value x)
          (on_goal 2 => (unfold x; clear x)))
       | clear_value x)
    | with_reducible apply Keeps.refl
    | with_reducible apply Keeps.ite
    | with_reducible apply Keeps.then_ (keep_dropHold ..)
    | decide
    | (beta_reduce; split)

end Sys2Proof.Machine
end

