-- ==== Sys2Proof/Laws/FramePower.lean ====
section
/-!
SUPPORT. What each operation and command of Machine/Power.lean leaves unchanged.
-/
namespace Sys2Proof.Machine

set_option linter.unreachableTactic false
set_option linter.unusedTactic false
set_option linter.tactic.unusedName false

theorem keep_setRung (s : State) (r : Rung) :
    Keeps [.pwr] s (setRung s r) := by
  unfold setRung
  repeat' first
    | with_reducible assumption
    | (extract_lets -merge +onlyGivenNames x
       first
       | (refine Keeps.cut (x := x) (fun hx => ?_) ?_; (on_goal 1 => clear_value x)
          (on_goal 2 => (unfold x; clear x)))
       | (refine Keeps.cut (x := x.2) (fun hx => ?_) ?_; (on_goal 1 => clear_value x)
          (on_goal 2 => (unfold x; clear x)))
       | clear_value x)
    | with_reducible apply Keeps.refl
    | with_reducible apply Keeps.upd_pwr
    | decide

theorem keep_enterMoored (s : State) :
    Keeps [.sxChannel, .sxCell, .sxStage, .sxAux, .sxLaw, .sxRest, .outlet, .rdr, .disp, .lkOut, .lkOutlet,
        .lkLatch, .lkRest, .wrk, .log, .flt, .pwr] s (enterMoored s) := by
  unfold enterMoored
  repeat' first
    | with_reducible assumption
    | (extract_lets -merge +onlyGivenNames x
       first
       | (refine Keeps.cut (x := x) (fun hx => ?_) ?_; (on_goal 1 => clear_value x)
          (on_goal 2 => (unfold x; clear x)))
       | (refine Keeps.cut (x := x.2) (fun hx => ?_) ?_; (on_goal 1 => clear_value x)
          (on_goal 2 => (unfold x; clear x)))
       | (have t : List Part := x; clear t; subst x)
       | (have t : Sextant := x; clear t; subst x)
       | clear_value x)
    | with_reducible apply Keeps.refl
    | with_reducible apply Keeps.then_ (keep_settle ..)
    | with_reducible apply Keeps.then_ (keep_beginOff ..)
    | with_reducible apply Keeps.then_ (keep_setRung ..)
    | with_reducible apply Keeps.upd_sx
    | (with_reducible apply Or.inl; decide)
    | (with_reducible apply Or.inr; with_reducible rfl)
    | (with_reducible apply Or.inr; rfl)
    | decide

theorem keep_enterLaidUp (s : State) :
    Keeps ([Part.landfall, Part.sxChannel, Part.sxCell, Part.sxStage, Part.sxAux, Part.sxLaw, Part.sxRest,
        Part.outlet, Part.rdr, Part.merLeg, Part.merChr, Part.disp, Part.lkOut, Part.lkOutlet, Part.lkLatch] ++
        [Part.lkRest, Part.wrk, Part.hostSessions, Part.hostOps, Part.hostJournal, Part.hostRest, Part.locker,
        Part.fw, Part.log, Part.flt, Part.pwr]) s (enterLaidUp s) := by
  unfold enterLaidUp
  repeat' first
    | with_reducible assumption
    | (extract_lets -merge +onlyGivenNames x
       first
       | (refine Keeps.cut (x := x) (fun hx => ?_) ?_; (on_goal 1 => clear_value x)
          (on_goal 2 => (unfold x; clear x)))
       | (refine Keeps.cut (x := x.2) (fun hx => ?_) ?_; (on_goal 1 => clear_value x)
          (on_goal 2 => (unfold x; clear x)))
       | (have t : List Part := x; clear t; subst x)
       | (have t : Meridian := x; clear t; subst x)
       | (have t : Lookout := x; clear t; subst x)
       | clear_value x)
    | with_reducible apply Keeps.refl
    | with_reducible apply Keeps.then_ (keep_settle ..)
    | with_reducible apply Keeps.then_ (keep_markIntervals ..)
    | with_reducible apply Keeps.then_ (keep_commitRegs ..)
    | with_reducible apply Keeps.then_ (keep_helmDown ..)
    | with_reducible apply Keeps.then_ (keep_setRung ..)
    | with_reducible apply Keeps.upd_mer
    | with_reducible apply Keeps.upd_lk
    | with_reducible apply Keeps.upd_all
    | (with_reducible apply Or.inl; decide)
    | (with_reducible apply Or.inr; with_reducible rfl)
    | (with_reducible apply Or.inr; rfl)
    | exact fun h => h
    | exact fun _ h => h
    | (intro _ hd; split <;> exact hd)
    | exact fun h => sparsePut_wf h _ _
    | exact fun _ h => sparsePut_wf h _ _
    | decide

theorem keep_enterRung (s : State) (r : Rung) :
    Keeps ([Part.landfall, Part.sxChannel, Part.sxCell, Part.sxStage, Part.sxAux, Part.sxLaw, Part.sxRest,
        Part.outlet, Part.rdr, Part.merLeg, Part.merChr, Part.merRest, Part.disp, Part.lkOut, Part.lkOutlet] ++
        [Part.lkLatch, Part.lkRest, Part.wrk, Part.hostSessions, Part.hostOps, Part.hostJournal, Part.hostRest,
        Part.locker, Part.fw, Part.log, Part.flt, Part.pwr]) s (enterRung s r) := by
  unfold enterRung
  repeat' first
    | with_reducible assumption
    | (extract_lets -merge +onlyGivenNames x
       first
       | (refine Keeps.cut (x := x) (fun hx => ?_) ?_; (on_goal 1 => clear_value x)
          (on_goal 2 => (unfold x; clear x)))
       | (refine Keeps.cut (x := x.2) (fun hx => ?_) ?_; (on_goal 1 => clear_value x)
          (on_goal 2 => (unfold x; clear x)))
       | (have t : List Part := x; clear t; subst x)
       | clear_value x)
    | with_reducible apply Keeps.refl
    | with_reducible apply Keeps.then_ (keep_stopPlainly ..)
    | with_reducible apply Keeps.then_ (keep_fieldOff ..)
    | with_reducible apply Keeps.then_ (keep_setRung ..)
    | with_reducible apply Keeps.then_ (keep_enterMoored ..)
    | with_reducible apply Keeps.then_ (keep_enterLaidUp ..)
    | decide
    | split

theorem keep_ladderTick (s : State) :
    Keeps [.flt, .pwr] s (ladderTick s) := by
  unfold ladderTick
  repeat' first
    | with_reducible assumption
    | (extract_lets -merge +onlyGivenNames x
       first
       | (refine Keeps.cut (x := x) (fun hx => ?_) ?_; (on_goal 1 => clear_value x)
          (on_goal 2 => (unfold x; clear x)))
       | (refine Keeps.cut (x := x.2) (fun hx => ?_) ?_; (on_goal 1 => clear_value x)
          (on_goal 2 => (unfold x; clear x)))
       | clear_value x)
    | with_reducible apply Keeps.refl
    | with_reducible apply Keeps.ite
    | split
    | with_reducible apply Keeps.upd_flt
    | with_reducible apply Keeps.upd_pwr
    | with_reducible apply Keeps.upd_all
    | (with_reducible apply Or.inl; decide)
    | (with_reducible apply Or.inr; with_reducible rfl)
    | (with_reducible apply Or.inr; rfl)
    | exact fun h => h
    | exact fun _ h => h
    | (intro _ hd; split <;> exact hd)
    | decide

theorem keep_wakeTo (s : State) (w : WakeSource) :
    Keeps [.pwr] s (wakeTo s w) := by
  unfold wakeTo
  repeat' first
    | with_reducible assumption
    | (extract_lets -merge +onlyGivenNames x
       first
       | (refine Keeps.cut (x := x) (fun hx => ?_) ?_; (on_goal 1 => clear_value x)
          (on_goal 2 => (unfold x; clear x)))
       | (refine Keeps.cut (x := x.2) (fun hx => ?_) ?_; (on_goal 1 => clear_value x)
          (on_goal 2 => (unfold x; clear x)))
       | clear_value x)
    | with_reducible apply Keeps.refl
    | split
    | with_reducible apply Keeps.upd_pwr
    | decide

theorem keep_clearWatch (s : State) :
    Keeps [.safe] s (clearWatch s) := by
  unfold clearWatch
  repeat' first
    | with_reducible assumption
    | (extract_lets -merge +onlyGivenNames x
       first
       | (refine Keeps.cut (x := x) (fun hx => ?_) ?_; (on_goal 1 => clear_value x)
          (on_goal 2 => (unfold x; clear x)))
       | (refine Keeps.cut (x := x.2) (fun hx => ?_) ?_; (on_goal 1 => clear_value x)
          (on_goal 2 => (unfold x; clear x)))
       | clear_value x)
    | with_reducible apply Keeps.refl
    | with_reducible apply Keeps.then_ (keep_clearChan ..)
    | decide

theorem keep_leaveMoored (s : State) (w : WakeSource) :
    Keeps ([Part.landfall, Part.sxChannel, Part.sxCell, Part.sxStage, Part.sxAux, Part.sxSd, Part.sxLaw, Part.sxFix,
        Part.sxCount, Part.sxRest, Part.outlet, Part.rdr, Part.disp, Part.lkOut, Part.lkOutlet] ++ [Part.lkLatch,
        Part.lkRest, Part.txl, Part.safe, Part.wrk, Part.locker, Part.tamper, Part.log, Part.flt, Part.pwr]) s
        (leaveMoored s w) := by
  unfold leaveMoored
  repeat' first
    | with_reducible assumption
    | (extract_lets -merge +onlyGivenNames x
       first
       | (refine Keeps.cut (x := x) (fun hx => ?_) ?_; (on_goal 1 => clear_value x)
          (on_goal 2 => (unfold x; clear x)))
       | (refine Keeps.cut (x := x.2) (fun hx => ?_) ?_; (on_goal 1 => clear_value x)
          (on_goal 2 => (unfold x; clear x)))
       | (have t : List Part := x; clear t; subst x)
       | clear_value x)
    | with_reducible apply Keeps.refl
    | with_reducible apply Keeps.then_ (keep_settle ..)
    | with_reducible apply Keeps.then_ (keep_panelOn ..)
    | with_reducible apply Keeps.then_ (keep_answerCapture ..)
    | with_reducible apply Keeps.then_ (keep_sextantBack ..)
    | with_reducible apply Keeps.then_ (keep_restartPasses ..)
    | with_reducible apply Keeps.then_ (keep_wakeTo ..)
    | with_reducible apply Keeps.then_ (keep_clearWatch ..)
    | decide

theorem keep_warmChart (s : State) :
    Keeps [.landfall, .chart, .cfg] s (warmChart s) := by
  unfold warmChart
  repeat' first
    | with_reducible assumption
    | (extract_lets -merge +onlyGivenNames x
       first
       | (refine Keeps.cut (x := x) (fun hx => ?_) ?_; (on_goal 1 => clear_value x)
          (on_goal 2 => (unfold x; clear x)))
       | (refine Keeps.cut (x := x.2) (fun hx => ?_) ?_; (on_goal 1 => clear_value x)
          (on_goal 2 => (unfold x; clear x)))
       | (have t : Chart := x; clear t; subst x)
       | (have t : _ → State := x; clear t; subst x)
       | (have t : _ → _ → State := x; clear t; subst x)
       | (have t : _ → _ → Display := x; clear t; subst x)
       | clear_value x)
    | with_reducible apply Keeps.refl
    | with_reducible apply Keeps.ite
    | with_reducible apply Keeps.then_ (keep_updLandfall ..)
    | (beta_reduce; split)
    | with_reducible apply Keeps.upd_chart
    | with_reducible apply Keeps.upd_cfg
    | with_reducible apply Keeps.upd_all
    | (with_reducible apply Or.inl; decide)
    | (with_reducible apply Or.inr; with_reducible rfl)
    | (with_reducible apply Or.inr; rfl)
    | exact fun h => h
    | exact fun _ h => h
    | (intro _ hd; split <;> exact hd)
    | exact fun h => sparsePut_wf h _ _
    | exact fun _ h => sparsePut_wf h _ _
    | exact fun _ => rfl
    | exact fun w _ => heldCfg_wf w
    | exact fun h => keptContent_wf h
    | exact fun w _ => chartCfg_wf w
    | decide

theorem keep_warmLandfall (s : State) (w : WakeSource) :
    Keeps ([Part.landfall, Part.chart, Part.cfg, Part.sxChannel, Part.sxCell, Part.sxStage, Part.sxAux, Part.sxSd,
        Part.sxLaw, Part.sxFix, Part.sxCount, Part.sxRest, Part.outlet, Part.rdr, Part.merLeg] ++ [Part.merChr,
        Part.merTar, Part.lkOut, Part.lkOutlet, Part.lkLatch, Part.lkRest, Part.txl, Part.safe, Part.wrk,
        Part.locker, Part.fw, Part.tamper, Part.log, Part.flt, Part.pwr]) s (warmLandfall s w) := by
  unfold warmLandfall
  repeat' first
    | with_reducible assumption
    | (extract_lets -merge +onlyGivenNames x
       first
       | (refine Keeps.cut (x := x) (fun hx => ?_) ?_; (on_goal 1 => clear_value x)
          (on_goal 2 => (unfold x; clear x)))
       | (refine Keeps.cut (x := x.2) (fun hx => ?_) ?_; (on_goal 1 => clear_value x)
          (on_goal 2 => (unfold x; clear x)))
       | (have t : List Part := x; clear t; subst x)
       | (have t : Lookout := x; clear t; subst x)
       | clear_value x)
    | with_reducible apply Keeps.refl
    | with_reducible apply Keeps.ite
    | with_reducible apply Keeps.then_ (keep_settle ..)
    | with_reducible apply Keeps.then_ (keep_leaveLaidUp ..)
    | with_reducible apply Keeps.then_ (keep_updFw ..)
    | with_reducible apply Keeps.then_ (keep_forgetHolsters ..)
    | with_reducible apply Keeps.then_ (keep_answerCapture ..)
    | with_reducible apply Keeps.then_ (keep_restartPasses ..)
    | with_reducible apply Keeps.then_ (keep_wakeTo ..)
    | with_reducible apply Keeps.then_ (keep_clearWatch ..)
    | with_reducible apply Keeps.then_ (keep_warmChart ..)
    | (beta_reduce; split)
    | with_reducible apply Keeps.upd_lk
    | (with_reducible apply Or.inl; decide)
    | (with_reducible apply Or.inr; with_reducible rfl)
    | (with_reducible apply Or.inr; rfl)
    | decide

theorem keep_wake (s : State) (w : WakeSource) :
    Keeps ([Part.landfall, Part.chart, Part.cfg, Part.sxChannel, Part.sxCell, Part.sxStage, Part.sxAux, Part.sxSd,
        Part.sxLaw, Part.sxFix, Part.sxCount, Part.sxRest, Part.outlet, Part.rdr, Part.merLeg] ++ [Part.merChr,
        Part.merTar, Part.disp, Part.lkOut, Part.lkOutlet, Part.lkLatch, Part.lkRest, Part.txl, Part.safe, Part.wrk,
        Part.locker, Part.fw, Part.tamper, Part.log, Part.flt] ++ [Part.pwr]) s (wake s w) := by
  unfold wake
  repeat' first
    | with_reducible assumption
    | (extract_lets -merge +onlyGivenNames x
       first
       | (refine Keeps.cut (x := x) (fun hx => ?_) ?_; (on_goal 1 => clear_value x)
          (on_goal 2 => (unfold x; clear x)))
       | (refine Keeps.cut (x := x.2) (fun hx => ?_) ?_; (on_goal 1 => clear_value x)
          (on_goal 2 => (unfold x; clear x)))
       | (have t : List Part := x; clear t; subst x)
       | clear_value x)
    | with_reducible apply Keeps.refl
    | with_reducible apply Keeps.ite
    | with_reducible apply Keeps.then_ (keep_wakeTo ..)
    | with_reducible apply Keeps.then_ (keep_leaveMoored ..)
    | with_reducible apply Keeps.then_ (keep_warmLandfall ..)
    | decide
    | split

theorem keep_starve (s : State) :
    Keeps [.merChr] s (starve s) := by
  unfold starve
  repeat' first
    | with_reducible assumption
    | (extract_lets -merge +onlyGivenNames x
       first
       | (refine Keeps.cut (x := x) (fun hx => ?_) ?_; (on_goal 1 => clear_value x)
          (on_goal 2 => (unfold x; clear x)))
       | (refine Keeps.cut (x := x.2) (fun hx => ?_) ?_; (on_goal 1 => clear_value x)
          (on_goal 2 => (unfold x; clear x)))
       | (have t : Meridian := x; clear t; subst x)
       | clear_value x)
    | with_reducible apply Keeps.refl
    | with_reducible apply Keeps.ite
    | split
    | with_reducible apply Keeps.upd_mer
    | (with_reducible apply Or.inl; decide)
    | (with_reducible apply Or.inr; with_reducible rfl)
    | (with_reducible apply Or.inr; rfl)
    | exact fun h => h
    | exact fun _ h => h
    | (intro _ hd; split <;> exact hd)
    | exact fun h => sparsePut_wf h _ _
    | exact fun _ h => sparsePut_wf h _ _
    | decide

theorem frame_rungDown  :
    Kept ([Part.landfall, Part.sxChannel, Part.sxCell, Part.sxStage, Part.sxAux, Part.sxLaw, Part.sxRest,
        Part.outlet, Part.rdr, Part.merLeg, Part.merChr, Part.merRest, Part.disp, Part.lkOut, Part.lkOutlet] ++
        [Part.lkLatch, Part.lkRest, Part.wrk, Part.hostSessions, Part.hostOps, Part.hostJournal, Part.hostRest,
        Part.locker, Part.fw, Part.log, Part.flt, Part.pwr]) .rungDown := by
  intro s s' e
  change execRungDown s = .next s' at e
  unfold execRungDown at e
  injection e with e
  subst e
  repeat' first
    | with_reducible assumption
    | (extract_lets -merge +onlyGivenNames x
       first
       | (refine Keeps.cut (x := x) (fun hx => ?_) ?_; (on_goal 1 => clear_value x)
          (on_goal 2 => (unfold x; clear x)))
       | (refine Keeps.cut (x := x.2) (fun hx => ?_) ?_; (on_goal 1 => clear_value x)
          (on_goal 2 => (unfold x; clear x)))
       | (have t : List Part := x; clear t; subst x)
       | clear_value x)
    | with_reducible apply Keeps.refl
    | with_reducible apply Keeps.ite
    | with_reducible apply Keeps.then_ (keep_enterRung ..)
    | decide
    | split

theorem frame_quietConditionCeases  :
    Kept [.pwr] .quietConditionCeases := by
  intro s s' e
  change execQuietConditionCeases s = .next s' at e
  unfold execQuietConditionCeases at e
  injection e with e
  subst e
  repeat' first
    | with_reducible assumption
    | (extract_lets -merge +onlyGivenNames x
       first
       | (refine Keeps.cut (x := x) (fun hx => ?_) ?_; (on_goal 1 => clear_value x)
          (on_goal 2 => (unfold x; clear x)))
       | (refine Keeps.cut (x := x.2) (fun hx => ?_) ?_; (on_goal 1 => clear_value x)
          (on_goal 2 => (unfold x; clear x)))
       | clear_value x)
    | with_reducible apply Keeps.refl
    | with_reducible apply Keeps.ite
    | with_reducible apply Keeps.then_ (keep_setRung ..)
    | decide
    | split

theorem frame_wakeEvent (w : WakeSource) :
    Kept ([Part.landfall, Part.chart, Part.cfg, Part.sxChannel, Part.sxCell, Part.sxStage, Part.sxAux, Part.sxSd,
        Part.sxLaw, Part.sxFix, Part.sxCount, Part.sxRest, Part.outlet, Part.rdr, Part.merLeg] ++ [Part.merChr,
        Part.merTar, Part.disp, Part.lkOut, Part.lkOutlet, Part.lkLatch, Part.lkRest, Part.txl, Part.safe, Part.wrk,
        Part.locker, Part.fw, Part.tamper, Part.log, Part.flt] ++ [Part.pwr]) (.wakeEvent w) := by
  intro s s' e
  change execWakeEvent w s = .next s' at e
  unfold execWakeEvent at e
  injection e with e
  subst e
  repeat' first
    | with_reducible assumption
    | (extract_lets -merge +onlyGivenNames x
       first
       | (refine Keeps.cut (x := x) (fun hx => ?_) ?_; (on_goal 1 => clear_value x)
          (on_goal 2 => (unfold x; clear x)))
       | (refine Keeps.cut (x := x.2) (fun hx => ?_) ?_; (on_goal 1 => clear_value x)
          (on_goal 2 => (unfold x; clear x)))
       | (have t : List Part := x; clear t; subst x)
       | clear_value x)
    | with_reducible apply Keeps.refl
    | with_reducible apply Keeps.then_ (keep_wake ..)
    | decide

theorem frame_wkAlarm  :
    Kept ([Part.landfall, Part.chart, Part.cfg, Part.sxChannel, Part.sxCell, Part.sxStage, Part.sxAux, Part.sxSd,
        Part.sxLaw, Part.sxFix, Part.sxCount, Part.sxRest, Part.outlet, Part.rdr, Part.merLeg] ++ [Part.merChr,
        Part.merTar, Part.disp, Part.lkOut, Part.lkOutlet, Part.lkLatch, Part.lkRest, Part.txl, Part.safe, Part.wrk,
        Part.locker, Part.fw, Part.tamper, Part.log, Part.flt] ++ [Part.pwr]) .wkAlarm := by
  intro s s' e
  change execWkAlarm s = .next s' at e
  unfold execWkAlarm at e
  injection e with e
  subst e
  repeat' first
    | with_reducible assumption
    | (extract_lets -merge +onlyGivenNames x
       first
       | (refine Keeps.cut (x := x) (fun hx => ?_) ?_; (on_goal 1 => clear_value x)
          (on_goal 2 => (unfold x; clear x)))
       | (refine Keeps.cut (x := x.2) (fun hx => ?_) ?_; (on_goal 1 => clear_value x)
          (on_goal 2 => (unfold x; clear x)))
       | (have t : List Part := x; clear t; subst x)
       | clear_value x)
    | with_reducible apply Keeps.refl
    | with_reducible apply Keeps.then_ (keep_wake ..)
    | decide

theorem frame_vbatSwitchover (mcore io : Nat) :
    Kept [.merChr, .pwr] (.vbatSwitchover mcore io) := by
  intro s s' e
  change execVbatSwitchover mcore io s = .next s' at e
  unfold execVbatSwitchover at e
  injection e with e
  subst e
  repeat' first
    | with_reducible assumption
    | (extract_lets -merge +onlyGivenNames x
       first
       | (refine Keeps.cut (x := x) (fun hx => ?_) ?_; (on_goal 1 => clear_value x)
          (on_goal 2 => (unfold x; clear x)))
       | (refine Keeps.cut (x := x.2) (fun hx => ?_) ?_; (on_goal 1 => clear_value x)
          (on_goal 2 => (unfold x; clear x)))
       | clear_value x)
    | with_reducible apply Keeps.refl
    | with_reducible apply Keeps.ite
    | with_reducible apply Keeps.then_ (keep_starve ..)
    | split
    | with_reducible apply Keeps.upd_pwr
    | decide

theorem frame_mainRailsReturn (mcore io : Nat) :
    Kept [.pwr] (.mainRailsReturn mcore io) := by
  intro s s' e
  change execMainRailsReturn mcore io s = .next s' at e
  unfold execMainRailsReturn at e
  injection e with e
  subst e
  repeat' first
    | with_reducible assumption
    | (extract_lets -merge +onlyGivenNames x
       first
       | (refine Keeps.cut (x := x) (fun hx => ?_) ?_; (on_goal 1 => clear_value x)
          (on_goal 2 => (unfold x; clear x)))
       | (refine Keeps.cut (x := x.2) (fun hx => ?_) ?_; (on_goal 1 => clear_value x)
          (on_goal 2 => (unfold x; clear x)))
       | clear_value x)
    | with_reducible apply Keeps.refl
    | with_reducible apply Keeps.ite
    | split
    | with_reducible apply Keeps.upd_pwr
    | decide

theorem frame_vbatLoss  :
    Kept [.merChr, .pwr] .vbatLoss := by
  intro s s' e
  change execVbatLoss s = .next s' at e
  unfold execVbatLoss at e
  injection e with e
  subst e
  repeat' first
    | with_reducible assumption
    | (extract_lets -merge +onlyGivenNames x
       first
       | (refine Keeps.cut (x := x) (fun hx => ?_) ?_; (on_goal 1 => clear_value x)
          (on_goal 2 => (unfold x; clear x)))
       | (refine Keeps.cut (x := x.2) (fun hx => ?_) ?_; (on_goal 1 => clear_value x)
          (on_goal 2 => (unfold x; clear x)))
       | clear_value x)
    | with_reducible apply Keeps.refl
    | with_reducible apply Keeps.then_ (keep_starve ..)
    | with_reducible apply Keeps.upd_pwr
    | decide

end Sys2Proof.Machine
end

