-- ==== Sys2Proof/Laws/FrameIdle.lean ====
section
/-!
SUPPORT. What each operation of Machine/Idle.lean leaves unchanged.
-/
namespace Sys2Proof.Machine

set_option linter.unreachableTactic false
set_option linter.unusedTactic false
set_option linter.tactic.unusedName false

theorem keep_gapOutlet (s : State) (o : Fin 2) :
    Keeps [.com] s (gapOutlet s o) := by
  unfold gapOutlet
  repeat' first
    | with_reducible assumption
    | (extract_lets -merge +onlyGivenNames x
       first
       | (refine Keeps.cut (x := x) (fun hx => ?_) ?_; (on_goal 1 => clear_value x)
          (on_goal 2 => (unfold x; clear x)))
       | (refine Keeps.cut (x := x.2) (fun hx => ?_) ?_; (on_goal 1 => clear_value x)
          (on_goal 2 => (unfold x; clear x)))
       | clear_value x)
    | with_reducible apply Keeps.refl
    | with_reducible apply Keeps.then_ (keep_updCharge ..)
    | decide
    | (beta_reduce; split)

theorem keep_idle (s : State) :
    Keeps ([Part.mono, Part.sxChannel, Part.sxCell, Part.sxStage, Part.sxAux, Part.sxRest, Part.outlet, Part.drive,
        Part.rdr, Part.merLeg, Part.merChr, Part.merRest, Part.com, Part.disp, Part.lkOut] ++ [Part.lkOutlet,
        Part.lkRest, Part.txl, Part.mgr, Part.wrk, Part.hostOps, Part.hostJournal, Part.hostRest, Part.locker,
        Part.log, Part.flt, Part.pwr]) s (idle s) := by
  unfold idle
  repeat' first
    | with_reducible assumption
    | (extract_lets -merge +onlyGivenNames x
       first
       | (refine Keeps.cut (x := x) (fun hx => ?_) ?_; (on_goal 1 => clear_value x)
          (on_goal 2 => (unfold x; clear x)))
       | (refine Keeps.cut (x := x.2) (fun hx => ?_) ?_; (on_goal 1 => clear_value x)
          (on_goal 2 => (unfold x; clear x)))
       | (have t : List Part := x; clear t; subst x)
       | clear_value x)
    | with_reducible apply Keeps.refl
    | with_reducible apply Keeps.then_ (keep_ageShare ..)
    | with_reducible apply Keeps.then_ (keep_wireTick ..)
    | with_reducible apply Keeps.then_ (keep_hostTick ..)
    | with_reducible apply Keeps.then_ (keep_countSlow ..)
    | with_reducible apply Keeps.then_ (keep_panelTick ..)
    | with_reducible apply Keeps.then_ (keep_scrollTick ..)
    | with_reducible apply Keeps.then_ (keep_tick ..)
    | with_reducible apply Keeps.then_ (keep_reportCapacity ..)
    | with_reducible apply Keeps.then_ (keep_healthTick ..)
    | with_reducible apply Keeps.then_ (keep_closeTick ..)
    | with_reducible apply Keeps.then_ (keep_logPeriodic ..)
    | with_reducible apply Keeps.then_ (keep_ladderTick ..)
    | with_reducible apply Keeps.then_ (keep_gapOutlet ..)
    | decide

end Sys2Proof.Machine
end

