-- ==== Sys2Proof/Laws/FrameKeys.lean ====
section
/-!
SUPPORT. What each operation and command of Machine/Keys.lean leaves unchanged.
-/
namespace Sys2Proof.Machine

set_option linter.unreachableTactic false
set_option linter.unusedTactic false
set_option linter.tactic.unusedName false

theorem keep_captureTamper (s : State) (src : BitVec 8) :
    Keeps [.tamper] s (captureTamper s src) := by
  unfold captureTamper
  repeat' first
    | with_reducible assumption
    | (extract_lets -merge +onlyGivenNames x
       first
       | (refine Keeps.cut (x := x) (fun hx => ?_) ?_; (on_goal 1 => clear_value x)
          (on_goal 2 => (unfold x; clear x)))
       | (refine Keeps.cut (x := x.2) (fun hx => ?_) ?_; (on_goal 1 => clear_value x)
          (on_goal 2 => (unfold x; clear x)))
       | clear_value x)
    | with_reducible apply Keeps.refl
    | with_reducible apply Keeps.upd_tamper
    | decide

theorem frame_slotOperationBoundary (slot : Fin 128) :
    Kept [.txl, .hostSessions, .hostOps, .hostJournal, .hostRest, .locker, .fw] (.slotOperationBoundary slot) := by
  intro s s' e
  change execSlotOperationBoundary slot s = .next s' at e
  unfold execSlotOperationBoundary at e
  injection e with e
  subst e
  repeat' first
    | with_reducible assumption
    | (extract_lets -merge +onlyGivenNames x
       first
       | (refine Keeps.cut (x := x) (fun hx => ?_) ?_; (on_goal 1 => clear_value x)
          (on_goal 2 => (unfold x; clear x)))
       | (refine Keeps.cut (x := x.2) (fun hx => ?_) ?_; (on_goal 1 => clear_value x)
          (on_goal 2 => (unfold x; clear x)))
       | clear_value x)
    | with_reducible apply Keeps.refl
    | with_reducible apply Keeps.then_ (keep_slotBoundary ..)
    | decide

theorem frame_keyScrub (up : TagUpsets) :
    Kept [.locker, .log, .flt] (.keyScrub up) := by
  intro s s' e
  change execKeyScrub up s = .next s' at e
  unfold execKeyScrub at e
  injection e with e
  subst e
  repeat' first
    | with_reducible assumption
    | (extract_lets -merge +onlyGivenNames x
       first
       | (refine Keeps.cut (x := x) (fun hx => ?_) ?_; (on_goal 1 => clear_value x)
          (on_goal 2 => (unfold x; clear x)))
       | (refine Keeps.cut (x := x.2) (fun hx => ?_) ?_; (on_goal 1 => clear_value x)
          (on_goal 2 => (unfold x; clear x)))
       | clear_value x)
    | with_reducible apply Keeps.refl
    | with_reducible apply Keeps.ite
    | with_reducible apply Keeps.then_ (keep_checkTag ..)
    | split
    | with_reducible apply Keeps.upd_locker
    | with_reducible apply Keeps.upd_flt
    | with_reducible apply Keeps.upd_all
    | (with_reducible apply Or.inl; decide)
    | (with_reducible apply Or.inr; with_reducible rfl)
    | (with_reducible apply Or.inr; rfl)
    | exact fun h => h
    | exact fun _ h => h
    | (intro _ hd; split <;> exact hd)
    | decide

theorem frame_tamperEvent (x : TamperSense) :
    Kept ([Part.landfall, Part.sxChannel, Part.sxCell, Part.sxStage, Part.sxAux, Part.sxSd, Part.sxLaw, Part.sxFix,
        Part.sxCount, Part.sxRest, Part.outlet, Part.rdr, Part.lkOut, Part.lkOutlet, Part.lkLatch] ++ [Part.lkRest,
        Part.txl, Part.wrk, Part.hostOps, Part.hostJournal, Part.locker, Part.fw, Part.tamper, Part.log, Part.flt])
        (.tamperEvent x) := by
  intro s s' e
  change execTamperEvent x s = .next s' at e
  unfold execTamperEvent at e
  injection e with e
  subst e
  repeat' first
    | with_reducible assumption
    | (extract_lets -merge +onlyGivenNames x
       first
       | (refine Keeps.cut (x := x) (fun hx => ?_) ?_; (on_goal 1 => clear_value x)
          (on_goal 2 => (unfold x; clear x)))
       | (refine Keeps.cut (x := x.2) (fun hx => ?_) ?_; (on_goal 1 => clear_value x)
          (on_goal 2 => (unfold x; clear x)))
       | (have t : List Part := x; clear t; subst x)
       | clear_value x)
    | with_reducible apply Keeps.refl
    | with_reducible apply Keeps.ite
    | with_reducible apply Keeps.then_ (keep_logDetect ..)
    | with_reducible apply Keeps.then_ (keep_eraseKeys ..)
    | with_reducible apply Keeps.then_ (keep_abortKeyOps ..)
    | with_reducible apply Keeps.then_ (keep_enterTamperHold ..)
    | with_reducible apply Keeps.then_ (keep_captureTamper ..)
    | split
    | with_reducible apply Keeps.upd_tamper
    | with_reducible apply Keeps.upd_flt
    | with_reducible apply Keeps.upd_all
    | (with_reducible apply Or.inl; decide)
    | (with_reducible apply Or.inr; with_reducible rfl)
    | (with_reducible apply Or.inr; rfl)
    | exact fun h => h
    | exact fun _ h => h
    | (intro _ hd; split <;> exact hd)
    | decide

theorem frame_tamperSourceCeases (x : TamperSense) :
    Kept [.tamper] (.tamperSourceCeases x) := by
  intro s s' e
  change execTamperSourceCeases x s = .next s' at e
  unfold execTamperSourceCeases at e
  injection e with e
  subst e
  repeat' first
    | with_reducible assumption
    | (extract_lets -merge +onlyGivenNames x
       first
       | (refine Keeps.cut (x := x) (fun hx => ?_) ?_; (on_goal 1 => clear_value x)
          (on_goal 2 => (unfold x; clear x)))
       | (refine Keeps.cut (x := x.2) (fun hx => ?_) ?_; (on_goal 1 => clear_value x)
          (on_goal 2 => (unfold x; clear x)))
       | clear_value x)
    | with_reducible apply Keeps.refl
    | with_reducible apply Keeps.upd_tamper
    | decide

theorem frame_firstStartSuccess (target : Fin 5) :
    Kept ([Part.landfall, Part.sxChannel, Part.sxCell, Part.sxStage, Part.sxAux, Part.sxLaw, Part.sxRest,
        Part.outlet, Part.rdr, Part.merFe, Part.merLeg, Part.merChr, Part.merTar, Part.merRest, Part.lkOut] ++
        [Part.lkOutlet, Part.lkLatch, Part.lkRest, Part.wrk, Part.hostOps, Part.hostJournal, Part.fw, Part.log,
        Part.flt]) (.firstStartSuccess target) := by
  intro s s' e
  change execFirstStartSuccess target s = .next s' at e
  unfold execFirstStartSuccess at e
  injection e with e
  subst e
  repeat' first
    | with_reducible assumption
    | (extract_lets -merge +onlyGivenNames x
       first
       | (refine Keeps.cut (x := x) (fun hx => ?_) ?_; (on_goal 1 => clear_value x)
          (on_goal 2 => (unfold x; clear x)))
       | (refine Keeps.cut (x := x.2) (fun hx => ?_) ?_; (on_goal 1 => clear_value x)
          (on_goal 2 => (unfold x; clear x)))
       | (have t : List Part := x; clear t; subst x)
       | clear_value x)
    | with_reducible apply Keeps.refl
    | with_reducible apply Keeps.ite
    | with_reducible apply Keeps.then_ (keep_settle ..)
    | with_reducible apply Keeps.then_ (keep_startSucceeds ..)
    | decide
    | split

theorem frame_firstStartFailure (target : Fin 5) :
    Kept ([Part.sxChannel, Part.sxCell, Part.sxStage, Part.sxAux, Part.sxLaw, Part.sxRest, Part.outlet, Part.rdr,
        Part.merFe, Part.merLeg, Part.merChr, Part.merTar, Part.merRest, Part.lkOut, Part.lkOutlet] ++
        [Part.lkLatch, Part.lkRest, Part.wrk, Part.hostOps, Part.hostJournal, Part.fw, Part.log, Part.flt])
        (.firstStartFailure target) := by
  intro s s' e
  change execFirstStartFailure target s = .next s' at e
  unfold execFirstStartFailure at e
  injection e with e
  subst e
  repeat' first
    | with_reducible assumption
    | (extract_lets -merge +onlyGivenNames x
       first
       | (refine Keeps.cut (x := x) (fun hx => ?_) ?_; (on_goal 1 => clear_value x)
          (on_goal 2 => (unfold x; clear x)))
       | (refine Keeps.cut (x := x.2) (fun hx => ?_) ?_; (on_goal 1 => clear_value x)
          (on_goal 2 => (unfold x; clear x)))
       | (have t : List Part := x; clear t; subst x)
       | clear_value x)
    | with_reducible apply Keeps.refl
    | with_reducible apply Keeps.ite
    | with_reducible apply Keeps.then_ (keep_settle ..)
    | with_reducible apply Keeps.then_ (keep_startFails ..)
    | decide
    | split

end Sys2Proof.Machine
end

