-- ==== Sys2Proof/Laws/FrameLogLine.lean ====
section
/-!
SUPPORT. What each operation and command of Machine/LogLine.lean leaves unchanged.
-/
namespace Sys2Proof.Machine

set_option linter.unreachableTactic false
set_option linter.unusedTactic false
set_option linter.tactic.unusedName false

theorem keep_updLlPeer (s : State) (a : Fin 34) (f : LlPeer → LlPeer) :
    Keeps [.ll] s (updLlPeer s a f) := by
  unfold updLlPeer
  repeat' first
    | with_reducible assumption
    | (extract_lets -merge +onlyGivenNames x
       first
       | (refine Keeps.cut (x := x) (fun hx => ?_) ?_; (on_goal 1 => clear_value x)
          (on_goal 2 => (unfold x; clear x)))
       | (refine Keeps.cut (x := x.2) (fun hx => ?_) ?_; (on_goal 1 => clear_value x)
          (on_goal 2 => (unfold x; clear x)))
       | clear_value x)
    | with_reducible apply Keeps.refl
    | with_reducible apply Keeps.upd_ll
    | decide

theorem keep_sendLl (s : State) (k kind hops step : Nat) (more : Bool) (dst r1 r2 : Nat) (payload : Bytes) (m : Nat) :
    Keeps [.ll, .locker] s (sendLl s k kind hops step more dst r1 r2 payload m) := by
  unfold sendLl
  repeat' first
    | with_reducible assumption
    | (extract_lets -merge +onlyGivenNames x
       first
       | (refine Keeps.cut (x := x) (fun hx => ?_) ?_; (on_goal 1 => clear_value x)
          (on_goal 2 => (unfold x; clear x)))
       | (refine Keeps.cut (x := x.2) (fun hx => ?_) ?_; (on_goal 1 => clear_value x)
          (on_goal 2 => (unfold x; clear x)))
       | clear_value x)
    | with_reducible apply Keeps.refl
    | with_reducible apply Keeps.ite
    | with_reducible apply Keeps.then_ (keep_useSlot ..)
    | split
    | with_reducible apply Keeps.upd_ll
    | decide

theorem keep_noteStep (s : State) (a : Fin 34) :
    Keeps [.ll, .log] s (noteStep s a) := by
  unfold noteStep
  repeat' first
    | with_reducible assumption
    | (extract_lets -merge +onlyGivenNames x
       first
       | (refine Keeps.cut (x := x) (fun hx => ?_) ?_; (on_goal 1 => clear_value x)
          (on_goal 2 => (unfold x; clear x)))
       | (refine Keeps.cut (x := x.2) (fun hx => ?_) ?_; (on_goal 1 => clear_value x)
          (on_goal 2 => (unfold x; clear x)))
       | clear_value x)
    | with_reducible apply Keeps.refl
    | with_reducible apply Keeps.then_ (keep_logInfo ..)
    | with_reducible apply Keeps.upd_ll
    | decide

theorem keep_segStep (s : State) (a : Fin 34) (seg : Fin 12) (err : Bool) :
    Keeps [.ll, .log] s (segStep s a seg err) := by
  unfold segStep
  repeat' first
    | with_reducible assumption
    | (extract_lets -merge +onlyGivenNames x
       first
       | (refine Keeps.cut (x := x) (fun hx => ?_) ?_; (on_goal 1 => clear_value x)
          (on_goal 2 => (unfold x; clear x)))
       | (refine Keeps.cut (x := x.2) (fun hx => ?_) ?_; (on_goal 1 => clear_value x)
          (on_goal 2 => (unfold x; clear x)))
       | clear_value x)
    | with_reducible apply Keeps.refl
    | with_reducible apply Keeps.ite
    | with_reducible apply Keeps.then_ (keep_updLlPeer ..)
    | with_reducible apply Keeps.then_ (keep_noteStep ..)
    | decide
    | (beta_reduce; split)

theorem keep_llDiscard (s : State) :
    Keeps [.ll] s (llDiscard s) := by
  unfold llDiscard
  repeat' first
    | with_reducible assumption
    | (extract_lets -merge +onlyGivenNames x
       first
       | (refine Keeps.cut (x := x) (fun hx => ?_) ?_; (on_goal 1 => clear_value x)
          (on_goal 2 => (unfold x; clear x)))
       | (refine Keeps.cut (x := x.2) (fun hx => ?_) ?_; (on_goal 1 => clear_value x)
          (on_goal 2 => (unfold x; clear x)))
       | clear_value x)
    | with_reducible apply Keeps.refl
    | with_reducible apply Keeps.upd_ll
    | decide

theorem keep_loseExchange (s : State) :
    Keeps [.ll, .log] s (loseExchange s) := by
  unfold loseExchange
  repeat' first
    | with_reducible assumption
    | (extract_lets -merge +onlyGivenNames x
       first
       | (refine Keeps.cut (x := x) (fun hx => ?_) ?_; (on_goal 1 => clear_value x)
          (on_goal 2 => (unfold x; clear x)))
       | (refine Keeps.cut (x := x.2) (fun hx => ?_) ?_; (on_goal 1 => clear_value x)
          (on_goal 2 => (unfold x; clear x)))
       | clear_value x)
    | with_reducible apply Keeps.refl
    | with_reducible apply Keeps.ite
    | with_reducible apply Keeps.then_ (keep_logInfo ..)
    | split
    | with_reducible apply Keeps.upd_ll
    | decide

theorem keep_takePoll (s : State) (f : LlRx) :
    Keeps [.ll, .mgr, .log, .flt] s (takePoll s f) := by
  unfold takePoll
  repeat' first
    | with_reducible assumption
    | (extract_lets -merge +onlyGivenNames x
       first
       | (refine Keeps.cut (x := x) (fun hx => ?_) ?_; (on_goal 1 => clear_value x)
          (on_goal 2 => (unfold x; clear x)))
       | (refine Keeps.cut (x := x.2) (fun hx => ?_) ?_; (on_goal 1 => clear_value x)
          (on_goal 2 => (unfold x; clear x)))
       | clear_value x)
    | with_reducible apply Keeps.refl
    | with_reducible apply Keeps.ite
    | with_reducible apply Keeps.then_ (keep_hearManager ..)
    | with_reducible apply Keeps.then_ (keep_updLlPeer ..)
    | (beta_reduce; split)
    | with_reducible apply Keeps.upd_ll
    | decide

theorem keep_takeReply (s : State) (f : LlRx) :
    Keeps [.ll] s (takeReply s f) := by
  unfold takeReply
  repeat' first
    | with_reducible assumption
    | (extract_lets -merge +onlyGivenNames x
       first
       | (refine Keeps.cut (x := x) (fun hx => ?_) ?_; (on_goal 1 => clear_value x)
          (on_goal 2 => (unfold x; clear x)))
       | (refine Keeps.cut (x := x.2) (fun hx => ?_) ?_; (on_goal 1 => clear_value x)
          (on_goal 2 => (unfold x; clear x)))
       | clear_value x)
    | with_reducible apply Keeps.refl
    | with_reducible apply Keeps.ite
    | with_reducible apply Keeps.then_ (keep_updLlPeer ..)
    | (beta_reduce; split)
    | with_reducible apply Keeps.upd_ll
    | decide

theorem keep_acceptLl (s : State) (f : LlRx) :
    Keeps [.ll, .mgr, .log, .flt] s (acceptLl s f) := by
  unfold acceptLl
  repeat' first
    | with_reducible assumption
    | (extract_lets -merge +onlyGivenNames x
       first
       | (refine Keeps.cut (x := x) (fun hx => ?_) ?_; (on_goal 1 => clear_value x)
          (on_goal 2 => (unfold x; clear x)))
       | (refine Keeps.cut (x := x.2) (fun hx => ?_) ?_; (on_goal 1 => clear_value x)
          (on_goal 2 => (unfold x; clear x)))
       | clear_value x)
    | with_reducible apply Keeps.refl
    | with_reducible apply Keeps.ite
    | with_reducible apply Keeps.then_ (keep_updLlPeer ..)
    | with_reducible apply Keeps.then_ (keep_llDiscard ..)
    | with_reducible apply Keeps.then_ (keep_takePoll ..)
    | with_reducible apply Keeps.then_ (keep_takeReply ..)
    | (beta_reduce; split)
    | with_reducible apply Keeps.upd_ll
    | decide

theorem keep_segSteps (s : State) (a : Fin 34) (h : LlTry) (isLost : Bool) :
    Keeps [.ll, .log] s (segSteps s a h isLost) := by
  unfold segSteps
  repeat' first
    | with_reducible assumption
    | (extract_lets -merge +onlyGivenNames x
       first
       | (refine Keeps.cut (x := x) (fun hx => ?_) ?_; (on_goal 1 => clear_value x)
          (on_goal 2 => (unfold x; clear x)))
       | (refine Keeps.cut (x := x.2) (fun hx => ?_) ?_; (on_goal 1 => clear_value x)
          (on_goal 2 => (unfold x; clear x)))
       | clear_value x)
    | with_reducible apply Keeps.refl
    | with_reducible apply Keeps.then_ (keep_segStep ..)
    | (with_reducible apply Keeps.foldl; on_goal 2 => intros)
    | decide

theorem keep_learnNoise (s : State) (x : LlAir) (slots : List SlotRx) (r : Rms) (h : LlTry) :
    Keeps [.ll] s (learnNoise s x slots r h) := by
  unfold learnNoise
  repeat' first
    | with_reducible assumption
    | (extract_lets -merge +onlyGivenNames x
       first
       | (refine Keeps.cut (x := x) (fun hx => ?_) ?_; (on_goal 1 => clear_value x)
          (on_goal 2 => (unfold x; clear x)))
       | (refine Keeps.cut (x := x.2) (fun hx => ?_) ?_; (on_goal 1 => clear_value x)
          (on_goal 2 => (unfold x; clear x)))
       | (have t : _ → State := x; clear t; subst x)
       | (have t : _ → _ → State := x; clear t; subst x)
       | (have t : _ → _ → Display := x; clear t; subst x)
       | clear_value x)
    | with_reducible apply Keeps.refl
    | with_reducible apply Keeps.upd_ll
    | decide

theorem keep_loseFrame (s : State) (h : LlTry) :
    Keeps [.ll, .log] s (loseFrame s h) := by
  unfold loseFrame
  repeat' first
    | with_reducible assumption
    | (extract_lets -merge +onlyGivenNames x
       first
       | (refine Keeps.cut (x := x) (fun hx => ?_) ?_; (on_goal 1 => clear_value x)
          (on_goal 2 => (unfold x; clear x)))
       | (refine Keeps.cut (x := x.2) (fun hx => ?_) ?_; (on_goal 1 => clear_value x)
          (on_goal 2 => (unfold x; clear x)))
       | clear_value x)
    | with_reducible apply Keeps.refl
    | with_reducible apply Keeps.ite
    | with_reducible apply Keeps.then_ (keep_llDiscard ..)
    | with_reducible apply Keeps.then_ (keep_loseExchange ..)
    | with_reducible apply Keeps.then_ (keep_segSteps ..)
    | split
    | with_reducible apply Keeps.upd_ll
    | decide

theorem keep_judgeLl (s : State) (h : LlTry) :
    Keeps [.ll, .mgr, .log, .flt] s (judgeLl s h) := by
  unfold judgeLl
  repeat' first
    | with_reducible assumption
    | (extract_lets -merge +onlyGivenNames x
       first
       | (refine Keeps.cut (x := x) (fun hx => ?_) ?_; (on_goal 1 => clear_value x)
          (on_goal 2 => (unfold x; clear x)))
       | (refine Keeps.cut (x := x.2) (fun hx => ?_) ?_; (on_goal 1 => clear_value x)
          (on_goal 2 => (unfold x; clear x)))
       | clear_value x)
    | with_reducible apply Keeps.refl
    | with_reducible apply Keeps.ite
    | with_reducible apply Keeps.then_ (keep_updLlPeer ..)
    | with_reducible apply Keeps.then_ (keep_acceptLl ..)
    | with_reducible apply Keeps.then_ (keep_segSteps ..)
    | with_reducible apply Keeps.then_ (keep_loseFrame ..)
    | (beta_reduce; split)
    | with_reducible apply Keeps.upd_ll
    | decide

theorem keep_sendPoll (s : State) (bm step dst : Nat) (r : Nat × Nat × Nat) (tx : Nat) (ask : Bool) :
    Keeps [.ll, .locker] s (sendPoll s bm step dst r tx ask) := by
  unfold sendPoll
  repeat' first
    | with_reducible assumption
    | (extract_lets -merge +onlyGivenNames x
       first
       | (refine Keeps.cut (x := x) (fun hx => ?_) ?_; (on_goal 1 => clear_value x)
          (on_goal 2 => (unfold x; clear x)))
       | (refine Keeps.cut (x := x.2) (fun hx => ?_) ?_; (on_goal 1 => clear_value x)
          (on_goal 2 => (unfold x; clear x)))
       | clear_value x)
    | with_reducible apply Keeps.refl
    | with_reducible apply Keeps.ite
    | with_reducible apply Keeps.then_ (keep_sendLl ..)
    | split
    | with_reducible apply Keeps.upd_ll
    | decide

theorem keep_pollNode (s : State) (a step : Nat) :
    Keeps [.ll, .locker] s (pollNode s a step) := by
  unfold pollNode
  repeat' first
    | with_reducible assumption
    | (extract_lets -merge +onlyGivenNames x
       first
       | (refine Keeps.cut (x := x) (fun hx => ?_) ?_; (on_goal 1 => clear_value x)
          (on_goal 2 => (unfold x; clear x)))
       | (refine Keeps.cut (x := x.2) (fun hx => ?_) ?_; (on_goal 1 => clear_value x)
          (on_goal 2 => (unfold x; clear x)))
       | clear_value x)
    | with_reducible apply Keeps.refl
    | with_reducible apply Keeps.then_ (keep_sendPoll ..)
    | split
    | with_reducible apply Keeps.upd_ll
    | decide

theorem keep_openCycle (s : State) :
    Keeps [.ll, .locker] s (openCycle s) := by
  unfold openCycle
  repeat' first
    | with_reducible assumption
    | (extract_lets -merge +onlyGivenNames x
       first
       | (refine Keeps.cut (x := x) (fun hx => ?_) ?_; (on_goal 1 => clear_value x)
          (on_goal 2 => (unfold x; clear x)))
       | (refine Keeps.cut (x := x.2) (fun hx => ?_) ?_; (on_goal 1 => clear_value x)
          (on_goal 2 => (unfold x; clear x)))
       | clear_value x)
    | with_reducible apply Keeps.refl
    | with_reducible apply Keeps.then_ (keep_sendPoll ..)
    | with_reducible apply Keeps.upd_ll
    | decide

theorem keep_rebuild (s : State) :
    Keeps [.ll] s (rebuild s) := by
  unfold rebuild
  repeat' first
    | with_reducible assumption
    | (extract_lets -merge +onlyGivenNames x
       first
       | (refine Keeps.cut (x := x) (fun hx => ?_) ?_; (on_goal 1 => clear_value x)
          (on_goal 2 => (unfold x; clear x)))
       | (refine Keeps.cut (x := x.2) (fun hx => ?_) ?_; (on_goal 1 => clear_value x)
          (on_goal 2 => (unfold x; clear x)))
       | clear_value x)
    | with_reducible apply Keeps.refl
    | with_reducible apply Keeps.ite
    | (with_reducible apply Keeps.foldl; on_goal 2 => intros)
    | (beta_reduce; split)
    | with_reducible apply Keeps.upd_ll
    | decide

theorem frame_llZcEdge (t : Nat) :
    Kept [.ll, .log, .flt] (.llZcEdge t) := by
  intro s s' e
  change execLlZcEdge t s = .next s' at e
  unfold execLlZcEdge at e
  injection e with e
  subst e
  repeat' first
    | with_reducible assumption
    | (extract_lets -merge +onlyGivenNames x
       first
       | (refine Keeps.cut (x := x) (fun hx => ?_) ?_; (on_goal 1 => clear_value x)
          (on_goal 2 => (unfold x; clear x)))
       | (refine Keeps.cut (x := x.2) (fun hx => ?_) ?_; (on_goal 1 => clear_value x)
          (on_goal 2 => (unfold x; clear x)))
       | clear_value x)
    | with_reducible apply Keeps.refl
    | with_reducible apply Keeps.ite
    | with_reducible apply Keeps.then_ (keep_logClear ..)
    | (beta_reduce; split)
    | with_reducible apply Keeps.upd_ll
    | decide

theorem frame_llZcMissed  :
    Kept [.ll, .log, .flt] .llZcMissed := by
  intro s s' e
  change execLlZcMissed s = .next s' at e
  unfold execLlZcMissed at e
  injection e with e
  subst e
  repeat' first
    | with_reducible assumption
    | (extract_lets -merge +onlyGivenNames x
       first
       | (refine Keeps.cut (x := x) (fun hx => ?_) ?_; (on_goal 1 => clear_value x)
          (on_goal 2 => (unfold x; clear x)))
       | (refine Keeps.cut (x := x.2) (fun hx => ?_) ?_; (on_goal 1 => clear_value x)
          (on_goal 2 => (unfold x; clear x)))
       | clear_value x)
    | with_reducible apply Keeps.refl
    | with_reducible apply Keeps.ite
    | with_reducible apply Keeps.then_ (keep_logDetect ..)
    | split
    | with_reducible apply Keeps.upd_ll
    | decide

theorem frame_llFrameReceived (x : LlAir) :
    Kept [.ll, .mgr, .locker, .log, .flt] (.llFrameReceived x) := by
  intro s s' e
  change execLlFrameReceived x s = .next s' at e
  unfold execLlFrameReceived at e
  injection e with e
  subst e
  repeat' first
    | with_reducible assumption
    | (extract_lets -merge +onlyGivenNames x
       first
       | (refine Keeps.cut (x := x) (fun hx => ?_) ?_; (on_goal 1 => clear_value x)
          (on_goal 2 => (unfold x; clear x)))
       | (refine Keeps.cut (x := x.2) (fun hx => ?_) ?_; (on_goal 1 => clear_value x)
          (on_goal 2 => (unfold x; clear x)))
       | clear_value x)
    | with_reducible apply Keeps.refl
    | with_reducible apply Keeps.ite
    | with_reducible apply Keeps.then_ (keep_useSlot ..)
    | with_reducible apply Keeps.then_ (keep_learnNoise ..)
    | with_reducible apply Keeps.then_ (keep_judgeLl ..)
    | decide
    | split

theorem frame_llPathLost  :
    Kept [.ll, .log, .flt] .llPathLost := by
  intro s s' e
  change execLlPathLost s = .next s' at e
  unfold execLlPathLost at e
  injection e with e
  subst e
  repeat' first
    | with_reducible assumption
    | (extract_lets -merge +onlyGivenNames x
       first
       | (refine Keeps.cut (x := x) (fun hx => ?_) ?_; (on_goal 1 => clear_value x)
          (on_goal 2 => (unfold x; clear x)))
       | (refine Keeps.cut (x := x.2) (fun hx => ?_) ?_; (on_goal 1 => clear_value x)
          (on_goal 2 => (unfold x; clear x)))
       | clear_value x)
    | with_reducible apply Keeps.refl
    | with_reducible apply Keeps.ite
    | with_reducible apply Keeps.then_ (keep_logDetect ..)
    | split
    | with_reducible apply Keeps.upd_ll
    | decide

theorem frame_llPathClear  :
    Kept [.ll, .log, .flt] .llPathClear := by
  intro s s' e
  change execLlPathClear s = .next s' at e
  unfold execLlPathClear at e
  injection e with e
  subst e
  repeat' first
    | with_reducible assumption
    | (extract_lets -merge +onlyGivenNames x
       first
       | (refine Keeps.cut (x := x) (fun hx => ?_) ?_; (on_goal 1 => clear_value x)
          (on_goal 2 => (unfold x; clear x)))
       | (refine Keeps.cut (x := x.2) (fun hx => ?_) ?_; (on_goal 1 => clear_value x)
          (on_goal 2 => (unfold x; clear x)))
       | clear_value x)
    | with_reducible apply Keeps.refl
    | with_reducible apply Keeps.ite
    | with_reducible apply Keeps.then_ (keep_logClear ..)
    | split
    | with_reducible apply Keeps.upd_ll
    | decide

theorem frame_llMapStepDown (a : Fin 34) (seg : Fin 12) :
    Kept [.ll, .log] (.llMapStepDown a seg) := by
  intro s s' e
  change execLlMapStepDown a seg s = .next s' at e
  unfold execLlMapStepDown at e
  injection e with e
  subst e
  repeat' first
    | with_reducible assumption
    | (extract_lets -merge +onlyGivenNames x
       first
       | (refine Keeps.cut (x := x) (fun hx => ?_) ?_; (on_goal 1 => clear_value x)
          (on_goal 2 => (unfold x; clear x)))
       | (refine Keeps.cut (x := x.2) (fun hx => ?_) ?_; (on_goal 1 => clear_value x)
          (on_goal 2 => (unfold x; clear x)))
       | clear_value x)
    | with_reducible apply Keeps.refl
    | with_reducible apply Keeps.ite
    | with_reducible apply Keeps.then_ (keep_updLlPeer ..)
    | with_reducible apply Keeps.then_ (keep_noteStep ..)
    | decide
    | (beta_reduce; split)

theorem frame_llReplySend :
    Kept [.free, .ll, .locker] .llReplySend := by
  intro s s' e
  change execLlReplySend s = .next s' at e
  unfold execLlReplySend at e
  injection e with e
  subst e
  refine Keeps.ite (Keeps.refl _ _) ?_
  split
  · exact Keeps.refl _ _
  · extract_lets room rx m r src u due l now left src2 v n d
    have hu : Keeps [.free, .ll, .locker] s u := Keeps.upd_ll (Keeps.refl _ _) (by decide)
    have hv : Keeps [.free, .ll, .locker] s v := Keeps.upd_ll hu (by decide)
    have hd : Keeps [.free, .ll, .locker] s d.2 := hu.trans ((keep_drawBytes u n).mono (by decide))
    exact Keeps.ite (hv.trans ((keep_sendLl v _ _ _ _ _ _ _ _ _ _).mono (by decide)))
      (hd.trans ((keep_sendLl d.2 _ _ _ _ _ _ _ _ _ _).mono (by decide)))

theorem frame_llRelayForward  :
    Kept [.ll, .locker] .llRelayForward := by
  intro s s' e
  change execLlRelayForward s = .next s' at e
  unfold execLlRelayForward at e
  injection e with e
  subst e
  repeat' first
    | with_reducible assumption
    | (extract_lets -merge +onlyGivenNames x
       first
       | (refine Keeps.cut (x := x) (fun hx => ?_) ?_; (on_goal 1 => clear_value x)
          (on_goal 2 => (unfold x; clear x)))
       | (refine Keeps.cut (x := x.2) (fun hx => ?_) ?_; (on_goal 1 => clear_value x)
          (on_goal 2 => (unfold x; clear x)))
       | clear_value x)
    | with_reducible apply Keeps.refl
    | with_reducible apply Keeps.ite
    | with_reducible apply Keeps.then_ (keep_useSlot ..)
    | split
    | with_reducible apply Keeps.upd_ll
    | decide

theorem frame_llPollRound  :
    Kept [.ll, .locker] .llPollRound := by
  intro s s' e
  change execLlPollRound s = .next s' at e
  unfold execLlPollRound at e
  injection e with e
  subst e
  repeat' first
    | with_reducible assumption
    | (extract_lets -merge +onlyGivenNames x
       first
       | (refine Keeps.cut (x := x) (fun hx => ?_) ?_; (on_goal 1 => clear_value x)
          (on_goal 2 => (unfold x; clear x)))
       | (refine Keeps.cut (x := x.2) (fun hx => ?_) ?_; (on_goal 1 => clear_value x)
          (on_goal 2 => (unfold x; clear x)))
       | clear_value x)
    | with_reducible apply Keeps.refl
    | with_reducible apply Keeps.ite
    | with_reducible apply Keeps.then_ (keep_sendPoll ..)
    | with_reducible apply Keeps.then_ (keep_pollNode ..)
    | with_reducible apply Keeps.then_ (keep_openCycle ..)
    | (beta_reduce; split)
    | with_reducible apply Keeps.upd_ll
    | decide

theorem frame_llReplyWaitEnd  :
    Kept [.ll, .log] .llReplyWaitEnd := by
  intro s s' e
  change execLlReplyWaitEnd s = .next s' at e
  unfold execLlReplyWaitEnd at e
  injection e with e
  subst e
  repeat' first
    | with_reducible assumption
    | (extract_lets -merge +onlyGivenNames x
       first
       | (refine Keeps.cut (x := x) (fun hx => ?_) ?_; (on_goal 1 => clear_value x)
          (on_goal 2 => (unfold x; clear x)))
       | (refine Keeps.cut (x := x.2) (fun hx => ?_) ?_; (on_goal 1 => clear_value x)
          (on_goal 2 => (unfold x; clear x)))
       | clear_value x)
    | with_reducible apply Keeps.refl
    | with_reducible apply Keeps.ite
    | with_reducible apply Keeps.then_ (keep_loseExchange ..)
    | split
    | with_reducible apply Keeps.upd_ll
    | decide

theorem frame_llRouteRebuild  :
    Kept [.ll] .llRouteRebuild := by
  intro s s' e
  change execLlRouteRebuild s = .next s' at e
  unfold execLlRouteRebuild at e
  injection e with e
  subst e
  repeat' first
    | with_reducible assumption
    | (extract_lets -merge +onlyGivenNames x
       first
       | (refine Keeps.cut (x := x) (fun hx => ?_) ?_; (on_goal 1 => clear_value x)
          (on_goal 2 => (unfold x; clear x)))
       | (refine Keeps.cut (x := x.2) (fun hx => ?_) ?_; (on_goal 1 => clear_value x)
          (on_goal 2 => (unfold x; clear x)))
       | clear_value x)
    | with_reducible apply Keeps.refl
    | with_reducible apply Keeps.ite
    | with_reducible apply Keeps.then_ (keep_rebuild ..)
    | decide
    | split

theorem frame_llLinkUnusable (a b : Fin 34) :
    Kept [.ll] (.llLinkUnusable a b) := by
  intro s s' e
  change execLlLinkUnusable a b s = .next s' at e
  unfold execLlLinkUnusable at e
  injection e with e
  subst e
  repeat' first
    | with_reducible assumption
    | (extract_lets -merge +onlyGivenNames x
       first
       | (refine Keeps.cut (x := x) (fun hx => ?_) ?_; (on_goal 1 => clear_value x)
          (on_goal 2 => (unfold x; clear x)))
       | (refine Keeps.cut (x := x.2) (fun hx => ?_) ?_; (on_goal 1 => clear_value x)
          (on_goal 2 => (unfold x; clear x)))
       | clear_value x)
    | with_reducible apply Keeps.refl
    | with_reducible apply Keeps.ite
    | with_reducible apply Keeps.then_ (keep_rebuild ..)
    | (beta_reduce; split)
    | with_reducible apply Keeps.upd_ll
    | decide

end Sys2Proof.Machine
end

