-- ==== Sys2Proof/Laws/Frames.lean ====
section
/-!
SUPPORT. Every command keeps its frame, family by family: what a proof about all commands cites.
-/
namespace Sys2Proof.Machine

/-- The parts together are the whole state. -/
theorem eq_of_same {s t : State} (h : ∀ p : Part, p.same s t) : t = s := by
  have hsx : t.sx = s.sx := by
    have a := h .sxChannel; have b := h .sxCell; have c := h .sxStage; have d := h .sxAux; have e := h .sxSd
    have f := h .sxLaw; have g := h .sxFix; have k := h .sxCount; have i := h .sxRest
    cases hs : s.sx; cases ht : t.sx
    simp only [Part.same, hs, ht, Prod.mk.injEq] at a b c d e f g k i
    simp only [Sextant.mk.injEq]
    tauto
  have hmer : t.mer = s.mer := by
    have a := h .merFe; have b := h .merLeg; have c := h .merRegs; have d := h .merChr; have e := h .merTar
    have f := h .merMail; have g := h .merRest
    cases hs : s.mer; cases ht : t.mer
    simp only [Part.same, hs, ht, Prod.mk.injEq] at a b c d e f g
    simp only [Meridian.mk.injEq]
    tauto
  have hlk : t.lk = s.lk := by
    have a := h .lkIn; have b := h .lkOut; have c := h .lkOutlet; have d := h .lkLatch; have e := h .lkConf
    have f := h .lkRest
    cases hs : s.lk; cases ht : t.lk
    simp only [Part.same, hs, ht, Prod.mk.injEq] at a b c d e f
    simp only [Lookout.mk.injEq]
    tauto
  have hhost : t.host = s.host := by
    have a := h .hostSessions; have b := h .hostOps; have c := h .hostJournal; have d := h .hostRest
    cases hs : s.host; cases ht : t.host
    simp only [Part.same, hs, ht, Prod.mk.injEq] at a b c d
    simp only [HostIf.mk.injEq]
    tauto
  have h_variant : t.variant = s.variant := h .variant
  have h_mono : t.mono = s.mono := h .mono
  have h_free : t.free = s.free := h .free
  have h_landfall : t.landfall = s.landfall := h .landfall
  have h_chart : t.chart = s.chart := h .chart
  have h_cfg : t.cfg = s.cfg := h .cfg
  have h_flash : t.flash = s.flash := h .flash
  have h_outlet : t.outlet = s.outlet := h .outlet
  have h_cooling : t.cooling = s.cooling := h .cooling
  have h_drive : t.drive = s.drive := h .drive
  have h_rdr : t.rdr = s.rdr := h .rdr
  have h_com : t.com = s.com := h .com
  have h_disp : t.disp = s.disp := h .disp
  have h_txl : t.txl = s.txl := h .txl
  have h_safe : t.safe = s.safe := h .safe
  have h_ll : t.ll = s.ll := h .ll
  have h_mgr : t.mgr = s.mgr := h .mgr
  have h_wrk : t.wrk = s.wrk := h .wrk
  have h_locker : t.locker = s.locker := h .locker
  have h_fw : t.fw = s.fw := h .fw
  have h_tamper : t.tamper = s.tamper := h .tamper
  have h_log : t.log = s.log := h .log
  have h_flt : t.flt = s.flt := h .flt
  have h_pwr : t.pwr = s.pwr := h .pwr
  have h_merStage : t.merStage = s.merStage := h .merStage
  have h_pending : t.pending = s.pending := h .pending
  cases s; cases t
  simp_all only

end Sys2Proof.Machine
end

