-- ==== Sys2Proof/Laws/Host.lean ====
section
/-!
SUPPORT. Accepted operations: what `request` and `control` come to once a frame is let through.
-/
namespace Sys2Proof.Machine

theorem find_map_key {α β : Type} [BEq β] (k : α → β) (b : β) (f : α → α) (hk : ∀ x, k (f x) = k x) (l : List α) :
    (l.map f).find? (fun x => k x == b) = (l.find? fun x => k x == b).map f := by
  induction l with
  | nil => rfl
  | cons a t ih => by_cases h : k a == b <;> simp [hk, h, ih]

theorem findSession_updSession (s : State) (n m : Nat) (f : Session → Session) (hf : ∀ x, (f x).sid = x.sid) :
    findSession (updSession s n f) m = (findSession s m).map fun x => if x.sid = n then f x else x :=
  find_map_key Session.sid m (fun x => if x.sid = n then f x else x) (fun x => by split <;> simp [hf]) s.host.sessions

theorem findSession_sid {s : State} {n : Nat} {x : Session} (h : findSession s n = some x) : x.sid = n := by
  have := List.find?_some h
  simpa using this

/-- A host update changes the host interface and nothing else. -/
theorem reply_only_host (s : State) (f : Frame) (code : Nat) (done : Bool) (st : Status) (id : Nat) (p : Bytes) :
    ∃ h : HostIf, reply s f code done st id p = { s with host := h } ∧ h.ops = s.host.ops := by
  unfold reply
  split
  · exact ⟨s.host, rfl, rfl⟩
  · exact ⟨_, rfl, rfl⟩

theorem recordOp_only_host (s : State) (x : Session) (f : Frame) (c : HostCmd) :
    ∃ h : HostIf, recordOp s x f c = { s with host := h } ∧ h.ops = s.host.ops ++ [opOf s x f c] := by
  unfold recordOp
  obtain ⟨h, e, ho⟩ := reply_only_host _ f c.code false .accepted s.host.nextOp []
  exact ⟨h, e, ho⟩

variable {s u : State} {f : Frame} {c : HostCmd} {x : Session} {op : Op} {code : Nat} {body : Bytes}

/-- The session of a frame is the one its SID names. -/
theorem frameSession_find (h : frameSession s f code body = some x) : findSession s f.sid = some x := by
  unfold frameSession at h
  split at h
  · cases h
  · exact (Option.filter_eq_some_iff.mp h).1

/-- A frame with the session's own MAC, of the length that its payload has, is of that session (R385, R390). -/
theorem frameSession_of (hs : f.sid ≠ 0) (hl : f.len = (framePayload f body).length)
    (hx : findSession s f.sid = some x) (hm : f.mac = frameMac x.keyIn f code body) :
    frameSession s f code body = some x := by
  unfold frameSession
  rw [if_neg (by simp [hs, hl]), hx]
  simp [Option.filter, hm]

/-- The session of a received frame, once the frame is noted. -/
theorem Received.noted (h : Received s f code body x) :
    ∃ y, findSession (noteFrame s f) f.sid = some y ∧ y.sid = x.sid ∧ y.role = x.role ∧ x.sid = f.sid := by
  have hs := frameSession_find h.session
  have hx := findSession_sid hs
  have e := findSession_updSession s f.sid f.sid (fun x =>
    let high := if seqNewer f.seq x.rxHigh then f.seq else x.rxHigh
    { x with
      via := f.via, lastRx := s.mono, rxHigh := high
      given := x.given.filter fun g => decide ((high + 2 ^ 32 - g.seq) % 2 ^ 32 ≤ 64) }) fun _ => rfl
  rw [hs, Option.map_some, if_pos hx] at e
  exact ⟨_, e, rfl, rfl, hx⟩

theorem takeWhile_append_all {α : Type} (p : α → Bool) (l : List α) (a : α) (h : ∀ y ∈ l, p y = true) (ha : p a = false) :
    (l ++ [a]).takeWhile p = l := by
  induction l with
  | nil => simp [ha]
  | cons b t ih => simp_all

theorem receive_received (h : Received s f code body x) (act : State → Session → State) :
    receive s f code body act = act (noteFrame s f) ((findSession (noteFrame s f) f.sid).getD x) := by
  unfold receive
  rw [h.open_, h.session]
  simp [h.fresh]

/-- An accepted operation has its effect at once. -/
theorem Accepted.request (h : Accepted s f c x u op) : request s f c = noteOutcome (runOp u op) op := by
  obtain ⟨y, hy, hsid, hrole, hf⟩ := h.received.noted
  have hstate := h.state
  rw [hy, Option.getD_some] at hstate
  unfold Machine.request
  rw [receive_received h.received, hy]
  simp only [Option.getD_some]
  rw [hrole, hsid, h.admitted]
  simp only [h.room]
  have hopeq : opOf (noteFrame s f) y f c = op := by
    rw [h.operation]; unfold opOf; rw [hsid, hrole]; rfl
  have hop : op.opId = s.host.nextOp := by rw [h.operation]; rfl
  obtain ⟨hh, e, ho⟩ := recordOp_only_host (noteFrame s f) y f c
  rw [hopeq] at ho
  have hops : (recordOp (noteFrame s f) y f c).host.ops = s.host.ops ++ [op] := by rw [e]; exact ho
  unfold acceptOp
  rw [hopeq]
  have hmay : mayStart (recordOp (noteFrame s f) y f c) op = true := by
    have hd : (op.cmd.toMeridian && decide (16 ≤ (recordOp (noteFrame s f) y f c).mer.mail.length)) = false := by
      have hc : op.cmd = c := by rw [h.operation]; rfl
      have hm : (recordOp (noteFrame s f) y f c).mer.mail = s.mer.mail := by rw [e]; rfl
      rw [hc, hm]
      by_cases ht : c.toMeridian = true
      · have := h.deciding ht
        simp only [ht, Bool.true_and, decide_eq_false_iff_not]
        omega
      · simp [ht]
    unfold mayStart opsBefore
    rw [hd, hops, takeWhile_append_all _ _ _ (by rw [hop]; simpa using h.distinct) (by simp)]
    have := h.order
    simp only [Bool.not_false, Bool.true_and, Bool.not_eq_true', List.any_eq_false]
    intro z hz
    have hz' := h.order z hz
    have h1 : op.sid = x.sid := by rw [h.operation]; rfl
    have h2 : op.cls = f.cls := by rw [h.operation]; rfl
    have h3 : op.cmd = c := by rw [h.operation]; rfl
    rw [h1, h2, h3]
    by_cases ha : z.sid = x.sid <;> by_cases hb : z.complete = false <;> simp_all
  simp only [hmay, if_true]
  unfold startOp
  rw [hstate, h.operation]

/-- The state in which an accepted operation has its effect differs from the state before in the host interface only. -/
theorem Accepted.state_eq (h : Accepted s f c x u op) : u = { s with host := u.host } := by
  obtain ⟨y, hy, -, -, -⟩ := h.received.noted
  have hstate := h.state
  rw [hy, Option.getD_some] at hstate
  obtain ⟨hh, e, -⟩ := recordOp_only_host (noteFrame s f) y f c
  rw [hstate, e]
  rfl

/-- The accepted operation's fields. -/
theorem Accepted.op_eq (h : Accepted s f c x u op) :
    op.cmd = c ∧ op.sid = x.sid ∧ op.role = x.role ∧ op.cls = f.cls ∧ op.opId = s.host.nextOp := by
  rw [h.operation]; exact ⟨rfl, rfl, rfl, rfl, rfl⟩

/-- An accepted control command is answered. -/
theorem ControlAccepted.control (h : ControlAccepted s f code body x u) (act : State → Session → CtlReply × State) :
    ∃ y : Session, y.sid = x.sid ∧ y.role = x.role ∧ control s f code body act = replyCtl (act u y).2 f (act u y).1 := by
  obtain ⟨y, hy, hsid, hrole, hf⟩ := h.received.noted
  refine ⟨y, hsid, hrole, ?_⟩
  have hc : ¬(5 < f.cls ∨ f.raw.isSome = true) := by
    have hk := h.cls
    rw [h.layout]
    simp only [Option.isSome_none, Bool.false_eq_true, or_false]
    omega
  have ht : ¬((noteFrame s f).host.cls[(0 : Fin 6)]).milli < 1000 := by
    have := h.token
    change ¬(s.host.cls[(0 : Fin 6)]).milli < 1000
    omega
  unfold Machine.control
  rw [receive_received h.received, hy]
  simp only [Option.getD_some, if_neg hc, if_neg ht]
  rw [h.state]

/-- The state in which a control command is answered differs from the state before in the host interface only. -/
theorem ControlAccepted.state_eq (h : ControlAccepted s f code body x u) :
    u = { s with host := u.host } ∧ u.host.ops = s.host.ops ∧ u.host.journal = s.host.journal := by
  rw [h.state]; exact ⟨rfl, rfl, rfl⟩

end Sys2Proof.Machine
end

