-- ==== Sys2Proof/Laws/Stages.lean ====
section
/-!
SUPPORT. A stage that neither starts nor delivers is left as it is by every reaction that follows on another stage or on
an outlet: STOP, the dependent stages, and the outlets' faults. Each shared operation is unfolded here once.
-/
namespace Sys2Proof.Machine

/-- A stage in OFF, LATCHED, RAMP_DOWN or DISCHARGE: STOP does not change it (R116). -/
def Stage.rests (x : Stage) : Prop := x.st = .off ∨ x.st = .latched ∨ x.st = .rampDown ∨ x.st = .discharge

/-- State, FAIL and latch causes of stage `g` are in `t` what they are in `s`, if it rests in `s`. -/
def KeepsResting (g : Fin 8) (s t : State) : Prop :=
  s.sx.stage[g].rests → t.sx.stage[g].st = s.sx.stage[g].st ∧ t.sx.stage[g].fail = s.sx.stage[g].fail
    ∧ t.sx.stage[g].latchCause = s.sx.stage[g].latchCause ∧ t.sx.stage[g].latchMask = s.sx.stage[g].latchMask

theorem KeepsResting.refl (g : Fin 8) (s : State) : KeepsResting g s s := fun _ => ⟨rfl, rfl, rfl, rfl⟩

theorem KeepsResting.trans {g : Fin 8} {s t u : State} (h : KeepsResting g s t) (k : KeepsResting g t u) :
    KeepsResting g s u := fun r => by
  obtain ⟨a, b, c, d⟩ := h r
  obtain ⟨a', b', c', d'⟩ := k (by unfold Stage.rests at r ⊢; rwa [a])
  exact ⟨a'.trans a, b'.trans b, c'.trans c, d'.trans d⟩

/-- The stages are the same. -/
theorem KeepsResting.of_eq {g : Fin 8} {s t : State} (h : t.sx.stage = s.sx.stage) : KeepsResting g s t :=
  fun _ => by rw [h]; exact ⟨rfl, rfl, rfl, rfl⟩

theorem KeepsResting.foldl {α : Type} {g : Fin 8} {f : State → α → State} (h : ∀ s a, KeepsResting g s (f s a)) :
    ∀ (l : List α) (s : State), KeepsResting g s (l.foldl f s)
  | [], s => .refl g s
  | a :: l, s => (h s a).trans (KeepsResting.foldl h l (f s a))

theorem upd_get {α : Type} {n : Nat} (v : Vector α n) (i j : Fin n) (f : α → α) :
    (upd v i f)[j] = if i = j then f v[j] else v[j] := by
  by_cases h : i = j
  · subst h; rw [if_pos rfl]; exact upd_same v i f
  · rw [if_neg h]; exact upd_other v i j f h

/-- Replacing stage `h` by an image keeps resting stages if the image of a resting stage does. -/
theorem KeepsResting.updStage {g h : Fin 8} {s : State} {f : Stage → Stage}
    (k : h = g → s.sx.stage[g].rests → (f s.sx.stage[g]).st = s.sx.stage[g].st
      ∧ (f s.sx.stage[g]).fail = s.sx.stage[g].fail ∧ (f s.sx.stage[g]).latchCause = s.sx.stage[g].latchCause
      ∧ (f s.sx.stage[g]).latchMask = s.sx.stage[g].latchMask) :
    KeepsResting g s (Machine.updStage s h f) := fun r => by
  simp only [Machine.updStage, upd_get]
  split
  · next e => exact k e r
  · exact ⟨rfl, rfl, rfl, rfl⟩

/-- An operation whose frame leaves out the stages keeps them. -/
theorem KeepsResting.of_keeps {g : Fin 8} {F : List Part} {s t : State} (k : Keeps F s t) (h : Part.sxStage ∉ F) :
    KeepsResting g s t := .of_eq (k.same .sxStage h)

theorem updCell_keepsResting (g : Fin 8) (c : Fin 48) (s : State) (f : Cell → Cell) :
    KeepsResting g s (updCell s c f) := .of_eq rfl
theorem parkChannels_keepsResting (g h : Fin 8) (s : State) (p : Fin 48 → Bool) :
    KeepsResting g s (parkChannels s h p) := .of_keeps (keep_parkChannels s h p) (by decide)
theorem reshare_keepsResting (g h : Fin 8) (s : State) : KeepsResting g s (reshare s h) :=
  .of_keeps (keep_reshare s h) (by decide)
theorem afeDrop_keepsResting (g h : Fin 8) (s : State) : KeepsResting g s (afeDrop s h) :=
  .of_keeps (keep_afeDrop s h) (by decide)

theorem followLimit_keepsResting (g h : Fin 8) (s : State) : KeepsResting g s (followLimit s h) := by
  unfold followLimit
  exact (KeepsResting.updStage (fun _ _ => ⟨rfl, rfl, rfl, rfl⟩)).trans (reshare_keepsResting g h _)

/-- Parking a stage leaves the others as they are. -/
theorem stageOff_keepsResting {g h : Fin 8} (ne : h ≠ g) (t : State) (fail : Option Nat) :
    KeepsResting g t (stageOff t h fail) := by
  unfold stageOff
  extract_lets p q u
  have hp : KeepsResting g t p := parkChannels_keepsResting g h t _
  have hq : KeepsResting g p q := .of_keeps (keep_mapCells p h _) (by decide)
  have hu : KeepsResting g t u := (hp.trans hq).trans (.updStage fun e => absurd e ne)
  clear_value u
  cases fail with
  | none => exact hu
  | some k => exact hu.trans (.of_keeps (keep_updAux u h _) (by decide))

theorem stageRamp_keepsResting {g h : Fin 8} (ne : h ≠ g) (s : State) : KeepsResting g s (stageRamp s h) := by
  unfold stageRamp
  extract_lets t now
  have ht : KeepsResting g s t := followLimit_keepsResting g h s
  clear_value t now
  exact (ht.trans (.updStage fun e => absurd e ne)).trans (reshare_keepsResting g h _)

/-- STOP and a failed start leave a resting stage as it is. -/
theorem haltStage_keepsResting (g h : Fin 8) (s : State) (fail : Option Nat) : KeepsResting g s (haltStage s h fail) := by
  by_cases ne : h = g
  · subst ne
    intro r
    unfold haltStage
    rcases r with r | r | r | r <;> rw [r] <;> exact ⟨r, rfl, rfl, rfl⟩
  · unfold haltStage
    split
    · exact (stageOff_keepsResting ne s fail).trans (afeDrop_keepsResting g h _)
    · exact (stageOff_keepsResting ne s fail).trans (afeDrop_keepsResting g h _)
    · exact stageRamp_keepsResting ne s
    · exact stageRamp_keepsResting ne s
    · exact .refl g s

theorem depReact_keepsResting (g : Fin 8) : ∀ (n : Nat) (s t : State), KeepsResting g t (depReact n s t)
  | 0, _, t => .refl g t
  | n + 1, s, t => by
    unfold depReact
    dsimp only
    split
    · exact .refl g t
    · refine KeepsResting.trans (.foldl (fun u h => .foldl (fun w k => ?_) _ _) _ _) (depReact_keepsResting g n t _)
      split
      · exact haltStage_keepsResting g k w _
      · exact .refl g w

theorem withDeps_keepsResting (g : Fin 8) (s : State) (f : State → State) : KeepsResting g (f s) (withDeps s f) :=
  depReact_keepsResting g 8 s (f s)

theorem stopStageOf_keepsResting (g : Fin 8) (s : State) (o : Fin 2) : KeepsResting g s (stopStageOf s o) := by
  unfold stopStageOf
  split
  · exact (haltStage_keepsResting g _ s none).trans (withDeps_keepsResting g s (haltStage · _ none))
  · exact .refl g s

theorem outletFaultBare_keepsResting (g : Fin 8) (s : State) (o : Fin 2) (c : OutFault) :
    KeepsResting g s (outletFaultBare s o c) := by
  unfold outletFaultBare
  extract_lets x a b d e v w
  have ha : KeepsResting g s a := .of_keeps (keep_logDetect s _ _ _) (by decide)
  have hb : KeepsResting g s b := ha.trans (.of_keeps (keep_updOutlet a o _) (by decide))
  have hd : KeepsResting g s d := hb.trans (.of_keeps (keep_updOutlet b o _) (by decide))
  have he : KeepsResting g s e :=
    ((hd.trans (.of_keeps (keep_endLink d o) (by decide))).trans (.of_keeps (keep_enter _ o _) (by decide))).trans
      (.of_keeps (keep_abandonInventory _ o) (by decide))
  clear_value e
  have hv : KeepsResting g s v := by
    unfold v
    split
    · exact (he.trans (.updStage fun _ _ => ⟨rfl, rfl, rfl, rfl⟩)).trans (reshare_keepsResting g _ _)
    · exact he
  have hw : KeepsResting g s w := hv.trans (.of_keeps (keep_updLko v o _) (by decide))
  clear_value w b
  split
  · exact .refl g s
  · split
    · exact hw.trans (stopStageOf_keepsResting g w o)
    · exact hb

theorem notify_keepsResting (g : Fin 8) : ∀ (n : Nat) (s t : State), KeepsResting g t (notify n s t)
  | 0, _, t => .refl g t
  | n + 1, s, t => by
    have told : KeepsResting g t ((List.finRange 2).foldl (fun u o => match stageNews s t o with
        | some c => outletFaultBare u o c
        | none => u) t) := .foldl (fun u o => by
      split
      · exact outletFaultBare_keepsResting g u o _
      · exact .refl g u) _ _
    unfold notify
    dsimp only
    split
    · exact told
    · exact told.trans (notify_keepsResting g n t _)

theorem postSplit_keepsResting (g : Fin 8) (s : State) : KeepsResting g s (postSplit s) := by
  unfold postSplit
  extract_lets post sh t src u
  have hu : KeepsResting g s u := by
    have ht : t.sx.stage = s.sx.stage := rfl
    refine .of_eq ?_
    unfold u
    split <;> exact ht
  clear_value u
  refine hu.trans (.foldl (fun v o => ?_) _ _)
  split
  · exact followLimit_keepsResting g _ v
  · exact .refl g v

theorem resplit_keepsResting (g : Fin 8) (s t : State) : KeepsResting g t (resplit s t) := by
  unfold resplit
  extract_lets w u
  have hu : KeepsResting g t u := by
    refine .of_eq ?_
    unfold u
    split <;> rfl
  clear_value u
  split
  · exact hu
  · exact hu.trans (postSplit_keepsResting g u)

/-- What follows an action on the stages leaves the stages that then rest as they are. -/
theorem withStages_keepsResting (g : Fin 8) (s : State) (f : State → State) : KeepsResting g (f s) (withStages s f) :=
  ((withDeps_keepsResting g s f).trans (notify_keepsResting g 8 s _)).trans (resplit_keepsResting g s _)

/-- After `stageOff` the stage is OFF, with the FAIL it was given. -/
theorem stageOff_stage (s : State) (g : Fin 8) (fail : Option Nat) :
    (stageOff s g fail).sx.stage[g].st = .off ∧ (stageOff s g fail).sx.stage[g].limNow = 0
      ∧ (stageOff s g fail).sx.stage[g].parked = true := by
  unfold stageOff
  cases fail <;> simp only [updAux, updStage, upd_get] <;> exact ⟨rfl, rfl, rfl⟩

theorem stageLatched_latched (s : State) (g : Fin 8) (c : LatchCause) : (stageLatched s g c).sx.stage[g].st = .latched
    ∧ ((stageLatched s g c).sx.stage[g].latchMask).testBit (c.code - 1) = true := by
  have base : ∀ x : Stage, (noteLatch c x).latchMask.testBit (c.code - 1) = true := by
    intro x; simp [noteLatch, setBit, Nat.testBit_or, Nat.testBit_two_pow_self]
  have key : ∀ t : State, t.sx.stage = (updStage s g fun x => { noteLatch c x with
      st := .latched, parked := true, firing := false, limNow := 0, limAt := s.mono, vGoal := none }).sx.stage →
      t.sx.stage[g].st = .latched ∧ (t.sx.stage[g].latchMask).testBit (c.code - 1) = true := by
    intro t e
    rw [e]; simp only [updStage, upd_get]; exact ⟨rfl, base _⟩
  unfold stageLatched
  extract_lets was t u
  have hu : u.sx.stage = t.sx.stage := (keep_parkChannels t g _).same .sxStage (by decide)
  split
  · exact key _ rfl
  · refine key _ (((keep_afeDrop _ g).same .sxStage (by decide)).trans (Eq.trans ?_ hu))
    split
    · rfl
    · exact (keep_detectFab u _ _ _).same .sxStage (by decide)

/-- A latch that acts leaves the stage LATCHED with the cause recorded, whatever follows (R116, R136). -/
theorem latchAndTell_latched (s : State) (g : Fin 8) (c : LatchCause)
    (h : s.sx.stage[g].st ≠ .off ∨ c = .flt ∨ c = .readback) :
    (latchAndTell s g c).sx.stage[g].st = .latched
      ∧ ((latchAndTell s g c).sx.stage[g].latchMask).testBit (c.code - 1) = true := by
  have e : latchStage s g c = stageLatched s g c := by
    unfold latchStage
    rw [if_neg]
    rintro ⟨a, b, d⟩
    rcases h with h | h | h <;> contradiction
  have k := stageLatched_latched s g c
  rw [← e] at k
  obtain ⟨a, -, -, d⟩ := withStages_keepsResting g s (latchStage · g c) (.inr (.inl k.1))
  exact ⟨a.trans k.1, by unfold latchAndTell; rw [d]; exact k.2⟩

end Sys2Proof.Machine
end

