-- ==== Sys2Proof/Laws/State.lean ====
section
/-!
SUPPORT. What every update of one member of a family leaves as it was, a field at a time, and what it makes of the member.
Each is true by definition, so that no later proof unfolds an update.
-/
namespace Sys2Proof.Machine

@[simp] theorem updStage_variant (s : State) (i : Fin 8) (f : Stage → Stage) :
    (updStage s i f).variant = s.variant := rfl
@[simp] theorem updStage_mono (s : State) (i : Fin 8) (f : Stage → Stage) :
    (updStage s i f).mono = s.mono := rfl
@[simp] theorem updStage_free (s : State) (i : Fin 8) (f : Stage → Stage) :
    (updStage s i f).free = s.free := rfl
@[simp] theorem updStage_landfall (s : State) (i : Fin 8) (f : Stage → Stage) :
    (updStage s i f).landfall = s.landfall := rfl
@[simp] theorem updStage_chart (s : State) (i : Fin 8) (f : Stage → Stage) :
    (updStage s i f).chart = s.chart := rfl
@[simp] theorem updStage_cfg (s : State) (i : Fin 8) (f : Stage → Stage) :
    (updStage s i f).cfg = s.cfg := rfl
@[simp] theorem updStage_flash (s : State) (i : Fin 8) (f : Stage → Stage) :
    (updStage s i f).flash = s.flash := rfl
@[simp] theorem updStage_outlet (s : State) (i : Fin 8) (f : Stage → Stage) :
    (updStage s i f).outlet = s.outlet := rfl
@[simp] theorem updStage_cooling (s : State) (i : Fin 8) (f : Stage → Stage) :
    (updStage s i f).cooling = s.cooling := rfl
@[simp] theorem updStage_drive (s : State) (i : Fin 8) (f : Stage → Stage) :
    (updStage s i f).drive = s.drive := rfl
@[simp] theorem updStage_rdr (s : State) (i : Fin 8) (f : Stage → Stage) :
    (updStage s i f).rdr = s.rdr := rfl
@[simp] theorem updStage_mer (s : State) (i : Fin 8) (f : Stage → Stage) :
    (updStage s i f).mer = s.mer := rfl
@[simp] theorem updStage_com (s : State) (i : Fin 8) (f : Stage → Stage) :
    (updStage s i f).com = s.com := rfl
@[simp] theorem updStage_disp (s : State) (i : Fin 8) (f : Stage → Stage) :
    (updStage s i f).disp = s.disp := rfl
@[simp] theorem updStage_lk (s : State) (i : Fin 8) (f : Stage → Stage) :
    (updStage s i f).lk = s.lk := rfl
@[simp] theorem updStage_txl (s : State) (i : Fin 8) (f : Stage → Stage) :
    (updStage s i f).txl = s.txl := rfl
@[simp] theorem updStage_safe (s : State) (i : Fin 8) (f : Stage → Stage) :
    (updStage s i f).safe = s.safe := rfl
@[simp] theorem updStage_ll (s : State) (i : Fin 8) (f : Stage → Stage) :
    (updStage s i f).ll = s.ll := rfl
@[simp] theorem updStage_mgr (s : State) (i : Fin 8) (f : Stage → Stage) :
    (updStage s i f).mgr = s.mgr := rfl
@[simp] theorem updStage_wrk (s : State) (i : Fin 8) (f : Stage → Stage) :
    (updStage s i f).wrk = s.wrk := rfl
@[simp] theorem updStage_host (s : State) (i : Fin 8) (f : Stage → Stage) :
    (updStage s i f).host = s.host := rfl
@[simp] theorem updStage_locker (s : State) (i : Fin 8) (f : Stage → Stage) :
    (updStage s i f).locker = s.locker := rfl
@[simp] theorem updStage_fw (s : State) (i : Fin 8) (f : Stage → Stage) :
    (updStage s i f).fw = s.fw := rfl
@[simp] theorem updStage_tamper (s : State) (i : Fin 8) (f : Stage → Stage) :
    (updStage s i f).tamper = s.tamper := rfl
@[simp] theorem updStage_log (s : State) (i : Fin 8) (f : Stage → Stage) :
    (updStage s i f).log = s.log := rfl
@[simp] theorem updStage_flt (s : State) (i : Fin 8) (f : Stage → Stage) :
    (updStage s i f).flt = s.flt := rfl
@[simp] theorem updStage_pwr (s : State) (i : Fin 8) (f : Stage → Stage) :
    (updStage s i f).pwr = s.pwr := rfl
@[simp] theorem updStage_merStage (s : State) (i : Fin 8) (f : Stage → Stage) :
    (updStage s i f).merStage = s.merStage := rfl
@[simp] theorem updStage_pending (s : State) (i : Fin 8) (f : Stage → Stage) :
    (updStage s i f).pending = s.pending := rfl
@[simp] theorem updStage_sx_channel (s : State) (i : Fin 8) (f : Stage → Stage) :
    (updStage s i f).sx.channel = s.sx.channel := rfl
@[simp] theorem updStage_sx_cell (s : State) (i : Fin 8) (f : Stage → Stage) :
    (updStage s i f).sx.cell = s.sx.cell := rfl
@[simp] theorem updStage_sx_aux (s : State) (i : Fin 8) (f : Stage → Stage) :
    (updStage s i f).sx.aux = s.sx.aux := rfl
@[simp] theorem updStage_sx_sd (s : State) (i : Fin 8) (f : Stage → Stage) :
    (updStage s i f).sx.sd = s.sx.sd := rfl
@[simp] theorem updStage_sx_law (s : State) (i : Fin 8) (f : Stage → Stage) :
    (updStage s i f).sx.law = s.sx.law := rfl
@[simp] theorem updStage_sx_cool (s : State) (i : Fin 8) (f : Stage → Stage) :
    (updStage s i f).sx.cool = s.sx.cool := rfl
@[simp] theorem updStage_sx_uscFired (s : State) (i : Fin 8) (f : Stage → Stage) :
    (updStage s i f).sx.uscFired = s.sx.uscFired := rfl
@[simp] theorem updStage_sx_uscLevel (s : State) (i : Fin 8) (f : Stage → Stage) :
    (updStage s i f).sx.uscLevel = s.sx.uscLevel := rfl
@[simp] theorem updStage_sx_ppsStamp (s : State) (i : Fin 8) (f : Stage → Stage) :
    (updStage s i f).sx.ppsStamp = s.sx.ppsStamp := rfl
@[simp] theorem updStage_sx_ppsNs (s : State) (i : Fin 8) (f : Stage → Stage) :
    (updStage s i f).sx.ppsNs = s.sx.ppsNs := rfl
@[simp] theorem updStage_sx_count (s : State) (i : Fin 8) (f : Stage → Stage) :
    (updStage s i f).sx.count = s.sx.count := rfl
@[simp] theorem updStage_sx_countAt (s : State) (i : Fin 8) (f : Stage → Stage) :
    (updStage s i f).sx.countAt = s.sx.countAt := rfl
@[simp] theorem updStage_sx_syncPeriod (s : State) (i : Fin 8) (f : Stage → Stage) :
    (updStage s i f).sx.syncPeriod = s.sx.syncPeriod := rfl
@[simp] theorem updStage_sx_syncAt (s : State) (i : Fin 8) (f : Stage → Stage) :
    (updStage s i f).sx.syncAt = s.sx.syncAt := rfl
@[simp] theorem updStage_sx_syncOut (s : State) (i : Fin 8) (f : Stage → Stage) :
    (updStage s i f).sx.syncOut = s.sx.syncOut := rfl
@[simp] theorem updStage_sx_laneFree (s : State) (i : Fin 8) (f : Stage → Stage) :
    (updStage s i f).sx.laneFree = s.sx.laneFree := rfl
@[simp] theorem updStage_sx_laneBusy (s : State) (i : Fin 8) (f : Stage → Stage) :
    (updStage s i f).sx.laneBusy = s.sx.laneBusy := rfl
@[simp] theorem updStage_sx_loadChart (s : State) (i : Fin 8) (f : Stage → Stage) :
    (updStage s i f).sx.loadChart = s.sx.loadChart := rfl
@[simp] theorem updStage_sx_loadMeas (s : State) (i : Fin 8) (f : Stage → Stage) :
    (updStage s i f).sx.loadMeas = s.sx.loadMeas := rfl
@[simp] theorem updStage_sx_fixLast (s : State) (i : Fin 8) (f : Stage → Stage) :
    (updStage s i f).sx.fixLast = s.sx.fixLast := rfl
@[simp] theorem updStage_sx_fixTime (s : State) (i : Fin 8) (f : Stage → Stage) :
    (updStage s i f).sx.fixTime = s.sx.fixTime := rfl
@[simp] theorem updStage_sx_up (s : State) (i : Fin 8) (f : Stage → Stage) :
    (updStage s i f).sx.up = s.sx.up := rfl
@[simp] theorem updStage_sx_beating (s : State) (i : Fin 8) (f : Stage → Stage) :
    (updStage s i f).sx.beating = s.sx.beating := rfl
@[simp] theorem updStage_sx_helmLost (s : State) (i : Fin 8) (f : Stage → Stage) :
    (updStage s i f).sx.helmLost = s.sx.helmLost := rfl
@[simp] theorem updStage_sx_shareAt (s : State) (i : Fin 8) (f : Stage → Stage) :
    (updStage s i f).sx.shareAt = s.sx.shareAt := rfl
@[simp] theorem updStage_sx_stage (s : State) (i : Fin 8) (f : Stage → Stage) :
    (updStage s i f).sx.stage = upd s.sx.stage i f := rfl

@[simp] theorem updAux_variant (s : State) (i : Fin 8) (f : StageAux → StageAux) :
    (updAux s i f).variant = s.variant := rfl
@[simp] theorem updAux_mono (s : State) (i : Fin 8) (f : StageAux → StageAux) :
    (updAux s i f).mono = s.mono := rfl
@[simp] theorem updAux_free (s : State) (i : Fin 8) (f : StageAux → StageAux) :
    (updAux s i f).free = s.free := rfl
@[simp] theorem updAux_landfall (s : State) (i : Fin 8) (f : StageAux → StageAux) :
    (updAux s i f).landfall = s.landfall := rfl
@[simp] theorem updAux_chart (s : State) (i : Fin 8) (f : StageAux → StageAux) :
    (updAux s i f).chart = s.chart := rfl
@[simp] theorem updAux_cfg (s : State) (i : Fin 8) (f : StageAux → StageAux) :
    (updAux s i f).cfg = s.cfg := rfl
@[simp] theorem updAux_flash (s : State) (i : Fin 8) (f : StageAux → StageAux) :
    (updAux s i f).flash = s.flash := rfl
@[simp] theorem updAux_outlet (s : State) (i : Fin 8) (f : StageAux → StageAux) :
    (updAux s i f).outlet = s.outlet := rfl
@[simp] theorem updAux_cooling (s : State) (i : Fin 8) (f : StageAux → StageAux) :
    (updAux s i f).cooling = s.cooling := rfl
@[simp] theorem updAux_drive (s : State) (i : Fin 8) (f : StageAux → StageAux) :
    (updAux s i f).drive = s.drive := rfl
@[simp] theorem updAux_rdr (s : State) (i : Fin 8) (f : StageAux → StageAux) :
    (updAux s i f).rdr = s.rdr := rfl
@[simp] theorem updAux_mer (s : State) (i : Fin 8) (f : StageAux → StageAux) :
    (updAux s i f).mer = s.mer := rfl
@[simp] theorem updAux_com (s : State) (i : Fin 8) (f : StageAux → StageAux) :
    (updAux s i f).com = s.com := rfl
@[simp] theorem updAux_disp (s : State) (i : Fin 8) (f : StageAux → StageAux) :
    (updAux s i f).disp = s.disp := rfl
@[simp] theorem updAux_lk (s : State) (i : Fin 8) (f : StageAux → StageAux) :
    (updAux s i f).lk = s.lk := rfl
@[simp] theorem updAux_txl (s : State) (i : Fin 8) (f : StageAux → StageAux) :
    (updAux s i f).txl = s.txl := rfl
@[simp] theorem updAux_safe (s : State) (i : Fin 8) (f : StageAux → StageAux) :
    (updAux s i f).safe = s.safe := rfl
@[simp] theorem updAux_ll (s : State) (i : Fin 8) (f : StageAux → StageAux) :
    (updAux s i f).ll = s.ll := rfl
@[simp] theorem updAux_mgr (s : State) (i : Fin 8) (f : StageAux → StageAux) :
    (updAux s i f).mgr = s.mgr := rfl
@[simp] theorem updAux_wrk (s : State) (i : Fin 8) (f : StageAux → StageAux) :
    (updAux s i f).wrk = s.wrk := rfl
@[simp] theorem updAux_host (s : State) (i : Fin 8) (f : StageAux → StageAux) :
    (updAux s i f).host = s.host := rfl
@[simp] theorem updAux_locker (s : State) (i : Fin 8) (f : StageAux → StageAux) :
    (updAux s i f).locker = s.locker := rfl
@[simp] theorem updAux_fw (s : State) (i : Fin 8) (f : StageAux → StageAux) :
    (updAux s i f).fw = s.fw := rfl
@[simp] theorem updAux_tamper (s : State) (i : Fin 8) (f : StageAux → StageAux) :
    (updAux s i f).tamper = s.tamper := rfl
@[simp] theorem updAux_log (s : State) (i : Fin 8) (f : StageAux → StageAux) :
    (updAux s i f).log = s.log := rfl
@[simp] theorem updAux_flt (s : State) (i : Fin 8) (f : StageAux → StageAux) :
    (updAux s i f).flt = s.flt := rfl
@[simp] theorem updAux_pwr (s : State) (i : Fin 8) (f : StageAux → StageAux) :
    (updAux s i f).pwr = s.pwr := rfl
@[simp] theorem updAux_merStage (s : State) (i : Fin 8) (f : StageAux → StageAux) :
    (updAux s i f).merStage = s.merStage := rfl
@[simp] theorem updAux_pending (s : State) (i : Fin 8) (f : StageAux → StageAux) :
    (updAux s i f).pending = s.pending := rfl
@[simp] theorem updAux_sx_channel (s : State) (i : Fin 8) (f : StageAux → StageAux) :
    (updAux s i f).sx.channel = s.sx.channel := rfl
@[simp] theorem updAux_sx_cell (s : State) (i : Fin 8) (f : StageAux → StageAux) :
    (updAux s i f).sx.cell = s.sx.cell := rfl
@[simp] theorem updAux_sx_stage (s : State) (i : Fin 8) (f : StageAux → StageAux) :
    (updAux s i f).sx.stage = s.sx.stage := rfl
@[simp] theorem updAux_sx_sd (s : State) (i : Fin 8) (f : StageAux → StageAux) :
    (updAux s i f).sx.sd = s.sx.sd := rfl
@[simp] theorem updAux_sx_law (s : State) (i : Fin 8) (f : StageAux → StageAux) :
    (updAux s i f).sx.law = s.sx.law := rfl
@[simp] theorem updAux_sx_cool (s : State) (i : Fin 8) (f : StageAux → StageAux) :
    (updAux s i f).sx.cool = s.sx.cool := rfl
@[simp] theorem updAux_sx_uscFired (s : State) (i : Fin 8) (f : StageAux → StageAux) :
    (updAux s i f).sx.uscFired = s.sx.uscFired := rfl
@[simp] theorem updAux_sx_uscLevel (s : State) (i : Fin 8) (f : StageAux → StageAux) :
    (updAux s i f).sx.uscLevel = s.sx.uscLevel := rfl
@[simp] theorem updAux_sx_ppsStamp (s : State) (i : Fin 8) (f : StageAux → StageAux) :
    (updAux s i f).sx.ppsStamp = s.sx.ppsStamp := rfl
@[simp] theorem updAux_sx_ppsNs (s : State) (i : Fin 8) (f : StageAux → StageAux) :
    (updAux s i f).sx.ppsNs = s.sx.ppsNs := rfl
@[simp] theorem updAux_sx_count (s : State) (i : Fin 8) (f : StageAux → StageAux) :
    (updAux s i f).sx.count = s.sx.count := rfl
@[simp] theorem updAux_sx_countAt (s : State) (i : Fin 8) (f : StageAux → StageAux) :
    (updAux s i f).sx.countAt = s.sx.countAt := rfl
@[simp] theorem updAux_sx_syncPeriod (s : State) (i : Fin 8) (f : StageAux → StageAux) :
    (updAux s i f).sx.syncPeriod = s.sx.syncPeriod := rfl
@[simp] theorem updAux_sx_syncAt (s : State) (i : Fin 8) (f : StageAux → StageAux) :
    (updAux s i f).sx.syncAt = s.sx.syncAt := rfl
@[simp] theorem updAux_sx_syncOut (s : State) (i : Fin 8) (f : StageAux → StageAux) :
    (updAux s i f).sx.syncOut = s.sx.syncOut := rfl
@[simp] theorem updAux_sx_laneFree (s : State) (i : Fin 8) (f : StageAux → StageAux) :
    (updAux s i f).sx.laneFree = s.sx.laneFree := rfl
@[simp] theorem updAux_sx_laneBusy (s : State) (i : Fin 8) (f : StageAux → StageAux) :
    (updAux s i f).sx.laneBusy = s.sx.laneBusy := rfl
@[simp] theorem updAux_sx_loadChart (s : State) (i : Fin 8) (f : StageAux → StageAux) :
    (updAux s i f).sx.loadChart = s.sx.loadChart := rfl
@[simp] theorem updAux_sx_loadMeas (s : State) (i : Fin 8) (f : StageAux → StageAux) :
    (updAux s i f).sx.loadMeas = s.sx.loadMeas := rfl
@[simp] theorem updAux_sx_fixLast (s : State) (i : Fin 8) (f : StageAux → StageAux) :
    (updAux s i f).sx.fixLast = s.sx.fixLast := rfl
@[simp] theorem updAux_sx_fixTime (s : State) (i : Fin 8) (f : StageAux → StageAux) :
    (updAux s i f).sx.fixTime = s.sx.fixTime := rfl
@[simp] theorem updAux_sx_up (s : State) (i : Fin 8) (f : StageAux → StageAux) :
    (updAux s i f).sx.up = s.sx.up := rfl
@[simp] theorem updAux_sx_beating (s : State) (i : Fin 8) (f : StageAux → StageAux) :
    (updAux s i f).sx.beating = s.sx.beating := rfl
@[simp] theorem updAux_sx_helmLost (s : State) (i : Fin 8) (f : StageAux → StageAux) :
    (updAux s i f).sx.helmLost = s.sx.helmLost := rfl
@[simp] theorem updAux_sx_shareAt (s : State) (i : Fin 8) (f : StageAux → StageAux) :
    (updAux s i f).sx.shareAt = s.sx.shareAt := rfl
@[simp] theorem updAux_sx_aux (s : State) (i : Fin 8) (f : StageAux → StageAux) :
    (updAux s i f).sx.aux = upd s.sx.aux i f := rfl

@[simp] theorem updCell_variant (s : State) (i : Fin 48) (f : Cell → Cell) :
    (updCell s i f).variant = s.variant := rfl
@[simp] theorem updCell_mono (s : State) (i : Fin 48) (f : Cell → Cell) :
    (updCell s i f).mono = s.mono := rfl
@[simp] theorem updCell_free (s : State) (i : Fin 48) (f : Cell → Cell) :
    (updCell s i f).free = s.free := rfl
@[simp] theorem updCell_landfall (s : State) (i : Fin 48) (f : Cell → Cell) :
    (updCell s i f).landfall = s.landfall := rfl
@[simp] theorem updCell_chart (s : State) (i : Fin 48) (f : Cell → Cell) :
    (updCell s i f).chart = s.chart := rfl
@[simp] theorem updCell_cfg (s : State) (i : Fin 48) (f : Cell → Cell) :
    (updCell s i f).cfg = s.cfg := rfl
@[simp] theorem updCell_flash (s : State) (i : Fin 48) (f : Cell → Cell) :
    (updCell s i f).flash = s.flash := rfl
@[simp] theorem updCell_outlet (s : State) (i : Fin 48) (f : Cell → Cell) :
    (updCell s i f).outlet = s.outlet := rfl
@[simp] theorem updCell_cooling (s : State) (i : Fin 48) (f : Cell → Cell) :
    (updCell s i f).cooling = s.cooling := rfl
@[simp] theorem updCell_drive (s : State) (i : Fin 48) (f : Cell → Cell) :
    (updCell s i f).drive = s.drive := rfl
@[simp] theorem updCell_rdr (s : State) (i : Fin 48) (f : Cell → Cell) :
    (updCell s i f).rdr = s.rdr := rfl
@[simp] theorem updCell_mer (s : State) (i : Fin 48) (f : Cell → Cell) :
    (updCell s i f).mer = s.mer := rfl
@[simp] theorem updCell_com (s : State) (i : Fin 48) (f : Cell → Cell) :
    (updCell s i f).com = s.com := rfl
@[simp] theorem updCell_disp (s : State) (i : Fin 48) (f : Cell → Cell) :
    (updCell s i f).disp = s.disp := rfl
@[simp] theorem updCell_lk (s : State) (i : Fin 48) (f : Cell → Cell) :
    (updCell s i f).lk = s.lk := rfl
@[simp] theorem updCell_txl (s : State) (i : Fin 48) (f : Cell → Cell) :
    (updCell s i f).txl = s.txl := rfl
@[simp] theorem updCell_safe (s : State) (i : Fin 48) (f : Cell → Cell) :
    (updCell s i f).safe = s.safe := rfl
@[simp] theorem updCell_ll (s : State) (i : Fin 48) (f : Cell → Cell) :
    (updCell s i f).ll = s.ll := rfl
@[simp] theorem updCell_mgr (s : State) (i : Fin 48) (f : Cell → Cell) :
    (updCell s i f).mgr = s.mgr := rfl
@[simp] theorem updCell_wrk (s : State) (i : Fin 48) (f : Cell → Cell) :
    (updCell s i f).wrk = s.wrk := rfl
@[simp] theorem updCell_host (s : State) (i : Fin 48) (f : Cell → Cell) :
    (updCell s i f).host = s.host := rfl
@[simp] theorem updCell_locker (s : State) (i : Fin 48) (f : Cell → Cell) :
    (updCell s i f).locker = s.locker := rfl
@[simp] theorem updCell_fw (s : State) (i : Fin 48) (f : Cell → Cell) :
    (updCell s i f).fw = s.fw := rfl
@[simp] theorem updCell_tamper (s : State) (i : Fin 48) (f : Cell → Cell) :
    (updCell s i f).tamper = s.tamper := rfl
@[simp] theorem updCell_log (s : State) (i : Fin 48) (f : Cell → Cell) :
    (updCell s i f).log = s.log := rfl
@[simp] theorem updCell_flt (s : State) (i : Fin 48) (f : Cell → Cell) :
    (updCell s i f).flt = s.flt := rfl
@[simp] theorem updCell_pwr (s : State) (i : Fin 48) (f : Cell → Cell) :
    (updCell s i f).pwr = s.pwr := rfl
@[simp] theorem updCell_merStage (s : State) (i : Fin 48) (f : Cell → Cell) :
    (updCell s i f).merStage = s.merStage := rfl
@[simp] theorem updCell_pending (s : State) (i : Fin 48) (f : Cell → Cell) :
    (updCell s i f).pending = s.pending := rfl
@[simp] theorem updCell_sx_channel (s : State) (i : Fin 48) (f : Cell → Cell) :
    (updCell s i f).sx.channel = s.sx.channel := rfl
@[simp] theorem updCell_sx_stage (s : State) (i : Fin 48) (f : Cell → Cell) :
    (updCell s i f).sx.stage = s.sx.stage := rfl
@[simp] theorem updCell_sx_aux (s : State) (i : Fin 48) (f : Cell → Cell) :
    (updCell s i f).sx.aux = s.sx.aux := rfl
@[simp] theorem updCell_sx_sd (s : State) (i : Fin 48) (f : Cell → Cell) :
    (updCell s i f).sx.sd = s.sx.sd := rfl
@[simp] theorem updCell_sx_law (s : State) (i : Fin 48) (f : Cell → Cell) :
    (updCell s i f).sx.law = s.sx.law := rfl
@[simp] theorem updCell_sx_cool (s : State) (i : Fin 48) (f : Cell → Cell) :
    (updCell s i f).sx.cool = s.sx.cool := rfl
@[simp] theorem updCell_sx_uscFired (s : State) (i : Fin 48) (f : Cell → Cell) :
    (updCell s i f).sx.uscFired = s.sx.uscFired := rfl
@[simp] theorem updCell_sx_uscLevel (s : State) (i : Fin 48) (f : Cell → Cell) :
    (updCell s i f).sx.uscLevel = s.sx.uscLevel := rfl
@[simp] theorem updCell_sx_ppsStamp (s : State) (i : Fin 48) (f : Cell → Cell) :
    (updCell s i f).sx.ppsStamp = s.sx.ppsStamp := rfl
@[simp] theorem updCell_sx_ppsNs (s : State) (i : Fin 48) (f : Cell → Cell) :
    (updCell s i f).sx.ppsNs = s.sx.ppsNs := rfl
@[simp] theorem updCell_sx_count (s : State) (i : Fin 48) (f : Cell → Cell) :
    (updCell s i f).sx.count = s.sx.count := rfl
@[simp] theorem updCell_sx_countAt (s : State) (i : Fin 48) (f : Cell → Cell) :
    (updCell s i f).sx.countAt = s.sx.countAt := rfl
@[simp] theorem updCell_sx_syncPeriod (s : State) (i : Fin 48) (f : Cell → Cell) :
    (updCell s i f).sx.syncPeriod = s.sx.syncPeriod := rfl
@[simp] theorem updCell_sx_syncAt (s : State) (i : Fin 48) (f : Cell → Cell) :
    (updCell s i f).sx.syncAt = s.sx.syncAt := rfl
@[simp] theorem updCell_sx_syncOut (s : State) (i : Fin 48) (f : Cell → Cell) :
    (updCell s i f).sx.syncOut = s.sx.syncOut := rfl
@[simp] theorem updCell_sx_laneFree (s : State) (i : Fin 48) (f : Cell → Cell) :
    (updCell s i f).sx.laneFree = s.sx.laneFree := rfl
@[simp] theorem updCell_sx_laneBusy (s : State) (i : Fin 48) (f : Cell → Cell) :
    (updCell s i f).sx.laneBusy = s.sx.laneBusy := rfl
@[simp] theorem updCell_sx_loadChart (s : State) (i : Fin 48) (f : Cell → Cell) :
    (updCell s i f).sx.loadChart = s.sx.loadChart := rfl
@[simp] theorem updCell_sx_loadMeas (s : State) (i : Fin 48) (f : Cell → Cell) :
    (updCell s i f).sx.loadMeas = s.sx.loadMeas := rfl
@[simp] theorem updCell_sx_fixLast (s : State) (i : Fin 48) (f : Cell → Cell) :
    (updCell s i f).sx.fixLast = s.sx.fixLast := rfl
@[simp] theorem updCell_sx_fixTime (s : State) (i : Fin 48) (f : Cell → Cell) :
    (updCell s i f).sx.fixTime = s.sx.fixTime := rfl
@[simp] theorem updCell_sx_up (s : State) (i : Fin 48) (f : Cell → Cell) :
    (updCell s i f).sx.up = s.sx.up := rfl
@[simp] theorem updCell_sx_beating (s : State) (i : Fin 48) (f : Cell → Cell) :
    (updCell s i f).sx.beating = s.sx.beating := rfl
@[simp] theorem updCell_sx_helmLost (s : State) (i : Fin 48) (f : Cell → Cell) :
    (updCell s i f).sx.helmLost = s.sx.helmLost := rfl
@[simp] theorem updCell_sx_shareAt (s : State) (i : Fin 48) (f : Cell → Cell) :
    (updCell s i f).sx.shareAt = s.sx.shareAt := rfl
@[simp] theorem updCell_sx_cell (s : State) (i : Fin 48) (f : Cell → Cell) :
    (updCell s i f).sx.cell = upd s.sx.cell i f := rfl

@[simp] theorem updChannel_variant (s : State) (i : Fin 48) (f : Channel → Channel) :
    (updChannel s i f).variant = s.variant := rfl
@[simp] theorem updChannel_mono (s : State) (i : Fin 48) (f : Channel → Channel) :
    (updChannel s i f).mono = s.mono := rfl
@[simp] theorem updChannel_free (s : State) (i : Fin 48) (f : Channel → Channel) :
    (updChannel s i f).free = s.free := rfl
@[simp] theorem updChannel_landfall (s : State) (i : Fin 48) (f : Channel → Channel) :
    (updChannel s i f).landfall = s.landfall := rfl
@[simp] theorem updChannel_chart (s : State) (i : Fin 48) (f : Channel → Channel) :
    (updChannel s i f).chart = s.chart := rfl
@[simp] theorem updChannel_cfg (s : State) (i : Fin 48) (f : Channel → Channel) :
    (updChannel s i f).cfg = s.cfg := rfl
@[simp] theorem updChannel_flash (s : State) (i : Fin 48) (f : Channel → Channel) :
    (updChannel s i f).flash = s.flash := rfl
@[simp] theorem updChannel_outlet (s : State) (i : Fin 48) (f : Channel → Channel) :
    (updChannel s i f).outlet = s.outlet := rfl
@[simp] theorem updChannel_cooling (s : State) (i : Fin 48) (f : Channel → Channel) :
    (updChannel s i f).cooling = s.cooling := rfl
@[simp] theorem updChannel_drive (s : State) (i : Fin 48) (f : Channel → Channel) :
    (updChannel s i f).drive = s.drive := rfl
@[simp] theorem updChannel_rdr (s : State) (i : Fin 48) (f : Channel → Channel) :
    (updChannel s i f).rdr = s.rdr := rfl
@[simp] theorem updChannel_mer (s : State) (i : Fin 48) (f : Channel → Channel) :
    (updChannel s i f).mer = s.mer := rfl
@[simp] theorem updChannel_com (s : State) (i : Fin 48) (f : Channel → Channel) :
    (updChannel s i f).com = s.com := rfl
@[simp] theorem updChannel_disp (s : State) (i : Fin 48) (f : Channel → Channel) :
    (updChannel s i f).disp = s.disp := rfl
@[simp] theorem updChannel_lk (s : State) (i : Fin 48) (f : Channel → Channel) :
    (updChannel s i f).lk = s.lk := rfl
@[simp] theorem updChannel_txl (s : State) (i : Fin 48) (f : Channel → Channel) :
    (updChannel s i f).txl = s.txl := rfl
@[simp] theorem updChannel_safe (s : State) (i : Fin 48) (f : Channel → Channel) :
    (updChannel s i f).safe = s.safe := rfl
@[simp] theorem updChannel_ll (s : State) (i : Fin 48) (f : Channel → Channel) :
    (updChannel s i f).ll = s.ll := rfl
@[simp] theorem updChannel_mgr (s : State) (i : Fin 48) (f : Channel → Channel) :
    (updChannel s i f).mgr = s.mgr := rfl
@[simp] theorem updChannel_wrk (s : State) (i : Fin 48) (f : Channel → Channel) :
    (updChannel s i f).wrk = s.wrk := rfl
@[simp] theorem updChannel_host (s : State) (i : Fin 48) (f : Channel → Channel) :
    (updChannel s i f).host = s.host := rfl
@[simp] theorem updChannel_locker (s : State) (i : Fin 48) (f : Channel → Channel) :
    (updChannel s i f).locker = s.locker := rfl
@[simp] theorem updChannel_fw (s : State) (i : Fin 48) (f : Channel → Channel) :
    (updChannel s i f).fw = s.fw := rfl
@[simp] theorem updChannel_tamper (s : State) (i : Fin 48) (f : Channel → Channel) :
    (updChannel s i f).tamper = s.tamper := rfl
@[simp] theorem updChannel_log (s : State) (i : Fin 48) (f : Channel → Channel) :
    (updChannel s i f).log = s.log := rfl
@[simp] theorem updChannel_flt (s : State) (i : Fin 48) (f : Channel → Channel) :
    (updChannel s i f).flt = s.flt := rfl
@[simp] theorem updChannel_pwr (s : State) (i : Fin 48) (f : Channel → Channel) :
    (updChannel s i f).pwr = s.pwr := rfl
@[simp] theorem updChannel_merStage (s : State) (i : Fin 48) (f : Channel → Channel) :
    (updChannel s i f).merStage = s.merStage := rfl
@[simp] theorem updChannel_pending (s : State) (i : Fin 48) (f : Channel → Channel) :
    (updChannel s i f).pending = s.pending := rfl
@[simp] theorem updChannel_sx_cell (s : State) (i : Fin 48) (f : Channel → Channel) :
    (updChannel s i f).sx.cell = s.sx.cell := rfl
@[simp] theorem updChannel_sx_stage (s : State) (i : Fin 48) (f : Channel → Channel) :
    (updChannel s i f).sx.stage = s.sx.stage := rfl
@[simp] theorem updChannel_sx_aux (s : State) (i : Fin 48) (f : Channel → Channel) :
    (updChannel s i f).sx.aux = s.sx.aux := rfl
@[simp] theorem updChannel_sx_sd (s : State) (i : Fin 48) (f : Channel → Channel) :
    (updChannel s i f).sx.sd = s.sx.sd := rfl
@[simp] theorem updChannel_sx_law (s : State) (i : Fin 48) (f : Channel → Channel) :
    (updChannel s i f).sx.law = s.sx.law := rfl
@[simp] theorem updChannel_sx_cool (s : State) (i : Fin 48) (f : Channel → Channel) :
    (updChannel s i f).sx.cool = s.sx.cool := rfl
@[simp] theorem updChannel_sx_uscFired (s : State) (i : Fin 48) (f : Channel → Channel) :
    (updChannel s i f).sx.uscFired = s.sx.uscFired := rfl
@[simp] theorem updChannel_sx_uscLevel (s : State) (i : Fin 48) (f : Channel → Channel) :
    (updChannel s i f).sx.uscLevel = s.sx.uscLevel := rfl
@[simp] theorem updChannel_sx_ppsStamp (s : State) (i : Fin 48) (f : Channel → Channel) :
    (updChannel s i f).sx.ppsStamp = s.sx.ppsStamp := rfl
@[simp] theorem updChannel_sx_ppsNs (s : State) (i : Fin 48) (f : Channel → Channel) :
    (updChannel s i f).sx.ppsNs = s.sx.ppsNs := rfl
@[simp] theorem updChannel_sx_count (s : State) (i : Fin 48) (f : Channel → Channel) :
    (updChannel s i f).sx.count = s.sx.count := rfl
@[simp] theorem updChannel_sx_countAt (s : State) (i : Fin 48) (f : Channel → Channel) :
    (updChannel s i f).sx.countAt = s.sx.countAt := rfl
@[simp] theorem updChannel_sx_syncPeriod (s : State) (i : Fin 48) (f : Channel → Channel) :
    (updChannel s i f).sx.syncPeriod = s.sx.syncPeriod := rfl
@[simp] theorem updChannel_sx_syncAt (s : State) (i : Fin 48) (f : Channel → Channel) :
    (updChannel s i f).sx.syncAt = s.sx.syncAt := rfl
@[simp] theorem updChannel_sx_syncOut (s : State) (i : Fin 48) (f : Channel → Channel) :
    (updChannel s i f).sx.syncOut = s.sx.syncOut := rfl
@[simp] theorem updChannel_sx_laneFree (s : State) (i : Fin 48) (f : Channel → Channel) :
    (updChannel s i f).sx.laneFree = s.sx.laneFree := rfl
@[simp] theorem updChannel_sx_laneBusy (s : State) (i : Fin 48) (f : Channel → Channel) :
    (updChannel s i f).sx.laneBusy = s.sx.laneBusy := rfl
@[simp] theorem updChannel_sx_loadChart (s : State) (i : Fin 48) (f : Channel → Channel) :
    (updChannel s i f).sx.loadChart = s.sx.loadChart := rfl
@[simp] theorem updChannel_sx_loadMeas (s : State) (i : Fin 48) (f : Channel → Channel) :
    (updChannel s i f).sx.loadMeas = s.sx.loadMeas := rfl
@[simp] theorem updChannel_sx_fixLast (s : State) (i : Fin 48) (f : Channel → Channel) :
    (updChannel s i f).sx.fixLast = s.sx.fixLast := rfl
@[simp] theorem updChannel_sx_fixTime (s : State) (i : Fin 48) (f : Channel → Channel) :
    (updChannel s i f).sx.fixTime = s.sx.fixTime := rfl
@[simp] theorem updChannel_sx_up (s : State) (i : Fin 48) (f : Channel → Channel) :
    (updChannel s i f).sx.up = s.sx.up := rfl
@[simp] theorem updChannel_sx_beating (s : State) (i : Fin 48) (f : Channel → Channel) :
    (updChannel s i f).sx.beating = s.sx.beating := rfl
@[simp] theorem updChannel_sx_helmLost (s : State) (i : Fin 48) (f : Channel → Channel) :
    (updChannel s i f).sx.helmLost = s.sx.helmLost := rfl
@[simp] theorem updChannel_sx_shareAt (s : State) (i : Fin 48) (f : Channel → Channel) :
    (updChannel s i f).sx.shareAt = s.sx.shareAt := rfl
@[simp] theorem updChannel_sx_channel (s : State) (i : Fin 48) (f : Channel → Channel) :
    (updChannel s i f).sx.channel = upd s.sx.channel i f := rfl

@[simp] theorem updSd_variant (s : State) (i : Fin 64) (f : SdInput → SdInput) :
    (updSd s i f).variant = s.variant := rfl
@[simp] theorem updSd_mono (s : State) (i : Fin 64) (f : SdInput → SdInput) :
    (updSd s i f).mono = s.mono := rfl
@[simp] theorem updSd_free (s : State) (i : Fin 64) (f : SdInput → SdInput) :
    (updSd s i f).free = s.free := rfl
@[simp] theorem updSd_landfall (s : State) (i : Fin 64) (f : SdInput → SdInput) :
    (updSd s i f).landfall = s.landfall := rfl
@[simp] theorem updSd_chart (s : State) (i : Fin 64) (f : SdInput → SdInput) :
    (updSd s i f).chart = s.chart := rfl
@[simp] theorem updSd_cfg (s : State) (i : Fin 64) (f : SdInput → SdInput) :
    (updSd s i f).cfg = s.cfg := rfl
@[simp] theorem updSd_flash (s : State) (i : Fin 64) (f : SdInput → SdInput) :
    (updSd s i f).flash = s.flash := rfl
@[simp] theorem updSd_outlet (s : State) (i : Fin 64) (f : SdInput → SdInput) :
    (updSd s i f).outlet = s.outlet := rfl
@[simp] theorem updSd_cooling (s : State) (i : Fin 64) (f : SdInput → SdInput) :
    (updSd s i f).cooling = s.cooling := rfl
@[simp] theorem updSd_drive (s : State) (i : Fin 64) (f : SdInput → SdInput) :
    (updSd s i f).drive = s.drive := rfl
@[simp] theorem updSd_rdr (s : State) (i : Fin 64) (f : SdInput → SdInput) :
    (updSd s i f).rdr = s.rdr := rfl
@[simp] theorem updSd_mer (s : State) (i : Fin 64) (f : SdInput → SdInput) :
    (updSd s i f).mer = s.mer := rfl
@[simp] theorem updSd_com (s : State) (i : Fin 64) (f : SdInput → SdInput) :
    (updSd s i f).com = s.com := rfl
@[simp] theorem updSd_disp (s : State) (i : Fin 64) (f : SdInput → SdInput) :
    (updSd s i f).disp = s.disp := rfl
@[simp] theorem updSd_lk (s : State) (i : Fin 64) (f : SdInput → SdInput) :
    (updSd s i f).lk = s.lk := rfl
@[simp] theorem updSd_txl (s : State) (i : Fin 64) (f : SdInput → SdInput) :
    (updSd s i f).txl = s.txl := rfl
@[simp] theorem updSd_safe (s : State) (i : Fin 64) (f : SdInput → SdInput) :
    (updSd s i f).safe = s.safe := rfl
@[simp] theorem updSd_ll (s : State) (i : Fin 64) (f : SdInput → SdInput) :
    (updSd s i f).ll = s.ll := rfl
@[simp] theorem updSd_mgr (s : State) (i : Fin 64) (f : SdInput → SdInput) :
    (updSd s i f).mgr = s.mgr := rfl
@[simp] theorem updSd_wrk (s : State) (i : Fin 64) (f : SdInput → SdInput) :
    (updSd s i f).wrk = s.wrk := rfl
@[simp] theorem updSd_host (s : State) (i : Fin 64) (f : SdInput → SdInput) :
    (updSd s i f).host = s.host := rfl
@[simp] theorem updSd_locker (s : State) (i : Fin 64) (f : SdInput → SdInput) :
    (updSd s i f).locker = s.locker := rfl
@[simp] theorem updSd_fw (s : State) (i : Fin 64) (f : SdInput → SdInput) :
    (updSd s i f).fw = s.fw := rfl
@[simp] theorem updSd_tamper (s : State) (i : Fin 64) (f : SdInput → SdInput) :
    (updSd s i f).tamper = s.tamper := rfl
@[simp] theorem updSd_log (s : State) (i : Fin 64) (f : SdInput → SdInput) :
    (updSd s i f).log = s.log := rfl
@[simp] theorem updSd_flt (s : State) (i : Fin 64) (f : SdInput → SdInput) :
    (updSd s i f).flt = s.flt := rfl
@[simp] theorem updSd_pwr (s : State) (i : Fin 64) (f : SdInput → SdInput) :
    (updSd s i f).pwr = s.pwr := rfl
@[simp] theorem updSd_merStage (s : State) (i : Fin 64) (f : SdInput → SdInput) :
    (updSd s i f).merStage = s.merStage := rfl
@[simp] theorem updSd_pending (s : State) (i : Fin 64) (f : SdInput → SdInput) :
    (updSd s i f).pending = s.pending := rfl
@[simp] theorem updSd_sx_channel (s : State) (i : Fin 64) (f : SdInput → SdInput) :
    (updSd s i f).sx.channel = s.sx.channel := rfl
@[simp] theorem updSd_sx_cell (s : State) (i : Fin 64) (f : SdInput → SdInput) :
    (updSd s i f).sx.cell = s.sx.cell := rfl
@[simp] theorem updSd_sx_stage (s : State) (i : Fin 64) (f : SdInput → SdInput) :
    (updSd s i f).sx.stage = s.sx.stage := rfl
@[simp] theorem updSd_sx_aux (s : State) (i : Fin 64) (f : SdInput → SdInput) :
    (updSd s i f).sx.aux = s.sx.aux := rfl
@[simp] theorem updSd_sx_law (s : State) (i : Fin 64) (f : SdInput → SdInput) :
    (updSd s i f).sx.law = s.sx.law := rfl
@[simp] theorem updSd_sx_cool (s : State) (i : Fin 64) (f : SdInput → SdInput) :
    (updSd s i f).sx.cool = s.sx.cool := rfl
@[simp] theorem updSd_sx_uscFired (s : State) (i : Fin 64) (f : SdInput → SdInput) :
    (updSd s i f).sx.uscFired = s.sx.uscFired := rfl
@[simp] theorem updSd_sx_uscLevel (s : State) (i : Fin 64) (f : SdInput → SdInput) :
    (updSd s i f).sx.uscLevel = s.sx.uscLevel := rfl
@[simp] theorem updSd_sx_ppsStamp (s : State) (i : Fin 64) (f : SdInput → SdInput) :
    (updSd s i f).sx.ppsStamp = s.sx.ppsStamp := rfl
@[simp] theorem updSd_sx_ppsNs (s : State) (i : Fin 64) (f : SdInput → SdInput) :
    (updSd s i f).sx.ppsNs = s.sx.ppsNs := rfl
@[simp] theorem updSd_sx_count (s : State) (i : Fin 64) (f : SdInput → SdInput) :
    (updSd s i f).sx.count = s.sx.count := rfl
@[simp] theorem updSd_sx_countAt (s : State) (i : Fin 64) (f : SdInput → SdInput) :
    (updSd s i f).sx.countAt = s.sx.countAt := rfl
@[simp] theorem updSd_sx_syncPeriod (s : State) (i : Fin 64) (f : SdInput → SdInput) :
    (updSd s i f).sx.syncPeriod = s.sx.syncPeriod := rfl
@[simp] theorem updSd_sx_syncAt (s : State) (i : Fin 64) (f : SdInput → SdInput) :
    (updSd s i f).sx.syncAt = s.sx.syncAt := rfl
@[simp] theorem updSd_sx_syncOut (s : State) (i : Fin 64) (f : SdInput → SdInput) :
    (updSd s i f).sx.syncOut = s.sx.syncOut := rfl
@[simp] theorem updSd_sx_laneFree (s : State) (i : Fin 64) (f : SdInput → SdInput) :
    (updSd s i f).sx.laneFree = s.sx.laneFree := rfl
@[simp] theorem updSd_sx_laneBusy (s : State) (i : Fin 64) (f : SdInput → SdInput) :
    (updSd s i f).sx.laneBusy = s.sx.laneBusy := rfl
@[simp] theorem updSd_sx_loadChart (s : State) (i : Fin 64) (f : SdInput → SdInput) :
    (updSd s i f).sx.loadChart = s.sx.loadChart := rfl
@[simp] theorem updSd_sx_loadMeas (s : State) (i : Fin 64) (f : SdInput → SdInput) :
    (updSd s i f).sx.loadMeas = s.sx.loadMeas := rfl
@[simp] theorem updSd_sx_fixLast (s : State) (i : Fin 64) (f : SdInput → SdInput) :
    (updSd s i f).sx.fixLast = s.sx.fixLast := rfl
@[simp] theorem updSd_sx_fixTime (s : State) (i : Fin 64) (f : SdInput → SdInput) :
    (updSd s i f).sx.fixTime = s.sx.fixTime := rfl
@[simp] theorem updSd_sx_up (s : State) (i : Fin 64) (f : SdInput → SdInput) :
    (updSd s i f).sx.up = s.sx.up := rfl
@[simp] theorem updSd_sx_beating (s : State) (i : Fin 64) (f : SdInput → SdInput) :
    (updSd s i f).sx.beating = s.sx.beating := rfl
@[simp] theorem updSd_sx_helmLost (s : State) (i : Fin 64) (f : SdInput → SdInput) :
    (updSd s i f).sx.helmLost = s.sx.helmLost := rfl
@[simp] theorem updSd_sx_shareAt (s : State) (i : Fin 64) (f : SdInput → SdInput) :
    (updSd s i f).sx.shareAt = s.sx.shareAt := rfl
@[simp] theorem updSd_sx_sd (s : State) (i : Fin 64) (f : SdInput → SdInput) :
    (updSd s i f).sx.sd = upd s.sx.sd i f := rfl

@[simp] theorem updLaw_variant (s : State) (i : Fin 96) (f : Law → Law) :
    (updLaw s i f).variant = s.variant := rfl
@[simp] theorem updLaw_mono (s : State) (i : Fin 96) (f : Law → Law) :
    (updLaw s i f).mono = s.mono := rfl
@[simp] theorem updLaw_free (s : State) (i : Fin 96) (f : Law → Law) :
    (updLaw s i f).free = s.free := rfl
@[simp] theorem updLaw_landfall (s : State) (i : Fin 96) (f : Law → Law) :
    (updLaw s i f).landfall = s.landfall := rfl
@[simp] theorem updLaw_chart (s : State) (i : Fin 96) (f : Law → Law) :
    (updLaw s i f).chart = s.chart := rfl
@[simp] theorem updLaw_cfg (s : State) (i : Fin 96) (f : Law → Law) :
    (updLaw s i f).cfg = s.cfg := rfl
@[simp] theorem updLaw_flash (s : State) (i : Fin 96) (f : Law → Law) :
    (updLaw s i f).flash = s.flash := rfl
@[simp] theorem updLaw_outlet (s : State) (i : Fin 96) (f : Law → Law) :
    (updLaw s i f).outlet = s.outlet := rfl
@[simp] theorem updLaw_cooling (s : State) (i : Fin 96) (f : Law → Law) :
    (updLaw s i f).cooling = s.cooling := rfl
@[simp] theorem updLaw_drive (s : State) (i : Fin 96) (f : Law → Law) :
    (updLaw s i f).drive = s.drive := rfl
@[simp] theorem updLaw_rdr (s : State) (i : Fin 96) (f : Law → Law) :
    (updLaw s i f).rdr = s.rdr := rfl
@[simp] theorem updLaw_mer (s : State) (i : Fin 96) (f : Law → Law) :
    (updLaw s i f).mer = s.mer := rfl
@[simp] theorem updLaw_com (s : State) (i : Fin 96) (f : Law → Law) :
    (updLaw s i f).com = s.com := rfl
@[simp] theorem updLaw_disp (s : State) (i : Fin 96) (f : Law → Law) :
    (updLaw s i f).disp = s.disp := rfl
@[simp] theorem updLaw_lk (s : State) (i : Fin 96) (f : Law → Law) :
    (updLaw s i f).lk = s.lk := rfl
@[simp] theorem updLaw_txl (s : State) (i : Fin 96) (f : Law → Law) :
    (updLaw s i f).txl = s.txl := rfl
@[simp] theorem updLaw_safe (s : State) (i : Fin 96) (f : Law → Law) :
    (updLaw s i f).safe = s.safe := rfl
@[simp] theorem updLaw_ll (s : State) (i : Fin 96) (f : Law → Law) :
    (updLaw s i f).ll = s.ll := rfl
@[simp] theorem updLaw_mgr (s : State) (i : Fin 96) (f : Law → Law) :
    (updLaw s i f).mgr = s.mgr := rfl
@[simp] theorem updLaw_wrk (s : State) (i : Fin 96) (f : Law → Law) :
    (updLaw s i f).wrk = s.wrk := rfl
@[simp] theorem updLaw_host (s : State) (i : Fin 96) (f : Law → Law) :
    (updLaw s i f).host = s.host := rfl
@[simp] theorem updLaw_locker (s : State) (i : Fin 96) (f : Law → Law) :
    (updLaw s i f).locker = s.locker := rfl
@[simp] theorem updLaw_fw (s : State) (i : Fin 96) (f : Law → Law) :
    (updLaw s i f).fw = s.fw := rfl
@[simp] theorem updLaw_tamper (s : State) (i : Fin 96) (f : Law → Law) :
    (updLaw s i f).tamper = s.tamper := rfl
@[simp] theorem updLaw_log (s : State) (i : Fin 96) (f : Law → Law) :
    (updLaw s i f).log = s.log := rfl
@[simp] theorem updLaw_flt (s : State) (i : Fin 96) (f : Law → Law) :
    (updLaw s i f).flt = s.flt := rfl
@[simp] theorem updLaw_pwr (s : State) (i : Fin 96) (f : Law → Law) :
    (updLaw s i f).pwr = s.pwr := rfl
@[simp] theorem updLaw_merStage (s : State) (i : Fin 96) (f : Law → Law) :
    (updLaw s i f).merStage = s.merStage := rfl
@[simp] theorem updLaw_pending (s : State) (i : Fin 96) (f : Law → Law) :
    (updLaw s i f).pending = s.pending := rfl
@[simp] theorem updLaw_sx_channel (s : State) (i : Fin 96) (f : Law → Law) :
    (updLaw s i f).sx.channel = s.sx.channel := rfl
@[simp] theorem updLaw_sx_cell (s : State) (i : Fin 96) (f : Law → Law) :
    (updLaw s i f).sx.cell = s.sx.cell := rfl
@[simp] theorem updLaw_sx_stage (s : State) (i : Fin 96) (f : Law → Law) :
    (updLaw s i f).sx.stage = s.sx.stage := rfl
@[simp] theorem updLaw_sx_aux (s : State) (i : Fin 96) (f : Law → Law) :
    (updLaw s i f).sx.aux = s.sx.aux := rfl
@[simp] theorem updLaw_sx_sd (s : State) (i : Fin 96) (f : Law → Law) :
    (updLaw s i f).sx.sd = s.sx.sd := rfl
@[simp] theorem updLaw_sx_cool (s : State) (i : Fin 96) (f : Law → Law) :
    (updLaw s i f).sx.cool = s.sx.cool := rfl
@[simp] theorem updLaw_sx_uscFired (s : State) (i : Fin 96) (f : Law → Law) :
    (updLaw s i f).sx.uscFired = s.sx.uscFired := rfl
@[simp] theorem updLaw_sx_uscLevel (s : State) (i : Fin 96) (f : Law → Law) :
    (updLaw s i f).sx.uscLevel = s.sx.uscLevel := rfl
@[simp] theorem updLaw_sx_ppsStamp (s : State) (i : Fin 96) (f : Law → Law) :
    (updLaw s i f).sx.ppsStamp = s.sx.ppsStamp := rfl
@[simp] theorem updLaw_sx_ppsNs (s : State) (i : Fin 96) (f : Law → Law) :
    (updLaw s i f).sx.ppsNs = s.sx.ppsNs := rfl
@[simp] theorem updLaw_sx_count (s : State) (i : Fin 96) (f : Law → Law) :
    (updLaw s i f).sx.count = s.sx.count := rfl
@[simp] theorem updLaw_sx_countAt (s : State) (i : Fin 96) (f : Law → Law) :
    (updLaw s i f).sx.countAt = s.sx.countAt := rfl
@[simp] theorem updLaw_sx_syncPeriod (s : State) (i : Fin 96) (f : Law → Law) :
    (updLaw s i f).sx.syncPeriod = s.sx.syncPeriod := rfl
@[simp] theorem updLaw_sx_syncAt (s : State) (i : Fin 96) (f : Law → Law) :
    (updLaw s i f).sx.syncAt = s.sx.syncAt := rfl
@[simp] theorem updLaw_sx_syncOut (s : State) (i : Fin 96) (f : Law → Law) :
    (updLaw s i f).sx.syncOut = s.sx.syncOut := rfl
@[simp] theorem updLaw_sx_laneFree (s : State) (i : Fin 96) (f : Law → Law) :
    (updLaw s i f).sx.laneFree = s.sx.laneFree := rfl
@[simp] theorem updLaw_sx_laneBusy (s : State) (i : Fin 96) (f : Law → Law) :
    (updLaw s i f).sx.laneBusy = s.sx.laneBusy := rfl
@[simp] theorem updLaw_sx_loadChart (s : State) (i : Fin 96) (f : Law → Law) :
    (updLaw s i f).sx.loadChart = s.sx.loadChart := rfl
@[simp] theorem updLaw_sx_loadMeas (s : State) (i : Fin 96) (f : Law → Law) :
    (updLaw s i f).sx.loadMeas = s.sx.loadMeas := rfl
@[simp] theorem updLaw_sx_fixLast (s : State) (i : Fin 96) (f : Law → Law) :
    (updLaw s i f).sx.fixLast = s.sx.fixLast := rfl
@[simp] theorem updLaw_sx_fixTime (s : State) (i : Fin 96) (f : Law → Law) :
    (updLaw s i f).sx.fixTime = s.sx.fixTime := rfl
@[simp] theorem updLaw_sx_up (s : State) (i : Fin 96) (f : Law → Law) :
    (updLaw s i f).sx.up = s.sx.up := rfl
@[simp] theorem updLaw_sx_beating (s : State) (i : Fin 96) (f : Law → Law) :
    (updLaw s i f).sx.beating = s.sx.beating := rfl
@[simp] theorem updLaw_sx_helmLost (s : State) (i : Fin 96) (f : Law → Law) :
    (updLaw s i f).sx.helmLost = s.sx.helmLost := rfl
@[simp] theorem updLaw_sx_shareAt (s : State) (i : Fin 96) (f : Law → Law) :
    (updLaw s i f).sx.shareAt = s.sx.shareAt := rfl
@[simp] theorem updLaw_sx_law (s : State) (i : Fin 96) (f : Law → Law) :
    (updLaw s i f).sx.law = upd s.sx.law i f := rfl

@[simp] theorem updOutlet_variant (s : State) (i : Fin 2) (f : Outlet → Outlet) :
    (updOutlet s i f).variant = s.variant := rfl
@[simp] theorem updOutlet_mono (s : State) (i : Fin 2) (f : Outlet → Outlet) :
    (updOutlet s i f).mono = s.mono := rfl
@[simp] theorem updOutlet_free (s : State) (i : Fin 2) (f : Outlet → Outlet) :
    (updOutlet s i f).free = s.free := rfl
@[simp] theorem updOutlet_landfall (s : State) (i : Fin 2) (f : Outlet → Outlet) :
    (updOutlet s i f).landfall = s.landfall := rfl
@[simp] theorem updOutlet_chart (s : State) (i : Fin 2) (f : Outlet → Outlet) :
    (updOutlet s i f).chart = s.chart := rfl
@[simp] theorem updOutlet_cfg (s : State) (i : Fin 2) (f : Outlet → Outlet) :
    (updOutlet s i f).cfg = s.cfg := rfl
@[simp] theorem updOutlet_flash (s : State) (i : Fin 2) (f : Outlet → Outlet) :
    (updOutlet s i f).flash = s.flash := rfl
@[simp] theorem updOutlet_sx (s : State) (i : Fin 2) (f : Outlet → Outlet) :
    (updOutlet s i f).sx = s.sx := rfl
@[simp] theorem updOutlet_cooling (s : State) (i : Fin 2) (f : Outlet → Outlet) :
    (updOutlet s i f).cooling = s.cooling := rfl
@[simp] theorem updOutlet_drive (s : State) (i : Fin 2) (f : Outlet → Outlet) :
    (updOutlet s i f).drive = s.drive := rfl
@[simp] theorem updOutlet_rdr (s : State) (i : Fin 2) (f : Outlet → Outlet) :
    (updOutlet s i f).rdr = s.rdr := rfl
@[simp] theorem updOutlet_mer (s : State) (i : Fin 2) (f : Outlet → Outlet) :
    (updOutlet s i f).mer = s.mer := rfl
@[simp] theorem updOutlet_com (s : State) (i : Fin 2) (f : Outlet → Outlet) :
    (updOutlet s i f).com = s.com := rfl
@[simp] theorem updOutlet_disp (s : State) (i : Fin 2) (f : Outlet → Outlet) :
    (updOutlet s i f).disp = s.disp := rfl
@[simp] theorem updOutlet_lk (s : State) (i : Fin 2) (f : Outlet → Outlet) :
    (updOutlet s i f).lk = s.lk := rfl
@[simp] theorem updOutlet_txl (s : State) (i : Fin 2) (f : Outlet → Outlet) :
    (updOutlet s i f).txl = s.txl := rfl
@[simp] theorem updOutlet_safe (s : State) (i : Fin 2) (f : Outlet → Outlet) :
    (updOutlet s i f).safe = s.safe := rfl
@[simp] theorem updOutlet_ll (s : State) (i : Fin 2) (f : Outlet → Outlet) :
    (updOutlet s i f).ll = s.ll := rfl
@[simp] theorem updOutlet_mgr (s : State) (i : Fin 2) (f : Outlet → Outlet) :
    (updOutlet s i f).mgr = s.mgr := rfl
@[simp] theorem updOutlet_wrk (s : State) (i : Fin 2) (f : Outlet → Outlet) :
    (updOutlet s i f).wrk = s.wrk := rfl
@[simp] theorem updOutlet_host (s : State) (i : Fin 2) (f : Outlet → Outlet) :
    (updOutlet s i f).host = s.host := rfl
@[simp] theorem updOutlet_locker (s : State) (i : Fin 2) (f : Outlet → Outlet) :
    (updOutlet s i f).locker = s.locker := rfl
@[simp] theorem updOutlet_fw (s : State) (i : Fin 2) (f : Outlet → Outlet) :
    (updOutlet s i f).fw = s.fw := rfl
@[simp] theorem updOutlet_tamper (s : State) (i : Fin 2) (f : Outlet → Outlet) :
    (updOutlet s i f).tamper = s.tamper := rfl
@[simp] theorem updOutlet_log (s : State) (i : Fin 2) (f : Outlet → Outlet) :
    (updOutlet s i f).log = s.log := rfl
@[simp] theorem updOutlet_flt (s : State) (i : Fin 2) (f : Outlet → Outlet) :
    (updOutlet s i f).flt = s.flt := rfl
@[simp] theorem updOutlet_pwr (s : State) (i : Fin 2) (f : Outlet → Outlet) :
    (updOutlet s i f).pwr = s.pwr := rfl
@[simp] theorem updOutlet_merStage (s : State) (i : Fin 2) (f : Outlet → Outlet) :
    (updOutlet s i f).merStage = s.merStage := rfl
@[simp] theorem updOutlet_pending (s : State) (i : Fin 2) (f : Outlet → Outlet) :
    (updOutlet s i f).pending = s.pending := rfl
@[simp] theorem updOutlet_outlet (s : State) (i : Fin 2) (f : Outlet → Outlet) :
    (updOutlet s i f).outlet = upd s.outlet i f := rfl

@[simp] theorem updCooling_variant (s : State) (i : Fin 2) (f : Cooling → Cooling) :
    (updCooling s i f).variant = s.variant := rfl
@[simp] theorem updCooling_mono (s : State) (i : Fin 2) (f : Cooling → Cooling) :
    (updCooling s i f).mono = s.mono := rfl
@[simp] theorem updCooling_free (s : State) (i : Fin 2) (f : Cooling → Cooling) :
    (updCooling s i f).free = s.free := rfl
@[simp] theorem updCooling_landfall (s : State) (i : Fin 2) (f : Cooling → Cooling) :
    (updCooling s i f).landfall = s.landfall := rfl
@[simp] theorem updCooling_chart (s : State) (i : Fin 2) (f : Cooling → Cooling) :
    (updCooling s i f).chart = s.chart := rfl
@[simp] theorem updCooling_cfg (s : State) (i : Fin 2) (f : Cooling → Cooling) :
    (updCooling s i f).cfg = s.cfg := rfl
@[simp] theorem updCooling_flash (s : State) (i : Fin 2) (f : Cooling → Cooling) :
    (updCooling s i f).flash = s.flash := rfl
@[simp] theorem updCooling_sx (s : State) (i : Fin 2) (f : Cooling → Cooling) :
    (updCooling s i f).sx = s.sx := rfl
@[simp] theorem updCooling_outlet (s : State) (i : Fin 2) (f : Cooling → Cooling) :
    (updCooling s i f).outlet = s.outlet := rfl
@[simp] theorem updCooling_drive (s : State) (i : Fin 2) (f : Cooling → Cooling) :
    (updCooling s i f).drive = s.drive := rfl
@[simp] theorem updCooling_rdr (s : State) (i : Fin 2) (f : Cooling → Cooling) :
    (updCooling s i f).rdr = s.rdr := rfl
@[simp] theorem updCooling_mer (s : State) (i : Fin 2) (f : Cooling → Cooling) :
    (updCooling s i f).mer = s.mer := rfl
@[simp] theorem updCooling_com (s : State) (i : Fin 2) (f : Cooling → Cooling) :
    (updCooling s i f).com = s.com := rfl
@[simp] theorem updCooling_disp (s : State) (i : Fin 2) (f : Cooling → Cooling) :
    (updCooling s i f).disp = s.disp := rfl
@[simp] theorem updCooling_lk (s : State) (i : Fin 2) (f : Cooling → Cooling) :
    (updCooling s i f).lk = s.lk := rfl
@[simp] theorem updCooling_txl (s : State) (i : Fin 2) (f : Cooling → Cooling) :
    (updCooling s i f).txl = s.txl := rfl
@[simp] theorem updCooling_safe (s : State) (i : Fin 2) (f : Cooling → Cooling) :
    (updCooling s i f).safe = s.safe := rfl
@[simp] theorem updCooling_ll (s : State) (i : Fin 2) (f : Cooling → Cooling) :
    (updCooling s i f).ll = s.ll := rfl
@[simp] theorem updCooling_mgr (s : State) (i : Fin 2) (f : Cooling → Cooling) :
    (updCooling s i f).mgr = s.mgr := rfl
@[simp] theorem updCooling_wrk (s : State) (i : Fin 2) (f : Cooling → Cooling) :
    (updCooling s i f).wrk = s.wrk := rfl
@[simp] theorem updCooling_host (s : State) (i : Fin 2) (f : Cooling → Cooling) :
    (updCooling s i f).host = s.host := rfl
@[simp] theorem updCooling_locker (s : State) (i : Fin 2) (f : Cooling → Cooling) :
    (updCooling s i f).locker = s.locker := rfl
@[simp] theorem updCooling_fw (s : State) (i : Fin 2) (f : Cooling → Cooling) :
    (updCooling s i f).fw = s.fw := rfl
@[simp] theorem updCooling_tamper (s : State) (i : Fin 2) (f : Cooling → Cooling) :
    (updCooling s i f).tamper = s.tamper := rfl
@[simp] theorem updCooling_log (s : State) (i : Fin 2) (f : Cooling → Cooling) :
    (updCooling s i f).log = s.log := rfl
@[simp] theorem updCooling_flt (s : State) (i : Fin 2) (f : Cooling → Cooling) :
    (updCooling s i f).flt = s.flt := rfl
@[simp] theorem updCooling_pwr (s : State) (i : Fin 2) (f : Cooling → Cooling) :
    (updCooling s i f).pwr = s.pwr := rfl
@[simp] theorem updCooling_merStage (s : State) (i : Fin 2) (f : Cooling → Cooling) :
    (updCooling s i f).merStage = s.merStage := rfl
@[simp] theorem updCooling_pending (s : State) (i : Fin 2) (f : Cooling → Cooling) :
    (updCooling s i f).pending = s.pending := rfl
@[simp] theorem updCooling_cooling (s : State) (i : Fin 2) (f : Cooling → Cooling) :
    (updCooling s i f).cooling = upd s.cooling i f := rfl

@[simp] theorem updPort_variant (s : State) (i : Fin 2) (f : HandlePort → HandlePort) :
    (updPort s i f).variant = s.variant := rfl
@[simp] theorem updPort_mono (s : State) (i : Fin 2) (f : HandlePort → HandlePort) :
    (updPort s i f).mono = s.mono := rfl
@[simp] theorem updPort_free (s : State) (i : Fin 2) (f : HandlePort → HandlePort) :
    (updPort s i f).free = s.free := rfl
@[simp] theorem updPort_landfall (s : State) (i : Fin 2) (f : HandlePort → HandlePort) :
    (updPort s i f).landfall = s.landfall := rfl
@[simp] theorem updPort_chart (s : State) (i : Fin 2) (f : HandlePort → HandlePort) :
    (updPort s i f).chart = s.chart := rfl
@[simp] theorem updPort_cfg (s : State) (i : Fin 2) (f : HandlePort → HandlePort) :
    (updPort s i f).cfg = s.cfg := rfl
@[simp] theorem updPort_flash (s : State) (i : Fin 2) (f : HandlePort → HandlePort) :
    (updPort s i f).flash = s.flash := rfl
@[simp] theorem updPort_sx (s : State) (i : Fin 2) (f : HandlePort → HandlePort) :
    (updPort s i f).sx = s.sx := rfl
@[simp] theorem updPort_outlet (s : State) (i : Fin 2) (f : HandlePort → HandlePort) :
    (updPort s i f).outlet = s.outlet := rfl
@[simp] theorem updPort_cooling (s : State) (i : Fin 2) (f : HandlePort → HandlePort) :
    (updPort s i f).cooling = s.cooling := rfl
@[simp] theorem updPort_drive (s : State) (i : Fin 2) (f : HandlePort → HandlePort) :
    (updPort s i f).drive = s.drive := rfl
@[simp] theorem updPort_mer (s : State) (i : Fin 2) (f : HandlePort → HandlePort) :
    (updPort s i f).mer = s.mer := rfl
@[simp] theorem updPort_com (s : State) (i : Fin 2) (f : HandlePort → HandlePort) :
    (updPort s i f).com = s.com := rfl
@[simp] theorem updPort_disp (s : State) (i : Fin 2) (f : HandlePort → HandlePort) :
    (updPort s i f).disp = s.disp := rfl
@[simp] theorem updPort_lk (s : State) (i : Fin 2) (f : HandlePort → HandlePort) :
    (updPort s i f).lk = s.lk := rfl
@[simp] theorem updPort_txl (s : State) (i : Fin 2) (f : HandlePort → HandlePort) :
    (updPort s i f).txl = s.txl := rfl
@[simp] theorem updPort_safe (s : State) (i : Fin 2) (f : HandlePort → HandlePort) :
    (updPort s i f).safe = s.safe := rfl
@[simp] theorem updPort_ll (s : State) (i : Fin 2) (f : HandlePort → HandlePort) :
    (updPort s i f).ll = s.ll := rfl
@[simp] theorem updPort_mgr (s : State) (i : Fin 2) (f : HandlePort → HandlePort) :
    (updPort s i f).mgr = s.mgr := rfl
@[simp] theorem updPort_wrk (s : State) (i : Fin 2) (f : HandlePort → HandlePort) :
    (updPort s i f).wrk = s.wrk := rfl
@[simp] theorem updPort_host (s : State) (i : Fin 2) (f : HandlePort → HandlePort) :
    (updPort s i f).host = s.host := rfl
@[simp] theorem updPort_locker (s : State) (i : Fin 2) (f : HandlePort → HandlePort) :
    (updPort s i f).locker = s.locker := rfl
@[simp] theorem updPort_fw (s : State) (i : Fin 2) (f : HandlePort → HandlePort) :
    (updPort s i f).fw = s.fw := rfl
@[simp] theorem updPort_tamper (s : State) (i : Fin 2) (f : HandlePort → HandlePort) :
    (updPort s i f).tamper = s.tamper := rfl
@[simp] theorem updPort_log (s : State) (i : Fin 2) (f : HandlePort → HandlePort) :
    (updPort s i f).log = s.log := rfl
@[simp] theorem updPort_flt (s : State) (i : Fin 2) (f : HandlePort → HandlePort) :
    (updPort s i f).flt = s.flt := rfl
@[simp] theorem updPort_pwr (s : State) (i : Fin 2) (f : HandlePort → HandlePort) :
    (updPort s i f).pwr = s.pwr := rfl
@[simp] theorem updPort_merStage (s : State) (i : Fin 2) (f : HandlePort → HandlePort) :
    (updPort s i f).merStage = s.merStage := rfl
@[simp] theorem updPort_pending (s : State) (i : Fin 2) (f : HandlePort → HandlePort) :
    (updPort s i f).pending = s.pending := rfl
@[simp] theorem updPort_rdr_ant (s : State) (i : Fin 2) (f : HandlePort → HandlePort) :
    (updPort s i f).rdr.ant = s.rdr.ant := rfl
@[simp] theorem updPort_rdr_field (s : State) (i : Fin 2) (f : HandlePort → HandlePort) :
    (updPort s i f).rdr.field = s.rdr.field := rfl
@[simp] theorem updPort_rdr_harvPower (s : State) (i : Fin 2) (f : HandlePort → HandlePort) :
    (updPort s i f).rdr.harvPower = s.rdr.harvPower := rfl
@[simp] theorem updPort_rdr_settled (s : State) (i : Fin 2) (f : HandlePort → HandlePort) :
    (updPort s i f).rdr.settled = s.rdr.settled := rfl
@[simp] theorem updPort_rdr_cycles (s : State) (i : Fin 2) (f : HandlePort → HandlePort) :
    (updPort s i f).rdr.cycles = s.rdr.cycles := rfl
@[simp] theorem updPort_rdr_window (s : State) (i : Fin 2) (f : HandlePort → HandlePort) :
    (updPort s i f).rdr.window = s.rdr.window := rfl
@[simp] theorem updPort_rdr_work (s : State) (i : Fin 2) (f : HandlePort → HandlePort) :
    (updPort s i f).rdr.work = s.rdr.work := rfl
@[simp] theorem updPort_rdr_air (s : State) (i : Fin 2) (f : HandlePort → HandlePort) :
    (updPort s i f).rdr.air = s.rdr.air := rfl
@[simp] theorem updPort_rdr_used (s : State) (i : Fin 2) (f : HandlePort → HandlePort) :
    (updPort s i f).rdr.used = s.rdr.used := rfl
@[simp] theorem updPort_rdr_full (s : State) (i : Fin 2) (f : HandlePort → HandlePort) :
    (updPort s i f).rdr.full = s.rdr.full := rfl
@[simp] theorem updPort_rdr_antFault (s : State) (i : Fin 2) (f : HandlePort → HandlePort) :
    (updPort s i f).rdr.antFault = s.rdr.antFault := rfl
@[simp] theorem updPort_rdr_antRef (s : State) (i : Fin 2) (f : HandlePort → HandlePort) :
    (updPort s i f).rdr.antRef = s.rdr.antRef := rfl
@[simp] theorem updPort_rdr_miss (s : State) (i : Fin 2) (f : HandlePort → HandlePort) :
    (updPort s i f).rdr.miss = s.rdr.miss := rfl
@[simp] theorem updPort_rdr_crc (s : State) (i : Fin 2) (f : HandlePort → HandlePort) :
    (updPort s i f).rdr.crc = s.rdr.crc := rfl
@[simp] theorem updPort_rdr_coll (s : State) (i : Fin 2) (f : HandlePort → HandlePort) :
    (updPort s i f).rdr.coll = s.rdr.coll := rfl
@[simp] theorem updPort_rdr_unconf (s : State) (i : Fin 2) (f : HandlePort → HandlePort) :
    (updPort s i f).rdr.unconf = s.rdr.unconf := rfl
@[simp] theorem updPort_rdr_polls (s : State) (i : Fin 2) (f : HandlePort → HandlePort) :
    (updPort s i f).rdr.polls = s.rdr.polls := rfl
@[simp] theorem updPort_rdr_pad (s : State) (i : Fin 2) (f : HandlePort → HandlePort) :
    (updPort s i f).rdr.pad = s.rdr.pad := rfl
@[simp] theorem updPort_rdr_cards (s : State) (i : Fin 2) (f : HandlePort → HandlePort) :
    (updPort s i f).rdr.cards = s.rdr.cards := rfl
@[simp] theorem updPort_rdr_cardUid (s : State) (i : Fin 2) (f : HandlePort → HandlePort) :
    (updPort s i f).rdr.cardUid = s.rdr.cardUid := rfl
@[simp] theorem updPort_rdr_cardBcc (s : State) (i : Fin 2) (f : HandlePort → HandlePort) :
    (updPort s i f).rdr.cardBcc = s.rdr.cardBcc := rfl
@[simp] theorem updPort_rdr_cardAtqa (s : State) (i : Fin 2) (f : HandlePort → HandlePort) :
    (updPort s i f).rdr.cardAtqa = s.rdr.cardAtqa := rfl
@[simp] theorem updPort_rdr_cardSak (s : State) (i : Fin 2) (f : HandlePort → HandlePort) :
    (updPort s i f).rdr.cardSak = s.rdr.cardSak := rfl
@[simp] theorem updPort_rdr_port (s : State) (i : Fin 2) (f : HandlePort → HandlePort) :
    (updPort s i f).rdr.port = upd s.rdr.port i f := rfl

@[simp] theorem updMch_variant (s : State) (i : Fin 12) (f : MChannel → MChannel) :
    (updMch s i f).variant = s.variant := rfl
@[simp] theorem updMch_mono (s : State) (i : Fin 12) (f : MChannel → MChannel) :
    (updMch s i f).mono = s.mono := rfl
@[simp] theorem updMch_free (s : State) (i : Fin 12) (f : MChannel → MChannel) :
    (updMch s i f).free = s.free := rfl
@[simp] theorem updMch_landfall (s : State) (i : Fin 12) (f : MChannel → MChannel) :
    (updMch s i f).landfall = s.landfall := rfl
@[simp] theorem updMch_chart (s : State) (i : Fin 12) (f : MChannel → MChannel) :
    (updMch s i f).chart = s.chart := rfl
@[simp] theorem updMch_cfg (s : State) (i : Fin 12) (f : MChannel → MChannel) :
    (updMch s i f).cfg = s.cfg := rfl
@[simp] theorem updMch_flash (s : State) (i : Fin 12) (f : MChannel → MChannel) :
    (updMch s i f).flash = s.flash := rfl
@[simp] theorem updMch_sx (s : State) (i : Fin 12) (f : MChannel → MChannel) :
    (updMch s i f).sx = s.sx := rfl
@[simp] theorem updMch_outlet (s : State) (i : Fin 12) (f : MChannel → MChannel) :
    (updMch s i f).outlet = s.outlet := rfl
@[simp] theorem updMch_cooling (s : State) (i : Fin 12) (f : MChannel → MChannel) :
    (updMch s i f).cooling = s.cooling := rfl
@[simp] theorem updMch_drive (s : State) (i : Fin 12) (f : MChannel → MChannel) :
    (updMch s i f).drive = s.drive := rfl
@[simp] theorem updMch_rdr (s : State) (i : Fin 12) (f : MChannel → MChannel) :
    (updMch s i f).rdr = s.rdr := rfl
@[simp] theorem updMch_com (s : State) (i : Fin 12) (f : MChannel → MChannel) :
    (updMch s i f).com = s.com := rfl
@[simp] theorem updMch_disp (s : State) (i : Fin 12) (f : MChannel → MChannel) :
    (updMch s i f).disp = s.disp := rfl
@[simp] theorem updMch_lk (s : State) (i : Fin 12) (f : MChannel → MChannel) :
    (updMch s i f).lk = s.lk := rfl
@[simp] theorem updMch_txl (s : State) (i : Fin 12) (f : MChannel → MChannel) :
    (updMch s i f).txl = s.txl := rfl
@[simp] theorem updMch_safe (s : State) (i : Fin 12) (f : MChannel → MChannel) :
    (updMch s i f).safe = s.safe := rfl
@[simp] theorem updMch_ll (s : State) (i : Fin 12) (f : MChannel → MChannel) :
    (updMch s i f).ll = s.ll := rfl
@[simp] theorem updMch_mgr (s : State) (i : Fin 12) (f : MChannel → MChannel) :
    (updMch s i f).mgr = s.mgr := rfl
@[simp] theorem updMch_wrk (s : State) (i : Fin 12) (f : MChannel → MChannel) :
    (updMch s i f).wrk = s.wrk := rfl
@[simp] theorem updMch_host (s : State) (i : Fin 12) (f : MChannel → MChannel) :
    (updMch s i f).host = s.host := rfl
@[simp] theorem updMch_locker (s : State) (i : Fin 12) (f : MChannel → MChannel) :
    (updMch s i f).locker = s.locker := rfl
@[simp] theorem updMch_fw (s : State) (i : Fin 12) (f : MChannel → MChannel) :
    (updMch s i f).fw = s.fw := rfl
@[simp] theorem updMch_tamper (s : State) (i : Fin 12) (f : MChannel → MChannel) :
    (updMch s i f).tamper = s.tamper := rfl
@[simp] theorem updMch_log (s : State) (i : Fin 12) (f : MChannel → MChannel) :
    (updMch s i f).log = s.log := rfl
@[simp] theorem updMch_flt (s : State) (i : Fin 12) (f : MChannel → MChannel) :
    (updMch s i f).flt = s.flt := rfl
@[simp] theorem updMch_pwr (s : State) (i : Fin 12) (f : MChannel → MChannel) :
    (updMch s i f).pwr = s.pwr := rfl
@[simp] theorem updMch_merStage (s : State) (i : Fin 12) (f : MChannel → MChannel) :
    (updMch s i f).merStage = s.merStage := rfl
@[simp] theorem updMch_pending (s : State) (i : Fin 12) (f : MChannel → MChannel) :
    (updMch s i f).pending = s.pending := rfl
@[simp] theorem updMch_mer_up (s : State) (i : Fin 12) (f : MChannel → MChannel) :
    (updMch s i f).mer.up = s.mer.up := rfl
@[simp] theorem updMch_mer_supplyFail (s : State) (i : Fin 12) (f : MChannel → MChannel) :
    (updMch s i f).mer.supplyFail = s.mer.supplyFail := rfl
@[simp] theorem updMch_mer_plainStop (s : State) (i : Fin 12) (f : MChannel → MChannel) :
    (updMch s i f).mer.plainStop = s.mer.plainStop := rfl
@[simp] theorem updMch_mer_leg (s : State) (i : Fin 12) (f : MChannel → MChannel) :
    (updMch s i f).mer.leg = s.mer.leg := rfl
@[simp] theorem updMch_mer_saved (s : State) (i : Fin 12) (f : MChannel → MChannel) :
    (updMch s i f).mer.saved = s.mer.saved := rfl
@[simp] theorem updMch_mer_legalSeq (s : State) (i : Fin 12) (f : MChannel → MChannel) :
    (updMch s i f).mer.legalSeq = s.mer.legalSeq := rfl
@[simp] theorem updMch_mer_regs (s : State) (i : Fin 12) (f : MChannel → MChannel) :
    (updMch s i f).mer.regs = s.mer.regs := rfl
@[simp] theorem updMch_mer_staged (s : State) (i : Fin 12) (f : MChannel → MChannel) :
    (updMch s i f).mer.staged = s.mer.staged := rfl
@[simp] theorem updMch_mer_stagedCnt (s : State) (i : Fin 12) (f : MChannel → MChannel) :
    (updMch s i f).mer.stagedCnt = s.mer.stagedCnt := rfl
@[simp] theorem updMch_mer_digest (s : State) (i : Fin 12) (f : MChannel → MChannel) :
    (updMch s i f).mer.digest = s.mer.digest := rfl
@[simp] theorem updMch_mer_lossEst (s : State) (i : Fin 12) (f : MChannel → MChannel) :
    (updMch s i f).mer.lossEst = s.mer.lossEst := rfl
@[simp] theorem updMch_mer_powers (s : State) (i : Fin 12) (f : MChannel → MChannel) :
    (updMch s i f).mer.powers = s.mer.powers := rfl
@[simp] theorem updMch_mer_pNow (s : State) (i : Fin 12) (f : MChannel → MChannel) :
    (updMch s i f).mer.pNow = s.mer.pNow := rfl
@[simp] theorem updMch_mer_chr (s : State) (i : Fin 12) (f : MChannel → MChannel) :
    (updMch s i f).mer.chr = s.mer.chr := rfl
@[simp] theorem updMch_mer_tar (s : State) (i : Fin 12) (f : MChannel → MChannel) :
    (updMch s i f).mer.tar = s.mer.tar := rfl
@[simp] theorem updMch_mer_stopNs (s : State) (i : Fin 12) (f : MChannel → MChannel) :
    (updMch s i f).mer.stopNs = s.mer.stopNs := rfl
@[simp] theorem updMch_mer_winItem (s : State) (i : Fin 12) (f : MChannel → MChannel) :
    (updMch s i f).mer.winItem = s.mer.winItem := rfl
@[simp] theorem updMch_mer_closeDue (s : State) (i : Fin 12) (f : MChannel → MChannel) :
    (updMch s i f).mer.closeDue = s.mer.closeDue := rfl
@[simp] theorem updMch_mer_mail (s : State) (i : Fin 12) (f : MChannel → MChannel) :
    (updMch s i f).mer.mail = s.mer.mail := rfl
@[simp] theorem updMch_mer_held (s : State) (i : Fin 12) (f : MChannel → MChannel) :
    (updMch s i f).mer.held = s.mer.held := rfl
@[simp] theorem updMch_mer_fe_mod (s : State) (i : Fin 12) (f : MChannel → MChannel) :
    (updMch s i f).mer.fe.mod = s.mer.fe.mod := rfl
@[simp] theorem updMch_mer_fe_rotV (s : State) (i : Fin 12) (f : MChannel → MChannel) :
    (updMch s i f).mer.fe.rotV = s.mer.fe.rotV := rfl
@[simp] theorem updMch_mer_fe_rotI (s : State) (i : Fin 12) (f : MChannel → MChannel) :
    (updMch s i f).mer.fe.rotI = s.mer.fe.rotI := rfl
@[simp] theorem updMch_mer_fe_rtd (s : State) (i : Fin 12) (f : MChannel → MChannel) :
    (updMch s i f).mer.fe.rtd = s.mer.fe.rtd := rfl
@[simp] theorem updMch_mer_fe_tapCrc (s : State) (i : Fin 12) (f : MChannel → MChannel) :
    (updMch s i f).mer.fe.tapCrc = s.mer.fe.tapCrc := rfl
@[simp] theorem updMch_mer_fe_half (s : State) (i : Fin 12) (f : MChannel → MChannel) :
    (updMch s i f).mer.fe.half = s.mer.fe.half := rfl
@[simp] theorem updMch_mer_fe_refDiff (s : State) (i : Fin 12) (f : MChannel → MChannel) :
    (updMch s i f).mer.fe.refDiff = s.mer.fe.refDiff := rfl
@[simp] theorem updMch_mer_fe_refDrift (s : State) (i : Fin 12) (f : MChannel → MChannel) :
    (updMch s i f).mer.fe.refDrift = s.mer.fe.refDrift := rfl
@[simp] theorem updMch_mer_fe_ch (s : State) (i : Fin 12) (f : MChannel → MChannel) :
    (updMch s i f).mer.fe.ch = upd s.mer.fe.ch i f := rfl

@[simp] theorem updMod_variant (s : State) (i : Fin 20) (f : Modulator → Modulator) :
    (updMod s i f).variant = s.variant := rfl
@[simp] theorem updMod_mono (s : State) (i : Fin 20) (f : Modulator → Modulator) :
    (updMod s i f).mono = s.mono := rfl
@[simp] theorem updMod_free (s : State) (i : Fin 20) (f : Modulator → Modulator) :
    (updMod s i f).free = s.free := rfl
@[simp] theorem updMod_landfall (s : State) (i : Fin 20) (f : Modulator → Modulator) :
    (updMod s i f).landfall = s.landfall := rfl
@[simp] theorem updMod_chart (s : State) (i : Fin 20) (f : Modulator → Modulator) :
    (updMod s i f).chart = s.chart := rfl
@[simp] theorem updMod_cfg (s : State) (i : Fin 20) (f : Modulator → Modulator) :
    (updMod s i f).cfg = s.cfg := rfl
@[simp] theorem updMod_flash (s : State) (i : Fin 20) (f : Modulator → Modulator) :
    (updMod s i f).flash = s.flash := rfl
@[simp] theorem updMod_sx (s : State) (i : Fin 20) (f : Modulator → Modulator) :
    (updMod s i f).sx = s.sx := rfl
@[simp] theorem updMod_outlet (s : State) (i : Fin 20) (f : Modulator → Modulator) :
    (updMod s i f).outlet = s.outlet := rfl
@[simp] theorem updMod_cooling (s : State) (i : Fin 20) (f : Modulator → Modulator) :
    (updMod s i f).cooling = s.cooling := rfl
@[simp] theorem updMod_drive (s : State) (i : Fin 20) (f : Modulator → Modulator) :
    (updMod s i f).drive = s.drive := rfl
@[simp] theorem updMod_rdr (s : State) (i : Fin 20) (f : Modulator → Modulator) :
    (updMod s i f).rdr = s.rdr := rfl
@[simp] theorem updMod_com (s : State) (i : Fin 20) (f : Modulator → Modulator) :
    (updMod s i f).com = s.com := rfl
@[simp] theorem updMod_disp (s : State) (i : Fin 20) (f : Modulator → Modulator) :
    (updMod s i f).disp = s.disp := rfl
@[simp] theorem updMod_lk (s : State) (i : Fin 20) (f : Modulator → Modulator) :
    (updMod s i f).lk = s.lk := rfl
@[simp] theorem updMod_txl (s : State) (i : Fin 20) (f : Modulator → Modulator) :
    (updMod s i f).txl = s.txl := rfl
@[simp] theorem updMod_safe (s : State) (i : Fin 20) (f : Modulator → Modulator) :
    (updMod s i f).safe = s.safe := rfl
@[simp] theorem updMod_ll (s : State) (i : Fin 20) (f : Modulator → Modulator) :
    (updMod s i f).ll = s.ll := rfl
@[simp] theorem updMod_mgr (s : State) (i : Fin 20) (f : Modulator → Modulator) :
    (updMod s i f).mgr = s.mgr := rfl
@[simp] theorem updMod_wrk (s : State) (i : Fin 20) (f : Modulator → Modulator) :
    (updMod s i f).wrk = s.wrk := rfl
@[simp] theorem updMod_host (s : State) (i : Fin 20) (f : Modulator → Modulator) :
    (updMod s i f).host = s.host := rfl
@[simp] theorem updMod_locker (s : State) (i : Fin 20) (f : Modulator → Modulator) :
    (updMod s i f).locker = s.locker := rfl
@[simp] theorem updMod_fw (s : State) (i : Fin 20) (f : Modulator → Modulator) :
    (updMod s i f).fw = s.fw := rfl
@[simp] theorem updMod_tamper (s : State) (i : Fin 20) (f : Modulator → Modulator) :
    (updMod s i f).tamper = s.tamper := rfl
@[simp] theorem updMod_log (s : State) (i : Fin 20) (f : Modulator → Modulator) :
    (updMod s i f).log = s.log := rfl
@[simp] theorem updMod_flt (s : State) (i : Fin 20) (f : Modulator → Modulator) :
    (updMod s i f).flt = s.flt := rfl
@[simp] theorem updMod_pwr (s : State) (i : Fin 20) (f : Modulator → Modulator) :
    (updMod s i f).pwr = s.pwr := rfl
@[simp] theorem updMod_merStage (s : State) (i : Fin 20) (f : Modulator → Modulator) :
    (updMod s i f).merStage = s.merStage := rfl
@[simp] theorem updMod_pending (s : State) (i : Fin 20) (f : Modulator → Modulator) :
    (updMod s i f).pending = s.pending := rfl
@[simp] theorem updMod_mer_up (s : State) (i : Fin 20) (f : Modulator → Modulator) :
    (updMod s i f).mer.up = s.mer.up := rfl
@[simp] theorem updMod_mer_supplyFail (s : State) (i : Fin 20) (f : Modulator → Modulator) :
    (updMod s i f).mer.supplyFail = s.mer.supplyFail := rfl
@[simp] theorem updMod_mer_plainStop (s : State) (i : Fin 20) (f : Modulator → Modulator) :
    (updMod s i f).mer.plainStop = s.mer.plainStop := rfl
@[simp] theorem updMod_mer_leg (s : State) (i : Fin 20) (f : Modulator → Modulator) :
    (updMod s i f).mer.leg = s.mer.leg := rfl
@[simp] theorem updMod_mer_saved (s : State) (i : Fin 20) (f : Modulator → Modulator) :
    (updMod s i f).mer.saved = s.mer.saved := rfl
@[simp] theorem updMod_mer_legalSeq (s : State) (i : Fin 20) (f : Modulator → Modulator) :
    (updMod s i f).mer.legalSeq = s.mer.legalSeq := rfl
@[simp] theorem updMod_mer_regs (s : State) (i : Fin 20) (f : Modulator → Modulator) :
    (updMod s i f).mer.regs = s.mer.regs := rfl
@[simp] theorem updMod_mer_staged (s : State) (i : Fin 20) (f : Modulator → Modulator) :
    (updMod s i f).mer.staged = s.mer.staged := rfl
@[simp] theorem updMod_mer_stagedCnt (s : State) (i : Fin 20) (f : Modulator → Modulator) :
    (updMod s i f).mer.stagedCnt = s.mer.stagedCnt := rfl
@[simp] theorem updMod_mer_digest (s : State) (i : Fin 20) (f : Modulator → Modulator) :
    (updMod s i f).mer.digest = s.mer.digest := rfl
@[simp] theorem updMod_mer_lossEst (s : State) (i : Fin 20) (f : Modulator → Modulator) :
    (updMod s i f).mer.lossEst = s.mer.lossEst := rfl
@[simp] theorem updMod_mer_powers (s : State) (i : Fin 20) (f : Modulator → Modulator) :
    (updMod s i f).mer.powers = s.mer.powers := rfl
@[simp] theorem updMod_mer_pNow (s : State) (i : Fin 20) (f : Modulator → Modulator) :
    (updMod s i f).mer.pNow = s.mer.pNow := rfl
@[simp] theorem updMod_mer_chr (s : State) (i : Fin 20) (f : Modulator → Modulator) :
    (updMod s i f).mer.chr = s.mer.chr := rfl
@[simp] theorem updMod_mer_tar (s : State) (i : Fin 20) (f : Modulator → Modulator) :
    (updMod s i f).mer.tar = s.mer.tar := rfl
@[simp] theorem updMod_mer_stopNs (s : State) (i : Fin 20) (f : Modulator → Modulator) :
    (updMod s i f).mer.stopNs = s.mer.stopNs := rfl
@[simp] theorem updMod_mer_winItem (s : State) (i : Fin 20) (f : Modulator → Modulator) :
    (updMod s i f).mer.winItem = s.mer.winItem := rfl
@[simp] theorem updMod_mer_closeDue (s : State) (i : Fin 20) (f : Modulator → Modulator) :
    (updMod s i f).mer.closeDue = s.mer.closeDue := rfl
@[simp] theorem updMod_mer_mail (s : State) (i : Fin 20) (f : Modulator → Modulator) :
    (updMod s i f).mer.mail = s.mer.mail := rfl
@[simp] theorem updMod_mer_held (s : State) (i : Fin 20) (f : Modulator → Modulator) :
    (updMod s i f).mer.held = s.mer.held := rfl
@[simp] theorem updMod_mer_fe_ch (s : State) (i : Fin 20) (f : Modulator → Modulator) :
    (updMod s i f).mer.fe.ch = s.mer.fe.ch := rfl
@[simp] theorem updMod_mer_fe_rotV (s : State) (i : Fin 20) (f : Modulator → Modulator) :
    (updMod s i f).mer.fe.rotV = s.mer.fe.rotV := rfl
@[simp] theorem updMod_mer_fe_rotI (s : State) (i : Fin 20) (f : Modulator → Modulator) :
    (updMod s i f).mer.fe.rotI = s.mer.fe.rotI := rfl
@[simp] theorem updMod_mer_fe_rtd (s : State) (i : Fin 20) (f : Modulator → Modulator) :
    (updMod s i f).mer.fe.rtd = s.mer.fe.rtd := rfl
@[simp] theorem updMod_mer_fe_tapCrc (s : State) (i : Fin 20) (f : Modulator → Modulator) :
    (updMod s i f).mer.fe.tapCrc = s.mer.fe.tapCrc := rfl
@[simp] theorem updMod_mer_fe_half (s : State) (i : Fin 20) (f : Modulator → Modulator) :
    (updMod s i f).mer.fe.half = s.mer.fe.half := rfl
@[simp] theorem updMod_mer_fe_refDiff (s : State) (i : Fin 20) (f : Modulator → Modulator) :
    (updMod s i f).mer.fe.refDiff = s.mer.fe.refDiff := rfl
@[simp] theorem updMod_mer_fe_refDrift (s : State) (i : Fin 20) (f : Modulator → Modulator) :
    (updMod s i f).mer.fe.refDrift = s.mer.fe.refDrift := rfl
@[simp] theorem updMod_mer_fe_mod (s : State) (i : Fin 20) (f : Modulator → Modulator) :
    (updMod s i f).mer.fe.mod = upd s.mer.fe.mod i f := rfl

@[simp] theorem updLeg_variant (s : State) (f : LegalSet → LegalSet) :
    (updLeg s f).variant = s.variant := rfl
@[simp] theorem updLeg_mono (s : State) (f : LegalSet → LegalSet) :
    (updLeg s f).mono = s.mono := rfl
@[simp] theorem updLeg_free (s : State) (f : LegalSet → LegalSet) :
    (updLeg s f).free = s.free := rfl
@[simp] theorem updLeg_landfall (s : State) (f : LegalSet → LegalSet) :
    (updLeg s f).landfall = s.landfall := rfl
@[simp] theorem updLeg_chart (s : State) (f : LegalSet → LegalSet) :
    (updLeg s f).chart = s.chart := rfl
@[simp] theorem updLeg_cfg (s : State) (f : LegalSet → LegalSet) :
    (updLeg s f).cfg = s.cfg := rfl
@[simp] theorem updLeg_flash (s : State) (f : LegalSet → LegalSet) :
    (updLeg s f).flash = s.flash := rfl
@[simp] theorem updLeg_sx (s : State) (f : LegalSet → LegalSet) :
    (updLeg s f).sx = s.sx := rfl
@[simp] theorem updLeg_outlet (s : State) (f : LegalSet → LegalSet) :
    (updLeg s f).outlet = s.outlet := rfl
@[simp] theorem updLeg_cooling (s : State) (f : LegalSet → LegalSet) :
    (updLeg s f).cooling = s.cooling := rfl
@[simp] theorem updLeg_drive (s : State) (f : LegalSet → LegalSet) :
    (updLeg s f).drive = s.drive := rfl
@[simp] theorem updLeg_rdr (s : State) (f : LegalSet → LegalSet) :
    (updLeg s f).rdr = s.rdr := rfl
@[simp] theorem updLeg_com (s : State) (f : LegalSet → LegalSet) :
    (updLeg s f).com = s.com := rfl
@[simp] theorem updLeg_disp (s : State) (f : LegalSet → LegalSet) :
    (updLeg s f).disp = s.disp := rfl
@[simp] theorem updLeg_lk (s : State) (f : LegalSet → LegalSet) :
    (updLeg s f).lk = s.lk := rfl
@[simp] theorem updLeg_txl (s : State) (f : LegalSet → LegalSet) :
    (updLeg s f).txl = s.txl := rfl
@[simp] theorem updLeg_safe (s : State) (f : LegalSet → LegalSet) :
    (updLeg s f).safe = s.safe := rfl
@[simp] theorem updLeg_ll (s : State) (f : LegalSet → LegalSet) :
    (updLeg s f).ll = s.ll := rfl
@[simp] theorem updLeg_mgr (s : State) (f : LegalSet → LegalSet) :
    (updLeg s f).mgr = s.mgr := rfl
@[simp] theorem updLeg_wrk (s : State) (f : LegalSet → LegalSet) :
    (updLeg s f).wrk = s.wrk := rfl
@[simp] theorem updLeg_host (s : State) (f : LegalSet → LegalSet) :
    (updLeg s f).host = s.host := rfl
@[simp] theorem updLeg_locker (s : State) (f : LegalSet → LegalSet) :
    (updLeg s f).locker = s.locker := rfl
@[simp] theorem updLeg_fw (s : State) (f : LegalSet → LegalSet) :
    (updLeg s f).fw = s.fw := rfl
@[simp] theorem updLeg_tamper (s : State) (f : LegalSet → LegalSet) :
    (updLeg s f).tamper = s.tamper := rfl
@[simp] theorem updLeg_log (s : State) (f : LegalSet → LegalSet) :
    (updLeg s f).log = s.log := rfl
@[simp] theorem updLeg_flt (s : State) (f : LegalSet → LegalSet) :
    (updLeg s f).flt = s.flt := rfl
@[simp] theorem updLeg_pwr (s : State) (f : LegalSet → LegalSet) :
    (updLeg s f).pwr = s.pwr := rfl
@[simp] theorem updLeg_merStage (s : State) (f : LegalSet → LegalSet) :
    (updLeg s f).merStage = s.merStage := rfl
@[simp] theorem updLeg_pending (s : State) (f : LegalSet → LegalSet) :
    (updLeg s f).pending = s.pending := rfl
@[simp] theorem updLeg_mer_up (s : State) (f : LegalSet → LegalSet) :
    (updLeg s f).mer.up = s.mer.up := rfl
@[simp] theorem updLeg_mer_supplyFail (s : State) (f : LegalSet → LegalSet) :
    (updLeg s f).mer.supplyFail = s.mer.supplyFail := rfl
@[simp] theorem updLeg_mer_plainStop (s : State) (f : LegalSet → LegalSet) :
    (updLeg s f).mer.plainStop = s.mer.plainStop := rfl
@[simp] theorem updLeg_mer_fe (s : State) (f : LegalSet → LegalSet) :
    (updLeg s f).mer.fe = s.mer.fe := rfl
@[simp] theorem updLeg_mer_saved (s : State) (f : LegalSet → LegalSet) :
    (updLeg s f).mer.saved = s.mer.saved := rfl
@[simp] theorem updLeg_mer_legalSeq (s : State) (f : LegalSet → LegalSet) :
    (updLeg s f).mer.legalSeq = s.mer.legalSeq := rfl
@[simp] theorem updLeg_mer_regs (s : State) (f : LegalSet → LegalSet) :
    (updLeg s f).mer.regs = s.mer.regs := rfl
@[simp] theorem updLeg_mer_staged (s : State) (f : LegalSet → LegalSet) :
    (updLeg s f).mer.staged = s.mer.staged := rfl
@[simp] theorem updLeg_mer_stagedCnt (s : State) (f : LegalSet → LegalSet) :
    (updLeg s f).mer.stagedCnt = s.mer.stagedCnt := rfl
@[simp] theorem updLeg_mer_digest (s : State) (f : LegalSet → LegalSet) :
    (updLeg s f).mer.digest = s.mer.digest := rfl
@[simp] theorem updLeg_mer_lossEst (s : State) (f : LegalSet → LegalSet) :
    (updLeg s f).mer.lossEst = s.mer.lossEst := rfl
@[simp] theorem updLeg_mer_powers (s : State) (f : LegalSet → LegalSet) :
    (updLeg s f).mer.powers = s.mer.powers := rfl
@[simp] theorem updLeg_mer_pNow (s : State) (f : LegalSet → LegalSet) :
    (updLeg s f).mer.pNow = s.mer.pNow := rfl
@[simp] theorem updLeg_mer_chr (s : State) (f : LegalSet → LegalSet) :
    (updLeg s f).mer.chr = s.mer.chr := rfl
@[simp] theorem updLeg_mer_tar (s : State) (f : LegalSet → LegalSet) :
    (updLeg s f).mer.tar = s.mer.tar := rfl
@[simp] theorem updLeg_mer_stopNs (s : State) (f : LegalSet → LegalSet) :
    (updLeg s f).mer.stopNs = s.mer.stopNs := rfl
@[simp] theorem updLeg_mer_winItem (s : State) (f : LegalSet → LegalSet) :
    (updLeg s f).mer.winItem = s.mer.winItem := rfl
@[simp] theorem updLeg_mer_closeDue (s : State) (f : LegalSet → LegalSet) :
    (updLeg s f).mer.closeDue = s.mer.closeDue := rfl
@[simp] theorem updLeg_mer_mail (s : State) (f : LegalSet → LegalSet) :
    (updLeg s f).mer.mail = s.mer.mail := rfl
@[simp] theorem updLeg_mer_held (s : State) (f : LegalSet → LegalSet) :
    (updLeg s f).mer.held = s.mer.held := rfl
@[simp] theorem updLeg_mer_leg (s : State) (f : LegalSet → LegalSet) :
    (updLeg s f).mer.leg = f s.mer.leg := rfl

@[simp] theorem updSi_variant (s : State) (i : Fin 16) (f : SafeIn → SafeIn) :
    (updSi s i f).variant = s.variant := rfl
@[simp] theorem updSi_mono (s : State) (i : Fin 16) (f : SafeIn → SafeIn) :
    (updSi s i f).mono = s.mono := rfl
@[simp] theorem updSi_free (s : State) (i : Fin 16) (f : SafeIn → SafeIn) :
    (updSi s i f).free = s.free := rfl
@[simp] theorem updSi_landfall (s : State) (i : Fin 16) (f : SafeIn → SafeIn) :
    (updSi s i f).landfall = s.landfall := rfl
@[simp] theorem updSi_chart (s : State) (i : Fin 16) (f : SafeIn → SafeIn) :
    (updSi s i f).chart = s.chart := rfl
@[simp] theorem updSi_cfg (s : State) (i : Fin 16) (f : SafeIn → SafeIn) :
    (updSi s i f).cfg = s.cfg := rfl
@[simp] theorem updSi_flash (s : State) (i : Fin 16) (f : SafeIn → SafeIn) :
    (updSi s i f).flash = s.flash := rfl
@[simp] theorem updSi_sx (s : State) (i : Fin 16) (f : SafeIn → SafeIn) :
    (updSi s i f).sx = s.sx := rfl
@[simp] theorem updSi_outlet (s : State) (i : Fin 16) (f : SafeIn → SafeIn) :
    (updSi s i f).outlet = s.outlet := rfl
@[simp] theorem updSi_cooling (s : State) (i : Fin 16) (f : SafeIn → SafeIn) :
    (updSi s i f).cooling = s.cooling := rfl
@[simp] theorem updSi_drive (s : State) (i : Fin 16) (f : SafeIn → SafeIn) :
    (updSi s i f).drive = s.drive := rfl
@[simp] theorem updSi_rdr (s : State) (i : Fin 16) (f : SafeIn → SafeIn) :
    (updSi s i f).rdr = s.rdr := rfl
@[simp] theorem updSi_mer (s : State) (i : Fin 16) (f : SafeIn → SafeIn) :
    (updSi s i f).mer = s.mer := rfl
@[simp] theorem updSi_com (s : State) (i : Fin 16) (f : SafeIn → SafeIn) :
    (updSi s i f).com = s.com := rfl
@[simp] theorem updSi_disp (s : State) (i : Fin 16) (f : SafeIn → SafeIn) :
    (updSi s i f).disp = s.disp := rfl
@[simp] theorem updSi_txl (s : State) (i : Fin 16) (f : SafeIn → SafeIn) :
    (updSi s i f).txl = s.txl := rfl
@[simp] theorem updSi_safe (s : State) (i : Fin 16) (f : SafeIn → SafeIn) :
    (updSi s i f).safe = s.safe := rfl
@[simp] theorem updSi_ll (s : State) (i : Fin 16) (f : SafeIn → SafeIn) :
    (updSi s i f).ll = s.ll := rfl
@[simp] theorem updSi_mgr (s : State) (i : Fin 16) (f : SafeIn → SafeIn) :
    (updSi s i f).mgr = s.mgr := rfl
@[simp] theorem updSi_wrk (s : State) (i : Fin 16) (f : SafeIn → SafeIn) :
    (updSi s i f).wrk = s.wrk := rfl
@[simp] theorem updSi_host (s : State) (i : Fin 16) (f : SafeIn → SafeIn) :
    (updSi s i f).host = s.host := rfl
@[simp] theorem updSi_locker (s : State) (i : Fin 16) (f : SafeIn → SafeIn) :
    (updSi s i f).locker = s.locker := rfl
@[simp] theorem updSi_fw (s : State) (i : Fin 16) (f : SafeIn → SafeIn) :
    (updSi s i f).fw = s.fw := rfl
@[simp] theorem updSi_tamper (s : State) (i : Fin 16) (f : SafeIn → SafeIn) :
    (updSi s i f).tamper = s.tamper := rfl
@[simp] theorem updSi_log (s : State) (i : Fin 16) (f : SafeIn → SafeIn) :
    (updSi s i f).log = s.log := rfl
@[simp] theorem updSi_flt (s : State) (i : Fin 16) (f : SafeIn → SafeIn) :
    (updSi s i f).flt = s.flt := rfl
@[simp] theorem updSi_pwr (s : State) (i : Fin 16) (f : SafeIn → SafeIn) :
    (updSi s i f).pwr = s.pwr := rfl
@[simp] theorem updSi_merStage (s : State) (i : Fin 16) (f : SafeIn → SafeIn) :
    (updSi s i f).merStage = s.merStage := rfl
@[simp] theorem updSi_pending (s : State) (i : Fin 16) (f : SafeIn → SafeIn) :
    (updSi s i f).pending = s.pending := rfl
@[simp] theorem updSi_lk_runA (s : State) (i : Fin 16) (f : SafeIn → SafeIn) :
    (updSi s i f).lk.runA = s.lk.runA := rfl
@[simp] theorem updSi_lk_runB (s : State) (i : Fin 16) (f : SafeIn → SafeIn) :
    (updSi s i f).lk.runB = s.lk.runB := rfl
@[simp] theorem updSi_lk_agreed (s : State) (i : Fin 16) (f : SafeIn → SafeIn) :
    (updSi s i f).lk.agreed = s.lk.agreed := rfl
@[simp] theorem updSi_lk_restarting (s : State) (i : Fin 16) (f : SafeIn → SafeIn) :
    (updSi s i f).lk.restarting = s.lk.restarting := rfl
@[simp] theorem updSi_lk_xcmp (s : State) (i : Fin 16) (f : SafeIn → SafeIn) :
    (updSi s i f).lk.xcmp = s.lk.xcmp := rfl
@[simp] theorem updSi_lk_inputDiff (s : State) (i : Fin 16) (f : SafeIn → SafeIn) :
    (updSi s i f).lk.inputDiff = s.lk.inputDiff := rfl
@[simp] theorem updSi_lk_tpAt (s : State) (i : Fin 16) (f : SafeIn → SafeIn) :
    (updSi s i f).lk.tpAt = s.lk.tpAt := rfl
@[simp] theorem updSi_lk_press (s : State) (i : Fin 16) (f : SafeIn → SafeIn) :
    (updSi s i f).lk.press = s.lk.press := rfl
@[simp] theorem updSi_lk_inj (s : State) (i : Fin 16) (f : SafeIn → SafeIn) :
    (updSi s i f).lk.inj = s.lk.inj := rfl
@[simp] theorem updSi_lk_so (s : State) (i : Fin 16) (f : SafeIn → SafeIn) :
    (updSi s i f).lk.so = s.lk.so := rfl
@[simp] theorem updSi_lk_outlet (s : State) (i : Fin 16) (f : SafeIn → SafeIn) :
    (updSi s i f).lk.outlet = s.lk.outlet := rfl
@[simp] theorem updSi_lk_sf1 (s : State) (i : Fin 16) (f : SafeIn → SafeIn) :
    (updSi s i f).lk.sf1 = s.lk.sf1 := rfl
@[simp] theorem updSi_lk_sf9 (s : State) (i : Fin 16) (f : SafeIn → SafeIn) :
    (updSi s i f).lk.sf9 = s.lk.sf9 := rfl
@[simp] theorem updSi_lk_sf7 (s : State) (i : Fin 16) (f : SafeIn → SafeIn) :
    (updSi s i f).lk.sf7 = s.lk.sf7 := rfl
@[simp] theorem updSi_lk_gpA (s : State) (i : Fin 16) (f : SafeIn → SafeIn) :
    (updSi s i f).lk.gpA = s.lk.gpA := rfl
@[simp] theorem updSi_lk_gpB (s : State) (i : Fin 16) (f : SafeIn → SafeIn) :
    (updSi s i f).lk.gpB = s.lk.gpB := rfl
@[simp] theorem updSi_lk_kind3 (s : State) (i : Fin 16) (f : SafeIn → SafeIn) :
    (updSi s i f).lk.kind3 = s.lk.kind3 := rfl
@[simp] theorem updSi_lk_kind4 (s : State) (i : Fin 16) (f : SafeIn → SafeIn) :
    (updSi s i f).lk.kind4 = s.lk.kind4 := rfl
@[simp] theorem updSi_lk_checkA (s : State) (i : Fin 16) (f : SafeIn → SafeIn) :
    (updSi s i f).lk.checkA = s.lk.checkA := rfl
@[simp] theorem updSi_lk_checkB (s : State) (i : Fin 16) (f : SafeIn → SafeIn) :
    (updSi s i f).lk.checkB = s.lk.checkB := rfl
@[simp] theorem updSi_lk_confA (s : State) (i : Fin 16) (f : SafeIn → SafeIn) :
    (updSi s i f).lk.confA = s.lk.confA := rfl
@[simp] theorem updSi_lk_confB (s : State) (i : Fin 16) (f : SafeIn → SafeIn) :
    (updSi s i f).lk.confB = s.lk.confB := rfl
@[simp] theorem updSi_lk_landfallDone (s : State) (i : Fin 16) (f : SafeIn → SafeIn) :
    (updSi s i f).lk.landfallDone = s.lk.landfallDone := rfl
@[simp] theorem updSi_lk_xcmpCnt (s : State) (i : Fin 16) (f : SafeIn → SafeIn) :
    (updSi s i f).lk.xcmpCnt = s.lk.xcmpCnt := rfl
@[simp] theorem updSi_lk_restartCnt (s : State) (i : Fin 16) (f : SafeIn → SafeIn) :
    (updSi s i f).lk.restartCnt = s.lk.restartCnt := rfl
@[simp] theorem updSi_lk_si (s : State) (i : Fin 16) (f : SafeIn → SafeIn) :
    (updSi s i f).lk.si = upd s.lk.si i f := rfl

@[simp] theorem updSo_variant (s : State) (i : Fin 8) (f : SafeOut → SafeOut) :
    (updSo s i f).variant = s.variant := rfl
@[simp] theorem updSo_mono (s : State) (i : Fin 8) (f : SafeOut → SafeOut) :
    (updSo s i f).mono = s.mono := rfl
@[simp] theorem updSo_free (s : State) (i : Fin 8) (f : SafeOut → SafeOut) :
    (updSo s i f).free = s.free := rfl
@[simp] theorem updSo_landfall (s : State) (i : Fin 8) (f : SafeOut → SafeOut) :
    (updSo s i f).landfall = s.landfall := rfl
@[simp] theorem updSo_chart (s : State) (i : Fin 8) (f : SafeOut → SafeOut) :
    (updSo s i f).chart = s.chart := rfl
@[simp] theorem updSo_cfg (s : State) (i : Fin 8) (f : SafeOut → SafeOut) :
    (updSo s i f).cfg = s.cfg := rfl
@[simp] theorem updSo_flash (s : State) (i : Fin 8) (f : SafeOut → SafeOut) :
    (updSo s i f).flash = s.flash := rfl
@[simp] theorem updSo_sx (s : State) (i : Fin 8) (f : SafeOut → SafeOut) :
    (updSo s i f).sx = s.sx := rfl
@[simp] theorem updSo_outlet (s : State) (i : Fin 8) (f : SafeOut → SafeOut) :
    (updSo s i f).outlet = s.outlet := rfl
@[simp] theorem updSo_cooling (s : State) (i : Fin 8) (f : SafeOut → SafeOut) :
    (updSo s i f).cooling = s.cooling := rfl
@[simp] theorem updSo_drive (s : State) (i : Fin 8) (f : SafeOut → SafeOut) :
    (updSo s i f).drive = s.drive := rfl
@[simp] theorem updSo_rdr (s : State) (i : Fin 8) (f : SafeOut → SafeOut) :
    (updSo s i f).rdr = s.rdr := rfl
@[simp] theorem updSo_mer (s : State) (i : Fin 8) (f : SafeOut → SafeOut) :
    (updSo s i f).mer = s.mer := rfl
@[simp] theorem updSo_com (s : State) (i : Fin 8) (f : SafeOut → SafeOut) :
    (updSo s i f).com = s.com := rfl
@[simp] theorem updSo_disp (s : State) (i : Fin 8) (f : SafeOut → SafeOut) :
    (updSo s i f).disp = s.disp := rfl
@[simp] theorem updSo_txl (s : State) (i : Fin 8) (f : SafeOut → SafeOut) :
    (updSo s i f).txl = s.txl := rfl
@[simp] theorem updSo_safe (s : State) (i : Fin 8) (f : SafeOut → SafeOut) :
    (updSo s i f).safe = s.safe := rfl
@[simp] theorem updSo_ll (s : State) (i : Fin 8) (f : SafeOut → SafeOut) :
    (updSo s i f).ll = s.ll := rfl
@[simp] theorem updSo_mgr (s : State) (i : Fin 8) (f : SafeOut → SafeOut) :
    (updSo s i f).mgr = s.mgr := rfl
@[simp] theorem updSo_wrk (s : State) (i : Fin 8) (f : SafeOut → SafeOut) :
    (updSo s i f).wrk = s.wrk := rfl
@[simp] theorem updSo_host (s : State) (i : Fin 8) (f : SafeOut → SafeOut) :
    (updSo s i f).host = s.host := rfl
@[simp] theorem updSo_locker (s : State) (i : Fin 8) (f : SafeOut → SafeOut) :
    (updSo s i f).locker = s.locker := rfl
@[simp] theorem updSo_fw (s : State) (i : Fin 8) (f : SafeOut → SafeOut) :
    (updSo s i f).fw = s.fw := rfl
@[simp] theorem updSo_tamper (s : State) (i : Fin 8) (f : SafeOut → SafeOut) :
    (updSo s i f).tamper = s.tamper := rfl
@[simp] theorem updSo_log (s : State) (i : Fin 8) (f : SafeOut → SafeOut) :
    (updSo s i f).log = s.log := rfl
@[simp] theorem updSo_flt (s : State) (i : Fin 8) (f : SafeOut → SafeOut) :
    (updSo s i f).flt = s.flt := rfl
@[simp] theorem updSo_pwr (s : State) (i : Fin 8) (f : SafeOut → SafeOut) :
    (updSo s i f).pwr = s.pwr := rfl
@[simp] theorem updSo_merStage (s : State) (i : Fin 8) (f : SafeOut → SafeOut) :
    (updSo s i f).merStage = s.merStage := rfl
@[simp] theorem updSo_pending (s : State) (i : Fin 8) (f : SafeOut → SafeOut) :
    (updSo s i f).pending = s.pending := rfl
@[simp] theorem updSo_lk_runA (s : State) (i : Fin 8) (f : SafeOut → SafeOut) :
    (updSo s i f).lk.runA = s.lk.runA := rfl
@[simp] theorem updSo_lk_runB (s : State) (i : Fin 8) (f : SafeOut → SafeOut) :
    (updSo s i f).lk.runB = s.lk.runB := rfl
@[simp] theorem updSo_lk_agreed (s : State) (i : Fin 8) (f : SafeOut → SafeOut) :
    (updSo s i f).lk.agreed = s.lk.agreed := rfl
@[simp] theorem updSo_lk_restarting (s : State) (i : Fin 8) (f : SafeOut → SafeOut) :
    (updSo s i f).lk.restarting = s.lk.restarting := rfl
@[simp] theorem updSo_lk_xcmp (s : State) (i : Fin 8) (f : SafeOut → SafeOut) :
    (updSo s i f).lk.xcmp = s.lk.xcmp := rfl
@[simp] theorem updSo_lk_inputDiff (s : State) (i : Fin 8) (f : SafeOut → SafeOut) :
    (updSo s i f).lk.inputDiff = s.lk.inputDiff := rfl
@[simp] theorem updSo_lk_tpAt (s : State) (i : Fin 8) (f : SafeOut → SafeOut) :
    (updSo s i f).lk.tpAt = s.lk.tpAt := rfl
@[simp] theorem updSo_lk_press (s : State) (i : Fin 8) (f : SafeOut → SafeOut) :
    (updSo s i f).lk.press = s.lk.press := rfl
@[simp] theorem updSo_lk_inj (s : State) (i : Fin 8) (f : SafeOut → SafeOut) :
    (updSo s i f).lk.inj = s.lk.inj := rfl
@[simp] theorem updSo_lk_si (s : State) (i : Fin 8) (f : SafeOut → SafeOut) :
    (updSo s i f).lk.si = s.lk.si := rfl
@[simp] theorem updSo_lk_outlet (s : State) (i : Fin 8) (f : SafeOut → SafeOut) :
    (updSo s i f).lk.outlet = s.lk.outlet := rfl
@[simp] theorem updSo_lk_sf1 (s : State) (i : Fin 8) (f : SafeOut → SafeOut) :
    (updSo s i f).lk.sf1 = s.lk.sf1 := rfl
@[simp] theorem updSo_lk_sf9 (s : State) (i : Fin 8) (f : SafeOut → SafeOut) :
    (updSo s i f).lk.sf9 = s.lk.sf9 := rfl
@[simp] theorem updSo_lk_sf7 (s : State) (i : Fin 8) (f : SafeOut → SafeOut) :
    (updSo s i f).lk.sf7 = s.lk.sf7 := rfl
@[simp] theorem updSo_lk_gpA (s : State) (i : Fin 8) (f : SafeOut → SafeOut) :
    (updSo s i f).lk.gpA = s.lk.gpA := rfl
@[simp] theorem updSo_lk_gpB (s : State) (i : Fin 8) (f : SafeOut → SafeOut) :
    (updSo s i f).lk.gpB = s.lk.gpB := rfl
@[simp] theorem updSo_lk_kind3 (s : State) (i : Fin 8) (f : SafeOut → SafeOut) :
    (updSo s i f).lk.kind3 = s.lk.kind3 := rfl
@[simp] theorem updSo_lk_kind4 (s : State) (i : Fin 8) (f : SafeOut → SafeOut) :
    (updSo s i f).lk.kind4 = s.lk.kind4 := rfl
@[simp] theorem updSo_lk_checkA (s : State) (i : Fin 8) (f : SafeOut → SafeOut) :
    (updSo s i f).lk.checkA = s.lk.checkA := rfl
@[simp] theorem updSo_lk_checkB (s : State) (i : Fin 8) (f : SafeOut → SafeOut) :
    (updSo s i f).lk.checkB = s.lk.checkB := rfl
@[simp] theorem updSo_lk_confA (s : State) (i : Fin 8) (f : SafeOut → SafeOut) :
    (updSo s i f).lk.confA = s.lk.confA := rfl
@[simp] theorem updSo_lk_confB (s : State) (i : Fin 8) (f : SafeOut → SafeOut) :
    (updSo s i f).lk.confB = s.lk.confB := rfl
@[simp] theorem updSo_lk_landfallDone (s : State) (i : Fin 8) (f : SafeOut → SafeOut) :
    (updSo s i f).lk.landfallDone = s.lk.landfallDone := rfl
@[simp] theorem updSo_lk_xcmpCnt (s : State) (i : Fin 8) (f : SafeOut → SafeOut) :
    (updSo s i f).lk.xcmpCnt = s.lk.xcmpCnt := rfl
@[simp] theorem updSo_lk_restartCnt (s : State) (i : Fin 8) (f : SafeOut → SafeOut) :
    (updSo s i f).lk.restartCnt = s.lk.restartCnt := rfl
@[simp] theorem updSo_lk_so (s : State) (i : Fin 8) (f : SafeOut → SafeOut) :
    (updSo s i f).lk.so = upd s.lk.so i f := rfl

@[simp] theorem updLko_variant (s : State) (i : Fin 2) (f : LkOutlet → LkOutlet) :
    (updLko s i f).variant = s.variant := rfl
@[simp] theorem updLko_mono (s : State) (i : Fin 2) (f : LkOutlet → LkOutlet) :
    (updLko s i f).mono = s.mono := rfl
@[simp] theorem updLko_free (s : State) (i : Fin 2) (f : LkOutlet → LkOutlet) :
    (updLko s i f).free = s.free := rfl
@[simp] theorem updLko_landfall (s : State) (i : Fin 2) (f : LkOutlet → LkOutlet) :
    (updLko s i f).landfall = s.landfall := rfl
@[simp] theorem updLko_chart (s : State) (i : Fin 2) (f : LkOutlet → LkOutlet) :
    (updLko s i f).chart = s.chart := rfl
@[simp] theorem updLko_cfg (s : State) (i : Fin 2) (f : LkOutlet → LkOutlet) :
    (updLko s i f).cfg = s.cfg := rfl
@[simp] theorem updLko_flash (s : State) (i : Fin 2) (f : LkOutlet → LkOutlet) :
    (updLko s i f).flash = s.flash := rfl
@[simp] theorem updLko_sx (s : State) (i : Fin 2) (f : LkOutlet → LkOutlet) :
    (updLko s i f).sx = s.sx := rfl
@[simp] theorem updLko_outlet (s : State) (i : Fin 2) (f : LkOutlet → LkOutlet) :
    (updLko s i f).outlet = s.outlet := rfl
@[simp] theorem updLko_cooling (s : State) (i : Fin 2) (f : LkOutlet → LkOutlet) :
    (updLko s i f).cooling = s.cooling := rfl
@[simp] theorem updLko_drive (s : State) (i : Fin 2) (f : LkOutlet → LkOutlet) :
    (updLko s i f).drive = s.drive := rfl
@[simp] theorem updLko_rdr (s : State) (i : Fin 2) (f : LkOutlet → LkOutlet) :
    (updLko s i f).rdr = s.rdr := rfl
@[simp] theorem updLko_mer (s : State) (i : Fin 2) (f : LkOutlet → LkOutlet) :
    (updLko s i f).mer = s.mer := rfl
@[simp] theorem updLko_com (s : State) (i : Fin 2) (f : LkOutlet → LkOutlet) :
    (updLko s i f).com = s.com := rfl
@[simp] theorem updLko_disp (s : State) (i : Fin 2) (f : LkOutlet → LkOutlet) :
    (updLko s i f).disp = s.disp := rfl
@[simp] theorem updLko_txl (s : State) (i : Fin 2) (f : LkOutlet → LkOutlet) :
    (updLko s i f).txl = s.txl := rfl
@[simp] theorem updLko_safe (s : State) (i : Fin 2) (f : LkOutlet → LkOutlet) :
    (updLko s i f).safe = s.safe := rfl
@[simp] theorem updLko_ll (s : State) (i : Fin 2) (f : LkOutlet → LkOutlet) :
    (updLko s i f).ll = s.ll := rfl
@[simp] theorem updLko_mgr (s : State) (i : Fin 2) (f : LkOutlet → LkOutlet) :
    (updLko s i f).mgr = s.mgr := rfl
@[simp] theorem updLko_wrk (s : State) (i : Fin 2) (f : LkOutlet → LkOutlet) :
    (updLko s i f).wrk = s.wrk := rfl
@[simp] theorem updLko_host (s : State) (i : Fin 2) (f : LkOutlet → LkOutlet) :
    (updLko s i f).host = s.host := rfl
@[simp] theorem updLko_locker (s : State) (i : Fin 2) (f : LkOutlet → LkOutlet) :
    (updLko s i f).locker = s.locker := rfl
@[simp] theorem updLko_fw (s : State) (i : Fin 2) (f : LkOutlet → LkOutlet) :
    (updLko s i f).fw = s.fw := rfl
@[simp] theorem updLko_tamper (s : State) (i : Fin 2) (f : LkOutlet → LkOutlet) :
    (updLko s i f).tamper = s.tamper := rfl
@[simp] theorem updLko_log (s : State) (i : Fin 2) (f : LkOutlet → LkOutlet) :
    (updLko s i f).log = s.log := rfl
@[simp] theorem updLko_flt (s : State) (i : Fin 2) (f : LkOutlet → LkOutlet) :
    (updLko s i f).flt = s.flt := rfl
@[simp] theorem updLko_pwr (s : State) (i : Fin 2) (f : LkOutlet → LkOutlet) :
    (updLko s i f).pwr = s.pwr := rfl
@[simp] theorem updLko_merStage (s : State) (i : Fin 2) (f : LkOutlet → LkOutlet) :
    (updLko s i f).merStage = s.merStage := rfl
@[simp] theorem updLko_pending (s : State) (i : Fin 2) (f : LkOutlet → LkOutlet) :
    (updLko s i f).pending = s.pending := rfl
@[simp] theorem updLko_lk_runA (s : State) (i : Fin 2) (f : LkOutlet → LkOutlet) :
    (updLko s i f).lk.runA = s.lk.runA := rfl
@[simp] theorem updLko_lk_runB (s : State) (i : Fin 2) (f : LkOutlet → LkOutlet) :
    (updLko s i f).lk.runB = s.lk.runB := rfl
@[simp] theorem updLko_lk_agreed (s : State) (i : Fin 2) (f : LkOutlet → LkOutlet) :
    (updLko s i f).lk.agreed = s.lk.agreed := rfl
@[simp] theorem updLko_lk_restarting (s : State) (i : Fin 2) (f : LkOutlet → LkOutlet) :
    (updLko s i f).lk.restarting = s.lk.restarting := rfl
@[simp] theorem updLko_lk_xcmp (s : State) (i : Fin 2) (f : LkOutlet → LkOutlet) :
    (updLko s i f).lk.xcmp = s.lk.xcmp := rfl
@[simp] theorem updLko_lk_inputDiff (s : State) (i : Fin 2) (f : LkOutlet → LkOutlet) :
    (updLko s i f).lk.inputDiff = s.lk.inputDiff := rfl
@[simp] theorem updLko_lk_tpAt (s : State) (i : Fin 2) (f : LkOutlet → LkOutlet) :
    (updLko s i f).lk.tpAt = s.lk.tpAt := rfl
@[simp] theorem updLko_lk_press (s : State) (i : Fin 2) (f : LkOutlet → LkOutlet) :
    (updLko s i f).lk.press = s.lk.press := rfl
@[simp] theorem updLko_lk_inj (s : State) (i : Fin 2) (f : LkOutlet → LkOutlet) :
    (updLko s i f).lk.inj = s.lk.inj := rfl
@[simp] theorem updLko_lk_si (s : State) (i : Fin 2) (f : LkOutlet → LkOutlet) :
    (updLko s i f).lk.si = s.lk.si := rfl
@[simp] theorem updLko_lk_so (s : State) (i : Fin 2) (f : LkOutlet → LkOutlet) :
    (updLko s i f).lk.so = s.lk.so := rfl
@[simp] theorem updLko_lk_sf1 (s : State) (i : Fin 2) (f : LkOutlet → LkOutlet) :
    (updLko s i f).lk.sf1 = s.lk.sf1 := rfl
@[simp] theorem updLko_lk_sf9 (s : State) (i : Fin 2) (f : LkOutlet → LkOutlet) :
    (updLko s i f).lk.sf9 = s.lk.sf9 := rfl
@[simp] theorem updLko_lk_sf7 (s : State) (i : Fin 2) (f : LkOutlet → LkOutlet) :
    (updLko s i f).lk.sf7 = s.lk.sf7 := rfl
@[simp] theorem updLko_lk_gpA (s : State) (i : Fin 2) (f : LkOutlet → LkOutlet) :
    (updLko s i f).lk.gpA = s.lk.gpA := rfl
@[simp] theorem updLko_lk_gpB (s : State) (i : Fin 2) (f : LkOutlet → LkOutlet) :
    (updLko s i f).lk.gpB = s.lk.gpB := rfl
@[simp] theorem updLko_lk_kind3 (s : State) (i : Fin 2) (f : LkOutlet → LkOutlet) :
    (updLko s i f).lk.kind3 = s.lk.kind3 := rfl
@[simp] theorem updLko_lk_kind4 (s : State) (i : Fin 2) (f : LkOutlet → LkOutlet) :
    (updLko s i f).lk.kind4 = s.lk.kind4 := rfl
@[simp] theorem updLko_lk_checkA (s : State) (i : Fin 2) (f : LkOutlet → LkOutlet) :
    (updLko s i f).lk.checkA = s.lk.checkA := rfl
@[simp] theorem updLko_lk_checkB (s : State) (i : Fin 2) (f : LkOutlet → LkOutlet) :
    (updLko s i f).lk.checkB = s.lk.checkB := rfl
@[simp] theorem updLko_lk_confA (s : State) (i : Fin 2) (f : LkOutlet → LkOutlet) :
    (updLko s i f).lk.confA = s.lk.confA := rfl
@[simp] theorem updLko_lk_confB (s : State) (i : Fin 2) (f : LkOutlet → LkOutlet) :
    (updLko s i f).lk.confB = s.lk.confB := rfl
@[simp] theorem updLko_lk_landfallDone (s : State) (i : Fin 2) (f : LkOutlet → LkOutlet) :
    (updLko s i f).lk.landfallDone = s.lk.landfallDone := rfl
@[simp] theorem updLko_lk_xcmpCnt (s : State) (i : Fin 2) (f : LkOutlet → LkOutlet) :
    (updLko s i f).lk.xcmpCnt = s.lk.xcmpCnt := rfl
@[simp] theorem updLko_lk_restartCnt (s : State) (i : Fin 2) (f : LkOutlet → LkOutlet) :
    (updLko s i f).lk.restartCnt = s.lk.restartCnt := rfl
@[simp] theorem updLko_lk_outlet (s : State) (i : Fin 2) (f : LkOutlet → LkOutlet) :
    (updLko s i f).lk.outlet = upd s.lk.outlet i f := rfl

@[simp] theorem updSlot_variant (s : State) (i : Fin 128) (f : Slot → Slot) :
    (updSlot s i f).variant = s.variant := rfl
@[simp] theorem updSlot_mono (s : State) (i : Fin 128) (f : Slot → Slot) :
    (updSlot s i f).mono = s.mono := rfl
@[simp] theorem updSlot_free (s : State) (i : Fin 128) (f : Slot → Slot) :
    (updSlot s i f).free = s.free := rfl
@[simp] theorem updSlot_landfall (s : State) (i : Fin 128) (f : Slot → Slot) :
    (updSlot s i f).landfall = s.landfall := rfl
@[simp] theorem updSlot_chart (s : State) (i : Fin 128) (f : Slot → Slot) :
    (updSlot s i f).chart = s.chart := rfl
@[simp] theorem updSlot_cfg (s : State) (i : Fin 128) (f : Slot → Slot) :
    (updSlot s i f).cfg = s.cfg := rfl
@[simp] theorem updSlot_flash (s : State) (i : Fin 128) (f : Slot → Slot) :
    (updSlot s i f).flash = s.flash := rfl
@[simp] theorem updSlot_sx (s : State) (i : Fin 128) (f : Slot → Slot) :
    (updSlot s i f).sx = s.sx := rfl
@[simp] theorem updSlot_outlet (s : State) (i : Fin 128) (f : Slot → Slot) :
    (updSlot s i f).outlet = s.outlet := rfl
@[simp] theorem updSlot_cooling (s : State) (i : Fin 128) (f : Slot → Slot) :
    (updSlot s i f).cooling = s.cooling := rfl
@[simp] theorem updSlot_drive (s : State) (i : Fin 128) (f : Slot → Slot) :
    (updSlot s i f).drive = s.drive := rfl
@[simp] theorem updSlot_rdr (s : State) (i : Fin 128) (f : Slot → Slot) :
    (updSlot s i f).rdr = s.rdr := rfl
@[simp] theorem updSlot_mer (s : State) (i : Fin 128) (f : Slot → Slot) :
    (updSlot s i f).mer = s.mer := rfl
@[simp] theorem updSlot_com (s : State) (i : Fin 128) (f : Slot → Slot) :
    (updSlot s i f).com = s.com := rfl
@[simp] theorem updSlot_disp (s : State) (i : Fin 128) (f : Slot → Slot) :
    (updSlot s i f).disp = s.disp := rfl
@[simp] theorem updSlot_lk (s : State) (i : Fin 128) (f : Slot → Slot) :
    (updSlot s i f).lk = s.lk := rfl
@[simp] theorem updSlot_txl (s : State) (i : Fin 128) (f : Slot → Slot) :
    (updSlot s i f).txl = s.txl := rfl
@[simp] theorem updSlot_safe (s : State) (i : Fin 128) (f : Slot → Slot) :
    (updSlot s i f).safe = s.safe := rfl
@[simp] theorem updSlot_ll (s : State) (i : Fin 128) (f : Slot → Slot) :
    (updSlot s i f).ll = s.ll := rfl
@[simp] theorem updSlot_mgr (s : State) (i : Fin 128) (f : Slot → Slot) :
    (updSlot s i f).mgr = s.mgr := rfl
@[simp] theorem updSlot_wrk (s : State) (i : Fin 128) (f : Slot → Slot) :
    (updSlot s i f).wrk = s.wrk := rfl
@[simp] theorem updSlot_host (s : State) (i : Fin 128) (f : Slot → Slot) :
    (updSlot s i f).host = s.host := rfl
@[simp] theorem updSlot_fw (s : State) (i : Fin 128) (f : Slot → Slot) :
    (updSlot s i f).fw = s.fw := rfl
@[simp] theorem updSlot_tamper (s : State) (i : Fin 128) (f : Slot → Slot) :
    (updSlot s i f).tamper = s.tamper := rfl
@[simp] theorem updSlot_log (s : State) (i : Fin 128) (f : Slot → Slot) :
    (updSlot s i f).log = s.log := rfl
@[simp] theorem updSlot_flt (s : State) (i : Fin 128) (f : Slot → Slot) :
    (updSlot s i f).flt = s.flt := rfl
@[simp] theorem updSlot_pwr (s : State) (i : Fin 128) (f : Slot → Slot) :
    (updSlot s i f).pwr = s.pwr := rfl
@[simp] theorem updSlot_merStage (s : State) (i : Fin 128) (f : Slot → Slot) :
    (updSlot s i f).merStage = s.merStage := rfl
@[simp] theorem updSlot_pending (s : State) (i : Fin 128) (f : Slot → Slot) :
    (updSlot s i f).pending = s.pending := rfl
@[simp] theorem updSlot_locker_scrubPos (s : State) (i : Fin 128) (f : Slot → Slot) :
    (updSlot s i f).locker.scrubPos = s.locker.scrubPos := rfl
@[simp] theorem updSlot_locker_scrubLast (s : State) (i : Fin 128) (f : Slot → Slot) :
    (updSlot s i f).locker.scrubLast = s.locker.scrubLast := rfl
@[simp] theorem updSlot_locker_slot (s : State) (i : Fin 128) (f : Slot → Slot) :
    (updSlot s i f).locker.slot = upd s.locker.slot i f := rfl

/-! ### Other named updates -/

@[simp] theorem cfgPut_cfg (s : State) (a : Nat) (w : Word) : (cfgPut s a w).cfg = sparsePut (resetWord a) s.cfg a w := rfl
@[simp] theorem cfgPut_variant (s : State) (a : Nat) (w : Word) : (cfgPut s a w).variant = s.variant := rfl
@[simp] theorem cfgPut_mono (s : State) (a : Nat) (w : Word) : (cfgPut s a w).mono = s.mono := rfl
@[simp] theorem cfgPut_free (s : State) (a : Nat) (w : Word) : (cfgPut s a w).free = s.free := rfl
@[simp] theorem cfgPut_landfall (s : State) (a : Nat) (w : Word) : (cfgPut s a w).landfall = s.landfall := rfl
@[simp] theorem cfgPut_chart (s : State) (a : Nat) (w : Word) : (cfgPut s a w).chart = s.chart := rfl
@[simp] theorem cfgPut_flash (s : State) (a : Nat) (w : Word) : (cfgPut s a w).flash = s.flash := rfl
@[simp] theorem cfgPut_sx (s : State) (a : Nat) (w : Word) : (cfgPut s a w).sx = s.sx := rfl
@[simp] theorem cfgPut_outlet (s : State) (a : Nat) (w : Word) : (cfgPut s a w).outlet = s.outlet := rfl
@[simp] theorem cfgPut_cooling (s : State) (a : Nat) (w : Word) : (cfgPut s a w).cooling = s.cooling := rfl
@[simp] theorem cfgPut_drive (s : State) (a : Nat) (w : Word) : (cfgPut s a w).drive = s.drive := rfl
@[simp] theorem cfgPut_rdr (s : State) (a : Nat) (w : Word) : (cfgPut s a w).rdr = s.rdr := rfl
@[simp] theorem cfgPut_mer (s : State) (a : Nat) (w : Word) : (cfgPut s a w).mer = s.mer := rfl
@[simp] theorem cfgPut_com (s : State) (a : Nat) (w : Word) : (cfgPut s a w).com = s.com := rfl
@[simp] theorem cfgPut_disp (s : State) (a : Nat) (w : Word) : (cfgPut s a w).disp = s.disp := rfl
@[simp] theorem cfgPut_lk (s : State) (a : Nat) (w : Word) : (cfgPut s a w).lk = s.lk := rfl
@[simp] theorem cfgPut_txl (s : State) (a : Nat) (w : Word) : (cfgPut s a w).txl = s.txl := rfl
@[simp] theorem cfgPut_safe (s : State) (a : Nat) (w : Word) : (cfgPut s a w).safe = s.safe := rfl
@[simp] theorem cfgPut_ll (s : State) (a : Nat) (w : Word) : (cfgPut s a w).ll = s.ll := rfl
@[simp] theorem cfgPut_mgr (s : State) (a : Nat) (w : Word) : (cfgPut s a w).mgr = s.mgr := rfl
@[simp] theorem cfgPut_wrk (s : State) (a : Nat) (w : Word) : (cfgPut s a w).wrk = s.wrk := rfl
@[simp] theorem cfgPut_host (s : State) (a : Nat) (w : Word) : (cfgPut s a w).host = s.host := rfl
@[simp] theorem cfgPut_locker (s : State) (a : Nat) (w : Word) : (cfgPut s a w).locker = s.locker := rfl
@[simp] theorem cfgPut_fw (s : State) (a : Nat) (w : Word) : (cfgPut s a w).fw = s.fw := rfl
@[simp] theorem cfgPut_tamper (s : State) (a : Nat) (w : Word) : (cfgPut s a w).tamper = s.tamper := rfl
@[simp] theorem cfgPut_log (s : State) (a : Nat) (w : Word) : (cfgPut s a w).log = s.log := rfl
@[simp] theorem cfgPut_flt (s : State) (a : Nat) (w : Word) : (cfgPut s a w).flt = s.flt := rfl
@[simp] theorem cfgPut_pwr (s : State) (a : Nat) (w : Word) : (cfgPut s a w).pwr = s.pwr := rfl
@[simp] theorem cfgPut_merStage (s : State) (a : Nat) (w : Word) : (cfgPut s a w).merStage = s.merStage := rfl
@[simp] theorem cfgPut_pending (s : State) (a : Nat) (w : Word) : (cfgPut s a w).pending = s.pending := rfl

@[simp] theorem logRec_variant (s : State) (code : Nat) (src : LogSrc) (kind arg : Nat) (d : Bytes) :
    (logRec s code src kind arg d).variant = s.variant := rfl
@[simp] theorem logRec_mono (s : State) (code : Nat) (src : LogSrc) (kind arg : Nat) (d : Bytes) :
    (logRec s code src kind arg d).mono = s.mono := rfl
@[simp] theorem logRec_free (s : State) (code : Nat) (src : LogSrc) (kind arg : Nat) (d : Bytes) :
    (logRec s code src kind arg d).free = s.free := rfl
@[simp] theorem logRec_landfall (s : State) (code : Nat) (src : LogSrc) (kind arg : Nat) (d : Bytes) :
    (logRec s code src kind arg d).landfall = s.landfall := rfl
@[simp] theorem logRec_chart (s : State) (code : Nat) (src : LogSrc) (kind arg : Nat) (d : Bytes) :
    (logRec s code src kind arg d).chart = s.chart := rfl
@[simp] theorem logRec_cfg (s : State) (code : Nat) (src : LogSrc) (kind arg : Nat) (d : Bytes) :
    (logRec s code src kind arg d).cfg = s.cfg := rfl
@[simp] theorem logRec_flash (s : State) (code : Nat) (src : LogSrc) (kind arg : Nat) (d : Bytes) :
    (logRec s code src kind arg d).flash = s.flash := rfl
@[simp] theorem logRec_sx (s : State) (code : Nat) (src : LogSrc) (kind arg : Nat) (d : Bytes) :
    (logRec s code src kind arg d).sx = s.sx := rfl
@[simp] theorem logRec_outlet (s : State) (code : Nat) (src : LogSrc) (kind arg : Nat) (d : Bytes) :
    (logRec s code src kind arg d).outlet = s.outlet := rfl
@[simp] theorem logRec_cooling (s : State) (code : Nat) (src : LogSrc) (kind arg : Nat) (d : Bytes) :
    (logRec s code src kind arg d).cooling = s.cooling := rfl
@[simp] theorem logRec_drive (s : State) (code : Nat) (src : LogSrc) (kind arg : Nat) (d : Bytes) :
    (logRec s code src kind arg d).drive = s.drive := rfl
@[simp] theorem logRec_rdr (s : State) (code : Nat) (src : LogSrc) (kind arg : Nat) (d : Bytes) :
    (logRec s code src kind arg d).rdr = s.rdr := rfl
@[simp] theorem logRec_mer (s : State) (code : Nat) (src : LogSrc) (kind arg : Nat) (d : Bytes) :
    (logRec s code src kind arg d).mer = s.mer := rfl
@[simp] theorem logRec_com (s : State) (code : Nat) (src : LogSrc) (kind arg : Nat) (d : Bytes) :
    (logRec s code src kind arg d).com = s.com := rfl
@[simp] theorem logRec_disp (s : State) (code : Nat) (src : LogSrc) (kind arg : Nat) (d : Bytes) :
    (logRec s code src kind arg d).disp = s.disp := rfl
@[simp] theorem logRec_lk (s : State) (code : Nat) (src : LogSrc) (kind arg : Nat) (d : Bytes) :
    (logRec s code src kind arg d).lk = s.lk := rfl
@[simp] theorem logRec_txl (s : State) (code : Nat) (src : LogSrc) (kind arg : Nat) (d : Bytes) :
    (logRec s code src kind arg d).txl = s.txl := rfl
@[simp] theorem logRec_safe (s : State) (code : Nat) (src : LogSrc) (kind arg : Nat) (d : Bytes) :
    (logRec s code src kind arg d).safe = s.safe := rfl
@[simp] theorem logRec_ll (s : State) (code : Nat) (src : LogSrc) (kind arg : Nat) (d : Bytes) :
    (logRec s code src kind arg d).ll = s.ll := rfl
@[simp] theorem logRec_mgr (s : State) (code : Nat) (src : LogSrc) (kind arg : Nat) (d : Bytes) :
    (logRec s code src kind arg d).mgr = s.mgr := rfl
@[simp] theorem logRec_wrk (s : State) (code : Nat) (src : LogSrc) (kind arg : Nat) (d : Bytes) :
    (logRec s code src kind arg d).wrk = s.wrk := rfl
@[simp] theorem logRec_host (s : State) (code : Nat) (src : LogSrc) (kind arg : Nat) (d : Bytes) :
    (logRec s code src kind arg d).host = s.host := rfl
@[simp] theorem logRec_locker (s : State) (code : Nat) (src : LogSrc) (kind arg : Nat) (d : Bytes) :
    (logRec s code src kind arg d).locker = s.locker := rfl
@[simp] theorem logRec_fw (s : State) (code : Nat) (src : LogSrc) (kind arg : Nat) (d : Bytes) :
    (logRec s code src kind arg d).fw = s.fw := rfl
@[simp] theorem logRec_tamper (s : State) (code : Nat) (src : LogSrc) (kind arg : Nat) (d : Bytes) :
    (logRec s code src kind arg d).tamper = s.tamper := rfl
@[simp] theorem logRec_flt (s : State) (code : Nat) (src : LogSrc) (kind arg : Nat) (d : Bytes) :
    (logRec s code src kind arg d).flt = s.flt := rfl
@[simp] theorem logRec_pwr (s : State) (code : Nat) (src : LogSrc) (kind arg : Nat) (d : Bytes) :
    (logRec s code src kind arg d).pwr = s.pwr := rfl
@[simp] theorem logRec_merStage (s : State) (code : Nat) (src : LogSrc) (kind arg : Nat) (d : Bytes) :
    (logRec s code src kind arg d).merStage = s.merStage := rfl
@[simp] theorem logRec_pending (s : State) (code : Nat) (src : LogSrc) (kind arg : Nat) (d : Bytes) :
    (logRec s code src kind arg d).pending = s.pending := rfl

end Sys2Proof.Machine
end

