-- ==== Sys2Proof/WellFormed.lean ====
section
/-!
DEFINITION. What a command can carry: the widths its frame or lane gives its operands. A value within these widths that
a rule forbids is well formed; its command answers as the rule says.
-/
namespace Sys2Proof

/-- A host frame's header fits its fields, and its MAC and payload the frame (R388, Table 16-1). -/
def Frame.wf (f : Frame) : Bool :=
  decide (f.sid < 2 ^ 16) && decide (f.seq < 2 ^ 32) && decide (f.cls < 2 ^ 8) && decide (f.flags < 2 ^ 8)
    && decide (f.status < 2 ^ 8) && decide (f.len < 2 ^ 16) && decide (f.opId < 2 ^ 32) && decide (f.mac.length = 8)
    && f.raw.all fun b => decide (b.length < 2 ^ 16)

/-- A chunk fits its fields and a frame (R388, R412). -/
def Chunk.wf (k : Chunk) : Bool :=
  decide (k.total < 2 ^ 32) && decide (k.offset < 2 ^ 32) && decide (k.data.length ≤ 1428)

/-- Upsets lie within the 112 bytes of a slot and its tag. -/
def TagUpsets.wf (u : TagUpsets) : Bool := (u.first ++ u.second).all fun x => decide (x.1 < 112)

/-- Each slot brings at most 768 samples of the 12-bit converter (R342). -/
def LlAir.wf (x : LlAir) : Bool := x.samples.all fun l => decide (l.length ≤ 768) && l.all fun c => decide (c < 2 ^ 12)

/-- The mesh returns as many bits as it drives. -/
def TamperSense.wf (x : TamperSense) : Bool := decide (x.meshOut.length = x.meshIn.length)

/-- The command's operands fit the fields that carry them. -/
def Instr.wf : Instr → Bool
  | .porstRise => true
  | .coreSupplyDip _ _ => true
  | .coreSupplyReturn _ _ => true
  | .lookoutRailDip _ _ => true
  | .helmRestartEarly => true
  | .lookoutChannelsRunning _ _ => true
  | .meridianMeteringStart _ => true
  | .helmFirmwareStarted _ _ => true
  | .chartSourceChosen _ _ => true
  | .sextantImageLoaded _ => true
  | .chartSectionsDistributed => true
  | .hostReady => true
  | .selfTestsComplete _ _ _ upsets => upsets.all (·.2.wf)
  | .landfallComplete => true
  | .helmBootRetry _ _ => true
  | .gatePermitFall _ => true
  | .fltNAssert _ _ => true
  | .readbackMismatch _ _ => true
  | .carrierLoad _ _ => true
  | .roseTargetsSet _ => true
  | .roseMoveStep _ => true
  | .syncInEdge _ _ => true
  | .syncLockSet _ => true
  | .syncLost _ => true
  | .ppsInEdge _ => true
  | .sdControlOutput _ _ _ => true
  | .fastTrip _ _ _ => true
  | .sdStuck _ => true
  | .sdInvalidClear _ => true
  | .uscEvent _ _ _ _ => true
  | .lawTrigger _ _ => true
  | .lawRunStart _ => true
  | .lawOutputWrite _ _ => true
  | .overrunLatch _ => true
  | .laneHeartbeat => true
  | .heartbeatLoss => true
  | .laneSetpointUpdate _ _ _ => true
  | .postSplitRecompute => true
  | .stageStart _ => true
  | .stageStop _ => true
  | .vehicleVoltageDisagree _ => true
  | .vehicleVoltageForward _ _ => true
  | .prechargeComplete _ => true
  | .closeWaitBandLost _ => true
  | .preTimeoutExpiry _ => true
  | .closeRefused _ => true
  | .contactorsConfirmed _ => true
  | .noSinkExit _ => true
  | .reverseCurrentLatch _ => true
  | .afe3PrechargeComplete _ => true
  | .afe3AutoStart _ => true
  | .afe3VminReached _ => true
  | .acMainConfirmed => true
  | .afe3AutoStop _ => true
  | .rampDownComplete _ => true
  | .dischargeRequest _ => true
  | .dischargeComplete _ => true
  | .dischTExpiry _ => true
  | .shedStart _ => true
  | .addStart _ => true
  | .shedRampEnd _ => true
  | .addRampEnd _ => true
  | .fireEnd _ _ => true
  | .fireRearm _ => true
  | .shedHoldEnd _ => true
  | .cbcLatch _ => true
  | .oclLatch _ => true
  | .cellOpenRetire _ => true
  | .estTExpiry _ => true
  | .telemetryTick => true
  | .pilotCondChange _ _ _ _ _ => true
  | .t1sLinkUp _ => true
  | .slacMessage _ _ => true
  | .sdpRequest _ => true
  | .tlsHandshake _ _ => true
  | .supportedAppProtocol _ _ _ => true
  | .sessionSetup _ => true
  | .serviceDiscovery _ _ => true
  | .authorizationRequest _ _ ident _ => decide (ident.length ≤ 64)
  | .chargeParameterDiscovery _ _ => true
  | .scheduleExchange _ _ => true
  | .dcCableCheck _ => true
  | .dcPreCharge _ _ => true
  | .powerDelivery _ _ => true
  | .dcChargeLoop _ _ _ _ _ => true
  | .dcWeldingDetection _ => true
  | .vehicleSessionStop _ _ _ => true
  | .certificateInstallation _ exi => decide (exi.length ≤ 65535)
  | .unsupportedRequest _ => true
  | .vehicleLinkLost _ => true
  | .tInventoryExpiry _ => true
  | .tLinkExpiry _ => true
  | .tSeqExpiry _ => true
  | .tOngoingExpiry _ => true
  | .tAuthExpiry _ => true
  | .tIsoExpiry _ => true
  | .tLoopExpiry _ => true
  | .tStandbyExpiry _ => true
  | .tLockExpiry _ => true
  | .tDischExpiry _ => true
  | .isoDwellEnd _ => true
  | .lockConfirmed _ => true
  | .contactorsOpenConfirmed _ => true
  | .vehicleSideDischarged _ => true
  | .unlockConfirmed _ => true
  | .faultedContactorOpen _ => true
  | .coolingInputUpdate _ _ _ _ => true
  | .tagStale500ms _ => true
  | .tagStale2s _ => true
  | .driveFault _ _ _ => true
  | .flowLow _ => true
  | .readerCycleStart => true
  | .portWindowStart _ => true
  | .fieldSettled => true
  | .slotReplyReceived _ => true
  | .slotEmpty => true
  | .selectReplyReceived _ => true
  | .sensorMeasureReply _ _ _ => true
  | .tagExchangeNoReply _ _ => true
  | .tagWriteReply _ _ => true
  | .writeUnconfirmed _ => true
  | .writeReadback _ _ => true
  | .antFaultRuntime _ _ => true
  | .reqaPoll => true
  | .cardSelected atqa _ sak => decide (atqa < 2 ^ 16) && decide (sak < 2 ^ 8)
  | .cardLeft uid => decide (uid.length ≤ 10)
  | .meterSample bits _ => (bits.length == 20 && bits.all (·.length == 256))
  | .pulseStart _ _ => true
  | .pulseEnd _ => true
  | .pNowRefresh => true
  | .firCrcCheck _ => true
  | .firRmsWindow => true
  | .firRestored _ => true
  | .dcFreezeRequest _ _ => true
  | .dcFreezeRelease _ _ => true
  | .streamFault _ => true
  | .pilotWindow _ => true
  | .spareSettled _ => true
  | .rotationStepStart _ => true
  | .rotationSwap _ => true
  | .rotationCalibrationDone _ _ _ _ => true
  | .rotationSwapBack _ => true
  | .spareCalibrationDone _ _ _ _ => true
  | .referenceComparison _ => true
  | .rtdSample _ _ => true
  | .metroCommit f => f.wf
  | .registerCommit => true
  | .halfCycleRms _ => true
  | .zeroCrossingTimeout _ => true
  | .meridianSupplyFail _ _ => true
  | .meridianRestart _ _ _ => true
  | .mailboxRequest _ => true
  | .ptpOffset _ => true
  | .ptpDeadReckoning => true
  | .timeUncertainSet => true
  | .leapSecond _ => true
  | .slewDayEnd => true
  | .demandIntervalEnd => true
  | .calendarActivate => true
  | .tariffSwitch => true
  | .billingScheduledClose => true
  | .legalWindowItem => true
  | .legalPairSend => true
  | .prepayDebit => true
  | .friendlyHoursEnd _ => true
  | .weatherHoldEnd => true
  | .emergReqWrite f acct => f.wf && decide (acct < 2 ^ 32)
  | .evenFrameBoundary => true
  | .legalPairReceived upsets => upsets.all fun p => decide (p.1 < 2 ^ 16)
  | .frameEndCrc _ => true
  | .laneTimeout => true
  | .panelTempMeasure _ => true
  | .crackMeasure _ => true
  | .pumpFault _ => true
  | .pumpRetry => true
  | .displayFaultClear => true
  | .panelPowerOn => true
  | .panelPowerStep _ _ => true
  | .panelPowerOff => true
  | .safetyInputChange _ _ _ _ => true
  | .discrepancyFault _ => true
  | .testPulse _ _ _ => true
  | .crossCompareExchange _ _ => true
  | .lookoutChannelRestart _ => true
  | .channelsAgreed => true
  | .offTest _ _ _ => true
  | .outputReadbackFault _ _ => true
  | .feedbackTimeout _ _ _ => true
  | .lateWeld _ _ _ => true
  | .contactorCloseRequest _ => true
  | .contactorOpenRequest _ => true
  | .closeRequestExpiry _ => true
  | .lockRequest _ => true
  | .unlockRequest _ => true
  | .lockFbLost _ => true
  | .outputKindRequest _ _ => true
  | .resetPress => true
  | .holsterTestSeen _ => true
  | .landfallCompleteMessage => true
  | .landfallStartMessage => true
  | .sextantResetSeen => true
  | .soundingHalfPeriod => true
  | .soundingVerdict _ => true
  | .poleVoltageSample _ _ _ => true
  | .soundingSelftestStart _ => true
  | .soundingSelftestEnd _ => true
  | .soundingSelftestRetry _ => true
  | .phyStatusPoll _ _ _ _ => true
  | .turxelFrameRx _ _ => true
  | .safeFrameForward _ => true
  | .safeTelegramCycle => true
  | .safeCopyReceived _ _ => true
  | .safePairTimeout _ => true
  | .safeWatchdogExpiry _ => true
  | .safeFallbackEngage _ => true
  | .safeFallbackEnd => true
  | .singleTExpiry => true
  | .beaconSend => true
  | .pathLost _ => true
  | .pathLostClear _ => true
  | .ptpMessage _ domain _ => decide (domain < 2 ^ 8)
  | .ptpAnnounceTimeout => true
  | .ptpSyncTimeout => true
  | .networkServiceRequest _ _ => true
  | .llZcEdge _ => true
  | .llZcMissed => true
  | .llFrameReceived x => x.wf
  | .llRelayForward => true
  | .llReplySend => true
  | .llPollRound => true
  | .llReplyWaitEnd => true
  | .llMapStepDown _ _ => true
  | .llRouteRebuild => true
  | .llLinkUnusable _ _ => true
  | .llPathLost => true
  | .llPathClear => true
  | .workerStatusSend => true
  | .workerStatusRx => true
  | .allocCycle => true
  | .allocMessageRx => true
  | .shadowDiffClear => true
  | .paramMessage _ => true
  | .deadReckoningTick => true
  | .interleaveRecompute => true
  | .managerBeaconRx => true
  | .quorumLost => true
  | .listenEnd => true
  | .alternateListenEnd => true
  | .standbyTakeover => true
  | .tokenRelease => true
  | .releaseRx => true
  | .healthReport => true
  | .tokenRequestSet => true
  | .revertRelease => true
  | .revertTimeout => true
  | .hello f => f.wf
  | .helloClose f => f.wf
  | .authChallenge f _ nh => f.wf && decide (nh.length = 16)
  | .authProve f ph => f.wf && decide (ph.length = 32)
  | .resultGet f opId => f.wf && decide (opId < 2 ^ 32)
  | .resultAck f opIds => f.wf && decide (opIds.length ≤ 255)
  | .opStatus f opId => f.wf && decide (opId < 2 ^ 32)
  | .barrier f => f.wf
  | .healthGet f => f.wf
  | .journalRead f opId count => f.wf && decide (opId < 2 ^ 32) && decide (count < 2 ^ 16)
  | .logRead f recNo count => f.wf && decide (recNo < 2 ^ 32) && decide (count < 2 ^ 16)
  | .readParam f addr count => f.wf && decide (addr < 2 ^ 32) && decide (count < 2 ^ 16)
  | .writeParam f addr words => f.wf && decide (addr < 2 ^ 32) && decide (words.length ≤ 65535)
  | .telFix f scope _ => f.wf && decide (scope < 2 ^ 8)
  | .sessionAuthorise f o decision hash => f.wf && decide (o < 2 ^ 8) && decide (decision < 2 ^ 8) && decide (hash.length = 8)
  | .sessionAuthoriseCert f o hash k => f.wf && decide (o < 2 ^ 8) && decide (hash.length = 8) && k.wf
  | .sessionStop f o => f.wf && decide (o < 2 ^ 8)
  | .authTableLoad f k => f.wf && k.wf
  | .accountAddCredit f acct value => f.wf && decide (acct < 2 ^ 32) && decide (-(2 ^ 63) ≤ value ∧ value < 2 ^ 63)
  | .accountSetEmerg f acct value => f.wf && decide (acct < 2 ^ 32) && decide (-(2 ^ 63) ≤ value ∧ value < 2 ^ 63)
  | .accountSetEmergMode f acct value => f.wf && decide (acct < 2 ^ 32) && decide (-(2 ^ 63) ≤ value ∧ value < 2 ^ 63)
  | .accountRequestEmerg f acct value => f.wf && decide (acct < 2 ^ 32) && decide (-(2 ^ 63) ≤ value ∧ value < 2 ^ 63)
  | .siteLimitSet f pSite classes => f.wf && decide (pSite < 2 ^ 32) && decide (classes.length ≤ 255)
  | .weatherHold f minutes => f.wf && decide (minutes < 2 ^ 16)
  | .scrollSet f items => f.wf && decide (items.length ≤ 255)
  | .displayRect f x0 y0 w h pix => f.wf && decide (x0 < 2 ^ 8) && decide (y0 < 2 ^ 8) && decide (w < 2 ^ 8) && decide (h < 2 ^ 8) && decide (pix.length ≤ 1436)
  | .tariffLoad f k => f.wf && k.wf
  | .clockSet f time => f.wf && decide (time < 2 ^ 64)
  | .billingClose f => f.wf
  | .safetyConfirm f value => f.wf && decide (value < 2 ^ 32)
  | .safetyConfirmRevoke f value => f.wf && decide (value < 2 ^ 32)
  | .latchClearStage f index => f.wf && decide (index < 2 ^ 8)
  | .latchClearCell f index => f.wf && decide (index < 2 ^ 8)
  | .latchClearOutlet f index => f.wf && decide (index < 2 ^ 8)
  | .latchClearSafety f index => f.wf && decide (index < 2 ^ 8)
  | .latchClearDisplay f index => f.wf && decide (index < 2 ^ 8)
  | .latchClearTamperHold f index => f.wf && decide (index < 2 ^ 8)
  | .keyImport f slot wrapSlot attrs wrapped _ up => f.wf && decide (slot < 2 ^ 8) && decide (wrapSlot < 2 ^ 8) && decide (attrs.length = 16) && decide (wrapped.length ≤ 1434) && up.wf
  | .keyDerive f parent child attrs context up => f.wf && decide (parent < 2 ^ 8) && decide (child < 2 ^ 8) && decide (attrs.length = 16) && decide (context.length ≤ 64) && up.wf
  | .keyInvalidate f slot => f.wf && decide (slot < 2 ^ 8)
  | .slotOperationBoundary _ => true
  | .keyUseEncrypt f slot iv aad data up => f.wf && decide (slot < 2 ^ 8) && decide (iv.length = 12) && decide (aad.length ≤ 1434) && decide (data.length ≤ 1434) && up.wf
  | .keyUseDecrypt f slot iv aad data _ up => f.wf && decide (slot < 2 ^ 8) && decide (iv.length = 12) && decide (aad.length ≤ 1434) && decide (data.length ≤ 1434) && up.wf
  | .keyUseSign f slot msg up => f.wf && decide (slot < 2 ^ 8) && decide (msg.length ≤ 1434) && up.wf
  | .keyUseVerify f slot sig msg _ up => f.wf && decide (slot < 2 ^ 8) && decide (sig.length ≤ 1434) && decide (msg.length ≤ 1434) && up.wf
  | .keyUseMac f slot msg up => f.wf && decide (slot < 2 ^ 8) && decide (msg.length ≤ 1434) && up.wf
  | .keyUsePublic f slot up => f.wf && decide (slot < 2 ^ 8) && up.wf
  | .attest f nonce up => f.wf && decide (nonce.length = 16) && up.wf
  | .fwStage f target k => f.wf && decide (target < 2 ^ 8) && k.wf
  | .fwVerify f target _ up => f.wf && decide (target < 2 ^ 8) && up.wf
  | .fwActivate f target => f.wf && decide (target < 2 ^ 8)
  | .firstStartSuccess _ => true
  | .firstStartFailure _ => true
  | .opStart opId => decide (opId < 2 ^ 32)
  | .opComplete opId => decide (opId < 2 ^ 32)
  | .resultHoldExpiry opId => decide (opId < 2 ^ 32)
  | .sessionIdleTimeout sid => decide (sid < 2 ^ 16)
  | .challengeLapse sid => decide (sid < 2 ^ 16)
  | .chunkTimeout sid _ => decide (sid < 2 ^ 16)
  | .hspiReadTransaction => true
  | .recoveryEnd => true
  | .recoveredHoldExpiry opId => decide (opId < 2 ^ 32)
  | .keyScrub up => up.wf
  | .tamperEvent x => x.wf
  | .helmCorePairMismatch => true
  | .sextantCoreMismatch => true
  | .sextantSupervisorRestart => true
  | .meridianCoreFault => true
  | .islandClockLoss _ _ => true
  | .islandRestart _ _ => true
  | .doubleBitError _ _ => true
  | .scrubPass _ _ _ => true
  | .logRecordWrite _ => true
  | .logbookScanEnd _ => true
  | .rungDown => true
  | .quietConditionCeases => true
  | .wakeEvent _ => true
  | .wkAlarm => true
  | .vbatSwitchover _ _ => true
  | .mainRailsReturn _ _ => true
  | .engImpLoRead f _ => f.wf
  | .tar1ImpLoRead f _ => f.wf
  | .chrTimeLoRead f => f.wf
  | .recordSelectWrite f _ index => f.wf && decide (index < 2 ^ 32)
  | .porstFall => true
  | .analogSupplyDip _ _ => true
  | .analogSupplyReturn _ _ => true
  | .feedbackDiscrepancy _ _ _ => true
  | .peerLost => true
  | .tagReadReply _ _ => true
  | .unknownCommand f _ => f.wf
  | .driveFaultClear _ _ _ => true
  | .tamperSourceCeases x => x.wf
  | .vbatLoss => true

end Sys2Proof
end

