-- ==== Sys2Proof/Tests/Slice0.lean ====
section
/-!
SUPPORT. The model's own tests: ill-formed commands that WellFormed refuses; for each statement with hypotheses, a concrete
state and operands that meet those of each of its clauses together; worked examples of the manual; single commands. No
statement is proved here.
-/
open Sys2Proof Sys2Proof.Machine

namespace Sys2Proof.Tests

set_option Elab.async false

theorem pair_of {α β : Type} {p : α × β} {a : α} (h : p.1 = a) : p = (a, p.2) := by
  cases p
  cases h
  rfl

/-- A module in service: Landfall complete, all dies up, the permits high. -/
def wRun : State :=
  { State.reset with
    landfall := { porst := true, phase := 9, hostReady := true, helmUp := true }
    sx := { up := true, beating := true }
    mer := { up := true, chr := { valid := true } }
    lk := { runA := true, runB := true, agreed := true, gpA := true, gpB := true, landfallDone := true
            confA := some ⟨0, 0, 0⟩, confB := some ⟨0, 0, 0⟩ }
    log := { scanDone := true } }

/-- The same with parameter words, as block, instance, offset and value. -/
def wCfg (l : List (Nat × Nat × Nat × Nat)) : State :=
  { wRun with cfg := l.map fun x => (regAddr x.1 x.2.1 x.2.2.1, BitVec.ofNat 32 x.2.2.2) }

/-- A parameter word of block 0x30 in use. -/
def wMer (l : List (Nat × Nat × Nat)) (f : Meridian → Meridian) : State :=
  { wRun with mer := f { wRun.mer with regs := l.map fun x => (regAddr 0x30 x.1 x.2.1, BitVec.ofNat 32 x.2.2) } }

/-- Stage 0 replaced. -/
def wStage (l : List (Nat × Nat × Nat × Nat)) (f : Stage → Stage) : State := updStage (wCfg l) 0 f

/-- Outlet 0 replaced. -/
def wOut (l : List (Nat × Nat × Nat × Nat)) (f : Outlet → Outlet) : State := updOutlet (wCfg l) 0 f

/-- Landfall replaced. -/
def wLand (f : Landfall → Landfall) : State := { wRun with landfall := f wRun.landfall }

/-- The reader in port 0's window, in OPEN ENERGY_TRANSFER on that outlet. -/
def wRead (f : HandlePort → HandlePort) : State :=
  { updPort (wOut [] fun x => { x with st := .energyTransfer }) 0 f with
    rdr := { field := true, settled := true, window := some 0
             port := upd (Vector.replicate 2 {}) 0 f } }

/-- The display on. -/
def wDisp (f : Display → Display) : State := { wRun with disp := f { wRun.disp with pwr := .on } }

/-- A manager, active, with worker 0 enabled and heard. -/
def wMgr (role : Fin 4) (m : MRole) (f : Manager → Manager) : State :=
  { wCfg [(0x60, 1, 0, 0x81080005)] with
    landfall := { wRun.landfall with role := role }
    mgr := f { role := m, worker := upd (Vector.replicate 32 {}) 0 fun w =>
      { w with status := some { node := 5, epoch := 0, count := 0, demand := 0, capacity := 0, guar := 0, wflags := 1
                                health := 0 } } } }

/-- Log-line in service. -/
def wLine (l : List (Nat × Nat × Nat × Nat)) (f : LogLine → LogLine) : State :=
  { wCfg l with txl := { key := some [] }, ll := f {} }

/-- A Log-line frame. -/
def wLlRx : LlRx :=
  { kind := 2, hops := 1, hidx := 0, step := 0, more := false, dst := 0, src := 1, relay1 := 0, relay2 := 0, seq := 0
    payload := [], sender := 1, stop := 0 }

/-- A session of a role, with tokens in every class. -/
def wHost (role : Fin 4) (s : State) : State :=
  { s with host := { s.host with
    sessions := [{ sid := 1, role := role, keyIn := [], keyOut := [], via := .turxel 0, lastRx := 0 }]
    cls := Vector.replicate 6 { milli := 10000 } } }

/-- A new frame of that session with its MAC. -/
def wFrameOf (code : Nat) (body : Bytes) : Frame :=
  let f : Frame := { sid := 1, seq := 1, cls := 5, len := body.length, mac := [], via := .turxel 0 }
  { f with mac := frameMac [] f code body }

/-- That of an operation. -/
def wFor (c : HostCmd) : Frame := wFrameOf c.code c.body

/-- A frame outside sessions: SID 0 or a challenge's, MAC zero. -/
def wBare (sid : Nat) (body : Bytes) : Frame :=
  { sid := sid, seq := 1, cls := 5, len := body.length, mac := List.replicate 8 0, via := .turxel 0 }

/-- Any frame. -/
def wFrame : Frame := wBare 1 []

/-- Its session. -/
def wSess (role : Fin 4) : Session :=
  { sid := 1, role := role, keyIn := [], keyOut := [], via := .turxel 0, lastRx := 0 }

/-- A slot with usage, algorithm, roles and material. -/
def wSlot (usage alg : Nat) (m : Bytes) : Slot :=
  { st := .valid, attrs := [BitVec.ofNat 8 usage, BitVec.ofNat 8 alg, 0x1F, 0xFF, 0, 0, 0, 0], material := m }

/-- A state with slot 9 so filled. -/
def wKey (usage alg : Nat) : State := updSlot wRun 9 fun _ => wSlot usage alg []

theorem frame_of {s : State} {code : Nat} {body : Bytes} {x : Session} (h : findSession s 1 = some x) (k : x.keyIn = []) :
    frameSession s (wFrameOf code body) code body = some x := by
  have e : findSession s (wFrameOf code body).sid = some x := h
  have m : (wFrameOf code body).mac = frameMac x.keyIn (wFrameOf code body) code body := by rw [k]; rfl
  have n : ¬((wFrameOf code body).sid = 0 ∨ (wFrameOf code body).len ≠ (framePayload (wFrameOf code body) body).length) := by
    simp [wFrameOf, framePayload]
  unfold frameSession
  rw [if_neg n, e]
  simp [Option.filter, m]

/-- What `Received` asks, as a test. -/
def receivable (s : State) (x : Session) : Bool :=
  transportOpen s (.turxel 0) && decide (findSession s 1 = some x) && decide (x.keyIn = []) && seqNew x 1

theorem received_of {s : State} {code : Nat} {body : Bytes} {x : Session} (h : receivable s x = true) :
    Received s (wFrameOf code body) code body x := by
  simp only [receivable, Bool.and_eq_true, decide_eq_true_eq] at h
  obtain ⟨⟨⟨h1, h2⟩, h3⟩, h4⟩ := h
  exact ⟨h1, frame_of h2 h3, h4⟩

/-- What `Accepted` asks, as a test; no operation waits. -/
def acceptable (s : State) (c : HostCmd) (x : Session) : Bool :=
  receivable s x && decide (admission (noteFrame s (wFor c)) x.role x.sid (wFor c) c = .ok)
    && decide (lacking (noteFrame s (wFor c)) x.sid (clsOf (wFor c)) c = none) && s.host.ops.isEmpty
    && decide (s.mer.mail.length < 16)

/-- The state in which an accepted operation takes effect. -/
def begun (s : State) (f : Frame) (c : HostCmd) (x : Session) : State :=
  setRunning (recordOp (noteFrame s f) ((findSession (noteFrame s f) f.sid).getD x) f c) (opOf s x f c)

theorem accepted_of {s : State} {c : HostCmd} {x : Session} (h : acceptable s c x = true) :
    Accepted s (wFor c) c x (begun s (wFor c) c x) (opOf s x (wFor c) c) := by
  simp only [acceptable, Bool.and_eq_true, decide_eq_true_eq, List.isEmpty_iff] at h
  obtain ⟨⟨⟨⟨h1, h2⟩, h3⟩, h4⟩, h5⟩ := h
  exact ⟨received_of h1, h2, h3, by simp [h4], by simp [h4], fun _ => h5, rfl, rfl⟩

/-- What `ControlAccepted` asks, as a test. -/
def controlOk (s : State) (x : Session) : Bool :=
  receivable s x && decide (1000 ≤ (s.host.cls[(0 : Fin 6)]).milli)

theorem control_of {s : State} {code : Nat} {body : Bytes} {x : Session} (h : controlOk s x = true) :
    ControlAccepted s (wFrameOf code body) code body x
      (updClass (noteFrame s (wFrameOf code body)) 0 fun k =>
        { k with milli := k.milli - 1000, acc := min 4294967295 (k.acc + 1) }) := by
  simp only [controlOk, Bool.and_eq_true, decide_eq_true_eq] at h
  exact ⟨received_of h.1, by simp [wFrameOf], rfl, h.2, rfl⟩

/-- A telegram copy from SID 7 to SID 0 with its SCODE, on port A. -/
def wBytes : Bytes := [0, 7, 0, 0, 0, 0, 0, 1] ++ List.replicate 20 0

/-- The copy. -/
def wCopy : SafeCopy := { bytes := wBytes ++ toBe 4 (crc32c (toBe 4 0 ++ wBytes)), flagB := false, at_ := 0 }

/-- A module with safe peer SID 7, and copies waiting in channel A. -/
def wPeer (l : List SafeWait) : State :=
  { wCfg [(0x40, 0x40, 0x000, 0), (0x40, 0x40, 0x004, 0), (0x40, 0x40, 0x010, 0x80000007)] with
    safe := { chan := (Vector.replicate 2 {}).set 0 { waiting := l } } }

/-- The signed part of a CTRL frame from node 9 to node 5 without payload. -/
def wSigned : Bytes := [0x12, 0, 0, 0, 0, 0, 0, 9, 0, 5, 0, 0, 0, 1, 0, 0]

/-- The frame, with its MAC under an empty key or with `mac`. -/
def wTxl (mac : Bytes) : TxlFrame := { etype := 0x88B5, tagged := false, body := wSigned ++ mac }

/-- Its MAC. -/
def wTxlMac : Bytes := (hmac [] wSigned).take 8

/-- A reply that starts on time, with its CRC. -/
def wReply (due : Nat) (l : List Bool) : AirReply := ⟨due, none, l ++ bitsBE 16 (crcBits l)⟩

/-- A state that has heard a CTRL message of the kind, or a BEACON with the flags, from node 5. -/
def wHeard (s : State) (cls : TxlClass) (b4 : Byte) (rest : Bytes) : State :=
  { s with txl := { s.txl with inbox := [⟨cls, 5, [0, 0, 0, 1, b4] ++ rest⟩] } }

/-- A finished HEALTH_GET. -/
def wOp : Op := { opId := 4, sid := 1, role := 1, cls := 2, cmd := .healthGet, started := true, complete := true
                  result := some ⟨.ok, []⟩ }

/-- The journal entry of operation 4, recovered. -/
def wJrn : Jrn :=
  { opId := 4, cmd := 0x05, cls := 2, role := 1, n := 1, recovered := true, sid := 1, seq := 1, accepted := 0 }

/-- The sections a chart must have, each without entries; LOOKOUT with its check value. -/
def wSections : Bytes :=
  ([0x01, 0x10, 0x20, 0x21] : List Nat).flatMap (fun t => [BitVec.ofNat 8 t, 0, 0, 0, 0, 0, 0, 0])
    ++ [0x40, 0, 0, 0, 4, 0, 0, 0, 0, 0, 0, 0]
    ++ ([0x50, 0x51, 0x60, 0x80] : List Nat).flatMap fun t => [BitVec.ofNat 8 t, 0, 0, 0, 0, 0, 0, 0]

/-- The first 32 bytes of such a chart. -/
def wChartHead : Bytes :=
  [0x4B, 0x47, 0x43, 0x48, 1, 0, 128, 0, 204, 0, 0, 0] ++ List.replicate 14 0 ++ [9, 0] ++ List.replicate 4 0

/-- A chart. -/
def wChartBytes : Bytes := wChartHead ++ sm3 (wChartHead ++ wSections) ++ List.replicate 64 0 ++ wSections

/-- A module at milestone 0x03 with that chart in slot A, and a chart key in slot 2. -/
def wChart : State :=
  { updSlot wRun 2 fun _ => wSlot 6 3 [] with
    landfall := { wRun.landfall with phase := 3, hostReady := false }
    flash := sparseWrite 0xFF [] 0 wChartBytes }

/-- A module that holds that chart staged and complete. -/
def wStagedChart : State :=
  { updSlot wRun 2 fun _ => wSlot 6 3 [] with
    fw := upd wRun.fw 4 fun x => { x with stage := 2, stagedLen := 204 }
    flash := sparseWrite 0xFF [] (chartBase true) wChartBytes }

/-- An image for Meridian without payload. -/
def wImageHead : Bytes := [0x4B, 0x47, 0x46, 0x57, 1, 0, 4, 0] ++ List.replicate 24 0

/-- The image. -/
def wImage : Bytes := wImageHead ++ sm3 wImageHead ++ List.replicate 192 0

/-- A module that holds it staged and complete. -/
def wStaged (stage : Nat) : State :=
  { wRun with fw := upd wRun.fw 3 fun x => { x with stage := stage, stagedLen := 256 }, merStage := wImage }

/-- A calendar: one season, one profile with one switch point. -/
def wCalendar : Bytes :=
  List.replicate 10 0 ++ [0, 1, 1, 0, 0, 0] ++ [1, 1] ++ List.replicate 8 0 ++ [1, 0, 0, 1] ++ List.replicate 45 0

/-- Where every worker enabled is in group 1, no other group has a worker. -/
theorem groups_of_one (s : State)
    (h : (enabled s).all (fun (w : Fin 32) => cfgN s 0x60 (w + 1) 0x000 28 24 == 1) = true) (grp : Nat) (hg : 2 ≤ grp) :
    groupOrder s grp = [] := by
  unfold groupOrder
  rw [List.filter_eq_nil_iff.mpr]
  · rfl
  · intro w hw
    have h1 := List.all_eq_true.mp h w hw
    simp only [beq_iff_eq] at h1
    have h2 : (1 == grp) = false := by simp; omega
    simp [h1, h2]

/-- The message that `takeHeard` takes, and the state without it. -/
def wTook (s : State) (p : SiteMsg → Bool) : SiteMsg × State := (takeHeard s p).getD (⟨.ctrl, 0, []⟩, s)

theorem took {s : State} {p : SiteMsg → Bool} (h : (takeHeard s p).isSome = true) :
    takeHeard s p = some ((wTook s p).1, (wTook s p).2) := by
  unfold wTook
  cases hp : takeHeard s p with
  | none => rw [hp] at h; cases h
  | some x => rfl

/-- A pilot window with the expected amplitude. -/
def wPilot (n : Nat) : Modulator :=
  { len := n, badWindows := 1, re := (Config.pilotExpected (merN wRun 0x300 0x000 5 0) + 1 : Nat) }

theorem wPilot_amplitude (e : Nat) (x : Modulator) (h : x.re = (e : Nat)) (k : x.im = 0) : pilotAmplitude x = 2 * e / x.len := by
  simp [pilotAmplitude, h, k, Nat.sqrt_eq]

theorem wPilot_dev : pilotDeviation (updMod wRun 0 fun _ => wPilot 2) (updMod wRun 0 fun _ => wPilot 2).mer.fe.mod[(0 : Fin 20)] = 0 := by
  have e : (updMod wRun 0 fun _ => wPilot 2).mer.fe.mod[(0 : Fin 20)] = wPilot 2 := by rfl
  have n : merN (updMod wRun 0 fun _ => wPilot 2) 0x300 0x000 5 0 = merN wRun 0x300 0x000 5 0 := by rfl
  rw [e]
  unfold pilotDeviation
  rw [wPilot_amplitude _ _ rfl rfl, n]
  simp [wPilot]

theorem wPilot_twice : pilotDeviation (updMod wRun 0 fun _ => wPilot 1) (updMod wRun 0 fun _ => wPilot 1).mer.fe.mod[(0 : Fin 20)]
    = 100000 := by
  have e : (updMod wRun 0 fun _ => wPilot 1).mer.fe.mod[(0 : Fin 20)] = wPilot 1 := by rfl
  have n : merN (updMod wRun 0 fun _ => wPilot 1) 0x300 0x000 5 0 = merN wRun 0x300 0x000 5 0 := by rfl
  rw [e]
  unfold pilotDeviation
  rw [wPilot_amplitude _ _ rfl rfl, n]
  show (((2 * (Config.pilotExpected (merN wRun 0x300 0x000 5 0) + 1) / 1 : Nat) : Int) - _) * 100000 / _ = 100000
  generalize Config.pilotExpected (merN wRun 0x300 0x000 5 0) = k
  rw [Nat.div_one]
  have : ((2 * (k + 1) : Nat) : Int) - ((k + 1 : Nat) : Int) = ((k + 1 : Nat) : Int) := by omega
  push_cast at this ⊢
  rw [this, Int.mul_comm, Int.mul_ediv_cancel _ (by omega)]

/-! ### Well-formedness: an ill-formed command for each check -/

/-- A header that does not fit: SID has 16 bits. -/
def wBadFrame : Frame := { wFrame with sid := 2 ^ 16 }

/-- A chunk that does not fit. -/
def wBadChunk : Chunk := ⟨2 ^ 32, 0, []⟩

theorem test_frame_wf_refuses : ([{ wFrame with sid := 2 ^ 16 }, { wFrame with seq := 2 ^ 32 }, { wFrame with cls := 256 },
    { wFrame with flags := 256 }, { wFrame with status := 256 }, { wFrame with len := 2 ^ 16 }, { wFrame with opId := 2 ^ 32 },
    { wFrame with mac := [] }, { wFrame with raw := some (List.replicate 65536 0) }] : List Frame).all (fun f => !f.wf) = true := by
  decide +kernel

theorem test_chunk_wf_refuses : ([⟨2 ^ 32, 0, []⟩, ⟨1, 2 ^ 32, []⟩, ⟨1, 0, List.replicate 1429 0⟩] : List Chunk).all
    (fun k => !k.wf) = true := by decide +kernel

theorem test_wf_accepts_1 : ([
    .selfTestsComplete 0 (Vector.replicate 3 ⟨50, 1⟩) 0 [], .authorizationRequest 0 .eim [] true,
    .certificateInstallation 0 [], .cardSelected 0 [] 0, .cardLeft [],
    .meterSample (List.replicate 20 (List.replicate 256 true)) 0, .metroCommit wFrame, .emergReqWrite wFrame 0,
    .legalPairReceived [], .ptpMessage 0 0 (.announce 0), .llFrameReceived ⟨0, 0, [[2048]]⟩, .hello wFrame,
    .helloClose wFrame, .authChallenge wFrame 0 (List.replicate 16 0), .authProve wFrame (List.replicate 32 0),
    .resultGet wFrame 0, .resultAck wFrame [], .opStatus wFrame 0, .barrier wFrame, .healthGet wFrame] :
    List Instr).all Instr.wf = true := by decide +kernel

theorem test_wf_refuses_1 : ([
    .selfTestsComplete 0 (Vector.replicate 3 ⟨50, 1⟩) 0 [(0, { first := [(112, 1)] })],
    .authorizationRequest 0 .eim (List.replicate 65 0) true, .certificateInstallation 0 (List.replicate 65536 0),
    .cardSelected (2 ^ 16) [] 0, .cardSelected 0 [] (2 ^ 8), .cardLeft (List.replicate 11 0), .meterSample [] 0,
    .meterSample (List.replicate 20 []) 0, .metroCommit wBadFrame, .emergReqWrite wBadFrame 0,
    .emergReqWrite wFrame (2 ^ 32), .legalPairReceived [(65536, 1)], .ptpMessage 0 (2 ^ 8) (.announce 0),
    .llFrameReceived ⟨0, 0, [List.replicate 769 0]⟩, .llFrameReceived ⟨0, 0, [[4096]]⟩, .hello wBadFrame,
    .helloClose wBadFrame, .authChallenge wBadFrame 0 (List.replicate 16 0),
    .authChallenge wFrame 0 (List.replicate 17 0), .authProve wBadFrame (List.replicate 32 0),
    .authProve wFrame (List.replicate 33 0), .resultGet wBadFrame 0, .resultGet wFrame (2 ^ 32),
    .resultAck wBadFrame [], .resultAck wFrame (List.replicate 256 0), .opStatus wBadFrame 0,
    .opStatus wFrame (2 ^ 32), .barrier wBadFrame, .healthGet wBadFrame] :
    List Instr).all (fun i => !i.wf) = true := by decide +kernel

theorem test_wf_accepts_2 : ([
    .journalRead wFrame 0 0, .logRead wFrame 0 0, .readParam wFrame 0 0, .writeParam wFrame 0 [],
    .telFix wFrame 0 true, .sessionAuthorise wFrame 0 0 (List.replicate 8 0),
    .sessionAuthoriseCert wFrame 0 (List.replicate 8 0) ⟨1, 0, [1]⟩, .sessionStop wFrame 0,
    .authTableLoad wFrame ⟨1, 0, [1]⟩, .accountAddCredit wFrame 0 0, .accountSetEmerg wFrame 0 0,
    .accountSetEmergMode wFrame 0 0, .accountRequestEmerg wFrame 0 0, .siteLimitSet wFrame 0 [],
    .weatherHold wFrame 0, .scrollSet wFrame [], .displayRect wFrame 0 0 0 0 [], .tariffLoad wFrame ⟨1, 0, [1]⟩,
    .clockSet wFrame 0, .billingClose wFrame] :
    List Instr).all Instr.wf = true := by decide +kernel

theorem test_wf_refuses_2 : ([
    .journalRead wBadFrame 0 0, .journalRead wFrame (2 ^ 32) 0, .journalRead wFrame 0 (2 ^ 16),
    .logRead wBadFrame 0 0, .logRead wFrame (2 ^ 32) 0, .logRead wFrame 0 (2 ^ 16), .readParam wBadFrame 0 0,
    .readParam wFrame (2 ^ 32) 0, .readParam wFrame 0 (2 ^ 16), .writeParam wBadFrame 0 [],
    .writeParam wFrame (2 ^ 32) [], .writeParam wFrame 0 (List.replicate 65536 0), .telFix wBadFrame 0 true,
    .telFix wFrame (2 ^ 8) true, .sessionAuthorise wBadFrame 0 0 (List.replicate 8 0),
    .sessionAuthorise wFrame (2 ^ 8) 0 (List.replicate 8 0),
    .sessionAuthorise wFrame 0 (2 ^ 8) (List.replicate 8 0), .sessionAuthorise wFrame 0 0 (List.replicate 9 0),
    .sessionAuthoriseCert wBadFrame 0 (List.replicate 8 0) ⟨1, 0, [1]⟩,
    .sessionAuthoriseCert wFrame (2 ^ 8) (List.replicate 8 0) ⟨1, 0, [1]⟩,
    .sessionAuthoriseCert wFrame 0 (List.replicate 9 0) ⟨1, 0, [1]⟩,
    .sessionAuthoriseCert wFrame 0 (List.replicate 8 0) wBadChunk, .sessionStop wBadFrame 0,
    .sessionStop wFrame (2 ^ 8), .authTableLoad wBadFrame ⟨1, 0, [1]⟩, .authTableLoad wFrame wBadChunk,
    .accountAddCredit wBadFrame 0 0, .accountAddCredit wFrame (2 ^ 32) 0, .accountAddCredit wFrame 0 (2 ^ 63),
    .accountAddCredit wFrame 0 (-2 ^ 63 - 1), .accountSetEmerg wBadFrame 0 0, .accountSetEmerg wFrame (2 ^ 32) 0,
    .accountSetEmerg wFrame 0 (2 ^ 63), .accountSetEmerg wFrame 0 (-2 ^ 63 - 1),
    .accountSetEmergMode wBadFrame 0 0, .accountSetEmergMode wFrame (2 ^ 32) 0,
    .accountSetEmergMode wFrame 0 (2 ^ 63), .accountSetEmergMode wFrame 0 (-2 ^ 63 - 1),
    .accountRequestEmerg wBadFrame 0 0, .accountRequestEmerg wFrame (2 ^ 32) 0,
    .accountRequestEmerg wFrame 0 (2 ^ 63), .accountRequestEmerg wFrame 0 (-2 ^ 63 - 1),
    .siteLimitSet wBadFrame 0 [], .siteLimitSet wFrame (2 ^ 32) [],
    .siteLimitSet wFrame 0 (List.replicate 256 (0, 0)), .weatherHold wBadFrame 0, .weatherHold wFrame (2 ^ 16),
    .scrollSet wBadFrame [], .scrollSet wFrame (List.replicate 256 ⟨0, 0, 0, []⟩),
    .displayRect wBadFrame 0 0 0 0 [], .displayRect wFrame (2 ^ 8) 0 0 0 [], .displayRect wFrame 0 (2 ^ 8) 0 0 [],
    .displayRect wFrame 0 0 (2 ^ 8) 0 [], .displayRect wFrame 0 0 0 (2 ^ 8) [],
    .displayRect wFrame 0 0 0 0 (List.replicate 1437 0), .tariffLoad wBadFrame ⟨1, 0, [1]⟩,
    .tariffLoad wFrame wBadChunk, .clockSet wBadFrame 0, .clockSet wFrame (2 ^ 64), .billingClose wBadFrame] :
    List Instr).all (fun i => !i.wf) = true := by decide +kernel

theorem test_wf_accepts_3 : ([
    .safetyConfirm wFrame 0, .safetyConfirmRevoke wFrame 0, .latchClearStage wFrame 0, .latchClearCell wFrame 0,
    .latchClearOutlet wFrame 0, .latchClearSafety wFrame 0, .latchClearDisplay wFrame 0,
    .latchClearTamperHold wFrame 0, .keyImport wFrame 0 0 (List.replicate 16 0) [] .failed {},
    .keyDerive wFrame 0 0 (List.replicate 16 0) [] {}, .keyInvalidate wFrame 0,
    .keyUseEncrypt wFrame 0 (List.replicate 12 0) [] [] {},
    .keyUseDecrypt wFrame 0 (List.replicate 12 0) [] [] true {}, .keyUseSign wFrame 0 [] {},
    .keyUseVerify wFrame 0 [] [] true {}, .keyUseMac wFrame 0 [] {}, .keyUsePublic wFrame 0 {},
    .attest wFrame (List.replicate 16 0) {}, .fwStage wFrame 0 ⟨1, 0, [1]⟩, .fwVerify wFrame 0 true {}] :
    List Instr).all Instr.wf = true := by decide +kernel

theorem test_wf_refuses_3 : ([
    .safetyConfirm wBadFrame 0, .safetyConfirm wFrame (2 ^ 32), .safetyConfirmRevoke wBadFrame 0,
    .safetyConfirmRevoke wFrame (2 ^ 32), .latchClearStage wBadFrame 0, .latchClearStage wFrame (2 ^ 8),
    .latchClearCell wBadFrame 0, .latchClearCell wFrame (2 ^ 8), .latchClearOutlet wBadFrame 0,
    .latchClearOutlet wFrame (2 ^ 8), .latchClearSafety wBadFrame 0, .latchClearSafety wFrame (2 ^ 8),
    .latchClearDisplay wBadFrame 0, .latchClearDisplay wFrame (2 ^ 8), .latchClearTamperHold wBadFrame 0,
    .latchClearTamperHold wFrame (2 ^ 8), .keyImport wBadFrame 0 0 (List.replicate 16 0) [] .failed {},
    .keyImport wFrame (2 ^ 8) 0 (List.replicate 16 0) [] .failed {},
    .keyImport wFrame 0 (2 ^ 8) (List.replicate 16 0) [] .failed {},
    .keyImport wFrame 0 0 (List.replicate 17 0) [] .failed {},
    .keyImport wFrame 0 0 (List.replicate 16 0) (List.replicate 1435 0) .failed {},
    .keyImport wFrame 0 0 (List.replicate 16 0) [] .failed { second := [(112, 1)] },
    .keyDerive wBadFrame 0 0 (List.replicate 16 0) [] {}, .keyDerive wFrame (2 ^ 8) 0 (List.replicate 16 0) [] {},
    .keyDerive wFrame 0 (2 ^ 8) (List.replicate 16 0) [] {}, .keyDerive wFrame 0 0 (List.replicate 17 0) [] {},
    .keyDerive wFrame 0 0 (List.replicate 16 0) (List.replicate 65 0) {},
    .keyDerive wFrame 0 0 (List.replicate 16 0) [] { second := [(112, 1)] }, .keyInvalidate wBadFrame 0,
    .keyInvalidate wFrame (2 ^ 8), .keyUseEncrypt wBadFrame 0 (List.replicate 12 0) [] [] {},
    .keyUseEncrypt wFrame (2 ^ 8) (List.replicate 12 0) [] [] {},
    .keyUseEncrypt wFrame 0 (List.replicate 13 0) [] [] {},
    .keyUseEncrypt wFrame 0 (List.replicate 12 0) (List.replicate 1435 0) [] {},
    .keyUseEncrypt wFrame 0 (List.replicate 12 0) [] (List.replicate 1435 0) {},
    .keyUseEncrypt wFrame 0 (List.replicate 12 0) [] [] { second := [(112, 1)] },
    .keyUseDecrypt wBadFrame 0 (List.replicate 12 0) [] [] true {},
    .keyUseDecrypt wFrame (2 ^ 8) (List.replicate 12 0) [] [] true {},
    .keyUseDecrypt wFrame 0 (List.replicate 13 0) [] [] true {},
    .keyUseDecrypt wFrame 0 (List.replicate 12 0) (List.replicate 1435 0) [] true {},
    .keyUseDecrypt wFrame 0 (List.replicate 12 0) [] (List.replicate 1435 0) true {},
    .keyUseDecrypt wFrame 0 (List.replicate 12 0) [] [] true { second := [(112, 1)] },
    .keyUseSign wBadFrame 0 [] {}, .keyUseSign wFrame (2 ^ 8) [] {},
    .keyUseSign wFrame 0 (List.replicate 1435 0) {}, .keyUseSign wFrame 0 [] { second := [(112, 1)] },
    .keyUseVerify wBadFrame 0 [] [] true {}, .keyUseVerify wFrame (2 ^ 8) [] [] true {},
    .keyUseVerify wFrame 0 (List.replicate 1435 0) [] true {},
    .keyUseVerify wFrame 0 [] (List.replicate 1435 0) true {},
    .keyUseVerify wFrame 0 [] [] true { second := [(112, 1)] }, .keyUseMac wBadFrame 0 [] {},
    .keyUseMac wFrame (2 ^ 8) [] {}, .keyUseMac wFrame 0 (List.replicate 1435 0) {},
    .keyUseMac wFrame 0 [] { second := [(112, 1)] }, .keyUsePublic wBadFrame 0 {}, .keyUsePublic wFrame (2 ^ 8) {},
    .keyUsePublic wFrame 0 { second := [(112, 1)] }, .attest wBadFrame (List.replicate 16 0) {},
    .attest wFrame (List.replicate 17 0) {}, .attest wFrame (List.replicate 16 0) { second := [(112, 1)] },
    .fwStage wBadFrame 0 ⟨1, 0, [1]⟩, .fwStage wFrame (2 ^ 8) ⟨1, 0, [1]⟩, .fwStage wFrame 0 wBadChunk,
    .fwVerify wBadFrame 0 true {}, .fwVerify wFrame (2 ^ 8) true {},
    .fwVerify wFrame 0 true { second := [(112, 1)] }] :
    List Instr).all (fun i => !i.wf) = true := by decide +kernel

theorem test_wf_accepts_4 : ([
    .fwActivate wFrame 0, .opStart 0, .opComplete 0, .resultHoldExpiry 0, .sessionIdleTimeout 0, .challengeLapse 0,
    .chunkTimeout 0 0, .recoveredHoldExpiry 0, .keyScrub {},
    .tamperEvent ⟨[], [true], [true], 900, 1800, 5000, 250⟩, .engImpLoRead wFrame 0, .tar1ImpLoRead wFrame 0,
    .chrTimeLoRead wFrame, .recordSelectWrite wFrame .evt 0, .unknownCommand wFrame 0,
    .tamperSourceCeases ⟨[], [true], [true], 900, 1800, 5000, 250⟩] :
    List Instr).all Instr.wf = true := by decide +kernel

theorem test_wf_refuses_4 : ([
    .fwActivate wBadFrame 0, .fwActivate wFrame (2 ^ 8), .opStart (2 ^ 32), .opComplete (2 ^ 32),
    .resultHoldExpiry (2 ^ 32), .sessionIdleTimeout (2 ^ 16), .challengeLapse (2 ^ 16), .chunkTimeout (2 ^ 16) 0,
    .recoveredHoldExpiry (2 ^ 32), .keyScrub { second := [(112, 1)] },
    .tamperEvent ⟨[], [true], [], 900, 1800, 5000, 250⟩, .engImpLoRead wBadFrame 0, .tar1ImpLoRead wBadFrame 0,
    .chrTimeLoRead wBadFrame, .recordSelectWrite wBadFrame .evt 0, .recordSelectWrite wFrame .evt (2 ^ 32),
    .unknownCommand wBadFrame 0, .tamperSourceCeases ⟨[], [true], [], 900, 1800, 5000, 250⟩] :
    List Instr).all (fun i => !i.wf) = true := by decide +kernel

/-! ### Witnesses -/

/-- The hypotheses of `StageStartCompletes` can be met. -/
theorem witness_StageStartCompletes :
    (∃ (s : State) (g : Fin 8), startRefusal s g = 0)
    ∧ (∃ (s : State) (g : Fin 8) (n : Nat), startRefusal s g = n + 1)
    ∧ (∃ (s : State) (g : Fin 8), starting s g = true ∧ isOutputStage s g = true ∧ (stageOutlets s g).any
      (readingsAgree s g) = false)
    ∧ (∃ (s : State) (g : Fin 8), s.sx.stage[g].st = .precharge ∧ stgKind s g ≠ 4 ∧ prechargeBand s g = true ∧
      (stageOutlets s g).all (vMerFresh s) = true)
    ∧ (∃ (s : State) (g : Fin 8), s.sx.stage[g].st = .closeWait ∧ prechargeBand s g = false)
    ∧ (∃ (s : State) (g : Fin 8), starting s g = true)
    ∧ (∃ (s : State) (g : Fin 8), s.sx.stage[g].st = .closeWait)
    ∧ (∃ (s : State) (g : Fin 8), s.sx.stage[g].st = .closeWait ∧ (stageOutlets s g).all (fun o =>
      s.lk.outlet[o].closed) = true)
    ∧ (∃ (s : State) (g : Fin 8), s.sx.stage[g].st = .noSink ∧ iMin s g ≤ stageCur s g) :=
  ⟨⟨wCfg [(0x12, 0, 0, 1)], 0, by decide +kernel⟩,
    ⟨wStage [] fun x => { x with st := .run }, 0, 0, by decide +kernel⟩,
    ⟨wStage [(0x11, 0, 0x028, 0x80000000), (0x20, 0, 0, 0x40000000)] fun x => { x with st := .precharge }, 0, by
      decide +kernel⟩,
    ⟨wStage [(0x11, 0, 0x034, 0)] fun x => { x with st := .precharge }, 0, by decide +kernel⟩,
    ⟨updSd (wStage [(0x11, 0, 0x028, 0x01000000), (0x11, 0, 0x02C, 0x00640000)] fun x => { x with
      st := .closeWait }) 1 fun x => { x with ctl := 2 ^ 30 }, 0, by decide +kernel⟩,
    ⟨wStage [] fun x => { x with st := .precharge }, 0, by decide +kernel⟩,
    ⟨wStage [] fun x => { x with st := .closeWait }, 0, by decide +kernel⟩,
    ⟨updLko (wStage [(0x20, 0, 0, 0x40000000)] fun x => { x with st := .closeWait }) 0 fun x => { x with
      closed := true }, 0, by decide +kernel⟩,
    ⟨wStage [(0x11, 0, 0x038, 0)] fun x => { x with st := .noSink }, 0, by decide +kernel⟩⟩

/-- The hypotheses of `StageStopCompletes` can be met. -/
theorem witness_StageStopCompletes :
    (∃ (s : State) (g : Fin 8), (s.sx.stage[g].st = .precharge ∨ s.sx.stage[g].st = .closeWait))
    ∧ (∃ (s : State) (g : Fin 8), (s.sx.stage[g].st = .noSink ∨ s.sx.stage[g].st = .run))
    ∧ (∃ (s : State) (g : Fin 8), s.sx.stage[g].st = .rampDown ∧ stageCur s g < iMin s g ∧ s.sx.stage[g].byHelm =
      true)
    ∧ (∃ (s : State) (g : Fin 8), s.sx.stage[g].st = .rampDown ∧ stageCur s g < iMin s g ∧ s.sx.stage[g].byHelm =
      false ∧ isOutputStage s g = true)
    ∧ (∃ (s : State) (g : Fin 8), s.sx.stage[g].st = .rampDown ∧ s.sx.stage[g].parked = true ∧ (stageOutlets s
      g).all (fun o => !s.lk.outlet[o].closed) = true ∧ canDischarge s g = true)
    ∧ (∃ (s : State) (g : Fin 8), s.sx.stage[g].st = .rampDown ∧ s.sx.stage[g].parked = true ∧ (stageOutlets s
      g).all (fun o => !s.lk.outlet[o].closed) = true ∧ canDischarge s g = false)
    ∧ (∃ (s : State) (g : Fin 8), s.sx.stage[g].st = .discharge ∧ vOut s g < 50 * unit31)
    ∧ (∃ (s : State) (g : Fin 8), s.sx.stage[g].st = .discharge)
    ∧ (∃ (s : State), s.landfall.helmUp = true ∧ s.sx.up = true ∧ s.sx.helmLost = false)
    ∧ (∃ (s : State), s.landfall.helmUp = true ∧ s.sx.up = true ∧ s.sx.helmLost = true)
    ∧ (∃ (s : State), s.sx.beating = true)
    ∧ (∃ (s : State), s.sx.up = true) :=
  ⟨⟨wStage [] fun x => { x with st := .precharge }, 0, by decide +kernel⟩,
    ⟨wStage [] fun x => { x with st := .run }, 0, by decide +kernel⟩,
    ⟨wStage [(0x11, 0, 0x038, 0x00010000)] fun x => { x with st := .rampDown, byHelm := true }, 0, by
      decide +kernel⟩,
    ⟨wStage [(0x11, 0, 0x038, 0x00010000), (0x11, 0, 0x028, 0x80000000)] fun x => { x with st := .rampDown }, 0, by
      decide +kernel⟩,
    ⟨wStage [(0x11, 0, 0x000, 0x00030000), (0x11, 0, 0x044, 0x00800000), (0x20, 0, 0, 0x40000000)] fun x => { x with
      st := .rampDown }, 0, by decide +kernel⟩,
    ⟨wStage [(0x20, 0, 0, 0x40000000)] fun x => { x with st := .rampDown }, 0, by decide +kernel⟩,
    ⟨wStage [] fun x => { x with st := .discharge }, 0, by decide +kernel⟩,
    ⟨wStage [] fun x => { x with st := .discharge }, 0, by decide +kernel⟩,
    ⟨wRun, by decide +kernel⟩,
    ⟨{ wRun with sx := { wRun.sx with helmLost := true } }, by decide +kernel⟩,
    ⟨wRun, by decide +kernel⟩,
    ⟨wRun, by decide +kernel⟩⟩

/-- The hypotheses of `LatchesComplete` can be met. -/
theorem witness_LatchesComplete :
    (∃ (s : State) (g : Fin 8), (s.sx.stage[g].st = .noSink ∨ s.sx.stage[g].st = .run) ∧ stageCur s g <
      -reverseBound s g)
    ∧ (∃ (s : State) (c : Fin 48) (g : Fin 8), cellStage s c = some g ∧ s.sx.stage[g].st.running = true ∧ cfgN s
      0x11 g 0x050 31 24 ≤ s.sx.cell[c].cbcRun + flag s.sx.cell[c].cbcHit)
    ∧ (∃ (s : State) (g : Fin 8), cfgN s 0x11 g 0x050 15 0 ≠ 0 ∧ s.sx.stage[g].st.running = true ∧ cfgN s 0x11 g
      0x050 15 0 * unit31 < stageCur s g)
    ∧ (∃ (s : State) (n : Fin 48) (g : Fin 8), channelStage s n = some g)
    ∧ (∃ (s : State) (n : Fin 48) (g : Fin 8) (w : Nat), channelStage s n = some g ∧ 5000 ≤ w)
    ∧ (∃ (w : Nat), w ≤ 2000)
    ∧ (∃ (s : State) (n : Fin 48) (g : Fin 8) (w : Nat), channelStage s n = some g ∧ 2000 < w ∧ w < 5000)
    ∧ (∃ (s : State) (n : Fin 48) (g : Fin 8), channelStage s n = some g)
    ∧ (∃ (s : State) (n : Fin 48), channelStage s n = none)
    ∧ (∃ (s : State) (i : Fin 96) (g : Fin 8), 3 ≤ s.sx.law[i].ovrConsec ∧ lawStage s i = some g ∧ s.sx.stage[g].st
      ≠ .off)
    ∧ (∃ (s : State) (i : Fin 96), 3 ≤ s.sx.law[i].ovrConsec ∧ lawStage s i = none ∧ s.sx.law[i].stopped = false)
    ∧ (∃ (s : State) (g : Fin 8), s.sx.stage[g].st ≠ .off)
    ∧ (∃ (s : State) (c : Fin 48) (g : Fin 8), cellStage s c = some g ∧ s.sx.stage[g].st.running = true ∧ cellOpen s
      g c = true)
    ∧ (∃ (s : State) (c : Fin 48) (g : Fin 8), cellStage s c = some g ∧ s.sx.stage[g].st.running = true ∧
      s.sx.cell[c].st = .estimated ∧ sdInvalid s (cellSrc s c) = true) :=
  ⟨⟨updSd (wStage [(0x11, 0, 0x02C, 0x64), (0x11, 0, 0x03C, 0)] fun x => { x with st := .run }) 0 fun x => { x with
  ctl := -2 ^ 30 }, 0, by decide +kernel⟩,
    ⟨updCell (wStage [(0x12, 0, 0, 1)] fun x => { x with st := .run }) 0 fun x => { x with cbcRun := 255 }, 0, 0, by
      decide +kernel⟩,
    ⟨updSd (wStage [(0x11, 0, 0x02C, 0x64), (0x11, 0, 0x050, 1)] fun x => { x with st := .run }) 0 fun x => { x with
      ctl := 2 ^ 30 }, 0, by decide +kernel⟩,
    ⟨wCfg [(0x11, 0, 0, 0x00010000), (0x12, 0, 0, 1)], 0, 0, by decide +kernel⟩,
    ⟨wCfg [(0x11, 0, 0, 0x00010000), (0x12, 0, 0, 1)], 0, 0, 5000, by decide +kernel⟩,
    ⟨2000, by decide +kernel⟩,
    ⟨wCfg [(0x11, 0, 0, 0x00010000), (0x12, 0, 0, 1)], 0, 0, 2001, by decide +kernel⟩,
    ⟨wCfg [(0x11, 0, 0, 0x00010000), (0x12, 0, 0, 1)], 0, 0, by decide +kernel⟩,
    ⟨wRun, 0, by decide +kernel⟩,
    ⟨updLaw (wStage [(0x14, 0, 0, 0x40000000)] fun x => { x with st := .run }) 0 fun x => { x with ovrConsec := 3 },
      0, 0, by decide +kernel⟩,
    ⟨updLaw wRun 0 fun x => { x with ovrConsec := 3 }, 0, by decide +kernel⟩,
    ⟨wStage [] fun x => { x with st := .run }, 0, by decide +kernel⟩,
    ⟨updCell (wStage [(0x12, 0, 0, 1), (0x11, 0, 0x054, 0x00640000)] fun x => { x with st := .run }) 0 fun x =>
      { x with st := .inService, share := 10 }, 0, 0, by decide +kernel⟩,
    ⟨updSd (updCell (wStage [(0x12, 0, 0, 1)] fun x => { x with st := .run }) 0 fun x => { x with
      st := .estimated }) 0 fun x => { x with invalid := true }, 0, 0, by decide +kernel⟩⟩

/-- The hypotheses of `FrontEndCompletes` can be met. -/
theorem witness_FrontEndCompletes :
    (∃ (s : State) (g : Fin 8), s.sx.stage[g].st = .precharge ∧ stgKind s g = 4 ∧ vMinReached s g = true ∧
      acMainClosed s = true ∧ linkPrechargeOff s = true ∧ omegaSteady s g = true)
    ∧ (∃ (s : State) (g : Fin 8), stgKind s g = 4 ∧ s.landfall.phase = 9 ∧ safetyConfirmed s = true ∧ permitHigh s =
      true ∧ afeWanted s g = true ∧ s.sx.stage[g].st = .off)
    ∧ (∃ (s : State) (g : Fin 8), s.sx.stage[g].st = .precharge ∧ stgKind s g = 4 ∧ vMinReached s g = true)
    ∧ (∃ (s : State), acMainClosed s = true)
    ∧ (∃ (s : State) (g : Fin 8), s.sx.stage[g].st = .run ∧ stgKind s g = 4 ∧ afeQuiet s g = true) :=
  ⟨⟨updSo (wStage [(0x11, 0, 0, 0x00040000), (0x11, 0, 0x034, 0), (0x40, 0x20, 0, 0x80000000)] fun x => { x with
  st := .precharge }) 0 fun x => { x with cmd := true, confOn := true }, 0, by decide +kernel⟩,
    ⟨updOutlet (wCfg [(0x11, 0, 0, 0x00040000), (0x20, 0, 0, 0x40000000)]) 0 fun x => { x with st := .plugged }, 0,
      by decide +kernel⟩,
    ⟨wStage [(0x11, 0, 0, 0x00040000), (0x11, 0, 0x034, 0)] fun x => { x with st := .precharge }, 0, by
      decide +kernel⟩,
    ⟨updSo (wCfg [(0x40, 0x20, 0, 0x80000000)]) 0 fun x => { x with cmd := true, confOn := true }, by
      decide +kernel⟩,
    ⟨wStage [(0x11, 0, 0, 0x00040000), (0x20, 0, 0, 0x40000000)] fun x => { x with st := .run }, 0, by
      decide +kernel⟩⟩

/-- The hypotheses of `SheddingCompletes` can be met. -/
theorem witness_SheddingCompletes :
    (∃ (s : State) (g : Fin 8) (c : Fin 48), shedWanted s g = true ∧ mayRamp s g = true ∧ s.sx.stage[g].shedHold =
      false ∧ ((stageCells s g).filter fun c => s.sx.cell[c].st = .inService).getLast? = some c)
    ∧ (∃ (s : State) (g : Fin 8) (c : Fin 48), addWanted s g = true ∧ mayRamp s g = true ∧ ((stageCells s g).find?
      fun c => s.sx.cell[c].st = .shed) = some c)
    ∧ (∃ (s : State) (g : Fin 8) (c : Fin 48), s.sx.stage[g].st.running = true ∧ ((stageCells s g).find? fun c =>
      s.sx.stage[g].st.running && decide (s.sx.cell[c].st = .shedding)) = some c)
    ∧ (∃ (s : State) (g : Fin 8) (c : Fin 48), s.sx.stage[g].st.running = true ∧ ((stageCells s g).find? fun c =>
      s.sx.stage[g].st.running && decide (s.sx.cell[c].st = .adding)) = some c)
    ∧ (∃ (s : State) (g : Fin 8), s.sx.stage[g].firing = false)
    ∧ (∃ (s : State) (k : Fin 8), cfgB s 0x10 0 (0x040 + 4 * k.val) 31 = true)
    ∧ (∃ (s : State) (k : Fin 8) (uV : Nat) (slope : Nat) (g : Fin 8), cfgB s 0x10 0 (0x040 + 4 * k.val) 31 = true ∧
      g = Fin.ofNat 8 (cfgN s 0x10 0 (0x040 + 4 * k.val) 30 28) ∧ uscBelow s k uV = true ∧ 10 * cfgN s 0x10 0 (0x040
      + 4 * k.val) 15 8 < slope ∧ stgKind s g ≠ 4 ∧ cfgB s 0x11 g 0x040 31 = true ∧ (s.sx.stage[g].st = .noSink ∨
      s.sx.stage[g].st = .run) ∧ s.sx.stage[g].armed = true)
    ∧ (∃ (s : State) (k : Fin 8), stgKind s (Fin.ofNat 8 (cfgN s 0x10 0 (0x040 + 4 * k.val) 30 28)) = 4)
    ∧ (∃ (s : State) (g : Fin 8), s.sx.stage[g].firing = true)
    ∧ (∃ (s : State) (g : Fin 8), s.sx.stage[g].needTargets = true)
    ∧ (∃ (s : State) (g : Fin 8), ((stageCells s g).all fun c => !(s.sx.cell[c].retireNext || (s.sx.cell[c].rampOut
      && decide (shedRamp s g ≤ s.sx.cell[c].ramp)))) = true) :=
  ⟨⟨updCell (updCell (wStage [(0x11, 0, 0x048, 0x80000000), (0x12, 0, 0, 1), (0x12, 1, 0, 1)] fun x => { x with
  st := .run }) 0 fun x => { x with st := .inService }) 1 fun x => { x with st := .inService }, 0, 1, by
  decide +kernel⟩,
    ⟨updCell (updCell (wStage [(0x11, 0, 0x048, 0x80000000), (0x12, 0, 0, 1), (0x12, 1, 0, 1)] fun x => { x with
      st := .run }) 0 fun x => { x with st := .inService }) 1 fun x => { x with st := .shed }, 0, 1, by
      decide +kernel⟩,
    ⟨updCell (wStage [(0x12, 0, 0, 1)] fun x => { x with st := .run }) 0 fun x => { x with st := .shedding }, 0, 0,
      by decide +kernel⟩,
    ⟨updCell (wStage [(0x12, 0, 0, 1)] fun x => { x with st := .run }) 0 fun x => { x with st := .adding }, 0, 0, by
      decide +kernel⟩,
    ⟨wRun, 0, by decide +kernel⟩,
    ⟨wCfg [(0x10, 0, 0x040, 0x80000000)], 0, by decide +kernel⟩,
    ⟨wStage [(0x10, 0, 0x040, 0x80010000), (0x11, 0, 0x040, 0x80000000)] fun x => { x with
      st := .run, armed := true }, 0, 0, 1, _, by decide +kernel, rfl, by decide +kernel, by decide +kernel, by
      decide +kernel, by decide +kernel, by decide +kernel, by decide +kernel⟩,
    ⟨wCfg [(0x11, 0, 0, 0x00040000)], 0, by decide +kernel⟩,
    ⟨wStage [] fun x => { x with firing := true }, 0, by decide +kernel⟩,
    ⟨wStage [] fun x => { x with needTargets := true }, 0, by decide +kernel⟩,
    ⟨wRun, 0, by decide +kernel⟩⟩

/-- The hypotheses of `FabricCompletes` can be met. -/
theorem witness_FabricCompletes :
    (∃ (s : State) (c : Fin 48) (g : Fin 8), cellStage s c = some g)
    ∧ (∃ (s : State) (g : Fin 8), syncEn s g = true ∧ 16 ≤ s.sx.aux[g].syncRun)
    ∧ (∃ (s : State) (g : Fin 8), syncEn s g = true)
    ∧ (∃ (s : State) (n : Fin 64) (b : Bool), sdEn s n = true ∧ sdInvalid s n = false ∧ s.sx.sd[n].bits.head? = some
      (!b) ∧ 2 ^ ctlLog s n ≤ s.sx.sd[n].phase + 1)
    ∧ (∃ (s : State) (n : Fin 64) (b : Bool), sdEn s n = true ∧ sdInvalid s n = false ∧ s.sx.sd[n].bits.head? = some
      (!b))
    ∧ (∃ (s : State) (n : Fin 64), sdEn s n = true ∧ sdInvalid s n = false)
    ∧ (∃ (s : State) (n : Fin 64), sdInvalid s n = true ∧ s.flt.sdLost.getLsbD (cfgN s 0x15 n 0x000 26 24) = false)
    ∧ (∃ (s : State) (i : Fin 96), lawEn s i = true ∧ lawN s i 0x004 31 30 = 3 ∧ lawHeld s i = false ∧
      s.sx.law[i].stopped = false ∧ s.sx.law[i].ready = none ∧ s.sx.law[i].out = none)
    ∧ (∃ (s : State) (i : Fin 96) (tm : Nat) (trig : Nat), nextReady s = some (i, trig) ∧ s.sx.laneFree ≤ tm + 8)
    ∧ (∃ (s : State) (i : Fin 96) (r : LawOut), s.sx.law[i].out = some r)
    ∧ (∃ (s : State), s.flt.island[11].lost = false)
    ∧ (∃ (s : State), s.flt.island[11].lost = true) :=
  ⟨⟨wCfg [(0x12, 0, 0, 1)], 0, 0, by decide +kernel⟩,
    ⟨updAux (wCfg [(0x11, 0, 0x008, 0x80000000)]) 0 fun x => { x with syncRun := 16 }, 0, by decide +kernel⟩,
    ⟨wCfg [(0x11, 0, 0x008, 0x80000000)], 0, by decide +kernel⟩,
    ⟨updSd (wCfg [(0x15, 0, 0, 0x80000000)]) 0 fun x => { x with bits := [false], phase := 4096 }, 0, true, by
      decide +kernel⟩,
    ⟨updSd (wCfg [(0x15, 0, 0, 0x80000000)]) 0 fun x => { x with bits := [false] }, 0, true, by decide +kernel⟩,
    ⟨wCfg [(0x15, 0, 0, 0x80000000)], 0, by decide +kernel⟩,
    ⟨updSd wRun 0 fun x => { x with invalid := true }, 0, by decide +kernel⟩,
    ⟨wCfg [(0x14, 0, 0, 0x80000000), (0x14, 0, 4, 0xC0000000)], 0, by decide +kernel⟩,
    ⟨updLaw wRun 0 fun x => { x with ready := some 5 }, 0, 0, 5, by decide +kernel⟩,
    ⟨updLaw wRun 0 fun x => { x with out := some ⟨0, [], 0, false, 0, 0, 0, 0⟩ }, 0, ⟨0, [], 0, false, 0, 0, 0, 0⟩,
      by decide +kernel⟩,
    ⟨wRun, by decide +kernel⟩,
    ⟨{ wRun with flt := { island := (Vector.replicate 17 {}).set 11 { lost := true } } }, by decide +kernel⟩⟩

/-- The hypotheses of `SafetyInputCompletes` can be met. -/
theorem witness_SafetyInputCompletes :
    (∃ (s : State) (n : Fin 16), (lineDemand s n s.lk.si[n].a s.lk.si[n].b).1 ≠ (lineDemand s n s.lk.si[n].a
      s.lk.si[n].b).2)
    ∧ (∃ (s : State) (k : Fin 4) (sideB : Bool) (samples : List (BitVec 16 × BitVec 16)) (n : Fin 16), fedBy s n k =
      true ∧ suspended s 9 = false ∧ (∀ p ∈ samples, (if sideB then p.2 else p.1).getLsbD n = true) ∧
      s.lk.si[n].tpBad[(if sideB then 1 else 0 : Fin 4)] = true)
    ∧ (∃ (s : State) (k : Fin 4) (sideB : Bool) (samples : List (BitVec 16 × BitVec 16)) (n : Fin 16), fedBy s n k =
      true ∧ suspended s 9 = false ∧ (∃ p ∈ samples, (if sideB then p.2 else p.1).getLsbD n = false) ∧ (∀ p ∈
      samples, (if sideB then p.1 else p.2).getLsbD n = true))
    ∧ (∃ (s : State) (a : LkImage) (b : LkImage), s.lk.runA = true ∧ s.lk.runB = true ∧ a.fns = b.fns ∧ a.outs =
      b.outs ∧ (a.inputs ^^^ b.inputs) &&& s.lk.inputDiff = 0)
    ∧ (∃ (s : State) (a : LkImage) (b : LkImage), s.lk.runA = true ∧ s.lk.runB = true ∧ (a.fns ≠ b.fns ∨ a.outs ≠
      b.outs ∨ (a.inputs ^^^ b.inputs) &&& s.lk.inputDiff ≠ 0))
    ∧ (∃ (s : State), s.lk.runA = true ∧ s.lk.runB = true)
    ∧ (∃ (s : State) (ms : Nat), cfgB s 0x40 0 0x020 29 = true ∧ s.lk.press = some ms ∧ 100 ≤ ms ∧ ms ≤ 5000 ∧
      inDemand s (Fin.ofNat 16 (cfgN s 0x40 0 0x020 28 25)) = false)
    ∧ (∃ (s : State) (o : Fin 2), cfgB s 0x40 (0x30 + o) 0x000 13 = true ∧ suspended s 15 = false ∧ outletInput s o
      13 31 28 = false ∧ (s.lk.outlet[o]).holster = 1 ∧ held100 s (Fin.ofNat 16 (cfgN s 0x40 (0x30 + o) 0x000 31
      28)) o = true)
    ∧ (∃ (s : State), s.landfall.phase = 9) :=
  ⟨⟨updSi (wCfg [(0x40, 0x10, 0, 0x40000000)]) 0 fun x => { x with a := true }, 0, by decide +kernel⟩,
    ⟨updSi (wCfg [(0x40, 0x10, 0, 0x60000000)]) 0 fun x => { x with tpBad := Vector.replicate 4 true }, 0, false,
      [(1, 0)], 0, by decide +kernel, by decide +kernel, by simp, by decide +kernel⟩,
    ⟨wCfg [(0x40, 0x10, 0, 0x60000000)], 0, false, [(0, 1)], 0, by decide +kernel, by decide +kernel, by simp, by
      simp⟩,
    ⟨wRun, ⟨1, 0, 0⟩, ⟨0, 0, 0⟩, by decide +kernel⟩,
    ⟨wRun, ⟨0, 1, 0⟩, ⟨0, 0, 0⟩, by decide +kernel⟩,
    ⟨wRun, by decide +kernel⟩,
    ⟨{ wCfg [(0x40, 0, 0x020, 0x20000000)] with lk := { wRun.lk with press := some 100 } }, 100, by decide +kernel⟩,
    ⟨{ updLko (wCfg [(0x40, 0x30, 0, 0x2000)]) 0 fun x => { x with holster := 1 } with mono := 1000 }, 0, by
      decide +kernel⟩,
    ⟨wRun, by decide +kernel⟩⟩

/-- The hypotheses of `SafetyOutputCompletes` can be met. -/
theorem witness_SafetyOutputCompletes :
    (∃ (s : State) (n : Fin 8), soKind s n ≠ 0 ∧ s.lk.so[n].since + tFb s n ≤ s.mono ∧ suspended s 8 = false)
    ∧ (∃ (s : State) (n : Fin 8), soKind s n ≠ 0 ∧ s.lk.so[n].since + tFb s n ≤ s.mono ∧ suspended s 8 = false ∧
      s.lk.so[n].fault = 0)
    ∧ (∃ (s : State) (n : Fin 8), soKind s n ≠ 0 ∧ s.lk.so[n].fault = 0)
    ∧ (∃ (s : State) (n : Fin 8), soKind s n ≠ 0 ∧ s.lk.so[n].since + tFb s n ≤ s.mono ∧ (fbEn s n = false ∨
      (s.lk.so[n].cmd = false ∧ suspended s 16 = true)))
    ∧ (∃ (s : State) (n : Fin 8), soKind s n ≠ 0 ∧ s.lk.so[n].since + tFb s n ≤ s.mono ∧ fbEn s n = true ∧
      s.lk.so[n].cmd = true)
    ∧ (∃ (s : State) (n : Fin 8) (a : Bool) (b : Bool), soKind s n ≠ 0 ∧ s.lk.so[n].since + tFb s n ≤ s.mono ∧ fbEn
      s n = true ∧ s.lk.so[n].cmd = true ∧ s.lk.so[n].fault = 0 ∧ (a || b) = true)
    ∧ (∃ (s : State) (n : Fin 8), soKind s n ≠ 0 ∧ s.lk.so[n].since + tFb s n ≤ s.mono ∧ fbEn s n = true ∧ suspended
      s 16 = false ∧ s.lk.so[n].cmd = false)
    ∧ (∃ (s : State) (n : Fin 8) (a : Bool) (b : Bool), soKind s n ≠ 0 ∧ s.lk.so[n].since + tFb s n ≤ s.mono ∧ fbEn
      s n = true ∧ suspended s 16 = false ∧ s.lk.so[n].cmd = false ∧ (a && b) = false)
    ∧ (∃ (s : State) (n : Fin 8) (a : Bool) (b : Bool), fbEn s n = true ∧ suspended s 16 = false ∧ soKind s n ≠ 0 ∧
      s.lk.so[n].since + tFb s n < s.mono ∧ s.lk.so[n].cmd = false ∧ (a && b) = false)
    ∧ (∃ (s : State) (n : Fin 8) (a : Bool) (b : Bool), fbEn s n = true ∧ soKind s n ≠ 0 ∧ a ≠ b ∧ s.lk.so[n].fault
      = 0)
    ∧ (∃ (s : State) (o : Fin 2), helmMayClose s o (vOutMv s o) = false)
    ∧ (∃ (s : State) (o : Fin 2), helmMayClose s o (vOutMv s o) = true ∧ closeWaits s o = true)
    ∧ (∃ (s : State) (o : Fin 2), helmMayClose s o (vOutMv s o) = true ∧ closeWaits s o = false ∧ closeRefusal s o
      (vOutMv s o) = 0)
    ∧ (∃ (s : State) (o : Fin 2) (k : Fin 16), helmMayClose s o (vOutMv s o) = true ∧ closeWaits s o = false ∧
      closeRefusal s o (vOutMv s o) = k + 1)
    ∧ (∃ (s : State) (o : Fin 2) (w : CloseWait), (s.lk.outlet[o]).wait = some w)
    ∧ (∃ (s : State) (o : Fin 2), s.outlet[o].st = .authorised ∧ outType s o ≠ 0)
    ∧ (∃ (s : State) (o : Fin 2), (s.lk.outlet[o]).lock = true ∧ sf5Ok s o = true ∧ (s.outlet[o].st = .unlock ∨
      s.outlet[o].st = .faulted ∧ below60 s o = true))
    ∧ (∃ (s : State) (o : Fin 2), (s.lk.outlet[o]).lock = true ∧ (s.outlet[o].st = .unlock ∨ s.outlet[o].st =
      .faulted) ∧ (sf5Ok s o = false ∨ s.outlet[o].st = .faulted ∧ below60 s o = false))
    ∧ (∃ (s : State) (o : Fin 2), s.outlet[o].st.locked = false)
    ∧ (∃ (s : State) (o : Fin 2), s.outlet[o].st.locked = true) :=
  ⟨⟨{ wCfg [(0x40, 0x20, 0, 0x20000000)] with mono := 1000 }, 0, by decide +kernel⟩,
    ⟨{ wCfg [(0x40, 0x20, 0, 0x20000000)] with mono := 1000 }, 0, by decide +kernel⟩,
    ⟨wCfg [(0x40, 0x20, 0, 0x20000000)], 0, by decide +kernel⟩,
    ⟨{ wCfg [(0x40, 0x20, 0, 0x20000000)] with mono := 1000 }, 0, by decide +kernel⟩,
    ⟨{ updSo (wCfg [(0x40, 0x20, 0, 0x30000000)]) 0 fun x => { x with cmd := true } with mono := 1000 }, 0, by
      decide +kernel⟩,
    ⟨{ updSo (wCfg [(0x40, 0x20, 0, 0x30000000)]) 0 fun x => { x with cmd := true } with mono := 1000 }, 0, true,
      false, by decide +kernel⟩,
    ⟨{ wCfg [(0x40, 0x20, 0, 0x30000000)] with mono := 1000 }, 0, by decide +kernel⟩,
    ⟨{ wCfg [(0x40, 0x20, 0, 0x30000000)] with mono := 1000 }, 0, false, true, by decide +kernel⟩,
    ⟨{ wCfg [(0x40, 0x20, 0, 0x30000000)] with mono := 1000 }, 0, false, true, by decide +kernel⟩,
    ⟨wCfg [(0x40, 0x20, 0, 0x30000000)], 0, false, true, by decide +kernel⟩,
    ⟨wRun, 0, by decide +kernel⟩,
    ⟨updLko (updOutlet (wCfg [(0x20, 0, 0, 0x40000000), (0x11, 0, 0x028, 0x01000000)]) 0 fun x => { x with
      vMerAt := some 0 }) 0 fun x => { x with snd := { stRun := true } }, 0, by decide +kernel⟩,
    ⟨updLko (updOutlet (wCfg [(0x20, 0, 0, 0x40000000), (0x11, 0, 0x028, 0x01000000)]) 0 fun x => { x with
      vMerAt := some 0 }) 0 fun x => { x with lockFb := true }, 0, by decide +kernel⟩,
    ⟨updOutlet (wCfg [(0x20, 0, 0, 0x40000000), (0x11, 0, 0x028, 0x01000000)]) 0 fun x => { x with
      vMerAt := some 0 }, 0, 0, by decide +kernel⟩,
    ⟨updLko wRun 0 fun x => { x with wait := some ⟨0⟩ }, 0, ⟨0⟩, by decide +kernel⟩,
    ⟨wOut [(0x20, 0, 0, 0x40000000)] fun x => { x with st := .authorised }, 0, by decide +kernel⟩,
    ⟨updLko (wOut [] fun x => { x with st := .unlock }) 0 fun x => { x with lock := true }, 0, by decide +kernel⟩,
    ⟨updLko (wOut [(0x20, 0, 0, 0x40000000)] fun x => { x with st := .faulted, vMer := 60000 }) 0 fun x => { x with
      lock := true }, 0, by decide +kernel⟩,
    ⟨wRun, 0, by decide +kernel⟩,
    ⟨wOut [] fun x => { x with st := .energyTransfer }, 0, by decide +kernel⟩⟩

/-- The hypotheses of `SoundingCompletes` can be met. -/
theorem witness_SoundingCompletes :
    (∃ (s : State) (o : Fin 2), (s.lk.outlet[o]).snd.stRun = false ∧ s.outlet[o].st = .idle)
    ∧ (∃ (p : Nat) (n : Nat), p ≤ 1200000 ∧ n ≤ 1200000)
    ∧ (∃ (s : State), suspended s 10 = false)
    ∧ (∃ (s : State) (o : Fin 2) (r : Nat), (s.lk.outlet[o]).snd.stRun = true ∧ periodValue s o = some (some r))
    ∧ (∃ (s : State) (o : Fin 2), (s.lk.outlet[o]).snd.stRun = true ∧ (∀ r, periodValue s o ≠ some (some r)))
    ∧ (∃ (s : State) (o : Fin 2), (s.lk.outlet[o]).snd.stFail = true ∧ (s.lk.outlet[o]).snd.stRun = false) :=
  ⟨⟨wRun, 0, by decide +kernel⟩,
    ⟨1200000, 0, by decide +kernel⟩,
    ⟨wRun, by decide +kernel⟩,
    ⟨updLko (wCfg [(0x40, 0x30, 0x00C, 0x00C80000), (0x40, 0, 0x028, 80)]) 0 fun x => { x with
      snd := { stRun := true, halves := [⟨24000, true, true⟩, ⟨0, true, false⟩] } }, 0, 857, by decide +kernel⟩,
    ⟨updLko wRun 0 fun x => { x with snd := { stRun := true } }, 0, by decide +kernel, fun r h => nomatch (show none
      = some (some r) from h)⟩,
    ⟨updLko wRun 0 fun x => { x with snd := { stFail := true } }, 0, by decide +kernel⟩⟩

/-- The hypotheses of `VehicleLinkCompletes` can be met. -/
theorem witness_VehicleLinkCompletes :
    (∃ (s : State) (o : Fin 2) (high : List Nat) (low : List Nat) (pp : List Nat) (ms : Nat) (pos : Nat) (m : Nat),
      outType s o = 1 ∧ s.landfall.vdda = true ∧ cfgN s 0x20 o 0x00C 15 8 ≤ ms ∧ posPlateau s.outlet[o].pilot.drive
      high = some pos ∧ meanOf pp = some m ∧ cfgN s 0x20 o 0x01C 11 0 ≤ m ∧ m ≤ cfgN s 0x20 o 0x01C 27 16 ∧ nextCond
      s o (nextLevel s o pos s.outlet[o].pilot.level) (if s.outlet[o].pilot.drive = .pwm then (median (midPhase
      low)).getD s.outlet[o].pilot.neg else s.outlet[o].pilot.neg) true s.outlet[o].pilot.drive = .ready ∧
      s.outlet[o].st = .energyTransfer)
    ∧ (∃ (s : State) (o : Fin 2), outType s o = 1 ∧ s.outlet[o].link.started = true ∧ s.flt.island[(3 : Fin
      17)].lost = false ∧ s.landfall.pathFail.getLsbD (2 + o.val) = false)
    ∧ (∃ (s : State) (o : Fin 2) (m : SlacMessage), outType s o = 2 ∧ s.outlet[o].link.started = true ∧
      s.outlet[o].pilot.pwmBegun = true ∧ slacStage m = s.outlet[o].link.slac + 1 ∧ slacStage m < 5)
    ∧ (∃ (s : State) (o : Fin 2), outType s o = 2 ∧ s.outlet[o].link.started = true ∧ s.outlet[o].pilot.pwmBegun =
      true ∧ s.outlet[o].link.slac = 4)
    ∧ (∃ (s : State) (o : Fin 2), s.outlet[o].link.phyUp = true)
    ∧ (∃ (s : State) (o : Fin 2) (h : TlsHello) (g : TlsGroup) (x : TlsScheme) (k : Fin 128) (r : Fin 128),
      s.outlet[o].link.sdp = true ∧ (h.groups.find? fun g => g == .secp521r1 || g == .x448) = some g ∧
      (h.schemes.find? fun x => (x == .ecdsaSecp521r1 || x == .ed448) && (seccSlot s x).isSome) = some x ∧ seccSlot
      s x = some k ∧ rootSlot s h.root = some r ∧ (h.suite && h.completes && h.chain != .other) = true)
    ∧ (∃ (s : State) (o : Fin 2) (h : TlsHello), s.outlet[o].link.sdp = true ∧ (h.suite && h.completes && h.chain !=
      .other) = false)
    ∧ (∃ (s : State) (o : Fin 2), s.outlet[o].link.phyUp = true ∧ outType s o ≠ 0 ∧ s.outlet[o].st.faultable = true)
    ∧ (∃ (s : State) (o : Fin 2), s.outlet[o].link.sdp = true ∧ s.outlet[o].link.tls = true)
    ∧ (∃ (s : State) (o : Fin 2), s.outlet[o].link.proto ≠ 0)
    ∧ (∃ (s : State) (o : Fin 2), s.outlet[o].link.started = true ∧ outType s o ≠ 0 ∧ s.outlet[o].st.faultable =
      true) :=
  ⟨⟨wOut [(0x20, 0, 0, 0x40000000), (0x20, 0, 0x01C, 0x0FFF0000), (0x20, 0, 0x024, 0x22222222), (0x20, 0, 0x00C, 0)]
  fun x => { x with st := .energyTransfer }, 0, [0], [], [0], 0, 0, 0, by decide +kernel⟩,
    ⟨wOut [(0x20, 0, 0, 0x40000000)] fun x => { x with link := { started := true } }, 0, by decide +kernel⟩,
    ⟨wOut [(0x20, 0, 0, 0x80000000)] fun x => { x with link := { started := true }, pilot := { pwmBegun := true } },
      0, .parm, by decide +kernel⟩,
    ⟨wOut [(0x20, 0, 0, 0x80000000)] fun x => { x with
      link := { started := true, slac := 4 }, pilot := { pwmBegun := true } }, 0, by decide +kernel⟩,
    ⟨wOut [] fun x => { x with link := { phyUp := true } }, 0, by decide +kernel⟩,
    ⟨updSlot (updSlot (wOut [] fun x => { x with link := { sdp := true } }) 9 fun _ => wSlot 5 0x13 []) 10 fun _ =>
      { wSlot 6 0x12 [] with attrs := [6, 0x12, 0x1F, 0xFF, 0, 0, 0, 0] ++ List.replicate 8 1 }, 0, ⟨true, [.x448],
      [.ecdsaSecp521r1], .ecdsaSecp521r1, List.replicate 8 1, true⟩, .x448, .ecdsaSecp521r1, 9, 10, by
      decide +kernel⟩,
    ⟨wOut [] fun x => { x with link := { sdp := true } }, 0, ⟨false, [], [], .other, [], true⟩, by decide +kernel⟩,
    ⟨wOut [(0x20, 0, 0, 0x80000000)] fun x => { x with link := { phyUp := true } }, 0, by decide +kernel⟩,
    ⟨wOut [] fun x => { x with link := { sdp := true, tls := true } }, 0, by decide +kernel⟩,
    ⟨wOut [] fun x => { x with link := { proto := 1 } }, 0, by decide +kernel⟩,
    ⟨wOut [(0x20, 0, 0, 0x80000000)] fun x => { x with link := { started := true } }, 0, by decide +kernel⟩⟩

/-- The hypotheses of `VehicleRequestsComplete` can be met. -/
theorem witness_VehicleRequestsComplete :
    (∃ (s : State) (o : Fin 2), s.outlet[o].link.session = true)
    ∧ (∃ (s : State) (o : Fin 2), s.outlet[o].link.session = true ∧ s.outlet[o].link.proto = 1)
    ∧ (∃ (s : State) (o : Fin 2) (b : Bool), s.outlet[o].link.session = true ∧ s.outlet[o].link.proto = 1 ∧ (b =
      true → bptOffered s o = true))
    ∧ (∃ (s : State) (o : Fin 2), s.outlet[o].link.session = true ∧ s.outlet[o].link.proto = 2)
    ∧ (∃ (s : State) (o : Fin 2), s.outlet[o].link.session = true)
    ∧ (∃ (s : State) (o : Fin 2), s.outlet[o].link.session = true ∧ s.outlet[o].link.proto = 1)
    ∧ (∃ (s : State) (o : Fin 2), s.outlet[o].link.session = true ∧ s.outlet[o].link.proto = 1)
    ∧ (∃ (s : State) (o : Fin 2) (c : Instr), s.outlet[o].link.session = true ∧ s.outlet[o].link.proto = 2 ∧ (c =
      .scheduleExchange o true ∨ c = .scheduleExchange o false ∨ c = .powerDelivery o .renegotiate ∨ (∃ n, c =
      .serviceDiscovery o (.detail n)) ∨ (∃ b, c = .serviceDiscovery o (.selection b)) ∨ ∃ exi, c =
      .certificateInstallation o exi))
    ∧ (∃ (s : State) (o : Fin 2), s.outlet[o].link.session = true ∧ s.outlet[o].st = .authorised)
    ∧ (∃ (s : State) (o : Fin 2), s.outlet[o].link.session = true ∧ s.outlet[o].st = .isolationTest ∧
      s.outlet[o].isoStep = 5 ∧ s.outlet[o].preReq = false)
    ∧ (∃ (s : State) (o : Fin 2), s.outlet[o].link.session = true ∧ s.outlet[o].st = .isolationTest)
    ∧ (∃ (s : State) (o : Fin 2), s.outlet[o].link.session = true ∧ s.outlet[o].st = .energyTransfer)
    ∧ (∃ (s : State) (o : Fin 2), s.outlet[o].link.session = true ∧ s.outlet[o].st = .energyTransfer)
    ∧ (∃ (s : State) (o : Fin 2), s.outlet[o].link.session = true ∧ s.outlet[o].st = .energyTransfer)
    ∧ (∃ (s : State) (o : Fin 2), s.outlet[o].link.session = true)
    ∧ (∃ (s : State) (o : Fin 2), s.outlet[o].link.session = true ∧ s.outlet[o].link.proto = 1)
    ∧ (∃ (s : State) (o : Fin 2), s.outlet[o].link.session = true ∧ s.outlet[o].st = .energyTransfer)
    ∧ (∃ (s : State) (o : Fin 2), s.outlet[o].link.session = true)
    ∧ (∃ (s : State) (o : Fin 2), s.outlet[o].link.session = true ∧ (s.outlet[o].st = .weldCheck ∨ s.outlet[o].st =
      .discharge))
    ∧ (∃ (s : State) (o : Fin 2), s.outlet[o].link.session = true)
    ∧ (∃ (s : State) (o : Fin 2), s.outlet[o].link.session = true)
    ∧ (∃ (s : State) (o : Fin 2), s.outlet[o].link.session = true ∧ s.outlet[o].link.proto = 1 ∧ operatorOpen s =
      false)
    ∧ (∃ (s : State) (o : Fin 2), s.outlet[o].link.session = true ∧ s.outlet[o].link.proto = 1 ∧ operatorOpen s =
      true)
    ∧ (∃ (s : State) (o : Fin 2), s.outlet[o].link.session = true ∧ s.outlet[o].st = .cableCheck ∧ cfgB s 0x20 o
      0x000 22 = true)
    ∧ (∃ (s : State) (o : Fin 2), s.outlet[o].st = .identified ∧ s.outlet[o].tmr.auth = true) :=
  ⟨⟨wOut [] fun x => { x with link := { session := true } }, 0, by decide +kernel⟩,
    ⟨wOut [] fun x => { x with link := { session := true, proto := 1 } }, 0, by decide +kernel⟩,
    ⟨wOut [] fun x => { x with link := { session := true, proto := 1 } }, 0, false, by decide +kernel⟩,
    ⟨wOut [] fun x => { x with link := { session := true, proto := 2 } }, 0, by decide +kernel⟩,
    ⟨wOut [] fun x => { x with link := { session := true } }, 0, by decide +kernel⟩,
    ⟨wOut [] fun x => { x with link := { session := true, proto := 1 } }, 0, by decide +kernel⟩,
    ⟨wOut [] fun x => { x with link := { session := true, proto := 1 } }, 0, by decide +kernel⟩,
    ⟨wOut [] fun x => { x with link := { session := true, proto := 2 } }, 0, .scheduleExchange 0 true, by
      decide +kernel, by decide +kernel, .inl rfl⟩,
    ⟨wOut [] fun x => { x with link := { session := true }, st := .authorised }, 0, by decide +kernel⟩,
    ⟨wOut [] fun x => { x with link := { session := true }, st := .isolationTest, isoStep := 5 }, 0, by
      decide +kernel⟩,
    ⟨wOut [] fun x => { x with link := { session := true }, st := .isolationTest }, 0, by decide +kernel⟩,
    ⟨wOut [] fun x => { x with link := { session := true }, st := .energyTransfer }, 0, by decide +kernel⟩,
    ⟨wOut [] fun x => { x with link := { session := true }, st := .energyTransfer }, 0, by decide +kernel⟩,
    ⟨wOut [] fun x => { x with link := { session := true }, st := .energyTransfer }, 0, by decide +kernel⟩,
    ⟨wOut [] fun x => { x with link := { session := true } }, 0, by decide +kernel⟩,
    ⟨wOut [] fun x => { x with link := { session := true, proto := 1 } }, 0, by decide +kernel⟩,
    ⟨wOut [] fun x => { x with link := { session := true }, st := .energyTransfer }, 0, by decide +kernel⟩,
    ⟨wOut [] fun x => { x with link := { session := true } }, 0, by decide +kernel⟩,
    ⟨wOut [] fun x => { x with link := { session := true }, st := .weldCheck }, 0, by decide +kernel⟩,
    ⟨wOut [] fun x => { x with link := { session := true } }, 0, by decide +kernel⟩,
    ⟨wOut [] fun x => { x with link := { session := true, proto := 1 } }, 0, by decide +kernel⟩,
    ⟨wOut [] fun x => { x with link := { session := true, proto := 1 } }, 0, by decide +kernel⟩,
    ⟨wHost 0 (wOut [] fun x => { x with link := { session := true, proto := 1 } }), 0, by decide +kernel⟩,
    ⟨wOut [(0x20, 0, 0, 0x40400000)] fun x => { x with link := { session := true }, st := .cableCheck }, 0, by
      decide +kernel⟩,
    ⟨wOut [] fun x => { x with st := .identified, tmr := { auth := true } }, 0, by decide +kernel⟩⟩

/-- The hypotheses of `OutletTimersComplete` can be met. -/
theorem witness_OutletTimersComplete :
    (∃ (s : State) (o : Fin 2), outType s o ≠ 0 ∧ s.outlet[o].st.faultable = true)
    ∧ (∃ (s : State) (o : Fin 2) (c : OutFault), s.outlet[o].tmr.ongoing = true ∧ ongoingCause s.outlet[o].st = some
      c)
    ∧ (∃ (s : State) (o : Fin 2), s.outlet[o].tmr.loop = true ∧ s.outlet[o].st = .energyTransfer)
    ∧ (∃ (s : State) (o : Fin 2), s.outlet[o].tmr.standby = true ∧ s.outlet[o].st = .energyTransfer)
    ∧ (∃ (s : State) (o : Fin 2), s.outlet[o].st = .isolationTest ∧ s.outlet[o].isoStep = 2 ∧ s.outlet[o].tmr.dwell
      = true)
    ∧ (∃ (s : State) (o : Fin 2), (s.lk.outlet[o]).lock = true)
    ∧ (∃ (s : State) (o : Fin 2), s.lk.so[soPos s o].cmd = false ∧ s.lk.so[soNeg s o].cmd = false ∧ s.outlet[o].st =
      .weldCheck)
    ∧ (∃ (s : State) (o : Fin 2), s.outlet[o].st = .discharge ∧ stageIsOff s o = true ∧ below60 s o = true)
    ∧ (∃ (s : State) (o : Fin 2), (s.lk.outlet[o]).lock = false ∧ s.outlet[o].st = .unlock ∧ s.outlet[o].pilot.cond
      ≠ .unplugged)
    ∧ (∃ (s : State) (o : Fin 2), s.outlet[o].st = .faulted) :=
  ⟨⟨wCfg [(0x20, 0, 0, 0x40000000)], 0, by decide +kernel⟩,
    ⟨wOut [] fun x => { x with st := .identified, tmr := { ongoing := true } }, 0, .vehicle, by decide +kernel⟩,
    ⟨wOut [] fun x => { x with st := .energyTransfer, tmr := { loop := true } }, 0, by decide +kernel⟩,
    ⟨wOut [] fun x => { x with st := .energyTransfer, tmr := { standby := true } }, 0, by decide +kernel⟩,
    ⟨wOut [] fun x => { x with st := .isolationTest, isoStep := 2, tmr := { dwell := true } }, 0, by decide +kernel⟩,
    ⟨updLko wRun 0 fun x => { x with lock := true }, 0, by decide +kernel⟩,
    ⟨wOut [] fun x => { x with st := .weldCheck }, 0, by decide +kernel⟩,
    ⟨wOut [(0x20, 0, 0, 0x40000000)] fun x => { x with st := .discharge }, 0, by decide +kernel⟩,
    ⟨wOut [] fun x => { x with st := .unlock, pilot := { cond := .plugged } }, 0, by decide +kernel⟩,
    ⟨wOut [] fun x => { x with st := .faulted }, 0, by decide +kernel⟩⟩

/-- The hypotheses of `CoolingCompletes` can be met. -/
theorem witness_CoolingCompletes :
    (∃ (j : Fin 8), j ≠ 0 ∧ j ≠ 6)
    ∧ (∃ (s : State) (o : Fin 2), olderThan s o 500000000 = true)
    ∧ (∃ (s : State) (o : Fin 2), olderThan s o 2000000000 = true ∧ s.outlet[o].st = .energyTransfer)
    ∧ (∃ (s : State) (o : Fin 2), olderThan s o 2000000000 = true ∧ outType s o ≠ 0 ∧ (s.outlet[o].st = .identified
      ∨ s.outlet[o].st = .authorised ∨ s.outlet[o].st = .isolationTest ∨ s.outlet[o].st = .precharge ∨
      s.outlet[o].st = .plugged ∧ s.cooling[o].input[0].valid = true ∨ s.outlet[o].st = .cableCheck ∧
      (s.cooling[o].input[0].valid || s.outlet[o].cablePass) = true))
    ∧ (∃ (s : State) (d : Fin 6) (pulses : Nat) (ms : Nat), ms ≠ 0 ∧ tachRpm pulses ms < tachMin s (driveOutlet d) ∧
      2000 ≤ s.drive[d].slowMs ∧ s.drive[d].fault = false)
    ∧ (∃ (s : State) (d : Fin 6) (pulses : Nat) (ms : Nat), ms ≠ 0 ∧ tachMin s (driveOutlet d) ≤ tachRpm pulses ms ∧
      s.drive[d].fault = true)
    ∧ (∃ (s : State) (o : Fin 2), ((s.cooling[o]).input[(6 : Fin 8)]).value * 10 < cfgN s 0x22 o 0x000 7 0 * 65536) :=
  ⟨⟨1, by decide +kernel⟩,
    ⟨wRun, 0, by decide +kernel⟩,
    ⟨wOut [] fun x => { x with st := .energyTransfer }, 0, by decide +kernel⟩,
    ⟨wOut [(0x20, 0, 0, 0x40000000)] fun x => { x with st := .identified }, 0, by decide +kernel⟩,
    ⟨{ wCfg [(0x22, 0, 4, 0x0100)] with drive := Vector.replicate 6 { slowMs := 2000 } }, 0, 0, 1, by
      decide +kernel⟩,
    ⟨{ wCfg [(0x22, 0, 4, 0x0100)] with drive := Vector.replicate 6 { fault := true } }, 0, 1, 300, by
      decide +kernel⟩,
    ⟨updCooling (wCfg [(0x22, 0, 0, 1)]) 0 fun x => { x with input := x.input.set 6 { value := 6553 } }, 0, by
      decide +kernel⟩⟩

/-- The hypotheses of `ReaderCompletes` can be met. -/
theorem witness_ReaderCompletes :
    (∃ (s : State), s.rdr.work[(0 : Fin 2)] = true)
    ∧ (∃ (s : State), s.rdr.work[(1 : Fin 2)] = false)
    ∧ (∃ (s : State), s.rdr.field = true ∧ s.rdr.settled = false ∧ s.rdr.full = false ∧ s.rdr.window = some 0 ∧
      s.outlet[(0 : Fin 2)].st = .plugged ∧ s.rdr.antFault[(0 : Fin 3)] = false ∧ s.rdr.port[(0 : Fin 2)].write.busy
      = false ∧ s.rdr.port[(0 : Fin 2)].mate = none ∧ s.rdr.port[(0 : Fin 2)].invDone = false)
    ∧ (∃ (s : State) (o : Fin 2) (r : AirReply) (l : List Bool), invPort s = some o ∧ s.rdr.port[o].inv.select =
      none ∧ hear (1236 + 2048 * s.rdr.port[o].inv.sub) 64 r = .bits l)
    ∧ (∃ (s : State) (o : Fin 2) (r : AirReply) (k : Fin 16), invPort s = some o ∧ s.rdr.port[o].inv.select = none ∧
      hear (1236 + 2048 * s.rdr.port[o].inv.sub) 64 r = .collision k)
    ∧ (∃ (s : State) (o : Fin 2) (r : AirReply), invPort s = some o ∧ s.rdr.port[o].inv.select = none ∧ hear (1236 +
      2048 * s.rdr.port[o].inv.sub) 64 r = .crc)
    ∧ (∃ (s : State) (o : Fin 2) (r : AirReply), invPort s = some o ∧ s.rdr.port[o].inv.select = none ∧ hear (1236 +
      2048 * s.rdr.port[o].inv.sub) 64 r = .late)
    ∧ (∃ (s : State) (o : Fin 2), invPort s = some o ∧ s.rdr.port[o].inv.select = none ∧
      s.rdr.port[o].inv.confirming = true)
    ∧ (∃ (s : State) (o : Fin 2) (b : Branch) (r : AirReply) (l : List Bool), invPort s = some o ∧
      s.rdr.port[o].inv.select = some b ∧ b.len ≠ 64 ∧ hearReply 64 r = .bits l)
    ∧ (∃ (s : State) (o : Fin 2) (b : Branch) (r : AirReply) (l : List Bool), invPort s = some o ∧
      s.rdr.port[o].inv.select = some b ∧ b.len = 64 ∧ hearReply 4 r = .bits l ∧ bitsVal l = 0)
    ∧ (∃ (s : State) (p : Fin 3) (load : AntLoad), currentGood s p load = false ∧ s.rdr.antFault[p] = false ∧ (∀ o :
      Fin 2, handlePort o = p → s.outlet[o].st ≠ .cableCheck))
    ∧ (∃ (s : State) (p : Fin 3) (load : AntLoad), currentGood s p load = true ∧ s.rdr.antFault[p] = true ∧ 250 ≤
      load.ohms ∧ load.ohms ≤ 1000)
    ∧ (∃ (s : State), padOpen s = true ∧ s.rdr.cards = [])
    ∧ (∃ (s : State), padOpen s = true ∧ s.rdr.cards ≠ [])
    ∧ (∃ (s : State) (levels : List CardLevel) (uid : Bytes), padOpen s = true ∧ cardUidOf levels = some uid ∧
      s.rdr.cards.contains uid = false ∧ cardOutlet s = none)
    ∧ (∃ (s : State) (levels : List CardLevel) (uid : Bytes), padOpen s = true ∧ cardUidOf levels = some uid ∧
      s.rdr.cards.contains uid = true) :=
  ⟨⟨{ wRun with rdr := { work := Vector.replicate 2 true } }, by decide +kernel⟩,
    ⟨wRun, by decide +kernel⟩,
    ⟨{ updOutlet wRun 0 fun x => { x with st := .plugged } with rdr := { field := true, window := some 0 } }, by
      decide +kernel⟩,
    ⟨wRead fun x => { x with inv := { active := true } }, 0, wReply 1236 (List.replicate 64 false), List.replicate
      64 false, by decide +kernel⟩,
    ⟨wRead fun x => { x with inv := { active := true } }, 0, ⟨1236, some 3, [true, true, true]⟩, 3, by
      decide +kernel⟩,
    ⟨wRead fun x => { x with inv := { active := true } }, 0, ⟨1236, none, []⟩, by decide +kernel⟩,
    ⟨wRead fun x => { x with inv := { active := true } }, 0, ⟨0, none, []⟩, by decide +kernel⟩,
    ⟨wRead fun x => { x with inv := { active := true, confirming := true } }, 0, by decide +kernel⟩,
    ⟨wRead fun x => { x with inv := { active := true, select := some ⟨0, 0⟩ } }, 0, ⟨0, 0⟩, wReply 1236
      (List.replicate 64 false), List.replicate 64 false, by decide +kernel⟩,
    ⟨wRead fun x => { x with inv := { active := true, select := some ⟨64, 5⟩ } }, 0, ⟨64, 5⟩, wReply 1236
      (List.replicate 4 false), List.replicate 4 false, by decide +kernel⟩,
    ⟨{ wRun with rdr := { antRef := Vector.replicate 3 100 } }, 0, ⟨500, 0⟩, by decide +kernel⟩,
    ⟨{ wRun with rdr := { antFault := Vector.replicate 3 true } }, 0, ⟨500, 0⟩, by decide +kernel⟩,
    ⟨{ wRun with rdr := { field := true, settled := true, window := some 2 } }, by decide +kernel⟩,
    ⟨{ wRun with rdr := { field := true, settled := true, window := some 2, cards := [[1, 2, 3, 4]] } }, by
      decide +kernel⟩,
    ⟨{ wRun with rdr := { field := true, settled := true, window := some 2 } }, [⟨[], [1, 2, 3, 4], 4⟩], [1, 2, 3,
      4], by decide +kernel⟩,
    ⟨{ wRun with rdr := { field := true, settled := true, window := some 2, cards := [[1, 2, 3, 4]] } }, [⟨[], [1,
      2, 3, 4], 4⟩], [1, 2, 3, 4], by decide +kernel⟩⟩

/-- The hypotheses of `TagExchangeCompletes` can be met. -/
theorem witness_TagExchangeCompletes :
    (∃ (s : State) (o : Fin 2) (r : AirReply) (l : List Bool) (id : Nat), talking s o = true ∧ s.rdr.port[o].rd =
      some id ∧ hearReply 68 r = .bits l ∧ bitsVal (l.take 4) = 0)
    ∧ (∃ (s : State) (o : Fin 2) (r : AirReply) (id : Nat), talking s o = true ∧ s.rdr.port[o].rd = some id ∧ okBits
      (hearReply 68 r) = none)
    ∧ (∃ (s : State) (o : Fin 2) (k : Fin 7) (r : AirReply) (l : List Bool), readsSensor s o k = true ∧ hearReply 28
      r = .bits l ∧ bitsVal (l.take 4) = 0 ∧ toSigned 16 (bitsVal ((l.drop 4).take 16)) = -32768)
    ∧ (∃ (s : State) (o : Fin 2) (k : Fin 7) (r : AirReply) (l : List Bool) (temp : Int), readsSensor s o k = true ∧
      hearReply 28 r = .bits l ∧ bitsVal (l.take 4) = 0 ∧ temp = toSigned 16 (bitsVal ((l.drop 4).take 16)) ∧ temp ≠
      -32768)
    ∧ (∃ (s : State) (o : Fin 2) (k : Fin 7), readsSensor s o k = true ∧ s.rdr.port[o].retried = false)
    ∧ (∃ (s : State) (o : Fin 2) (k : Fin 7), readsSensor s o k = true ∧ s.rdr.port[o].retried = true)
    ∧ (∃ (s : State) (o : Fin 2) (r : AirReply) (l : List Bool), talking s o = true ∧ s.rdr.port[o].write.busy =
      true ∧ s.rdr.port[o].write.readBack = false ∧ hearReply 4 r = .bits l)
    ∧ (∃ (s : State) (o : Fin 2), s.rdr.port[o].write.busy = true ∧ s.rdr.port[o].write.readBack = false)
    ∧ (∃ (s : State) (o : Fin 2) (r : AirReply) (l : List Bool) (d : Bytes), talking s o = true ∧
      s.rdr.port[o].write.busy = true ∧ s.rdr.port[o].write.readBack = true ∧ hearReply 68 r = .bits l ∧ bitsVal
      (l.take 4) = 0 ∧ d = bitsBytes (l.drop 4))
    ∧ (∃ (s : State) (o : Fin 2), talking s o = true ∧ s.rdr.port[o].write.busy = true ∧
      s.rdr.port[o].write.readBack = true ∧ 2 ≤ s.rdr.port[o].write.attempts)
    ∧ (∃ (s : State) (o : Fin 2), talking s o = true ∧ s.rdr.port[o].write.busy = true ∧
      s.rdr.port[o].write.readBack = true ∧ s.rdr.port[o].write.attempts < 2) :=
  ⟨⟨wRead fun x => { x with rd := some 5 }, 0, wReply 1236 (List.replicate 68 false), List.replicate 68 false, 5, by
  decide +kernel⟩,
    ⟨wRead fun x => { x with rd := some 5 }, 0, ⟨0, none, []⟩, 5, by decide +kernel⟩,
    ⟨wRead fun x => { x with cyc := some 1 }, 0, 1, wReply 1236 (List.replicate 4 false ++ [true] ++ List.replicate
      23 false), List.replicate 4 false ++ [true] ++ List.replicate 23 false, by decide +kernel⟩,
    ⟨wRead fun x => { x with cyc := some 1 }, 0, 1, wReply 1236 (List.replicate 28 false), List.replicate 28 false,
      0, by decide +kernel⟩,
    ⟨wRead fun x => { x with tag := x.tag.set 1 { id := 7 }, cyc := some 1 }, 0, 1, by decide +kernel⟩,
    ⟨wRead fun x => { x with tag := x.tag.set 1 { id := 7 }, cyc := some 1, retried := true }, 0, 1, by
      decide +kernel⟩,
    ⟨wRead fun x => { x with write := { busy := true } }, 0, wReply 1236 (List.replicate 4 false), List.replicate 4
      false, by decide +kernel⟩,
    ⟨wRead fun x => { x with write := { busy := true } }, 0, by decide +kernel⟩,
    ⟨wRead fun x => { x with write := { busy := true, readBack := true } }, 0, wReply 1236 (List.replicate 68
      false), List.replicate 68 false, List.replicate 8 0, by decide +kernel⟩,
    ⟨wRead fun x => { x with write := { busy := true, readBack := true, attempts := 2 } }, 0, by decide +kernel⟩,
    ⟨wRead fun x => { x with write := { busy := true, readBack := true, attempts := 1 } }, 0, by decide +kernel⟩⟩

/-- The hypotheses of `DisplayCompletes` can be met. -/
theorem witness_DisplayCompletes :
    (∃ (s : State), s.disp.pwr = .on ∧ s.disp.flight = [] ∧ s.disp.refresh = none ∧ s.disp.legal = none ∧
      s.disp.refreshDue = false ∧ s.disp.waiting = [] ∧ s.disp.legalWait = none)
    ∧ (∃ (s : State) (p : LegalPair), s.disp.pwr = .on ∧ s.disp.flight = [] ∧ s.disp.refresh = none ∧ s.disp.legal =
      none ∧ s.disp.refreshDue = false ∧ s.disp.waiting = [] ∧ s.disp.legalWait = some p)
    ∧ (∃ (s : State), s.mer.up = true)
    ∧ (∃ (s : State) (p : LegalPair), s.disp.lane = some p)
    ∧ (∃ (s : State) (upsets : List (Nat × Byte)) (shift : Nat), s.disp.pwr = .on ∧ s.disp.haveImage = true ∧ crcMem
      s.disp = s.disp.crcExp ∧ shift = crc32 (upsetBytes ((rectBytes s.disp (legalRect s.disp) true).map fun a =>
      frameByte s.disp a.1) upsets) ∧ shift = s.disp.crcExp)
    ∧ (∃ (s : State) (upsets : List (Nat × Byte)) (shift : Nat), s.disp.pwr = .on ∧ s.disp.haveImage = true ∧ shift
      = crc32 (upsetBytes ((rectBytes s.disp (legalRect s.disp) true).map fun a => frameByte s.disp a.1) upsets) ∧
      shift ≠ s.disp.crcExp ∧ s.disp.missRun = 0)
    ∧ (∃ (s : State) (upsets : List (Nat × Byte)) (shift : Nat), s.disp.pwr = .on ∧ s.disp.haveImage = true ∧ shift
      = crc32 (upsetBytes ((rectBytes s.disp (legalRect s.disp) true).map fun a => frameByte s.disp a.1) upsets) ∧
      shift ≠ s.disp.crcExp ∧ 1 ≤ s.disp.missRun)
    ∧ (∃ (s : State), s.disp.pwr = .on ∧ s.disp.pairAt + laneGrace s ≤ s.mono)
    ∧ (∃ (s : State), matched10 s = true ∧ s.flt.island[(6 : Fin 17)].lost = false ∧ s.disp.pairSeen = true)
    ∧ (∃ (s : State) (ohm : Nat), suspended s 11 = false ∧ crackBad s (min 10000 ohm) = true)
    ∧ (∃ (s : State) (ohm : Nat), suspended s 11 = false ∧ crackBad s (min 10000 ohm) = false ∧ s.disp.crackCheck =
      true)
    ∧ (∃ (s : State) (ohm : Nat), suspended s 11 = false ∧ crackBad s (min 10000 ohm) = false ∧ s.disp.crackCheck =
      false)
    ∧ (∃ (v : Int), -450 ≤ v ∧ v ≤ 1100)
    ∧ (∃ (s : State), s.disp.out.avdd = true)
    ∧ (∃ (s : State), 3 ≤ s.landfall.phase ∧ s.disp.pwr = .off ∧ s.landfall.ioOk = true)
    ∧ (∃ (s : State), s.disp.pwr = .on)
    ∧ (∃ (s : State), s.disp.faultPump = true ∧ s.disp.pwr = .off ∧ s.landfall.ioOk = true)
    ∧ (∃ (s : State), s.disp.faultPump = true ∧ s.disp.pwr ≠ .off)
    ∧ (∃ (s : State) (mv : Int) (us : Nat), s.disp.pwr = .poweringOn ∧ us ≤ (stepMet s s.disp.step mv us).2 ∧
      (stepMet s s.disp.step mv us).1 = true ∧ s.disp.step + 1 ≠ 8)
    ∧ (∃ (s : State) (us : Nat), s.disp.pwr = .poweringOn ∧ s.disp.step = 7 ∧ twoFrames s ≤ 48 * us)
    ∧ (∃ (s : State) (mv : Int) (us : Nat), s.disp.pwr = .poweringOn ∧ (stepMet s s.disp.step mv us).2 < us) :=
  ⟨⟨wDisp id, by decide +kernel⟩,
    ⟨wDisp fun d => { d with legalWait := some ⟨[], 0, 0, 0⟩ }, ⟨[], 0, 0, 0⟩, by decide +kernel⟩,
    ⟨wRun, by decide +kernel⟩,
    ⟨wDisp fun d => { d with lane := some ⟨[], 0, 0, 0⟩ }, ⟨[], 0, 0, 0⟩, by decide +kernel⟩,
    ⟨wDisp fun d => { d with haveImage := true, crcExp := crcMem d }, [], crcMem wRun.disp, by decide +kernel⟩,
    ⟨wDisp fun d => { d with haveImage := true, crcExp := 1 }, [], crcMem wRun.disp, by decide +kernel⟩,
    ⟨wDisp fun d => { d with haveImage := true, crcExp := 1, missRun := 1 }, [], crcMem wRun.disp, by
      decide +kernel⟩,
    ⟨{ wDisp id with mono := 1000 }, by decide +kernel⟩,
    ⟨{ wDisp fun d => { d with matchFrom := some 0, pairSeen := true } with mono := 10000 }, by decide +kernel⟩,
    ⟨wCfg [(0x80, 0, 0x098, 0x00020001)], 3, by decide +kernel⟩,
    ⟨{ wCfg [(0x80, 0, 0x098, 0x00020001)] with disp := { crackCheck := true } }, 2, by decide +kernel⟩,
    ⟨{ wCfg [(0x80, 0, 0x098, 0x00020001)] with disp := { crackCheck := false } }, 2, by decide +kernel⟩,
    ⟨-450, by decide +kernel⟩,
    ⟨wDisp fun d => { d with out := { avdd := true } }, by decide +kernel⟩,
    ⟨wRun, by decide +kernel⟩,
    ⟨wDisp id, by decide +kernel⟩,
    ⟨wDisp fun d => { d with faultPump := true, pwr := .off }, by decide +kernel⟩,
    ⟨wDisp fun d => { d with faultPump := true }, by decide +kernel⟩,
    ⟨wDisp fun d => { d with pwr := .poweringOn, step := 6 }, 0, 1100, by decide +kernel⟩,
    ⟨wDisp fun d => { d with pwr := .poweringOn, step := 7 }, 1000000, by decide +kernel⟩,
    ⟨wDisp fun d => { d with pwr := .poweringOn, step := 5 }, 0, 2001, by decide +kernel⟩⟩

/-- The hypotheses of `MeterCompletes` can be met. -/
theorem witness_MeterCompletes :
    (∃ (s : State) (bits : List (List Bool)) (raw : Vector (List Int) 20), s.mer.up = true ∧ s.pwr.rung = .underway
      ∧ raw = Vector.ofFn (fun m : Fin 20 => (sincFour (s.mer.fe.mod[m]).bits (bits.getD m.val [])).2))
    ∧ (∃ (s : State) (o : Fin 2), s.mer.up = true ∧ (s.mer.leg.pulse[o]).backlog ≠ 0 ∧ (s.mer.leg.pulse[o]).active =
      false ∧ (s.mer.leg.pulse[o]).lastStart = none ∧ merN s (0x500 + o.val) 0x000 31 30 ≠ 3)
    ∧ (∃ (s : State), s.mer.up = true)
    ∧ (∃ (s : State), s.mer.up = true ∧ suspended s 7 = false ∧ (∀ j : Fin 12, s.mer.fe.ch[j].fallback = false))
    ∧ (∃ (s : State), s.mer.up = true)
    ∧ (∃ (s : State) (k : Fin 12), (s.mer.fe.ch[k]).fallback = true ∧ (s.mer.fe.ch[k]).tapsBad = false ∧ 100 ≤
      (s.mer.fe.ch[k]).rmsPasses)
    ∧ (∃ (k : Fin 12), acChannel k = true)
    ∧ (∃ (s : State) (k : Fin 12), (s.mer.fe.ch[k]).freezeEvent = true ∧ eventOpen s (channelPhase k) = false)
    ∧ (∃ (s : State) (k : Fin 12), ((s.mer.fe.ch[k]).freezeEvent || (s.mer.fe.ch[k]).freezeHelm) = true)
    ∧ (∃ (s : State) (r : Fin 4), s.mer.up = true ∧ merN s (0x200 + r.val) 0x000 31 31 = 1) :=
  ⟨⟨wRun, [], _, by decide +kernel, by decide +kernel, rfl⟩,
    ⟨updLeg (wMer [(0x500, 0, 0)] id) fun l => { l with pulse := upd l.pulse 0 fun x => { x with backlog := 1 } },
      0, by decide +kernel⟩,
    ⟨wRun, by decide +kernel⟩,
    ⟨wRun, by decide +kernel⟩,
    ⟨wRun, by decide +kernel⟩,
    ⟨updMch wRun 0 fun c => { c with fallback := true, rmsPasses := 100 }, 0, by decide +kernel⟩,
    ⟨10, by decide +kernel⟩,
    ⟨updMch wRun 4 fun c => { c with freezeEvent := true }, 4, by decide +kernel⟩,
    ⟨updMch wRun 4 fun c => { c with freezeHelm := true }, 4, by decide +kernel⟩,
    ⟨wMer [(0x200, 0, 0x80000000)] id, 0, by decide +kernel⟩⟩

/-- The hypotheses of `RotationCompletes` can be met. -/
theorem witness_RotationCompletes :
    (∃ (s : State) (m : Fin 20), s.mer.up = true ∧ (s.mer.fe.mod[m]).st ≠ .retired)
    ∧ (∃ (s : State) (m : Fin 20), s.mer.up = true ∧ suspended s 6 = false ∧ (s.mer.fe.mod[m]).len ≠ 0 ∧
      (pilotDeviation s s.mer.fe.mod[m]).natAbs ≤ 500)
    ∧ (∃ (s : State) (m : Fin 20), s.mer.up = true ∧ suspended s 6 = false ∧ (s.mer.fe.mod[m]).len ≠ 0 ∧ 500 <
      (pilotDeviation s s.mer.fe.mod[m]).natAbs ∧ 1 ≤ (s.mer.fe.mod[m]).badWindows)
    ∧ (∃ (s : State) (v : Bool) (x : Fin 20), nextInRing s v = some x ∧ s.mer.up = true ∧ suspended s 4 = false ∧
      (rotation s v).stopped = false ∧ (rotation s v).spareUsed = false ∧ (rotation s v).phase = 0 ∧
      (s.mer.fe.mod[spareMod v]).st = .spareFree)
    ∧ (∃ (s : State) (v : Bool), s.mer.up = true ∧ (rotation s v).phase = 1 ∧ (comparisonFails (rotation s v) =
      false ∨ (rotation s v).again = true))
    ∧ (∃ (s : State) (v : Bool), s.mer.up = true ∧ (rotation s v).phase = 1 ∧ comparisonFails (rotation s v) = true
      ∧ (rotation s v).again = false)
    ∧ (∃ (s : State) (v : Bool) (x : Fin 20) (short : Int) (plus : Int) (minus : Int) (gain : Int) (ofs : Int),
      s.mer.up = true ∧ (rotation s v).phase = 2 ∧ x = Fin.ofNat 20 (rotation s v).pos ∧ newTrims short plus minus =
      some (gain, ofs) ∧ calibrationFails s.mer.fe.mod[x] gain ofs = false)
    ∧ (∃ (s : State) (v : Bool), s.mer.up = true ∧ (rotation s v).phase = 3)
    ∧ (∃ (s : State) (v : Bool) (short : Int) (plus : Int) (minus : Int) (gain : Int) (ofs : Int), s.mer.up = true ∧
      (rotation s v).phase = 4 ∧ newTrims short plus minus = some (gain, ofs) ∧ calibrationFails
      s.mer.fe.mod[spareMod v] gain ofs = false)
    ∧ (∃ (s : State) (ppm : Int), s.mer.up = true ∧ suspended s 5 = false ∧ ppm.natAbs ≤ 200)
    ∧ (∃ (s : State) (ppm : Int), s.mer.up = true ∧ suspended s 5 = false ∧ 200 < ppm.natAbs) :=
  ⟨⟨wRun, 0, by decide +kernel⟩,
    ⟨updMod wRun 0 fun _ => wPilot 2, 0, by decide +kernel, by decide +kernel, by decide +kernel, by rw [wPilot_dev]
      <;> decide⟩,
    ⟨updMod wRun 0 fun _ => wPilot 1, 0, by decide +kernel, by decide +kernel, by decide +kernel, by rw
      [wPilot_twice] <;> decide, by decide +kernel⟩,
    ⟨wRun, true, 0, by decide +kernel⟩,
    ⟨wMer [] fun m => { m with fe := { m.fe with rotV := { pos := 0, phase := 1, again := true } } }, true, by
      decide +kernel⟩,
    ⟨wMer [] fun m => { m with fe := { m.fe with rotV := { pos := 0, phase := 1, sumX := 1, len := 1 } } }, true, by
      decide +kernel⟩,
    ⟨wMer [] fun m => { m with fe := { m.fe with rotI := { pos := 7, phase := 2 } } }, false, 7, 0, 16 * 2 ^ 31 /
      20, -16 * 2 ^ 31 / 20, 2 ^ 30, 0, by decide +kernel⟩,
    ⟨wMer [] fun m => { m with fe := { m.fe with rotV := { pos := 0, phase := 3 } } }, true, by decide +kernel⟩,
    ⟨wMer [] fun m => { m with fe := { m.fe with rotV := { pos := 0, phase := 4 } } }, true, 0, 16 * 2 ^ 31 / 20,
      -16 * 2 ^ 31 / 20, 2 ^ 30, 0, by decide +kernel⟩,
    ⟨wRun, -200, by decide +kernel⟩,
    ⟨wRun, -201, by decide +kernel⟩⟩

/-- The hypotheses of `ChronometerCompletes` can be met. -/
theorem witness_ChronometerCompletes :
    (∃ (s : State), s.mer.up = true)
    ∧ (∃ (s : State) (mana : Nat) (mcore : Nat), s.mer.supplyFail = false ∧ s.mer.up = true ∧ (mana < 1620000 ∨
      mcore < 855000))
    ∧ (∃ (s : State) (mana : Nat) (mcore : Nat), s.mer.up = false ∧ s.pwr.rung ≠ .dark ∧ (s.mer.supplyFail = true →
      inWindow 4 mana = true ∧ inWindow 3 mcore = true))
    ∧ (∃ (s : State) (ph : Fin 3) (w : HalfWindow), s.mer.up = true ∧ (s.mer.fe.half[ph]).closed = some w)
    ∧ (∃ (s : State) (ph : Fin 3) (w : HalfWindow), s.mer.up = true ∧ (s.mer.fe.half[ph]).cur = some w ∧ 3 *
      halfSamples s ≤ 2 * w.len)
    ∧ (∃ (s : State) (ph : Fin 3) (w : HalfWindow), s.mer.up = true ∧ (s.mer.fe.half[ph]).closed = some w ∧
      (s.mer.leg.events.find? fun e => e.isOpen && e.phase == ph.val + 1) = none ∧ 0 ≤ rmsAgainst s w 90 ∧
      rmsAgainst s w 110 ≤ 0)
    ∧ (∃ (s : State) (ph : Fin 3) (w : HalfWindow), s.mer.up = true ∧ (s.mer.fe.half[ph]).closed = some w ∧
      chInvalid s (Fin.ofNat 12 (4 + ph.val)) = false ∧ (s.mer.leg.events.find? fun e => e.isOpen && e.phase ==
      ph.val + 1) = none ∧ rmsAgainst s w 90 < 0 ∧ 0 ≤ rmsAgainst s w 5)
    ∧ (∃ (s : State) (ns : Int), s.mer.up = true ∧ s.mer.chr.running = true ∧ s.txl.ptp.locked = true ∧
      s.mer.chr.src ≠ 3 ∧ s.mer.chr.valid = true ∧ ns.natAbs ≤ 1000000000)
    ∧ (∃ (s : State) (ns : Int), s.mer.up = true ∧ s.mer.chr.running = true ∧ s.txl.ptp.locked = true ∧
      (s.mer.chr.valid = false ∨ 1000000000 < ns.natAbs))
    ∧ (∃ (s : State), s.mer.chr.src = 1)
    ∧ (∃ (s : State), timeUncertain s = true)
    ∧ (∃ (s : State), s.mer.chr.running = true ∧ s.mer.chr.valid = true ∧ s.mer.up = true)
    ∧ (∃ (s : State), s.mer.chr.running = true ∧ s.mer.chr.valid = true ∧ s.mer.up = false)
    ∧ (∃ (s : State), s.mer.up = true) :=
  ⟨⟨wRun, by decide +kernel⟩,
    ⟨wRun, 0, 900000, by decide +kernel⟩,
    ⟨{ wRun with mer := {} }, 0, 0, by decide +kernel⟩,
    ⟨wMer [] fun m => { m with fe := { m.fe with half := Vector.replicate 3 { closed := some {} } } }, 0, {}, by
      decide +kernel⟩,
    ⟨wMer [] fun m => { m with fe := { m.fe with half := Vector.replicate 3 { cur := some { len := 240 } } } }, 0,
      { len := 240 }, by decide +kernel⟩,
    ⟨wMer [] fun m => { m with fe := { m.fe with half := Vector.replicate 3 { closed := some {} } } }, 0, {}, by
      decide +kernel⟩,
    ⟨wMer [(0x600, 0, 0x00010000), (0x502, 0x008, 1)] fun m => { m with
      fe := { m.fe with half := Vector.replicate 3 { closed := some { len := 1, sum := 2 ^ 62 * 25 } } } }, 0,
      { len := 1, sum := 2 ^ 62 * 25 }, by decide +kernel⟩,
    ⟨{ wMer [] fun m => { m with chr := { m.chr with running := true } } with
      txl := { ptp := { locked := true } } }, -1000000000, by decide +kernel⟩,
    ⟨{ wMer [] fun m => { m with chr := { m.chr with running := true } } with
      txl := { ptp := { locked := true } } }, -1000000001, by decide +kernel⟩,
    ⟨wMer [] fun m => { m with chr := { src := 1 } }, by decide +kernel⟩,
    ⟨wMer [(0x700, 0x010, 1)] id, by decide +kernel⟩,
    ⟨wMer [] fun m => { m with chr := { m.chr with running := true } }, by decide +kernel⟩,
    ⟨wMer [] fun m => { m with up := false, chr := { m.chr with running := true } }, by decide +kernel⟩,
    ⟨wRun, by decide +kernel⟩⟩

/-- The hypotheses of `BillingCompletes` can be met. -/
theorem witness_BillingCompletes :
    (∃ (s : State) (b : Nat), onTime s = true ∧ b = nextDemand s (intervalSince s) ∧ b ≤ s.nowNs)
    ∧ (∃ (s : State) (c : Calendar), s.mer.tar.pending = some c ∧ onTime s = true ∧ c.activation ≤ s.nowNs)
    ∧ (∃ (s : State), onTime s = true ∧ nextOffset s (intervalSince s) = none)
    ∧ (∃ (s : State) (b : Nat), onTime s = true ∧ nextOffset s (intervalSince s) = some b ∧ b ≤ s.nowNs)
    ∧ (∃ (s : State) (b : Nat), onTime s = true ∧ merN s 0x700 0x018 31 30 ≠ 0 ∧ nextBilling s (intervalSince s - 1)
      = some b ∧ b ≤ s.nowNs ∧ s.mer.leg.lastClose < b)
    ∧ (∃ (s : State), s.mer.up = true)
    ∧ (∃ (s : State) (o : Fin 2) (h : Bytes) (n : Nat), s.mer.up = true ∧ s.landfall.helmUp = true ∧
      s.mer.mail.contains (.openRecord o h n) = true ∧ meteringInvalid s o = false)
    ∧ (∃ (s : State) (o : Fin 2) (h : Bytes) (n : Nat), s.mer.up = true ∧ s.landfall.helmUp = true ∧
      s.mer.mail.contains (.openRecord o h n) = true ∧ meteringInvalid s o = true)
    ∧ (∃ (s : State), s.mer.up = true ∧ s.landfall.helmUp = true ∧ s.mer.mail.length < 16)
    ∧ (∃ (s : State), s.mer.up = true)
    ∧ (∃ (s : State), s.com.weatherEnd ≠ 0 ∧ s.com.weatherEnd ≤ s.nowNs) :=
  ⟨⟨wMer [] fun m => { m with chr := { m.chr with ns := 86400000000000 } }, _, by decide +kernel, rfl, by
  decide +kernel⟩,
    ⟨wMer [] fun m => { m with tar := { pending := some ⟨0, 0, [], [], [], [], []⟩ } }, ⟨0, 0, [], [], [], [], []⟩,
      by decide +kernel⟩,
    ⟨wRun, by decide +kernel⟩,
    ⟨wMer [(0x700, 0x014, 0x3C000000)] fun m => { m with
      chr := { m.chr with ns := 86400000000000 }, tar := { active := some ⟨0, 0, [(5000000000, 1)], [], [], [], []⟩ } },
      5000000000, by decide +kernel⟩,
    ⟨wMer [(0x700, 0x018, 0x41000000)] fun m => { m with chr := { m.chr with ns := 86400000000000 * 40 } }, _, by
      decide +kernel, by decide +kernel, (Option.some_get (by decide +kernel)).symm, by decide +kernel, by
      decide +kernel⟩,
    ⟨wRun, by decide +kernel⟩,
    ⟨wMer [] fun m => { m with mail := [.openRecord 0 [] 0] }, 0, [], 0, by decide +kernel⟩,
    ⟨updMch (wMer [] fun m => { m with mail := [.openRecord 0 [] 0] }) 0 fun c => { c with invalid := true }, 0, [],
      0, by decide +kernel⟩,
    ⟨wRun, by decide +kernel⟩,
    ⟨wRun, by decide +kernel⟩,
    ⟨{ wMer [] fun m => { m with chr := { m.chr with ns := 1 } } with com := { weatherEnd := 1 } }, by
      decide +kernel⟩⟩

/-- The hypotheses of `LandfallStartCompletes` can be met. -/
theorem witness_LandfallStartCompletes :
    (∃ (s : State), s.landfall.porst = true)
    ∧ (∃ (s : State) (rail : CoreRail) (uV : Nat), s.landfall.porst = true ∧ railOk rail s.landfall = true ∧
      inWindow (coreRail rail) uV = false)
    ∧ (∃ (s : State) (rail : CoreRail) (uV : Nat), railOk rail s.landfall = false ∧ inWindow (coreRail rail) uV =
      true)
    ∧ (∃ (s : State) (ch : Fin 2) (uV : Nat), (if ch = 0 then s.lk.runA else s.lk.runB) = true ∧ inWindow (if ch = 0
      then 1 else 2) uV = false)
    ∧ (∃ (s : State), s.landfall.helmUp = true ∧ s.landfall.phase < 9)
    ∧ (∃ (s : State), supplied s = true ∧ s.landfall.phase = 0 ∧ s.landfall.holdSelf = false ∧ s.lk.runA = true ∧
      s.lk.runB = true)
    ∧ (∃ (s : State) (imgA : ImageChoice) (imgB : ImageChoice), supplied s = true ∧ s.landfall.phase = 0 ∧
      s.landfall.holdSelf = false ∧ (s.lk.runA && s.lk.runB) = false ∧ (bootImage s 2 imgA).fw[(2 : Fin 5)].started
      = true ∧ (bootImage s 2 imgB).fw[(2 : Fin 5)].started = true)
    ∧ (∃ (s : State), meridianTurn s = true ∧ s.mer.supplyFail = false ∧ s.mer.up = true)
    ∧ (∃ (s : State), meridianTurn s = true ∧ s.mer.supplyFail = false ∧ s.mer.up = false)
    ∧ (∃ (s : State), helmTurn s = true)
    ∧ (∃ (s : State), helmTurn s = true ∧ s.landfall.helmRetry = true)
    ∧ (∃ (s : State), supplied s = true ∧ s.landfall.helmUp = true ∧ s.chart.inUse = none ∧ s.landfall.holdChart =
      false ∧ s.landfall.holdStrap = false ∧ s.landfall.warm = false)
    ∧ (∃ (s : State) (sigOk : Bool), supplied s = true ∧ s.landfall.helmUp = true ∧ s.chart.inUse = none ∧
      s.landfall.holdChart = false ∧ s.landfall.holdStrap = false ∧ s.landfall.warm = false ∧ verifyChart s
      (chartImage s s.fw[(4 : Fin 5)].slotB) sigOk = none) :=
  ⟨⟨wRun, by decide +kernel⟩,
    ⟨wRun, .io, 0, by decide +kernel⟩,
    ⟨wLand fun l => { l with coreOk := false }, .core, 900000, by decide +kernel⟩,
    ⟨wRun, 1, 0, by decide +kernel⟩,
    ⟨wLand fun l => { l with phase := 8 }, by decide +kernel⟩,
    ⟨wLand fun l => { l with phase := 0 }, by decide +kernel⟩,
    ⟨{ wLand fun l => { l with phase := 0 } with lk := {} }, ⟨none, some ⟨1, []⟩, none⟩, ⟨none, some ⟨1, []⟩, none⟩,
      by decide +kernel⟩,
    ⟨wLand fun l => { l with phase := 1 }, by decide +kernel⟩,
    ⟨{ wLand fun l => { l with phase := 1 } with mer := {} }, by decide +kernel⟩,
    ⟨wLand fun l => { l with phase := 2, helmUp := false }, by decide +kernel⟩,
    ⟨wLand fun l => { l with phase := 2, helmUp := false, helmRetry := true }, by decide +kernel⟩,
    ⟨wLand fun l => { l with phase := 3, hostReady := false }, by decide +kernel⟩,
    ⟨wChart, true, by decide +kernel⟩⟩

/-- The hypotheses of `LandfallEndCompletes` can be met. -/
theorem witness_LandfallEndCompletes :
    (∃ (s : State) (img : ImageChoice), supplied s = true ∧ s.landfall.phase = 4 ∧ inHold s = false ∧ (bootImage s 1
      img).fw[(1 : Fin 5)].started = true ∧ s.landfall.warm = false)
    ∧ (∃ (s : State) (c : Bytes), s.chart.inUse = some c ∧ supplied s = true ∧ s.landfall.phase = 5 ∧ inHold s =
      false)
    ∧ (∃ (s : State), hostTurn s = true)
    ∧ (∃ (s : State), supplied s = true ∧ s.landfall.phase = 7 ∧ inHold s = false)
    ∧ (∃ (s : State), supplied s = true ∧ s.landfall.phase = 8 ∧ inHold s = false)
    ∧ (∃ (s : State), s.landfall.helmUp = true ∧ s.pwr.rung.code < 3 ∧ suspended s 3 = false ∧ s.flt.keyAt + 675000
      ≤ s.flt.underMs)
    ∧ (∃ (s : State) (x : TamperSense), tamperShown s x ≠ 0 ∧ (s.pwr.onVbat = false ∨ s.pwr.vbat = true) ∧
      (s.flt.island[(7 : Fin 17)].lost = false ∨ s.landfall.helmUp = true))
    ∧ (∃ (s : State) (target : Fin 5), firstStarting s target = true)
    ∧ (∃ (s : State) (target : Fin 5), (s.fw[target]).activating = true ∧ target ≠ 4) :=
  ⟨⟨wLand fun l => { l with phase := 4 }, ⟨none, some ⟨1, []⟩, none⟩, by decide +kernel⟩,
    ⟨{ wLand fun l => { l with phase := 5 } with chart := { inUse := some [] } }, [], by decide +kernel⟩,
    ⟨wLand fun l => { l with phase := 6, hostReady := false }, by decide +kernel⟩,
    ⟨wLand fun l => { l with phase := 7 }, by decide +kernel⟩,
    ⟨wLand fun l => { l with phase := 8 }, by decide +kernel⟩,
    ⟨{ wRun with flt := { underMs := 675000 } }, by decide +kernel⟩,
    ⟨wCfg [(0x01, 0, 0x300, 0xFFFFFFFF)], ⟨[], [true], [false], 800, 1800, 5000, 250⟩, by decide +kernel⟩,
    ⟨{ wRun with fw := upd wRun.fw 0 fun x => { x with activating := true } }, 0, by decide +kernel⟩,
    ⟨{ wRun with fw := upd wRun.fw 0 fun x => { x with activating := true } }, 0, by decide +kernel⟩⟩

/-- The hypotheses of `PowerCompletes` can be met. -/
theorem witness_PowerCompletes :
    (∃ (s : State) (r : Rung), s.pwr.rung.below = some r ∧ r.code ≤ lowestRung s ∧ quiet s r = true ∧ cfgN s 0xA0 0
      0x000 15 0 * 1000 ≤ s.pwr.quietMs)
    ∧ (∃ (s : State), s.pwr.rung = .hoveTo ∧ quiet s .anchored = true ∧ 2 ≤ lowestRung s ∧ cfgN s 0xA0 0 0x000 15 0
      * 1000 ≤ s.pwr.quietMs)
    ∧ (∃ (s : State), s.pwr.quietMs < cfgN s 0xA0 0 0x000 15 0 * 1000)
    ∧ (∃ (s : State), (s.pwr.rung = .hoveTo ∨ s.pwr.rung = .anchored) ∧ quiet s s.pwr.rung = false)
    ∧ (∃ (s : State), s.pwr.rung = .anchored)
    ∧ (∃ (s : State), s.pwr.rung = .moored ∧ cfgB s 0xA0 0 0x008 0 = true)
    ∧ (∃ (s : State), s.pwr.rung = .laidUp ∧ cfgB s 0xA0 0 0x008 2 = true)
    ∧ (∃ (s : State), s.pwr.rung = .dark ∧ cfgB s 0xA0 0 0x008 2 = true)
    ∧ (∃ (mcore : Nat) (io : Nat), (mcore < 810000 ∨ io < 1500000))
    ∧ (∃ (mcore : Nat) (io : Nat), 855000 ≤ mcore ∧ mcore ≤ 945000 ∧ 1710000 ≤ io ∧ io ≤ 1890000)
    ∧ (∃ (s : State), s.pwr.onVbat = true)
    ∧ (∃ (s : State), s.pwr.onVbat = false) :=
  ⟨⟨{ wCfg [(0xA0, 0, 0, 0xA0000000)] with pwr := { quietMs := 100000000 } }, .hoveTo, by decide +kernel⟩,
    ⟨{ wCfg [(0xA0, 0, 0, 0xA0000000)] with pwr := { rung := .hoveTo, quietMs := 100000000 } }, by decide +kernel⟩,
    ⟨wCfg [(0xA0, 0, 0, 0xA0000001)], by decide +kernel⟩,
    ⟨{ wLand fun l => { l with recovering := true } with pwr := { rung := .hoveTo } }, by decide +kernel⟩,
    ⟨{ wRun with pwr := { rung := .anchored } }, by decide +kernel⟩,
    ⟨{ wCfg [(0xA0, 0, 0x008, 1)] with pwr := { rung := .moored } }, by decide +kernel⟩,
    ⟨{ wCfg [(0xA0, 0, 0x008, 4)] with pwr := { rung := .laidUp } }, by decide +kernel⟩,
    ⟨{ wCfg [(0xA0, 0, 0x008, 4)] with pwr := { rung := .dark } }, by decide +kernel⟩,
    ⟨0, 0, by decide +kernel⟩,
    ⟨900000, 1800000, by decide +kernel⟩,
    ⟨{ wRun with pwr := { onVbat := true } }, by decide +kernel⟩,
    ⟨wRun, by decide +kernel⟩⟩

/-- The hypotheses of `FaultsComplete` can be met. -/
theorem witness_FaultsComplete :
    (∃ (s : State), s.landfall.helmUp = true ∧ s.fw[(0 : Fin 5)].activating = false)
    ∧ (∃ (s : State), s.sx.up = true ∧ s.fw[(1 : Fin 5)].activating = false)
    ∧ (∃ (s : State), s.sx.up = false ∧ s.fw[(1 : Fin 5)].started = true ∧ s.fw[(1 : Fin 5)].activating = false ∧
      s.landfall.holdTamper = false ∧ sextantClocked s = true ∧ 5 ≤ s.landfall.phase)
    ∧ (∃ (s : State), s.mer.up = true ∧ s.fw[(3 : Fin 5)].activating = false)
    ∧ (∃ (s : State) (isl : Fin 17), islandDieUp s isl = true ∧ s.fw[islandDie isl].activating = false ∧
      s.flt.island[isl].lost = false ∧ s.flt.island[isl].off = false)
    ∧ (∃ (s : State) (isl : Fin 17), s.flt.island[isl].lost = true ∧ s.flt.island[isl].off = false ∧ (12 ≤ isl.val ∨
      s.flt.island[isl].at_ + 250 ≤ s.mono))
    ∧ (∃ (s : State) (isl : Fin 17), s.flt.island[isl].lost = true ∧ s.flt.island[isl].off = false ∧ isl.val < 12 ∧
      3 ≤ s.flt.island[isl].tries ∧ s.flt.island[isl].at_ + 250 ≤ s.mono)
    ∧ (∃ (s : State), s.fw[(0 : Fin 5)].activating = false)
    ∧ (∃ (s : State) (p : MemPlace), scrubs s (scrubberOf p) = false)
    ∧ (∃ (s : State) (m : Scrubber) (n : Nat), scrubs s m = true ∧ n ≠ 0)
    ∧ (∃ (s : State) (uV : Nat), s.landfall.vddRf = true ∧ inWindow 7 uV = false)
    ∧ (∃ (s : State) (uV : Nat), s.landfall.vdda = true ∧ inWindow 6 uV = false)
    ∧ (∃ (s : State) (rf : Bool) (uV : Nat), analogOk s rf = false ∧ inWindow (analogRail rf) uV = true)
    ∧ (∃ (s : State) (r : LogItem) (rest : List LogItem), s.log.waiting = r :: rest ∧ s.landfall.helmUp = true ∧
      suspended s 12 = false ∧ s.log.scanDone = true ∧ s.log.fault = false)
    ∧ (∃ (s : State) (r : LogItem) (rest : List LogItem), s.log.waiting = r :: rest ∧ s.landfall.helmUp = true ∧
      suspended s 12 = false ∧ s.log.fault = true)
    ∧ (∃ (s : State) (n : Nat), s.landfall.hostReady = true ∧ s.log.scanDone = false ∧ 256 ≤ n ∧ n ≤ 16384)
    ∧ (∃ (s : State), s.landfall.hostReady = true ∧ s.log.scanDone = false) :=
  ⟨⟨wRun, by decide +kernel⟩,
    ⟨wRun, by decide +kernel⟩,
    ⟨{ wRun with sx := {}, fw := upd wRun.fw 1 fun x => { x with started := true } }, by decide +kernel⟩,
    ⟨wRun, by decide +kernel⟩,
    ⟨wRun, 16, by decide +kernel⟩,
    ⟨{ wRun with flt := { island := Vector.replicate 17 { lost := true } }, mono := 250 }, 11, by decide +kernel⟩,
    ⟨{ wRun with flt := { island := Vector.replicate 17 { lost := true, tries := 3 } }, mono := 250 }, 11, by
      decide +kernel⟩,
    ⟨wRun, by decide +kernel⟩,
    ⟨{ wRun with mer := {} }, .resident 3, by decide +kernel⟩,
    ⟨wRun, .helmSram, 1, by decide +kernel⟩,
    ⟨wLand fun l => { l with vddRf := true }, 0, by decide +kernel⟩,
    ⟨wLand fun l => { l with vdda := true }, 0, by decide +kernel⟩,
    ⟨wLand fun l => { l with vdda := false }, false, 1800000, by decide +kernel⟩,
    ⟨{ wRun with log := { scanDone := true, waiting := [.telemetry 0] } }, .telemetry 0, [], by decide +kernel⟩,
    ⟨{ wRun with log := { scanDone := true, fault := true, waiting := [.telemetry 0] } }, .telemetry 0, [], by
      decide +kernel⟩,
    ⟨{ wRun with log := {} }, 256, by decide +kernel⟩,
    ⟨{ wRun with log := {} }, by decide +kernel⟩⟩

/-- The hypotheses of `TurxelCompletes` can be met. -/
theorem witness_TurxelCompletes :
    (∃ (s : State) (p : Fin 2) (link : Bool) (speed : Nat) (duplex : Bool), txlEn s p = true ∧ netRuns s = true ∧
      s.landfall.hostReady = true ∧ link = true ∧ duplex = true ∧ (speed = 100 ∨ speed = 1000))
    ∧ (∃ (s : State) (p : Fin 2) (link : Bool) (speed : Nat) (duplex : Bool), txlEn s p = true ∧ netRuns s = true ∧
      s.landfall.hostReady = true ∧ (link = false ∨ duplex = false ∨ (speed ≠ 100 ∧ speed ≠ 1000)))
    ∧ (∃ (s : State) (p : Fin 2), txlEn s p = true ∧ s.landfall.hostReady = true ∧ s.txl.port[p].pathLost = false ∧
      (s.txl.port[p].link = false ∨ s.txl.port[p].beaconAt + 50 ≤ s.mono))
    ∧ (∃ (s : State) (p : Fin 2), s.txl.port[p].pathLost = true ∧ s.txl.port[p].link = true ∧ s.mono <
      s.txl.port[p].beaconAt + 50 ∧ s.txl.port[p].beaconFrom + 1000 ≤ s.mono)
    ∧ (∃ (s : State) (p : Fin 2) (f : TxlFrame), txlEn s p = true ∧ netRuns s = true ∧ (etherOk s f.etype = false ∨
      sizeOk f = false))
    ∧ (∃ (s : State) (p : Fin 2) (f : TxlFrame) (x : TxlRx) (key : Bytes), txlEn s p = true ∧ netRuns s = true ∧
      etherOk s f.etype = true ∧ sizeOk f = true ∧ f.etype = cfgN s 0x50 0 0x000 31 16 ∧ parseTxl f.body = some x ∧
      classOpen s p x = true ∧ x.site = siteId s ∧ x.cls ≠ .host ∧ s.txl.key = some key ∧ x.mac ≠ (hmac key
      x.signed).take 8)
    ∧ (∃ (s : State) (p : Fin 2) (f : TxlFrame) (x : TxlRx) (key : Bytes), txlEn s p = true ∧ netRuns s = true ∧
      etherOk s f.etype = true ∧ sizeOk f = true ∧ f.etype = cfgN s 0x50 0 0x000 31 16 ∧ parseTxl f.body = some x ∧
      classOpen s p x = true ∧ x.site = siteId s ∧ x.cls ≠ .host ∧ s.txl.key = some key ∧ x.mac = (hmac key
      x.signed).take 8 ∧ (x.dst = nodeId s ∨ x.dst = 0xFFFF) ∧ lseqOk s x p = true)
    ∧ (∃ (s : State), helmRuns s = true ∧ s.landfall.hostReady = true ∧ linksUp s = true ∧ acting s = false)
    ∧ (∃ (s : State), helmRuns s = true ∧ s.landfall.hostReady = true ∧ linksUp s = true ∧ acting s = true ∧
      s.mgr.renewIn = 0 ∧ quorum s = true)
    ∧ (∃ (s : State) (p : Fin 2) (dom : Nat), ptpOn s = true ∧ txlEn s p = true ∧ netRuns s = true ∧ dom = cfgN s
      0x50 0 0x040 23 16 ∧ p = ptpPref s ∧ s.txl.ptp.port ≠ p)
    ∧ (∃ (s : State) (p : Fin 2) (dom : Nat) (org : Int) (corr : Int) (rx : Int) (d : Int), ptpOn s = true ∧ txlEn s
      p = true ∧ netRuns s = true ∧ dom = cfgN s 0x50 0 0x040 23 16 ∧ p = s.txl.ptp.port ∧ d = stampOf rx - (org *
      65536 + corr) - s.txl.ptp.delay)
    ∧ (∃ (s : State), ptpOn s = true ∧ threeIntervals s s.txl.ptp.annAt s.txl.ptp.annLog = true)
    ∧ (∃ (s : State), ptpOn s = true ∧ threeIntervals s s.txl.ptp.syncAt s.txl.ptp.syncLog = true)
    ∧ (∃ (s : State) (p : Fin 2) (r : NetRequest) (a : NetAnswer), netAnswer s p r = some a ∧ txlEn s p = true ∧
      netRuns s = true ∧ helmRuns s = true ∧ s.landfall.hostReady = true) :=
  ⟨⟨wCfg [(0x50, 1, 0, 0x80000000)], 0, true, 100, true, by decide +kernel⟩,
    ⟨wCfg [(0x50, 1, 0, 0x80000000)], 0, true, 10, true, by decide +kernel⟩,
    ⟨wCfg [(0x50, 1, 0, 0x80000000)], 0, by decide +kernel⟩,
    ⟨{ wRun with
      txl := { port := Vector.replicate 2 { pathLost := true, link := true, beaconAt := 2000 } }, mono := 2000 }, 0,
      by decide +kernel⟩,
    ⟨wCfg [(0x50, 1, 0, 0x80000000)], 0, ⟨0x88B5, false, List.replicate 1510 0⟩, by decide +kernel⟩,
    ⟨{ wCfg [(0x50, 0, 4, 5), (0x50, 1, 0, 0x80000000), (0x50, 0, 0, 0x88B50000)] with txl := { key := some [] } },
      0, wTxl (List.replicate 8 0), (parseTxl (wTxl (List.replicate 8 0)).body).get (by decide +kernel), [], by
      decide +kernel, by decide +kernel, by decide +kernel, by decide +kernel, by decide +kernel, (Option.some_get
      _).symm, by decide +kernel, by decide +kernel, by decide +kernel, by decide +kernel, by decide +kernel⟩,
    ⟨{ wCfg [(0x50, 0, 4, 5), (0x50, 1, 0, 0x80000000), (0x50, 0, 0, 0x88B50000)] with txl := { key := some [] } },
      0, wTxl wTxlMac, (parseTxl (wTxl wTxlMac).body).get (by decide +kernel), [], by decide +kernel, by
      decide +kernel, by decide +kernel, by decide +kernel, by decide +kernel, (Option.some_get _).symm, by
      decide +kernel, by decide +kernel, by decide +kernel, by decide +kernel, by decide +kernel, by decide +kernel,
      by decide +kernel⟩,
    ⟨wRun, by decide +kernel⟩,
    ⟨wMgr 1 .active id, by decide +kernel⟩,
    ⟨{ wCfg [(0x50, 0, 0x040, 0x80000000), (0x50, 1, 0, 0x80000000)] with txl := { ptp := { port := 1 } } }, 0, _,
      by decide +kernel, by decide +kernel, by decide +kernel, rfl, by decide +kernel, by decide +kernel⟩,
    ⟨wCfg [(0x50, 0, 0x040, 0x80000000), (0x50, 1, 0, 0x80000000)], 0, _, 0, 0, 0, _, by decide +kernel, by
      decide +kernel, by decide +kernel, rfl, by decide +kernel, rfl⟩,
    ⟨{ wCfg [(0x50, 0, 0x040, 0x80000000), (0x50, 1, 0, 0x80000000)] with mono := 100000 }, by decide +kernel⟩,
    ⟨{ wCfg [(0x50, 0, 0x040, 0x80000000), (0x50, 1, 0, 0x80000000)] with mono := 100000 }, by decide +kernel⟩,
    ⟨wCfg [(0x50, 0, 0x010, 2), (0x50, 0, 0x014, 5), (0x50, 1, 0, 0x80000000)], 0, .echo4 5 [1], .echo4 5 [1], by
      decide +kernel⟩⟩

/-- The hypotheses of `SafeTelegramsComplete` can be met. -/
theorem witness_SafeTelegramsComplete :
    (∃ (s : State) (p : Fin 2) (c : Fin 2 × SafeCopy), (s.txl.fwd.find? fun c => c.1 == p) = some c ∧ netRuns s =
      true)
    ∧ (∃ (s : State), s.lk.runA = true ∧ s.lk.runB = true ∧ s.lk.restarting = false ∧ s.fw[(2 : Fin 5)].activating =
      false ∧ linksUp s = true ∧ netRuns s = true)
    ∧ (∃ (s : State) (p : Fin 2) (ch : Fin 2) (c : Fin 2 × SafeCopy), (if ch = 0 then s.lk.runA else s.lk.runB) =
      true ∧ (s.safe.chan[ch].inbox.find? fun c => c.1 == p) = some c)
    ∧ (∃ (s : State) (p : Fin 2) (ch : Fin 2) (c : SafeCopy) (k : Fin 16) (w : SafeWait), copySrc c ≠ safeSid s ∧
      c.flagB = decide (p = 1) ∧ c.bytes.length = 32 ∧ beNat (slice c.bytes 28 4) = scode s c.bytes ∧ peerOf s
      (copySrc c) = some k ∧ (copyDst c = safeSid s ∨ copyDst c = 0xFFFF) ∧ safeMode s ≠ 1 ∧ singleFrom s p = false
      ∧ s.safe.chan[ch].waiting = [w] ∧ copySrc w.copy = copySrc c ∧ copySseq w.copy = copySseq c ∧ w.port ≠ p ∧
      c.at_ ≤ w.copy.at_ + 4 ∧ w.copy.bytes = c.bytes ∧ s.safe.chan[ch].peer[k].last = none)
    ∧ (∃ (s : State) (k : Fin 16) (w : SafeWait), s.safe.chan[(0 : Fin 2)].waiting = [w] ∧ peerOf s (copySrc w.copy)
      = some k ∧ w.copy.at_ + 4 < s.mono)
    ∧ (∃ (s : State) (k : Fin 16), peerEn s k = true)
    ∧ (∃ (s : State) (lost : Fin 2), safeMode s = 2 ∧ s.safe.fallback = false ∧ s.safe.copyAt[lost] + 10 ≤ s.mono ∧
      s.mono < s.safe.copyAt[(1 - lost)] + 10)
    ∧ (∃ (s : State) (from_ : Nat), s.safe.fallback = true ∧ s.safe.pairFrom = some from_ ∧ from_ + 1000 ≤ s.mono ∧
      s.mono < s.safe.copyAt[(0 : Fin 2)] + 10 ∧ s.mono < s.safe.copyAt[(1 : Fin 2)] + 10)
    ∧ (∃ (s : State), s.safe.fallback = true ∧ s.safe.fbAt + cfgN s 0x40 0x40 0x000 23 16 * 3600000 ≤ s.mono) :=
  ⟨⟨{ wRun with txl := { fwd := [(0, wCopy)] } }, 0, (0, wCopy), by decide +kernel⟩,
    ⟨wRun, by decide +kernel⟩,
    ⟨{ wRun with safe := { chan := Vector.replicate 2 { inbox := [(0, wCopy)] } } }, 0, 1, (0, wCopy), by
      decide +kernel⟩,
    ⟨wPeer [⟨1, { wCopy with flagB := true }⟩], 0, 0, wCopy, 0, ⟨1, { wCopy with flagB := true }⟩, by
      decide +kernel⟩,
    ⟨{ wPeer [⟨1, wCopy⟩] with mono := 5 }, 0, ⟨1, wCopy⟩, by decide +kernel⟩,
    ⟨wPeer [], 0, by decide +kernel⟩,
    ⟨{ wCfg [(0x40, 0x40, 0x000, 0x80000000)] with mono := 10, safe := { copyAt := #v[0, 5] } }, 0, by
      decide +kernel⟩,
    ⟨{ wCfg [(0x40, 0x40, 0x000, 0x80000000)] with
      mono := 1000, safe := { fallback := true, pairFrom := some 0, copyAt := #v[995, 995] } }, 0, by
      decide +kernel⟩,
    ⟨{ wCfg [(0x40, 0x40, 0x000, 0x80010000)] with mono := 3600000, safe := { fallback := true } }, by
      decide +kernel⟩⟩

/-- The hypotheses of `LogLineCompletes` can be met. -/
theorem witness_LogLineCompletes :
    (∃ (s : State), s.ll.zcLost = false)
    ∧ (∃ (s : State) (p : Fin 2) (t : Nat), s.ll.zcLost = true ∧ s.ll.zcLast = some p ∧ p + nominalT s = t ∧ 0 <
      nominalT s ∧ 9 ≤ s.ll.zcGood)
    ∧ (∃ (s : State), 4 ≤ s.ll.zcMiss ∧ s.ll.zcLost = false)
    ∧ (∃ (s : State), s.ll.zcMiss < 4)
    ∧ (∃ (s : State) (x : LlAir) (r : List SlotRx × Rms) (h : LlTry), llUp s = true ∧ s.ll.sentTo ≤ slotTime s
      (x.slot + x.idle) ∧ r = rxSlots s x ∧ h = decodeLl s (r.1.drop x.idle) (x.slot + x.idle))
    ∧ (∃ (s : State) (h : LlTry), h.good = true ∧ llForUs s h.frame = false ∧ s.ll.recent = [] ∧ (h.frame.kind ≠ 1 ∨
      s.ll.beaconAt = none) ∧ isManager s = false)
    ∧ (∃ (s : State) (h : LlTry) (a : Fin 34), h.good = false ∧ llExpected s = some a ∧ s.ll.isMaster = false)
    ∧ (∃ (s : State) (h : LlTry), h.good = false ∧ llExpected s = none ∧ (h.sound && llForUs s h.frame) = false)
    ∧ (∃ (s : State), linksUp s = true ∧ s.landfall.hostReady = true ∧ s.ll.pathLost = false ∧ s.ll.isMaster = false
      ∧ s.ll.beaconAt.getD 0 + 750 ≤ s.mono)
    ∧ (∃ (s : State) (b : Nat), s.ll.pathLost = true ∧ s.ll.beaconAt = some b ∧ s.mono < b + 750 ∧ s.ll.validFrom +
      5000 ≤ s.mono)
    ∧ (∃ (s : State) (a : Fin 34) (seg : Fin 12), s.ll.peer[a].heard = true ∧ 0 < mapEntry s.ll.peer[a].map seg ∧
      s.ll.peer[a].errAt[seg] + cfgN s 0x51 0 0x008 31 24 * 1000 ≤ s.mono)
    ∧ (∃ (s : State) (f : LlRx), llSends s = true ∧ s.ll.reply = some f ∧ s.mono < s.ll.neighAt + 60000 ∧
      s.ll.neighLeft = [] ∧ mapCost s (raiseMap s.ll.peer[f.sender].told f.step) ≠ 0xFF)
    ∧ (∃ (s : State) (f : LlRx), llSends s = true ∧ s.ll.toRelay = some f ∧ f.kind ≠ 1)
    ∧ (∃ (s : State), llSends s = true ∧ s.ll.isMaster = true ∧ acting s = true ∧ s.ll.exch = none ∧ s.ll.cycleOpen
      = false)
    ∧ (∃ (s : State) (e : LlExchange), s.ll.isMaster = true ∧ s.ll.exch = some e ∧ e.waiting = true ∧ e.step < 2)
    ∧ (∃ (s : State) (e : LlExchange), s.ll.isMaster = true ∧ s.ll.exch = some e ∧ e.waiting = true ∧ 2 ≤ e.step)
    ∧ (∃ (s : State), s.ll.isMaster = true ∧ s.ll.links ≠ [])
    ∧ (∃ (s : State) (a : Fin 34) (b : Fin 34), s.ll.isMaster = false ∧ (a.val = llAddr s ∧ ownLinkGone s b = true ∨
      b.val = llAddr s ∧ ownLinkGone s a = true)) :=
  ⟨⟨wRun, by decide +kernel⟩,
    ⟨wLine [] fun l => { l with zcLost := true, zcLast := some 0, zcGood := 9 }, 0, 20000, by decide +kernel⟩,
    ⟨wLine [] fun l => { l with zcMiss := 4 }, by decide +kernel⟩,
    ⟨wLine [] fun l => { l with zcMiss := 3 }, by decide +kernel⟩,
    ⟨wLine [] id, ⟨0, 0, []⟩, _, _, by decide +kernel, by decide +kernel, rfl, rfl⟩,
    ⟨wLine [(0x51, 0, 0, 5)] id,
      { syms := [], header := 0x1000, payload := [], stop := 0, synced := true, sound := true, good := true }, by
      decide +kernel⟩,
    ⟨wLine [] fun l => { l with await := some 1 },
      { syms := [], header := 0, payload := [], stop := 0, synced := false, sound := false, good := false }, 1, by
      decide +kernel⟩,
    ⟨wLine [] id,
      { syms := [], header := 0, payload := [], stop := 0, synced := false, sound := false, good := false }, by
      decide +kernel⟩,
    ⟨{ wRun with mono := 750 }, by decide +kernel⟩,
    ⟨{ wLine [] fun l => { l with pathLost := true, beaconAt := some 5000 } with mono := 5000 }, 5000, by
      decide +kernel⟩,
    ⟨{ wLine [] fun l => { l with peer := Vector.replicate 34 { heard := true } } with mono := 1000000 }, 0, 11, by
      decide +kernel⟩,
    ⟨wLine [] fun l => { l with reply := some wLlRx }, wLlRx, by decide +kernel⟩,
    ⟨wLine [] fun l => { l with toRelay := some wLlRx }, wLlRx, by decide +kernel⟩,
    ⟨{ wMgr 1 .active id with txl := { key := some [] }, ll := { isMaster := true } }, by decide +kernel⟩,
    ⟨wLine [] fun l => { l with isMaster := true, exch := some ⟨0, 1, 0, true⟩ }, ⟨0, 1, 0, true⟩, by
      decide +kernel⟩,
    ⟨wLine [] fun l => { l with isMaster := true, exch := some ⟨0, 2, 0, true⟩ }, ⟨0, 2, 0, true⟩, by
      decide +kernel⟩,
    ⟨wLine [] fun l => { l with isMaster := true, links := [(0, 1, 1)] }, by decide +kernel⟩,
    ⟨{ wLine [(0x51, 0, 0, 0)] fun l => { l with peer := Vector.replicate 34 { heard := true } } with
      mono := 30000 }, 0, 1, by decide +kernel⟩⟩

/-- The hypotheses of `WorkerCompletes` can be met. -/
theorem witness_WorkerCompletes :
    (∃ (s : State), s.landfall.role = 0 ∧ helmRuns s = true ∧ s.landfall.hostReady = true ∧ linksUp s = true)
    ∧ (∃ (s : State) (h : SiteMsg) (u : State) (m : AllocMsg) (e : AllocEntry), helmRuns s = true ∧ linksUp s = true
      ∧ s.landfall.role = 0 ∧ takeHeard s (fun h => h.isCtrl [1, 2]) = some (h, u) ∧ m = h.alloc ∧ pairLe
      s.wrk.epoch s.wrk.rank m.epoch m.rank = true ∧ s.wrk.cycle = none ∧ m.entries = [e] ∧ e.node = nodeId s)
    ∧ (∃ (s : State) (h : SiteMsg) (u : State), helmRuns s = true ∧ linksUp s = true ∧ s.landfall.role = 0 ∧
      takeHeard s (fun h => h.isCtrl [1, 2]) = some (h, u) ∧ pairLe s.wrk.epoch s.wrk.rank h.alloc.epoch
      h.alloc.rank = false)
    ∧ (∃ (s : State), s.landfall.role = 0 ∧ helmRuns s = true ∧ s.landfall.hostReady = true ∧ s.wrk.last = none)
    ∧ (∃ (s : State) (p : Nat), s.landfall.role = 0 ∧ helmRuns s = true ∧ s.landfall.hostReady = true ∧ s.wrk.last =
      some p ∧ s.wrk.lastAt + 15000 ≤ s.mono ∧ pSafe s ≤ p)
    ∧ (∃ (s : State) (p : Nat), s.landfall.role = 0 ∧ helmRuns s = true ∧ s.landfall.hostReady = true ∧ s.wrk.last =
      some p ∧ s.wrk.lastAt ≤ s.mono ∧ s.mono ≤ s.wrk.lastAt + 200) :=
  ⟨⟨wRun, by decide +kernel⟩,
    ⟨wHeard (wCfg [(0x50, 0, 4, 5)]) .ctrl 2 ([1, 0, 0] ++ List.replicate 8 0 ++ [0, 5, 0, 0, 0, 0, 0, 0]), (wTook
      (wHeard (wCfg [(0x50, 0, 4, 5)]) .ctrl 2 ([1, 0, 0] ++ List.replicate 8 0 ++ [0, 5, 0, 0, 0, 0, 0, 0])) (fun h
      => h.isCtrl [1, 2])).1, (wTook (wHeard (wCfg [(0x50, 0, 4, 5)]) .ctrl 2 ([1, 0, 0] ++ List.replicate 8 0 ++
      [0, 5, 0, 0, 0, 0, 0, 0])) (fun h => h.isCtrl [1, 2])).2, _, ⟨5, 0, 0⟩, by decide +kernel, by decide +kernel,
      by decide +kernel, took (by decide +kernel), rfl, by decide +kernel, by decide +kernel, by decide +kernel, by
      decide +kernel⟩,
    ⟨wHeard { wRun with wrk := { epoch := 2 } } .ctrl 2 (List.replicate 11 0), (wTook (wHeard { wRun with
      wrk := { epoch := 2 } } .ctrl 2 (List.replicate 11 0)) (fun h => h.isCtrl [1, 2])).1, (wTook (wHeard
      { wRun with wrk := { epoch := 2 } } .ctrl 2 (List.replicate 11 0)) (fun h => h.isCtrl [1, 2])).2, by
      decide +kernel, by decide +kernel, by decide +kernel, took (by decide +kernel), by decide +kernel⟩,
    ⟨wRun, by decide +kernel⟩,
    ⟨{ wCfg [(0x60, 0, 0x040, 10)] with mono := 15000, wrk := { last := some 10 } }, 10, by decide +kernel⟩,
    ⟨{ wRun with mono := 200, wrk := { last := some 10 } }, 10, by decide +kernel⟩⟩

/-- The hypotheses of `ManagerCompletes` can be met. -/
theorem witness_ManagerCompletes :
    (∃ (s : State) (h : SiteMsg) (u : State) (w : Fin 32), isManager s = true ∧ helmRuns s = true ∧ linksUp s = true
      ∧ takeHeard s (fun h => h.isCtrl [3]) = some (h, u) ∧ (enabled s).find? (fun (w : Fin 32) => smNode s w ==
      h.status.node) = some w)
    ∧ (∃ (s : State), acting s = true ∧ helmRuns s = true ∧ linksUp s = true)
    ∧ (∃ (s : State) (from_ : Nat), s.mgr.shadowDiff = true ∧ s.mgr.agreeFrom = some from_ ∧ from_ + 60000 ≤ s.mono)
    ∧ (∃ (s : State), acting s = true ∧ helmRuns s = true ∧ linksUp s = true)
    ∧ (∃ (s : State) (h : SiteMsg) (u : State), isManager s = true ∧ s.mgr.role = .standby ∧ helmRuns s = true ∧
      linksUp s = true ∧ takeHeard s (fun h => h.isCtrl [4]) = some (h, u))
    ∧ (∃ (s : State) (w : Fin 32), acting s = true ∧ s.mgr.rejoin = true ∧ s.mgr.leaveAt = none ∧ groupOrder s 1 =
      [w] ∧ (∀ grp, 2 ≤ grp → groupOrder s grp = []) ∧ 0 < cfgN s 0x60 (w + 1) 0x000 23 19)
    ∧ (∃ (s : State) (h : SiteMsg) (u : State) (b : MgrBeacon), isManager s = true ∧ helmRuns s = true ∧ linksUp s =
      true ∧ takeHeard s (fun h => h.cls == .beacon && !h.releases) = some (h, u) ∧ b = h.beacon ∧ b.active = false
      ∧ b.release = false ∧ b.tokenReq = false ∧ s.mgr.peerLost = false ∧ b.logLine = false)
    ∧ (∃ (s : State), isManager s = true ∧ helmRuns s = true ∧ s.mgr.peerLost = false ∧ declaredAt s ≤ s.mono)
    ∧ (∃ (s : State), isManager s = true ∧ helmRuns s = true ∧ quorum s = false ∧ acting s = true ∧ quorumEnd s +
      1200 ≤ s.mono)
    ∧ (∃ (s : State), isManager s = true ∧ helmRuns s = true ∧ s.mgr.role = .listening ∧ s.mgr.listens = 0 ∧
      s.mgr.roleAt + 1500 ≤ s.mono ∧ s.mgr.heardActive = true)
    ∧ (∃ (s : State), isManager s = true ∧ helmRuns s = true ∧ myRank s = true ∧ s.mgr.role = .listening ∧
      s.mgr.listens = 0 ∧ s.mgr.roleAt + 1500 ≤ s.mono ∧ s.mgr.heardActive = false ∧ quorum s = true ∧ max
      s.mgr.epoch s.mgr.heardHigh < 0xFFFFFFFF)
    ∧ (∃ (s : State), isManager s = true ∧ helmRuns s = true ∧ myRank s = false ∧ s.mgr.role = .listening ∧
      s.mgr.listens = 1 ∧ s.mgr.roleAt + 3000 ≤ s.mono ∧ s.mgr.heardActive = false ∧ quorum s = true ∧ max
      s.mgr.epoch s.mgr.heardHigh < 0xFFFFFFFF)
    ∧ (∃ (s : State), isManager s = true ∧ helmRuns s = true ∧ s.mgr.role = .standby ∧ quorum s = true ∧ max
      (s.mgr.leaseAt + 1200) (declaredAt s) + 20 ≤ s.mono ∧ max s.mgr.epoch s.mgr.heardHigh < 0xFFFFFFFF)
    ∧ (∃ (s : State), healthGreen s = false ∧ isManager s = true ∧ s.mgr.role = .active)
    ∧ (∃ (s : State) (h : SiteMsg) (u : State) (b : MgrBeacon), isManager s = true ∧ helmRuns s = true ∧ linksUp s =
      true ∧ s.mgr.role = .standby ∧ quorum s = true ∧ takeHeard s (fun h => h.cls == .beacon && h.releases) = some
      (h, u) ∧ b = h.beacon ∧ b.release = true ∧ max s.mgr.epoch (max s.mgr.heardHigh b.epoch) < 0xFFFFFFFF)
    ∧ (∃ (s : State), isManager s = true ∧ helmRuns s = true ∧ linksUp s = true ∧ suspended s 14 = false)
    ∧ (∃ (s : State), isManager s = true ∧ myRank s = true ∧ helmRuns s = true ∧ s.mgr.role = .standby ∧ cfgB s 0x60
      0 0x00C 31 = true ∧ healthGreen s = true ∧ s.mgr.redAt + 60000 ≤ s.mono)
    ∧ (∃ (s : State), isManager s = true ∧ myRank s = false ∧ helmRuns s = true ∧ s.mgr.role = .active ∧
      s.mgr.tokenReq = true)
    ∧ (∃ (s : State), s.mgr.role = .releasing ∧ s.mgr.roleAt + 300 ≤ s.mono) :=
  ⟨⟨wHeard (wMgr 1 .active id) .ctrl 6 (List.replicate 27 0), (wTook (wHeard (wMgr 1 .active id) .ctrl 6
  (List.replicate 27 0)) (fun h => h.isCtrl [3])).1, (wTook (wHeard (wMgr 1 .active id) .ctrl 6 (List.replicate 27
  0)) (fun h => h.isCtrl [3])).2, 0, by decide +kernel, by decide +kernel, by decide +kernel, took (by
  decide +kernel), by decide +kernel⟩,
    ⟨wMgr 1 .active id, by decide +kernel⟩,
    ⟨{ wMgr 2 .standby fun m => { m with shadowDiff := true, agreeFrom := some 0 } with mono := 60000 }, 0, by
      decide +kernel⟩,
    ⟨wMgr 1 .active id, by decide +kernel⟩,
    ⟨wHeard (wMgr 2 .standby id) .ctrl 8 (List.replicate 27 0), (wTook (wHeard (wMgr 2 .standby id) .ctrl 8
      (List.replicate 27 0)) (fun h => h.isCtrl [4])).1, (wTook (wHeard (wMgr 2 .standby id) .ctrl 8 (List.replicate
      27 0)) (fun h => h.isCtrl [4])).2, by decide +kernel, by decide +kernel, by decide +kernel, by decide +kernel,
      took (by decide +kernel)⟩,
    ⟨wMgr 1 .active fun m => { m with rejoin := true }, 0, by decide +kernel, by decide +kernel, by decide +kernel,
      by decide +kernel, fun grp h => groups_of_one _ (by decide +kernel) grp h, by decide +kernel⟩,
    ⟨wHeard (wMgr 1 .standby id) .beacon 0 (List.replicate 7 0), (wTook (wHeard (wMgr 1 .standby id) .beacon 0
      (List.replicate 7 0)) (fun h => h.cls == .beacon && !h.releases)).1, (wTook (wHeard (wMgr 1 .standby id)
      .beacon 0 (List.replicate 7 0)) (fun h => h.cls == .beacon && !h.releases)).2, _, by decide +kernel, by
      decide +kernel, by decide +kernel, took (by decide +kernel), rfl, by decide +kernel, by decide +kernel, by
      decide +kernel, by decide +kernel, by decide +kernel⟩,
    ⟨{ wMgr 1 .standby id with mono := 750 }, by decide +kernel⟩,
    ⟨{ wMgr 1 .active id with mono := 5000 }, by decide +kernel⟩,
    ⟨{ wMgr 1 .listening fun m => { m with heardActive := true } with mono := 1500 }, by decide +kernel⟩,
    ⟨{ updWorker (wMgr 1 .listening id) 0 fun w => { w with at_ := 1500 } with mono := 1500 }, by decide +kernel⟩,
    ⟨{ updWorker (wMgr 2 .listening fun m => { m with listens := 1 }) 0 fun w => { w with at_ := 3000 } with
      mono := 3000 }, by decide +kernel⟩,
    ⟨{ updWorker (wMgr 1 .standby id) 0 fun w => { w with at_ := 1220 } with mono := 1220 }, by decide +kernel⟩,
    ⟨{ wMgr 1 .active fun m => { m with coreFaultAt := some 0 } with cfg := [(regAddr 0x60 0 0x024, 1)] }, by
      decide +kernel⟩,
    ⟨wHeard (wMgr 1 .standby id) .beacon 8 (List.replicate 7 0), (wTook (wHeard (wMgr 1 .standby id) .beacon 8
      (List.replicate 7 0)) (fun h => h.cls == .beacon && h.releases)).1, (wTook (wHeard (wMgr 1 .standby id)
      .beacon 8 (List.replicate 7 0)) (fun h => h.cls == .beacon && h.releases)).2, _, by decide +kernel, by
      decide +kernel, by decide +kernel, by decide +kernel, by decide +kernel, took (by decide +kernel), rfl, by
      decide +kernel, by decide +kernel⟩,
    ⟨wMgr 1 .standby id, by decide +kernel⟩,
    ⟨{ wCfg [(0x60, 0, 0x00C, 0x80000000), (0x60, 0, 0x024, 0)] with
      landfall := { wRun.landfall with role := 1 }, mgr := { role := .standby }, mono := 60000 }, by decide +kernel⟩,
    ⟨wMgr 2 .active fun m => { m with tokenReq := true }, by decide +kernel⟩,
    ⟨{ wMgr 1 .releasing id with mono := 300 }, by decide +kernel⟩⟩

/-- The hypotheses of `SessionsComplete` can be met. -/
theorem witness_SessionsComplete :
    (∃ (s : State) (f : Frame), f.sid = 0 ∧ transportOpen s f.via = true ∧ bareOk f (helloBody 0) = true ∧ frameFits
      f = true)
    ∧ (∃ (s : State) (f : Frame) (x : Session), Received s f 0x01 (helloBody 0) x ∧ frameFits f = true)
    ∧ (∃ (s : State) (f : Frame) (x : Session), Received s f 0x01 (helloBody 1) x ∧ frameFits f = true)
    ∧ (∃ (s : State) (f : Frame) (role : Fin 4) (nh : Bytes), f.sid = 0 ∧ transportOpen s f.via = true ∧ bareOk f
      (toBe 1 role ++ nh) = true ∧ roleHeldOff s role = false ∧ frameFits f = true ∧ nh.length = 16 ∧
      s.host.sessions.length < 8 ∧ s.host.challenges.length < 2 ∧ readyForUse s.locker.slot[roleSlot role] = true ∧
      s.locker.slot[roleSlot role].roles.testBit 4 = true)
    ∧ (∃ (s : State) (f : Frame) (ph : Bytes) (c : Challenge), s.host.challenges.find? (·.sid == f.sid) = some c ∧
      transportOpen s f.via = true ∧ bareOk f ph = true ∧ frameFits f = true ∧ ph.length = 32 ∧ readyForUse
      s.locker.slot[roleSlot c.role] = true ∧ ph = proofHost s.locker.slot[roleSlot c.role].material c.sid c.nh c.nm
      ∧ roleHeldOff s c.role = false ∧ s.host.sessions.length < 8)
    ∧ (∃ (s : State) (sid : Nat) (x : Session), findSession s sid = some x ∧ x.lastRx + cfgN s 0x01 0 0x100 31 16 *
      1000 ≤ s.mono)
    ∧ (∃ (s : State) (sid : Nat) (c : Challenge), c ∈ s.host.challenges ∧ c.sid = sid ∧ c.at_ + 2000 ≤ s.mono)
    ∧ (∃ (s : State) (f : Frame) (x : Session) (u : State) (opId : Nat) (y : Op), ControlAccepted s f 0x04 (toBe 4
      opId) x u ∧ s.host.ops.find? (fun y => y.opId == opId && (y.role == x.role || x.role == 1)) = some y ∧
      y.complete = true)
    ∧ (∃ (s : State) (f : Frame) (x : Session) (u : State) (opIds : List Nat), ControlAccepted s f 0x05 (toBe 1
      opIds.length ++ (opIds.map (toBe 4)).flatten) x u ∧ opIds ≠ [] ∧ opIds.length ≤ 64)
    ∧ (∃ (s : State) (f : Frame) (x : Session) (u : State) (opId : Nat) (j : Jrn), ControlAccepted s f 0x06 (toBe 4
      opId) x u ∧ s.host.journal.find? (·.opId == opId) = some j) :=
  ⟨⟨wRun, wBare 0 ((helloBody 0)), by decide +kernel⟩,
    ⟨wHost 0 wRun, wFrameOf (0x01) ((helloBody 0)), wSess 0, received_of (by decide +kernel), by decide +kernel⟩,
    ⟨wHost 0 wRun, wFrameOf (0x01) ((helloBody 1)), wSess 0, received_of (by decide +kernel), by decide +kernel⟩,
    ⟨updSlot wRun 5 fun _ => wSlot 7 4 [], wBare 0 ((toBe 1 (1) ++ (List.replicate 16 0))), 1, List.replicate 16 0,
      by decide +kernel⟩,
    ⟨{ updSlot wRun 5 fun _ => wSlot 7 4 [] with host := { challenges := [⟨3, 1, [], [], 0⟩] } }, wBare 3
      ((proofHost [] 3 [] [])), proofHost [] 3 [] [], ⟨3, 1, [], [], 0⟩, by decide +kernel, by decide +kernel, by
      decide +kernel, by decide +kernel, by decide +kernel, by decide +kernel, rfl, by decide +kernel, by
      decide +kernel⟩,
    ⟨{ wHost 1 wRun with mono := 1000000000 }, 1, wSess 1, by decide +kernel⟩,
    ⟨{ wRun with host := { challenges := [⟨3, 1, [], [], 0⟩] }, mono := 2000 }, 3, ⟨3, 1, [], [], 0⟩, by
      decide +kernel⟩,
    ⟨{ wHost 1 wRun with host := { (wHost 1 wRun).host with ops := [wOp] } }, wFrameOf (0x04) ((toBe 4 (4))), wSess
      1, _, 4, wOp, control_of (by decide +kernel), by decide +kernel, by decide +kernel⟩,
    ⟨wHost 1 wRun, wFrameOf (0x05) ((toBe 1 ([4]).length ++ (([4]).map (toBe 4)).flatten)), wSess 1, _, [4],
      control_of (by decide +kernel), by decide +kernel, by decide +kernel⟩,
    ⟨{ wHost 1 wRun with host := { (wHost 1 wRun).host with journal := [wJrn] } }, wFrameOf (0x06) ((toBe 4 (4))),
      wSess 1, _, 4, wJrn, control_of (by decide +kernel), by decide +kernel⟩⟩

/-- The hypotheses of `OperationsComplete` can be met. -/
theorem witness_OperationsComplete :
    (∃ (s : State) (id : Nat) (x : Op), s.host.ops.find? (·.opId == id) = some x ∧ x.started = false ∧ mayStart s x
      = true)
    ∧ (∃ (s : State) (id : Nat) (x : Op) (r : OpResult), s.host.ops.find? (fun x => x.opId == id && x.started &&
      !x.complete) = some x ∧ x.result = some r ∧ x.cmd.code ≠ 0x51)
    ∧ (∃ (s : State) (id : Nat) (x : Op), x ∈ s.host.ops ∧ x.opId = id ∧ x.complete = true ∧ x.doneAt + 60000 ≤
      s.mono)
    ∧ (∃ (s : State) (b : Bytes), cfgB s 0x01 0 0x100 15 = true ∧ b = ((s.host.out.find? fun f => f.via == .spi).map
      OutFrame.bytes).getD [])
    ∧ (∃ (s : State), s.landfall.recovering = true)
    ∧ (∃ (s : State) (id : Nat) (j : Jrn), j ∈ s.host.journal ∧ j.opId = id ∧ j.recovered = true ∧
      s.landfall.recoveredAt + 600000 ≤ s.mono)
    ∧ (∃ (s : State) (f : Frame) (x : Session) (code : Byte), Received s f code.toNat [] x ∧ landfallDone s = true ∧
      s.landfall.recovering = false) :=
  ⟨⟨{ wRun with host := { ops := [{ wOp with started := false, complete := false }] } }, 4, { wOp with
  started := false, complete := false }, by decide +kernel⟩,
    ⟨{ wRun with host := { ops := [{ wOp with complete := false }] } }, 4, { wOp with complete := false }, ⟨.ok,
      []⟩, by decide +kernel⟩,
    ⟨{ wRun with host := { ops := [wOp] }, mono := 60000 }, 4, wOp, by decide +kernel⟩,
    ⟨wCfg [(0x01, 0, 0x100, 0x8000)], [], by decide +kernel⟩,
    ⟨wLand fun l => { l with recovering := true }, by decide +kernel⟩,
    ⟨{ wRun with host := { journal := [wJrn] }, mono := 600000 }, 4, wJrn, by decide +kernel⟩,
    ⟨wHost 1 wRun, wFrameOf (((0xEE : Byte)).toNat) ([]), wSess 1, (0xEE : Byte), received_of (by decide +kernel),
      by decide +kernel, by decide +kernel⟩⟩

/-- The hypotheses of `ParametersComplete` can be met. -/
theorem witness_ParametersComplete :
    (∃ (s : State) (f : Frame) (x : Session) (u : State) (op : Op), Accepted s f .barrier x u op)
    ∧ (∃ (s : State) (f : Frame) (x : Session) (u : State) (op : Op), Accepted s f .healthGet x u op)
    ∧ (∃ (s : State) (f : Frame) (a : Nat) (n : Nat) (x : Session) (u : State) (op : Op), Accepted s f (.journalRead
      a n) x u op)
    ∧ (∃ (s : State) (f : Frame) (a : Nat) (n : Nat) (x : Session) (u : State) (op : Op), Accepted s f (.logRead a
      n) x u op)
    ∧ (∃ (s : State) (f : Frame) (a : Nat) (n : Nat) (x : Session) (u : State) (op : Op), Accepted s f (.readParam a
      n) x u op)
    ∧ (∃ (s : State) (f : Frame) (i : Fin 3) (x : Session) (u : State) (op : Op), Accepted s f (.readParam (regAddr
      0x30 (0x500 + i) 0x020) 1) x u op)
    ∧ (∃ (s : State) (f : Frame) (o : Fin 2) (x : Session) (u : State) (op : Op), Accepted s f (.readParam (regAddr
      0x30 (0x800 + o) 0x000) 1) x u op)
    ∧ (∃ (s : State) (f : Frame) (x : Session) (u : State) (op : Op), Accepted s f (.readParam (regAddr 0x30 0x700
      0x000) 1) x u op)
    ∧ (∃ (s : State) (f : Frame) (a : Nat) (ws : List Word) (x : Session) (u : State) (op : Op) (t : State),
      Accepted s f (.writeParam a ws) x u op ∧ runWrite u x.sid x.role a ws = (.ok, t))
    ∧ (∃ (s : State) (f : Frame) (sel : RecordSel) (i : Nat) (x : Session) (u : State) (op : Op) (t : State),
      Accepted s f (.writeParam (selAddr sel) [BitVec.ofNat 32 i]) x u op ∧ runWrite u x.sid x.role (selAddr sel)
      [BitVec.ofNat 32 i] = (.ok, t))
    ∧ (∃ (s : State) (f : Frame) (x : Session) (u : State) (op : Op) (t : State), Accepted s f (.writeParam (regAddr
      0x30 0x300 0x008) [1]) x u op ∧ runWrite u x.sid x.role (regAddr 0x30 0x300 0x008) [1] = (.ok, t))
    ∧ (∃ (s : State) (f : Frame) (n : Nat) (x : Session) (u : State) (op : Op) (t : State), n < 4096 ∧ Accepted s f
      (.writeParam (regAddr 0x90 n 0x80C) [emergWord s n]) x u op ∧ runWrite u x.sid x.role (regAddr 0x90 n 0x80C)
      [emergWord s n] = (.ok, t))
    ∧ (∃ (s : State) (f : Frame) (sc : Nat) (pk : Bool) (x : Session) (u : State) (op : Op), Accepted s f (.telFix
      sc pk) x u op ∧ needsStage s = false ∧ s.flt.island[(11 : Fin 17)].lost = false ∧ s.sx.up = true) :=
  ⟨⟨wHost 1 wRun, wFor (.barrier), wSess 1, _, _, accepted_of (by decide +kernel)⟩,
    ⟨wHost 1 wRun, wFor (.healthGet), wSess 1, _, _, accepted_of (by decide +kernel)⟩,
    ⟨wHost 1 wRun, wFor ((.journalRead (4) (1))), 4, 1, wSess 1, _, _, accepted_of (by decide +kernel)⟩,
    ⟨wHost 1 wRun, wFor ((.logRead (0) (1))), 0, 1, wSess 1, _, _, accepted_of (by decide +kernel)⟩,
    ⟨wHost 1 wRun, wFor ((.readParam (regAddr 0x30 0x700 0x010) (1))), regAddr 0x30 0x700 0x010, 1, wSess 1, _, _,
      accepted_of (by decide +kernel)⟩,
    ⟨wHost 1 wRun, wFor ((.readParam (regAddr 0x30 (0x500 + (0)) 0x020) 1)), 0, wSess 1, _, _, accepted_of (by
      decide +kernel)⟩,
    ⟨wHost 1 wRun, wFor ((.readParam (regAddr 0x30 (0x800 + (0)) 0x000) 1)), 0, wSess 1, _, _, accepted_of (by
      decide +kernel)⟩,
    ⟨wHost 1 wRun, wFor ((.readParam (regAddr 0x30 0x700 0x000) 1)), wSess 1, _, _, accepted_of (by decide +kernel)⟩,
    ⟨wHost 0 wRun, wFor ((.writeParam (regAddr 0x90 5 0x80C) ([0x20000000]))), regAddr 0x90 5 0x80C, [0x20000000],
      wSess 0, _, _, _, accepted_of (by decide +kernel), Prod.ext (by decide +kernel) rfl⟩,
    ⟨wHost 0 wRun, wFor ((.writeParam (selAddr (.evt)) [BitVec.ofNat 32 (0)])), .evt, 0, wSess 0, _, _, _,
      accepted_of (by decide +kernel), Prod.ext (by decide +kernel) rfl⟩,
    ⟨wHost 2 wRun, wFor ((.writeParam (regAddr 0x30 0x300 0x008) [1])), wSess 2, _, _, _, accepted_of (by
      decide +kernel), Prod.ext (by decide +kernel) rfl⟩,
    ⟨wHost 0 wRun, wFor ((.writeParam (regAddr 0x90 (5) 0x80C) [emergWord (wHost 0 wRun) (5)])), 5, wSess 0, _, _,
      _, by decide +kernel, accepted_of (by decide +kernel), Prod.ext (by decide +kernel) rfl⟩,
    ⟨wHost 1 wRun, wFor ((.telFix (0) (true))), 0, true, wSess 1, _, _, accepted_of (by decide +kernel), by
      decide +kernel, by decide +kernel, by decide +kernel⟩⟩

/-- The hypotheses of `CommercialOperationsComplete` can be met. -/
theorem witness_CommercialOperationsComplete :
    (∃ (s : State) (f : Frame) (o : Nat) (h : Bytes) (x : Session) (u : State) (op : Op), Accepted s f
      (.sessionAuthorise o 1 h) x u op ∧ needsStage s = false ∧ s.outlet[Fin.ofNat 2 o].st = .identified ∧
      s.outlet[Fin.ofNat 2 o].auth.hash = h)
    ∧ (∃ (s : State) (f : Frame) (o : Nat) (h : Bytes) (x : Session) (u : State) (op : Op), Accepted s f
      (.sessionAuthorise o 2 h) x u op ∧ needsStage s = false ∧ s.outlet[Fin.ofNat 2 o].st = .identified ∧
      s.outlet[Fin.ofNat 2 o].auth.hash = h)
    ∧ (∃ (s : State) (f : Frame) (o : Nat) (h : Bytes) (k : Chunk) (x : Session) (u : State) (op : Op) (t : State)
      (d : Bytes), Accepted s f (.sessionCert o h k) x u op ∧ takeChunk u x.sid 0x20 o k = (t, some (false, d)))
    ∧ (∃ (s : State) (f : Frame) (o : Nat) (h : Bytes) (k : Chunk) (x : Session) (u : State) (op : Op) (t : State)
      (d : Bytes), Accepted s f (.sessionCert o h k) x u op ∧ takeChunk u x.sid 0x20 o k = (t, some (true, d)) ∧
      needsStage s = false ∧ s.outlet[Fin.ofNat 2 o].link.session = true ∧ s.outlet[Fin.ofNat 2 o].answer =
      .ongoing)
    ∧ (∃ (s : State) (f : Frame) (o : Nat) (x : Session) (u : State) (op : Op), Accepted s f (.sessionStop o) x u op
      ∧ needsStage s = false ∧ s.outlet[Fin.ofNat 2 o].st ≠ .idle ∧ s.outlet[Fin.ofNat 2 o].st ≠ .finished ∧
      s.outlet[Fin.ofNat 2 o].st ≠ .faulted)
    ∧ (∃ (s : State) (f : Frame) (k : Chunk) (x : Session) (u : State) (op : Op) (t : State) (d : Bytes), Accepted s
      f (.authTableLoad k) x u op ∧ takeChunk u x.sid 0x22 0 k = (t, some (false, d)))
    ∧ (∃ (s : State) (f : Frame) (k : Chunk) (x : Session) (u : State) (op : Op) (t : State) (d : Bytes), Accepted s
      f (.authTableLoad k) x u op ∧ takeChunk u x.sid 0x22 0 k = (t, some (true, d)) ∧ authOk (authEntries (d.length
      / 16) d) = true)
    ∧ (∃ (s : State) (f : Frame) (n : Nat) (v : Int) (x : Session) (u : State) (op : Op), Accepted s f (.accountLoad
      n 1 v) x u op)
    ∧ (∃ (s : State) (f : Frame) (n : Nat) (v : Int) (x : Session) (u : State) (op : Op), Accepted s f (.accountLoad
      n 2 v) x u op)
    ∧ (∃ (s : State) (f : Frame) (n : Nat) (v : Int) (x : Session) (u : State) (op : Op), Accepted s f (.accountLoad
      n 3 v) x u op)
    ∧ (∃ (s : State) (f : Frame) (n : Nat) (v : Int) (x : Session) (u : State) (op : Op), Accepted s f (.accountLoad
      n 4 v) x u op)
    ∧ (∃ (s : State) (f : Frame) (p : Nat) (l : List (Nat × Nat)) (x : Session) (u : State) (op : Op), Accepted s f
      (.siteLimitSet p l) x u op ∧ acting s = true ∧ p ≠ 0xFFFFFFFF ∧ p ≤ cfgN s 0x60 0 0x000 31 0 ∧ (l.all fun c =>
      (enabled s).any fun w => smNode s w == c.1) = true)
    ∧ (∃ (s : State) (f : Frame) (m : Nat) (x : Session) (u : State) (op : Op), Accepted s f (.weatherHold m) x u
      op)
    ∧ (∃ (s : State) (f : Frame) (l : List ScrollItem) (x : Session) (u : State) (op : Op), Accepted s f (.scrollSet
      l) x u op)
    ∧ (∃ (s : State) (f : Frame) (x0 : Nat) (y0 : Nat) (w : Nat) (h : Nat) (pix : Bytes) (x : Session) (u : State)
      (op : Op), Accepted s f (.displayRect x0 y0 w h pix) x u op ∧ ((List.range h).any fun j => inLegal s.disp (y0
      + j)) = false ∧ s.disp.waiting = []) :=
  ⟨⟨wHost 0 (wOut [] fun x => { x with st := .identified, auth := { hash := List.replicate 8 0 } }), wFor
  ((.sessionAuthorise (0) 1 (List.replicate 8 0))), 0, List.replicate 8 0, wSess 0, _, _, accepted_of (by
  decide +kernel), by decide +kernel, by decide +kernel, by decide +kernel⟩,
    ⟨wHost 0 (wOut [] fun x => { x with st := .identified, auth := { hash := List.replicate 8 0 } }), wFor
      ((.sessionAuthorise (0) 2 (List.replicate 8 0))), 0, List.replicate 8 0, wSess 0, _, _, accepted_of (by
      decide +kernel), by decide +kernel, by decide +kernel, by decide +kernel⟩,
    ⟨wHost 0 wRun, wFor ((.sessionCert (0) (List.replicate 8 0) (⟨4, 0, [1]⟩))), 0, List.replicate 8 0, ⟨4, 0, [1]⟩,
      wSess 0, _, _, _, [1], accepted_of (by decide +kernel), Prod.ext rfl (by decide +kernel)⟩,
    ⟨wHost 0 (wOut [] fun x => { x with answer := .ongoing, link := { session := true } }), wFor ((.sessionCert (0)
      (List.replicate 8 0) (⟨1, 0, [1]⟩))), 0, List.replicate 8 0, ⟨1, 0, [1]⟩, wSess 0, _, _, _, [1], accepted_of
      (by decide +kernel), Prod.ext rfl (by decide +kernel), by decide +kernel, by decide +kernel, by
      decide +kernel⟩,
    ⟨wHost 0 (wOut [] fun x => { x with st := .energyTransfer }), wFor ((.sessionStop (0))), 0, wSess 0, _, _,
      accepted_of (by decide +kernel), by decide +kernel, by decide +kernel, by decide +kernel, by decide +kernel⟩,
    ⟨wHost 0 wRun, wFor ((.authTableLoad (⟨32, 0, List.replicate 16 0⟩))), ⟨32, 0, List.replicate 16 0⟩, wSess 0, _,
      _, _, List.replicate 16 0, accepted_of (by decide +kernel), Prod.ext rfl (by decide +kernel)⟩,
    ⟨wHost 0 wRun, wFor ((.authTableLoad (⟨16, 0, List.replicate 16 0⟩))), ⟨16, 0, List.replicate 16 0⟩, wSess 0, _,
      _, _, List.replicate 16 0, accepted_of (by decide +kernel), Prod.ext rfl (by decide +kernel), by
      decide +kernel⟩,
    ⟨wHost 0 wRun, wFor ((.accountLoad (4095) 1 (-1))), 4095, -1, wSess 0, _, _, accepted_of (by decide +kernel)⟩,
    ⟨wHost 0 wRun, wFor ((.accountLoad (0) 2 (1))), 0, 1, wSess 0, _, _, accepted_of (by decide +kernel)⟩,
    ⟨wHost 0 wRun, wFor ((.accountLoad (0) 3 (2))), 0, 2, wSess 0, _, _, accepted_of (by decide +kernel)⟩,
    ⟨wHost 0 wRun, wFor ((.accountLoad (0) 4 (0))), 0, 0, wSess 0, _, _, accepted_of (by decide +kernel)⟩,
    ⟨wHost 0 { wMgr 1 .active id with cfg := [(regAddr 0x60 0 0, 10), (regAddr 0x60 1 0, 0x81080005)] }, wFor
      ((.siteLimitSet (10) ([(5, 1)]))), 10, [(5, 1)], wSess 0, _, _, accepted_of (by decide +kernel), by
      decide +kernel, by decide +kernel, by decide +kernel, by decide +kernel⟩,
    ⟨wHost 0 wRun, wFor ((.weatherHold (10))), 10, wSess 0, _, _, accepted_of (by decide +kernel)⟩,
    ⟨wHost 0 wRun, wFor ((.scrollSet ([]))), [], wSess 0, _, _, accepted_of (by decide +kernel)⟩,
    ⟨wHost 0 wRun, wFor ((.displayRect (0) (0) (4) (1) ([0]))), 0, 0, 4, 1, [0], wSess 0, _, _, accepted_of (by
      decide +kernel), by decide +kernel, by decide +kernel⟩⟩

/-- The hypotheses of `LegalAndSafetyOperationsComplete` can be met. -/
theorem witness_LegalAndSafetyOperationsComplete :
    (∃ (s : State) (f : Frame) (k : Chunk) (x : Session) (u : State) (op : Op) (t : State) (d : Bytes), Accepted s f
      (.tariffLoad k) x u op ∧ takeChunk u x.sid 0x30 0 k = (t, some (false, d)))
    ∧ (∃ (s : State) (f : Frame) (k : Chunk) (x : Session) (u : State) (op : Op) (t : State) (d : Bytes) (c :
      Calendar), Accepted s f (.tariffLoad k) x u op ∧ takeChunk u x.sid 0x30 0 k = (t, some (true, d)) ∧
      meridianAway s = false ∧ parseCalendar d s.nowNs = some c)
    ∧ (∃ (s : State) (f : Frame) (time : Nat) (x : Session) (u : State) (op : Op), Accepted s f (.clockSet time) x u
      op ∧ meridianAway s = false ∧ (x.role ≠ 0 ∨ s.mer.chr.src ≠ 1))
    ∧ (∃ (s : State) (f : Frame) (x : Session) (u : State) (op : Op), Accepted s f .billingClose x u op ∧
      meridianAway s = false)
    ∧ (∃ (s : State) (f : Frame) (time : Nat) (x : Session) (u : State) (op : Op), Accepted s f (.clockSet time) x u
      op ∧ meridianAway s = true)
    ∧ (∃ (s : State) (f : Frame) (x : Session) (u : State) (op : Op), Accepted s f .billingClose x u op ∧
      meridianAway s = true)
    ∧ (∃ (s : State) (f : Frame) (v : Nat) (x : Session) (u : State) (op : Op), Accepted s f (.safetyConfirm v
      false) x u op ∧ s.landfall.phase = 9 ∧ v = s.lk.checkA ∧ v = s.lk.checkB ∧ s.lk.runA = true ∧ s.lk.runB =
      true)
    ∧ (∃ (s : State) (f : Frame) (v : Nat) (x : Session) (u : State) (op : Op), Accepted s f (.safetyConfirm v true)
      x u op ∧ s.landfall.phase = 9 ∧ anyDelivering s = false)
    ∧ (∃ (s : State) (f : Frame) (i : Nat) (x : Session) (u : State) (op : Op), Accepted s f (.latchClear 1 i) x u
      op ∧ s.sx.stage[Fin.ofNat 8 i].st = .latched ∧ s.lk.gpA = true ∧ s.lk.gpB = true ∧ stageFlt s (Fin.ofNat 8 i)
      = false)
    ∧ (∃ (s : State) (f : Frame) (i : Nat) (x : Session) (u : State) (op : Op) (g : Fin 8), Accepted s f
      (.latchClear 2 i) x u op ∧ s.sx.cell[Fin.ofNat 48 i].st = .retired ∧ cellStage s (Fin.ofNat 48 i) = some g ∧
      s.sx.stage[g].st = .off)
    ∧ (∃ (s : State) (f : Frame) (i : Nat) (x : Session) (u : State) (op : Op), Accepted s f (.latchClear 3 i) x u
      op ∧ (clearOutlet u (Fin.ofNat 2 i)).1 = .ok)
    ∧ (∃ (s : State) (f : Frame) (i : Nat) (x : Session) (u : State) (op : Op), Accepted s f (.latchClear 4 i) x u
      op ∧ (clearSafety u).1 = .ok)
    ∧ (∃ (s : State) (f : Frame) (i : Nat) (x : Session) (u : State) (op : Op), Accepted s f (.latchClear 5 i) x u
      op ∧ s.disp.faultCrack = true ∧ crackBad s s.disp.crackRes = false)
    ∧ (∃ (s : State) (f : Frame) (i : Nat) (x : Session) (u : State) (op : Op), Accepted s f (.latchClear 6 i) x u
      op ∧ s.landfall.holdTamper = true ∧ s.tamper.active = 0) :=
  ⟨⟨wHost 0 wRun, wFor ((.tariffLoad (⟨75, 0, [0]⟩))), ⟨75, 0, [0]⟩, wSess 0, _, _, _, [0], accepted_of (by
  decide +kernel), Prod.ext rfl (by decide +kernel)⟩,
    ⟨wHost 0 wRun, wFor ((.tariffLoad (⟨75, 0, wCalendar⟩))), ⟨75, 0, wCalendar⟩, wSess 0, _, _, _, wCalendar,
      (parseCalendar wCalendar 0).get (by decide +kernel), accepted_of (by decide +kernel), Prod.ext rfl (by
      decide +kernel), by decide +kernel, (Option.some_get _).symm⟩,
    ⟨wHost 0 wRun, wFor ((.clockSet (5))), 5, wSess 0, _, _, accepted_of (by decide +kernel), by decide +kernel, by
      decide +kernel⟩,
    ⟨wHost 0 wRun, wFor (.billingClose), wSess 0, _, _, accepted_of (by decide +kernel), by decide +kernel⟩,
    ⟨wHost 0 { wRun with mer := {} }, wFor ((.clockSet (5))), 5, wSess 0, _, _, accepted_of (by decide +kernel), by
      decide +kernel⟩,
    ⟨wHost 0 { wRun with mer := {} }, wFor (.billingClose), wSess 0, _, _, accepted_of (by decide +kernel), by
      decide +kernel⟩,
    ⟨wHost 1 wRun, wFor ((.safetyConfirm (0) false)), 0, wSess 1, _, _, accepted_of (by decide +kernel), by
      decide +kernel, by decide +kernel, by decide +kernel, by decide +kernel, by decide +kernel⟩,
    ⟨wHost 1 wRun, wFor ((.safetyConfirm (0) true)), 0, wSess 1, _, _, accepted_of (by decide +kernel), by
      decide +kernel, by decide +kernel⟩,
    ⟨wHost 1 (wStage [] fun x => { x with st := .latched }), wFor ((.latchClear 1 (0))), 0, wSess 1, _, _,
      accepted_of (by decide +kernel), by decide +kernel, by decide +kernel, by decide +kernel, by decide +kernel⟩,
    ⟨wHost 1 (updCell (wCfg [(0x12, 0, 0, 1)]) 0 fun x => { x with st := .retired }), wFor ((.latchClear 2 (0))), 0,
      wSess 1, _, _, 0, accepted_of (by decide +kernel), by decide +kernel, by decide +kernel, by decide +kernel⟩,
    ⟨wHost 1 (updLko wRun 0 fun x => { x with blocked := true }), wFor ((.latchClear 3 (0))), 0, wSess 1, _, _,
      accepted_of (by decide +kernel), by decide +kernel⟩,
    ⟨wHost 1 { wCfg [(0x40, 0, 0x020, 0x80000000)] with lk := { wRun.lk with xcmp := true } }, wFor ((.latchClear 4
      (0))), 0, wSess 1, _, _, accepted_of (by decide +kernel), by decide +kernel⟩,
    ⟨wHost 1 { wCfg [(0x80, 0, 0x098, 0x00020001)] with disp := { faultCrack := true, crackRes := 2 } }, wFor
      ((.latchClear 5 (0))), 0, wSess 1, _, _, accepted_of (by decide +kernel), by decide +kernel, by
      decide +kernel⟩,
    ⟨wHost 1 (wLand fun l => { l with holdTamper := true }), wFor ((.latchClear 6 (0))), 0, wSess 1, _, _,
      accepted_of (by decide +kernel), by decide +kernel, by decide +kernel⟩⟩

/-- The hypotheses of `KeyOperationsComplete` can be met. -/
theorem witness_KeyOperationsComplete :
    (∃ (s : State) (f : Frame) (k : Nat) (a : Bytes) (m : Bytes) (w : Unwrapped) (up : TagUpsets) (x : Session) (u :
      State) (op : Op), Accepted s f (.keyImport k 0xFF a m w up) x u op ∧ attrsOk s k a = true ∧ publicAlg (attrN a
      1) = true ∧ m.length = (algTable (attrN a 1)).1)
    ∧ (∃ (s : State) (f : Frame) (k : Nat) (w : Nat) (a : Bytes) (wrapped : Bytes) (i : Bytes) (m : Bytes) (up :
      TagUpsets) (x : Session) (u : State) (op : Op) (v : State), Accepted s f (.keyImport k w a wrapped (.ok i m)
      up) x u op ∧ w ≠ 0xFF ∧ v = checkTag u (pairBase u (Fin.ofNat 128 w)) up ∧ attrsOk v k a = true ∧ readyForUse
      v.locker.slot[pairBase u (Fin.ofNat 128 w)] = true ∧ v.locker.slot[pairBase u (Fin.ofNat 128 w)].usage = 3 ∧
      m.length = (algTable (attrN a 1)).1 ∧ (v.locker.slot[pairBase u (Fin.ofNat 128 w)].alg = 2 → i = a))
    ∧ (∃ (s : State) (f : Frame) (p : Nat) (c : Nat) (a : Bytes) (ctx : Bytes) (up : TagUpsets) (x : Session) (u :
      State) (op : Op) (v : State), Accepted s f (.keyDerive p c a ctx up) x u op ∧ checkUse u (pairBase u
      (Fin.ofNat 128 p)) up [4] x.role = (.ok, v) ∧ attrsOk v c a = true ∧ attrN a 1 ∈ ([0x01, 0x04, 0x05, 0x10] :
      List Nat) ∧ attrN a 3 = p)
    ∧ (∃ (s : State) (f : Frame) (k : Nat) (x : Session) (u : State) (op : Op), Accepted s f (.keyInvalidate k) x u
      op ∧ k ∉ ([0, 1, 3, 5] : List Nat) ∧ s.locker.slot[pairBase s (Fin.ofNat 128 k)].st = .valid ∧
      s.locker.slot[pairBase s (Fin.ofNat 128 k)].users = [])
    ∧ (∃ (s : State) (f : Frame) (k : Nat) (x : Session) (u : State) (op : Op), Accepted s f (.keyInvalidate k) x u
      op ∧ k ∉ ([0, 1, 3, 5] : List Nat) ∧ s.locker.slot[pairBase s (Fin.ofNat 128 k)].st = .valid ∧
      s.locker.slot[pairBase s (Fin.ofNat 128 k)].users ≠ [])
    ∧ (∃ (s : State) (f : Frame) (k : Nat) (iv : Bytes) (aad : Bytes) (d : Bytes) (up : TagUpsets) (x : Session) (u
      : State) (op : Op) (v : State), Accepted s f (.keyEncrypt k iv aad d up) x u op ∧ checkUse u (pairBase u
      (Fin.ofNat 128 k)) up [1] x.role = (.ok, v))
    ∧ (∃ (s : State) (f : Frame) (k : Nat) (iv : Bytes) (aad : Bytes) (d : Bytes) (up : TagUpsets) (x : Session) (u
      : State) (op : Op) (v : State), Accepted s f (.keyDecrypt k iv aad d true up) x u op ∧ checkUse u (pairBase u
      (Fin.ofNat 128 k)) up [2] x.role = (.ok, v))
    ∧ (∃ (s : State) (f : Frame) (k : Nat) (m : Bytes) (up : TagUpsets) (x : Session) (u : State) (op : Op) (v :
      State) (w : State), Accepted s f (.keySign k m up) x u op ∧ checkUse u (pairBase u (Fin.ofNat 128 k)) up [5]
      x.role = (.ok, v) ∧ w = usedBy v (pairBase u (Fin.ofNat 128 k)) op.opId)
    ∧ (∃ (s : State) (f : Frame) (k : Nat) (sg : Bytes) (m : Bytes) (ok : Bool) (up : TagUpsets) (x : Session) (u :
      State) (op : Op) (v : State), Accepted s f (.keyVerify k sg m ok up) x u op ∧ checkUse u (pairBase u
      (Fin.ofNat 128 k)) up [6] x.role = (.ok, v))
    ∧ (∃ (s : State) (f : Frame) (k : Nat) (m : Bytes) (up : TagUpsets) (x : Session) (u : State) (op : Op) (v :
      State) (w : State), Accepted s f (.keyMac k m up) x u op ∧ checkUse u (pairBase u (Fin.ofNat 128 k)) up [7]
      x.role = (.ok, v) ∧ w = usedBy v (pairBase u (Fin.ofNat 128 k)) op.opId)
    ∧ (∃ (s : State) (f : Frame) (k : Nat) (up : TagUpsets) (x : Session) (u : State) (op : Op) (v : State) (w :
      State), Accepted s f (.keyPublic k up) x u op ∧ checkUse u (pairBase u (Fin.ofNat 128 k)) up [5, 3, 6] x.role
      = (.ok, v) ∧ w = usedBy v (pairBase u (Fin.ofNat 128 k)) op.opId ∧ publicAlg w.locker.slot[pairBase u
      (Fin.ofNat 128 k)].alg = true)
    ∧ (∃ (s : State) (f : Frame) (n : Bytes) (up : TagUpsets) (x : Session) (u : State) (op : Op) (v : State),
      Accepted s f (.attest n up) x u op ∧ v = checkTag u 0 up ∧ v.locker.slot[(0 : Fin 128)].st ≠ .unusable)
    ∧ (∃ (s : State) (f : Frame) (n : Nat) (k : Chunk) (x : Session) (u : State) (op : Op) (v : State) (l : Bool) (d
      : Bytes) (w : State), Accepted s f (.fwStage n k) x u op ∧ activatingAny s = false ∧ (s.host.transfers.any fun
      y => y.cmd == 0x60 && y.target == n && y.sid != x.sid) = false ∧ takeChunk u x.sid 0x60 n k = (v, some (l, d))
      ∧ w = updFw (writeStaged (if k.offset = 0 then eraseStaged v (fwIndex n) else v) (fwIndex n) k.offset k.data)
      (fwIndex n) (fun y => { y with
      stage := (if l then 2 else 1), stagedVer := 0, stagedLen := k.offset + k.data.length }) ∧ buildTimeOk
      (stagedBytes w (fwIndex n)) = true)
    ∧ (∃ (s : State) (f : Frame) (n : Nat) (g : Bool) (up : TagUpsets) (x : Session) (u : State) (op : Op), Accepted
      s f (.fwVerify n g up) x u op ∧ n ≠ 5 ∧ 2 ≤ s.fw[fwIndex n].stage ∧ (checkTag u 1 up).locker.slot[(1 : Fin
      128)].st ≠ .unusable ∧ imageVerdict n (stagedBytes s (fwIndex n)) g s.fw[fwIndex n].arb = .ok)
    ∧ (∃ (s : State) (f : Frame) (g : Bool) (up : TagUpsets) (x : Session) (u : State) (op : Op) (v : State),
      Accepted s f (.fwVerify 5 g up) x u op ∧ 2 ≤ s.fw[(4 : Fin 5)].stage ∧ (checkTag u 2 up).locker.slot[(2 : Fin
      128)].st ≠ .unusable ∧ chartVerdict (checkTag u 2 up) (stagedBytes s 4) g = (.ok, v))
    ∧ (∃ (s : State) (f : Frame) (n : Nat) (x : Session) (u : State) (op : Op), Accepted s f (.fwActivate n) x u op
      ∧ activateVerdict s (fwIndex n) = .ok)
    ∧ (∃ (s : State) (f : Frame) (x : Session) (u : State) (op : Op), Accepted s f (.fwActivate 2) x u op ∧
      activateVerdict s 1 = .ok) :=
  ⟨⟨wHost 1 wRun, wFor ((.keyImport (10) 0xFF ([6, 3, 1, 0xFF, 0, 0, 0, 33] ++ List.replicate 8 0) (List.replicate 33
  0) (.failed) ({}))), 10, [6, 3, 1, 0xFF, 0, 0, 0, 33] ++ List.replicate 8 0, List.replicate 33 0, .failed, {},
  wSess 1, _, _, accepted_of (by decide +kernel), by decide +kernel, by decide +kernel, by decide +kernel⟩,
    ⟨wHost 1 (wKey 3 5), wFor ((.keyImport (10) (9) ([1, 1, 1, 0xFF, 0, 0, 0, 16] ++ List.replicate 8 0) ([]) (.ok
      ([]) (List.replicate 16 0)) ({}))), 10, 9, [1, 1, 1, 0xFF, 0, 0, 0, 16] ++ List.replicate 8 0, [], [],
      List.replicate 16 0, {}, wSess 1, _, _, _, accepted_of (by decide +kernel), by decide +kernel, rfl, by
      decide +kernel, by decide +kernel, by decide +kernel, by decide +kernel, by decide +kernel⟩,
    ⟨wHost 1 (wKey 4 5), wFor ((.keyDerive (9) (10) ([1, 1, 1, 9, 0, 0, 0, 16] ++ List.replicate 8 0) ([]) ({}))),
      9, 10, [1, 1, 1, 9, 0, 0, 0, 16] ++ List.replicate 8 0, [], {}, wSess 1, _, _, _, accepted_of (by
      decide +kernel), pair_of (by decide +kernel), by decide +kernel, by decide +kernel, by decide +kernel⟩,
    ⟨wHost 1 (wKey 1 1), wFor ((.keyInvalidate (9))), 9, wSess 1, _, _, accepted_of (by decide +kernel), by
      decide +kernel, by decide +kernel, by decide +kernel⟩,
    ⟨wHost 1 (updSlot wRun 9 fun _ => { wSlot 1 1 [] with users := [7] }), wFor ((.keyInvalidate (9))), 9, wSess 1,
      _, _, accepted_of (by decide +kernel), by decide +kernel, by decide +kernel, by decide +kernel⟩,
    ⟨wHost 1 (wKey 1 1), wFor ((.keyEncrypt (9) (List.replicate 12 0) ([]) ([]) ({}))), 9, List.replicate 12 0, [],
      [], {}, wSess 1, _, _, _, accepted_of (by decide +kernel), pair_of (by decide +kernel)⟩,
    ⟨wHost 1 (wKey 2 1), wFor ((.keyDecrypt (9) (List.replicate 12 0) ([]) (List.replicate 16 0) true ({}))), 9,
      List.replicate 12 0, [], List.replicate 16 0, {}, wSess 1, _, _, _, accepted_of (by decide +kernel), pair_of
      (by decide +kernel)⟩,
    ⟨wHost 1 (wKey 5 2), wFor ((.keySign (9) ([]) ({}))), 9, [], {}, wSess 1, _, _, _, _, accepted_of (by
      decide +kernel), pair_of (by decide +kernel), rfl⟩,
    ⟨wHost 1 (wKey 6 3), wFor ((.keyVerify (9) ([]) ([]) (true) ({}))), 9, [], [], true, {}, wSess 1, _, _, _,
      accepted_of (by decide +kernel), pair_of (by decide +kernel)⟩,
    ⟨wHost 1 (wKey 7 4), wFor ((.keyMac (9) ([]) ({}))), 9, [], {}, wSess 1, _, _, _, _, accepted_of (by
      decide +kernel), pair_of (by decide +kernel), rfl⟩,
    ⟨wHost 1 (wKey 6 3), wFor ((.keyPublic (9) ({}))), 9, {}, wSess 1, _, _, _, _, accepted_of (by decide +kernel),
      pair_of (by decide +kernel), rfl, by decide +kernel⟩,
    ⟨wHost 1 wRun, wFor ((.attest (List.replicate 16 0) ({}))), List.replicate 16 0, {}, wSess 1, _, _, _,
      accepted_of (by decide +kernel), rfl, by decide +kernel⟩,
    ⟨wHost 3 wRun, wFor ((.fwStage (1) (⟨256, 0, [1]⟩))), 1, ⟨256, 0, [1]⟩, wSess 3, _, _, _, false, [], _,
      accepted_of (by decide +kernel), by decide +kernel, by decide +kernel, Prod.ext rfl (by decide +kernel), rfl,
      by decide +kernel⟩,
    ⟨wHost 2 (wStaged 2), wFor ((.fwVerify (4) (true) ({}))), 4, true, {}, wSess 2, _, _, accepted_of (by
      decide +kernel), by decide +kernel, by decide +kernel, by decide +kernel, by decide +kernel⟩,
    ⟨wHost 1 wStagedChart, wFor ((.fwVerify 5 (true) ({}))), true, {}, wSess 1, _, _, _, accepted_of (by
      decide +kernel), by decide +kernel, by decide +kernel, pair_of (by decide +kernel)⟩,
    ⟨wHost 2 (wStaged 3), wFor ((.fwActivate (4))), 4, wSess 2, _, _, accepted_of (by decide +kernel), by
      decide +kernel⟩,
    ⟨wHost 3 { wRun with fw := upd wRun.fw 1 fun x => { x with stage := 3 } }, wFor ((.fwActivate 2)), wSess 3, _,
      _, accepted_of (by decide +kernel), by decide +kernel⟩⟩

/-- The hypotheses of `IdleStepIsOneMillisecond` can be met. -/
theorem witness_IdleStepIsOneMillisecond :
    ∃ (s : State), s.pending = [] :=
  ⟨wRun, by decide +kernel⟩

/-- The hypotheses of `EveryCommandKeepsItsFrame` can be met. -/
theorem witness_EveryCommandKeepsItsFrame :
    ∃ (s : State) (t : State), (∀ p : Part, p.same s t) :=
  ⟨wRun, wRun, fun p => by cases p <;> simp [Part.same]⟩

/-- The hypotheses of `StepKeepsMemoriesCanonical` can be met. -/
theorem witness_StepKeepsMemoriesCanonical :
    ∃ (s : State) (t : State), s.memWf = true ∧ step s = .next t :=
  ⟨wRun, idle wRun, by decide +kernel, rfl⟩

/-- The hypotheses of `HeldInstanceStaysStill` can be met. -/
theorem witness_HeldInstanceStaysStill :
    ∃ (s : State) (i : Fin 96) (g : Fin 8), lawStage s i = some g ∧ (s.sx.stage[g].st.code < 1 ∨ 6 <
      s.sx.stage[g].st.code) :=
  ⟨wCfg [(0x14, 0, 0, 0x40000000)], 0, 0, by decide +kernel⟩

/-- The hypotheses of `OperationsStartInOrder` can be met. -/
theorem witness_OperationsStartInOrder :
    (∃ (s : State) (x : Op) (y : Op), s.host.ops.find? (·.opId == x.opId) = some x ∧ x.started = false ∧ y ∈
      opsBefore s x.opId ∧ y.sid = x.sid ∧ y.cls = x.cls ∧ y.complete = false)
    ∧ (∃ (s : State) (x : Op), s.host.ops.find? (·.opId == x.opId) = some x ∧ x.started = false ∧ (∀ y ∈ opsBefore s
      x.opId, y.sid = x.sid → y.complete = false → y.cls ≠ x.cls ∧ y.cmd ≠ .barrier ∧ x.cmd ≠ .barrier))
    ∧ (∃ (s : State) (id : Nat), (∀ y ∈ s.host.ops, y.opId = id → y.started = false)) :=
  ⟨⟨{ wRun with
  host := { ops := [{ wOp with opId := 3, complete := false }, { wOp with started := false, complete := false }] } },
  { wOp with started := false, complete := false }, { wOp with opId := 3, complete := false }, by decide +kernel⟩,
    ⟨{ wRun with host := { ops := [wOp, { wOp with opId := 5, started := false, complete := false }] } }, { wOp with
      opId := 5, started := false, complete := false }, by decide +kernel⟩,
    ⟨{ wRun with host := { ops := [{ wOp with started := false, complete := false }] } }, 4, by decide +kernel⟩⟩

/-- The hypotheses of `LowEnergyRepeatsOnce` can be met. -/
theorem witness_LowEnergyRepeatsOnce :
    (∃ (s : State) (o : Fin 2) (r : AirReply) (l : List Bool), talking s o = true ∧ s.rdr.port[o].write.busy = true
      ∧ s.rdr.port[o].write.readBack = false ∧ hearReply 4 r = .bits l ∧ bitsVal l = 1 ∧
      s.rdr.port[o].write.repeated = false)
    ∧ (∃ (s : State) (o : Fin 2) (r : AirReply) (l : List Bool), talking s o = true ∧ s.rdr.port[o].write.busy =
      true ∧ s.rdr.port[o].write.readBack = false ∧ hearReply 4 r = .bits l ∧ bitsVal l = 1 ∧
      s.rdr.port[o].write.repeated = true) :=
  ⟨⟨wRead fun x => { x with write := { busy := true } }, 0, wReply 1236 (List.replicate 3 false ++ [true]),
  List.replicate 3 false ++ [true], by decide +kernel⟩,
    ⟨wRead fun x => { x with write := { busy := true, repeated := true } }, 0, wReply 1236 (List.replicate 3 false
      ++ [true]), List.replicate 3 false ++ [true], by decide +kernel⟩⟩

/-- The hypotheses of `RectanglesSpareTheLegalWindow` can be met. -/
theorem witness_RectanglesSpareTheLegalWindow :
    ∃ (d : Display) (q : RectReq) (a : Nat), q.rect.x0 + q.rect.w ≤ 160 ∧ inLegal d (a / 40) = true :=
  ⟨{ lwinY0 := 8, lwinH := 16 }, ⟨⟨0, 0, 160, 64⟩, [], none, false⟩, 320, by decide +kernel⟩

/-- The hypotheses of `EveryBallHasOneMeaning` can be met. -/
theorem witness_EveryBallHasOneMeaning :
    ∃ (b : Ball), b ∉ namedBalls :=
  ⟨(1, 9), by decide +kernel⟩

/-- The state an outcome answers. -/
def nextOf (o : Out) : State :=
  match o with
  | .next t => t
  | _ => State.reset

/-- A METROLOGY session with one legal word staged. -/
def wMetro : State :=
  wHost 2 (wMer [] fun m => { m with staged := [(regAddr 0x30 0x700 0x010, 5)], stagedCnt := 1 })

/-- METRO_COMMIT's frame. -/
def wCommit : Frame := wFor (.writeParam (regAddr 0x30 0x300 0x008) [1])

/-- TEL_FIX's frame. -/
def wFix : Frame := wFor (.telFix 0 true)

/-- The hypotheses of `OnlyMetrologyChangesLegalParameters` can be met. -/
theorem witness_OnlyMetrologyChangesLegalParameters :
    (∃ (f : Frame) (s t : State), exec (.metroCommit f) s = .next t ∧ t.mer.regs ≠ s.mer.regs)
    ∧ (∃ (f : Frame) (addr : Nat) (words : List Word) (s t : State), exec (.writeParam f addr words) s = .next t
      ∧ t.mer.regs ≠ s.mer.regs) :=
  ⟨⟨wCommit, wMetro, nextOf (exec (.metroCommit wCommit) wMetro), rfl, by decide +kernel⟩,
    ⟨wCommit, regAddr 0x30 0x300 0x008, [1], wMetro,
      nextOf (exec (.writeParam wCommit (regAddr 0x30 0x300 0x008) [1]) wMetro), rfl, by decide +kernel⟩⟩

/-- The hypotheses of `DeniedRoleHasNoEffect` can be met: METROLOGY sends TEL_FIX. -/
theorem witness_DeniedRoleHasNoEffect :
    ∃ (i : Instr) (f : Frame) (c : HostCmd) (x : Session) (s t : State), operationOf i = some (f, c)
      ∧ (∀ a ws, c ≠ .writeParam a ws) ∧ frameSession s f c.code c.body = some x ∧ x.role ∉ c.roles ∧ exec i s = .next t :=
  ⟨.telFix wFix 0 true, wFix, .telFix 0 true, wSess 2, wMetro, nextOf (exec (.telFix wFix 0 true) wMetro), rfl,
    (fun _ _ h => HostCmd.noConfusion h), frame_of (by decide +kernel) rfl, by decide +kernel, rfl⟩

/-- A VENDOR session that may stage a Helm image. -/
def wVendor : State := wHost 3 wRun

/-- A first chunk for Helm. -/
def wChunk : Chunk := ⟨256, 0, [1]⟩

/-- Its frame. -/
def wStageFrame : Frame := wFor (.fwStage 1 wChunk)

/-- A SERVICE session after Landfall. -/
def wService : State := wHost 1 { wRun with lk := { wRun.lk with confA := none, confB := none } }

/-- The hypotheses of `ProtectedStateHasOneDoor` can be met. -/
theorem witness_ProtectedStateHasOneDoor :
    (∃ (c : Instr) (s t : State), exec c s = .next t)
    ∧ (∃ (c : Instr) (s t : State), exec c s = .next t ∧ t.flash ≠ s.flash)
    ∧ (∃ (c : Instr) (s t : State), exec c s = .next t ∧ (t.lk.confA, t.lk.confB) ≠ (s.lk.confA, s.lk.confB))
    ∧ (∃ (c : Instr) (s t : State), exec c s = .next t ∧ t.mer.regs ≠ s.mer.regs) :=
  ⟨⟨.porstRise, State.reset, nextOf (exec .porstRise State.reset), rfl⟩,
    ⟨.fwStage wStageFrame 1 wChunk, wVendor, nextOf (exec (.fwStage wStageFrame 1 wChunk) wVendor), rfl, by decide +kernel⟩,
    ⟨.safetyConfirm (wFor (.safetyConfirm 0 false)) 0, wService,
      nextOf (exec (.safetyConfirm (wFor (.safetyConfirm 0 false)) 0) wService), rfl, by decide +kernel⟩,
    ⟨.metroCommit wCommit, wMetro, nextOf (exec (.metroCommit wCommit) wMetro), rfl, by decide +kernel⟩⟩

/-- The hypotheses of `OneElementAtATime` can be met. -/
theorem witness_OneElementAtATime :
    (∃ (s t : State) (g h : Fin 8), h ≠ g ∧ exec (.prechargeComplete g) s = .next t)
    ∧ (∃ (s t : State) (g h : Fin 8), h ≠ g ∧ exec (.syncLockSet g) s = .next t)
    ∧ (∃ (s t : State) (n m : Fin 64) (bits : List Bool) (at_ : Nat), m ≠ n
      ∧ exec (.sdControlOutput n bits at_) s = .next t)
    ∧ (∃ (s t : State) (i j : Fin 96) (n : Nat), j ≠ i ∧ exec (.lawTrigger i n) s = .next t)
    ∧ (∃ (s t : State) (o p : Fin 2), p ≠ o ∧ exec (.sessionSetup o) s = .next t)
    ∧ (∃ (s t : State) (k j : Fin 12) (on : Bool), j ≠ k ∧ exec (.dcFreezeRequest k on) s = .next t)
    ∧ (∃ (s t : State) (o p : Fin 2), p ≠ o ∧ exec (.closeRequestExpiry o) s = .next t) :=
  ⟨⟨wRun, nextOf (exec (.prechargeComplete 0) wRun), 0, 7, by decide, rfl⟩,
    ⟨wRun, nextOf (exec (.syncLockSet 0) wRun), 0, 7, by decide, rfl⟩,
    ⟨wRun, nextOf (exec (.sdControlOutput 0 [true] 0) wRun), 0, 63, [true], 0, by decide, rfl⟩,
    ⟨wRun, nextOf (exec (.lawTrigger 0 0) wRun), 0, 95, 0, by decide, rfl⟩,
    ⟨wRun, nextOf (exec (.sessionSetup 0) wRun), 0, 1, by decide, rfl⟩,
    ⟨wRun, nextOf (exec (.dcFreezeRequest 4 true) wRun), 4, 11, true, by decide, rfl⟩,
    ⟨wRun, nextOf (exec (.closeRequestExpiry 0) wRun), 0, 1, by decide, rfl⟩⟩

/-- The hypotheses of `StagingStaysInItsSlot` can be met. -/
theorem witness_StagingStaysInItsSlot :
    ∃ (f : Frame) (k : Nat) (x : Chunk) (s t : State) (a : Nat), exec (.fwStage f k x) s = .next t
      ∧ (a < inactiveBase s (fwIndex k) ∨ inactiveBase s (fwIndex k) + slotSize k ≤ a) :=
  ⟨wFrame, 1, wChunk, wVendor, nextOf (exec (.fwStage wFrame 1 wChunk) wVendor), 0, rfl, by decide +kernel⟩

/-! ### Worked examples of the manual, and published check values -/

/-- File 00, after Table 00-5: 2024-01-01T00:00:00.5 as CT64. -/
theorem test_ct64_example : ct64 757382400500000000 = 0x0B492F401DCD6500 := by decide +kernel

/-- File 19, Worked addresses. -/
theorem test_worked_addresses :
    regAddr 0x14 37 0x454 = 0x14025454 ∧ regAddr 0x14 0x025 0x514 = 0x14025514 ∧ regAddr 0x13 0x011 0x008 = 0x13011008
    ∧ regAddr 0x30 0x401 0x770 = 0x30401770 ∧ regAddr 0x90 2345 0x800 = 0x90929800 ∧ regAddr 0x40 0x025 0 = 0x40025000
    ∧ regAddr 0xA0 0 0x05C = 0xA000005C := by decide +kernel

/-- Each of them is a word of the map. -/
theorem test_worked_addresses_valid :
    ([0x14025454, 0x14025514, 0x13011008, 0x30401770, 0x90929800, 0x40025000, 0xA000005C] : List Nat).all
      (fun a => (wordFields .ma4800 a).isSome) = true := by decide +kernel

/-- File 19: 4 words from 0x3040_1FF8 are refused, and a FIR tap needs class D2. -/
theorem test_read_past_instance : (HostCmd.readParam 0x30401FF8 4).layoutOk wRun = false
    ∧ (HostCmd.readParam 0x30401770 1).minClass = 2 := by decide +kernel

/-- File 03, the STG1 example: the rose of 6 cells, and of 5 once cell 3 is retired. -/
theorem test_rose_targets : (List.range 6).map (roseTarget · 6) = [0, 10923, 21845, 32768, 43691, 54613]
    ∧ (List.range 5).map (roseTarget · 5) = [0, 13107, 26214, 39322, 52429] := by decide +kernel

/-- The same: cells 2 and 4 arrive after two periods, not after one. -/
theorem test_rose_two_periods :
    roseStep 2 (roseStep 2 21845 26214) 26214 = 26214 ∧ roseStep 2 21845 26214 = 25941
    ∧ roseStep 4 (roseStep 4 43691 39322) 39322 = 39322 ∧ roseStep 4 43691 39322 = 39595 := by decide +kernel

/-- File 15, after R373: three posts of four cells. -/
theorem test_interleave : (List.range 3).map (fun k => interleave k 3 4) = [0, 5461, 10923] := by decide +kernel

/-- File 04, the largest design load: M = 48, L = 22, C = 8. -/
theorem test_law_cascade :
    let s := wCfg [(0x14, 0, 0x000, 0x8), (0x14, 0, 0x008, 0x418), (0x14, 0, 0x00C, 0x418)]
    macCount s 0 = 48 ∧ piCount s 0 = 0 ∧ lawLatency s 0 = 22 ∧ lawOccupancy s 0 = 8 := by decide +kernel

/-- Table 04-4, the cell current law: M = 14, L = 24, C = 8. -/
theorem test_law_cell : let s := wCfg [(0x14, 0, 0x008, 0x250)]
    macCount s 0 = 14 ∧ piCount s 0 = 1 ∧ lawLatency s 0 = 24 ∧ lawOccupancy s 0 = 8 := by decide +kernel

/-- File 04, the largest design load: the demand at its one deadline point is 391. -/
theorem test_load_test : loadAt (List.replicate 48 (600, 8, 586)) 7 586 = true
    ∧ loadAt (List.replicate 48 (600, 8, 390)) 7 390 = false ∧ loadAt (List.replicate 48 (600, 8, 391)) 7 391 = true := by
  decide +kernel

/-- File 06, the breakpoints of outlet A: 76.40 °C and 80.00 °C. -/
theorem test_derate :
    let s := wCfg [(0x22, 0, 0x010, 0x13880BB8), (0x22, 0, 0x014, 0x1F4007D0), (0x22, 0, 0x018, 0x21340640),
      (0x22, 0, 0x01C, 0x226004B0), (0x22, 0, 0x020, 0x23280320), (0x22, 0, 0x024, 0x23F00190), (0x22, 0, 0x028, 0x24B80000),
      (0x22, 0, 0x02C, 0x251C0000)]
    iDerateOf s 0 5006950 = 2120 ∧ iDerateOf s 0 (80 * 65536) = 2000 ∧ iDerateOf s 0 (96 * 65536) = 0
      ∧ iDerateOf s 0 0 = 3000 := by decide +kernel

/-- File 09, the line-loss example: a sample at 2,695,057.875 W adds 46,789.2 µWh. -/
theorem test_sample_energy : energyOf (2695057875 * 2 ^ 62 * 10 ^ 15) * 10 / 2 ^ 32 = 467891
    ∧ energyOf (2695057875 * 2 ^ 62 * 10 ^ 15) = 4678919921875 * 2 ^ 32 / 10 ^ 8 := by decide +kernel

/-- File 09, the pulse example: about 0.668 ms at 2,695.058 kW, 10 ms at 180 kW. -/
theorem test_pulse_width : pulseWidth 1000 10 (74862719 * 2 ^ 32) = 668 ∧ pulseWidth 1000 10 (5000000 * 2 ^ 32) = 10000 := by
  decide +kernel

/-- File 12, the Sounding example: 66.67 V is 1 MΩ and 24.0 V is 85.7 kΩ, of 125 kΩ and 625 kΩ. -/
theorem test_sounding :
    let s := wCfg [(0x40, 0x30, 0x00C, 0x00C80000), (0x40, 0, 0x028, 80), (0x20, 0, 0x004, 0x30D40000)]
    rIsoOf s 0 24000 = some 857 ∧ rIsoOf s 0 80000 = none ∧ reaches s 0 100 (some 857) = false
      ∧ reaches s 0 100 (some 1250) = true ∧ reaches s 0 500 (some 6249) = false := by decide +kernel

/-- File 15, the allocation example: W1 3,900 kW, W2 2,714 kW, W3 1,385 kW of 8,000 kW. -/
theorem test_allocation :
    let st := fun (n d g : Nat) => some (⟨n, 0, 0, d, 4800, g, 0, 0⟩ : StatusMsg)
    let w : Vector SiteWorker 32 := (((Vector.replicate 32 {}).set 0 { status := st 1 3900 1000 }).set 1
      { status := st 2 3750 500 }).set 2 { status := st 3 1800 500 }
    let s := { wCfg [(0x60, 1, 0, 0x80000001), (0x60, 2, 0, 0x80000002), (0x60, 3, 0, 0x80000003), (0x60, 1, 4, 4800),
        (0x60, 2, 4, 4800), (0x60, 3, 4, 4800), (0x60, 0, 8, 0)] with
      mgr := { role := .active, pSite := 8000, worker := w, cls := ((Vector.replicate 32 0).set 1 1).set 2 1 } }
    (targets s)[(0 : Fin 32)] = 3900 ∧ (targets s)[(1 : Fin 32)] = 2714 ∧ (targets s)[(2 : Fin 32)] = 1385 := by
  decide +kernel

/-- File 14, the 34-node example: a POLL of LEN 8 under a normal map takes 120 slots, 120 ms; under BMAP_SAFE 560 ms. -/
theorem test_poll_length : frameEnd wRun 0 700 0 8 = some 120000 ∧ frameEnd wRun bmapSafe 700 0 8 = some 560000 := by
  decide +kernel

/-- The published check values of the two CRCs for "123456789" (the manual prints none, log 6). -/
theorem test_crc_check_values :
    crc32 [0x31, 0x32, 0x33, 0x34, 0x35, 0x36, 0x37, 0x38, 0x39] = 0xCBF43926
    ∧ crc32c [0x31, 0x32, 0x33, 0x34, 0x35, 0x36, 0x37, 0x38, 0x39] = 0xE3069283 := by decide +kernel

/-- The published digest of "abc" (log 6). -/
theorem test_sm3_abc : beNat (sm3 [0x61, 0x62, 0x63])
    = 0x66C7F0F462EEEDD9D1F2D46BDC10E4E24167C4875CF2F7A2297DA02B8F4BA8E0 := by decide +kernel

/-- File 20, after Table 20-11: six balls by the formulas. -/
theorem test_balls : (ArraySignal.fltN 17).ball = (17, 34) ∧ (ArraySignal.pwmL 29).ball = (21, 33) ∧ (ArraySignal.sdDat 45).ball = (18, 22)
    ∧ (ArraySignal.src 123).ball = (33, 27) ∧ (ArraySignal.mchN 7).ball = (2, 8) ∧ (ArraySignal.sib 13).ball = (4, 31) := by decide +kernel

/-- Tables 20-11 and 20-12 name 838 balls of the array, none of them twice. -/
theorem test_balls_distinct : (ballMask namedBalls).isSome = true ∧ namedBalls.length = 838 ∧ arraySignals.length = 528 := by
  decide +kernel

/-- File 02, after Table 02-11: 16 MiB leave 248 blocks of the ring, 1 GiB 328 spares. -/
theorem test_logbook_blocks : usableBlocks {} = 248 ∧ spareBlocks 16384 = 328
    ∧ (usableBlocks { device := 16384 }) * 65536 = 1052114944 := by decide +kernel

/-- File 19: 883,200 bytes a day project 5,038 years. -/
theorem test_projected_life : (projectLife 6 { week := [(0, 883200 * 4 / 5 * 7)] }).lifeY = 5038 := by decide +kernel

/-! ### Single commands -/

/-- R32: PORST_N low at reset; its rise is all that PORST_RISE shows. -/
theorem test_porst_rise : State.reset.landfall.porst = false
    ∧ (nextOf (exec .porstRise State.reset)).landfall.porst = true := by decide +kernel

/-- R118: START of a stage whose cells are too few is refused, with the condition's number. -/
theorem test_start_refused : (nextOf (exec (.stageStart 0) wRun)).sx.stage[(0 : Fin 8)].startRefused = 3 := by
  decide +kernel

/-- R118, R120: START of a stage that may start enters PRECHARGE. -/
theorem test_start : (nextOf (exec (.stageStart 0) (wCfg [(0x12, 0, 0, 1)]))).sx.stage[(0 : Fin 8)].st = .precharge := by
  decide +kernel

/-- R21: a gate permit line that falls latches a stage that is not OFF with cause PERMIT, and leaves OFF stages OFF. -/
theorem test_permit_fall :
    let t := nextOf (exec (.gatePermitFall false) (wStage [] fun x => { x with st := .run }))
    t.sx.stage[(0 : Fin 8)].st = .latched ∧ t.sx.stage[(0 : Fin 8)].latchCause = 3 ∧ t.sx.stage[(1 : Fin 8)].st = .off := by
  decide +kernel

/-- R389: a frame whose MAC fails is dropped and counted, and nothing is sent. -/
theorem test_bad_mac : let t := nextOf (exec (.healthGet { wFor .healthGet with mac := List.replicate 8 0 }) (wHost 1 wRun))
    t.host.macFail = 1 ∧ t.host.out = [] := by decide +kernel

/-- R391: HELLO outside a session is answered once. -/
theorem test_hello : ((nextOf (exec (.hello (wBare 0 (helloBody 0))) wRun)).host.out.map fun f =>
    (f.cmd, f.reply, f.sid)) = [(1, true, 0)] := by decide +kernel

/-- R395, R410: a role that may not use a command gets ROLE_DENIED, and no operation is begun. -/
theorem test_role_denied : let t := nextOf (exec (.telFix wFix 0 true) wMetro)
    t.host.out.map (·.status) = [Status.roleDenied.code] ∧ t.host.ops = [] := by decide +kernel

/-- R217: METRO_COMMIT puts the staged set into use. -/
theorem test_metro_commit : (nextOf (exec (.metroCommit wCommit) wMetro)).mer.regs = wMetro.mer.staged := by decide +kernel

/-- The queue: a step takes the front command; on an empty queue a millisecond passes (log 2). -/
theorem test_step_queue : (nextOf (step { wRun with pending := [.porstRise, .porstFall] })).pending = [.porstFall]
    ∧ (nextOf (step wRun)).mono = 1 := by decide +kernel

/-- The table gives its rows no bits: no word spells a command. -/
theorem test_no_words : decodeTableWord 32 0 = none ∧ State.reset.withFetchWord 32 0 = State.reset := ⟨rfl, rfl⟩

end Sys2Proof.Tests
end

section
/-!
SUPPORT. The frame of every command, and which commands may change each protected part (O48).
-/
namespace Sys2Proof.Machine

/-- Every command keeps its frame: what the frames of Laws/Frame*.lean say together. -/
theorem kept_writes : ∀ c : Instr, Kept (writes c) c
  | .porstRise => frame_porstRise
  | .coreSupplyDip _ _ => frame_coreSupplyDip _ _
  | .coreSupplyReturn _ _ => frame_coreSupplyReturn _ _
  | .lookoutRailDip _ _ => frame_lookoutRailDip _ _
  | .helmRestartEarly => frame_helmRestartEarly
  | .lookoutChannelsRunning _ _ => frame_lookoutChannelsRunning _ _
  | .meridianMeteringStart _ => frame_meridianMeteringStart _
  | .helmFirmwareStarted _ _ => frame_helmFirmwareStarted _ _
  | .chartSourceChosen _ _ => frame_chartSourceChosen _ _
  | .sextantImageLoaded _ => frame_sextantImageLoaded _
  | .chartSectionsDistributed => frame_chartSectionsDistributed
  | .hostReady => frame_hostReady
  | .selfTestsComplete _ _ _ _ => frame_selfTestsComplete _ _ _ _
  | .landfallComplete => frame_landfallComplete
  | .helmBootRetry _ _ => frame_helmBootRetry _ _
  | .gatePermitFall _ => frame_gatePermitFall _
  | .fltNAssert _ _ => frame_fltNAssert _ _
  | .readbackMismatch _ _ => frame_readbackMismatch _ _
  | .carrierLoad _ _ => frame_carrierLoad _ _
  | .roseTargetsSet _ => frame_roseTargetsSet _
  | .roseMoveStep _ => frame_roseMoveStep _
  | .syncInEdge _ _ => frame_syncInEdge _ _
  | .syncLockSet _ => frame_syncLockSet _
  | .syncLost _ => frame_syncLost _
  | .ppsInEdge _ => frame_ppsInEdge _
  | .sdControlOutput _ _ _ => frame_sdControlOutput _ _ _
  | .fastTrip _ _ _ => frame_fastTrip _ _ _
  | .sdStuck _ => frame_sdStuck _
  | .sdInvalidClear _ => frame_sdInvalidClear _
  | .uscEvent _ _ _ _ => frame_uscEvent _ _ _ _
  | .lawTrigger _ _ => frame_lawTrigger _ _
  | .lawRunStart _ => frame_lawRunStart _
  | .lawOutputWrite _ _ => frame_lawOutputWrite _ _
  | .overrunLatch _ => frame_overrunLatch _
  | .laneHeartbeat => frame_laneHeartbeat
  | .heartbeatLoss => frame_heartbeatLoss
  | .laneSetpointUpdate _ _ _ => frame_laneSetpointUpdate _ _ _
  | .postSplitRecompute => frame_postSplitRecompute
  | .stageStart _ => frame_stageStart _
  | .stageStop _ => frame_stageStop _
  | .vehicleVoltageDisagree _ => frame_vehicleVoltageDisagree _
  | .vehicleVoltageForward _ _ => frame_vehicleVoltageForward _ _
  | .prechargeComplete _ => frame_prechargeComplete _
  | .closeWaitBandLost _ => frame_closeWaitBandLost _
  | .preTimeoutExpiry _ => frame_preTimeoutExpiry _
  | .closeRefused _ => frame_closeRefused _
  | .contactorsConfirmed _ => frame_contactorsConfirmed _
  | .noSinkExit _ => frame_noSinkExit _
  | .reverseCurrentLatch _ => frame_reverseCurrentLatch _
  | .afe3PrechargeComplete _ => frame_afe3PrechargeComplete _
  | .afe3AutoStart _ => frame_afe3AutoStart _
  | .afe3VminReached _ => frame_afe3VminReached _
  | .acMainConfirmed => frame_acMainConfirmed
  | .afe3AutoStop _ => frame_afe3AutoStop _
  | .rampDownComplete _ => frame_rampDownComplete _
  | .dischargeRequest _ => frame_dischargeRequest _
  | .dischargeComplete _ => frame_dischargeComplete _
  | .dischTExpiry _ => frame_dischTExpiry _
  | .shedStart _ => frame_shedStart _
  | .addStart _ => frame_addStart _
  | .shedRampEnd _ => frame_shedRampEnd _
  | .addRampEnd _ => frame_addRampEnd _
  | .fireEnd _ _ => frame_fireEnd _ _
  | .fireRearm _ => frame_fireRearm _
  | .shedHoldEnd _ => frame_shedHoldEnd _
  | .cbcLatch _ => frame_cbcLatch _
  | .oclLatch _ => frame_oclLatch _
  | .cellOpenRetire _ => frame_cellOpenRetire _
  | .estTExpiry _ => frame_estTExpiry _
  | .telemetryTick => frame_telemetryTick
  | .pilotCondChange _ _ _ _ _ => frame_pilotCondChange _ _ _ _ _
  | .t1sLinkUp _ => frame_t1sLinkUp _
  | .slacMessage _ _ => frame_slacMessage _ _
  | .sdpRequest _ => frame_sdpRequest _
  | .tlsHandshake _ _ => frame_tlsHandshake _ _
  | .supportedAppProtocol _ _ _ => frame_supportedAppProtocol _ _ _
  | .sessionSetup _ => frame_sessionSetup _
  | .serviceDiscovery _ _ => frame_serviceDiscovery _ _
  | .authorizationRequest _ _ _ _ => frame_authorizationRequest _ _ _ _
  | .chargeParameterDiscovery _ _ => frame_chargeParameterDiscovery _ _
  | .scheduleExchange _ _ => frame_scheduleExchange _ _
  | .dcCableCheck _ => frame_dcCableCheck _
  | .dcPreCharge _ _ => frame_dcPreCharge _ _
  | .powerDelivery _ _ => frame_powerDelivery _ _
  | .dcChargeLoop _ _ _ _ _ => frame_dcChargeLoop _ _ _ _ _
  | .dcWeldingDetection _ => frame_dcWeldingDetection _
  | .vehicleSessionStop _ _ _ => frame_vehicleSessionStop _ _ _
  | .certificateInstallation _ _ => frame_certificateInstallation _ _
  | .unsupportedRequest _ => frame_unsupportedRequest _
  | .vehicleLinkLost _ => frame_vehicleLinkLost _
  | .tInventoryExpiry _ => frame_tInventoryExpiry _
  | .tLinkExpiry _ => frame_tLinkExpiry _
  | .tSeqExpiry _ => frame_tSeqExpiry _
  | .tOngoingExpiry _ => frame_tOngoingExpiry _
  | .tAuthExpiry _ => frame_tAuthExpiry _
  | .tIsoExpiry _ => frame_tIsoExpiry _
  | .tLoopExpiry _ => frame_tLoopExpiry _
  | .tStandbyExpiry _ => frame_tStandbyExpiry _
  | .tLockExpiry _ => frame_tLockExpiry _
  | .tDischExpiry _ => frame_tDischExpiry _
  | .isoDwellEnd _ => frame_isoDwellEnd _
  | .lockConfirmed _ => frame_lockConfirmed _
  | .contactorsOpenConfirmed _ => frame_contactorsOpenConfirmed _
  | .vehicleSideDischarged _ => frame_vehicleSideDischarged _
  | .unlockConfirmed _ => frame_unlockConfirmed _
  | .faultedContactorOpen _ => frame_faultedContactorOpen _
  | .coolingInputUpdate _ _ _ _ => frame_coolingInputUpdate _ _ _ _
  | .tagStale500ms _ => frame_tagStale500ms _
  | .tagStale2s _ => frame_tagStale2s _
  | .driveFault _ _ _ => frame_driveFault _ _ _
  | .flowLow _ => frame_flowLow _
  | .readerCycleStart => frame_readerCycleStart
  | .portWindowStart _ => frame_portWindowStart _
  | .fieldSettled => frame_fieldSettled
  | .slotReplyReceived _ => frame_slotReplyReceived _
  | .slotEmpty => frame_slotEmpty
  | .selectReplyReceived _ => frame_selectReplyReceived _
  | .sensorMeasureReply _ _ _ => frame_sensorMeasureReply _ _ _
  | .tagExchangeNoReply _ _ => frame_tagExchangeNoReply _ _
  | .tagWriteReply _ _ => frame_tagWriteReply _ _
  | .writeUnconfirmed _ => frame_writeUnconfirmed _
  | .writeReadback _ _ => frame_writeReadback _ _
  | .antFaultRuntime _ _ => frame_antFaultRuntime _ _
  | .reqaPoll => frame_reqaPoll
  | .cardSelected _ _ _ => frame_cardSelected _ _ _
  | .cardLeft _ => frame_cardLeft _
  | .meterSample _ _ => frame_meterSample _ _
  | .pulseStart _ _ => frame_pulseStart _ _
  | .pulseEnd _ => frame_pulseEnd _
  | .pNowRefresh => frame_pNowRefresh
  | .firCrcCheck _ => frame_firCrcCheck _
  | .firRmsWindow => frame_firRmsWindow
  | .firRestored _ => frame_firRestored _
  | .dcFreezeRequest _ _ => frame_dcFreezeRequest _ _
  | .dcFreezeRelease _ _ => frame_dcFreezeRelease _ _
  | .streamFault _ => frame_streamFault _
  | .pilotWindow _ => frame_pilotWindow _
  | .spareSettled _ => frame_spareSettled _
  | .rotationStepStart _ => frame_rotationStepStart _
  | .rotationSwap _ => frame_rotationSwap _
  | .rotationCalibrationDone _ _ _ _ => frame_rotationCalibrationDone _ _ _ _
  | .rotationSwapBack _ => frame_rotationSwapBack _
  | .spareCalibrationDone _ _ _ _ => frame_spareCalibrationDone _ _ _ _
  | .referenceComparison _ => frame_referenceComparison _
  | .rtdSample _ _ => frame_rtdSample _ _
  | .metroCommit _ => frame_metroCommit _
  | .registerCommit => frame_registerCommit
  | .halfCycleRms _ => frame_halfCycleRms _
  | .zeroCrossingTimeout _ => frame_zeroCrossingTimeout _
  | .meridianSupplyFail _ _ => frame_meridianSupplyFail _ _
  | .meridianRestart _ _ _ => frame_meridianRestart _ _ _
  | .mailboxRequest _ => frame_mailboxRequest _
  | .ptpOffset _ => frame_ptpOffset _
  | .ptpDeadReckoning => frame_ptpDeadReckoning
  | .timeUncertainSet => frame_timeUncertainSet
  | .leapSecond _ => frame_leapSecond _
  | .slewDayEnd => frame_slewDayEnd
  | .demandIntervalEnd => frame_demandIntervalEnd
  | .calendarActivate => frame_calendarActivate
  | .tariffSwitch => frame_tariffSwitch
  | .billingScheduledClose => frame_billingScheduledClose
  | .legalWindowItem => frame_legalWindowItem
  | .legalPairSend => frame_legalPairSend
  | .prepayDebit => frame_prepayDebit
  | .friendlyHoursEnd _ => frame_friendlyHoursEnd _
  | .weatherHoldEnd => frame_weatherHoldEnd
  | .emergReqWrite _ _ => frame_emergReqWrite _ _
  | .evenFrameBoundary => frame_evenFrameBoundary
  | .legalPairReceived _ => frame_legalPairReceived _
  | .frameEndCrc _ => frame_frameEndCrc _
  | .laneTimeout => frame_laneTimeout
  | .panelTempMeasure _ => frame_panelTempMeasure _
  | .crackMeasure _ => frame_crackMeasure _
  | .pumpFault _ => frame_pumpFault _
  | .pumpRetry => frame_pumpRetry
  | .displayFaultClear => frame_displayFaultClear
  | .panelPowerOn => frame_panelPowerOn
  | .panelPowerStep _ _ => frame_panelPowerStep _ _
  | .panelPowerOff => frame_panelPowerOff
  | .safetyInputChange _ _ _ _ => frame_safetyInputChange _ _ _ _
  | .discrepancyFault _ => frame_discrepancyFault _
  | .testPulse _ _ _ => frame_testPulse _ _ _
  | .crossCompareExchange _ _ => frame_crossCompareExchange _ _
  | .lookoutChannelRestart _ => frame_lookoutChannelRestart _
  | .channelsAgreed => frame_channelsAgreed
  | .offTest _ _ _ => frame_offTest _ _ _
  | .outputReadbackFault _ _ => frame_outputReadbackFault _ _
  | .feedbackTimeout _ _ _ => frame_feedbackTimeout _ _ _
  | .lateWeld _ _ _ => frame_lateWeld _ _ _
  | .contactorCloseRequest _ => frame_contactorCloseRequest _
  | .contactorOpenRequest _ => frame_contactorOpenRequest _
  | .closeRequestExpiry _ => frame_closeRequestExpiry _
  | .lockRequest _ => frame_lockRequest _
  | .unlockRequest _ => frame_unlockRequest _
  | .lockFbLost _ => frame_lockFbLost _
  | .outputKindRequest _ _ => frame_outputKindRequest _ _
  | .resetPress => frame_resetPress
  | .holsterTestSeen _ => frame_holsterTestSeen _
  | .landfallCompleteMessage => frame_landfallCompleteMessage
  | .landfallStartMessage => frame_landfallStartMessage
  | .sextantResetSeen => frame_sextantResetSeen
  | .soundingHalfPeriod => frame_soundingHalfPeriod
  | .soundingVerdict _ => frame_soundingVerdict _
  | .poleVoltageSample _ _ _ => frame_poleVoltageSample _ _ _
  | .soundingSelftestStart _ => frame_soundingSelftestStart _
  | .soundingSelftestEnd _ => frame_soundingSelftestEnd _
  | .soundingSelftestRetry _ => frame_soundingSelftestRetry _
  | .phyStatusPoll _ _ _ _ => frame_phyStatusPoll _ _ _ _
  | .turxelFrameRx _ _ => frame_turxelFrameRx _ _
  | .safeFrameForward _ => frame_safeFrameForward _
  | .safeTelegramCycle => frame_safeTelegramCycle
  | .safeCopyReceived _ _ => frame_safeCopyReceived _ _
  | .safePairTimeout _ => frame_safePairTimeout _
  | .safeWatchdogExpiry _ => frame_safeWatchdogExpiry _
  | .safeFallbackEngage _ => frame_safeFallbackEngage _
  | .safeFallbackEnd => frame_safeFallbackEnd
  | .singleTExpiry => frame_singleTExpiry
  | .beaconSend => frame_beaconSend
  | .pathLost _ => frame_pathLost _
  | .pathLostClear _ => frame_pathLostClear _
  | .ptpMessage _ _ _ => frame_ptpMessage _ _ _
  | .ptpAnnounceTimeout => frame_ptpAnnounceTimeout
  | .ptpSyncTimeout => frame_ptpSyncTimeout
  | .networkServiceRequest _ _ => frame_networkServiceRequest _ _
  | .llZcEdge _ => frame_llZcEdge _
  | .llZcMissed => frame_llZcMissed
  | .llFrameReceived _ => frame_llFrameReceived _
  | .llRelayForward => frame_llRelayForward
  | .llReplySend => frame_llReplySend
  | .llPollRound => frame_llPollRound
  | .llReplyWaitEnd => frame_llReplyWaitEnd
  | .llMapStepDown _ _ => frame_llMapStepDown _ _
  | .llRouteRebuild => frame_llRouteRebuild
  | .llLinkUnusable _ _ => frame_llLinkUnusable _ _
  | .llPathLost => frame_llPathLost
  | .llPathClear => frame_llPathClear
  | .workerStatusSend => frame_workerStatusSend
  | .workerStatusRx => frame_workerStatusRx
  | .allocCycle => frame_allocCycle
  | .allocMessageRx => frame_allocMessageRx
  | .shadowDiffClear => frame_shadowDiffClear
  | .paramMessage _ => frame_paramMessage _
  | .deadReckoningTick => frame_deadReckoningTick
  | .interleaveRecompute => frame_interleaveRecompute
  | .managerBeaconRx => frame_managerBeaconRx
  | .quorumLost => frame_quorumLost
  | .listenEnd => frame_listenEnd
  | .alternateListenEnd => frame_alternateListenEnd
  | .standbyTakeover => frame_standbyTakeover
  | .tokenRelease => frame_tokenRelease
  | .releaseRx => frame_releaseRx
  | .healthReport => frame_healthReport
  | .tokenRequestSet => frame_tokenRequestSet
  | .revertRelease => frame_revertRelease
  | .revertTimeout => frame_revertTimeout
  | .hello _ => frame_hello _
  | .helloClose _ => frame_helloClose _
  | .authChallenge _ _ _ => frame_authChallenge _ _ _
  | .authProve _ _ => frame_authProve _ _
  | .resultGet _ _ => frame_resultGet _ _
  | .resultAck _ _ => frame_resultAck _ _
  | .opStatus _ _ => frame_opStatus _ _
  | .barrier _ => frame_barrier _
  | .healthGet _ => frame_healthGet _
  | .journalRead _ _ _ => frame_journalRead _ _ _
  | .logRead _ _ _ => frame_logRead _ _ _
  | .readParam _ _ _ => frame_readParam _ _ _
  | .writeParam _ _ _ => frame_writeParam _ _ _
  | .telFix _ _ _ => frame_telFix _ _ _
  | .sessionAuthorise _ _ _ _ => frame_sessionAuthorise _ _ _ _
  | .sessionAuthoriseCert _ _ _ _ => frame_sessionAuthoriseCert _ _ _ _
  | .sessionStop _ _ => frame_sessionStop _ _
  | .authTableLoad _ _ => frame_authTableLoad _ _
  | .accountAddCredit _ _ _ => frame_accountAddCredit _ _ _
  | .accountSetEmerg _ _ _ => frame_accountSetEmerg _ _ _
  | .accountSetEmergMode _ _ _ => frame_accountSetEmergMode _ _ _
  | .accountRequestEmerg _ _ _ => frame_accountRequestEmerg _ _ _
  | .siteLimitSet _ _ _ => frame_siteLimitSet _ _ _
  | .weatherHold _ _ => frame_weatherHold _ _
  | .scrollSet _ _ => frame_scrollSet _ _
  | .displayRect _ _ _ _ _ _ => frame_displayRect _ _ _ _ _ _
  | .tariffLoad _ _ => frame_tariffLoad _ _
  | .clockSet _ _ => frame_clockSet _ _
  | .billingClose _ => frame_billingClose _
  | .safetyConfirm _ _ => frame_safetyConfirm _ _
  | .safetyConfirmRevoke _ _ => frame_safetyConfirmRevoke _ _
  | .latchClearStage _ _ => frame_latchClearStage _ _
  | .latchClearCell _ _ => frame_latchClearCell _ _
  | .latchClearOutlet _ _ => frame_latchClearOutlet _ _
  | .latchClearSafety _ _ => frame_latchClearSafety _ _
  | .latchClearDisplay _ _ => frame_latchClearDisplay _ _
  | .latchClearTamperHold _ _ => frame_latchClearTamperHold _ _
  | .keyImport _ _ _ _ _ _ _ => frame_keyImport _ _ _ _ _ _ _
  | .keyDerive _ _ _ _ _ _ => frame_keyDerive _ _ _ _ _ _
  | .keyInvalidate _ _ => frame_keyInvalidate _ _
  | .slotOperationBoundary _ => frame_slotOperationBoundary _
  | .keyUseEncrypt _ _ _ _ _ _ => frame_keyUseEncrypt _ _ _ _ _ _
  | .keyUseDecrypt _ _ _ _ _ _ _ => frame_keyUseDecrypt _ _ _ _ _ _ _
  | .keyUseSign _ _ _ _ => frame_keyUseSign _ _ _ _
  | .keyUseVerify _ _ _ _ _ _ => frame_keyUseVerify _ _ _ _ _ _
  | .keyUseMac _ _ _ _ => frame_keyUseMac _ _ _ _
  | .keyUsePublic _ _ _ => frame_keyUsePublic _ _ _
  | .attest _ _ _ => frame_attest _ _ _
  | .fwStage _ _ _ => frame_fwStage _ _ _
  | .fwVerify _ _ _ _ => frame_fwVerify _ _ _ _
  | .fwActivate _ _ => frame_fwActivate _ _
  | .firstStartSuccess _ => frame_firstStartSuccess _
  | .firstStartFailure _ => frame_firstStartFailure _
  | .opStart _ => frame_opStart _
  | .opComplete _ => frame_opComplete _
  | .resultHoldExpiry _ => frame_resultHoldExpiry _
  | .sessionIdleTimeout _ => frame_sessionIdleTimeout _
  | .challengeLapse _ => frame_challengeLapse _
  | .chunkTimeout _ _ => frame_chunkTimeout _ _
  | .hspiReadTransaction => frame_hspiReadTransaction
  | .recoveryEnd => frame_recoveryEnd
  | .recoveredHoldExpiry _ => frame_recoveredHoldExpiry _
  | .keyScrub _ => frame_keyScrub _
  | .tamperEvent _ => frame_tamperEvent _
  | .helmCorePairMismatch => frame_helmCorePairMismatch
  | .sextantCoreMismatch => frame_sextantCoreMismatch
  | .sextantSupervisorRestart => frame_sextantSupervisorRestart
  | .meridianCoreFault => frame_meridianCoreFault
  | .islandClockLoss _ _ => frame_islandClockLoss _ _
  | .islandRestart _ _ => frame_islandRestart _ _
  | .doubleBitError _ _ => frame_doubleBitError _ _
  | .scrubPass _ _ _ => frame_scrubPass _ _ _
  | .logRecordWrite _ => frame_logRecordWrite _
  | .logbookScanEnd _ => frame_logbookScanEnd _
  | .rungDown => frame_rungDown
  | .quietConditionCeases => frame_quietConditionCeases
  | .wakeEvent _ => frame_wakeEvent _
  | .wkAlarm => frame_wkAlarm
  | .vbatSwitchover _ _ => frame_vbatSwitchover _ _
  | .mainRailsReturn _ _ => frame_mainRailsReturn _ _
  | .engImpLoRead _ _ => frame_engImpLoRead _ _
  | .tar1ImpLoRead _ _ => frame_tar1ImpLoRead _ _
  | .chrTimeLoRead _ => frame_chrTimeLoRead _
  | .recordSelectWrite _ _ _ => frame_recordSelectWrite _ _ _
  | .porstFall => frame_porstFall
  | .analogSupplyDip _ _ => frame_analogSupplyDip _ _
  | .analogSupplyReturn _ _ => frame_analogSupplyReturn _ _
  | .feedbackDiscrepancy _ _ _ => frame_feedbackDiscrepancy _ _ _
  | .peerLost => frame_peerLost
  | .tagReadReply _ _ => frame_tagReadReply _ _
  | .unknownCommand _ _ => frame_unknownCommand _ _
  | .driveFaultClear _ _ _ => frame_driveFaultClear _ _ _
  | .tamperSourceCeases _ => frame_tamperSourceCeases _
  | .vbatLoss => frame_vbatLoss

/-- A part that a command's frame does not list holds what it held. -/
theorem same_of_not_written {p : Part} {c : Instr} {s t : State} (e : exec c s = .next t) (hp : p ∉ writes c) :
    p.same s t :=
  (kept_writes c s t e).same p hp

/-- No command may change the variant (R3). -/
theorem variant_not_written (c : Instr) : Part.variant ∉ writes c := fun h => by
  have h := List.elem_eq_true_of_mem h
  cases c <;> exact Bool.noConfusion h

/-- The commands that may change the chart flash. -/
theorem flash_written {c : Instr} (h : Part.flash ∈ writes c) :
    (∃ f k x, c = .fwStage f k x) ∨ ∃ id, c = .opStart id := by
  have h := List.elem_eq_true_of_mem h
  cases c with
  | fwStage f k x => exact .inl ⟨f, k, x, rfl⟩
  | opStart id => exact .inr ⟨id, rfl⟩
  | _ => exact Bool.noConfusion h

/-- The commands that may change the stored safety confirmations. -/
theorem lkConf_written {c : Instr} (h : Part.lkConf ∈ writes c) :
    (∃ f v, c = .safetyConfirm f v) ∨ (∃ f v, c = .safetyConfirmRevoke f v) ∨ ∃ id, c = .opStart id := by
  have h := List.elem_eq_true_of_mem h
  cases c with
  | safetyConfirm f v => exact .inl ⟨f, v, rfl⟩
  | safetyConfirmRevoke f v => exact .inr (.inl ⟨f, v, rfl⟩)
  | opStart id => exact .inr (.inr ⟨id, rfl⟩)
  | _ => exact Bool.noConfusion h

/-- The commands that may change the legal parameters, in use or staged. -/
theorem merRegs_written {c : Instr} (h : Part.merRegs ∈ writes c) :
    (∃ f a w, c = .writeParam f a w) ∨ (∃ f r n, c = .recordSelectWrite f r n) ∨ (∃ f, c = .metroCommit f)
      ∨ (∃ f a, c = .emergReqWrite f a) ∨ ∃ id, c = .opStart id := by
  have h := List.elem_eq_true_of_mem h
  cases c with
  | writeParam f a w => exact .inl ⟨f, a, w, rfl⟩
  | recordSelectWrite f r n => exact .inr (.inl ⟨f, r, n, rfl⟩)
  | metroCommit f => exact .inr (.inr (.inl ⟨f, rfl⟩))
  | emergReqWrite f a => exact .inr (.inr (.inr (.inl ⟨f, a, rfl⟩)))
  | opStart id => exact .inr (.inr (.inr (.inr ⟨id, rfl⟩)))
  | _ => exact Bool.noConfusion h

/-- Legal parameters that no longer read the same are a change of their part. -/
theorem regs_eq_of_same {s t : State} (h : Part.merRegs.same s t) : t.mer.regs = s.mer.regs := congrArg Prod.fst h

/-- Settles O48: a part that a command changes stands in its frame (`kept_writes`), and the frames that list each
protected part are those of the commands named. -/
theorem protectedStateHasOneDoor : Obligations.ProtectedStateHasOneDoor := by
  unfold Obligations.ProtectedStateHasOneDoor
  refine ⟨fun c s t e => ?_, fun c s t e hne => ?_, fun c s t e hne => ?_, fun c s t e hne => ?_⟩
  · exact same_of_not_written e (variant_not_written c)
  · exact flash_written (by_contra fun hp => hne (same_of_not_written e hp))
  · exact lkConf_written (by_contra fun hp => hne (same_of_not_written e hp))
  · exact merRegs_written (by_contra fun hp => hne (regs_eq_of_same (same_of_not_written e hp)))

end Sys2Proof.Machine
end

section
/-!
SUPPORT. What a host request can do (R385 to R395), and who may commit the legal parameters (R217, R458; O46).
-/
namespace Sys2Proof.Machine

section

variable {s t : State} {f : Frame} {code : Nat} {body : Bytes} {w : Nat} {addr : Nat} {words : List Word} {role : Fin 4}

/-! ### What a request can do -/

/-- A frame that is not a new one of an open session changes only the sessions and the host's counters and queues. -/
theorem receive_keeps_of_not_received (h : ¬∃ x, Received s f code body x) (act : State → Session → State) :
    Keeps [.hostSessions, .hostRest] s (receive s f code body act) := by
  have inert : receive s f code body act = receive s f code body fun t _ => t := by
    by_cases ho : transportOpen s f.via
    · cases hx : frameSession s f code body with
      | none => simp [receive, ho, hx]
      | some x =>
        have hn : seqNew x f.seq = false := by
          by_contra hn
          exact h ⟨x, ho, hx, by simpa using hn⟩
        simp only [receive, ho, hx, hn]
        rfl
    · simp [receive, ho]
  rw [inert]
  exact keep_receive s f code body _ (fun t _ => Keeps.refl _ t) (by decide)

/-- A request either changes the host interface alone, or it is a new frame of an open session that passes R395's checks
and is accepted. -/
theorem request_keeps_or_accepts (s : State) (f : Frame) (c : HostCmd) :
    Keeps [.hostSessions, .hostOps, .hostJournal, .hostRest] s (request s f c)
      ∨ ∃ x y, Received s f c.code c.body x ∧ y.role = x.role ∧ y.sid = x.sid
        ∧ admission (noteFrame s f) y.role y.sid f c = .ok ∧ lacking (noteFrame s f) y.sid (clsOf f) c = none
        ∧ request s f c = acceptOp (noteFrame s f) y f c := by
  by_cases h : ∃ x, Received s f c.code c.body x
  · obtain ⟨x, hx⟩ := h
    obtain ⟨y, hy, hsid, hrole, -⟩ := hx.noted
    have noted : Keeps [.hostSessions, .hostOps, .hostJournal, .hostRest] s (noteFrame s f) :=
      (keep_noteFrame s f).mono (by decide)
    unfold request
    rw [receive_received hx, hy, Option.getD_some]
    split
    · rename_i hadm
      cases hl : lacking (noteFrame s f) y.sid (clsOf f) c with
      | some l =>
        exact .inl ((noted.trans ((keep_updClass ..).mono (by decide))).trans ((keep_reply ..).mono (by decide)))
      | none => exact .inr ⟨x, y, hx, hrole, hsid, hadm, hl, rfl⟩
    · exact .inl (noted.trans ((keep_reply ..).mono (by decide)))
  · exact .inl ((receive_keeps_of_not_received h _).mono (by decide))

/-- An accepted operation has the effect of `runOp`, at once or not at all; the rest is the host interface's. -/
theorem acceptOp_keeps_or_runs (s : State) (x : Session) (f : Frame) (c : HostCmd) :
    Keeps [.hostSessions, .hostOps, .hostJournal, .hostRest] s (acceptOp s x f c)
      ∨ ∃ u, Keeps [.hostSessions, .hostOps, .hostJournal, .hostRest] s u
        ∧ Keeps [.hostSessions, .hostOps, .hostJournal, .hostRest] (runOp u (opOf s x f c)) (acceptOp s x f c) := by
  have recorded := keep_recordOp s x f c
  unfold acceptOp
  by_cases h : mayStart (recordOp s x f c) (opOf s x f c)
  · refine .inr ⟨setRunning (recordOp s x f c) (opOf s x f c),
      recorded.trans ((keep_setRunning ..).mono (by decide)), ?_⟩
    simp only [h, if_true, startOp]
    exact (keep_noteOutcome ..).mono (by decide)
  · simp only [h]
    exact .inl recorded

/-! ### Who may commit -/

/-- The legal parameters in use, across a change of other parts. -/
theorem Keeps.regs {F : List Part} (h : Keeps F s t) (hF : Part.merRegs ∉ F) : t.mer.regs = s.mer.regs :=
  regs_eq_of_same (h.same _ hF)

/-- METRO_COMMIT's word holds no field that a role other than METROLOGY may write (R217, Table 19-2). -/
theorem fieldMask_metroCommit (v : Variant) (done : Bool) (hr : role ≠ 2) :
    (wordFields v (regAddr 0x30 0x300 0x008)).all
      (fun fs => fieldMask (mayWrite done role (regAddr 0x30 0x300 0x008)) fs == 0) = true := by
  revert role done
  cases v <;> decide +kernel

/-- A role other than METROLOGY is refused METRO_COMMIT's word. -/
theorem wordVerdict_metroCommit (s : State) (w : Nat) (hr : role ≠ 2) :
    wordVerdict s role (regAddr 0x30 0x300 0x008) w = .badParam
      ∨ wordVerdict s role (regAddr 0x30 0x300 0x008) w = .roleDenied := by
  have hmask := fieldMask_metroCommit s.variant (landfallDone s) hr
  unfold wordVerdict
  cases hf : wordFields s.variant (regAddr 0x30 0x300 0x008) with
  | none => exact .inl rfl
  | some fs =>
    rw [hf] at hmask
    have hmask : fieldMask (mayWrite (landfallDone s) role (regAddr 0x30 0x300 0x008)) fs = 0 := by
      simpa using hmask
    simp only [hmask]
    split_ifs <;> simp

/-- A WRITE_PARAM that passes its verdict has no word that is refused (R411). -/
theorem wordVerdict_of_writeVerdict (h : writeVerdict s role addr words = .ok) {p : Nat × Nat}
    (hp : p ∈ addressed addr words) :
    wordVerdict s role p.1 p.2 ≠ .badParam ∧ wordVerdict s role p.1 p.2 ≠ .roleDenied := by
  have hmem : wordVerdict s role p.1 p.2 ∈ (addressed addr words).map fun p => wordVerdict s role p.1 p.2 :=
    List.mem_map_of_mem hp
  unfold writeVerdict at h
  extract_lets vs at h
  split_ifs at h with _ hbad hdenied
  exact ⟨fun e => hbad (List.contains_iff_mem.mpr (e ▸ hmem)),
    fun e => hdenied (List.contains_iff_mem.mpr (e ▸ hmem))⟩

/-- An admitted WRITE_PARAM has passed its verdict (R395, R411). -/
theorem writeVerdict_of_admission {sid : Nat} (h : admission s role sid f (.writeParam addr words) = .ok) :
    writeVerdict s role addr words = .ok := by
  unfold admission at h
  simp only at h
  split_ifs at h with _ _ _ _ hraw
  simp_all

/-- Only a METROLOGY session is admitted with a write of METRO_COMMIT's word. -/
theorem role_eq_two_of_admission {sid : Nat} (h : admission s role sid f (.writeParam addr words) = .ok)
    (hp : (regAddr 0x30 0x300 0x008, w) ∈ addressed addr words) : role = 2 := by
  by_contra hr
  obtain ⟨hbad, hdenied⟩ := wordVerdict_of_writeVerdict (writeVerdict_of_admission h) hp
  exact (wordVerdict_metroCommit s w hr).elim hbad hdenied

/-! ### What a parameter write does to the legal parameters in use -/

/-- A word other than METRO_COMMIT's goes to the staging copy or to another part, never to the set in use (R217). -/
theorem writeWord_regs (s : State) (sid : Nat) (role : Fin 4) (a w : Nat) :
    (writeWord s sid role a w).mer.regs = s.mer.regs := by
  unfold writeWord
  split
  · rfl
  · extract_lets has m t
    have ht : t.mer.regs = s.mer.regs := (keep_cfgPut ..).regs (by decide)
    split
    · exact (keep_selectRecord ..).regs (by decide)
    · split_ifs
      · rfl
      · exact (keep_writeCommercial ..).regs (by decide)
      · exact (keep_clearW1c ..).regs (by decide)
      · exact (keep_clearCounter ..).regs (by decide)
      · exact ht
      · exact ht
      · rfl

/-- Words among which METRO_COMMIT's does not stand leave the set in use as it is. -/
theorem writeWords_regs (sid : Nat) (role : Fin 4) {ws : List (Nat × Nat)}
    (h : ∀ p ∈ ws, p.1 ≠ regAddr 0x30 0x300 0x008) : (writeWords s sid role ws).2.mer.regs = s.mer.regs := by
  unfold writeWords
  generalize hq : (Status.ok, s) = q
  rw [show s = q.2 from hq ▸ rfl]
  clear hq
  induction ws generalizing q with
  | nil => rfl
  | cons p ws ih =>
    rw [List.foldl_cons, if_neg (h p List.mem_cons_self), ih fun r hr => h r (List.mem_cons_of_mem p hr)]
    exact writeWord_regs ..

/-- A WRITE_PARAM that changes the set in use writes METRO_COMMIT's word. -/
theorem metroCommit_of_runWrite_regs {sid : Nat}
    (h : (runWrite s sid role addr words).2.mer.regs ≠ s.mer.regs) :
    ∃ w, (regAddr 0x30 0x300 0x008, w) ∈ addressed addr words := by
  by_contra hno
  refine h ?_
  have kept := writeWords_regs (s := s) sid role (ws := addressed addr words) fun p hp e => hno ⟨p.2, e ▸ hp⟩
  unfold runWrite
  extract_lets ws
  split_ifs
  · rfl
  · split
    · rename_i heq
      rw [heq] at kept
      exact kept
    · rfl

/-- A parameter write that changes the legal parameters in use comes from a METROLOGY session. -/
theorem role_of_request_writeParam
    (h : (request s f (.writeParam addr words)).mer.regs ≠ s.mer.regs) :
    ∃ x, frameSession s f 0x11 (HostCmd.writeParam addr words).body = some x ∧ x.role = 2 := by
  obtain hk | ⟨x, y, hx, hrole, -, hadm, -, hreq⟩ := request_keeps_or_accepts s f (.writeParam addr words)
  · exact absurd (hk.regs (by decide)) h
  refine ⟨x, hx.session, hrole ▸ ?_⟩
  have noted : (noteFrame s f).mer.regs = s.mer.regs := (keep_noteFrame s f).regs (by decide)
  rw [hreq] at h
  obtain hk | ⟨u, hu, hrun⟩ := acceptOp_keeps_or_runs (noteFrame s f) y f (.writeParam addr words)
  · exact absurd ((hk.regs (by decide)).trans noted) h
  have hwrite : (runWrite u y.sid y.role addr words).2.mer.regs ≠ u.mer.regs := fun e => h <|
    calc (acceptOp (noteFrame s f) y f (.writeParam addr words)).mer.regs
        = (runOp u (opOf (noteFrame s f) y f (.writeParam addr words))).mer.regs := hrun.regs (by decide)
      _ = (runWrite u y.sid y.role addr words).2.mer.regs := (keep_resolveOp ..).regs (by decide)
      _ = u.mer.regs := e
      _ = (noteFrame s f).mer.regs := hu.regs (by decide)
      _ = s.mer.regs := noted
  obtain ⟨w, hw⟩ := metroCommit_of_runWrite_regs hwrite
  exact role_eq_two_of_admission hadm hw

end

/-- Settles O46: METRO_COMMIT is the WRITE_PARAM of one word, and a WRITE_PARAM that changes the set in use has been
admitted with METRO_COMMIT's word, which METROLOGY alone may write. -/
theorem onlyMetrologyChangesLegalParameters : Obligations.OnlyMetrologyChangesLegalParameters := by
  unfold Obligations.OnlyMetrologyChangesLegalParameters
  refine ⟨fun f s t e h => ?_, fun f addr words s t e h => ?_⟩
  · cases e
    exact role_of_request_writeParam h
  · cases e
    exact role_of_request_writeParam h

end Sys2Proof.Machine
end

section
/-!
SUPPORT. Register commit, Meridian's supply, supply events and the Chronometer, an equation or an effect for each case of
a command (R230 to R247; O19).
-/
namespace Sys2Proof.Machine

/-! ### Commit and supply -/

theorem execRegisterCommit_up {s : State} (h : s.mer.up = true) : execRegisterCommit s = .next (commitRegs s) := by
  simp [execRegisterCommit, h]

@[simp] theorem logDetect_lastCode (s : State) (code : Nat) (src : LogSrc) (arg : Nat) :
    (logDetect s code src arg).flt.lastCode = code := rfl

@[simp] theorem logDetect_mer (s : State) (code : Nat) (src : LogSrc) (arg : Nat) :
    (logDetect s code src arg).mer = s.mer := rfl

@[simp] theorem logDetect_pwr (s : State) (code : Nat) (src : LogSrc) (arg : Nat) :
    (logDetect s code src arg).pwr = s.pwr := rfl

@[simp] theorem excursion_lastCode (s : State) : (excursion s).flt.lastCode = s.flt.lastCode := rfl

@[simp] theorem excursion_mer (s : State) : (excursion s).mer = s.mer := rfl

@[simp] theorem excursion_pwr (s : State) : (excursion s).pwr = s.pwr := rfl

@[simp] theorem stopMetering_up (s : State) : (stopMetering s).mer.up = false := rfl

@[simp] theorem stopMetering_pwr (s : State) : (stopMetering s).pwr = s.pwr := rfl

@[simp] theorem noteRail_mer (s : State) (r : Fin 9) (uV : Nat) : (noteRail s r uV).mer = s.mer := rfl

@[simp] theorem noteRail_rail_same (s : State) (r : Fin 9) (uV : Nat) :
    (noteRail s r uV).pwr.rail[r] = some uV := by
  simp [noteRail]

theorem noteRail_rail_other (s : State) {r q : Fin 9} (uV : Nat) (h : r ≠ q) :
    (noteRail s r uV).pwr.rail[q] = s.pwr.rail[q] := by
  have h : r.val ≠ q.val := fun e => h (Fin.ext e)
  simp [noteRail, h]

/-- A metering Meridian whose supply fails stops, its fault and both rails' readings kept (R238, R474). -/
theorem execMeridianSupplyFail_up {s : State} {mana mcore : Nat} (hs : s.mer.supplyFail = false)
    (hu : s.mer.up = true) (hv : mana < 1620000 ∨ mcore < 855000) :
    ∃ t, execMeridianSupplyFail mana mcore s = .next t ∧ t.mer.supplyFail = true ∧ t.mer.up = false
      ∧ t.flt.lastCode = 0x0302 ∧ t.pwr.rail[(4 : Fin 9)] = some mana ∧ t.pwr.rail[(3 : Fin 9)] = some mcore := by
  have low : ¬(1620000 ≤ mana ∧ 855000 ≤ mcore) := by omega
  have h4 : (noteRail (noteRail s 4 mana) 3 mcore).pwr.rail[(4 : Fin 9)] = some mana :=
    (noteRail_rail_other _ _ (by decide)).trans (noteRail_rail_same ..)
  have h3 : (noteRail (noteRail s 4 mana) 3 mcore).pwr.rail[(3 : Fin 9)] = some mcore := noteRail_rail_same ..
  refine ⟨_, rfl, ?_⟩
  simpa [hs, hu, low] using And.intro h4 h3

theorem mayRestart_of_rails {s : State} {mana mcore : Nat} (hu : s.mer.up = false) (hr : s.pwr.rung ≠ .dark)
    (hw : s.mer.supplyFail = true → inWindow 4 mana = true ∧ inWindow 3 mcore = true) :
    mayRestart s mana mcore = true := by
  cases hs : s.mer.supplyFail <;> simp_all [mayRestart]

/-! ### Supply events -/

theorem execHalfCycleRms_closed {s : State} {ph : Fin 3} {w : HalfWindow} (hu : s.mer.up = true)
    (hw : (s.mer.fe.half[ph]).closed = some w) : execHalfCycleRms ph s =
      .next (judgeHalfCycle (updHalf s ph fun h => { h with closed := none }) ph w) := by
  simp only [execHalfCycleRms, hu, hw]

theorem execZeroCrossingTimeout_due {s : State} {ph : Fin 3} {w : HalfWindow} (hu : s.mer.up = true)
    (hw : (s.mer.fe.half[ph]).cur = some w) (hl : 3 * halfSamples s ≤ 2 * w.len) : execZeroCrossingTimeout ph s =
      .next (judgeHalfCycle (updHalf s ph fun h => { h with cur := none, nom := {}, closed := none }) ph
        (s.mer.fe.half[ph]).nom) := by
  simp only [execZeroCrossingTimeout, hu, hw, if_neg (Nat.not_lt.mpr hl)]

/-- No event of the phase is open. -/
def NoOpenEvent (s : State) (ph : Fin 3) : Prop :=
  (s.mer.leg.events.find? fun e => e.isOpen && e.phase == ph.val + 1) = none

/-- The timing of a half-cycle bears on no judgement: the events, the settings and the channels' validity stay. -/
theorem updHalf_judgement (s : State) (ph : Fin 3) (f : HalfCycle → HalfCycle) :
    (updHalf s ph f).mer.leg = s.mer.leg ∧ (∀ k, chInvalid (updHalf s ph f) k = chInvalid s k)
      ∧ ∀ w p, rmsAgainst (updHalf s ph f) w p = rmsAgainst s w p :=
  ⟨rfl, fun _ => rfl, fun _ _ => rfl⟩

theorem judgeStart_within {s : State} {ph : Fin 3} {w : HalfWindow} (hd : 0 ≤ rmsAgainst s w 90)
    (hs : rmsAgainst s w 110 ≤ 0) : judgeStart s ph w = s := by
  rw [judgeStart, if_neg (Int.not_lt.mpr hd), if_neg (Int.not_lt.mpr hs)]

theorem judgeStart_dip {s : State} {ph : Fin 3} {w : HalfWindow} (hd : rmsAgainst s w 90 < 0)
    (hi : 0 ≤ rmsAgainst s w 5) : judgeStart s ph w = startEvent s ph 1 w := by
  rw [judgeStart, if_pos hd, if_neg (Int.not_lt.mpr hi)]

/-- With no event open, a valid half-cycle is judged for the start of one. -/
theorem judgeHalfCycle_noOpen {s : State} {ph : Fin 3} (w : HalfWindow) (he : NoOpenEvent s ph)
    (hc : chInvalid s (Fin.ofNat 12 (4 + ph.val)) = false) : judgeHalfCycle s ph w = judgeStart s ph w := by
  unfold NoOpenEvent at he
  simp only [judgeHalfCycle, hc, he, Bool.false_eq_true, if_false]

/-- With no event open, a half-cycle within 90 % and 110 % changes nothing, valid or not. -/
theorem judgeHalfCycle_within {s : State} {ph : Fin 3} {w : HalfWindow} (he : NoOpenEvent s ph)
    (hd : 0 ≤ rmsAgainst s w 90) (hs : rmsAgainst s w 110 ≤ 0) : judgeHalfCycle s ph w = s := by
  cases hc : chInvalid s (Fin.ofNat 12 (4 + ph.val)) with
  | true => rw [judgeHalfCycle, if_pos hc]
  | false => rw [judgeHalfCycle_noOpen w he hc, judgeStart_within hd hs]

/-- An event that starts heads the list of events, open, with its kind, its phase and its half-cycle's start. -/
theorem startEvent_head (s : State) (ph : Fin 3) (kind : Nat) (w : HalfWindow) :
    ∃ e, (startEvent s ph kind w).mer.leg.events.head? = some e ∧ e.kind = kind ∧ e.phase = ph.val + 1
      ∧ e.isOpen = true ∧ e.start = w.start :=
  ⟨_, rfl, rfl, rfl, rfl, rfl⟩

/-! ### The Chronometer -/

/-- An offset of at most 1 s is slewed by a valid Chronometer (R246). -/
theorem execPtpOffset_slew {s : State} {ns : Int} (hu : s.mer.up = true) (hr : s.mer.chr.running = true)
    (hl : s.txl.ptp.locked = true) (hsrc : s.mer.chr.src ≠ 3) (hv : s.mer.chr.valid = true)
    (hns : ns.natAbs ≤ 1000000000) : execPtpOffset ns s =
      .next { s with mer := { s.mer with chr := { s.mer.chr with slew := ns, src := 1, uncNs := 1000000 } } } := by
  simp [execPtpOffset, hu, hr, hl, hsrc, hv, hns]

/-- Slewed or stepped, an offset of Helm's locked clock makes PTP the source (R243, R245). -/
theorem execPtpOffset_source {s : State} (ns : Int) (hu : s.mer.up = true) (hr : s.mer.chr.running = true)
    (hl : s.txl.ptp.locked = true) :
    ∃ t, execPtpOffset ns s = .next t ∧ t.mer.chr.src = 1 ∧ t.mer.chr.uncNs = 1000000 := by
  have taken : (s.mer.up && s.mer.chr.running && s.txl.ptp.locked) = true := by simp [hu, hr, hl]
  rw [execPtpOffset, if_pos taken]
  refine ⟨_, rfl, ?_⟩
  extract_lets corrected fromPtp
  by_cases h : corrected.mer.chr.valid = true ∧ ns.natAbs ≤ 1000000000
  · rw [if_pos h]
    exact ⟨rfl, rfl⟩
  · rw [if_neg h]
    exact ⟨rfl, rfl⟩

theorem execPtpDeadReckoning_src {s : State} (h : s.mer.chr.src = 1) :
    ∃ t, execPtpDeadReckoning s = .next t ∧ t.mer.chr.src = 3 := by
  rw [execPtpDeadReckoning, if_pos h]
  exact ⟨_, rfl, rfl⟩

theorem execTimeUncertainSet_sessions {s : State} (h : timeUncertain s = true) :
    ∃ t, execTimeUncertainSet s = .next t
      ∧ ∀ r ∈ t.mer.leg.sessions, r.isOpen = true → r.flags.timeUncertain = true := by
  rw [execTimeUncertainSet, if_pos h]
  refine ⟨_, rfl, fun r hr ho => ?_⟩
  obtain ⟨q, -, rfl⟩ := List.mem_map.mp hr
  cases hq : q.isOpen <;> simp_all

theorem execLeapSecond_up {s : State} (b : Bool) (hr : s.mer.chr.running = true) (hv : s.mer.chr.valid = true)
    (hu : s.mer.up = true) : execLeapSecond b s =
      .next (stepClock s (if b then s.nowNs - 1000000000 else s.nowNs + 1000000000)) := by
  simp [execLeapSecond, hr, hv, hu]

theorem execLeapSecond_stopped {s : State} (b : Bool) (hr : s.mer.chr.running = true) (hv : s.mer.chr.valid = true)
    (hu : s.mer.up = false) : execLeapSecond b s =
      .next { s with mer := { s.mer with chr := { s.mer.chr with
        ns := if b then s.nowNs - 1000000000 else s.nowNs + 1000000000 } } } := by
  simp [execLeapSecond, hr, hv, hu]

theorem execSlewDayEnd_daySlew {s : State} (h : s.mer.up = true) :
    ∃ t, execSlewDayEnd s = .next t ∧ t.mer.chr.daySlew = 0 := by
  rw [execSlewDayEnd, if_pos h]
  exact ⟨_, rfl, rfl⟩

/-- Settles O19: clause by clause, from what each command does in the case that the clause names. -/
theorem chronometerCompletes : Obligations.ChronometerCompletes := by
  unfold Obligations.ChronometerCompletes
  refine ⟨fun s hu => execRegisterCommit_up hu,
    fun s mana mcore hs hu hv => execMeridianSupplyFail_up hs hu hv,
    fun s img mana mcore hu hr hw => ?_,
    fun s ph w hu hw => execHalfCycleRms_closed hu hw,
    fun s ph w hu hw hl => execZeroCrossingTimeout_due hu hw hl,
    fun s ph w hu hw he hd hs => ?_,
    fun s ph w hu hw hc he hd hi => ?_,
    fun s ns hu hr hl hsrc hv hns => execPtpOffset_slew hu hr hl hsrc hv hns,
    fun s ns hu hr hl _ => execPtpOffset_source ns hu hr hl,
    fun s h => execPtpDeadReckoning_src h,
    fun s h => execTimeUncertainSet_sessions h,
    fun s b hr hv hu => execLeapSecond_up b hr hv hu,
    fun s b hr hv hu => execLeapSecond_stopped b hr hv hu,
    fun s hu => execSlewDayEnd_daySlew hu⟩
  · rw [exec_meridianRestart, execMeridianRestart, if_pos (mayRestart_of_rails hu hr hw)]
  · obtain ⟨hleg, -, hrms⟩ := updHalf_judgement s ph fun h => { h with closed := none }
    rw [exec_halfCycleRms, execHalfCycleRms_closed hu hw, judgeHalfCycle_within]
    · rwa [NoOpenEvent, hleg]
    · rwa [hrms]
    · rwa [hrms]
  · obtain ⟨hleg, hch, hrms⟩ := updHalf_judgement s ph fun h => { h with closed := none }
    obtain ⟨e, hhead, hkind, hphase, hopen, hstart⟩ :=
      startEvent_head (updHalf s ph fun h => { h with closed := none }) ph 1 w
    refine ⟨_, e, ?_, hhead, hkind, hphase, hopen, hstart⟩
    rw [exec_halfCycleRms, execHalfCycleRms_closed hu hw, judgeHalfCycle_noOpen, judgeStart_dip]
    · rwa [hrms]
    · rwa [hrms]
    · rwa [NoOpenEvent, hleg]
    · rwa [hch]

end Sys2Proof.Machine
end

section
/-!
SUPPORT. The frame of all commands (O39), and what a rectangle leaves of the frame memory (R22, R281; O51).
-/
namespace Sys2Proof.Machine

/-- Settles O39: the frames of all commands (`kept_writes`), and the parts taken together (`eq_of_same`). -/
theorem everyCommandKeepsItsFrame : Obligations.EveryCommandKeepsItsFrame := by
  unfold Obligations.EveryCommandKeepsItsFrame
  exact ⟨fun c s t e => (kept_writes c s t e).same, fun s t h => eq_of_same h⟩

/-- A byte at none of the addresses written reads as before. -/
theorem sparseGet_foldl_put_other {α β : Type} [DecidableEq α] {d e : α} {a : Nat} {l : List β} {addr : β → Nat}
    {v : β → α} (h : ∀ b ∈ l, a ≠ addr b) (m : List (Nat × α)) :
    sparseGet e (l.foldl (fun m b => sparsePut d m (addr b) (v b)) m) a = sparseGet e m a := by
  induction l generalizing m with
  | nil => rfl
  | cons b l ih =>
    rw [List.foldl_cons, ih fun x hx => h x (List.mem_cons_of_mem b hx)]
    exact sparseGet_put_other _ (h b List.mem_cons_self)

/-- A byte of the part of a rectangle that may be written lies in a row outside the legal window: a row is 40 bytes, so a
rectangle within the width never runs over into the next row. -/
theorem row_outside_legal_of_mem_rectBytes {d : Display} {r : Rect} (hw : r.x0 + r.w ≤ 160) {p : Nat × Nat}
    (hp : p ∈ rectBytes d r false) : inLegal d (p.1 / 40) = false := by
  obtain ⟨j, -, hj⟩ := List.mem_flatMap.mp hp
  cases hrow : inLegal d (r.y0 + j) with
  | true => simp [hrow] at hj
  | false =>
    simp only [Bool.not_false, hrow, Bool.and_false, Bool.false_eq_true, if_false, List.mem_map, List.mem_range] at hj
    obtain ⟨k, hk, rfl⟩ := hj
    have hdiv : ((r.y0 + j) * 40 + r.x0 / 4 + k) / 40 = r.y0 + j := by omega
    rw [hdiv, hrow]

/-- Settles O51: the bytes that a rectangle writes lie in rows outside the legal window. -/
theorem rectanglesSpareTheLegalWindow : Obligations.RectanglesSpareTheLegalWindow := by
  unfold Obligations.RectanglesSpareTheLegalWindow
  intro d q a hw hlegal
  refine sparseGet_foldl_put_other (fun p hp hpa => ?_) d.frame
  have hout := row_outside_legal_of_mem_rectBytes hw hp
  rw [← hpa, hlegal] at hout
  exact Bool.noConfusion hout

end Sys2Proof.Machine
end

section
/-!
SUPPORT. Cooling: the inputs and drives, and a faulted outlet, which stays FAULTED through every reaction (R28, R161,
R162, R170 to R172; O13).
-/
namespace Sys2Proof.Machine

/-! ### A faulted outlet -/

/-- Outlet `o` is FAULTED in `t` if it is in `s`. -/
def StaysFaulted (o : Fin 2) (s t : State) : Prop := s.outlet[o].st = .faulted → t.outlet[o].st = .faulted

section

variable {o : Fin 2} {s t u : State}

theorem StaysFaulted.refl (o : Fin 2) (s : State) : StaysFaulted o s s := id

theorem StaysFaulted.trans (h : StaysFaulted o s t) (k : StaysFaulted o t u) : StaysFaulted o s u := k ∘ h

/-- An operation whose frame leaves out the outlets keeps them. -/
theorem StaysFaulted.of_keeps {F : List Part} (k : Keeps F s t) (h : Part.outlet ∉ F) : StaysFaulted o s t := by
  have same : t.outlet = s.outlet := k.same .outlet h
  rw [StaysFaulted, same]
  exact id

theorem StaysFaulted.foldl {α : Type} {f : State → α → State} (h : ∀ s a, StaysFaulted o s (f s a)) (l : List α) :
    ∀ s, StaysFaulted o s (l.foldl f s) := by
  induction l with
  | nil => exact StaysFaulted.refl o
  | cons a l ih => exact fun s => (h s a).trans (ih (f s a))

end

/-- An update of an outlet that leaves FAULTED as it is. -/
theorem updOutlet_staysFaulted (o p : Fin 2) (s : State) {f : Outlet → Outlet}
    (h : ∀ x : Outlet, x.st = .faulted → (f x).st = .faulted) : StaysFaulted o s (updOutlet s p f) := fun hs => by
  rw [updOutlet_outlet, upd_get]
  split
  · exact h _ hs
  · exact hs

theorem endLink_staysFaulted (o p : Fin 2) (s : State) : StaysFaulted o s (endLink s p) :=
  (updOutlet_staysFaulted o p s fun _ h => by exact h).trans (updOutlet_staysFaulted o p _ fun _ h => by exact h)

/-- A fault takes an outlet that may fault to FAULTED and no outlet out of it: the stages' reactions are no outlet's. -/
theorem outletFaultBare_faults (s : State) (p : Fin 2) (c : OutFault) :
    (∀ o, StaysFaulted o s (outletFaultBare s p c)) ∧
      (outType s p ≠ 0 → s.outlet[p].st.faultable = true → (outletFaultBare s p c).outlet[p].st = .faulted) := by
  unfold outletFaultBare
  extract_lets x logged marked caused ended ramped asked
  have hmarked (o : Fin 2) : StaysFaulted o s marked :=
    (StaysFaulted.of_keeps (keep_logDetect s _ _ _) (by decide)).trans
      (updOutlet_staysFaulted o p _ fun _ h => by exact h)
  have hended (o : Fin 2) : StaysFaulted o s ended :=
    (((hmarked o).trans (updOutlet_staysFaulted o p _ fun _ h => by exact h)).trans
      ((endLink_staysFaulted o p caused).trans (updOutlet_staysFaulted o p _ fun _ _ => rfl))).trans
      (.of_keeps (keep_abandonInventory _ p) (by decide))
  have hentered : ended.outlet[p].st = .faulted := by
    have same : ended.outlet = (enter (endLink caused p) p .faulted).outlet :=
      (keep_abandonInventory _ p).same .outlet (by decide)
    rw [same, enter, updOutlet_outlet, upd_same]
  have hramped (o : Fin 2) : StaysFaulted o ended ramped := by
    unfold ramped
    split
    · exact (StaysFaulted.of_keeps (keep_updStage ..) (by decide)).trans (.of_keeps (keep_reshare ..) (by decide))
    · exact .refl o ended
  have hstopped (o : Fin 2) : StaysFaulted o ended (stopStageOf asked p) :=
    ((hramped o).trans (.of_keeps (keep_updLko ramped p _) (by decide))).trans
      (.of_keeps (keep_stopStageOf asked p) (by decide))
  by_cases ht : outType s p = 0
  · rw [if_pos ht]
    exact ⟨fun o => .refl o s, fun h => absurd ht h⟩
  · rw [if_neg ht]
    by_cases hf : s.outlet[p].st.faultable = true
    · rw [if_pos hf]
      exact ⟨fun o => (hended o).trans (hstopped o), fun _ _ => hstopped p hentered⟩
    · rw [if_neg hf]
      exact ⟨hmarked, fun _ h => absurd h hf⟩

theorem notify_staysFaulted (o : Fin 2) (n : Nat) : ∀ s t : State, StaysFaulted o t (notify n s t) := by
  induction n with
  | zero => exact fun _ t => .refl o t
  | succ n ih =>
    intro s t
    unfold notify
    extract_lets told
    have htold : StaysFaulted o t told := by
      refine StaysFaulted.foldl (fun u p => ?_) _ t
      split
      · exact (outletFaultBare_faults u p _).1 o
      · exact .refl o u
    split
    · exact htold
    · exact htold.trans (ih t told)

theorem postSplit_staysFaulted (o : Fin 2) (s : State) : StaysFaulted o s (postSplit s) := by
  unfold postSplit
  extract_lets post share shared aged split
  have hshared : StaysFaulted o s shared :=
    (updOutlet_staysFaulted o 0 s fun _ h => by exact h).trans (updOutlet_staysFaulted o 1 _ fun _ h => by exact h)
  have hsplit : split.outlet = shared.outlet := by
    unfold split
    split <;> rfl
  have hsplit : StaysFaulted o s split := by
    rw [StaysFaulted, hsplit]
    exact hshared
  refine hsplit.trans (.foldl (fun u p => ?_) _ split)
  split
  · exact .of_keeps (keep_followLimit ..) (by decide)
  · exact .refl o u

theorem resplit_staysFaulted (o : Fin 2) (s t : State) : StaysFaulted o t (resplit s t) := by
  unfold resplit
  extract_lets due u
  have hu : StaysFaulted o t u := by
    unfold u
    split
    · exact .refl o t
    · exact .refl o t
  split
  · exact hu
  · exact hu.trans (postSplit_staysFaulted o u)

/-- What follows an action on the stages leaves a faulted outlet FAULTED. -/
theorem withStages_staysFaulted (o : Fin 2) (s : State) (f : State → State) :
    StaysFaulted o (f s) (withStages s f) :=
  ((StaysFaulted.of_keeps (Keeps.withDeps (Keeps.refl [.sxChannel, .sxCell, .sxStage, .sxAux, .lkOut, .lkRest] (f s))
    fun _ h => h) (by decide)).trans (notify_staysFaulted o 8 s _)).trans (resplit_staysFaulted o s _)

/-- A fault of Table 06-7, with all that follows it, leaves the outlet FAULTED (R162). -/
theorem outletFault_faulted {s : State} {o : Fin 2} (c : OutFault) (ht : outType s o ≠ 0)
    (hf : s.outlet[o].st.faultable = true) : (outletFault s o c).outlet[o].st = .faulted :=
  withStages_staysFaulted o s (outletFaultBare · o c) ((outletFaultBare_faults s o c).2 ht hf)

/-! ### Cooling inputs and UNCOOLED -/

@[simp] theorem trackBanks_cooling (s : State) : (trackBanks s).cooling = s.cooling :=
  (keep_trackBanks s).same .cooling (by decide)

@[simp] theorem followOutlet_cooling (s : State) (o : Fin 2) : (followOutlet s o).cooling = s.cooling :=
  (keep_followOutlet s o).same .cooling (by decide)

@[simp] theorem resplit_cooling (s t : State) : (resplit s t).cooling = t.cooling :=
  (keep_resplit s t).same .cooling (by decide)

theorem updCooling_same (s : State) (o : Fin 2) (f : Cooling → Cooling) :
    (updCooling s o f).cooling[o] = f s.cooling[o] := upd_same ..

theorem setUncooled_same (s : State) (o : Fin 2) :
    (setUncooled s o).cooling[o] = { s.cooling[o] with uncooled := true } := by
  rw [setUncooled, resplit_cooling, followOutlet_cooling, updCooling_same]

@[simp] theorem setUncooled_drive (s : State) (o : Fin 2) : (setUncooled s o).drive = s.drive :=
  (keep_setUncooled s o).same .drive (by decide)

@[simp] theorem setUncooled_flt (s : State) (o : Fin 2) : (setUncooled s o).flt = s.flt :=
  (keep_setUncooled s o).same .flt (by decide)

@[simp] theorem logDetect_cooling (s : State) (code : Nat) (src : LogSrc) (arg : Nat) :
    (logDetect s code src arg).cooling = s.cooling := rfl

@[simp] theorem logDetect_drive (s : State) (code : Nat) (src : LogSrc) (arg : Nat) :
    (logDetect s code src arg).drive = s.drive := rfl

@[simp] theorem logClear_drive (s : State) (code : Nat) (src : LogSrc) (arg : Nat) :
    (logClear s code src arg).drive = s.drive := rfl

/-- A value of the hottest pin, j = 0: it is kept, I_DERATE follows it, and its age decides STALE and UNCOOLED (R172). -/
theorem coolInput_hottest (s : State) (o : Fin 2) (value : Int) (time : Nat) :
    (coolInput s o 0 value time).cooling[o] = { s.cooling[o] with
      input := upd s.cooling[o].input 0 fun _ => ⟨value, time, true⟩, iDerate := iDerateOf s o value
      stale := !decide (s.nowNs ≤ time + 500000000), stale2 := decide (time + 2000000000 < s.nowNs)
      uncooled := !decide (s.nowNs ≤ time + 500000000) || s.cooling[o].flowLow || s.drive[pumpOf o].fault } := by
  unfold coolInput
  extract_lets kept fresh cleared
  have hcleared : cleared.cooling = kept.cooling := by
    unfold cleared
    split
    · exact (keep_clearFaults kept _ _).same .cooling (by decide)
    · rfl
  have hkept : kept.cooling[o]
      = { s.cooling[o] with input := upd s.cooling[o].input 0 fun _ => ⟨value, time, true⟩ } := by
    unfold kept
    rw [trackBanks_cooling, updCooling_same]
  rw [if_pos rfl, resplit_cooling, followOutlet_cooling, updCooling_same, hcleared, hkept]

/-- A value of any other input but the flow is kept, and the banks that follow it are tracked (R113). -/
theorem coolInput_other {s : State} {o : Fin 2} {j : Fin 8} (value : Int) (time : Nat) (h0 : j ≠ 0) (h6 : j ≠ 6) :
    coolInput s o j value time =
      trackBanks (updCooling s o fun c => { c with input := upd c.input j fun _ => ⟨value, time, true⟩ }) := by
  rw [coolInput, if_neg h0, if_neg h6]

/-- A value of the flow is kept (Table 06-9). -/
theorem coolInput_flow (s : State) (o : Fin 2) (value : Int) (time : Nat) :
    (coolInput s o 6 value time).cooling[o].input[6] = ⟨value, time, true⟩ := by
  have hkept : (trackBanks (updCooling s o fun c =>
      { c with input := upd c.input 6 fun _ => ⟨value, time, true⟩ })).cooling[o].input
        = upd s.cooling[o].input 6 fun _ => ⟨value, time, true⟩ := by rw [trackBanks_cooling, updCooling_same]
  rw [coolInput, if_neg (by decide), if_pos rfl, updCooling_same]
  simp only [hkept]
  exact upd_same ..

theorem execCoolingInputUpdate_hottest (s : State) (o : Fin 2) (value : Int) (time : Nat) :
    ∃ t, execCoolingInputUpdate o 0 value time s = .next t
      ∧ t.cooling[o].iDerate = iDerateOf s o value ∧ t.cooling[o].input[0] = ⟨value, time, true⟩
      ∧ t.cooling[o].stale = !decide (s.nowNs ≤ time + 500000000)
      ∧ t.cooling[o].uncooled
        = (!decide (s.nowNs ≤ time + 500000000) || s.cooling[o].flowLow || s.drive[pumpOf o].fault) := by
  refine ⟨_, rfl, ?_⟩
  rw [show inputValue s o 0 value = value from rfl, coolInput_hottest]
  exact ⟨rfl, upd_same .., rfl, rfl⟩

theorem execTagStale500ms_stale {s : State} {o : Fin 2} (h : olderThan s o 500000000 = true) :
    ∃ t, execTagStale500ms o s = .next t ∧ t.cooling[o].stale = true ∧ t.cooling[o].uncooled = true
      ∧ t.flt.lastCode = 0x0A02 := by
  rw [execTagStale500ms, if_pos h]
  refine ⟨_, rfl, ?_⟩
  rw [logDetect_cooling, setUncooled_same, updCooling_same]
  exact ⟨rfl, rfl, rfl⟩

/-- In each state before ENERGY_TRANSFER in which old tag data count, they are a fault TAGS (Table 06-7, log 81). -/
theorem staleTags_faulted {s : State} {o : Fin 2} (ht : outType s o ≠ 0)
    (h : s.outlet[o].st = .identified ∨ s.outlet[o].st = .authorised ∨ s.outlet[o].st = .isolationTest
      ∨ s.outlet[o].st = .precharge ∨ s.outlet[o].st = .plugged ∧ s.cooling[o].input[0].valid = true
      ∨ s.outlet[o].st = .cableCheck ∧ (s.cooling[o].input[0].valid || s.outlet[o].cablePass) = true) :
    (staleTags s o).outlet[o].st = .faulted := by
  have hfault : s.outlet[o].st.faultable = true → (outletFault s o .tags).outlet[o].st = .faulted :=
    outletFault_faulted .tags ht
  unfold staleTags
  obtain hst | hst | hst | hst | ⟨hst, hread⟩ | ⟨hst, hread⟩ := h
  all_goals rw [hst] at hfault ⊢
  · exact hfault rfl
  · exact hfault rfl
  · exact hfault rfl
  · exact hfault rfl
  · exact (congrArg (fun t : State => t.outlet[o].st) (if_pos hread)).trans (hfault rfl)
  · exact (congrArg (fun t : State => t.outlet[o].st) (if_pos hread)).trans (hfault rfl)

/-! ### Drives -/

/-- A count of pulses gives the drive its speed; one below TACH_MIN leaves the slow time as it is (R170). -/
theorem takeSpeed_drive {s : State} (d : Fin 6) (pulses : Nat) {ms : Nat} (h : ms ≠ 0) :
    (takeSpeed s d pulses ms).drive[d] = { s.drive[d] with
      rpm := tachRpm pulses ms
      slowMs := if tachMin s (driveOutlet d) ≤ tachRpm pulses ms then 0 else s.drive[d].slowMs } := by
  rw [takeSpeed, if_neg h]
  exact upd_same ..

theorem execDriveFault_slow {s : State} {d : Fin 6} {pulses ms : Nat} (hms : ms ≠ 0)
    (hslow : tachRpm pulses ms < tachMin s (driveOutlet d)) (hlong : 2000 ≤ s.drive[d].slowMs)
    (hnew : s.drive[d].fault = false) :
    ∃ t, execDriveFault d pulses ms s = .next t ∧ t.drive[d].fault = true ∧ t.drive[d].rpm = tachRpm pulses ms
      ∧ t.flt.lastCode = 0x0A03 ∧ (d = pumpOf (driveOutlet d) → t.cooling[driveOutlet d].uncooled = true) := by
  have hspeed := takeSpeed_drive (s := s) d pulses hms
  have hdue : (takeSpeed s d pulses ms).drive[d].rpm < tachMin s (driveOutlet d)
      ∧ 2000 ≤ (takeSpeed s d pulses ms).drive[d].slowMs ∧ (takeSpeed s d pulses ms).drive[d].fault = false := by
    rw [hspeed]
    exact ⟨hslow, by simpa [Nat.not_le.mpr hslow] using hlong, hnew⟩
  rw [execDriveFault]
  refine ⟨_, rfl, ?_⟩
  extract_lets o measured faulted
  have hfaulted : faulted.drive[d].fault = true ∧ faulted.drive[d].rpm = tachRpm pulses ms := by
    have hd : faulted.drive[d] = { measured.drive[d] with fault := true } := upd_same ..
    rw [hd, hspeed]
    exact ⟨rfl, rfl⟩
  rw [if_pos hdue]
  split
  · simp only [setUncooled_drive, setUncooled_flt]
    exact ⟨hfaulted.1, hfaulted.2, rfl, fun _ => congrArg Cooling.uncooled (setUncooled_same faulted o)⟩
  · next hpump => exact ⟨hfaulted.1, hfaulted.2, rfl, fun h => absurd h hpump⟩

theorem execDriveFaultClear_fast {s : State} {d : Fin 6} {pulses ms : Nat} (hms : ms ≠ 0)
    (hfast : tachMin s (driveOutlet d) ≤ tachRpm pulses ms) (hfault : s.drive[d].fault = true) :
    ∃ t, execDriveFaultClear d pulses ms s = .next t ∧ t.drive[d].fault = false
      ∧ t.drive[d].rpm = tachRpm pulses ms := by
  have hspeed := takeSpeed_drive (s := s) d pulses hms
  have hdue : ms ≠ 0 ∧ tachMin s (driveOutlet d) ≤ (takeSpeed s d pulses ms).drive[d].rpm
      ∧ s.drive[d].fault = true := ⟨hms, hspeed ▸ hfast, hfault⟩
  refine ⟨_, by rw [execDriveFaultClear, if_pos hdue], ?_⟩
  have hd : (updDrive (takeSpeed s d pulses ms) d fun x => { x with fault := false }).drive[d]
      = { (takeSpeed s d pulses ms).drive[d] with fault := false } := upd_same ..
  rw [logClear_drive, hd, hspeed]
  exact ⟨rfl, rfl⟩

theorem execFlowLow_low {s : State} {o : Fin 2}
    (h : ((s.cooling[o]).input[(6 : Fin 8)]).value * 10 < cfgN s 0x22 o 0x000 7 0 * 65536) :
    ∃ t, execFlowLow o s = .next t ∧ t.cooling[o].flowLow = true ∧ t.cooling[o].uncooled = true := by
  rw [execFlowLow, if_pos h]
  refine ⟨_, rfl, ?_⟩
  rw [setUncooled_same, updCooling_same]
  exact ⟨rfl, rfl⟩

/-- Settles O13: clause by clause, from what each command does in the case that the clause names. -/
theorem coolingCompletes : Obligations.CoolingCompletes := by
  unfold Obligations.CoolingCompletes
  refine ⟨fun s o value time => execCoolingInputUpdate_hottest s o value time,
    fun s o j value time h0 h6 => ?_,
    fun s o value time => ⟨_, rfl, coolInput_flow s o _ time⟩,
    fun s o h => execTagStale500ms_stale h,
    fun s o h hst => ?_,
    fun s o h ht hst => ⟨_, rfl, ?_⟩,
    fun s d pulses ms hms hslow hlong hnew => execDriveFault_slow hms hslow hlong hnew,
    fun s d pulses ms hms hfast hfault => execDriveFaultClear_fast hms hfast hfault,
    fun s o h => execFlowLow_low h⟩
  · rw [exec_coolingInputUpdate, execCoolingInputUpdate, inputValue, if_neg h6, coolInput_other value time h0 h6]
  · rw [exec_tagStale2s, execTagStale2s, if_pos h, staleTags, updCooling_outlet, hst]
  · rw [if_pos h]
    refine staleTags_faulted ht ?_
    rwa [updCooling_outlet, updCooling_same]

end Sys2Proof.Machine
end

section
/-!
SUPPORT. Safe telegrams: what each command does with a channel's copies, its peers and the fallback (R331 to R336; O26).
-/
namespace Sys2Proof.Machine

/-! ### Channels -/

@[simp] theorem updChan_chan (s : State) (ch : Fin 2) (f : SafeChan → SafeChan) :
    (updChan s ch f).safe.chan = upd s.safe.chan ch f := rfl

theorem updChan_same (s : State) (ch : Fin 2) (f : SafeChan → SafeChan) :
    (updChan s ch f).safe.chan[ch] = f s.safe.chan[ch] := upd_same ..

/-- An update of both members of a pair is one of each. -/
theorem upd_both {α : Type} (v : Vector α 2) (f : α → α) : ∀ i : Fin 2, (upd (upd v 0 f) 1 f)[i] = f v[i]
  | 0 => (upd_other _ 1 0 f (by decide)).trans (upd_same ..)
  | 1 => (upd_same ..).trans (congrArg f (upd_other v 0 1 f (by decide)))

@[simp] theorem sendTxl_safe (s : State) (cls : TxlClass) (onA onB : Bool) (dst : Nat) (payload : Bytes) :
    (sendTxl s cls onA onB dst payload).safe = s.safe :=
  (keep_sendTxl s cls onA onB dst payload).same .safe (by decide)

@[simp] theorem copyBad_safe (s : State) (ch p : Fin 2) : (copyBad s ch p).safe = s.safe :=
  (keep_copyBad s ch p).same .safe (by decide)

/-! ### Sending and forwarding -/

theorem execSafeFrameForward_handed {s : State} {p : Fin 2} {c : Fin 2 × SafeCopy}
    (hc : (s.txl.fwd.find? fun c => c.1 == p) = some c) (hnet : netRuns s = true) :
    ∃ t, execSafeFrameForward p s = .next t ∧ t.txl.fwd = s.txl.fwd.erase c
      ∧ ∀ ch : Fin 2, t.safe.chan[ch].inbox = s.safe.chan[ch].inbox ++ [c] := by
  simp only [execSafeFrameForward, hc, hnet, if_true]
  exact ⟨_, rfl, rfl, fun ch => congrArg SafeChan.inbox (upd_both s.safe.chan _ ch)⟩

theorem execSafeTelegramCycle_sent {s : State} (ha : s.lk.runA = true) (hb : s.lk.runB = true)
    (hr : s.lk.restarting = false) (hf : s.fw[(2 : Fin 5)].activating = false) (hl : linksUp s = true)
    (hn : netRuns s = true) :
    ∃ t, execSafeTelegramCycle s = .next t ∧ t.safe.sseq = (s.safe.sseq + 1) % 2 ^ 32
      ∧ t.safe.sentA = telegram s t.safe.sseq ∧ t.safe.sentB = (if safeMode s = 1 then [] else t.safe.sentA) := by
  have due : (s.lk.runA && s.lk.runB && !s.lk.restarting && !s.fw[(2 : Fin 5)].activating && linksUp s && netRuns s)
      = true := by
    rw [ha, hb, hr, hf, hl, hn]
    rfl
  refine ⟨_, congrArg Host.Outcome.next (if_pos due), ?_⟩
  rw [sendTxl_safe]
  exact ⟨rfl, rfl, rfl⟩

/-! ### Receiving and pairing -/

theorem execSafeCopyReceived_taken {s : State} {p ch : Fin 2} {c : Fin 2 × SafeCopy}
    (hrun : (if ch = 0 then s.lk.runA else s.lk.runB) = true)
    (hc : (s.safe.chan[ch].inbox.find? fun c => c.1 == p) = some c) :
    ∃ u, execSafeCopyReceived p ch s = .next (settle s (takeCopy u p ch c.2))
      ∧ u.safe.chan[ch].inbox = s.safe.chan[ch].inbox.erase c ∧ u.lk = s.lk ∧ u.txl = s.txl := by
  refine ⟨updChan s ch fun x => { x with inbox := x.inbox.erase c }, ?_, congrArg SafeChan.inbox (updChan_same ..),
    rfl, rfl⟩
  simp only [execSafeCopyReceived, hc, if_pos hrun]

/-- A copy delivered to a peer that has had none restarts its watchdog (R334). -/
theorem deliver_first {s : State} {ch : Fin 2} {k : Fin 16} (c : SafeCopy)
    (h : s.safe.chan[ch].peer[k].last = none) :
    deliver s ch k c = updChan s ch fun x => { x with peer := upd x.peer k fun y =>
      { y with last := some (copySseq c), got := true, expired := false, stop := copyKind c == 2, fed := s.mono } } := by
  simp only [deliver, h, if_true]

/-- A sound copy of a watched source is paired, its port noted; single copies of the port are not delivered (R333). -/
theorem takeCopy_paired {s : State} {p ch : Fin 2} {c : SafeCopy} {k : Fin 16} (hself : copySrc c ≠ safeSid s)
    (hflag : c.flagB = decide (p = 1)) (hlen : c.bytes.length = 32)
    (hcode : beNat (slice c.bytes 28 4) = scode s c.bytes) (hpeer : peerOf s (copySrc c) = some k)
    (hdst : copyDst c = safeSid s ∨ copyDst c = 0xFFFF) (hmode : safeMode s ≠ 1) (hsingle : singleFrom s p = false) :
    takeCopy s p ch c =
      pairCopy { s with safe := { s.safe with copyAt := upd s.safe.copyAt p fun _ => s.mono } } p ch k c := by
  have hdst : ¬(copyDst c ≠ safeSid s ∧ copyDst c ≠ 0xFFFF) := by tauto
  rw [takeCopy, if_neg hself, if_neg (not_not.mpr hflag), if_neg (by simp [hlen, hcode]), hpeer]
  refine (if_neg hdst).trans ((if_neg hmode).trans ?_)
  exact congrArg (fun u => pairCopy u p ch k c) (if_neg (by rw [Bool.not_eq_true]; exact hsingle))

/-- The second copy of a pair, in time and alike, is delivered, and the first waits no longer (R333). -/
theorem pairCopy_second {s : State} {p ch : Fin 2} {c : SafeCopy} (k : Fin 16) {w : SafeWait}
    (hw : s.safe.chan[ch].waiting = [w]) (hsrc : copySrc w.copy = copySrc c) (hseq : copySseq w.copy = copySseq c)
    (hport : w.port ≠ p) (htime : c.at_ ≤ w.copy.at_ + 4) (hbytes : w.copy.bytes = c.bytes) :
    (pairCopy s p ch k c).safe.chan =
      (deliver (updChan s ch fun x => { x with waiting := x.waiting.erase w }) ch k c).safe.chan := by
  have unseen : ([w].any fun w => copySrc w.copy == copySrc c && copySseq w.copy == copySseq c && w.port == p)
      = false := by
    simp [hport]
  have found : ([w].find? fun w => copySrc w.copy == copySrc c && copySseq w.copy == copySseq c && w.port != p
      && decide (c.at_ ≤ w.copy.at_ + 4)) = some w := by
    simp [hsrc, hseq, hport, htime]
  simp only [pairCopy, hw, unseen, found, Bool.false_eq_true, if_false, if_pos hbytes]

/-- A pair in a channel whose peer has had none: delivered, the watchdog restarted, nothing waiting (R333, R334). -/
theorem takeCopy_pair {s : State} {p ch : Fin 2} {c : SafeCopy} {k : Fin 16} {w : SafeWait}
    (hself : copySrc c ≠ safeSid s) (hflag : c.flagB = decide (p = 1)) (hlen : c.bytes.length = 32)
    (hcode : beNat (slice c.bytes 28 4) = scode s c.bytes) (hpeer : peerOf s (copySrc c) = some k)
    (hdst : copyDst c = safeSid s ∨ copyDst c = 0xFFFF) (hmode : safeMode s ≠ 1) (hsingle : singleFrom s p = false)
    (hw : s.safe.chan[ch].waiting = [w]) (hsrc : copySrc w.copy = copySrc c) (hseq : copySseq w.copy = copySseq c)
    (hport : w.port ≠ p) (htime : c.at_ ≤ w.copy.at_ + 4) (hbytes : w.copy.bytes = c.bytes)
    (hlast : s.safe.chan[ch].peer[k].last = none) :
    (takeCopy s p ch c).safe.chan[ch].peer[k].expired = false
      ∧ (takeCopy s p ch c).safe.chan[ch].peer[k].last = some (copySseq c)
      ∧ (takeCopy s p ch c).safe.chan[ch].peer[k].fed = s.mono
      ∧ (takeCopy s p ch c).safe.chan[ch].waiting = [] := by
  let noted : State := { s with safe := { s.safe with copyAt := upd s.safe.copyAt p fun _ => s.mono } }
  have hchan : (takeCopy s p ch c).safe.chan[ch] = { s.safe.chan[ch] with
      waiting := [], peer := upd s.safe.chan[ch].peer k fun y =>
        { y with last := some (copySseq c), got := true, expired := false, stop := copyKind c == 2, fed := s.mono } } := by
    have hlast' : (updChan noted ch fun x => { x with waiting := x.waiting.erase w }).safe.chan[ch].peer[k].last
        = none := by rwa [updChan_same]
    have hpair : (takeCopy s p ch c).safe.chan = _ :=
      (takeCopy_paired hself hflag hlen hcode hpeer hdst hmode hsingle) ▸
        pairCopy_second (s := noted) k hw hsrc hseq hport htime hbytes
    simp only [hpair, deliver_first c hlast', updChan_same]
    have herase : noted.safe.chan[ch].waiting.erase w = [] := by
      rw [show noted.safe.chan[ch].waiting = [w] from hw, List.erase_cons_head]
    rw [herase]
    rfl
  rw [hchan]
  simp only [upd_same, and_self]

/-! ### Time-outs -/

/-- The port that lacks a copy counts it as missing (R333). -/
def countMiss (w : SafeWait) (l : SafeLink) : SafeLink :=
  if w.port = 0 then { l with missB := satInc 16 l.missB } else { l with missA := satInc 16 l.missA }

/-- The copy that waits alone in channel A, once its 4 ms have passed: discarded and counted (R333, log 55). -/
theorem pairTimeout_channelA {s : State} {k : Fin 16} {w : SafeWait} (hw : s.safe.chan[(0 : Fin 2)].waiting = [w])
    (hpeer : peerOf s (copySrc w.copy) = some k) (hlate : w.copy.at_ + 4 < s.mono) :
    (pairTimeout s 0 k).safe = countMiss w { s.safe with
      chan := upd s.safe.chan 0 fun c => { c with waiting := c.waiting.erase w }, pairFrom := none } := by
  have found : ([w].find? fun w => peerOf s (copySrc w.copy) == some k && decide (w.copy.at_ + 4 < s.mono))
      = some w := by
    simp [hpeer, hlate]
  simp only [pairTimeout, hw, found, countA, if_true, copyBad_safe]
  rfl

/-- Channel B's time-out leaves channel A and the counters, which are channel A's, as they are (log 55). -/
theorem pairTimeout_channelB (s : State) (k : Fin 16) :
    (pairTimeout s 1 k).safe.chan[(0 : Fin 2)] = s.safe.chan[(0 : Fin 2)]
      ∧ (pairTimeout s 1 k).safe.missA = s.safe.missA ∧ (pairTimeout s 1 k).safe.missB = s.safe.missB := by
  unfold pairTimeout
  split
  · exact ⟨upd_other _ 1 0 _ (by decide), rfl, rfl⟩
  · exact ⟨rfl, rfl, rfl⟩

theorem execSafePairTimeout_late {s : State} {k : Fin 16} {w : SafeWait}
    (hw : s.safe.chan[(0 : Fin 2)].waiting = [w]) (hpeer : peerOf s (copySrc w.copy) = some k)
    (hlate : w.copy.at_ + 4 < s.mono) :
    ∃ t, execSafePairTimeout k s = .next t ∧ t.safe.chan[(0 : Fin 2)].waiting = []
      ∧ t.safe.missB = (if w.port = 0 then satInc 16 s.safe.missB else s.safe.missB)
      ∧ t.safe.missA = (if w.port = 0 then s.safe.missA else satInc 16 s.safe.missA) := by
  obtain ⟨hchan, hmissA, hmissB⟩ := pairTimeout_channelB (pairTimeout s 0 k) k
  have herase : s.safe.chan[(0 : Fin 2)].waiting.erase w = [] := by rw [hw, List.erase_cons_head]
  refine ⟨_, rfl, ?_⟩
  rw [hchan, hmissA, hmissB, pairTimeout_channelA hw hpeer hlate, countMiss]
  split
  · exact ⟨(congrArg SafeChan.waiting (upd_same ..)).trans herase, rfl, rfl⟩
  · exact ⟨(congrArg SafeChan.waiting (upd_same ..)).trans herase, rfl, rfl⟩

theorem execSafeWatchdogExpiry_enabled {s : State} {k : Fin 16} (h : peerEn s k = true) :
    ∃ u, execSafeWatchdogExpiry k s = .next (settle s u)
      ∧ (∀ ch : Fin 2, u.safe.chan[ch].peer[k].expired
        = (s.safe.chan[ch].peer[k].expired || decide (s.safe.chan[ch].peer[k].fed + 20 ≤ s.mono))) ∧ u.lk = s.lk := by
  refine ⟨_, congrArg Host.Outcome.next (if_pos h), fun ch => ?_, rfl⟩
  simp only [updChan_chan, upd_both, upd_same]

/-! ### Single-port operation -/

theorem execSafeFallbackEngage_lost {s : State} {lost : Fin 2} (hmode : safeMode s = 2)
    (hnew : s.safe.fallback = false) (hlost : s.safe.copyAt[lost] + 10 ≤ s.mono)
    (hother : s.mono < s.safe.copyAt[(1 - lost)] + 10) :
    ∃ t, execSafeFallbackEngage lost s = .next t ∧ t.safe = { s.safe with
      fallback := true, fbPort := 1 - lost, fbAt := s.mono, singleOut := false, pairFrom := none } := by
  have due : (safeMode s == 2 && !s.safe.fallback
      && decide (s.safe.copyAt[lost] + 10 ≤ s.mono ∧ s.mono < s.safe.copyAt[(1 - lost)] + 10)) = true := by
    rw [hmode, hnew, decide_eq_true (And.intro hlost hother)]
    rfl
  exact ⟨_, congrArg Host.Outcome.next (if_pos due), rfl⟩

theorem execSafeFallbackEnd_paired {s : State} {since : Nat} (hfb : s.safe.fallback = true)
    (hpair : s.safe.pairFrom = some since) (hlong : since + 1000 ≤ s.mono)
    (ha : s.mono < s.safe.copyAt[(0 : Fin 2)] + 10) (hb : s.mono < s.safe.copyAt[(1 : Fin 2)] + 10) :
    ∃ t, execSafeFallbackEnd s = .next t ∧ t.safe = { s.safe with fallback := false, singleOut := false } := by
  simp only [execSafeFallbackEnd, hfb, hpair, decide_eq_true hlong, decide_eq_true (And.intro ha hb), Bool.and_self,
    if_true]
  exact ⟨_, rfl, rfl⟩

theorem execSingleTExpiry_due {s : State} (hfb : s.safe.fallback = true)
    (hdue : s.safe.fbAt + cfgN s 0x40 0x40 0x000 23 16 * 3600000 ≤ s.mono) :
    execSingleTExpiry s = .next { s with safe := { s.safe with singleOut := true } } := by
  rw [execSingleTExpiry, hfb, decide_eq_true hdue]
  rfl

/-- Settles O26: clause by clause, from what each command does in the case that the clause names. -/
theorem safeTelegramsComplete : Obligations.SafeTelegramsComplete := by
  unfold Obligations.SafeTelegramsComplete
  exact ⟨fun s p c hc hnet => execSafeFrameForward_handed hc hnet,
    fun s ha hb hr hf hl hn => execSafeTelegramCycle_sent ha hb hr hf hl hn,
    fun s p ch c hrun hc => execSafeCopyReceived_taken hrun hc,
    fun s p ch c k w hself hflag hlen hcode hpeer hdst hmode hsingle hw hsrc hseq hport htime hbytes hlast =>
      takeCopy_pair hself hflag hlen hcode hpeer hdst hmode hsingle hw hsrc hseq hport htime hbytes hlast,
    fun s k w hw hpeer hlate => execSafePairTimeout_late hw hpeer hlate,
    fun s k h => execSafeWatchdogExpiry_enabled h,
    fun s lost hmode hnew hlost hother => execSafeFallbackEngage_lost hmode hnew hlost hother,
    fun s since hfb hpair hlong ha hb => execSafeFallbackEnd_paired hfb hpair hlong ha hb,
    fun s hfb hdue => execSingleTExpiry_due hfb hdue⟩

end Sys2Proof.Machine
end

section
/-!
SUPPORT. Tariffs, demand, billing, the mailbox and prepayment: an equation or an effect for each case of a command (R249
to R270; O20).
-/
namespace Sys2Proof.Machine

/-! ### Demand, tariffs and billing -/

theorem execDemandIntervalEnd_due {s : State} (ht : onTime s = true)
    (hb : nextDemand s (intervalSince s) ≤ s.nowNs) :
    execDemandIntervalEnd s = .next (closeIntervals s (nextDemand s (intervalSince s)) {} {}) := by
  simp only [execDemandIntervalEnd, ht, hb, decide_true, Bool.and_self, if_true]

theorem execCalendarActivate_due {s : State} {c : Calendar} (hc : s.mer.tar.pending = some c) (ht : onTime s = true)
    (ha : c.activation ≤ s.nowNs) : execCalendarActivate s = .next (retariff (activateCalendar s)) := by
  simp only [execCalendarActivate, hc, ht, ha, decide_true, Bool.and_self, if_true]

theorem execTariffSwitch_plain {s : State} (ht : onTime s = true) (hn : nextOffset s (intervalSince s) = none) :
    execTariffSwitch s = .next (retariff s) := by
  simp only [execTariffSwitch, ht, hn, if_true]

theorem execTariffSwitch_offset {s : State} {b : Nat} (ht : onTime s = true)
    (hn : nextOffset s (intervalSince s) = some b) (hb : b ≤ s.nowNs) :
    execTariffSwitch s = .next (retariff (closeIntervals s b { adjusted := true } {})) := by
  simp only [execTariffSwitch, ht, hn, hb, if_true]

/-- A scheduled instant after the last close closes the period (R255). -/
theorem closeFor_scheduled {s : State} {at_ : Nat} (h : s.mer.leg.lastClose < at_) :
    closeFor s at_ 1 = closePeriod s at_ true false false := by
  rw [closeFor, if_pos h]
  rfl

theorem execBillingScheduledClose_due {s : State} {b : Nat} (ht : onTime s = true)
    (hm : merN s 0x700 0x018 31 30 ≠ 0) (hn : nextBilling s (intervalSince s - 1) = some b) (hb : b ≤ s.nowNs)
    (hl : s.mer.leg.lastClose < b) :
    execBillingScheduledClose s = .next (closePeriod s b true false false) := by
  have due : (onTime s && decide (merN s 0x700 0x018 31 30 ≠ 0)) = true := by
    rw [ht, decide_eq_true hm]
    rfl
  simp only [execBillingScheduledClose, if_pos due, hn, if_pos hb, closeFor_scheduled hl]

theorem execLegalWindowItem_up {s : State} (h : s.mer.up = true) :
    ∃ t, execLegalWindowItem s = .next t
      ∧ t.mer.winItem = if s.mer.winItem + 1 < (legalItems s).length then s.mer.winItem + 1 else 0 :=
  ⟨_, congrArg Host.Outcome.next (if_pos h), rfl⟩

/-! ### The mailbox -/

/-- The state in which a request taken from the mailbox is performed: the requests held back have moved up (R23). -/
def takenFromMail (s : State) (r : MailRequest) : State :=
  refillMail { s with mer := { s.mer with mail := s.mer.mail.erase r } }

/-- A request that is outstanding, or a read made now, is performed and answered (R23). -/
theorem execMailboxRequest_served {s : State} {r : MailRequest} (hu : s.mer.up = true)
    (hh : s.landfall.helmUp = true) (hr : (s.mer.mail.contains r || readRequest s r) = true) :
    execMailboxRequest r s = .next (answerMail (takenFromMail s r) r) := by
  have served : (s.mer.up && s.landfall.helmUp && (s.mer.mail.contains r || readRequest s r)) = true := by
    rw [hu, hh, hr]
    rfl
  exact congrArg Host.Outcome.next (if_pos served)

/-- A record opened while the outlet's metering is valid (R265). -/
theorem openRecord_valid {s : State} {o : Fin 2} (hash : Bytes) (h : meteringInvalid s o = false) :
    ∃ r, (openRecord s o hash).mer.leg.sessions = addSession s.mer.leg.sessions r ∧ r.outlet = o ∧ r.hash = hash
      ∧ r.start = s.nowNs ∧ r.seqOpen = nextSeq s ∧ r.isOpen = true ∧ (openRecord s o hash).mer.mail = s.mer.mail := by
  rw [openRecord, h]
  exact ⟨_, rfl, rfl, rfl, rfl, rfl, rfl, rfl⟩

/-- A record refused for want of valid metering opens nothing (R211). -/
theorem openRecord_invalid {s : State} {o : Fin 2} (hash : Bytes) (h : meteringInvalid s o = true) :
    (openRecord s o hash).mer.leg = s.mer.leg := by
  rw [openRecord, if_pos h]
  exact congrArg Prod.fst ((keep_stopTrigger s o .recordRefused).same .merLeg (by decide))

theorem execMailboxRequest_opened {s : State} {o : Fin 2} {hash : Bytes} {n : Nat} (hu : s.mer.up = true)
    (hh : s.landfall.helmUp = true) (hm : s.mer.mail.contains (.openRecord o hash n) = true)
    (hv : meteringInvalid s o = false) :
    ∃ t r, execMailboxRequest (.openRecord o hash n) s = .next t
      ∧ t.mer.leg.sessions = addSession s.mer.leg.sessions r ∧ r.outlet = o ∧ r.hash = hash ∧ r.start = s.nowNs
      ∧ r.seqOpen = (s.mer.legalSeq + 1) % 2 ^ 32 ∧ r.isOpen = true
      ∧ t.mer.mail = (s.mer.mail.erase (.openRecord o hash n) ++ s.mer.held).take 16
      ∧ t.com.reply = some (.opened o true) := by
  have hvalid : meteringInvalid (takenFromMail s (.openRecord o hash n)) o = false := hv
  obtain ⟨r, hsessions, hout, hhash, hstart, hseq, hopen, hmail⟩ := openRecord_valid hash hvalid
  refine ⟨_, r, execMailboxRequest_served hu hh (by rw [hm, Bool.true_or]), hsessions, hout, hhash, hstart, hseq,
    hopen, hmail, ?_⟩
  exact congrArg (fun b => some (MailReply.opened o !b)) hvalid

theorem execMailboxRequest_refused {s : State} {o : Fin 2} {hash : Bytes} {n : Nat} (hu : s.mer.up = true)
    (hh : s.landfall.helmUp = true) (hm : s.mer.mail.contains (.openRecord o hash n) = true)
    (hv : meteringInvalid s o = true) :
    ∃ t, execMailboxRequest (.openRecord o hash n) s = .next t ∧ t.mer.leg.sessions = s.mer.leg.sessions
      ∧ t.com.reply = some (.opened o false) := by
  have hinvalid : meteringInvalid (takenFromMail s (.openRecord o hash n)) o = true := hv
  exact ⟨_, execMailboxRequest_served hu hh (by rw [hm, Bool.true_or]),
    congrArg LegalSet.sessions (openRecord_invalid hash hinvalid),
    congrArg (fun b => some (MailReply.opened o !b)) hinvalid⟩

theorem execMailboxRequest_readVehicle {s : State} (o : Fin 2) (hu : s.mer.up = true)
    (hh : s.landfall.helmUp = true) (hroom : s.mer.mail.length < 16) :
    ∃ t, execMailboxRequest (.readVehicle o) s = .next t ∧ t.outlet[o].vMerAt = some s.mono
      ∧ t.outlet[o].vMer = vehicleMv s o := by
  have hread : readRequest s (.readVehicle o) = true := decide_eq_true hroom
  exact ⟨_, execMailboxRequest_served hu hh (by rw [hread, Bool.or_true]),
    congrArg Outlet.vMerAt (upd_same ..), congrArg Outlet.vMer (upd_same ..)⟩

/-! ### Prepayment -/

theorem execPrepayDebit_up {s : State} (h : s.mer.up = true) :
    execPrepayDebit s = .next (debitOutlet (debitOutlet s 0) 1) := congrArg Host.Outcome.next (if_pos h)

theorem execWeatherHoldEnd_due {s : State} (hw : s.com.weatherEnd ≠ 0) (hn : s.com.weatherEnd ≤ s.nowNs) :
    execWeatherHoldEnd s =
      .next (creditStop (creditStop { s with com := { s.com with weatherEnd := 0 } } 0) 1) :=
  congrArg Host.Outcome.next (if_pos ⟨hw, hn⟩)

/-- Settles O20: clause by clause, from what each command does in the case that the clause names. -/
theorem billingCompletes : Obligations.BillingCompletes := by
  unfold Obligations.BillingCompletes
  exact ⟨fun s b ht hb hn => by subst hb; exact execDemandIntervalEnd_due ht hn,
    fun s c hc ht ha => execCalendarActivate_due hc ht ha,
    fun s ht hn => execTariffSwitch_plain ht hn,
    fun s b ht hn hb => execTariffSwitch_offset ht hn hb,
    fun s b ht hm hn hb hl => execBillingScheduledClose_due ht hm hn hb hl,
    fun s h => execLegalWindowItem_up h,
    fun s o h n hu hh hm hv => execMailboxRequest_opened hu hh hm hv,
    fun s o h n hu hh hm hv => execMailboxRequest_refused hu hh hm hv,
    fun s o hu hh hroom => execMailboxRequest_readVehicle o hu hh hroom,
    fun s h => execPrepayDebit_up h,
    fun s o => rfl,
    fun s hw hn => execWeatherHoldEnd_due hw hn⟩

end Sys2Proof.Machine
end

section
/-!
SUPPORT. The canonical form of the sparse memories along every step and at reset (R45, R217, R274; O40, O41), what reset
leaves (O42), and what FW_STAGE leaves of the chart flash (R45, R435; O50).
-/
namespace Sys2Proof.Machine

/-! ### Every step -/

/-- A step keeps the canonical form: a command by its frame, a millisecond with none waiting by its own. -/
theorem step_memWf {s t : State} (hs : s.memWf = true) (e : step s = .next t) : t.memWf = true := by
  unfold step at e
  split at e
  · obtain rfl : idle s = t := Host.Outcome.next.inj e
    exact (keep_idle s).wf hs
  · next c rest _ => exact (kept_writes c { s with pending := rest } t e).wf hs

/-- Settles O40: each command keeps the form with its frame (`kept_writes`), and so does the idle millisecond. -/
theorem stepKeepsMemoriesCanonical : Obligations.StepKeepsMemoriesCanonical := by
  unfold Obligations.StepKeepsMemoriesCanonical
  exact fun s t hs e => step_memWf hs e

/-! ### Reset -/

/-- Settles O41: at reset each of the sparse memories lists nothing. -/
theorem resetMemoriesCanonical : Obligations.ResetMemoriesCanonical := by
  unfold Obligations.ResetMemoriesCanonical
  exact (memWf_iff State.reset).mpr ⟨rfl, rfl, rfl, rfl, rfl, rfl⟩

/-- Every stage is OFF at reset (R116). -/
theorem reset_stage_off (g : Fin 8) : State.reset.sx.stage[g].st = .off :=
  congrArg Stage.st (Vector.getElem_replicate g.isLt)

/-- Every safety output is off at reset (R33). -/
theorem reset_so (n : Fin 8) : State.reset.lk.so[n] = {} := Vector.getElem_replicate n.isLt

/-- Settles O42: the reset state holds each field's reset value. -/
theorem resetIsSafe : Obligations.ResetIsSafe := by
  unfold Obligations.ResetIsSafe
  refine ⟨rfl, rfl, rfl, reset_stage_off, fun n => ?_, rfl, rfl, rfl, rfl, rfl⟩
  rw [reset_so]
  exact ⟨rfl, rfl, rfl⟩

/-! ### Staging -/

/-- The index of a TARGET of Table 17-7 is one below it. -/
theorem fwIndex_add_one {k : Nat} (h : 1 ≤ k ∧ k ≤ 5) : (fwIndex k).val + 1 = k := by
  have hval : (fwIndex k).val = (k - 1) % 5 := rfl
  omega

/-- Where a target's inactive slot begins depends on its slot pointer alone. -/
theorem inactiveBase_eq {s t : State} {i : Fin 5} (h : t.fw[i].slotB = s.fw[i].slotB) :
    inactiveBase t i = inactiveBase s i := by
  simp only [inactiveBase, h]

/-- An update of a target that leaves its slot pointer leaves every target's. -/
theorem updFw_slotB (s : State) (k : Fin 5) {f : FwTarget → FwTarget} (hf : ∀ x, (f x).slotB = x.slotB) (i : Fin 5) :
    (updFw s k f).fw[i].slotB = s.fw[i].slotB := by
  unfold updFw
  rw [upd_get]
  split
  · exact hf _
  · rfl

/-- Discarded transfers leave the slot pointers (R412). -/
theorem dropTransfers_slotB (s : State) (p : Transfer → Bool) (i : Fin 5) :
    (dropTransfers s p).fw[i].slotB = s.fw[i].slotB := by
  unfold dropTransfers
  extract_lets gone host t
  have ht : t.fw[i].slotB = s.fw[i].slotB := rfl
  clear_value gone t
  induction gone generalizing t with
  | nil => exact ht
  | cons x gone ih =>
    refine ih _ (Eq.trans ?_ ht)
    beta_reduce
    split
    · exact updFw_slotB t _ (f := fun w => { w with stage := 0, stagedVer := 0, stagedLen := 0 }) (fun _ => rfl) i
    · rfl

/-- A chunk taken leaves the slot pointers, whatever comes of it. -/
theorem takeChunk_slotB (s : State) (sid cmd target : Nat) (k : Chunk) (i : Fin 5) :
    (takeChunk s sid cmd target k).1.fw[i].slotB = s.fw[i].slotB := by
  unfold takeChunk
  extract_lets mine old u v
  have hu : u.fw[i].slotB = s.fw[i].slotB := by
    unfold u
    split
    · exact dropTransfers_slotB s mine i
    · rfl
  clear_value u v
  have hdrop := (dropTransfers_slotB u mine i).trans hu
  cases v with
  | none => exact hdrop
  | some x =>
    dsimp only
    split
    · exact hdrop
    · split <;> exact hu

/-- A chunk that is not refused lies within the object's length, TOTAL (R412). -/
theorem takeChunk_within_total {s t : State} {sid cmd target : Nat} {k : Chunk} {r : Bool × Bytes}
    (h : takeChunk s sid cmd target k = (t, some r)) : k.offset + k.data.length ≤ k.total := by
  unfold takeChunk at h
  extract_lets mine old u v at h
  have hv : ∀ x, v = some x → x.got = k.offset ∧ x.total = k.total := by
    intro x hx
    unfold v at hx
    split at hx
    · next h0 =>
      obtain rfl := Option.some.inj hx
      exact ⟨h0.symm, rfl⟩
    · have hsel := (Option.filter_eq_some_iff.mp hx).2
      simp only [Bool.and_eq_true, beq_iff_eq] at hsel
      exact hsel.1
  clear_value v
  cases v with
  | none => cases h
  | some x =>
    obtain ⟨hgot, htotal⟩ := hv x rfl
    dsimp only at h
    split at h
    · cases h
    · omega

/-- A chunk that is refused leaves the chart flash as it was. -/
theorem runStage_flash_of_refused {s t : State} {sid target : Nat} {k : Chunk} (id : Nat)
    (ht : takeChunk s sid 0x60 target k = (t, none)) : (runStage s id sid target k).flash = s.flash := by
  have hflash : t.flash = s.flash := (keep_takeChunk_eq ht).same .flash (by decide)
  unfold runStage
  rw [ht]
  extract_lets i
  split
  · exact (keep_setResult ..).same .flash (by decide)
  · exact ((keep_setResult ..).same .flash (by decide)).trans (((keep_setPilots t).same .flash (by decide)).trans hflash)

/-- The state in which FW_STAGE has written a chunk to a target's slot, which the first chunk has erased (R435). -/
def chunkStaged (t : State) (i : Fin 5) (k : Chunk) : State :=
  writeStaged (if k.offset = 0 then eraseStaged t i else t) i k.offset k.data

/-- A chunk that is taken leaves in the chart flash what was written to the slot, unless FW_STAGE was refused before. -/
theorem runStage_flash_of_taken {s t : State} {sid target : Nat} {k : Chunk} {r : Bool × Bytes} (id : Nat)
    (ht : takeChunk s sid 0x60 target k = (t, some r)) : (runStage s id sid target k).flash = s.flash
      ∨ (runStage s id sid target k).flash = (chunkStaged t (fwIndex target) k).flash := by
  have shown : ∀ u st b, (setResult (setPilots u) id st b).flash = u.flash := fun u st b =>
    ((keep_setResult ..).same .flash (by decide)).trans ((keep_setPilots u).same .flash (by decide))
  have discarded : ∀ u p, (dropTransfers u p).flash = u.flash := fun u p =>
    (keep_dropTransfers u p).same .flash (by decide)
  have updated : ∀ u i f, (updFw u i f).flash = u.flash := fun u i f => (keep_updFw u i f).same .flash (by decide)
  unfold runStage chunkStaged
  rw [ht]
  dsimp only
  generalize (if k.offset = 0 then eraseStaged t (fwIndex target) else t) = e
  split
  · exact .inl ((keep_setResult ..).same .flash (by decide))
  · right
    simp only [apply_ite State.flash, shown, discarded, updated, ite_self]

/-- A byte of the chart flash outside a target's inactive slot, where an erasure of the slot leaves it. -/
theorem eraseStaged_outside {s : State} {i : Fin 5} {a : Nat}
    (ha : a < inactiveBase s i ∨ inactiveBase s i + slotSize (i.val + 1) ≤ a) :
    sparseGet 0xFF (eraseStaged s i).flash a = sparseGet 0xFF s.flash a := by
  unfold eraseStaged
  split
  · rfl
  · exact sparseGet_erase_outside ha

/-- A byte of the chart flash outside a target's inactive slot, where a chunk within the slot leaves it. -/
theorem writeStaged_outside {s : State} {i : Fin 5} {off : Nat} {b : Bytes} {a : Nat}
    (hb : off + b.length ≤ slotSize (i.val + 1))
    (ha : a < inactiveBase s i ∨ inactiveBase s i + slotSize (i.val + 1) ≤ a) :
    sparseGet 0xFF (writeStaged s i off b).flash a = sparseGet 0xFF s.flash a := by
  unfold writeStaged
  split
  · rfl
  · exact sparseGet_write_outside (by omega)

/-- A chunk within the slot leaves every byte outside it, the first chunk's erasure included. -/
theorem chunkStaged_outside {s : State} {i : Fin 5} {k : Chunk} {a : Nat}
    (hin : k.offset + k.data.length ≤ slotSize (i.val + 1))
    (ha : a < inactiveBase s i ∨ inactiveBase s i + slotSize (i.val + 1) ≤ a) :
    sparseGet 0xFF (chunkStaged s i k).flash a = sparseGet 0xFF s.flash a := by
  unfold chunkStaged
  split
  · have herased : inactiveBase (eraseStaged s i) i = inactiveBase s i :=
      inactiveBase_eq (congrArg (fun w => w[i].slotB) ((keep_eraseStaged s i).same .fw (by decide)))
    exact (writeStaged_outside hin (by rwa [herased])).trans (eraseStaged_outside ha)
  · exact writeStaged_outside hin ha

/-- FW_STAGE of an object that fits its slot leaves the chart flash outside the slot as it was. -/
theorem runStage_outside {s : State} {id sid target : Nat} {k : Chunk} {a : Nat} (htarget : 1 ≤ target ∧ target ≤ 5)
    (hfit : k.total ≤ slotSize target) (ha : a < inactiveBase s (fwIndex target)
      ∨ inactiveBase s (fwIndex target) + slotSize target ≤ a) :
    sparseGet 0xFF (runStage s id sid target k).flash a = sparseGet 0xFF s.flash a := by
  rcases ht : takeChunk s sid 0x60 target k with ⟨t, _ | r⟩
  · rw [runStage_flash_of_refused id ht]
  have hflash : t.flash = s.flash := (keep_takeChunk_eq ht).same .flash (by decide)
  have hbase : inactiveBase t (fwIndex target) = inactiveBase s (fwIndex target) :=
    inactiveBase_eq ((congrArg (fun p => p.1.fw[fwIndex target].slotB) ht).symm.trans (takeChunk_slotB ..))
  have hin := takeChunk_within_total ht
  have hsize : slotSize ((fwIndex target).val + 1) = slotSize target := by rw [fwIndex_add_one htarget]
  obtain h | h := runStage_flash_of_taken id ht
  · rw [h]
  · rw [h, ← hflash]
    exact chunkStaged_outside (by omega) (by rwa [hbase, hsize])

/-- An admitted FW_STAGE names a target, and its object fits the target's slot (R395, R412). -/
theorem fwStage_fits_of_admission {s : State} {role : Fin 4} {sid target : Nat} {f : Frame} {k : Chunk}
    (h : admission s role sid f (.fwStage target k) = .ok) :
    (1 ≤ target ∧ target ≤ 5) ∧ k.total ≤ slotSize target := by
  have hlayout : (HostCmd.fwStage target k).layoutOk s = true := by
    unfold admission at h
    simp only at h
    split_ifs at h with _ _ _ _ hraw
    simp_all
  simp only [HostCmd.layoutOk, chunkOk, Bool.and_eq_true, decide_eq_true_eq] at hlayout
  obtain ⟨htarget, -, -, -, -, -, hmost, -, -⟩ := hlayout
  exact ⟨htarget, hmost⟩

/-- An operation whose frame leaves out the chart flash and the firmware targets keeps both. -/
theorem Keeps.flash_fw {F : List Part} {s t : State} (h : Keeps F s t) (hflash : Part.flash ∉ F) (hfw : Part.fw ∉ F) :
    t.flash = s.flash ∧ t.fw = s.fw :=
  ⟨h.same .flash hflash, h.same .fw hfw⟩

/-- FW_STAGE, accepted or not, leaves the chart flash outside its target's inactive slot as it was. -/
theorem request_fwStage_outside {s : State} {f : Frame} {target : Nat} {k : Chunk} {a : Nat}
    (ha : a < inactiveBase s (fwIndex target) ∨ inactiveBase s (fwIndex target) + slotSize target ≤ a) :
    sparseGet 0xFF (request s f (.fwStage target k)).flash a = sparseGet 0xFF s.flash a := by
  obtain hk | ⟨x, y, -, -, -, hadm, -, hreq⟩ := request_keeps_or_accepts s f (.fwStage target k)
  · rw [(hk.flash_fw (by decide) (by decide)).1]
  obtain ⟨htarget, hfit⟩ := fwStage_fits_of_admission hadm
  obtain ⟨hflash, hfw⟩ := (keep_noteFrame s f).flash_fw (by decide) (by decide)
  rw [hreq]
  obtain hk | ⟨u, hu, hrun⟩ := acceptOp_keeps_or_runs (noteFrame s f) y f (.fwStage target k)
  · rw [(hk.flash_fw (by decide) (by decide)).1, hflash]
  obtain ⟨huflash, hufw⟩ := hu.flash_fw (by decide) (by decide)
  have hbase : inactiveBase u (fwIndex target) = inactiveBase s (fwIndex target) :=
    inactiveBase_eq (by rw [hufw, hfw])
  rw [(hrun.flash_fw (by decide) (by decide)).1, ← hflash, ← huflash]
  exact runStage_outside htarget hfit (by rwa [hbase])

/-- Settles O50: an admitted chunk lies within its target's slot, and what is not admitted writes nothing. -/
theorem stagingStaysInItsSlot : Obligations.StagingStaysInItsSlot := by
  unfold Obligations.StagingStaysInItsSlot
  intro f k x s t a e ha
  obtain rfl : request s f (.fwStage k x) = t := Host.Outcome.next.inj e
  exact request_fwStage_outside ha

end Sys2Proof.Machine
end

section
/-!
SUPPORT. Supplies, resets and the milestones to 0x04, an equation or an effect for each case of a command (R32 to R36,
R52, R53, R298, R487, R491; O21).
-/
namespace Sys2Proof.Machine

/-! ### Supplies and resets -/

/-- PORST_N low resets every die; Meridian keeps its last commit (R230, R474, log 32). -/
theorem execPorstFall_due {s : State} (h : s.landfall.porst = true) :
    ∃ u, execPorstFall s = .next (settle s u) ∧ u.landfall.porst = false ∧ u.landfall.phase = 0
      ∧ u.landfall.helmUp = false ∧ u.landfall.hostReady = false ∧ u.mer.up = false ∧ u.mer.saved = s.mer.saved
      ∧ u.lk.runA = false ∧ u.lk.runB = false ∧ u.lk.landfallDone = false ∧ u.sx.up = false
      ∧ u.chart.inUse = none ∧ u.host.sessions = [] := by
  have kept := keep_diesReset (meridianReset s) true
  exact ⟨_, congrArg Host.Outcome.next (if_pos h), rfl, rfl, rfl, rfl,
    congrArg Prod.fst (kept.same .merRest (by decide)), congrArg (·.2.1) (kept.same .merLeg (by decide)),
    rfl, rfl, rfl, rfl, rfl, rfl⟩

theorem execCoreSupplyDip_due {s : State} {rail : CoreRail} {uV : Nat} (hp : s.landfall.porst = true)
    (hr : railOk rail s.landfall = true) (hw : inWindow (coreRail rail) uV = false) :
    ∃ t, execCoreSupplyDip rail uV s = .next t ∧ t.flt.lastCode = 0x0302 ∧ t.flt.ratingsOk = false := by
  have due : (s.landfall.porst && railOk rail s.landfall && !inWindow (coreRail rail) uV) = true := by
    rw [hp, hr, hw]
    rfl
  exact ⟨_, congrArg Host.Outcome.next (if_pos due), rfl, rfl⟩

/-- A rail of R34 that has been set reads as set. -/
@[simp] theorem railOk_setRail (rail : CoreRail) (ok : Bool) (l : Landfall) : railOk rail (setRail rail ok l) = ok := by
  cases rail <;> rfl

/-- A rail of R34 back in its window reads so, with its measurement, whether or not the other still lacks. -/
theorem execCoreSupplyReturn_due {s : State} {rail : CoreRail} {uV : Nat} (hr : railOk rail s.landfall = false)
    (hw : inWindow (coreRail rail) uV = true) :
    ∃ t, execCoreSupplyReturn rail uV s = .next t ∧ t.pwr.rail[coreRail rail] = some uV
      ∧ railOk rail t.landfall = true := by
  have due : ¬(railOk rail s.landfall || !inWindow (coreRail rail) uV) = true := by
    rw [hr, hw]
    decide
  refine ⟨_, congrArg Host.Outcome.next (if_neg due), ?_⟩
  extract_lets t u
  have hu : u.pwr.rail[coreRail rail] = some uV ∧ railOk rail u.landfall = true :=
    ⟨noteRail_rail_same s (coreRail rail) uV, railOk_setRail rail true s.landfall⟩
  split <;> exact hu

/-- A Lookout channel whose rail dips stops; the excursion is counted (R34, R298). -/
theorem execLookoutRailDip_due {s : State} {ch : Fin 2} {uV : Nat}
    (hrun : (if ch = 0 then s.lk.runA else s.lk.runB) = true) (hw : inWindow (if ch = 0 then 1 else 2) uV = false) :
    ∃ u, execLookoutRailDip ch uV s = .next (settle s u) ∧ (if ch = 0 then u.lk.runA else u.lk.runB) = false
      ∧ u.lk.agreed = false ∧ u.lk.restarting = true ∧ u.flt.supCnt = satInc 16 s.flt.supCnt
      ∧ u.flt.lastCode = 0x0302 := by
  have due : ((if ch = 0 then s.lk.runA else s.lk.runB) && !inWindow (if ch = 0 then 1 else 2) uV) = true := by
    rw [hrun, hw]
    rfl
  refine ⟨_, congrArg Host.Outcome.next (if_pos due), ?_, rfl, rfl, rfl, rfl⟩
  by_cases hch : ch = 0
  · simp only [if_pos hch]
    rfl
  · simp only [if_neg hch]
    rfl

theorem execHelmRestartEarly_due {s : State} (hu : s.landfall.helmUp = true) (hp : s.landfall.phase < 9) :
    execHelmRestartEarly s = .next (landfallRestart s) := by
  simp only [execHelmRestartEarly, hu, hp, decide_true, Bool.and_self, if_true]

/-! ### Milestones 0x01 to 0x03 -/

theorem execLookoutChannelsRunning_up {s : State} (imgA imgB : ImageChoice) (hs : supplied s = true)
    (hp : s.landfall.phase = 0) (hh : s.landfall.holdSelf = false) (ha : s.lk.runA = true) (hb : s.lk.runB = true) :
    execLookoutChannelsRunning imgA imgB s = .next (updLandfall s fun l => { l with phase := 1 }) := by
  simp [execLookoutChannelsRunning, hs, hp, hh, ha, hb]

/-- Channels that do not both run start, each with its half of an image (R35, R491). -/
theorem execLookoutChannelsRunning_start {s : State} {imgA imgB : ImageChoice} (hs : supplied s = true)
    (hp : s.landfall.phase = 0) (hh : s.landfall.holdSelf = false) (hrun : (s.lk.runA && s.lk.runB) = false)
    (ha : (bootImage s 2 imgA).fw[(2 : Fin 5)].started = true)
    (hb : (bootImage s 2 imgB).fw[(2 : Fin 5)].started = true) :
    ∃ u, execLookoutChannelsRunning imgA imgB s = .next (settle s u) ∧ u.lk.runA = true ∧ u.lk.runB = true
      ∧ u.lk.agreed = false ∧ u.landfall.phase = 1 := by
  have turn : ¬(!supplied s || decide (s.landfall.phase ≠ 0) || s.landfall.holdSelf) = true := by simp [hs, hp, hh]
  have stopped : ¬(s.lk.runA && s.lk.runB) = true := by simp [hrun]
  refine ⟨_, congrArg Host.Outcome.next ((if_neg turn).trans (if_neg stopped)), ?_⟩
  simp only [ha, hb, Bool.and_self, if_true]
  exact ⟨rfl, rfl, rfl, rfl⟩

/-- The state once Meridian has begun to meter: milestone 0x02, where 0x01 had been reached (R35). -/
def meridianMilestone (s : State) : State :=
  updLandfall s fun l => { l with phase := if l.phase = 1 then 2 else l.phase }

theorem execMeridianMeteringStart_up {s : State} (img : ImageChoice) (ht : meridianTurn s = true)
    (hf : s.mer.supplyFail = false) (hu : s.mer.up = true) :
    execMeridianMeteringStart img s = .next (settle s (meridianMilestone s)) := by
  simp only [execMeridianMeteringStart, ht, hf, hu, Bool.not_false, Bool.and_self, if_true]
  rfl

theorem execMeridianMeteringStart_down {s : State} (img : ImageChoice) (ht : meridianTurn s = true)
    (hf : s.mer.supplyFail = false) (hu : s.mer.up = false) :
    execMeridianMeteringStart img s = .next (settle s (meridianMilestone (meridianBack (startMeridian s img)))) := by
  simp only [execMeridianMeteringStart, ht, hf, hu, Bool.not_false, Bool.and_self, Bool.false_eq_true, if_true, if_false]
  rfl

theorem execHelmFirmwareStarted_turn {s : State} (img : ImageChoice) (role : Fin 4) (ht : helmTurn s = true) :
    execHelmFirmwareStarted img role s = .next (startHelm s img role) := congrArg Host.Outcome.next (if_pos ht)

theorem execHelmBootRetry_turn {s : State} (img : ImageChoice) (role : Fin 4) (ht : helmTurn s = true)
    (hr : s.landfall.helmRetry = true) : execHelmBootRetry img role s = .next (startHelm s img role) := by
  simp only [execHelmBootRetry, ht, hr, Bool.and_self, if_true]

/-! ### Milestone 0x04: the chart -/

/-- It is time to choose the chart: Helm runs on both rails with no chart in use, no hold of the chart or the straps
stands and the Landfall is no warm one (R52, R40). -/
structure ChartTurn (s : State) : Prop where
  rails : supplied s = true
  helmUp : s.landfall.helmUp = true
  unused : s.chart.inUse = none
  noChartHold : s.landfall.holdChart = false
  noStrapHold : s.landfall.holdStrap = false
  cold : s.landfall.warm = false

/-- The command's own condition, in a turn of the chart. -/
theorem ChartTurn.not_refused {s : State} (h : ChartTurn s) : ¬(!supplied s || !s.landfall.helmUp
    || s.chart.inUse.isSome || s.landfall.holdChart || s.landfall.holdStrap || s.landfall.warm) = true := by
  simp [h.rails, h.helmUp, h.unused, h.noChartHold, h.noStrapHold, h.cold]

/-- A chart flash that does not answer is rejected with reason 0x0D (Table 02-9), and the snapshot serves (R53). -/
theorem execChartSourceChosen_silent {s : State} (h : ChartTurn s) (sigOk : Bool) :
    execChartSourceChosen false sigOk s = .next (useSnapshot (rejectChart s s.fw[(4 : Fin 5)].slotB 0 0x0D)) :=
  congrArg Host.Outcome.next (if_neg h.not_refused)

/-- A chart that passes every check of its own is weighed against the snapshot (R53). -/
theorem execChartSourceChosen_sound {s : State} (h : ChartTurn s) (sigOk : Bool)
    (hv : verifyChart s (chartImage s s.fw[(4 : Fin 5)].slotB) sigOk = none) : execChartSourceChosen true sigOk s =
      .next (weighChart (reportUnknown s (chartImage s s.fw[(4 : Fin 5)].slotB)) s.fw[(4 : Fin 5)].slotB
        (chartImage s s.fw[(4 : Fin 5)].slotB)) := by
  simp only [execChartSourceChosen, if_neg h.not_refused, if_true, hv]

/-- Settles O21: clause by clause, from what each command does in the case that the clause names. -/
theorem landfallStartCompletes : Obligations.LandfallStartCompletes := by
  unfold Obligations.LandfallStartCompletes
  exact ⟨fun s => rfl,
    fun s hp => execPorstFall_due hp,
    fun s rail uV hp hr hw => execCoreSupplyDip_due hp hr hw,
    fun s rail uV hr hw => execCoreSupplyReturn_due hr hw,
    fun s ch uV hrun hw => execLookoutRailDip_due hrun hw,
    fun s hu hp => execHelmRestartEarly_due hu hp,
    fun s imgA imgB hs hp hh ha hb => execLookoutChannelsRunning_up imgA imgB hs hp hh ha hb,
    fun s imgA imgB hs hp hh hrun ha hb => execLookoutChannelsRunning_start hs hp hh hrun ha hb,
    fun s img ht hf hu => execMeridianMeteringStart_up img ht hf hu,
    fun s img ht hf hu => ⟨_, execMeridianMeteringStart_down img ht hf hu, rfl⟩,
    fun s img role ht => execHelmFirmwareStarted_turn img role ht,
    fun s img role ht hr => execHelmBootRetry_turn img role ht hr,
    fun s sigOk hs hu hc hh hk hw => execChartSourceChosen_silent ⟨hs, hu, hc, hh, hk, hw⟩ sigOk,
    fun s sigOk hs hu hc hh hk hw hv => execChartSourceChosen_sound ⟨hs, hu, hc, hh, hk, hw⟩ sigOk hv⟩

end Sys2Proof.Machine
end

section
/-!
SUPPORT. The milestones from 0x05 on, key scrubs, tamper events and the end of a first start, an equation or an effect for
each case of a command (R35 to R40, R377, R396, R417, R427, R431, R432, R438; O22).
-/
namespace Sys2Proof.Machine

/-! ### Milestones 0x05 to 0x09 -/

theorem execSextantImageLoaded_started {s : State} {img : ImageChoice} (hs : supplied s = true)
    (hp : s.landfall.phase = 4) (hh : inHold s = false) (hi : (bootImage s 1 img).fw[(1 : Fin 5)].started = true)
    (hc : s.landfall.warm = false) :
    ∃ t, execSextantImageLoaded img s = .next t ∧ t.sx.up = true ∧ t.landfall.phase = 5 := by
  have turn : (supplied s && decide (s.landfall.phase = 4) && !inHold s) = true := by simp [hs, hp, hh]
  refine ⟨_, congrArg Host.Outcome.next (if_pos turn), ?_⟩
  simp only [hc, Bool.false_and, Bool.false_eq_true, if_false, hi, if_true]
  exact ⟨rfl, rfl⟩

theorem execChartSectionsDistributed_turn {s : State} {c : Bytes} (hc : s.chart.inUse = some c)
    (hs : supplied s = true) (hp : s.landfall.phase = 5) (hh : inHold s = false) :
    execChartSectionsDistributed s = .next (settle s (updLandfall (distribute s c) fun l =>
      { l with phase := if l.hostReady then 7 else 6 })) := by
  simp only [execChartSectionsDistributed, hc, hs, hp, hh, decide_true, Bool.not_false, Bool.and_self, if_true]

/-- A full bucket holds its class's burst (R396, Table 16-3). -/
theorem fullBuckets_milli (cl : Vector ClassState 6) (k : Fin 6) : (fullBuckets cl)[k].milli = classBurst k * 1000 :=
  congrArg ClassState.milli (Vector.getElem_ofFn k.isLt)

/-- The flags of host-ready, with every bucket full (R38, R396, R406). -/
def readyFlags (s : State) : State :=
  { s with
    landfall := { s.landfall with
      hostReady := true, helmUp := true, recovering := true
      phase := if s.landfall.phase = 6 then 7 else s.landfall.phase }
    host := { s.host with cls := fullBuckets s.host.cls } }

/-- What host-ready makes of the link key and of the module's role: after a Landfall (not `plain`) a worker takes its safe
share, without one a manager listens (R372, R377, R406). -/
def readyRole (t : State) (plain : Bool) : State :=
  let u := if plain then t else loadLinkKey t
  if isManager u then (if plain then stopActing u .listening else u)
  else if plain then u else setAlloc u (pSafe u) 3

theorem keep_readyRole (t : State) (plain : Bool) :
    Keeps [.sxCell, .sxStage, .sxRest, .outlet, .txl, .ll, .mgr, .wrk] t (readyRole t plain) := by
  unfold readyRole
  extract_lets u
  have hu : Keeps [.sxCell, .sxStage, .sxRest, .outlet, .txl, .ll, .mgr, .wrk] t u :=
    Keeps.ite (Keeps.refl _ t) ((keep_loadLinkKey t).mono (by decide))
  exact Keeps.ite (Keeps.ite (hu.trans ((keep_stopActing u _).mono (by decide))) hu)
    (Keeps.ite hu (hu.trans ((keep_setAlloc u _ _).mono (by decide))))

theorem execHostReady_turn {s : State} (h : hostTurn s = true) :
    execHostReady s = .next (settle s (resumeOutlets (readyRole (readyFlags s) (decide (s.landfall.phase = 9)))
      (decide (s.landfall.phase = 9)))) :=
  congrArg Host.Outcome.next (if_pos h)

/-- Host-ready's flags and buckets hold after a Landfall and without one. -/
theorem readyRole_flags (s : State) (plain : Bool) :
    (readyRole (readyFlags s) plain).landfall.hostReady = true
      ∧ (readyRole (readyFlags s) plain).landfall.recovering = true
      ∧ (readyRole (readyFlags s) plain).landfall.helmUp = true
      ∧ ∀ k : Fin 6, (readyRole (readyFlags s) plain).host.cls[k].milli = classBurst k * 1000 := by
  have kept := keep_readyRole (readyFlags s) plain
  have hland : (readyRole (readyFlags s) plain).landfall = (readyFlags s).landfall := kept.same .landfall (by decide)
  have hcls : (readyRole (readyFlags s) plain).host.cls = fullBuckets s.host.cls :=
    congrArg Prod.fst (kept.same .hostRest (by decide))
  rw [hland, hcls]
  exact ⟨rfl, rfl, rfl, fullBuckets_milli s.host.cls⟩

theorem execSelfTestsComplete_turn {s : State} (failed : BitVec 8) (ant : Vector AntLoad 3) (paths : BitVec 5)
    (upsets : List (Fin 128 × TagUpsets)) (hs : supplied s = true) (hp : s.landfall.phase = 7) (hh : inHold s = false) :
    execSelfTestsComplete failed ant paths upsets s = .next (settle s
      (updLandfall (selfTestNews (scrubAll s upsets) failed ant paths) fun l => { l with phase := 8 })) := by
  simp only [execSelfTestsComplete, hs, hp, hh, decide_true, Bool.not_false, Bool.and_self, if_true]

/-- Milestone 0x09: the faults that a Landfall clears have cleared, and the module is Underway (R35, R37). -/
def energyReady (s : State) : State :=
  let t := clearFaults (updLandfall s fun l => { l with phase := 9 }) .helm fun c _ => c == 0x0201 || memCode c
  { t with pwr := { t.pwr with rung := .underway, quietMs := 0 } }

/-- A manager begins to listen (R377). -/
def beginListening (t : State) : State :=
  if isManager t then
    { t with mgr := { t.mgr with role := .listening, roleAt := t.mono, heardActive := false, listens := 0 } } else t

theorem execLandfallComplete_turn {s : State} (hs : supplied s = true) (hp : s.landfall.phase = 8)
    (hh : inHold s = false) : execLandfallComplete s = .next (settle s (beginListening (energyReady s))) := by
  have turn : (supplied s && decide (s.landfall.phase = 8) && !inHold s) = true := by simp [hs, hp, hh]
  exact congrArg Host.Outcome.next (if_pos turn)

/-- Milestone 0x09 changes neither the module's role nor what it holds as a manager. -/
theorem energyReady_frame (s : State) :
    (energyReady s).landfall = { s.landfall with phase := 9 } ∧ (energyReady s).mgr = s.mgr := by
  have kept := keep_clearFaults (updLandfall s fun l => { l with phase := 9 }) .helm fun c _ => c == 0x0201 || memCode c
  exact ⟨kept.same .landfall (by decide), kept.same .mgr (by decide)⟩

theorem isManager_energyReady (s : State) : isManager (energyReady s) = isManager s := by
  simp only [isManager, (energyReady_frame s).1]

/-- After Landfall a manager listens, and a worker's manager state is as it was. -/
theorem beginListening_energyReady (s : State) :
    (beginListening (energyReady s)).landfall.phase = 9 ∧ (beginListening (energyReady s)).pwr.rung = .underway
      ∧ (isManager s = true → (beginListening (energyReady s)).mgr.role = .listening)
      ∧ (isManager s = false → (beginListening (energyReady s)).mgr = s.mgr) := by
  obtain ⟨hland, hmgr⟩ := energyReady_frame s
  have hphase : (energyReady s).landfall.phase = 9 := congrArg Landfall.phase hland
  unfold beginListening
  rw [isManager_energyReady]
  cases isManager s with
  | true => exact ⟨hphase, rfl, fun _ => rfl, fun h => Bool.noConfusion h⟩
  | false => exact ⟨hphase, rfl, fun h => Bool.noConfusion h, fun _ => hmgr⟩

/-! ### Key scrubs and tamper events -/

theorem execKeyScrub_due {s : State} (up : TagUpsets) (hu : s.landfall.helmUp = true) (hr : s.pwr.rung.code < 3)
    (hb : suspended s 3 = false) (ht : s.flt.keyAt + 675000 ≤ s.flt.underMs) :
    ∃ t, execKeyScrub up s = .next t ∧ t.locker.scrubPos = (s.locker.scrubPos + 1) % 128 := by
  have due : (s.landfall.helmUp && decide (s.pwr.rung.code < 3) && !suspended s 3
      && decide (s.flt.keyAt + 675000 ≤ s.flt.underMs)) = true := by
    simp [hu, hr, hb, ht]
  exact ⟨_, congrArg Host.Outcome.next (if_pos due), rfl⟩

/-- The event captured, the key operations in progress ended with TAMPER, and a temperature's excursion noted (R431, R432,
Table 18-5). -/
def tamperCaptured (s : State) (src : BitVec 8) : State :=
  let t := abortKeyOps (captureTamper s src)
  if src.getLsbD 7 then { t with flt := { t.flt with ratingsOk := false } } else t

/-- The answer of Table 17-6, to be given now or, in a module that was `asleep` in `s`, at Helm's next start. -/
def answerTamper (s t : State) (src : BitVec 8) : State :=
  if asleep s then { t with tamper := { t.tamper with pendingHold := true } }
  else
    let t := logDetect t (Config.eventCode 432) .helm src.toNat
    if s.landfall.holdTamper then t
    else if s.landfall.phase < 9 then enterTamperHold (eraseKeys t)
    else eraseKeys t

theorem execTamperEvent_shown {s : State} {x : TamperSense} (hx : tamperShown s x ≠ 0)
    (hv : s.pwr.onVbat = false ∨ s.pwr.vbat = true)
    (hc : s.flt.island[(7 : Fin 17)].lost = false ∨ s.landfall.helmUp = true) : execTamperEvent x s =
      .next (answerTamper s (tamperCaptured s (tamperShown s x)) (tamperShown s x)) := by
  have powered : (s.pwr.onVbat && !s.pwr.vbat) = false := by
    rcases hv with h | h
    · rw [h, Bool.false_and]
    · rw [h, Bool.not_true, Bool.and_false]
  have sampled : (s.flt.island[(7 : Fin 17)].lost && !s.landfall.helmUp) = false := by
    rcases hc with h | h
    · rw [h, Bool.false_and]
    · rw [h, Bool.not_true, Bool.and_false]
  have shown : ¬(decide (tamperShown s x = 0) || (s.pwr.onVbat && !s.pwr.vbat)
      || (s.flt.island[(7 : Fin 17)].lost && !s.landfall.helmUp)) = true := by
    rw [powered, sampled, decide_eq_false hx]
    decide
  exact congrArg Host.Outcome.next (if_neg shown)

/-- What ends the key operations leaves the capture as it is. -/
theorem tamperCaptured_tamper (s : State) (src : BitVec 8) :
    (tamperCaptured s src).tamper = (captureTamper s src).tamper := by
  have kept : (abortKeyOps (captureTamper s src)).tamper = (captureTamper s src).tamper :=
    (keep_abortKeyOps _).same .tamper (by decide)
  unfold tamperCaptured
  split <;> exact kept

/-- The answer leaves the capture as it is, but for the hold that waits for a module asleep. -/
theorem answerTamper_tamper (s t : State) (src : BitVec 8) :
    (answerTamper s t src).tamper = { t.tamper with pendingHold := asleep s || t.tamper.pendingHold } := by
  have erased : ∀ u, (eraseKeys u).tamper = u.tamper := fun u => (keep_eraseKeys u).same .tamper (by decide)
  have held : ∀ u, (enterTamperHold u).tamper = u.tamper := fun u => (keep_enterTamperHold u).same .tamper (by decide)
  unfold answerTamper
  cases asleep s with
  | true => rfl
  | false =>
    rw [if_neg Bool.false_ne_true]
    dsimp only
    split
    · rfl
    · split
      · rw [held, erased]
        rfl
      · rw [erased]
        rfl

/-- A tamper event that is shown is captured, whether or not the module can answer it now (R431, R432). -/
theorem execTamperEvent_captured {s : State} {x : TamperSense} (hx : tamperShown s x ≠ 0)
    (hv : s.pwr.onVbat = false ∨ s.pwr.vbat = true)
    (hc : s.flt.island[(7 : Fin 17)].lost = false ∨ s.landfall.helmUp = true) :
    ∃ t, execTamperEvent x s = .next t ∧ t.tamper.sources = s.tamper.sources ||| tamperShown s x
      ∧ t.tamper.cnt = satInc 8 s.tamper.cnt ∧ t.tamper.time = s.now := by
  refine ⟨_, execTamperEvent_shown hx hv hc, ?_⟩
  rw [answerTamper_tamper, tamperCaptured_tamper]
  exact ⟨rfl, rfl, rfl⟩

/-! ### The end of a first start -/

theorem execFirstStartSuccess_ready {s : State} {target : Fin 5} (h : firstStarting s target = true) :
    execFirstStartSuccess target s = .next (settle s (startSucceeds s target)) :=
  congrArg Host.Outcome.next (if_pos h)

theorem execFirstStartFailure_activating {s : State} {target : Fin 5} (ha : s.fw[target].activating = true)
    (ht : target ≠ 4) : execFirstStartFailure target s = .next (settle s (startFails s target)) :=
  congrArg Host.Outcome.next (if_pos ⟨ha, ht⟩)

/-- Settles O22: clause by clause, from what each command does in the case that the clause names. -/
theorem landfallEndCompletes : Obligations.LandfallEndCompletes := by
  unfold Obligations.LandfallEndCompletes
  exact ⟨fun s img hs hp hh hi hc => execSextantImageLoaded_started hs hp hh hi hc,
    fun s c hc hs hp hh => execChartSectionsDistributed_turn hc hs hp hh,
    fun s h => ⟨_, execHostReady_turn h, readyRole_flags s _⟩,
    fun s failed ant paths upsets hs hp hh => execSelfTestsComplete_turn failed ant paths upsets hs hp hh,
    fun s hs hp hh => ⟨_, execLandfallComplete_turn hs hp hh, beginListening_energyReady s⟩,
    fun s slot => rfl,
    fun s up hu hr hb ht => execKeyScrub_due up hu hr hb ht,
    fun s x hx hv hc => execTamperEvent_captured hx hv hc,
    fun s x => rfl,
    fun s target h => execFirstStartSuccess_ready h,
    fun s target ha ht => execFirstStartFailure_activating ha ht⟩

end Sys2Proof.Machine
end

section
/-!
SUPPORT. The power ladder and VBAT, an equation or an effect for each case of a command (R40, R243, R465, R471 to R473,
R475, Table 20-4; O23).
-/
namespace Sys2Proof.Machine

/-! ### Down -/

theorem execRungDown_due {s : State} {r : Rung} (hb : s.pwr.rung.below = some r) (hf : r.code ≤ lowestRung s)
    (hq : quiet s r = true) (ht : cfgN s 0xA0 0 0x000 15 0 * 1000 ≤ s.pwr.quietMs) :
    execRungDown s = .next (enterRung s r) := by
  simp only [execRungDown, hb, if_pos (And.intro hf (And.intro hq ht))]

/-- Before IDLE_T has passed no rung is left, whichever it is (R472). -/
theorem execRungDown_early {s : State} (ht : s.pwr.quietMs < cfgN s 0xA0 0 0x000 15 0 * 1000) :
    execRungDown s = .next s := by
  unfold execRungDown
  cases s.pwr.rung.below with
  | none => rfl
  | some r => exact congrArg Host.Outcome.next (if_neg fun h => absurd h.2.2 (Nat.not_le_of_lt ht))

/-! ### Up -/

theorem execQuietConditionCeases_due {s : State} (hr : s.pwr.rung = .hoveTo ∨ s.pwr.rung = .anchored)
    (hq : quiet s s.pwr.rung = false) : execQuietConditionCeases s =
      .next { s with pwr := { s.pwr with rung := .underway, quietMs := 0 } } :=
  congrArg Host.Outcome.next (if_pos ⟨hr, hq⟩)

theorem wake_anchored_frame {s : State} (hr : s.pwr.rung = .anchored) : wake s .frame = wakeTo s .frame := by
  rw [wake, hr]
  exact if_pos rfl

theorem wake_moored_pin {s : State} (hr : s.pwr.rung = .moored) (he : cfgB s 0xA0 0 0x008 0 = true) :
    wake s .pin = leaveMoored s .pin := by
  have enabled : wakeEnabled s .pin = true := he
  rw [wake, hr, enabled]
  exact if_pos rfl

/-- The alarm wakes a module that is off but for Meridian, or for its Chronometer: a warm Landfall (R40, R471). -/
theorem wake_off_alarm {s : State} (hr : s.pwr.rung = .laidUp ∨ s.pwr.rung = .dark)
    (he : cfgB s 0xA0 0 0x008 2 = true) : wake s .alarm = warmLandfall s .alarm := by
  have enabled : wakeEnabled s .alarm = true := he
  rcases hr with hr | hr
  · rw [wake, hr, enabled]
    exact if_pos rfl
  · rw [wake, hr, enabled]
    exact if_pos rfl

/-! ### VBAT -/

/-- VDD_MCORE and VDDIO measured (RAIL_3 and RAIL_5 of Table 19-5). -/
theorem railsMeasured (v : Vector (Option Nat) 9) (mcore io : Nat) :
    ((v.set 3 (some mcore)).set 5 (some io))[(3 : Fin 9)] = some mcore
      ∧ ((v.set 3 (some mcore)).set 5 (some io))[(5 : Fin 9)] = some io := by
  constructor <;> simp

theorem starve_pwr (s : State) : (starve s).pwr = s.pwr := (keep_starve s).same .pwr (by decide)

/-- On VBAT alone the Chronometer runs on as long as VBAT supplies it (R475). -/
theorem starve_running {s : State} (h : s.pwr.onVbat = true) :
    (starve s).mer.chr.running = (s.mer.chr.running && s.pwr.vbat) := by
  unfold starve
  rw [h]
  cases s.pwr.vbat with
  | true => exact (Bool.and_true _).symm
  | false => exact (Bool.and_false _).symm

theorem starve_mains {s : State} (h : s.pwr.onVbat = false) : starve s = s := by
  simp only [starve, h, Bool.false_and, Bool.false_eq_true, if_false]

theorem execVbatSwitchover_due {s : State} {mcore io : Nat} (h : mcore < 810000 ∨ io < 1500000) :
    ∃ t, execVbatSwitchover mcore io s = .next t ∧ t.pwr.onVbat = true ∧ t.pwr.rail[(3 : Fin 9)] = some mcore
      ∧ t.pwr.rail[(5 : Fin 9)] = some io ∧ t.mer.chr.running = (s.mer.chr.running && s.pwr.vbat) := by
  obtain ⟨h3, h5⟩ := railsMeasured s.pwr.rail mcore io
  refine ⟨_, congrArg Host.Outcome.next (if_pos h), ?_⟩
  rw [starve_pwr]
  exact ⟨rfl, h3, h5, starve_running rfl⟩

theorem execMainRailsReturn_due {s : State} {mcore io : Nat} (hm : inWindow 3 mcore = true) (hi : inWindow 5 io = true) :
    ∃ t, execMainRailsReturn mcore io s = .next t ∧ t.pwr.onVbat = false ∧ t.mer = s.mer
      ∧ t.pwr.rail[(3 : Fin 9)] = some mcore ∧ t.pwr.rail[(5 : Fin 9)] = some io := by
  have due : (inWindow 3 mcore && inWindow 5 io) = true := by
    rw [hm, hi]
    rfl
  obtain ⟨h3, h5⟩ := railsMeasured s.pwr.rail mcore io
  exact ⟨_, congrArg Host.Outcome.next (if_pos due), rfl, rfl, h3, h5⟩

theorem execVbatLoss_alone {s : State} (h : s.pwr.onVbat = true) :
    ∃ t, execVbatLoss s = .next t ∧ t.pwr.vbat = false ∧ t.mer.chr.running = false := by
  refine ⟨_, rfl, ?_, ?_⟩
  · rw [starve_pwr]
  · exact (starve_running (s := { s with pwr := { s.pwr with vbat := false } }) h).trans (Bool.and_false _)

theorem execVbatLoss_mains {s : State} (h : s.pwr.onVbat = false) :
    execVbatLoss s = .next { s with pwr := { s.pwr with vbat := false } } :=
  congrArg Host.Outcome.next (starve_mains h)

/-- Settles O23: clause by clause, from what each command does in the case that the clause names. -/
theorem powerCompletes : Obligations.PowerCompletes := by
  unfold Obligations.PowerCompletes
  exact ⟨fun s r hb hf hq ht => execRungDown_due hb hf hq ht,
    fun s hr hq hf ht => execRungDown_due (r := .anchored) (by rw [hr]; rfl) hf hq ht,
    fun s ht => execRungDown_early ht,
    fun s hr hq => execQuietConditionCeases_due hr hq,
    fun s hr => congrArg Host.Outcome.next (wake_anchored_frame hr),
    fun s hr he => congrArg Host.Outcome.next (wake_moored_pin hr he),
    fun s hr he => congrArg Host.Outcome.next (wake_off_alarm (.inl hr) he),
    fun s hr he => congrArg Host.Outcome.next (wake_off_alarm (.inr hr) he),
    fun s mcore io h => execVbatSwitchover_due h,
    fun s mcore io hm hm' hi hi' => execMainRailsReturn_due (decide_eq_true ⟨hm, hm'⟩) (decide_eq_true ⟨hi, hi'⟩),
    fun s h => execVbatLoss_alone h,
    fun s h => execVbatLoss_mains h⟩

end Sys2Proof.Machine
end

section
/-!
SUPPORT. The dies' faults, memory errors, scrubs, analog supplies and the logbook, an equation or an effect for each case
of a command (R63 to R65, R406, R445 to R449, R468; O24).
-/
namespace Sys2Proof.Machine

/-! ### Core faults -/

/-- A fault in a die whose activation is not under way meets its reaction (R451). -/
theorem dieFault_running {s : State} {i : Fin 5} (react : State → State) (h : s.fw[i].activating = false) :
    dieFault s i react = react s := if_neg (by rw [h]; decide)

/-- The record of a fault changes no firmware target. -/
theorem logDetect_activating (s : State) (code : Nat) (src : LogSrc) (arg : Nat) (i : Fin 5) :
    (logDetect s code src arg).fw[i].activating = s.fw[i].activating :=
  congrArg (fun v => v[i].activating) ((keep_logDetect s code src arg).same .fw (by decide))

@[simp] theorem logClear_sx (s : State) (code : Nat) (src : LogSrc) (arg : Nat) :
    (logClear s code src arg).sx = s.sx := by
  simp [logClear]

@[simp] theorem logClear_island (s : State) (code : Nat) (src : LogSrc) (arg : Nat) :
    (logClear s code src arg).flt.island = s.flt.island := by
  simp [logClear]

/-- Faults that clear change the log and the list of open faults, neither Sextant nor an island. -/
theorem clearFaults_frame (s : State) (src : LogSrc) (p : Nat → Nat → Bool) :
    (clearFaults s src p).sx = s.sx ∧ (clearFaults s src p).flt.island = s.flt.island := by
  unfold clearFaults
  generalize s.flt.opens.filter (fun x => x.src == src.code && p x.code x.arg) = l
  induction l generalizing s with
  | nil => exact ⟨rfl, rfl⟩
  | cons x l ih =>
    obtain ⟨hsx, hisland⟩ := ih (logClear s x.code src x.arg)
    rw [List.foldl_cons, hsx, hisland]
    exact ⟨logClear_sx .., logClear_island ..⟩

theorem execHelmCorePairMismatch_up {s : State} (hu : s.landfall.helmUp = true)
    (ha : s.fw[(0 : Fin 5)].activating = false) :
    execHelmCorePairMismatch s = .next (helmRestart (logDetect (markCoreFault s) 0x0201 .helm 0)) := by
  have due : (s.landfall.helmUp || s.fw[(0 : Fin 5)].activating) = true := by rw [hu, Bool.true_or]
  exact congrArg Host.Outcome.next ((if_pos due).trans
    (dieFault_running helmRestart ((logDetect_activating ..).trans ha)))

/-- A latch recorded is a fact of the stages alone. -/
theorem LatchedBy.of_stage {s t : State} {g : Fin 8} {c : LatchCause} (h : LatchedBy s g c)
    (e : t.sx.stage = s.sx.stage) : LatchedBy t g c := by
  unfold LatchedBy at h ⊢
  rwa [e]

/-- A latch of one stage leaves the others. -/
theorem latchStage_other (s : State) {g h : Fin 8} (c : LatchCause) (ne : h ≠ g) :
    (latchStage s h c).sx.stage[g] = s.sx.stage[g] := by
  unfold latchStage
  split
  · rfl
  · unfold stageLatched
    extract_lets was t u
    have ht : t.sx.stage[g] = s.sx.stage[g] := upd_other _ h g _ ne
    have of_stage : ∀ x : State, x.sx.stage = t.sx.stage → x.sx.stage[g] = s.sx.stage[g] := fun x e =>
      (congrArg (fun v => v[g]) e).trans ht
    have hu : u.sx.stage = t.sx.stage := (keep_parkChannels t h _).same .sxStage (by decide)
    split
    · exact ht
    · refine of_stage _ (((keep_afeDrop _ h).same .sxStage (by decide)).trans (Eq.trans ?_ hu))
      split
      · rfl
      · exact (keep_detectFab u _ _ _).same .sxStage (by decide)

/-- A latch of a stage that is not OFF is recorded (R116, R136). -/
theorem latchStage_same {s : State} {g : Fin 8} (c : LatchCause) (h : s.sx.stage[g].st ≠ .off) :
    LatchedBy (latchStage s g c) g c := by
  rw [latchStage, if_neg fun e => h e.1]
  exact stageLatched_latched s g c

/-- Every stage of a list latched. -/
def latchEach (c : LatchCause) (l : List (Fin 8)) (s : State) : State := l.foldl (fun w g => latchStage w g c) s

/-- Latching every stage of a list latches those of them that are not OFF. -/
theorem latchEach_latched {g : Fin 8} {c : LatchCause} (l : List (Fin 8)) {s : State} (hoff : s.sx.stage[g].st ≠ .off)
    (h : g ∈ l ∨ LatchedBy s g c) : LatchedBy (latchEach c l s) g c := by
  induction l generalizing s with
  | nil => exact h.resolve_left List.not_mem_nil
  | cons k l ih =>
    by_cases hk : k = g
    · subst hk
      have latched := latchStage_same c hoff
      exact ih (by rw [latched.1]; decide) (.inr latched)
    · have same := latchStage_other s c hk
      refine ih (by rwa [same]) (h.imp (fun hm => (List.mem_cons.mp hm).resolve_left (Ne.symm hk)) fun hl => ?_)
      unfold LatchedBy
      rwa [same]

/-- What follows from latching every stage leaves each of them that was not OFF latched (R116, R136). -/
theorem withStages_latchEach {s : State} {g : Fin 8} (c : LatchCause) (h : s.sx.stage[g].st ≠ .off) :
    LatchedBy (withStages s (latchEach c (List.finRange 8))) g c := by
  have hlatched : LatchedBy (latchEach c (List.finRange 8) s) g c :=
    latchEach_latched (List.finRange 8) h (.inl (List.mem_finRange g))
  obtain ⟨hst, -, -, hmask⟩ :=
    withStages_keepsResting g s (latchEach c (List.finRange 8)) (.inr (.inl hlatched.1))
  exact ⟨hst.trans hlatched.1, by rw [hmask]; exact hlatched.2⟩

/-- The trip latches every stage that is not OFF with cause INTERNAL; the drives' limits change no stage (R446). -/
theorem sextantTrip_latched {s : State} {g : Fin 8} (h : s.sx.stage[g].st ≠ .off) :
    LatchedBy (sextantTrip s) g .internal := by
  have limits : Keeps [.sxRest] (withStages s (latchEach .internal (List.finRange 8)))
      (((List.finRange 96).filter (lawEn s)).foldl coolToLimit (withStages s (latchEach .internal (List.finRange 8)))) :=
    Keeps.foldl (Keeps.refl _ _) fun w i hw => hw.trans (keep_coolToLimit w i)
  exact (withStages_latchEach .internal h).of_stage (limits.same .sxStage (by decide))

theorem execSextantCoreMismatch_up {s : State} (hu : s.sx.up = true) (ha : s.fw[(1 : Fin 5)].activating = false) :
    execSextantCoreMismatch s = .next (sextantTrip (logDetect (markCoreFault s) 0x0202 .sextant 0)) := by
  have due : (s.sx.up || s.fw[(1 : Fin 5)].activating) = true := by rw [hu, Bool.true_or]
  exact congrArg Host.Outcome.next ((if_pos due).trans
    (dieFault_running sextantTrip ((logDetect_activating ..).trans ha)))

/-- The supervisory core of a clocked Sextant with its image runs again, and nothing else of the die changes (R446). -/
theorem sextantBack_started {s : State} (hi : s.fw[(1 : Fin 5)].started = true)
    (ha : s.fw[(1 : Fin 5)].activating = false) (hh : s.landfall.holdTamper = false) (hc : sextantClocked s = true) :
    (sextantBack s).sx = { s.sx with up := true } := by
  have due : (s.fw[(1 : Fin 5)].started && !s.fw[(1 : Fin 5)].activating && !s.landfall.holdTamper && sextantClocked s)
      = true := by
    rw [hi, ha, hh, hc]
    rfl
  rw [sextantBack, if_pos due, (clearFaults_frame ..).1]

theorem execSextantSupervisorRestart_down {s : State} (hu : s.sx.up = false) (hp : 5 ≤ s.landfall.phase) :
    execSextantSupervisorRestart s = .next (sextantBack s) := by
  simp only [execSextantSupervisorRestart, hu, hp, Bool.not_false, decide_true, Bool.and_self, if_true]

theorem execMeridianCoreFault_up {s : State} (hu : s.mer.up = true) (ha : s.fw[(3 : Fin 5)].activating = false) :
    execMeridianCoreFault s = .next (meridianReset (logDetect s 0x0203 .meridian 0)) := by
  have due : (s.mer.up || s.fw[(3 : Fin 5)].activating) = true := by rw [hu, Bool.true_or]
  exact congrArg Host.Outcome.next ((if_pos due).trans
    (dieFault_running meridianReset ((logDetect_activating ..).trans ha)))

/-- Meridian's restart keeps what it last committed (R230). -/
theorem meridianReset_effect (s : State) : (meridianReset s).mer.up = false ∧ (meridianReset s).mer.saved = s.mer.saved
    ∧ (meridianReset s).flt = s.flt :=
  ⟨rfl, rfl, rfl⟩

theorem execMeridianCoreFault_effect {s : State} (hu : s.mer.up = true) (ha : s.fw[(3 : Fin 5)].activating = false) :
    ∃ t, execMeridianCoreFault s = .next t ∧ t.mer.up = false ∧ t.mer.saved = s.mer.saved
      ∧ t.flt.lastCode = 0x0203 := by
  obtain ⟨hup, hsaved, hflt⟩ := meridianReset_effect (logDetect s 0x0203 .meridian 0)
  refine ⟨_, execMeridianCoreFault_up hu ha, hup, ?_, ?_⟩
  · rw [hsaved, logDetect_mer]
  · rw [hflt, logDetect_lastCode]

/-! ### Island clocks -/

theorem execIslandClockLoss_up {s : State} {isl : Fin 17} (clk : BitVec 8) (hu : islandDieUp s isl = true)
    (ha : s.fw[islandDie isl].activating = false) (hl : s.flt.island[isl].lost = false)
    (ho : s.flt.island[isl].off = false) :
    ∃ u, execIslandClockLoss isl clk s = .next (islandReaction u isl clk) ∧ u.flt.islCnt = satInc 16 s.flt.islCnt
      ∧ u.flt.lastCode = 0x0301 := by
  have due : ((islandDieUp s isl || s.fw[islandDie isl].activating) && !s.flt.island[isl].lost && !s.flt.island[isl].off)
      = true := by
    rw [hu, ha, hl, ho]
    rfl
  exact ⟨_, congrArg Host.Outcome.next ((if_pos due).trans
    (dieFault_running _ ((logDetect_activating ..).trans ha))), rfl, rfl⟩

theorem sextantBack_island (s : State) : (sextantBack s).flt.island = s.flt.island := by
  unfold sextantBack
  split
  · exact (clearFaults_frame ..).2
  · rfl

/-- An island whose clock runs again is lost no longer (R447). -/
theorem islandBack_island (s : State) (isl : Fin 17) :
    (islandBack s isl).flt.island = upd s.flt.island isl fun y => { y with lost := false, tries := 0 } := by
  unfold islandBack
  extract_lets t f u
  have hu : u.flt.island = t.flt.island := by
    unfold u
    split <;> rfl
  split
  · exact (sextantBack_island u).trans hu
  · exact hu

section

variable {s : State} {isl : Fin 17} (hl : s.flt.island[isl].lost = true) (ho : s.flt.island[isl].off = false)

include hl ho

/-- A lost island that is not off is restarted. -/
theorem island_restarts : ¬(!s.flt.island[isl].lost || s.flt.island[isl].off) = true := by
  rw [hl, ho]
  decide

theorem execIslandRestart_ok (ht : 12 ≤ isl.val ∨ s.flt.island[isl].at_ + 250 ≤ s.mono) :
    execIslandRestart isl true s = .next (islandBack s isl) := by
  refine congrArg Host.Outcome.next ((if_neg (island_restarts hl ho)).trans ?_)
  by_cases h12 : 12 ≤ isl.val
  · exact (if_pos h12).trans (if_pos rfl)
  · exact (if_neg h12).trans ((if_neg (Nat.not_lt.mpr (ht.resolve_left h12))).trans (if_pos rfl))

/-- A fourth restart that fails leaves an island of Helm's or Sextant's off (R447). -/
theorem execIslandRestart_fourth (h12 : isl.val < 12) (h3 : 3 ≤ s.flt.island[isl].tries)
    (ht : s.flt.island[isl].at_ + 250 ≤ s.mono) : ∃ t, execIslandRestart isl false s = .next t
      ∧ t.flt.island[isl].off = true ∧ t.flt.islOff = isl.val + 1 := by
  refine ⟨_, congrArg Host.Outcome.next ((if_neg (island_restarts hl ho)).trans ((if_neg (Nat.not_le.mpr h12)).trans
    ((if_neg (Nat.not_lt.mpr ht)).trans ((if_neg Bool.false_ne_true).trans (if_pos h3))))), ?_, rfl⟩
  exact congrArg Island.off (upd_same ..)

end

/-! ### Memory errors and scrubs -/

/-- A double-bit error counted, with a core fault for the health word (R448, Table 15-4). -/
def countDouble (s : State) : State := { markCoreFault s with flt := { s.flt with ded := satInc 16 s.flt.ded } }

/-- An error in a structure held twice is masked: counted and logged, and nothing more (R448). -/
theorem execDoubleBitError_heldTwice (s : State) (n : Nat) :
    execDoubleBitError (.heldTwice n) false s = .next (logMasked (countDouble s) 0x0102 .helm n) := rfl

/-- A masked error logged changes neither Landfall nor a die. -/
theorem logMasked_countDouble (s : State) (code : Nat) (src : LogSrc) (arg : Nat) :
    (logMasked (countDouble s) code src arg).flt.ded = satInc 16 s.flt.ded
      ∧ (logMasked (countDouble s) code src arg).landfall = s.landfall
      ∧ (logMasked (countDouble s) code src arg).sx = s.sx ∧ (logMasked (countDouble s) code src arg).lk = s.lk
      ∧ (logMasked (countDouble s) code src arg).mer = s.mer := by
  simp [logMasked, countDouble, markCoreFault]

/-- An error in Helm SRAM, with one bit drawn for what it has hit (log 28). -/
def helmSramHit (s : State) : State :=
  let d := drawBit s
  { d.2 with outlet := d.2.outlet.map fun x => { x with ctxOk := x.ctxOk && d.1 } }

/-- The bit drawn is one free value; faults and health are as they were. -/
theorem helmSramHit_effect (s : State) : (helmSramHit s).flt = s.flt ∧ (helmSramHit s).mgr = s.mgr
    ∧ (helmSramHit s).free = s.free + 1 :=
  ⟨rfl, rfl, rfl⟩

/-- What is counted, logged and drawn before Helm's restart. -/
theorem helmSramHit_countDouble (s : State) (arg : Nat) :
    (helmSramHit (logDetect (countDouble s) 0x0102 .helm arg)).flt.ded = satInc 16 s.flt.ded
      ∧ (helmSramHit (logDetect (countDouble s) 0x0102 .helm arg)).flt.lastCode = 0x0102
      ∧ (helmSramHit (logDetect (countDouble s) 0x0102 .helm arg)).mgr.coreFaultAt = some s.mono
      ∧ (helmSramHit (logDetect (countDouble s) 0x0102 .helm arg)).free = s.free + 1 := by
  obtain ⟨hflt, hmgr, hfree⟩ := helmSramHit_effect (logDetect (countDouble s) 0x0102 .helm arg)
  rw [hflt, hmgr, hfree]
  simp [logDetect, openFault, countDouble, markCoreFault]

/-- An error in Helm SRAM restarts Helm (R448). -/
theorem execDoubleBitError_helmSram {s : State} (ha : s.fw[(0 : Fin 5)].activating = false) :
    execDoubleBitError .helmSram false s =
      .next (helmRestart (helmSramHit (logDetect (countDouble s) 0x0102 .helm 0))) := by
  have inactive : (helmSramHit (logDetect (countDouble s) 0x0102 .helm 0)).fw[(0 : Fin 5)].activating = false :=
    (logDetect_activating (countDouble s) 0x0102 .helm 0 0).trans ha
  exact congrArg Host.Outcome.next (dieFault_running helmRestart inactive)

theorem execDoubleBitError_unscrubbed {s : State} {p : MemPlace} (h : scrubs s (scrubberOf p) = false) :
    execDoubleBitError p true s = .next s := by
  have skipped : (true && !scrubs s (scrubberOf p)) = true := by
    rw [h]
    rfl
  exact congrArg Host.Outcome.next (if_pos skipped)

/-- The end of a pass leaves the count of corrected errors. -/
theorem endPass_corr (s : State) (m : Scrubber) : (endPass s m).flt.corr = s.flt.corr := by
  unfold endPass
  extract_lets i f
  split
  · rfl
  · cases m <;> rfl

theorem execScrubPass_corrected {s : State} {m : Scrubber} {n : Nat} (passEnd : Bool) (h : scrubs s m = true)
    (hn : n ≠ 0) : ∃ t, execScrubPass m passEnd n s = .next t ∧ t.flt.corr = min 65535 (s.flt.corr + n) := by
  refine ⟨_, congrArg Host.Outcome.next (if_pos h), ?_⟩
  rw [if_neg hn]
  cases passEnd with
  | true => exact endPass_corr _ m
  | false => rfl

/-! ### Analog supplies -/

/-- An analog rail measured out of its window: logged, and counted as an excursion (R468, Table 18-5). -/
def analogDipped (s : State) (rf : Bool) (uV : Nat) : State :=
  excursion (logDetect (noteRail s (analogRail rf) uV) 0x0302 .helm (analogRail rf))

theorem execAnalogSupplyDip_rf {s : State} {uV : Nat} (hok : s.landfall.vddRf = true) (hw : inWindow 7 uV = false) :
    execAnalogSupplyDip true uV s =
      .next (fieldOff (updLandfall (analogDipped s true uV) fun l => { l with vddRf := false })) := by
  have due : (analogOk s true && !inWindow (analogRail true) uV) = true := Bool.and_eq_true_iff.mpr ⟨hok, by
    rw [analogRail, if_pos rfl, hw]
    rfl⟩
  exact congrArg Host.Outcome.next ((if_pos due).trans (if_pos rfl))

theorem execAnalogSupplyDip_vdda {s : State} {uV : Nat} (hok : s.landfall.vdda = true) (hw : inWindow 6 uV = false) :
    execAnalogSupplyDip false uV s = .next (settle s (vddaLost (analogDipped s false uV))) := by
  have due : (analogOk s false && !inWindow (analogRail false) uV) = true := Bool.and_eq_true_iff.mpr ⟨hok, by
    rw [analogRail, if_neg Bool.false_ne_true, hw]
    rfl⟩
  exact congrArg Host.Outcome.next ((if_pos due).trans (if_neg Bool.false_ne_true))

/-- With the field off no window is open; the supplies and the faults stay as they were. -/
theorem fieldOff_effect (s : State) : (fieldOff s).rdr.field = false ∧ (fieldOff s).rdr.window = none
    ∧ (fieldOff s).landfall = s.landfall ∧ (fieldOff s).flt = s.flt :=
  ⟨rfl, rfl, (keep_fieldOff s).same .landfall (by decide), (keep_fieldOff s).same .flt (by decide)⟩

/-- The reader's supply lost: its field is off, and the dip is logged (R468, Table 18-1). -/
theorem execAnalogSupplyDip_rf_effect {s : State} {uV : Nat} (hok : s.landfall.vddRf = true)
    (hw : inWindow 7 uV = false) : ∃ t, execAnalogSupplyDip true uV s = .next t ∧ t.landfall.vddRf = false
      ∧ t.rdr.field = false ∧ t.rdr.window = none ∧ t.flt.lastCode = 0x0302 := by
  obtain ⟨hfield, hwindow, hland, hflt⟩ :=
    fieldOff_effect (updLandfall (analogDipped s true uV) fun l => { l with vddRf := false })
  refine ⟨_, execAnalogSupplyDip_rf hok hw, ?_, hfield, hwindow, ?_⟩
  · rw [hland]
    rfl
  · rw [hflt]
    rfl

theorem execAnalogSupplyReturn_due {s : State} {rf : Bool} {uV : Nat} (hok : analogOk s rf = false)
    (hw : inWindow (analogRail rf) uV = true) :
    ∃ t, execAnalogSupplyReturn rf uV s = .next t ∧ analogOk t rf = true := by
  have due : ¬(analogOk s rf || !inWindow (analogRail rf) uV) = true := by
    rw [hok, hw]
    decide
  refine ⟨_, congrArg Host.Outcome.next (if_neg due), ?_⟩
  cases rf <;> rfl

/-! ### The logbook -/

/-- Where a record goes depends neither on what waits nor on what the days before have logged (R63). -/
theorem addRecord_waiting_week (l : Logbook) (w : List LogItem) (days : List (Nat × Nat)) (x : LogItem) :
    addRecord { l with waiting := w, week := days } x = { addRecord l x with waiting := w, week := days } := by
  unfold addRecord
  dsimp only
  cases l.ring.find? fun b => some b.seq == l.cur with
  | none => rfl
  | some b =>
    dsimp only
    split <;> rfl

/-- A record written with a usable logbook goes to the ring, and no longer waits (R63). -/
theorem storeRecord_usable {s : State} (x : LogItem) (hf : s.log.fault = false) :
    (storeRecord s x).log.waiting = s.log.waiting.drop 1 ∧ (storeRecord s x).log.ring = (addRecord s.log x).ring := by
  have usable : ¬s.log.fault = true := by rw [hf]; decide
  have hlog : (storeRecord s x).log = projectLife (s.nowNs / 86400000000000) (addRecord { s.log with
      waiting := s.log.waiting.drop 1, week := noteBytes (s.nowNs / 86400000000000) x.size s.log.week } x) :=
    congrArg State.log (if_neg usable)
  rw [hlog, addRecord_waiting_week]
  exact ⟨rfl, rfl⟩

/-- A record written without a usable logbook goes to SRAM, and no longer waits (R65). -/
theorem storeRecord_fault {s : State} (x : LogItem) (hf : s.log.fault = true) :
    (storeRecord s x).log.waiting = s.log.waiting.drop 1 ∧ (storeRecord s x).log.ring = s.log.ring
      ∧ (storeRecord s x).log.sram = fitSram s.log.sram.length (s.log.sram ++ [x]) := by
  have hlog : (storeRecord s x).log = { s.log with
      waiting := s.log.waiting.drop 1, week := noteBytes (s.nowNs / 86400000000000) x.size s.log.week
      sram := fitSram s.log.sram.length (s.log.sram ++ [x]) } := congrArg State.log (if_pos hf)
  rw [hlog]
  exact ⟨rfl, rfl, rfl⟩

/-- The NOTICE of a fault's record leaves the log (R452). -/
theorem writeRecord_log (s : State) (x : LogItem) : (writeRecord s x).log = (storeRecord s x).log := by
  unfold writeRecord
  extract_lets t
  split
  · split
    · rfl
    · exact (keep_emitEvent ..).same .log (by decide)
  · rfl

/-- With Helm up, its row not suspended, and the scan ended or the logbook faulty, the oldest record is written (R63,
R65). -/
theorem execLogRecordWrite_due {s : State} {r : LogItem} {rest : List LogItem} (hw : s.log.waiting = r :: rest)
    (hu : s.landfall.helmUp = true) (hb : suspended s 12 = false) (hl : (s.log.scanDone || s.log.fault) = true) :
    execLogRecordWrite false s = .next (writeRecord s r) := by
  simp only [execLogRecordWrite, hw, hu, hb, hl, Bool.not_true, Bool.or_self, Bool.false_and,
    Bool.false_eq_true, if_false]

theorem execLogRecordWrite_usable {s : State} {r : LogItem} {rest : List LogItem} (hw : s.log.waiting = r :: rest)
    (hu : s.landfall.helmUp = true) (hb : suspended s 12 = false) (hd : s.log.scanDone = true)
    (hf : s.log.fault = false) : ∃ t, execLogRecordWrite false s = .next t ∧ t.log.waiting = rest
      ∧ t.log.ring = (addRecord s.log r).ring := by
  obtain ⟨hwaiting, hring⟩ := storeRecord_usable r hf
  refine ⟨_, execLogRecordWrite_due hw hu hb (by rw [hd, Bool.true_or]), ?_⟩
  rw [writeRecord_log, hwaiting, hw]
  exact ⟨rfl, hring⟩

theorem execLogRecordWrite_fault {s : State} {r : LogItem} {rest : List LogItem} (hw : s.log.waiting = r :: rest)
    (hu : s.landfall.helmUp = true) (hb : suspended s 12 = false) (hf : s.log.fault = true) :
    ∃ t, execLogRecordWrite false s = .next t ∧ t.log.waiting = rest ∧ t.log.ring = s.log.ring
      ∧ t.log.sram = fitSram s.log.sram.length (s.log.sram ++ [r]) := by
  obtain ⟨hwaiting, hring, hsram⟩ := storeRecord_fault r hf
  refine ⟨_, execLogRecordWrite_due hw hu hb (by rw [hf, Bool.or_true]), ?_⟩
  rw [writeRecord_log, hwaiting, hw]
  exact ⟨rfl, hring, hsram⟩

/-- The scan ends with what it has found; a logbook found unusable is logged as masked, which leaves the rest of the
logbook (R64, R65). -/
theorem execLogbookScanEnd_due {s : State} (device : Option Nat) (hh : s.landfall.hostReady = true)
    (hd : s.log.scanDone = false) : ∃ t, execLogbookScanEnd device s = .next t
      ∧ t.log.scanDone = (scanLogbook s.log device).scanDone ∧ t.log.device = (scanLogbook s.log device).device
      ∧ t.log.cur = (scanLogbook s.log device).cur ∧ t.log.fault = (scanLogbook s.log device).fault := by
  have due : (s.landfall.hostReady && !s.log.scanDone) = true := by
    rw [hh, hd]
    rfl
  refine ⟨_, congrArg Host.Outcome.next (if_pos due), ?_⟩
  dsimp only
  split <;> exact ⟨rfl, rfl, rfl, rfl⟩

/-- A device of 256 to 16,384 blocks is taken into use (R64). -/
theorem scanLogbook_device (l : Logbook) {n : Nat} (h : 256 ≤ n ∧ n ≤ 16384) :
    (scanLogbook l (some n)).scanDone = true ∧ (scanLogbook l (some n)).device = n
      ∧ (scanLogbook l (some n)).cur = (l.ring.map (·.seq)).max? := by
  simp only [scanLogbook, if_pos h, and_self]

/-- Settles O24: clause by clause, from what each command does in the case that the clause names. -/
theorem faultsComplete : Obligations.FaultsComplete := by
  unfold Obligations.FaultsComplete
  refine ⟨fun s hu ha => execHelmCorePairMismatch_up hu ha,
    fun s hu ha => ⟨_, execSextantCoreMismatch_up hu ha, rfl, fun g hg => sextantTrip_latched hg⟩,
    fun s hu hi ha hh hc hp => ⟨_, execSextantSupervisorRestart_down hu hp, ?_⟩,
    fun s hu ha => execMeridianCoreFault_effect hu ha,
    fun s isl clk hu ha hl ho => execIslandClockLoss_up clk hu ha hl ho,
    fun s isl hl ho ht => ⟨_, execIslandRestart_ok hl ho ht, ?_⟩,
    fun s isl hl ho h12 h3 ht => execIslandRestart_fourth hl ho h12 h3 ht,
    fun s n => ⟨_, execDoubleBitError_heldTwice s n, logMasked_countDouble s 0x0102 .helm n⟩,
    fun s ha => ⟨_, execDoubleBitError_helmSram ha, helmSramHit_countDouble s 0⟩,
    fun s p h => execDoubleBitError_unscrubbed h,
    fun s m passEnd n h hn => execScrubPass_corrected passEnd h hn,
    fun s uV hok hw => execAnalogSupplyDip_rf_effect hok hw,
    fun s uV hok hw => ⟨_, execAnalogSupplyDip_vdda hok hw, rfl, rfl⟩,
    fun s rf uV hok hw => execAnalogSupplyReturn_due hok hw,
    fun s r rest hw hu hb hd hf => execLogRecordWrite_usable hw hu hb hd hf,
    fun s r rest hw hu hb hf => execLogRecordWrite_fault hw hu hb hf,
    fun s n hh hd hlo hhi => ?_,
    fun s hh hd => ?_⟩
  · rw [sextantBack_started hi ha hh hc]
    exact ⟨rfl, rfl, rfl⟩
  · rw [islandBack_island, upd_same]
    exact ⟨rfl, rfl⟩
  · obtain ⟨hdone, hdevice, hcur⟩ := scanLogbook_device s.log ⟨hlo, hhi⟩
    obtain ⟨t, ht, hdone', hdevice', hcur', -⟩ := execLogbookScanEnd_due (some n) hh hd
    exact ⟨t, ht, hdone'.trans hdone, hdevice'.trans hdevice, hcur'.trans hcur⟩
  · obtain ⟨t, ht, hdone, -, -, hfault⟩ := execLogbookScanEnd_due none hh hd
    exact ⟨t, ht, hdone, hfault⟩

end Sys2Proof.Machine
end

section
/-!
SUPPORT. The fabric and the engine: carrier loads, reference edges, the sigma-delta inputs' streams and faults, law
triggers, runs and outputs, and telemetry, an equation or an effect for each case of a command (R74, R85 to R93, R105 to
R109, R143; O6).
-/
namespace Sys2Proof.Machine

/-! ### One member of a family after its update -/

theorem updCell_get (s : State) (c : Fin 48) (f : Cell → Cell) : (updCell s c f).sx.cell[c] = f s.sx.cell[c] :=
  upd_same ..

theorem updAux_get (s : State) (g : Fin 8) (f : StageAux → StageAux) : (updAux s g f).sx.aux[g] = f s.sx.aux[g] :=
  upd_same ..

theorem updSd_get (s : State) (n : Fin 64) (f : SdInput → SdInput) : (updSd s n f).sx.sd[n] = f s.sx.sd[n] :=
  upd_same ..

theorem updLaw_get (s : State) (i : Fin 96) (f : Law → Law) : (updLaw s i f).sx.law[i] = f s.sx.law[i] :=
  upd_same ..

/-! ### Carriers -/

/-- Moving a DAB cell's secondary edges leaves its mark of a truncated pulse (R75, R76). -/
theorem moveEdges_cbcHit (s : State) (g : Fin 8) (c : Fin 48) (t : Nat) (v : Int) (count : Bool) :
    (moveEdges s g c t v count).sx.cell[c].cbcHit = s.sx.cell[c].cbcHit :=
  (congrArg Cell.cbcHit (updCell_get s c _)).trans rfl

theorem applyPhs_cbcHit (s : State) (g : Fin 8) (c : Fin 48) (t : Nat) (v : Int) :
    (applyPhs s g c t v).sx.cell[c].cbcHit = s.sx.cell[c].cbcHit :=
  (moveEdges_cbcHit ..).trans (by rw [updCell_get])

/-- What a cell's channels do at its carrier start or top leaves every cell as it is. -/
theorem foldl_carrierChannel_cell (g : Fin 8) (c : Fin 48) (t : Nat) (top : Bool) (l : List (Fin 48)) (s : State) :
    (l.foldl (fun u n => carrierChannel u g c t top n) s).sx.cell = s.sx.cell :=
  (Keeps.foldl (F := [.sxChannel]) (Keeps.refl _ s) fun u n h => h.trans (keep_carrierChannel u g c t top n)).same
    .sxCell (by decide)

/-- A carrier start clears a cell's mark of a truncated pulse, a top leaves it; no stage and no law changes (R74,
R76). -/
theorem execCarrierLoad_cell {s : State} {c : Fin 48} {g : Fin 8} (top : Bool) (h : cellStage s c = some g) :
    ∃ t, execCarrierLoad c top s = .next t ∧ t.sx.cell[c].cbcHit = (s.sx.cell[c].cbcHit && top)
      ∧ t.sx.stage = s.sx.stage ∧ t.sx.law = s.sx.law := by
  obtain ⟨t, ht, hit⟩ : ∃ t, execCarrierLoad c top s = .next t ∧
      t.sx.cell[c].cbcHit = (s.sx.cell[c].cbcHit && top) := by
    unfold execCarrierLoad
    rw [h]
    refine ⟨_, rfl, (congrArg (fun v => v[c].cbcHit) (foldl_carrierChannel_cell ..)).trans ?_⟩
    split
    · rw [applyPhs_cbcHit, updCell_get]
    · rw [updCell_get]
  have frame := (frame_carrierLoad c top s t ht).same
  exact ⟨t, ht, hit, frame .sxStage (by decide), frame .sxLaw (by decide)⟩

/-! ### The reference -/

/-- A reference edge concerns the stages' auxiliary state alone. -/
theorem syncEdge_sx (s : State) (g : Fin 8) (t : Nat) :
    (syncEdge s g t).sx = { s.sx with aux := (syncEdge s g t).sx.aux } := by
  unfold syncEdge
  extract_lets
  split <;> rfl

theorem syncEdge_other (s : State) {g h : Fin 8} (t : Nat) (ne : h ≠ g) :
    (syncEdge s h t).sx.aux[g] = s.sx.aux[g] := by
  unfold syncEdge
  extract_lets
  split
  · exact upd_other _ h g _ ne
  · rfl

/-- The first edge after a loss gives no frequency, so it sets no SYNC_RANGE (R86, log 74). -/
theorem syncEdge_syncRange {s : State} {g : Fin 8} (t : Nat) (h : s.sx.aux[g].edgeAt = none) :
    (syncEdge s g t).sx.aux[g].syncRange = s.sx.aux[g].syncRange := by
  simp only [syncEdge, h]
  split
  · rw [updAux_get]
    rfl
  · rfl

/-- A reference edge at each stage of a list. -/
def syncEdges (t : Nat) (l : List (Fin 8)) (s : State) : State := l.foldl (fun u g => syncEdge u g t) s

theorem syncEdges_sx (t : Nat) (l : List (Fin 8)) (s : State) :
    (syncEdges t l s).sx = { s.sx with aux := (syncEdges t l s).sx.aux } := by
  induction l generalizing s with
  | nil => rfl
  | cons g l ih => exact (ih (syncEdge s g t)).trans (by rw [syncEdge_sx]; rfl)

theorem syncEdges_other {g : Fin 8} (t : Nat) {l : List (Fin 8)} (s : State) (hg : g ∉ l) :
    (syncEdges t l s).sx.aux[g] = s.sx.aux[g] := by
  induction l generalizing s with
  | nil => rfl
  | cons h l ih =>
    exact (ih (syncEdge s h t) (List.not_mem_of_not_mem_cons hg)).trans
      (syncEdge_other s t (List.ne_of_not_mem_cons hg).symm)

theorem syncEdges_syncRange {g : Fin 8} (t : Nat) {l : List (Fin 8)} (nodup : l.Nodup) {s : State}
    (h : s.sx.aux[g].edgeAt = none) : (syncEdges t l s).sx.aux[g].syncRange = s.sx.aux[g].syncRange := by
  induction l generalizing s with
  | nil => rfl
  | cons k l ih =>
    obtain ⟨hk, hl⟩ := List.nodup_cons.mp nodup
    by_cases e : k = g
    · subst e
      exact (congrArg StageAux.syncRange (syncEdges_other t (syncEdge s k t) hk)).trans (syncEdge_syncRange t h)
    · have same := syncEdge_other s t e
      exact (ih hl (s := syncEdge s k t) (by rw [same]; exact h)).trans (congrArg StageAux.syncRange same)

/-- An edge is stamped, and the period is the time since the edge before (R85). -/
theorem execSyncInEdge_effect (s : State) (tm high : Nat) : ∃ t, execSyncInEdge tm high s = .next t
    ∧ t.sx.syncAt = some tm ∧ t.sx.syncPeriod = tm - s.sx.syncAt.getD tm ∧ t.sx.stage = s.sx.stage
    ∧ ∀ g : Fin 8, s.sx.aux[g].edgeAt = none → t.sx.aux[g].syncRange = s.sx.aux[g].syncRange := by
  have sx := syncEdges_sx tm (List.finRange 8) { s with sx := { s.sx with
    syncPeriod := tm - s.sx.syncAt.getD tm, syncAt := some tm
    syncOut := if cfgN s 0x10 0 0x000 3 0 = 1 then some ⟨tm, high⟩ else s.sx.syncOut } }
  exact ⟨_, rfl, (congrArg Sextant.syncAt sx :), (congrArg Sextant.syncPeriod sx :), (congrArg Sextant.stage sx :),
    fun g h => syncEdges_syncRange tm (List.nodup_finRange 8) h⟩

theorem execSyncLockSet_due {s : State} {g : Fin 8} (he : syncEn s g = true) (hr : 16 ≤ s.sx.aux[g].syncRun) :
    execSyncLockSet g s = .next (updAux s g fun a => { a with syncLock := true }) := by
  have due : (syncEn s g && decide (16 ≤ s.sx.aux[g].syncRun)) = true := by rw [he, decide_eq_true hr]; rfl
  exact congrArg Host.Outcome.next (if_pos due)

theorem execSyncLost_enabled {s : State} {g : Fin 8} (he : syncEn s g = true) : execSyncLost g s =
    .next (updAux s g fun a => { a with syncLost := true, syncLock := false, syncRun := 0, edgeAt := none }) :=
  congrArg Host.Outcome.next (if_pos he)

/-! ### Sigma-delta streams -/

/-- L of CTL_OSR is configuration. -/
theorem ctlLog_of_cfg {s t : State} (h : t.cfg = s.cfg) (n : Fin 64) : ctlLog t n = ctlLog s n := by
  simp only [ctlLog, cfgN, cfgWord, h]

/-- An input after one more bit, with its last `len` bits kept (R91, R93). -/
def shiftBit (len : Nat) (b : Bool) (x : SdInput) : SdInput :=
  { x with bits := (b :: x.bits).take len, phase := x.phase + 1
           run := if x.bits.head? = some b then min 8 (x.run + 1) else 1 }

/-- An input after the fast filter's evaluation on its stream (R92). -/
def judgeFast (s : State) (n : Fin 64) (x : SdInput) : SdInput :=
  let v := satTo 16 (sinc2 (fastOsr s n) x.bits)
  { x with fast := v
           fastTrip := x.fastTrip || decide (cfgI s 0x15 n 0x004 31 16 < v ∨ v < cfgI s 0x15 n 0x004 15 0) }

/-- An input whose stream completes a control output (R91). -/
def formControl (s : State) (n : Fin 64) (x : SdInput) : SdInput :=
  { x with phase := 0
           ctl := satTo 32 (sinc3 (2 ^ ctlLog s n) x.bits * 2 ^ (31 - 3 * ctlLog s n)) }

/-- The cells that a fast trip truncates are no part of the inputs (R92, R135). -/
theorem fastTrip_sd (s : State) (n : Fin 64) (t : Nat) :
    (fastTrip s n t).sx.sd[n] = { s.sx.sd[n] with fastTrip := true } := by
  have cells : Keeps [.sxChannel, .sxCell] (updSd s n fun x => { x with fastTrip := true }) (fastTrip s n t) := by
    refine Keeps.foldl (Keeps.refl _ _) fun u c h => ?_
    split
    · split
      · exact h.trans (keep_truncateCell ..)
      · exact h
    · exact h
  exact (congrArg (fun v => v[n]) (cells.same .sxSd (by decide))).trans (updSd_get ..)

theorem fastFilter_sd (s : State) (n : Fin 64) (t : Nat) :
    (fastFilter s n t).sx.sd[n] = judgeFast s n s.sx.sd[n] := by
  unfold fastFilter judgeFast
  extract_lets v u
  have hu : u.sx.sd[n] = { s.sx.sd[n] with fast := v } := upd_same ..
  split
  · next beyond => rw [fastTrip_sd, hu, decide_eq_true beyond, Bool.or_true]
  · next within => rw [hu, decide_eq_false within, Bool.or_false]

/-- The samples that a control output is to the stages, and the banks wanted, are no part of the inputs (R91, R113). -/
theorem controlOutput_sd (s : State) (n : Fin 64) : (controlOutput s n).sx.sd[n] = { s.sx.sd[n] with
    ctl := satTo 32 (sinc3 (2 ^ ctlLog s n) s.sx.sd[n].bits * 2 ^ (31 - 3 * ctlLog s n)) } := by
  unfold controlOutput
  extract_lets l u
  have sampled : Keeps [.sxCell, .sxStage, .sxAux, .outlet] u
      ((List.finRange 8).foldl (fun v g => if voutSrc v g = n then sampleStage v g else v) u) := by
    refine Keeps.foldl (Keeps.refl _ _) fun v g h => ?_
    split
    · exact h.trans (keep_sampleStage ..)
    · exact h
  have same := ((keep_trackBanks _).same .sxSd (by decide)).trans (sampled.same .sxSd (by decide))
  rw [same]
  exact upd_same ..

/-- A bit that differs from the one before it, at a valid input: the fast filter is evaluated, and after CTL_OSR bits a
control output is formed (R91, R92). -/
theorem sdBit_alternating {s : State} {n : Fin 64} {b : Bool} (t : Nat) (hv : sdInvalid s n = false)
    (hb : s.sx.sd[n].bits.head? = some (!b)) : (sdBit n t s b).sx.sd[n] =
      let x := judgeFast s n (shiftBit (3 * 2 ^ ctlLog s n) b s.sx.sd[n])
      if s.sx.sd[n].phase + 1 < 2 ^ ctlLog s n then x else formControl s n x := by
  unfold sdBit
  extract_lets shifted checked filtered restarted x
  have hshifted : shifted.sx.sd[n] = shiftBit (3 * 2 ^ ctlLog s n) b s.sx.sd[n] := upd_same ..
  have hrun : ¬shifted.sx.sd[n].run = 8 := by
    have differs : ¬s.sx.sd[n].bits.head? = some b := by rw [hb]; cases b <;> decide
    have first : (shiftBit (3 * 2 ^ ctlLog s n) b s.sx.sd[n]).run = 1 := if_neg differs
    rw [hshifted, first]
    decide
  have hvalid : sdInvalid shifted n = false := (congrArg SdInput.invalid hshifted).trans hv
  have hchecked : checked = shifted := if_neg hrun
  have hfiltered : filtered = fastFilter shifted n t := by
    unfold filtered
    rw [hchecked, if_neg (by rw [hvalid]; decide)]
  have hx : filtered.sx.sd[n] = x := by
    rw [hfiltered, fastFilter_sd, hshifted]
    rfl
  have hlog : ctlLog restarted n = ctlLog s n := by
    have cfg : filtered.cfg = shifted.cfg := by
      rw [hfiltered]
      exact (keep_fastFilter shifted n t).same .cfg (by decide)
    exact ctlLog_of_cfg (t := restarted) cfg n
  have hphase : filtered.sx.sd[n].phase = s.sx.sd[n].phase + 1 := by rw [hx]; rfl
  have hrestarted : restarted.sx.sd[n] = { x with phase := 0 } := by
    rw [← hx]
    exact upd_same ..
  have hvalid' : sdInvalid restarted n = false := (congrArg SdInput.invalid hrestarted).trans hv
  rw [hphase]
  split
  · exact hx
  · rw [if_neg (by rw [hvalid']; decide), controlOutput_sd, hrestarted, hlog]
    rfl

/-- The stream of an enabled input that brings one bit. -/
theorem sdStream_one {s : State} {n : Fin 64} (b : Bool) (t : Nat) (he : sdEn s n = true) :
    sdStream s n [b] t = sdBit n t (seeCount s t) b := if_pos he

/-- The bit that completes a control output (R91). -/
theorem execSdControlOutput_one {s : State} {n : Fin 64} {b : Bool} (tm : Nat) (he : sdEn s n = true)
    (hv : sdInvalid s n = false) (hb : s.sx.sd[n].bits.head? = some (!b))
    (hp : 2 ^ ctlLog s n ≤ s.sx.sd[n].phase + 1) : ∃ t, execSdControlOutput n [b] tm s = .next t
      ∧ t.sx.sd[n] = formControl s n (judgeFast s n (shiftBit (3 * 2 ^ ctlLog s n) b s.sx.sd[n])) := by
  refine ⟨_, rfl, ?_⟩
  rw [sdStream_one b tm he, sdBit_alternating (s := seeCount s tm) tm hv hb]
  exact if_neg (Nat.not_lt.mpr hp)

/-- One bit reaches the fast filter, whether or not it completes a control output (R92). -/
theorem execFastTrip_one {s : State} {n : Fin 64} {b : Bool} (tm : Nat) (he : sdEn s n = true)
    (hv : sdInvalid s n = false) (hb : s.sx.sd[n].bits.head? = some (!b)) : ∃ t, execFastTrip n [b] tm s = .next t
      ∧ t.sx.sd[n].fast = (judgeFast s n (shiftBit (3 * 2 ^ ctlLog s n) b s.sx.sd[n])).fast
      ∧ t.sx.sd[n].fastTrip = (judgeFast s n (shiftBit (3 * 2 ^ ctlLog s n) b s.sx.sd[n])).fastTrip := by
  refine ⟨_, rfl, ?_⟩
  rw [sdStream_one b tm he, sdBit_alternating (s := seeCount s tm) tm hv hb]
  dsimp only
  split <;> exact ⟨rfl, rfl⟩

theorem judgeFast_trips {s : State} {n : Fin 64} {x : SdInput}
    (h : cfgI s 0x15 n 0x004 31 16 < (judgeFast s n x).fast ∨ (judgeFast s n x).fast < cfgI s 0x15 n 0x004 15 0) :
    (judgeFast s n x).fastTrip = true :=
  (congrArg (x.fastTrip || ·) (decide_eq_true h)).trans (Bool.or_true _)

/-! ### Sigma-delta faults -/

/-- The stages that use an input act on its loss; the inputs themselves stay (R93, R140). -/
theorem inputInvalid_sd {s : State} {n : Fin 64} (hv : sdInvalid s n = false) :
    (inputInvalid s n).sx.sd[n] = { s.sx.sd[n] with invalid := true } := by
  have valid : ¬sdInvalid s n = true := by rw [hv]; decide
  have logged : Keeps [.log, .flt] (updSd s n fun x => { x with invalid := true })
      (logDetect (updSd s n fun x => { x with invalid := true }) 0x0403 .sextant n) := keep_logDetect ..
  have reacted : Keeps [.sxChannel, .sxCell, .sxStage, .sxAux, .sxRest, .outlet, .rdr, .lkOut, .lkOutlet, .lkRest, .wrk,
      .log, .flt] (updSd s n fun x => { x with invalid := true }) (inputInvalid s n) := by
    rw [inputInvalid, if_neg valid]
    refine Keeps.withStages ?_ (by decide)
    exact Keeps.foldl (logged.mono (by decide)) fun w g h => h.trans (keep_stageLostInput ..)
  exact (congrArg (fun v => v[n]) (reacted.same .sxSd (by decide))).trans (updSd_get ..)

/-- A stuck input becomes INVALID and STUCK, and holds its outputs (R93). -/
theorem execSdStuck_valid {s : State} {n : Fin 64} (he : sdEn s n = true) (hv : sdInvalid s n = false) :
    ∃ t, execSdStuck n s = .next t ∧ t.sx.sd[n] = { s.sx.sd[n] with stuck := true, invalid := true } := by
  have valid : sdInvalid (updSd s n fun x => { x with stuck := true }) n = false :=
    (congrArg SdInput.invalid (updSd_get s n _)).trans hv
  exact ⟨_, congrArg Host.Outcome.next (if_pos he), (inputInvalid_sd valid).trans (by rw [updSd_get])⟩

/-- An input whose clock is there becomes valid again; what its cells regain is no part of it (R93, R140). -/
theorem execSdInvalidClear_due {s : State} {n : Fin 64} (hi : sdInvalid s n = true)
    (hc : s.flt.sdLost.getLsbD (cfgN s 0x15 n 0x000 26 24) = false) : ∃ t, execSdInvalidClear n s = .next t
      ∧ t.sx.sd[n] = { s.sx.sd[n] with invalid := false } := by
  have due : (sdInvalid s n && !s.flt.sdLost.getLsbD (cfgN s 0x15 n 0x000 26 24)) = true := by
    rw [hi, hc]
    rfl
  have regained (u : State) : Keeps [.sxCell, .sxStage] u
      ((List.finRange 8).foldl (fun w g => stageRegainedInput w n g) u) :=
    Keeps.foldl (Keeps.refl _ u) fun w g h => h.trans (keep_stageRegainedInput w n g)
  have cleared := congrArg Sextant.sd (logClear_sx (updSd s n fun x => { x with invalid := false }) 0x0403 .sextant n)
  exact ⟨_, congrArg Host.Outcome.next (if_pos due),
    (congrArg (fun v => v[n]) (((regained _).same .sxSd (by decide)).trans cleared)).trans (updSd_get ..)⟩

/-! ### Laws -/

/-- An update of a law counts only at the law's own value. -/
theorem updLaw_congr {s : State} {i : Fin 96} {f h : Law → Law} (e : f s.sx.law[i] = h s.sx.law[i]) :
    updLaw s i f = updLaw s i h := by
  simp only [updLaw, upd, e]

/-- A timer trigger makes an idle law ready (R105, R111). -/
theorem execLawTrigger_timer {s : State} {i : Fin 96} (tm : Nat) (he : lawEn s i = true)
    (hk : lawN s i 0x004 31 30 = 3) (hh : lawHeld s i = false) (hs : s.sx.law[i].stopped = false)
    (hr : s.sx.law[i].ready = none) (ho : s.sx.law[i].out = none) : execLawTrigger i tm s =
      .next (updLaw s i fun l => { l with ready := some tm, ovrConsec := 0, points := 0 }) := by
  have idle : ¬(s.sx.law[i].ready.isSome || s.sx.law[i].out.isSome) = true := by rw [hr, ho]; decide
  unfold execLawTrigger
  simp only [he, hk, hh, hs]
  exact congrArg Host.Outcome.next (updLaw_congr (if_neg idle))

theorem countLanes_law (x : Sextant) (t cyc : Nat) : (countLanes x t cyc).law = x.law := by
  unfold countLanes
  split <;> rfl

/-- The ready law with the earliest deadline runs when the lanes are 8 cycles from free (R106, R107). -/
theorem execLawRunStart_next {s : State} {i : Fin 96} {tm trig : Nat} (hn : nextReady s = some (i, trig))
    (hf : s.sx.laneFree ≤ tm + 8) : ∃ t, execLawRunStart tm s = .next t ∧
      t.sx.law[i] = lawStart (match lawStage s i with
        | some g => sampleStage (seeCount s tm) g
        | none => seeCount s tm) i trig := by
  have free : ¬tm + 8 < s.sx.laneFree := Nat.not_lt.mpr hf
  unfold execLawRunStart
  rw [hn]
  dsimp only
  rw [if_neg free]
  exact ⟨_, rfl, (congrArg (fun v => v[i]) (countLanes_law ..)).trans (updLaw_get ..)⟩

/-- A law shows a result: its outputs are the result's, and none waits (R109). -/
def ShowsResult (l : Law) (r : LawOut) : Prop :=
  l.out = none ∧ l.y0 = r.y0 ∧ l.y1 = r.y1 ∧ l.omega = r.omega

/-- The bank wanted is no output of a law (R113). -/
theorem trackBanks_shows {s : State} {i : Fin 96} {r : LawOut} (h : ShowsResult s.sx.law[i] r) :
    ShowsResult (trackBanks s).sx.law[i] r := by
  have law : (trackBanks s).sx.law[i] = { s.sx.law[i] with want1 := wantBank s i } := Vector.getElem_ofFn i.isLt
  rw [law]
  exact h

/-- The run's result is shown, also while the law is held and its output reaches no channel (R109, R111). -/
theorem execLawOutputWrite_shows {s : State} {i : Fin 96} {r : LawOut} (tm : Nat) (h : s.sx.law[i].out = some r) :
    ∃ t, execLawOutputWrite i tm s = .next t ∧ ShowsResult t.sx.law[i] r := by
  unfold execLawOutputWrite
  rw [h]
  refine ⟨_, rfl, ?_⟩
  dsimp -zeta only
  extract_lets written counted
  have hwritten : ShowsResult written.sx.law[i] r := by
    rw [updLaw_get]
    exact ⟨rfl, rfl, rfl, rfl⟩
  have hcounted : ShowsResult counted.sx.law[i] r := by
    unfold counted
    split
    · exact hwritten
    · rw [updLaw_get]
      exact hwritten
  split
  · exact trackBanks_shows hwritten
  · refine trackBanks_shows ?_
    split
    · have law := (keep_writeCell counted (Fin.ofNat 48 (outIdx s i)) r.y r.ms (16000 * tm)).same .sxLaw (by decide)
      exact (congrArg (fun v => ShowsResult v[i] r) law).mpr hcounted
    · exact hcounted
    · exact hcounted

/-- Settles O6: clause by clause, from what each command does in the case that the clause names. -/
theorem fabricCompletes : Obligations.FabricCompletes := by
  unfold Obligations.FabricCompletes
  refine ⟨fun s c g top h => execCarrierLoad_cell top h,
    fun s tm high => execSyncInEdge_effect s tm high,
    fun s g he hr => execSyncLockSet_due he hr,
    fun s g he => execSyncLost_enabled he,
    fun s count => ⟨_, rfl, rfl, rfl, rfl⟩,
    fun s n b tm he hv hb hp => ?_,
    fun s n b tm he hv hb => ?_,
    fun s n he hv => ?_,
    fun s n hi hc => ?_,
    fun s i tm he hk hh hs hr ho => execLawTrigger_timer tm he hk hh hs hr ho,
    fun s i tm trig hn hf => execLawRunStart_next hn hf,
    fun s i tm r h => execLawOutputWrite_shows tm h,
    fun s h => congrArg Host.Outcome.next (if_neg (by rw [h]; decide)),
    fun s h => congrArg Host.Outcome.next (if_pos h)⟩
  · obtain ⟨t, ht, hsd⟩ := execSdControlOutput_one tm he hv hb hp
    exact ⟨t, ht, congrArg SdInput.ctl hsd, congrArg SdInput.phase hsd⟩
  · obtain ⟨t, ht, hfast, htrip⟩ := execFastTrip_one tm he hv hb
    refine ⟨t, ht, hfast, fun beyond => ?_⟩
    rw [hfast] at beyond
    exact htrip.trans (judgeFast_trips beyond)
  · obtain ⟨t, ht, hsd⟩ := execSdStuck_valid he hv
    exact ⟨t, ht, congrArg SdInput.invalid hsd, (congrArg SdInput.ctl hsd :)⟩
  · obtain ⟨t, ht, hsd⟩ := execSdInvalidClear_due hi hc
    exact ⟨t, ht, congrArg SdInput.invalid hsd⟩

end Sys2Proof.Machine
end

section
/-!
SUPPORT. Held laws: what HELD reads, and what a trigger, an output and the choice of the next run do to one (R111, R117;
O43).
-/
namespace Sys2Proof.Machine

/-- The states outside 1 to 6 are OFF and LATCHED (R117). -/
theorem StageSt.off_or_latched {x : StageSt} (h : x.code < 1 ∨ 6 < x.code) : x = .off ∨ x = .latched := by
  cases x <;> simp [StageSt.code] at h ⊢

/-- A law whose stage is OFF or LATCHED is held (R111). -/
theorem lawHeld_of_off_or_latched {s : State} {i : Fin 96} {g : Fin 8} (hg : lawStage s i = some g)
    (h : s.sx.stage[g].st = .off ∨ s.sx.stage[g].st = .latched) : lawHeld s i = true := by
  unfold lawHeld stageRunsLaw
  rw [hg]
  obtain h | h := h <;> simp only [h, Bool.not_false]

/-- HELD is bit 5 of a law's status word (R111): the fields beside it are bits 0 to 4 and from 6 on. -/
theorem viewLaw_held (s : State) (i : Fin 96) : (viewLaw s i 0x040).testBit 5 = lawHeld s i := by
  have bit (b : Bool) : flag b ≤ 1 := by cases b <;> decide
  have asFlag : lawHeld s i = decide (flag (lawHeld s i) = 1) := by cases lawHeld s i <;> rfl
  rw [asFlag, Nat.testBit_eq_decide_div_mod_eq, decide_eq_decide]
  simp only [viewLaw, fv, fb]
  have overrun := bit s.sx.law[i].overrun
  have int := bit s.sx.law[i].flags.int
  have out := bit s.sx.law[i].flags.out
  have acc := bit s.sx.law[i].flags.acc
  have prod := bit s.sx.law[i].flags.prod
  have held := bit (lawHeld s i)
  omega

/-- A trigger of a held law changes nothing (R111). -/
theorem execLawTrigger_held {s : State} {i : Fin 96} (t : Nat) (h : lawHeld s i = true) :
    execLawTrigger i t s = .next s := by
  simp only [execLawTrigger, h, Bool.or_true, Bool.true_or, if_true]

/-- The output of a held law concerns the laws and the count seen alone (R109, R111). -/
theorem execLawOutputWrite_held {s : State} {i : Fin 96} (t : Nat) (h : lawHeld s i = true) :
    ∃ u, execLawOutputWrite i t s = .next u ∧ Keeps [.sxLaw, .sxCount] s u := by
  unfold execLawOutputWrite
  rw [h]
  refine ⟨_, rfl, ?_⟩
  split
  · exact Keeps.refl _ s
  · have seen : Keeps [.sxLaw, .sxCount] s (seeCount s t) := (keep_seeCount s t).mono (by decide)
    exact Keeps.then_ (keep_trackBanks _) (by decide) (Keeps.then_ (keep_updLaw ..) (by decide) seen)

/-- The law whose run starts next is not held (R106, R111). -/
theorem nextReady_not_held {s : State} {j : Fin 96} {trig : Nat} (h : nextReady s = some (j, trig)) :
    lawHeld s j = false := by
  have chosen : ∀ x ∈ nextReady s, lawHeld s x.1 = false := by
    unfold nextReady
    generalize List.finRange 96 = l
    apply List.foldlRecOn (motive := fun best : Option (Fin 96 × Nat) => ∀ x ∈ best, lawHeld s x.1 = false)
    · exact nofun
    · intro best ih i _
      split
      · exact ih
      · next t ready =>
        have free : lawHeld s i = false := Bool.eq_false_iff.mpr (Option.ite_none_left_eq_some.mp ready).1
        have taken : ∀ x ∈ some (i, t), lawHeld s x.1 = false := fun x hx => Option.mem_some.mp hx ▸ free
        split
        · exact taken
        · split
          · exact taken
          · exact ih
  exact chosen (j, trig) h

/-- Settles O43: a law whose stage is OFF or LATCHED is held, and being held decides each of the five clauses. -/
theorem heldInstanceStaysStill : Obligations.HeldInstanceStaysStill := by
  unfold Obligations.HeldInstanceStaysStill
  intro s i g hg hcode
  have held : lawHeld s i = true := lawHeld_of_off_or_latched hg (StageSt.off_or_latched hcode)
  refine ⟨held, (viewLaw_held s i).trans held, fun t => execLawTrigger_held t held,
    fun t => ?_, fun j trig next same => ?_⟩
  · obtain ⟨u, hu, kept⟩ := execLawOutputWrite_held t held
    exact ⟨u, hu, kept.same .sxCell (by decide), kept.same .sxChannel (by decide),
      congrArg Prod.fst (kept.same .sxRest (by decide))⟩
  · rw [← same, nextReady_not_held next] at held
    exact Bool.false_ne_true held

end Sys2Proof.Machine
end

section
/-!
SUPPORT. Families of which a command changes one member: what every other member keeps (R86, R87, R91, R105, R119 to R123,
R130 to R134, R152 to R156, R204; O49).
-/
namespace Sys2Proof.Machine

section

variable {α : Type} {n : Nat} {π : State → Vector α n} {i : Fin n} {s t u : State}

/-- Of the family that `π` reads, `t` differs from `s` at most in member `i`. -/
structure SameOff (π : State → Vector α n) (i : Fin n) (s t : State) : Prop where
  other {j : Fin n} (ne : j ≠ i) : (π t)[j] = (π s)[j]

/-- An update of member `i` alone. -/
theorem SameOff.of_upd {f : α → α} (h : π t = upd (π s) i f) : SameOff π i s t :=
  ⟨fun ne => by rw [h, upd_other _ _ _ _ ne.symm]⟩

theorem SameOff.of_eq (h : π t = π s) : SameOff π i s t := ⟨fun _ => by rw [h]⟩

theorem SameOff.trans (h : SameOff π i s t) (k : SameOff π i t u) : SameOff π i s u :=
  ⟨fun ne => (k.other ne).trans (h.other ne)⟩

theorem SameOff.ite {c : Prop} [Decidable c] (h : SameOff π i s t) (k : SameOff π i s u) :
    SameOff π i s (if c then t else u) := by
  split <;> assumption

theorem SameOff.foldl {β : Type} {f : State → β → State} (h : ∀ s b, SameOff π i s (f s b)) (l : List β) (s : State) :
    SameOff π i s (l.foldl f s) := by
  induction l generalizing s with
  | nil => exact .of_eq rfl
  | cons b l ih => exact (h s b).trans (ih (f s b))

end

/-! ### Stages and their reference lock -/

theorem updStage_sameOff (s : State) (g : Fin 8) (f : Stage → Stage) : SameOff (·.sx.stage) g s (updStage s g f) :=
  .of_upd rfl

theorem updAux_sameOff (s : State) (g : Fin 8) (f : StageAux → StageAux) : SameOff (·.sx.aux) g s (updAux s g f) :=
  .of_upd rfl

/-! ### Sigma-delta inputs -/

theorem updSd_sameOff (s : State) (n : Fin 64) (f : SdInput → SdInput) : SameOff (·.sx.sd) n s (updSd s n f) :=
  .of_upd rfl

/-- The stages' reactions to an input's loss are no part of the inputs (R93, R140). -/
theorem inputInvalid_sameOff (s : State) (n : Fin 64) : SameOff (·.sx.sd) n s (inputInvalid s n) := by
  unfold inputInvalid
  have marked := updSd_sameOff s n fun x => { x with invalid := true }
  have logged := keep_logDetect (updSd s n fun x => { x with invalid := true }) 0x0403 .sextant n
  refine .ite (.of_eq rfl) (marked.trans (.of_eq ?_))
  refine (Keeps.withStages (F := [.sxChannel, .sxCell, .sxStage, .sxAux, .sxRest, .outlet, .rdr, .lkOut, .lkOutlet,
    .lkRest, .wrk, .log, .flt]) ?_ (by decide)).same .sxSd (by decide)
  exact Keeps.foldl (logged.mono (by decide)) fun w g h => h.trans (keep_stageLostInput ..)

/-- The cells that a fast trip truncates are no part of the inputs (R92, R135). -/
theorem fastTrip_sameOff (s : State) (n : Fin 64) (t : Nat) : SameOff (·.sx.sd) n s (fastTrip s n t) :=
  (updSd_sameOff s n _).trans (.foldl (fun u c => by
    split
    · exact .ite (.of_eq ((keep_truncateCell ..).same .sxSd (by decide))) (.of_eq rfl)
    · exact .of_eq rfl) _ _)

theorem fastFilter_sameOff (s : State) (n : Fin 64) (t : Nat) : SameOff (·.sx.sd) n s (fastFilter s n t) := by
  have evaluated := updSd_sameOff s n fun x => { x with fast := satTo 16 (sinc2 (fastOsr s n) s.sx.sd[n].bits) }
  exact .ite (evaluated.trans (fastTrip_sameOff ..)) evaluated

theorem controlOutput_sameOff (s : State) (n : Fin 64) : SameOff (·.sx.sd) n s (controlOutput s n) := by
  unfold controlOutput
  refine ((updSd_sameOff s n _).trans (.foldl (fun u g => ?_) _ _)).trans
    (.of_eq ((keep_trackBanks _).same .sxSd (by decide)))
  exact .ite (.of_eq ((keep_sampleStage ..).same .sxSd (by decide))) (.of_eq rfl)

theorem sdBit_sameOff (n : Fin 64) (t : Nat) (s : State) (b : Bool) : SameOff (·.sx.sd) n s (sdBit n t s b) := by
  unfold sdBit
  extract_lets shifted checked filtered restarted
  have hshifted : SameOff (·.sx.sd) n s shifted := updSd_sameOff ..
  have hchecked : SameOff (·.sx.sd) n s checked :=
    .ite (hshifted.trans ((updSd_sameOff ..).trans (inputInvalid_sameOff ..))) hshifted
  have hfiltered : SameOff (·.sx.sd) n s filtered := .ite hchecked (hchecked.trans (fastFilter_sameOff ..))
  have hrestarted : SameOff (·.sx.sd) n s restarted := hfiltered.trans (updSd_sameOff ..)
  exact .ite hfiltered (.ite hrestarted (hrestarted.trans (controlOutput_sameOff ..)))

theorem sdStream_sameOff (s : State) (n : Fin 64) (bits : List Bool) (t : Nat) :
    SameOff (·.sx.sd) n s (sdStream s n bits t) := by
  have seen : SameOff (·.sx.sd) n s (seeCount s t) := .of_eq rfl
  exact .ite (seen.trans (.foldl (sdBit_sameOff n t) bits _)) (.of_eq rfl)

/-! ### Laws -/

theorem updLaw_sameOff (s : State) (i : Fin 96) (f : Law → Law) : SameOff (·.sx.law) i s (updLaw s i f) :=
  .of_upd rfl

theorem execLawTrigger_sameOff {s t : State} {i : Fin 96} {n : Nat} (e : execLawTrigger i n s = .next t) :
    SameOff (·.sx.law) i s t := by
  cases e
  exact .ite (.of_eq rfl) (.ite (updLaw_sameOff ..) (updLaw_sameOff ..))

/-! ### Outlets -/

theorem updOutlet_sameOff (s : State) (o : Fin 2) (f : Outlet → Outlet) : SameOff (·.outlet) o s (updOutlet s o f) :=
  .of_upd rfl

theorem answer_sameOff (s : State) (o : Fin 2) (a : Answer) : SameOff (·.outlet) o s (answer s o a) :=
  updOutlet_sameOff ..

theorem answerOther_sameOff (s : State) (o : Fin 2) : SameOff (·.outlet) o s (answerOther s o) := by
  unfold answerOther
  split
  case h_1 => exact .of_eq rfl
  all_goals exact answer_sameOff ..

/-- The keys that a handshake uses are no part of the outlets (R155, R426). -/
theorem execTlsHandshake_sameOff {s t : State} {o : Fin 2} {hello : TlsHello} (e : execTlsHandshake o hello s = .next t) :
    SameOff (·.outlet) o s t := by
  have used (k r : Fin 128) : SameOff (·.outlet) o s (useSlot (useSlot s k 1) r 1) :=
    .of_eq (((keep_useSlot ..).trans (keep_useSlot ..)).same .outlet (by decide))
  cases e
  refine .ite ?_ (.of_eq rfl)
  extract_lets grp sch
  split
  · exact .ite ((used ..).trans (updOutlet_sameOff ..)) (updOutlet_sameOff ..)
  · exact updOutlet_sameOff ..

/-- In an ISO 15118-20 session the request draws no failure response, which would act on both outlets (R156). -/
theorem execScheduleExchange_sameOff {s t : State} {o : Fin 2} {dynamic : Bool} (h : s.outlet[o].link.proto = 1)
    (e : execScheduleExchange o dynamic s = .next t) : SameOff (·.outlet) o s t := by
  cases e
  refine .ite ?_ (.of_eq rfl)
  dsimp only
  rw [isoOnly, if_pos h]
  exact (updOutlet_sameOff ..).trans (answer_sameOff ..)

theorem updLko_sameOff (s : State) (o : Fin 2) (f : LkOutlet → LkOutlet) : SameOff (·.lk.outlet) o s (updLko s o f) :=
  .of_upd rfl

/-! ### Meter channels -/

theorem updMch_sameOff (s : State) (k : Fin 12) (f : MChannel → MChannel) : SameOff (·.mer.fe.ch) k s (updMch s k f) :=
  .of_upd rfl

/-- Settles O49: every command named updates its own element, and what else it does is no part of that family. -/
theorem oneElementAtATime : Obligations.OneElementAtATime := by
  unfold Obligations.OneElementAtATime
  refine ⟨fun s t g h ne e => ?_, fun s t g h ne e => ?_, fun s t n m bits at_ ne e => ?_,
    fun s t i j n ne e => (execLawTrigger_sameOff e).other ne, fun s t o p ne e => ?_, fun s t k j on ne e => ?_,
    fun s t o p ne e => ?_⟩
  · refine SameOff.other (?_ : SameOff (·.sx.stage) g s t) ne
    obtain e | e | e | e := e <;> cases e
    · exact .ite (updStage_sameOff ..) (.of_eq rfl)
    · exact .ite (updStage_sameOff ..) (.of_eq rfl)
    · exact .ite (.of_eq rfl) (updStage_sameOff ..)
    · exact updStage_sameOff ..
  · refine SameOff.other (?_ : SameOff (·.sx.aux) g s t) ne
    obtain e | e := e <;> cases e
    · exact .ite (updAux_sameOff ..) (.of_eq rfl)
    · exact .ite (updAux_sameOff ..) (.of_eq rfl)
  · cases e
    exact (sdStream_sameOff s n bits at_).other ne
  · refine SameOff.other (?_ : SameOff (·.outlet) o s t) ne
    obtain e | e | ⟨hello, e⟩ | e | ⟨v, e⟩ | ⟨hp, dynamic, e⟩ | e := e
    · cases e
      exact .ite (updOutlet_sameOff ..) (.of_eq rfl)
    · cases e
      exact .ite (updOutlet_sameOff ..) (.of_eq rfl)
    · exact execTlsHandshake_sameOff e
    · cases e
      exact .ite (.of_eq rfl) ((updOutlet_sameOff ..).trans (answer_sameOff ..))
    · cases e
      exact .ite ((updOutlet_sameOff ..).trans (answer_sameOff ..)) (.of_eq rfl)
    · exact execScheduleExchange_sameOff hp e
    · cases e
      exact .ite (answerOther_sameOff s o) (.of_eq rfl)
  · refine SameOff.other (?_ : SameOff (·.mer.fe.ch) k s t) ne
    cases e
    exact .ite (updMch_sameOff ..) (.of_eq rfl)
  · refine SameOff.other (?_ : SameOff (·.lk.outlet) o s t) ne
    obtain e | e := e <;> cases e
    · exact .ite (updLko_sameOff ..) (.of_eq rfl)
    · exact .ite (.of_eq rfl) (updLko_sameOff ..)

end Sys2Proof.Machine
end

section
/-!
SUPPORT. A stage's start: START and its refusal, the failed start, the withdrawn close request (R116 to R123; O1).
-/
namespace Sys2Proof.Machine

/-! ### What leaves the stages as they are -/

theorem afeDrop_stage (s : State) (g : Fin 8) : (afeDrop s g).sx.stage = s.sx.stage :=
  (keep_afeDrop s g).same .sxStage (by decide)

theorem afeAllOff_stage (s : State) : (afeAllOff s).sx.stage = s.sx.stage :=
  (keep_afeAllOff s).same .sxStage (by decide)

theorem reshare_stage (s : State) (g : Fin 8) : (reshare s g).sx.stage = s.sx.stage :=
  (keep_reshare s g).same .sxStage (by decide)

theorem updStage_get (s : State) (g : Fin 8) (f : Stage → Stage) : (updStage s g f).sx.stage[g] = f s.sx.stage[g] :=
  upd_same ..

/-! ### A stage that goes OFF or ramps down -/

/-- OFF, latched or ramping down after an action, a stage stays so through what follows (R116). -/
theorem withStages_st {s : State} (f : State → State) {g : Fin 8} (h : (f s).sx.stage[g].rests) :
    (withStages s f).sx.stage[g].st = (f s).sx.stage[g].st
      ∧ (withStages s f).sx.stage[g].fail = (f s).sx.stage[g].fail := by
  obtain ⟨hst, hfail, -, -⟩ := withStages_keepsResting g s f h
  exact ⟨hst, hfail⟩

/-- An action that takes a stage to OFF, whatever follows. -/
theorem withStages_off {s : State} (f : State → State) {g : Fin 8} (h : (f s).sx.stage[g].st = .off) :
    (withStages s f).sx.stage[g].st = .off ∧ (withStages s f).sx.stage[g].fail = (f s).sx.stage[g].fail := by
  obtain ⟨hst, hfail⟩ := withStages_st f (.inl h)
  exact ⟨hst.trans h, hfail⟩

/-- An action that leaves a stage ramping down, whatever follows. -/
theorem withStages_rampDown {s : State} (f : State → State) {g : Fin 8} (h : (f s).sx.stage[g].st = .rampDown) :
    (withStages s f).sx.stage[g].st = .rampDown :=
  (withStages_st f (.inr (.inr (.inl h)))).1.trans h

/-- The FAIL of a start or stop that failed (R117). -/
theorem stageOff_fail (s : State) (g : Fin 8) (n : Nat) : (stageOff s g (some n)).sx.stage[g].fail = n := by
  unfold stageOff
  exact congrArg Stage.fail (updStage_get ..)

/-! ### START -/

theorem execStageStart_accepted {s : State} {g : Fin 8} (h : startRefusal s g = 0) :
    execStageStart g s = .next (withStages s fun t => beginStart t g) := by
  rw [execStageStart, startStage, h]
  rfl

theorem execStageStart_refused {s : State} {g : Fin 8} {n : Nat} (h : startRefusal s g = n + 1) :
    execStageStart g s =
      .next (withStages (updStage s g fun x => { x with startRefused := n + 1 }) fun t => startRefusedTo t g) := by
  rw [execStageStart, startStage, h]
  rfl

/-! ### A start that fails -/

/-- Helm's close requests for some outlets withdrawn (R121). -/
def withdrawClose (l : List (Fin 2)) (s : State) : State :=
  l.foldl (fun t o => updLko t o fun x => { x with wait := none }) s

theorem withdrawClose_sx (l : List (Fin 2)) (s : State) : (withdrawClose l s).sx = s.sx := by
  induction l generalizing s with
  | nil => rfl
  | cons o l ih => exact ih (updLko s o fun x => { x with wait := none })

/-- None waits, of the outlets whose requests are withdrawn; and a withdrawal brings none back. -/
theorem withdrawClose_wait {l : List (Fin 2)} {s : State} {o : Fin 2}
    (h : o ∈ l ∨ s.lk.outlet[o].wait = none) : (withdrawClose l s).lk.outlet[o].wait = none := by
  induction l generalizing s with
  | nil => exact h.resolve_left List.not_mem_nil
  | cons p l ih =>
    refine ih ?_
    by_cases e : p = o
    · subst e
      exact .inr (congrArg LkOutlet.wait (upd_same ..))
    · refine h.imp (fun hm => (List.mem_cons.mp hm).resolve_left (Ne.symm e)) fun hw => ?_
      exact (congrArg LkOutlet.wait (upd_other s.lk.outlet p o _ e)).trans hw

/-- A start that fails ends in OFF with its FAIL (R117, R119, R121). -/
theorem failStart_off (s : State) (g : Fin 8) (n : Nat) :
    (failStart s g n).sx.stage[g].st = .off ∧ (failStart s g n).sx.stage[g].fail = n := by
  let withdrawn := withdrawClose (stageOutlets s g) s
  have hstage : (afeDrop (stageOff withdrawn g (some n)) g).sx.stage[g] = (stageOff withdrawn g (some n)).sx.stage[g] :=
    congrArg (·[g]) (afeDrop_stage ..)
  obtain ⟨hst, hfail⟩ := withStages_off (s := s) (g := g) (fun _ => afeDrop (stageOff withdrawn g (some n)) g)
    ((congrArg Stage.st hstage).trans (stageOff_stage ..).1)
  exact ⟨hst, hfail.trans ((congrArg Stage.fail hstage).trans (stageOff_fail ..))⟩

/-- The band lost before the contactors close: PRECHARGE again, the restrictions of R122 kept (R121). -/
theorem execCloseWaitBandLost_effect {s : State} {g : Fin 8} (hst : s.sx.stage[g].st = .closeWait)
    (hb : prechargeBand s g = false) : ∃ t, execCloseWaitBandLost g s = .next t ∧ t.sx.stage[g].st = .precharge
      ∧ t.sx.stage[g].noSinkRestr = s.sx.stage[g].noSinkRestr ∧ ∀ o ∈ stageOutlets s g, t.lk.outlet[o].wait = none := by
  have hget : (withdrawClose (stageOutlets s g) (updStage s g fun x => { x with st := .precharge })).sx.stage[g]
      = { s.sx.stage[g] with st := .precharge } := by
    rw [withdrawClose_sx, updStage_get]
  exact ⟨_, congrArg Host.Outcome.next (if_pos ⟨hst, hb⟩), congrArg Stage.st hget,
    (congrArg Stage.noSinkRestr hget :), fun o ho => withdrawClose_wait (.inl ho)⟩

/-- Settles O1: clause by clause, from what each command does in the case that the clause names. -/
theorem stageStartCompletes : Obligations.StageStartCompletes := by
  unfold Obligations.StageStartCompletes
  refine ⟨fun s g h => execStageStart_accepted h, fun s g n h => execStageStart_refused h,
    fun s g hs ho hr => ⟨_, congrArg Host.Outcome.next (if_pos ?_), failStart_off s g 1⟩,
    fun s o mV => rfl,
    fun s g hst hk hb hf => congrArg Host.Outcome.next (if_pos ⟨hst, hk, hb, hf⟩),
    fun s g hst hb => execCloseWaitBandLost_effect hst hb,
    fun s g hs => ⟨_, congrArg Host.Outcome.next (if_pos hs), failStart_off s g 2⟩,
    fun s g hst => ⟨_, congrArg Host.Outcome.next (if_pos hst), failStart_off s g 3⟩,
    fun s g hst hc => congrArg Host.Outcome.next (if_pos ⟨hst, hc⟩),
    fun s g hst hi => congrArg Host.Outcome.next (if_pos ⟨hst, hi⟩)⟩
  rw [hs, ho, hr]
  rfl

end Sys2Proof.Machine
end

section
/-!
SUPPORT. A stage's stop: STOP, the ramp's end, discharge, Helm's heartbeat and setpoints, and what a new share or limit
leaves of a stage and a cell (R25 to R27, R116, R126, R127; O2).
-/
namespace Sys2Proof.Machine

/-! ### Shares and limits -/

/-- Nothing of a stage has changed but its limit, and nothing of a cell but its share (R26, R139). -/
structure Reshared (s t : State) : Prop where
  stage (g : Fin 8) : ∃ a b, t.sx.stage[g] = { s.sx.stage[g] with limNow := a, limAt := b }
  cell (c : Fin 48) : ∃ a, t.sx.cell[c] = { s.sx.cell[c] with share := a }

theorem Reshared.of_eq {s t : State} (hs : t.sx.stage = s.sx.stage) (hc : t.sx.cell = s.sx.cell) : Reshared s t :=
  ⟨fun _ => ⟨_, _, by rw [hs]⟩, fun _ => ⟨_, by rw [hc]⟩⟩

theorem Reshared.trans {s t u : State} (h : Reshared s t) (k : Reshared t u) : Reshared s u where
  stage g := by
    obtain ⟨a, b, e⟩ := h.stage g
    obtain ⟨a', b', e'⟩ := k.stage g
    exact ⟨a', b', by rw [e', e]⟩
  cell c := by
    obtain ⟨a, e⟩ := h.cell c
    obtain ⟨a', e'⟩ := k.cell c
    exact ⟨a', by rw [e', e]⟩

theorem Reshared.foldl {α : Type} {f : State → α → State} (h : ∀ s a, Reshared s (f s a)) (l : List α) (s : State) :
    Reshared s (l.foldl f s) := by
  induction l generalizing s with
  | nil => exact .of_eq rfl rfl
  | cons a l ih => exact (h s a).trans (ih (f s a))

theorem updCell_reshared (s : State) (d : Fin 48) (a : Nat) : Reshared s (updCell s d fun x => { x with share := a }) where
  stage _ := ⟨_, _, rfl⟩
  cell c := by
    rw [updCell_sx_cell, upd_get]
    split
    · exact ⟨_, rfl⟩
    · exact ⟨_, rfl⟩

theorem updStage_reshared (s : State) (h : Fin 8) (a b : Nat) :
    Reshared s (updStage s h fun x => { x with limNow := a, limAt := b }) where
  stage g := by
    rw [updStage_sx_stage, upd_get]
    split
    · exact ⟨_, _, rfl⟩
    · exact ⟨_, _, rfl⟩
  cell _ := ⟨_, rfl⟩

theorem reshare_reshared (s : State) (g : Fin 8) : Reshared s (reshare s g) :=
  .foldl (fun t c => updCell_reshared t c _) _ _

theorem followLimit_reshared (s : State) (g : Fin 8) : Reshared s (followLimit s g) :=
  (updStage_reshared s g _ _).trans (reshare_reshared _ g)

theorem postSplit_reshared (s : State) : Reshared s (postSplit s) := by
  unfold postSplit
  extract_lets post sh t src u
  have hu : Reshared s u := by
    unfold u
    split <;> exact .of_eq rfl rfl
  clear_value u
  refine hu.trans (.foldl (fun v o => ?_) _ _)
  split
  · exact followLimit_reshared v _
  · exact .of_eq rfl rfl

theorem resplit_reshared (s t : State) : Reshared t (resplit s t) := by
  unfold resplit
  extract_lets w u
  have hu : Reshared t u := by
    unfold u
    split <;> exact .of_eq rfl rfl
  clear_value u
  split
  · exact hu
  · exact hu.trans (postSplit_reshared u)

/-- A limit is no setpoint: both of Helm's, and the stage's own with its goal, stay. -/
theorem Reshared.setpoints {s t : State} (h : Reshared s t) (g : Fin 8) :
    t.sx.stage[g].iSet = s.sx.stage[g].iSet ∧ t.sx.stage[g].vCmd = s.sx.stage[g].vCmd
      ∧ t.sx.stage[g].vSet = s.sx.stage[g].vSet ∧ t.sx.stage[g].vGoal = s.sx.stage[g].vGoal := by
  obtain ⟨a, b, e⟩ := h.stage g
  rw [e]
  exact ⟨rfl, rfl, rfl, rfl⟩

/-! ### STOP -/

/-- STOP of a stage that starts takes it to OFF (R116). -/
theorem haltStage_off {s : State} {g : Fin 8} (fail : Option Nat)
    (h : s.sx.stage[g].st = .precharge ∨ s.sx.stage[g].st = .closeWait) : (haltStage s g fail).sx.stage[g].st = .off := by
  have dropped : (afeDrop (stageOff s g fail) g).sx.stage[g].st = .off := by
    rw [afeDrop_stage]
    exact (stageOff_stage ..).1
  unfold haltStage
  obtain h | h := h
  · rw [h]
    exact dropped
  · rw [h]
    exact dropped

theorem stageRamp_rampDown (s : State) (g : Fin 8) : (stageRamp s g).sx.stage[g].st = .rampDown := by
  unfold stageRamp
  extract_lets t now
  rw [reshare_stage, updStage_get]

/-- STOP of a stage that delivers makes it ramp down (R116). -/
theorem haltStage_rampDown {s : State} {g : Fin 8} (fail : Option Nat)
    (h : s.sx.stage[g].st = .noSink ∨ s.sx.stage[g].st = .run) : (haltStage s g fail).sx.stage[g].st = .rampDown := by
  unfold haltStage
  obtain h | h := h
  · rw [h]
    exact stageRamp_rampDown s g
  · rw [h]
    exact stageRamp_rampDown s g

/-! ### The ramp's end and discharge -/

/-- A stage that the loss of Helm ramps down goes OFF by itself at the ramp's end (R25). -/
theorem endRamp_byHelm {s : State} {g : Fin 8} (h : s.sx.stage[g].byHelm = true) :
    (endRamp s g).sx.stage[g].st = .off := by
  rw [endRamp, if_pos (.inl h), afeAllOff_stage]
  exact (stageOff_stage ..).1

/-- An output stage waits for Helm at the ramp's end (R126). -/
theorem endRamp_output {s : State} {g : Fin 8} (hst : s.sx.stage[g].st = .rampDown)
    (hh : s.sx.stage[g].byHelm = false) (ho : isOutputStage s g = true) : (endRamp s g).sx.stage[g].st = .rampDown := by
  have waits : ¬(s.sx.stage[g].byHelm = true ∨ isOutputStage s g = false) := by
    rintro (h | h)
    · exact Bool.false_ne_true (hh.symm.trans h)
    · exact Bool.false_ne_true (h.symm.trans ho)
  rw [endRamp, if_neg waits]
  extract_lets t
  have ht : t.sx.stage[g].st = .rampDown :=
    (congrArg Stage.st (updStage_get s g fun x => { x with parked := true })).trans hst
  have entered : Keeps [.outlet] t
      ((stageOutlets t g).foldl (fun u o => if u.outlet[o].st = .rampDown then enter u o .weldCheck else u) t) :=
    Keeps.foldl (Keeps.refl _ t) fun u o h => Keeps.ite (h.trans (keep_enter ..)) h
  rw [entered.same .sxStage (by decide)]
  exact ht

/-- A stage parked at its ramp's end, its contactors open, whose discharge is requested: as `discharged` says (R126). -/
theorem execDischargeRequest_parked {s : State} {g : Fin 8} (hst : s.sx.stage[g].st = .rampDown)
    (hp : s.sx.stage[g].parked = true) (ho : (stageOutlets s g).all (fun o => !s.lk.outlet[o].closed) = true) :
    execDischargeRequest g s = .next (if canDischarge s g then
      reshare (updStage s g fun x => { x with st := .discharge, parked := false, noSinkRestr := false }) g
      else withStages s fun t => stageOff t g none) :=
  congrArg Host.Outcome.next (if_pos ⟨hst, hp, ho⟩)

/-! ### Helm's heartbeat and setpoints -/

theorem execLaneHeartbeat_up {s : State} (hh : s.landfall.helmUp = true) (hu : s.sx.up = true) :
    execLaneHeartbeat s = .next (
      let t := { s with sx := { s.sx with beating := true, helmLost := false } }
      if s.sx.helmLost then logClear t 0x0406 .sextant 0 else t) :=
  congrArg Host.Outcome.next (if_pos (by rw [hh, hu]; rfl))

/-- Helm's setpoints are the stage's, and its own follows as `takeVSet` says; the limits and the split that follow are no
setpoints (R26, R120, R125, R139). -/
theorem execLaneSetpointUpdate_up {s : State} (g : Fin 8) (iSet vSet : Int) (hu : s.sx.up = true) :
    ∃ t, execLaneSetpointUpdate g iSet vSet s = .next t ∧ t.sx.stage[g].iSet = iSet ∧ t.sx.stage[g].vCmd = vSet
      ∧ t.sx.stage[g].vSet = (takeVSet s g vSet s.sx.stage[g]).vSet
      ∧ t.sx.stage[g].vGoal = (takeVSet s g vSet s.sx.stage[g]).vGoal := by
  refine ⟨_, congrArg Host.Outcome.next (if_pos hu), ?_⟩
  extract_lets noted aged
  have taken : aged.sx.stage[g] = { takeVSet s g vSet s.sx.stage[g] with iSet := iSet, vCmd := vSet } := updStage_get ..
  obtain ⟨hi, hc, hv, hg⟩ := ((followLimit_reshared aged g).trans (resplit_reshared s _)).setpoints g
  rw [(keep_trackBanks _).same .sxStage (by decide), hi, hc, hv, hg, taken]
  exact ⟨rfl, rfl, rfl, rfl⟩

/-- Settles O2: clause by clause, from what each command does in the case that the clause names. -/
theorem stageStopCompletes : Obligations.StageStopCompletes := by
  unfold Obligations.StageStopCompletes
  refine ⟨fun s g h => ⟨_, rfl, (withStages_off (haltStage · g none) (haltStage_off none h)).1⟩,
    fun s g h => ⟨_, rfl, withStages_rampDown (haltStage · g none) (haltStage_rampDown none h)⟩,
    fun s g hst hi hh => ⟨_, congrArg Host.Outcome.next (if_pos ⟨hst, hi⟩),
      (withStages_off (endRamp · g) (endRamp_byHelm hh)).1⟩,
    fun s g hst hi hh ho => ⟨_, congrArg Host.Outcome.next (if_pos ⟨hst, hi⟩),
      withStages_rampDown (endRamp · g) (endRamp_output hst hh ho)⟩,
    fun s g hst hp ho hd => (execDischargeRequest_parked hst hp ho).trans (congrArg Host.Outcome.next (if_pos hd)),
    fun s g hst hp ho hd => ⟨_, execDischargeRequest_parked hst hp ho, ?_⟩,
    fun s g hst hv => ⟨_, congrArg Host.Outcome.next (if_pos ⟨hst, hv⟩),
      (withStages_off (stageOff · g none) (stageOff_stage ..).1).1⟩,
    fun s g hst => ⟨_, congrArg Host.Outcome.next (if_pos hst), ?_⟩,
    fun s hh hu hl => (execLaneHeartbeat_up hh hu).trans (congrArg Host.Outcome.next (if_neg (by rw [hl]; decide))),
    fun s hh hu hl => (execLaneHeartbeat_up hh hu).trans (congrArg Host.Outcome.next (if_pos hl)),
    fun s hb => congrArg Host.Outcome.next (if_pos hb),
    fun s g iSet vSet hu => execLaneSetpointUpdate_up g iSet vSet hu, fun s => rfl⟩
  · rw [if_neg (by rw [hd]; decide)]
    exact (withStages_off (stageOff · g none) (stageOff_stage ..).1).1
  · obtain ⟨hoff, hfail⟩ := withStages_off (s := s) (stageOff · g (some 4)) (stageOff_stage s g (some 4)).1
    exact ⟨hoff, hfail.trans (stageOff_fail ..)⟩

end Sys2Proof.Machine
end

section
/-!
SUPPORT. What latches a stage, from the driver inputs, the readback, the engine, the currents and the gate permit, and what
takes a cell out (R21, R77, R79, R112, R124, R135, R138 to R140; O3).
-/
namespace Sys2Proof.Machine

/-- A running stage is not OFF (R117). -/
theorem StageSt.ne_off_of_running {x : StageSt} (h : x.running = true) : x ≠ .off := by
  rintro rfl
  cases h

/-- A latch from any state but OFF (R116). -/
theorem latchAndTell_latchedBy {s : State} {g : Fin 8} (c : LatchCause) (h : s.sx.stage[g].st ≠ .off) :
    LatchedBy (latchAndTell s g c) g c :=
  latchAndTell_latched s g c (.inl h)

/-! ### Driver faults and readback -/

/-- Which cells a stage has is configuration. -/
theorem cellOf_of_cfg {s t : State} (h : t.cfg = s.cfg) : cellOf t = cellOf s := by
  funext g c
  simp only [cellOf, cfgB, cfgN, cfgWord, h]

theorem stageCells_of_cfg {s t : State} (h : t.cfg = s.cfg) (g : Fin 8) : stageCells t g = stageCells s g := by
  rw [stageCells, stageCells, cellOf_of_cfg h]

theorem cfgN_of_cfg {s t : State} (h : t.cfg = s.cfg) : cfgN t = cfgN s := by
  funext blk inst off hi lo
  simp only [cfgN, cfgWord, h]

theorem chanOfCell_of_cfg {s t : State} (h : t.cfg = s.cfg) : chanOfCell t = chanOfCell s := by
  funext g c n
  unfold chanOfCell stgKind
  rw [cfgN_of_cfg h]

/-- Which stage owns a channel is configuration. -/
theorem channelStage_of_cfg {s t : State} (h : t.cfg = s.cfg) (n : Fin 48) : channelStage t n = channelStage s n := by
  simp only [channelStage, stageCells_of_cfg h, chanOfCell_of_cfg h]

theorem updChannel_get (s : State) (n : Fin 48) (f : Channel → Channel) :
    (updChannel s n f).sx.channel[n] = f s.sx.channel[n] :=
  upd_same ..

/-- A driver fault latches the owning stage, in OFF too (R79, R116). -/
theorem driverFault_latchedBy {s : State} {n : Fin 48} {g : Fin 8} (h : channelStage s n = some g) :
    LatchedBy (driverFault s n) g .flt := by
  rw [driverFault, h]
  exact latchAndTell_latched _ g .flt (.inr (.inl rfl))

/-- The input's level noted concerns no stage. -/
theorem channelStage_updChannel (s : State) (n m : Fin 48) (f : Channel → Channel) :
    channelStage (updChannel s m f) n = channelStage s n :=
  channelStage_of_cfg rfl n

theorem execFltNAssert_pulse {s : State} {n : Fin 48} {w : Nat} (h : 5000 ≤ w) : execFltNAssert n (some w) s =
    .next (driverFault (updChannel s n fun x => { x with fltIn := false }) n) :=
  congrArg Host.Outcome.next (if_pos h)

theorem execFltNAssert_glitch {s : State} {n : Fin 48} {w : Nat} (h : w ≤ 2000) : execFltNAssert n (some w) s =
    .next (updChannel s n fun x => { x with fltIn := false }) :=
  congrArg Host.Outcome.next ((if_neg (by omega)).trans (if_pos h))

/-- A pulse that may act or not draws a free value for it (R78, log 8). -/
theorem execFltNAssert_between {s : State} {n : Fin 48} {w : Nat} (lo : 2000 < w) (hi : w < 5000) :
    execFltNAssert n (some w) s = .next (
      let r := drawBit (updChannel s n fun x => { x with fltIn := false })
      if r.1 then driverFault r.2 n else r.2) :=
  congrArg Host.Outcome.next ((if_neg (by omega)).trans (if_neg (by omega)))

/-- Whether it acts or not, one free value is drawn; it latches the stage or leaves the stages alone. -/
theorem execFltNAssert_between_effect {s : State} {n : Fin 48} {g : Fin 8} {w : Nat} (h : channelStage s n = some g)
    (lo : 2000 < w) (hi : w < 5000) : ∃ t, execFltNAssert n (some w) s = .next t ∧ t.free = s.free + 1
      ∧ (Config.freeBit s.free = true → LatchedBy t g .flt)
      ∧ (Config.freeBit s.free = false → t.sx.stage = s.sx.stage) := by
  refine ⟨_, execFltNAssert_between lo hi, ?_⟩
  extract_lets r
  have hbit : r.1 = Config.freeBit s.free := rfl
  have howned : channelStage r.2 n = some g := (channelStage_of_cfg rfl n).trans h
  rw [hbit]
  cases hb : Config.freeBit s.free with
  | true => exact ⟨(keep_driverFault r.2 n).same .free (by decide), fun _ => driverFault_latchedBy howned, nofun⟩
  | false => exact ⟨rfl, nofun, fun _ => rfl⟩

/-- The channel's readback error recorded and logged (R77). -/
def readbackNoted (s : State) (n : Fin 48) (high : Bool) : State :=
  detectFab (updChannel s n fun x => if high then { x with rbErrH := true } else { x with rbErrL := true }) 0x0402 n []

/-- A readback mismatch latches the owning stage, in OFF too (R77, R116). -/
theorem execReadbackMismatch_owned {s : State} {n : Fin 48} {g : Fin 8} (high : Bool) (h : channelStage s n = some g) :
    execReadbackMismatch n high s = .next (latchAndTell (readbackNoted s n high) g .readback) := by
  rw [execReadbackMismatch, h, readbackNoted]

theorem execReadbackMismatch_free {s : State} {n : Fin 48} (high : Bool) (h : channelStage s n = none) :
    execReadbackMismatch n high s = .next (readbackNoted s n high) := by
  rw [execReadbackMismatch, h, readbackNoted]

/-- The error of the output that misread is held (R77). -/
theorem readbackNoted_channel (s : State) (n : Fin 48) (high : Bool) :
    if high then (readbackNoted s n high).sx.channel[n].rbErrH = true
    else (readbackNoted s n high).sx.channel[n].rbErrL = true := by
  rw [readbackNoted, (keep_detectFab ..).same .sxChannel (by decide), updChannel_get]
  cases high <;> rfl

/-! ### The engine -/

theorem execOverrunLatch_owned {s : State} {i : Fin 96} {g : Fin 8} (h : 3 ≤ s.sx.law[i].ovrConsec)
    (hg : lawStage s i = some g) : execOverrunLatch i s = .next (latchAndTell s g .overrun) := by
  rw [execOverrunLatch, if_neg (Nat.not_lt.mpr h), hg]

/-- A law without a stage that overruns three times in a row is stopped (R112). -/
theorem execOverrunLatch_free {s : State} {i : Fin 96} (h : 3 ≤ s.sx.law[i].ovrConsec) (hg : lawStage s i = none)
    (hs : s.sx.law[i].stopped = false) : ∃ t, execOverrunLatch i s = .next t ∧ t.sx.law[i].stopped = true
      ∧ t.sx.law[i].ready = none ∧ t.sx.law[i].out = none := by
  have running : ¬s.sx.law[i].stopped = true := by rw [hs]; decide
  rw [execOverrunLatch, if_neg (Nat.not_lt.mpr h), hg]
  dsimp only
  rw [if_neg running]
  refine ⟨_, rfl, ?_⟩
  rw [(keep_logDetect ..).same .sxLaw (by decide), (keep_coolToLimit ..).same .sxLaw (by decide), updLaw_get]
  exact ⟨rfl, rfl, rfl⟩

/-! ### The gate permit -/

/-- A latch is of one stage. -/
theorem latchStage_sameOff (s : State) (g : Fin 8) (c : LatchCause) : SameOff (·.sx.stage) g s (latchStage s g c) := by
  unfold latchStage
  refine .ite (.of_eq rfl) ?_
  unfold stageLatched
  extract_lets was t u
  have ht : SameOff (·.sx.stage) g s t := updStage_sameOff ..
  refine .ite ht (ht.trans (.of_eq ((afeDrop_stage ..).trans ?_)))
  have parked : u.sx.stage = t.sx.stage := (keep_parkChannels ..).same .sxStage (by decide)
  split
  · exact parked
  · exact ((keep_detectFab ..).same .sxStage (by decide)).trans parked

theorem latchStage_latchedBy {s : State} {g : Fin 8} {c : LatchCause} (h : s.sx.stage[g].st ≠ .off) :
    LatchedBy (latchStage s g c) g c := by
  rw [latchStage, if_neg fun k => h k.1]
  exact stageLatched_latched s g c

/-- Of the stages told of one cause, each that was not OFF is latched by it, as is one that was latched by it already. -/
theorem foldl_latchStage_latchedBy {g : Fin 8} {c : LatchCause} {l : List (Fin 8)} {s : State}
    (h : (g ∈ l ∧ s.sx.stage[g].st ≠ .off) ∨ LatchedBy s g c) :
    LatchedBy (l.foldl (fun t k => latchStage t k c) s) g c := by
  induction l generalizing s with
  | nil => exact h.resolve_left fun k => List.not_mem_nil k.1
  | cons k l ih =>
    refine ih ?_
    by_cases e : g = k
    · subst e
      have notOff : s.sx.stage[g].st ≠ .off := h.elim And.right fun k => by rw [k.1]; decide
      exact .inr (latchStage_latchedBy notOff)
    · have same : (latchStage s k c).sx.stage[g] = s.sx.stage[g] := (latchStage_sameOff s k c).other e
      unfold LatchedBy
      rw [same]
      exact h.imp_left fun m => ⟨(List.mem_cons.mp m.1).resolve_left e, m.2⟩

/-- A latch stays through what follows. -/
theorem withStages_latchedBy {s : State} {f : State → State} {g : Fin 8} {c : LatchCause} (h : LatchedBy (f s) g c) :
    LatchedBy (withStages s f) g c := by
  obtain ⟨hst, -, -, hmask⟩ := withStages_keepsResting g s f (.inr (.inl h.1))
  exact ⟨hst.trans h.1, (congrArg (·.testBit (c.code - 1)) hmask).trans h.2⟩

/-! ### Retirements -/

theorem execCbcLatch_due {s : State} {c : Fin 48} {g : Fin 8} (hc : cellStage s c = some g)
    (hr : s.sx.stage[g].st.running = true)
    (hn : cfgN s 0x11 g 0x050 31 24 ≤ s.sx.cell[c].cbcRun + flag s.sx.cell[c].cbcHit) :
    execCbcLatch c s = .next (latchAndTell s g .cbc) := by
  rw [execCbcLatch, hc]
  exact congrArg Host.Outcome.next (if_pos (by rw [hr, decide_eq_true hn]; rfl))

theorem execCellOpenRetire_due {s : State} {c : Fin 48} {g : Fin 8} (hc : cellStage s c = some g)
    (hr : s.sx.stage[g].st.running = true) (ho : cellOpen s g c = true) :
    execCellOpenRetire c s = .next (withStages s fun t => retireCell t g c 1) := by
  rw [execCellOpenRetire, hc]
  exact congrArg Host.Outcome.next (if_pos (by rw [hr, ho]; rfl))

theorem execEstTExpiry_due {s : State} {c : Fin 48} {g : Fin 8} (hc : cellStage s c = some g)
    (hr : s.sx.stage[g].st.running = true) (he : s.sx.cell[c].st = .estimated)
    (hi : sdInvalid s (cellSrc s c) = true) :
    execEstTExpiry c s = .next (reshare (updCell s c fun x => { x with rampOut := true, ramp := 0 }) g) := by
  rw [execEstTExpiry, hc]
  exact congrArg Host.Outcome.next (if_pos ⟨hr, he, hi⟩)

/-- Settles O3: clause by clause, from what each command does in the case that the clause names. -/
theorem latchesComplete : Obligations.LatchesComplete := by
  unfold Obligations.LatchesComplete
  refine ⟨fun s g hst hi => ⟨_, congrArg Host.Outcome.next (if_pos ⟨hst, hi⟩), latchAndTell_latchedBy _ ?_⟩,
    fun s c g hc hr hn => ⟨_, execCbcLatch_due hc hr hn, latchAndTell_latchedBy _ (StageSt.ne_off_of_running hr)⟩,
    fun s g h0 hr hi => ⟨_, congrArg Host.Outcome.next (if_pos ⟨h0, hr, hi⟩),
      latchAndTell_latchedBy _ (StageSt.ne_off_of_running hr)⟩,
    fun s n g hg => ⟨_, rfl, driverFault_latchedBy ((channelStage_updChannel ..).trans hg)⟩,
    fun s n g w hg hw => ⟨_, execFltNAssert_pulse hw, driverFault_latchedBy ((channelStage_updChannel ..).trans hg)⟩,
    fun s n w hw => execFltNAssert_glitch hw,
    fun s n g w hg lo hi => execFltNAssert_between_effect hg lo hi,
    fun s n g high hg => ⟨_, execReadbackMismatch_owned high hg, latchAndTell_latched _ g .readback (.inr (.inr rfl))⟩,
    fun s n high hn => ⟨_, execReadbackMismatch_free high hn, readbackNoted_channel s n high⟩,
    fun s i g h hg hst => ⟨_, execOverrunLatch_owned h hg, latchAndTell_latchedBy _ hst⟩,
    fun s i h hg hs => execOverrunLatch_free h hg hs,
    fun s lineB g hst => ⟨_, rfl, withStages_latchedBy
      (foldl_latchStage_latchedBy (.inl ⟨List.mem_finRange g, hst⟩))⟩,
    fun s c g hc hr ho => execCellOpenRetire_due hc hr ho,
    fun s c g hc hr he hi => execEstTExpiry_due hc hr he hi⟩
  obtain h | h := hst <;> rw [h] <;> decide

end Sys2Proof.Machine
end

section
/-!
SUPPORT. The AFE3 front end: its precharge, the requests for the outputs of kinds 3 and 4, its automatic start and stop
(R125, R488; O4).
-/
namespace Sys2Proof.Machine

/-- Settles O4: each command's condition is what the clause names, and a front end that stops from RUN ramps down. -/
theorem frontEndCompletes : Obligations.FrontEndCompletes := by
  unfold Obligations.FrontEndCompletes
  refine ⟨fun s g hst hk hv hm hl ho => congrArg Host.Outcome.next (if_pos ⟨hst, hk, ?_⟩),
    fun s g hk hp hc hgp hw hst => congrArg Host.Outcome.next (if_pos ⟨hk, hp, ?_, hst⟩),
    fun s g hst hk hv => congrArg Host.Outcome.next (if_pos ⟨hst, hk, hv⟩),
    fun s hm => congrArg Host.Outcome.next (if_pos hm),
    fun s g hst hk hq => ⟨_, congrArg Host.Outcome.next (if_pos ⟨hst, hk, hq⟩),
      withStages_rampDown (haltStage · g none) (haltStage_rampDown none (.inr hst))⟩⟩
  · rw [hv, hm, hl, ho]
    rfl
  · rw [hc, hgp, hw]
    rfl

end Sys2Proof.Machine
end

section
/-!
SUPPORT. Shedding and adding, load-step firing, and the Compass rose at a period boundary (R83, R84, R94, R128 to R134;
O5).
-/
namespace Sys2Proof.Machine

/-! ### Shedding and adding -/

theorem execShedStart_due {s : State} {g : Fin 8} {c : Fin 48} (hw : shedWanted s g = true) (hm : mayRamp s g = true)
    (hh : s.sx.stage[g].shedHold = false)
    (hc : ((stageCells s g).filter fun c => s.sx.cell[c].st = .inService).getLast? = some c) :
    execShedStart g s = .next (reshare (updCell s c fun x => { x with st := .shedding, ramp := 0 }) g) := by
  have due : (shedWanted s g && mayRamp s g && !s.sx.stage[g].shedHold) = true := by rw [hw, hm, hh]; rfl
  rw [execShedStart, if_pos due, hc]

theorem execAddStart_due {s : State} {g : Fin 8} {c : Fin 48} (hw : addWanted s g = true) (hm : mayRamp s g = true)
    (hc : ((stageCells s g).find? fun c => s.sx.cell[c].st = .shed) = some c) :
    execAddStart g s = .next (reshare (updStage (clearLaws (updCell s c fun x => { x with st := .adding, ramp := 0 })
      g (lawOfCell s c)) g fun x => { x with needTargets := true }) g) := by
  have due : (addWanted s g && mayRamp s g) = true := by rw [hw, hm]; rfl
  rw [execAddStart, if_pos due, hc]

/-! ### Load-step firing -/

/-- The stage that a comparator's chart word names (R94). -/
def uscStage (s : State) (k : Fin 8) : Fin 8 := Fin.ofNat 8 (cfgN s 0x10 0 (0x040 + 4 * k.val) 30 28)

/-- A comparator's event: below its threshold, and falling faster than SLOPE (R131). -/
def uscDue (s : State) (k : Fin 8) (microvolt slope : Nat) : Bool :=
  uscBelow s k microvolt && decide (10 * cfgN s 0x10 0 (0x040 + 4 * k.val) 15 8 < slope)

/-- The state once a comparator has shown its level, and its event if it has one (R94). -/
def uscSeen (s : State) (k : Fin 8) (microvolt slope t : Nat) : State :=
  let rest := s.sx.uscLevel - Nat.land s.sx.uscLevel (2 ^ k.val)
  seeCount { s with sx := { s.sx with
    uscFired := if uscDue s k microvolt slope then s.sx.uscFired ||| 2 ^ k.val else s.sx.uscFired
    uscLevel := if uscBelow s k microvolt then rest + 2 ^ k.val else rest } } t

/-- The stage may fire (R131). -/
def mayFire (s : State) (g : Fin 8) : Bool :=
  cfgB s 0x11 g 0x040 31 && decide (s.sx.stage[g].st = .noSink ∨ s.sx.stage[g].st = .run) && s.sx.stage[g].armed

/-- An enabled comparator shows its level; an event makes its stage fire or is counted, and a front end is not served. -/
theorem execUscEvent_enabled {s : State} {k : Fin 8} (microvolt slope t : Nat)
    (h : cfgB s 0x10 0 (0x040 + 4 * k.val) 31 = true) : execUscEvent k microvolt slope t s = .next (
      if !uscDue s k microvolt slope || stgKind s (uscStage s k) == 4 then uscSeen s k microvolt slope t
      else if mayFire s (uscStage s k) then fire (uscSeen s k microvolt slope t) (uscStage s k) slope (16000 * t)
      else updAux (uscSeen s k microvolt slope t) (uscStage s k) fun a => { a with fireCnt := satInc 16 a.fireCnt }) :=
  congrArg Host.Outcome.next (if_pos h)

/-- What an event does to its stage is no part of the comparators (R94, R131). -/
theorem execUscEvent_comparators {s : State} {k : Fin 8} (microvolt slope tm : Nat)
    (h : cfgB s 0x10 0 (0x040 + 4 * k.val) 31 = true) : ∃ t, execUscEvent k microvolt slope tm s = .next t
      ∧ t.sx.uscFired = (uscSeen s k microvolt slope tm).sx.uscFired
      ∧ t.sx.uscLevel = (uscSeen s k microvolt slope tm).sx.uscLevel := by
  refine ⟨_, execUscEvent_enabled microvolt slope tm h, ?_⟩
  split
  · exact ⟨rfl, rfl⟩
  · split
    · have rest := (keep_fire (uscSeen s k microvolt slope tm) (uscStage s k) slope (16000 * tm)).same .sxRest (by decide)
      simp only [Part.same, Prod.mk.injEq] at rest
      obtain ⟨-, hfired, hlevel, -⟩ := rest
      exact ⟨hfired, hlevel⟩
    · exact ⟨rfl, rfl⟩

theorem uscSeen_uscFired (s : State) (k : Fin 8) (microvolt slope t : Nat) :
    (uscSeen s k microvolt slope t).sx.uscFired =
      if uscBelow s k microvolt = true ∧ 10 * cfgN s 0x10 0 (0x040 + 4 * k.val) 15 8 < slope then
        s.sx.uscFired ||| 2 ^ k.val else s.sx.uscFired :=
  if_congr (by rw [uscDue, Bool.and_eq_true, decide_eq_true_iff]) rfl rfl

theorem uscSeen_uscLevel (s : State) (k : Fin 8) (microvolt slope t : Nat) :
    (uscSeen s k microvolt slope t).sx.uscLevel = s.sx.uscLevel - Nat.land s.sx.uscLevel (2 ^ k.val)
      + (if uscBelow s k microvolt then 2 ^ k.val else 0) := by
  change (if uscBelow s k microvolt then _ else _) = _
  split
  · rfl
  · rfl

/-- A stage that fires keeps the current it fired at, and is not armed (R131 to R133). -/
theorem fire_stage (s : State) (g : Fin 8) (slope at_ : Nat) : (fire s g slope at_).sx.stage[g].firing = true
    ∧ (fire s g slope at_).sx.stage[g].armed = false ∧ (fire s g slope at_).sx.stage[g].fireI = stageCur s g := by
  unfold fire
  extract_lets shed i abandoned held fired forced
  have hfired : fired.sx.stage[g] =
      { held.sx.stage[g] with firing := true, armed := false, fireI := i, fireSlope := slope } := updStage_get ..
  have kept : Keeps [.sxChannel, .sxCell] fired forced := by
    unfold forced
    split
    · refine Keeps.foldl (Keeps.refl _ _) fun u c h => ?_
      split
      · exact h.trans (keep_applyPhs ..)
      · exact h.trans (keep_applyPhs ..)
      · exact h
    · exact Keeps.foldl (Keeps.refl _ _) fun u c h => h.trans ((keep_forcedEdges ..).mono (by decide))
  have hforced : forced.sx.stage = fired.sx.stage := kept.same .sxStage (by decide)
  have hend : (if shed.isEmpty then forced else reshare forced g).sx.stage = fired.sx.stage := by
    split
    · exact hforced
    · exact (reshare_stage ..).trans hforced
  rw [hend, hfired]
  exact ⟨rfl, rfl, rfl⟩

/-- An event at a stage that may fire (R131). -/
theorem execUscEvent_fires {s : State} {k : Fin 8} {microvolt slope : Nat} (tm : Nat)
    (h : cfgB s 0x10 0 (0x040 + 4 * k.val) 31 = true) (hd : uscDue s k microvolt slope = true)
    (hk : stgKind s (uscStage s k) ≠ 4) (hm : mayFire s (uscStage s k) = true) :
    execUscEvent k microvolt slope tm s =
      .next (fire (uscSeen s k microvolt slope tm) (uscStage s k) slope (16000 * tm)) := by
  have served : ¬(!uscDue s k microvolt slope || stgKind s (uscStage s k) == 4) = true := by simp [hd, hk]
  rw [execUscEvent_enabled _ _ _ h, if_neg served, if_pos hm]

/-- A front end is not served by the comparators (log 15). -/
theorem execUscEvent_afe {s : State} {k : Fin 8} (microvolt slope tm : Nat) (hk : stgKind s (uscStage s k) = 4) :
    ∃ t, execUscEvent k microvolt slope tm s = .next t ∧ t.sx.stage = s.sx.stage ∧ t.sx.aux = s.sx.aux := by
  by_cases h : cfgB s 0x10 0 (0x040 + 4 * k.val) 31 = true
  · have spared : (!uscDue s k microvolt slope || stgKind s (uscStage s k) == 4) = true := by simp [hk]
    exact ⟨_, (execUscEvent_enabled _ _ _ h).trans (congrArg Host.Outcome.next (if_pos spared)), rfl, rfl⟩
  · exact ⟨_, congrArg Host.Outcome.next (if_neg h), rfl, rfl⟩

/-- The end of a firing: the forced reference is released, and the firing counted (R133). -/
theorem execFireEnd_firing {s : State} {g : Fin 8} (tm : Nat) (h : s.sx.stage[g].firing = true) :
    ∃ t, execFireEnd g tm s = .next t ∧ t.sx.stage[g].firing = false
      ∧ t.sx.aux[g].fireCnt = satInc 16 s.sx.aux[g].fireCnt := by
  refine ⟨_, congrArg Host.Outcome.next (if_pos h), ?_⟩
  extract_lets released edged counted
  have edges : Keeps [.sxChannel] released edged :=
    Keeps.foldl (Keeps.refl _ _) fun u c k => k.trans (keep_forcedEdges ..)
  have hstage : counted.sx.stage = released.sx.stage := edges.same .sxStage (by decide)
  have haux : edged.sx.aux = s.sx.aux := edges.same .sxAux (by decide)
  have hcounted : counted.sx.stage[g].firing = false ∧ counted.sx.aux[g].fireCnt = satInc 16 s.sx.aux[g].fireCnt := by
    refine ⟨?_, ?_⟩
    · rw [hstage, updStage_get]
    · rw [updAux_get, haux]
  obtain ⟨hfiring, hcnt⟩ := hcounted
  split
  · exact ⟨hfiring, hcnt⟩
  · have preloaded (i : Fin 96) (target : Int) := (keep_preload counted i target).same
    exact ⟨(congrArg (fun v => v[g].firing) (preloaded _ _ .sxStage (by decide))).trans hfiring,
      (congrArg (fun v => v[g].fireCnt) (preloaded _ _ .sxAux (by decide))).trans hcnt⟩

/-! ### The Compass rose -/

theorem execRoseTargetsSet_due {s : State} {g : Fin 8} (h : s.sx.stage[g].needTargets = true) :
    ∃ t, execRoseTargetsSet g s = .next t ∧ t.sx.stage[g].needTargets = false := by
  refine ⟨_, congrArg Host.Outcome.next (if_pos h), ?_⟩
  extract_lets live aimed told
  have htold : told.sx.stage[g].needTargets = false := congrArg Stage.needTargets (updStage_get ..)
  split
  · exact htold
  · exact htold

/-- The reference instant moves on by a period, and nothing else of the stages' auxiliary state (R82, R85). -/
theorem stageCarrierStart_aux (s : State) (g : Fin 8) : (stageCarrierStart s g).sx.aux =
    upd s.sx.aux g fun a => { a with refAt := s.sx.aux[g].refAt + carrierPeriod s g } := by
  unfold stageCarrierStart
  extract_lets at_ moved src pulsed
  have hpulsed : pulsed.sx.aux = moved.sx.aux := by
    unfold pulsed
    split <;> rfl
  exact ((keep_alignInputs pulsed g).same .sxAux (by decide)).trans hpulsed

/-- No cell of the stage leaves at this boundary: none is to be retired, and none has ramped out (R140, Table 05-4). -/
def NoneLeaves (s : State) (g : Fin 8) : Prop :=
  ((stageCells s g).all fun c =>
    !(s.sx.cell[c].retireNext || (s.sx.cell[c].rampOut && decide (shedRamp s g ≤ s.sx.cell[c].ramp)))) = true

/-- The cells due to leave are none, in every state with the same chart and cells. -/
theorem NoneLeaves.due {s t : State} {g : Fin 8} (h : NoneLeaves s g) (hcfg : t.cfg = s.cfg)
    (hcell : t.sx.cell = s.sx.cell) : ((stageCells t g).filter fun c =>
      t.sx.cell[c].retireNext || (t.sx.cell[c].rampOut && decide (shedRamp t g ≤ t.sx.cell[c].ramp))) = [] := by
  have hcells : stageCells t g = stageCells s g := stageCells_of_cfg hcfg g
  have hramp : shedRamp t g = shedRamp s g := by rw [shedRamp, shedRamp, cfgN_of_cfg hcfg]
  rw [List.filter_eq_nil_iff, hcells, hramp, hcell]
  intro c hc
  have stays := List.all_eq_true.mp h c hc
  rw [Bool.not_eq_true'] at stays
  exact Bool.eq_false_iff.mp stays

/-- A period boundary at which no cell leaves (R82, R84, R123). -/
theorem execRoseMoveStep_noneLeaves {s : State} {g : Fin 8} (h : NoneLeaves s g) : ∃ t, execRoseMoveStep g s = .next t
    ∧ t.sx.aux[g].phEff = roseStep (48 + g) s.sx.aux[g].phEff s.sx.aux[g].phTgt
    ∧ t.sx.aux[g].refAt = s.sx.aux[g].refAt + carrierPeriod s g
    ∧ t.sx.stage = upd s.sx.stage g fun x => { x with noSinkRestr := x.noSinkRestr && !x.lift, lift := false } := by
  refine ⟨_, rfl, ?_⟩
  extract_lets started lifted due left moved turned
  have hstarted : Keeps [.sxAux, .sxSd, .sxRest] s started := keep_stageCarrierStart s g
  have hcfg : started.cfg = s.cfg := hstarted.same .cfg (by decide)
  have hcell : started.sx.cell = s.sx.cell := hstarted.same .sxCell (by decide)
  have hstarts : started.sx.stage = s.sx.stage := hstarted.same .sxStage (by decide)
  have hmoves : started.sx.aux = upd s.sx.aux g fun a => { a with refAt := s.sx.aux[g].refAt + carrierPeriod s g } :=
    stageCarrierStart_aux s g
  clear_value started
  have hdue : due = [] := h.due (t := lifted) hcfg hcell
  have hleft : left = lifted := if_pos (List.isEmpty_iff.mpr hdue)
  have cells : Keeps [.sxCell] left moved := Keeps.foldl (Keeps.refl _ _) fun u c k => k.trans (keep_updCell ..)
  have hstage : turned.sx.stage = upd s.sx.stage g fun x =>
      { x with noSinkRestr := x.noSinkRestr && !x.lift, lift := false } := by
    have e : moved.sx.stage = lifted.sx.stage := (cells.same .sxStage (by decide)).trans (by rw [hleft])
    calc turned.sx.stage = lifted.sx.stage := e
      _ = upd started.sx.stage g _ := rfl
      _ = _ := by rw [hstarts]
  have haux : turned.sx.aux[g] = { s.sx.aux[g] with
      refAt := s.sx.aux[g].refAt + carrierPeriod s g
      phEff := roseStep (48 + g) s.sx.aux[g].phEff s.sx.aux[g].phTgt } := by
    have e : moved.sx.aux = started.sx.aux := (cells.same .sxAux (by decide)).trans (by rw [hleft]; rfl)
    rw [updAux_get, e, hmoves, upd_same]
  have final : (if (stageCells turned g).any (fun c => turned.sx.cell[c].ramps) then reshare turned g
      else turned).sx.aux = turned.sx.aux ∧ (if (stageCells turned g).any (fun c => turned.sx.cell[c].ramps) then
      reshare turned g else turned).sx.stage = turned.sx.stage := by
    split
    · exact ⟨(keep_reshare ..).same .sxAux (by decide), reshare_stage ..⟩
    · exact ⟨rfl, rfl⟩
  obtain ⟨faux, fstage⟩ := final
  rw [faux, fstage, haux]
  exact ⟨rfl, rfl, hstage⟩

/-- Settles O5: clause by clause, from what each command does in the case that the clause names. -/
theorem sheddingCompletes : Obligations.SheddingCompletes := by
  unfold Obligations.SheddingCompletes
  refine ⟨fun s g c hw hm hh hc => execShedStart_due hw hm hh hc, fun s g c hw hm hc => execAddStart_due hw hm hc,
    fun s g c _ hc => ?_, fun s g c _ hc => ?_,
    fun s g hf => congrArg Host.Outcome.next (if_neg (by rw [hf]; decide)), fun s g => rfl,
    fun s k uV slope tm he => ?_, fun s k uV slope tm g he hg hb hsl hk hen hst ha => ?_,
    fun s k uV slope tm hk => execUscEvent_afe uV slope tm hk,
    fun s g tm hf => execFireEnd_firing tm hf,
    fun s g hn => execRoseTargetsSet_due hn, fun s g hn => execRoseMoveStep_noneLeaves hn⟩
  · rw [exec_shedRampEnd, execShedRampEnd, hc]
  · rw [exec_addRampEnd, execAddRampEnd, hc]
  · obtain ⟨t, ht, hfired, hlevel⟩ := execUscEvent_comparators uV slope tm he
    exact ⟨t, ht, hfired.trans (uscSeen_uscFired ..), hlevel.trans (uscSeen_uscLevel ..)⟩
  · subst hg
    have due : uscDue s k uV slope = true := by rw [uscDue, hb, decide_eq_true hsl]; rfl
    have may : mayFire s (uscStage s k) = true := by
      unfold mayFire uscStage
      rw [hen, decide_eq_true hst, ha]
      rfl
    exact ⟨_, execUscEvent_fires tm he due hk may, fire_stage ..⟩

end Sys2Proof.Machine
end

section
/-!
SUPPORT. Accepted operations: the state in which one has its effect, and the reads, writes, captures and the barrier (R145,
R217, R402, R405, R411, R460, R461; O32).
-/
namespace Sys2Proof.Machine

section

variable {s u t : State} {f : Frame} {c : HostCmd} {x : Session} {op : Op}

/-- An accepted operation has its effect in a state that differs from the one before in the host interface alone. -/
theorem Accepted.state_host (h : Accepted s f c x u op) : ∃ i : HostIf, u = { s with host := i } := ⟨_, h.state_eq⟩

/-- The operation, as `runOp` sees it: the command, session and role that it was accepted for. -/
theorem Accepted.op_with (h : Accepted s f c x u op) : { op with cmd := c, sid := x.sid, role := x.role } = op := by
  rw [h.operation]
  rfl

/-- An accepted operation has its effect at once, and the die that did it keeps the outcome (R404). -/
theorem Accepted.next_of_run (h : Accepted s f c x u op)
    (run : runOp u { op with cmd := c, sid := x.sid, role := x.role } = t) :
    (.next (Machine.request s f c) : Out) = .next (noteOutcome t op) := by
  rw [h.op_with] at run
  rw [h.request, run]

/-- Helm's own operation leaves no outcome with another die (R404). -/
theorem Accepted.next_of_run_helm (h : Accepted s f c x u op) (hd : c.otherDie = none)
    (run : runOp u { op with cmd := c, sid := x.sid, role := x.role } = t) :
    (.next (Machine.request s f c) : Out) = .next t := by
  obtain ⟨hcmd, -⟩ := h.op_eq
  rw [h.next_of_run run, noteOutcome, hcmd, hd]

/-- A READ_PARAM answers the words read (R460). -/
theorem Accepted.next_readParam {a n : Nat} (h : Accepted s f (.readParam a n) x u op) :
    (.next (Machine.request s f (.readParam a n)) : Out) = .next (runRead u op.opId x.sid a n) :=
  h.next_of_run_helm rfl rfl

/-- A WRITE_PARAM that succeeds leaves what it wrote (R411). -/
theorem Accepted.next_writeParam {a : Nat} {ws : List Word} (h : Accepted s f (.writeParam a ws) x u op)
    (hr : runWrite u x.sid x.role a ws = (.ok, t)) :
    (.next (Machine.request s f (.writeParam a ws)) : Out) = .next (noteOutcome (resolveOp t op.opId .ok []) op) :=
  h.next_of_run (congrArg (fun r : Status × State => resolveOp r.2 op.opId r.1 []) hr)

end

/-- A Fix with the Sextant die running and S-TEL there: the next number, and the stages of the scope latched (R145). -/
theorem runTelFix_running {s : State} (id sc : Nat) (pk : Bool) (hn : needsStage s = false)
    (hl : s.flt.island[(11 : Fin 17)].lost = false) (hu : s.sx.up = true) : runTelFix s id sc pk =
      setResult ((if sc = 0xFF then List.finRange 8 else [Fin.ofNat 8 sc]).foldl
        (fixStage ((s.sx.fixLast + 1) % 2 ^ 32) pk)
        { s with sx := { s.sx with fixLast := (s.sx.fixLast + 1) % 2 ^ 32, fixTime := s.now } })
        id .ok (toBe 4 ((s.sx.fixLast + 1) % 2 ^ 32) ++ toBe 8 s.now) := by
  have there : ¬(s.flt.island[(11 : Fin 17)].lost || !s.sx.up) = true := by rw [hl, hu]; decide
  rw [runTelFix, if_neg (by rw [hn]; decide), if_neg there]

/-- Settles O32: an accepted operation has the effect of `runOp` at once, in a state that differs in the host interface
alone. -/
theorem parametersComplete : Obligations.ParametersComplete := by
  unfold Obligations.ParametersComplete
  refine ⟨fun s f x u op h => h.next_of_run_helm rfl rfl, fun s f x u op h => h.next_of_run_helm rfl rfl,
    fun s f a n x u op h => h.next_of_run_helm rfl rfl, fun s f a n x u op h => ?_,
    fun s f a n x u op h => h.next_readParam, fun s f i x u op h => h.next_readParam,
    fun s f o x u op h => h.next_readParam, fun s f x u op h => h.next_readParam,
    fun s f a ws x u op t h hr => h.next_writeParam hr, fun s f sel i x u op t h hr => h.next_writeParam hr,
    fun s f x u op t h hr => h.next_writeParam hr, fun s f n x u op t hn h hr => ?_,
    fun s f sc pk x u op h hn hl hu => ?_⟩
  · obtain ⟨i, rfl⟩ := h.state_host
    exact h.next_of_run_helm rfl rfl
  · rw [exec_emergReqWrite, execEmergReqWrite, Nat.mod_eq_of_lt hn]
    exact h.next_writeParam hr
  · obtain ⟨i, rfl⟩ := h.state_host
    exact h.next_of_run (runTelFix_running op.opId sc pk hn hl hu)

end Sys2Proof.Machine
end

section
/-!
SUPPORT. Accepted operations on the calendar, the clock, the billing period, the safety confirmation and the latches (R137,
R243, R244, R248, R255, R309, R312, R316, R317, R490; O34).
-/
namespace Sys2Proof.Machine

/-- An operation's outcome kept concerns the host interface alone (R404). -/
theorem noteOutcome_host (t : State) (op : Op) : ∃ i : HostIf, noteOutcome t op = { t with host := i } := by
  unfold noteOutcome
  split
  · exact ⟨_, rfl⟩
  · exact ⟨_, rfl⟩

/-- An accepted operation's effect, the host interface apart. -/
theorem Accepted.next_host {s u t : State} {f : Frame} {c : HostCmd} {x : Session} {op : Op}
    (h : Accepted s f c x u op) (run : runOp u { op with cmd := c, sid := x.sid, role := x.role } = t) :
    ∃ i : HostIf, (.next (Machine.request s f c) : Out) = .next { t with host := i } := by
  obtain ⟨i, e⟩ := noteOutcome_host t op
  exact ⟨i, (h.next_of_run run).trans (congrArg Host.Outcome.next e)⟩

/-- So does an operation's resolution (R411). -/
theorem resolveOp_host (t : State) (id : Nat) (st : Status) (b : Bytes) : ∃ i : HostIf, resolveOp t id st b =
    { t with host := i } := ⟨_, rfl⟩

/-- A LATCH_CLEAR whose scope gives `r` leaves the state of `r`, the host interface apart. -/
theorem Accepted.next_latchClear {s u : State} {f : Frame} {sc n : Nat} {x : Session} {op : Op} (r : Status × State)
    (h : Accepted s f (.latchClear sc n) x u op)
    (run : runLatchClear u op.opId sc n = resolveOp r.2 op.opId r.1 []) :
    ∃ i : HostIf, (.next (Machine.request s f (.latchClear sc n)) : Out) = .next { r.2 with host := i } := by
  obtain ⟨i, hi⟩ := resolveOp_host r.2 op.opId r.1 []
  obtain ⟨j, e⟩ := h.next_host (run.trans hi)
  exact ⟨j, e⟩

/-! ### The calendar -/

/-- Transfers of other commands than FW_STAGE, discarded, leave the firmware targets (R412). -/
theorem dropTransfers_fw {s : State} {p : Transfer → Bool} (h : ∀ y, p y = true → y.cmd ≠ 0x60) :
    (dropTransfers s p).fw = s.fw := by
  unfold dropTransfers
  extract_lets gone host t
  have other : ∀ y ∈ gone, y.cmd ≠ 0x60 := fun y hy => h y (List.mem_filter.mp hy).2
  have ht : t.fw = s.fw := rfl
  clear_value gone t
  induction gone generalizing t with
  | nil => exact ht
  | cons y gone ih =>
    rw [List.foldl_cons, if_neg (other y List.mem_cons_self)]
    exact ih t (fun z hz => other z (List.mem_cons_of_mem y hz)) ht

/-- A chunk of another command than FW_STAGE leaves the firmware targets. -/
theorem takeChunk_fw {s : State} {sid cmd target : Nat} {k : Chunk} (h : cmd ≠ 0x60) :
    (takeChunk s sid cmd target k).1.fw = s.fw := by
  unfold takeChunk
  extract_lets mine old u v
  have drop (w : State) : (dropTransfers w mine).fw = w.fw := dropTransfers_fw fun y hy => by
    rw [Bool.and_eq_true, beq_iff_eq, beq_iff_eq] at hy
    exact hy.2 ▸ h
  have hu : u.fw = s.fw := by
    unfold u
    split
    · exact drop s
    · rfl
  clear_value u v
  cases v with
  | none => exact (drop u).trans hu
  | some y =>
    dsimp only
    split
    · exact (drop u).trans hu
    · split <;> exact hu

theorem runTariff_more {u t : State} {id sid : Nat} {k : Chunk} {d : Bytes}
    (ht : takeChunk u sid 0x30 0 k = (t, some (false, d))) : runTariff u id sid k = resolveOp t id .ok [] := by
  rw [runTariff, ht]

/-- The last chunk of a sound calendar makes it the pending one (R248). -/
theorem runTariff_last {u t : State} {id sid : Nat} {k : Chunk} {d : Bytes} {c : Calendar}
    (ht : takeChunk u sid 0x30 0 k = (t, some (true, d))) (ha : meridianAway u = false)
    (hp : parseCalendar d u.nowNs = some c) : (runTariff u id sid k).mer.tar.pending = some c := by
  have kept := (keep_takeChunk_eq ht).same
  have hfw : t.fw = u.fw := (congrArg (fun r => r.1.fw) ht).symm.trans (takeChunk_fw (by decide))
  have hup : t.mer.up = u.mer.up := congrArg Prod.fst (kept .merRest (by decide))
  have haway : meridianAway t = false := by
    rw [← ha, meridianAway, meridianAway, meridianUpdating, meridianUpdating, hfw, hup]
  have hnow : t.nowNs = u.nowNs := by
    have hchr : t.mer.chr = u.mer.chr := congrArg Prod.fst (kept .merChr (by decide))
    rw [State.nowNs, State.nowNs, hchr]
  rw [runTariff, ht]
  dsimp only
  rw [if_neg (by rw [haway]; decide), hnow, hp]
  exact congrArg TariffState.pending ((keep_legalEvent ..).same .merTar (by decide))

/-! ### The clock and the billing period -/

theorem runClockSet_away {u : State} (id : Nat) (role : Fin 4) (time : Nat) (ha : meridianAway u = true) :
    runClockSet u id role time = resolveOp u id .legalLocked [] := by
  rw [runClockSet, if_pos ha]

/-- A CLOCK_SET that Meridian takes: the source is the host, uncertain by 1 s (R243). -/
theorem runClockSet_set {u : State} (id : Nat) {role : Fin 4} (time : Nat) (ha : meridianAway u = false)
    (hr : role ≠ 0 ∨ u.mer.chr.src ≠ 1) : (runClockSet u id role time).mer.chr.src = 2
      ∧ (runClockSet u id role time).mer.chr.uncNs = 1000000000 := by
  have taken : ¬(role = 0 ∧ u.mer.chr.src = 1) := fun k => hr.elim (· k.1) (· k.2)
  rw [runClockSet, if_neg (by rw [ha]; decide), if_neg taken]
  exact ⟨rfl, rfl⟩

theorem runBillingClose_away {u : State} (id : Nat) (ha : meridianAway u = true) :
    runBillingClose u id = resolveOp u id .legalLocked [] := by
  rw [runBillingClose, if_pos ha]

/-- The period closes at the next whole second (R255). -/
theorem runBillingClose_due {u : State} (id : Nat) (ha : meridianAway u = false) : runBillingClose u id =
    { u with mer := { u.mer with closeDue := u.mer.closeDue ++ [(id, (u.nowNs / 1000000000 + 1) * 1000000000)] } } := by
  rw [runBillingClose, if_neg (by rw [ha]; decide)]

/-! ### The safety confirmation -/

/-- What SAFETY_CONFIRM stores: VALUE with the chart's serial and the time (R316). -/
def confirmationOf (s : State) (v : Nat) : Confirmation := ⟨v, s.chart.inUse.elim 0 chartSerial, s.nowNs⟩

theorem runConfirm_matching {u : State} (id : Nat) {v : Nat} (hp : u.landfall.phase = 9) (ha : v = u.lk.checkA)
    (hb : v = u.lk.checkB) (hra : u.lk.runA = true) (hrb : u.lk.runB = true) : runConfirm u id v false =
      resolveOp (settle u { u with lk := { u.lk with
        confA := some (confirmationOf u v), confB := some (confirmationOf u v) } }) id .ok [] := by
  have agrees : ¬(v ≠ u.lk.checkA ∨ v ≠ u.lk.checkB) := fun k => k.elim (· ha) (· hb)
  rw [runConfirm, if_neg (not_not_intro hp), if_neg Bool.false_ne_true, if_neg agrees,
    if_neg (by rw [hra, hrb]; decide)]
  rfl

theorem runConfirm_revoke {u : State} (id v : Nat) (hp : u.landfall.phase = 9) (hd : anyDelivering u = false) :
    runConfirm u id v true =
      resolveOp (settle u { u with lk := { u.lk with confA := none, confB := none } }) id .ok [] := by
  rw [runConfirm, if_neg (not_not_intro hp), if_pos rfl, if_neg (by rw [hd]; decide)]

/-! ### Latches -/

/-- A latched stage whose permit lines and driver inputs allow it goes OFF with its causes cleared (R137). -/
theorem clearStage_off {u : State} {g : Fin 8} (hl : u.sx.stage[g].st = .latched) (ha : u.lk.gpA = true)
    (hb : u.lk.gpB = true) (hf : stageFlt u g = false) :
    (clearStage u g).2.sx.stage[g].st = .off ∧ (clearStage u g).2.sx.stage[g].latchMask = 0 := by
  have free : ¬(!(u.lk.gpA && u.lk.gpB) || stageFlt u g) = true := by rw [ha, hb, hf]; decide
  rw [clearStage, if_neg (not_not_intro hl), if_neg free]
  extract_lets t
  have cleared : (clearFaults t .sextant (latchFault u g)).sx.stage = t.sx.stage :=
    (keep_clearFaults ..).same .sxStage (by decide)
  have hoff := (stageOff_stage u g none).1
  have off : (afeAllOff (updStage (stageOff u g none) g fun x =>
      { x with latchCause := 0, latchMask := 0, latchChan := none })).sx.stage[g] =
      { (stageOff u g none).sx.stage[g] with latchCause := 0, latchMask := 0, latchChan := none } := by
    rw [afeAllOff_stage, updStage_get]
  obtain ⟨hst, -, -, hmask⟩ := resplit_keepsResting g u _ (.inl ((congrArg Stage.st off).trans hoff))
  dsimp only
  rw [cleared]
  exact ⟨hst.trans ((congrArg Stage.st off).trans hoff), hmask.trans (congrArg Stage.latchMask off)⟩

/-- A retired cell of a stage that is OFF is OFF again (R137). -/
theorem clearCell_off {u : State} {c : Fin 48} {g : Fin 8} (hr : u.sx.cell[c].st = .retired)
    (hc : cellStage u c = some g) (hg : u.sx.stage[g].st = .off) :
    (clearCell u c).2.sx.cell[c].st = .off ∧ (clearCell u c).2.sx.cell[c].retireCause = 0 := by
  rw [clearCell, hc, if_pos ⟨hr, decide_eq_true hg⟩]
  extract_lets t
  obtain ⟨a, e⟩ := (resplit_reshared u t).cell c
  have ht : t.sx.cell[c] = { u.sx.cell[c] with st := .off, retireCause := 0, stored := 0, retireNext := false } :=
    updCell_get ..
  have cleared : (logClear (resplit u t) (if u.sx.cell[c].retireCause = 1 then 0x0404 else 0x0405) .sextant c).sx.cell
      = (resplit u t).sx.cell := (keep_logClear ..).same .sxCell (by decide)
  dsimp only
  rw [cleared, e, ht]
  exact ⟨rfl, rfl⟩

/-- The crack fault ends once its resistance is in range (Table 11-5). -/
theorem clearDisplay_faultCrack {u : State} (hf : u.disp.faultCrack = true) (hb : crackBad u u.disp.crackRes = false) :
    (clearDisplay u).2.disp.faultCrack = false := by
  rw [clearDisplay, if_neg (by rw [hf]; decide), if_neg (by rw [hb]; decide)]
  exact congrArg Display.faultCrack (((keep_dispNews ..).same .disp (by decide)).trans
    ((keep_logClear ..).same .disp (by decide)))

/-- The tamper hold ends once no source is active (Table 02-3). -/
theorem clearTamper_holdTamper {u : State} (hh : u.landfall.holdTamper = true) (ha : u.tamper.active = 0) :
    (clearTamper u).2.landfall.holdTamper = false := by
  rw [clearTamper, if_neg (by rw [hh]; decide), if_neg (not_not_intro ha)]
  rfl

/-- Settles O34: an accepted operation has the effect of `runOp` at once, in a state that differs in the host interface
alone, and its resolution concerns that interface alone. -/
theorem legalAndSafetyOperationsComplete : Obligations.LegalAndSafetyOperationsComplete := by
  unfold Obligations.LegalAndSafetyOperationsComplete
  refine ⟨fun s f k x u op t d h ht => h.next_of_run (runTariff_more ht), fun s f k x u op t d c h ht ha hp => ?_,
    fun s f time x u op h ha hr => ?_, fun s f x u op h ha => ?_, fun s f time x u op h ha => ?_,
    fun s f x u op h ha => ?_, fun s f v x u op h hp ha hb hra hrb => ?_, fun s f v x u op h hp hd => ?_,
    fun s f n x u op h hl ha hb hf => ?_, fun s f n x u op g h hr hc hg => ?_,
    fun s f n x u op h hok => h.next_of_run (congrArg (resolveOp _ op.opId · []) hok),
    fun s f n x u op h hok => h.next_of_run (congrArg (resolveOp _ op.opId · []) hok),
    fun s f n x u op h hf hb => ?_, fun s f n x u op h hh ha => ?_⟩
  all_goals obtain ⟨i, rfl⟩ := h.state_host
  · obtain ⟨j, e⟩ := h.next_host rfl
    exact ⟨_, e, runTariff_last ht ha hp⟩
  · obtain ⟨j, e⟩ := h.next_host rfl
    exact ⟨_, e, runClockSet_set op.opId time ha hr⟩
  · exact h.next_of_run (runBillingClose_due op.opId ha)
  · exact h.next_of_run (runClockSet_away op.opId x.role time ha)
  · exact h.next_of_run (runBillingClose_away op.opId ha)
  · exact ⟨_, rfl, h.next_of_run (runConfirm_matching op.opId hp ha hb hra hrb)⟩
  · exact h.next_of_run (runConfirm_revoke op.opId v hp hd)
  · obtain ⟨j, e⟩ := h.next_latchClear (clearStage _ (Fin.ofNat 8 n)) rfl
    exact ⟨_, e, clearStage_off hl ha hb hf⟩
  · obtain ⟨j, e⟩ := h.next_latchClear (clearCell _ (Fin.ofNat 48 n)) rfl
    exact ⟨_, e, clearCell_off hr hc hg⟩
  · obtain ⟨j, e⟩ := h.next_latchClear (clearDisplay _) rfl
    exact ⟨_, e, clearDisplay_faultCrack hf hb⟩
  · obtain ⟨j, e⟩ := h.next_latchClear (clearTamper _) rfl
    exact ⟨_, e, clearTamper_holdTamper hh ha⟩

end Sys2Proof.Machine
end

section
/-!
SUPPORT. The pilot and the vehicle link: COND from the pilot's samples, the steps from the PHY to SessionSetup, and the
failure response that ends a session (R150 to R156; O10).
-/
namespace Sys2Proof.Machine

/-! ### One outlet after an update -/

@[simp] theorem updOutlet_same (s : State) (o : Fin 2) (f : Outlet → Outlet) :
    (updOutlet s o f).outlet[o] = f s.outlet[o] := upd_same ..

/-- A quantity of which an update of an outlet takes no notice stays what it was, at every outlet. -/
theorem updOutlet_keeps {α : Type} {π : Outlet → α} (s : State) (p o : Fin 2) {f : Outlet → Outlet}
    (h : ∀ x, π (f x) = π x) : π (updOutlet s p f).outlet[o] = π s.outlet[o] := by
  rw [updOutlet_outlet, upd_get]
  split
  · exact h _
  · rfl

/-- A fold of steps that each keep a part of the state keeps it. -/
theorem foldl_same {α β : Type} {π : State → β} {f : State → α → State} (h : ∀ u a, π (f u a) = π u) (l : List α)
    (u : State) : π (l.foldl f u) = π u :=
  List.foldlRecOn (motive := fun t => π t = π u) l f rfl fun t ht a _ => (h t a).trans ht

/-- The post split gives each outlet a share and changes nothing else of it (R27). -/
theorem postSplit_keeps {α : Type} {π : Outlet → α} (s : State) (o : Fin 2)
    (h : ∀ x n, π { x with share := n } = π x) : π (postSplit s).outlet[o] = π s.outlet[o] := by
  unfold postSplit
  extract_lets post share shared aged split
  have hsplit : split.outlet = shared.outlet := by
    unfold split
    split <;> rfl
  rw [foldl_same (π := State.outlet) fun u p => ?limits, hsplit]
  · exact (updOutlet_keeps _ 1 o fun x => h x _).trans (updOutlet_keeps s 0 o fun x => h x _)
  case limits =>
    split
    · exact (keep_followLimit ..).same .outlet (by decide)
    · rfl

/-! ### What a fault leaves of the last answer -/

/-- The last answer at each outlet is in `t` what it is in `s`. -/
def SameAnswers (s t : State) : Prop := ∀ o : Fin 2, t.outlet[o].answer = s.outlet[o].answer

theorem SameAnswers.trans {s t u : State} (h : SameAnswers s t) (k : SameAnswers t u) : SameAnswers s u :=
  fun o => (k o).trans (h o)

/-- An operation whose frame leaves out the outlets keeps the answers. -/
theorem SameAnswers.of_keeps {F : List Part} {s t : State} (k : Keeps F s t) (h : Part.outlet ∉ F) : SameAnswers s t := by
  have same : t.outlet = s.outlet := k.same .outlet h
  exact fun o => by rw [same]

theorem updOutlet_sameAnswers (s : State) (p : Fin 2) {f : Outlet → Outlet} (h : ∀ x, (f x).answer = x.answer) :
    SameAnswers s (updOutlet s p f) := fun o => updOutlet_keeps s p o h

theorem endLink_sameAnswers (s : State) (p : Fin 2) : SameAnswers s (endLink s p) :=
  (updOutlet_sameAnswers s p fun _ => by rfl).trans (updOutlet_sameAnswers _ p fun _ => by rfl)

/-- A fault sends the vehicle nothing of itself (R162). -/
theorem outletFaultBare_sameAnswers (s : State) (p : Fin 2) (c : OutFault) : SameAnswers s (outletFaultBare s p c) := by
  unfold outletFaultBare
  extract_lets x logged marked caused ended ramped asked
  have hmarked : SameAnswers s marked :=
    (SameAnswers.of_keeps (keep_logDetect s _ _ _) (by decide)).trans (updOutlet_sameAnswers _ p fun _ => by rfl)
  have hended : SameAnswers marked ended :=
    (((updOutlet_sameAnswers marked p fun _ => by rfl).trans (endLink_sameAnswers caused p)).trans
      (updOutlet_sameAnswers _ p fun _ => by rfl)).trans (.of_keeps (keep_abandonInventory _ p) (by decide))
  have hramped : SameAnswers ended ramped := by
    unfold ramped
    split
    · exact (SameAnswers.of_keeps (keep_updStage ..) (by decide)).trans (.of_keeps (keep_reshare ..) (by decide))
    · exact fun _ => rfl
  have hstopped : SameAnswers ramped (stopStageOf asked p) :=
    (SameAnswers.of_keeps (keep_updLko ramped p _) (by decide)).trans
      (.of_keeps (keep_stopStageOf asked p) (by decide))
  split
  · exact fun _ => rfl
  · split
    · exact ((hmarked.trans hended).trans hramped).trans hstopped
    · exact hmarked

theorem notify_sameAnswers (n : Nat) : ∀ s t : State, SameAnswers t (notify n s t) := by
  induction n with
  | zero => exact fun _ _ _ => rfl
  | succ n ih =>
    intro s t
    unfold notify
    extract_lets told
    have htold : SameAnswers t told :=
      List.foldlRecOn (motive := SameAnswers t) _ _ (fun _ => rfl) fun u hu p _ => by
        split
        · exact hu.trans (outletFaultBare_sameAnswers u p _)
        · exact hu
    split
    · exact htold
    · exact htold.trans (ih t told)

theorem resplit_sameAnswers (s t : State) : SameAnswers t (resplit s t) := by
  unfold resplit
  extract_lets due u
  have hu : SameAnswers t u := by
    unfold u
    split <;> exact fun _ => rfl
  split
  · exact hu
  · exact hu.trans fun o => postSplit_keeps u o fun _ _ => rfl

/-- A fault, with all that follows it, sends the vehicle nothing of itself. -/
theorem outletFault_sameAnswers (s : State) (o : Fin 2) (c : OutFault) : SameAnswers s (outletFault s o c) :=
  ((outletFaultBare_sameAnswers s o c).trans (SameAnswers.of_keeps
    (Keeps.withDeps (Keeps.refl [.sxChannel, .sxCell, .sxStage, .sxAux, .lkOut, .lkRest] (outletFaultBare s o c))
      fun _ h => h) (by decide))).trans ((notify_sameAnswers 8 s _).trans (resplit_sameAnswers s _))

/-- The failure response, and the outlet FAULTED (R156). -/
theorem failVehicle_faulted {s : State} {o : Fin 2} (ht : outType s o ≠ 0) (hf : s.outlet[o].st.faultable = true) :
    (failVehicle s o).outlet[o].st = .faulted ∧ (failVehicle s o).outlet[o].answer = .failed := by
  have hanswered := updOutlet_same s o fun x => { x with answer := .failed }
  refine ⟨outletFault_faulted .vehicle ht (by rwa [hanswered]), ?_⟩
  rw [failVehicle, outletFault_sameAnswers, hanswered]

/-! ### The pilot -/

/-- A charging outlet takes no notice of COND = READY (Table 06-6). -/
theorem condNews_ready_charging {s : State} {o : Fin 2} (h : s.outlet[o].st = .energyTransfer) :
    condNews s o .ready = s := by
  unfold condNews
  rw [h]

/-- On a megawatt outlet, samples that have held for DEBOUNCE give the level, the second circuit's verdict and COND (R150,
R152); a charging outlet that stays READY charges on. -/
theorem execPilotCondChange_ready {s : State} {o : Fin 2} {high low pp : List Nat} {ms pos m : Nat}
    (ht : outType s o = 1) (hheld : cfgN s 0x20 o 0x00C 15 8 ≤ ms)
    (hpos : posPlateau s.outlet[o].pilot.drive high = some pos) (hpp : meanOf pp = some m)
    (hlo : cfgN s 0x20 o 0x01C 11 0 ≤ m) (hhi : m ≤ cfgN s 0x20 o 0x01C 27 16)
    (hcond : nextCond s o (nextLevel s o pos s.outlet[o].pilot.level) (if s.outlet[o].pilot.drive = .pwm then
      (median (midPhase low)).getD s.outlet[o].pilot.neg else s.outlet[o].pilot.neg) true s.outlet[o].pilot.drive = .ready)
    (hst : s.outlet[o].st = .energyTransfer) : ∃ t, execPilotCondChange o high low pp ms s = .next t
      ∧ t.outlet[o].pilot.cond = .ready ∧ t.outlet[o].pilot.pos = pos
      ∧ t.outlet[o].pilot.level = nextLevel s o pos s.outlet[o].pilot.level ∧ t.outlet[o].pilot.sig1Ok = true
      ∧ t.outlet[o].st = .energyTransfer := by
  refine ⟨_, rfl, ?_⟩
  extract_lets x pos' neg sig1 blind held lvl c t
  have hpos' : pos' = pos := by
    unfold pos' x
    rw [hpos, Option.getD_some]
  have hsig1 : sig1 = true := by
    unfold sig1
    rw [hpp]
    exact decide_eq_true ⟨hlo, hhi⟩
  rw [if_neg (by rw [ht]; decide)]
  have hblind : blind = false := by
    unfold blind
    rw [ht]
    rfl
  have hlvl : lvl = nextLevel s o pos s.outlet[o].pilot.level := by
    have htaken : (blind || !held) = false := by
      rw [hblind, show held = true from decide_eq_true hheld]
      rfl
    unfold lvl
    rw [htaken, hpos']
    rfl
  have hc : c = .ready := by
    unfold c
    rw [hblind, hlvl, hsig1]
    exact hcond
  have hnews : condNews t o c = t := by
    rw [hc]
    exact condNews_ready_charging (by rw [updOutlet_same]; exact hst)
  rw [hnews, setPilot, updOutlet_same, updOutlet_same]
  exact ⟨hc, hpos', hlvl, hsig1, hst⟩

/-! ### SLAC, discovery and TLS -/

/-- The last message of the SLAC sequence draws a fresh network membership key and brings the link up (R154). -/
theorem execSlacMessage_match {s : State} {o : Fin 2} (ht : outType s o = 2) (hstart : s.outlet[o].link.started = true)
    (hpwm : s.outlet[o].pilot.pwmBegun = true) (hslac : s.outlet[o].link.slac = 4) :
    ∃ t, execSlacMessage o .slacMatch s = .next t ∧ t.outlet[o].link.slac = 5
      ∧ t.outlet[o].link.nmk = (List.range 16).map (fun i => Config.freeByte (s.free + i)) ∧ t.free = s.free + 16
      ∧ t.outlet[o].link.phyUp = true := by
  have hturn : slacStage .slacMatch = s.outlet[o].link.slac + 1 := by rw [hslac]; rfl
  refine ⟨_, by rw [execSlacMessage, if_pos ⟨ht, hstart, hpwm, .inl hturn⟩,
    if_pos (show slacStage .slacMatch = 5 from rfl)], ?_⟩
  rw [updOutlet_same]
  exact ⟨rfl, rfl, rfl, rfl⟩

/-- An earlier message of the SLAC sequence, in its turn, advances it (R154). -/
theorem execSlacMessage_next {s : State} {o : Fin 2} {m : SlacMessage} (ht : outType s o = 2)
    (hstart : s.outlet[o].link.started = true) (hpwm : s.outlet[o].pilot.pwmBegun = true)
    (hturn : slacStage m = s.outlet[o].link.slac + 1) (hlast : slacStage m < 5) : execSlacMessage o m s =
      .next (updOutlet s o fun y => { y with link := { y.link with
        slac := slacStage m, spi := y.link.spi ++ (slacSends (slacStage m) []).map spiTransfer } }) := by
  rw [execSlacMessage, if_pos ⟨ht, hstart, hpwm, .inl hturn⟩, if_neg (Nat.ne_of_lt hlast)]

/-- A handshake that finds group, scheme, key and root, and completes, opens TLS with them (R155). -/
theorem execTlsHandshake_open {s : State} {o : Fin 2} {h : TlsHello} {g : TlsGroup} {x : TlsScheme} {k r : Fin 128}
    (hsdp : s.outlet[o].link.sdp = true) (hg : (h.groups.find? fun g => g == .secp521r1 || g == .x448) = some g)
    (hx : (h.schemes.find? fun x => (x == .ecdsaSecp521r1 || x == .ed448) && (seccSlot s x).isSome) = some x)
    (hk : seccSlot s x = some k) (hr : rootSlot s h.root = some r)
    (hdone : (h.suite && h.completes && h.chain != .other) = true) : ∃ t, execTlsHandshake o h s = .next t
      ∧ t.outlet[o].link.tls = true ∧ t.outlet[o].link.group = some g ∧ t.outlet[o].link.scheme = some x := by
  refine ⟨_, by rw [execTlsHandshake, if_pos hsdp], ?_⟩
  simp only [hg, hx, hr, Option.bind_some, hk, hdone, if_true, updOutlet_same, and_self]

/-- A handshake that does not complete leaves TLS closed (R155). -/
theorem execTlsHandshake_closed {s : State} {o : Fin 2} {h : TlsHello} (hsdp : s.outlet[o].link.sdp = true)
    (hdone : (h.suite && h.completes && h.chain != .other) = false) : execTlsHandshake o h s =
      .next (updOutlet s o fun y => { y with link := { y.link with tcp := true, tls := false } }) := by
  rw [execTlsHandshake, if_pos hsdp]
  dsimp only
  split
  · rw [if_neg (by rw [hdone]; decide)]
  · rfl

/-- ISO 15118-20 is taken where the vehicle offers it over TLS (R156). -/
theorem execSupportedAppProtocol_iso {s : State} {o : Fin 2} (din : Bool) (hsdp : s.outlet[o].link.sdp = true)
    (htls : s.outlet[o].link.tls = true) : ∃ t, execSupportedAppProtocol o true din s = .next t
      ∧ t.outlet[o].link.proto = 1 ∧ t.outlet[o].answer = .ok [1] ∧ t.outlet[o].tmr.link = false
      ∧ t.outlet[o].st = s.outlet[o].st := by
  refine ⟨_, by rw [execSupportedAppProtocol, if_pos hsdp], ?_⟩
  simp only [htls, Bool.and_true, if_true, answer, updOutlet_same, and_self]

/-- SessionSetup opens the session under the chosen protocol and gives the EVSEID (R156). -/
theorem execSessionSetup_open {s : State} {o : Fin 2} (h : s.outlet[o].link.proto ≠ 0) :
    ∃ t, execSessionSetup o s = .next t ∧ t.outlet[o].link.session = true
      ∧ t.outlet[o].answer = .ok ((List.range 8).map fun k => cfgN s 0x20 o (0x060 + 4 * k) 31 0) := by
  refine ⟨_, by rw [execSessionSetup, if_neg h], ?_⟩
  rw [answer, updOutlet_same, updOutlet_same]
  exact ⟨rfl, rfl⟩

/-- Settles O10: clause by clause, from what each command does in the case that the clause names; a failure response is a
fault of the outlet, whose consequences leave the response and the state FAULTED as they are. -/
theorem vehicleLinkCompletes : Obligations.VehicleLinkCompletes := by
  unfold Obligations.VehicleLinkCompletes
  refine ⟨fun s o high low pp ms pos m ht _ hheld hpos hpp hlo hhi hcond hst =>
      execPilotCondChange_ready ht hheld hpos hpp hlo hhi hcond hst,
    fun s o ht hstart hlost hpath => ?_,
    fun s o m ht hstart hpwm hturn hlast => execSlacMessage_next ht hstart hpwm hturn hlast,
    fun s o ht hstart hpwm hslac => execSlacMessage_match ht hstart hpwm hslac,
    fun s o hphy => ?_,
    fun s o h g x k r hsdp hg hx hk hr hdone => execTlsHandshake_open hsdp hg hx hk hr hdone,
    fun s o h hsdp hdone => execTlsHandshake_closed hsdp hdone,
    fun s o hphy ht hf => ⟨_, by rw [exec_unsupportedRequest, execUnsupportedRequest, if_pos hphy],
      failVehicle_faulted ht hf⟩,
    fun s o din hsdp htls => execSupportedAppProtocol_iso din hsdp htls,
    fun s o h => execSessionSetup_open h,
    fun s o hstart ht hf => ⟨_, by rw [exec_vehicleLinkLost, execVehicleLinkLost, if_pos hstart],
      outletFault_faulted .link ht hf⟩⟩
  · rw [exec_t1sLinkUp, execT1sLinkUp, if_pos ⟨ht, hlost, hstart, hpath⟩]
  · rw [exec_sdpRequest, execSdpRequest, if_pos hphy]

end Sys2Proof.Machine
end

section
/-!
SUPPORT. The vehicle's requests in an open session, and the decision without the host (Tables 06-3, 06-4, R26, R124, R158,
R160, R161, R166; O11).
-/
namespace Sys2Proof.Machine

section

variable {s : State} {o : Fin 2}

/-! ### Which requests are served -/

theorem inSession_open (h : s.outlet[o].link.session = true) (k : State → State) : inSession s o k = k s := if_pos h

theorem isoOnly_iso (h : s.outlet[o].link.proto = 1) (k : State → State) : isoOnly s o k = k s := if_pos h

/-- DIN SPEC 70121 has no such request (R156). -/
theorem isoOnly_din (h : s.outlet[o].link.proto = 2) (k : State → State) : isoOnly s o k = failVehicle s o :=
  if_neg (by rw [h]; decide)

/-! ### Services and schedules -/

theorem execServiceDiscovery_detail (hs : s.outlet[o].link.session = true) (hp : s.outlet[o].link.proto = 1) :
    execServiceDiscovery o (.detail 1) s = .next (answer s o (.ok [1])) := by
  rw [execServiceDiscovery, inSession_open hs]
  dsimp only
  rw [isoOnly_iso hp, if_pos (.inl rfl)]

/-- A service that is offered is selected (Table 06-3). -/
theorem execServiceDiscovery_selection {b : Bool} (hs : s.outlet[o].link.session = true)
    (hp : s.outlet[o].link.proto = 1) (hb : b = true → bptOffered s o = true) :
    execServiceDiscovery o (.selection b) s =
      .next (answer (updOutlet s o fun x => { x with link := { x.link with bpt := b } }) o (.ok [])) := by
  have offered : ¬(b && !bptOffered s o) = true := by
    cases b with
    | false => exact Bool.false_ne_true
    | true => rw [hb rfl]; exact Bool.false_ne_true
  rw [execServiceDiscovery, inSession_open hs]
  dsimp only
  rw [isoOnly_iso hp, if_neg offered]

theorem execServiceDiscovery_payment (hs : s.outlet[o].link.session = true) (hp : s.outlet[o].link.proto = 2) :
    execServiceDiscovery o (.payment true) s = .next (answer s o (.ok [])) := by
  rw [execServiceDiscovery, inSession_open hs]
  dsimp only
  rw [hp]
  rfl

theorem execScheduleExchange_iso (dynamic : Bool) (hs : s.outlet[o].link.session = true)
    (hp : s.outlet[o].link.proto = 1) : execScheduleExchange o dynamic s =
      .next (answer (updOutlet s o fun x => { x with link := { x.link with dynamic := dynamic } }) o
        (if dynamic then .ok [] else scheduleAnswer s o)) := by
  rw [execScheduleExchange, inSession_open hs, isoOnly_iso hp]

/-- Each request that only ISO 15118-20 has ends a DIN SPEC 70121 session with the failure response (R156, Table 06-4). -/
theorem exec_isoOnly_din {c : Instr} (hs : s.outlet[o].link.session = true) (hp : s.outlet[o].link.proto = 2)
    (hc : c = .scheduleExchange o true ∨ c = .scheduleExchange o false ∨ c = .powerDelivery o .renegotiate
      ∨ (∃ n, c = .serviceDiscovery o (.detail n)) ∨ (∃ b, c = .serviceDiscovery o (.selection b))
      ∨ ∃ exi, c = .certificateInstallation o exi) : exec c s = .next (failVehicle s o) := by
  obtain rfl | rfl | rfl | ⟨n, rfl⟩ | ⟨b, rfl⟩ | ⟨exi, rfl⟩ := hc
  · rw [exec_scheduleExchange, execScheduleExchange, inSession_open hs, isoOnly_din hp]
  · rw [exec_scheduleExchange, execScheduleExchange, inSession_open hs, isoOnly_din hp]
  · rw [exec_powerDelivery, execPowerDelivery, inSession_open hs]
    exact congrArg _ (isoOnly_din hp _)
  · rw [exec_serviceDiscovery, execServiceDiscovery, inSession_open hs]
    exact congrArg _ (isoOnly_din hp _)
  · rw [exec_serviceDiscovery, execServiceDiscovery, inSession_open hs]
    exact congrArg _ (isoOnly_din hp _)
  · rw [exec_certificateInstallation, execCertificateInstallation, inSession_open hs, isoOnly_din hp]

/-! ### Cable check, precharge and power -/

/-- An isolation test that has passed waits for the vehicle's precharge request (R160). -/
theorem progress_passed (hst : s.outlet[o].st = .isolationTest) (h5 : s.outlet[o].isoStep = 5)
    (hpre : s.outlet[o].preReq = false) : progress s o = s := by
  have once : progressOnce s o = s := by
    unfold progressOnce
    dsimp only
    rw [hst]
    exact (if_neg (by rw [h5]; decide)).trans ((if_neg (by rw [h5]; decide)).trans ((if_neg (by rw [h5]; decide)).trans
      (if_neg fun h => Bool.false_ne_true (hpre.symm.trans h.2))))
  rw [progress, once, once, once]

theorem execDcCableCheck_authorised (hs : s.outlet[o].link.session = true) (hst : s.outlet[o].st = .authorised) :
    execDcCableCheck o s =
      .next (answer (progress (updOutlet s o fun x => { x with cableReq := true }) o) o .ongoing) := by
  rw [execDcCableCheck, inSession_open hs]
  dsimp only
  rw [hst]

theorem execDcCableCheck_passed (hs : s.outlet[o].link.session = true) (hst : s.outlet[o].st = .isolationTest)
    (h5 : s.outlet[o].isoStep = 5) (hpre : s.outlet[o].preReq = false) :
    execDcCableCheck o s = .next (answer s o (.ok [])) := by
  rw [execDcCableCheck, inSession_open hs]
  dsimp only
  rw [hst, progress_passed hst h5 hpre, if_pos h5]

theorem execDcPreCharge_isolationTest (v : Nat) (hs : s.outlet[o].link.session = true)
    (hst : s.outlet[o].st = .isolationTest) : execDcPreCharge o v s =
      .next (answer (progress (updOutlet (updOutlet s o fun x => { x with vehV := v }) o fun x =>
        { x with preReq := true }) o) o .ongoing) := by
  rw [execDcPreCharge, inSession_open hs]
  dsimp only
  rw [hst]

theorem execDcPreCharge_charging (v : Nat) (hs : s.outlet[o].link.session = true)
    (hst : s.outlet[o].st = .energyTransfer) : execDcPreCharge o v s =
      .next (answer (updOutlet s o fun x => { x with vehV := v }) o (.ok [])) := by
  rw [execDcPreCharge, inSession_open hs]
  dsimp only
  rw [hst]

theorem execPowerDelivery_start (hs : s.outlet[o].link.session = true) (hst : s.outlet[o].st = .energyTransfer) :
    execPowerDelivery o .start s = .next (answer (updOutlet s o fun x =>
      { x with standby := false, tmr := { x.tmr with standby := false } }) o (.ok [])) := by
  rw [execPowerDelivery, inSession_open hs]
  dsimp only
  rw [hst]

theorem execPowerDelivery_standby (hs : s.outlet[o].link.session = true) (hst : s.outlet[o].st = .energyTransfer) :
    execPowerDelivery o .standby s = .next (answer (updOutlet s o fun x =>
      { x with standby := true, tmr := { x.tmr with standby := true, loop := false } }) o (.ok [])) := by
  rw [execPowerDelivery, inSession_open hs]
  dsimp only
  rw [hst]

theorem execPowerDelivery_renegotiate (hs : s.outlet[o].link.session = true) (hp : s.outlet[o].link.proto = 1) :
    execPowerDelivery o .renegotiate s = .next (answer s o (scheduleAnswer s o)) := by
  rw [execPowerDelivery, inSession_open hs]
  exact congrArg _ (isoOnly_iso hp _)

/-- A charging vehicle's request is kept, and T_LOOP runs (R26, R124). -/
theorem execDcChargeLoop_charging (i v e : Nat) (hs : s.outlet[o].link.session = true)
    (hst : s.outlet[o].st = .energyTransfer) : ∃ t, execDcChargeLoop o i v e false s = .next t
      ∧ t.outlet[o].vehI = i ∧ t.outlet[o].vehV = v ∧ t.outlet[o].tmr.loop = true := by
  refine ⟨_, rfl, ?_⟩
  rw [inSession_open hs, if_neg Bool.false_ne_true, hst]
  extract_lets e asked limited split
  have hlimited : limited.outlet = asked.outlet := by
    unfold limited
    split <;> rfl
  have kept : (split.outlet[o].vehI, split.outlet[o].vehV, split.outlet[o].tmr.loop) = (i, v, true) := by
    refine (postSplit_keeps (π := fun x => (x.vehI, x.vehV, x.tmr.loop)) limited o fun _ _ => rfl).trans ?_
    rw [hlimited, updOutlet_same]
  obtain ⟨hi, hv, hloop⟩ := Prod.mk.inj kept |>.imp_right Prod.mk.inj
  rw [answer, updOutlet_same]
  exact ⟨hi, hv, hloop⟩

theorem execDcWeldingDetection_windingDown (hs : s.outlet[o].link.session = true)
    (hst : s.outlet[o].st = .weldCheck ∨ s.outlet[o].st = .discharge) :
    execDcWeldingDetection o s = .next (answer s o .ongoing) := by
  rw [execDcWeldingDetection, inSession_open hs]
  unfold answerOther
  obtain hst | hst := hst <;> rw [hst]

/-! ### Certificates and authorisation -/

theorem execCertificateInstallation_iso (exi : Bytes) (hs : s.outlet[o].link.session = true)
    (hp : s.outlet[o].link.proto = 1) : execCertificateInstallation o exi s = .next (if operatorOpen s then
      answer (logInfo ((certParts o exi).foldl (fun u p => emitEvent u 0x82 [0] p) s) (Config.eventCode 409) .helm o) o
        .ongoing
      else answer s o .failed) := by
  rw [execCertificateInstallation, inSession_open hs, isoOnly_iso hp]

/-- External identification is taken in CABLE_CHECK where the outlet offers it (R166). -/
theorem execAuthorizationRequest_eim (ident : Bytes) (chainOk : Bool) (hs : s.outlet[o].link.session = true)
    (hst : s.outlet[o].st = .cableCheck) (hen : cfgB s 0x20 o 0x000 22 = true) :
    execAuthorizationRequest o .eim ident chainOk s = .next (identify s o .eim ident chainOk) := by
  rw [execAuthorizationRequest, inSession_open hs]
  dsimp only
  rw [hst]
  exact congrArg _ (if_pos hen)

end

/-- Settles O11: each request reaches the session, and the outlet's state selects its answer. -/
theorem vehicleRequestsComplete : Obligations.VehicleRequestsComplete := by
  unfold Obligations.VehicleRequestsComplete
  refine ⟨fun s o hs => ?_, fun s o hs hp => execServiceDiscovery_detail hs hp,
    fun s o b hs hp hb => execServiceDiscovery_selection hs hp hb,
    fun s o hs hp => execServiceDiscovery_payment hs hp,
    fun s o v hs => ?_,
    fun s o hs hp => execScheduleExchange_iso false hs hp, fun s o hs hp => execScheduleExchange_iso true hs hp,
    fun s o c hs hp hc => exec_isoOnly_din hs hp hc,
    fun s o hs hst => execDcCableCheck_authorised hs hst,
    fun s o hs hst h5 hpre => execDcCableCheck_passed hs hst h5 hpre,
    fun s o v hs hst => execDcPreCharge_isolationTest v hs hst,
    fun s o v hs hst => execDcPreCharge_charging v hs hst,
    fun s o hs hst => execPowerDelivery_start hs hst, fun s o hs hst => execPowerDelivery_standby hs hst,
    fun s o hs => ?_, fun s o hs hp => execPowerDelivery_renegotiate hs hp,
    fun s o i v e hs hst => execDcChargeLoop_charging i v e hs hst,
    fun s o i v e hs => ?_,
    fun s o hs hst => execDcWeldingDetection_windingDown hs hst,
    fun s o pause hs => ?_, fun s o pause hs => ?_,
    fun s o exi hs hp hop => ?_, fun s o exi hs hp hop => ?_,
    fun s o ident chainOk hs hst hen => execAuthorizationRequest_eim ident chainOk hs hst hen,
    fun s o hst hauth => ?_⟩
  · rw [exec_serviceDiscovery, execServiceDiscovery, inSession_open hs]
  · rw [exec_chargeParameterDiscovery, execChargeParameterDiscovery, inSession_open hs]
  · rw [exec_powerDelivery, execPowerDelivery, inSession_open hs]
  · rw [exec_dcChargeLoop, execDcChargeLoop, inSession_open hs, if_pos rfl]
  · rw [exec_vehicleSessionStop, execVehicleSessionStop, inSession_open hs, if_neg Bool.false_ne_true]
  · rw [exec_vehicleSessionStop, execVehicleSessionStop, inSession_open hs, if_pos rfl]
  · rw [exec_certificateInstallation, execCertificateInstallation_iso exi hs hp, hop, if_neg Bool.false_ne_true]
  · rw [exec_certificateInstallation, execCertificateInstallation_iso exi hs hp, hop, if_pos rfl]
  · rw [exec_tAuthExpiry, execTAuthExpiry, if_pos ⟨hst, hauth⟩]

end Sys2Proof.Machine
end

section
/-!
SUPPORT. The outlets' timers, and what the confirmations of lock and contactors do (R157 to R165, R169, R174; O12).
-/
namespace Sys2Proof.Machine

section

variable {s : State} {o : Fin 2}

/-! ### Timers -/

/-- A running timer whose expiry is a fault takes the outlet to FAULTED (R157, R162). -/
theorem expire_faulted {runs : OutTimers → Bool} (c : OutFault) (ht : outType s o ≠ 0)
    (hf : s.outlet[o].st.faultable = true) (hr : runs s.outlet[o].tmr = true) :
    (expire s o runs c).outlet[o].st = .faulted := by
  rw [expire, if_pos hr]
  exact outletFault_faulted c ht hf

/-- T_LOCK's expiry is a fault too, and the timer ends (R157, R169). -/
theorem execTLockExpiry_faulted (ht : outType s o ≠ 0) (hf : s.outlet[o].st.faultable = true)
    (hr : s.outlet[o].tmr.lock = true) : ∃ t, execTLockExpiry o s = .next t ∧ t.outlet[o].st = .faulted := by
  refine ⟨_, by rw [execTLockExpiry, if_pos hr], ?_⟩
  exact outletFault_faulted .lock ht (by rwa [updOutlet_same])

theorem execTOngoingExpiry_due {c : OutFault} (hr : s.outlet[o].tmr.ongoing = true)
    (hc : ongoingCause s.outlet[o].st = some c) : execTOngoingExpiry o s = .next (outletFault s o c) := by
  rw [execTOngoingExpiry, hr, hc]

/-! ### Lock and contactors -/

theorem execLockConfirmed_locked (h : (s.lk.outlet[o]).lock = true) : ∃ u, execLockConfirmed o s = .next (settle s u)
    ∧ u.lk.outlet[o].lockFb = true ∧ u.outlet[o].tmr.lock = false := by
  refine ⟨_, by rw [execLockConfirmed, if_pos h], ?_, ?_⟩
  · rw [updOutlet_lk, updLko_lk_outlet, upd_same]
  · rw [updOutlet_same]

/-- The confirmation that both contactors are open is noted at each of their outputs (R307). -/
theorem setFeedback_open (s : State) (o : Fin 2) :
    (setFeedback s o true).lk.so[soPos s o].confOff = true ∧ (setFeedback s o true).lk.so[soNeg s o].confOff = true := by
  rw [setFeedback, updSo_lk_so, updSo_lk_so]
  refine ⟨?_, by rw [upd_same]⟩
  rw [upd_get]
  split
  · rfl
  · rw [upd_same]

/-- WELD_CHECK ends in DISCHARGE, where T_DISCH runs (R158). -/
theorem execContactorsOpenConfirmed_weldCheck (hp : s.lk.so[soPos s o].cmd = false) (hn : s.lk.so[soNeg s o].cmd = false)
    (hst : s.outlet[o].st = .weldCheck) : ∃ u, execContactorsOpenConfirmed o s = .next (settle s u)
      ∧ u.outlet[o].st = .discharge ∧ u.outlet[o].tmr.disch = true ∧ u.lk.so[soPos s o].confOff = true
      ∧ u.lk.so[soNeg s o].confOff = true := by
  have hopen : ¬(s.lk.so[soPos s o].cmd || s.lk.so[soNeg s o].cmd) = true := by rw [hp, hn]; exact Bool.false_ne_true
  have hst' : (setFeedback s o true).outlet[o].st = .weldCheck := hst
  refine ⟨_, by rw [execContactorsOpenConfirmed, if_neg hopen], ?_⟩
  rw [hst']
  dsimp only
  rw [updOutlet_same, enter, updOutlet_same]
  exact ⟨rfl, rfl, setFeedback_open s o⟩

/-! ### The end of a session -/

/-- With the vehicle plugged in, FINISHED and FAULTED last (Table 06-6). -/
theorem rest_plugged (h : s.outlet[o].pilot.cond ≠ .unplugged) : rest s o = s := if_neg fun k => h k.1

/-- An outlet whose vehicle stays plugged in rests in FINISHED (Table 06-6). -/
theorem finish_finished (h : s.outlet[o].pilot.cond ≠ .unplugged) : (finish s o).outlet[o].st = .finished := by
  have hended : (enter (endLink s o) o .finished).outlet[o].pilot.cond = s.outlet[o].pilot.cond := by
    rw [enter, updOutlet_same, endLink, setPilot, updOutlet_same, updOutlet_same]
  rw [finish, rest_plugged]
  · exact congrArg Outlet.st (updOutlet_same ..)
  · exact fun k => h (hended.symm.trans k)

/-- LOCK_FB_x noted as unlocked: nothing is asked of the lock any more, and T_LOCK ends (R169). -/
def unlockNoted (s : State) (o : Fin 2) : State :=
  updOutlet (updLko s o fun x => { x with lockFb := false, unlockAsked := false }) o fun x =>
    { x with tmr := { x.tmr with lock := false } }

theorem unlockNoted_same (s : State) (o : Fin 2) :
    (unlockNoted s o).outlet[o] = { s.outlet[o] with tmr := { s.outlet[o].tmr with lock := false } } := updOutlet_same ..

theorem unlockNoted_lockFb (s : State) (o : Fin 2) : (unlockNoted s o).lk.outlet[o].lockFb = false := by
  rw [unlockNoted, updOutlet_lk, updLko_lk_outlet, upd_same]

/-- In UNLOCK the record closes and the session is finished (R158). -/
theorem execUnlockConfirmed_unlock (hl : (s.lk.outlet[o]).lock = false) (hst : s.outlet[o].st = .unlock) :
    execUnlockConfirmed o s = .next (settle s (finish (closeRecordOf (unlockNoted s o) o false) o)) := by
  have hnoted : (unlockNoted s o).outlet[o].st = .unlock := by rw [unlockNoted_same]; exact hst
  rw [execUnlockConfirmed, if_neg (by rw [hl]; decide)]
  extract_lets noted ended
  have hended : ended = finish (closeRecordOf noted o false) o := by
    unfold ended
    rw [show noted.outlet[o].st = .unlock from hnoted]
  rw [hended]
  rfl

theorem execUnlockConfirmed_finished (hl : (s.lk.outlet[o]).lock = false) (hst : s.outlet[o].st = .unlock)
    (hc : s.outlet[o].pilot.cond ≠ .unplugged) : ∃ u, execUnlockConfirmed o s = .next (settle s u)
      ∧ u.outlet[o].st = .finished ∧ u.lk.outlet[o].lockFb = false := by
  have hclosed : (closeRecordOf (unlockNoted s o) o false).outlet = (unlockNoted s o).outlet :=
    (keep_closeRecordOf ..).same .outlet (by decide)
  have hlk : (finish (closeRecordOf (unlockNoted s o) o false) o).lk.outlet = (unlockNoted s o).lk.outlet :=
    ((keep_finish ..).same .lkOutlet (by decide)).trans ((keep_closeRecordOf ..).same .lkOutlet (by decide))
  refine ⟨_, execUnlockConfirmed_unlock hl hst, finish_finished ?_, ?_⟩
  · rw [hclosed, unlockNoted_same]
    exact hc
  · rw [hlk, unlockNoted_lockFb]

end

/-- Settles O12: a timer's expiry is a fault, a stop or a step of the session; a confirmation changes what it reads and
Lookout settles the rest. -/
theorem outletTimersComplete : Obligations.OutletTimersComplete := by
  unfold Obligations.OutletTimersComplete
  refine ⟨fun s o ht hf => ⟨fun h => ⟨_, rfl, expire_faulted _ ht hf h⟩, fun h => ⟨_, rfl, expire_faulted _ ht hf h⟩,
      fun h => ⟨_, rfl, expire_faulted _ ht hf h⟩, fun h => ⟨_, rfl, expire_faulted _ ht hf h⟩,
      fun h => ⟨_, rfl, expire_faulted _ ht hf h⟩, fun h => execTLockExpiry_faulted ht hf h⟩,
    fun s o c hr hc => execTOngoingExpiry_due hr hc,
    fun s o hr hst => ?_, fun s o hr hst => ?_, fun s o hst h2 hr => ?_,
    fun s o h => execLockConfirmed_locked h,
    fun s o hp hn hst => execContactorsOpenConfirmed_weldCheck hp hn hst,
    fun s o hst hoff h60 => ?_,
    fun s o hl hst hc => execUnlockConfirmed_finished hl hst hc,
    fun s o hst => ?_⟩
  · rw [exec_tLoopExpiry, execTLoopExpiry, if_pos ⟨hr, hst⟩]
  · rw [exec_tStandbyExpiry, execTStandbyExpiry, if_pos ⟨hr, hst⟩]
  · rw [exec_isoDwellEnd, execIsoDwellEnd, if_pos ⟨hst, h2, hr⟩]
  · rw [exec_vehicleSideDischarged, execVehicleSideDischarged, if_pos ⟨hst, hoff, h60⟩]
  · rw [exec_faultedContactorOpen, execFaultedContactorOpen, if_pos hst]

end Sys2Proof.Machine
end

section
/-!
SUPPORT. The idle millisecond: what each of its parts leaves of the time, the token buckets, the cooling drives and the
commanded billing closes (R170, R242, R247, R255, R396; O37). That the idle step is a millisecond is the model's choice
(log 2).
-/
namespace Sys2Proof.Machine

/-! ### The commanded billing closes -/

/-- One commanded billing close carried out (R255). -/
def closeOne (t : State) (c : Nat × Nat) : State :=
  let u := closeFor t c.2 2
  resolveOp { u with mer := { u.mer with closeDue := u.mer.closeDue.filter (· ≠ c) } } c.1 .ok
    (toBe 4 (((u.mer.leg.snapshots.head?).getD []).getD 0 0) ++ toBe 8 (ct64 c.2))

/-- While Meridian meters, the closes whose instant has come are carried out one after the other (R255). -/
theorem closeTick_up {s : State} (h : s.mer.up = true) :
    closeTick s = (s.mer.closeDue.filter fun c => c.2 ≤ s.nowNs).foldl closeOne s := if_pos h

theorem closeFor_ns (s : State) (at_ cause : Nat) : (closeFor s at_ cause).mer.chr.ns = s.mer.chr.ns := by
  unfold closeFor
  split
  · rfl
  · split <;> rfl

theorem closeOne_ns (t : State) (c : Nat × Nat) : (closeOne t c).mer.chr.ns = t.mer.chr.ns := closeFor_ns t c.2 2

theorem closeOne_closeDue (t : State) (c : Nat × Nat) :
    (closeOne t c).mer.closeDue = t.mer.closeDue.filter (· ≠ c) := by
  have h : (closeFor t c.2 2).mer.closeDue = t.mer.closeDue := by
    unfold closeFor
    split
    · rfl
    · split <;> rfl
  exact congrArg (List.filter (· ≠ c)) h

/-- Closes carried out are no longer due. -/
theorem mem_closeDue_foldl_closeOne {c : Nat × Nat} (l : List (Nat × Nat)) :
    ∀ t : State, c ∈ (l.foldl closeOne t).mer.closeDue → c ∈ t.mer.closeDue ∧ c ∉ l := by
  induction l with
  | nil => exact fun t h => ⟨h, List.not_mem_nil⟩
  | cons d l ih =>
    intro t h
    obtain ⟨hmem, hl⟩ := ih (closeOne t d) h
    rw [closeOne_closeDue, List.mem_filter, decide_eq_true_iff] at hmem
    obtain ⟨hmem, hd⟩ := hmem
    exact ⟨hmem, List.not_mem_cons_of_ne_of_not_mem hd hl⟩

/-- The time is no close's to change. -/
theorem closeTick_ns (s : State) : (closeTick s).mer.chr.ns = s.mer.chr.ns := by
  by_cases h : s.mer.up = true
  · rw [closeTick_up h, foldl_same (π := fun t : State => t.mer.chr.ns) closeOne_ns]
  · rw [closeTick, if_neg h]

/-- A close that is left is still to come. -/
theorem lt_of_mem_closeTick {s : State} (h : s.mer.up = true) {c : Nat × Nat} (hc : c ∈ (closeTick s).mer.closeDue) :
    s.mer.chr.ns < c.2 := by
  rw [closeTick_up h] at hc
  obtain ⟨hmem, hdue⟩ := mem_closeDue_foldl_closeOne _ s hc
  rw [List.mem_filter, decide_eq_true_iff] at hdue
  exact Nat.lt_of_not_le fun hle => hdue ⟨hmem, hle⟩

/-! ### Drives and token buckets -/

theorem countSlow_drive (s : State) (k : Fin 6) : (countSlow s).drive[k] =
    if 1024 ≤ 5 * coolDuty s k ∧ s.drive[k].rpm < tachMin s (driveOutlet k) then
      { s.drive[k] with slowMs := s.drive[k].slowMs + 1 } else s.drive[k] :=
  Vector.getElem_ofFn k.isLt

/-- Frames that leave take no token (R396). -/
theorem hostTick_cls (s : State) : (hostTick s).host.cls = s.host.cls := by
  unfold hostTick
  split
  · refine foldl_same (π := fun t : State => t.host.cls) (fun u f => ?_) _ s
    unfold sendOut
    split
    · unfold sendHost
      split <;> rfl
    · rfl
    · rfl
  · rfl

/-! ### The millisecond in three parts -/

/-- The millisecond up to the commanded billing closes. -/
def idleBefore (s : State) : State := ladderTick (gapOutlet (gapOutlet (countSlow (tick s)) 0) 1)

/-- The millisecond from the commanded billing closes to the frames for the host. -/
def idleAfter (t : State) : State := reportCapacity (ageShare (scrollTick (panelTick (closeTick t))))

theorem idle_eq (s : State) : idle s = logPeriodic (healthTick (wireTick (hostTick (idleAfter (idleBefore s))))) := rfl

/-- Up to the closes, time and the drives' count apart, only the power ladder and Helm's own estimate go on. -/
theorem keep_idleBefore (s : State) : Keeps [.com, .flt, .pwr] (countSlow (tick s)) (idleBefore s) :=
  (keep_ladderTick _).then_ (by decide)
    ((keep_gapOutlet _ 1).then_ (by decide) ((keep_gapOutlet _ 0).then_ (by decide) (.refl _ _)))

/-- The parts that the millisecond changes after its closes and up to the frames for the host. -/
def idleAfterParts : List Part :=
  [.sxChannel, .sxCell, .sxStage, .sxAux, .sxRest, .outlet, .rdr, .com, .disp, .lkOut, .lkOutlet, .lkRest, .txl, .wrk,
    .hostOps, .hostJournal, .locker, .log, .flt]

theorem keep_idleAfter (t : State) : Keeps idleAfterParts (closeTick t) (idleAfter t) :=
  (keep_reportCapacity _).then_ (by decide) ((keep_ageShare _).then_ (by decide)
    ((keep_scrollTick _).then_ (by decide) ((keep_panelTick _).then_ (by decide) (.refl _ _))))

/-- The end of the millisecond, after the frames for the host have left. -/
theorem keep_idleEnd (t : State) : Keeps [.txl, .mgr, .log] t (logPeriodic (healthTick (wireTick t))) :=
  (keep_logPeriodic _).then_ (by decide) ((keep_healthTick _).then_ (by decide)
    ((keep_wireTick _).then_ (by decide) (.refl _ _)))

/-- From the closes on. -/
theorem keep_idle_closeTick (s : State) :
    Keeps (.mgr :: .hostRest :: idleAfterParts) (closeTick (idleBefore s)) (idle s) :=
  (keep_idleEnd _).then_ (by decide) ((keep_hostTick _).then_ (by decide) ((keep_idleAfter _).mono (by decide)))

/-! ### The parts of the state that an obligation reads -/

section

variable {F : List Part} {s t : State}

theorem Keeps.chr (h : Keeps F s t) (hF : Part.merChr ∉ F) : t.mer.chr = s.mer.chr := congrArg Prod.fst (h.same .merChr hF)

theorem Keeps.up_closeDue (h : Keeps F s t) (hF : Part.merRest ∉ F) :
    t.mer.up = s.mer.up ∧ t.mer.closeDue = s.mer.closeDue := by
  obtain ⟨hup, -, -, -, -, -, -, hdue⟩ := by simpa only [Part.same, Prod.mk.injEq] using h.same .merRest hF
  exact ⟨hup, hdue⟩

theorem Keeps.cls (h : Keeps F s t) (hF : Part.hostRest ∉ F) : t.host.cls = s.host.cls :=
  congrArg Prod.fst (h.same .hostRest hF)

end

/-! ### The idle step -/

/-- The time of the closes is the tick's. -/
theorem idleBefore_chr (s : State) :
    (idleBefore s).mer.chr = chronoTick s.flt.island[(14 : Fin 17)].lost s.mer.chr :=
  ((keep_idleBefore s).chr (by decide)).trans ((keep_countSlow (tick s)).chr (by decide))

/-- The Chronometer runs for one millisecond (R247). -/
theorem idle_ns (s : State) : (idle s).mer.chr.ns = (chronoTick s.flt.island[(14 : Fin 17)].lost s.mer.chr).ns := by
  rw [(keep_idle_closeTick s).chr (by decide), closeTick_ns, idleBefore_chr]

/-- The token buckets refill once the host interface is ready (R396). -/
theorem idle_cls (s : State) :
    (idle s).host.cls = if s.landfall.hostReady = true then refill s.host.cls else s.host.cls := by
  have hclose : (closeTick (idleBefore s)).host.cls = (tick s).host.cls :=
    ((keep_closeTick _).cls (by decide)).trans
      (((keep_idleBefore s).cls (by decide)).trans ((keep_countSlow _).cls (by decide)))
  rw [idle_eq, (keep_idleEnd _).cls (by decide), hostTick_cls, (keep_idleAfter _).cls (by decide), hclose, tick]
  split <;> rfl

/-- The slow time of each drive is counted (R170). -/
theorem idle_drive (s : State) (k : Fin 6) : (idle s).drive[k] =
    if 1024 ≤ 5 * coolDuty s k ∧ s.drive[k].rpm < tachMin s (driveOutlet k) then
      { s.drive[k] with slowMs := s.drive[k].slowMs + 1 } else s.drive[k] := by
  have hdrive : (idle s).drive = (countSlow (tick s)).drive :=
    ((keep_idle_closeTick s).same .drive (by decide)).trans
      (((keep_closeTick _).same .drive (by decide)).trans ((keep_idleBefore s).same .drive (by decide)))
  rw [hdrive]
  exact countSlow_drive (tick s) k

/-- No commanded close is overdue while Meridian meters (R255). -/
theorem idle_closeDue {s : State} (h : s.mer.up = true) {c : Nat × Nat} (hc : c ∈ (idle s).mer.closeDue) :
    (idle s).mer.chr.ns < c.2 := by
  have hup : (idleBefore s).mer.up = true :=
    (((keep_idleBefore s).up_closeDue (by decide)).1.trans ((keep_countSlow (tick s)).up_closeDue (by decide)).1).trans h
  rw [((keep_idle_closeTick s).up_closeDue (by decide)).2] at hc
  rw [idle_ns, ← idleBefore_chr]
  exact lt_of_mem_closeTick hup hc

theorem idle_mono (s : State) : (idle s).mono = s.mono + 1 :=
  ((keep_idle_closeTick s).same .mono (by decide)).trans (((keep_closeTick _).same .mono (by decide)).trans
    (((keep_idleBefore s).same .mono (by decide)).trans ((keep_countSlow (tick s)).same .mono (by decide))))

/-- Settles O37: with nothing waiting a step is `idle`, whose parts are ticked, counted and closed one after the other;
each of the later ones leaves what the earlier ones made of the time, the buckets, the drives and the closes. -/
theorem idleStepIsOneMillisecond : Obligations.IdleStepIsOneMillisecond := by
  unfold Obligations.IdleStepIsOneMillisecond
  intro s hp
  have hpending : (idle s).pending = [] := ((keep_idle s).same .pending (by decide)).trans hp
  exact ⟨idle s, by rw [step, hp], hpending, idle_mono s, idle_ns s, idle_cls s, idle_drive s,
    fun h _ hc => idle_closeDue h hc, (keep_idle s).same⟩

end Sys2Proof.Machine
end

section
/-!
SUPPORT. Accepted operations on sessions, certificates, the authorisation table, accounts, the site limit, the weather hold
and the display (R155, R161, R166, R167, R266 to R272, R281, R283, R365; O33).
-/
namespace Sys2Proof.Machine

section

variable {u t : State} {o : Nat} {k : Chunk} {d : Bytes}

/-! ### Sessions and certificates -/

/-- ALLOW, for an identified outlet and its token (R166). -/
theorem runAuthorise_allow {h : Bytes} (id : Nat) (hn : needsStage u = false)
    (hst : u.outlet[Fin.ofNat 2 o].st = .identified) (hh : u.outlet[Fin.ofNat 2 o].auth.hash = h) :
    runAuthorise u id o 1 h = resolveOp (allow u (Fin.ofNat 2 o) 1) id .ok [] := by
  rw [runAuthorise, if_neg (by rw [hn]; decide), if_pos hst, if_neg (not_not_intro hh), if_pos rfl]

/-- REFUSE, for an identified outlet and its token (R166). -/
theorem runAuthorise_refuse {h : Bytes} (id : Nat) (hn : needsStage u = false)
    (hst : u.outlet[Fin.ofNat 2 o].st = .identified) (hh : u.outlet[Fin.ofNat 2 o].auth.hash = h) :
    runAuthorise u id o 2 h =
      resolveOp (refuse (updOutlet u (Fin.ofNat 2 o) fun y => { y with authSrc := 1 }) (Fin.ofNat 2 o)) id .ok [] := by
  rw [runAuthorise, if_neg (by rw [hn]; decide), if_pos hst, if_neg (not_not_intro hh), if_neg (by decide)]

theorem runCert_more {sid id : Nat} (ht : takeChunk u sid 0x20 o k = (t, some (false, d))) :
    runCert u id sid o k = resolveOp t id .ok [] := by
  rw [runCert, ht]

/-- The last chunk of a certificate answers the request that the vehicle waits for (R155). -/
theorem runCert_last {sid : Nat} (id : Nat) (ht : takeChunk u sid 0x20 o k = (t, some (true, d)))
    (hn : needsStage u = false) (hs : u.outlet[Fin.ofNat 2 o].link.session = true)
    (ha : u.outlet[Fin.ofNat 2 o].answer = .ongoing) :
    runCert u id sid o k = resolveOp (answer t (Fin.ofNat 2 o) (.ok (d.map (·.toNat)))) id .ok [] := by
  have kept := (keep_takeChunk_eq ht).same
  have houtlet : t.outlet = u.outlet := kept .outlet (by decide)
  have hlandfall : t.landfall = u.landfall := kept .landfall (by decide)
  have hneeds : needsStage t = false := by
    rw [← hn, needsStage, needsStage, holdCode, holdCode, hlandfall]
  have waits : (!needsStage t && t.outlet[Fin.ofNat 2 o].link.session
      && decide (t.outlet[Fin.ofNat 2 o].answer = .ongoing)) = true := by
    rw [hneeds, houtlet, hs, ha]
    rfl
  rw [runCert, ht]
  exact if_pos waits

/-- A session under way is stopped, and the reason recorded is the result (R161). -/
theorem runStop_session (id : Nat) (hn : needsStage u = false) (hidle : u.outlet[Fin.ofNat 2 o].st ≠ .idle)
    (hfin : u.outlet[Fin.ofNat 2 o].st ≠ .finished) (hfault : u.outlet[Fin.ofNat 2 o].st ≠ .faulted) :
    runStop u id o = resolveOp (stopTrigger u (Fin.ofNat 2 o) .host) id .ok
      (toBe 1 (stopTrigger u (Fin.ofNat 2 o) .host).outlet[Fin.ofNat 2 o].stopReason) := by
  rw [runStop, if_neg (by rw [hn]; decide)]
  split
  · next h => exact absurd h hidle
  · next h => exact absurd h hfin
  · next h => exact absurd h hfault
  · rfl

/-! ### The commercial state -/

theorem runAuthTable_more {sid id : Nat} (ht : takeChunk u sid 0x22 0 k = (t, some (false, d))) :
    runAuthTable u id sid k = resolveOp t id .ok [] := by
  rw [runAuthTable, ht]

/-- The last chunk of a sound table switches it in (R271). -/
theorem runAuthTable_last {sid : Nat} (id : Nat) (ht : takeChunk u sid 0x22 0 k = (t, some (true, d)))
    (hok : authOk (authEntries (d.length / 16) d) = true) :
    (runAuthTable u id sid k).com.table = authEntries (d.length / 16) d := by
  rw [runAuthTable, ht]
  dsimp only
  rw [if_pos hok]
  rfl

/-- What follows the end of friendly hours is no part of the commercial state (R269). -/
theorem runWeather_weatherEnd (u : State) (id m : Nat) :
    (runWeather u id m).com.weatherEnd = if m = 0 then 0 else u.nowNs + m * 60000000000 := by
  unfold runWeather
  extract_lets stop com held stopped
  have hcom : stopped.com = held.com := by
    unfold stopped
    split
    · exact ((keep_creditStop _ 1).same .com (by decide)).trans ((keep_creditStop held 0).same .com (by decide))
    · rfl
  exact congrArg Commercial.weatherEnd hcom

/-! ### The site limit -/

theorem sendCtrl_mgr (s : State) (dst : Nat) (b : Bytes) : (sendCtrl s dst b).mgr = s.mgr :=
  (keep_sendCtrl s dst b).same .mgr (by decide)

/-- A cycle published leaves the site limit as it is (R369). -/
theorem publish_pSite (s : State) (kind : Nat) :
    (publish s kind).mgr.pSite = s.mgr.pSite ∧ (publish s kind).mgr.pSiteHost = s.mgr.pSiteHost := by
  simp only [publish, sendCtrl_mgr, setAllocs, and_self]

/-- The acting manager takes a site limit within P_SITE_MAX, with classes of workers that it knows (R365, R383). -/
theorem runSiteLimit_set {p : Nat} {l : List (Nat × Nat)} (id : Nat) (ha : acting u = true) (hp : p ≠ 0xFFFFFFFF)
    (hmax : p ≤ cfgN u 0x60 0 0x000 31 0) (hl : (l.all fun c => (enabled u).any fun w => smNode u w == c.1) = true) :
    (runSiteLimit u id p l).mgr.pSite = p ∧ (runSiteLimit u id p l).mgr.pSiteHost = true := by
  have known : ¬((decide (p ≠ 0xFFFFFFFF) && decide (cfgN u 0x60 0 0x000 31 0 < p))
      || !(l.all fun c => (enabled u).any fun w => smNode u w == c.1)) = true := by
    rw [hl, decide_eq_false (Nat.not_lt.mpr hmax), Bool.and_false]
    decide
  unfold runSiteLimit
  rw [if_neg (by rw [ha]; decide)]
  rw [if_neg known]
  extract_lets m host cls limited set sent
  have hset : set.mgr.pSite = p ∧ set.mgr.pSiteHost = true :=
    ⟨if_pos hp, by rw [show set.mgr.pSiteHost = (u.mgr.pSiteHost || decide (p ≠ 0xFFFFFFFF)) from rfl,
      decide_eq_true hp, Bool.or_true]⟩
  have hsent : sent.mgr.pSite = set.mgr.pSite ∧ sent.mgr.pSiteHost = set.mgr.pSiteHost := by
    unfold sent
    split
    · exact publish_pSite set 2
    · exact ⟨rfl, rfl⟩
  have hmgr : (resolveOp (sendParam sent) id .ok []).mgr = sent.mgr := sendCtrl_mgr ..
  rw [hmgr, hsent.1, hsent.2]
  exact hset

/-! ### The display -/

/-- An admitted rectangle has rows (R281). -/
theorem height_pos_of_admission {s : State} {role : Fin 4} {sid x0 y0 w h : Nat} {f : Frame} {pix : Bytes}
    (hadm : admission s role sid f (.displayRect x0 y0 w h pix) = .ok) : 0 < h := by
  have hlayout : (HostCmd.displayRect x0 y0 w h pix).layoutOk s = true := by
    unfold admission at hadm
    simp only at hadm
    split_ifs at hadm with _ _ _ _ hraw
    rw [Bool.or_eq_true, Bool.not_eq_true', not_or] at hraw
    exact Bool.eq_true_of_not_eq_false hraw.2
  obtain ⟨-, -, -, hpos, -⟩ := of_decide_eq_true hlayout
  exact hpos

/-- Where nothing waits nothing is superseded (R283). -/
theorem supersede_waiting {s : State} (r : Rect) (hw : s.disp.waiting = []) : (supersede s r).disp.waiting = [] := by
  rw [supersede, hw]
  exact congrArg (List.filter fun q => q.rect != r || q.full) hw

/-- A rectangle clear of the legal window joins the queue, where nothing waits that it could supersede (R281, R283). -/
theorem queueRect_clear {s : State} {r : Rect} {pix : Bytes} (op : Option Nat) (hpos : 0 < r.h)
    (hclear : ((List.range r.h).any fun j => inLegal s.disp (r.y0 + j)) = false) (hw : s.disp.waiting = []) :
    ∃ v, queueRect s r pix op = (true, v) ∧ v.disp.waiting = [{ rect := r, pix := pix, op := op, full := false }] := by
  have row (j : Nat) (hj : j ∈ List.range r.h) : inLegal s.disp (r.y0 + j) = false :=
    Bool.eq_false_of_not_eq_true (List.any_eq_false.mp hclear j hj)
  have noLegal : ¬((List.range r.h).map fun j => inLegal s.disp (r.y0 + j)).any id = true := by
    rw [List.any_map]
    exact Bool.eq_false_iff.mp hclear
  have notAllLegal : ¬((List.range r.h).map fun j => inLegal s.disp (r.y0 + j)).all id = true := fun h => by
    have first := List.all_eq_true.mp h _ (List.mem_map_of_mem (List.mem_range.mpr hpos))
    exact Bool.false_ne_true ((row 0 (List.mem_range.mpr hpos)).symm.trans first)
  refine ⟨_, by rw [queueRect, if_neg notAllLegal, if_neg noLegal], ?_⟩
  exact congrArg (· ++ [_]) (supersede_waiting r hw)

theorem runRect_clear {s : State} {r : Rect} {pix : Bytes} (id : Nat) (hpos : 0 < r.h)
    (hclear : ((List.range r.h).any fun j => inLegal s.disp (r.y0 + j)) = false) (hw : s.disp.waiting = []) :
    (runRect s id r pix).disp.waiting = [{ rect := r, pix := pix, op := some id, full := false }] := by
  obtain ⟨v, hq, hv⟩ := queueRect_clear (pix := pix) (some id) hpos hclear hw
  rw [runRect, hq]
  exact hv

end

/-- Settles O33: an accepted operation has the effect of `runOp` at once, in a state that differs in the host interface
alone. -/
theorem commercialOperationsComplete : Obligations.CommercialOperationsComplete := by
  unfold Obligations.CommercialOperationsComplete
  refine ⟨fun s f o d x u op h hn hst hh => ?_, fun s f o d x u op h hn hst hh => ?_,
    fun s f o d k x u op t b h ht => h.next_of_run_helm rfl (runCert_more ht),
    fun s f o d k x u op t b h ht hn hs ha => ?_, fun s f o x u op h hn hidle hfin hfault => ?_,
    fun s f k x u op t b h ht => h.next_of_run_helm rfl (runAuthTable_more ht),
    fun s f k x u op t b h ht hok => ⟨_, h.next_of_run_helm rfl rfl, runAuthTable_last op.opId ht hok⟩,
    fun s f n v x u op h => h.next_of_run_helm rfl rfl,
    fun s f n v x u op h => ⟨_, h.next_of_run_helm rfl rfl⟩,
    fun s f n v x u op h => ?_, fun s f n v x u op h => ?_, fun s f p l x u op h ha hp hmax hl => ?_,
    fun s f m x u op h => ?_, fun s f l x u op h => h.next_of_run_helm rfl rfl,
    fun s f x0 y0 w r pix x u op h hclear hw => ?_⟩
  all_goals obtain ⟨i, rfl⟩ := h.state_host
  · exact h.next_of_run_helm rfl (runAuthorise_allow op.opId hn hst hh)
  · exact h.next_of_run_helm rfl (runAuthorise_refuse op.opId hn hst hh)
  · exact h.next_of_run_helm rfl (runCert_last op.opId ht hn hs ha)
  · exact h.next_of_run_helm rfl (runStop_session op.opId hn hidle hfin hfault)
  · exact ⟨_, h.next_of_run_helm rfl rfl⟩
  · exact ⟨_, h.next_of_run_helm rfl rfl⟩
  · exact ⟨_, h.next_of_run_helm rfl rfl, runSiteLimit_set op.opId ha hp hmax hl⟩
  · exact ⟨_, h.next_of_run_helm rfl rfl, runWeather_weatherEnd _ op.opId m⟩
  · exact ⟨_, h.next_of_run_helm rfl rfl, runRect_clear op.opId (height_pos_of_admission h.admitted) hclear hw⟩

end Sys2Proof.Machine
end

section
/-!
SUPPORT. What the operations that the tag reader's commands share leave of the reader: an update of a port, a command
sent, a record logged (R175 to R193; O14, O15, O45).
-/
namespace Sys2Proof.Machine

/-! ### A port after its update -/

@[simp] theorem updPort_same (s : State) (o : Fin 2) (f : HandlePort → HandlePort) :
    (updPort s o f).rdr.port[o] = f s.rdr.port[o] := upd_same ..

/-! ### Commands sent -/

/-- A command sent, or left out of a full window, changes what is on the air, the time used and whether the window is full;
the rest of the reader stays as it was (R176). -/
theorem sendTag_keeps {α : Type} {π : Reader → α} (s : State) (c : TagCmd)
    (h : ∀ (x : Reader) air used full, π { x with air := air, used := used, full := full } = π x) :
    π (sendTag s c).rdr = π s.rdr := by
  unfold sendTag
  split
  · exact h s.rdr s.rdr.air s.rdr.used true
  · exact h s.rdr _ _ s.rdr.full

theorem sendTag_portAt (s : State) (c : TagCmd) (o : Fin 2) : (sendTag s c).rdr.port[o] = s.rdr.port[o] :=
  sendTag_keeps (π := fun x => x.port[o]) s c fun _ _ _ _ => rfl

@[simp] theorem sendTag_miss (s : State) (c : TagCmd) : (sendTag s c).rdr.miss = s.rdr.miss :=
  sendTag_keeps (π := Reader.miss) s c fun _ _ _ _ => rfl

@[simp] theorem sendTag_unconf (s : State) (c : TagCmd) : (sendTag s c).rdr.unconf = s.rdr.unconf :=
  sendTag_keeps (π := Reader.unconf) s c fun _ _ _ _ => rfl

@[simp] theorem sendTag_window (s : State) (c : TagCmd) : (sendTag s c).rdr.window = s.rdr.window :=
  sendTag_keeps (π := Reader.window) s c fun _ _ _ _ => rfl

@[simp] theorem sendTag_harvPower (s : State) (c : TagCmd) : (sendTag s c).rdr.harvPower = s.rdr.harvPower :=
  sendTag_keeps (π := Reader.harvPower) s c fun _ _ _ _ => rfl

@[simp] theorem sendTag_settled (s : State) (c : TagCmd) : (sendTag s c).rdr.settled = s.rdr.settled :=
  sendTag_keeps (π := Reader.settled) s c fun _ _ _ _ => rfl

/-- A command is sent, or the window is full and it is left out (R176). -/
theorem sendTag_full_or_sent (s : State) (c : TagCmd) :
    (sendTag s c).rdr.full = true ∨ (sendTag s c).rdr.air = s.rdr.air ++ [.frame c] := by
  unfold sendTag
  split
  · exact .inl rfl
  · exact .inr rfl

theorem sendAll_portAt (s : State) (l : List TagCmd) (o : Fin 2) : (sendAll s l).rdr.port[o] = s.rdr.port[o] :=
  foldl_same (π := fun u => u.rdr.port[o]) (fun u c => sendTag_portAt u c o) l s

@[simp] theorem sendAll_miss (s : State) (l : List TagCmd) : (sendAll s l).rdr.miss = s.rdr.miss :=
  foldl_same (π := fun u => u.rdr.miss) sendTag_miss l s

@[simp] theorem sendAll_unconf (s : State) (l : List TagCmd) : (sendAll s l).rdr.unconf = s.rdr.unconf :=
  foldl_same (π := fun u => u.rdr.unconf) sendTag_unconf l s

/-! ### Replies -/

/-- A status that says OK leaves the bits after it. -/
theorem okBits_of_ok {h : Heard} {l : List Bool} (hh : h = .bits l) (hv : bitsVal (l.take 4) = 0) :
    okBits h = some (l.drop 4) := by
  rw [hh]
  exact if_pos hv

/-! ### Records logged -/

@[simp] theorem logWrite_rdr (s : State) (o : Fin 2) (report : Nat) : (logWrite s o report).rdr = s.rdr := rfl

end Sys2Proof.Machine
end

section
/-!
SUPPORT. Tag writes: what each answer to a WRITE does, and the read-back of an unconfirmed one (R189 to R193; O15, O45).
-/
namespace Sys2Proof.Machine

/-! ### The end of a write -/

@[simp] theorem endWrite_write (s : State) (o : Fin 2) (report : Nat) (written : Bool) :
    (endWrite s o report written).rdr.port[o].write
      = { s.rdr.port[o].write with busy := false, readBack := false, report := report } := by
  rw [endWrite, updPort_same]

/-- A write that is over without being taken as written leaves what is known of the identity tag. -/
theorem endWrite_ident_unwritten (s : State) (o : Fin 2) (report : Nat) :
    (endWrite s o report false).rdr.port[o].ident = s.rdr.port[o].ident := by
  rw [endWrite, updPort_same]
  rfl

/-- A write taken as written is what the identity tag's block 8 now holds, where the tag is the one written (R193). -/
theorem endWrite_block8 {s : State} {o : Fin 2} (report : Nat)
    (h : s.rdr.port[o].ident.id = s.rdr.port[o].write.id) :
    (endWrite s o report true).rdr.port[o].ident.block8 = s.rdr.port[o].write.new := by
  have known : (true && s.rdr.port[o].ident.id == s.rdr.port[o].write.id) = true := by
    rw [h, Bool.true_and, beq_self_eq_true]
  rw [endWrite, updPort_same, if_pos known]

/-! ### Answers to a WRITE -/

section

variable {s : State} {o : Fin 2} {r : AirReply} {l : List Bool}

/-- A WRITE that awaits its answer, answered in time and with a good CRC. -/
structure WriteAnswered (s : State) (o : Fin 2) (r : AirReply) (l : List Bool) : Prop where
  reachable : talking s o = true
  busy : s.rdr.port[o].write.busy = true
  awaited : s.rdr.port[o].write.readBack = false
  heard : hearReply 4 r = .bits l

theorem WriteAnswered.due (h : WriteAnswered s o r l) :
    (talking s o && s.rdr.port[o].write.busy && !s.rdr.port[o].write.readBack) = true := by
  rw [h.reachable, h.busy, h.awaited]
  rfl

/-- The state in which a WRITE is repeated: the repetition is noted, and the field is as strong as it gets (R191). -/
def repeatedWrite (s : State) (o : Fin 2) : State :=
  strongField (updPort s o fun p => { p with write := { p.write with repeated := true } })

/-- What the STATUS that answers a WRITE does (Table 07-2, R189 to R191). -/
def afterWriteStatus (s : State) (o : Fin 2) : Nat → State
  | 0 => endWrite s o 1 true
  | 2 => logWrite (endWrite s o 2 false) o 2
  | 1 =>
    if s.rdr.port[o].write.repeated then logWrite (endWrite s o 3 false) o 3
    else sendTag (repeatedWrite s o) (.write s.rdr.port[o].write.block s.rdr.port[o].write.new)
  | _ => unconfirm s o

theorem WriteAnswered.next (h : WriteAnswered s o r l) :
    execTagWriteReply o r s = .next (afterWriteStatus s o (bitsVal l)) := by
  rw [execTagWriteReply, if_pos h.due, h.heard]
  rfl

/-- An answer with a STATUS of the table. -/
theorem WriteAnswered.next_of_status {n : Nat} (h : WriteAnswered s o r l) (hv : bitsVal l = n) :
    execTagWriteReply o r s = .next (afterWriteStatus s o n) := hv ▸ h.next

/-- The first LOW_ENERGY repeats the WRITE (R191). -/
theorem WriteAnswered.next_lowEnergy_first (h : WriteAnswered s o r l) (hv : bitsVal l = 1)
    (hrep : s.rdr.port[o].write.repeated = false) : execTagWriteReply o r s =
      .next (sendTag (repeatedWrite s o) (.write s.rdr.port[o].write.block s.rdr.port[o].write.new)) :=
  (h.next_of_status hv).trans (congrArg Host.Outcome.next (if_neg (ne_true_of_eq_false hrep)))

/-- The second LOW_ENERGY abandons it (R191). -/
theorem WriteAnswered.next_lowEnergy_again (h : WriteAnswered s o r l) (hv : bitsVal l = 1)
    (hrep : s.rdr.port[o].write.repeated = true) :
    execTagWriteReply o r s = .next (logWrite (endWrite s o 3 false) o 3) :=
  (h.next_of_status hv).trans (congrArg Host.Outcome.next (if_pos hrep))

/-- A repeated WRITE goes on, with its repetition noted. -/
theorem WriteAnswered.repeats (h : WriteAnswered s o r l) {c : TagCmd} :
    (sendTag (repeatedWrite s o) c).rdr.port[o].write.busy = true
      ∧ (sendTag (repeatedWrite s o) c).rdr.port[o].write.repeated = true := by
  have noted : (repeatedWrite s o).rdr.port[o].write = { s.rdr.port[o].write with repeated := true } :=
    congrArg HandlePort.write (updPort_same ..)
  rw [sendTag_portAt, noted]
  exact ⟨h.busy, rfl⟩

/-- A write that is over is reported, and logged where the report says so. -/
theorem logged_endWrite (s : State) (o : Fin 2) (report : Nat) (written : Bool) :
    (logWrite (endWrite s o report written) o report).rdr.port[o].write.busy = false
      ∧ (logWrite (endWrite s o report written) o report).rdr.port[o].write.report = report
      ∧ (logWrite (endWrite s o report written) o report).log.nextNo = s.log.nextNo + 1 := by
  rw [logWrite_rdr, endWrite_write]
  exact ⟨rfl, rfl, rfl⟩

end

/-! ### Unconfirmed writes and their read-back -/

theorem askReadback_portAt (s : State) (o : Fin 2) : (askReadback s o).rdr.port[o] = s.rdr.port[o] :=
  sendAll_portAt ..

/-- A write left unconfirmed is reported, counted and logged, and its read-back is due (R190). -/
theorem unconfirm_effect (s : State) (o : Fin 2) : (unconfirm s o).rdr.port[o].write.readBack = true
    ∧ (unconfirm s o).rdr.port[o].write.report = 4 ∧ (unconfirm s o).rdr.unconf = satInc 16 s.rdr.unconf
    ∧ (unconfirm s o).log.nextNo = s.log.nextNo + 1 := by
  unfold unconfirm
  extract_lets marked rdr logged
  have hwrite : logged.rdr.port[o].write = { s.rdr.port[o].write with readBack := true, attempts := 0, report := 4 } :=
    congrArg HandlePort.write (updPort_same s o _)
  split
  · have hlog : (askReadback logged o).log = logged.log := (keep_askReadback logged o).same .log (by decide)
    rw [askReadback_portAt, hwrite, hlog]
    exact ⟨rfl, rfl, sendAll_unconf .., rfl⟩
  · rw [hwrite]
    exact ⟨rfl, rfl, rfl, rfl⟩

theorem execWriteUnconfirmed_effect {s : State} {o : Fin 2} (hbusy : s.rdr.port[o].write.busy = true)
    (hback : s.rdr.port[o].write.readBack = false) : ∃ t, execWriteUnconfirmed o s = .next t
      ∧ t.rdr.port[o].write.readBack = true ∧ t.rdr.port[o].write.report = 4
      ∧ t.rdr.unconf = satInc 16 s.rdr.unconf ∧ t.log.nextNo = s.log.nextNo + 1 := by
  have due : (s.rdr.port[o].write.busy && !s.rdr.port[o].write.readBack) = true := by
    rw [hbusy, hback]
    rfl
  exact ⟨_, by rw [execWriteUnconfirmed, if_pos due], unconfirm_effect s o⟩

section

variable {s : State} {o : Fin 2} {r : AirReply} {l : List Bool}

/-- An unconfirmed write whose read-back is under way. -/
structure ReadBackDue (s : State) (o : Fin 2) : Prop where
  reachable : talking s o = true
  busy : s.rdr.port[o].write.busy = true
  checking : s.rdr.port[o].write.readBack = true

theorem ReadBackDue.due (h : ReadBackDue s o) :
    (talking s o && s.rdr.port[o].write.busy && s.rdr.port[o].write.readBack) = true := by
  rw [h.reachable, h.busy, h.checking]
  rfl

/-- The report of a write whose block reads `d` afterwards: written, not written, or neither (R190). -/
def readBackReport (w : TagWrite) (d : Bytes) : Nat := if d = w.new then 5 else if d = w.old then 6 else 7

/-- A valid read-back ends the write; a block that reads as meant is taken as written (R190). -/
theorem ReadBackDue.next_valid (h : ReadBackDue s o) (hh : hearReply 68 r = .bits l) (hv : bitsVal (l.take 4) = 0) :
    execWriteReadback o (some r) s =
      let report := readBackReport s.rdr.port[o].write (bitsBytes (l.drop 4))
      .next (logWrite (endWrite s o report (decide (bitsBytes (l.drop 4) = s.rdr.port[o].write.new))) o report) := by
  rw [execWriteReadback]
  dsimp only
  rw [if_pos h.due, okBits_of_ok hh hv, hh]
  dsimp only [countReply]
  unfold readBackReport
  split
  · rw [decide_eq_true ‹_›]
  · rw [decide_eq_false ‹_›]
    split <;> rfl

/-- An attempt without an answer. -/
theorem ReadBackDue.next_none (h : ReadBackDue s o) : execWriteReadback o none s = .next (missReadback s o) :=
  congrArg Host.Outcome.next (if_pos h.due)

/-- The third attempt without an answer is the last (R190). -/
theorem missReadback_last (hlast : 2 ≤ s.rdr.port[o].write.attempts) :
    missReadback s o = logWrite (endWrite s o 7 false) o 7 := if_pos hlast

/-- After an earlier one the READ is sent again (R190). -/
theorem missReadback_write (hmore : s.rdr.port[o].write.attempts < 2) : (missReadback s o).rdr.port[o].write
    = { s.rdr.port[o].write with attempts := s.rdr.port[o].write.attempts + 1 } := by
  rw [missReadback, if_neg (Nat.not_le.mpr hmore), askReadback_portAt, updPort_same]

end

/-- Settles O45: the first LOW_ENERGY sends the WRITE again in the same window, the second ends it with report 3. -/
theorem lowEnergyRepeatsOnce : Obligations.LowEnergyRepeatsOnce := by
  unfold Obligations.LowEnergyRepeatsOnce
  constructor
  · intro s o r l htalk hbusy hback hheard hv hrep
    have answered : WriteAnswered s o r l := ⟨htalk, hbusy, hback, hheard⟩
    obtain ⟨hgoes, hnoted⟩ := answered.repeats
    exact ⟨_, answered.next_lowEnergy_first hv hrep, hgoes, hnoted, sendTag_window .., sendTag_harvPower ..,
      sendTag_full_or_sent ..⟩
  · intro s o r l htalk hbusy hback hheard hv hrep
    have answered : WriteAnswered s o r l := ⟨htalk, hbusy, hback, hheard⟩
    obtain ⟨hover, hreport, hlogged⟩ := logged_endWrite s o 3 false
    exact ⟨_, answered.next_lowEnergy_again hv hrep, rfl, hover, hreport, endWrite_ident_unwritten s o 3, hlogged⟩

end Sys2Proof.Machine
end

section
/-!
SUPPORT. The reading of tags block by block, and the sensor cycle (R177, R193; O15).
-/
namespace Sys2Proof.Machine

/-! ### Blocks of a tag -/

/-- The reading that goes on changes at its port only which tag is read. -/
theorem readNext_keeps {α : Type} {π : HandlePort → α} (s : State) (o : Fin 2)
    (h : ∀ (p : HandlePort) rd, π { p with rd := rd } = π p) :
    π (readNext s o).rdr.port[o] = π s.rdr.port[o] := by
  unfold readNext
  split
  · rw [updPort_same, h]
  · dsimp only
    rw [sendTag_portAt]
    split
    · rfl
    · rw [sendTag_portAt, updPort_same, h]

@[simp] theorem enterCableCheck_rdr (s : State) (o : Fin 2) : (enterCableCheck s o).rdr = s.rdr :=
  (keep_enterCableCheck s o).same .rdr (by decide)

/-- The tag table after a block: each entry holds the identifier that R193 gives it. -/
theorem fileTags_id (p : HandlePort) (k : Fin 7) : (fileTags p).tag[k].id = tagIds p.found k := by
  simp [fileTags]

/-- A block read from a tag, filed (R193). -/
def blockFiled (s : State) (o : Fin 2) (id : Nat) (block : Bytes) : State :=
  updPort s o fun p => fileTags
    { p with found := p.found.map fun x => if x.id = id then { x with blocks := x.blocks ++ [block] } else x }

theorem blockFiled_same (s : State) (o : Fin 2) (id : Nat) (block : Bytes) :
    (blockFiled s o id block).rdr.port[o].found = s.rdr.port[o].found.map (fun x =>
        if x.id = id then { x with blocks := x.blocks ++ [block] } else x)
      ∧ ∀ k : Fin 7, (blockFiled s o id block).rdr.port[o].tag[k].id
        = tagIds (blockFiled s o id block).rdr.port[o].found k := by
  rw [blockFiled, updPort_same]
  exact ⟨rfl, fileTags_id _⟩

/-- A tag with no block left to read is halted. -/
def haltRead (s : State) (o : Fin 2) (id : Nat) : State :=
  if (toRead s.rdr.port[o]).map (·.id) = some id then s else sendTag s .halt

theorem haltRead_portAt (s : State) (o : Fin 2) (id : Nat) : (haltRead s o id).rdr.port[o] = s.rdr.port[o] := by
  unfold haltRead
  split
  · rfl
  · exact sendTag_portAt ..

section

variable {s : State} {o : Fin 2} {r : AirReply} {l : List Bool} {id : Nat}

/-- A READ answered with OK files the block, and the reading goes on (R193). -/
theorem execTagReadReply_ok (ht : talking s o = true) (hrd : s.rdr.port[o].rd = some id)
    (hh : hearReply 68 r = .bits l) (hv : bitsVal (l.take 4) = 0) : execTagReadReply o r s =
      .next (enterCableCheck (readNext (haltRead (blockFiled s o id (bitsBytes (l.drop 4))) o id) o) o) := by
  rw [execTagReadReply, hrd]
  dsimp only
  rw [if_pos ht, okBits_of_ok hh hv, hh]
  rfl

theorem execTagReadReply_ok_effect (ht : talking s o = true) (hrd : s.rdr.port[o].rd = some id)
    (hh : hearReply 68 r = .bits l) (hv : bitsVal (l.take 4) = 0) : ∃ t, execTagReadReply o r s = .next t
      ∧ t.rdr.port[o].found = s.rdr.port[o].found.map (fun x =>
          if x.id = id then { x with blocks := x.blocks ++ [bitsBytes (l.drop 4)] } else x)
      ∧ ∀ k : Fin 7, t.rdr.port[o].tag[k].id = tagIds t.rdr.port[o].found k := by
  have kept {α : Type} (π : HandlePort → α) (h : ∀ (p : HandlePort) rd, π { p with rd := rd } = π p) (u : State) :
      π (enterCableCheck (readNext (haltRead u o id) o) o).rdr.port[o] = π u.rdr.port[o] := by
    rw [enterCableCheck_rdr, readNext_keeps _ o h, haltRead_portAt]
  refine ⟨_, execTagReadReply_ok ht hrd hh hv, ?_⟩
  rw [kept HandlePort.found fun _ _ => rfl, kept HandlePort.tag fun _ _ => rfl]
  exact blockFiled_same s o id _

theorem execTagReadReply_bad (ht : talking s o = true) (hrd : s.rdr.port[o].rd = some id)
    (hh : okBits (hearReply 68 r) = none) : execTagReadReply o r s =
      .next (updPort (countReply s (hearReply 68 r)) o fun p => { p with rd := none }) := by
  rw [execTagReadReply, hrd]
  dsimp only
  rw [if_pos ht, hh]

end

/-! ### The sensor cycle -/

/-- The cycle that goes on changes at its port only the tag that is due and its repetition. -/
theorem measureFrom_keeps {α : Type} {π : HandlePort → α} (s : State) (o : Fin 2) (k : Nat)
    (h : ∀ (p : HandlePort) cyc retried, π { p with cyc := cyc, retried := retried } = π p) :
    π (measureFrom s o k).rdr.port[o] = π s.rdr.port[o] := by
  unfold measureFrom
  split
  · rw [updPort_same, h]
  · rw [sendAll_portAt, updPort_same, h]

theorem measureFrom_miss (s : State) (o : Fin 2) (k : Nat) : (measureFrom s o k).rdr.miss = s.rdr.miss := by
  unfold measureFrom
  split
  · rfl
  · exact sendAll_miss ..

/-- A reading missed is marked in the tag table and counted (R177). -/
theorem missReading_effect (s : State) (o : Fin 2) (k : Fin 7) (tstat : Nat) :
    (missReading s o k tstat).rdr.port[o].tag[k].tstat = tstat
      ∧ (missReading s o k tstat).rdr.miss = satInc 16 s.rdr.miss := by
  have entry : (missReading s o k tstat).rdr.port[o].tag = upd s.rdr.port[o].tag k fun e => { e with tstat := tstat } :=
    congrArg HandlePort.tag (updPort_same ..)
  rw [entry, upd_same]
  exact ⟨rfl, rfl⟩

/-- The cycle that goes on leaves the tag table and the count of missed readings. -/
theorem measureFrom_effect (s : State) (o : Fin 2) (n : Nat) :
    (measureFrom s o n).rdr.port[o].tag = s.rdr.port[o].tag ∧ (measureFrom s o n).rdr.miss = s.rdr.miss :=
  ⟨measureFrom_keeps s o n fun _ _ _ => rfl, measureFrom_miss s o n⟩

section

variable {s : State} {o : Fin 2} {k : Fin 7} {r : AirReply} {l : List Bool}

/-- A failed sensor's reading is missed and its fault logged (R193). -/
theorem execSensorMeasureReply_failed (hs : readsSensor s o k = true) (hh : hearReply 28 r = .bits l)
    (hv : bitsVal (l.take 4) = 0) (ht : toSigned 16 (bitsVal ((l.drop 4).take 16)) = -32768) :
    execSensorMeasureReply o k r s = .next (doneSensor (logDetect (missReading s o k 3) 0x0A02 .helm o) o k) := by
  rw [execSensorMeasureReply, if_pos hs]
  dsimp only
  rw [okBits_of_ok hh hv, hh]
  exact congrArg Host.Outcome.next (if_pos ht)

theorem execSensorMeasureReply_failed_effect (hs : readsSensor s o k = true) (hh : hearReply 28 r = .bits l)
    (hv : bitsVal (l.take 4) = 0) (ht : toSigned 16 (bitsVal ((l.drop 4).take 16)) = -32768) :
    ∃ t, execSensorMeasureReply o k r s = .next t ∧ t.rdr.port[o].tag[k].tstat = 3
      ∧ t.rdr.miss = satInc 16 s.rdr.miss ∧ t.flt.lastCode = 0x0A02 := by
  have faults (u : State) : (doneSensor u o k).flt = u.flt := (keep_doneSensor u o k).same .flt (by decide)
  obtain ⟨hstat, hmiss⟩ := missReading_effect s o k 3
  refine ⟨_, execSensorMeasureReply_failed hs hh hv ht, ?_, ?_, ?_⟩
  · rw [doneSensor, (measureFrom_effect ..).1, sendTag_portAt]
    exact hstat
  · rw [doneSensor, (measureFrom_effect ..).2, sendTag_miss]
    exact hmiss
  · rw [faults]
    rfl

/-- A reading is filed, passed on as a cooling input, and the cable check judged by it (R159, R171, R177). -/
theorem execSensorMeasureReply_read (hs : readsSensor s o k = true) (hh : hearReply 28 r = .bits l)
    (hv : bitsVal (l.take 4) = 0) (ht : toSigned 16 (bitsVal ((l.drop 4).take 16)) ≠ -32768) :
    execSensorMeasureReply o k r s = .next (judgeCable (doneSensor (passReading (updPort s o fun p =>
      { p with tag := upd p.tag k fun e =>
        { e with temp := toSigned 16 (bitsVal ((l.drop 4).take 16)), time := s.nowNs, tstat := 1, seen := true } })
      o k) o k) o) := by
  rw [execSensorMeasureReply, if_pos hs]
  dsimp only
  rw [okBits_of_ok hh hv, hh]
  exact congrArg Host.Outcome.next (if_neg ht)

/-- The one repetition in the window (R177). -/
theorem execTagExchangeNoReply_first (hs : readsSensor s o k = true) (hr : s.rdr.port[o].retried = false) :
    execTagExchangeNoReply o k s = .next (sendAll (updPort s o fun p => { p with retried := true })
      [selectOf s.rdr.port[o].tag[k].id, .measure]) := by
  rw [execTagExchangeNoReply, if_pos hs, noReading, if_neg (ne_true_of_eq_false hr)]

/-- After it the reading is missed (R177). -/
theorem execTagExchangeNoReply_again (hs : readsSensor s o k = true) (hr : s.rdr.port[o].retried = true) :
    ∃ t, execTagExchangeNoReply o k s = .next t ∧ t.rdr.port[o].tag[k].tstat = 2
      ∧ t.rdr.miss = satInc 16 s.rdr.miss := by
  obtain ⟨htag, hmiss⟩ := measureFrom_effect (missReading s o k 2) o (k + 1)
  refine ⟨_, by rw [execTagExchangeNoReply, if_pos hs, noReading, if_pos hr], ?_⟩
  rw [htag, hmiss]
  exact missReading_effect s o k 2

end

/-- Settles O15: each reply, or its absence, takes a tag's reading, a sensor cycle or a write one step on. -/
theorem tagExchangeCompletes : Obligations.TagExchangeCompletes := by
  unfold Obligations.TagExchangeCompletes
  refine ⟨fun s o r l id ht hrd hh hv => execTagReadReply_ok_effect ht hrd hh hv,
    fun s o r id ht hrd hh => execTagReadReply_bad ht hrd hh,
    fun s o k r l hs hh hv ht => execSensorMeasureReply_failed_effect hs hh hv ht,
    fun s o k r l temp hs hh hv htemp ht => ?_,
    fun s o k hs hr => execTagExchangeNoReply_first hs hr,
    fun s o k hs hr => execTagExchangeNoReply_again hs hr,
    fun s o r l htalk hbusy hback hheard => ?_,
    fun s o hbusy hback => execWriteUnconfirmed_effect hbusy hback,
    fun s o r l d htalk hbusy hback hh hv hd => ?_,
    fun s o htalk hbusy hback hlast => ?_, fun s o htalk hbusy hback hmore => ?_⟩
  · subst htemp
    exact execSensorMeasureReply_read hs hh hv ht
  · have answered : WriteAnswered s o r l := ⟨htalk, hbusy, hback, hheard⟩
    refine ⟨fun hv => ⟨_, answered.next_of_status hv, ?_, ?_, fun hid => endWrite_block8 1 hid⟩,
      fun hv => ⟨_, answered.next_of_status hv, logged_endWrite s o 2 false⟩,
      fun hv hrep => ⟨_, answered.next_lowEnergy_first hv hrep, answered.repeats⟩,
      fun hv hrep => ⟨_, answered.next_lowEnergy_again hv hrep, logged_endWrite s o 3 false⟩⟩
    all_goals rw [afterWriteStatus, endWrite_write]
  · subst hd
    have checked : ReadBackDue s o := ⟨htalk, hbusy, hback⟩
    obtain ⟨hover, hreport, -⟩ := logged_endWrite s o (readBackReport s.rdr.port[o].write (bitsBytes (l.drop 4)))
      (decide (bitsBytes (l.drop 4) = s.rdr.port[o].write.new))
    exact ⟨_, checked.next_valid hh hv, hover, hreport⟩
  · obtain ⟨hover, hreport, -⟩ := logged_endWrite s o 7 false
    refine ⟨_, (ReadBackDue.mk htalk hbusy hback).next_none, ?_⟩
    rw [missReadback_last hlast]
    exact ⟨hover, hreport⟩
  · refine ⟨_, (ReadBackDue.mk htalk hbusy hback).next_none, ?_⟩
    rw [missReadback_write hmore]
    exact ⟨hbusy, rfl⟩

end Sys2Proof.Machine
end

section
/-!
SUPPORT. The tag reader's cycle and windows, the inventory with its collisions, antenna faults and crew cards (R175 to R188,
R194; O14).
-/
namespace Sys2Proof.Machine

/-! ### Cycle and windows -/

/-- With a window's end every tag's harvest output goes off (R192). -/
theorem closeWindow_harvOn (s : State) (o : Fin 2) : (closeWindow s).rdr.port[o].harvOn = false := by
  simp [closeWindow]

theorem cutCycle_cycles (s : State) (o : Fin 2) : (cutCycle s o).rdr.cycles = s.rdr.cycles := by
  unfold cutCycle
  split
  · rfl
  · exact foldl_same (π := fun u => u.rdr.cycles) (f := fun t j => missReading t o j 2) (fun _ _ => rfl) _ _

/-- The cycle begins with the field off and its windows assigned (R176). -/
theorem execReaderCycleStart_effect (s : State) : ∃ t, execReaderCycleStart s = .next t
    ∧ t.rdr.cycles = s.rdr.cycles + 1 ∧ t.rdr.field = false ∧ t.rdr.window = none
    ∧ ∀ o : Fin 2, t.rdr.work[o] = handleWork (closeWindow s) o ∧ t.rdr.port[o].harvOn = false := by
  have cycles : (closeWindow s).rdr.cycles = s.rdr.cycles :=
    (cutCycle_cycles (cutCycle s 0) 1).trans (cutCycle_cycles s 0)
  exact ⟨_, rfl, congrArg (· + 1) cycles, rfl, rfl, fun o => ⟨Vector.getElem_ofFn o.isLt, closeWindow_harvOn s o⟩⟩

/-- The state in which a window's work begins: the field has settled (R175). -/
def fieldReady (s : State) : State :=
  { s with rdr := { s.rdr with settled := true, used := cfgN s 0x21 0 0x000 7 0 * 1356 } }

/-- What an inventory's QUERY leaves at its port. -/
theorem query_port (s : State) (o : Fin 2) (confirming : Bool) :
    (query s o confirming).rdr.port[o].inv.active = true
      ∧ (query s o confirming).rdr.port[o].inv.q = if confirming then 0 else qOf s.rdr.port[o].qfp := by
  unfold query
  dsimp only
  rw [sendTag_portAt, updPort_same]
  exact ⟨rfl, rfl⟩

theorem talking_of {s : State} {o : Fin 2} (hwin : s.rdr.window = some (handlePort o)) (hfield : s.rdr.field = true)
    (hset : s.rdr.settled = true) (hfull : s.rdr.full = false) (hant : s.rdr.antFault[handlePort o] = false) :
    talking s o = true := by
  simp [talking, hwin, hfield, hset, hfull, hant]

/-- Only the handle port whose window it is can be talking (R176). -/
theorem talking_window {s : State} {o : Fin 2} (h : s.rdr.window ≠ some (handlePort o)) : talking s o = false := by
  simp [talking, h]

/-- The first command of the window of a plugged outlet whose inventory is not done is a QUERY (Table 07-1, R188). -/
theorem windowWork_inventory {s : State} {o : Fin 2} (hst : s.outlet[o].st = .plugged)
    (hbusy : s.rdr.port[o].write.busy = false) (hmate : s.rdr.port[o].mate = none)
    (hdone : s.rdr.port[o].invDone = false) : windowWork s o = query s o false := by
  have noReadBack : ¬(s.rdr.port[o].write.busy && s.rdr.port[o].write.readBack) = true := by
    rw [hbusy]
    exact Bool.false_ne_true
  have noMate : ¬(s.rdr.port[o].mate.isSome && !s.rdr.port[o].write.busy) = true := by
    rw [hmate]
    exact Bool.false_ne_true
  exact (if_neg noReadBack).trans ((if_neg noMate).trans (if_pos ⟨hst, hdone⟩))

/-- In the window of port 0 the field's settling begins the work of outlet 0 alone. -/
theorem execFieldSettled_port0 {s : State} (hfield : s.rdr.field = true) (hset : s.rdr.settled = false)
    (first : talking (fieldReady s) 0 = true) (second : talking (windowWork (fieldReady s) 0) 1 = false) :
    execFieldSettled s = .next (windowWork (fieldReady s) 0) := by
  have due : (s.rdr.field && !s.rdr.settled) = true := by
    rw [hfield, hset]
    rfl
  refine congrArg Host.Outcome.next ((if_pos due).trans ?_)
  exact (if_neg (ne_true_of_eq_false ((congrArg (talking · 1) (if_pos first)).trans second))).trans (if_pos first)

/-- There the field's settling opens a frame (R175, R188). -/
theorem execFieldSettled_inventory {s : State} (hfield : s.rdr.field = true) (hset : s.rdr.settled = false)
    (hfull : s.rdr.full = false) (hwin : s.rdr.window = some 0) (hst : s.outlet[(0 : Fin 2)].st = .plugged)
    (hant : s.rdr.antFault[(0 : Fin 3)] = false) (hbusy : s.rdr.port[(0 : Fin 2)].write.busy = false)
    (hmate : s.rdr.port[(0 : Fin 2)].mate = none) (hdone : s.rdr.port[(0 : Fin 2)].invDone = false) :
    execFieldSettled s = .next (query (fieldReady s) 0 false) := by
  have work : windowWork (fieldReady s) 0 = query (fieldReady s) 0 false :=
    windowWork_inventory (s := fieldReady s) hst hbusy hmate hdone
  have first : talking (fieldReady s) 0 = true :=
    talking_of (s := fieldReady s) (o := 0) hwin hfield rfl hfull hant
  have second : talking (query (fieldReady s) 0 false) 1 = false := by
    refine talking_window ?_
    rw [query, sendTag_window]
    exact fun h => absurd (hwin.symm.trans h) (by decide)
  rw [execFieldSettled_port0 hfield hset first (by rw [work]; exact second), work]

/-! ### Slots -/

/-- CRC_CNT and COLL_CNT (R182, Table 07-6). -/
def replyCounts (s : State) : Nat × Nat := (s.rdr.crc, s.rdr.coll)

theorem sendTag_replyCounts (s : State) (c : TagCmd) : replyCounts (sendTag s c) = replyCounts s :=
  sendTag_keeps (π := fun x => (x.crc, x.coll)) s c fun _ _ _ _ => rfl

theorem query_replyCounts (s : State) (o : Fin 2) (confirming : Bool) :
    replyCounts (query s o confirming) = replyCounts s := sendTag_replyCounts ..

/-- What follows a slot counts no reply. -/
theorem nextSlot_replyCounts (s : State) (o : Fin 2) (sent : Bool) :
    replyCounts (nextSlot s o sent) = replyCounts s := by
  unfold nextSlot
  dsimp only
  split
  · exact query_replyCounts ..
  · split
    · exact query_replyCounts ..
    · split
      · split
        · exact sendTag_replyCounts ..
        · rfl
      · exact query_replyCounts ..

theorem dropSlot_replyCounts (s : State) (o : Fin 2) : replyCounts (dropSlot s o) = replyCounts s :=
  nextSlot_replyCounts ..

/-- A slot's reply taken: counted as it was heard, its time spent, and the freeze notch sent into its gap (R182, R185). -/
def slotTaken (s : State) (o : Fin 2) (h : Heard) : State :=
  let t := spendCycles (countReply s h) (slotReplyCycles + 128)
  { t with rdr := { t.rdr with air := t.rdr.air ++ [.freeze (1524 + 2048 * s.rdr.port[o].inv.sub)] } }

/-- The branch selected, and those left for later (R187). -/
theorem takeBranch_inv (s : State) (o : Fin 2) (b : Branch) (rest : List Branch) :
    (takeBranch s o b rest).rdr.port[o].inv = { s.rdr.port[o].inv with branches := rest, select := some b } := by
  rw [takeBranch, sendTag_portAt, updPort_same]

theorem noteColl_inv (s : State) (o : Fin 2) : (noteColl s o).rdr.port[o].inv
    = { s.rdr.port[o].inv with collisions := s.rdr.port[o].inv.collisions + 1 } := by
  rw [noteColl, updPort_same]

/-- A collision at bit `k` splits the tags into two branches, the one with bit `k` = 0 first (R187). -/
theorem splitAt_noteColl_inv (s : State) (o : Fin 2) (k bits : Nat) :
    (splitAt (noteColl s o) o k bits).rdr.port[o].inv = { s.rdr.port[o].inv with
      collisions := s.rdr.port[o].inv.collisions + 1
      branches := ⟨k + 1, 2 * bits + 1⟩ :: s.rdr.port[o].inv.branches
      select := some ⟨k + 1, 2 * bits⟩ } := by
  rw [splitAt, takeBranch_inv, noteColl_inv]

theorem splitAt_noteColl_replyCounts (s : State) (o : Fin 2) (k bits : Nat) :
    replyCounts (splitAt (noteColl s o) o k bits) = replyCounts s := sendTag_replyCounts ..

/-- What a slot's reply does, once it has been heard and taken (R187). -/
def afterSlotReply (t : State) (o : Fin 2) (r : AirReply) : Heard → State
  | .bits l => nextSlot (haltTag t o (bitsVal l)) o true
  | .crc => dropSlot t o
  | .collision k => splitAt (noteColl t o) o k (bitsVal r.bits)
  | .late => dropSlot (noteColl t o) o

section

variable {s : State} {o : Fin 2} {r : AirReply}

/-- A slot's reply is taken, then acted on as it was heard. -/
theorem execSlotReplyReceived_heard {h : Heard} (hp : invPort s = some o) (hsel : s.rdr.port[o].inv.select = none)
    (hh : hear (1236 + 2048 * s.rdr.port[o].inv.sub) 64 r = h) :
    execSlotReplyReceived r s = .next (afterSlotReply (slotTaken s o h) o r h) := by
  have awaited : ¬s.rdr.port[o].inv.select.isSome = true := by
    rw [hsel]
    exact Bool.false_ne_true
  have gap : 1236 + 2048 * s.rdr.port[o].inv.sub + 288 = 1524 + 2048 * s.rdr.port[o].inv.sub := by omega
  rw [execSlotReplyReceived, hp]
  dsimp only
  rw [if_neg awaited, hh, gap]
  cases h <;> rfl

theorem execSlotReplyReceived_collision {k : Nat} (hp : invPort s = some o) (hsel : s.rdr.port[o].inv.select = none)
    (hh : hear (1236 + 2048 * s.rdr.port[o].inv.sub) 64 r = .collision k) : ∃ t, execSlotReplyReceived r s = .next t
      ∧ t.rdr.coll = satInc 16 s.rdr.coll ∧ t.rdr.port[o].inv.select = some ⟨k + 1, 2 * bitsVal r.bits⟩
      ∧ t.rdr.port[o].inv.branches = ⟨k + 1, 2 * bitsVal r.bits + 1⟩ :: s.rdr.port[o].inv.branches
      ∧ t.rdr.port[o].inv.collisions = s.rdr.port[o].inv.collisions + 1 := by
  refine ⟨_, execSlotReplyReceived_heard hp hsel hh, congrArg Prod.snd (splitAt_noteColl_replyCounts ..), ?_⟩
  rw [afterSlotReply, splitAt_noteColl_inv]
  exact ⟨rfl, rfl, rfl⟩

/-! ### The confirming frame -/

/-- An empty confirming frame completes the inventory, and the reading of the halted tags begins (R188, R193). -/
theorem execSlotEmpty_confirming (hp : invPort s = some o) (hsel : s.rdr.port[o].inv.select = none)
    (hc : s.rdr.port[o].inv.confirming = true) : ∃ t, execSlotEmpty s = .next t ∧ t.rdr.port[o].invDone = true
      ∧ t.rdr.port[o].inv = {} ∧ t.rdr.port[o].found = s.rdr.port[o].inv.halted.map fun id => { id := id } := by
  have awaited : ¬s.rdr.port[o].inv.select.isSome = true := by
    rw [hsel]
    exact Bool.false_ne_true
  have same {α : Type} (π : HandlePort → α) (h : ∀ (p : HandlePort) rd, π { p with rd := rd } = π p) (u : State)
      (f : HandlePort → HandlePort) : π (readNext (updPort u o f) o).rdr.port[o] = π (f u.rdr.port[o]) := by
    rw [readNext_keeps _ o h, updPort_same]
  refine ⟨_, ?_, same HandlePort.invDone (fun _ _ => rfl) (spendCycles s 2048) fun p => { p with
      invDone := true, inv := {}, rd := none, found := s.rdr.port[o].inv.halted.map fun id => { id := id } },
    same HandlePort.inv (fun _ _ => rfl) .., same HandlePort.found (fun _ _ => rfl) ..⟩
  rw [execSlotEmpty, hp]
  exact congrArg Host.Outcome.next ((if_neg awaited).trans (if_pos hc))

/-! ### Branches -/

/-- A branch that one tag answers with its identifier (R187). -/
theorem execSelectReplyReceived_identifier {b : Branch} {l : List Bool} (hp : invPort s = some o)
    (hsel : s.rdr.port[o].inv.select = some b) (hlen : b.len ≠ 64) (hh : hearReply 64 r = .bits l) :
    execSelectReplyReceived r s = .next (nextBranch (haltTag s o (bitsVal l)) o) := by
  rw [execSelectReplyReceived, hp]
  dsimp only
  rw [hsel]
  dsimp only
  rw [if_neg hlen, hh]
  dsimp only
  rw [if_neg hlen]
  exact congrArg Host.Outcome.next (if_neg fun h => hlen h.1)

/-- A complete mask, which the tag answers with its status (R187). -/
theorem execSelectReplyReceived_status {b : Branch} {l : List Bool} (hp : invPort s = some o)
    (hsel : s.rdr.port[o].inv.select = some b) (hlen : b.len = 64) (hh : hearReply 4 r = .bits l)
    (hv : bitsVal l = 0) : execSelectReplyReceived r s = .next (nextBranch (haltTag s o b.mask) o) := by
  rw [execSelectReplyReceived, hp]
  dsimp only
  rw [hsel]
  dsimp only
  rw [if_pos hlen, hh]
  dsimp only
  rw [if_pos hlen]
  exact congrArg Host.Outcome.next (if_neg fun h => h.2 hv)

end

/-! ### Antenna -/

/-- ANT_FAULT of a port set or cleared. -/
def putAntFault (s : State) (p : Fin 3) (b : Bool) : State :=
  { s with rdr := { s.rdr with antFault := s.rdr.antFault.set p b } }

theorem putAntFault_same (s : State) (p : Fin 3) (b : Bool) : (putAntFault s p b).rdr.antFault[p] = b :=
  Vector.getElem_set_self p.isLt

/-- A deviation over 30 % sets the bit and is logged; no outlet in its cable check depends on the port (R178). -/
theorem execAntFaultRuntime_set {s : State} {p : Fin 3} {load : AntLoad} (hbad : currentGood s p load = false)
    (hnew : s.rdr.antFault[p] = false) (hidle : ∀ o : Fin 2, handlePort o = p → s.outlet[o].st ≠ .cableCheck) :
    execAntFaultRuntime p load s = .next (logDetect (putAntFault s p true) 0x0A01 .helm p) := by
  have deviates : (!currentGood s p load) = true := by
    rw [hbad]
    rfl
  unfold execAntFaultRuntime
  extract_lets rdr put logged fails
  have hlogged : logged = logDetect (putAntFault s p true) 0x0A01 .helm p := if_neg (ne_true_of_eq_false hnew)
  have unfailed (o : Fin 2) : fails logged o = logged := by
    have houtlet : logged.outlet = s.outlet := by
      rw [hlogged]
      rfl
    unfold fails
    rw [houtlet]
    exact if_neg fun ⟨hport, hst, _⟩ => hidle o hport hst
  rw [if_pos deviates, unfailed 0, unfailed 1, hlogged]

theorem execAntFaultRuntime_cleared {s : State} {p : Fin 3} {load : AntLoad} (hgood : currentGood s p load = true)
    (hset : s.rdr.antFault[p] = true) (hlo : 250 ≤ load.ohms) (hhi : load.ohms ≤ 1000) :
    ∃ t, execAntFaultRuntime p load s = .next t ∧ t.rdr.antFault[p] = false := by
  have holds : ¬(!currentGood s p load) = true := by
    rw [hgood]
    exact Bool.false_ne_true
  have clears : (s.rdr.antFault[p] && loadGood load) = true := by
    rw [hset]
    exact decide_eq_true ⟨hlo, hhi⟩
  exact ⟨_, congrArg Host.Outcome.next ((if_neg holds).trans (if_pos clears)), putAntFault_same s p false⟩

/-! ### Crew cards -/

theorem execReqaPoll_open {s : State} (h : padOpen s = true) : execReqaPoll s =
    .next { s with rdr := { s.rdr with
      polls := s.rdr.polls + 1, pad := s.rdr.pad ++ (reqa :: if s.rdr.cards.isEmpty then [] else [wupa]) } } :=
  congrArg Host.Outcome.next (if_pos h)

/-- A card presented, its UID, ATQA and SAK kept, after the frames that select and halt it (R194). -/
def cardNoted (s : State) (atqa : Nat) (levels : List CardLevel) (sak : Nat) (uid : Bytes) : State :=
  let t := sendPad s (cardFrames levels)
  { t with rdr := { t.rdr with
    cards := t.rdr.cards ++ [uid], cardUid := uid, cardBcc := levels.map (·.bcc), cardAtqa := atqa, cardSak := sak } }

/-- A card not presented before is filed with its UID, ATQA and SAK, and reported; with no outlet waiting it is bound to
none (R168, R194). -/
theorem execCardSelected_new {s : State} {atqa : Nat} {levels : List CardLevel} {sak : Nat} {uid : Bytes}
    (hpad : padOpen s = true) (huid : cardUidOf levels = some uid) (hnew : s.rdr.cards.contains uid = false)
    (hout : cardOutlet s = none) : ∃ t, execCardSelected atqa levels sak s = .next t
      ∧ t.rdr.cards = s.rdr.cards ++ [uid] ∧ t.rdr.cardUid = uid ∧ t.rdr.cardAtqa = atqa ∧ t.rdr.cardSak = sak
      ∧ t.rdr.pad = s.rdr.pad ++ cardFrames levels := by
  have fresh : ¬s.rdr.cards.contains uid = true := ne_true_of_eq_false hnew
  have reported (u : State) (ev : Bytes) : (emitEvent u 0x81 [0, 1] ev).rdr = u.rdr :=
    (keep_emitEvent u 0x81 [0, 1] ev).same .rdr (by decide)
  obtain ⟨ev, hev⟩ : ∃ ev, execCardSelected atqa levels sak s = .next (logRec
      (emitEvent (cardNoted s atqa levels sak uid) 0x81 [0, 1] ev) (Config.eventCode 409) .helm 0 0x81 ev) := by
    rw [execCardSelected, hpad, huid]
    dsimp -zeta only
    extract_lets sent rdr noted bound ev logged
    have hbound : bound = none := hout
    rw [if_neg fresh, hbound]
    exact ⟨ev, rfl⟩
  refine ⟨_, hev, ?_⟩
  rw [logRec_rdr, reported]
  exact ⟨rfl, rfl, rfl, rfl, rfl⟩

theorem execCardSelected_known {s : State} {atqa : Nat} {levels : List CardLevel} {sak : Nat} {uid : Bytes}
    (hpad : padOpen s = true) (huid : cardUidOf levels = some uid) (hknown : s.rdr.cards.contains uid = true) :
    execCardSelected atqa levels sak s = .next (sendPad s (cardFrames levels)) := by
  rw [execCardSelected, hpad, huid]
  exact congrArg Host.Outcome.next (if_pos hknown)

/-- Settles O14: the reader's cycle and windows, its inventory, the antennas and the crew cards. -/
theorem readerCompletes : Obligations.ReaderCompletes := by
  unfold Obligations.ReaderCompletes
  refine ⟨execReaderCycleStart_effect, fun s => rfl,
    fun s hwork => congrArg Host.Outcome.next (if_pos hwork),
    fun s hwork => congrArg Host.Outcome.next (if_neg (ne_true_of_eq_false hwork)),
    fun s hfield hset hfull hwin hst hant hbusy hmate hdone =>
      ⟨_, execFieldSettled_inventory hfield hset hfull hwin hst hant hbusy hmate hdone, ?_⟩,
    fun s o r l hp hsel hh => ⟨_, execSlotReplyReceived_heard hp hsel hh, rfl, rfl⟩,
    fun s o r k hp hsel hh => execSlotReplyReceived_collision hp hsel hh,
    fun s o r hp hsel hh => ⟨_, execSlotReplyReceived_heard hp hsel hh, congrArg Prod.fst (dropSlot_replyCounts ..),
      congrArg Prod.snd (dropSlot_replyCounts ..)⟩,
    fun s o r hp hsel hh => ⟨_, execSlotReplyReceived_heard hp hsel hh, congrArg Prod.snd (dropSlot_replyCounts ..),
      congrArg Prod.fst (dropSlot_replyCounts ..)⟩,
    fun s o hp hsel hc => execSlotEmpty_confirming hp hsel hc,
    fun s o b r l hp hsel hlen hh => execSelectReplyReceived_identifier hp hsel hlen hh,
    fun s o b r l hp hsel hlen hh hv => execSelectReplyReceived_status hp hsel hlen hh hv,
    fun s p load hbad hnew hidle => ⟨_, execAntFaultRuntime_set hbad hnew hidle, putAntFault_same s p true, rfl⟩,
    fun s p load hgood hset hlo hhi => execAntFaultRuntime_cleared hgood hset hlo hhi,
    fun s hpad hnone => ?_, fun s hpad hsome => ?_,
    fun s atqa levels sak uid hpad huid hnew hout => execCardSelected_new hpad huid hnew hout,
    fun s atqa levels sak uid hpad huid hknown => execCardSelected_known hpad huid hknown,
    fun s uid => rfl⟩
  · obtain ⟨hactive, hq⟩ := query_port (fieldReady s) 0 false
    exact ⟨sendTag_settled .., hactive, hq⟩
  · rw [exec_reqaPoll, execReqaPoll_open hpad, hnone]
    rfl
  · rw [exec_reqaPoll, execReqaPoll_open hpad, if_neg (by rwa [List.isEmpty_iff])]

end Sys2Proof.Machine
end

section
/-!
SUPPORT. Modulator supervision and rotation: one modulator and one rotation after an update, what a retirement leaves
retired, and an equation or an effect for each case of a command (R208 to R213; O18).
-/
namespace Sys2Proof.Machine

/-! ### One modulator and one rotation after an update -/

theorem updMod_get (s : State) (m : Fin 20) (f : Modulator → Modulator) :
    (updMod s m f).mer.fe.mod[m] = f s.mer.fe.mod[m] := upd_same ..

theorem updMod_get_other (s : State) {m n : Fin 20} (f : Modulator → Modulator) (h : m ≠ n) :
    (updMod s m f).mer.fe.mod[n] = s.mer.fe.mod[n] := upd_other _ _ _ _ h

@[simp] theorem rotation_updRot (s : State) (v : Bool) (f : Rotation → Rotation) :
    rotation (updRot s v f) v = f (rotation s v) := by
  cases v <;> rfl

@[simp] theorem updRot_mod (s : State) (v : Bool) (f : Rotation → Rotation) :
    (updRot s v f).mer.fe.mod = s.mer.fe.mod := by
  cases v <;> rfl

/-! ### A modulator retired -/

/-- The modulator is retired. -/
def Retired (m : Fin 20) (s : State) : Prop := (s.mer.fe.mod[m]).st = .retired

theorem Retired.of_mod {m : Fin 20} {s t : State} (r : Retired m s) (h : t.mer.fe.mod = s.mer.fe.mod) :
    Retired m t := by
  rw [Retired, h]
  exact r

theorem Retired.updMod_other {m n : Fin 20} {s : State} {f : Modulator → Modulator} (r : Retired m s) (h : n ≠ m) :
    Retired m (updMod s n f) := by
  rw [Retired, updMod_get_other _ _ h]
  exact r

theorem logMasked_mod (s : State) (code : Nat) (src : LogSrc) (arg : Nat) :
    (logMasked s code src arg).mer.fe.mod = s.mer.fe.mod := rfl

theorem secondFault_mod (s : State) (m : Fin 20) : (secondFault s m).mer.fe.mod = s.mer.fe.mod := by
  unfold secondFault
  split <;> rfl

theorem markSubstituted_mod (s : State) (k : Fin 12) : (markSubstituted s k).mer.fe.mod = s.mer.fe.mod := by
  unfold markSubstituted
  split <;> rfl

/-- Neither the modulator that a retirement displaces nor the spare that stands in is the one retired, so that it stays
so (R209, R210). -/
theorem retireMod_retired (s : State) (m : Fin 20) : Retired m (retireMod s m) := by
  unfold retireMod
  extract_lets v sp spare rot stop displaced served spareGone spareNoted gone noted replaced stopped marked
  have stops (t : State) : (stop t).mer.fe.mod = t.mer.fe.mod := updRot_mod ..
  have displaces {t : State} (r : Retired m t) : Retired m (displaced t) := by
    unfold displaced
    split
    case isTrue calibrating =>
      obtain ⟨-, -, hst⟩ := calibrating
      refine r.updMod_other (ne_of_apply_ne (fun n => (t.mer.fe.mod[n]).st) ?_)
      rw [hst, r]
      decide
    case isFalse => exact r
  split
  case isTrue already => exact already
  split
  case isTrue isSpare =>
    have goes : Retired sp spareGone := congrArg Modulator.st (updMod_get ..)
    have retired : Retired m spareNoted := by
      rw [isSpare]
      exact goes.of_mod (stops spareGone)
    clear_value served
    cases served with
    | some n => exact retired.of_mod (secondFault_mod ..)
    | none => exact retired.of_mod (logMasked_mod ..)
  case isFalse notSpare =>
    have retired : Retired m noted := congrArg Modulator.st (updMod_get ..)
    have stays : Retired m stopped := ((displaces retired).updMod_other (Ne.symm notSpare)).of_mod (stops replaced)
    split
    · exact retired.of_mod (secondFault_mod ..)
    · refine Retired.of_mod ?_ (logMasked_mod ..)
      unfold marked
      split
      · split
        · exact stays
        · exact stays.of_mod (markSubstituted_mod ..)
      · exact stays

/-! ### Stream and pilot -/

/-- The state after a pilot window has been measured, with the number of bad windows in a row (R208). -/
def pilotJudged (s : State) (m : Fin 20) (bad : Nat) : State :=
  updMod s m fun x =>
    { x with pilotDev := satTo 16 (pilotDeviation s s.mer.fe.mod[m]), badWindows := bad, re := 0, im := 0, len := 0 }

section

variable {s : State} {m : Fin 20}

theorem execPilotWindow_measured {n : Nat} (hu : s.mer.up = true) (hb : suspended s 6 = false)
    (hl : (s.mer.fe.mod[m]).len ≠ 0) (hn : (if decide (500 < (pilotDeviation s s.mer.fe.mod[m]).natAbs) = true then
      (s.mer.fe.mod[m]).badWindows + 1 else 0) = n) :
    execPilotWindow m s = .next (if 2 ≤ n then retireMod (pilotJudged s m n) m else pilotJudged s m n) := by
  subst hn
  have counted (n : Nat) : ((pilotJudged s m n).mer.fe.mod[m]).badWindows = n :=
    congrArg Modulator.badWindows (updMod_get ..)
  refine (congrArg Host.Outcome.next (if_pos ⟨hu, hb, hl⟩)).trans ?_
  change Host.Outcome.next (if 2 ≤ ((pilotJudged s m _).mer.fe.mod[m]).badWindows then _ else _) = _
  rw [counted]
  rfl

theorem execPilotWindow_within (hu : s.mer.up = true) (hb : suspended s 6 = false) (hl : (s.mer.fe.mod[m]).len ≠ 0)
    (hd : (pilotDeviation s s.mer.fe.mod[m]).natAbs ≤ 500) : execPilotWindow m s = .next (pilotJudged s m 0) := by
  have good : ¬decide (500 < (pilotDeviation s s.mer.fe.mod[m]).natAbs) = true :=
    ne_true_of_eq_false (decide_eq_false (Nat.not_lt.mpr hd))
  rw [execPilotWindow_measured hu hb hl (if_neg good), if_neg (by decide)]

/-- The second of two windows in a row with too great a deviation is a gain fault (R208). -/
theorem execPilotWindow_second (hu : s.mer.up = true) (hb : suspended s 6 = false) (hl : (s.mer.fe.mod[m]).len ≠ 0)
    (hd : 500 < (pilotDeviation s s.mer.fe.mod[m]).natAbs) (hw : 1 ≤ (s.mer.fe.mod[m]).badWindows) :
    execPilotWindow m s = .next (retireMod (pilotJudged s m ((s.mer.fe.mod[m]).badWindows + 1)) m) := by
  rw [execPilotWindow_measured hu hb hl (if_pos (decide_eq_true hd)), if_pos (Nat.succ_le_succ hw)]

end

/-! ### The rotation's steps -/

section

variable {s : State} {v : Bool} {short plus minus gain ofs : Int}

theorem rotation_due {n : Nat} (hu : s.mer.up = true) (hp : (rotation s v).phase = n) :
    (s.mer.up && (rotation s v).phase == n) = true := by
  rw [hu, hp]
  exact beq_self_eq_true n

/-- A step puts the spare in parallel to the next modulator of the ring (R212). -/
theorem execRotationStepStart_next {x : Fin 20} (hx : nextInRing s v = some x) (hu : s.mer.up = true)
    (hb : suspended s 4 = false) (hstop : (rotation s v).stopped = false) (hused : (rotation s v).spareUsed = false)
    (hp : (rotation s v).phase = 0) (hst : (s.mer.fe.mod[spareMod v]).st = .spareFree) :
    execRotationStepStart v s =
      .next (updRot (updMod s (spareMod v) fun m => { m with st := .standingIn, serves := x.val }) v fun q =>
        { q with
          pos := x.val, phase := 1, begun := true, again := q.again && q.pos == x.val, sumX := 0, sumSp := 0
          len := 0 }) := by
  simp only [execRotationStepStart, hx, hu, hb, hstop, hused, hp, hst]
  rfl

/-- A comparison that passes, or that failed in the step before, lets the spare take the place over (R212). -/
theorem execRotationSwap_taken (hu : s.mer.up = true) (hp : (rotation s v).phase = 1)
    (hc : comparisonFails (rotation s v) = false ∨ (rotation s v).again = true) : execRotationSwap v s =
      .next (updRot (updMod s (Fin.ofNat 20 (rotation s v).pos) fun m => { m with st := .calibrating }) v fun q =>
        { q with phase := 2, again := false }) := by
  have taken : ¬(comparisonFails (rotation s v) = true ∧ (rotation s v).again = false) := by
    rintro ⟨fails, first⟩
    simp [fails, first] at hc
  exact congrArg Host.Outcome.next ((if_pos (rotation_due hu hp)).trans (if_neg taken))

/-- After a first failure of the comparison the spare is calibrated and the step is made again (R212). -/
theorem execRotationSwap_repeated (hu : s.mer.up = true) (hp : (rotation s v).phase = 1)
    (hc : comparisonFails (rotation s v) = true) (hfirst : (rotation s v).again = false) : execRotationSwap v s =
      .next (updRot (updMod s (spareMod v) fun m => { m with st := .calibrating, serves := 31 }) v fun q =>
        { q with phase := 4, again := true }) :=
  congrArg Host.Outcome.next ((if_pos (rotation_due hu hp)).trans (if_pos ⟨hc, hfirst⟩))

theorem execRotationCalibrationDone_passed {x : Fin 20} (hu : s.mer.up = true) (hp : (rotation s v).phase = 2)
    (hx : x = Fin.ofNat 20 (rotation s v).pos) (ht : newTrims short plus minus = some (gain, ofs))
    (hc : calibrationFails s.mer.fe.mod[x] gain ofs = false) : execRotationCalibrationDone v short plus minus s =
      .next (updRot (takeTrims s x gain ofs) v fun q => { q with phase := 3, sumX := 0, sumSp := 0, len := 0 }) := by
  subst hx
  unfold execRotationCalibrationDone
  rw [if_pos (rotation_due hu hp), ht]
  exact congrArg Host.Outcome.next (if_neg (ne_true_of_eq_false hc))

theorem execRotationSwapBack_due (hu : s.mer.up = true) (hp : (rotation s v).phase = 3) : execRotationSwapBack v s =
    .next (updRot (updMod (updMod s (Fin.ofNat 20 (rotation s v).pos) fun m => { m with st := .inService }) (spareMod v)
      fun m => { m with st := .calibrating, serves := 31 }) v fun q => { q with phase := 4 }) :=
  congrArg Host.Outcome.next (if_pos (rotation_due hu hp))

theorem execSpareCalibrationDone_passed (hu : s.mer.up = true) (hp : (rotation s v).phase = 4)
    (ht : newTrims short plus minus = some (gain, ofs))
    (hc : calibrationFails s.mer.fe.mod[spareMod v] gain ofs = false) : execSpareCalibrationDone v short plus minus s =
      .next (updRot (updMod (takeTrims s (spareMod v) gain ofs) (spareMod v) fun m => { m with st := .spareFree }) v
        fun q => { q with phase := 0 }) := by
  unfold execSpareCalibrationDone
  rw [if_pos (rotation_due hu hp), ht]
  exact congrArg Host.Outcome.next (if_neg (ne_true_of_eq_false hc))

end

theorem takeTrims_get (s : State) (m : Fin 20) (gain ofs : Int) : (takeTrims s m gain ofs).mer.fe.mod[m] =
    { s.mer.fe.mod[m] with
      gain := gain, ofs := ofs, calTime := s.now, calibrated := true, oldGain := (s.mer.fe.mod[m]).gain
      oldOfs := (s.mer.fe.mod[m]).ofs, oldTime := (s.mer.fe.mod[m]).calTime } := updMod_get ..

/-! ### The reference -/

theorem background_due {s : State} {row : Nat} (hu : s.mer.up = true) (hb : suspended s row = false) :
    (s.mer.up && !suspended s row) = true := by
  rw [hu, hb]
  rfl

/-- The references drift apart where they differ by more than 200 ppm (R213). -/
theorem execReferenceComparison_drift {s : State} (ppm : Int) (hu : s.mer.up = true) (hb : suspended s 5 = false) :
    ∃ t, execReferenceComparison ppm s = .next t
      ∧ t.mer.fe.refDrift = decide (200 < ppm.natAbs) ∧ t.mer.fe.refDiff = satTo 16 ppm := by
  rw [execReferenceComparison, if_pos (background_due hu hb)]
  refine ⟨_, rfl, ?_⟩
  by_cases h : 200 < ppm.natAbs
  · rw [if_pos h, decide_eq_true h]
    split <;> exact ⟨rfl, rfl⟩
  · rw [if_neg h, decide_eq_false h]
    split <;> exact ⟨rfl, rfl⟩

/-- Settles O18: clause by clause, from what each command does in the case that the clause names. -/
theorem rotationCompletes : Obligations.RotationCompletes := by
  unfold Obligations.RotationCompletes
  refine ⟨fun s m hu _ => ⟨_, congrArg Host.Outcome.next (if_pos hu), retireMod_retired s m⟩,
    fun s m hu hb hl hd => execPilotWindow_within hu hb hl hd,
    fun s m hu hb hl hd hw => ⟨_, execPilotWindow_second hu hb hl hd hw, retireMod_retired ..⟩,
    fun s k => rfl,
    fun s v x hx hu hb hstop hused hp hst => ⟨_, execRotationStepStart_next hx hu hb hstop hused hp hst, ?_⟩,
    fun s v hu hp hc => ⟨_, execRotationSwap_taken hu hp hc, ?_⟩,
    fun s v hu hp hc hfirst => ⟨_, execRotationSwap_repeated hu hp hc hfirst, ?_⟩,
    fun s v x short plus minus gain ofs hu hp hx ht hc =>
      ⟨_, execRotationCalibrationDone_passed hu hp hx ht hc, ?_⟩,
    fun s v hu hp => ⟨_, execRotationSwapBack_due hu hp, ?_⟩,
    fun s v short plus minus gain ofs hu hp ht hc => ⟨_, execSpareCalibrationDone_passed hu hp ht hc, ?_⟩,
    fun s ppm hu hb h => ?_, fun s ppm hu hb h => ?_⟩
  · rw [rotation_updRot, updRot_mod, updMod_get]
    exact ⟨rfl, rfl, rfl, rfl⟩
  · rw [rotation_updRot, updRot_mod, updMod_get]
    exact ⟨rfl, rfl⟩
  · rw [rotation_updRot, updRot_mod, updMod_get]
    exact ⟨rfl, rfl, rfl⟩
  · rw [rotation_updRot, updRot_mod, takeTrims_get]
    exact ⟨rfl, rfl, rfl, rfl⟩
  · rw [rotation_updRot, updRot_mod, updMod_get]
    exact ⟨rfl, rfl⟩
  · rw [rotation_updRot, updRot_mod, updMod_get, takeTrims_get]
    exact ⟨rfl, rfl, rfl⟩
  · obtain ⟨t, ht, hdrift, hdiff⟩ := execReferenceComparison_drift ppm hu hb
    exact ⟨t, ht, hdrift.trans (decide_eq_false (Nat.not_lt.mpr h)), hdiff⟩
  · obtain ⟨t, ht, hdrift, hdiff⟩ := execReferenceComparison_drift ppm hu hb
    exact ⟨t, ht, hdrift.trans (decide_eq_true h), hdiff⟩

end Sys2Proof.Machine
end

section
/-!
SUPPORT. The measuring front end and its energies: families updated member by member, and an equation or an effect for
each case of a command (R199 to R207, R214, R221 to R232; O17).
-/
namespace Sys2Proof.Machine

/-! ### Families updated member by member -/

section

variable {α : Type} {n : Nat}

theorem upd_congr {f g : α → α} {v : Vector α n} {i : Fin n} (h : f v[i] = g v[i]) : upd v i f = upd v i g :=
  congrArg (v.set i) h

theorem upd_id {f : α → α} {v : Vector α n} {i : Fin n} (h : f v[i] = v[i]) : upd v i f = v :=
  (congrArg (v.set i) h).trans (Vector.set_getElem_self i.isLt)

theorem upd_upd (f g : α → α) (v : Vector α n) (i : Fin n) : upd (upd v i f) i g = upd v i fun x => g (f x) := by
  unfold upd
  simp

/-- Of steps that update one member each, none twice, every member named is updated and no other. -/
theorem foldl_upd {π : State → Vector α n} {f : State → Fin n → State} {g : Fin n → α → α}
    (h : ∀ u k, π (f u k) = upd (π u) k (g k)) {l : List (Fin n)} (hl : l.Nodup) (s : State) (j : Fin n) :
    (π (l.foldl f s))[j] = if j ∈ l then g j (π s)[j] else (π s)[j] := by
  induction l generalizing s with
  | nil => rfl
  | cons k l ih =>
    obtain ⟨hk, hl⟩ := List.nodup_cons.mp hl
    rw [List.foldl_cons, ih hl, h]
    by_cases e : k = j
    · subst e
      rw [if_neg hk, if_pos List.mem_cons_self, upd_same]
    · simp only [upd_other _ _ _ _ e, List.mem_cons, Ne.symm e, false_or]

/-- Steps that update one member each, over the whole family, update every member once. -/
theorem foldl_finRange_upd {π : State → Vector α n} {f : State → Fin n → State} {g : Fin n → α → α}
    (h : ∀ u k, π (f u k) = upd (π u) k (g k)) (s : State) (j : Fin n) :
    (π ((List.finRange n).foldl f s))[j] = g j (π s)[j] :=
  (foldl_upd h (List.nodup_finRange n) s j).trans (if_pos (List.mem_finRange j))

end

theorem updMch_get (s : State) (k : Fin 12) (f : MChannel → MChannel) :
    (updMch s k f).mer.fe.ch[k] = f s.mer.fe.ch[k] := upd_same ..

/-! ### A metering sample -/

/-- On the rung Underway no channel and no modulator is paused (R471). -/
theorem paused_underway {s : State} (h : s.pwr.rung = .underway) (k : Fin 12) : paused s k = false := by
  rw [paused, h]

theorem modPaused_underway {s : State} (h : s.pwr.rung = .underway) (m : Fin 20) : modPaused s m = false := by
  unfold modPaused
  split
  · exact paused_underway h _
  · rw [h]
    rfl

/-- A sample on the rung Underway: every channel takes its next value from the outputs of its modulators, before any
energy is counted (R199, R221). -/
theorem execMeterSample_underway {s : State} {bits : List (List Bool)} {raw : Vector (List Int) 20} (ovl : BitVec 20)
    (hu : s.mer.up = true) (hr : s.pwr.rung = .underway)
    (hraw : raw = Vector.ofFn (fun m : Fin 20 => (sincFour (s.mer.fe.mod[m]).bits (bits.getD m.val [])).2)) :
    ∃ u, execMeterSample bits ovl s = .next (meterAc (meterOutlet (meterOutlet u 0) 1))
      ∧ (∀ k : Fin 12, u.mer.fe.ch[k] = sampleChannel s raw ovl k)
      ∧ u.mer.leg = s.mer.leg ∧ u.mer.regs = s.mer.regs := by
  have running (k : Fin 12) : ¬paused s k = true := ne_true_of_eq_false (paused_underway hr k)
  unfold execMeterSample
  rw [if_pos hu]
  extract_lets four heard chans mods meridian frontEnd sampled halved counted
  have hheard : heard = raw := by
    ext1 m hm
    simp [heard, four, hraw, modPaused_underway hr]
  have hhalved : halved = sampleHalves sampled := if_neg (running 4)
  have hcounted : counted = meterOutlet (meterOutlet halved 0) 1 := if_neg (running 0)
  refine ⟨sampleHalves sampled, ?_, fun k => ?_, rfl, rfl⟩
  · rw [if_neg (running 7), hcounted, hhalved]
  · have sample : chans[k] = if paused s k then s.mer.fe.ch[k] else sampleChannel s heard ovl k :=
      Vector.getElem_ofFn k.isLt
    exact sample.trans ((if_neg (running k)).trans (by rw [hheard]))

/-! ### Pulses and power -/

/-- The first pulse of an output that has one due starts at once, counted off the backlog (R232). -/
theorem execPulseStart_first {s : State} {o : Fin 2} (us : Nat) (hu : s.mer.up = true)
    (hb : (s.mer.leg.pulse[o]).backlog ≠ 0) (ha : (s.mer.leg.pulse[o]).active = false)
    (hl : (s.mer.leg.pulse[o]).lastStart = none) (hs : merN s (0x500 + o.val) 0x000 31 30 ≠ 3) :
    ∃ t, execPulseStart o us s = .next t
      ∧ (t.mer.leg.pulse[o]).lastStart = some (s.mono * 1000 + us % 1000)
      ∧ (t.mer.leg.pulse[o]).active = true ∧ (t.mer.leg.pulse[o]).backlog = (s.mer.leg.pulse[o]).backlog - 1
      ∧ (t.mer.leg.pulse[o]).width = pulseWidth (merN s (0x500 + o.val) 0x004 16 0)
        (merN s (0x500 + o.val) 0x000 23 16) (s.mer.leg.pulse[o]).recent.sum := by
  unfold execPulseStart
  extract_lets start p k w early
  have due : (s.mer.up && decide (p.backlog ≠ 0) && decide (merN s (0x500 + o.val) 0x000 31 30 ≠ 3)) = true := by
    rw [hu, decide_eq_true hb, decide_eq_true hs]
    rfl
  have inTime : ¬early = true := by
    simp only [early, p, ha, hl]
    exact Bool.false_ne_true
  rw [if_pos due, if_neg inTime]
  refine ⟨_, rfl, ?_⟩
  rw [updLeg_mer_leg, upd_same]
  exact ⟨rfl, rfl, rfl, rfl⟩

/-- The peaks of the records that follow the power leave it as it is (R229). -/
theorem execPNowRefresh_up {s : State} (hu : s.mer.up = true) : ∃ t, execPNowRefresh s = .next t
    ∧ ∀ o : Fin 2, t.mer.pNow[o] = roundDiv s.mer.powers[o].sum (16000 * powerDen) :=
  ⟨_, congrArg Host.Outcome.next (if_pos hu), fun o => Vector.getElem_ofFn o.isLt⟩

/-! ### FIR supervision -/

/-- What the failure of its FIR path does to a channel (R207). -/
def fallBack (c : MChannel) : MChannel := if c.fallback then c else { c with fallback := true, rmsPasses := 0 }

theorem fallBack_fallback (c : MChannel) : (fallBack c).fallback = true := by
  unfold fallBack
  split
  · assumption
  · rfl

/-- Falling back leaves the window and the failures counted. -/
theorem fallBack_window (c : MChannel) : (fallBack c).winLen = c.winLen ∧ (fallBack c).rmsFails = c.rmsFails
    ∧ (c.rmsPasses = 0 → (fallBack c).rmsPasses = 0) := by
  unfold fallBack
  split
  · exact ⟨rfl, rfl, id⟩
  · exact ⟨rfl, rfl, fun _ => rfl⟩

theorem firFail_ch (s : State) (k : Fin 12) : (firFail s k).mer.fe.ch = upd s.mer.fe.ch k fallBack := by
  unfold firFail
  split
  case isTrue h => exact (upd_id (f := fallBack) (if_pos h)).symm
  case isFalse h =>
    exact upd_congr (f := fun c => { c with fallback := true, rmsPasses := 0 }) (g := fallBack) (if_neg h).symm

/-- What the CRC over its taps, found good or not, does to a channel (R203, R207). -/
def tapsChecked (good : Bool) (c : MChannel) : MChannel :=
  if good then { c with tapsBad := !good } else fallBack { c with tapsBad := !good }

theorem tapsChecked_tapsBad (good : Bool) (c : MChannel) : (tapsChecked good c).tapsBad = !good := by
  unfold tapsChecked fallBack
  split
  · rfl
  · split <;> rfl

/-- A channel that had not fallen back does so exactly if its taps are bad. -/
theorem tapsChecked_fallback (good : Bool) {c : MChannel} (h : c.fallback = false) :
    (tapsChecked good c).fallback = (tapsChecked good c).tapsBad := by
  rw [tapsChecked_tapsBad]
  cases good with
  | true => exact h
  | false => exact fallBack_fallback _

/-- The CRC check passes over the channels, one after another (R203, R207). -/
theorem execFirCrcCheck_ch {s : State} (upsets : List (Nat × Nat)) (hu : s.mer.up = true)
    (hb : suspended s 7 = false) : ∃ t, execFirCrcCheck upsets s = .next t ∧ ∀ j : Fin 12, t.mer.fe.ch[j] =
      tapsChecked (tapsCrc (channelTaps (engineWords s upsets) j) == s.mer.fe.tapCrc[j]) s.mer.fe.ch[j] := by
  refine ⟨_, congrArg Host.Outcome.next (if_pos (background_due hu hb)), foldl_finRange_upd
    (π := fun u => u.mer.fe.ch)
    (g := fun k => tapsChecked (tapsCrc (channelTaps (engineWords s upsets) k) == s.mer.fe.tapCrc[k]))
    (fun u k => ?_) s⟩
  dsimp only
  generalize (tapsCrc (channelTaps (engineWords s upsets) k) == s.mer.fe.tapCrc[k]) = good
  cases good with
  | true => rfl
  | false => exact (firFail_ch ..).trans (upd_upd ..)

/-- The RMS values of both outputs of a channel over its window differ too much (R207). -/
def windowDiffers (c : MChannel) : Bool := rmsDiffer (Nat.sqrt (c.firSum / c.winLen)) (Nat.sqrt (c.fbSum / c.winLen))

/-- A channel after a window that fails. -/
def windowFailed (c : MChannel) : MChannel := newWindow { c with rmsFails := c.rmsFails + 1, rmsPasses := 0 }

/-- A channel after a window that passes. -/
def windowPassed (c : MChannel) : MChannel := newWindow { c with rmsFails := 0, rmsPasses := c.rmsPasses + 1 }

/-- What the end of a window does to a channel (R207). -/
def windowJudged (c : MChannel) : MChannel :=
  if c.winLen = 0 then c
  else if windowDiffers c then (if 3 ≤ c.rmsFails + 1 then fallBack (windowFailed c) else windowFailed c)
  else windowPassed c

section

variable {c : MChannel}

theorem windowJudged_empty (h : c.winLen = 0) : windowJudged c = c := if_pos h

theorem windowJudged_passed (h : c.winLen ≠ 0) (hd : windowDiffers c = false) : windowJudged c = windowPassed c :=
  (if_neg h).trans (if_neg (ne_true_of_eq_false hd))

theorem windowJudged_failed (h : c.winLen ≠ 0) (hd : windowDiffers c = true) :
    windowJudged c = if 3 ≤ c.rmsFails + 1 then fallBack (windowFailed c) else windowFailed c :=
  (if_neg h).trans (if_pos hd)

/-- The third window in a row that fails makes the channel fall back (R207). -/
theorem windowJudged_failed_effect (h : c.winLen ≠ 0) (hd : windowDiffers c = true) : (windowJudged c).winLen = 0
    ∧ (windowJudged c).rmsFails = c.rmsFails + 1 ∧ (windowJudged c).rmsPasses = 0
    ∧ (2 ≤ c.rmsFails → (windowJudged c).fallback = true) := by
  rw [windowJudged_failed h hd]
  split
  case isTrue third =>
    obtain ⟨hlen, hfails, hpasses⟩ := fallBack_window (windowFailed c)
    exact ⟨hlen, hfails, hpasses rfl, fun _ => fallBack_fallback _⟩
  case isFalse few => exact ⟨rfl, rfl, rfl, fun h => absurd (Nat.succ_le_succ h) few⟩

end

/-- The judgement passes over the channels, one after another (R207). -/
theorem execFirRmsWindow_ch {s : State} (hu : s.mer.up = true) :
    ∃ t, execFirRmsWindow s = .next t ∧ ∀ j : Fin 12, t.mer.fe.ch[j] = windowJudged s.mer.fe.ch[j] := by
  refine ⟨_, congrArg Host.Outcome.next (if_pos hu), foldl_finRange_upd (π := fun u => u.mer.fe.ch)
    (g := fun _ => windowJudged) (fun u k => ?_) s⟩
  extract_lets c failed
  have fails : (failed.mer.fe.ch[k]).rmsFails = c.rmsFails + 1 := congrArg MChannel.rmsFails (updMch_get ..)
  rw [fails]
  split
  case isTrue empty => exact (upd_id (windowJudged_empty empty)).symm
  case isFalse sampled =>
  split
  case isTrue differs =>
    have judged := windowJudged_failed sampled differs
    split
    case isTrue third =>
      exact (firFail_ch ..).trans ((upd_upd ..).trans (upd_congr (judged.trans (if_pos third)).symm))
    case isFalse few => exact upd_congr (judged.trans (if_neg few)).symm
  case isFalse agrees => exact upd_congr (windowJudged_passed sampled (Bool.eq_false_of_not_eq_true agrees)).symm

/-- Windows that have passed for 10 s restore a channel whose taps are good (R207). -/
theorem execFirRestored_passed {s : State} {k : Fin 12} (hf : (s.mer.fe.ch[k]).fallback = true)
    (ht : (s.mer.fe.ch[k]).tapsBad = false) (hp : 100 ≤ (s.mer.fe.ch[k]).rmsPasses) :
    ∃ t, execFirRestored k s = .next t ∧ t.mer.fe.ch[k].fallback = false :=
  ⟨_, congrArg Host.Outcome.next (if_pos ⟨hf, ht, hp⟩), congrArg MChannel.fallback (updMch_get ..)⟩

/-! ### DC-block freeze -/

theorem execDcFreezeRelease_event {s : State} {k : Fin 12} (hf : (s.mer.fe.ch[k]).freezeEvent = true)
    (ho : eventOpen s (channelPhase k) = false) :
    execDcFreezeRelease k .event s = .next (updMch s k fun x => { x with freezeEvent := false }) := by
  refine congrArg Host.Outcome.next (if_pos ?_)
  rw [hf, ho]
  rfl

/-- A freeze of 10 s ends, whatever its cause, and is logged (R204). -/
theorem execDcFreezeRelease_long {s : State} {k : Fin 12}
    (hf : ((s.mer.fe.ch[k]).freezeEvent || (s.mer.fe.ch[k]).freezeHelm) = true) :
    ∃ t, execDcFreezeRelease k .long s = .next t ∧ t.mer.fe.ch[k].freezeEvent = false
      ∧ t.mer.fe.ch[k].freezeHelm = false ∧ t.log.nextNo = s.log.nextNo + 1 :=
  ⟨_, congrArg Host.Outcome.next (if_pos hf), congrArg MChannel.freezeEvent (updMch_get ..),
    congrArg MChannel.freezeHelm (updMch_get ..), rfl⟩

/-! ### RTD inputs -/

/-- The events and records of a change of RSTAT are no part of the input (R214). -/
theorem execRtdSample_rstat {s : State} {r : Fin 4} (mOhm : Nat) (hu : s.mer.up = true)
    (he : merN s (0x200 + r.val) 0x000 31 31 = 1) : ∃ t, execRtdSample r mOhm s = .next t
      ∧ t.mer.fe.rtd[r].rstat = (rtdJudge (merN s (0x200 + r.val) 0x000 30 30 == 1) mOhm).1 := by
  have due : (s.mer.up && merN s (0x200 + r.val) 0x000 31 31 == 1) = true := by
    rw [hu, he]
    rfl
  unfold execRtdSample
  rw [if_pos due]
  extract_lets judged old meridian frontEnd stored outlet storedMeridian marked
  have hstored : (stored.mer.fe.rtd[r]).rstat = judged.1 := congrArg Rtd.rstat (Vector.getElem_set_self r.isLt)
  have hmarked : marked.mer.fe = stored.mer.fe := by
    unfold marked
    split <;> rfl
  refine ⟨_, rfl, Eq.trans (congrArg (fun fe : FrontEnd => (fe.rtd[r]).rstat) (Eq.trans ?_ hmarked)) hstored⟩
  split
  · rfl
  · split <;> rfl

/-- Settles O17: clause by clause, from what each command does in the case that the clause names. -/
theorem meterCompletes : Obligations.MeterCompletes := by
  unfold Obligations.MeterCompletes
  refine ⟨fun s bits raw ovl hu hr hraw => execMeterSample_underway ovl hu hr hraw,
    fun s o us hu hb ha hl hs => execPulseStart_first us hu hb ha hl hs, fun s o => rfl,
    fun s hu => execPNowRefresh_up hu, fun s upsets hu hb hf => ?_, fun s hu => ?_,
    fun s k hf ht hp => execFirRestored_passed hf ht hp,
    fun s k on hk => congrArg Host.Outcome.next (if_pos hk),
    fun s k hf ho => execDcFreezeRelease_event hf ho, fun s k => rfl,
    fun s k hf => execDcFreezeRelease_long hf,
    fun s r mOhm hu he => execRtdSample_rstat mOhm hu he⟩
  · obtain ⟨t, ht, hch⟩ := execFirCrcCheck_ch upsets hu hb
    refine ⟨t, ht, fun j => ?_⟩
    rw [hch j]
    exact ⟨tapsChecked_tapsBad .., tapsChecked_fallback _ (hf j)⟩
  · obtain ⟨t, ht, hch⟩ := execFirRmsWindow_ch hu
    refine ⟨t, ht, fun j => ?_⟩
    rw [hch j]
    refine ⟨windowJudged_empty, fun sampled => ?_⟩
    cases hd : windowDiffers s.mer.fe.ch[j] with
    | true =>
      obtain ⟨hlen, effect⟩ := windowJudged_failed_effect sampled hd
      exact ⟨hlen, fun agrees => absurd (hd.symm.trans agrees) (by decide), fun _ => effect⟩
    | false =>
      rw [windowJudged_passed sampled hd]
      exact ⟨rfl, fun _ => ⟨rfl, rfl⟩, fun differs => absurd (hd.symm.trans differs) (by decide)⟩

end Sys2Proof.Machine
end

section
/-!
SUPPORT. The display controller: what an idle frame boundary leaves, the legal pair's way from Meridian to the panel, the
faults and their ends, and the panel's power sequences (R276 to R293; O16).
-/
namespace Sys2Proof.Machine

/-! ### A fault raised or ended -/

/-- The sessions marked and the pilots set on a change of the faults are no part of the display (R291). -/
theorem dispNews_disp (s : State) : (dispNews s).disp = s.disp := (keep_dispNews s).same .disp (by decide)

/-- A fault that already stands is not raised again (R290). -/
theorem raiseDisp_disp (s : State) (had : Bool) (code : Nat) (f : Display → Display) :
    (raiseDisp s had code f).disp = if had then s.disp else f s.disp := by
  unfold raiseDisp
  split
  · rfl
  · exact (dispNews_disp _).trans ((keep_logDetect ..).same .disp (by decide))

/-- A fault that does not stand is not ended (R290). -/
theorem endDisp_disp (s : State) (had : Bool) (code : Nat) (f : Display → Display) :
    (endDisp s had code f).disp = if had then f s.disp else s.disp := by
  unfold endDisp
  split
  · exact (dispNews_disp _).trans ((keep_logClear ..).same .disp (by decide))
  · rfl

/-! ### Frame boundaries -/

section

variable {s : State}

theorem endFlights_none (h : s.disp.flight = []) : endFlights s = s := by
  rw [endFlights, h]
  exact congrArg (fun l => updDisp s fun d => { d with flight := l }) h.symm

theorem endSlots_idle {d : Display} (hr : d.refresh = none) (hl : d.legal = none) : endSlots d = d := by
  rw [endSlots, hr]
  dsimp only
  rw [hl]

theorem startRefresh_notDue (h : s.disp.refreshDue = false) : startRefresh s = s := by
  rw [startRefresh, h]
  rfl

theorem startRects_none (h : s.disp.waiting = []) : startRects s.disp.waiting [] s = s := by
  rw [h]
  exact congrArg (fun l => updDisp s fun d => { d with waiting := l }) h.symm

theorem startLegal_none (h : s.disp.legalWait = none) : startLegal s = s := by
  rw [startLegal, h]

/-- With nothing moving on the panel the pair that waits is taken at once, its window with it (R285, R286). -/
theorem startLegal_taken {p : LegalPair} (hw : s.disp.legalWait = some p) (hl : s.disp.legal = none)
    (hr : s.disp.refresh = none) (hf : s.disp.flight = []) :
    (startLegal s).disp.crcExp = p.crc ∧ (startLegal s).disp.haveImage = true
      ∧ (startLegal s).disp.legalWait = none ∧ (startLegal s).disp.legal.isSome = true
      ∧ (startLegal s).disp.lwinY0 = p.y0 ∧ (startLegal s).disp.lwinH = p.h := by
  have free : (s.disp.legal.isNone && s.disp.refresh.isNone
      && s.disp.flight.all fun f => decide (f.rect ≠ fullPanel)) = true := by
    rw [hl, hr, hf]
    rfl
  rw [startLegal, hw]
  dsimp only
  rw [if_pos free]
  exact ⟨rfl, rfl, rfl, rfl, rfl, rfl⟩

/-- A new pair of frames begins. -/
def beginPair (d : Display) : Display := { d with pairs := d.pairs + 1, second := false, bandNow := d.band }

/-- At a boundary with nothing moving, due or waiting a pair of frames begins and the legal pair may be taken; the other
steps of R280, R282 and R284 find nothing to do. -/
theorem execEvenFrameBoundary_idle (hp : s.disp.pwr = .on) (hf : s.disp.flight = []) (hr : s.disp.refresh = none)
    (hl : s.disp.legal = none) (hd : s.disp.refreshDue = false) (hw : s.disp.waiting = []) :
    execEvenFrameBoundary s = .next (startLegal (updDisp s beginPair)) := by
  unfold execEvenFrameBoundary
  rw [if_pos hp, endFlights_none hf]
  have aged : (updDisp s fun d => { endSlots d with pairs := d.pairs + 1, second := false, bandNow := d.band })
      = updDisp s beginPair :=
    congrArg (fun d => { s with disp := { d with pairs := s.disp.pairs + 1, second := false, bandNow := s.disp.band } })
      (endSlots_idle hr hl)
  have refreshed : startRefresh (updDisp s beginPair) = updDisp s beginPair := startRefresh_notDue hd
  have started : startRects (updDisp s beginPair).disp.waiting [] (updDisp s beginPair) = updDisp s beginPair :=
    startRects_none hw
  dsimp only
  rw [aged, refreshed, started, ite_self]

end

/-! ### The legal pair -/

/-- The window's image has 40 bytes a row (R274). -/
theorem windowImage_length (texts : List Nat × List Nat) (marks : List (Option Nat)) (h : Nat) :
    (windowImage texts marks h).length = 40 * h := by
  rw [windowImage, List.length_map, List.length_range]

/-- What Meridian sends is the image it shows, under its own CRC and with the window's place (R285). -/
theorem execLegalPairSend_up {s : State} (hu : s.mer.up = true) :
    ∃ t p, execLegalPairSend s = .next t ∧ t.disp.lane = some p ∧ p.crc = crc32 p.img
      ∧ p.img.length = 40 * merN s 0x300 0x048 7 0 ∧ p.h = merN s 0x300 0x048 7 0 ∧ p.y0 = merN s 0x300 0x048 15 8 :=
  ⟨_, _, congrArg Host.Outcome.next (if_pos hu), rfl, rfl, windowImage_length .., rfl, rfl⟩

/-- The pair on the lane arrives with its CRC and its window, whatever its image suffered (R286, R288). -/
theorem execLegalPairReceived_arrived {s : State} {p : LegalPair} (upsets : List (Nat × Byte))
    (hl : s.disp.lane = some p) :
    ∃ t, execLegalPairReceived upsets s = .next t
      ∧ t.disp.legalWait = some { p with img := upsetBytes p.img upsets } ∧ t.disp.lane = none
      ∧ t.disp.pairAt = s.mono ∧ t.disp.pairSeen = true := by
  unfold execLegalPairReceived
  rw [hl]
  exact ⟨_, rfl, rfl, rfl, rfl, rfl⟩

/-! ### CRCs of a frame -/

/-- CRC_SHIFT of a frame: over the levels read back from the latches (R287). -/
def latchCrc (d : Display) (upsets : List (Nat × Byte)) : Nat :=
  crc32 (upsetBytes ((rectBytes d (legalRect d) true).map fun a => frameByte d a.1) upsets)

section

variable {s : State} (upsets : List (Nat × Byte)) (hp : s.disp.pwr = .on) (hi : s.disp.haveImage = true)

include hp hi

/-- A frame whose two CRCs are the one expected (R287). -/
theorem execFrameEndCrc_matching (hm : crcMem s.disp = s.disp.crcExp) (hs : latchCrc s.disp upsets = s.disp.crcExp) :
    ∃ t, execFrameEndCrc upsets s = .next t ∧ t.disp.missRun = 0 ∧ t.disp.crcShift = latchCrc s.disp upsets
      ∧ t.disp.matchFrom = some (s.disp.matchFrom.getD s.mono) := by
  have image : ¬s.disp.haveImage = false := by
    rw [hi]
    decide
  unfold execFrameEndCrc
  rw [if_pos hp]
  dsimp only
  rw [if_neg image, if_pos ⟨hm, hs⟩]
  exact ⟨_, rfl, rfl, rfl, rfl⟩

/-- A frame with a CRC that is not the one expected: it is counted, and the second in a row raises CRC (R287). -/
theorem execFrameEndCrc_missed (hs : latchCrc s.disp upsets ≠ s.disp.crcExp) :
    ∃ t, execFrameEndCrc upsets s = .next t ∧ t.disp.missRun = s.disp.missRun + 1 ∧ t.disp.matchFrom = none
      ∧ t.disp.miss = satInc 16 s.disp.miss
      ∧ t.disp.faultCrc = (s.disp.faultCrc || decide (1 ≤ s.disp.missRun)) := by
  have image : ¬s.disp.haveImage = false := by
    rw [hi]
    decide
  have missed : ¬(crcMem s.disp = s.disp.crcExp ∧ latchCrc s.disp upsets = s.disp.crcExp) := fun h => hs h.2
  unfold execFrameEndCrc
  rw [if_pos hp]
  dsimp only
  rw [if_neg image]
  unfold latchCrc at missed
  refine ⟨_, congrArg Host.Outcome.next (if_neg missed), ?_⟩
  split
  case isTrue second =>
    have again : 1 ≤ s.disp.missRun := Nat.le_of_succ_le_succ second
    rw [decide_eq_true again, Bool.or_true, raiseDisp_disp]
    split
    case isTrue stands => exact ⟨rfl, rfl, rfl, stands⟩
    case isFalse => exact ⟨rfl, rfl, rfl, rfl⟩
  case isFalse first =>
    have alone : ¬1 ≤ s.disp.missRun := fun h => first (Nat.succ_le_succ h)
    rw [decide_eq_false alone, Bool.or_false]
    exact ⟨rfl, rfl, rfl, rfl⟩

end

/-! ### Faults -/

/-- The time allowed has passed without a legal pair (R288). -/
theorem execLaneTimeout_late {s : State} (hp : s.disp.pwr = .on) (hl : s.disp.pairAt + laneGrace s ≤ s.mono) :
    ∃ t, execLaneTimeout s = .next t ∧ t.disp.faultLane = true ∧ t.disp.pairSeen = false := by
  refine ⟨_, congrArg Host.Outcome.next (if_pos ⟨hp, hl⟩), ?_⟩
  rw [raiseDisp_disp]
  split
  case isTrue stands => exact ⟨stands, rfl⟩
  case isFalse => exact ⟨rfl, rfl⟩

/-- Ten seconds of matching frames end CRC and, once a pair has come, LANE (R290). -/
theorem execDisplayFaultClear_matched {s : State} (hm : matched10 s = true)
    (hi : s.flt.island[(6 : Fin 17)].lost = false) (hs : s.disp.pairSeen = true) :
    ∃ t, execDisplayFaultClear s = .next t ∧ t.disp.faultCrc = false ∧ t.disp.faultLane = false := by
  unfold execDisplayFaultClear
  rw [if_pos hm, hi, hs, Bool.not_false, Bool.and_true, Bool.and_true]
  extract_lets t
  have crcEnded : t.disp.faultCrc = false ∧ t.disp.faultLane = s.disp.faultLane := by
    rw [show t.disp = _ from endDisp_disp ..]
    split
    case isTrue => exact ⟨rfl, rfl⟩
    case isFalse absent => exact ⟨Bool.eq_false_of_not_eq_true absent, rfl⟩
  obtain ⟨crc, lane⟩ := crcEnded
  refine ⟨_, rfl, ?_⟩
  rw [endDisp_disp]
  split
  case isTrue => exact ⟨crc, rfl⟩
  case isFalse absent => exact ⟨crc, lane.trans (Bool.eq_false_of_not_eq_true absent)⟩

section

variable {s : State} {ohm : Nat} (hb : suspended s 11 = false)

include hb

/-- A crack loop outside its limits (R289). -/
theorem execCrackMeasure_bad (hc : crackBad s (min 10000 ohm) = true) :
    ∃ t, execCrackMeasure ohm s = .next t ∧ t.disp.faultCrack = true ∧ t.disp.crackRes = min 10000 ohm := by
  unfold execCrackMeasure
  rw [if_neg (ne_true_of_eq_false hb)]
  refine ⟨_, congrArg Host.Outcome.next (if_pos hc), ?_⟩
  rw [raiseDisp_disp]
  split
  case isTrue stands => exact ⟨stands, rfl⟩
  case isFalse => exact ⟨rfl, rfl⟩

/-- The first reading of a Landfall within the limits ends the fault (R290). -/
theorem execCrackMeasure_first (hc : crackBad s (min 10000 ohm) = false) (hf : s.disp.crackCheck = true) :
    ∃ t, execCrackMeasure ohm s = .next t ∧ t.disp.faultCrack = false ∧ t.disp.crackCheck = false := by
  unfold execCrackMeasure
  rw [if_neg (ne_true_of_eq_false hb)]
  dsimp only
  rw [if_neg (ne_true_of_eq_false hc), if_pos hf]
  refine ⟨_, rfl, ?_⟩
  rw [endDisp_disp]
  split
  case isTrue => exact ⟨rfl, rfl⟩
  case isFalse absent => exact ⟨Bool.eq_false_of_not_eq_true absent, rfl⟩

/-- A later reading within the limits is noted and nothing else: a fault stays (R290). -/
theorem execCrackMeasure_later (hc : crackBad s (min 10000 ohm) = false) (hf : s.disp.crackCheck = false) :
    execCrackMeasure ohm s = .next (updDisp s fun d => { d with crackRes := min 10000 ohm }) := by
  unfold execCrackMeasure
  rw [if_neg (ne_true_of_eq_false hb)]
  dsimp only
  rw [if_neg (ne_true_of_eq_false hc), if_neg (ne_true_of_eq_false hf)]
  exact congrArg (fun b => Host.Outcome.next (updDisp s fun d => { d with crackRes := min 10000 ohm, crackCheck := b }))
    hf.symm

end

/-- A reading of the sensor's range sets the band, and a change of band asks for a refresh (R278). -/
theorem execPanelTempMeasure_inRange (s : State) {v : Int} (hlo : -450 ≤ v) (hhi : v ≤ 1100) :
    ∃ t, execPanelTempMeasure (.reading v) s = .next t ∧ t.disp.temp = v ∧ t.disp.thFault = false
      ∧ t.disp.band = nextBand s v s.disp.band
      ∧ t.disp.refreshDue = (s.disp.refreshDue || nextBand s v s.disp.band != s.disp.band) :=
  have inRange : ¬(v < -450 ∨ 1100 < v) := by omega
  ⟨_, congrArg Host.Outcome.next (if_neg inRange), rfl, rfl, rfl, rfl⟩

/-- An AVDD pump that is enabled and fails raises PUMP (R276). -/
theorem execPumpFault_avdd {s : State} (ho : s.disp.out.avdd = true) :
    ∃ t, execPumpFault 0 s = .next t ∧ t.disp.faultPump = true := by
  refine ⟨_, congrArg Host.Outcome.next (if_pos ho), ?_⟩
  rw [raiseDisp_disp]
  split
  case isTrue stands => exact stands
  case isFalse => rfl

/-! ### Power on and off -/

/-- The panel as power-on begins at the uptime `now`: AVDD_PNL is enabled (R292). -/
def powerOnBegun (now : Nat) (d : Display) : Display :=
  { d with pwr := .poweringOn, step := 2, restart := false, stepAt := now, out := { avdd := true } }

theorem powerOn_off {s : State} (hp : s.disp.pwr = .off) (hio : s.landfall.ioOk = true) :
    powerOn s = updDisp s (powerOnBegun s.mono) := by
  have notYetOff : ¬s.disp.pwr = .poweringOff := by
    rw [hp]
    decide
  rw [powerOn, if_neg notYetOff, panelOn, if_pos ⟨hp, hio⟩]
  rfl

theorem execPanelPowerOn_off {s : State} (hl : 3 ≤ s.landfall.phase) (hp : s.disp.pwr = .off)
    (hio : s.landfall.ioOk = true) : execPanelPowerOn s = .next (updDisp s (powerOnBegun s.mono)) := by
  rw [execPanelPowerOn, if_pos hl, powerOn_off hp hio]

theorem beginOff_off {s : State} (hp : s.disp.pwr = .off) : beginOff s = s := by
  rw [beginOff, hp]

/-- A panel that is not off is then powering off (R293). -/
theorem beginOff_pwr {s : State} (hp : s.disp.pwr ≠ .off) : (beginOff s).disp.pwr = .poweringOff := by
  unfold beginOff
  split
  case h_1 off => exact absurd off hp
  case h_2 already => exact already
  case h_3 => rfl

theorem beginOff_retrying (s : State) : (beginOff s).disp.retrying = s.disp.retrying := by
  unfold beginOff
  split <;> rfl

theorem execPanelPowerOff_on {s : State} (hp : s.disp.pwr = .on) :
    execPanelPowerOff s = .next (updDisp s fun d =>
      { d with pwr := .poweringOff, step := 2, restart := false, stepAt := s.mono, out := { d.out with fl := false } }) := by
  rw [execPanelPowerOff, beginOff]
  simp only [updDisp, hp]

/-- A retry of a panel that is off powers it on at once (R290). -/
theorem execPumpRetry_off {s : State} (hf : s.disp.faultPump = true) (hp : s.disp.pwr = .off)
    (hio : s.landfall.ioOk = true) : ∃ t, execPumpRetry s = .next t ∧ t.disp.pwr = .poweringOn ∧ t.disp.step = 2
      ∧ t.disp.retrying = true := by
  have off := beginOff_off (s := updDisp s fun d => { d with retrying := true }) hp
  have on := powerOn_off (s := updDisp s fun d => { d with retrying := true }) hp hio
  rw [execPumpRetry, if_pos hf, off, on]
  exact ⟨_, rfl, rfl, rfl, rfl⟩

/-- A retry of a panel that is not off powers it off first, to start again once it is off (R290). -/
theorem execPumpRetry_notOff {s : State} (hf : s.disp.faultPump = true) (hp : s.disp.pwr ≠ .off) :
    ∃ t, execPumpRetry s = .next t ∧ t.disp.pwr = .poweringOff ∧ t.disp.restart = true ∧ t.disp.retrying = true := by
  have hoff := beginOff_pwr (s := updDisp s fun d => { d with retrying := true }) hp
  rw [execPumpRetry, if_pos hf, powerOn, if_pos hoff]
  exact ⟨_, rfl, hoff, rfl, beginOff_retrying _⟩

/-! ### The steps of a power-on -/

/-- The panel is on whether or not a PUMP fault ends with it (R292). -/
theorem panelUp_disp (s : State) :
    (panelUp s).disp.pwr = .on ∧ (panelUp s).disp.settled = [] ∧ (panelUp s).disp.out = s.disp.out := by
  unfold panelUp
  dsimp only
  rw [endDisp_disp]
  split <;> exact ⟨rfl, rfl, rfl⟩

section

variable {s : State} {mv : Int} {us : Nat} (hp : s.disp.pwr = .poweringOn)

include hp

/-- A step whose condition is met in time goes on to the next, the last to the panel on (R292). -/
theorem execPanelPowerStep_met (ht : us ≤ (stepMet s s.disp.step mv us).2) (hm : (stepMet s s.disp.step mv us).1 = true) :
    execPanelPowerStep mv us s =
      let t := updDisp s fun d => { d with step := s.disp.step + 1, out := panelStep (s.disp.step + 1) d.out }
      .next (if s.disp.step + 1 = 8 then panelUp t else t) := by
  unfold execPanelPowerStep
  rw [if_pos hp]
  dsimp only
  rw [if_neg (Nat.not_lt.mpr ht), if_pos hm]

/-- Two frames after GOA_RST the panel is on, its frontlight with it, and its settled levels are 0 (R292). -/
theorem execPanelPowerStep_last (hk : s.disp.step = 7) (hf : twoFrames s ≤ 48 * us) :
    ∃ t, execPanelPowerStep mv us s = .next t ∧ t.disp.pwr = .on ∧ t.disp.out.fl = true ∧ t.disp.settled = [] := by
  have step : stepMet s s.disp.step mv us = (true, us) := by
    rw [hk, ← decide_eq_true hf]
    rfl
  refine ⟨_, execPanelPowerStep_met hp (by rw [step]) (by rw [step]), ?_⟩
  rw [hk, if_pos rfl]
  obtain ⟨on, settled, out⟩ := panelUp_disp (updDisp s fun d => { d with step := 8, out := panelStep 8 d.out })
  exact ⟨on, congrArg PanelOut.fl out, settled⟩

/-- A step that misses its maximum raises PUMP, with every output off (R292). -/
theorem execPanelPowerStep_late (hl : (stepMet s s.disp.step mv us).2 < us) :
    ∃ t, execPanelPowerStep mv us s = .next t ∧ t.disp.pwr = .off ∧ t.disp.faultPump = true ∧ t.disp.out = {} := by
  unfold execPanelPowerStep
  rw [if_pos hp]
  refine ⟨_, congrArg Host.Outcome.next (if_pos hl), ?_⟩
  rw [raiseDisp_disp]
  split
  case isTrue stands => exact ⟨rfl, stands, rfl⟩
  case isFalse => exact ⟨rfl, rfl, rfl⟩

end

/-- Settles O16: clause by clause, from what each command does in the case that the clause names. -/
theorem displayCompletes : Obligations.DisplayCompletes := by
  unfold Obligations.DisplayCompletes
  refine ⟨fun s hp hf hr hl hd hw hn => ?_, fun s p hp hf hr hl hd hw hn => ?_, fun s hu => execLegalPairSend_up hu,
    fun s upsets p hl => execLegalPairReceived_arrived upsets hl, fun s upsets shift hp hi hs hm hx => ?_,
    fun s upsets shift hp hi hs hx hz => ?_, fun s upsets shift hp hi hs hx hz => ?_,
    fun s hp hl => execLaneTimeout_late hp hl, fun s hm hi hs => execDisplayFaultClear_matched hm hi hs,
    fun s ohm hb hc => execCrackMeasure_bad hb hc, fun s ohm hb hc hf => execCrackMeasure_first hb hc hf,
    fun s ohm hb hc hf => execCrackMeasure_later hb hc hf,
    fun s v hlo hhi => execPanelTempMeasure_inRange s hlo hhi, fun s => ⟨_, rfl, rfl, rfl⟩,
    fun s ho => execPumpFault_avdd ho, fun s hl hp hio => execPanelPowerOn_off hl hp hio,
    fun s hp => execPanelPowerOff_on hp, fun s hf hp hio => execPumpRetry_off hf hp hio,
    fun s hf hp => execPumpRetry_notOff hf hp, fun s mv us hp ht hm hk => ?_,
    fun s mv us hp hk hf => execPanelPowerStep_last hp hk hf, fun s mv us hp hl => execPanelPowerStep_late hp hl⟩
  · exact (execEvenFrameBoundary_idle hp hf hr hl hd hw).trans (congrArg Host.Outcome.next (startLegal_none hn))
  · exact ⟨_, execEvenFrameBoundary_idle hp hf hr hl hd hw, startLegal_taken hn hl hr hf⟩
  · subst hm
    exact execFrameEndCrc_matching upsets hp hi hs hx
  · subst hs
    obtain ⟨t, ht, hrun, hfrom, hmiss, hfault⟩ := execFrameEndCrc_missed upsets hp hi hx
    rw [hz] at hrun hfault
    exact ⟨t, ht, hrun, hfrom, hmiss, hfault.trans (Bool.or_false _)⟩
  · subst hs
    obtain ⟨t, ht, -, -, hmiss, hfault⟩ := execFrameEndCrc_missed upsets hp hi hx
    exact ⟨t, ht, hfault.trans ((congrArg _ (decide_eq_true hz)).trans (Bool.or_true _)), hmiss⟩
  · exact (execPanelPowerStep_met hp ht hm).trans (congrArg Host.Outcome.next (if_neg hk))

end Sys2Proof.Machine
end

section
/-!
SUPPORT. Lookout's inputs, the comparison of its channels, its resets and Landfall's messages: one input, output or
outlet after an update, and an equation or an effect for each case of a command (R297 to R304, R312, R314, R489; O7).
-/
namespace Sys2Proof.Machine

/-! ### One member of a family of Lookout's after an update -/

@[simp] theorem updSi_same (s : State) (n : Fin 16) (f : SafeIn → SafeIn) : (updSi s n f).lk.si[n] = f s.lk.si[n] :=
  upd_same ..

@[simp] theorem updSo_same (s : State) (n : Fin 8) (f : SafeOut → SafeOut) : (updSo s n f).lk.so[n] = f s.lk.so[n] :=
  upd_same ..

@[simp] theorem updLko_same (s : State) (o : Fin 2) (f : LkOutlet → LkOutlet) :
    (updLko s o f).lk.outlet[o] = f s.lk.outlet[o] := upd_same ..

theorem updSi_sameOff (s : State) (n : Fin 16) (f : SafeIn → SafeIn) : SameOff (·.lk.si) n s (updSi s n f) :=
  .of_upd rfl

/-- A quantity of which an update of an outlet of Lookout's takes no notice stays what it was, at every outlet. -/
theorem updLko_keeps {α : Type} {π : LkOutlet → α} (s : State) (p o : Fin 2) {f : LkOutlet → LkOutlet}
    (h : ∀ x, π (f x) = π x) : π (updLko s p f).lk.outlet[o] = π s.lk.outlet[o] := by
  rw [updLko_lk_outlet, upd_get]
  split
  · exact h _
  · rfl

/-- Of steps that each act on one member, none of which the view `π` of another member sees, the view of member `i` is
what the one step that names it makes of a state in which it was what it is at the start. -/
theorem foldl_visits {ι β : Type} {π : State → β} {f : State → ι → State} {i : ι}
    (other : ∀ u k, k ≠ i → π (f u k) = π u) {l : List ι} (hi : i ∈ l) (hl : l.Nodup) (s : State) :
    ∃ u, π u = π s ∧ π (l.foldl f s) = π (f u i) := by
  have skips (l : List ι) (h : i ∉ l) (u : State) : π (l.foldl f u) = π u :=
    List.foldlRecOn (motive := fun t => π t = π u) l f rfl fun t ht k hk =>
      (other t k fun e => h (e ▸ hk)).trans ht
  obtain ⟨before, after, rfl⟩ := List.append_of_mem hi
  obtain ⟨-, ⟨notAfter, -⟩, apart⟩ := (List.nodup_append.mp hl).imp_right (·.imp_left List.nodup_cons.mp)
  have notBefore : i ∉ before := fun h => apart i h i List.mem_cons_self rfl
  refine ⟨before.foldl f s, skips before notBefore s, ?_⟩
  rw [List.foldl_append, List.foldl_cons, skips after notAfter]

/-! ### What the records of faults leave of Lookout -/

@[simp] theorem logDetect_lk (s : State) (code : Nat) (src : LogSrc) (arg : Nat) :
    (logDetect s code src arg).lk = s.lk := rfl

@[simp] theorem logDetect_safe (s : State) (code : Nat) (src : LogSrc) (arg : Nat) :
    (logDetect s code src arg).safe = s.safe := rfl

@[simp] theorem clearFaults_lk (s : State) (src : LogSrc) (p : Nat → Nat → Bool) :
    (clearFaults s src p).lk = s.lk := by
  unfold clearFaults
  exact foldl_same (π := State.lk) (f := fun t (x : OpenFault) => logClear t x.code src x.arg) (fun _ _ => rfl) _ s

/-! ### Inputs -/

/-- The date of ISTATE's last change is all that the stamp gives an input. -/
theorem stampInput_same (s t : State) (n : Fin 16) :
    ∃ k, (stampInput s t n).lk.si[n] = { t.lk.si[n] with since := k } := by
  unfold stampInput
  split
  · exact ⟨_, rfl⟩
  · exact ⟨s.mono, updSi_same ..⟩

theorem stampInput_sameOff (s t : State) (n : Fin 16) : SameOff (·.lk.si) n t (stampInput s t n) :=
  .ite (.of_eq rfl) (updSi_sameOff ..)

/-- The inputs, the outputs and Sextant are in `t` what they are in `s`. -/
structure SameInputs (s t : State) : Prop where
  si : t.lk.si = s.lk.si
  so : t.lk.so = s.lk.so
  sx : t.sx = s.sx

theorem SameInputs.trans {s t u : State} (h : SameInputs s t) (k : SameInputs t u) : SameInputs s u :=
  ⟨k.si.trans h.si, k.so.trans h.so, k.sx.trans h.sx⟩

theorem noteHolster_sameInputs (s : State) (n : Fin 16) (o : Fin 2) : SameInputs s (noteHolster s n o) := by
  unfold noteHolster
  split <;> exact ⟨rfl, rfl, rfl⟩

theorem notePress_sameInputs (s t : State) (n : Fin 16) : SameInputs t (notePress s t n) := by
  unfold notePress
  split <;> exact ⟨rfl, rfl, rfl⟩

theorem clearFaults_sameInputs (s : State) (src : LogSrc) (p : Nat → Nat → Bool) :
    SameInputs s (clearFaults s src p) :=
  ⟨by rw [clearFaults_lk], by rw [clearFaults_lk], (clearFaults_frame s src p).1⟩

theorem stampInput_frame (s t : State) (n : Fin 16) :
    (stampInput s t n).lk.so = t.lk.so ∧ (stampInput s t n).sx = t.sx := by
  unfold stampInput
  split <;> exact ⟨rfl, rfl⟩

/-- The levels accepted make the input what `acceptLines` says; besides, only its last change is dated (R302, R303). -/
theorem execSafetyInputChange_accepts (s : State) (n : Fin 16) (a b : Bool) (us : Nat) :
    ∃ u k, execSafetyInputChange n a b us s = .next (settle s u)
      ∧ u.lk.si[n] = { acceptLines s n (filtered s n s.lk.si[n].a a us) (filtered s n s.lk.si[n].b b us) s.lk.si[n]
          with since := k }
      ∧ u.lk.so = s.lk.so ∧ u.sx = s.sx := by
  unfold execSafetyInputChange
  extract_lets x noted accepted cleared
  have hnoted : SameInputs s noted := (noteHolster_sameInputs s n 0).trans (noteHolster_sameInputs _ n 1)
  have hcleared : SameInputs accepted cleared := by
    unfold cleared
    split
    · exact clearFaults_sameInputs ..
    · exact ⟨rfl, rfl, rfl⟩
  have hpressed := hcleared.trans (notePress_sameInputs s cleared n)
  obtain ⟨k, hk⟩ := stampInput_same s (notePress s cleared n) n
  obtain ⟨hso, hsx⟩ := stampInput_frame s (notePress s cleared n) n
  refine ⟨_, k, rfl, ?_, ?_, ?_⟩
  · rw [hk, hpressed.si, updSi_same, hnoted.si]
  · exact hso.trans (hpressed.so.trans hnoted.so)
  · exact hsx.trans (hpressed.sx.trans hnoted.sx)

/-- Lines that disagree are a fault of the input (R302). -/
theorem execDiscrepancyFault_disagree {s : State} {n : Fin 16}
    (h : (lineDemand s n s.lk.si[n].a s.lk.si[n].b).1 ≠ (lineDemand s n s.lk.si[n].a s.lk.si[n].b).2) :
    ∃ u, execDiscrepancyFault n s = .next (settle s u) ∧ u.lk.si[n].st = .discrepancy
      ∧ u.lk.si[n].discCnt = satInc 8 s.lk.si[n].discCnt ∧ u.flt.lastCode = 0x0603 := by
  unfold execDiscrepancyFault
  extract_lets x d faulted
  obtain ⟨k, hk⟩ := stampInput_same s faulted n
  refine ⟨_, congrArg Host.Outcome.next (if_neg (mt beq_iff_eq.mp h)), ?_, ?_, logDetect_lastCode ..⟩
  all_goals rw [logDetect_lk, hk, updSi_same]

/-! ### Test pulses -/

/-- A side's lines read low at an input in some sample. -/
theorem readsLow_iff {samples : List (BitVec 16 × BitVec 16)} {side : BitVec 16 × BitVec 16 → BitVec 16}
    {n : Fin 16} :
    (samples.any fun p => !(side p).getLsbD n) = true ↔ ∃ p ∈ samples, (side p).getLsbD n = false := by
  simp

theorem judgePulse_sameOff (s : State) (sideB : Bool) (samples : List (BitVec 16 × BitVec 16)) (n : Fin 16) :
    SameOff (·.lk.si) n s (judgePulse s sideB samples n) := by
  unfold judgePulse
  extract_lets x low own cross i j bad judged faulted
  have hjudged : SameOff (·.lk.si) n s judged := updSi_sameOff ..
  have hstamped := (hjudged.trans (updSi_sameOff ..)).trans (stampInput_sameOff s faulted n)
  exact .ite (hstamped.trans (.of_eq (congrArg Lookout.si (logDetect_lk ..)))) hjudged

section

variable {s : State} {sideB : Bool} {samples : List (BitVec 16 × BitVec 16)} {n : Fin 16}

/-- An input whose own line never read low, in the second period running, has a test-pulse fault (R304). -/
theorem judgePulse_stuck (high : ∀ p ∈ samples, (if sideB then p.2 else p.1).getLsbD n = true)
    (again : s.lk.si[n].tpBad[(if sideB then 1 else 0 : Fin 4)] = true) :
    (judgePulse s sideB samples n).lk.si[n].st = .testPulse
      ∧ (judgePulse s sideB samples n).lk.si[n].tpCnt = satInc 8 s.lk.si[n].tpCnt := by
  unfold judgePulse
  extract_lets x low own cross i j bad judged faulted
  have hown : own = true := by
    rw [Bool.not_eq_true', Bool.eq_false_iff, ne_eq, readsLow_iff]
    rintro ⟨p, hp, reads⟩
    exact Bool.false_ne_true (reads.symm.trans (high p hp))
  have hbad : bad = true := by
    have hi : x.tpBad[i] = true := again
    simp only [bad, hown, hi, Bool.and_self, Bool.true_or]
  obtain ⟨k, hk⟩ := stampInput_same s faulted n
  rw [if_pos hbad, logDetect_lk, hk, updSi_same, updSi_same]
  exact ⟨rfl, rfl⟩

/-- An input whose own line read low in a sample, and whose other line did in none, has passed (R304). -/
theorem judgePulse_passed (pulsed : ∃ p ∈ samples, (if sideB then p.2 else p.1).getLsbD n = false)
    (high : ∀ p ∈ samples, (if sideB then p.1 else p.2).getLsbD n = true) :
    (judgePulse s sideB samples n).lk.si[n].st = s.lk.si[n].st
      ∧ (judgePulse s sideB samples n).lk.si[n].tpBad[(if sideB then 1 else 0 : Fin 4)] = false := by
  unfold judgePulse
  extract_lets x low own cross i j bad judged faulted
  have hown : own = false := by
    rw [Bool.not_eq_false', readsLow_iff]
    exact pulsed
  have hother : low (!sideB) = false := by
    rw [Bool.eq_false_iff, ne_eq, readsLow_iff]
    rintro ⟨p, hp, reads⟩
    have := high p hp
    cases sideB <;> exact Bool.false_ne_true (reads.symm.trans this)
  have hcross : cross = false := by simp only [cross, hother, Bool.and_false]
  have hbad : bad = false := by simp only [bad, hown, hcross, Bool.false_and, Bool.or_false]
  have hij : j ≠ i := by
    unfold i j
    cases sideB <;> decide
  rw [hbad, if_neg Bool.false_ne_true, updSi_same]
  exact ⟨rfl, (upd_other _ _ _ _ hij).trans ((upd_same ..).trans hown)⟩

end

/-- A pulse judges each input fed from it by itself (R304). -/
theorem execTestPulse_judges {s : State} {k : Fin 4} {n : Fin 16} (sideB : Bool)
    (samples : List (BitVec 16 × BitVec 16)) (hfed : fedBy s n k = true) (hrun : suspended s 9 = false) :
    ∃ u v, execTestPulse k sideB samples s = .next (settle s u) ∧ v.lk.si[n] = s.lk.si[n]
      ∧ u.lk.si[n] = (judgePulse v sideB samples n).lk.si[n] := by
  have mem : n ∈ (List.finRange 16).filter fun n => fedBy s n k && !suspended s 9 := by
    simp [hfed, hrun]
  obtain ⟨v, hv, judged⟩ := foldl_visits (π := fun t => t.lk.si[n]) (f := fun t n => judgePulse t sideB samples n)
    (fun u m ne => (judgePulse_sameOff u sideB samples m).other ne.symm) mem ((List.nodup_finRange 16).filter _) s
  exact ⟨_, v, rfl, hv, judged⟩

/-! ### Channels -/

section

variable {s : State} {a b : LkImage} (ha : s.lk.runA = true) (hb : s.lk.runB = true)

include ha hb

/-- Channels that agree only note what their inputs differed in (R297). -/
theorem execCrossCompareExchange_agree (hf : a.fns = b.fns) (ho : a.outs = b.outs)
    (hi : (a.inputs ^^^ b.inputs) &&& s.lk.inputDiff = 0) : execCrossCompareExchange a b s =
      .next { s with lk := { s.lk with inputDiff := a.inputs ^^^ b.inputs } } := by
  rw [execCrossCompareExchange, ha, hb]
  have agree : ¬(a.fns ≠ b.fns ∨ a.outs ≠ b.outs ∨ (a.inputs ^^^ b.inputs) &&& s.lk.inputDiff ≠ 0) := by
    simp [hf, ho, hi]
  exact congrArg Host.Outcome.next (if_neg agree)

theorem execCrossCompareExchange_differ
    (h : a.fns ≠ b.fns ∨ a.outs ≠ b.outs ∨ (a.inputs ^^^ b.inputs) &&& s.lk.inputDiff ≠ 0) :
    ∃ u, execCrossCompareExchange a b s = .next (settle s u) ∧ u.lk.xcmp = true
      ∧ u.lk.xcmpCnt = satInc 16 s.lk.xcmpCnt ∧ u.flt.lastCode = 0x0204 := by
  rw [execCrossCompareExchange, ha, hb]
  exact ⟨_, congrArg Host.Outcome.next (if_pos h), rfl, rfl, logDetect_lastCode ..⟩

theorem execChannelsAgreed_running : ∃ u, execChannelsAgreed s = .next (settle s u)
    ∧ u.lk = { s.lk with agreed := true, restarting := false, tpAt := s.mono } := by
  rw [execChannelsAgreed, ha, hb]
  exact ⟨_, congrArg Host.Outcome.next (if_pos rfl), clearFaults_lk ..⟩

end

/-- A channel that restarts begins its watch anew; until the channels agree outputs stay off, and both holster tests are
required again (R298, R334). -/
theorem execLookoutChannelRestart_restarts (s : State) (ch : Fin 2) :
    ∃ u, execLookoutChannelRestart ch s = .next (settle s u) ∧ u.lk.restarting = true ∧ u.lk.agreed = false
      ∧ u.lk.restartCnt = satInc 16 s.lk.restartCnt ∧ u.lk.outlet[0].holster = 0 ∧ u.lk.outlet[1].holster = 0
      ∧ u.safe.chan[ch] = freshChan s.mono := by
  unfold execLookoutChannelRestart
  extract_lets lk running lk' restarted untested
  have hrunning : running.lk.restartCnt = s.lk.restartCnt ∧ running.mono = s.mono := by
    unfold running
    split <;> exact ⟨rfl, rfl⟩
  obtain ⟨hcnt, hmono⟩ := hrunning
  have holster₀ : untested.lk.outlet[(0 : Fin 2)].holster = 0 := by
    unfold untested
    rw [(updLko_sameOff _ 1 _).other (by decide), updLko_same]
  have holster₁ : untested.lk.outlet[(1 : Fin 2)].holster = 0 := congrArg LkOutlet.holster (updLko_same ..)
  refine ⟨_, rfl, rfl, rfl, congrArg (satInc 16) hcnt, holster₀, holster₁, ?_⟩
  exact (upd_same ..).trans (congrArg freshChan hmono)

/-! ### Resets and the holster test -/

/-- A press of 0.1 s to 5 s, with the input back in run, resets (R312). -/
theorem execResetPress_resets {s : State} {ms : Nat} (hen : cfgB s 0x40 0 0x020 29 = true) (hp : s.lk.press = some ms)
    (hmin : 100 ≤ ms) (hmax : ms ≤ 5000) (hrun : inDemand s (Fin.ofNat 16 (cfgN s 0x40 0 0x020 28 25)) = false) :
    execResetPress s = .next (settle s (resetModule { s with lk := { s.lk with press := none } })) := by
  refine congrArg Host.Outcome.next (if_pos ?_)
  rw [hen, hrun, hp, Option.any_some, decide_eq_true ⟨hmin, hmax⟩]
  rfl

/-- Demand shown for 100 ms and then run for as long completes the test (R314). -/
theorem execHolsterTestSeen_seen {s : State} {o : Fin 2} (hen : cfgB s 0x40 (0x30 + o) 0x000 13 = true)
    (hrun : suspended s 15 = false) (hin : outletInput s o 13 31 28 = false) (hdocked : (s.lk.outlet[o]).holster = 1)
    (hheld : held100 s (Fin.ofNat 16 (cfgN s 0x40 (0x30 + o) 0x000 31 28)) o = true) :
    execHolsterTestSeen o s = .next (settle s (updLko s o fun x => { x with holster := 2 })) := by
  refine congrArg Host.Outcome.next (if_pos ?_)
  rw [hen, hrun, hin, hheld, decide_eq_true hdocked]
  rfl

theorem execLandfallCompleteMessage_complete {s : State} (h : s.landfall.phase = 9) :
    execLandfallCompleteMessage s = .next (settle s { s with lk := { s.lk with landfallDone := true } }) :=
  congrArg Host.Outcome.next (if_pos h)

/-- Settles O7: clause by clause, from what each command makes of the input, the channels or the latch it names. -/
theorem safetyInputCompletes : Obligations.SafetyInputCompletes := by
  unfold Obligations.SafetyInputCompletes
  refine ⟨fun s n a b us => ?_, fun s n h => execDiscrepancyFault_disagree h,
    fun s k sideB samples n hfed hrun high again => ?_, fun s k sideB samples n hfed hrun pulsed high => ?_,
    fun s a b ha hb hf ho hi => execCrossCompareExchange_agree ha hb hf ho hi,
    fun s a b ha hb h => execCrossCompareExchange_differ ha hb h,
    fun s ch => execLookoutChannelRestart_restarts s ch, fun s ha hb => execChannelsAgreed_running ha hb,
    fun s ms hen hp hmin hmax hrun => execResetPress_resets hen hp hmin hmax hrun,
    fun s o hen hrun hin hdocked hheld => execHolsterTestSeen_seen hen hrun hin hdocked hheld,
    fun s h => execLandfallCompleteMessage_complete h, fun s => rfl, fun s => rfl⟩
  · obtain ⟨u, k, hu, hsi, hso, hsx⟩ := execSafetyInputChange_accepts s n a b us
    exact ⟨u, hu, by rw [hsi], hso, hsx⟩
  · obtain ⟨u, v, hu, hv, judged⟩ := execTestPulse_judges sideB samples hfed hrun
    obtain ⟨hst, hcnt⟩ := judgePulse_stuck (s := v) high (by rwa [hv])
    exact ⟨u, hu, by rw [judged, hst], by rw [judged, hcnt, hv]⟩
  · obtain ⟨u, v, hu, hv, judged⟩ := execTestPulse_judges sideB samples hfed hrun
    obtain ⟨hst, hbad⟩ := judgePulse_passed (s := v) pulsed high
    exact ⟨u, hu, by rw [judged, hst, hv], by rw [judged, hbad]⟩

end Sys2Proof.Machine
end

section
/-!
SUPPORT. Lookout's outputs, contactors and locks: output tests and feedback, the judged close, the opened pair, and the
locks that SF5 releases (R306 to R310, R313, R323, Table 12-4a; O8).
-/
namespace Sys2Proof.Machine

/-! ### An output switched on or off -/

@[simp] theorem SafeOut.off_cmd (m : Nat) (x : SafeOut) : (x.off m).cmd = false := by
  unfold SafeOut.off
  split
  case isTrue => rfl
  case isFalse h => exact Bool.eq_false_iff.mpr h

@[simp] theorem SafeOut.on_cmd (m : Nat) (x : SafeOut) : (x.on m).cmd = true := by
  unfold SafeOut.on
  split
  case isTrue h => exact h
  case isFalse => rfl

/-- Two outputs updated in turn, be they one or two: both commands are what the update makes of them. -/
theorem updSo_pair_cmd {f : SafeOut → SafeOut} {b : Bool} (h : ∀ x, (f x).cmd = b) (s : State) (p n : Fin 8) :
    (updSo (updSo s p f) n f).lk.so[p].cmd = b ∧ (updSo (updSo s p f) n f).lk.so[n].cmd = b := by
  refine ⟨?_, by rw [updSo_same, h]⟩
  rw [updSo_lk_so, upd_get]
  split
  · exact h _
  · rw [updSo_same, h]

/-! ### Faults of an output -/

/-- A first fault is latched and the output is off (R306, R307). -/
theorem faultOut_first {s : State} {n : Fin 8} (k : Nat) (h : s.lk.so[n].fault = 0) :
    (faultOut s n k).lk.so[n].fault = k ∧ (faultOut s n k).lk.so[n].cmd = false := by
  rw [faultOut, updSo_same, if_pos h]
  exact ⟨rfl, SafeOut.off_cmd ..⟩

/-- A pad that differs keeps its level while the output, at fault, is off (R306). -/
theorem readbackFault_first {s : State} {n : Fin 8} (sideB level : Bool) (h : s.lk.so[n].fault = 0) :
    (readbackFault s n sideB level).lk.so[n].fault = 1 ∧ (readbackFault s n sideB level).lk.so[n].cmd = false
      ∧ (if sideB then (readbackFault s n sideB level).lk.so[n].sol = level
        else (readbackFault s n sideB level).lk.so[n].soh = level) := by
  obtain ⟨hfault, hcmd⟩ := faultOut_first 1 h
  rw [readbackFault, logDetect_lk, updSo_same]
  cases sideB <;> exact ⟨hfault, hcmd, rfl⟩

section

variable {s : State} {n : Fin 8}

/-! ### Output tests -/

section

variable (hk : soKind s n ≠ 0) (ht : s.lk.so[n].since + tFb s n ≤ s.mono)

include hk ht

/-- An output in use on which T_FB has passed since its command is to be judged (R305, R307). -/
theorem judged_settled : ¬(soKind s n = 0 ∨ s.mono < s.lk.so[n].since + tFb s n) :=
  not_or.mpr ⟨hk, Nat.not_lt.mpr ht⟩

theorem execOffTest_due (sideB ok : Bool) (hrun : suspended s 8 = false) : execOffTest n sideB ok s = .next
    (if ok then updSo s n fun x => if sideB then { x with sol := x.cmd } else { x with soh := x.cmd }
      else settle s (readbackFault s n sideB true)) := by
  refine congrArg Host.Outcome.next (if_neg ?_)
  rintro (h | h | h)
  · exact hk h
  · exact Nat.not_lt.mpr ht h
  · exact ne_true_of_eq_false hrun h

/-! ### Feedback -/

/-- Without feedback, or while its test is suspended, the command stands as confirmed (R307). -/
theorem execFeedbackTimeout_unread (a b : Bool)
    (h : fbEn s n = false ∨ (s.lk.so[n].cmd = false ∧ suspended s 16 = true)) : execFeedbackTimeout n a b s =
      .next (settle s (updSo s n fun x => { x with confOn := x.cmd, confOff := !x.cmd })) := by
  have unread : (!fbEn s n || (!s.lk.so[n].cmd && suspended s 16)) = true := by
    obtain hfb | ⟨hcmd, hsus⟩ := h
    · rw [hfb]
      rfl
    · rw [hcmd, hsus]
      exact Bool.or_true _
  exact congrArg Host.Outcome.next ((if_neg (judged_settled hk ht)).trans (if_pos unread))

/-- An output that is on is judged by its feedback alone (R307). -/
theorem execFeedbackTimeout_on (a b : Bool) (hfb : fbEn s n = true) (hcmd : s.lk.so[n].cmd = true) :
    execFeedbackTimeout n a b s = .next (let t := updSo s n fun x => { x with fba := a, fbb := b }
      if a || b then settle s (logDetect (faultOut t n 2) 0x0601 .lookout n)
      else settle s (updSo t n fun x => { x with confOn := true })) := by
  have read : ¬(!fbEn s n || (!s.lk.so[n].cmd && suspended s 16)) = true := by
    rw [hfb, hcmd]
    exact Bool.false_ne_true
  exact congrArg Host.Outcome.next ((if_neg (judged_settled hk ht)).trans ((if_neg read).trans (if_pos hcmd)))

/-- An output that is off is opened, or welded (R307). -/
theorem execFeedbackTimeout_off (a b : Bool) (hfb : fbEn s n = true) (hsus : suspended s 16 = false)
    (hcmd : s.lk.so[n].cmd = false) :
    execFeedbackTimeout n a b s = .next (let t := updSo s n fun x => { x with fba := a, fbb := b }
      if a && b then settle s (updSo t n fun x => { x with confOff := true }) else settle s (weld t n)) := by
  have read : ¬(!fbEn s n || (!s.lk.so[n].cmd && suspended s 16)) = true := by
    rw [hfb, hsus, Bool.and_false]
    exact Bool.false_ne_true
  exact congrArg Host.Outcome.next ((if_neg (judged_settled hk ht)).trans
    ((if_neg read).trans (if_neg (ne_true_of_eq_false hcmd))))

theorem execFeedbackTimeout_closed (hfb : fbEn s n = true) (hcmd : s.lk.so[n].cmd = true) :
    ∃ u, execFeedbackTimeout n false false s = .next (settle s u) ∧ u.lk.so[n].confOn = true
      ∧ u.lk.so[n].fault = s.lk.so[n].fault := by
  refine ⟨_, (execFeedbackTimeout_on hk ht false false hfb hcmd).trans
    (congrArg Host.Outcome.next (if_neg Bool.false_ne_true)), ?_⟩
  rw [updSo_same, updSo_same]
  exact ⟨rfl, rfl⟩

theorem execFeedbackTimeout_notClosed {a b : Bool} (hfb : fbEn s n = true) (hcmd : s.lk.so[n].cmd = true)
    (hf : s.lk.so[n].fault = 0) (h : (a || b) = true) :
    ∃ u, execFeedbackTimeout n a b s = .next (settle s u) ∧ u.lk.so[n].fault = 2 ∧ u.lk.so[n].cmd = false
      ∧ u.flt.lastCode = 0x0601 := by
  have hf' : (updSo s n fun x => { x with fba := a, fbb := b }).lk.so[n].fault = 0 := by rw [updSo_same, hf]
  obtain ⟨hfault, hoff⟩ := faultOut_first 2 hf'
  exact ⟨_, (execFeedbackTimeout_on hk ht a b hfb hcmd).trans (congrArg Host.Outcome.next (if_pos h)), hfault, hoff,
    logDetect_lastCode ..⟩

theorem execFeedbackTimeout_open (hfb : fbEn s n = true) (hsus : suspended s 16 = false)
    (hcmd : s.lk.so[n].cmd = false) :
    ∃ u, execFeedbackTimeout n true true s = .next (settle s u) ∧ u.lk.so[n].confOff = true
      ∧ u.lk.so[n].fault = s.lk.so[n].fault := by
  refine ⟨_, (execFeedbackTimeout_off hk ht true true hfb hsus hcmd).trans
    (congrArg Host.Outcome.next (if_pos rfl)), ?_⟩
  rw [updSo_same, updSo_same]
  exact ⟨rfl, rfl⟩

end

theorem execOffTest_stuck (sideB : Bool) (hk : soKind s n ≠ 0) (ht : s.lk.so[n].since + tFb s n ≤ s.mono)
    (hrun : suspended s 8 = false) (hf : s.lk.so[n].fault = 0) :
    ∃ u, execOffTest n sideB false s = .next (settle s u) ∧ u.lk.so[n].fault = 1 ∧ u.lk.so[n].cmd = false
      ∧ (if sideB then u.lk.so[n].sol = true else u.lk.so[n].soh = true) ∧ u.flt.lastCode = 0x0604 := by
  obtain ⟨hfault, hcmd, hpad⟩ := readbackFault_first sideB true hf
  exact ⟨_, (execOffTest_due hk ht sideB false hrun).trans (congrArg Host.Outcome.next (if_neg Bool.false_ne_true)),
    hfault, hcmd, hpad, logDetect_lastCode ..⟩

theorem execOutputReadbackFault_used (sideB : Bool) (hk : soKind s n ≠ 0) (hf : s.lk.so[n].fault = 0) :
    ∃ u, execOutputReadbackFault n sideB s = .next (settle s u) ∧ u.lk.so[n].fault = 1 ∧ u.lk.so[n].cmd = false
      ∧ (if sideB then u.lk.so[n].sol = !s.lk.so[n].cmd else u.lk.so[n].soh = !s.lk.so[n].cmd) :=
  ⟨_, congrArg Host.Outcome.next (if_neg hk), readbackFault_first sideB _ hf⟩

/-- A main contact that closes while its output stays off is a weld (R307). -/
theorem execLateWeld_welded {a b : Bool} (hfb : fbEn s n = true) (hsus : suspended s 16 = false) (hk : soKind s n ≠ 0)
    (ht : s.lk.so[n].since + tFb s n < s.mono) (hcmd : s.lk.so[n].cmd = false) (h : (a && b) = false) :
    execLateWeld n a b s =
      .next (settle s (weld (updSo s n fun x => { x with fba := a, fbb := b, confOff := false }) n)) := by
  refine congrArg Host.Outcome.next (if_pos ?_)
  rw [hfb, hsus, hcmd, h, decide_eq_true ⟨hk, ht⟩]
  rfl

/-- Two contacts of one contactor that disagree are a fault of the output (R307). -/
theorem execFeedbackDiscrepancy_disagree {a b : Bool} (hfb : fbEn s n = true) (hk : soKind s n ≠ 0) (h : a ≠ b)
    (hf : s.lk.so[n].fault = 0) : ∃ u, execFeedbackDiscrepancy n a b s = .next (settle s u)
      ∧ u.lk.so[n].fault = 4 ∧ u.lk.so[n].cmd = false := by
  have due : (fbEn s n && decide (soKind s n ≠ 0 ∧ a ≠ b)) = true := by
    rw [hfb, decide_eq_true ⟨hk, h⟩]
    rfl
  have hf' : (updSo s n fun x => { x with fba := a, fbb := b }).lk.so[n].fault = 0 := by rw [updSo_same, hf]
  exact ⟨_, congrArg Host.Outcome.next (if_pos due), faultOut_first 4 hf'⟩

end

section

variable {s : State} {o : Fin 2}

/-! ### Contactors -/

/-- A close request that nothing speaks against closes both contactors (R308). -/
theorem judgeClose_granted {v : Nat} (h : closeRefusal s o v = 0) : (judgeClose s o v).lk.outlet[o].closed = true
    ∧ (judgeClose s o v).lk.so[soPos s o].cmd = true ∧ (judgeClose s o v).lk.so[soNeg s o].cmd = true := by
  rw [judgeClose, h]
  exact ⟨congrArg LkOutlet.closed (updLko_same ..),
    updSo_pair_cmd (SafeOut.on_cmd s.mono) s (soPos s o) (soNeg s o)⟩

/-- A refused request leaves the number of its first failed condition (R308, R323). -/
theorem judgeClose_refused {v k : Nat} (h : closeRefusal s o v = k + 1) :
    judgeClose s o v = updLko s o fun x => { x with wait := none, refused := k + 1 } := by
  rw [judgeClose, h]
  rfl

theorem openContactors_opened (s : State) (o : Fin 2) : (openContactors s o).lk.outlet[o].closed = false
    ∧ (openContactors s o).lk.so[soPos s o].cmd = false ∧ (openContactors s o).lk.so[soNeg s o].cmd = false := by
  rw [openContactors, updLko_same]
  exact ⟨rfl, updSo_pair_cmd (SafeOut.off_cmd s.mono) s (soPos s o) (soNeg s o)⟩

theorem execContactorCloseRequest_withheld (h : helmMayClose s o (vOutMv s o) = false) :
    execContactorCloseRequest o s = .next s :=
  congrArg Host.Outcome.next (if_pos (by rw [h]; rfl))

section

variable (hm : helmMayClose s o (vOutMv s o) = true)

include hm

/-- Helm's request reaches Lookout, which makes it wait or judges it (Table 12-4a). -/
theorem execContactorCloseRequest_asked : execContactorCloseRequest o s = .next
    (if closeWaits s o then updLko s o fun x => { x with wait := some ⟨vOutMv s o⟩ }
      else settle s (judgeClose s o (vOutMv s o))) :=
  congrArg Host.Outcome.next (if_neg (by rw [hm]; decide))

theorem execContactorCloseRequest_waits (hw : closeWaits s o = true) :
    execContactorCloseRequest o s = .next (updLko s o fun x => { x with wait := some ⟨vOutMv s o⟩ }) := by
  rw [execContactorCloseRequest_asked hm, if_pos hw]

theorem execContactorCloseRequest_judged (hw : closeWaits s o = false) :
    execContactorCloseRequest o s = .next (settle s (judgeClose s o (vOutMv s o))) := by
  rw [execContactorCloseRequest_asked hm, if_neg (ne_true_of_eq_false hw)]

end

theorem execCloseRequestExpiry_waiting {w : CloseWait} (h : (s.lk.outlet[o]).wait = some w) :
    execCloseRequestExpiry o s = .next (updLko s o fun x => { x with wait := none, refused := 7 }) :=
  congrArg Host.Outcome.next (if_pos (by rw [h]; rfl))

/-! ### Locks -/

theorem execLockRequest_authorised (hst : s.outlet[o].st = .authorised) (ht : outType s o ≠ 0) :
    ∃ u, execLockRequest o s = .next (settle s u) ∧ u.lk.outlet[o].lock = true
      ∧ u.lk.outlet[o].unlockAsked = false ∧ u.outlet[o].tmr.lock = true := by
  refine ⟨driveLock s o, congrArg Host.Outcome.next (if_pos ⟨hst, ht⟩), ?_⟩
  rw [driveLock, updOutlet_lk, updLko_same, updOutlet_same]
  exact ⟨rfl, rfl, rfl⟩

/-- SF5's conditions are about the outlet's contactors and voltages (R310, R321). -/
theorem sf5Ok_congr {t : State} (hcfg : t.cfg = s.cfg) (hso : t.lk.so = s.lk.so)
    (hvl : (t.lk.outlet[o]).vL = (s.lk.outlet[o]).vL) (hpoles : sf5Poles t.lk.outlet[o] = sf5Poles s.lk.outlet[o]) :
    sf5Ok t o = sf5Ok s o := by
  simp only [sf5Ok, outletOpen, readsOpen, fbEn, soPos, soNeg, cfgB, cfgN, cfgWord, hcfg, hso, hvl, hpoles]
  rfl

theorem below60_congr {t : State} (hcfg : t.cfg = s.cfg) (hsx : t.sx = s.sx)
    (hv : (t.outlet[o]).vMer = (s.outlet[o]).vMer) : below60 t o = below60 s o := by
  simp only [below60, outletStage, vVeh, vvehSrc, vFs, cfgN, cfgWord, hcfg, hsx, hv]
  rfl

end

/-- A lock is released that is asked to be and that nothing withholds (R163, R310). -/
def releaseDue (s : State) (o : Fin 2) : Bool :=
  (s.lk.outlet[o]).unlockAsked && (s.lk.outlet[o]).lock && sf5Ok s o
    && (decide (s.outlet[o].st ≠ .faulted) || below60 s o)

/-- One outlet's share of `releaseLocks`. -/
def releaseLock (s : State) (o : Fin 2) : State :=
  if releaseDue s o then
    updOutlet (updLko s o fun x => { x with lock := false }) o fun x => { x with tmr := { x.tmr with lock := true } }
  else s

theorem releaseLocks_eq (s : State) : releaseLocks s = (List.finRange 2).foldl releaseLock s := rfl

/-- What the release of one outlet's lock reads and changes. -/
def lockView (o : Fin 2) (s : State) : LkOutlet × Outlet × Bool × Bool :=
  (s.lk.outlet[o], s.outlet[o], sf5Ok s o, below60 s o)

theorem releaseLock_other (s : State) {p o : Fin 2} (ne : p ≠ o) : lockView o (releaseLock s p) = lockView o s := by
  unfold releaseLock
  split
  case isFalse => rfl
  case isTrue =>
    have hlk := (updLko_sameOff s p fun x => { x with lock := false }).other ne.symm
    have hout := (updOutlet_sameOff s p fun x => { x with tmr := { x.tmr with lock := true } }).other ne.symm
    unfold lockView
    refine Prod.ext hlk (Prod.ext hout (Prod.ext (sf5Ok_congr rfl rfl ?_ ?_) (below60_congr rfl rfl ?_)))
    · exact congrArg LkOutlet.vL hlk
    · exact congrArg sf5Poles hlk
    · exact congrArg Outlet.vMer hout

/-- Each outlet's lock is released by itself, and T_LOCK starts with the release (Table 06-5). -/
theorem releaseLocks_same (s : State) (o : Fin 2) :
    (releaseLocks s).lk.outlet[o] =
        (if releaseDue s o then { s.lk.outlet[o] with lock := false } else s.lk.outlet[o])
      ∧ (releaseLocks s).outlet[o] =
        if releaseDue s o then { s.outlet[o] with tmr := { s.outlet[o].tmr with lock := true } } else s.outlet[o] := by
  obtain ⟨u, before, after⟩ := foldl_visits (π := lockView o) (fun u _ ne => releaseLock_other u ne)
    (List.mem_finRange o) (List.nodup_finRange 2) s
  rw [← releaseLocks_eq] at after
  simp only [lockView, Prod.mk.injEq] at before after
  obtain ⟨hlk, hout, hsf, h60⟩ := before
  obtain ⟨hlk', hout', -, -⟩ := after
  have hdue : releaseDue u o = releaseDue s o := by
    rw [releaseDue, hlk, hout, hsf, h60, releaseDue]
  rw [hlk', hout', releaseLock, hdue]
  by_cases due : releaseDue s o = true
  · rw [if_pos due, if_pos due, if_pos due, updOutlet_lk, updLko_same, updOutlet_same, updLko_outlet, hlk,
      hout]
    exact ⟨rfl, rfl⟩
  · rw [if_neg due, if_neg due, if_neg due]
    exact ⟨hlk, hout⟩

section

variable {s : State} {o : Fin 2}

theorem releaseDue_of (hasked : (s.lk.outlet[o]).unlockAsked = true) (hlock : (s.lk.outlet[o]).lock = true)
    (hsf5 : sf5Ok s o = true) (hst : s.outlet[o].st ≠ .faulted ∨ below60 s o = true) : releaseDue s o = true := by
  rw [releaseDue, hasked, hlock, hsf5]
  simpa using hst

theorem releaseDue_withheld (h : sf5Ok s o = false ∨ s.outlet[o].st = .faulted ∧ below60 s o = false) :
    releaseDue s o = false := by
  obtain hsf5 | ⟨hst, hhigh⟩ := h
  · rw [releaseDue, hsf5, Bool.and_false, Bool.false_and]
  · rw [releaseDue, hhigh, decide_eq_false (not_not.mpr hst), Bool.or_false, Bool.and_false]

/-- Helm's wish to unlock changes nothing that the release reads but the wish itself. -/
theorem askUnlock_reads (s : State) (o : Fin 2) :
    sf5Ok (updLko s o fun x => { x with unlockAsked := true }) o = sf5Ok s o
      ∧ below60 (updLko s o fun x => { x with unlockAsked := true }) o = below60 s o := by
  refine ⟨sf5Ok_congr rfl rfl (updLko_keeps s o o fun _ => rfl) ?_, below60_congr rfl rfl rfl⟩
  exact updLko_keeps (π := sf5Poles) s o o fun _ => rfl

theorem execUnlockRequest_asked (h : s.outlet[o].st = .unlock ∨ s.outlet[o].st = .faulted) :
    execUnlockRequest o s = .next (settle s (askUnlock s o)) := congrArg Host.Outcome.next (if_pos h)

theorem execUnlockRequest_released (hlock : (s.lk.outlet[o]).lock = true) (hsf5 : sf5Ok s o = true)
    (h : s.outlet[o].st = .unlock ∨ s.outlet[o].st = .faulted ∧ below60 s o = true) :
    ∃ u, execUnlockRequest o s = .next (settle s u) ∧ u.lk.outlet[o].lock = false
      ∧ u.outlet[o].tmr.lock = true := by
  obtain ⟨hsf, h60⟩ := askUnlock_reads s o
  have free : s.outlet[o].st ≠ .faulted ∨ below60 s o = true :=
    h.imp (ne_of_eq_of_ne · OutSt.noConfusion) And.right
  have due : releaseDue (updLko s o fun x => { x with unlockAsked := true }) o = true :=
    releaseDue_of (by rw [updLko_same]) (by rwa [updLko_same]) (hsf.trans hsf5) (by rwa [h60])
  obtain ⟨hlk, hout⟩ := releaseLocks_same (updLko s o fun x => { x with unlockAsked := true }) o
  refine ⟨_, execUnlockRequest_asked (h.imp_right And.left), ?_⟩
  rw [askUnlock, hlk, hout, if_pos due, if_pos due]
  exact ⟨rfl, rfl⟩

theorem execUnlockRequest_withheld (hlock : (s.lk.outlet[o]).lock = true)
    (hst : s.outlet[o].st = .unlock ∨ s.outlet[o].st = .faulted)
    (h : sf5Ok s o = false ∨ s.outlet[o].st = .faulted ∧ below60 s o = false) :
    ∃ u, execUnlockRequest o s = .next (settle s u) ∧ u.lk.outlet[o].lock = true
      ∧ u.lk.outlet[o].unlockAsked = true := by
  obtain ⟨hsf, h60⟩ := askUnlock_reads s o
  have stays : ¬releaseDue (updLko s o fun x => { x with unlockAsked := true }) o = true :=
    ne_true_of_eq_false (releaseDue_withheld (by rwa [hsf, h60]))
  refine ⟨_, execUnlockRequest_asked hst, ?_⟩
  rw [askUnlock, (releaseLocks_same ..).1, if_neg stays, updLko_same]
  exact ⟨hlock, rfl⟩

/-- LOCK_FB_LOST is a fault of an outlet whose vehicle is to stay locked in (R169). -/
theorem execLockFbLost_eq (s : State) (o : Fin 2) : execLockFbLost o s =
    .next (settle s (if s.outlet[o].st.locked then outletFault (updLko s o fun x => { x with lockFb := false }) o .lock
      else updLko s o fun x => { x with lockFb := false })) := rfl

end

/-- Settles O8: clause by clause, from what each command makes of the output, the contactors or the lock it names. -/
theorem safetyOutputCompletes : Obligations.SafetyOutputCompletes := by
  unfold Obligations.SafetyOutputCompletes
  refine ⟨fun s n sideB hk ht hrun => execOffTest_due hk ht sideB true hrun,
    fun s n sideB hk ht hrun hf => execOffTest_stuck sideB hk ht hrun hf,
    fun s n sideB hk hf => execOutputReadbackFault_used sideB hk hf,
    fun s n a b hk ht h => execFeedbackTimeout_unread hk ht a b h,
    fun s n hk ht hfb hcmd => execFeedbackTimeout_closed hk ht hfb hcmd,
    fun s n a b hk ht hfb hcmd hf h => execFeedbackTimeout_notClosed hk ht hfb hcmd hf h,
    fun s n hk ht hfb hsus hcmd => execFeedbackTimeout_open hk ht hfb hsus hcmd,
    fun s n a b hk ht hfb hsus hcmd h => ?_,
    fun s n a b hfb hsus hk ht hcmd h => execLateWeld_welded hfb hsus hk ht hcmd h,
    fun s n a b hfb hk h hf => execFeedbackDiscrepancy_disagree hfb hk h hf,
    fun s o h => execContactorCloseRequest_withheld h,
    fun s o hm hw => execContactorCloseRequest_waits hm hw,
    fun s o hm hw h => ⟨_, execContactorCloseRequest_judged hm hw, judgeClose_granted h⟩,
    fun s o k hm hw h => ?_,
    fun s o => ⟨_, rfl, openContactors_opened s o⟩,
    fun s o w h => execCloseRequestExpiry_waiting h,
    fun s o hst ht => execLockRequest_authorised hst ht,
    fun s o hlock hsf5 h => execUnlockRequest_released hlock hsf5 h,
    fun s o hlock hst h => execUnlockRequest_withheld hlock hst h,
    fun s o h => ?_, fun s o h => ?_, fun s on => rfl, fun s on => rfl⟩
  · refine (execFeedbackTimeout_off hk ht a b hfb hsus hcmd).trans (congrArg Host.Outcome.next (if_neg ?_))
    exact ne_true_of_eq_false h
  · rw [exec_contactorCloseRequest, execContactorCloseRequest_judged hm hw, judgeClose_refused h]
  · rw [exec_lockFbLost, execLockFbLost_eq, if_neg (ne_true_of_eq_false h)]
  · rw [exec_lockFbLost, execLockFbLost_eq, if_pos h]

end Sys2Proof.Machine
end

section
/-!
SUPPORT. Sounding: an effect for each case of a command, from the half-period to the self-test (R319 to R322; O9).
-/
namespace Sys2Proof.Machine

@[simp] theorem updSnd_same (s : State) (o : Fin 2) (f : Sounding → Sounding) :
    (updSnd s o f).lk.outlet[o] = { s.lk.outlet[o] with snd := f (s.lk.outlet[o]).snd } := upd_same ..

theorem updSnd_other (s : State) {p o : Fin 2} (f : Sounding → Sounding) (h : p ≠ o) :
    (updSnd s p f).lk.outlet[o] = s.lk.outlet[o] := upd_other _ _ _ _ h

/-- The half-period of each outlet is filed and the next one begins, with the injection changed over (R319). -/
theorem execSoundingHalfPeriod_files (s : State) : ∃ t, execSoundingHalfPeriod s = .next t ∧ t.lk.inj = !s.lk.inj
    ∧ ∀ o : Fin 2, t.lk.outlet[o].snd.cm = [] ∧ t.lk.outlet[o].snd.halves =
      (halfPeriod s o s.lk.outlet[o].snd.cm (!s.lk.inj) :: s.lk.outlet[o].snd.halves).take 8 := by
  unfold execSoundingHalfPeriod
  extract_lets next ended
  refine ⟨_, rfl, rfl, fun o => ?_⟩
  have hended : ended.lk.outlet[o] = (next s o).lk.outlet[o] := by
    match o with
    | 0 => exact updSnd_other (next s 0) _ (by decide)
    | 1 =>
      have first : (next s 0).lk.outlet[(1 : Fin 2)] = s.lk.outlet[(1 : Fin 2)] := updSnd_other s _ (by decide)
      unfold ended next
      rw [updSnd_same, first, updSnd_same]
  dsimp only
  rw [hended, updSnd_same]
  exact ⟨rfl, rfl⟩

/-- An idle outlet takes no notice of a verdict (R160, R320). -/
theorem tellVerdict_idle {s : State} {o : Fin 2} (old v : Verdict) (trip : Bool) (h : s.outlet[o].st = .idle) :
    tellVerdict s o old v trip = s := by
  rw [tellVerdict, h]

/-- The verdict of an idle outlet is that of its last two periods (R320). -/
theorem execSoundingVerdict_idle {s : State} {o : Fin 2} (hrun : (s.lk.outlet[o]).snd.stRun = false)
    (hidle : s.outlet[o].st = .idle) : ∃ u, execSoundingVerdict o s = .next (settle s u)
      ∧ (u.lk.outlet[o].snd.verdict, u.lk.outlet[o].snd.trip) =
        verdictOf s o (s.lk.outlet[o].snd.verdict, s.lk.outlet[o].snd.trip)
          ((periodValue s o :: (s.lk.outlet[o]).snd.recent).take 2) u.lk.outlet[o].snd.unsettled := by
  unfold execSoundingVerdict
  extract_lets x p recent uns v judged
  refine ⟨judged, congrArg Host.Outcome.next ?_, ?_⟩
  · rw [if_neg (ne_true_of_eq_false hrun), tellVerdict_idle (s := judged) _ _ _ hidle]
  · rw [updSnd_same]

/-- The pole voltages are means over the last 4 ms, this one included (R321). -/
theorem execPoleVoltageSample_means (s : State) (o : Fin 2) {p n : Nat} (hp : p ≤ 1200000) (hn : n ≤ 1200000) :
    ∃ u, execPoleVoltageSample o p n s = .next (settle s u)
      ∧ u.lk.outlet[o].uP = poleMv s o ((((p, n) :: s.lk.outlet[o].pins).take 4).map (·.1))
      ∧ u.lk.outlet[o].uN = poleMv s o ((((p, n) :: s.lk.outlet[o].pins).take 4).map (·.2))
      ∧ u.lk.outlet[o].vL = u.lk.outlet[o].uP - u.lk.outlet[o].uN := by
  unfold execPoleVoltageSample
  rw [min_eq_right hp, min_eq_right hn]
  refine ⟨_, rfl, ?_⟩
  rw [updLko_same]
  exact ⟨rfl, rfl, rfl⟩

/-! ### The self-test -/

theorem execSoundingSelftestStart_starts {s : State} (o : Fin 2) (h : suspended s 10 = false) :
    ∃ t, execSoundingSelftestStart o s = .next t ∧ t.lk.outlet[o].snd.stRun = true
      ∧ t.lk.outlet[o].snd.stCnt = satInc 16 s.lk.outlet[o].snd.stCnt
      ∧ t.lk.outlet[o].snd.rPrev = s.lk.outlet[o].snd.rIso := by
  refine ⟨startSelfTest s o, congrArg Host.Outcome.next (if_neg (ne_true_of_eq_false h)), ?_⟩
  rw [startSelfTest, updSnd_same]
  exact ⟨rfl, rfl, rfl⟩

/-- The self-test passes on a settled last period that is not open and within the band (R322). -/
def selfTestOk (s : State) (o : Fin 2) : Bool :=
  match periodValue s o with
  | some (some r) => selfTestPasses s o r
  | _ => false

theorem execSoundingSelftestEnd_ends {s : State} {o : Fin 2} (hrun : (s.lk.outlet[o]).snd.stRun = true) :
    ∃ u, execSoundingSelftestEnd o s = .next (settle s u) ∧ u.lk.outlet[o].snd.stRun = false
      ∧ u.lk.outlet[o].snd.stFail = !selfTestOk s o := by
  unfold execSoundingSelftestEnd
  extract_lets x ok ended
  have hended : (ended.lk.outlet[o]).snd.stRun = false ∧ (ended.lk.outlet[o]).snd.stFail = !selfTestOk s o := by
    unfold ended
    rw [updSnd_same]
    exact ⟨rfl, rfl⟩
  refine ⟨_, congrArg Host.Outcome.next (if_neg (by rw [hrun]; decide)), ?_⟩
  split
  · split <;> exact hended
  · exact hended

theorem execSoundingSelftestRetry_retries {s : State} {o : Fin 2} (hfail : (s.lk.outlet[o]).snd.stFail = true)
    (hrun : (s.lk.outlet[o]).snd.stRun = false) : execSoundingSelftestRetry o s = .next (startSelfTest s o) := by
  rw [execSoundingSelftestRetry, hfail, hrun]
  rfl

/-- Settles O9: each command's effect on the outlet's Sounding; the self-test's end judges its last period. -/
theorem soundingCompletes : Obligations.SoundingCompletes := by
  unfold Obligations.SoundingCompletes
  refine ⟨fun s => execSoundingHalfPeriod_files s, fun s o hrun hidle => execSoundingVerdict_idle hrun hidle,
    fun s o p n hp hn => execPoleVoltageSample_means s o hp hn, fun s o h => execSoundingSelftestStart_starts o h,
    fun s o r hrun hr => ?_, fun s o hrun none => ?_,
    fun s o hfail hrun => execSoundingSelftestRetry_retries hfail hrun⟩
  · have ok : selfTestOk s o = selfTestPasses s o r := by rw [selfTestOk, hr]
    exact ok ▸ execSoundingSelftestEnd_ends hrun
  · have failed : selfTestOk s o = false := by
      unfold selfTestOk
      split
      case h_1 r hr => exact absurd hr (none r)
      case h_2 => rfl
    obtain ⟨u, hu, hstop, hfail⟩ := execSoundingSelftestEnd_ends hrun
    exact ⟨u, hu, hstop, by rw [hfail, failed]; rfl⟩

end Sys2Proof.Machine
end

section
/-!
SUPPORT. Every command answers (O38), a step is the front command's (O36), and no two names of the package share a ball
(R480 to R483; O52).
-/
namespace Sys2Proof.Machine

/-! ### Every command answers -/

/-- No command's meaning is a fault or a refusal. -/
theorem exec_answers (c : Instr) (s : State) : ∃ t, exec c s = .next t := by
  cases c with
  | _ => exact ⟨_, rfl⟩

/-- The queue is in no command's frame. -/
theorem pending_not_written (c : Instr) : Part.pending ∉ writes c := fun h => by
  have h := List.elem_eq_true_of_mem h
  cases c <;> exact Bool.noConfusion h

/-- Settles O38: every arm answers a next state (`exec_answers`), and the queue stands in no frame. -/
theorem everyCommandCompletes : Obligations.EveryCommandCompletes := by
  unfold Obligations.EveryCommandCompletes
  intro c s
  obtain ⟨t, ht⟩ := exec_answers c s
  exact ⟨t, ht, same_of_not_written ht (pending_not_written c)⟩

/-! ### The front of the queue -/

theorem step_cons {c : Instr} {rest : List Instr} {s : State} (h : s.pending = c :: rest) :
    step s = exec c { s with pending := rest } := by
  rw [step, h]

/-- Settles O36: the state that a step hands to the command has the rest of the queue. -/
theorem stepRunsTheFrontCommand : Obligations.StepRunsTheFrontCommand := by
  unfold Obligations.StepRunsTheFrontCommand
  exact fun c rest s => step_cons rfl

/-! ### Balls -/

/-- A ball of the 34 by 34 array. -/
def OnArray (b : Ball) : Prop := 1 ≤ b.1 ∧ b.1 ≤ 34 ∧ 1 ≤ b.2 ∧ b.2 ≤ 34

/-- Setting a bit that is clear keeps every bit that is set. -/
theorem testBit_add_two_pow : ∀ {i n j : Nat}, n.testBit i = false → n.testBit j = true → (n + 2 ^ i).testBit j = true
  | 0, n, 0, hi, hj => absurd (hi.symm.trans hj) (by decide)
  | 0, n, j + 1, hi, hj => by
    have even : (n + 2 ^ 0) / 2 = n / 2 := by
      simp only [Nat.testBit_zero, decide_eq_false_iff_not] at hi
      omega
    rwa [Nat.testBit_add_one, even, ← Nat.testBit_add_one]
  | i + 1, n, 0, hi, hj => by
    simp only [Nat.testBit_zero, decide_eq_true_eq] at hj ⊢
    omega
  | i + 1, n, j + 1, hi, hj => by
    have half : (n + 2 ^ (i + 1)) / 2 = n / 2 + 2 ^ i := by omega
    rw [Nat.testBit_add_one] at hi hj ⊢
    rw [half]
    exact testBit_add_two_pow hi hj

/-- A mask marks the balls of a list that lie in the array, and no list with a repeat has one. -/
theorem ballMask_sound : ∀ {l : List Ball} {m : Nat}, ballMask l = some m →
    l.Nodup ∧ (∀ b ∈ l, OnArray b) ∧ ∀ b ∈ l, m.testBit (ballBit b) = true
  | [], m, _ => ⟨List.nodup_nil, by simp, by simp⟩
  | b :: l, m, h => by
    rw [ballMask] at h
    cases hl : ballMask l with
    | none => simp [hl] at h
    | some n =>
      obtain ⟨hnodup, harray, hmarked⟩ := ballMask_sound hl
      simp only [hl] at h
      split at h
      · rename_i hb
        obtain ⟨hr, hr', hc, hc', hfree⟩ := hb
        obtain rfl := Option.some.inj h
        refine ⟨List.nodup_cons.mpr ⟨fun hmem => ?_, hnodup⟩, ?_, ?_⟩
        · simp [hmarked b hmem] at hfree
        · exact List.forall_mem_cons.mpr ⟨⟨hr, hr', hc, hc'⟩, harray⟩
        · intro x hx
          rcases List.mem_cons.mp hx with rfl | hx
          · rw [Nat.add_comm, Nat.testBit_two_pow_add_eq, hfree, Bool.not_false]
          · exact testBit_add_two_pow hfree (hmarked x hx)
      · cases h

/-- A ball that no signal and no supply of the tables names carries VSS (R483). -/
theorem supplyOf_unnamed {b : Ball} (h : b ∉ namedBalls) : supplyOf b = some .vss := by
  have hsup : (supplyBalls.find? fun x => x.2.contains b) = none := by
    rw [List.find?_eq_none]
    intro x hx hb
    exact h (List.mem_append_right _ (List.mem_flatMap.mpr ⟨x, hx, List.contains_iff_mem.mp hb⟩))
  have hname : namedBalls.contains b = false := by simpa using h
  simp only [supplyOf, hsup, hname]
  rfl

/-- The tables' names have a mask: each ball lies in the array, none comes twice (R481 to R483). -/
theorem ballMask_namedBalls : (ballMask namedBalls).isSome = true := by decide +kernel

/-- Settles O52: the names have a mask, which only a list of distinct balls of the array has. -/
theorem everyBallHasOneMeaning : Obligations.EveryBallHasOneMeaning := by
  unfold Obligations.EveryBallHasOneMeaning
  obtain ⟨m, hm⟩ := Option.isSome_iff_exists.mp ballMask_namedBalls
  obtain ⟨hnodup, harray, -⟩ := ballMask_sound hm
  exact ⟨hnodup, harray, fun b hb => supplyOf_unnamed hb⟩

end Sys2Proof.Machine
end

section
/-!
SUPPORT. An operation that waits for Meridian (R23, R401; O44), and what an operation of a role that it is not open to does
(R395; O47).
-/
namespace Sys2Proof.Machine

variable {s : State} {f : Frame} {c : HostCmd} {x : Op}

/-! ### An operation that waits for Meridian -/

theorem tryStart_held (hx : s.host.ops.find? (·.opId == x.opId) = some x) (h : mayStart s x = false) :
    tryStart s x.opId = s := by
  simp [tryStart, hx, h]

/-- A read of one of Meridian's words, accepted and not started. -/
def waitingRead : Op := { opId := 0, sid := 1, role := 0, cls := 2, cmd := .readParam (regAddr 0x30 0x700 0x000) 1 }

/-- Nothing stands before the read, and Meridian's mailbox holds 16 requests (R23). -/
def mailboxFull : State :=
  { State.reset with
    host := { State.reset.host with ops := [waitingRead] }
    mer := { State.reset.mer with mail := List.replicate 16 .readTime } }

theorem mayStart_mailboxFull : mayStart mailboxFull waitingRead = false := by decide +kernel

/-- A start marks the operation as started. -/
theorem startOp_mailboxFull : (startOp mailboxFull waitingRead).host.ops ≠ mailboxFull.host.ops := by decide +kernel

/-! ### A role that a command is not open to -/

/-- Such a command is not admitted (R395, checks 1 to 3). -/
theorem admission_denied {role : Fin 4} (sid : Nat) (hc : ∀ a ws, c ≠ .writeParam a ws) (hr : role ∉ c.roles) :
    admission s role sid f c ≠ .ok := by
  have hbad : (!c.roles.contains role) = true := by simpa using hr
  unfold admission
  cases c with
  | writeParam a ws => exact absurd rfl (hc a ws)
  | _ =>
    simp only [hbad]
    split_ifs <;> simp

/-- A request that is not admitted only gets its reply. -/
theorem request_keeps_of_not_admitted
    (h : ∀ x t, frameSession s f c.code c.body = some x → admission t x.role x.sid f c ≠ .ok) :
    Keeps [.hostSessions, .hostRest] s (request s f c) := by
  by_cases hr : ∃ x, Received s f c.code c.body x
  · obtain ⟨x, hx⟩ := hr
    obtain ⟨y, hy, hsid, hrole, -⟩ := hx.noted
    have hadm := h x (noteFrame s f) hx.session
    unfold request
    rw [receive_received hx, hy, Option.getD_some, hrole, hsid]
    split
    · contradiction
    · exact ((keep_noteFrame s f).mono (by decide)).trans (keep_reply ..)
  · exact receive_keeps_of_not_received hr _

/-- A row of Table 16-6 is the request of the operation that its frame asks for. -/
theorem exec_operationOf {i : Instr} (h : operationOf i = some (f, c)) : exec i s = .next (request s f c) := by
  cases i with
  | _ => cases h <;> rfl

/-- Refutes O44: an operation that Meridian is to carry out waits while 16 requests are outstanding (R23), although nothing
of its session stands before it. -/
theorem not_operationsStartInOrder : ¬ Obligations.OperationsStartInOrder := by
  unfold Obligations.OperationsStartInOrder
  rintro ⟨-, starts, -⟩
  have started := starts mailboxFull waitingRead rfl rfl fun y hy => by cases hy
  rw [exec_opStart, execOpStart, tryStart_held rfl mayStart_mailboxFull] at started
  exact startOp_mailboxFull (congrArg (fun t => t.host.ops) (Host.Outcome.next.inj started)).symm

/-- Settles O47: the row asks for the operation of its frame, and a role that Table 16-6 does not list is not admitted. -/
theorem deniedRoleHasNoEffect : Obligations.DeniedRoleHasNoEffect := by
  unfold Obligations.DeniedRoleHasNoEffect
  intro i f c x s t hi hc hx hr ht
  rw [exec_operationOf hi] at ht
  cases ht
  refine (request_keeps_of_not_admitted fun y u hy => ?_).same
  obtain rfl := Option.some.inj (hy.symm.trans hx)
  exact admission_denied _ hc hr

end Sys2Proof.Machine
end

section
/-!
SUPPORT. Sessions: HELLO, the authentication exchange, the ends of sessions and challenges, and the control commands (R391
to R394, R400, R405; O30).
-/
namespace Sys2Proof.Machine

section

variable {s u t : State} {f : Frame} {x : Session} {code : Nat} {body : Bytes}

/-! ### Transfers and sessions that end -/

/-- A transfer that ends concerns the transfers and the firmware targets alone (R412). -/
theorem dropTransfers_host (s : State) (p : Transfer → Bool) :
    (dropTransfers s p).host = { s.host with transfers := s.host.transfers.filter fun x => !p x } := by
  unfold dropTransfers
  extract_lets gone host t
  exact foldl_same (π := State.host) (fun u y => by split <;> rfl) gone t

theorem endSession_host (s : State) (sid : Nat) : (endSession s sid).host = { s.host with
    sessions := s.host.sessions.filter (·.sid ≠ sid), transfers := s.host.transfers.filter fun x => !(x.sid == sid) } := by
  rw [endSession, dropTransfers_host]

theorem findSession_endSession (s : State) (sid : Nat) : findSession (endSession s sid) sid = none := by
  rw [findSession, endSession_host, List.find?_eq_none]
  intro x hx
  simpa using (List.mem_filter.mp hx).2

theorem endSession_transfers (s : State) (sid : Nat) : ∀ x ∈ (endSession s sid).host.transfers, x.sid ≠ sid := by
  rw [endSession_host]
  intro x hx
  simpa using (List.mem_filter.mp hx).2

/-! ### HELLO -/

theorem execHello_outside (hsid : f.sid = 0) (ho : transportOpen s f.via = true) (hb : bareOk f (helloBody 0) = true)
    (hf : frameFits f = true) :
    execHello f s = .next (sendBare s f.via 0 0x01 f.cls .ok (helloPayload s)) := by
  simp only [execHello, hsid, ho, hb, hf, Bool.not_true, Bool.false_eq_true, if_true, if_false]

/-- A frame of a session has the session's SID, which is never 0 (R393). -/
theorem Received.sid_ne_zero (h : Received s f code body x) : f.sid ≠ 0 := by
  intro hsid
  have hs := h.session
  rw [frameSession, if_pos (.inl hsid)] at hs
  cases hs

theorem execHello_inside (h : Received s f 0x01 (helloBody 0) x) (hf : frameFits f = true) :
    execHello f s = .next (reply (noteFrame s f) f 0x01 false .ok 0 (helloPayload (noteFrame s f))) := by
  simp only [execHello, if_neg h.sid_ne_zero, receive_received h, hf, if_true]

theorem execHelloClose_ends (h : Received s f 0x01 (helloBody 1) x) (hf : frameFits f = true) :
    ∃ t, execHelloClose f s = .next t ∧ findSession t f.sid = none := by
  simp only [execHelloClose, if_neg h.sid_ne_zero, receive_received h, hf, if_true]
  exact ⟨_, rfl, findSession_endSession ..⟩

/-! ### The authentication exchange -/

theorem readyForUse_st {k : Slot} (h : readyForUse k = true) : k.st = .valid := by
  simp only [readyForUse, Bool.and_eq_true, decide_eq_true_eq] at h
  exact h.1.1

theorem execAuthChallenge_opens {role : Fin 4} {nh : Bytes} (hsid : f.sid = 0) (ho : transportOpen s f.via = true)
    (hb : bareOk f (toBe 1 role ++ nh) = true) (hheld : roleHeldOff s role = false) (hf : frameFits f = true)
    (hlen : nh.length = 16) (hses : s.host.sessions.length < 8) (hcha : s.host.challenges.length < 2)
    (hready : readyForUse s.locker.slot[roleSlot role] = true)
    (hrole : s.locker.slot[roleSlot role].roles.testBit 4 = true) :
    execAuthChallenge f role nh s = .next (openChallenge s f role nh) := by
  have room : ¬(8 ≤ s.host.sessions.length ∨ 2 ≤ s.host.challenges.length) := by omega
  have usable : ¬s.locker.slot[roleSlot role].st = .unusable := by
    rw [readyForUse_st hready]
    decide
  simp only [execAuthChallenge, hsid, ho, hb, hheld, hf, hlen, hready, hrole, if_neg room, if_neg usable, ne_eq,
    not_true_eq_false, Bool.not_true, bne_self_eq_false, Bool.or_self, Bool.false_eq_true, if_false]

theorem execAuthProve_opens {ph : Bytes} {c : Challenge} (hc : s.host.challenges.find? (·.sid == f.sid) = some c)
    (ho : transportOpen s f.via = true) (hb : bareOk f ph = true) (hf : frameFits f = true) (hlen : ph.length = 32)
    (hready : readyForUse s.locker.slot[roleSlot c.role] = true)
    (hproof : ph = proofHost s.locker.slot[roleSlot c.role].material c.sid c.nh c.nm)
    (hheld : roleHeldOff s c.role = false) (hses : s.host.sessions.length < 8) :
    execAuthProve f ph s = .next (openSessionOf (dropChallenge s c.sid) f c s.locker.slot[roleSlot c.role].material) := by
  have proved : (ph == proofHost s.locker.slot[roleSlot c.role].material c.sid c.nh c.nm) = true := beq_iff_eq.mpr hproof
  simp only [execAuthProve, hc, ho, hb, hf, hlen, hready, proved, hheld, hses, Bool.not_true, Bool.not_false,
    bne_self_eq_false, Bool.or_self, Bool.and_self, Bool.false_eq_true, decide_true, if_true, if_false]

/-! ### Time-outs -/

theorem execSessionIdleTimeout_idle {sid : Nat} (hx : findSession s sid = some x)
    (hidle : x.lastRx + cfgN s 0x01 0 0x100 31 16 * 1000 ≤ s.mono) :
    execSessionIdleTimeout sid s = .next (endSession s sid) := by
  simp only [execSessionIdleTimeout, hx, if_pos hidle]

theorem execChallengeLapse_late {sid : Nat} {c : Challenge} (hc : c ∈ s.host.challenges) (hsid : c.sid = sid)
    (hlate : c.at_ + 2000 ≤ s.mono) : execChallengeLapse sid s = .next (dropChallenge s sid) := by
  have late : (s.host.challenges.any fun c => c.sid == sid && decide (c.at_ + 2000 ≤ s.mono)) = true :=
    List.any_eq_true.mpr ⟨c, hc, by simp [hsid, hlate]⟩
  simp only [execChallengeLapse, late, if_true]

theorem dropChallenge_challenges (s : State) (sid : Nat) :
    ∀ c ∈ (dropChallenge s sid).host.challenges, c.sid ≠ sid := by
  intro c hc
  simpa using (List.mem_filter.mp hc).2

/-! ### Control commands -/

/-- An accepted control command is answered with what it gives a session of the role. -/
theorem ControlAccepted.next_control {act : State → Session → CtlReply × State} {r : CtlReply}
    (h : ControlAccepted s f code body x u) (hact : ∀ y : Session, y.role = x.role → act u y = (r, t)) :
    (.next (Machine.control s f code body act) : Out) = .next (replyCtl t f r) := by
  obtain ⟨y, -, hrole, e⟩ := h.control act
  rw [e, hact y hrole]

theorem execResultGet_complete {opId : Nat} {y : Op} (h : ControlAccepted s f 0x04 (toBe 4 opId) x u)
    (hy : s.host.ops.find? (fun y => y.opId == opId && (y.role == x.role || x.role == 1)) = some y)
    (hc : y.complete = true) : execResultGet f opId s =
      .next (replyCtl u f ⟨y.cmd.code, true, y.cls, resultStatus y, opId, resultPayload y⟩) := by
  obtain ⟨-, hops, -⟩ := h.state_eq
  exact h.next_control fun z hrole => by simp only [hops, hrole, hy, hc, if_true]

/-- What may be released is told by the operations and the journal alone (R400, R406). -/
theorem ControlAccepted.ackable_eq (h : ControlAccepted s f code body x u) (role : Fin 4) :
    ackable u role = ackable s role := by
  obtain ⟨-, hops, hjournal⟩ := h.state_eq
  funext id
  rw [ackable, ackable, hops, hjournal]

theorem execResultAck_named {opIds : List Nat}
    (h : ControlAccepted s f 0x05 (toBe 1 opIds.length ++ (opIds.map (toBe 4)).flatten) x u) (hne : opIds ≠ [])
    (hmost : opIds.length ≤ 64) : execResultAck f opIds s =
      .next (replyCtl ((opIds.eraseDups.filter (ackable s x.role)).foldl releaseResult u) f
        ⟨0x05, false, f.cls, .ok, 0, toBe 1 (opIds.eraseDups.filter (ackable s x.role)).length⟩) := by
  have count : ¬(opIds.length = 0 ∨ 64 < opIds.length) := by
    have := List.length_pos_iff.mpr hne
    omega
  exact h.next_control fun z hrole => by simp only [if_neg count, hrole, h.ackable_eq]

theorem execOpStatus_found {opId : Nat} {j : Jrn} (h : ControlAccepted s f 0x06 (toBe 4 opId) x u)
    (hj : s.host.journal.find? (·.opId == opId) = some j) :
    execOpStatus f opId s = .next (replyCtl u f ⟨0x06, false, f.cls, .ok, opId, j.bytes⟩) := by
  obtain ⟨-, -, hjournal⟩ := h.state_eq
  exact h.next_control fun z _ => by simp only [hjournal, hj]

end

/-- Settles O30: clause by clause, from what each command does in the case that the clause names. -/
theorem sessionsComplete : Obligations.SessionsComplete := by
  unfold Obligations.SessionsComplete
  exact ⟨fun s f hsid ho hb hf => execHello_outside hsid ho hb hf,
    fun s f x h hf => execHello_inside h hf,
    fun s f x h hf => execHelloClose_ends h hf,
    fun s f role nh hsid ho hb hheld hf hlen hses hcha hready hrole =>
      execAuthChallenge_opens hsid ho hb hheld hf hlen hses hcha hready hrole,
    fun s f ph c hc ho hb hf hlen hready hproof hheld hses =>
      execAuthProve_opens hc ho hb hf hlen hready hproof hheld hses,
    fun s sid x hx hidle => ⟨_, execSessionIdleTimeout_idle hx hidle, findSession_endSession .., endSession_transfers s sid⟩,
    fun s sid c hc hsid hlate => ⟨_, execChallengeLapse_late hc hsid hlate, dropChallenge_challenges s sid⟩,
    fun s f x u opId y h hy hc => execResultGet_complete h hy hc,
    fun s f x u opIds h hne hmost => execResultAck_named h hne hmost,
    fun s f x u opId j h hj => execOpStatus_found h hj⟩

end Sys2Proof.Machine
end

section
/-!
SUPPORT. The life of an operation and of its result, chunk time-outs, the SPI read, recovery, and frames of an unknown command
(R386, R395, R399 to R406, R412; O31).
-/
namespace Sys2Proof.Machine

section

variable {s : State} {x : Op} {id : Nat}

/-! ### Start and completion -/

theorem tryStart_starts (hx : s.host.ops.find? (·.opId == id) = some x) (hn : x.started = false)
    (h : mayStart s x = true) : tryStart s id = startOp s x := by
  simp only [tryStart, hx, hn, h, Bool.not_false, Bool.and_self, if_true]

/-- Only a KEY_DERIVE has a key to write as it completes (R424). -/
theorem deriveEnd_other (h : x.cmd.code ≠ 0x51) (st : Status) : deriveEnd s x st = s := by
  unfold deriveEnd
  split
  · rename_i hcmd
    exact absurd (congrArg HostCmd.code hcmd) h
  · rfl

/-- The operation as it completes with RGEN `gen`. -/
def Op.completed (x : Op) (gen now : Nat) : Op := { x with complete := true, rgen := gen, doneAt := now }

/-- The frames sent and the session that ends leave the operations and RGEN (R399, R428). -/
theorem finishOp_host {r : OpResult} (hr : x.result = some r) (hc : x.cmd.code ≠ 0x51) :
    (finishOp s x).host.rgen = (s.host.rgen + 1) % 2 ^ 32
      ∧ (finishOp s x).host.ops = s.host.ops.map fun y =>
        if y.opId = x.opId then x.completed ((s.host.rgen + 1) % 2 ^ 32) s.mono else y := by
  have hx (gen now : Nat) : x.completed gen now = { x.completed gen now with result := some r } := by
    rw [← hr]
    rfl
  rw [hx]
  unfold finishOp
  rw [hr]
  dsimp only
  rw [deriveEnd_other hc]
  split
  · exact ⟨rfl, rfl⟩
  · split
    · rw [endSession_host]
      exact ⟨rfl, rfl⟩
    · exact ⟨rfl, rfl⟩

theorem execOpComplete_started {r : OpResult}
    (hx : s.host.ops.find? (fun x => x.opId == id && x.started && !x.complete) = some x) (hr : x.result = some r)
    (hc : x.cmd.code ≠ 0x51) : ∃ t, execOpComplete id s = .next t ∧ t.host.rgen = (s.host.rgen + 1) % 2 ^ 32
      ∧ ∀ y ∈ t.host.ops, y.opId = x.opId → y.complete = true ∧ y.rgen = t.host.rgen ∧ y.result = some r := by
  obtain ⟨hgen, hops⟩ := finishOp_host (s := s) hr hc
  refine ⟨finishOp s x, by simp only [execOpComplete, hx], hgen, ?_⟩
  rw [hgen, hops]
  intro y hy hid
  obtain ⟨z, -, rfl⟩ := List.mem_map.mp hy
  split at hid
  · rename_i hz
    rw [if_pos hz]
    exact ⟨rfl, rfl, hr⟩
  · contradiction

/-! ### Release -/

/-- Nothing protects an entry whose hold is dropped (R403). -/
theorem dropHold_journal (s : State) (id : Nat) : ∀ j ∈ (dropHold s id).host.journal, j.opId = id → j.held = false := by
  intro j hj hid
  obtain ⟨k, -, rfl⟩ := List.mem_map.mp hj
  split at hid
  · rename_i hk
    rw [if_pos hk]
  · contradiction

theorem execResultHoldExpiry_late (hx : x ∈ s.host.ops) (hid : x.opId = id) (hc : x.complete = true)
    (hlate : x.doneAt + 60000 ≤ s.mono) : ∃ t, execResultHoldExpiry id s = .next t
      ∧ (∀ y ∈ t.host.ops, y.opId ≠ id) ∧ ∀ j ∈ t.host.journal, j.opId = id → j.held = false := by
  have late : (s.host.ops.any fun x => x.opId == id && x.complete && decide (x.doneAt + 60000 ≤ s.mono)) = true :=
    List.any_eq_true.mpr ⟨x, hx, by simp [hid, hc, hlate]⟩
  refine ⟨releaseResult s id, by simp only [execResultHoldExpiry, late, if_true], fun y hy => ?_, dropHold_journal _ id⟩
  simpa using (List.mem_filter.mp hy).2

theorem execRecoveredHoldExpiry_late {j : Jrn} (hj : j ∈ s.host.journal) (hid : j.opId = id) (hrec : j.recovered = true)
    (hlate : s.landfall.recoveredAt + 600000 ≤ s.mono) : execRecoveredHoldExpiry id s = .next (dropHold s id) := by
  have held : (s.host.journal.any fun j => j.opId == id && j.recovered) = true :=
    List.any_eq_true.mpr ⟨j, hj, by simp [hid, hrec]⟩
  simp only [execRecoveredHoldExpiry, held, hlate, decide_true, Bool.and_self, if_true]

/-! ### The SPI, recovery, and unknown commands -/

theorem execHspiReadTransaction_enabled (h : cfgB s 0x01 0 0x100 15 = true) {b : Bytes}
    (hb : b = ((s.host.out.find? fun f => f.via == .spi).map OutFrame.bytes).getD []) :
    execHspiReadTransaction s = .next { s with host := { s.host with
      out := s.host.out.eraseP fun f => f.via == .spi, miso := toBe 2 b.length ++ b } } := by
  subst hb
  simp only [execHspiReadTransaction, h, if_true]

theorem execRecoveryEnd_recovering (h : s.landfall.recovering = true) : ∃ t, execRecoveryEnd s = .next t
    ∧ t.landfall.recovering = false ∧ t.landfall.recoveryEnd = s.now ∧ t.landfall.recoveredAt = s.mono := by
  refine ⟨_, congrArg Host.Outcome.next (if_pos h), ?_⟩
  rw [(keep_clearFaults ..).same .landfall (by decide)]
  exact ⟨rfl, rfl, rfl⟩

/-- A request that is refused is answered with the status of the check that fails (R395). -/
theorem request_refused {f : Frame} {c : HostCmd} {x : Session} {st : Status} (h : Received s f c.code c.body x)
    (hadm : admission (noteFrame s f) x.role x.sid f c = st) (hst : st ≠ .ok) :
    request s f c = reply (noteFrame s f) f c.code false st 0 [] := by
  obtain ⟨y, hy, hsid, hrole, -⟩ := h.noted
  unfold request
  rw [receive_received h, hy, Option.getD_some, hrole, hsid, hadm]
  cases st with
  | ok => exact absurd rfl hst
  | _ => rfl

/-- An unknown code passes no check (R395). -/
theorem admission_unknown {role : Fin 4} (sid : Nat) (f : Frame) (n : Nat) (hd : landfallDone s = true)
    (hr : s.landfall.recovering = false) : admission s role sid f (.unknown n) = .badParam := by
  have open_ : openNow s role (.unknown n) = true := by simp [openNow, hd, hr]
  simp only [admission, open_, Bool.not_true, Bool.false_eq_true, if_true, if_false]

theorem execUnknownCommand_received {f : Frame} {x : Session} {code : Byte} (h : Received s f code.toNat [] x)
    (hd : landfallDone s = true) (hr : s.landfall.recovering = false) :
    execUnknownCommand f code s = .next (reply (noteFrame s f) f code.toNat false .badParam 0 []) :=
  congrArg Host.Outcome.next
    (request_refused (c := .unknown code.toNat) h (admission_unknown _ f _ hd hr) (by decide))

end

/-- Settles O31: clause by clause, from what each command does in the case that the clause names. -/
theorem operationsComplete : Obligations.OperationsComplete := by
  unfold Obligations.OperationsComplete
  exact ⟨fun s id x hx hn hm => congrArg Host.Outcome.next (tryStart_starts hx hn hm),
    fun s id x r hx hr hc => execOpComplete_started hx hr hc,
    fun s id x hx hid hc hlate => execResultHoldExpiry_late hx hid hc hlate,
    fun s sid cmd => ⟨_, rfl, congrArg HostIf.transfers (dropTransfers_host ..)⟩,
    fun s b h hb => execHspiReadTransaction_enabled h hb,
    fun s h => execRecoveryEnd_recovering h,
    fun s id j hj hid hrec hlate => ⟨_, execRecoveredHoldExpiry_late hj hid hrec hlate, dropHold_journal s id⟩,
    fun s f x code h hd hr => execUnknownCommand_received h hd hr⟩

end Sys2Proof.Machine
end

section
/-!
SUPPORT. Accepted operations on keys: import, derivation, invalidation, use and the attestation (R422 to R430; O35).
-/
namespace Sys2Proof.Machine

section

variable {s u v w : State} {id k : Nat} {role : Fin 4} {a m : Bytes} {up : TagUpsets}

/-! ### Import, derivation and invalidation -/

/-- A public key comes in clear (R422). -/
theorem runImport_clear (n : Unwrapped) (ha : attrsOk u k a = true) (hp : publicAlg (attrN a 1) = true)
    (hl : m.length = (algTable (attrN a 1)).1) :
    runImport u id k 0xFF a m n up = resolveOp (writeKey u (Fin.ofNat 128 k) a m id) id .ok [] := by
  simp only [runImport, ha, hp, hl, if_true, Bool.not_true, Bool.true_eq_false, Bool.false_eq_true, and_false, ne_eq,
    not_true_eq_false, false_and, or_self, if_false]

/-- A wrapped key is decrypted under an AES or SM2 slot of usage UNWRAP (R422, R423). -/
theorem runImport_wrapped {wrap : Nat} {wrapped inner : Bytes} {b : Fin 128} (hw : wrap ≠ 0xFF)
    (hb : b = pairBase u (Fin.ofNat 128 wrap)) (hv : v = checkTag u b up) (ha : attrsOk v k a = true)
    (hready : readyForUse v.locker.slot[b] = true) (husage : v.locker.slot[b].usage = 3)
    (hl : m.length = (algTable (attrN a 1)).1) (hinner : v.locker.slot[b].alg = 2 → inner = a) :
    runImport u id k wrap a wrapped (.ok inner m) up =
      resolveOp (writeKey (useSlot v b 1) (Fin.ofNat 128 k) a m id) id .ok [] := by
  have usable : ¬v.locker.slot[b].st = .unusable := by
    rw [readyForUse_st hready]
    decide
  have sound : ¬(v.locker.slot[b].alg = 2 ∧ ¬inner = a) := fun k => k.2 (hinner k.1)
  subst hb hv
  simp only [runImport, hw, ha, hready, husage, hl, usable, sound, Bool.not_true, Bool.true_eq_false,
    Bool.false_eq_true, and_false, false_and, ne_eq, not_true_eq_false, not_false_eq_true, or_self, if_false]

theorem runDerive_checked {p c : Nat} (hv : checkUse u (pairBase u (Fin.ofNat 128 p)) up [4] role = (.ok, v))
    (ha : attrsOk v c a = true) (halg : attrN a 1 ∈ ([0x01, 0x04, 0x05, 0x10] : List Nat)) (hp : attrN a 3 = p) :
    runDerive u id role p c a up = setResult (usedBy v (pairBase u (Fin.ofNat 128 p)) id) id .ok [] := by
  have sound : ¬(!attrsOk v c a || !([0x01, 0x04, 0x05, 0x10] : List Nat).contains (attrN a 1) || attrN a 3 != p)
      = true := by
    rw [ha, List.contains_iff_mem.mpr halg, hp, bne_self_eq_false]
    decide
  simp only [runDerive, hv]
  rw [if_neg sound]
  rfl

/-- A slot that KEY_INVALIDATE may name (Table 17-1), and that is VALID (R427). -/
theorem runInvalidate_valid (hk : k ∉ ([0, 1, 3, 5] : List Nat))
    (hst : u.locker.slot[pairBase u (Fin.ofNat 128 k)].st = .valid) :
    runInvalidate u id k = if u.locker.slot[pairBase u (Fin.ofNat 128 k)].users.isEmpty then
        invalidateNamed u (pairBase u (Fin.ofNat 128 k)) id
      else updSlot u (pairBase u (Fin.ofNat 128 k)) fun y => { y with root := y.root ++ [id] } := by
  have allowed : ¬(([0, 1, 3, 5] : List Nat).contains k = true
      ∨ u.locker.slot[pairBase u (Fin.ofNat 128 k)].st ≠ .valid) := by
    rw [List.contains_iff_mem]
    exact fun h => h.elim hk fun h => h hst
  rw [runInvalidate, if_neg allowed]

theorem runInvalidate_idle (hk : k ∉ ([0, 1, 3, 5] : List Nat))
    (hst : u.locker.slot[pairBase u (Fin.ofNat 128 k)].st = .valid)
    (hu : u.locker.slot[pairBase u (Fin.ofNat 128 k)].users = []) :
    runInvalidate u id k = invalidateNamed u (pairBase u (Fin.ofNat 128 k)) id := by
  rw [runInvalidate_valid hk hst, hu]
  exact if_pos rfl

/-- A slot in use waits for its boundary (R427). -/
theorem runInvalidate_inUse (hk : k ∉ ([0, 1, 3, 5] : List Nat))
    (hst : u.locker.slot[pairBase u (Fin.ofNat 128 k)].st = .valid)
    (hu : u.locker.slot[pairBase u (Fin.ofNat 128 k)].users ≠ []) : runInvalidate u id k =
      updSlot u (pairBase u (Fin.ofNat 128 k)) fun y => { y with root := y.root ++ [id] } := by
  rw [runInvalidate_valid hk hst, if_neg (by rwa [List.isEmpty_iff])]

/-! ### Use -/

/-- A KEY_USE that passes its checks gives its output from the key it has taken into use (R425). -/
theorem runUse_checked {usages : List Nat} {out : State → Slot → Bytes → Status × Bytes × State} {st : Status} {b : Bytes}
    {t : State} (hv : checkUse u (pairBase u (Fin.ofNat 128 k)) up usages role = (.ok, v))
    (hw : w = usedBy v (pairBase u (Fin.ofNat 128 k)) id)
    (hout : out w w.locker.slot[pairBase u (Fin.ofNat 128 k)] (keyOf w (pairBase u (Fin.ofNat 128 k))) = (st, b, t)) :
    runUse u id role k up usages out = setResult t id st b := by
  subst hw
  simp only [runUse, hv]
  exact congrArg (fun r : Status × Bytes × State => setResult r.2.2 id r.1 r.2.1) hout

@[simp] theorem engineBytes_length (code : Nat) (key input : Bytes) (n : Nat) :
    (engineBytes code key input n).length = n := by
  rw [engineBytes, List.length_map, List.length_range]

/-! ### The attestation -/

@[simp] theorem toBe_length : ∀ n v : Nat, (toBe n v).length = n
  | 0, _ => rfl
  | n + 1, v => by rw [toBe, List.length_cons, toBe_length n]

@[simp] theorem toLe_length : ∀ n v : Nat, (toLe n v).length = n
  | 0, _ => rfl
  | n + 1, v => by rw [toLe, List.length_cons, toLe_length n]

/-- The statement has the size of Table 17-5 (R430). -/
theorem attestStatement_length (s : State) (nonce : Bytes) : (attestStatement s nonce).length = 256 := by
  simp [attestStatement, le32]

theorem runAttest_usable {nonce : Bytes} (hv : v = checkTag u 0 up)
    (hst : v.locker.slot[(0 : Fin 128)].st ≠ .unusable) : ∃ t b, runAttest u id nonce up = setResult t id .ok b
      ∧ b.take 256 = attestStatement v nonce
      ∧ t.locker.slot[(0 : Fin 128)].users = id :: v.locker.slot[(0 : Fin 128)].users := by
  subst hv
  simp only [runAttest, if_neg hst, List.append_assoc]
  refine ⟨_, _, rfl, List.take_left' (attestStatement_length ..), ?_⟩
  simp only [signWith, useSlot, updSlot_locker_slot, upd_same]

end

end Sys2Proof.Machine
end

section
/-!
SUPPORT. Accepted operations on a firmware target: staging, verification and activation (R435 to R437; O35).
-/
namespace Sys2Proof.Machine

section

variable {s u v w : State} {id n : Nat} {up : TagUpsets}

/-! ### Staging -/

/-- The frame that carries an operation leaves the transfers (R412). -/
theorem Accepted.transfers_eq {f : Frame} {c : HostCmd} {x : Session} {op : Op} (h : Accepted s f c x u op) :
    u.host.transfers = s.host.transfers := by
  rw [h.state, setRunning, recordOp, reply]
  split <;> rfl

/-- A chunk taken by FW_STAGE (R412, R435). -/
theorem runStage_taken {sid : Nat} {k : Chunk} {l : Bool} {d : Bytes} (ha : activatingAny u = false)
    (hc : (u.host.transfers.any fun y => y.cmd == 0x60 && y.target == n && y.sid != sid) = false)
    (ht : takeChunk u sid 0x60 n k = (v, some (l, d)))
    (hw : w = updFw (writeStaged (if k.offset = 0 then eraseStaged v (fwIndex n) else v) (fwIndex n) k.offset k.data)
      (fwIndex n) fun y =>
        { y with stage := (if l then 2 else 1), stagedVer := 0, stagedLen := k.offset + k.data.length })
    (hb : buildTimeOk (stagedBytes w (fwIndex n)) = true) : runStage u id sid n k =
      setResult (setPilots (if l then updFw w (fwIndex n) fun y => { y with stagedVer := stagedVersion w (fwIndex n) }
        else w)) id .ok [] := by
  subst hw
  simp only [runStage, ha, hc, ht, hb, Bool.or_self, Bool.false_eq_true, if_true, if_false]

/-- The pilots and an operation's result leave the targets and what is staged. -/
theorem setResult_setPilots_fw (t : State) (id : Nat) (b : Bytes) :
    (setResult (setPilots t) id .ok b).fw = t.fw ∧ (setResult (setPilots t) id .ok b).flash = t.flash
      ∧ (setResult (setPilots t) id .ok b).merStage = t.merStage := by
  have pilots := (keep_setPilots t).same
  have result := (keep_setResult (setPilots t) id .ok b).same
  exact ⟨(result .fw (by decide)).trans (pilots .fw (by decide)),
    (result .flash (by decide)).trans (pilots .flash (by decide)),
    (result .merStage (by decide)).trans (pilots .merStage (by decide))⟩

/-- What FW_STAGE leaves when the chunk is taken. -/
theorem runStage_staged {sid : Nat} {k : Chunk} {l : Bool} {d : Bytes} (ha : activatingAny u = false)
    (hc : (u.host.transfers.any fun y => y.cmd == 0x60 && y.target == n && y.sid != sid) = false)
    (ht : takeChunk u sid 0x60 n k = (v, some (l, d)))
    (hw : w = updFw (writeStaged (if k.offset = 0 then eraseStaged v (fwIndex n) else v) (fwIndex n) k.offset k.data)
      (fwIndex n) fun y =>
        { y with stage := (if l then 2 else 1), stagedVer := 0, stagedLen := k.offset + k.data.length })
    (hb : buildTimeOk (stagedBytes w (fwIndex n)) = true) :
    (runStage u id sid n k).fw[fwIndex n].stage = (if l then 2 else 1)
      ∧ (runStage u id sid n k).fw[fwIndex n].stagedLen = k.offset + k.data.length
      ∧ (runStage u id sid n k).flash = w.flash ∧ (runStage u id sid n k).merStage = w.merStage := by
  have hstage : w.fw[fwIndex n].stage = (if l then 2 else 1)
      ∧ w.fw[fwIndex n].stagedLen = k.offset + k.data.length := by
    rw [hw, updFw, upd_same]
    exact ⟨rfl, rfl⟩
  obtain ⟨hfw, hflash, hmer⟩ := setResult_setPilots_fw
    (if l then updFw w (fwIndex n) fun y => { y with stagedVer := stagedVersion w (fwIndex n) } else w) id []
  rw [runStage_taken ha hc ht hw hb, hfw, hflash, hmer]
  cases l with
  | false => exact ⟨hstage.1, hstage.2, rfl, rfl⟩
  | true =>
    rw [if_pos rfl, updFw, upd_same]
    exact ⟨hstage.1, hstage.2, rfl, rfl⟩

/-! ### Verification -/

/-- An admitted FW_VERIFY names a target (R395). -/
theorem fwVerify_target_of_admission {role : Fin 4} {sid : Nat} {f : Frame} {g : Bool}
    (h : admission s role sid f (.fwVerify n g up) = .ok) : 1 ≤ n ∧ n ≤ 5 := by
  have hlayout : (HostCmd.fwVerify n g up).layoutOk s = true := by
    unfold admission at h
    simp only at h
    split_ifs at h with _ _ _ _ hraw
    simp_all
  exact of_decide_eq_true hlayout

/-- The chart is TARGET 5 (Table 17-7). -/
theorem fwIndex_eq_chart {n : Nat} (h : 1 ≤ n ∧ n ≤ 5) : fwIndex n = 4 ↔ n = 5 := by
  rw [Fin.ext_iff]
  have hval := fwIndex_add_one h
  change (fwIndex n).val = 4 ↔ n = 5
  omega

/-- A tag check leaves the targets and what is staged. -/
theorem checkTag_stagedBytes (u : State) (k : Fin 128) (up : TagUpsets) (i : Fin 5) :
    stagedBytes (checkTag u k up) i = stagedBytes u i := by
  have kept := (keep_checkTag u k up).same
  have hfw : (checkTag u k up).fw = u.fw := kept .fw (by decide)
  have hflash : (checkTag u k up).flash = u.flash := kept .flash (by decide)
  have hmer : (checkTag u k up).merStage = u.merStage := kept .merStage (by decide)
  simp only [stagedBytes, inactiveBase, hfw, hflash, hmer]

/-- A verified target holds the digest of its header (R436). -/
theorem verified_fw (t : State) (i : Fin 5) (id : Nat) (b c : Bytes) :
    let r := setResult (setPilots (updFw t i fun x => { x with stage := 3, stagedDigest := b })) id .ok c
    r.fw[i].stage = 3 ∧ r.fw[i].stagedDigest = b := by
  intro r
  obtain ⟨hfw, -⟩ := setResult_setPilots_fw (updFw t i fun x => { x with stage := 3, stagedDigest := b }) id c
  rw [hfw, updFw, upd_same]
  exact ⟨rfl, rfl⟩

/-- An image that passes R436's checks is VERIFIED. -/
theorem runVerify_image {g : Bool} (hn : fwIndex n ≠ 4) (hstage : 2 ≤ u.fw[fwIndex n].stage)
    (hst : (checkTag u 1 up).locker.slot[(1 : Fin 128)].st ≠ .unusable)
    (hok : imageVerdict n (stagedBytes u (fwIndex n)) g u.fw[fwIndex n].arb = .ok) :
    (runVerify u id n g up).fw[fwIndex n].stage = 3
      ∧ (runVerify u id n g up).fw[fwIndex n].stagedDigest = slice (stagedBytes u (fwIndex n)) 32 32 := by
  have hfw : (checkTag u 1 up).fw = u.fw := (keep_checkTag u 1 up).same .fw (by decide)
  simp only [runVerify, if_neg (Nat.not_lt.mpr hstage), if_neg hn, if_neg hst, hfw, checkTag_stagedBytes, hok]
  exact verified_fw ..

/-- So is a chart that passes R52's and R55's. -/
theorem runVerify_chart {g : Bool} (hstage : 2 ≤ u.fw[(4 : Fin 5)].stage)
    (hst : (checkTag u 2 up).locker.slot[(2 : Fin 128)].st ≠ .unusable)
    (hok : chartVerdict (checkTag u 2 up) (stagedBytes u 4) g = (.ok, v)) :
    (runVerify u id 5 g up).fw[(4 : Fin 5)].stage = 3
      ∧ (runVerify u id 5 g up).fw[(4 : Fin 5)].stagedDigest = slice (stagedBytes u 4) 32 32 := by
  have hi : fwIndex 5 = 4 := rfl
  simp only [runVerify, hi, if_neg (Nat.not_lt.mpr hstage), if_true, if_neg hst, checkTag_stagedBytes, hok]
  exact verified_fw ..

/-! ### Activation -/

/-- Only a VERIFIED Sextant image is activated (R437). -/
theorem stage_of_activateVerdict (h : activateVerdict u 1 = .ok) : u.fw[(1 : Fin 5)].stage = 3 := by
  unfold activateVerdict at h
  simp only at h
  split at h
  · cases h
  · change (if _ then Status.ok else .badState) = .ok at h
    split at h
    · simp_all
    · cases h

/-- A target as its activation begins (R437). -/
def FwTarget.activate (x : FwTarget) (now : Nat) : FwTarget :=
  { x with slotB := if x.stage = 3 then !x.slotB else x.slotB, activating := true, fallback := false, flipAt := now }

theorem runActivate_accepted (h : activateVerdict u 1 = .ok) : runActivate u id 2 =
    { stepDone (updFw (releaseToken u) 1 (·.activate u.mono)) id 1 with
      sx := { (releaseToken u).sx with up := false } } := by
  unfold runActivate
  extract_lets i
  rw [show activateVerdict u i = .ok from h]
  rfl

/-- Sextant's pointer flips, its first start begins, and its die stops (R437). -/
theorem runActivate_sextant (h : activateVerdict u 1 = .ok) : (runActivate u id 2).sx.up = false
    ∧ (runActivate u id 2).fw[(1 : Fin 5)].activating = true
    ∧ (runActivate u id 2).fw[(1 : Fin 5)].slotB = !u.fw[(1 : Fin 5)].slotB := by
  have hfw : (runActivate u id 2).fw = upd u.fw 1 (·.activate u.mono) := by
    rw [runActivate_accepted h, ← (keep_releaseToken u).same .fw (by decide)]
    rfl
  refine ⟨by rw [runActivate_accepted h], ?_⟩
  rw [hfw, upd_same]
  exact ⟨rfl, if_pos (stage_of_activateVerdict h)⟩

end

/-- Settles O35: an accepted operation has the effect of `runOp` at once, in a state that differs in the host interface
alone. -/
theorem keyOperationsComplete : Obligations.KeyOperationsComplete := by
  unfold Obligations.KeyOperationsComplete
  refine ⟨fun s f k a m w up x u op h ha hp hl => ?_, fun s f k w a wrapped i m up x u op v h hw hv ha hr hu hl hi => ?_,
    fun s f p c a ctx up x u op v h hv ha halg hp => ?_, fun s f k x u op h hk hst hu => ?_,
    fun s f k x u op h hk hst hu => ?_, fun s f k iv aad d up x u op v h hv => ?_,
    fun s f k iv aad d up x u op v h hv => ?_, fun s f k m up x u op v w h hv hw => ?_,
    fun s f k sg m ok up x u op v h hv => ?_, fun s f k m up x u op v w h hv hw => ?_,
    fun s f k up x u op v w h hv hw hp => ?_, fun s f n up x u op v h hv hst => ?_,
    fun s f n k x u op v l d w h ha hc ht hw hb => ?_, fun s f n g up x u op h hn hstage hst hok => ?_,
    fun s f g up x u op v h hstage hst hok => ?_, fun s f n x u op h _ => ?_, fun s f x u op h hok => ?_⟩
  · obtain ⟨i, rfl⟩ := h.state_host
    exact h.next_of_run_helm rfl (runImport_clear w ha hp hl)
  · exact h.next_of_run_helm rfl (runImport_wrapped hw rfl hv ha hr hu hl hi)
  · exact h.next_of_run_helm rfl (runDerive_checked hv ha halg hp)
  · obtain ⟨i, rfl⟩ := h.state_host
    exact h.next_of_run_helm rfl (runInvalidate_idle hk hst hu)
  · obtain ⟨i, rfl⟩ := h.state_host
    exact h.next_of_run_helm rfl (runInvalidate_inUse hk hst hu)
  · exact ⟨_, engineBytes_length .., h.next_of_run_helm rfl (runUse_checked hv rfl rfl)⟩
  · exact ⟨_, engineBytes_length .., h.next_of_run_helm rfl (runUse_checked hv rfl rfl)⟩
  · exact ⟨_, h.next_of_run_helm rfl (runUse_checked hv hw rfl)⟩
  · exact h.next_of_run_helm rfl (runUse_checked hv rfl rfl)
  · exact h.next_of_run_helm rfl (runUse_checked hv hw rfl)
  · exact h.next_of_run_helm rfl (runUse_checked hv hw (if_pos hp))
  · obtain ⟨t, b, hrun, hb, hu⟩ := runAttest_usable (id := op.opId) hv hst
    exact ⟨t, b, h.next_of_run_helm rfl hrun, hb, hu⟩
  · have staged := runStage_staged (id := op.opId) (u := u) (by rw [h.state_eq]; exact ha) (h.transfers_eq ▸ hc) ht hw hb
    exact ⟨_, h.next_of_run_helm rfl rfl, staged⟩
  · have hindex := (fwIndex_eq_chart (fwVerify_target_of_admission h.admitted)).not.mpr hn
    obtain ⟨i, rfl⟩ := h.state_host
    exact ⟨_, h.next_of_run_helm rfl rfl, runVerify_image hindex hstage hst hok⟩
  · obtain ⟨i, rfl⟩ := h.state_host
    exact ⟨_, h.next_of_run_helm rfl rfl, runVerify_chart hstage hst hok⟩
  · exact h.next_of_run rfl
  · obtain ⟨i, rfl⟩ := h.state_host
    obtain ⟨j, e⟩ := h.next_host rfl
    exact ⟨_, e, runActivate_sextant hok⟩

end Sys2Proof.Machine
end

section
/-!
SUPPORT. The worker: its STATUS, the allocation that it takes or fences off, and dead reckoning (R366, R371, R372; O28).
-/
namespace Sys2Proof.Machine

section

variable {s u : State} {h : SiteMsg} {p : SiteMsg → Bool}

/-- The state with a message for Helm taken out of the inbox (log 58). -/
def afterHeard (s : State) (h : SiteMsg) : State := { s with txl := { s.txl with inbox := s.txl.inbox.erase h } }

theorem takeHeard_state (ht : takeHeard s p = some (h, u)) : u = afterHeard s h := by
  obtain ⟨m, -, e⟩ := Option.map_eq_some_iff.mp ht
  obtain ⟨rfl, rfl⟩ := Prod.mk.inj e
  rfl

/-! ### STATUS -/

theorem execWorkerStatusSend_worker (hrole : s.landfall.role = 0) (hrun : helmRuns s = true)
    (hready : s.landfall.hostReady = true) (hlinks : linksUp s = true) :
    execWorkerStatusSend s = .next (sendCtrl { s with wrk := { s.wrk with
      count := (s.wrk.count + 1) % 2 ^ 32, reportDue := false } } 0xFFFF
      (ctrlHead s.wrk.epoch false 3 0 ((s.wrk.count + 1) % 2 ^ 32) 0 ++ statusBody (myStatus s))) := by
  have due : (s.landfall.role == 0 && helmRuns s && s.landfall.hostReady && linksUp s) = true := by
    rw [hrole, hrun, hready, hlinks]
    rfl
  exact congrArg Host.Outcome.next (if_pos due)

/-! ### The allocation -/

theorem setAlloc_wrk (s : State) (kW dr : Nat) :
    (setAlloc s kW dr).wrk = { s.wrk with alloc := kW, drState := dr } := by
  unfold setAlloc
  extract_lets wrk t
  split
  · rfl
  · exact (keep_postSplit t).same .wrk (by decide)

theorem setAlloc_txl (s : State) (kW dr : Nat) : (setAlloc s kW dr).txl = s.txl :=
  (keep_setAlloc s kW dr).same .txl (by decide)

/-- The worker with the pair and CYCLE of a message, and its own entry as P_last (R371). -/
def heldAlloc (s : State) (m : AllocMsg) (e : AllocEntry) : State :=
  { s with wrk := { s.wrk with
    epoch := m.epoch, rank := m.rank, cycle := some m.cycle, node := m.node, last := some e.alloc, lastAt := s.mono } }

/-- A first message of its pair is accepted: the allocation changes, then the phases of the AFE3 stages (R371). -/
theorem workerAlloc_accepted {m : AllocMsg} {e : AllocEntry}
    (hle : pairLe s.wrk.epoch s.wrk.rank m.epoch m.rank = true) (hcycle : s.wrk.cycle = none) (hm : m.entries = [e])
    (he : e.node = nodeId s) : ∃ (l : List (Fin 8)) (f : StageAux → StageAux),
      workerAlloc s m = l.foldl (fun v g => updAux v g f) (setAlloc (heldAlloc s m e) e.alloc 0) := by
  unfold workerAlloc
  extract_lets same newer wrk t held
  have ht : t = { s with wrk := { s.wrk with epoch := m.epoch, rank := m.rank, cycle := none } } := by
    unfold t
    split
    · obtain ⟨hepoch, hrank⟩ := Bool.and_eq_true_iff.mp ‹same = true›
      rw [beq_iff_eq.mp hepoch, beq_iff_eq.mp hrank, ← hcycle]
    · rfl
  have hheld : held = { s.wrk with epoch := m.epoch, rank := m.rank, cycle := none } := congrArg State.wrk ht
  have hnewer : newer = true := by
    unfold newer
    rw [hcycle]
  have hfind : m.entries.find? (fun x => x.node == nodeId s) = some e := by
    rw [hm]
    exact List.find?_cons_of_pos (beq_iff_eq.mpr he)
  rw [if_neg (by rw [hle, hnewer, Bool.not_true, Bool.and_false]; decide), hfind, hheld, ht]
  exact ⟨afeStages (setAlloc (heldAlloc s m e) e.alloc 0), fun a => { a with
    phTgt := e.syncPh, roseChanged := a.roseChanged || decide (a.phTgt ≠ e.syncPh ∧ a.phEff ≠ e.syncPh) }, rfl⟩

/-- What the worker holds after a message that it accepts (R371). -/
theorem workerAlloc_taken {m : AllocMsg} {e : AllocEntry}
    (hle : pairLe s.wrk.epoch s.wrk.rank m.epoch m.rank = true) (hcycle : s.wrk.cycle = none) (hm : m.entries = [e])
    (he : e.node = nodeId s) :
    (workerAlloc s m).wrk = { (heldAlloc s m e).wrk with alloc := e.alloc, drState := 0 }
      ∧ (workerAlloc s m).txl = s.txl := by
  obtain ⟨l, f, hw⟩ := workerAlloc_accepted hle hcycle hm he
  have phases (v : State) (g : Fin 8) : (updAux v g f).wrk = v.wrk ∧ (updAux v g f).txl = v.txl := ⟨rfl, rfl⟩
  rw [hw, foldl_same (π := State.wrk) fun v g => (phases v g).1, foldl_same (π := State.txl) fun v g => (phases v g).2,
    setAlloc_wrk, setAlloc_txl]
  exact ⟨rfl, rfl⟩

/-- A message of an older pair is fenced off (R371). -/
theorem workerAlloc_fenced {m : AllocMsg} (hle : pairLe s.wrk.epoch s.wrk.rank m.epoch m.rank = false) :
    workerAlloc s m = { s with wrk := { s.wrk with fenced := satInc 16 s.wrk.fenced } } := by
  unfold workerAlloc
  rw [hle]
  rfl

/-- The oldest ALLOC or CURTAIL message is the worker's to judge. -/
theorem execAllocMessageRx_worker (hrun : helmRuns s = true) (hlinks : linksUp s = true) (hrole : s.landfall.role = 0)
    (ht : takeHeard s (fun h => h.isCtrl [1, 2]) = some (h, u)) :
    execAllocMessageRx s = .next (workerAlloc u h.alloc) := by
  have role : (u.landfall.role == 0) = true := by
    rw [takeHeard_state ht]
    exact beq_iff_eq.mpr hrole
  simp only [execAllocMessageRx, hrun, hlinks, ht, hearAlloc, role, Bool.not_true, Bool.or_self, Bool.false_eq_true,
    if_true, if_false]

/-! ### Dead reckoning -/

theorem drAlloc_fresh {age : Nat} (last : Nat) (h : age ≤ 200) : drAlloc s age last = (last, 0) := by
  have young : age < 5000 := by omega
  simp only [drAlloc, if_pos h, if_pos (Or.inl young : age < 5000 ∨ last ≤ pSafe s)]

theorem drAlloc_old {age last : Nat} (h : 15000 ≤ age) (hp : pSafe s ≤ last) : drAlloc s age last = (pSafe s, 3) := by
  have fresh : ¬age ≤ 200 := by omega
  have young : ¬age < 5000 := by omega
  have middle : ¬age < 15000 := by omega
  simp only [drAlloc, if_neg fresh, if_neg middle, young, false_or, if_false]
  split
  · rw [Nat.le_antisymm ‹last ≤ pSafe s› hp]
  · rfl

theorem execDeadReckoningTick_worker (hrole : s.landfall.role = 0) (hrun : helmRuns s = true)
    (hready : s.landfall.hostReady = true) : execDeadReckoningTick s = .next (match s.wrk.last with
      | none => setAlloc s (pSafe s) 3
      | some p => setAlloc s (drAlloc s (s.mono - s.wrk.lastAt) p).1 (drAlloc s (s.mono - s.wrk.lastAt) p).2) := by
  have due : (s.landfall.role == 0 && helmRuns s && s.landfall.hostReady) = true := by
    rw [hrole, hrun, hready]
    rfl
  exact congrArg Host.Outcome.next (if_pos due)

end

/-- Settles O28: clause by clause, from what each command does in the case that the clause names. -/
theorem workerCompletes : Obligations.WorkerCompletes := by
  unfold Obligations.WorkerCompletes
  refine ⟨fun s hrole hrun hready hlinks => execWorkerStatusSend_worker hrole hrun hready hlinks,
    fun s h u m e hrun hlinks hrole ht hm hle hcycle hentries he => ?_,
    fun s h u hrun hlinks hrole ht hle => ?_, fun s hrole hrun hready hlast => ?_,
    fun s p hrole hrun hready hlast hold hp => ?_, fun s p hrole hrun hready hlast hfrom hage => ?_⟩
  · obtain rfl := takeHeard_state ht
    subst hm
    obtain ⟨hwrk, htxl⟩ := workerAlloc_taken (s := afterHeard s h) hle hcycle hentries he
    refine ⟨_, execAllocMessageRx_worker hrun hlinks hrole ht, ?_⟩
    rw [hwrk, htxl]
    exact ⟨rfl, rfl, rfl, rfl, rfl, rfl, rfl, rfl⟩
  · have hwrk : u.wrk = s.wrk := (congrArg State.wrk (takeHeard_state ht)).trans rfl
    rw [exec_allocMessageRx, execAllocMessageRx_worker hrun hlinks hrole ht, workerAlloc_fenced (hwrk ▸ hle)]
  · rw [exec_deadReckoningTick, execDeadReckoningTick_worker hrole hrun hready, hlast]
  · rw [exec_deadReckoningTick, execDeadReckoningTick_worker hrole hrun hready, hlast]
    dsimp only
    rw [drAlloc_old (by omega) hp]
  · rw [exec_deadReckoningTick, execDeadReckoningTick_worker hrole hrun hready, hlast]
    dsimp only
    rw [drAlloc_fresh p (by omega)]

end Sys2Proof.Machine
end

section
/-!
SUPPORT. The manager: its inputs, the allocation it publishes, the token, and what it hears of the other manager (R366 to
R383; O29).
-/
namespace Sys2Proof.Machine

section

variable {s u : State} {h : SiteMsg} {b : MgrBeacon}

/-! ### What the parts of a manager's step leave unchanged -/

theorem sendBeacon_mgr (s : State) (active renew release : Bool) : (sendBeacon s active renew release).mgr = s.mgr :=
  (keep_sendBeacon s active renew release).same .mgr (by decide)

theorem sendBeacon_ll (s : State) (active renew release : Bool) : (sendBeacon s active renew release).ll = s.ll :=
  (keep_sendBeacon s active renew release).same .ll (by decide)

theorem publish_ll (s : State) (kind : Nat) : (publish s kind).ll = s.ll :=
  (keep_publish s kind).same .ll (by decide)

/-- A cycle published leaves the role and the token as they are (R369). -/
theorem publish_token (s : State) (kind : Nat) : (publish s kind).mgr.role = s.mgr.role
    ∧ (publish s kind).mgr.epoch = s.mgr.epoch ∧ (publish s kind).mgr.takeover = s.mgr.takeover := by
  simp only [publish, sendCtrl_mgr, setAllocs, and_self]

/-- An ALLOC published counts CYCLE on and stores the ramped targets (R367 to R369). -/
theorem publish_alloc (s : State) : (publish s 1).mgr.cycle = (s.mgr.cycle + 1) % 2 ^ 32
    ∧ ∀ w : Fin 32, (publish s 1).mgr.worker[w].alloc = (ramped s (targets s))[w] := by
  unfold publish
  simp only [sendCtrl_mgr, setAllocs, true_and]
  intro w
  simp

/-! ### The token -/

/-- Below the last epoch the token is taken: the next epoch, and the Log-line's mastership (R374, R361). -/
theorem takeToken_taken (hlt : max s.mgr.epoch s.mgr.heardHigh < 0xFFFFFFFF) : (takeToken s).mgr.role = .active
    ∧ (takeToken s).mgr.epoch = max s.mgr.epoch s.mgr.heardHigh + 1
    ∧ (takeToken s).mgr.takeover = satInc 16 s.mgr.takeover ∧ (takeToken s).ll.isMaster = true := by
  unfold takeToken
  rw [if_neg (Nat.not_le.mpr hlt)]
  exact ⟨rfl, rfl, rfl, rfl⟩

theorem takeToken_worker (s : State) : (takeToken s).mgr.worker = s.mgr.worker := by
  unfold takeToken
  extract_lets top t
  split <;> rfl

theorem onQuorum_worker (s : State) : (onQuorum s).mgr.worker = s.mgr.worker := by
  unfold onQuorum
  split
  · rfl
  · extract_lets m t
    split
    · rfl
    · by_cases hl : s.mgr.role = .listening ∧ s.mgr.heardActive = false ∧ s.mgr.listens = if myRank s then 1 else 2
      · rw [if_pos hl]
        exact takeToken_worker t
      · rw [if_neg hl]

theorem onQuorum_txl (s : State) : (onQuorum s).txl = s.txl :=
  (keep_onQuorum s).same .txl (by decide)

/-- A manager that has listened its whole time in silence takes the token with quorum (R377). -/
theorem onQuorum_listened (hq : quorum s = true) (hrole : s.mgr.role = .listening) (hheard : s.mgr.heardActive = false)
    (hlistens : s.mgr.listens = if myRank s then 1 else 2) :
    onQuorum s = takeToken { s with mgr := { s.mgr with noQuorum := false } } := by
  unfold onQuorum
  rw [hq, if_neg (by decide), if_neg (by rw [hrole]; decide), if_pos ⟨hrole, hheard, hlistens⟩]

/-- It takes it in the case of R377 with the next epoch. -/
theorem onQuorum_takes (hq : quorum s = true) (hrole : s.mgr.role = .listening) (hheard : s.mgr.heardActive = false)
    (hlistens : s.mgr.listens = if myRank s then 1 else 2) (hlt : max s.mgr.epoch s.mgr.heardHigh < 0xFFFFFFFF) :
    (onQuorum s).mgr.role = .active ∧ (onQuorum s).mgr.epoch = max s.mgr.epoch s.mgr.heardHigh + 1 := by
  rw [onQuorum_listened hq hrole hheard hlistens]
  obtain ⟨role, epoch, -, -⟩ := takeToken_taken (s := { s with mgr := { s.mgr with noQuorum := false } }) hlt
  exact ⟨role, epoch⟩

/-! ### The other manager heard -/

/-- The manager with what any beacon or POLL of the other brings (R375, R378). -/
def peerHeard (m : Manager) (now : Nat) (b : MgrBeacon) : Manager :=
  { m with
    heardHigh := max m.heardHigh b.epoch
    peerHealth := if b.logLine then m.peerHealth else b.health
    peerTxl := if b.logLine then m.peerTxl else some now
    peerLl := if b.logLine then some now else m.peerLl
    heardActive := m.heardActive || b.active
    leaseAt := if b.active && (b.renew || b.logLine) then now else m.leaseAt
    peerLost := false }

/-- A Turxel beacon without ACTIVE is only noted (R375, R378). -/
theorem peerHeard_quiet {m : Manager} (now : Nat) (hlost : m.peerLost = false) (hll : b.logLine = false)
    (hactive : b.active = false) : peerHeard m now b =
      { m with heardHigh := max m.heardHigh b.epoch, peerHealth := b.health, peerTxl := some now } := by
  cases m
  obtain rfl := hlost
  simp only [peerHeard, hll, hactive, Bool.or_false, Bool.false_and, Bool.false_eq_true, if_false]

theorem hearManager_quiet (hlost : s.mgr.peerLost = false) (hll : b.logLine = false) (hactive : b.active = false)
    (htoken : b.tokenReq = false) (hrelease : b.release = false) : hearManager s b = { s with mgr := { s.mgr with
      heardHigh := max s.mgr.heardHigh b.epoch, peerHealth := b.health, peerTxl := some s.mono } } := by
  have step : hearManager s b = { s with mgr := peerHeard s.mgr s.mono b } := by
    cases b
    obtain rfl := hactive
    obtain rfl := htoken
    obtain rfl := hrelease
    unfold hearManager
    rw [hlost]
    rfl
  rw [step, peerHeard_quiet s.mono hlost hll hactive]

/-- A standby does not yield. -/
theorem yieldTo_standby (hrole : s.mgr.role = .standby) (epoch : Nat) (rank : Bool) : yieldTo s epoch rank = s := by
  unfold yieldTo acting
  rw [hrole]
  simp

/-- The other manager noted, and its loss cleared (R375, R378, R383). -/
def peerNoted (s : State) (b : MgrBeacon) : State :=
  let t := { s with mgr := peerHeard s.mgr s.mono b }
  if s.mgr.peerLost then logClear t 0x0705 .external 0 else t

theorem peerNoted_mgr (s : State) (b : MgrBeacon) : (peerNoted s b).mgr = peerHeard s.mgr s.mono b := by
  unfold peerNoted
  extract_lets t
  split <;> rfl

theorem isManager_congr (hrole : u.landfall = s.landfall) : isManager u = isManager s := by
  simp only [isManager, hrole]

theorem quorum_congr (hcfg : u.cfg = s.cfg) (hworker : u.mgr.worker = s.mgr.worker) (hmono : u.mono = s.mono) :
    quorum u = quorum s := by
  have entries : enabled u = enabled s := by simp only [enabled, smEn, cfgB, cfgN, cfgWord, hcfg]
  have fresh (w : Fin 32) : statusWithin u w 1200 = statusWithin s w 1200 := by
    unfold statusWithin
    rw [hworker, hmono]
  unfold quorum
  rw [entries, funext fresh]

theorem keep_peerNoted (s : State) (b : MgrBeacon) : Keeps [.mgr, .log, .flt] s (peerNoted s b) := by
  have heard : Keeps [.mgr, .log, .flt] s { s with mgr := peerHeard s.mgr s.mono b } := Keeps.upd_mgr (Keeps.refl _ _) (by decide)
  exact Keeps.ite (heard.trans ((keep_logClear _ _ _ _).mono (by decide))) heard

/-- The part in the site and quorum are read from nothing that a beacon brings. -/
theorem peerNoted_reads (s : State) (b : MgrBeacon) :
    isManager (peerNoted s b) = isManager s ∧ quorum (peerNoted s b) = quorum s := by
  have kept := (keep_peerNoted s b).same
  exact ⟨isManager_congr (kept .landfall (by decide)), quorum_congr (kept .cfg (by decide))
    ((congrArg Manager.worker (peerNoted_mgr s b)).trans rfl) (kept .mono (by decide))⟩

/-- A RELEASE that a standby with quorum hears brings it the token at once (R379). -/
theorem hearManager_release (hm : isManager s = true) (hrole : s.mgr.role = .standby) (hq : quorum s = true)
    (hrelease : b.release = true) : hearManager s b = takeToken (peerNoted s b) := by
  obtain ⟨mgr, quor⟩ := peerNoted_reads s b
  have role : (peerNoted s b).mgr.role = .standby := by
    rw [peerNoted_mgr]
    exact hrole
  have unfolded : hearManager s b =
      let t := if b.active then yieldTo (peerNoted s b) b.epoch b.rank else peerNoted s b
      let t := if b.tokenReq && !myRank s && decide (t.mgr.role = .active) then
        { t with mgr := { t.mgr with tokenReq := true } } else t
      if b.release then hearRelease t else t := rfl
  have ready : (isManager (peerNoted s b) && decide ((peerNoted s b).mgr.role = .standby)
      && quorum (peerNoted s b)) = true := by
    rw [mgr, quor, role, hm, hq]
    rfl
  have inactive : decide ((peerNoted s b).mgr.role = .active) = false := decide_eq_false (by rw [role]; decide)
  rw [unfolded, yieldTo_standby role, ite_self]
  dsimp only
  rw [inactive, Bool.and_false, if_neg Bool.false_ne_true, if_pos hrelease]
  exact if_pos ready

/-! ### The offsets of the AFE3 stages (R373) -/

/-- What INTERLEAVE_RECOMPUTE makes of one transformer group. -/
def interleaveGroup (s t : State) (grp : Nat) : State :=
  if grp = 0 then t
  else
    let o := groupOrder s grp
    (o.zipIdx).foldl (fun u p =>
      let c := cfgN s 0x60 (p.1 + 1) 0x000 23 19
      if c = 0 then u else updWorker u p.1 fun x => { x with syncPh := interleave p.2 o.length c }) t

theorem interleaveGroup_empty {grp : Nat} (t : State) (ho : groupOrder s grp = []) : interleaveGroup s t grp = t := by
  unfold interleaveGroup
  rw [ho]
  exact ite_self t

theorem interleaveGroup_single {w : Fin 32} (t : State) (ho : groupOrder s 1 = [w])
    (hc : 0 < cfgN s 0x60 (w + 1) 0x000 23 19) : interleaveGroup s t 1 =
      updWorker t w fun x => { x with syncPh := interleave 0 1 (cfgN s 0x60 (w + 1) 0x000 23 19) } := by
  unfold interleaveGroup
  rw [if_neg (by decide), ho]
  exact if_neg (Nat.ne_of_gt hc)

/-- Groups above the first without a running stage leave the first group's offsets alone. -/
theorem interleaveGroups_single {w : Fin 32} (t : State) (ho : groupOrder s 1 = [w])
    (hrest : ∀ grp, 2 ≤ grp → groupOrder s grp = []) (hc : 0 < cfgN s 0x60 (w + 1) 0x000 23 19) :
    (List.range 32).foldl (interleaveGroup s) t =
      updWorker t w fun x => { x with syncPh := interleave 0 1 (cfgN s 0x60 (w + 1) 0x000 23 19) } := by
  have groups : List.range 32 = 0 :: 1 :: List.range' 2 30 := by decide
  rw [groups, List.foldl_cons, List.foldl_cons, interleaveGroup_single _ ho hc]
  refine List.foldlRecOn (motive := fun u => u = _) _ _ rfl fun u hu grp hgrp => ?_
  rw [interleaveGroup_empty u (hrest grp (List.mem_range'_1.mp hgrp).1)]
  exact hu

/-! ### The commands -/

theorem acting_isManager (ha : acting s = true) : isManager s = true := (Bool.and_eq_true_iff.mp ha).1

theorem acting_role (ha : acting s = true) : s.mgr.role = .active ∨ s.mgr.role = .releasing :=
  of_decide_eq_true (Bool.and_eq_true_iff.mp ha).2

/-- A STATUS of a known worker stands in its entry, and quorum is judged (R366, R376). -/
theorem takeStatus_known {m : StatusMsg} {w : Fin 32}
    (hw : (enabled s).find? (fun (w : Fin 32) => smNode s w == m.node) = some w) :
    (takeStatus s m).mgr.worker[w].status = some m ∧ (takeStatus s m).mgr.worker[w].at_ = s.mono
      ∧ (takeStatus s m).txl = s.txl := by
  unfold takeStatus
  rw [hw]
  dsimp only
  rw [onQuorum_worker, onQuorum_txl]
  simp only [updWorker, upd_same, and_self]

theorem execWorkerStatusRx_taken (hm : isManager s = true) (hrun : helmRuns s = true)
    (hlinks : linksUp s = true) (ht : takeHeard s (fun h => h.isCtrl [3]) = some (h, u)) :
    execWorkerStatusRx s = .next (takeStatus u h.status) := by
  unfold execWorkerStatusRx
  rw [hm, hrun, hlinks, ht]
  rfl

theorem execAllocCycle_acting (ha : acting s = true) (hrun : helmRuns s = true) (hlinks : linksUp s = true) :
    execAllocCycle s = .next (publish s 1) := by
  have due : (acting s && helmRuns s && linksUp s) = true := by rw [ha, hrun, hlinks]; rfl
  exact congrArg Host.Outcome.next (if_pos due)

theorem execShadowDiffClear_agreed {from_ : Nat} (hdiff : s.mgr.shadowDiff = true) (hfrom : s.mgr.agreeFrom = some from_)
    (hage : from_ + 60000 ≤ s.mono) : execShadowDiffClear s = .next (logClear
      { s with mgr := { s.mgr with shadowDiff := false, shadowRun := 0 } } (Config.eventCode 380) .helm 0) := by
  unfold execShadowDiffClear
  rw [hdiff, hfrom, Bool.true_and]
  exact congrArg Host.Outcome.next (if_pos (decide_eq_true hage))

theorem execParamMessage_sent (ha : acting s = true) (hrun : helmRuns s = true) (hlinks : linksUp s = true) :
    execParamMessage true s = .next (sendParam s) := by
  unfold execParamMessage
  rw [hrun, hlinks, ha]
  rfl

theorem execParamMessage_standby (hm : isManager s = true) (hrole : s.mgr.role = .standby) (hrun : helmRuns s = true)
    (hlinks : linksUp s = true) (ht : takeHeard s (fun h => h.isCtrl [4]) = some (h, u)) :
    execParamMessage false s = .next (holdParam u h.param) := by
  have due : (isManager s && decide (s.mgr.role = .standby)) = true := by rw [hm, hrole]; rfl
  unfold execParamMessage
  rw [hrun, hlinks, ht, if_neg (by decide), if_neg (by decide)]
  obtain rfl := takeHeard_state ht
  exact congrArg Host.Outcome.next (if_pos due)

theorem execInterleaveRecompute_due (ha : acting s = true) (hrejoin : s.mgr.rejoin = true) (hleave : s.mgr.leaveAt = none) :
    execInterleaveRecompute s = .next ((List.range 32).foldl (interleaveGroup s)
      { s with mgr := { s.mgr with rejoin := false, leaveAt := some s.mono } }) := by
  have due : (isManager s && decide (s.mgr.role = .standby ∨ s.mgr.role = .active ∨ s.mgr.role = .releasing)
      && s.mgr.rejoin && (match s.mgr.leaveAt with
      | some t => decide (t + 1000 ≤ s.mono)
      | none => true)) = true := by
    rw [acting_isManager ha, hrejoin, hleave, decide_eq_true (Or.inr (acting_role ha))]
    rfl
  exact congrArg Host.Outcome.next (if_pos due)

/-- The oldest beacon without RELEASE is heard. -/
theorem execManagerBeaconRx_heard (hm : isManager s = true) (hrun : helmRuns s = true) (hlinks : linksUp s = true)
    (ht : takeHeard s (fun h => h.cls == .beacon && !h.releases) = some (h, u)) :
    execManagerBeaconRx s = .next (hearManager u h.beacon) := by
  unfold execManagerBeaconRx
  rw [hm, hrun, hlinks, ht]
  rfl

/-- The oldest beacon with RELEASE is heard. -/
theorem execReleaseRx_heard (hm : isManager s = true) (hrun : helmRuns s = true) (hlinks : linksUp s = true)
    (ht : takeHeard s (fun h => h.cls == .beacon && h.releases) = some (h, u)) :
    execReleaseRx s = .next (hearManager u h.beacon) := by
  unfold execReleaseRx
  rw [hm, hrun, hlinks, ht]
  rfl

theorem execPeerLost_declared (hm : isManager s = true) (hrun : helmRuns s = true) (hlost : s.mgr.peerLost = false)
    (hdecl : declaredAt s ≤ s.mono) :
    execPeerLost s = .next (logDetect { s with mgr := { s.mgr with peerLost := true } } 0x0705 .external 0) := by
  have due : (isManager s && helmRuns s && !s.mgr.peerLost && decide (declaredAt s ≤ s.mono)) = true := by
    rw [hm, hrun, hlost, decide_eq_true hdecl]
    rfl
  exact congrArg Host.Outcome.next (if_pos due)

theorem execQuorumLost_acting (hm : isManager s = true) (hrun : helmRuns s = true) (hq : quorum s = false)
    (ha : acting s = true) (hend : quorumEnd s + 1200 ≤ s.mono) : execQuorumLost s = .next (stopActing
      (sendBeacon { s with mgr := { s.mgr with noQuorum := true } } true false true) .fenced) := by
  have due : (isManager s && helmRuns s && !quorum s && decide (quorumEnd s + 1200 ≤ s.mono)) = true := by
    rw [hm, hrun, hq, decide_eq_true hend]
    rfl
  unfold execQuorumLost
  rw [if_pos due, ha]
  rfl

theorem execListenEnd_due (hm : isManager s = true) (hrun : helmRuns s = true) (hrole : s.mgr.role = .listening)
    (hlistens : s.mgr.listens = 0) (hat : s.mgr.roleAt + 1500 ≤ s.mono) : execListenEnd s = .next
      (if s.mgr.heardActive then becomeStandby s else onQuorum { s with mgr := { s.mgr with listens := 1 } }) := by
  have due : (isManager s && helmRuns s
      && decide (s.mgr.role = .listening ∧ s.mgr.listens = 0 ∧ s.mgr.roleAt + 1500 ≤ s.mono)) = true := by
    rw [hm, hrun, decide_eq_true ⟨hrole, hlistens, hat⟩]
    rfl
  exact congrArg Host.Outcome.next (if_pos due)

theorem execAlternateListenEnd_due (hm : isManager s = true) (hrun : helmRuns s = true) (hrank : myRank s = false)
    (hrole : s.mgr.role = .listening) (hlistens : s.mgr.listens = 1) (hat : s.mgr.roleAt + 3000 ≤ s.mono) :
    execAlternateListenEnd s = .next
      (if s.mgr.heardActive then becomeStandby s else onQuorum { s with mgr := { s.mgr with listens := 2 } }) := by
  have due : (isManager s && helmRuns s && !myRank s
      && decide (s.mgr.role = .listening ∧ s.mgr.listens = 1 ∧ s.mgr.roleAt + 3000 ≤ s.mono)) = true := by
    rw [hm, hrun, hrank, decide_eq_true ⟨hrole, hlistens, hat⟩]
    rfl
  exact congrArg Host.Outcome.next (if_pos due)

/-- A standby that has taken the token, sent its first beacon and recorded the takeover (R378). -/
def tookOver (s : State) : State :=
  logMasked (sendBeacon { takeToken s with mgr := { (takeToken s).mgr with renewIn := 29 } } true true false)
    0x0704 .external 0

theorem tookOver_mgr (s : State) : (tookOver s).mgr = { (takeToken s).mgr with renewIn := 29 } :=
  ((keep_logMasked _ 0x0704 .external 0).same .mgr (by decide)).trans (sendBeacon_mgr _ true true false)

theorem tookOver_ll (s : State) : (tookOver s).ll = (takeToken s).ll :=
  ((keep_logMasked _ 0x0704 .external 0).same .ll (by decide)).trans (sendBeacon_ll _ true true false)

/-- The first ALLOC follows (R378). -/
theorem execStandbyTakeover_due (hm : isManager s = true) (hrun : helmRuns s = true) (hrole : s.mgr.role = .standby)
    (hq : quorum s = true) (hat : max (s.mgr.leaseAt + 1200) (declaredAt s) + 20 ≤ s.mono)
    (hlt : max s.mgr.epoch s.mgr.heardHigh < 0xFFFFFFFF) : execStandbyTakeover s = .next (publish (tookOver s) 1) := by
  have due : (isManager s && helmRuns s && decide (s.mgr.role = .standby) && quorum s
      && decide (max (s.mgr.leaseAt + 1200) (declaredAt s) + 20 ≤ s.mono)) = true := by
    rw [hm, hrun, hq, decide_eq_true hrole, decide_eq_true hat]
    rfl
  unfold execStandbyTakeover
  rw [if_pos due]
  exact congrArg Host.Outcome.next (if_pos (takeToken_taken hlt).1)

theorem execTokenRelease_red (hred : healthGreen s = false) (hm : isManager s = true) (hrole : s.mgr.role = .active) :
    execTokenRelease s = .next (stopActing (sendBeacon s true false true) .standby) := by
  have holds : (isManager s && decide (s.mgr.role = .active)) = true := by rw [hm, decide_eq_true hrole]; rfl
  unfold execTokenRelease
  rw [hred]
  exact congrArg Host.Outcome.next (if_pos holds)

theorem execHealthReport_due (hm : isManager s = true) (hrun : helmRuns s = true) (hlinks : linksUp s = true)
    (hsus : suspended s 14 = false) : execHealthReport s = .next (sendBulk s 3 (healthReport s)) := by
  unfold execHealthReport
  rw [hm, hrun, hlinks, hsus]
  rfl

theorem execTokenRequestSet_due (hm : isManager s = true) (hrank : myRank s = true) (hrun : helmRuns s = true)
    (hrole : s.mgr.role = .standby) (hrevert : cfgB s 0x60 0 0x00C 31 = true) (hgreen : healthGreen s = true)
    (hat : s.mgr.redAt + 60000 ≤ s.mono) :
    execTokenRequestSet s = .next { s with mgr := { s.mgr with tokenReq := true } } := by
  have due : (isManager s && myRank s && helmRuns s && decide (s.mgr.role = .standby) && cfgB s 0x60 0 0x00C 31
      && healthGreen s && decide (s.mgr.redAt + 60000 ≤ s.mono)) = true := by
    rw [hm, hrank, hrun, hrevert, hgreen, decide_eq_true hrole, decide_eq_true hat]
    rfl
  exact congrArg Host.Outcome.next (if_pos due)

theorem execRevertRelease_due (hm : isManager s = true) (hrank : myRank s = false) (hrun : helmRuns s = true)
    (hrole : s.mgr.role = .active) (hreq : s.mgr.tokenReq = true) : ∃ t, execRevertRelease s = .next t
      ∧ t.mgr = { (publish s 1).mgr with role := .releasing, roleAt := s.mono } := by
  have due : (isManager s && !myRank s && helmRuns s && decide (s.mgr.role = .active) && s.mgr.tokenReq) = true := by
    rw [hm, hrank, hrun, hreq, decide_eq_true hrole]
    rfl
  refine ⟨_, congrArg Host.Outcome.next (if_pos due), ?_⟩
  dsimp only
  rw [sendBeacon_mgr]

theorem execRevertTimeout_due (hrole : s.mgr.role = .releasing) (hat : s.mgr.roleAt + 300 ≤ s.mono) :
    execRevertTimeout s = .next (stopActing s .standby) :=
  congrArg Host.Outcome.next (if_pos (decide_eq_true ⟨hrole, hat⟩))

end

/-- Settles O29: clause by clause, from what each command does in the case that the clause names. -/
theorem managerCompletes : Obligations.ManagerCompletes := by
  unfold Obligations.ManagerCompletes
  refine ⟨fun s h u w hm hrun hlinks ht hw => ?_, fun s ha hrun hlinks => ?_, fun s from_ hdiff hfrom hage => ?_,
    fun s ha hrun hlinks => execParamMessage_sent ha hrun hlinks, fun s h u hm hrole hrun hlinks ht => ?_,
    fun s w ha hrejoin hleave hone hrest hc => ?_, fun s h u b hm hrun hlinks ht hb hactive hrel htok hlost hll => ?_,
    fun s hm hrun hlost hdecl => ?_, fun s hm hrun hq ha hend => ?_,
    fun s hm hrun hrole hlistens hat hheard => ?_, fun s hm hrun hrank hrole hlistens hat hheard hq hlt => ?_,
    fun s hm hrun hrank hrole hlistens hat hheard hq hlt => ?_, fun s hm hrun hrole hq hat hlt => ?_,
    fun s hred hm hrole => execTokenRelease_red hred hm hrole,
    fun s h u b hm hrun hlinks hrole hq ht hb hrel hlt => ?_,
    fun s hm hrun hlinks hsus => execHealthReport_due hm hrun hlinks hsus,
    fun s hm hrank hrun hrole hrevert hgreen hat => execTokenRequestSet_due hm hrank hrun hrole hrevert hgreen hat,
    fun s hm hrank hrun hrole hreq => ?_, fun s hrole hat => ?_⟩
  · have step := execWorkerStatusRx_taken hm hrun hlinks ht
    obtain rfl := takeHeard_state ht
    obtain ⟨status, at_, txl⟩ := takeStatus_known (s := afterHeard s h) hw
    exact ⟨_, step, status, at_, congrArg Turxel.inbox txl⟩
  · exact ⟨_, execAllocCycle_acting ha hrun hlinks, publish_alloc s⟩
  · exact ⟨_, execShadowDiffClear_agreed hdiff hfrom hage, rfl⟩
  · have step := execParamMessage_standby hm hrole hrun hlinks ht
    obtain rfl := takeHeard_state ht
    exact ⟨_, step, rfl, rfl⟩
  · rw [exec_interleaveRecompute, execInterleaveRecompute_due ha hrejoin hleave, interleaveGroups_single _ hone hrest hc]
  · subst hb
    rw [exec_managerBeaconRx, execManagerBeaconRx_heard hm hrun hlinks ht]
    obtain rfl := takeHeard_state ht
    exact congrArg Host.Outcome.next (hearManager_quiet (s := afterHeard s h) hlost hll hactive htok hrel)
  · exact ⟨_, execPeerLost_declared hm hrun hlost hdecl, rfl, rfl⟩
  · refine ⟨_, execQuorumLost_acting hm hrun hq ha hend, rfl, ?_, rfl⟩
    exact congrArg Manager.noQuorum (sendBeacon_mgr { s with mgr := { s.mgr with noQuorum := true } } true false true)
  · rw [exec_listenEnd, execListenEnd_due hm hrun hrole hlistens hat, if_pos hheard]
    rfl
  · refine ⟨_, execListenEnd_due hm hrun hrole hlistens hat, ?_⟩
    rw [hheard, if_neg Bool.false_ne_true]
    exact onQuorum_takes (s := { s with mgr := { s.mgr with listens := 1 } }) hq hrole hheard (if_pos hrank).symm hlt
  · refine ⟨_, execAlternateListenEnd_due hm hrun hrank hrole hlistens hat, ?_⟩
    rw [hheard, if_neg Bool.false_ne_true]
    exact onQuorum_takes (s := { s with mgr := { s.mgr with listens := 2 } }) hq hrole hheard
      (if_neg (Bool.not_eq_true _ ▸ hrank)).symm hlt
  · refine ⟨_, execStandbyTakeover_due hm hrun hrole hq hat hlt, ?_⟩
    obtain ⟨role, epoch, takeover, master⟩ := takeToken_taken hlt
    obtain ⟨pubRole, pubEpoch, pubTakeover⟩ := publish_token (tookOver s) 1
    rw [pubRole, pubEpoch, pubTakeover, publish_ll, tookOver_mgr, tookOver_ll]
    exact ⟨role, epoch, master, takeover⟩
  · subst hb
    have step := execReleaseRx_heard hm hrun hlinks ht
    obtain rfl := takeHeard_state ht
    have mgr := peerNoted_mgr (afterHeard s h) h.beacon
    obtain ⟨role, epoch, -, -⟩ := takeToken_taken (s := peerNoted (afterHeard s h) h.beacon) (by rw [mgr]; exact hlt)
    rw [hearManager_release (s := afterHeard s h) hm hrole hq hrel] at step
    refine ⟨_, step, ?_⟩
    exact ⟨role, epoch.trans (by rw [mgr]; rfl)⟩
  · obtain ⟨t, step, mgr⟩ := execRevertRelease_due hm hrank hrun hrole hreq
    exact ⟨t, step, congrArg Manager.role mgr, (congrArg Manager.cycle mgr).trans (publish_alloc s).1⟩
  · exact ⟨_, execRevertTimeout_due hrole hat, rfl, rfl, rfl⟩

end Sys2Proof.Machine
end

section
/-!
SUPPORT. The Turxel links: PHY polls and path health, received frames, beacons, PTP and network requests (R325 to R330,
R337 to R340, R375; O25).
-/
namespace Sys2Proof.Machine

section

variable {s : State} {p : Fin 2} {f : TxlFrame} {x : TxlRx} {key : Bytes}

/-! ### Path health (R325, R337) -/

/-- A link whose health is lost reads so, and nothing else of the port changes. -/
theorem pathLost_port (s : State) (p : Fin 2) :
    (pathLost s p).txl.port[p] = { s.txl.port[p] with pathLost := true } := by
  unfold pathLost
  by_cases lost : s.txl.port[p].pathLost = true
  · rw [if_pos lost, ← lost]
  · rw [if_neg lost]
    exact upd_same s.txl.port p fun x => { x with pathLost := true }

theorem pathLost_logged (hlost : s.txl.port[p].pathLost = false) : (pathLost s p).flt.lastCode = 0x0702 := by
  unfold pathLost
  rw [hlost]
  rfl

/-- The port after a poll: the link is up at 100 and 1000 Mbit/s full duplex only (R325). -/
def polledPort (s : State) (p : Fin 2) (up : Bool) (speed : Nat) (x : TxlPort) : TxlPort :=
  { x with
    mdio := mdioRead s p, link := up, speed := decide (speed = 1000) && up
    beaconFrom := if x.link then x.beaconFrom else s.mono }

theorem execPhyStatusPoll_polled {link duplex : Bool} {speed : Nat} {up : Bool} (hen : txlEn s p = true)
    (hnet : netRuns s = true) (hready : s.landfall.hostReady = true)
    (hup : (link && duplex && decide (speed = 100 ∨ speed = 1000)) = up) : execPhyStatusPoll p link speed duplex s =
      .next (if up then updTxlPort s p (polledPort s p up speed)
        else pathLost (updTxlPort s p (polledPort s p up speed)) p) := by
  have due : (txlEn s p && netRuns s && s.landfall.hostReady) = true := by rw [hen, hnet, hready]; rfl
  subst hup
  exact congrArg Host.Outcome.next (if_pos due)

theorem execPathLost_due (hen : txlEn s p = true) (hready : s.landfall.hostReady = true)
    (hlost : s.txl.port[p].link = false ∨ s.txl.port[p].beaconAt + 50 ≤ s.mono) :
    execPathLost p s = .next (pathLost s p) := by
  have silent : (!s.txl.port[p].link || decide (s.txl.port[p].beaconAt + 50 ≤ s.mono)) = true := by
    rcases hlost with down | old
    · rw [down]
      rfl
    · rw [decide_eq_true old, Bool.or_true]
  have due : (txlEn s p && s.landfall.hostReady
      && (!s.txl.port[p].link || decide (s.txl.port[p].beaconAt + 50 ≤ s.mono))) = true := by
    rw [silent, hen, hready]
    rfl
  exact congrArg Host.Outcome.next (if_pos due)

theorem execPathLostClear_due (hlost : s.txl.port[p].pathLost = true) (hlink : s.txl.port[p].link = true)
    (hat : s.mono < s.txl.port[p].beaconAt + 50) (hfrom : s.txl.port[p].beaconFrom + 1000 ≤ s.mono) :
    execPathLostClear p s =
      .next (logClear (updTxlPort s p fun x => { x with pathLost := false }) 0x0702 .helm p) := by
  have due : (s.txl.port[p].pathLost && s.txl.port[p].link && decide (s.mono < s.txl.port[p].beaconAt + 50
      ∧ s.txl.port[p].beaconFrom + 1000 ≤ s.mono)) = true := by
    rw [hlost, hlink, decide_eq_true ⟨hat, hfrom⟩]
    rfl
  exact congrArg Host.Outcome.next (if_pos due)

/-! ### Received frames (R326 to R330) -/

/-- A frame of another EtherType or size is dropped (R326). -/
theorem execTurxelFrameRx_dropped (hen : txlEn s p = true) (hnet : netRuns s = true)
    (hbad : etherOk s f.etype = false ∨ sizeOk f = false) :
    execTurxelFrameRx p f s = .next (updTxlPort s p fun x => { x with drop := satInc 16 x.drop }) := by
  have bad : (!etherOk s f.etype || !sizeOk f) = true := by
    rcases hbad with h | h
    · rw [h]
      rfl
    · rw [h, Bool.not_false, Bool.or_true]
  unfold execTurxelFrameRx
  rw [hen, hnet, if_neg (by decide), if_pos bad]

/-- A Turxel frame that parses is judged (R330). -/
theorem execTurxelFrameRx_judged (hen : txlEn s p = true) (hnet : netRuns s = true)
    (hether : etherOk s f.etype = true) (hsize : sizeOk f = true) (htype : f.etype = cfgN s 0x50 0 0x000 31 16)
    (hx : parseTxl f.body = some x) : execTurxelFrameRx p f s = .next (judgeTxl s p x) := by
  unfold execTurxelFrameRx
  rw [hen, hnet, hether, hsize, hx, if_neg (by decide), if_neg (by decide), if_neg (not_not.mpr htype)]

/-- A frame of a class with LINK_MAC whose class is open and whose site is this one: the key is used, then LINK_MAC, DST
and LSEQ are checked (R330). -/
theorem judgeTxl_keyed (hopen : classOpen s p x = true) (hsite : x.site = siteId s) (hcls : x.cls ≠ .host)
    (hkey : s.txl.key = some key) : judgeTxl s p x =
      if x.mac ≠ (hmac key x.signed).take 8 then
        updTxlPort (useSlot s (linkSlot s) 1) p fun x => { x with macFail := satInc 16 x.macFail }
      else if x.dst ≠ nodeId s ∧ x.dst ≠ 0xFFFF then useSlot s (linkSlot s) 1
      else if !lseqOk s x p then
        updTxlPort (useSlot s (linkSlot s) 1) p fun x => { x with seqFail := satInc 16 x.seqFail }
      else acceptTxl (useSlot s (linkSlot s) 1) p x := by
  unfold judgeTxl
  rw [hopen, hkey, if_neg (by decide), if_neg (not_not.mpr hsite)]
  simp only [hcls, ne_eq, not_false_eq_true, true_and, if_false]

theorem execTurxelFrameRx_macFail (hen : txlEn s p = true) (hnet : netRuns s = true)
    (hether : etherOk s f.etype = true) (hsize : sizeOk f = true) (htype : f.etype = cfgN s 0x50 0 0x000 31 16)
    (hx : parseTxl f.body = some x) (hopen : classOpen s p x = true) (hsite : x.site = siteId s) (hcls : x.cls ≠ .host)
    (hkey : s.txl.key = some key) (hmac : x.mac ≠ (hmac key x.signed).take 8) : execTurxelFrameRx p f s =
      .next (updTxlPort (useSlot s (linkSlot s) 1) p fun y => { y with macFail := satInc 16 y.macFail }) := by
  rw [execTurxelFrameRx_judged hen hnet hether hsize htype hx, judgeTxl_keyed hopen hsite hcls hkey, if_pos hmac]

theorem execTurxelFrameRx_accepted (hen : txlEn s p = true) (hnet : netRuns s = true)
    (hether : etherOk s f.etype = true) (hsize : sizeOk f = true) (htype : f.etype = cfgN s 0x50 0 0x000 31 16)
    (hx : parseTxl f.body = some x) (hopen : classOpen s p x = true) (hsite : x.site = siteId s) (hcls : x.cls ≠ .host)
    (hkey : s.txl.key = some key) (hmac : x.mac = (hmac key x.signed).take 8)
    (hdst : x.dst = nodeId s ∨ x.dst = 0xFFFF) (hlseq : lseqOk s x p = true) :
    execTurxelFrameRx p f s = .next (acceptTxl (useSlot s (linkSlot s) 1) p x) := by
  rw [execTurxelFrameRx_judged hen hnet hether hsize htype hx, judgeTxl_keyed hopen hsite hcls hkey,
    if_neg (not_not.mpr hmac), if_neg (not_and_or.mpr (hdst.imp not_not.mpr not_not.mpr)), hlseq, if_neg (by decide)]

/-! ### What an accepted frame leaves (Table 13-2) -/

theorem acceptTxl_seen (s : State) (p : Fin 2) (x : TxlRx) :
    (acceptTxl s p x).txl.seen = (noteSeen s p x).txl.seen := by
  unfold acceptTxl
  cases x.cls with
  | safe => rfl
  | beacon => rfl
  | bulk => rfl
  | host => dsimp only; split <;> rfl
  | ctrl => dsimp only; split <;> rfl

/-- The order check's memory begins with the frame (R330). -/
theorem acceptTxl_noted (s : State) (p : Fin 2) (x : TxlRx) : ∃ past,
    (acceptTxl s p x).txl.seen.head? = some ⟨x.src, x.cls.code, p, x.lseq, s.mono, past⟩ := by
  rw [acceptTxl_seen]
  exact ⟨_, rfl⟩

theorem acceptTxl_fwd (hcls : x.cls = .safe) : (p, ⟨x.payload, x.portB, s.mono⟩) ∈ (acceptTxl s p x).txl.fwd := by
  unfold acceptTxl
  rw [hcls]
  exact List.mem_append_right _ (List.mem_singleton_self _)

theorem acceptTxl_beaconAt (hcls : x.cls = .beacon) : (acceptTxl s p x).txl.port[p].beaconAt = s.mono := by
  unfold acceptTxl
  rw [hcls]
  exact congrArg TxlPort.beaconAt (upd_same s.txl.port p _)

theorem acceptTxl_handed (hhost : x.cls ≠ .host) (hctrl : x.cls ≠ .ctrl) :
    (acceptTxl s p x).txl.handed = some (x.cls.code, x.src, x.lseq) := by
  unfold acceptTxl
  cases hcls : x.cls with
  | safe => rfl
  | beacon => rfl
  | bulk => rfl
  | host => exact absurd hcls hhost
  | ctrl => exact absurd hcls hctrl

/-! ### Beacons (R375) -/

theorem execBeaconSend_silent (hrun : helmRuns s = true) (hready : s.landfall.hostReady = true)
    (hlinks : linksUp s = true) (ha : acting s = false) : execBeaconSend s =
      .next (sendBeacon { s with mgr := { s.mgr with renewIn := 0 } } false false false) := by
  have due : (helmRuns s && s.landfall.hostReady && linksUp s) = true := by rw [hrun, hready, hlinks]; rfl
  have role : (isManager s && decide (s.mgr.role = .active ∨ s.mgr.role = .releasing)) = false := ha
  unfold execBeaconSend
  rw [if_pos due, role]
  rfl

theorem execBeaconSend_renewing (hrun : helmRuns s = true) (hready : s.landfall.hostReady = true)
    (hlinks : linksUp s = true) (ha : acting s = true) (hrenew : s.mgr.renewIn = 0) (hq : quorum s = true) :
    execBeaconSend s = .next (sendBeacon { s with mgr := { s.mgr with renewIn := 29 } } true true false) := by
  have due : (helmRuns s && s.landfall.hostReady && linksUp s) = true := by rw [hrun, hready, hlinks]; rfl
  have role : (isManager s && decide (s.mgr.role = .active ∨ s.mgr.role = .releasing)) = true := ha
  unfold execBeaconSend
  rw [if_pos due, role, hrenew, hq]
  rfl

/-! ### Time (R339) -/

/-- A message of the domain is judged on the port in use; an Announce on the preferred port takes it back. -/
theorem execPtpMessage_domain {dom : Nat} (hon : ptpOn s = true) (hen : txlEn s p = true) (hnet : netRuns s = true)
    (hdom : dom = cfgN s 0x50 0 0x040 23 16) : (ptpOn s && txlEn s p && netRuns s
      && decide (dom = cfgN s 0x50 0 0x040 23 16)) = true := by
  rw [hon, hen, hnet, decide_eq_true hdom]
  rfl

theorem execPtpMessage_announce {dom : Nat} (log : Int) (hon : ptpOn s = true) (hen : txlEn s p = true)
    (hnet : netRuns s = true) (hdom : dom = cfgN s 0x50 0 0x040 23 16) (hpref : p = ptpPref s)
    (hport : s.txl.ptp.port ≠ p) : execPtpMessage p dom (.announce log) s =
      .next (updPtp (usePtpPort s p) fun x => { x with annAt := s.mono, annLog := log }) := by
  have back : (p == ptpPref s && s.txl.ptp.port != p) = true := by
    rw [← hpref, beq_self_eq_true, bne_iff_ne.mpr hport]
    rfl
  unfold execPtpMessage
  rw [if_pos (execPtpMessage_domain hon hen hnet hdom)]
  dsimp only
  rw [if_pos back]
  exact congrArg Host.Outcome.next (if_pos rfl)

theorem execPtpMessage_sync {dom seq : Nat} {log : Int} {org corr rx : Int} (hon : ptpOn s = true) (hen : txlEn s p = true)
    (hnet : netRuns s = true) (hdom : dom = cfgN s 0x50 0 0x040 23 16) (hport : p = s.txl.ptp.port) :
    execPtpMessage p dom (.sync seq false log org corr rx) s = .next (completeSync
      (updPtp s fun y => { y with syncAt := s.mono, syncLog := log }) (org * 65536 + corr) (stampOf rx)) := by
  unfold execPtpMessage
  rw [if_pos (execPtpMessage_domain hon hen hnet hdom)]
  exact congrArg Host.Outcome.next (if_pos hport)

/-- A complete Sync is judged by its arrival less its origin and the path delay (R339, log 92). -/
theorem completeSync_judges (s : State) (origin rx : Int) : ∃ u,
    completeSync s origin rx = judgeOffset u (rx - origin - s.txl.ptp.delay) ∧ u.txl.ptp.good = s.txl.ptp.good :=
  ⟨_, rfl, rfl⟩

theorem judgeOffset_offset (s : State) (d : Int) :
    (judgeOffset s d).txl.ptp.offset = clampInt (-2147483648) 2147483647 (d / 65536) := by
  unfold judgeOffset
  extract_lets good t
  split
  · rfl
  · split <;> rfl

/-- An offset above 100 µs unlocks. -/
theorem judgeOffset_far {d : Int} (hd : 100000 * 65536 < d.natAbs) :
    (judgeOffset s d).txl.ptp.locked = false ∧ (judgeOffset s d).txl.ptp.good = 0 := by
  unfold judgeOffset
  rw [if_pos hd, if_neg (by omega)]
  exact ⟨rfl, rfl⟩

/-- The sixteenth offset in a row within 10 µs locks. -/
theorem judgeOffset_near {d : Int} (hd : d.natAbs ≤ 10000 * 65536) (hgood : 15 ≤ s.txl.ptp.good) :
    (judgeOffset s d).txl.ptp.locked = true ∧ (judgeOffset s d).txl.ptp.good = 16 := by
  have good : min 16 (s.txl.ptp.good + 1) = 16 := Nat.min_eq_left (by omega)
  unfold judgeOffset
  rw [if_pos hd, good, if_neg (by omega)]
  exact ⟨rfl, rfl⟩

theorem execPtpAnnounceTimeout_due (hon : ptpOn s = true)
    (hold : threeIntervals s s.txl.ptp.annAt s.txl.ptp.annLog = true) :
    execPtpAnnounceTimeout s = .next (usePtpPort s (1 - s.txl.ptp.port)) := by
  unfold execPtpAnnounceTimeout
  rw [hon, hold]
  rfl

theorem execPtpSyncTimeout_due (hon : ptpOn s = true)
    (hold : threeIntervals s s.txl.ptp.syncAt s.txl.ptp.syncLog = true) :
    execPtpSyncTimeout s = .next (setLocked (updPtp s fun x => { x with good := 0 }) false) := by
  unfold execPtpSyncTimeout
  rw [hon, hold]
  rfl

/-! ### Network requests (R340) -/

theorem execNetworkServiceRequest_answered {r : NetRequest} {a : NetAnswer} (ha : netAnswer s p r = some a)
    (hen : txlEn s p = true) (hnet : netRuns s = true) (hrun : helmRuns s = true) (hready : s.landfall.hostReady = true) :
    execNetworkServiceRequest p r s =
      .next { s with txl := { s.txl with answered := s.txl.answered + 1, answer := some (p, a) } } := by
  unfold execNetworkServiceRequest
  rw [ha, hen, hnet, hrun, hready]
  rfl

end

/-- Settles O25: clause by clause, from what each command does in the case that the clause names. -/
theorem turxelCompletes : Obligations.TurxelCompletes := by
  unfold Obligations.TurxelCompletes
  refine ⟨fun s p link speed duplex hen hnet hready hlink hduplex hspeed => ?_,
    fun s p link speed duplex hen hnet hready hdown => ?_, fun s p hen hready hlost hwhy => ?_,
    fun s p hlost hlink hat hfrom => ?_, fun s p f hen hnet hbad => execTurxelFrameRx_dropped hen hnet hbad,
    fun s p f x key hen hnet hether hsize htype hx hopen hsite hcls hkey hmac =>
      execTurxelFrameRx_macFail hen hnet hether hsize htype hx hopen hsite hcls hkey hmac,
    fun s p f x key hen hnet hether hsize htype hx hopen hsite hcls hkey hmac hdst hlseq => ?_,
    fun s hrun hready hlinks ha => ⟨_, execBeaconSend_silent hrun hready hlinks ha, rfl⟩,
    fun s hrun hready hlinks ha hrenew hq => execBeaconSend_renewing hrun hready hlinks ha hrenew hq,
    fun s p dom log hon hen hnet hdom hpref hport => execPtpMessage_announce log hon hen hnet hdom hpref hport,
    fun s p dom seq log org corr rx d hon hen hnet hdom hport hd => ?_,
    fun s hon hold => execPtpAnnounceTimeout_due hon hold,
    fun s hon hold => ⟨_, execPtpSyncTimeout_due hon hold, rfl, rfl⟩,
    fun s p r a ha hen hnet hrun hready => execNetworkServiceRequest_answered ha hen hnet hrun hready⟩
  · subst hlink hduplex
    have polled := execPhyStatusPoll_polled (link := true) (duplex := true) (speed := speed) (up := true) hen hnet hready
      (decide_eq_true hspeed)
    rw [exec_phyStatusPoll, polled, if_pos rfl]
    unfold polledPort
    rw [Bool.and_true]
  · have up : (link && duplex && decide (speed = 100 ∨ speed = 1000)) = false := by
      rcases hdown with rfl | rfl | ⟨h100, h1000⟩
      · rfl
      · rw [Bool.and_false, Bool.false_and]
      · rw [decide_eq_false (not_or.mpr ⟨h100, h1000⟩), Bool.and_false]
    refine ⟨_, execPhyStatusPoll_polled hen hnet hready up, ?_⟩
    rw [if_neg Bool.false_ne_true, pathLost_port]
    exact ⟨congrArg TxlPort.link (upd_same s.txl.port p _), rfl⟩
  · refine ⟨_, execPathLost_due hen hready hwhy, ?_, pathLost_logged hlost⟩
    rw [pathLost_port]
  · refine ⟨_, execPathLostClear_due hlost hlink hat hfrom, ?_, ?_⟩
    · exact congrArg TxlPort.pathLost (upd_same s.txl.port p _)
    · exact (congrArg TxlPort.link (upd_same s.txl.port p _)).trans hlink
  · obtain ⟨past, noted⟩ := acceptTxl_noted (useSlot s (linkSlot s) 1) p x
    exact ⟨_, _, execTurxelFrameRx_accepted hen hnet hether hsize htype hx hopen hsite hcls hkey hmac hdst hlseq, noted, rfl,
      acceptTxl_fwd, acceptTxl_beaconAt, acceptTxl_handed hcls⟩
  · subst hd
    refine ⟨_, execPtpMessage_sync hon hen hnet hdom hport, ?_⟩
    obtain ⟨u, judged, good⟩ := completeSync_judges (updPtp s fun y => { y with syncAt := s.mono, syncLog := log })
      (org * 65536 + corr) (stampOf rx)
    rw [judged]
    exact ⟨judgeOffset_offset u _, judgeOffset_far, fun near h => judgeOffset_near near (good ▸ h)⟩

end Sys2Proof.Machine
end

section
/-!
SUPPORT. The Log-line modem: the mains reference, received frames, maps, answers, relaying, polling and routing (R344 to
R362; O27).
-/
namespace Sys2Proof.Machine

section

variable {s : State} {h : LlTry} {f : LlRx}

/-! ### The mains reference (R344, R346) -/

/-- An edge while the reference holds is noted, and the reference goes on holding. -/
theorem execLlZcEdge_held (t : Nat) (hlost : s.ll.zcLost = false) : ∃ u, execLlZcEdge t s = .next u
    ∧ u.ll.zcLast = some t ∧ u.ll.zcMiss = 0 ∧ u.ll.zcLost = false := by
  unfold execLlZcEdge
  rw [hlost]
  exact ⟨_, rfl, rfl, rfl, hlost⟩

/-- The tenth good edge in a row brings a lost reference back. -/
theorem execLlZcEdge_regained {p t : Nat} (hlost : s.ll.zcLost = true) (hlast : s.ll.zcLast = some p)
    (ht : p + nominalT s = t) (hnom : 0 < nominalT s) (hgood : 9 ≤ s.ll.zcGood) :
    ∃ u, execLlZcEdge t s = .next u ∧ u.ll.zcLost = false ∧ u.ll.period = nominalT s := by
  have gap : t - p = nominalT s := by omega
  have good : decide ((nominalT s - nominalT s + (nominalT s - nominalT s)) * 50 ≤ nominalT s) = true :=
    decide_eq_true (by omega)
  have near : 2 * nominalT s ≤ 3 * nominalT s ∧ 0 < nominalT s := ⟨by omega, hnom⟩
  have tenth : decide (10 ≤ s.ll.zcGood + 1) = true := decide_eq_true (by omega)
  unfold execLlZcEdge
  simp only [hlost, hlast, Option.map_some, gap, good, near, and_self, if_true, tenth, Bool.and_self]
  exact ⟨_, rfl, rfl, rfl⟩

theorem execLlZcMissed_fifth (hmiss : 4 ≤ s.ll.zcMiss) (hlost : s.ll.zcLost = false) :
    ∃ t, execLlZcMissed s = .next t ∧ t.ll.zcLost = true ∧ t.ll.refAt = s.ll.refAt + s.ll.period ∧ t.ll.zcGood = 0 := by
  have fifth : 5 ≤ s.ll.zcMiss + 1 ∧ s.ll.zcLost = false := ⟨by omega, hlost⟩
  exact ⟨_, congrArg Host.Outcome.next (if_pos fifth), rfl, rfl, rfl⟩

theorem execLlZcMissed_earlier (hmiss : s.ll.zcMiss < 4) : execLlZcMissed s = .next { s with ll := { s.ll with
    zcMiss := s.ll.zcMiss + 1, zcGood := 0, zcLast := none, refAt := s.ll.refAt + s.ll.period } } := by
  have early : ¬(5 ≤ s.ll.zcMiss + 1 ∧ s.ll.zcLost = false) := by omega
  exact congrArg Host.Outcome.next (if_neg early)

/-! ### Received frames (R352 to R354) -/

theorem execLlFrameReceived_judged {x : LlAir} (hup : llUp s = true)
    (hsent : s.ll.sentTo ≤ slotTime s (x.slot + x.idle)) : execLlFrameReceived x s =
      .next (judgeLl (learnNoise (useSlot s (linkSlot s) 1) x (rxSlots s x).1 (rxSlots s x).2
          (decodeLl s ((rxSlots s x).1.drop x.idle) (x.slot + x.idle)))
        (decodeLl s ((rxSlots s x).1.drop x.idle) (x.slot + x.idle))) := by
  have open_ : ¬(!llUp s || decide (slotTime s (x.slot + x.idle) < s.ll.sentTo)) = true := by
    rw [hup, decide_eq_false (by omega)]
    decide
  exact congrArg Host.Outcome.next (if_neg open_)

theorem logInfo_ll (s : State) (code : Nat) (src : LogSrc) (arg : Nat) : (logInfo s code src arg).ll = s.ll :=
  (keep_logInfo s code src arg).same .ll (by decide)

theorem noteStep_ll (s : State) (a : Fin 34) : (noteStep s a).ll = { s.ll with stepCnt := satInc 16 s.ll.stepCnt } :=
  logInfo_ll ..

/-- A segment judged leaves the count of lost frames and the mastership as they are. -/
theorem segStep_ll (s : State) (a : Fin 34) (seg : Fin 12) (err : Bool) :
    (segStep s a seg err).ll.lost = s.ll.lost ∧ (segStep s a seg err).ll.isMaster = s.ll.isMaster := by
  unfold segStep
  extract_lets x t u
  split
  · simp only [updLlPeer, and_self]
  · split
    · simp only [t, updLlPeer, and_self]
    · split
      · simp only [u, t, updLlPeer, and_self]
      · simp only [noteStep_ll, u, t, updLlPeer, and_self]

theorem segSteps_lost (s : State) (a : Fin 34) (h : LlTry) (isLost : Bool) : (segSteps s a h isLost).ll.lost = s.ll.lost :=
  foldl_same (π := fun t => t.ll.lost) (fun t _ => (segStep_ll t a _ _).1) _ s

theorem segSteps_isMaster (s : State) (a : Fin 34) (h : LlTry) (isLost : Bool) :
    (segSteps s a h isLost).ll.isMaster = s.ll.isMaster :=
  foldl_same (π := fun t => t.ll.isMaster) (fun t _ => (segStep_ll t a _ _).2) _ s

/-- A frame that a node other than the master awaits and that does not pass is counted lost, and awaited no longer
(R352, log 24). -/
theorem judgeLl_lost {a : Fin 34} (hgood : h.good = false) (ha : llExpected s = some a) (hm : s.ll.isMaster = false) :
    (judgeLl s h).ll.lost = satInc 16 s.ll.lost ∧ (judgeLl s h).ll.await = none := by
  have slave : (llDiscard (segSteps s a h true)).ll.isMaster = false := (segSteps_isMaster s a h true).trans hm
  unfold judgeLl loseFrame
  rw [hgood, ha]
  dsimp only
  rw [slave, Bool.false_and, if_pos (by decide), if_neg Bool.false_ne_true]
  exact ⟨congrArg (satInc 16) (segSteps_lost s a h true), rfl⟩

/-- A frame that does not pass, with none awaited and no sound header for this node, changes nothing (log 24). -/
theorem judgeLl_unheard (hgood : h.good = false) (ha : llExpected s = none) (hs : (h.sound && llForUs s h.frame) = false) :
    judgeLl s h = s := by
  unfold judgeLl loseFrame
  rw [hgood, ha]
  dsimp only
  rw [hs]
  rfl

/-- A frame noted: counted, no longer awaited, remembered against its copies, and its sender heard (R352). -/
def frameNoted (s : State) (f : LlRx) : State :=
  updLlPeer { s with ll := { s.ll with
      ok := satInc 16 s.ll.ok
      await := if s.ll.await = some f.sender then none else s.ll.await
      recent := (f.src, f.seq, s.mono) :: s.ll.recent.filter fun r => decide (s.mono ≤ r.2.2 + 2000)
      dead := s.ll.dead.filter fun l => l != (llAddr s, f.sender.val) && l != (f.sender.val, llAddr s) } }
    f.sender fun y => { y with heard := true, heardAt := s.mono }

/-- No copy of the frame has come before, and no POLL of another master (R352, Table 14-3): the frame is accepted. -/
theorem acceptLl_first (hrecent : s.ll.recent = []) (hmaster : f.kind ≠ 1 ∨ s.ll.beaconAt = none) : acceptLl s f =
    if f.kind = 1 then takePoll (frameNoted s f) f
    else if llForUs (frameNoted s f) f then takeReply (frameNoted s f) f else frameNoted s f := by
  have dup : (s.ll.recent.any fun r => r.1 == f.src && r.2.1 == f.seq && decide (s.mono ≤ r.2.2 + 2000)) = false := by
    rw [hrecent]
    rfl
  have other : (decide (f.kind = 1) && s.ll.beaconAt.isSome && s.ll.master != f.src
      && !pairLe s.ll.masterEpoch (s.ll.master == 0) (beNat (slice f.payload 4 4)) (f.src == 0)) = false := by
    rcases hmaster with kind | beacon
    · rw [decide_eq_false kind, Bool.false_and, Bool.false_and, Bool.false_and]
    · rw [beacon, Option.isSome_none, Bool.and_false, Bool.false_and, Bool.false_and]
  unfold acceptLl
  rw [dup, other]
  rfl

/-- A POLL for another node, heard by a worker, changes only what is known of the master (R355, R362). -/
theorem takePoll_other (hm : isManager s = false) (hus : llForUs s f = false) : (takePoll s f).ll.ok = s.ll.ok
    ∧ (takePoll s f).ll.recent = s.ll.recent ∧ (takePoll s f).ll.peer = s.ll.peer := by
  unfold takePoll
  extract_lets gap ll t u v
  have worker : u = t := if_neg (Bool.eq_false_iff.mp ((isManager_congr rfl).trans hm))
  rw [if_pos (Or.inr hus), worker]
  exact ⟨rfl, rfl, rfl⟩

theorem frameNoted_peer (s : State) (f : LlRx) : (frameNoted s f).ll.peer[f.sender].heard = true
    ∧ (frameNoted s f).ll.peer[f.sender].heardAt = s.mono := by
  simp only [frameNoted, updLlPeer, upd_same, and_self]

/-- A frame that passes and is for another node is accepted from its sender's one map (R352, R353). -/
theorem judgeLl_passed (hgood : h.good = true) (hus : llForUs s h.frame = false) : judgeLl s h = acceptLl
    (updLlPeer { s with ll := { s.ll with busyTo := max s.ll.busyTo (slotTime s (h.frame.stop - 1) + 1000) } }
      h.frame.sender fun y => { y with oldMap := y.map }) h.frame := by
  unfold judgeLl
  rw [hgood, if_neg (by decide)]
  exact congrArg (acceptLl · h.frame) (if_neg (Bool.eq_false_iff.mp hus))

/-- The first frame of a source, for another node, at a worker (R352). -/
theorem acceptLl_other (hus : llForUs s f = false) (hrecent : s.ll.recent = [])
    (hmaster : f.kind ≠ 1 ∨ s.ll.beaconAt = none) (hm : isManager s = false) :
    (acceptLl s f).ll.ok = satInc 16 s.ll.ok ∧ (acceptLl s f).ll.recent = [(f.src, f.seq, s.mono)]
      ∧ (acceptLl s f).ll.peer[f.sender].heard = true ∧ (acceptLl s f).ll.peer[f.sender].heardAt = s.mono := by
  have recent : (frameNoted s f).ll.recent = [(f.src, f.seq, s.mono)] := by
    simp only [frameNoted, updLlPeer, hrecent, List.filter_nil]
  obtain ⟨heard, heardAt⟩ := frameNoted_peer s f
  by_cases kind : f.kind = 1
  · have poll : acceptLl s f = takePoll (frameNoted s f) f := (acceptLl_first hrecent hmaster).trans (if_pos kind)
    obtain ⟨ok', recent', peer'⟩ := takePoll_other (s := frameNoted s f) hm hus
    rw [poll, ok', recent', peer']
    exact ⟨rfl, recent, heard, heardAt⟩
  · have alone : acceptLl s f = frameNoted s f :=
      (acceptLl_first hrecent hmaster).trans ((if_neg kind).trans (if_neg (Bool.eq_false_iff.mp hus)))
    rw [alone]
    exact ⟨rfl, recent, heard, heardAt⟩

/-! ### Path health and maps (R354, R362) -/

theorem execLlPathLost_due (hlinks : linksUp s = true) (hready : s.landfall.hostReady = true)
    (hlost : s.ll.pathLost = false) (hm : s.ll.isMaster = false) (hat : s.ll.beaconAt.getD 0 + 750 ≤ s.mono) :
    execLlPathLost s = .next (logDetect { s with ll := { s.ll with pathLost := true } } 0x0703 .helm 0) := by
  have due : (linksUp s && s.landfall.hostReady && !s.ll.pathLost && !s.ll.isMaster
      && decide (s.ll.beaconAt.getD 0 + 750 ≤ s.mono)) = true := by
    rw [hlinks, hready, hlost, hm, decide_eq_true hat]
    rfl
  exact congrArg Host.Outcome.next (if_pos due)

theorem execLlPathClear_due {b : Nat} (hlost : s.ll.pathLost = true) (hb : s.ll.beaconAt = some b)
    (hat : s.mono < b + 750) (hfrom : s.ll.validFrom + 5000 ≤ s.mono) :
    execLlPathClear s = .next (logClear { s with ll := { s.ll with pathLost := false } } 0x0703 .helm 0) := by
  unfold execLlPathClear
  rw [hlost, hb, Bool.true_and]
  exact congrArg Host.Outcome.next (if_pos (decide_eq_true ⟨hat, hfrom⟩))

theorem execLlMapStepDown_due {a : Fin 34} {seg : Fin 12} (hheard : s.ll.peer[a].heard = true)
    (hmap : 0 < mapEntry s.ll.peer[a].map seg)
    (hat : s.ll.peer[a].errAt[seg] + cfgN s 0x51 0 0x008 31 24 * 1000 ≤ s.mono) : execLlMapStepDown a seg s =
      .next (noteStep (updLlPeer s a fun y => { y with
        map := mapSet y.map seg (mapEntry y.map seg - 1), oldMap := s.ll.peer[a].map, errAt := y.errAt.set seg s.mono }) a) := by
  have due : (s.ll.peer[a].heard && decide (0 < mapEntry s.ll.peer[a].map seg
      ∧ s.ll.peer[a].errAt[seg] + cfgN s 0x51 0 0x008 31 24 * 1000 ≤ s.mono)) = true := by
    rw [hheard, decide_eq_true ⟨hmap, hat⟩]
    rfl
  exact congrArg Host.Outcome.next (if_pos due)

/-! ### Sending (R351, R356, R359, R360) -/

/-- The cost of a map is read from the configuration and the mains period (R345, R348). -/
theorem mapCost_congr {u : State} (hcfg : u.cfg = s.cfg) (hperiod : u.ll.period = s.ll.period) (m : Nat) :
    mapCost u m = mapCost s m := by
  have slots : nSlot u = nSlot s := by
    unfold nSlot cfgB cfgN cfgWord
    rw [hcfg]
  have weight : slotWeight u m = slotWeight s m := by
    funext k
    unfold slotWeight slotSeg
    rw [slots, hperiod]
  unfold mapCost
  rw [slots, weight]

/-- A frame of this node's own takes the next number and is the last sent (R351). -/
theorem sendLl_sent {m : Nat} (hm : mapCost s m ≠ 0xFF) (k kind hops step : Nat) (more : Bool) (dst r1 r2 : Nat) (b : Bytes) :
    ∃ g, (sendLl s k kind hops step more dst r1 r2 b m).ll =
        { s.ll with seq := (s.ll.seq + 1) % 32, sent := some g, sentTo := g.endsAt } ∧ g.payload = b := by
  unfold sendLl
  rw [if_neg hm]
  exact ⟨_, rfl, rfl⟩

/-- A frame sent leaves the cycle as it is. -/
theorem sendLl_cycle (s : State) (k kind hops step : Nat) (more : Bool) (dst r1 r2 : Nat) (b : Bytes) (m : Nat) :
    (sendLl s k kind hops step more dst r1 r2 b m).ll.cycleOpen = s.ll.cycleOpen
      ∧ (sendLl s k kind hops step more dst r1 r2 b m).ll.turn = s.ll.turn
      ∧ (sendLl s k kind hops step more dst r1 r2 b m).ll.bmap = s.ll.bmap := by
  unfold sendLl
  split <;> exact ⟨rfl, rfl, rfl⟩

/-- An answer while no NEIGH report is due: RXMAP, then content (R356). -/
theorem execLlReplySend_content (hsends : llSends s = true) (hreply : s.ll.reply = some f)
    (hat : s.mono < s.ll.neighAt + 60000) (hleft : s.ll.neighLeft = []) : ∃ u k more r1 r2 b,
      execLlReplySend s = .next (sendLl u k 2 f.hops f.step more f.src r1 r2 (toBe 3 s.ll.peer[f.sender].map ++ b)
        (raiseMap s.ll.peer[f.sender].told f.step)) ∧ u.ll = { s.ll with reply := none } ∧ u.cfg = s.cfg := by
  have content : ¬(decide (s.ll.neighAt + 60000 ≤ s.mono) || !s.ll.neighLeft.isEmpty) = true := by
    rw [decide_eq_false (by omega), hleft]
    decide
  unfold execLlReplySend
  rw [hsends, hreply, if_neg (by decide)]
  exact ⟨_, _, _, _, _, _, congrArg Host.Outcome.next (if_neg content), rfl, rfl⟩

theorem llFrame_payload (s : State) (header : Nat) (b : Bytes) (m k : Nat) : (llFrame s header b m k).payload = b := rfl

/-- A REPLY or NEIGH goes on upstream unchanged (R359). -/
theorem execLlRelayForward_upstream (hsends : llSends s = true) (hrelay : s.ll.toRelay = some f) (hkind : f.kind ≠ 1) :
    ∃ t g, execLlRelayForward s = .next t ∧ t.ll.toRelay = none ∧ t.ll.relayed = some g ∧ g.payload = f.payload
      ∧ t.ll.seq = s.ll.seq := by
  unfold execLlRelayForward
  rw [hsends, hrelay, if_neg (by decide)]
  simp only [if_neg hkind]
  refine ⟨_, _, rfl, rfl, rfl, llFrame_payload .., ?_⟩
  dsimp only [useSlot, updSlot]

/-! ### The master (R355 to R361) -/

/-- The first frame of a cycle opens it (R355). -/
theorem openCycle_opened (s : State) :
    (openCycle s).ll.cycleOpen = true ∧ (openCycle s).ll.turn = 0 ∧ (openCycle s).ll.bmap = cycleBmap s := by
  unfold openCycle sendPoll
  exact sendLl_cycle ..

theorem execLlPollRound_opens (hsends : llSends s = true) (hm : s.ll.isMaster = true) (ha : acting s = true)
    (hexch : s.ll.exch = none) (hcycle : s.ll.cycleOpen = false) : execLlPollRound s = .next (openCycle s) := by
  unfold execLlPollRound
  rw [hsends, hm, ha, hexch, hcycle]
  rfl

/-- The master at the end of its wait for a reply: the line is busy until then (R357). -/
def waitOver (s : State) : State := { s with ll := { s.ll with busyTo := slotTime s (answerSlot s) + 8000 } }

theorem execLlReplyWaitEnd_waiting {e : LlExchange} (hm : s.ll.isMaster = true) (hexch : s.ll.exch = some e)
    (hwait : e.waiting = true) : execLlReplyWaitEnd s = .next (loseExchange (waitOver s)) := by
  have due : (s.ll.isMaster && llWaits s) = true := by
    unfold llWaits
    rw [hm, hexch]
    exact hwait
  exact congrArg Host.Outcome.next (if_pos due)

/-- An exchange lost before its third try is retried with the next STEP (R360). -/
theorem loseExchange_retried {e : LlExchange} (hexch : s.ll.exch = some e) (hstep : e.step < 2) :
    (loseExchange s).ll.retry = satInc 16 s.ll.retry
      ∧ (loseExchange s).ll.exch = some { e with step := e.step + 1, round := 0, waiting := false } := by
  unfold loseExchange
  rw [hexch]
  dsimp only
  rw [if_pos hstep]
  exact ⟨rfl, rfl⟩

/-- After the third try it is given up (R360). -/
theorem loseExchange_missed {e : LlExchange} (hexch : s.ll.exch = some e) (hstep : 2 ≤ e.step) :
    (loseExchange s).ll.retry = s.ll.retry ∧ (loseExchange s).ll.exch = none := by
  unfold loseExchange
  rw [hexch]
  dsimp only
  rw [if_neg (by omega)]
  rw [logInfo_ll]
  exact ⟨rfl, rfl⟩

theorem execLlRouteRebuild_master (hm : s.ll.isMaster = true) (hlinks : s.ll.links ≠ []) : execLlRouteRebuild s =
    .next { s with ll := { s.ll with
      route := Vector.ofFn fun k => (candidates s (k + 2)).foldl betterRoute {} } } := by
  have reports : ¬s.ll.links.isEmpty = true := List.isEmpty_iff.not.mpr hlinks
  unfold execLlRouteRebuild
  rw [if_pos hm]
  exact congrArg Host.Outcome.next (if_neg reports)

/-- A node that is not the master notes its own unusable link, and rebuilds nothing (R361). -/
theorem execLlLinkUnusable_own {a b : Fin 34} (hm : s.ll.isMaster = false)
    (hown : a.val = llAddr s ∧ ownLinkGone s b = true ∨ b.val = llAddr s ∧ ownLinkGone s a = true) :
    execLlLinkUnusable a b s = .next { s with ll := { s.ll with
      dead := (a.val, b.val) :: s.ll.dead.filter (· ≠ (a.val, b.val)) } } := by
  have own : ((a.val == llAddr s && ownLinkGone s b) || (b.val == llAddr s && ownLinkGone s a)) = true := by
    simpa only [Bool.or_eq_true, Bool.and_eq_true, beq_iff_eq] using hown
  unfold execLlLinkUnusable
  dsimp only
  rw [own, hm, Bool.and_false, Bool.false_and, if_neg Bool.false_ne_true]
  exact congrArg Host.Outcome.next (if_pos rfl)

end

/-- Settles O27: clause by clause, from what each command does in the case that the clause names. -/
theorem logLineCompletes : Obligations.LogLineCompletes := by
  unfold Obligations.LogLineCompletes
  refine ⟨fun s t hlost => execLlZcEdge_held t hlost,
    fun s p t hlost hlast ht hnom hgood => execLlZcEdge_regained hlost hlast ht hnom hgood,
    fun s hmiss hlost => execLlZcMissed_fifth hmiss hlost, fun s hmiss => execLlZcMissed_earlier hmiss,
    fun s x r h hup hsent hr hh => ?_, fun s h hgood hus hrecent hmaster hm => ?_,
    fun s h a hgood ha hm => judgeLl_lost hgood ha hm, fun s h hgood ha hs => judgeLl_unheard hgood ha hs,
    fun s hlinks hready hlost hm hat => ?_, fun s b hlost hb hat hfrom => ?_,
    fun s a seg hheard hmap hat => ?_, fun s f hsends hreply hat hleft hcost => ?_,
    fun s f hsends hrelay hkind => execLlRelayForward_upstream hsends hrelay hkind,
    fun s hsends hm ha hexch hcycle => ⟨_, execLlPollRound_opens hsends hm ha hexch hcycle, openCycle_opened s⟩,
    fun s e hm hexch hwait hstep => ⟨_, execLlReplyWaitEnd_waiting hm hexch hwait,
      loseExchange_retried (s := waitOver s) hexch hstep⟩,
    fun s e hm hexch hwait hstep => ⟨_, execLlReplyWaitEnd_waiting hm hexch hwait,
      loseExchange_missed (s := waitOver s) hexch hstep⟩,
    fun s hm hlinks => execLlRouteRebuild_master hm hlinks,
    fun s a b hm hown => execLlLinkUnusable_own hm hown⟩
  · subst hr hh
    exact execLlFrameReceived_judged hup hsent
  · rw [judgeLl_passed hgood hus]
    exact acceptLl_other hus hrecent hmaster hm
  · refine ⟨_, execLlPathLost_due hlinks hready hlost hm hat, ?_, rfl⟩
    exact (keep_logDetect _ 0x0703 .helm 0).same .ll (by decide)
  · refine ⟨_, execLlPathClear_due hlost hb hat hfrom, ?_⟩
    exact (keep_logClear _ 0x0703 .helm 0).same .ll (by decide)
  · refine ⟨_, execLlMapStepDown_due hheard hmap hat, ?_⟩
    rw [noteStep_ll]
    simp only [updLlPeer, upd_same, true_and]
    exact Vector.getElem_set_self ..
  · obtain ⟨u, k, more, r1, r2, b, step, ll, cfg⟩ := execLlReplySend_content hsends hreply hat hleft
    have cost := mapCost_congr cfg (by rw [ll]) (raiseMap s.ll.peer[f.sender].told f.step)
    obtain ⟨g, sent, payload⟩ := sendLl_sent (by rwa [cost]) k 2 f.hops f.step more f.src r1 r2
      (toBe 3 s.ll.peer[f.sender].map ++ b)
    refine ⟨_, g, step, ?_⟩
    rw [sent, ll, payload]
    exact ⟨rfl, rfl, rfl, List.take_left' (toBe_length 3 _)⟩

end Sys2Proof.Machine
end
